-- ==== Sys2Proof/Word.lean ====
section
/-! DEFINITION. The words of the GW7, and the plain finite map that holds sparse state.
Little-endian order (R9) is decided once, in `bytesOf` and `ofBytes` of Machine/Map.lean. -/
namespace Sys2Proof

abbrev Byte := BitVec 8
abbrev Word := BitVec 32
abbrev DWord := BitVec 64
/-- One engine instruction, 16 bytes (R198). -/
abbrev IWord := BitVec 128

/-- A sparse map from a natural number key: a list of pairs in rising key order that never lists a default value. -/
abbrev SMap (α : Type) := List (Nat × α)

/-- A byte as it moves inside the part: its value, and whether it came from a poisoned word (R127, R459). -/
structure PByte where
  b : Byte
  bad : Bool
  deriving DecidableEq, Repr

end Sys2Proof
end

