-- ==== Sys2Proof/Syntax.lean ====
section
/-! DEFINITION. The commands of the GW7, one constructor per row of spec/opcode_table.json, and the packets, frames and
messages that they carry. The operands of a row are what the spec says arrives from outside with it (an address, a packet,
a frame, a sample) and which unit it happens in. A row that a timer drives carries `dt`, the GSC counts that pass before it
(log entry 2). A row that an engine's instruction drives names the engine: the instruction itself stands in that engine's
queue, fetched from its instruction memory by ENGINE_FETCH. -/
namespace Sys2Proof

/-- The four engines of a tile (R60, R158, R130, R203). -/
inductive EngKind
  | mx | vx | dm | sy
  deriving DecidableEq, Repr

/-- An engine: one of a physical tile's four, or a collective engine (R197). -/
inductive Eng
  | tile (p : Fin 72) (k : EngKind)
  | ce (c : Fin 4)
  deriving DecidableEq, Repr

/-- A packet: the 24-byte header of R357, with its payload. -/
structure Packet where
  dst : BitVec 24
  src : BitVec 24
  gen : BitVec 8
  edn : BitVec 1
  vc : BitVec 3
  last : Bool
  poison : Bool
  rsig : Bool
  rsvA : Bool
  tid : BitVec 16
  pseq : BitVec 16
  typ : BitVec 4
  mc : Bool
  maxis : BitVec 2
  rsvB : Bool
  spanp : BitVec 6
  spann : BitVec 6
  dl : BitVec 4
  rctr : BitVec 8
  addr : BitVec 40
  len : BitVec 9
  hops : BitVec 8
  rsvC : BitVec 7
  payload : List PByte
  deriving DecidableEq, Repr

/-- One 1,024-byte flue frame (R331). The body is the packet bytes; CRC is the frame's last 8 bytes as received. -/
structure FlFrame where
  fseq : BitVec 12
  typ : BitVec 4
  ack : BitVec 12
  nak : Bool
  ts : Bool
  rot : Bool
  rsvA : Bool
  damper : BitVec 6
  rsvB : BitVec 2
  half : Bool
  rsvC : BitVec 7
  rsvD : BitVec 6
  tstamp : BitVec 64
  rotAt : BitVec 12
  rsvE : BitVec 4
  rotOld : BitVec 4
  rotNew : BitVec 4
  gen : BitVec 8
  rsvF : BitVec 32
  body : List PByte
  crc : BitVec 64
  deriving DecidableEq, Repr

/-- One Eboth frame (R576): its header fields, its body and the CRC as received. -/
structure EbFrame where
  lseq : BitVec 12
  kind : BitVec 4
  lack : BitVec 12
  nak : Bool
  rsvA : BitVec 3
  cred : BitVec 32
  mtype : BitVec 8
  status : BitVec 8
  len : BitVec 15
  rsvB : Bool
  tag : BitVec 16
  gen : BitVec 8
  rsvC : BitVec 8
  a : BitVec 64
  b : BitVec 64
  body : List Byte
  crc : BitVec 64
  deriving DecidableEq, Repr

/-- What discovery and the HELLO exchange tell of a flue's far end (R342, R548). -/
structure FluePeer where
  device : BitVec 64
  flue : BitVec 5
  slot : BitVec 3
  preset : BitVec 2
  deriving DecidableEq, Repr

/-- A firmware image as the NOR flash, a chip outside the part, holds it (R539 to R541). What the model does not compute
comes as booleans (log entry 5): `headOk` for MAGIC, STEP, the RSV bytes and its place in the slot, `digOk` for SM3 of the body,
`sigOk` for the certificate and the SM2 signature; `loads` says whether the block takes the image (R534). -/
structure FwImage where
  block : BitVec 16
  version : BitVec 32
  svn : BitVec 8
  digest : BitVec 256
  headOk : Bool
  digOk : Bool
  sigOk : Bool
  loads : Bool
  deriving DecidableEq, Repr

/-- The plan's line for one neighbour slot (R344): the device expected, or none, and its node ID. -/
structure PlanSlot where
  device : Option (BitVec 64)
  node : BitVec 16
  deriving DecidableEq, Repr

/-- One line error that a sweep or an access meets: the byte address of the word, the 36 error symbols of R456 as added to
the stored word (data symbols in [127:0], check symbols in [143:128]), and the address its word was really read from. -/
structure LineErr where
  addr : BitVec 40
  flip : BitVec 144
  readAt : BitVec 40
  deriving DecidableEq, Repr

/-- An uncorrectable word of a structure that the GW7 owns beside the catalogue (R464): 0 the folio state store, 1 the MGC data SRAM, 2 the
hint-cache tags (a tag bad in both of its copies); its fold address and its syndrome. -/
structure OwnedErr where
  kind : Fin 3
  addr : BitVec 40
  syn : BitVec 16
  deriving DecidableEq, Repr

/-- ENGINE_FETCH: the engine that fetches, the line errors that its word meets (R206), and whether state that the engine keeps in registers
shows a parity error (R462). -/
structure FetchIn where
  eng : Eng
  errs : List LineErr
  parity : Bool
  deriving DecidableEq, Repr

/-- ROUTER_PACKET_ARRIVAL: the flue that a packet comes by, none for a local endpoint, and whether its header is uncorrectable (R462). -/
structure ArriveIn where
  via : Option (Fin 18)
  lost : Bool
  deriving DecidableEq, Repr

/-- EDITION_SWITCH: the plan of the edition, where it brings a new one (R345, R346), and the GSC counts that pass first. -/
structure SwitchIn where
  plan : Option (List PlanSlot)
  dt : Nat
  deriving DecidableEq, Repr

/-- LANE_ROTATION_START: whether the codewords checked on the spare agree (R348), and the GSC counts that pass first. -/
structure RotateIn where
  same : Bool
  dt : Nat
  deriving DecidableEq, Repr

/-- HC_ACCESS: the line errors that it meets, the on-die ECC reports that come with it (R272), a word of the GW7's own that it meets (R467). -/
structure AccessIn where
  errs : List LineErr
  odecc : Nat
  owned : Option OwnedErr
  deriving DecidableEq, Repr

/-- MC_SWEEP_LINE: the line errors that it meets, the on-die ECC reports that come with it (R272), and the GSC counts that pass first. -/
structure SweepIn where
  errs : List LineErr
  odecc : Nat
  dt : Nat
  deriving DecidableEq, Repr

/-- RETIREMENT_MIGRATION_COMPLETE: the stack, the lines that its copy has reached, the line errors that it meets (R278). -/
structure MigrateIn where
  stack : Fin 6
  upto : Nat
  errs : List LineErr
  deriving DecidableEq, Repr

/-- COLLECTION_COMPLETE: the domain, and the line errors that a hint cache meets in its dirty lines (R288). -/
structure CollectIn where
  dom : Fin 104
  errs : List LineErr
  deriving DecidableEq, Repr

/-- The commands: one constructor per row of the opcode table. -/
inductive Instr
  /-- REGISTER_WRITE (R10). A write to a register field that has no row of its own takes effect by the field's access type, or is ignored for an absent unit. -/
  | registerWrite (addr : BitVec 40) (wide : Bool) (v : DWord)
  /-- REGISTER_READ_CLEAR (R10). A read of an RC field returns its count and clears it to zero. -/
  | registerReadClear (addr : BitVec 40) (wide : Bool)
  /-- ERR_LOG_CLEAR (R601). Clearing ERR_LOG.VALID also clears CODE and COUNT. -/
  | errLogClear (blk : Fin 17) (inst : Fin 72)
  /-- IRQ_FORCE (R601). A write to IRQ_FORCE sets the matching non-reserved IRQ_STATUS bits and updates the interrupt summary. -/
  | irqForce (blk : Fin 17) (inst : Fin 72) (v : Word)
  /-- CTRL_DRAIN (R603). Setting CTRL.DRAIN makes the block refuse new requests while it finishes those it holds. -/
  | ctrlDrain (blk : Fin 17) (inst : Fin 72) (on : Bool)
  /-- CTRL_RESET_REQ (R603). Writing CTRL.RESET_REQ requests a reset of the page's domain with collection. -/
  | ctrlResetReq (blk : Fin 17) (inst : Fin 72)
  /-- ENGINE_FETCH (R208). An engine fetches the next instruction into its queue, following decoded branches. -/
  | engineFetch (x : FetchIn)
  /-- LOAD (R213). Driver command LOAD moves a HALTED engine to LOADED with PC from START_PC. -/
  | load (e : Eng)
  /-- START (R213). Driver command START moves a LOADED engine to RUNNING. -/
  | start (e : Eng)
  /-- ARM (R213). Driver command ARM moves a LOADED engine to ARMED with launch count from P_LAUNCH. -/
  | arm (e : Eng)
  /-- HALT (R213). Driver command HALT moves a LOADED, ARMED, QUIESCED or FAULTED engine to HALTED. -/
  | halt (e : Eng)
  /-- QUIESCE (R213). Driver command QUIESCE asks a running, waiting or armed engine to stop at an instruction boundary. -/
  | quiesce (e : Eng)
  /-- RESUME (R213). Driver command RESUME returns a QUIESCED engine to the state it held before quiesce. -/
  | resume (e : Eng)
  /-- MARK_EN_WRITE (R221). A write that changes P_PCTL.MARK_EN takes effect only while the engine is HALTED or LOADED, otherwise it sets CMD_ERR. -/
  | markEnWrite (e : Eng) (v : Bool)
  /-- P_G_WRITE (R237). A driver write to a general register takes effect only while the engine is HALTED, LOADED or QUIESCED. -/
  | pGWrite (e : Eng) (n : Fin 32) (v : DWord)
  /-- ENGINE_LAUNCH (R215). An ARMED engine enters RUNNING when the synchronised GSC reaches its launch count, after any ramp delay. -/
  | engineLaunch (e : Eng) (dt : Nat)
  /-- ENGINE_QUIESCED (R213). An engine that was asked to quiesce reaches QUIESCED once its issued work has completed. -/
  | engineQuiesced (e : Eng)
  /-- TILE_RAMP_STEP (R20). Every 10 µs of a ramp one more group of 8 physical tiles is brought to full draw or let down. -/
  | tileRampStep (dt : Nat)
  /-- CT_NOP (R218). ct.nop does nothing beyond its wait and signal flags. -/
  | ctNop (e : Eng)
  /-- CT_HALT (R218). ct.halt enters HALTED after every earlier instruction completes. -/
  | ctHalt (e : Eng)
  /-- CT_TRAP (R218). ct.trap faults the program with CT_TRAP and its code in DETAIL. -/
  | ctTrap (e : Eng)
  /-- CT_MARK (R222). ct.mark arrives at the step mark and holds the engine WAITING until the mark's statistics latch. -/
  | ctMark (e : Eng)
  /-- STEP_MARK_COMPLETE (R22). When the mirror partner has acknowledged every earlier mirror write, the mark completes and dirty granules are released to the trickle checkpoint. -/
  | stepMarkComplete
  /-- CT_LAUNCH (R218). ct.launch enters ARMED at PC + 1 with the launch count from a register. -/
  | ctLaunch (e : Eng)
  /-- CT_LI (R218). ct.li loads an immediate into a general register. -/
  | ctLi (e : Eng)
  /-- CT_ADDI (R218). ct.addi adds a signed immediate to a general register. -/
  | ctAddi (e : Eng)
  /-- CT_LD (R218). ct.ld loads 8 bytes of the own or home tile store into a general register. -/
  | ctLd (e : Eng)
  /-- CT_GSC (R218). ct.gsc reads the GSC value at issue into a general register. -/
  | ctGsc (e : Eng)
  /-- CT_JMP (R218). ct.jmp sets the PC to a target. -/
  | ctJmp (e : Eng)
  /-- CT_BNZ (R218). ct.bnz decrements a register and branches while it is nonzero. -/
  | ctBnz (e : Eng)
  /-- SY_WAIT (R225). sy.wait waits until a counter holds at least VAL and subtracts it. -/
  | syWait (e : Eng)
  /-- SY_ADD (R241). sy.add adds VAL to a counter of the own tile. -/
  | syAdd (e : Eng)
  /-- SY_SUB (R244). sy.sub subtracts VAL without waiting, faulting with SYNC_UNDERFLOW if it would go below zero. -/
  | sySub (e : Eng)
  /-- SY_SIG (R248). sy.sig sends VAL to a counter of a tile endpoint on any node. -/
  | sySig (e : Eng)
  /-- SY_GET (R247). sy.get reads a counter value after the cycle's increments into a register. -/
  | syGet (e : Eng)
  /-- SY_BAR (R256). sy.bar arrives at a barrier context and waits for its round. -/
  | syBar (e : Eng)
  /-- COUNTER_INCREMENT (R242). Increments reach a counter at the end of their latency, saturating and refusing on overflow, and waits on it are tested in priority order. -/
  | counterIncrement (p : Fin 72) (c : Fin 256) (n : Nat)
  /-- WAIT_TIMEOUT (R253). A wait that reaches P_WAIT_TMO requests a wait-graph snapshot. -/
  | waitTimeout (e : Eng) (dt : Nat)
  /-- WAIT_GRAPH_SNAPSHOT (R265). A completed snapshot faults engines on cycles with SYNC_DEADLOCK_SUSPECT and other timed-out engines with SYNC_TIMEOUT. -/
  | waitGraphSnapshot
  /-- BARRIER_ARRIVAL (R256). An arrival reaches a barrier context and is counted in the current or next round or refused. -/
  | barrierArrival (e : Eng)
  /-- BARRIER_RELEASES_DELIVERED (R257). When every release is delivered, the context flips ROUND and carries the next round's arrivals over. -/
  | barrierReleasesDelivered (ctx : Fin 64)
  /-- BA_CFG_WRITE (R259). A write to BA_CFG or BA_MASK takes effect only while the context is OFF or ORPHANED and unwaited, and a nonzero MODE activates it. -/
  | baCfgWrite (ctx : Fin 64) (reg : Fin 10) (v : Word)
  /-- SY_CTR_WRITE (R259). A driver write to SY_CTRn sets the counter only while every engine of the tile is halted, loaded or quiesced. -/
  | syCtrWrite (p : Fin 72) (n : Fin 256) (v : Word)
  /-- SY_SIG_TIMEOUT (R249). An unacknowledged sy.sig faults its sender with TRANSFER_TIMEOUT after 100 µs or 10 ms. -/
  | sySigTimeout (e : Eng) (k : Nat) (dt : Nat)
  /-- MX_FILL (R84). The fill stage fills staging slots for the next instruction once its wait is satisfied and no store overlaps. -/
  | mxFill (p : Fin 72)
  /-- MX_LDS (R62). mx.lds loads the stationary operand into the idle sets of its arrays. -/
  | mxLds (p : Fin 72)
  /-- MX_LDSP (R112). mx.ldsp loads packed stationary problems from a pack table into an idle set. -/
  | mxLdsp (p : Fin 72)
  /-- MX_MM (R85). mx.mm issues, swaps if asked, and streams A rows against the active set into accumulation buffer entries. -/
  | mxMm (p : Fin 72)
  /-- MX_MMP (R77). mx.mmp streams up to 16 packed problems through one array. -/
  | mxMmp (p : Fin 72)
  /-- MX_ST (R113). mx.st converts accumulation buffer entries into the tile store, optionally deriving scales. -/
  | mxSt (p : Fin 72)
  /-- MX_LDACC (R108). mx.ldacc loads accumulation buffer entries from the tile store. -/
  | mxLdacc (p : Fin 72)
  /-- MX_DRAIN (R114). mx.drain ends every run wholly within its range and frees their spill rows. -/
  | mxDrain (p : Fin 72)
  /-- MX_FLAG (R113). mx.flag reads the MXE conversion and overflow flags into a register and optionally clears them. -/
  | mxFlag (p : Fin 72)
  /-- MX_LOAD_COMPLETE (R105). A stationary load completes 2 cycles after its 64th row is written and marks the idle set loaded. -/
  | mxLoadComplete (p : Fin 72) (k : Nat)
  /-- MX_INSTR_COMPLETE (R107). An MXE instruction completes when all its writes have landed, ending its run if LAST and signalling if S. -/
  | mxInstrComplete (p : Fin 72) (k : Nat)
  /-- MX_ISSUE_TIMEOUT (R89). An instruction held at issue for the engine wait timeout faults the program. -/
  | mxIssueTimeout (p : Fin 72) (dt : Nat)
  /-- VX_LD (R191). vx.ld widens 128 elements of the tile store into a vector register. -/
  | vxLd (p : Fin 72)
  /-- VX_ST (R191). vx.st converts a vector register to a format and stores it, optionally with derived scales. -/
  | vxSt (p : Fin 72)
  /-- VX_LDA (R191). vx.lda loads accumulation buffer entries into a vector register. -/
  | vxLda (p : Fin 72)
  /-- VX_STA (R161). vx.sta stores a vector register into accumulation buffer entries. -/
  | vxSta (p : Fin 72)
  /-- VX_FOP (R162). vx.fop performs a float lane operation. -/
  | vxFop (p : Fin 72)
  /-- VX_IOP (R163). vx.iop performs an integer lane operation or conversion. -/
  | vxIop (p : Fin 72)
  /-- VX_CMP (R164). vx.cmp compares lanes into a predicate. -/
  | vxCmp (p : Fin 72)
  /-- VX_POP (R191). vx.pop combines predicates. -/
  | vxPop (p : Fin 72)
  /-- VX_SFU (R165). vx.sfu applies exp, log, rcp or rsqrt to each lane. -/
  | vxSfu (p : Fin 72)
  /-- VX_RED (R167). vx.red reduces the active lanes with the fixed tree. -/
  | vxRed (p : Fin 72)
  /-- VX_RMAX (R168). vx.rmax updates a running maximum and factor and writes exponentials for one block of attention. -/
  | vxRmax (p : Fin 72)
  /-- VX_RSUM (R169). vx.rsum updates the running sum of one query row. -/
  | vxRsum (p : Fin 72)
  /-- VX_DROP (R178). vx.drop applies a Philox dropout mask and keep scale. -/
  | vxDrop (p : Fin 72)
  /-- VX_RNG (R179). vx.rng writes Philox random values to each active lane. -/
  | vxRng (p : Fin 72)
  /-- VX_POS (R180). vx.pos writes positions to each active lane. -/
  | vxPos (p : Fin 72)
  /-- VX_CMASK (R181). vx.cmask computes causal, window and length masks into a predicate and optionally a register. -/
  | vxCmask (p : Fin 72)
  /-- VX_OPT (R183). vx.opt performs an AdamW or momentum SGD step over a shard and writes its working copy. -/
  | vxOpt (p : Fin 72)
  /-- VX_INSTR_COMPLETE (R188). A VXE instruction completes when its result is available or its stores have landed, signalling if S. -/
  | vxInstrComplete (p : Fin 72) (k : Nat)
  /-- VX_RNG_KEY_WRITE (R173). A write to VX_RNG_KEY takes effect only while the VXE is halted, loaded or quiesced. -/
  | vxRngKeyWrite (p : Fin 72) (v : DWord)
  /-- DM_COPY (R131). dm.copy starts a descriptor that copies a shape from source to destination in pieces. -/
  | dmCopy (p : Fin 72)
  /-- DM_FILL (R155). dm.fill starts a descriptor that writes a repeated 8-byte pattern over a shape. -/
  | dmFill (p : Fin 72)
  /-- DM_WARM (R155). dm.warm starts a descriptor that fills hint-cache lines from job memory. -/
  | dmWarm (p : Fin 72)
  /-- DM_GATHER (R155). dm.gather starts a descriptor that reads 32-byte elements at indexed addresses. -/
  | dmGather (p : Fin 72)
  /-- DM_ATOMADD (R155). dm.atomadd starts a descriptor that adds 32-byte elements at indexed addresses. -/
  | dmAtomadd (p : Fin 72)
  /-- DM_PIECE_ISSUE (R135). The DME issues the next piece of an in-flight descriptor, translating and checking its folio. -/
  | dmPieceIssue (p : Fin 72) (tid : BitVec 8)
  /-- DM_PIECE_COMPLETE (R140). A piece completes when its bytes land or its acknowledgement returns, completing the descriptor when it is the last. -/
  | dmPieceComplete (p : Fin 72) (tid : BitVec 8) (pseq : BitVec 16)
  /-- DM_DESCRIPTOR_RESUME (R146). A descriptor stalled on a folio resumes at the same piece once the folio is valid. -/
  | dmDescriptorResume (p : Fin 72) (tid : BitVec 8)
  /-- DM_READ_AHEAD (R143). The DME translates and prefetches the first 64 KiB of sources of descriptors beyond the oldest unstarted one. -/
  | dmReadAhead (p : Fin 72) (k : Nat)
  /-- DM_STALL_TIMEOUT (R148). A lazy-restore stall that lasts the engine wait timeout faults the program with TRANSFER_TIMEOUT. -/
  | dmStallTimeout (p : Fin 72) (tid : BitVec 8) (dt : Nat)
  /-- DM_REQUEST_TIMEOUT (R149). A piece with no reply in 100 µs locally or 10 ms remotely faults with TRANSFER_TIMEOUT. -/
  | dmRequestTimeout (p : Fin 72) (tid : BitVec 8) (pseq : BitVec 16) (dt : Nat)
  /-- DM_DESCRIPTOR_TIMEOUT (R149). A descriptor still incomplete 10 ms after it started, excluding stalls, faults with TRANSFER_TIMEOUT. -/
  | dmDescriptorTimeout (p : Fin 72) (tid : BitVec 8) (dt : Nat)
  /-- DM_XFER_BUSY_RETRY (R375). A piece refused with RT_XFER_BUSY is sent again 2 µs later. -/
  | dmXferBusyRetry (p : Fin 72) (tid : BitVec 8) (pseq : BitVec 16) (dt : Nat)
  /-- DM_RECALL_HELD_RESEND (R439). A piece refused with RECALL_HELD on a GW7 not recalling is sent again 1 ms later. -/
  | dmRecallHeldResend (p : Fin 72) (tid : BitVec 8) (pseq : BitVec 16) (dt : Nat)
  /-- TILE_SWEEP_READ (R128). The tile-store sweep reads a bank line, correcting or poisoning its words. -/
  | tileSweepRead (p : Fin 72) (bank : Fin 32) (line : Fin 2048) (errs : List LineErr)
  /-- ROUTER_PACKET_ARRIVAL (R365). A packet entering a router is delivered locally or looked up in its edition, checked and queued for a hop. -/
  | routerPacketArrival (pkt : Packet) (x : ArriveIn)
  /-- ROUTER_PACKET_FORWARD (R366). A waiting packet leaves on the least-loaded candidate flue with its VC class set. -/
  | routerPacketForward (k : Nat)
  /-- ROUTER_STALL_DROP (R381). A packet held at one router for STALL_MS is dropped. -/
  | routerStallDrop (k : Nat) (dt : Nat)
  /-- WRITE (R374). A WRITE packet is applied at a tile or memory endpoint, with RSIG transfer counting. -/
  | write (pkt : Packet)
  /-- READ_REQ (R627). A READ_REQ packet reads a remote source piece and answers with DATA. -/
  | readReq (pkt : Packet)
  /-- NARROW (R291). A narrow read of one 32-byte element is served from the slice or HBM. -/
  | narrow (pkt : Packet)
  /-- ATOMIC (R292). An atomic add applies eight 32-bit lanes to one element indivisibly. -/
  | atomic (pkt : Packet)
  /-- SIGNAL (R249). A SIGNAL packet adds VAL to a tile counter and is acknowledged. -/
  | signal (pkt : Packet)
  /-- MIRROR (R323). A mirror duplicate line is accepted at a matching partner or refused with MIRROR_LOST. -/
  | mirror (pkt : Packet)
  /-- ACK (R359). An acknowledgement returns to its requester, completing its piece, signal, duplicate or MGC request. -/
  | ack (pkt : Packet)
  /-- DATA (R359). A data reply returns the bytes of a read or narrow read to its requester. -/
  | data (pkt : Packet)
  /-- NACK (R359). A refusal returns to its requester with a code that it retries, records or faults on. -/
  | nack (pkt : Packet)
  /-- HOLD (R310). A hold reply restarts the requester's remote timer. -/
  | hold (pkt : Packet)
  /-- XFER_ENTRY_EXPIRE (R375). A transfer table entry that gains no packet for 10 ms is freed without signalling. -/
  | xferEntryExpire (p : Fin 72) (k : Nat) (dt : Nat)
  /-- RT_EDITION_ARM (R379). A write of RT_EDITION.ARM arms the edition switch, or is refused. -/
  | rtEditionArm
  /-- EDITION_SWITCH (R379). At the armed GSC count the GW7 flips the injection edition and clears ARMED. -/
  | editionSwitch (x : SwitchIn)
  /-- RT_EDITION_AT_WRITE (R379). A write to RT_EDITION_AT is ignored while ARMED is 1. -/
  | rtEditionAtWrite (v : DWord)
  /-- RT_EDN_CFG_WRITE (R378). A write to RT_EDNe_CFG is refused for the live edition or while armed after CAT_LIVE. -/
  | rtEdnCfgWrite (e : Fin 2) (v : Word)
  /-- RT_NODE_WRITE (R505). A write to RT_NODE is ignored unless the GW7 is IDLE. -/
  | rtNodeWrite (v : Word)
  /-- CATALOGUE_LIVE (R378). Once both editions are written at K4, the MGC sets CAT_LIVE and makes the slot check. -/
  | catalogueLive
  /-- FLUE_FRAME_TRANSMIT (R331). A flue transmitter sends the next frame, replayed, data or idle, striped over its lanes. -/
  | flueFrameTransmit (f : Fin 18)
  /-- FLUE_FRAME_RECEIVED (R333). A received frame is checked, acknowledged or rejected, and its packets passed to the router. -/
  | flueFrameReceived (f : Fin 18) (fr : FlFrame) (ucw : Bool) (corrected : Nat)
  /-- FLUE_LANE_TRAINED (R342). A flue's lanes lock and adapt their equalisers. -/
  | flueLaneTrained (f : Fin 18) (lanes : BitVec 9)
  /-- FLUE_FEC_LOCK (R342). Lanes find codeword boundaries, deskew, agree the lane map and exchange generations. -/
  | flueFecLock (f : Fin 18) (lanes : BitVec 9) (spare : Fin 9) (peerGen : BitVec 8)
  /-- FLUE_FRAME_LOCK (R342). Frames start at FSEQ 0 and idle frames flow. -/
  | flueFrameLock (f : Fin 18)
  /-- FLUE_DISCOVERY (R342). Control frames exchange device ID, flue, slot and preset. -/
  | flueDiscovery (f : Fin 18) (peer : FluePeer)
  /-- FLUE_TRAIN_FAIL (R353). A failed retraining is counted, and three in a row hold the flue down. -/
  | flueTrainFail (f : Fin 18)
  /-- FLUE_FRAME_LOCK_LOST (R351). Loss of frame lock or electrical idle from the peer takes the flue down. -/
  | flueFrameLockLost (f : Fin 18)
  /-- FL_RESET (R351). A write of FL_CFG.RESET takes the flue down and retrains it. -/
  | flReset (f : Fin 18)
  /-- FL_EN_WRITE (R353). Clearing FL_CFG.EN holds the flue down, and setting it retrains it. -/
  | flEnWrite (f : Fin 18) (v : Bool)
  /-- FL_SELFTEST (R350). A write of FL_CFG.SELFTEST starts a rotation self-test or defers it. -/
  | flSelftest (f : Fin 18)
  /-- FL_SELFTEST_COMPLETE (R350). A lane self-test ends after 20 ms with a pass or a failed lane. -/
  | flSelftestComplete (f : Fin 18) (pass : Bool) (eyeV eyeH : BitVec 8) (dt : Nat)
  /-- NEIGHBOUR_HELLO (R548). A HELLO carries the peer's device ID, flue, slot, nonce and certificate chain. -/
  | neighbourHello (f : Fin 18) (peer : FluePeer) (nonce : BitVec 256) (chainOk : Bool)
  /-- NEIGHBOUR_PROOF (R548). A PROOF is verified, and the flue is authenticated or held out of service. -/
  | neighbourProof (f : Fin 18) (sigOk : Bool)
  /-- PROOF_TIMEOUT (R548). No PROOF within 200 ms fails authentication with ATTEST_FAIL. -/
  | proofTimeout (f : Fin 18) (dt : Nat)
  /-- LANE_ROTATION_START (R348). Every PERIOD_S the flue copies a leaving lane onto the spare and checks it. -/
  | laneRotationStart (f : Fin 18) (x : RotateIn)
  /-- LANE_SWAP (R348). From frame ROT_AT a direction stripes onto the new lane. -/
  | laneSwap (f : Fin 18)
  /-- LANE_RECAL_COMPLETE (R348). The leaving pair finishes recalibration, records its eye margins and becomes the spare. -/
  | laneRecalComplete (f : Fin 18) (eyeV eyeH : BitVec 8)
  /-- LANE_FAIL (R349). A lane loses lock or exceeds its uncorrectable limit, and the flue spares, narrows or goes down. -/
  | laneFail (f : Fin 18) (lane : Fin 9) (ucw : Option Nat)
  /-- LANE_REJOIN (R349). A recalibrating pair restores its settings, takes the failed lane's place and the flue widens. -/
  | laneRejoin (f : Fin 18)
  /-- CE_ALLREDUCE (R392). ce.allreduce reduces N elements over the ring and returns the result to every rank. -/
  | ceAllreduce (c : Fin 4)
  /-- CE_REDUCESCATTER (R392). ce.reducescatter leaves each rank its own reduced block. -/
  | ceReducescatter (c : Fin 4)
  /-- CE_ALLGATHER (R392). ce.allgather multicasts each rank's elements to every rank. -/
  | ceAllgather (c : Fin 4)
  /-- CE_BCAST (R392). ce.bcast multicasts the root's bytes to every rank. -/
  | ceBcast (c : Fin 4)
  /-- CE_SEND (R404). ce.send sends N bytes to a peer once its READY arrives. -/
  | ceSend (c : Fin 4)
  /-- CE_RECV (R404). ce.recv sends READY to a peer and receives its bytes. -/
  | ceRecv (c : Fin 4)
  /-- CE_RINGPASS (R405). ce.ringpass passes blocks around the ring into slots, signalling per block. -/
  | ceRingpass (c : Fin 4)
  /-- CE_PIECE_SEND (R400). A collective engine sends a piece to its neighbour while it holds a credit. -/
  | cePieceSend (c : Fin 4) (k : Nat)
  /-- CE_REDUCE_PIECE (R399). A reduce piece is matched and its contribution added. -/
  | ceReducePiece (pkt : Packet)
  /-- CE_COPY_PIECE (R399). A copy or multicast piece is matched and written. -/
  | ceCopyPiece (pkt : Packet)
  /-- CE_READY (R404). A READY packet releases a waiting ce.send or ring-pass step. -/
  | ceReady (pkt : Packet)
  /-- CE_CREDIT (R400). A credit packet returns receive-buffer credits to the sender. -/
  | ceCredit (pkt : Packet)
  /-- CE_DONE (R401). A done packet acknowledges applied pieces to the sender. -/
  | ceDone (pkt : Packet)
  /-- CE_BARRIER_ARRIVE (R408). A cross-chip barrier arrival is counted by rank 0 of an axis. -/
  | ceBarrierArrive (pkt : Packet)
  /-- CE_BARRIER_RELEASE (R407). A cross-chip barrier release is repeated along earlier axes and returned to the barrier unit. -/
  | ceBarrierRelease (pkt : Packet)
  /-- CE_OP_COMPLETE (R414). A collective operation completes once its results are written and every peer has acknowledged. -/
  | ceOpComplete (c : Fin 4)
  /-- CE_PEER_TIMEOUT (R409). No packet from an awaited peer for 10 ms faults the engine with TRANSFER_TIMEOUT. -/
  | cePeerTimeout (c : Fin 4) (dt : Nat)
  /-- CE_CONFIG_WRITE (R385). A write to CE_CFG, CE_RING or CE_NODEk takes effect only while the engine is halted, loaded or quiesced. -/
  | ceConfigWrite (c : Fin 4) (off : BitVec 12) (v : Word)
  /-- HC_ACCESS (R285). A line access reaches its hint-cache slice and is served by its hint. -/
  | hcAccess (addr : BitVec 40) (wr : Bool) (hint : Fin 4) (x : AccessIn)
  /-- HC_FLUSH_WB (R287). HC_FLUSH.WB writes back every dirty line of the slice. -/
  | hcFlushWb (s : Fin 6)
  /-- HC_FLUSH_INV (R287). HC_FLUSH.INV invalidates every line after the write-back. -/
  | hcFlushInv (s : Fin 6)
  /-- HC_FLUSH_DONE (R287). A flush ends and FLUSHING clears. -/
  | hcFlushDone (s : Fin 6)
  /-- HC_SWEEP (R282). Every 100 ms a hint-cache slice is swept, correcting or poisoning its words. -/
  | hcSweep (s : Fin 6) (errs : List LineErr)
  /-- MC_SWEEP_LINE (R282). A controller sweeps the next line of its stack, correcting or poisoning, and may trigger retirement. -/
  | mcSweepLine (s : Fin 6) (x : SweepIn)
  /-- MC_RETIRE_CMD (R279). A driver write of MC_RETIRE_CMD.GO starts the retirement of a pseudo-channel, or is refused. -/
  | mcRetireCmd (s : Fin 6) (pc : Fin 64)
  /-- RETIREMENT_MIGRATION_COMPLETE (R278). A retirement migration finishes copying the retired pseudo-channel's lines and MIGRATING clears. -/
  | retirementMigrationComplete (x : MigrateIn)
  /-- FT_LOAD (R300). A write of MC_FT_CTRL.LOAD starts reading and checking the whole folio table, or is refused. -/
  | ftLoad
  /-- FT_LOAD_COMPLETE (R300). A table load ends, putting the table in force or refusing it with LOAD_ERR. -/
  | ftLoadComplete
  /-- FT_UPDATE (R301). A write of MC_FT_CTRL.UPDATE rereads and checks one folio table entry. -/
  | ftUpdate
  /-- MC_RESTORE (R314). A write of MC_RESTORE sets a restored frame PRESENT and releases its stalled accesses. -/
  | mcRestore (vpn : BitVec 19)
  /-- RESTORE_RESEND (R315). A frame FETCHING for RESEND_MS has its restore request sent again. -/
  | restoreResend (pfn : Nat) (dt : Nat)
  /-- HOLD_REPLY_SEND (R310). Every 1 ms the folio unit sends a hold reply for each request held at endpoint 0x48. -/
  | holdReplySend (dt : Nat)
  /-- HOLD_TIMEOUT (R311). A request held for HOLD_MS is answered with a TRANSFER_TIMEOUT NACK. -/
  | holdTimeout (k : Nat) (dt : Nat)
  /-- TRICKLE_GRANULE_SEND (R318). The trickle unit sends the next granule with S set, ending with a CLEAN, OVERLAPPED or POISONED trailer. -/
  | trickleGranuleSend
  /-- MIRROR_FENCE_TIMEOUT (R324). A mirror fence incomplete 10 ms after the mark completes the mark and degrades mirroring. -/
  | mirrorFenceTimeout (dt : Nat)
  /-- MIRROR_RESYNC (R324). A write of MC_MIRROR_CFG.RESYNC sends every mirror line again. -/
  | mirrorResync
  /-- MIRROR_RESYNC_COMPLETE (R324). A resync ends, clearing DEGRADED and resuming duplication. -/
  | mirrorResyncComplete
  /-- MIRROR_FENCE_RECORD (R507). A fence record from the mirror partner stores its mark in MG_MIRROR_MARK. -/
  | mirrorFenceRecord (node : BitVec 16) (mark : Word)
  /-- GSC_EXCHANGE (R424). Once per millisecond a GW7 exchanges timestamps with its parent. -/
  | gscExchange (dt : Nat)
  /-- GSC_TIME_REPLY (R424). The parent's reply updates the filtered offset, slewing or stepping the GSC and the time state. -/
  | gscTimeReply (t2 : Nat) (f2 : BitVec 8) (t3 : Nat) (f4 : BitVec 8) (parent : Fin 4)
  /-- GSC_HOLDOVER (R425). No exchange for 10 ms moves a LOCKED GW7 to HOLDOVER. -/
  | gscHoldover (dt : Nat)
  /-- PPS_EDGE (R428). A rising PPS edge at the source is timestamped and slewed toward a whole second. -/
  | ppsEdge (dt : Nat)
  /-- PPS_LOST (R428). After 2 s without a PPS edge the source sets PPS_LOST. -/
  | ppsLost (dt : Nat)
  /-- CK_CFG_WRITE (R425). A write to CK_CFG moves the GW7 to ACQUIRING or FREE. -/
  | ckCfgWrite (v : Word)
  /-- SERVE (R432). Command SERVE moves an IDLE GW7 to SERVING. -/
  | serve
  /-- IDLE (R432). Command IDLE moves a SERVING GW7 to IDLE. -/
  | idle
  /-- LEND (R434). Command LEND runs the teardown order with a new generation and enters LENDING. -/
  | lend (gen : BitVec 8)
  /-- LEND_RESTORE (R447). LEND with RESTORE set also opens the image sink for a recall image. -/
  | lendRestore (gen : BitVec 8)
  /-- RECALL_COMMAND (R437). Command RECALL enters RECALLING, records the GSC, requests quiesce and stops the trickle. -/
  | recallCommand (target : Bool)
  /-- IMAGE (R440). Command IMAGE starts the recall image once the GW7 is all-quiesced. -/
  | image
  /-- RELEASE (R452). Command RELEASE quiesces, halts, tears down and zeroises without an image. -/
  | release (target : Bool)
  /-- RESUME_JOB (R448). Command RESUME resumes every QUIESCED engine of the GW7 in one cycle. -/
  | resumeJob
  /-- MG_LEND_CFG_WRITE (R454). A write to MG_LEND_CFG is ignored in RECALLING or HANDOVER except DEADLINE_S before the cutoff. -/
  | mgLendCfgWrite (v : Word)
  /-- TEARDOWN_DRAIN_END (R435). When every outstanding count is zero the teardown goes on to its fence. -/
  | teardownDrainEnd
  /-- DRAIN_LATE (R435). A drain not done after 10 ms sets DRAIN_LATE and goes on to the fence. -/
  | drainLate (dt : Nat)
  /-- TEARDOWN_FENCE (R435). Once no packet or write of the old generation is held, the new generation is shown and the next state entered. -/
  | teardownFence
  /-- ALL_QUIESCED (R438). All engines stopped and acknowledgements done set QUIESCED and send the event, starting the image if asked. -/
  | allQuiesced
  /-- QUIESCE_DEADLINE (R438). An engine not quiesced 250 ms after the notice is stopped and recorded FAULTED. -/
  | quiesceDeadline (dt : Nat)
  /-- RECALL_IMAGE_COMPLETE (R443). The last section and the signed trailer are written, and the GW7 enters HANDOVER. -/
  | recallImageComplete
  /-- RECALL_CUTOFF (R440). At the cutoff an unfinished image ends INCOMPLETE and the GW7 enters HANDOVER. -/
  | recallCutoff (dt : Nat)
  /-- RECALL_RISK_CHECK (R441). Once a second the projected end of the image is checked against the cutoff. -/
  | recallRiskCheck (dt : Nat)
  /-- ZEROISATION_COMPLETE (R451). Hand-over zeroisation ends, the ledger record and HANDOVER_DONE are written and the target state is entered. -/
  | zeroisationComplete
  /-- DIGEST_TILE_DONE (R469). A tile finishes its digest regions and signals CTR, and the last one ends the round and sends the digest message. -/
  | digestTileDone (p : Fin 72)
  /-- DIGEST_MESSAGE (R472). A digest message from the previous rank is compared with the own digests. -/
  | digestMessage (node : BitVec 16) (mark : Word) (chip : DWord) (tiles : List DWord)
  /-- DIGEST_LATE (R472). No digest message 1 s after the own round ended delivers DIGEST_LATE. -/
  | digestLate (dt : Nat)
  /-- TL_DIGEST_RGN_WRITE (R468). A write to a digest region register takes effect only while the tile's engines are halted, loaded or quiesced. -/
  | tlDigestRgnWrite (p : Fin 72) (i : Fin 2) (v : DWord)
  /-- CLASS_ASK (R476). MG_CLASS_CMD with REC 0 asks for a ledger verdict or for repetition. -/
  | classAsk (lt : Fin 64)
  /-- CLASS_RECORD_TRANSIENT (R476). MG_CLASS_CMD with REC 1 records a transient verdict. -/
  | classRecordTransient (lt : Fin 64)
  /-- CLASS_RECORD_PERMANENT (R476). MG_CLASS_CMD with REC 2 records a permanent verdict. -/
  | classRecordPermanent (lt : Fin 64)
  /-- CLASS_RECORD_SPARE_PERMANENT (R476). MG_CLASS_CMD with REC 3 records that the spare is permanent. -/
  | classRecordSparePermanent (lt : Fin 64)
  /-- CV_START (R482). Command START checks the unit's configuration and begins its CRC run. -/
  | cvStart (p : Fin 72) (u : Fin 2)
  /-- CV_ARM (R488). Command ARM arms an idle unit to start on its trigger counter. -/
  | cvArm (p : Fin 72) (u : Fin 2)
  /-- CV_DISARM (R488). Command DISARM returns an armed unit to idle. -/
  | cvDisarm (p : Fin 72) (u : Fin 2)
  /-- CV_COMBINE (R489). Command COMBINE joins RAW with INIT over LEN bytes. -/
  | cvCombine (p : Fin 72) (u : Fin 2)
  /-- CV_COMBINE_COMPLETE (R489). A combination ends, derives RESULT and applies the comparison. -/
  | cvCombineComplete (p : Fin 72) (u : Fin 2)
  /-- CV_RUN_COMPLETE (R486). A unit finishes its region, writes RAW and RESULT, compares and signals. -/
  | cvRunComplete (p : Fin 72) (u : Fin 2)
  /-- CV_POISON_STOP (R485). A unit that reads a poisoned word stops, signals BADCTR and delivers CHECKVALUE_POISON. -/
  | cvPoisonStop (p : Fin 72) (u : Fin 2)
  /-- CV_CONFIG_WRITE (R491). A write to a check-value unit's configuration is ignored while the unit is not idle. -/
  | cvConfigWrite (p : Fin 72) (u : Fin 2) (off : Fin 128) (v : DWord)
  /-- MIGRATE (R494). MG_SPARE_CMD MIGRATE quiesces a logical tile and copies its state onto a spare. -/
  | migrate (lt : Fin 64) (phys : BitVec 7)
  /-- REPLACE (R497). MG_SPARE_CMD REPLACE gives a logical index to a zeroed spare as a reset tile. -/
  | replace (lt : Fin 64) (phys : BitVec 7)
  /-- TILE_MIGRATION_COMPLETE (R494). The map switches to the target, held packets are delivered and the source is zeroed. -/
  | tileMigrationComplete
  /-- TILE_ROTATION (R501). Every PERIOD_S, at an allowed moment, the MGC migrates an active tile out for testing. -/
  | tileRotation (dt : Nat)
  /-- TILE_TEST_COMPLETE (R502). A test program ends, and the source tile becomes SPARE, is retested or RETIRED. -/
  | tileTestComplete (pass : Bool)
  /-- TEST_ROTATION (R503). MG_TEST_CMD OP 1 requests a rotation test or defers it. -/
  | testRotation
  /-- TEST_BIST (R503). MG_TEST_CMD OP 2 runs the full-chip BIST in IDLE or defers it. -/
  | testBist
  /-- BIST_COMPLETE (R503). A full-chip BIST ends and records its result. -/
  | bistComplete (failed : List (Fin 72))
  /-- MIRROR_PUSH (R509). MG_MIRROR_PUSH GO sends every mirror-region line to the named spare. -/
  | mirrorPush (node : BitVec 16)
  /-- DOMAIN_RESET_REQUEST (R519). MG_RESET_CMD GO isolates a domain and begins its reset. -/
  | domainResetRequest (d : BitVec 7) (collect : Bool)
  /-- RESET_HOLD_EXPIRE (R519). A reset request held since the domain's previous reset proceeds once the hold has passed. -/
  | resetHoldExpire (d : Fin 104) (dt : Nat)
  /-- DEBUG_RING_TIMEOUT (R526). A debug-ring access unanswered for 10 µs is recorded UNREADABLE. -/
  | debugRingTimeout (d : Fin 104) (dt : Nat)
  /-- COLLECTION_COMPLETE (R527). The collection of a domain ends, its generation advances and its state clears. -/
  | collectionComplete (x : CollectIn)
  /-- DOMAIN_READY (R523). A reset domain is admitted again and DOMAIN_READY is delivered. -/
  | domainReady (d : Fin 104) (bistOk : Bool)
  /-- WDOG_KICK (R520). A write of MG_WDOG.KICK restarts the MGC watchdog. -/
  | wdogKick
  /-- MGC_WATCHDOG (R520). 2 s without a kick resets the MGC domain, or the whole chip on a second expiry within 60 s. -/
  | mgcWatchdog (dt : Nat)
  /-- STALE_GENERATION (R521). Once a second at most per domain, grown stale-reply counts are reported. -/
  | staleGeneration (d : Fin 104) (dt : Nat)
  /-- UPDATE_STAGE (R533). MG_UPDATE_CMD OP 1 checks and stages a firmware image. -/
  | updateStage (blk : BitVec 16) (img : FwImage)
  /-- UPDATE_APPLY (R534). MG_UPDATE_CMD OP 2 takes an instance out of work and loads the staged image. -/
  | updateApply (blk : BitVec 16) (inst : BitVec 8)
  /-- UPDATE_DROP (R533). MG_UPDATE_CMD OP 3 drops the staged image. -/
  | updateDrop
  /-- UPDATE_DONE (R534). An applied update finishes, extends its measurement, admits the instance and may change the key. -/
  | updateDone
  /-- POWER_GOOD_RISE (R612). The rising edge of POWER_GOOD samples the straps and starts kindling at K0. -/
  | powerGoodRise (straps : BitVec 8) (rails : Fin 3)
  /-- POWER_GOOD_FALL (R614). A falling POWER_GOOD holds the GW7 in whole-chip reset without collection. -/
  | powerGoodFall
  /-- RESET_N (R613). A low pulse of at least 10 µs on RESET_N starts a whole-chip reset with collection. -/
  | resetN (lowUs : Nat)
  /-- KINDLING_K0 (R537). The boot ROM latches straps, reads fuses and locks the PLLs. -/
  | kindlingK0 (pll : Bool) (fused : List (Fin 72)) (small : Bool) (id : DWord) (digest : BitVec 256)
  /-- KINDLING_K1 (R542). The boot ROM reads and verifies the MGC image and derives the identity key. -/
  | kindlingK1 (a b : FwImage)
  /-- KINDLING_K2 (R537). The MGC loads and measures block firmware, trains HBM, runs tile BIST and zeroises every frame. -/
  | kindlingK2 (images : List (FwImage × FwImage)) (bistFailed : List (Fin 72)) (untrained : List (Fin 6))
  /-- KINDLING_K3 (R537). Flues train, discover and authenticate. -/
  | kindlingK3
  /-- KINDLING_K4 (R537). The plan and catalogue are loaded, RT_NODE written and MR6 extended. -/
  | kindlingK4 (node : BitVec 16) (plan : List PlanSlot) (planHash : BitVec 256)
  /-- KINDLED (R537). The GW7 reports ready with the KINDLED event and enters IDLE. -/
  | kindled
  /-- COMMIT (R543). MG_FW_CMD COMMIT raises a block type's anti-rollback fuse count to the running SVN. -/
  | commit (blk : BitVec 16)
  /-- MR7_EXTEND (R545). MG_MR_CMD GO extends MR7 with MG_MR_DATA and logs it. -/
  | mr7Extend
  /-- NEIGHBOUR_COLOPHON_REQUEST (R549). A neighbour MGC's nonce over a flue is answered with a signed colophon. -/
  | neighbourColophonRequest (f : Fin 18) (nonce : BitVec 256)
  /-- PERIOD_END (R555). At a period end every block latches and restarts its live counters and advances PERIOD_ID. -/
  | periodEnd (dt : Nat)
  /-- RAIL_SAMPLE (R561). Every 10 µs the rails are sampled, and a rail out of tolerance twice raises RAIL_FAULT and a whole-chip reset. -/
  | railSample (samples : List (Nat × Nat)) (dt : Nat)
  /-- TEMPERATURE_SAMPLE (R563). Every 100 µs the sensors are read, and the thermal alert or critical reset acts on T. -/
  | temperatureSample (samples : List (BitVec 12)) (dt : Nat)
  /-- PACING_LEVEL_STEP (R565). The thermal, cap and effective pacing levels step up or down on their timers. -/
  | pacingLevelStep (dt : Nat)
  /-- PATH_DELAY_SAMPLE (R567). Every 10 s the path-delay monitors sample their slack. -/
  | pathDelaySample (slacks : List (List (BitVec 8))) (dt : Nat)
  /-- AGEING_PREDICTION (R568). Once a day the MGC predicts each block's end of life and may deliver AGEING_WARN. -/
  | ageingPrediction (dt : Nat)
  /-- EBOTH_FRAME_TRANSMIT (R578). The port sends the ready frame of the highest class whose credits cover it, or an idle frame. -/
  | ebothFrameTransmit
  /-- EBOTH_FRAME_RECEIVED (R577). A received Eboth frame is checked, acknowledged or rejected, and its credits applied. -/
  | ebothFrameReceived (fr : EbFrame) (ucw : Bool)
  /-- EBOTH_HELLO (R585). A link-control HELLO exchanges device ID, port generation and buffer sizes and brings the link UP. -/
  | ebothHello (device : DWord) (lack : BitVec 12) (credits : BitVec 64) (dt : Nat)
  /-- EBOTH_LOSS_OF_SIGNAL (R586). Loss of signal for 1 ms or loss of frame lock takes the link down and retrains it. -/
  | ebothLossOfSignal (lane : Option (Fin 4))
  /-- EB_RESET (R586). A write of EB_CFG.RESET takes the link down and retrains it. -/
  | ebReset
  /-- EB_EN_WRITE (R589). Clearing EB_CFG.EN holds the link down, and setting it retrains it. -/
  | ebEnWrite (v : Bool)
  /-- EBOTH_HOLD_EXPIRE (R586). A link not UP within HOLD_MS increments the port generation and discards its buffers. -/
  | ebothHoldExpire (dt : Nat)
  /-- EBOTH_LOST_RELEASE (R587). A link down LOST_S seconds while LENDING performs RELEASE to IDLE. -/
  | ebothLostRelease (dt : Nat)
  /-- EBOTH_REQUEST_TIMEOUT (R582). A request without an internal reply in 10 ms is answered with TIMEOUT. -/
  | ebothRequestTimeout (tag : BitVec 16) (dt : Nat)
  /-- REG_RD (R580). A REG_RD message reads a register and is answered with REG_DATA. -/
  | regRd (m : EbFrame)
  /-- REG_WR (R580). A REG_WR message writes a register and is answered with WR_ACK. -/
  | regWr (m : EbFrame)
  /-- PUT (R580). A PUT writes bytes to HBM or a window and is answered with WR_ACK. -/
  | put (m : EbFrame)
  /-- GET (R580). A GET reads bytes from HBM or a window and is answered with GET_DATA. -/
  | get (m : EbFrame)
  /-- RECALL (R584). A recall message acts as command RECALL and is answered with RECALL_ACK. -/
  | recall (m : EbFrame)
  /-- COLO_REQ (R549). A colophon request with a nonce is answered with a signed colophon, or BUSY. -/
  | coloReq (m : EbFrame)
  /-- SINK (R447). Image bytes streamed into the sink are checked and applied section by section until restore completes. -/
  | sink (m : EbFrame)
  /-- TESTSET (R504). Test set bytes are received, verified and accepted into NOR or rejected. -/
  | testset (m : EbFrame)
  /-- EVENT_ACK (R581). An event acknowledgement frees events up to its sequence. -/
  | eventAck (m : EbFrame)
  /-- GRANULE_ACK (R318). A granule trailer acknowledgement clears the granule's S bit unless a mark has set it again. -/
  | granuleAck (m : EbFrame)
  /-- SMB_ADDRESS_WRITE (R615). An SMBus write supplies the 5-byte address for a following REG_RD. -/
  | smbAddressWrite (addr : BitVec 40)
  /-- SMB_STATUS (R615). SMBus command STATUS returns stage, stop cause, lending state and alerts. -/
  | smbStatus
  /-- SMB_TEMP (R615). SMBus command TEMP returns the die temperature. -/
  | smbTemp
  /-- SMB_POWER (R615). SMBus command POWER returns the total rail power. -/
  | smbPower
  /-- SMB_REG_RD (R615). SMBus command REG_RD returns a 4-byte register read. -/
  | smbRegRd
  /-- IDCODE (R616). JTAG IDCODE returns the ordering code's identifier. -/
  | idcode
  /-- SAMPLE_PRELOAD (R616). JTAG SAMPLE/PRELOAD captures and loads the boundary scan. -/
  | samplePreload (cells : Nat)
  /-- EXTEST (R616). JTAG EXTEST drives the boundary while in reset, otherwise acts as BYPASS. -/
  | extest
  /-- CLAMP (R616). JTAG CLAMP holds the outputs while in reset, otherwise acts as BYPASS. -/
  | clamp
  /-- HIGHZ (R616). JTAG HIGHZ floats the outputs while in reset, otherwise acts as BYPASS. -/
  | highz
  /-- BYPASS (R616). JTAG BYPASS, and every other opcode, selects the bypass register. -/
  | bypass
  /-- JTAG_RESET (R611). TRST_N resets the JTAG TAP. -/
  | jtagReset
  /-- EBOTH_TRAIN_FAIL (R586). A failed retraining of the Eboth link is counted, and three failures in a row hold the link down until EB_CFG.RESET. -/
  | ebothTrainFail
  /-- FT_UPDATE_COMPLETE (R301). A folio table UPDATE finishes its check, invalidates the translation caches where needed and clears MC_FT_STATUS.BUSY. -/
  | ftUpdateComplete
  /-- MR7_EXTEND_COMPLETE (R545). An MR7 extend finishes, logs its entry and clears MG_MR_CMD.BUSY. -/
  | mr7ExtendComplete
  /-- CLASS_COMMAND_COMPLETE (R476). A classification command finishes, sets VERDICT or METHOD and clears MG_CLASS_STATUS.BUSY. -/
  | classCommandComplete
  /-- UPDATE_STAGE_COMPLETE (R533). The check of a firmware image held in NOR ends and MG_UPDATE_STATUS.STATE reads staged, or failed. -/
  | updateStageComplete
  deriving DecidableEq, Repr

end Sys2Proof
end

