-- ==== Sys2Proof/Config.lean ====
section
/-! DEFINITION. The values that the spec leaves open: opaque constants, so that no proof can lean on a value (log entries 4 to 9).
Each is applied to what it may depend on; `freeWord` is applied to the state's counter of free values. -/
namespace Sys2Proof.Config

/-- A fresh value wherever the spec leaves a result unspecified (R485). -/
opaque freeWord : Nat → BitVec 64

/-- The bits of an exp, log, rcp or rsqrt result that R165 bounds and does not fix, by SFU revision, function and operand. -/
opaque sfu : Nat → Nat → Word → Word

/-- The SM3 digest of a byte string; the spec names the function and does not define it (R446, R511, R544). -/
opaque sm3 : List Byte → BitVec 256

/-- The SM2 signature under the device identity key (R446, R548, R550). -/
opaque sign : List Byte → BitVec 512

/-- Whether the signature in bytes 56 to 119 of a test set, under Clanath's test key, fits bytes 0 to 55 (R504). -/
opaque testSigOk : List Byte → Bool

/-- The filter over the last 64 offsets of R424, in 1/256 ns. -/
opaque gscFilter : List Int → Int

/-- The fused 7-year budget of a rail, in the unit of AG_ICT.USED (R567). -/
opaque railBudget : Nat → Nat

/-- The mesh port of the router that serves a local endpoint (R383). -/
opaque meshPort : Nat → Fin 8
/-- R589: received power and laser bias of an Eboth lane at a GSC count. -/
opaque optical : Nat → Nat → BitVec 24

/-- The certificate chain in the fuses (R546, R548). -/
opaque certChain : List Byte

/-- Days in a month of a predicted end of life (R568). -/
opaque daysPerMonth : Nat

end Sys2Proof.Config
end

