-- ==== Sys2Proof/Machine/Map.lean ====
section
/-! DEFINITION. Sparse maps in canonical form, and little-endian byte strings (R9).
A map is a list of pairs in strictly rising key order; no pair holds the value that an unlisted key reads as,
so equal maps are equal lists. `d` is what an unlisted key reads as. -/
namespace Sys2Proof.Machine

/-- The value at a key. -/
def mapGet {α : Type} (d : Nat → α) : SMap α → Nat → α
  | [], i => d i
  | (k, v) :: r, i => if i = k then v else mapGet d r i

/-- Drop every key that a test selects. -/
def mapDrop {α : Type} (p : Nat → Bool) (m : SMap α) : SMap α := m.filter (fun kv => !p kv.1)

/-- Set the value at a key, at the key's place; setting the default removes the entry. -/
def mapSet {α : Type} [DecidableEq α] (d : Nat → α) : SMap α → Nat → α → SMap α
  | [], i, v => if v = d i then [] else [(i, v)]
  | (k, w) :: r, i, v =>
    if v = d i then (if i = k then mapSet d r i v else (k, w) :: mapSet d r i v)
    else if i < k then (i, v) :: (k, w) :: r
    else if i = k then (i, v) :: r
    else (k, w) :: mapSet d r i v

/-- Apply a function to the value at a key. -/
def mapMod {α : Type} [DecidableEq α] (d : Nat → α) (m : SMap α) (i : Nat) (f : α → α) : SMap α :=
  mapSet d m i (f (mapGet d m i))

/-- The canonical form: keys strictly rise, and no entry holds the default. -/
def mapWf {α : Type} [DecidableEq α] (d : Nat → α) : SMap α → Bool
  | [] => true
  | (k, v) :: r => decide (v ≠ d k) && (match r with | [] => true | (k', _) :: _ => decide (k < k')) && mapWf d r

/-- The `n` low bytes of a number, least significant first (R9). -/
def bytesOf : Nat → Nat → List Byte
  | 0, _ => []
  | n + 1, v => BitVec.ofNat 8 v :: bytesOf n (v / 256)

/-- The number a byte string spells, least significant byte first (R9). -/
def ofBytes : List Byte → Nat
  | [] => 0
  | b :: r => b.toNat + 256 * ofBytes r

/-- Bits [lo+len-1 : lo] of a number. -/
def bits (v lo len : Nat) : Nat := (v / 2 ^ lo) % 2 ^ len

/-- One bit of a number. -/
def bit (v i : Nat) : Bool := v.testBit i

/-- `v` with bits [lo+len-1 : lo] replaced by `x`. -/
def putBits (v lo len x : Nat) : Nat := v - bits v lo len * 2 ^ lo + (x % 2 ^ len) * 2 ^ lo

/-- Sign extension of the low `w` bits. -/
def sext (w v : Nat) : Int := if bit (v % 2 ^ w) (w - 1) then ((v % 2 ^ w : Nat) : Int) - (2 ^ w : Nat) else ((v % 2 ^ w : Nat) : Int)

/-- An integer as a `w`-bit two's complement word. -/
def wrapInt (w : Nat) (x : Int) : Nat := (x % ((2 ^ w : Nat) : Int)).toNat

/-- Replace the entry at an index of a list (no effect beyond its end). -/
def listSet {α : Type} (l : List α) (i : Nat) (v : α) : List α := l.set i v

/-- Drop the first element that a test selects. -/
def dropFirst {α : Type} (p : α → Bool) : List α → List α
  | [] => []
  | x :: r => if p x then r else x :: dropFirst p r

/-- A boolean as 0 or 1. -/
def b2n (b : Bool) : Nat := if b then 1 else 0

/-- Sum of a list of numbers. -/
def sumNat (l : List Nat) : Nat := l.foldl (· + ·) 0

/-- Pieces of `n` consecutive elements of a list, the last possibly shorter; `fuel` bounds the number of pieces. -/
def chunksOf {α : Type} (n : Nat) : Nat → List α → List (List α)
  | 0, _ => []
  | _ + 1, [] => []
  | f + 1, l => l.take n :: chunksOf n f (l.drop n)

/-- Saturating count of a register field that is `w` bits wide (R601: COUNT saturates). -/
def satAdd (w v n : Nat) : Nat := min (v + n) (2 ^ w - 1)

end Sys2Proof.Machine
end

