-- ==== Sys2Proof/Machine/RegMap.lean ====
section
/-! DEFINITION. The register pages of the GW7 (R590 to R604) as tables, from the register tables of the spec's chapters:
each register's offset, its stride and count, the instances that have it, its width in 32-bit words, and its fields
(low bit, length, access type of R10, reset value). A reset value that the spec leaves to straps, fuses, firmware or
kindling is listed as 0 (log entry 1). Fields not listed are RSV. -/
namespace Sys2Proof.Machine

/-- The access types of R10. -/
inductive RTyp
  | rw | ro | w1c | w1s | rc | wo | rsv
  deriving DecidableEq, Repr

/-- A field of a register table: low bit, length, type, reset value. -/
structure FSpec where
  lo : Nat
  len : Nat
  typ : RTyp
  rst : Nat
  deriving DecidableEq, Repr

/-- A row of a register table. `words` is 1 for a 32-bit and 2 for a 64-bit register. -/
structure RegSpec where
  off : Nat
  stride : Nat
  count : Nat
  lo : Nat
  hi : Nat
  words : Nat
  fields : List FSpec
  deriving DecidableEq, Repr

/-- A named field: block type, register offset, stride, low bit, length. Block 0 is the common header of every page
(R600) and the program control registers of every engine page (R235). -/
structure Fld where
  blk : Nat
  off : Nat
  stride : Nat
  lo : Nat
  len : Nat
  deriving DecidableEq, Repr

/-! The named fields, each with the rule that gives it. -/

def P_PCTL_CMD : Fld := ⟨0, 256, 0, 0, 4⟩ -- R236
def P_PCTL_MARK_EN : Fld := ⟨0, 256, 0, 4, 1⟩ -- R236
def P_PSTATE_STATE : Fld := ⟨0, 260, 0, 0, 3⟩ -- R236
def P_PSTATE_CMD_ERR : Fld := ⟨0, 260, 0, 3, 1⟩ -- R236
def P_PSTATE_IMEM_REJ : Fld := ⟨0, 260, 0, 4, 1⟩ -- R236
def P_PSTATE_LATE : Fld := ⟨0, 260, 0, 5, 1⟩ -- R236
def P_PSTATE_VSEEN : Fld := ⟨0, 260, 0, 6, 1⟩ -- R236
def P_PSTATE_PC : Fld := ⟨0, 260, 0, 16, 12⟩ -- R236
def P_START_PC_PC : Fld := ⟨0, 264, 0, 0, 12⟩ -- R236
def P_WAIT_TMO_US : Fld := ⟨0, 268, 0, 0, 32⟩ -- R236
def P_LAUNCH : Fld := ⟨0, 272, 0, 0, 64⟩ -- R236
def P_MARK_LAST : Fld := ⟨0, 280, 0, 0, 32⟩ -- R236
def P_G : Fld := ⟨0, 512, 8, 0, 64⟩ -- R235
def P_CYCLES : Fld := ⟨0, 288, 0, 0, 64⟩ -- R560
def P_CYCLES_LATCHED : Fld := ⟨0, 296, 0, 0, 64⟩ -- R560
def P_IDLE : Fld := ⟨0, 384, 16, 0, 64⟩ -- R560
def P_IDLE_LATCHED : Fld := ⟨0, 392, 16, 0, 64⟩ -- R560
def H_ID_BLOCK : Fld := ⟨0, 0, 0, 0, 16⟩ -- R601
def H_ID_INSTANCE : Fld := ⟨0, 0, 0, 16, 8⟩ -- R601
def H_VERSION_VERSION : Fld := ⟨0, 4, 0, 0, 32⟩ -- R601
def H_CAPS_NINST : Fld := ⟨0, 8, 0, 0, 8⟩ -- R601
def H_CAPS_FW : Fld := ⟨0, 8, 0, 8, 1⟩ -- R601
def H_CAPS_RESET : Fld := ⟨0, 8, 0, 9, 1⟩ -- R601
def H_CAPS_DRAIN : Fld := ⟨0, 8, 0, 10, 1⟩ -- R601
def H_CAPS_STATS : Fld := ⟨0, 8, 0, 11, 1⟩ -- R601
def H_CTRL_EN : Fld := ⟨0, 16, 0, 0, 1⟩ -- R601
def H_CTRL_DRAIN : Fld := ⟨0, 16, 0, 1, 1⟩ -- R601
def H_CTRL_RESET_REQ : Fld := ⟨0, 16, 0, 2, 1⟩ -- R601
def H_STATUS_DRAINED : Fld := ⟨0, 20, 0, 0, 1⟩ -- R601
def H_STATUS_ISOLATED : Fld := ⟨0, 20, 0, 1, 1⟩ -- R601
def H_STATUS_ERR : Fld := ⟨0, 20, 0, 2, 1⟩ -- R601
def H_STATUS_IRQ : Fld := ⟨0, 20, 0, 3, 1⟩ -- R601
def H_GEN_DOMGEN : Fld := ⟨0, 24, 0, 0, 8⟩ -- R601
def H_GEN_DOMAIN : Fld := ⟨0, 24, 0, 8, 7⟩ -- R601
def H_GEN_CHIPGEN : Fld := ⟨0, 24, 0, 16, 8⟩ -- R601
def H_IRQ_STATUS_FAULT : Fld := ⟨0, 32, 0, 0, 1⟩ -- R601
def H_IRQ_STATUS_READY : Fld := ⟨0, 32, 0, 1, 1⟩ -- R601
def H_IRQ_STATUS_BLOCK : Fld := ⟨0, 32, 0, 16, 16⟩ -- R601
def H_IRQ_ENABLE_EN : Fld := ⟨0, 36, 0, 0, 32⟩ -- R601
def H_IRQ_FORCE_SET : Fld := ⟨0, 40, 0, 0, 32⟩ -- R601
def H_ERR_LOG_CODE : Fld := ⟨0, 48, 0, 0, 16⟩ -- R601
def H_ERR_LOG_COUNT : Fld := ⟨0, 48, 0, 16, 8⟩ -- R601
def H_ERR_LOG_VALID : Fld := ⟨0, 48, 0, 24, 1⟩ -- R601
def H_ERR_LOG_GSC : Fld := ⟨0, 48, 0, 32, 32⟩ -- R601
def H_STAT_LATCH_GSC : Fld := ⟨0, 56, 0, 0, 32⟩ -- R601
def H_PERIOD_ID_ID : Fld := ⟨0, 60, 0, 0, 32⟩ -- R601
def MG_LEND_CMD_CMD : Fld := ⟨1, 256, 0, 0, 4⟩ -- R454
def MG_LEND_CMD_GEN : Fld := ⟨1, 256, 0, 4, 8⟩ -- R454
def MG_LEND_CMD_RESTORE : Fld := ⟨1, 256, 0, 12, 1⟩ -- R454
def MG_LEND_CMD_TARGET : Fld := ⟨1, 256, 0, 13, 1⟩ -- R454
def MG_LEND_STATUS_STATE : Fld := ⟨1, 260, 0, 0, 3⟩ -- R454
def MG_LEND_STATUS_CMD_ERR : Fld := ⟨1, 260, 0, 3, 1⟩ -- R454
def MG_LEND_STATUS_QUIESCED : Fld := ⟨1, 260, 0, 4, 1⟩ -- R454
def MG_LEND_STATUS_IMAGE_DONE : Fld := ⟨1, 260, 0, 5, 1⟩ -- R454
def MG_LEND_STATUS_INCOMPLETE : Fld := ⟨1, 260, 0, 6, 1⟩ -- R454
def MG_LEND_STATUS_DRAIN_LATE : Fld := ⟨1, 260, 0, 7, 1⟩ -- R454
def MG_LEND_STATUS_GEN : Fld := ⟨1, 260, 0, 8, 8⟩ -- R454
def MG_LEND_STATUS_REJECT : Fld := ⟨1, 260, 0, 16, 3⟩ -- R454
def MG_LEND_STATUS_RISK : Fld := ⟨1, 260, 0, 19, 1⟩ -- R454
def MG_LEND_CFG_DEADLINE_S : Fld := ⟨1, 264, 0, 0, 8⟩ -- R454
def MG_LEND_CFG_RESERVE_S : Fld := ⟨1, 264, 0, 8, 4⟩ -- R454
def MG_LEND_CFG_AUTO_IMAGE : Fld := ⟨1, 264, 0, 12, 1⟩ -- R454
def MG_ZERO_FRAMES_FRAMES : Fld := ⟨1, 268, 0, 0, 18⟩ -- R454
def MG_RECALL_AT_GSC : Fld := ⟨1, 272, 0, 0, 64⟩ -- R454
def MG_IMAGE_BYTES : Fld := ⟨1, 280, 0, 0, 64⟩ -- R454
def MG_IMAGE_LEFT_BYTES : Fld := ⟨1, 288, 0, 0, 64⟩ -- R454
def MG_CLASS_CFG_SLICE_MAX : Fld := ⟨1, 512, 0, 0, 17⟩ -- R479
def MG_CLASS_CFG_LIMIT : Fld := ⟨1, 512, 0, 17, 4⟩ -- R479
def MG_CLASS_CFG_WINDOW_D : Fld := ⟨1, 512, 0, 21, 11⟩ -- R479
def MG_SLICE_SIZE : Fld := ⟨1, 516, 0, 0, 17⟩ -- R479
def MG_CLASS_CMD_LTILE : Fld := ⟨1, 520, 0, 0, 6⟩ -- R479
def MG_CLASS_CMD_GO : Fld := ⟨1, 520, 0, 6, 1⟩ -- R479
def MG_CLASS_CMD_REC : Fld := ⟨1, 520, 0, 7, 2⟩ -- R479
def MG_CLASS_STATUS_BUSY : Fld := ⟨1, 524, 0, 0, 1⟩ -- R479
def MG_CLASS_STATUS_VERDICT : Fld := ⟨1, 524, 0, 1, 2⟩ -- R479
def MG_CLASS_STATUS_METHOD : Fld := ⟨1, 524, 0, 3, 1⟩ -- R479
def MG_CLASS_STATUS_CMD_ERR : Fld := ⟨1, 524, 0, 4, 1⟩ -- R479
def MG_CLASS_STATUS_EVENTS : Fld := ⟨1, 524, 0, 8, 8⟩ -- R479
def MG_DIGEST_CFG_EN : Fld := ⟨1, 528, 0, 0, 1⟩ -- R479
def MG_DIGEST_CFG_EVERY : Fld := ⟨1, 528, 0, 1, 16⟩ -- R479
def MG_DIGEST_CFG_CE : Fld := ⟨1, 528, 0, 17, 2⟩ -- R479
def MG_DIGEST_CFG_CTR : Fld := ⟨1, 528, 0, 19, 8⟩ -- R479
def MG_DIGEST_STATUS_STATE : Fld := ⟨1, 532, 0, 0, 2⟩ -- R479
def MG_DIGEST_STATUS_TORN : Fld := ⟨1, 532, 0, 2, 1⟩ -- R479
def MG_DIGEST_STATUS_LATE : Fld := ⟨1, 532, 0, 3, 1⟩ -- R479
def MG_DIGEST_STATUS_MISMATCH : Fld := ⟨1, 532, 0, 4, 1⟩ -- R479
def MG_DIGEST_MARK_MARK : Fld := ⟨1, 536, 0, 0, 32⟩ -- R479
def MG_LINE_DROPPED : Fld := ⟨1, 540, 0, 0, 32⟩ -- R479
def MG_DIGEST_CRC : Fld := ⟨1, 544, 0, 0, 64⟩ -- R479
def MG_DIGEST_PEER_CRC : Fld := ⟨1, 552, 0, 0, 64⟩ -- R479
def MG_DIGEST_TILE_CRC : Fld := ⟨1, 1024, 8, 0, 64⟩ -- R479
def MG_TMAP_PHYS : Fld := ⟨1, 1536, 4, 0, 7⟩ -- R515
def MG_TMAP_PRESENT : Fld := ⟨1, 1536, 4, 7, 1⟩ -- R515
def MG_PTILE_STATE : Fld := ⟨1, 1792, 4, 0, 3⟩ -- R515
def MG_PTILE_LOGICAL : Fld := ⟨1, 1792, 4, 3, 6⟩ -- R515
def MG_SPARE_CMD_LTILE : Fld := ⟨1, 2112, 0, 0, 6⟩ -- R515
def MG_SPARE_CMD_PHYS : Fld := ⟨1, 2112, 0, 6, 7⟩ -- R515
def MG_SPARE_CMD_OP : Fld := ⟨1, 2112, 0, 13, 2⟩ -- R515
def MG_SPARE_CMD_GO : Fld := ⟨1, 2112, 0, 15, 1⟩ -- R515
def MG_SPARE_STATUS_BUSY : Fld := ⟨1, 2116, 0, 0, 1⟩ -- R515
def MG_SPARE_STATUS_CMD_ERR : Fld := ⟨1, 2116, 0, 1, 1⟩ -- R515
def MG_SPARE_STATUS_SPARES : Fld := ⟨1, 2116, 0, 2, 5⟩ -- R515
def MG_SPARE_STATUS_EXHAUSTED : Fld := ⟨1, 2116, 0, 7, 1⟩ -- R515
def MG_ROT_CFG_EN : Fld := ⟨1, 2120, 0, 0, 1⟩ -- R515
def MG_ROT_CFG_PERIOD_S : Fld := ⟨1, 2120, 0, 1, 16⟩ -- R515
def MG_TEST_CMD_OP : Fld := ⟨1, 2124, 0, 0, 2⟩ -- R515
def MG_TEST_STATUS_STATE : Fld := ⟨1, 2128, 0, 0, 3⟩ -- R515
def MG_TEST_STATUS_PHYS : Fld := ⟨1, 2128, 0, 3, 7⟩ -- R515
def MG_TESTSET_SEQ : Fld := ⟨1, 2132, 0, 0, 32⟩ -- R515
def MG_MIRROR_PUSH_NODE : Fld := ⟨1, 2136, 0, 0, 16⟩ -- R515
def MG_MIRROR_PUSH_GO : Fld := ⟨1, 2136, 0, 16, 1⟩ -- R515
def MG_MIRROR_PUSH_BUSY : Fld := ⟨1, 2136, 0, 17, 1⟩ -- R515
def MG_MIRROR_PUSH_ERR : Fld := ⟨1, 2136, 0, 18, 1⟩ -- R515
def MG_MIRROR_MARK_MARK : Fld := ⟨1, 2140, 0, 0, 32⟩ -- R515
def MG_KEY_STATUS_CHANGED : Fld := ⟨1, 2144, 0, 0, 1⟩ -- R515
def MG_KEY_STATUS_MIXED : Fld := ⟨1, 2144, 0, 1, 1⟩ -- R515
def MG_KEY_STATUS_CHANGES : Fld := ⟨1, 2144, 0, 16, 16⟩ -- R515
def MG_REPRO_KEY_KEY : Fld := ⟨1, 2176, 8, 0, 64⟩ -- R515
def MG_RESET_CMD_DOMAIN : Fld := ⟨1, 2304, 0, 0, 7⟩ -- R536
def MG_RESET_CMD_COLLECT : Fld := ⟨1, 2304, 0, 7, 1⟩ -- R536
def MG_RESET_CMD_GO : Fld := ⟨1, 2304, 0, 8, 1⟩ -- R536
def MG_RESET_STATUS_BUSY : Fld := ⟨1, 2308, 0, 0, 1⟩ -- R536
def MG_RESET_STATUS_CMD_ERR : Fld := ⟨1, 2308, 0, 1, 1⟩ -- R536
def MG_RESET_STATUS_QUEUED : Fld := ⟨1, 2308, 0, 2, 3⟩ -- R536
def MG_RESET_STATUS_LAST : Fld := ⟨1, 2308, 0, 8, 7⟩ -- R536
def MG_WDOG_KICK : Fld := ⟨1, 2312, 0, 0, 1⟩ -- R536
def MG_WDOG_EXPIRED : Fld := ⟨1, 2312, 0, 1, 1⟩ -- R536
def MG_WDOG_EXPIRIES : Fld := ⟨1, 2312, 0, 8, 8⟩ -- R536
def MG_UPDATE_CMD_BLOCK : Fld := ⟨1, 2320, 0, 0, 16⟩ -- R536
def MG_UPDATE_CMD_INSTANCE : Fld := ⟨1, 2320, 0, 16, 8⟩ -- R536
def MG_UPDATE_CMD_OP : Fld := ⟨1, 2320, 0, 24, 2⟩ -- R536
def MG_UPDATE_CMD_GO : Fld := ⟨1, 2320, 0, 26, 1⟩ -- R536
def MG_UPDATE_STATUS_STATE : Fld := ⟨1, 2324, 0, 0, 3⟩ -- R536
def MG_UPDATE_STATUS_CMD_ERR : Fld := ⟨1, 2324, 0, 3, 1⟩ -- R536
def MG_DSTALE : Fld := ⟨1, 2560, 4, 0, 32⟩ -- R536
def MG_KIND_STATUS_STAGE : Fld := ⟨1, 3072, 0, 0, 3⟩ -- R553
def MG_KIND_STATUS_DEGRADED : Fld := ⟨1, 3072, 0, 3, 1⟩ -- R553
def MG_KIND_STATUS_FALLBACK : Fld := ⟨1, 3072, 0, 4, 1⟩ -- R553
def MG_KIND_STATUS_LOG_FULL : Fld := ⟨1, 3072, 0, 5, 1⟩ -- R553
def MG_FW_CMD_BLOCK : Fld := ⟨1, 3076, 0, 0, 16⟩ -- R553
def MG_FW_CMD_OP : Fld := ⟨1, 3076, 0, 16, 2⟩ -- R553
def MG_FW_CMD_CMD_ERR : Fld := ⟨1, 3076, 0, 18, 1⟩ -- R553
def MG_MR_CMD_GO : Fld := ⟨1, 3080, 0, 0, 1⟩ -- R553
def MG_MR_CMD_BUSY : Fld := ⟨1, 3080, 0, 1, 1⟩ -- R553
def MG_MR_CMD_CMD_ERR : Fld := ⟨1, 3080, 0, 2, 1⟩ -- R553
def MG_MRLOG_SEL_IDX : Fld := ⟨1, 3084, 0, 0, 10⟩ -- R553
def MG_MRLOG_SEL_COUNT : Fld := ⟨1, 3084, 0, 10, 11⟩ -- R553
def MG_DEVICE_ID_ID : Fld := ⟨1, 3088, 0, 0, 64⟩ -- R553
def MG_MR_DATA_D : Fld := ⟨1, 3104, 4, 0, 32⟩ -- R553
def MG_MRLOG_DATA_D : Fld := ⟨1, 3136, 4, 0, 32⟩ -- R553
def MG_MR_V : Fld := ⟨1, 3328, 4, 0, 32⟩ -- R553
def MG_IRQ_SUM_INST : Fld := ⟨1, 3600, 4, 0, 32⟩ -- R604
def TL_ECC_CORRECTED : Fld := ⟨2, 64, 0, 0, 16⟩ -- R156
def TL_ECC_UNCORRECTED : Fld := ⟨2, 64, 0, 16, 16⟩ -- R156
def TL_SWEEP_EN : Fld := ⟨2, 68, 0, 0, 1⟩ -- R156
def TL_CONFLICT_CYCLES : Fld := ⟨2, 80, 0, 0, 64⟩ -- R155
def TL_CONFLICT_CYCLES_LATCHED : Fld := ⟨2, 88, 0, 0, 64⟩ -- R155
def TL_DIGEST_RGN0_BASE : Fld := ⟨2, 192, 0, 0, 22⟩ -- R479
def TL_DIGEST_RGN0_LEN : Fld := ⟨2, 192, 0, 32, 23⟩ -- R479
def TL_DIGEST_RGN1_BASE : Fld := ⟨2, 200, 0, 0, 22⟩ -- R479
def TL_DIGEST_RGN1_LEN : Fld := ⟨2, 200, 0, 32, 23⟩ -- R479
def TL_DIGEST_ST_BUSY : Fld := ⟨2, 208, 0, 0, 1⟩ -- R479
def TL_DIGEST_ST_TORN : Fld := ⟨2, 208, 0, 1, 1⟩ -- R479
def TL_DIGEST_ST_WR_REJ : Fld := ⟨2, 208, 0, 2, 1⟩ -- R479
def TL_CV_CTRL_CMD : Fld := ⟨2, 256, 128, 0, 3⟩ -- R491
def TL_CV_CFG_WIDTH : Fld := ⟨2, 260, 128, 0, 6⟩ -- R491
def TL_CV_CFG_REF : Fld := ⟨2, 260, 128, 6, 1⟩ -- R491
def TL_CV_CFG_INV : Fld := ⟨2, 260, 128, 7, 1⟩ -- R491
def TL_CV_CFG_FOLD : Fld := ⟨2, 260, 128, 8, 2⟩ -- R491
def TL_CV_CFG_CMP : Fld := ⟨2, 260, 128, 10, 1⟩ -- R491
def TL_CV_CFG_CONT : Fld := ⟨2, 260, 128, 11, 1⟩ -- R491
def TL_CV_CFG_OKSIG : Fld := ⟨2, 260, 128, 12, 1⟩ -- R491
def TL_CV_CFG_OKCTR : Fld := ⟨2, 260, 128, 13, 8⟩ -- R491
def TL_CV_CFG_BADSIG : Fld := ⟨2, 260, 128, 21, 1⟩ -- R491
def TL_CV_CFG_BADCTR : Fld := ⟨2, 260, 128, 22, 8⟩ -- R491
def TL_CV_STATUS_STATE : Fld := ⟨2, 264, 128, 0, 2⟩ -- R491
def TL_CV_STATUS_DONE : Fld := ⟨2, 264, 128, 2, 1⟩ -- R491
def TL_CV_STATUS_MISMATCH : Fld := ⟨2, 264, 128, 3, 1⟩ -- R491
def TL_CV_STATUS_POISON : Fld := ⟨2, 264, 128, 4, 1⟩ -- R491
def TL_CV_STATUS_CMD_ERR : Fld := ⟨2, 264, 128, 5, 1⟩ -- R491
def TL_CV_STATUS_CFG_ERR : Fld := ⟨2, 264, 128, 6, 1⟩ -- R491
def TL_CV_TRIG_CTR : Fld := ⟨2, 268, 128, 0, 8⟩ -- R491
def TL_CV_TRIG_TAG : Fld := ⟨2, 268, 128, 16, 16⟩ -- R491
def TL_CV_POLY_P : Fld := ⟨2, 272, 128, 0, 64⟩ -- R491
def TL_CV_INIT_I : Fld := ⟨2, 280, 128, 0, 64⟩ -- R491
def TL_CV_EXPECT_E : Fld := ⟨2, 288, 128, 0, 64⟩ -- R491
def TL_CV_RESULT_R : Fld := ⟨2, 296, 128, 0, 64⟩ -- R491
def TL_CV_RAW_R : Fld := ⟨2, 304, 128, 0, 64⟩ -- R491
def TL_CV_REGION_BASE : Fld := ⟨2, 312, 128, 0, 22⟩ -- R491
def TL_CV_REGION_LEN : Fld := ⟨2, 312, 128, 32, 23⟩ -- R491
def TL_CV_SEQ_SEQ0 : Fld := ⟨2, 320, 128, 0, 64⟩ -- R491
def TL_TRACE_CTL_EN : Fld := ⟨2, 128, 0, 0, 1⟩ -- R238
def TL_TRACE_HEAD_NEXT : Fld := ⟨2, 132, 0, 0, 10⟩ -- R238
def TL_TRACE_HEAD_WRAP : Fld := ⟨2, 132, 0, 10, 1⟩ -- R238
def TL_TRACE_SEL_IDX : Fld := ⟨2, 136, 0, 0, 10⟩ -- R238
def TL_TRACE_LOST : Fld := ⟨2, 140, 0, 0, 32⟩ -- R238
def TL_TRACE_DATA_DATA : Fld := ⟨2, 144, 4, 0, 32⟩ -- R238
def MX_STATUS_ARRAY_BUSY : Fld := ⟨3, 64, 0, 0, 4⟩ -- R115
def MX_STATUS_LOADING : Fld := ⟨3, 64, 0, 4, 4⟩ -- R115
def MX_STATUS_ACTIVE_SET : Fld := ⟨3, 64, 0, 8, 4⟩ -- R115
def MX_STATUS_IDLE_LOADED : Fld := ⟨3, 64, 0, 12, 4⟩ -- R115
def MX_STATUS_SLOTS_FULL : Fld := ⟨3, 64, 0, 16, 4⟩ -- R115
def MX_STATUS_ACC_OPS : Fld := ⟨3, 64, 0, 20, 4⟩ -- R115
def MX_FLAGS_OVF : Fld := ⟨3, 68, 0, 0, 1⟩ -- R116
def MX_FLAGS_UNF : Fld := ⟨3, 68, 0, 1, 1⟩ -- R116
def MX_FLAGS_NANL : Fld := ⟨3, 68, 0, 2, 1⟩ -- R116
def MX_FLAGS_IOVF : Fld := ⟨3, 68, 0, 3, 1⟩ -- R116
def MX_RUNS_OPEN_RUNS : Fld := ⟨3, 72, 0, 0, 8⟩ -- R117
def MX_RUNS_SPILL_ROWS : Fld := ⟨3, 72, 0, 8, 11⟩ -- R117
def MX_LAST_FAULT_CODE : Fld := ⟨3, 76, 0, 0, 16⟩ -- R117
def MX_LAST_FAULT_TAG : Fld := ⟨3, 76, 0, 16, 16⟩ -- R117
def MX_ROW_SLOTS : Fld := ⟨3, 80, 0, 0, 64⟩ -- R114
def MX_ROW_SLOTS_LATCHED : Fld := ⟨3, 88, 0, 0, 64⟩ -- R114
def MX_MACS : Fld := ⟨3, 96, 0, 0, 64⟩ -- R114
def MX_MACS_LATCHED : Fld := ⟨3, 104, 0, 0, 64⟩ -- R114
def MX_FILLER_SLOTS : Fld := ⟨3, 112, 0, 0, 64⟩ -- R114
def MX_FILLER_SLOTS_LATCHED : Fld := ⟨3, 120, 0, 0, 64⟩ -- R114
def VX_STATUS_BUSY : Fld := ⟨4, 64, 0, 0, 1⟩ -- R192
def VX_STATUS_OPT : Fld := ⟨4, 64, 0, 1, 1⟩ -- R192
def VX_STATUS_KEYLOCK : Fld := ⟨4, 64, 0, 2, 1⟩ -- R192
def VX_FLAGS_OVF : Fld := ⟨4, 68, 0, 0, 1⟩ -- R192
def VX_FLAGS_UNF : Fld := ⟨4, 68, 0, 1, 1⟩ -- R192
def VX_FLAGS_NANL : Fld := ⟨4, 68, 0, 2, 1⟩ -- R192
def VX_FLAGS_NANG : Fld := ⟨4, 68, 0, 3, 1⟩ -- R192
def VX_LAST_FAULT_CODE : Fld := ⟨4, 72, 0, 0, 16⟩ -- R192
def VX_LAST_FAULT_TAG : Fld := ⟨4, 72, 0, 16, 16⟩ -- R192
def VX_SFU_REV_REV : Fld := ⟨4, 76, 0, 0, 16⟩ -- R192
def VX_RNG_KEY_KEY : Fld := ⟨4, 80, 0, 0, 64⟩ -- R192
def VX_LANE_OPS : Fld := ⟨4, 96, 0, 0, 64⟩ -- R191
def VX_LANE_OPS_LATCHED : Fld := ⟨4, 104, 0, 0, 64⟩ -- R191
def VX_SFU_RESULTS : Fld := ⟨4, 112, 0, 0, 64⟩ -- R191
def VX_SFU_RESULTS_LATCHED : Fld := ⟨4, 120, 0, 0, 64⟩ -- R191
def VX_RNG_CALLS : Fld := ⟨4, 128, 0, 0, 64⟩ -- R191
def VX_RNG_CALLS_LATCHED : Fld := ⟨4, 136, 0, 0, 64⟩ -- R191
def DM_CFG_RA_DEPTH : Fld := ⟨5, 64, 0, 0, 4⟩ -- R156
def DM_STATUS_INFLIGHT : Fld := ⟨5, 68, 0, 0, 4⟩ -- R156
def DM_STATUS_STALLED : Fld := ⟨5, 68, 0, 4, 4⟩ -- R156
def DM_STATUS_PIECES_OUT : Fld := ⟨5, 68, 0, 8, 12⟩ -- R156
def DM_LAST_FAULT_CODE : Fld := ⟨5, 72, 0, 0, 16⟩ -- R156
def DM_LAST_FAULT_TAG : Fld := ⟨5, 72, 0, 16, 16⟩ -- R156
def DM_PROG_NEXT_PIECE : Fld := ⟨5, 80, 0, 0, 17⟩ -- R156
def DM_PROG_TRANSFER_ID : Fld := ⟨5, 80, 0, 32, 16⟩ -- R156
def DM_PROG_TAG : Fld := ⟨5, 80, 0, 48, 16⟩ -- R156
def DM_BYTES : Fld := ⟨5, 96, 0, 0, 64⟩ -- R155
def DM_BYTES_LATCHED : Fld := ⟨5, 104, 0, 0, 64⟩ -- R155
def DM_PIECES : Fld := ⟨5, 112, 0, 0, 64⟩ -- R155
def DM_PIECES_LATCHED : Fld := ⟨5, 120, 0, 0, 64⟩ -- R155
def DM_RA_TOUCHES : Fld := ⟨5, 128, 0, 0, 64⟩ -- R155
def DM_RA_TOUCHES_LATCHED : Fld := ⟨5, 136, 0, 0, 64⟩ -- R155
def DM_POISON_MOVED : Fld := ⟨5, 144, 0, 0, 64⟩ -- R155
def DM_POISON_MOVED_LATCHED : Fld := ⟨5, 152, 0, 0, 64⟩ -- R155
def SY_STATUS_WAITING : Fld := ⟨6, 64, 0, 0, 4⟩ -- R268
def SY_STATUS_WR_REJ : Fld := ⟨6, 64, 0, 4, 1⟩ -- R268
def SY_STATUS_SIG_OUT : Fld := ⟨6, 64, 0, 5, 5⟩ -- R268
def SY_LAST_FAULT_CODE : Fld := ⟨6, 68, 0, 0, 16⟩ -- R268
def SY_LAST_FAULT_TAG : Fld := ⟨6, 68, 0, 16, 16⟩ -- R268
def SY_SIGNALS : Fld := ⟨6, 80, 0, 0, 64⟩ -- R268
def SY_SIGNALS_LATCHED : Fld := ⟨6, 88, 0, 0, 64⟩ -- R267
def SY_CTR : Fld := ⟨6, 1024, 4, 0, 24⟩ -- R268
def BA_STATUS_CFG_ERR : Fld := ⟨7, 64, 0, 0, 1⟩ -- R269
def BA_STATUS_SNAP_BUSY : Fld := ⟨7, 64, 0, 1, 1⟩ -- R269
def BA_LAST_FAULT_CODE : Fld := ⟨7, 68, 0, 0, 16⟩ -- R269
def BA_LAST_FAULT_TAG : Fld := ⟨7, 68, 0, 16, 16⟩ -- R269
def BA_SNAP_NUMBER : Fld := ⟨7, 72, 0, 0, 32⟩ -- R269
def BA_CFG_MODE : Fld := ⟨7, 64, 0, 0, 2⟩ -- R269
def BA_CFG_TILE : Fld := ⟨7, 64, 0, 2, 6⟩ -- R269
def BA_CFG_CE : Fld := ⟨7, 64, 0, 8, 2⟩ -- R269
def BA_STATE_ROUND : Fld := ⟨7, 68, 0, 0, 1⟩ -- R269
def BA_STATE_CUR : Fld := ⟨7, 68, 0, 1, 9⟩ -- R269
def BA_STATE_NEXT : Fld := ⟨7, 68, 0, 10, 9⟩ -- R269
def BA_STATE_LEAVING : Fld := ⟨7, 68, 0, 19, 1⟩ -- R269
def BA_STATE_GLOBAL_PEND : Fld := ⟨7, 68, 0, 20, 1⟩ -- R269
def BA_STATE_CSTATE : Fld := ⟨7, 68, 0, 21, 2⟩ -- R269
def BA_MASK_MEMBERS : Fld := ⟨7, 80, 4, 0, 32⟩ -- R269
def CE_CFG_HOME : Fld := ⟨8, 64, 0, 0, 6⟩ -- R415
def CE_RING_SIZEM1 : Fld := ⟨8, 68, 0, 0, 6⟩ -- R415
def CE_RING_RANK : Fld := ⟨8, 68, 0, 6, 6⟩ -- R415
def CE_RING_WRAP : Fld := ⟨8, 68, 0, 12, 1⟩ -- R415
def CE_STATUS_BUSY : Fld := ⟨8, 72, 0, 0, 1⟩ -- R415
def CE_STATUS_OPNUM : Fld := ⟨8, 72, 0, 1, 12⟩ -- R415
def CE_STATUS_STEP : Fld := ⟨8, 72, 0, 13, 12⟩ -- R415
def CE_FLAGS_OVF : Fld := ⟨8, 76, 0, 0, 1⟩ -- R415
def CE_FLAGS_IOVF : Fld := ⟨8, 76, 0, 1, 1⟩ -- R415
def CE_FLAGS_POISON : Fld := ⟨8, 76, 0, 2, 1⟩ -- R415
def CE_FLAGS_STATNAN : Fld := ⟨8, 76, 0, 3, 1⟩ -- R415
def CE_LAST_FAULT_CODE : Fld := ⟨8, 80, 0, 0, 16⟩ -- R415
def CE_LAST_FAULT_TAG : Fld := ⟨8, 80, 0, 16, 16⟩ -- R415
def CE_CREDIT_PLUS : Fld := ⟨8, 84, 0, 0, 13⟩ -- R415
def CE_CREDIT_MINUS : Fld := ⟨8, 84, 0, 13, 13⟩ -- R415
def CE_STAT_N : Fld := ⟨8, 96, 0, 0, 64⟩ -- R415
def CE_STAT_N_LATCHED : Fld := ⟨8, 104, 0, 0, 64⟩ -- R414
def CE_STAT_LOC : Fld := ⟨8, 112, 0, 0, 64⟩ -- R415
def CE_STAT_LOC_LATCHED : Fld := ⟨8, 120, 0, 0, 64⟩ -- R414
def CE_STAT_LOCSUM : Fld := ⟨8, 128, 0, 0, 64⟩ -- R415
def CE_STAT_LOCSUM_LATCHED : Fld := ⟨8, 136, 0, 0, 64⟩ -- R414
def CE_STAT_RED : Fld := ⟨8, 144, 0, 0, 64⟩ -- R415
def CE_STAT_RED_LATCHED : Fld := ⟨8, 152, 0, 0, 64⟩ -- R414
def CE_BYTES : Fld := ⟨8, 160, 0, 0, 64⟩ -- R415
def CE_BYTES_LATCHED : Fld := ⟨8, 168, 0, 0, 64⟩ -- R414
def CE_PIECES : Fld := ⟨8, 176, 0, 0, 64⟩ -- R415
def CE_PIECES_LATCHED : Fld := ⟨8, 184, 0, 0, 64⟩ -- R414
def CE_NODE_NODE : Fld := ⟨8, 768, 4, 0, 16⟩ -- R415
def RT_CFG_STALL_MS : Fld := ⟨9, 64, 0, 0, 8⟩ -- R382
def RT_STATUS_CAT_REJ : Fld := ⟨9, 68, 0, 0, 1⟩ -- R382
def RT_STATUS_CAT_LIVE : Fld := ⟨9, 68, 0, 1, 1⟩ -- R382
def RT_NODE_NODE : Fld := ⟨9, 72, 0, 0, 16⟩ -- R382
def RT_JOB_GEN_GEN : Fld := ⟨9, 76, 0, 0, 8⟩ -- R382
def RT_EDITION_INJECT : Fld := ⟨9, 80, 0, 0, 1⟩ -- R382
def RT_EDITION_ARMED : Fld := ⟨9, 80, 0, 1, 1⟩ -- R382
def RT_EDITION_ARM : Fld := ⟨9, 80, 0, 2, 1⟩ -- R382
def RT_OLD_COUNT : Fld := ⟨9, 84, 0, 0, 16⟩ -- R382
def RT_OLD_SEEN : Fld := ⟨9, 84, 0, 16, 1⟩ -- R382
def RT_EDITION_AT : Fld := ⟨9, 88, 0, 0, 64⟩ -- R382
def RT_EDN_CFG_DATELINE : Fld := ⟨9, 96, 4, 0, 8⟩ -- R382
def RT_EDN_CFG_FENCE : Fld := ⟨9, 96, 4, 8, 8⟩ -- R382
def RT_STALE_DROPS : Fld := ⟨9, 112, 0, 0, 32⟩ -- R382
def RT_FENCE_DROPS : Fld := ⟨9, 116, 0, 0, 32⟩ -- R382
def RT_UNROUTABLE : Fld := ⟨9, 120, 0, 0, 32⟩ -- R382
def RT_STALL_DROPS : Fld := ⟨9, 124, 0, 0, 32⟩ -- R382
def RT_HOP_DROPS : Fld := ⟨9, 128, 0, 0, 32⟩ -- R382
def RT_XFER_BUSY : Fld := ⟨9, 132, 0, 0, 32⟩ -- R382
def RT_XFER_EXPIRED : Fld := ⟨9, 136, 0, 0, 32⟩ -- R382
def RT_P_PKTS : Fld := ⟨9, 64, 0, 0, 64⟩ -- R381
def RT_P_PKTS_LATCHED : Fld := ⟨9, 72, 0, 0, 64⟩ -- R381
def RT_P_BYTES : Fld := ⟨9, 80, 0, 0, 64⟩ -- R381
def RT_P_BYTES_LATCHED : Fld := ⟨9, 88, 0, 0, 64⟩ -- R381
def RT_P_STALL : Fld := ⟨9, 96, 0, 0, 64⟩ -- R381
def RT_P_STALL_LATCHED : Fld := ⟨9, 104, 0, 0, 64⟩ -- R381
def RT_P_QHIST : Fld := ⟨9, 128, 4, 0, 32⟩ -- R381
def RT_P_QHIST_LATCHED : Fld := ⟨9, 160, 4, 0, 32⟩ -- R381
def FL_STATUS_STATE : Fld := ⟨10, 64, 0, 0, 3⟩ -- R355
def FL_STATUS_ROTATING : Fld := ⟨10, 64, 0, 3, 1⟩ -- R355
def FL_STATUS_LANES_GOOD : Fld := ⟨10, 64, 0, 4, 4⟩ -- R355
def FL_CFG_PRESET : Fld := ⟨10, 68, 0, 0, 2⟩ -- R355
def FL_CFG_WBYPASS : Fld := ⟨10, 68, 0, 2, 1⟩ -- R355
def FL_CFG_SLOT : Fld := ⟨10, 68, 0, 3, 3⟩ -- R355
def FL_CFG_EN : Fld := ⟨10, 68, 0, 6, 1⟩ -- R355
def FL_CFG_RESET : Fld := ⟨10, 68, 0, 7, 1⟩ -- R355
def FL_CFG_SELFTEST : Fld := ⟨10, 68, 0, 8, 1⟩ -- R355
def FL_CFG_SELFTEST_STATUS : Fld := ⟨10, 68, 0, 9, 2⟩ -- R355
def FL_LANEMAP_LOG0 : Fld := ⟨10, 72, 0, 0, 4⟩ -- R355
def FL_LANEMAP_LOG1 : Fld := ⟨10, 72, 0, 4, 4⟩ -- R355
def FL_LANEMAP_LOG2 : Fld := ⟨10, 72, 0, 8, 4⟩ -- R355
def FL_LANEMAP_LOG3 : Fld := ⟨10, 72, 0, 12, 4⟩ -- R355
def FL_LANEMAP_LOG4 : Fld := ⟨10, 72, 0, 16, 4⟩ -- R355
def FL_LANEMAP_LOG5 : Fld := ⟨10, 72, 0, 20, 4⟩ -- R355
def FL_LANEMAP_LOG6 : Fld := ⟨10, 72, 0, 24, 4⟩ -- R355
def FL_LANEMAP_LOG7 : Fld := ⟨10, 72, 0, 28, 4⟩ -- R355
def FL_LANES_SPARE : Fld := ⟨10, 76, 0, 0, 4⟩ -- R355
def FL_LANES_FAILED : Fld := ⟨10, 76, 0, 4, 9⟩ -- R355
def FL_LANES_RECAL : Fld := ⟨10, 76, 0, 13, 4⟩ -- R355
def FL_ROT_CFG_EN : Fld := ⟨10, 80, 0, 0, 1⟩ -- R355
def FL_ROT_CFG_PERIOD_S : Fld := ⟨10, 80, 0, 1, 15⟩ -- R355
def FL_DAMP_CFG_HEADROOM : Fld := ⟨10, 84, 0, 0, 5⟩ -- R355
def FL_RETRY_CFG_REPLAY_MAX : Fld := ⟨10, 88, 0, 0, 4⟩ -- R355
def FL_RETRY_CFG_LANE_UCW_MAX : Fld := ⟨10, 88, 0, 8, 8⟩ -- R355
def FL_PEER_NODE : Fld := ⟨10, 92, 0, 0, 16⟩ -- R355
def FL_PEER_FLUE : Fld := ⟨10, 92, 0, 16, 5⟩ -- R355
def FL_PEER_PSTATE : Fld := ⟨10, 92, 0, 21, 3⟩ -- R355
def FL_PEER_ID_DEVICE_ID : Fld := ⟨10, 96, 0, 0, 64⟩ -- R355
def FL_ERR_CRC_ERRORS : Fld := ⟨10, 104, 0, 0, 16⟩ -- R355
def FL_ERR_DAMP_OVERRUN : Fld := ⟨10, 104, 0, 16, 16⟩ -- R355
def FL_LOST_PACKETS : Fld := ⟨10, 108, 0, 0, 32⟩ -- R355
def FL_TX_BYTES : Fld := ⟨10, 128, 0, 0, 64⟩ -- R354
def FL_TX_BYTES_LATCHED : Fld := ⟨10, 136, 0, 0, 64⟩ -- R354
def FL_RX_BYTES : Fld := ⟨10, 144, 0, 0, 64⟩ -- R354
def FL_RX_BYTES_LATCHED : Fld := ⟨10, 152, 0, 0, 64⟩ -- R354
def FL_REPLAYS : Fld := ⟨10, 160, 0, 0, 64⟩ -- R354
def FL_REPLAYS_LATCHED : Fld := ⟨10, 168, 0, 0, 64⟩ -- R354
def FL_FEC_CORRECTED : Fld := ⟨10, 176, 0, 0, 64⟩ -- R354
def FL_FEC_CORRECTED_LATCHED : Fld := ⟨10, 184, 0, 0, 64⟩ -- R354
def FL_LANE_EYE_V : Fld := ⟨10, 256, 4, 0, 8⟩ -- R355
def FL_LANE_EYE_H : Fld := ⟨10, 256, 4, 8, 8⟩ -- R355
def FL_LANE_LSTATE : Fld := ⟨10, 256, 4, 16, 3⟩ -- R355
def MC_STATUS_TRAINED : Fld := ⟨11, 64, 0, 0, 1⟩ -- R295
def MC_STATUS_SELF_REFRESH : Fld := ⟨11, 64, 0, 1, 1⟩ -- R295
def MC_STATUS_MIGRATING : Fld := ⟨11, 64, 0, 2, 1⟩ -- R295
def MC_STATUS_REPAIR_EXHAUSTED : Fld := ⟨11, 64, 0, 3, 1⟩ -- R295
def MC_STATUS_RETIRED : Fld := ⟨11, 64, 0, 4, 2⟩ -- R295
def MC_STATUS_CMD_ERR : Fld := ⟨11, 64, 0, 6, 1⟩ -- R295
def MC_RETIRE_PC1 : Fld := ⟨11, 68, 0, 0, 6⟩ -- R295
def MC_RETIRE_V1 : Fld := ⟨11, 68, 0, 6, 1⟩ -- R295
def MC_RETIRE_PC2 : Fld := ⟨11, 68, 0, 8, 6⟩ -- R295
def MC_RETIRE_V2 : Fld := ⟨11, 68, 0, 14, 1⟩ -- R295
def MC_RETIRE_CFG_CE_LIMIT : Fld := ⟨11, 72, 0, 0, 16⟩ -- R295
def MC_RETIRE_CFG_UE_LIMIT : Fld := ⟨11, 72, 0, 16, 8⟩ -- R295
def MC_RETIRE_CMD_PC : Fld := ⟨11, 76, 0, 0, 6⟩ -- R295
def MC_RETIRE_CMD_GO : Fld := ⟨11, 76, 0, 6, 1⟩ -- R295
def MC_SWEEP_EN : Fld := ⟨11, 80, 0, 0, 1⟩ -- R295
def MC_SWEEP_PERIOD : Fld := ⟨11, 80, 0, 1, 8⟩ -- R295
def MC_SWEEP_POS_Q : Fld := ⟨11, 84, 0, 0, 28⟩ -- R295
def MC_ECC_CORRECTED : Fld := ⟨11, 88, 0, 0, 16⟩ -- R295
def MC_ECC_UNCORRECTED : Fld := ⟨11, 88, 0, 16, 16⟩ -- R295
def MC_ODECC_REPORTS : Fld := ⟨11, 92, 0, 0, 16⟩ -- R295
def MC_STALE_WRITES : Fld := ⟨11, 96, 0, 0, 32⟩ -- R295
def MC_RSV_ACCESS : Fld := ⟨11, 100, 0, 0, 32⟩ -- R295
def MC_JOB_GEN_GEN : Fld := ⟨11, 104, 0, 0, 8⟩ -- R295
def MC_BYTES : Fld := ⟨11, 128, 0, 0, 64⟩ -- R295
def MC_BYTES_LATCHED : Fld := ⟨11, 136, 0, 0, 64⟩ -- R294
def MC_PC_CE : Fld := ⟨11, 256, 4, 0, 16⟩ -- R295
def MC_PC_UE : Fld := ⟨11, 256, 4, 16, 16⟩ -- R295
def MC_FT_CTRL_LOAD : Fld := ⟨11, 64, 0, 0, 1⟩ -- R326
def MC_FT_CTRL_UPDATE : Fld := ⟨11, 64, 0, 1, 1⟩ -- R326
def MC_FT_STATUS_BUSY : Fld := ⟨11, 68, 0, 0, 1⟩ -- R326
def MC_FT_STATUS_LOAD_ERR : Fld := ⟨11, 68, 0, 1, 1⟩ -- R326
def MC_FT_STATUS_CMD_ERR : Fld := ⟨11, 68, 0, 2, 1⟩ -- R326
def MC_FT_STATUS_CAUSE : Fld := ⟨11, 68, 0, 3, 3⟩ -- R326
def MC_FT_BASE_BASE : Fld := ⟨11, 72, 0, 22, 18⟩ -- R326
def MC_FT_VPN_VPN : Fld := ⟨11, 80, 0, 0, 19⟩ -- R326
def MC_FT_ERR_VPN : Fld := ⟨11, 84, 0, 0, 19⟩ -- R326
def MC_RESTORE_VPN : Fld := ⟨11, 88, 0, 0, 19⟩ -- R326
def MC_RESTORE_GO : Fld := ⟨11, 88, 0, 19, 1⟩ -- R326
def MC_RESTORE_CFG_RESEND_MS : Fld := ⟨11, 92, 0, 0, 16⟩ -- R326
def MC_RESTORE_CFG_HOLD_MS : Fld := ⟨11, 92, 0, 16, 16⟩ -- R326
def MC_RESTORE_STATUS_FETCHING : Fld := ⟨11, 96, 0, 0, 9⟩ -- R326
def MC_RESTORE_STATUS_PENDING : Fld := ⟨11, 96, 0, 9, 18⟩ -- R326
def MC_TRICKLE_EN : Fld := ⟨11, 100, 0, 0, 1⟩ -- R326
def MC_TRICKLE_GBPS : Fld := ⟨11, 100, 0, 1, 6⟩ -- R326
def MC_TRICKLE_LEFT_GRANULES : Fld := ⟨11, 104, 0, 0, 23⟩ -- R326
def MC_MIRROR_PARTNER_NODE : Fld := ⟨11, 108, 0, 0, 16⟩ -- R326
def MC_MIRROR_CFG_EN : Fld := ⟨11, 112, 0, 0, 1⟩ -- R326
def MC_MIRROR_CFG_DEGRADED : Fld := ⟨11, 112, 0, 1, 1⟩ -- R326
def MC_MIRROR_CFG_RESYNC : Fld := ⟨11, 112, 0, 2, 1⟩ -- R326
def MC_MIRROR_CFG_RESYNCING : Fld := ⟨11, 112, 0, 3, 1⟩ -- R326
def MC_MIRROR_CFG_INFLIGHT : Fld := ⟨11, 112, 0, 4, 12⟩ -- R326
def MC_MIRROR_REGION_FIRST : Fld := ⟨11, 120, 0, 0, 19⟩ -- R326
def MC_MIRROR_REGION_COUNT : Fld := ⟨11, 120, 0, 32, 18⟩ -- R326
def MC_FRAME_SEL_PFN : Fld := ⟨11, 128, 0, 0, 18⟩ -- R326
def MC_FRAME_STATE_RSTATE : Fld := ⟨11, 136, 0, 0, 3⟩ -- R326
def MC_FRAME_STATE_CLASS : Fld := ⟨11, 136, 0, 3, 2⟩ -- R326
def MC_FRAME_STATE_VPN : Fld := ⟨11, 136, 0, 5, 19⟩ -- R326
def MC_FRAME_MASKS_D : Fld := ⟨11, 144, 0, 0, 32⟩ -- R326
def MC_FRAME_MASKS_S : Fld := ⟨11, 144, 0, 32, 32⟩ -- R326
def MC_TRICKLE_BYTES : Fld := ⟨11, 160, 0, 0, 64⟩ -- R325
def MC_TRICKLE_BYTES_LATCHED : Fld := ⟨11, 168, 0, 0, 64⟩ -- R325
def MC_MIRROR_BYTES : Fld := ⟨11, 176, 0, 0, 64⟩ -- R325
def MC_MIRROR_BYTES_LATCHED : Fld := ⟨11, 184, 0, 0, 64⟩ -- R325
def MC_TC_MISSES : Fld := ⟨11, 192, 0, 0, 64⟩ -- R325
def MC_TC_MISSES_LATCHED : Fld := ⟨11, 200, 0, 0, 64⟩ -- R325
def MC_RESTORES : Fld := ⟨11, 208, 0, 0, 64⟩ -- R325
def MC_RESTORES_LATCHED : Fld := ⟨11, 216, 0, 0, 64⟩ -- R325
def HC_CFG_KEEP_MAX : Fld := ⟨12, 64, 0, 0, 4⟩ -- R297
def HC_CFG_NOALLOC : Fld := ⟨12, 64, 0, 4, 1⟩ -- R297
def HC_STATUS_FLUSHING : Fld := ⟨12, 68, 0, 0, 1⟩ -- R297
def HC_STATUS_KEEP_LINES : Fld := ⟨12, 68, 0, 1, 17⟩ -- R297
def HC_FLUSH_WB : Fld := ⟨12, 72, 0, 0, 1⟩ -- R297
def HC_FLUSH_INV : Fld := ⟨12, 72, 0, 1, 1⟩ -- R297
def HC_ECC_CORRECTED : Fld := ⟨12, 76, 0, 0, 16⟩ -- R297
def HC_ECC_UNCORRECTED : Fld := ⟨12, 76, 0, 16, 16⟩ -- R297
def HC_ATOMIC_POISON : Fld := ⟨12, 80, 0, 0, 32⟩ -- R297
def HC_HITS : Fld := ⟨12, 96, 0, 0, 64⟩ -- R297
def HC_HITS_LATCHED : Fld := ⟨12, 104, 0, 0, 64⟩ -- R294
def HC_MISSES : Fld := ⟨12, 112, 0, 0, 64⟩ -- R297
def HC_MISSES_LATCHED : Fld := ⟨12, 120, 0, 0, 64⟩ -- R294
def HC_WRITEBACKS : Fld := ⟨12, 128, 0, 0, 64⟩ -- R297
def HC_WRITEBACKS_LATCHED : Fld := ⟨12, 136, 0, 0, 64⟩ -- R294
def HC_NARROW : Fld := ⟨12, 144, 0, 0, 64⟩ -- R297
def HC_NARROW_LATCHED : Fld := ⟨12, 152, 0, 0, 64⟩ -- R294
def HC_ATOMICS : Fld := ⟨12, 160, 0, 0, 64⟩ -- R297
def HC_ATOMICS_LATCHED : Fld := ⟨12, 168, 0, 0, 64⟩ -- R294
def CK_CFG_SOURCE : Fld := ⟨13, 64, 0, 0, 1⟩ -- R429
def CK_CFG_PPS_EN : Fld := ⟨13, 64, 0, 1, 1⟩ -- R429
def CK_CFG_PARENT : Fld := ⟨13, 64, 0, 2, 3⟩ -- R429
def CK_STATUS_STATE : Fld := ⟨13, 68, 0, 0, 2⟩ -- R429
def CK_STATUS_PPS_LOST : Fld := ⟨13, 68, 0, 2, 1⟩ -- R429
def CK_STATUS_STEPPED : Fld := ⟨13, 68, 0, 3, 1⟩ -- R429
def CK_GSC : Fld := ⟨13, 72, 0, 0, 64⟩ -- R429
def CK_OFFSET_OFFSET : Fld := ⟨13, 80, 0, 0, 32⟩ -- R429
def EB_STATUS_STATE : Fld := ⟨14, 64, 0, 0, 2⟩ -- R589
def EB_STATUS_LOCKED : Fld := ⟨14, 64, 0, 2, 4⟩ -- R589
def EB_CFG_EN : Fld := ⟨14, 68, 0, 0, 1⟩ -- R589
def EB_CFG_RESET : Fld := ⟨14, 68, 0, 1, 1⟩ -- R589
def EB_CFG_HOLD_MS : Fld := ⟨14, 68, 0, 2, 10⟩ -- R589
def EB_CFG_LOST_S : Fld := ⟨14, 68, 0, 12, 8⟩ -- R589
def EB_ERR_CRC_ERRORS : Fld := ⟨14, 72, 0, 0, 16⟩ -- R589
def EB_ERR_BAD_REQ : Fld := ⟨14, 72, 0, 16, 16⟩ -- R589
def EB_EVQ_QUEUED : Fld := ⟨14, 76, 0, 0, 13⟩ -- R589
def EB_EV_LOST : Fld := ⟨14, 80, 0, 0, 32⟩ -- R589
def EB_TX_BYTES : Fld := ⟨14, 96, 0, 0, 64⟩ -- R589
def EB_TX_BYTES_LATCHED : Fld := ⟨14, 104, 0, 0, 64⟩ -- R588
def EB_RX_BYTES : Fld := ⟨14, 112, 0, 0, 64⟩ -- R589
def EB_RX_BYTES_LATCHED : Fld := ⟨14, 120, 0, 0, 64⟩ -- R588
def EB_REPLAYS : Fld := ⟨14, 128, 0, 0, 64⟩ -- R589
def EB_REPLAYS_LATCHED : Fld := ⟨14, 136, 0, 0, 64⟩ -- R588
def EB_OPT_RX_PWR : Fld := ⟨14, 256, 4, 0, 16⟩ -- R589
def EB_OPT_TX_BIAS : Fld := ⟨14, 256, 4, 16, 8⟩ -- R589
def PW_PERIOD_CFG_MODE : Fld := ⟨15, 64, 0, 0, 2⟩ -- R572
def PW_PERIOD_CFG_PERIOD_MS : Fld := ⟨15, 64, 0, 2, 16⟩ -- R572
def PW_PACE_MIN : Fld := ⟨15, 68, 0, 0, 4⟩ -- R572
def PW_PACE_LEVEL : Fld := ⟨15, 68, 0, 4, 4⟩ -- R572
def PW_PACE_THERMAL : Fld := ⟨15, 68, 0, 8, 4⟩ -- R572
def PW_PACE_CAP : Fld := ⟨15, 68, 0, 12, 4⟩ -- R572
def PW_CAP_WATTS : Fld := ⟨15, 72, 0, 0, 12⟩ -- R572
def PW_THERM_THROTTLE_C : Fld := ⟨15, 76, 0, 0, 7⟩ -- R572
def PW_THERM_ALERT_C : Fld := ⟨15, 76, 0, 8, 7⟩ -- R572
def PW_THERM_ALERT : Fld := ⟨15, 76, 0, 15, 1⟩ -- R572
def PW_THERM_CRIT : Fld := ⟨15, 76, 0, 16, 1⟩ -- R572
def PW_ENERGY : Fld := ⟨15, 88, 0, 0, 64⟩ -- R572
def PW_ENERGY_LATCHED : Fld := ⟨15, 96, 0, 0, 64⟩ -- R571
def PW_PACED : Fld := ⟨15, 104, 0, 0, 64⟩ -- R572
def PW_PACED_LATCHED : Fld := ⟨15, 112, 0, 0, 64⟩ -- R571
def PW_RAIL_CW : Fld := ⟨15, 256, 4, 0, 18⟩ -- R572
def PW_TEMP_T : Fld := ⟨15, 320, 4, 0, 12⟩ -- R572
def AG_CFG_WARN_MONTHS : Fld := ⟨16, 64, 0, 0, 8⟩ -- R572
def AG_EOL_EOL_LO : Fld := ⟨16, 256, 4, 0, 16⟩ -- R572
def AG_EOL_EOL_HI : Fld := ⟨16, 256, 4, 16, 16⟩ -- R572
def AG_TILE_EOL : Fld := ⟨16, 512, 4, 0, 16⟩ -- R572
def AG_TILE_MARGIN : Fld := ⟨16, 512, 4, 16, 8⟩ -- R572
def AG_ICT_USED : Fld := ⟨16, 832, 8, 0, 48⟩ -- R572
def AG_ICT_PERMIL : Fld := ⟨16, 832, 8, 48, 10⟩ -- R572

/-- The program control registers of an engine page (R235, R236, R560). -/
def regsEngine : List RegSpec := [
  ⟨256, 0, 1, 0, 71, 1, [⟨0, 4, .wo, 0⟩, ⟨4, 1, .rw, 0⟩]⟩,
  ⟨260, 0, 1, 0, 71, 1, [⟨0, 3, .ro, 0⟩, ⟨3, 1, .w1c, 0⟩, ⟨4, 1, .w1c, 0⟩, ⟨5, 1, .w1c, 0⟩, ⟨6, 1, .w1c, 0⟩, ⟨16, 12, .ro, 0⟩]⟩,
  ⟨264, 0, 1, 0, 71, 1, [⟨0, 12, .rw, 0⟩]⟩,
  ⟨268, 0, 1, 0, 71, 1, [⟨0, 32, .rw, 1000000⟩]⟩,
  ⟨272, 0, 1, 0, 71, 2, [⟨0, 64, .rw, 0⟩]⟩,
  ⟨280, 0, 1, 0, 71, 1, [⟨0, 32, .ro, 0⟩]⟩,
  ⟨512, 8, 32, 0, 71, 2, [⟨0, 64, .rw, 0⟩]⟩,
  ⟨288, 0, 1, 0, 71, 2, [⟨0, 64, .ro, 0⟩]⟩,
  ⟨296, 0, 1, 0, 71, 2, [⟨0, 64, .ro, 0⟩]⟩,
  ⟨384, 16, 8, 0, 71, 2, [⟨0, 64, .ro, 0⟩]⟩,
  ⟨392, 16, 8, 0, 71, 2, [⟨0, 64, .ro, 0⟩]⟩]

/-- The common page header (R600, R601). -/
def regsHeader : List RegSpec := [
  ⟨0, 0, 1, 0, 0, 1, [⟨0, 16, .ro, 0⟩, ⟨16, 8, .ro, 0⟩]⟩,
  ⟨4, 0, 1, 0, 0, 1, [⟨0, 32, .ro, 0⟩]⟩,
  ⟨8, 0, 1, 0, 0, 2, [⟨0, 8, .ro, 0⟩, ⟨8, 1, .ro, 0⟩, ⟨9, 1, .ro, 0⟩, ⟨10, 1, .ro, 0⟩, ⟨11, 1, .ro, 0⟩]⟩,
  ⟨16, 0, 1, 0, 0, 1, [⟨0, 1, .rw, 1⟩, ⟨1, 1, .rw, 0⟩, ⟨2, 1, .wo, 0⟩]⟩,
  ⟨20, 0, 1, 0, 0, 1, [⟨0, 1, .ro, 0⟩, ⟨1, 1, .ro, 0⟩, ⟨2, 1, .ro, 0⟩, ⟨3, 1, .ro, 0⟩]⟩,
  ⟨24, 0, 1, 0, 0, 1, [⟨0, 8, .ro, 0⟩, ⟨8, 7, .ro, 0⟩, ⟨16, 8, .ro, 0⟩]⟩,
  ⟨32, 0, 1, 0, 0, 1, [⟨0, 1, .w1c, 0⟩, ⟨1, 1, .w1c, 0⟩, ⟨16, 16, .w1c, 0⟩]⟩,
  ⟨36, 0, 1, 0, 0, 1, [⟨0, 32, .rw, 0⟩]⟩,
  ⟨40, 0, 1, 0, 0, 1, [⟨0, 32, .wo, 0⟩]⟩,
  ⟨48, 0, 1, 0, 0, 2, [⟨0, 16, .ro, 0⟩, ⟨16, 8, .ro, 0⟩, ⟨24, 1, .w1c, 0⟩, ⟨32, 32, .ro, 0⟩]⟩,
  ⟨56, 0, 1, 0, 0, 1, [⟨0, 32, .ro, 0⟩]⟩,
  ⟨60, 0, 1, 0, 0, 1, [⟨0, 32, .ro, 0⟩]⟩]

/-- Registers of the MG_ pages. -/
def regsMG : List RegSpec := [
  ⟨256, 0, 1, 0, 0, 1, [⟨0, 4, .wo, 0⟩, ⟨4, 8, .wo, 0⟩, ⟨12, 1, .wo, 0⟩, ⟨13, 1, .wo, 0⟩]⟩,
  ⟨260, 0, 1, 0, 0, 1, [⟨0, 3, .ro, 0⟩, ⟨3, 1, .w1c, 0⟩, ⟨4, 1, .ro, 0⟩, ⟨5, 1, .ro, 0⟩, ⟨6, 1, .ro, 0⟩, ⟨7, 1, .w1c, 0⟩, ⟨8, 8, .ro, 0⟩, ⟨16, 3, .ro, 0⟩, ⟨19, 1, .ro, 0⟩]⟩,
  ⟨264, 0, 1, 0, 0, 1, [⟨0, 8, .rw, 60⟩, ⟨8, 4, .rw, 2⟩, ⟨12, 1, .rw, 0⟩]⟩,
  ⟨268, 0, 1, 0, 0, 1, [⟨0, 18, .ro, 0⟩]⟩,
  ⟨272, 0, 1, 0, 0, 2, [⟨0, 64, .ro, 0⟩]⟩,
  ⟨280, 0, 1, 0, 0, 2, [⟨0, 64, .ro, 0⟩]⟩,
  ⟨288, 0, 1, 0, 0, 2, [⟨0, 64, .ro, 0⟩]⟩,
  ⟨512, 0, 1, 0, 0, 1, [⟨0, 17, .rw, 256⟩, ⟨17, 4, .rw, 3⟩, ⟨21, 11, .rw, 30⟩]⟩,
  ⟨516, 0, 1, 0, 0, 1, [⟨0, 17, .rw, 0⟩]⟩,
  ⟨520, 0, 1, 0, 0, 1, [⟨0, 6, .wo, 0⟩, ⟨6, 1, .wo, 0⟩, ⟨7, 2, .wo, 0⟩]⟩,
  ⟨524, 0, 1, 0, 0, 1, [⟨0, 1, .ro, 0⟩, ⟨1, 2, .ro, 0⟩, ⟨3, 1, .ro, 0⟩, ⟨4, 1, .w1c, 0⟩, ⟨8, 8, .ro, 0⟩]⟩,
  ⟨528, 0, 1, 0, 0, 1, [⟨0, 1, .rw, 0⟩, ⟨1, 16, .rw, 100⟩, ⟨17, 2, .rw, 0⟩, ⟨19, 8, .rw, 0⟩]⟩,
  ⟨532, 0, 1, 0, 0, 1, [⟨0, 2, .ro, 0⟩, ⟨2, 1, .w1c, 0⟩, ⟨3, 1, .w1c, 0⟩, ⟨4, 1, .w1c, 0⟩]⟩,
  ⟨536, 0, 1, 0, 0, 1, [⟨0, 32, .ro, 0⟩]⟩,
  ⟨540, 0, 1, 0, 0, 1, [⟨0, 32, .rc, 0⟩]⟩,
  ⟨544, 0, 1, 0, 0, 2, [⟨0, 64, .ro, 0⟩]⟩,
  ⟨552, 0, 1, 0, 0, 2, [⟨0, 64, .ro, 0⟩]⟩,
  ⟨1024, 8, 64, 0, 0, 2, [⟨0, 64, .ro, 0⟩]⟩,
  ⟨1536, 4, 64, 0, 0, 1, [⟨0, 7, .ro, 0⟩, ⟨7, 1, .ro, 0⟩]⟩,
  ⟨1792, 4, 72, 0, 0, 1, [⟨0, 3, .ro, 0⟩, ⟨3, 6, .ro, 0⟩]⟩,
  ⟨2112, 0, 1, 0, 0, 1, [⟨0, 6, .wo, 0⟩, ⟨6, 7, .wo, 127⟩, ⟨13, 2, .wo, 0⟩, ⟨15, 1, .wo, 0⟩]⟩,
  ⟨2116, 0, 1, 0, 0, 1, [⟨0, 1, .ro, 0⟩, ⟨1, 1, .w1c, 0⟩, ⟨2, 5, .ro, 0⟩, ⟨7, 1, .ro, 0⟩]⟩,
  ⟨2120, 0, 1, 0, 0, 1, [⟨0, 1, .rw, 1⟩, ⟨1, 16, .rw, 3600⟩]⟩,
  ⟨2124, 0, 1, 0, 0, 1, [⟨0, 2, .wo, 0⟩]⟩,
  ⟨2128, 0, 1, 0, 0, 1, [⟨0, 3, .ro, 0⟩, ⟨3, 7, .ro, 0⟩]⟩,
  ⟨2132, 0, 1, 0, 0, 1, [⟨0, 32, .ro, 0⟩]⟩,
  ⟨2136, 0, 1, 0, 0, 1, [⟨0, 16, .wo, 0⟩, ⟨16, 1, .wo, 0⟩, ⟨17, 1, .ro, 0⟩, ⟨18, 1, .w1c, 0⟩]⟩,
  ⟨2140, 0, 1, 0, 0, 1, [⟨0, 32, .ro, 0⟩]⟩,
  ⟨2144, 0, 1, 0, 0, 1, [⟨0, 1, .w1c, 0⟩, ⟨1, 1, .ro, 0⟩, ⟨16, 16, .ro, 0⟩]⟩,
  ⟨2176, 8, 4, 0, 0, 2, [⟨0, 64, .ro, 0⟩]⟩,
  ⟨2304, 0, 1, 0, 0, 1, [⟨0, 7, .wo, 0⟩, ⟨7, 1, .wo, 1⟩, ⟨8, 1, .wo, 0⟩]⟩,
  ⟨2308, 0, 1, 0, 0, 1, [⟨0, 1, .ro, 0⟩, ⟨1, 1, .w1c, 0⟩, ⟨2, 3, .ro, 0⟩, ⟨8, 7, .ro, 0⟩]⟩,
  ⟨2312, 0, 1, 0, 0, 1, [⟨0, 1, .wo, 0⟩, ⟨1, 1, .w1c, 0⟩, ⟨8, 8, .ro, 0⟩]⟩,
  ⟨2320, 0, 1, 0, 0, 1, [⟨0, 16, .wo, 0⟩, ⟨16, 8, .wo, 0⟩, ⟨24, 2, .wo, 0⟩, ⟨26, 1, .wo, 0⟩]⟩,
  ⟨2324, 0, 1, 0, 0, 1, [⟨0, 3, .ro, 0⟩, ⟨3, 1, .w1c, 0⟩]⟩,
  ⟨2560, 4, 104, 0, 0, 1, [⟨0, 32, .rc, 0⟩]⟩,
  ⟨3072, 0, 1, 0, 0, 1, [⟨0, 3, .ro, 0⟩, ⟨3, 1, .ro, 0⟩, ⟨4, 1, .ro, 0⟩, ⟨5, 1, .ro, 0⟩]⟩,
  ⟨3076, 0, 1, 0, 0, 1, [⟨0, 16, .wo, 0⟩, ⟨16, 2, .wo, 0⟩, ⟨18, 1, .w1c, 0⟩]⟩,
  ⟨3080, 0, 1, 0, 0, 1, [⟨0, 1, .wo, 0⟩, ⟨1, 1, .ro, 0⟩, ⟨2, 1, .w1c, 0⟩]⟩,
  ⟨3084, 0, 1, 0, 0, 1, [⟨0, 10, .rw, 0⟩, ⟨10, 11, .ro, 0⟩]⟩,
  ⟨3088, 0, 1, 0, 0, 2, [⟨0, 64, .ro, 0⟩]⟩,
  ⟨3104, 4, 8, 0, 0, 1, [⟨0, 32, .rw, 0⟩]⟩,
  ⟨3136, 4, 12, 0, 0, 1, [⟨0, 32, .ro, 0⟩]⟩,
  ⟨3328, 4, 64, 0, 0, 1, [⟨0, 32, .ro, 0⟩]⟩,
  ⟨3600, 4, 64, 0, 0, 1, [⟨0, 32, .ro, 0⟩]⟩]

/-- Registers of the TL_ pages. -/
def regsTL : List RegSpec := [
  ⟨64, 0, 1, 0, 71, 1, [⟨0, 16, .rc, 0⟩, ⟨16, 16, .rc, 0⟩]⟩,
  ⟨68, 0, 1, 0, 71, 1, [⟨0, 1, .rw, 1⟩]⟩,
  ⟨80, 0, 1, 0, 71, 2, [⟨0, 64, .ro, 0⟩]⟩,
  ⟨88, 0, 1, 0, 71, 2, [⟨0, 64, .ro, 0⟩]⟩,
  ⟨192, 0, 1, 0, 71, 2, [⟨0, 22, .rw, 0⟩, ⟨32, 23, .rw, 0⟩]⟩,
  ⟨200, 0, 1, 0, 71, 2, [⟨0, 22, .rw, 0⟩, ⟨32, 23, .rw, 0⟩]⟩,
  ⟨208, 0, 1, 0, 71, 1, [⟨0, 1, .ro, 0⟩, ⟨1, 1, .w1c, 0⟩, ⟨2, 1, .w1c, 0⟩]⟩,
  ⟨256, 128, 2, 0, 71, 1, [⟨0, 3, .wo, 0⟩]⟩,
  ⟨260, 128, 2, 0, 71, 1, [⟨0, 6, .rw, 63⟩, ⟨6, 1, .rw, 0⟩, ⟨7, 1, .rw, 0⟩, ⟨8, 2, .rw, 0⟩, ⟨10, 1, .rw, 0⟩, ⟨11, 1, .rw, 0⟩, ⟨12, 1, .rw, 0⟩, ⟨13, 8, .rw, 0⟩, ⟨21, 1, .rw, 0⟩, ⟨22, 8, .rw, 0⟩]⟩,
  ⟨264, 128, 2, 0, 71, 1, [⟨0, 2, .ro, 0⟩, ⟨2, 1, .w1c, 0⟩, ⟨3, 1, .w1c, 0⟩, ⟨4, 1, .w1c, 0⟩, ⟨5, 1, .w1c, 0⟩, ⟨6, 1, .w1c, 0⟩]⟩,
  ⟨268, 128, 2, 0, 71, 1, [⟨0, 8, .rw, 0⟩, ⟨16, 16, .rw, 0⟩]⟩,
  ⟨272, 128, 2, 0, 71, 2, [⟨0, 64, .rw, 4823603603198064275⟩]⟩,
  ⟨280, 128, 2, 0, 71, 2, [⟨0, 64, .rw, 0⟩]⟩,
  ⟨288, 128, 2, 0, 71, 2, [⟨0, 64, .rw, 0⟩]⟩,
  ⟨296, 128, 2, 0, 71, 2, [⟨0, 64, .ro, 0⟩]⟩,
  ⟨304, 128, 2, 0, 71, 2, [⟨0, 64, .ro, 0⟩]⟩,
  ⟨312, 128, 2, 0, 71, 2, [⟨0, 22, .rw, 0⟩, ⟨32, 23, .rw, 0⟩]⟩,
  ⟨320, 128, 2, 0, 71, 2, [⟨0, 64, .rw, 0⟩]⟩,
  ⟨128, 0, 1, 0, 71, 1, [⟨0, 1, .rw, 0⟩]⟩,
  ⟨132, 0, 1, 0, 71, 1, [⟨0, 10, .ro, 0⟩, ⟨10, 1, .ro, 0⟩]⟩,
  ⟨136, 0, 1, 0, 71, 1, [⟨0, 10, .rw, 0⟩]⟩,
  ⟨140, 0, 1, 0, 71, 1, [⟨0, 32, .rc, 0⟩]⟩,
  ⟨144, 4, 4, 0, 71, 1, [⟨0, 32, .ro, 0⟩]⟩]

/-- Registers of the MX_ pages. -/
def regsMX : List RegSpec := [
  ⟨64, 0, 1, 0, 71, 1, [⟨0, 4, .ro, 0⟩, ⟨4, 4, .ro, 0⟩, ⟨8, 4, .ro, 0⟩, ⟨12, 4, .ro, 0⟩, ⟨16, 4, .ro, 0⟩, ⟨20, 4, .ro, 0⟩]⟩,
  ⟨68, 0, 1, 0, 71, 1, [⟨0, 1, .w1c, 0⟩, ⟨1, 1, .w1c, 0⟩, ⟨2, 1, .w1c, 0⟩, ⟨3, 1, .w1c, 0⟩]⟩,
  ⟨72, 0, 1, 0, 71, 1, [⟨0, 8, .ro, 0⟩, ⟨8, 11, .ro, 0⟩]⟩,
  ⟨76, 0, 1, 0, 71, 1, [⟨0, 16, .ro, 0⟩, ⟨16, 16, .ro, 0⟩]⟩,
  ⟨80, 0, 1, 0, 71, 2, [⟨0, 64, .ro, 0⟩]⟩,
  ⟨88, 0, 1, 0, 71, 2, [⟨0, 64, .ro, 0⟩]⟩,
  ⟨96, 0, 1, 0, 71, 2, [⟨0, 64, .ro, 0⟩]⟩,
  ⟨104, 0, 1, 0, 71, 2, [⟨0, 64, .ro, 0⟩]⟩,
  ⟨112, 0, 1, 0, 71, 2, [⟨0, 64, .ro, 0⟩]⟩,
  ⟨120, 0, 1, 0, 71, 2, [⟨0, 64, .ro, 0⟩]⟩]

/-- Registers of the VX_ pages. -/
def regsVX : List RegSpec := [
  ⟨64, 0, 1, 0, 71, 1, [⟨0, 1, .ro, 0⟩, ⟨1, 1, .ro, 0⟩, ⟨2, 1, .ro, 0⟩]⟩,
  ⟨68, 0, 1, 0, 71, 1, [⟨0, 1, .w1c, 0⟩, ⟨1, 1, .w1c, 0⟩, ⟨2, 1, .w1c, 0⟩, ⟨3, 1, .w1c, 0⟩]⟩,
  ⟨72, 0, 1, 0, 71, 1, [⟨0, 16, .ro, 0⟩, ⟨16, 16, .ro, 0⟩]⟩,
  ⟨76, 0, 1, 0, 71, 1, [⟨0, 16, .ro, 0⟩]⟩,
  ⟨80, 0, 1, 0, 71, 2, [⟨0, 64, .rw, 0⟩]⟩,
  ⟨96, 0, 1, 0, 71, 2, [⟨0, 64, .ro, 0⟩]⟩,
  ⟨104, 0, 1, 0, 71, 2, [⟨0, 64, .ro, 0⟩]⟩,
  ⟨112, 0, 1, 0, 71, 2, [⟨0, 64, .ro, 0⟩]⟩,
  ⟨120, 0, 1, 0, 71, 2, [⟨0, 64, .ro, 0⟩]⟩,
  ⟨128, 0, 1, 0, 71, 2, [⟨0, 64, .ro, 0⟩]⟩,
  ⟨136, 0, 1, 0, 71, 2, [⟨0, 64, .ro, 0⟩]⟩]

/-- Registers of the DM_ pages. -/
def regsDM : List RegSpec := [
  ⟨64, 0, 1, 0, 71, 1, [⟨0, 4, .rw, 4⟩]⟩,
  ⟨68, 0, 1, 0, 71, 1, [⟨0, 4, .ro, 0⟩, ⟨4, 4, .ro, 0⟩, ⟨8, 12, .ro, 0⟩]⟩,
  ⟨72, 0, 1, 0, 71, 1, [⟨0, 16, .ro, 0⟩, ⟨16, 16, .ro, 0⟩]⟩,
  ⟨80, 0, 1, 0, 71, 2, [⟨0, 17, .ro, 0⟩, ⟨32, 16, .ro, 0⟩, ⟨48, 16, .ro, 0⟩]⟩,
  ⟨96, 0, 1, 0, 71, 2, [⟨0, 64, .ro, 0⟩]⟩,
  ⟨104, 0, 1, 0, 71, 2, [⟨0, 64, .ro, 0⟩]⟩,
  ⟨112, 0, 1, 0, 71, 2, [⟨0, 64, .ro, 0⟩]⟩,
  ⟨120, 0, 1, 0, 71, 2, [⟨0, 64, .ro, 0⟩]⟩,
  ⟨128, 0, 1, 0, 71, 2, [⟨0, 64, .ro, 0⟩]⟩,
  ⟨136, 0, 1, 0, 71, 2, [⟨0, 64, .ro, 0⟩]⟩,
  ⟨144, 0, 1, 0, 71, 2, [⟨0, 64, .ro, 0⟩]⟩,
  ⟨152, 0, 1, 0, 71, 2, [⟨0, 64, .ro, 0⟩]⟩]

/-- Registers of the SY_ pages. -/
def regsSY : List RegSpec := [
  ⟨64, 0, 1, 0, 71, 1, [⟨0, 4, .ro, 0⟩, ⟨4, 1, .w1c, 0⟩, ⟨5, 5, .ro, 0⟩]⟩,
  ⟨68, 0, 1, 0, 71, 1, [⟨0, 16, .ro, 0⟩, ⟨16, 16, .ro, 0⟩]⟩,
  ⟨80, 0, 1, 0, 71, 2, [⟨0, 64, .ro, 0⟩]⟩,
  ⟨88, 0, 1, 0, 71, 2, [⟨0, 64, .ro, 0⟩]⟩,
  ⟨1024, 4, 256, 0, 71, 1, [⟨0, 24, .rw, 0⟩]⟩]

/-- Registers of the BA_ pages. -/
def regsBA : List RegSpec := [
  ⟨64, 0, 1, 0, 0, 1, [⟨0, 1, .w1c, 0⟩, ⟨1, 1, .ro, 0⟩]⟩,
  ⟨68, 0, 1, 0, 0, 1, [⟨0, 16, .ro, 0⟩, ⟨16, 16, .ro, 0⟩]⟩,
  ⟨72, 0, 1, 0, 0, 1, [⟨0, 32, .ro, 0⟩]⟩,
  ⟨64, 0, 1, 1, 64, 1, [⟨0, 2, .rw, 0⟩, ⟨2, 6, .rw, 0⟩, ⟨8, 2, .rw, 0⟩]⟩,
  ⟨68, 0, 1, 1, 64, 1, [⟨0, 1, .ro, 0⟩, ⟨1, 9, .ro, 0⟩, ⟨10, 9, .ro, 0⟩, ⟨19, 1, .ro, 0⟩, ⟨20, 1, .ro, 0⟩, ⟨21, 2, .ro, 0⟩]⟩,
  ⟨80, 4, 9, 1, 64, 1, [⟨0, 32, .rw, 0⟩]⟩]

/-- Registers of the CE_ pages. -/
def regsCE : List RegSpec := [
  ⟨64, 0, 1, 0, 3, 1, [⟨0, 6, .rw, 0⟩]⟩,
  ⟨68, 0, 1, 0, 3, 1, [⟨0, 6, .rw, 0⟩, ⟨6, 6, .rw, 0⟩, ⟨12, 1, .rw, 0⟩]⟩,
  ⟨72, 0, 1, 0, 3, 1, [⟨0, 1, .ro, 0⟩, ⟨1, 12, .ro, 0⟩, ⟨13, 12, .ro, 0⟩]⟩,
  ⟨76, 0, 1, 0, 3, 1, [⟨0, 1, .w1c, 0⟩, ⟨1, 1, .w1c, 0⟩, ⟨2, 1, .w1c, 0⟩, ⟨3, 1, .w1c, 0⟩]⟩,
  ⟨80, 0, 1, 0, 3, 1, [⟨0, 16, .ro, 0⟩, ⟨16, 16, .ro, 0⟩]⟩,
  ⟨84, 0, 1, 0, 3, 1, [⟨0, 13, .ro, 0⟩, ⟨13, 13, .ro, 0⟩]⟩,
  ⟨96, 0, 1, 0, 3, 2, [⟨0, 64, .ro, 0⟩]⟩,
  ⟨104, 0, 1, 0, 3, 2, [⟨0, 64, .ro, 0⟩]⟩,
  ⟨112, 0, 1, 0, 3, 2, [⟨0, 64, .ro, 0⟩]⟩,
  ⟨120, 0, 1, 0, 3, 2, [⟨0, 64, .ro, 0⟩]⟩,
  ⟨128, 0, 1, 0, 3, 2, [⟨0, 64, .ro, 0⟩]⟩,
  ⟨136, 0, 1, 0, 3, 2, [⟨0, 64, .ro, 0⟩]⟩,
  ⟨144, 0, 1, 0, 3, 2, [⟨0, 64, .ro, 0⟩]⟩,
  ⟨152, 0, 1, 0, 3, 2, [⟨0, 64, .ro, 0⟩]⟩,
  ⟨160, 0, 1, 0, 3, 2, [⟨0, 64, .ro, 0⟩]⟩,
  ⟨168, 0, 1, 0, 3, 2, [⟨0, 64, .ro, 0⟩]⟩,
  ⟨176, 0, 1, 0, 3, 2, [⟨0, 64, .ro, 0⟩]⟩,
  ⟨184, 0, 1, 0, 3, 2, [⟨0, 64, .ro, 0⟩]⟩,
  ⟨768, 4, 64, 0, 3, 1, [⟨0, 16, .rw, 0⟩]⟩]

/-- Registers of the RT_ pages. -/
def regsRT : List RegSpec := [
  ⟨64, 0, 1, 0, 0, 1, [⟨0, 8, .rw, 5⟩]⟩,
  ⟨68, 0, 1, 0, 0, 1, [⟨0, 1, .w1c, 0⟩, ⟨1, 1, .ro, 0⟩]⟩,
  ⟨72, 0, 1, 0, 0, 1, [⟨0, 16, .rw, 0⟩]⟩,
  ⟨76, 0, 1, 0, 0, 1, [⟨0, 8, .ro, 0⟩]⟩,
  ⟨80, 0, 1, 0, 0, 1, [⟨0, 1, .ro, 0⟩, ⟨1, 1, .ro, 0⟩, ⟨2, 1, .wo, 0⟩]⟩,
  ⟨84, 0, 1, 0, 0, 1, [⟨0, 16, .ro, 0⟩, ⟨16, 1, .rc, 0⟩]⟩,
  ⟨88, 0, 1, 0, 0, 2, [⟨0, 64, .rw, 0⟩]⟩,
  ⟨96, 4, 2, 0, 0, 1, [⟨0, 8, .rw, 0⟩, ⟨8, 8, .rw, 0⟩]⟩,
  ⟨112, 0, 1, 0, 0, 1, [⟨0, 32, .rc, 0⟩]⟩,
  ⟨116, 0, 1, 0, 0, 1, [⟨0, 32, .rc, 0⟩]⟩,
  ⟨120, 0, 1, 0, 0, 1, [⟨0, 32, .rc, 0⟩]⟩,
  ⟨124, 0, 1, 0, 0, 1, [⟨0, 32, .rc, 0⟩]⟩,
  ⟨128, 0, 1, 0, 0, 1, [⟨0, 32, .rc, 0⟩]⟩,
  ⟨132, 0, 1, 0, 0, 1, [⟨0, 32, .rc, 0⟩]⟩,
  ⟨136, 0, 1, 0, 0, 1, [⟨0, 32, .rc, 0⟩]⟩,
  ⟨64, 0, 1, 1, 26, 2, [⟨0, 64, .ro, 0⟩]⟩,
  ⟨72, 0, 1, 1, 26, 2, [⟨0, 64, .ro, 0⟩]⟩,
  ⟨80, 0, 1, 1, 26, 2, [⟨0, 64, .ro, 0⟩]⟩,
  ⟨88, 0, 1, 1, 26, 2, [⟨0, 64, .ro, 0⟩]⟩,
  ⟨96, 0, 1, 1, 26, 2, [⟨0, 64, .ro, 0⟩]⟩,
  ⟨104, 0, 1, 1, 26, 2, [⟨0, 64, .ro, 0⟩]⟩,
  ⟨128, 4, 8, 1, 26, 1, [⟨0, 32, .ro, 0⟩]⟩,
  ⟨160, 4, 8, 1, 26, 1, [⟨0, 32, .ro, 0⟩]⟩]

/-- Registers of the FL_ pages. -/
def regsFL : List RegSpec := [
  ⟨64, 0, 1, 0, 17, 1, [⟨0, 3, .ro, 0⟩, ⟨3, 1, .ro, 0⟩, ⟨4, 4, .ro, 0⟩]⟩,
  ⟨68, 0, 1, 0, 17, 1, [⟨0, 2, .ro, 0⟩, ⟨2, 1, .ro, 0⟩, ⟨3, 3, .ro, 0⟩, ⟨6, 1, .rw, 1⟩, ⟨7, 1, .wo, 0⟩, ⟨8, 1, .wo, 0⟩, ⟨9, 2, .ro, 0⟩]⟩,
  ⟨72, 0, 1, 0, 17, 1, [⟨0, 4, .ro, 0⟩, ⟨4, 4, .ro, 1⟩, ⟨8, 4, .ro, 2⟩, ⟨12, 4, .ro, 3⟩, ⟨16, 4, .ro, 4⟩, ⟨20, 4, .ro, 5⟩, ⟨24, 4, .ro, 6⟩, ⟨28, 4, .ro, 7⟩]⟩,
  ⟨76, 0, 1, 0, 17, 1, [⟨0, 4, .ro, 8⟩, ⟨4, 9, .ro, 0⟩, ⟨13, 4, .ro, 15⟩]⟩,
  ⟨80, 0, 1, 0, 17, 1, [⟨0, 1, .rw, 1⟩, ⟨1, 15, .rw, 60⟩]⟩,
  ⟨84, 0, 1, 0, 17, 1, [⟨0, 5, .rw, 18⟩]⟩,
  ⟨88, 0, 1, 0, 17, 1, [⟨0, 4, .rw, 8⟩, ⟨8, 8, .rw, 4⟩]⟩,
  ⟨92, 0, 1, 0, 17, 1, [⟨0, 16, .ro, 65535⟩, ⟨16, 5, .ro, 31⟩, ⟨21, 3, .ro, 0⟩]⟩,
  ⟨96, 0, 1, 0, 17, 2, [⟨0, 64, .ro, 0⟩]⟩,
  ⟨104, 0, 1, 0, 17, 1, [⟨0, 16, .rc, 0⟩, ⟨16, 16, .rc, 0⟩]⟩,
  ⟨108, 0, 1, 0, 17, 1, [⟨0, 32, .rc, 0⟩]⟩,
  ⟨128, 0, 1, 0, 17, 2, [⟨0, 64, .ro, 0⟩]⟩,
  ⟨136, 0, 1, 0, 17, 2, [⟨0, 64, .ro, 0⟩]⟩,
  ⟨144, 0, 1, 0, 17, 2, [⟨0, 64, .ro, 0⟩]⟩,
  ⟨152, 0, 1, 0, 17, 2, [⟨0, 64, .ro, 0⟩]⟩,
  ⟨160, 0, 1, 0, 17, 2, [⟨0, 64, .ro, 0⟩]⟩,
  ⟨168, 0, 1, 0, 17, 2, [⟨0, 64, .ro, 0⟩]⟩,
  ⟨176, 0, 1, 0, 17, 2, [⟨0, 64, .ro, 0⟩]⟩,
  ⟨184, 0, 1, 0, 17, 2, [⟨0, 64, .ro, 0⟩]⟩,
  ⟨256, 4, 9, 0, 17, 1, [⟨0, 8, .ro, 0⟩, ⟨8, 8, .ro, 0⟩, ⟨16, 3, .ro, 0⟩]⟩]

/-- Registers of the MC_ pages. -/
def regsMC : List RegSpec := [
  ⟨64, 0, 1, 0, 5, 1, [⟨0, 1, .ro, 0⟩, ⟨1, 1, .ro, 0⟩, ⟨2, 1, .ro, 0⟩, ⟨3, 1, .ro, 0⟩, ⟨4, 2, .ro, 0⟩, ⟨6, 1, .w1c, 0⟩]⟩,
  ⟨68, 0, 1, 0, 5, 1, [⟨0, 6, .ro, 0⟩, ⟨6, 1, .ro, 0⟩, ⟨8, 6, .ro, 0⟩, ⟨14, 1, .ro, 0⟩]⟩,
  ⟨72, 0, 1, 0, 5, 1, [⟨0, 16, .rw, 4096⟩, ⟨16, 8, .rw, 16⟩]⟩,
  ⟨76, 0, 1, 0, 5, 1, [⟨0, 6, .wo, 0⟩, ⟨6, 1, .wo, 0⟩]⟩,
  ⟨80, 0, 1, 0, 5, 1, [⟨0, 1, .rw, 1⟩, ⟨1, 8, .rw, 8⟩]⟩,
  ⟨84, 0, 1, 0, 5, 1, [⟨0, 28, .ro, 0⟩]⟩,
  ⟨88, 0, 1, 0, 5, 1, [⟨0, 16, .rc, 0⟩, ⟨16, 16, .rc, 0⟩]⟩,
  ⟨92, 0, 1, 0, 5, 1, [⟨0, 16, .rc, 0⟩]⟩,
  ⟨96, 0, 1, 0, 5, 1, [⟨0, 32, .rc, 0⟩]⟩,
  ⟨100, 0, 1, 0, 5, 1, [⟨0, 32, .rc, 0⟩]⟩,
  ⟨104, 0, 1, 0, 5, 1, [⟨0, 8, .ro, 0⟩]⟩,
  ⟨128, 0, 1, 0, 5, 2, [⟨0, 64, .ro, 0⟩]⟩,
  ⟨136, 0, 1, 0, 5, 2, [⟨0, 64, .ro, 0⟩]⟩,
  ⟨256, 4, 64, 0, 5, 1, [⟨0, 16, .ro, 0⟩, ⟨16, 16, .ro, 0⟩]⟩,
  ⟨64, 0, 1, 6, 6, 1, [⟨0, 1, .wo, 0⟩, ⟨1, 1, .wo, 0⟩]⟩,
  ⟨68, 0, 1, 6, 6, 1, [⟨0, 1, .ro, 0⟩, ⟨1, 1, .w1c, 0⟩, ⟨2, 1, .w1c, 0⟩, ⟨3, 3, .ro, 0⟩]⟩,
  ⟨72, 0, 1, 6, 6, 2, [⟨22, 18, .rw, 0⟩]⟩,
  ⟨80, 0, 1, 6, 6, 1, [⟨0, 19, .rw, 0⟩]⟩,
  ⟨84, 0, 1, 6, 6, 1, [⟨0, 19, .ro, 0⟩]⟩,
  ⟨88, 0, 1, 6, 6, 1, [⟨0, 19, .wo, 0⟩, ⟨19, 1, .wo, 0⟩]⟩,
  ⟨92, 0, 1, 6, 6, 1, [⟨0, 16, .rw, 100⟩, ⟨16, 16, .rw, 1000⟩]⟩,
  ⟨96, 0, 1, 6, 6, 1, [⟨0, 9, .ro, 0⟩, ⟨9, 18, .ro, 0⟩]⟩,
  ⟨100, 0, 1, 6, 6, 1, [⟨0, 1, .rw, 1⟩, ⟨1, 6, .rw, 25⟩]⟩,
  ⟨104, 0, 1, 6, 6, 1, [⟨0, 23, .ro, 0⟩]⟩,
  ⟨108, 0, 1, 6, 6, 1, [⟨0, 16, .rw, 0⟩]⟩,
  ⟨112, 0, 1, 6, 6, 1, [⟨0, 1, .rw, 0⟩, ⟨1, 1, .ro, 0⟩, ⟨2, 1, .wo, 0⟩, ⟨3, 1, .ro, 0⟩, ⟨4, 12, .ro, 0⟩]⟩,
  ⟨120, 0, 1, 6, 6, 2, [⟨0, 19, .rw, 0⟩, ⟨32, 18, .rw, 0⟩]⟩,
  ⟨128, 0, 1, 6, 6, 1, [⟨0, 18, .rw, 0⟩]⟩,
  ⟨136, 0, 1, 6, 6, 2, [⟨0, 3, .ro, 0⟩, ⟨3, 2, .ro, 0⟩, ⟨5, 19, .ro, 0⟩]⟩,
  ⟨144, 0, 1, 6, 6, 2, [⟨0, 32, .ro, 0⟩, ⟨32, 32, .ro, 0⟩]⟩,
  ⟨160, 0, 1, 6, 6, 2, [⟨0, 64, .ro, 0⟩]⟩,
  ⟨168, 0, 1, 6, 6, 2, [⟨0, 64, .ro, 0⟩]⟩,
  ⟨176, 0, 1, 6, 6, 2, [⟨0, 64, .ro, 0⟩]⟩,
  ⟨184, 0, 1, 6, 6, 2, [⟨0, 64, .ro, 0⟩]⟩,
  ⟨192, 0, 1, 6, 6, 2, [⟨0, 64, .ro, 0⟩]⟩,
  ⟨200, 0, 1, 6, 6, 2, [⟨0, 64, .ro, 0⟩]⟩,
  ⟨208, 0, 1, 6, 6, 2, [⟨0, 64, .ro, 0⟩]⟩,
  ⟨216, 0, 1, 6, 6, 2, [⟨0, 64, .ro, 0⟩]⟩]

/-- Registers of the HC_ pages. -/
def regsHC : List RegSpec := [
  ⟨64, 0, 1, 0, 5, 1, [⟨0, 4, .rw, 4⟩, ⟨4, 1, .rw, 0⟩]⟩,
  ⟨68, 0, 1, 0, 5, 1, [⟨0, 1, .ro, 0⟩, ⟨1, 17, .ro, 0⟩]⟩,
  ⟨72, 0, 1, 0, 5, 1, [⟨0, 1, .wo, 0⟩, ⟨1, 1, .wo, 0⟩]⟩,
  ⟨76, 0, 1, 0, 5, 1, [⟨0, 16, .rc, 0⟩, ⟨16, 16, .rc, 0⟩]⟩,
  ⟨80, 0, 1, 0, 5, 1, [⟨0, 32, .rc, 0⟩]⟩,
  ⟨96, 0, 1, 0, 5, 2, [⟨0, 64, .ro, 0⟩]⟩,
  ⟨104, 0, 1, 0, 5, 2, [⟨0, 64, .ro, 0⟩]⟩,
  ⟨112, 0, 1, 0, 5, 2, [⟨0, 64, .ro, 0⟩]⟩,
  ⟨120, 0, 1, 0, 5, 2, [⟨0, 64, .ro, 0⟩]⟩,
  ⟨128, 0, 1, 0, 5, 2, [⟨0, 64, .ro, 0⟩]⟩,
  ⟨136, 0, 1, 0, 5, 2, [⟨0, 64, .ro, 0⟩]⟩,
  ⟨144, 0, 1, 0, 5, 2, [⟨0, 64, .ro, 0⟩]⟩,
  ⟨152, 0, 1, 0, 5, 2, [⟨0, 64, .ro, 0⟩]⟩,
  ⟨160, 0, 1, 0, 5, 2, [⟨0, 64, .ro, 0⟩]⟩,
  ⟨168, 0, 1, 0, 5, 2, [⟨0, 64, .ro, 0⟩]⟩]

/-- Registers of the CK_ pages. -/
def regsCK : List RegSpec := [
  ⟨64, 0, 1, 0, 0, 1, [⟨0, 1, .rw, 0⟩, ⟨1, 1, .rw, 0⟩, ⟨2, 3, .rw, 0⟩]⟩,
  ⟨68, 0, 1, 0, 0, 1, [⟨0, 2, .ro, 0⟩, ⟨2, 1, .ro, 0⟩, ⟨3, 1, .w1c, 0⟩]⟩,
  ⟨72, 0, 1, 0, 0, 2, [⟨0, 64, .ro, 0⟩]⟩,
  ⟨80, 0, 1, 0, 0, 1, [⟨0, 32, .ro, 0⟩]⟩]

/-- Registers of the EB_ pages. -/
def regsEB : List RegSpec := [
  ⟨64, 0, 1, 0, 0, 1, [⟨0, 2, .ro, 0⟩, ⟨2, 4, .ro, 0⟩]⟩,
  ⟨68, 0, 1, 0, 0, 1, [⟨0, 1, .rw, 1⟩, ⟨1, 1, .wo, 0⟩, ⟨2, 10, .rw, 1000⟩, ⟨12, 8, .rw, 0⟩]⟩,
  ⟨72, 0, 1, 0, 0, 1, [⟨0, 16, .rc, 0⟩, ⟨16, 16, .rc, 0⟩]⟩,
  ⟨76, 0, 1, 0, 0, 1, [⟨0, 13, .ro, 0⟩]⟩,
  ⟨80, 0, 1, 0, 0, 1, [⟨0, 32, .rc, 0⟩]⟩,
  ⟨96, 0, 1, 0, 0, 2, [⟨0, 64, .ro, 0⟩]⟩,
  ⟨104, 0, 1, 0, 0, 2, [⟨0, 64, .ro, 0⟩]⟩,
  ⟨112, 0, 1, 0, 0, 2, [⟨0, 64, .ro, 0⟩]⟩,
  ⟨120, 0, 1, 0, 0, 2, [⟨0, 64, .ro, 0⟩]⟩,
  ⟨128, 0, 1, 0, 0, 2, [⟨0, 64, .ro, 0⟩]⟩,
  ⟨136, 0, 1, 0, 0, 2, [⟨0, 64, .ro, 0⟩]⟩,
  ⟨256, 4, 4, 0, 0, 1, [⟨0, 16, .ro, 0⟩, ⟨16, 8, .ro, 0⟩]⟩]

/-- Registers of the PW_ pages. -/
def regsPW : List RegSpec := [
  ⟨64, 0, 1, 0, 0, 1, [⟨0, 2, .rw, 0⟩, ⟨2, 16, .rw, 1000⟩]⟩,
  ⟨68, 0, 1, 0, 0, 1, [⟨0, 4, .rw, 0⟩, ⟨4, 4, .ro, 0⟩, ⟨8, 4, .ro, 0⟩, ⟨12, 4, .ro, 0⟩]⟩,
  ⟨72, 0, 1, 0, 0, 1, [⟨0, 12, .rw, 1700⟩]⟩,
  ⟨76, 0, 1, 0, 0, 1, [⟨0, 7, .rw, 90⟩, ⟨8, 7, .rw, 95⟩, ⟨15, 1, .ro, 0⟩, ⟨16, 1, .ro, 0⟩]⟩,
  ⟨88, 0, 1, 0, 0, 2, [⟨0, 64, .ro, 0⟩]⟩,
  ⟨96, 0, 1, 0, 0, 2, [⟨0, 64, .ro, 0⟩]⟩,
  ⟨104, 0, 1, 0, 0, 2, [⟨0, 64, .ro, 0⟩]⟩,
  ⟨112, 0, 1, 0, 0, 2, [⟨0, 64, .ro, 0⟩]⟩,
  ⟨256, 4, 16, 0, 0, 1, [⟨0, 18, .ro, 0⟩]⟩,
  ⟨320, 4, 19, 0, 0, 1, [⟨0, 12, .ro, 0⟩]⟩]

/-- Registers of the AG_ pages. -/
def regsAG : List RegSpec := [
  ⟨64, 0, 1, 0, 0, 1, [⟨0, 8, .rw, 6⟩]⟩,
  ⟨256, 4, 32, 0, 0, 1, [⟨0, 16, .ro, 65535⟩, ⟨16, 16, .ro, 65535⟩]⟩,
  ⟨512, 4, 72, 0, 0, 1, [⟨0, 16, .ro, 65535⟩, ⟨16, 8, .ro, 0⟩]⟩,
  ⟨832, 8, 16, 0, 0, 2, [⟨0, 48, .ro, 0⟩, ⟨48, 10, .ro, 0⟩]⟩]

/-- R593: the block types that have engine pages. -/
def isEngineBlk (b : Nat) : Bool := b == 3 || b == 4 || b == 5 || b == 6 || b == 8

/-- The rows of a block type's pages, beyond the header. -/
def regsOwn : Nat → List RegSpec
  | 1 => regsMG
  | 2 => regsTL
  | 3 => regsMX ++ regsEngine
  | 4 => regsVX ++ regsEngine
  | 5 => regsDM ++ regsEngine
  | 6 => regsSY ++ regsEngine
  | 7 => regsBA
  | 8 => regsCE ++ regsEngine
  | 9 => regsRT
  | 10 => regsFL
  | 11 => regsMC
  | 12 => regsHC
  | 13 => regsCK
  | 14 => regsEB
  | 15 => regsPW
  | 16 => regsAG
  | _ => []

/-- R593: the number of instances of a block type (0 for an unassigned type). -/
def blkInstances : Nat → Nat
  | 1 => 1 | 2 => 72 | 3 => 72 | 4 => 72 | 5 => 72 | 6 => 72 | 7 => 65 | 8 => 4 | 9 => 27 | 10 => 18 | 11 => 7 | 12 => 6
  | 13 => 1 | 14 => 1 | 15 => 1 | 16 => 1 | _ => 0

/-- R593: block types whose instances run firmware. -/
def blkFirmware (b : Nat) : Bool := [1, 2, 4, 7, 8, 9, 10, 11, 12].contains b

/-- Whether a table row holds a byte offset, and in which element of the register array. -/
def specIndex (r : RegSpec) (inst off : Nat) : Option Nat :=
  if r.lo ≤ inst ∧ inst ≤ r.hi ∧ r.off ≤ off then
    if r.stride = 0 then (if off < r.off + 4 * r.words then some 0 else none)
    else
      let i := (off - r.off) / r.stride
      if i < r.count ∧ (off - r.off) % r.stride < 4 * r.words then some i else none
  else none

/-- The first row of a list that holds an offset, with its array index. -/
def findSpec (inst off : Nat) : List RegSpec → Option (RegSpec × Nat)
  | [] => none
  | r :: rest => match specIndex r inst off with
    | some i => some (r, i)
    | none => findSpec inst off rest

/-- R593, R594: the register that holds a byte offset of a page. -/
def regAt (blk inst off : Nat) : Option (RegSpec × Nat) :=
  if off < 64 then findSpec 0 off regsHeader
  else findSpec (if isEngineBlk blk ∧ 0x100 ≤ off ∧ off < 0x300 then 0 else inst) off (regsOwn blk)

/-- The reset value that the fields of a row make up. -/
def specReset (r : RegSpec) : Nat := (r.fields.map (fun f => f.rst * 2 ^ f.lo)).foldl (· + ·) 0

/-- The key of a register: its byte address within the register region (R593). -/
def regKey (blk inst off : Nat) : Nat := blk * 2 ^ 20 + inst * 2 ^ 12 + off

/-- What a register that nothing has written holds: the reset value of its table row. -/
def regDefault (key : Nat) : DWord :=
  match regAt (key / 2 ^ 20) (key / 2 ^ 12 % 256) (key % 2 ^ 12) with
  | some (r, _) => BitVec.ofNat 64 (specReset r)
  | none => 0

/-- The row pairs of a list whose second row is the first's _LATCHED copy: (live offset, latched offset, stride, count, lo, hi). -/
def latchPairs : Nat → List (Nat × Nat × Nat × Nat × Nat × Nat)

  | 2 => [(80, 88, 0, 1, 0, 71)]
  | 3 => [(80, 88, 0, 1, 0, 71), (96, 104, 0, 1, 0, 71), (112, 120, 0, 1, 0, 71), (288, 296, 0, 1, 0, 71), (384, 392, 16, 8, 0, 71)]
  | 4 => [(96, 104, 0, 1, 0, 71), (112, 120, 0, 1, 0, 71), (128, 136, 0, 1, 0, 71), (288, 296, 0, 1, 0, 71), (384, 392, 16, 8, 0, 71)]
  | 5 => [(96, 104, 0, 1, 0, 71), (112, 120, 0, 1, 0, 71), (128, 136, 0, 1, 0, 71), (144, 152, 0, 1, 0, 71), (288, 296, 0, 1, 0, 71), (384, 392, 16, 8, 0, 71)]
  | 6 => [(80, 88, 0, 1, 0, 71), (288, 296, 0, 1, 0, 71), (384, 392, 16, 8, 0, 71)]
  | 8 => [(96, 104, 0, 1, 0, 3), (112, 120, 0, 1, 0, 3), (128, 136, 0, 1, 0, 3), (144, 152, 0, 1, 0, 3), (160, 168, 0, 1, 0, 3), (176, 184, 0, 1, 0, 3), (288, 296, 0, 1, 0, 3), (384, 392, 16, 8, 0, 3)]
  | 9 => [(64, 72, 0, 1, 1, 26), (80, 88, 0, 1, 1, 26), (96, 104, 0, 1, 1, 26), (128, 160, 4, 8, 1, 26)]
  | 10 => [(128, 136, 0, 1, 0, 17), (144, 152, 0, 1, 0, 17), (160, 168, 0, 1, 0, 17), (176, 184, 0, 1, 0, 17)]
  | 11 => [(128, 136, 0, 1, 0, 5), (160, 168, 0, 1, 6, 6), (176, 184, 0, 1, 6, 6), (192, 200, 0, 1, 6, 6), (208, 216, 0, 1, 6, 6)]
  | 12 => [(96, 104, 0, 1, 0, 5), (112, 120, 0, 1, 0, 5), (128, 136, 0, 1, 0, 5), (144, 152, 0, 1, 0, 5), (160, 168, 0, 1, 0, 5)]
  | 14 => [(96, 104, 0, 1, 0, 0), (112, 120, 0, 1, 0, 0), (128, 136, 0, 1, 0, 0)]
  | 15 => [(88, 96, 0, 1, 0, 0), (104, 112, 0, 1, 0, 0)]
  | _ => []

end Sys2Proof.Machine
end

