-- ==== Sys2Proof/Machine/State.lean ====
section
/-! DEFINITION. The state of the GW7: every piece of state the spec gives it, as plain data, and the state after reset.
Register fields whose value no other part of the state determines live in `regs`, keyed by the register's byte address within
the register region (Machine/RegMap.lean); an unlisted key holds its table's reset value. Sparse arrays are maps that list no
default entry, so the state after reset is small and equal states are equal data. -/
namespace Sys2Proof.Machine

/-- R212: the program states. -/
inductive EState
  | halted | loaded | armed | running | waiting | quiesced | faulted
  deriving DecidableEq, Repr

/-- What an engine waits on (R252, R266). -/
inductive WaitKind
  | wflag | sywait | sybar | ctmark | sysig | fctr
  deriving DecidableEq, Repr

/-- An open wait: its counter or context, the value it needs, and the time it has run (R253): `acc` GSC counts before `since`. -/
structure Wait where
  kind : WaitKind
  ctr : Nat
  val : Nat
  since : Nat
  acc : Nat
  deriving DecidableEq, Repr

/-- One packed problem's A side as the fill stage read it (R112). -/
structure PackA where
  prob : Nat
  rows : List (List Word)
  scales : List Byte
  start : Bool
  accq : Nat
  deriving DecidableEq, Repr

/-- What the fill stage holds for one instruction (R83): staging slots, the A rows as raw element codes, their scale bytes,
packed problems, and the address of the first poisoned word that was read. -/
structure Staged where
  slots : Nat
  rows : List (List Word)
  scales : List (List Byte)
  packs : List PackA
  bad : Option Nat
  deriving DecidableEq, Repr

/-- A fetched instruction that has not issued (R208). `wDone`: its W wait is satisfied; `filled`: its operands are staged (an mx.
instruction, R83), or its source has been read ahead (a dm. instruction, R143). -/
structure QEntry where
  idx : Nat
  word : IWord
  wDone : Bool
  filled : Bool
  staged : Option Staged
  deriving DecidableEq, Repr

/-- An sy.sig sent and not yet acknowledged (R249). -/
structure SigOut where
  num : Nat
  tag : Nat
  pc : Nat
  sctr : Option Nat
  own : Bool
  since : Nat
  t : Bool
  dst : Nat
  ctr : Nat
  deriving DecidableEq, Repr

/-- An engine: program state, queue and waits (R197 to R224); `quiesceAt` is the GSC of the quiesce request (R411). `acc` fields keep time that R517 does not count. -/
structure Engine where
  st : EState
  queue : List QEntry
  fetchPc : Nat
  fetchStop : Bool
  marks : List Bool
  wait : Option Wait
  fwait : Option Wait
  launch : DWord
  quiesceReq : Bool
  quiesceAt : Nat
  resumeSt : EState
  restored : Bool
  lateSigs : List (Nat × Nat × Nat)
  rbits : Nat
  since : Nat
  late : Bool
  sigs : List SigOut
  deriving DecidableEq, Repr

def Engine.reset : Engine :=
  ⟨.halted, [], 0, false, [], none, none, 0, false, 0, .halted, false, [], 0, 0, false, []⟩

/-- Who raised a counter increment (R243). -/
inductive IncrSrc
  | instr (e : Eng) (tag pc : Nat)
  | signal (pkt : Packet)
  | unit (tag : Nat)
  deriving DecidableEq, Repr

/-- An increment within its latency (R242, R251). -/
structure Incr where
  ctr : Nat
  val : Nat
  src : IncrSrc
  deriving DecidableEq, Repr

/-- A register set of one array (R60, R61): metadata, cells (row k, column n), scale bytes (column n, block among the array's own 64 K
rows), packed extents. -/
structure MxSet where
  loaded : Bool
  shape : Nat
  fmt : Nat
  scaled : Bool
  bs32 : Bool
  kv : Nat
  nv : Nat
  mask : Nat
  probs : List (Nat × Nat × Nat)
  cells : List (List Word)
  scales : List (List Byte)
  bad : Option Nat
  deriving DecidableEq, Repr

def MxSet.reset : MxSet := ⟨false, 0, 0, false, false, 0, 0, 0, [], [], [], none⟩

/-- An accumulation run in the run table (R51, R96). -/
structure MxRun where
  base : Nat
  rows : Nat
  chunks : Nat
  interval : Nat
  spilled : Bool
  deriving DecidableEq, Repr

/-- What completes an instruction: its counter to signal, tag and index. -/
structure Done where
  sctr : Option Nat
  tag : Nat
  pc : Nat
  v : Bool
  t : Bool
  deriving DecidableEq, Repr

/-- An mx. instruction in flight: class (0 load, 1 mm or mmp, 2 st, 3 ldacc, 4 drain, 5 flag, 6 st with ZERO), its arrays, the accumulation
buffer quarter-rows it touches (first, count), its staging slots and row slots, the bytes it stores to, the run it ends, a poisoned entry,
and the GSC at its issue. -/
structure MxFly where
  kind : Nat
  arrays : Nat
  quarters : List (Nat × Nat)
  slots : Nat
  rowSlots : Nat
  dests : List (Nat × Nat)
  lastRun : Option (Nat × Nat)
  badEntry : Option Nat
  since : Nat
  done : Done
  deriving DecidableEq, Repr

/-- The matrix engine (R60 to R121). `act` bit a is array a's active physical set. `acc`, `accBad`, `wide` are keyed by entry;
a wide entry is none until its run spills. -/
structure MxState where
  act : Nat
  sets : SMap MxSet
  fly : List MxFly
  runs : List MxRun
  acc : SMap Word
  accBad : SMap Bool
  wide : SMap (Option DWord)
  deriving DecidableEq, Repr

def MxState.reset : MxState := ⟨0, [], [], [], [], [], []⟩

/-- A vx. instruction in flight: the vector registers and predicates (32 + p) that it writes. -/
structure VxFly where
  writes : List Nat
  opt : Bool
  done : Done
  deriving DecidableEq, Repr

/-- The vector engine (R158): lanes keyed 128 * register + lane, predicates p1 to p7 keyed by number. -/
structure VxState where
  v : SMap Word
  p : SMap (BitVec 128)
  fly : List VxFly
  deriving DecidableEq, Repr

def VxState.reset : VxState := ⟨[], [], []⟩

/-- An access to job memory that a descriptor is stalled on (R146). -/
structure DmStall where
  vpn : Nat
  since : Nat
  acc : Nat
  deriving DecidableEq, Repr

/-- A descriptor in flight (R135, R153): what it read from its registers when it started, and its progress. `unsup` says that it
overlaps itself or another descriptor in flight (R132, R136): what it writes is free (log entry 4). -/
structure Desc where
  tid : Nat
  op : Nat
  pc : Nat
  tag : Nat
  v : Bool
  t : Bool
  sctr : Option Nat
  src : Nat
  dst : Nat
  ssp : Nat
  dsp : Nat
  len : Nat
  n1 : Nat
  n2 : Nat
  sstr : Nat
  dstr : Nat
  shint : Nat
  dhint : Nat
  rctr : Option Nat
  ectr : Option Nat
  int : Bool
  idxAddr : Nat
  total : Nat
  next : Nat
  readBack : Nat
  doneCnt : Nat
  esigDone : Bool
  stall : Option DmStall
  since : Nat
  acc : Nat
  unsup : Bool
  deriving DecidableEq, Repr

/-- A piece issued and not complete (R133, R140). `kind`: 0 read of own job memory, 1 read request sent, 2 landing in the own
tile store, 3 write to own job memory, 4 request sent that is to be acknowledged, 5 own narrow read, 6 own atomic add,
7 refused with RECALL_HELD, 8 hint-cache fill, 9 refused with RT_XFER_BUSY. `src` and `dst` are the parts of job memory it reads
and writes (R308), `sp` its destination space, `addr` its first byte there, `ssp` and `sa` those of its source (of the element of a
narrow access), `pkt` the request that is out, `dpkt` the request that carries its data on, `held` when the first hold reply came
(R311), `unsup` its descriptor's, `lines` how many of its line accesses the slices have still to serve. -/
structure PieceOut where
  tid : Nat
  pseq : Nat
  kind : Nat
  n : Nat
  data : List PByte
  src : List (Nat × Nat)
  dst : List (Nat × Nat)
  sp : Nat
  addr : Nat
  pkt : Option Packet
  dpkt : Option Packet
  hint : Nat
  int : Bool
  gen : Nat
  since : Nat
  held : Option Nat
  ssp : Nat
  sa : Nat
  unsup : Bool
  lines : Nat
  deriving DecidableEq, Repr

/-- A translation cache entry (R306). -/
structure Xlat where
  vpn : Nat
  entry : DWord
  rstate : Nat
  deriving DecidableEq, Repr

/-- The data mover (R130 to R157). -/
structure DmState where
  descs : List Desc
  out : List PieceOut
  xlat : List Xlat
  nextTid : Nat
  fault : Option (Nat × Nat × Nat × Nat × Nat × Nat)
  deriving DecidableEq, Repr

def DmState.reset : DmState := ⟨[], [], [], 0, none⟩

/-- A transfer table entry of a tile's station (R374). -/
structure XferEntry where
  src : Nat
  num : Nat
  gen : Nat
  landed : Nat
  total : Option Nat
  since : Nat
  deriving DecidableEq, Repr

/-- A physical tile beyond its four engines (R122, R240, R374, R480, R229). `rot` maps a counter to 1 + the engine satisfied last; `cvOld`
holds what a word of a running check-value unit's region held before each write since the unit started, keyed 2^18 * unit + word (R484). -/
structure Tile where
  mx : MxState
  vx : VxState
  dm : DmState
  pend : List Incr
  rot : SMap Nat
  xfer : List XferEntry
  cv0 : Nat
  cv1 : Nat
  cvOld : SMap (List (List PByte))
  digestBusy : Bool
  trace : SMap (BitVec 128)
  sweepAt : Nat
  held : List Packet
  deriving DecidableEq, Repr

def Tile.reset : Tile := ⟨.reset, .reset, .reset, [], [], [], 0, 0, [], false, [], 0, []⟩

/-- A barrier context (R254): rounds and counts; `a` and `b` have bit m for member m (4 t + e, or 256 + c). -/
structure BaCtx where
  round : Bool
  cur : Nat
  next : Nat
  a : Nat
  b : Nat
  leaving : Bool
  globalPend : Bool
  cstate : Nat
  deriving DecidableEq, Repr

def BaCtx.reset : BaCtx := ⟨false, 0, 0, 0, 0, false, false, 0⟩

/-- The step mark of the GW7 (R22, R222): `phase` 0 gathering, 1 mirror fence; the engines that have arrived, by engine index;
the ct.mark instructions that complete with it, each with its engine (R220); the mirror lines the fence still waits for, once for each acknowledgement. -/
structure StepMark where
  last : Word
  phase : Nat
  arrived : List Nat
  sigs : List (Nat × Done)
  since : Nat
  fence : List Nat
  deriving DecidableEq, Repr

/-- A fault record (R228). `space` is the space code of R130. -/
structure FaultRec where
  code : Nat
  unit : Nat
  engine : Nat
  tag : Nat
  pc : Nat
  gsc : Nat
  gen : Nat
  phys : Nat
  addr : Nat
  space : Nat
  detail : Nat
  deriving DecidableEq, Repr

/-- An Eboth event (R581). -/
inductive EbEvent
  | fault (r : FaultRec)
  | lending (code : Nat)
  | restore (vpn : Nat)
  deriving DecidableEq, Repr

/-- A frame of HBM in the folio state store (R303). -/
structure Frame where
  rstate : Nat
  vpn : Nat
  cls : Nat
  d : BitVec 32
  s : BitVec 32
  since : Nat
  deriving DecidableEq, Repr

def Frame.reset : Frame := ⟨0, 0, 0, 0, 0, 0⟩

/-- A request held at endpoint 0x48 for a frame that is not PRESENT (R310, R311). -/
structure HeldReq where
  pkt : Packet
  since : Nat
  deriving DecidableEq, Repr

/-- A trickle granule being sent or awaiting its acknowledgement (R318): the VPN that its frame had at the first read, the mark, whether
a write overlapped it, whether a step mark set S again, whether its trailer has been sent. -/
structure GranSend where
  pfn : Nat
  vpn : Nat
  gran : Nat
  mark : Word
  overlap : Bool
  again : Bool
  ended : Bool
  deriving DecidableEq, Repr

/-- A mirror line being duplicated (R322): its local and its target address, and whether it was written again since it was sent. -/
structure Dup where
  line : Nat
  target : Nat
  again : Bool
  deriving DecidableEq, Repr

/-- The folio unit (R298 to R327). `ftBase` is the base of the table in force; `frames` is keyed by frame number; `marks` holds
the mark under which a granule's S bit was last set, keyed 32 * frame + granule; `pos` is where the trickle round stands,
in the same numbering. `busy` is 1 during a LOAD and 2 during an UPDATE, `cmdArg` the base or the VPN that it was given. `dups` are the
lines being duplicated (R322), `resync` the lines that a resync has yet to send. -/
structure Folio where
  ftBase : Option Nat
  frames : SMap Frame
  marks : SMap Word
  xlat : List Xlat
  held : List HeldReq
  busy : Nat
  cmdArg : Nat
  sending : Option GranSend
  waiting : List Nat
  dups : List Dup
  resync : List Nat
  pos : Nat
  deriving DecidableEq, Repr

def Folio.reset : Folio := ⟨none, [], [], [], [], 0, 0, none, [], [], [], 0⟩

/-- A hint-cache line (R283): its line number, whether it is dirty, whether it is a keep line. -/
structure HcLine where
  line : Nat
  dirty : Bool
  keep : Bool
  deriving DecidableEq, Repr

/-- A line access on its way to its slice (R285); `own` is the piece of a data mover (physical tile, transfer number, piece number)
whose bytes it moves, none for an access whose bytes have moved. -/
structure LineReq where
  addr : Nat
  wr : Bool
  hint : Nat
  own : Option (Nat × Nat × Nat)
  deriving DecidableEq, Repr

/-- One stack's controller and its hint-cache slice (R270 to R297). `lines` is in order of use, the next to evict first; `migrating` is
the lines that a retirement's migration has copied so far (R278). -/
structure Stack where
  lines : List HcLine
  migrating : Option Nat
  deriving DecidableEq, Repr

def Stack.reset : Stack := ⟨[], none⟩

/-- A packet held in the router (R366), with the time it came, the flue it came by, and the slot a multicast branch leaves by. -/
structure RtPkt where
  pkt : Packet
  since : Nat
  via : Option Nat
  slot : Option Nat
  deriving DecidableEq, Repr

/-- A rotation (R348, R350) of `lane` onto `new`. `phase`: 0 announced, 1 recalibrating or testing, 2 the pair is to rejoin (R349).
`tx` and `rx` are the two directions' ROT_AT, `txDone` and `rxDone` say that they stripe onto the new lane. -/
structure FlueRot where
  phase : Nat
  lane : Nat
  new : Nat
  selftest : Bool
  since : Nat
  tx : Nat
  txDone : Bool
  rx : Option Nat
  rxDone : Bool
  deriving DecidableEq, Repr

/-- A flue (R328 to R356). `step` counts the training steps of R342 that are done; `txq` holds packets that wait to leave, `msgs`
the MGC's own messages to the far end; `cur` is a packet that has started, `txBytes` what is left of it, `rxBytes` the partial byte
stream received (R331); `sent` is the retry buffer, each frame with its replays, and `unacked` the packets whose last byte went in
the frame of that FSEQ. `damper` are the bits received, `damperOut` those sent. `half` is the width announced next, `lineHalf` that of
the frames on the lanes. `line` is the frame that left last, and `lanes` the bytes that each physical lane carried of it (R332).
`disc` says that the discovery frame has left, `ownNonce` the nonce of the own HELLO, `wideMap` the lane map before a narrowing. -/
structure Flue where
  step : Nat
  fails : Nat
  half : Bool
  txq : List RtPkt
  msgs : List Packet
  cur : Option Packet
  txBytes : List PByte
  rxBytes : List PByte
  sent : List (FlFrame × Nat)
  replay : List FlFrame
  unacked : List (Packet × Nat)
  fseq : Nat
  rseq : Nat
  sendNak : Bool
  naked : Bool
  damper : Nat
  damperOut : Nat
  peer : Option FluePeer
  nonce : Option (BitVec 256)
  authed : Bool
  authFail : Bool
  chainOk : Bool
  proofSince : Nat
  rot : Option FlueRot
  lastRot : Nat
  nextLane : Nat
  peerGen : Nat
  line : Option FlFrame
  lanes : List (List Byte)
  lineHalf : Bool
  disc : Bool
  ownNonce : Option (BitVec 256)
  wideMap : Option Nat
  deriving DecidableEq, Repr

def Flue.reset : Flue :=
  { step := 0, fails := 0, half := false, txq := [], msgs := [], cur := none, txBytes := [], rxBytes := [], sent := [], replay := [], unacked := [],
    fseq := 0, rseq := 0, sendNak := false, naked := false, damper := 0, damperOut := 0, peer := none, nonce := none,
    authed := false, authFail := false, chainOk := false, proofSince := 0, rot := none, lastRot := 0,
    nextLane := 0, peerGen := 0, line := none, lanes := [], lineHalf := false, disc := false, ownNonce := none, wideMap := none }

/-- The router (R357 to R383): packets injected and not yet in a router queue, packets held, packets delivered to a local
endpoint and not yet taken by it. -/
structure Router where
  inject : List Packet
  held : List RtPkt
  arrived : List Packet
  written : List Nat
  deriving DecidableEq, Repr

def Router.reset : Router := ⟨[], [], [], []⟩

/-- A piece that a collective operation has yet to send (R398): `data` is filled for a forwarded piece and read from the
operation's source (for a ring pass that goes on, from the slot that received it) when it leaves. `far` is the receiving rank, none for a
multicast; `slot` is the receive-buffer slot that a forwarded piece holds until it leaves: its sender's rank and the direction (R400). -/
structure CeOut where
  kind : Nat
  step : Nat
  far : Option Nat
  plus : Bool
  off : Nat
  len : Nat
  pseq : Nat
  data : Option (List PByte)
  local_ : Bool
  slot : Option (Nat × Bool)
  deriving DecidableEq, Repr

/-- A transfer of a collective operation: the far rank, the step and the pieces it has; `cnt` pieces applied or acknowledged. -/
structure CeXfer where
  far : Nat
  step : Nat
  total : Nat
  cnt : Nat
  seen : List Nat
  deriving DecidableEq, Repr

/-- A partial of the direct algorithm at its owner (R394, R396): how many ranks it has added, and its value. -/
structure CePart where
  pseq : Nat
  cnt : Nat
  acc : List PByte
  deriving DecidableEq, Repr

/-- A collective operation in progress (R392 to R406). `heard` holds for a rank the time of the operation at which its silence began
(R409). -/
structure CeOp where
  op : Nat
  num : Nat
  tag : Nat
  pc : Nat
  sctr : Option Nat
  ssp : Nat
  dsp : Nat
  src : Nat
  dst : Nat
  n : Nat
  fmt : Nat
  int : Bool
  fn : Nat
  ord : Bool
  dir : Bool
  alg : Bool
  wide : Bool
  sig : Nat
  stat : Bool
  nsig : Option Nat
  sh : Nat
  dh : Nat
  root : Nat
  peer : Nat
  nb : Nat
  stride : Nat
  rctr : Nat
  fctr : Nat
  step : Nat
  todo : List CeOut
  rx : List CeXfer
  tx : List CeXfer
  parts : List CePart
  early : List Packet
  ready : List Nat
  passReady : Nat
  fctrOk : Bool
  readLeft : Nat
  ss : List (Nat × Nat × Nat)
  since : Nat
  acc : Nat
  heard : List (Nat × Nat)
  stall : Option DmStall
  deriving DecidableEq, Repr

/-- A TORUS barrier round at a collective engine (R407, R408): the counts of the current and the next round, the own share. -/
structure CeBar where
  cur : Nat
  next : Nat
  a : Nat
  b : Nat
  own : Bool
  deriving DecidableEq, Repr

def CeBar.reset : CeBar := ⟨0, 0, 0, 0, false⟩

/-- A collective engine beyond its program (R384 to R415): OPNUM, the operation, credits held, the kinds of the pieces that
hold a credit (true for a local piece), slots freed and not yet returned (`freedFar`: to ranks that are no neighbour), packets held for a
later operation. `nack`: it has been reset and not loaded since (R412). -/
structure Ce where
  opnum : Nat
  op : Option CeOp
  credP : Nat
  credM : Nat
  usedP : List Bool
  usedM : List Bool
  freedP : Nat
  freedM : Nat
  freedFar : List (Nat × Bool)
  granted : Bool
  early : List Packet
  bars : SMap CeBar
  nack : Bool
  deriving DecidableEq, Repr

def Ce.reset : Ce := ⟨0, none, 0, 0, [], [], 0, 0, [], false, [], [], false⟩

/-- The GSC discipline (R422 to R428): the last 64 offsets, consecutive exchanges or edges within 2 ns, the slew rate in ppm, and the
time state that the parent reported last. `ask`: an exchange has been asked for and its frame has not left; `t1` and `t4` are the
departure count of that frame and the arrival count of the parent's last frame. -/
structure Clock where
  offs : List Int
  good : Nat
  lastX : Nat
  lastPps : Nat
  first : Bool
  slew : Int
  parent : Nat
  ask : Bool
  t1 : Option Nat
  t4 : Nat
  deriving DecidableEq, Repr

/-- The lending flow beyond its registers (R431 to R452). `tear`: 0 none, 1 draining, 2 fencing. `after`: what follows the
teardown, 0 LENDING, 1 hand-over, 2 LENDING with the sink open. `tearSince`: when the teardown, or the quiesce before it, began.
`image`: 0 none, 1 asked for and held, 2 being written. `notice`: a recall notice held while LEND runs its teardown (GSC at arrival,
TARGET). `secs`: 0 while the sink awaits the header, then 1 more than the sections applied; `restore` while a folio table is loaded
from it. `retried`: a zero write has failed once. -/
structure Lend where
  tear : Nat
  tearGen : Nat
  tearSince : Nat
  after : Nat
  restore : Bool
  sink : Bool
  sinkBuf : List Byte
  sinkOff : Nat
  target : Bool
  notice : Option (Nat × Bool)
  release : Bool
  image : Nat
  retried : Bool
  secs : Nat
  gscQuiesced : Nat
  risked : Bool
  zeroing : Bool
  oldGen : Nat
  deriving DecidableEq, Repr

def Lend.reset : Lend :=
  ⟨0, 0, 0, 0, false, false, [], 0, false, none, false, 0, false, 0, 0, false, false, 0⟩

/-- A digest round that has ended and awaits the message of rank - 1 (R472): its mark, its digests, whether it is torn, when it ended. -/
structure DigestRound where
  mark : Nat
  chip : DWord
  tiles : List DWord
  torn : Bool
  ended : Nat
  deriving DecidableEq, Repr

/-- The digest rounds (R469 to R472): the mark of the one that reads, the physical tiles still reading, whether it is torn; the rounds
that await their peer, the first to end first; the messages that rank - 1 sent ahead of a round's end. -/
structure Digest where
  mark : Nat
  reading : List Nat
  torn : Bool
  rounds : List DigestRound
  msgs : List (Nat × Nat × DWord × List DWord)
  deriving DecidableEq, Repr

/-- A migration or replacement in progress (R494, R497). `rot`: it is part of a rotation; `upd`: of a live update. -/
structure Migr where
  lt : Nat
  src : Nat
  dst : Nat
  repl : Bool
  rot : Bool
  upd : Bool
  pend : List Nat
  deriving DecidableEq, Repr

/-- A tile test in progress (R501, R502): the tile under test and which run it is. -/
structure TileTest where
  phys : Nat
  run : Nat
  deriving DecidableEq, Repr

/-- A reset domain (R518 to R526). `phase`: 0 running, 1 held, 2 isolated and collecting or waiting to, 3 cleared and not yet
admitted. `reported` is the stale count that the last STALE_GENERATION covered. -/
structure Dom where
  gen : Nat
  phase : Nat
  last : Option Nat
  collect : Bool
  cause : Nat
  entry : Option Nat
  reported : Nat
  image : Option FwImage
  timeouts : Nat
  deriving DecidableEq, Repr

/-- A domain that is running and was never reset: generation 0x01, as after power loss (R532). -/
def Dom.reset : Dom := ⟨1, 0, none, false, 0, none, 0, none, 0⟩

/-- A ledger record (R451, R473): its kind, its unit, the GSC count and its content. -/
structure LedgerRec where
  kind : Nat
  unit : Nat
  gsc : Nat
  data : List Nat
  deriving DecidableEq, Repr

/-- An entry of the measurement log (R545). -/
structure MrEntry where
  reg : Nat
  block : Nat
  version : Nat
  gsc : Nat
  digest : Nat
  deriving DecidableEq, Repr

/-- A wear monitor (R567, R568): today's sum and count, the daily sums and counts of the last 90 days, the last first. The keys are
8 p + j for a tile's path-delay monitors, 1000 + 9 f + l for a lane, 2000 + 64 s + c for a pseudo-channel, 3000 + r for a rail's use of
the day and 3100 + r for its use in all. -/
structure Wear where
  sum : Nat
  n : Nat
  days : List (Nat × Nat)
  deriving DecidableEq, Repr

def Wear.reset : Wear := ⟨0, 0, []⟩

/-- A message that the Eboth port has to send (R578, R579): its class and its fields. -/
structure EbMsg where
  cls : Nat
  mtype : Nat
  status : Nat
  tag : Nat
  a : Nat
  b : Nat
  body : List Byte
  deriving DecidableEq, Repr

/-- A request taken from the Eboth port and not yet answered (R582). -/
structure EbReq where
  msg : EbFrame
  since : Nat
  deriving DecidableEq, Repr

/-- The Eboth port (R573 to R589). `cred` are the credits held toward the control node for C1 to C4, `ret` those to return to
it. `sent` is the retry buffer with replay counts; `tags` the tag memory; `events` those not acknowledged; `mgcHeld` messages
held through an MGC reset with the GSC at arrival; `colo` the colophon requests that wait: the flue they came by, the tag, the nonce;
`hello`: the link has been UP since the port generation last changed; `line` the frame that left last. -/
structure Eboth where
  lseq : Nat
  rseq : Nat
  sent : List (EbFrame × Nat)
  replay : List EbFrame
  sendNak : Bool
  naked : Bool
  cred : List Nat
  ret : List Nat
  out : List EbMsg
  tags : List (Nat × EbMsg)
  reqs : List EbReq
  events : List (Nat × EbEvent)
  evSeq : Nat
  evLost : Nat
  lostQueued : Bool
  portGen : Nat
  downSince : Nat
  fails : Nat
  hello : Bool
  colo : List (Option Nat × Nat × BitVec 256)
  coloSeq : Nat
  mgcHeld : List (EbFrame × Nat)
  line : Option EbFrame
  deriving DecidableEq, Repr

def Eboth.reset : Eboth :=
  { lseq := 0, rseq := 0, sent := [], replay := [], sendNak := false, naked := false, cred := [0, 0, 0, 0],
    ret := [0, 0, 0, 0], out := [], tags := [], reqs := [], events := [], evSeq := 0, evLost := 0, lostQueued := false,
    portGen := 0, downSince := 0, fails := 0, hello := false, colo := [], coloSeq := 0, mgcHeld := [], line := none }

/-- The pins, SMBus and JTAG (R609 to R616). `stop` is the stop cause of R615, `lowTill` the GSC count at which RESET_N rises.
`smbOut` is the last SMBus block read's bytes, none for a NACK; `ir` the JTAG instruction, `dr` the identifier it last showed, `cells` the
boundary scan as loaded, `small` the ordering code's grade 56. -/
structure Pins where
  powerGood : Bool
  straps : BitVec 8
  stop : Nat
  lowTill : Nat
  smbAddr : Option (BitVec 40)
  smbOut : Option (List Byte)
  ir : BitVec 8
  dr : Nat
  cells : Nat
  small : Bool
  deriving DecidableEq, Repr

def Pins.reset : Pins := ⟨false, 0, 0, 0, none, none, 0x01, 0, 0, false⟩

/-- Why the machine stops. No command of this model raises one (NOTES.md, Stops): every command has the effect that the spec gives it. -/
inductive Fault
  /-- Raised by nothing; safe. -/
  | unused
  deriving DecidableEq, Repr

/-- Why a command is refused. -/
inductive Refusal
  /-- A command that has no meaning yet: raised by its arm in Machine/Dispatch.lean alone; safe. -/
  | notModelled (mnemonic : String)
  deriving DecidableEq, Repr

/-- The machine. Maps: `regs` by register key (Machine/RegMap.lean); `mem` by 40-bit device physical address, with `poison` by
address / 16; `engines` by 4 p + kind or 288 + c; `tiles` by physical tile; `ctxs` by context; `hbmStacks` by stack; `flues` by
flue; `ces` by engine; `doms` by domain; `slots` by neighbour slot (R344 state, expected device or 0, node); `tmap` logical to
1 + physical tile; `ptile` physical tile state (R492); `snapWaits` the engines that have timed out, each with the tag and PC of the wait
that did (R264, R265); `fw` running version and SVN by
256 * block type + unit; `fuses` anti-rollback counts; `timers` the GSC counts at which timed events last fell;
`classRep` the tiles that wait for the verdict of a repetition, as
128 * logical + physical; `classCmd` the classification command in progress (REC, logical tile); `perm` the physical tiles judged
permanent that still hold an index (R498, R499); `push` the lines of a mirror push not yet acknowledged and `pushBad` those refused;
`statReset` the domains that no period end has latched since their reset (R602); `mrPend` the digest of an extend of MR7 that is
running (R545). -/
structure State where
  pending : List Instr
  gsc : Nat
  freeCtr : Nat
  regs : SMap DWord
  mem : List Host.Cell
  poison : SMap Bool
  engines : SMap Engine
  tiles : SMap Tile
  ctxs : SMap BaCtx
  mark : StepMark
  snapNum : Nat
  snapWaits : List (Nat × Nat × Nat)
  tmap : SMap Nat
  ptile : SMap Nat
  ramp : Nat
  hbmStacks : SMap Stack
  lineQ : List LineReq
  folio : Folio
  touched : SMap Bool
  flues : SMap Flue
  router : Router
  slots : SMap (Nat × DWord × Nat)
  planned : Bool
  ces : SMap Ce
  clock : Clock
  lend : Lend
  digest : Digest
  classRep : List Nat
  classCmd : Option (Nat × Nat)
  perm : List Nat
  migr : Option Migr
  test : Option TileTest
  rotNext : Nat
  testDue : Bool
  bistDue : Bool
  push : List Nat
  pushNode : Nat
  pushBad : Nat
  doms : SMap Dom
  resetQ : List Nat
  update : Option (Nat × Nat)
  staged : Option FwImage
  checking : Option FwImage
  fw : SMap Nat
  images : List FwImage
  fuses : SMap Nat
  ledger : List LedgerRec
  testset : List Byte
  testbuf : List Byte
  mrlog : List MrEntry
  mrPend : Option (BitVec 256)
  lifetime : SMap Nat
  wear : SMap Wear
  rails : List (List Nat)
  railBad : List Nat
  energyRem : Nat
  warned : SMap Bool
  timers : SMap Nat
  statReset : SMap Bool
  eb : Eboth
  pins : Pins
  deriving DecidableEq, Repr

/-- The machine after reset: power not yet good, kindling not begun, every register at its table's reset value (an unlisted key). -/
def State.reset : State :=
  { pending := [], gsc := 0, freeCtr := 0, regs := [], mem := [], poison := [], engines := [], tiles := [], ctxs := [],
    mark := ⟨0, 0, [], [], 0, []⟩, snapNum := 0, snapWaits := [], tmap := [], ptile := [], ramp := 0, hbmStacks := [],
    lineQ := [], folio := .reset, touched := [], flues := [], router := .reset, slots := [], planned := false, ces := [],
    clock := ⟨[], 0, 0, 0, true, 0, 0, false, none, 0⟩, lend := .reset, digest := ⟨0, [], false, [], []⟩, classRep := [], classCmd := none, perm := [], migr := none,
    test := none, rotNext := 0, testDue := false, bistDue := false, push := [], pushNode := 0, pushBad := 0, doms := [], resetQ := [],
    update := none, staged := none, checking := none, fw := [], images := [], fuses := [], ledger := [], testset := [],
    testbuf := [], mrlog := [], mrPend := none, lifetime := [], wear := [], rails := [], railBad := [], energyRem := 0, warned := [],
    timers := [], statReset := [], eb := .reset, pins := .reset }

end Sys2Proof.Machine
end

