-- ==== Sys2Proof/Machine/Ops.lean ====
section
/-! DEFINITION. The named operations over the state: registers, engines, tiles, memory, packets, records and events.
Every meaning is written over these; each has its lemma in Laws. -/
namespace Sys2Proof.Machine

/-! Registers. A field is read and written in its register's home in `regs`. -/

/-- The value of the register at a key. -/
def regGet (s : State) (k : Nat) : DWord := mapGet regDefault s.regs k

/-- Set the register at a key. -/
def regSet (s : State) (k : Nat) (v : DWord) : State := { s with regs := mapSet regDefault s.regs k v }

/-- The key of element `i` of a field's register in block `b`, instance `inst`. -/
def fldKey (b : Nat) (f : Fld) (inst i : Nat) : Nat := regKey b inst (f.off + i * f.stride)

/-- A field of element `i`, in block `b` (for the fields of block 0, which every page or engine page has). -/
def rdF (s : State) (b : Nat) (f : Fld) (inst i : Nat) : Nat := bits (regGet s (fldKey b f inst i)).toNat f.lo f.len

/-- Write a field of element `i` in block `b`. -/
def wrF (s : State) (b : Nat) (f : Fld) (inst i v : Nat) : State :=
  regSet s (fldKey b f inst i) (BitVec.ofNat 64 (putBits (regGet s (fldKey b f inst i)).toNat f.lo f.len v))

def getF (s : State) (f : Fld) (inst : Nat) : Nat := rdF s f.blk f inst 0
def setF (s : State) (f : Fld) (inst v : Nat) : State := wrF s f.blk f inst 0 v
def getFi (s : State) (f : Fld) (inst i : Nat) : Nat := rdF s f.blk f inst i
def setFi (s : State) (f : Fld) (inst i v : Nat) : State := wrF s f.blk f inst i v

/-- A one-bit field as a Bool. -/
def flagF (s : State) (f : Fld) (inst : Nat) : Bool := getF s f inst == 1

/-- Add to a counter field, saturating at its width. -/
def addF (s : State) (f : Fld) (inst n : Nat) : State := setF s f inst (satAdd f.len (getF s f inst) n)

/-- Add to a live statistics counter of 64 bits. -/
def addStat (s : State) (f : Fld) (inst n : Nat) : State := setF s f inst ((getF s f inst + n) % 2 ^ 64)

/-! Engines and tiles. -/

/-- An engine's key in `engines`. -/
def engIdx : Eng → Nat
  | .tile p .mx => 4 * p.val
  | .tile p .vx => 4 * p.val + 1
  | .tile p .dm => 4 * p.val + 2
  | .tile p .sy => 4 * p.val + 3
  | .ce c => 288 + c.val

/-- The engine of a key, for keys 0 to 291. -/
def engOf (i : Nat) : Eng :=
  if i < 288 then
    .tile (Fin.ofNat 72 (i / 4)) (match i % 4 with | 0 => .mx | 1 => .vx | 2 => .dm | _ => .sy)
  else .ce (Fin.ofNat 4 (i - 288))

/-- The register block of an engine's page (R593). -/
def engBlk : Eng → Nat
  | .tile _ .mx => 3 | .tile _ .vx => 4 | .tile _ .dm => 5 | .tile _ .sy => 6 | .ce _ => 8

/-- The instance of an engine's page. -/
def engInst : Eng → Nat
  | .tile p _ => p.val
  | .ce c => c.val

/-- The engine class of records and instructions (R198, R228). -/
def engClass : Eng → Nat
  | .tile _ .mx => 1 | .tile _ .vx => 2 | .tile _ .dm => 3 | .tile _ .sy => 4 | .ce _ => 5

def getEng (s : State) (e : Eng) : Engine := mapGet (fun _ => Engine.reset) s.engines (engIdx e)
def setEng (s : State) (e : Eng) (x : Engine) : State :=
  { s with engines := mapSet (fun _ => Engine.reset) s.engines (engIdx e) x }
def modEng (s : State) (e : Eng) (f : Engine → Engine) : State := setEng s e (f (getEng s e))

/-- A program control field of an engine's page. -/
def getP (s : State) (e : Eng) (f : Fld) : Nat := rdF s (engBlk e) f (engInst e) 0
def setP (s : State) (e : Eng) (f : Fld) (v : Nat) : State := wrF s (engBlk e) f (engInst e) 0 v

/-- General register n of an engine (R235), 64 bits. -/
def getG (s : State) (e : Eng) (n : Nat) : DWord := regGet s (regKey (engBlk e) (engInst e) (0x200 + 8 * n))
def setG (s : State) (e : Eng) (n : Nat) (v : DWord) : State := regSet s (regKey (engBlk e) (engInst e) (0x200 + 8 * n)) v

def getTile (s : State) (p : Nat) : Tile := mapGet (fun _ => Tile.reset) s.tiles p
def setTile (s : State) (p : Nat) (t : Tile) : State := { s with tiles := mapSet (fun _ => Tile.reset) s.tiles p t }
def modTile (s : State) (p : Nat) (f : Tile → Tile) : State := setTile s p (f (getTile s p))

/-- The physical tile that holds a logical index, if present (R492). -/
def physOf (s : State) (l : Nat) : Option Nat :=
  match mapGet (fun _ => 0) s.tmap l with
  | 0 => none
  | p + 1 => some p

/-- The logical index that a physical tile holds (R492). -/
def logOf (s : State) (p : Nat) : Option Nat := (s.tmap.find? (fun kv => kv.2 == p + 1)).map (·.1)

/-- The state of a physical tile (R492). -/
def ptileOf (s : State) (p : Nat) : Nat := mapGet (fun _ => 0) s.ptile p

/-- The physical tile of an engine's home: a tile engine's own tile; a collective engine's CE_CFG.HOME (R387). -/
def homeOf (s : State) : Eng → Option Nat
  | .tile p _ => some p.val
  | .ce c => physOf s (getF s CE_CFG_HOME c.val)

/-- The UNIT of an engine's records (R228); a physical tile that holds no logical index shows 0xFF (log entry 20). -/
def engUnit (s : State) : Eng → Nat
  | .tile p _ => (logOf s p.val).getD 0xFF
  | .ce c => 0x40 + c.val

/-- The PHYS of an engine's records (R228). -/
def engPhys : Eng → Nat
  | .tile p _ => p.val
  | .ce _ => 0xFF

/-! Other maps. -/

def getCtx (s : State) (c : Nat) : BaCtx := mapGet (fun _ => BaCtx.reset) s.ctxs c
def setCtx (s : State) (c : Nat) (x : BaCtx) : State := { s with ctxs := mapSet (fun _ => BaCtx.reset) s.ctxs c x }
def getStack (s : State) (i : Nat) : Stack := mapGet (fun _ => Stack.reset) s.hbmStacks i
def setStack (s : State) (i : Nat) (x : Stack) : State := { s with hbmStacks := mapSet (fun _ => Stack.reset) s.hbmStacks i x }
def getFlue (s : State) (f : Nat) : Flue := mapGet (fun _ => Flue.reset) s.flues f
def setFlue (s : State) (f : Nat) (x : Flue) : State := { s with flues := mapSet (fun _ => Flue.reset) s.flues f x }
def getCe (s : State) (c : Nat) : Ce := mapGet (fun _ => Ce.reset) s.ces c
def setCe (s : State) (c : Nat) (x : Ce) : State := { s with ces := mapSet (fun _ => Ce.reset) s.ces c x }
def getDom (s : State) (d : Nat) : Dom := mapGet (fun _ => Dom.reset) s.doms d
def setDom (s : State) (d : Nat) (x : Dom) : State := { s with doms := mapSet (fun _ => Dom.reset) s.doms d x }
def getFrame (s : State) (n : Nat) : Frame := mapGet (fun _ => Frame.reset) s.folio.frames n
def setFrame (s : State) (n : Nat) (x : Frame) : State :=
  { s with folio := { s.folio with frames := mapSet (fun _ => Frame.reset) s.folio.frames n x } }
def getTimer (s : State) (k : Nat) : Nat := mapGet (fun _ => 0) s.timers k
def setTimer (s : State) (k v : Nat) : State := { s with timers := mapSet (fun _ => 0) s.timers k v }

/-- The neighbour state of a slot (R344), with the device it expects and its node. -/
def getSlot (s : State) (i : Nat) : Nat × DWord × Nat := mapGet (fun _ => (0, 0, 0)) s.slots i
def setSlot (s : State) (i : Nat) (x : Nat × DWord × Nat) : State := { s with slots := mapSet (fun _ => (0, 0, 0)) s.slots i x }

/-- Time passes: `dt` GSC counts, slewed by at most 100 ppm (R422, R424). -/
def advance (s : State) (dt : Nat) : State :=
  { s with gsc := (s.gsc + dt + ((dt : Int) * s.clock.slew / 1000000).toNat
      - ((dt : Int) * (-s.clock.slew) / 1000000).toNat) % 2 ^ 64 }

/-- A fresh free value, and the counter moved on (log entry 4). -/
def freshWord (s : State) : DWord × State := (Config.freeWord s.freeCtr, { s with freeCtr := s.freeCtr + 1 })

/-- Free values in place of the values of these bytes; their poison marks stay (R8, log entry 4). -/
def freshBytes (s : State) (bs : List PByte) : List PByte × State :=
  (bs.zipIdx.map (fun x => { x.1 with b := BitVec.ofNat 8 ((Config.freeWord (s.freeCtr + x.2 / 8)).toNat / 2 ^ (8 * (x.2 % 8))) })
   , { s with freeCtr := s.freeCtr + (bs.length + 7) / 8 })

/-! Memory. One byte map over device physical addresses; poison by 16-byte word. -/

def memByte (s : State) (a : Nat) : Byte := mapGet (fun _ => 0) s.mem a
def isBad (s : State) (a : Nat) : Bool := mapGet (fun _ => false) s.poison (a / 16)

/-- `n` bytes from an address, each with the poison mark of its word (R459). -/
def readBytes (s : State) (a n : Nat) : List PByte :=
  (List.range n).map (fun i => ⟨memByte s (a + i), isBad s (a + i)⟩)

/-- Store bytes from an address on, in the byte map alone. -/
def pokeBytes (m : SMap Byte) : Nat → List PByte → SMap Byte
  | _, [] => m
  | a, b :: r => pokeBytes (mapSet (fun _ => 0) m a b.b) (a + 1) r

/-- The poison of word `w` after `n` bytes at `a` are written (R127, R459): a word written whole takes the poison of the bytes
written; a word written in part keeps its own and takes theirs. -/
def wordPoison (s : State) (a : Nat) (bs : List PByte) (w : Nat) : Bool :=
  let inw := (bs.drop (16 * w - a)).take (min (a + bs.length) (16 * w + 16) - max a (16 * w))
  let new := inw.any (·.bad)
  if inw.length = 16 then new else new || mapGet (fun _ => false) s.poison w

/-- The words that `n` bytes at `a` touch. -/
def wordsOf (a n : Nat) : List Nat := (List.range ((a + n + 15) / 16 - a / 16)).map (· + a / 16)

/-- Write bytes at an address (R127). -/
def writeBytes (s : State) (a : Nat) (bs : List PByte) : State :=
  if bs.isEmpty then s else
  { s with
    mem := pokeBytes s.mem a bs
    poison := (wordsOf a bs.length).foldl (fun m w => mapSet (fun _ => false) m w (wordPoison s a bs w)) s.poison }

/-- Mark the word at an address poisoned. -/
def poisonWord (s : State) (a : Nat) : State := { s with poison := mapSet (fun _ => false) s.poison (a / 16) true }

/-- Zero every byte in [lo, hi) and clear the poison of its words (R449: writes of whole words). -/
def zeroRange (s : State) (lo hi : Nat) : State :=
  { s with mem := mapDrop (fun a => lo ≤ a && a < hi) s.mem
           poison := mapDrop (fun w => lo ≤ 16 * w && 16 * w < hi) s.poison }

/-- A good byte string. -/
def good (bs : List Byte) : List PByte := bs.map (fun b => ⟨b, false⟩)

/-- A little-endian number read from memory. -/
def readNat (s : State) (a n : Nat) : Nat := ofBytes ((readBytes s a n).map (·.b))
def writeNat (s : State) (a n v : Nat) : State := writeBytes s a (good (bytesOf n v))

/-- R129: the device address of a tile store byte. -/
def tsAddr (p a : Nat) : Nat := 0xF100000000 + p * 0x400000 + a

/-- R203: the device address of an engine's instruction memory, and its size in instructions. -/
def imemBase : Eng → Nat
  | .tile p .mx => 0xF200000000 + p.val * 0x40000
  | .tile p .vx => 0xF200000000 + p.val * 0x40000 + 0x10000
  | .tile p .dm => 0xF200000000 + p.val * 0x40000 + 0x20000
  | .tile p .sy => 0xF200000000 + p.val * 0x40000 + 0x30000
  | .ce c => 0xF202000000 + c.val * 0x10000

def imemSize : Eng → Nat
  | .tile _ .vx => 4096
  | .tile _ .sy => 1024
  | _ => 2048

/-! Records, events and interrupts. -/

/-- The 32 bytes of a fault record (R228). -/
def recBytes (r : FaultRec) : List Byte :=
  bytesOf 2 r.code ++ bytesOf 1 r.unit ++ bytesOf 1 r.engine ++ bytesOf 2 r.tag ++ bytesOf 2 r.pc ++ bytesOf 8 r.gsc
    ++ bytesOf 1 r.gen ++ bytesOf 1 r.phys ++ bytesOf 5 r.addr ++ bytesOf 1 r.space ++ bytesOf 8 r.detail

/-- Hand a message to the Eboth port (R578). -/
def ebOut (s : State) (m : EbMsg) : State := { s with eb := { s.eb with out := s.eb.out ++ [m] } }

/-- R579, R581: the EVENT message of an event. -/
def eventMsg (seq : Nat) (ev : EbEvent) : EbMsg :=
  match ev with
  | .fault r => ⟨1, 0x46, 0, 0, seq, 0, recBytes r⟩
  | .lending code => ⟨1, 0x46, 0, 0, seq, 1, bytesOf 32 code⟩
  | .restore vpn => ⟨1, 0x46, 0, 0, seq, 2, bytesOf 32 vpn⟩

/-- Put an event at the end of the queue, with the next sequence number (R581). -/
def putEvent (s : State) (ev : EbEvent) : State :=
  ebOut { s with eb := { s.eb with events := s.eb.events ++ [(s.eb.evSeq, ev)], evSeq := (s.eb.evSeq + 1) % 2 ^ 64 } }
    (eventMsg s.eb.evSeq ev)

/-- A record of the MGC: UNIT 0x4A, ENGINE and TAG 0 (R453, R514, R535). -/
def mgcRec (s : State) (code phys detail : Nat) : FaultRec :=
  ⟨code, 0x4A, 0, 0, 0, s.gsc, getF s RT_JOB_GEN_GEN 0, phys, 0, 0, detail⟩

/-- R581: deliver an event. A fault record that finds all but the 256 reserved entries full is dropped and counted, and one
EBOTH_EVENTS_LOST record takes a reserved entry until it is acknowledged. -/
def pushEvent (s : State) (ev : EbEvent) : State :=
  match ev with
  | .fault _ =>
    if s.eb.events.length < 3840 then putEvent s ev
    else
      let s := addF s EB_EV_LOST 0 1
      if s.eb.lostQueued then { s with eb := { s.eb with evLost := s.eb.evLost + 1 } }
      else
        let s := putEvent s (.fault (mgcRec s 0x1103 0xFF (s.eb.evLost + 1)))
        { s with eb := { s.eb with lostQueued := true, evLost := 0 } }
  | _ => putEvent s ev

/-- Write a record into the ash record's fault ring (R529, R530). -/
def ashFault (s : State) (r : FaultRec) : State :=
  let n := readNat s 0xF50000001C 4
  let i := bits n 0 15 % 30720
  let s := writeBytes s (0xF500010000 + 32 * i) (good (recBytes r))
  let i' := (i + 1) % 30720
  writeNat s 0xF50000001C 4 (i' + (if i' = 0 ∨ bit n 31 then 2 ^ 31 else 0))

/-- R601: a block raises a record: ERR_LOG holds its code and time, and IRQ_STATUS.FAULT is set. -/
def logErr (s : State) (b inst code : Nat) : State :=
  let s := wrF s b H_ERR_LOG_CODE inst 0 code
  let s := wrF s b H_ERR_LOG_COUNT inst 0 (satAdd 8 (rdF s b H_ERR_LOG_COUNT inst 0) 1)
  let s := wrF s b H_ERR_LOG_VALID inst 0 1
  let s := wrF s b H_ERR_LOG_GSC inst 0 (bits s.gsc 10 32)
  wrF s b H_IRQ_STATUS_FAULT inst 0 1

/-- Raise a record from a block: the event, the fault ring and the block's header (R228, R601). -/
def raise (s : State) (b inst : Nat) (r : FaultRec) : State :=
  logErr (ashFault (pushEvent s (.fault r)) r) b inst r.code

/-- Raise a record of the MGC. -/
def raiseMgc (s : State) (code detail : Nat) : State := raise s 1 0 (mgcRec s code 0xFF detail)

/-- A record of the MGC that concerns a physical tile. -/
def raiseMgcTile (s : State) (code phys detail : Nat) : State := raise s 1 0 (mgcRec s code phys detail)

/-- R4, R5: the MGC rejects a driver command that names logical tile `l`, missing from the map (log entry 123). -/
def absentCmd (s : State) (l : Nat) : State := raiseMgc s 0x0101 l

/-! Packets. -/

/-- A packet with every field zero. -/
def Packet.zero : Packet :=
  ⟨0, 0, 0, 0, 0, false, false, false, false, 0, 0, 0, false, 0, false, 0, 0, 0, 0, 0, 0, 0, 0, []⟩

/-- The GW7's own node ID. -/
def nodeId (s : State) : Nat := getF s RT_NODE_NODE 0

/-- An endpoint ID (R357): the node in [23:8], the local endpoint in [7:0]. -/
def epId (node ep : Nat) : BitVec 24 := BitVec.ofNat 24 (node * 256 + ep)
def epNode (e : BitVec 24) : Nat := e.toNat / 256
def epLocal (e : BitVec 24) : Nat := e.toNat % 256

/-- The current job generation (R434). -/
def jobGen (s : State) : Nat := getF s RT_JOB_GEN_GEN 0

/-- Hand a packet to the router (R365). -/
def sendPkt (s : State) (p : Packet) : State := { s with router := { s.router with inject := s.router.inject ++ [p] } }

/-- Whether a packet waits at a local endpoint; the packet's row takes it from there. -/
def hasArrived (s : State) (p : Packet) : Bool := s.router.arrived.contains p
def takeArrived (s : State) (p : Packet) : State := { s with router := { s.router with arrived := s.router.arrived.erase p } }

/-! Whether a domain may be used. -/

/-- The domain's pages and endpoints are isolated (R523 steps 1 to 4); a whole-chip reset isolates every domain. -/
def isolated (s : State) (d : Nat) : Bool := 2 ≤ (getDom s d).phase || 2 ≤ (getDom s 103).phase

/-- The domain of an engine (R518). -/
def engDom : Eng → Nat
  | .tile p _ => p.val
  | .ce c => 96 + c.val

/-- What a command answers. -/
abbrev Out := Host.Outcome State Fault Refusal

/-- R592: the units of a page are absent: a FUSED or RETIRED tile, or a block type without a valid image (kept in `fw` at unit 255). -/
def blkAbsent (s : State) (b inst : Nat) : Bool :=
  mapGet (fun _ => 0) s.fw (256 * b + 255) == 1
    || ((2 ≤ b && b ≤ 6) && (ptileOf s inst == 5 || ptileOf s inst == 4))

/-- R593: the reset domain of a page. -/
def pageDomain (b inst : Nat) : Nat :=
  match b with
  | 1 => 102 | 2 => inst | 3 => inst | 4 => inst | 5 => inst | 6 => inst | 7 => 101 | 8 => 96 + inst | 10 => 78 + inst
  | 11 => if inst < 6 then 72 + inst else 103
  | 12 => 100 | _ => 103

/-- R592, R599: a write reaches the page: its unit is present and its domain is not isolated. -/
def pageUp (s : State) (b inst : Nat) : Bool := !blkAbsent s b inst && !isolated s (pageDomain b inst)

/-- A driver command to a page takes effect only if the page is up. -/
def onPage (s : State) (b inst : Nat) (f : State → State) : State := if pageUp s b inst then f s else s

/-- A driver command to an engine's page. -/
def onEng (s : State) (e : Eng) (f : State → State) : State := onPage s (engBlk e) (engInst e) f

/-- R551: one more in a lifetime count. -/
def bumpLife (s : State) (i : Nat) : State :=
  { s with lifetime := mapSet (fun _ => 0) s.lifetime i (satAdd 32 (mapGet (fun _ => 0) s.lifetime i) 1) }

/-- R567: one sample of a wear monitor. -/
def addWear (s : State) (k v : Nat) : State :=
  { s with wear := mapMod (fun _ => Wear.reset) s.wear k (fun w => { w with sum := w.sum + v, n := w.n + 1 }) }

/-! GSC timers of single rows, by key in `timers`. -/

def tmRamp : Nat := 0
def tmHold : Nat := 1
def tmGscX : Nat := 2
def tmPps : Nat := 3
def tmPeriod : Nat := 4
def tmRail : Nat := 5
def tmTemp : Nat := 6
def tmTherm : Nat := 7
def tmThermDn : Nat := 8
def tmCapUp : Nat := 9
def tmCapDn : Nat := 10
def tmEff : Nat := 11
def tmPath : Nat := 12
def tmAge : Nat := 13
def tmKick : Nat := 14
def tmExpire : Nat := 15
def tmRot : Nat := 16
def tmRisk : Nat := 17
def tmEbLos : Nat := 18
def tmHcSweep (i : Nat) : Nat := 20 + i
def tmPause : Nat := 30
def tmRamp0 : Nat := 31
def tmImage : Nat := 32
def tmMark : Nat := 33
def tmMcSweep (i : Nat) : Nat := 40 + i
def tmDom (d : Nat) : Nat := 100 + d
def tmStale (d : Nat) : Nat := 300 + d
def tmLine (c : Nat) : Nat := 500 + c
def tmAccess (d : Nat) : Nat := 600 + d

/-- The presets of the straps, which the whole-chip reset keeps with the pins (R340). -/
def applyStraps (s : State) : State :=
  (List.range 18).foldl (fun s f => setF (setF s FL_CFG_PRESET f (bits s.pins.straps.toNat 0 2)) FL_CFG_WBYPASS f (bits s.pins.straps.toNat 2 1)) s

/-! Packets of this GW7. -/

/-- R359: the VC pair of a packet type, class A. -/
def vcOf (typ : Nat) : BitVec 3 := if typ ≤ 6 then 0 else if typ ≤ 10 then 2 else 4

/-- R358: a request that an endpoint of this GW7 injects. -/
def request (s : State) (ep typ : Nat) (dst : BitVec 24) (tid pseq : Nat) : Packet :=
  { Packet.zero with
    dst := dst, src := epId (nodeId s) ep, gen := if typ = 5 ∨ typ = 6 then 0 else BitVec.ofNat 8 (jobGen s)
    edn := BitVec.ofNat 1 (getF s RT_EDITION_INJECT 0), vc := vcOf typ, tid := BitVec.ofNat 16 tid, pseq := BitVec.ofNat 16 pseq
    typ := BitVec.ofNat 4 typ }

/-- R358, R359, R521: the reply to a request: to its sender, with its GEN, TID, PSEQ and ADDR. -/
def reply (s : State) (p : Packet) (typ : Nat) (payload : List PByte) : Packet :=
  { Packet.zero with
    dst := p.src, src := epId (nodeId s) (epLocal p.dst), gen := p.gen, edn := BitVec.ofNat 1 (getF s RT_EDITION_INJECT 0)
    vc := vcOf typ, tid := p.tid, pseq := p.pseq, typ := BitVec.ofNat 4 typ, addr := p.addr, rctr := p.rctr
    last := p.last, payload := payload, len := BitVec.ofNat 9 payload.length, poison := payload.any (·.bad) }

/-- R359: an acknowledgement, and a refusal that carries a code. -/
def sendAck (s : State) (p : Packet) : State := sendPkt s (reply s p 7 [])
def sendNack (s : State) (p : Packet) (code : Nat) : State := sendPkt s (reply s p 9 (good (bytesOf 2 code)))

/-! Rings of the collective engines (R384, R386, R393). -/

def ceSize (s : State) (c : Nat) : Nat := getF s CE_RING_SIZEM1 c + 1
def ceRank (s : State) (c : Nat) : Nat := getF s CE_RING_RANK c
def ceWrap (s : State) (c : Nat) : Bool := flagF s CE_RING_WRAP c
def ceNode (s : State) (c k : Nat) : Nat := getFi s CE_NODE_NODE c k

/-- The rank of a node on the ring of engine `c`. -/
def rankOf (s : State) (c node : Nat) : Option Nat := (List.range (ceSize s c)).find? (fun k => ceNode s c k == node)

/-- R393: the spans of a multicast of rank r. -/
def ceSpan (s : State) (c : Nat) : Nat × Nat :=
  let l := ceSize s c
  let r := ceRank s c
  if ceWrap s c then ((l - 1) / 2, l - 1 - (l - 1) / 2) else (l - 1 - r, r)

/-- R398: a packet of a collective engine. -/
def cePacket (s : State) (c kind opnum pseq addr : Nat) (rank : Nat) (payload : List PByte) : Packet :=
  { request s (0x40 + c) 11 (epId (ceNode s c rank) (0x40 + c)) (kind + 16 * (opnum % 4096)) pseq with
    addr := BitVec.ofNat 40 addr, payload := payload, len := BitVec.ofNat 9 payload.length, poison := payload.any (·.bad), last := false }

end Sys2Proof.Machine
end

