-- ==== Sys2Proof/Machine/Operands.lean ====
section
/-! DEFINITION. The operand forms: fields of an instruction word (R197), address words of a space (R130), shapes and strides
(R131), and the encoding checks that every class shares (R202, R232). -/
namespace Sys2Proof.Machine

/-- A field of an instruction word. -/
def ifld (w : IWord) (lo len : Nat) : Nat := bits w.toNat lo len
def ibit (w : IWord) (i : Nat) : Bool := bit w.toNat i

def iOp (w : IWord) : Nat := ifld w 120 8
def iCls (w : IWord) : Nat := ifld w 116 4
def iV (w : IWord) : Bool := ibit w 115
def iW (w : IWord) : Bool := ibit w 114
def iS (w : IWord) : Bool := ibit w 113
def iT (w : IWord) : Bool := ibit w 112
def iTag (w : IWord) : Nat := ifld w 96 16
def iWctr (w : IWord) : Nat := ifld w 88 8
def iSctr (w : IWord) : Nat := ifld w 80 8

/-- R201: the counter an instruction signals when it completes. -/
def iSig (w : IWord) : Option Nat := if iS w then some (iSctr w) else none

/-- R202: a counter number stands without its flag. -/
def flagBad (w : IWord) : Bool := (!iW w && iWctr w != 0) || (!iS w && iSctr w != 0)

/-- R202: a nonzero bit in one of the reserved fields (low bit, length). -/
def rsvBad (w : IWord) (rsv : List (Nat × Nat)) : Bool := rsv.any (fun r => ifld w r.1 r.2 != 0)

/-- What is kept of an instruction that signals later. -/
def doneOf (w : IWord) (pc : Nat) : Done := ⟨iSig w, iTag w, pc, iV w, iT w⟩

/-- Signed 32-bit part of a stride register (R131). -/
def stride1 (v : DWord) : Int := sext 32 v.toNat
def stride2 (v : DWord) : Int := sext 32 (v.toNat / 2 ^ 32)

/-- R130: an address word is badly formed for its space. -/
def spaceBad (sp : Nat) (a : DWord) : Bool :=
  let v := a.toNat
  match sp with
  | 0 => v / 2 ^ 22 != 0
  | 1 => v / 2 ^ 40 != 0
  | 2 => bits v 22 18 != 0 || 0x40 ≤ bits v 40 8 || bits v 48 16 != 0
  | 3 => !(bits v 40 8 < 0x40 || bits v 40 8 == 0x48)
  | _ => true

/-- R130: an address within its space; a word of space 3 may lie past a tile's store, which R151 judges. -/
def spaceOff (sp : Nat) (a : DWord) : Nat := if sp = 0 ∨ sp = 2 then bits a.toNat 0 22 else bits a.toNat 0 40

/-- Two spans, as first byte and length, share a byte. -/
def spansMeet (x y : Nat × Nat) : Bool := x.1 < y.1 + y.2 && y.1 < x.1 + x.2

end Sys2Proof.Machine
end

