-- ==== Sys2Proof/Machine/Program.lean ====
section
/-! DEFINITION. Engine programs (chapter 06): fetch, program states, driver commands, faults, traces, and the counters and waits
(chapter 07) that every engine's instructions share. -/
namespace Sys2Proof.Machine

/-- The lending state (R431). -/
def lendState (s : State) : Nat := getF s MG_LEND_STATUS_STATE 0

/-- R208: the next instruction to issue: the front of the queue, or the next to fetch. -/
def enginePc (g : Engine) : Nat := match g.queue with
  | q :: _ => q.idx
  | [] => g.fetchPc

/-- R229, R230: write a trace record. A collective engine has no trace buffer. -/
def traceEv (s : State) (e : Eng) (t : Bool) (tag pc ev detail : Nat) : State :=
  match e with
  | .ce _ => s
  | .tile p _ =>
    if t && flagF s TL_TRACE_CTL_EN p.val then
      let n := getF s TL_TRACE_HEAD_NEXT p.val
      let r : BitVec 128 := BitVec.ofNat 128
        (s.gsc % 2 ^ 64 + 2 ^ 64 * (tag % 2 ^ 16) + 2 ^ 80 * (engClass e + 16 * ev) + 2 ^ 96 * (pc % 2 ^ 16) + 2 ^ 112 * (detail % 2 ^ 16))
      let s := modTile s p.val (fun x => { x with trace := mapSet (fun _ => 0) x.trace n r })
      let s := setF s TL_TRACE_HEAD_NEXT p.val ((n + 1) % 1024)
      if n = 1023 then setF s TL_TRACE_HEAD_WRAP p.val 1 else s
    else s

/-- R231: of the trace records that one command writes in a tile's buffer, which the model takes to fall in one CCLK cycle, the first
four stand; the rest are dropped and counted (log entry 106). -/
def traceCap (before s : State) (p : Nat) : State :=
  let a := getF before TL_TRACE_HEAD_NEXT p
  let n := (getF s TL_TRACE_HEAD_NEXT p + 1024 - a) % 1024
  if n ≤ 4 then s
  else
    let old := (getTile before p).trace
    let s := modTile s p (fun t => { t with trace := ((List.range n).drop 4).foldl (fun m i =>
      mapSet (fun _ => 0) m ((a + i) % 1024) (mapGet (fun _ => 0) old ((a + i) % 1024))) t.trace })
    let s := setF s TL_TRACE_HEAD_NEXT p ((a + 4) % 1024)
    let s := if a + 4 < 1024 then setF s TL_TRACE_HEAD_WRAP p (getF before TL_TRACE_HEAD_WRAP p) else s
    addF s TL_TRACE_LOST p (n - 4)

/-- R231 over every tile: for a command whose records may fall in many. -/
def traceCaps (before s : State) : State := (List.range 72).foldl (traceCap before) s

/-- The last-fault register of an engine's page, and the sync and barrier units' for their codes (R117, R156, R195, R268, R269, R415). -/
def setLastFault (s : State) (e : Eng) (code tag : Nat) : State :=
  let s := match e with
    | .tile p .mx => setF (setF s MX_LAST_FAULT_CODE p.val code) MX_LAST_FAULT_TAG p.val tag
    | .tile p .vx => setF (setF s VX_LAST_FAULT_CODE p.val code) VX_LAST_FAULT_TAG p.val tag
    | .tile p .dm => setF (setF s DM_LAST_FAULT_CODE p.val code) DM_LAST_FAULT_TAG p.val tag
    | .tile _ .sy => s
    | .ce c => setF (setF s CE_LAST_FAULT_CODE c.val code) CE_LAST_FAULT_TAG c.val tag
  let s := match e with
    | .tile p k => if k = .sy ∨ code / 256 = 2 then setF (setF s SY_LAST_FAULT_CODE p.val code) SY_LAST_FAULT_TAG p.val tag else s
    | .ce _ => s
  if code = 0x0202 ∨ code = 0x0205 ∨ code = 0x0208 then setF (setF s BA_LAST_FAULT_CODE 0 code) BA_LAST_FAULT_TAG 0 tag else s

/-- Steps of one half of a reduction; the steps of the - half are numbered on from those of the + half (log entry 45). -/
def ceSteps (o : CeOp) (l : Nat) : Nat :=
  if o.op = 0xA0 then (if o.alg then 2 else 2 * (l - 1)) else if o.op = 0xA1 then (if o.alg then 1 else l - 1) else 0

/-- R400: the ring direction of a piece from rank k at a step, + or -: that of the neighbour it comes from; on a ring of two, and from a
rank that is no neighbour, that of its half or of the transfer (log entry 47). -/
def ceInDir (s : State) (c k step : Nat) : Bool :=
  let l := ceSize s c
  let r := ceRank s c
  if l ≠ 2 ∧ k = (r + l - 1) % l then true
  else if l ≠ 2 ∧ k = (r + 1) % l then false
  else match (getCe s c).op with
    | some o => if o.op = 0xA0 ∨ o.op = 0xA1 then decide (step < ceSteps o l) else !o.dir
    | none => true

/-- The receive-buffer slot that a packet takes: its sender's rank and the direction; a multicast and a packet that is no piece take none. -/
def ceSlotOf (s : State) (c : Nat) (pkt : Packet) : Option (Nat × Bool) :=
  let k := bits pkt.addr.toNat 24 6
  if pkt.mc || 2 ≤ pkt.tid.toNat % 16 then none else some (k, ceInDir s c k (pkt.addr.toNat % 4096))

/-- A slot is free again: its credit goes back to the rank that used it. -/
def ceFreeSlot (s : State) (c : Nat) (x : Option (Nat × Bool)) : State :=
  let l := ceSize s c
  let r := ceRank s c
  let e := getCe s c
  match x with
  | none => s
  | some (k, true) => if k = (r + l - 1) % l then setCe s c { e with freedP := e.freedP + 1 } else setCe s c { e with freedFar := e.freedFar ++ [(k, true)] }
  | some (k, false) => if k = (r + 1) % l then setCe s c { e with freedM := e.freedM + 1 } else setCe s c { e with freedFar := e.freedFar ++ [(k, false)] }

/-- The slot that a packet takes is free again. -/
def ceFree (s : State) (c : Nat) (pkt : Packet) : State := ceFreeSlot s c (ceSlotOf s c pkt)

/-- R400: freed slots are returned to the ranks that send into them. Bit 0 of the step of a credit packet is 1 for the - direction where
the sender's rank does not tell it (log entry 48). -/
def ceFlush (s : State) (c : Nat) : State :=
  let l := ceSize s c
  let r := ceRank s c
  let x := getCe s c
  let s := setCe s c { x with freedP := 0, freedM := 0, freedFar := [] }
  if l = 1 then s
  else
    let one (s : State) (n k step : Nat) : State := if n = 0 then s else sendPkt s (cePacket s c 3 x.opnum n (step + 2 ^ 24 * r) k [])
    let s := one (one s x.freedP ((r + l - 1) % l) 0) x.freedM ((r + 1) % l) (if l = 2 then 1 else 0)
    x.freedFar.foldl (fun s f => one s 1 f.1 (b2n (!f.2))) s

/-- What an engine stops when it faults: the mover's descriptors signal nothing more (R149); a collective engine's operation ends
and it returns the credits of what its receive buffer held (R410). -/
def stopWork (s : State) : Eng → State
  | .tile p .dm => modTile s p.val (fun t => { t with dm := { t.dm with descs := [] } })
  | .ce c =>
    let x := getCe s c.val
    let s := (x.early ++ (x.op.map (·.early)).getD []).foldl (fun s p => ceFree s c.val p) s
    let s := ((x.op.map (·.todo)).getD []).foldl (fun s o => ceFreeSlot s c.val o.slot) s
    ceFlush (setCe s c.val { getCe s c.val with op := none, early := [] }) c.val
  | _ => s

/-- R254: a member's number: 4 bits for each logical tile, then the collective engines. -/
def memberOf (s : State) : Eng → Option Nat
  | .tile p k => (logOf s p.val).map (fun l => 4 * l + engIdx (.tile p k) % 4)
  | .ce c => some (256 + c.val)

/-- R239: an arrival at a step mark is taken back (log entry 107). -/
def takeBackMark (s : State) (e : Eng) : State :=
  { s with mark := { s.mark with arrived := s.mark.arrived.filter (· != engIdx e) } }

/-- R239: an sy.bar that faults after its arrival was counted has no effect: the arrival is taken back, unless its round is complete. -/
def takeBackBar (s : State) (e : Eng) : State :=
  match (getEng s e).wait, memberOf s e with
  | some w, some m =>
    if w.kind = .sybar ∧ w.val = 0 then
      let t := getCtx s w.ctr
      if bit t.b m then setCtx s w.ctr { t with next := t.next - 1, b := t.b - 2 ^ m }
      else if bit t.a m ∧ !t.leaving ∧ !t.globalPend then setCtx s w.ctr { t with cur := t.cur - 1, a := t.a - 2 ^ m }
      else s
    else s
  | _, _ => s

/-- An engine's program faults (R213, R228): the record, the last-fault register, and FAULTED from the states R213 lists. -/
def faultEngine (s : State) (e : Eng) (code tag pc : Nat) (t : Bool) (addr space detail : Nat) : State :=
  let s := traceEv s e t tag pc 4 code
  let s := setLastFault s e code tag
  let s := raise s (engBlk e) (engInst e)
    ⟨code, engUnit s e, engClass e, tag, pc, s.gsc, jobGen s, engPhys e, addr, space, detail⟩
  let g := getEng s e
  if g.st = .running ∨ g.st = .waiting ∨ g.st = .armed then
    stopWork (setEng (takeBackMark (takeBackBar s e) e) e { g with
      st := .faulted, queue := [], fetchPc := enginePc g, fetchStop := false, wait := none, fwait := none, marks := [],
      quiesceReq := false }) e
  else s

/-- Fault with the instruction of a queue entry. -/
def faultQ (s : State) (e : Eng) (q : QEntry) (code addr space detail : Nat) : State :=
  faultEngine s e code (iTag q.word) q.idx (iT q.word) addr space detail

/-! Counters and increments. -/

def getCtr (s : State) (p c : Nat) : Nat := getFi s SY_CTR p c
def setCtr (s : State) (p c v : Nat) : State := setFi s SY_CTR p c v

/-- An increment on its way to a counter (R242). R240: a tile being reset drops it. -/
def addIncr (s : State) (p : Nat) (i : Incr) : State :=
  if isolated s p then s else modTile s p (fun t => { t with pend := t.pend ++ [i] })

/-- R201: a completion adds 1 to the counter of the engine's tile (R387: the home tile of a collective engine). -/
def signalDone (s : State) (e : Eng) (sctr : Option Nat) (tag pc : Nat) : State :=
  match sctr, homeOf s e with
  | some c, some p => addIncr s p ⟨c, 1, .instr e tag pc⟩
  | _, _ => s

/-- R243: a unit of a tile adds 1 to a counter of the tile (ESIG, RSIG, a check-value unit, a digest round). -/
def signalUnit (s : State) (p : Nat) (ctr : Option Nat) (tag : Nat) : State :=
  match ctr with
  | some c => addIncr s p ⟨c, 1, .unit tag⟩
  | none => s

/-- R201, R234: an instruction completes. -/
def completeDone (s : State) (e : Eng) (d : Done) : State :=
  let s := traceEv s e d.t d.tag d.pc 3 0
  let s := signalDone s e d.sctr d.tag d.pc
  if d.v then setP s e P_PSTATE_VSEEN 1 else s

/-- Take the front entry from the queue. -/
def popFront (s : State) (e : Eng) : State := modEng s e (fun g => { g with queue := g.queue.drop 1, since := s.gsc })

/-- A ct. or sy. instruction that completes at issue. -/
def finishFront (s : State) (e : Eng) (q : QEntry) : State :=
  completeDone (traceEv (popFront s e) e (iT q.word) (iTag q.word) q.idx 2 0) e (doneOf q.word q.idx)

/-- Time an open wait has run (R253, R517): it does not run while its engine is QUIESCED or the GW7 is RECALLING. -/
def waitElapsed (s : State) (e : Eng) (w : Wait) : Nat :=
  if (getEng s e).st = .quiesced ∨ lendState s = 3 then w.acc else w.acc + (s.gsc - w.since)

/-- Stop or restart the timer of an engine's waits (R517). -/
def holdWait (s : State) (w : Wait) : Wait := { w with acc := w.acc + (s.gsc - w.since), since := s.gsc }
def restartWait (s : State) (w : Wait) : Wait := { w with since := s.gsc }

/-- Enter WAITING at issue. -/
def beginWait (s : State) (e : Eng) (q : QEntry) (k : WaitKind) (c v : Nat) : State :=
  let s := traceEv s e (iT q.word) (iTag q.word) q.idx 0 c
  modEng s e (fun g => { g with st := .waiting, wait := some ⟨k, c, v, s.gsc, 0⟩ })

/-- R246: the engine satisfied last on a counter is tested last. -/
def noteServed (s : State) (p c : Nat) (e : Eng) : State :=
  match e with
  | .tile _ _ => modTile s p (fun t => { t with rot := mapSet (fun _ => 0) t.rot c (1 + engIdx e % 4) })
  | .ce _ => s

/-- Subtract a satisfied wait (R245). -/
def takeCtr (s : State) (p c v : Nat) (e : Eng) : State := noteServed (setCtr s p c (getCtr s p c - v)) p c e

/-- R405: a ring pass that waited for a slot may send its READY. -/
def passFctr (s : State) : Eng → State
  | .ce c => setCe s c.val { getCe s c.val with op := (getCe s c.val).op.map (fun o => { o with fctrOk := true }) }
  | _ => s

/-- An engine's wait on counter `c` of its home tile is satisfied by what the counter holds: the issue wait. -/
def satisfyIssue (s : State) (p c : Nat) (e : Eng) : State :=
  let g := getEng s e
  match g.wait with
  | some w =>
    if g.st = .waiting ∧ w.ctr = c ∧ (w.kind = .wflag ∨ w.kind = .sywait ∨ w.kind = .fctr) ∧ homeOf s e = some p ∧ w.val ≤ getCtr s p c then
      let s := takeCtr s p c w.val e
      let run : EState := if g.fwait.isSome then .waiting else .running
      match w.kind, g.queue with
      | .wflag, q :: r =>
        traceEv (setEng s e { g with st := run, wait := none, queue := { q with wDone := true } :: r }) e (iT q.word) (iTag q.word) q.idx 1 c
      | .wflag, [] => setEng s e { g with st := run, wait := none, marks := true :: g.marks.drop 1 }
      | .sywait, q :: _ =>
        finishFront (traceEv (setEng s e { g with st := run, wait := none }) e (iT q.word) (iTag q.word) q.idx 1 c) e q
      | _, _ => passFctr (setEng s e { g with st := run, wait := none }) e
    else s
  | none => s

/-- The entry whose W wait the fill stage takes: the first mx. entry whose W wait is open (R84). -/
def fillWaits (q : QEntry) : Bool := iCls q.word == 1 && iW q.word && !q.filled && !q.wDone

/-- That wait is satisfied. -/
def markFill : List QEntry → List QEntry
  | [] => []
  | q :: r => if fillWaits q then { q with wDone := true } :: r else q :: markFill r

/-- The same for the W wait that the MXE takes at its fill stage (R200, R252). -/
def satisfyFill (s : State) (p c : Nat) (e : Eng) : State :=
  let g := getEng s e
  match g.fwait with
  | some w =>
    if g.st = .waiting ∧ w.ctr = c ∧ homeOf s e = some p ∧ w.val ≤ getCtr s p c then
      let s := takeCtr s p c w.val e
      let run : EState := if g.wait.isSome then .waiting else .running
      let front := (g.queue.head?.map fillWaits).getD false
      let s := setEng s e { g with st := run, fwait := none, queue := markFill g.queue, since := if front then s.gsc else g.since }
      match g.queue.find? fillWaits with
      | some q => traceEv s e (iT q.word) (iTag q.word) q.idx 1 c
      | none => s
    else s
  | none => s

/-- R488: an armed check-value unit takes its trigger and starts. -/
def satisfyCv (s : State) (p c u : Nat) : State :=
  let t := getTile s p
  if (if u = 0 then t.cv0 else t.cv1) = 1 ∧ getFi s TL_CV_TRIG_CTR p u = c ∧ 1 ≤ getCtr s p c then
    let s := setCtr s p c (getCtr s p c - 1)
    modTile s p (fun t => if u = 0 then { t with cv0 := 4 } else { t with cv1 := 4 })
  else s

/-- R246: the order in which the engines of a tile are tested on a counter. -/
def waitOrder (t : Tile) (c : Nat) : List EngKind :=
  match mapGet (fun _ => 0) t.rot c with
  | 1 => [.vx, .dm, .sy, .mx]
  | 2 => [.dm, .sy, .mx, .vx]
  | 3 => [.sy, .mx, .vx, .dm]
  | _ => [.mx, .vx, .dm, .sy]

/-- Test every wait on a counter once, in the order of R246 (step 3 of R242). -/
def testWaits (s : State) (p c : Nat) : State :=
  let s := (waitOrder (getTile s p) c).foldl (fun s k =>
    let e := Eng.tile (Fin.ofNat 72 p) k
    satisfyFill (satisfyIssue s p c e) p c e) s
  let s := (List.range 4).foldl (fun s c' => satisfyIssue s p c (.ce (Fin.ofNat 4 c'))) s
  satisfyCv (satisfyCv s p c 0) p c 1

/-- R387, R200: the W flag of the instruction at the front, taken at issue. Answers whether the instruction may go on. -/
def takeW (s : State) (e : Eng) (q : QEntry) : State × Bool :=
  if !iW q.word || q.wDone then (s, true)
  else match homeOf s e with
    | none => (faultQ s e q 0x0101 0 0 0, false)
    | some p =>
      let c := iWctr q.word
      if 1 ≤ getCtr s p c then
        (modEng (takeCtr s p c 1 e) e (fun g => { g with queue := g.queue.set 0 { q with wDone := true } }), true)
      else (beginWait s e q .wflag c 1, false)

/-- R184: the engine's vx.opt is in flight. -/
def optBusy (s : State) : Eng → Bool
  | .tile p .vx => (getTile s p.val).vx.fly.any (·.opt)
  | _ => false

/-- The engine may issue: RUNNING, or an MXE whose fill stage alone waits; not asked to quiesce, not isolated, no vx.opt in flight. -/
def canIssue (s : State) (e : Eng) : Bool :=
  let g := getEng s e
  (g.st = .running || (g.st = .waiting && g.wait.isNone && g.fwait.isSome)) && !g.quiesceReq && !isolated s (engDom e) && !optBusy s e

/-- R603: the tile drains, so no MXE, VXE or DME instruction issues. -/
def draining (s : State) (p : Nat) : Bool := rdF s 2 H_CTRL_DRAIN p 0 == 1

/-- R603: a block other than a tile drains. -/
def drainOn (s : State) (b inst : Nat) : Bool := rdF s b H_CTRL_DRAIN inst 0 == 1

/-- The entry at issue, if it is the instruction named. -/
def frontIs (s : State) (e : Eng) (cls op : Nat) : Option QEntry :=
  match (getEng s e).queue with
  | q :: _ => if canIssue s e && iCls q.word == cls && iOp q.word == op then some q else none
  | [] => none

/-- The general registers that a ct. or sy. instruction names (R218, R225). -/
def ctlRegs (w : IWord) : List Nat :=
  match iCls w, iOp w with
  | 0, 9 | 0, 0x0A => [ifld w 75 5, ifld w 70 5]
  | 0, 4 | 0, 5 | 0, 8 | 0, 0x0B | 0, 0x0D | 4, 0x83 | 4, 0x84 => [ifld w 75 5]
  | _, _ => []

/-- R160, R210: an instruction of the VXE in flight has a write pending to a general register that this one names. -/
def gPending (s : State) (e : Eng) (w : IWord) : Bool :=
  match e with
  | .tile p .vx => (getTile s p.val).vx.fly.any (fun f => (ctlRegs w).any (fun r => f.writes.contains (40 + r)))
  | _ => false

/-- Issue a ct. or sy. instruction (R202, R218, R225): its encoding is checked, its W wait taken, then `body` runs. -/
def runCtl (s : State) (e : Eng) (cls op : Nat) (rsv : List (Nat × Nat)) (body : State → QEntry → State) : State :=
  match frontIs s e cls op with
  | none => s
  | some q =>
    if iV q.word || flagBad q.word || rsvBad q.word rsv then faultQ s e q 0x0D01 0 0 0
    else if gPending s e q.word then s
    else match takeW s e q with
      | (s, true) => body s q
      | (s, false) => s

/-- R218, R220: every earlier instruction of the engine has completed. -/
def idleBehind (s : State) (e : Eng) : Bool :=
  (getEng s e).sigs.isEmpty &&
  match e with
  | .tile p .mx => (getTile s p.val).mx.fly.isEmpty
  | .tile p .vx => (getTile s p.val).vx.fly.isEmpty
  | .tile p .dm => (getTile s p.val).dm.descs.isEmpty
  | .tile _ .sy => true
  | .ce c => (getCe s c.val).op.isNone

/-! Fetch. -/

/-- R198: the engine accepts the class. -/
def accepts (e : Eng) (cls : Nat) : Bool := cls == 0 || cls == 4 || (cls == engClass e && engClass e != 4)

/-- The opcode exists in the class (R218, R225 and the engines' chapters). -/
def opExists (cls op : Nat) : Bool :=
  match cls with
  | 0 => [1, 2, 3, 4, 5, 8, 9, 10, 11, 12, 13].contains op
  | 1 => 0x20 ≤ op && op ≤ 0x27
  | 2 => 0x60 ≤ op && op ≤ 0x70
  | 3 => 0x40 ≤ op && op ≤ 0x44
  | 4 => 0x80 ≤ op && op ≤ 0x85
  | 5 => 0xA0 ≤ op && op ≤ 0xA6
  | _ => false

/-- The BAD_ENCODING code of a class (R202). -/
def badEncoding (cls : Nat) : Nat :=
  match cls with
  | 1 => 0x0A01 | 2 => 0x0B01 | 3 => 0x0C01 | 5 => 0x0E01 | _ => 0x0D01

/-- An instruction word of an engine's memory, and whether it is poisoned (R206). -/
def imemWord (s : State) (e : Eng) (i : Nat) : IWord × Bool :=
  (BitVec.ofNat 128 (readNat s (imemBase e + 16 * i) 16), isBad s (imemBase e + 16 * i))

/-- R208: the engine fetches: it runs or waits, its queue has room and no branch holds its fetch. -/
def canFetch (s : State) (e : Eng) : Bool :=
  let g := getEng s e
  (g.st = .running || g.st = .waiting) && !g.quiesceReq && !isolated s (engDom e) && g.queue.length < 16 && !g.fetchStop

/-- Fetch the next instruction; `seen` is what the line code made of its word and whether it is poisoned, where that is not the word
as stored. A fault of R199, R206, R207 or R209 is raised once every earlier instruction has issued. -/
def fetchAs (s : State) (e : Eng) (seen : Option (IWord × Bool)) : State :=
  let g := getEng s e
  if !canFetch s e then s
  else
    let pc := g.fetchPc
    let empty := g.queue.isEmpty
    if imemSize e ≤ pc then (if empty && canIssue s e then faultEngine s e 0x0D03 0 (imemSize e - 1) false 0 0 0 else s)
    else
      let (w, bad) := seen.getD (imemWord s e pc)
      if bad then (if empty && canIssue s e then faultEngine s e 0x0303 0 pc false pc 0 0 else s)
      else if !accepts e (iCls w) then (if empty && canIssue s e then faultEngine s e 0x0D05 (iTag w) pc (iT w) 0 0 0 else s)
      else if !opExists (iCls w) (iOp w) then
        (if empty && canIssue s e then faultEngine s e (badEncoding (iCls w)) (iTag w) pc (iT w) 0 0 (if iCls w = 5 then 0xFF else 0) else s)
      else
        let jmp := iCls w == 0 && iOp w == 0x0C
        let bnz := iCls w == 0 && iOp w == 0x0D
        let tgt := ifld w 68 12
        setEng s e { g with
          queue := g.queue ++ [{ idx := pc, word := w, wDone := g.marks.head?.getD false, filled := false, staged := none }]
          marks := g.marks.drop 1
          since := if empty then s.gsc else g.since
          fetchPc := if jmp then tgt else pc + 1
          fetchStop := bnz || (jmp && imemSize e ≤ tgt) }

/-- Fetch the next instruction as its word is stored. -/
def fetch (s : State) (e : Eng) : State := fetchAs s e none

/-! Driver commands (R213). -/

def cmdErr (s : State) (e : Eng) : State := setP s e P_PSTATE_CMD_ERR 1

/-- R19: an engine that keeps the GW7 out of the all-halted condition. -/
def spins (g : Engine) : Bool := !(g.st = .halted || g.st = .loaded || g.st = .quiesced)

/-- R18, R19: whether any engine of the GW7 is RUNNING, WAITING, ARMED or FAULTED. -/
def anyActive (s : State) : Bool := s.engines.any (fun kv => spins kv.2)

/-- R20: the tiles are brought up: the first tile engine has left the all-halted condition, and not every engine has returned to it. -/
def rampUp (s : State) : Bool := s.engines.any (fun kv => kv.1 < 288 && spins kv.2) || (0 < s.ramp && anyActive s)

/-- R213, R215, R21: an ARMED engine launches once the GSC reaches its count and the ramp, if one runs, is complete. R21 names a launch
soon after the first ARMED entry; that a ramp which a START began delays it as well is the model's choice (log entry 108). -/
def launch (s : State) (e : Eng) : State :=
  let g := getEng s e
  if g.st = .armed ∧ !g.quiesceReq ∧ g.launch.toNat ≤ s.gsc ∧ (s.ramp = 9 ∨ !rampUp s) ∧ !isolated s (engDom e) then
    let s := setEng s e { g with st := .running, since := s.gsc, late := false }
    if g.late then setP s e P_PSTATE_LATE 1 else s
  else s

/-- R412: a collective engine that was reset takes pieces again once it is loaded. -/
def ceLoaded (s : State) : Eng → State
  | .ce c => setCe s c.val { getCe s c.val with nack := false }
  | _ => s

/-- R206 to R213: commands meet an engine of a present domain. -/
def doLoad (s : State) (e : Eng) : State :=
  if (getEng s e).st = .halted then
    modEng (ceLoaded s e) e (fun g => { g with
      st := .loaded, queue := [], fetchPc := getP s e P_START_PC_PC, fetchStop := false, marks := [], wait := none, fwait := none
      quiesceReq := false, restored := false, lateSigs := [] })
  else cmdErr s e

def doStart (s : State) (e : Eng) : State :=
  if (getEng s e).st = .loaded then modEng s e (fun g => { g with st := .running, since := s.gsc }) else cmdErr s e

/-- R215: an engine enters ARMED; a count already passed makes its launch LATE. -/
def arm (s : State) (e : Eng) (count : DWord) : State :=
  modEng s e (fun g => { g with st := .armed, launch := count, late := count.toNat < s.gsc })

def doArm (s : State) (e : Eng) : State :=
  if (getEng s e).st = .loaded then arm s e (regGet s (regKey (engBlk e) (engInst e) 0x110)) else cmdErr s e

/-- R213: HALT. R153, R154: the descriptors and operations of a halted engine end (log entry 21). -/
def haltEngine (s : State) (e : Eng) : State :=
  let g := getEng s e
  stopWork (setEng (takeBackMark s e) e { g with
    st := .halted, queue := [], fetchPc := enginePc g, fetchStop := false, marks := [], wait := none, fwait := none
    quiesceReq := false, restored := false, lateSigs := [] }) e

/-- R213, R214: HALT, judged after a launch that is due. -/
def doHalt (s : State) (e : Eng) : State :=
  let s := launch s e
  match (getEng s e).st with
  | .loaded | .armed | .quiesced | .faulted => haltEngine s e
  | _ => cmdErr s e

/-- R213, R214: QUIESCE, judged after a launch that is due. -/
def doQuiesce (s : State) (e : Eng) : State :=
  let s := launch s e
  match (getEng s e).st with
  | .running | .waiting | .armed => modEng s e (fun g => { g with quiesceReq := true, quiesceAt := s.gsc })
  | _ => cmdErr s e

/-- R517: the stalls and descriptors of an engine that becomes QUIESCED keep the time they have run. -/
def holdWork (s : State) : Eng → State
  | .tile p .dm => modTile s p (fun t => { t with dm := { t.dm with descs := t.dm.descs.map (fun d =>
      match d.stall with
      | some x => { d with stall := some { x with acc := x.acc + (s.gsc - x.since), since := s.gsc } }
      | none => { d with acc := d.acc + (s.gsc - d.since), since := s.gsc }) } })
  | .ce c => let x := getCe s c.val
    match x.op with
    | some o => setCe s c.val { x with op := some { o with
        acc := o.acc + (s.gsc - o.since), since := s.gsc
        stall := o.stall.map (fun y => { y with acc := y.acc + (s.gsc - y.since), since := s.gsc }) } }
    | none => s
  | _ => s

/-- R517: they run again from the resume. -/
def restartWork (s : State) : Eng → State
  | .tile p .dm => modTile s p (fun t => { t with dm := { t.dm with descs := t.dm.descs.map (fun d =>
      { d with since := s.gsc, stall := d.stall.map (fun x => { x with since := s.gsc }) }) } })
  | .ce c => let x := getCe s c.val
    match x.op with
    | some o => setCe s c.val { x with op := some { o with since := s.gsc, stall := o.stall.map (fun y => { y with since := s.gsc }) } }
    | none => s
  | _ => s

/-- A resumed engine fetches again the `n` instructions that its queue held. -/
def refetch (s : State) (e : Eng) : Nat → State
  | 0 => s
  | n + 1 => refetch (fetch s e) e n

/-- R261: the engine waits at a context that is ORPHANED. -/
def orphaned (s : State) (g : Engine) : Bool :=
  match g.wait with
  | some w => w.kind == .sybar && (getCtx s w.ctr).cstate == 2
  | none => false

/-- R213, R216, R262: a QUIESCED engine goes on: its late S signals fall, its waits run again, an ARMED count that has passed
launches late. -/
def resumeEngine (s : State) (e : Eng) : State :=
  let g := getEng s e
  let sig := g.lateSigs
  let s := setEng s e { g with
    st := g.resumeSt, restored := false, lateSigs := [], quiesceReq := false
    wait := g.wait.map (restartWait s), fwait := g.fwait.map (restartWait s) }
  let s := refetch (restartWork s e) e g.marks.length
  let s := sig.foldl (fun s x => signalDone s e (some x.1) x.2.1 x.2.2) s
  let s := if g.resumeSt = .armed then arm s e (regGet s (regKey (engBlk e) (engInst e) 0x110)) else s
  if orphaned s g then
    let (w, _) := imemWord s e (enginePc g)
    faultEngine s e 0x0202 (iTag w) (enginePc g) (iT w) 0 0 0
  else match g.wait, g.fwait, homeOf s e with
  | some w, none, some p => testWaits s p w.ctr
  | none, some w, some p => testWaits s p w.ctr
  | some w, some w', some p => testWaits (testWaits s p w.ctr) p w'.ctr
  | _, _, _ => s

def doResume (s : State) (e : Eng) : State := if (getEng s e).st = .quiesced then resumeEngine s e else cmdErr s e

/-- R221: a write that would change MARK_EN. -/
def doMarkEn (s : State) (e : Eng) (v : Bool) : State :=
  if (getP s e P_PCTL_MARK_EN == 1) = v then s
  else match (getEng s e).st with
    | .halted | .loaded => setP s e P_PCTL_MARK_EN (b2n v)
    | _ => cmdErr s e

/-- R237: a driver write of a general register. -/
def doGWrite (s : State) (e : Eng) (n : Nat) (v : DWord) : State :=
  match (getEng s e).st with
  | .halted | .loaded | .quiesced => setG s e n v
  | _ => cmdErr s e

/-- R236: the command of a P_PCTL write. -/
def doPctl (s : State) (e : Eng) (cmd : Nat) : State :=
  match cmd with
  | 0 => s
  | 1 => doLoad s e
  | 2 => doStart s e
  | 3 => doArm s e
  | 4 => doHalt s e
  | 5 => doQuiesce s e
  | 6 => doResume s e
  | _ => cmdErr s e

/-- R119, R152, R194, R411: no issued work is left that the quiesce waits for. A mover's stalled piece is not issued (R152); a
collective engine lets the pieces it has sent be credited, for at most 1 ms (R411). -/
def quiesceReady (s : State) (e : Eng) : Bool :=
  match e with
  | .tile p .mx => (getTile s p.val).mx.fly.isEmpty
  | .tile p .vx => (getTile s p.val).vx.fly.isEmpty
  | .tile p .dm => (getTile s p.val).dm.out.all (fun x => x.kind = 7)
  | .tile _ .sy => true
  | .ce c => ((getCe s c.val).usedP.isEmpty && (getCe s c.val).usedM.isEmpty) || (getEng s e).quiesceAt + 1000000 ≤ s.gsc

/-- R213: an engine asked to quiesce reaches QUIESCED. Its queue is fetched again at the resume; `marks` keeps which of its
instructions have taken their W wait; staged operands are read again (R119). R483, R490: running check-value units finish first. -/
def quiesced (s : State) (e : Eng) : State :=
  let g := getEng s e
  if g.quiesceReq ∧ (g.st = .running ∨ g.st = .waiting ∨ g.st = .armed) ∧ quiesceReady s e ∧ g.sigs.isEmpty then
    setEng (holdWork s e) e { g with
      st := .quiesced, resumeSt := g.st, quiesceReq := false, marks := g.queue.map (·.wDone) ++ g.marks, queue := [],
      fetchPc := enginePc g, fetchStop := false, restored := false
      wait := if lendState s = 3 then g.wait else g.wait.map (holdWait s)
      fwait := if lendState s = 3 then g.fwait else g.fwait.map (holdWait s) }
  else s

/-- R20: one group of 8 physical tiles more at full draw, or one fewer. -/
def rampStep (s : State) : State :=
  let last := getTimer s tmRamp
  if rampUp s ∧ s.ramp < 9 ∧ (last = 0 ∨ last + 10000 ≤ s.gsc) then setTimer { s with ramp := s.ramp + 1 } tmRamp s.gsc
  else if !anyActive s ∧ 0 < s.ramp ∧ (last = 0 ∨ last + 10000 ≤ s.gsc) then setTimer { s with ramp := s.ramp - 1 } tmRamp s.gsc
  else s

/-! The control instructions (R218 to R224). -/

def ctSimple (s : State) (e : Eng) (op : Nat) (rsv : List (Nat × Nat)) (f : State → QEntry → State) : State :=
  runCtl s e 0 op rsv (fun s q => finishFront (f s q) e q)

def doCtHalt (s : State) (e : Eng) : State :=
  if !idleBehind s e then s
  else runCtl s e 0 2 [(0, 80)] (fun s q =>
    let s := finishFront s e q
    modEng s e (fun g => { g with st := .halted, queue := [], fetchPc := q.idx + 1, fetchStop := false, fwait := none, marks := [] }))

def doCtTrap (s : State) (e : Eng) : State :=
  runCtl s e 0 3 [(0, 64)] (fun s q => faultQ s e q 0x0D02 0 0 (ifld q.word 64 16))

def doCtLaunch (s : State) (e : Eng) : State :=
  if !idleBehind s e then s
  else runCtl s e 0 5 [(0, 75)] (fun s q =>
    let count := getG s e (ifld q.word 75 5)
    let s := finishFront s e q
    let s := regSet s (regKey (engBlk e) (engInst e) 0x110) count
    arm (modEng s e (fun g => { g with queue := [], fetchPc := q.idx + 1, fetchStop := false, fwait := none, marks := [] })) e count)

def doCtLi (s : State) (e : Eng) : State :=
  ctSimple s e 8 [(0, 11)] (fun s q => setG s e (ifld q.word 75 5) (BitVec.ofNat 64 (ifld q.word 11 64)))

def doCtAddi (s : State) (e : Eng) : State :=
  ctSimple s e 9 [(0, 22)] (fun s q =>
    setG s e (ifld q.word 75 5) (BitVec.ofInt 64 ((getG s e (ifld q.word 70 5)).toNat + sext 48 (ifld q.word 22 48))))

/-- R218, R219: ct.ld. -/
def doCtLd (s : State) (e : Eng) : State :=
  runCtl s e 0 0x0A [(0, 48)] (fun s q =>
    match homeOf s e with
    | none => faultQ s e q 0x0101 0 0 0
    | some p =>
      let a := (bits (getG s e (ifld q.word 70 5)).toNat 0 22 + ifld q.word 48 22) % 2 ^ 22
      if a % 8 ≠ 0 then faultQ s e q 0x0D01 0 0 0
      else if isBad s (tsAddr p a) then faultQ s e q 0x0303 a 0 0
      else finishFront (setG s e (ifld q.word 75 5) (BitVec.ofNat 64 (readNat s (tsAddr p a) 8))) e q)

def doCtGsc (s : State) (e : Eng) : State :=
  ctSimple s e 0x0B [(0, 75)] (fun s q => setG s e (ifld q.word 75 5) (BitVec.ofNat 64 s.gsc))

/-- R218, R219: ct.jmp; the fetch has followed it already (R208). -/
def doCtJmp (s : State) (e : Eng) : State :=
  runCtl s e 0 0x0C [(0, 68)] (fun s q =>
    if imemSize e ≤ ifld q.word 68 12 then faultQ s e q 0x0D03 0 0 0 else finishFront s e q)

/-- R218, R219: ct.bnz; the fetch waits for it (R208). -/
def doCtBnz (s : State) (e : Eng) : State :=
  runCtl s e 0 0x0D [(0, 63)] (fun s q =>
    let r := ifld q.word 75 5
    let v := getG s e r - 1
    let tgt := ifld q.word 63 12
    if v ≠ 0 ∧ imemSize e ≤ tgt then faultQ s e q 0x0D03 0 0 0
    else
      let s := finishFront (setG s e r v) e q
      modEng s e (fun g => { g with fetchPc := if v ≠ 0 then tgt else q.idx + 1, fetchStop := false }))

/-! The sync instructions (R225, R241 to R250). -/

/-- R245: sy.wait. -/
def doSyWait (s : State) (e : Eng) : State :=
  runCtl s e 4 0x80 [(0, 48)] (fun s q =>
    let c := ifld q.word 72 8
    let v := ifld q.word 48 24
    if v = 0 then finishFront s e q
    else match homeOf s e with
      | none => faultQ s e q 0x0101 0 0 0
      | some p => if v ≤ getCtr s p c then finishFront (takeCtr s p c v e) e q else beginWait s e q .sywait c v)

/-- R241: sy.add raises an increment of the own tile. -/
def doSyAdd (s : State) (e : Eng) : State :=
  runCtl s e 4 0x81 [(0, 48)] (fun s q =>
    match homeOf s e with
    | none => faultQ s e q 0x0101 0 0 0
    | some p => finishFront (addIncr s p ⟨ifld q.word 72 8, ifld q.word 48 24, .instr e (iTag q.word) q.idx⟩) e q)

/-- R244: sy.sub. -/
def doSySub (s : State) (e : Eng) : State :=
  runCtl s e 4 0x82 [(0, 48)] (fun s q =>
    match homeOf s e with
    | none => faultQ s e q 0x0101 0 0 0
    | some p =>
      let c := ifld q.word 72 8
      let v := ifld q.word 48 24
      if getCtr s p c < v then faultQ s e q 0x0201 0 0 0 else finishFront (setCtr s p c (getCtr s p c - v)) e q)

/-- R247: sy.get. -/
def doSyGet (s : State) (e : Eng) : State :=
  runCtl s e 4 0x84 [(0, 67)] (fun s q =>
    match homeOf s e with
    | none => faultQ s e q 0x0101 0 0 0
    | some p => finishFront (setG s e (ifld q.word 75 5) (BitVec.ofNat 64 (getCtr s p (ifld q.word 67 8)))) e q)

/-- The numbers that the sy.sig of an engine's requester have in flight: the four engines of a tile share one set (R521). -/
def sigNums (s : State) : Eng → List Nat
  | .tile p _ => [EngKind.mx, .vx, .dm, .sy].flatMap (fun k => (getEng s (.tile p k)).sigs.map (·.num))
  | .ce c => (getEng s (.ce c)).sigs.map (·.num)

/-- R521: the first number from 128 on that is not in flight; the mover's transfers take 0 to 127 (log entry 22). -/
def freeSig (s : State) (e : Eng) : Nat :=
  128 + ((List.range 128).find? (fun n => !(sigNums s e).contains (128 + n))).getD 0

/-- The domain generation of an engine (R521). -/
def domGenOf (s : State) (e : Eng) : Nat := (getDom s (engDom e)).gen

/-- R248 to R250: sy.sig sends a SIGNAL packet: the counter in RCTR and the value in ADDR[23:0] (log entry 22). -/
def doSySig (s : State) (e : Eng) : State :=
  runCtl s e 4 0x83 [(0, 43)] (fun s q =>
    let ep := (getG s e (ifld q.word 75 5)).toNat % 2 ^ 24
    let node := ep / 256
    let l := ep % 256
    let testing := match e with | .tile p _ => ptileOf s p.val == 2 | .ce _ => false
    let c := ifld q.word 67 8
    if 0x40 ≤ l then faultQ s e q 0x0207 0 0 0
    else if testing || (node == nodeId s && (physOf s l).isNone) then faultQ s e q 0x0101 0 0 0
    else if 16 ≤ (getEng s e).sigs.length then beginWait s e q .sysig c (ifld q.word 43 24)
    else
      let n := freeSig s e
      let s := traceEv (popFront s e) e (iT q.word) (iTag q.word) q.idx 2 0
      let s := modEng s e (fun g => { g with
        sigs := g.sigs ++ [⟨n, iTag q.word, q.idx, iSig q.word, node = nodeId s, s.gsc, iT q.word, ep, c⟩] })
      sendPkt s { request s (engUnit s e) 4 (BitVec.ofNat 24 ep) (domGenOf s e * 256 + n) 0 with
        rctr := BitVec.ofNat 8 c, addr := BitVec.ofNat 40 (ifld q.word 43 24), last := true })

/-- R249: a place for a held sy.sig is free. -/
def freeHeldSig (s : State) (e : Eng) : State :=
  let g := getEng s e
  match g.wait, g.queue with
  | some w, q :: _ =>
    if g.st = .waiting ∧ w.kind = .sysig then
      traceEv (setEng s e { g with st := if g.fwait.isSome then .waiting else .running, wait := none }) e
        (iT q.word) (iTag q.word) q.idx 1 w.ctr
    else s
  | _, _ => s

/-- R249: the sy.sig numbered `num` of an engine is acknowledged: it completes. -/
def sigAcked (s : State) (e : Eng) (num : Nat) : State :=
  match (getEng s e).sigs.find? (fun x => x.num == num) with
  | none => s
  | some x =>
    let s := freeHeldSig (modEng s e (fun g => { g with sigs := g.sigs.filter (fun y => y.num != num) })) e
    completeDone s e ⟨x.sctr, x.tag, x.pc, false, x.t⟩

/-- R249: an sy.sig fails with a code. -/
def sigFailed (s : State) (e : Eng) (num code : Nat) : State :=
  match (getEng s e).sigs.find? (fun x => x.num == num) with
  | none => s
  | some x =>
    let s := modEng s e (fun g => { g with sigs := g.sigs.filter (fun y => y.num != num) })
    faultEngine s e code x.tag x.pc x.t 0 0 0

/-- R249: the k-th sy.sig of an engine has waited 100 µs, or 10 ms toward another node. -/
def sigTimeout (s : State) (e : Eng) (k : Nat) : State :=
  match (getEng s e).sigs[k]? with
  | none => s
  | some x => if x.since + (if x.own then 100000 else 10000000) ≤ s.gsc then sigFailed s e x.num 0x0403 else s

end Sys2Proof.Machine
end

