-- ==== Sys2Proof/Machine/Stats.lean ====
section
/-! DEFINITION. Statistics periods (R118, R554 to R558): live counters, their _LATCHED copies, PERIOD_ID and STAT_LATCH. -/
namespace Sys2Proof.Machine

/-- The element of a strided register row that an offset begins, if it does. -/
def rowElem (base stride count off : Nat) : Option Nat :=
  if off < base then none
  else if stride = 0 then (if off = base then some 0 else none)
  else if (off - base) % stride = 0 ∧ (off - base) / stride < count then some ((off - base) / stride) else none

/-- R118: the key of the _LATCHED copy of a live counter's key. -/
def latchOf (k : Nat) : Option Nat :=
  let b := k / 2 ^ 20
  let i := k / 2 ^ 12 % 256
  ((latchPairs b).findSome? (fun r => if r.2.2.2.2.1 ≤ i ∧ i ≤ r.2.2.2.2.2 then
    (rowElem r.1 r.2.2.1 r.2.2.2.1 (k % 2 ^ 12)).map (fun e => regKey b i (r.2.1 + e * r.2.2.1)) else none))

/-- Whether a key is that of a _LATCHED copy. -/
def isLatched (k : Nat) : Bool :=
  let i := k / 2 ^ 12 % 256
  (latchPairs (k / 2 ^ 20)).any (fun r => r.2.2.2.2.1 ≤ i && i ≤ r.2.2.2.2.2 && (rowElem r.2.1 r.2.2.1 r.2.2.2.1 (k % 2 ^ 12)).isSome)

/-- R555: one live counter into its copy, and to zero. -/
def latchOne (s : State) (kv : Nat × DWord) : State :=
  match latchOf kv.1 with
  | some k' => regSet (regSet s k' kv.2) kv.1 0
  | none => s

/-- R555: a period end at a GSC count: every live counter is copied and restarts, PERIOD_ID advances, STAT_LATCH holds the count. PERIOD_ID
and STAT_LATCH, equal on every page, are kept on the MG page; `statReset` is emptied, since every domain has now latched. -/
def periodEnd (s : State) (at0 : Nat) : State :=
  let live := s.regs
  let s := { s with regs := mapDrop isLatched s.regs, statReset := [] }
  let s := live.foldl latchOne s
  let s := wrF s 1 H_PERIOD_ID_ID 0 0 ((rdF s 1 H_PERIOD_ID_ID 0 0 + 1) % 2 ^ 32)
  setTimer (wrF s 1 H_STAT_LATCH_GSC 0 0 (bits at0 10 32)) tmPeriod at0

/-- R554, R572: the period length of MODE 1 and 2 in GSC counts. -/
def periodCounts (s : State) : Nat :=
  (if getF s PW_PERIOD_CFG_PERIOD_MS 0 = 0 then 1000 else getF s PW_PERIOD_CFG_PERIOD_MS 0) * 1000000

/-- R554, R556: a step mark's latch ends a period in MODE 0, and in MODE 2 and 3 (R572) unless a GSC boundary did so within the last 1 µs. -/
def markLatches (s : State) : Bool :=
  let m := getF s PW_PERIOD_CFG_MODE 0
  let last := getTimer s tmPeriod
  m == 0 || (m != 1 && !(last != 0 && last % periodCounts s == 0 && decide (s.gsc ≤ last + 1000)))

/-- PERIOD_END: R554, R556: in MODE 1 and 2, at a count that is a multiple of the period; in MODE 2 one within 1 µs of the last
period end makes no second one. -/
def periodBoundary (s : State) : State :=
  let m := getF s PW_PERIOD_CFG_MODE 0
  let last := getTimer s tmPeriod
  let b := s.gsc / periodCounts s * periodCounts s
  if m = 0 ∨ b = 0 ∨ b ≤ last ∨ (m ≠ 1 ∧ b ≤ last + 1000) then s else periodEnd s b

end Sys2Proof.Machine
end

