-- ==== Sys2Proof/Machine/Sync.lean ====
section
/-! DEFINITION. Counters, barriers and step marks (chapter 07): increments at a counter, barrier contexts with the share of the
collective engines (R407, R408), the arrival at a step mark, and the wait-graph snapshot. -/
namespace Sys2Proof.Machine

/-! Increments (R242, R243). -/

/-- R243: a refused increment, by who raised it. -/
def refuseIncr (s : State) (p : Nat) (i : Incr) : State :=
  match i.src with
  | .instr e tag pc => faultEngine s e 0x0206 tag pc false 0 0 0
  | .signal pkt => sendNack s pkt 0x0206
  | .unit tag =>
    raise (setF (setF s SY_LAST_FAULT_CODE p 0x0206) SY_LAST_FAULT_TAG p tag) 6 p
      ⟨0x0206, (logOf s p).getD 0xFF, 4, tag, 0, s.gsc, jobGen s, p, 0, 0, 0⟩

/-- R249: an applied sy.sig is acknowledged. -/
def ackIncr (s : State) (i : Incr) : State :=
  match i.src with
  | .signal pkt => sendAck s pkt
  | _ => s

/-- Take the first `n` increments of counter `c` out of a list. -/
def takeIncr (c : Nat) : Nat → List Incr → List Incr × List Incr
  | _, [] => ([], [])
  | 0, l => ([], l)
  | n + 1, i :: r =>
    if i.ctr = c then let (a, b) := takeIncr c n r; (i :: a, b)
    else let (a, b) := takeIncr c (n + 1) r; (a, i :: b)

/-- R242 step 1, R243: increments that reach a counter in one cycle are summed, applied, or refused. -/
def applyIncrs (s : State) (p c : Nat) (now : List Incr) : State :=
  let v := getCtr s p c + sumNat (now.map (·.val))
  if 16777215 < v then now.foldl (fun s i => refuseIncr s p i) (setCtr s p c 16777215)
  else now.foldl ackIncr (addStat (setCtr s p c v) SY_SIGNALS p now.length)

/-- COUNTER_INCREMENT: `n` increments reach a counter in one cycle (R242, R243), and its waits are tested. -/
def incrementCtr (s : State) (p c n : Nat) : State :=
  let (now, later) := takeIncr c n (getTile s p).pend
  if now.isEmpty then s
  else traceCap s (testWaits (applyIncrs (modTile s p (fun t => { t with pend := later })) p c now) p c) p

/-- The increments on their way to a tile's counters arrive, counter by counter (R240, R262). -/
def flushIncrs (s : State) (p : Nat) : State :=
  ((getTile s p).pend.map (·.ctr)).eraseDups.foldl (fun s c => incrementCtr s p c (getTile s p).pend.length) s

/-- R259: the engines of a tile are all HALTED, LOADED or QUIESCED. -/
def tileStopped (s : State) (p : Nat) : Bool :=
  [EngKind.mx, .vx, .dm, .sy].all (fun k => match (getEng s (.tile (Fin.ofNat 72 p) k)).st with
    | .halted | .loaded | .quiesced => true
    | _ => false)

/-- SY_CTR_WRITE: R259, R242. -/
def writeCtr (s : State) (p c : Nat) (v : Nat) : State :=
  if tileStopped s p then traceCap s (testWaits (setCtr s p c (v % 2 ^ 24)) p c) p else setF s SY_STATUS_WR_REJ p 1

/-! Multicasts (R376, R377, R393). -/

/-- R376, R377, R393: send a packet to an endpoint of every node along axis c as a multicast that starts at the next node of each direction. -/
def sendMulticast (s : State) (c ep : Nat) (p : Packet) : State :=
  let l := ceSize s c
  let r := ceRank s c
  let (sp, sn) := ceSpan s c
  let one (s : State) (k sp sn : Nat) : State :=
    sendPkt s { p with dst := epId (ceNode s c k) ep, mc := true, maxis := BitVec.ofNat 2 c, spanp := BitVec.ofNat 6 sp, spann := BitVec.ofNat 6 sn }
  let s := if sp = 0 then s else one s ((r + 1) % l) (sp - 1) 0
  if sn = 0 then s else one s ((r + l - 1) % l) 0 (sn - 1)

/-! Barrier contexts (R254 to R261). -/

def ctxMode (s : State) (x : Nat) : Nat := getF s BA_CFG_MODE (1 + x)
def ctxCe (s : State) (x : Nat) : Nat := getF s BA_CFG_CE (1 + x)

def inMask (s : State) (x m : Nat) : Bool := bit (getFi s BA_MASK_MEMBERS (1 + x) (m / 32)) (m % 32)
def members (s : State) (x : Nat) : List Nat := (List.range 260).filter (inMask s x)

/-- The engine of a member number, if its tile is present. -/
def engOfMember (s : State) (m : Nat) : Option Eng :=
  if m < 256 then (physOf s (m / 4)).map (fun p => engOf (4 * p + m % 4)) else some (engOf (288 + (m - 256)))

/-- An engine waits at a context; `arrived` asks for one whose arrival has been counted. -/
def waitsAt (s : State) (e : Eng) (x : Nat) : Bool :=
  match (getEng s e).wait with
  | some w => w.kind == .sybar && w.ctr == x
  | none => false

/-- R230: the detail of the records of an engine's wait: its counter or context. -/
def waitDetail (g : Engine) : Nat := (g.wait.map (·.ctr)).getD 0

/-- An engine in WAITING, or QUIESCED with an open wait, is let past its sy.bar or ct.mark. Its S signal is given back, to fall
now or later (R257, R222, R262). -/
def passWait (s : State) (e : Eng) : State × Option Done :=
  let g := getEng s e
  match g.st, g.queue with
  | .waiting, q :: _ =>
    let s := popFront (setEng s e { g with st := if g.fwait.isSome then .waiting else .running, wait := none }) e
    (traceEv s e (iT q.word) (iTag q.word) q.idx 1 (waitDetail g), some (doneOf q.word q.idx))
  | .quiesced, _ =>
    let (w, _) := imemWord s e g.fetchPc
    let s := setEng s e { g with resumeSt := .running, wait := none, fetchPc := g.fetchPc + 1, marks := g.marks.drop 1 }
    (traceEv s e (iT w) (iTag w) g.fetchPc 1 (waitDetail g), some (doneOf w g.fetchPc))
  | _, _ => (s, none)

/-- An sy.bar or ct.mark completes (R229 event 3); its S signal falls now, or at the resume of a QUIESCED engine (R262). -/
def lateSig (s : State) (e : Eng) (d : Done) : State :=
  let s := traceEv s e d.t d.tag d.pc 3 0
  match d.sctr with
  | none => s
  | some c =>
    if (getEng s e).st = .quiesced then modEng s e (fun g => { g with lateSigs := g.lateSigs ++ [(c, d.tag, d.pc)] })
    else signalDone s e (some c) d.tag d.pc

/-- R257: a member receives a release: it flips its bit, and goes on when it waits in this round. -/
def releaseMember (x : Nat) (a : Nat) (s : State) (m : Nat) : State :=
  match engOfMember s m with
  | none => s
  | some e =>
    let s := modEng s e (fun g => { g with rbits := if bit g.rbits x then g.rbits - 2 ^ x else g.rbits + 2 ^ x })
    if bit a m && waitsAt s e x then
      match passWait s e with
      | (s, some d) => lateSig s e d
      | (s, none) => s
    else s

/-! The cross-chip round of TORUS contexts (R407, R408). -/

/-- The counts of context x on axis a, at the engine that BA_CFG.CE names. -/
def getBar (s : State) (a x : Nat) : CeBar := mapGet (fun _ => CeBar.reset) (getCe s (ctxCe s x)).bars (64 * a + x)
def setBar (s : State) (a x : Nat) (b : CeBar) : State :=
  let ce := getCe s (ctxCe s x)
  setCe s (ctxCe s x) { ce with bars := mapSet (fun _ => CeBar.reset) ce.bars (64 * a + x) b }

/-- A configured context starts with no counts at any engine. -/
def dropBars (s : State) (x : Nat) : State :=
  (List.range 4).foldl (fun s c => let ce := getCe s c; setCe s c { ce with bars := mapDrop (fun k => k % 64 == x) ce.bars }) s

/-- R398: a barrier packet of context x along axis a, to a rank of its ring, between the engines that BA_CFG.CE names. -/
def barPacket (s : State) (x a kind rank : Nat) : Packet :=
  let c := ctxCe s x
  { request s (0x40 + c) 11 (epId (ceNode s a rank) (0x40 + c)) (kind + 16 * ((getCe s c).opnum % 4096)) 0 with
    addr := BitVec.ofNat 40 (x + (if (getCtx s x).round then 64 else 0)), last := false }

/-- R260: the context is in TORUS mode with this collective engine; on any other the round stays incomplete. -/
def torusHere (s : State) (c x : Nat) : Bool := (getCtx s x).cstate == 1 && ctxMode s x == 3 && ctxCe s x == c

/-- R407: the axes with more than one rank, in order. -/
def barAxes (s : State) : List Nat := (List.range 4).filter (fun c => 1 < ceSize s c)

/-- The cross-chip completion returns to the barrier unit (R257, R407). -/
def torusReleased (s : State) (x : Nat) : State :=
  let t := getCtx s x
  if t.globalPend then setCtx s x { t with globalPend := false, leaving := true } else s

/-- R407 step 5: the release goes along the axes before `upto`, the last first. -/
def torusRelease (s : State) (x : Nat) (upto : List Nat) : State :=
  torusReleased (upto.reverse.foldl (fun s a => sendMulticast s a (0x40 + ctxCe s x) (barPacket s x a 6 0)) s) x

/-- R407: the share of this GW7 arrives on the axes from `axes` on; `all` are the axes of the round. -/
def torusArrive (x : Nat) (all : List Nat) : List Nat → State → State
  | [], s => torusRelease s x all
  | a :: rest, s =>
    if ceRank s a ≠ 0 then sendPkt s (barPacket s x a 5 0)
    else
      let b := { getBar s a x with own := true }
      let s := setBar s a x b
      if b.cur + 1 = ceSize s a then torusArrive x all rest s else s

/-- R407: the axis on whose ring a node arrives here: this GW7 is rank 0 of it and the node another rank. -/
def barAxisOf (s : State) (node : Nat) : Option (Nat × Nat) :=
  (barAxes s).findSome? (fun a => if ceRank s a = 0 then
    match rankOf s a node with | some k => if k = 0 then none else some (a, k) | none => none else none)

/-- R408: an arrival from another GW7 is counted by rank 0 of an axis, by the rules of R256 and R258. -/
def torusCount (s : State) (c : Nat) (pkt : Packet) : State :=
  let x := pkt.addr.toNat % 64
  let rb := bit pkt.addr.toNat 6
  match barAxisOf s (epNode pkt.src) with
  | none => sendNack s pkt 0x0205
  | some (a, k) =>
    if !torusHere s c x then s
    else
      let t := getCtx s x
      let b := getBar s a x
      let toCur := rb == t.round && !t.leaving
      if (bit b.a k && toCur) || bit b.b k then sendNack s pkt 0x0205
      else if toCur then
        let b := { b with cur := b.cur + 1, a := b.a + 2 ^ k }
        let s := setBar s a x b
        let axes := barAxes s
        if b.own ∧ b.cur + 1 = ceSize s a then torusArrive x axes (axes.filter (fun d => a < d)) s else s
      else setBar s a x { b with next := b.next + 1, b := b.b + 2 ^ k }

/-- R407: a release on an axis is repeated along the axes before it and returns to the barrier unit. -/
def torusReleaseIn (s : State) (c : Nat) (pkt : Packet) : State :=
  let x := pkt.addr.toNat % 64
  if torusHere s c x then torusRelease s x ((barAxes s).filter (fun d => d < pkt.maxis.toNat)) else s

/-- R257: when every member has arrived the round completes. A TORUS context with no member here completes its share at once; a LOCAL
or CHIP context without members runs no round (log entry 111). -/
def checkRound (s : State) (x : Nat) : State :=
  let t := getCtx s x
  if t.cstate = 1 ∧ !t.leaving ∧ !t.globalPend ∧ t.cur = (members s x).length ∧ (t.cur ≠ 0 ∨ ctxMode s x = 3) then
    if ctxMode s x = 3 then
      let s := setCtx s x { t with globalPend := true }
      torusArrive x (barAxes s) (barAxes s) s
    else setCtx s x { t with leaving := true }
  else s

/-- SY_BAR: the instruction issues and the engine waits, its arrival on the way (val 1) (R256). -/
def doSyBar (s : State) (e : Eng) : State :=
  runCtl s e 4 0x85 [(0, 74)] (fun s q =>
    beginWait (traceEv s e (iT q.word) (iTag q.word) q.idx 2 0) e q .sybar (ifld q.word 74 6) 1)

/-- BARRIER_ARRIVAL: R256, R258. -/
def barrierArrive (s : State) (e : Eng) : State :=
  let g := getEng s e
  match g.wait, g.queue with
  | some w, q :: _ =>
    if g.st = .waiting ∧ w.kind = .sybar ∧ w.val = 1 ∧ !drainOn s 7 0 then
      let x := w.ctr
      let t := getCtx s x
      if t.cstate = 2 then faultQ s e q 0x0202 0 0 0
      else match memberOf s e with
        | none => faultQ s e q 0x0208 0 0 0
        | some m =>
          let toCur := (bit g.rbits x == t.round) && !t.leaving
          if !inMask s x m || t.cstate != 1 then faultQ s e q 0x0208 0 0 0
          else if (bit t.a m && toCur) || bit t.b m then faultQ s e q 0x0205 0 0 0
          else
            let s := modEng s e (fun g => { g with wait := some { w with val := 0 } })
            if toCur then checkRound (setCtx s x { t with cur := t.cur + 1, a := t.a + 2 ^ m }) x
            else setCtx s x { t with next := t.next + 1, b := t.b + 2 ^ m }
    else s
  | _, _ => s

/-- BARRIER_RELEASES_DELIVERED: R257. -/
def barrierDelivered (s : State) (x : Nat) : State :=
  let t := getCtx s x
  if t.leaving then
    let s := traceCaps s ((members s x).foldl (releaseMember x t.a) s)
    let s := setCtx s x { t with round := !t.round, cur := t.next, a := t.b, next := 0, b := 0, leaving := false }
    let s := (List.range 4).foldl (fun s a => let b := getBar s a x; setBar s a x ⟨b.next, 0, b.b, 0, false⟩) s
    checkRound s x
  else s

/-- R261: a context becomes ORPHANED; every engine waiting on it faults with its own tag. A QUIESCED engine, which R213 lets no fault
reach, faults when it resumes (log entry 112). -/
def orphanCtx (s : State) (x : Nat) : State :=
  let t := getCtx s x
  if t.cstate ≠ 1 then s
  else
    let s := setCtx s x { t with cstate := 2, leaving := false, globalPend := false }
    (members s x).foldl (fun s m => match engOfMember s m with
      | none => s
      | some e => match (getEng s e).queue with
        | q :: _ => if (getEng s e).st = .waiting ∧ waitsAt s e x then faultQ s e q 0x0202 0 0 0 else s
        | [] => s) s

/-- R261: a reset domain's engines leave their contexts ORPHANED. -/
def orphanMembers (s : State) (ms : List Nat) : State :=
  (List.range 64).foldl (fun s x => if ms.any (inMask s x) then orphanCtx s x else s) s

/-- R261, R412: the TORUS contexts whose BA_CFG.CE names a collective engine that resets. -/
def orphanTorus (s : State) (c : Nat) : State :=
  (List.range 64).foldl (fun s x => if torusHere s c x then orphanCtx s x else s) s

/-- R408: the refusal of a cross-chip arrival faults the members waiting at the context. -/
def overrunCtx (s : State) (x : Nat) : State :=
  (members s x).foldl (fun s m => match engOfMember s m with
    | none => s
    | some e => match (getEng s e).queue with
      | q :: _ => if (getEng s e).st = .waiting ∧ waitsAt s e x then faultQ s e q 0x0205 0 0 0 else s
      | [] => s) s

/-- BA_CFG_WRITE: R259, R260. Register 0 is BA_CFG, 1 + i is BA_MASKi. -/
def writeBaCfg (s : State) (x reg : Nat) (v : Word) : State :=
  let t := getCtx s x
  let waited := (members s x).any (fun m => match engOfMember s m with
    | none => false
    | some e => ((getEng s e).st == .waiting || (getEng s e).st == .quiesced) && waitsAt s e x)
  let err := setF s BA_STATUS_CFG_ERR 0 1
  if t.cstate = 1 ∨ waited then err
  else
    let k := if reg = 0 then regKey 7 (1 + x) 0x40 else regKey 7 (1 + x) (0x50 + 4 * (reg - 1))
    let mask := if reg = 0 then 2 ^ 10 else if reg = 9 then 2 ^ 4 else 2 ^ 32
    let s' := regSet s k (BitVec.ofNat 64 (v.toNat % mask))
    let tile := getF s' BA_CFG_TILE (1 + x)
    if ctxMode s' x = 1 ∧ (members s' x).any (fun m => m / 4 != tile) then err
    else if reg ≠ 0 then s'
    else if ctxMode s' x = 0 then setCtx s' x { t with cstate := 0 }
    else
      let s' := (members s' x).foldl (fun s m => match engOfMember s m with
        | none => s
        | some e => modEng s e (fun g => { g with rbits := if bit g.rbits x then g.rbits - 2 ^ x else g.rbits })) s'
      checkRound (setCtx (dropBars s' x) x { BaCtx.reset with cstate := 1 }) x

/-! Step marks (R22, R221 to R224). -/

/-- R221: the engines that take part in step marks, by index. -/
def participants (s : State) : List Nat := (List.range 292).filter (fun i => getP s (engOf i) P_PCTL_MARK_EN == 1)

/-- R222: one engine waiting in the mark goes on; its ct.mark completes with the mark (R220). -/
def releaseMark (s : State) (i : Nat) : State :=
  match passWait s (engOf i) with
  | (s, some d) => { s with mark := { s.mark with sigs := s.mark.sigs ++ [(i, d)] } }
  | (s, none) => s

/-- R22, R222: the last participant has issued: statistics latch, the engines go on, the mirror fence begins. -/
def beginMark (s : State) : State :=
  let s := if markLatches s then periodEnd s s.gsc else s
  let who := s.mark.arrived
  let s := { s with mark := { s.mark with phase := 1, arrived := [], since := s.gsc, fence := s.folio.dups.flatMap (fun d => if d.again then [d.line, d.line] else [d.line]) } }
  who.foldl releaseMark s

/-- CT_MARK: R222 to R224. A mark whose fence waits for nothing completes in the cycle it begins (R22), before any engine can issue the
next ct.mark: that one waits for STEP_MARK_COMPLETE. -/
def doCtMark (s : State) (e : Eng) : State :=
  runCtl s e 0 4 [(0, 75)] (fun s q =>
    if getP s e P_PCTL_MARK_EN ≠ 1 then finishFront s e q
    else if s.mark.phase = 1 ∧ s.mark.fence = [] then s
    else
      let n : Word := BitVec.ofNat 32 (getG s e (ifld q.word 75 5)).toNat
      if n ≠ s.mark.last + 1 then faultQ s e q 0x0D04 0 0 0
      else
        let s := beginWait (traceEv s e (iT q.word) (iTag q.word) q.idx 2 0) e q .ctmark 0 0
        let s := { s with mark := { s.mark with arrived := s.mark.arrived ++ [engIdx e] } }
        if s.mark.phase = 0 ∧ (participants s).all (fun i => s.mark.arrived.contains i) then traceCaps s (beginMark s) else s)

/-! The wait-graph snapshot (R263 to R266). -/

/-- R142: a space 3 address word names tile `p` of this GW7. -/
def rsigHere (s : State) (a p : Nat) : Bool := bits a 48 16 == nodeId s && physOf s (bits a 40 8) == some p

/-- The instruction would add to counter `c` of physical tile `p` when an engine runs it (R263). -/
def wouldSignal (s : State) (e : Eng) (w : IWord) (p c : Nat) : Bool :=
  let home := homeOf s e == some p
  (home && iS w && iSctr w == c)
  || (home && iCls w == 4 && iOp w == 0x81 && ifld w 72 8 == c)
  || (iCls w == 4 && iOp w == 0x83 && ifld w 67 8 == c &&
      (let ep := (getG s e (ifld w 75 5)).toNat % 2 ^ 24
       ep / 256 == nodeId s && physOf s (ep % 256) == some p))
  || (iCls w == 3 && iOp w ≤ 0x42 && home && ibit w 35 && ifld w 27 8 == c)
  || (iCls w == 3 && iOp w ≤ 0x41 && ibit w 44 && ifld w 36 8 == c &&
      (match ifld w 74 3 with
       | 0 => home
       | 2 => physOf s (bits (getG s e (ifld w 64 5)).toNat 40 8) == some p
       | 3 => rsigHere s (getG s e (ifld w 64 5)).toNat p
       | _ => false))
  || (iCls w == 3 && iOp w == 0x43 && home && ibit w 40 && ifld w 32 8 == c)
  || (iCls w == 5 && home && iOp w ≤ 0xA3 && ibit w 34 && ifld w 26 8 == c)
  || (iCls w == 5 && home && iOp w == 0xA6 && ifld w 28 8 == c)

/-- The engine's uncompleted work would add to the counter (R263). -/
def workSignals (s : State) (e : Eng) (p c : Nat) : Bool :=
  let home := homeOf s e == some p
  let t := getTile s (engInst e)
  ((getEng s e).sigs.any (fun x => (home && x.sctr == some c) || (x.own && x.ctr == c && physOf s (x.dst % 256) == some p)))
  || (home && s.mark.sigs.any (fun x => x.1 == engIdx e && x.2.sctr == some c))
  || (match e with
      | .tile _ .mx => home && t.mx.fly.any (fun f => f.done.sctr == some c)
      | .tile _ .vx => home && t.vx.fly.any (fun f => f.done.sctr == some c)
      | .tile _ .dm => t.dm.descs.any (fun d => (home && (d.sctr == some c || (!d.esigDone && d.ectr == some c)))
          || (d.rctr == some c && (if d.dsp = 0 then home
              else if d.dsp = 2 then physOf s (bits d.dst 40 8) == some p else rsigHere s d.dst p)))
      | .tile _ .sy => false
      | .ce k => match (getCe s k.val).op with
        | some o => home && (o.sctr == some c || o.nsig == some c || (o.op == 0xA6 && o.rctr == c))
        | none => false)

/-- R263: engine `j` is a pending signaller of counter `c` of tile `p`. -/
def signaller (s : State) (p c j : Nat) : Bool :=
  let e := engOf j
  (getEng s e).queue.any (fun q => wouldSignal s e q.word p c) || workSignals s e p c

/-- R263: the engines that could release an open wait of engine `i`. -/
def waitEdges (s : State) (i : Nat) (w : Wait) : List Nat :=
  let e := engOf i
  match w.kind with
  | .sybar =>
    let t := getCtx s w.ctr
    let inB := match memberOf s e with | some m => bit t.b m | none => false
    ((members s w.ctr).filter (fun m => if inB then !bit t.b m else !bit t.a m)).filterMap (fun m => (engOfMember s m).map engIdx)
  | .ctmark => (participants s).filter (fun j => !s.mark.arrived.contains j)
  | .sysig => []
  | _ => match homeOf s e with
    | some p => (List.range 292).filter (signaller s p w.ctr)
    | none => []

/-- The open waits of an engine in WAITING. -/
def openWaits (s : State) (i : Nat) : List Wait :=
  let g := getEng s (engOf i)
  if g.st = .waiting then g.wait.toList ++ g.fwait.toList else []

/-- The engines in WAITING. -/
def waiters (s : State) : List Nat := (List.range 292).filter (fun i => !(openWaits s i).isEmpty)

/-- The engines reached from a list of engines in at most `fuel` edges. -/
def reach (edges : List (Nat × List Nat)) : Nat → List Nat → List Nat
  | 0, l => l
  | f + 1, l => reach edges f ((l ++ edges.flatMap (fun x => if l.contains x.1 then x.2 else [])).eraseDups)

/-- R265: the engines that lie on a cycle of the graph. -/
def onCycle (edges : List (Nat × List Nat)) : List Nat :=
  (edges.filter (fun x => (reach edges edges.length x.2).contains x.1)).map (·.1)

/-- R266: the kind code of a snapshot entry. -/
def waitKindCode : WaitKind → Nat
  | .wflag => 0 | .sywait => 1 | .sybar => 2 | .ctmark => 3 | .sysig => 4 | .fctr => 0

/-- R266: the counter value of a held sy.sig's entry: that of its target's counter, on this GW7; the spec does not say what an entry
shows of a counter elsewhere, and the model shows 0 (log entry 109). -/
def sigTarget (s : State) (e : Eng) (c : Nat) : Nat :=
  match (getEng s e).queue with
  | q :: _ =>
    let ep := (getG s e (ifld q.word 75 5)).toNat % 2 ^ 24
    if ep / 256 = nodeId s then ((physOf s (ep % 256)).map (fun p => getCtr s p c)).getD 0 else 0
  | [] => 0

/-- The instruction that the fill stage's wait belongs to: tag and PC. -/
def fillTag (g : Engine) : Nat × Nat :=
  match g.queue.find? fillWaits with
  | some q => (iTag q.word, q.idx)
  | none => (0, g.fetchPc)

/-- R266: the instruction a wait belongs to: tag and PC. A ring pass that waits for a slot has left the queue. -/
def waitTag (s : State) (e : Eng) : Nat × Nat :=
  let g : Engine := getEng s e
  let op : Option CeOp := match e, g.wait with
    | .ce c, some w => if w.kind = WaitKind.fctr then (getCe s c.val).op else none
    | _, _ => none
  match op with
  | some o => (o.tag, o.pc)
  | none => match g.wait, g.queue with
  | some _, q :: _ => (iTag q.word, q.idx)
  | none, _ => fillTag g
  | _, _ => (0, g.fetchPc)

/-- The instruction of the wait that has run for `lim` counts: the issue wait before that of the fill stage. -/
def lateTag (s : State) (e : Eng) (lim : Nat) : Nat × Nat :=
  if (getEng s e).wait.toList.any (fun w => lim ≤ waitElapsed s e w) then waitTag s e else fillTag (getEng s e)

/-- R229: the T flag of the instruction that waits, where the queue still holds it. -/
def waitTraced (s : State) (e : Eng) (pc : Nat) : Bool := (getEng s e).queue.any (fun q => q.idx == pc && iT q.word)

/-- R266: one 16-byte entry. -/
def snapEntry (s : State) (cyc : List Nat) (i : Nat) : List Byte :=
  let e := engOf i
  let w := (openWaits s i).head?.getD ⟨.wflag, 0, 0, 0, 0⟩
  let val := if w.kind = .wflag ∨ w.kind = .fctr then 1 else if w.kind = .sywait ∨ w.kind = .sysig then w.val else 0
  let cur := match w.kind with
    | .sybar => (getCtx s w.ctr).cur
    | .ctmark => 0
    | .sysig => sigTarget s e w.ctr
    | _ => match homeOf s e with | some p => getCtr s p w.ctr | none => 0
  bytesOf 1 (engUnit s e) ++ bytesOf 1 (engClass e + (if cyc.contains i then 16 else 0)) ++ bytesOf 1 (waitKindCode w.kind)
    ++ bytesOf 1 w.ctr ++ bytesOf 4 val ++ bytesOf 4 cur ++ bytesOf 2 (waitTag s e).1 ++ bytesOf 2 (waitTag s e).2

/-- R266, R529: write a snapshot into its slot of the ash record. -/
def ashSnapshot (s : State) (num : Nat) (cyc ws : List Nat) : State :=
  let nx := readNat s 0xF500000024 4
  let slot := bits nx 8 3
  let es := (ws.take 260).flatMap (snapEntry s cyc)
  let body := bytesOf 4 num ++ bytesOf 4 (min ws.length 260) ++ bytesOf 8 s.gsc ++ es
  let s := writeBytes s (0xF500005000 + 5120 * slot) (good body)
  writeNat s 0xF500000024 4 (putBits nx 8 3 ((slot + 1) % 8))

/-- WAIT_TIMEOUT: R253, R264: an open wait has run for P_WAIT_TMO; a snapshot starts, or the engine joins the one running, with the tag
and PC of the instruction that waits. -/
def waitTimeout (s : State) (e : Eng) : State :=
  let us := getP s e P_WAIT_TMO_US
  let lim := (if us = 0 then 1000000 else us) * 1000
  if (openWaits s (engIdx e)).any (fun w => lim ≤ waitElapsed s e w) then
    let s := setF s BA_STATUS_SNAP_BUSY 0 1
    if s.snapWaits.any (fun x => x.1 = engIdx e) then s else { s with snapWaits := s.snapWaits ++ [(engIdx e, lateTag s e lim)] }
  else s

/-- R265: the engine of a key faults with the instruction it waits in, which may ask for trace records. -/
def waitFault (code det : Nat) (s : State) (i : Nat) : State :=
  let x := waitTag s (engOf i)
  faultEngine s (engOf i) code x.1 x.2 (waitTraced s (engOf i) x.2) 0 0 det

/-- R265: an engine that timed out and lies on no cycle faults with the instruction that timed out, also when its wait has ended since
(log entry 110); one that has stopped meanwhile does not. -/
def lateFault (det : Nat) (s : State) (x : Nat × Nat × Nat) : State :=
  let g := getEng s (engOf x.1)
  if g.st = .running ∨ g.st = .waiting ∨ g.st = .armed then
    faultEngine s (engOf x.1) 0x0203 x.2.1 x.2.2 (waitTraced s (engOf x.1) x.2.2) 0 0 det
  else s

/-- WAIT_GRAPH_SNAPSHOT: R265, R266. -/
def snapshot (s : State) : State :=
  if flagF s BA_STATUS_SNAP_BUSY 0 then
    let ws := waiters s
    let edges := ws.map (fun i => (i, (openWaits s i).flatMap (waitEdges s i)))
    let cyc := onCycle edges
    let num := s.snapNum + 1
    let late := s.snapWaits.filter (fun x => !cyc.contains x.1)
    let s := ashSnapshot s num cyc ws
    let s := setF (setF { s with snapNum := num, snapWaits := [] } BA_STATUS_SNAP_BUSY 0 0) BA_SNAP_NUMBER 0 num
    let det := num % 2 ^ 32 + cyc.length * 2 ^ 32
    late.foldl (lateFault det) (cyc.foldl (waitFault 0x0204 det) s)
  else s

end Sys2Proof.Machine
end

