-- ==== Sys2Proof/Machine/Ash.lean ====
section
/-! DEFINITION. The ash record's header and dump directory (R529, R530), domain generations (R518), and the isolation of a domain
(R523 step 1), with the whole-chip fallback of R467. -/
namespace Sys2Proof.Machine

def ashBase : Nat := 0xF500000000
def ashRd (s : State) (off n : Nat) : Nat := readNat s (ashBase + off) n
def ashWr (s : State) (off n v : Nat) : State := writeNat s (ashBase + off) n v

/-- R518, R530: a domain's generation, kept in DGEN as well. -/
def setGen (s : State) (d g : Nat) : State := ashWr (setDom s d { getDom s d with gen := g }) (48 + d) 1 g

/-- R518: a generation increments modulo 256. -/
def nextGen (s : State) (d : Nat) : State := setGen s d (((getDom s d).gen + 1) % 256)

/-- R532: a fresh header; its DGEN bytes are written with the generations. -/
def ashFresh (s : State) : State :=
  let s := zeroRange s ashBase (ashBase + 0x800000)
  writeBytes s ashBase (good ([0x47, 0x57, 0x37, 0x41, 0x53, 0x48, 0x30, 0x31] ++ bytesOf 2 1))

/-- R530: the byte address of a directory entry, by its index. -/
def dirOff (e : Nat) : Nat := 0x1000 + 256 * e

/-- R527, R530: the slot of the snapshot gathered for the fault that led to the reset: the last one, when a tile or collective engine
shows SYNC_TIMEOUT or SYNC_DEADLOCK_SUSPECT as its last fault; else 0xFF (log entry 34). -/
def dumpSnap (s : State) (d : Nat) : Nat :=
  let code := if d < 72 then getF s SY_LAST_FAULT_CODE d else if 96 ≤ d ∧ d < 100 then getF s CE_LAST_FAULT_CODE (d - 96) else 0
  if code = 0x0203 ∨ code = 0x0204 then (bits (ashRd s 36 4) 8 3 + 7) % 8 else 0xFF

/-- R530: a dump begins: its directory entry, with COLLECTED = 0. -/
def beginDump (s : State) (d cause : Nat) : State :=
  let num := ashRd s 24 4
  let dn := ashRd s 32 4
  let e := bits dn 0 6
  let entry := bytesOf 4 num ++ bytesOf 1 d ++ bytesOf 1 cause ++ bytesOf 1 0 ++ bytesOf 1 (jobGen s) ++ bytesOf 8 s.gsc ++ bytesOf 8 0
    ++ bytesOf 1 (getDom s d).gen ++ bytesOf 1 (dumpSnap s d) ++ bytesOf 2 0 ++ bytesOf 4 (bits (ashRd s 28 4) 0 15)
    ++ bytesOf 4 (bits dn 16 9) ++ bytesOf 220 0
  let s := writeBytes s (ashBase + dirOff e) (good entry)
  let s := ashWr (ashWr s 24 4 ((num + 1) % 2 ^ 32)) 32 4 (putBits dn 0 6 ((e + 1) % 64))
  setDom s d { getDom s d with entry := some e, cause := cause }

/-- The dump number of a domain's entry. -/
def dumpNumber (s : State) (d : Nat) : Nat := match (getDom s d).entry with | some e => ashRd s (dirOff e) 4 | none => 0

/-- Set a bit of FLAGS of a domain's entry. -/
def setFlag (s : State) (d i : Nat) : State :=
  match (getDom s d).entry with
  | some e => ashWr s (dirOff e + 6) 1 (putBits (ashRd s (dirOff e + 6) 1) i 1 1)
  | none => s

/-! Isolation (R523, R525). -/

/-- R525: a collection joins those that wait; a whole-chip reset abandons them. -/
def queueReset (s : State) (d : Nat) (coll : Bool) : State :=
  { s with resetQ := if d = 103 then (if coll then [103] else []) else if coll then s.resetQ ++ [d] else s.resetQ }

/-- R523 step 1: a domain isolates: its dump begins, its collection runs or waits (R525), and the contexts of its members are
orphaned (R261). A whole-chip reset abandons the collections that wait. -/
def isolateDomain (s : State) (d cause : Nat) (coll : Bool) : State :=
  let s := beginDump s d cause
  let x := getDom s d
  let s := setDom s d { x with phase := 2, collect := coll, timeouts := 0, last := some s.gsc }
  let s := queueReset s d coll
  let s := setTimer (setF s MG_RESET_STATUS_LAST 0 d) (tmAccess d) s.gsc
  if d < 72 then
    match logOf s d with
    | some l => orphanMembers s [4 * l, 4 * l + 1, 4 * l + 2, 4 * l + 3]
    | none => s
  else if 96 ≤ d ∧ d < 100 then orphanTorus (orphanMembers s [256 + (d - 96)]) (d - 96)
  else s

/-- R478: CHIP_POISON, with its structure, syndrome, symbol position and cause. -/
def chipPoisonRec (s : State) (addr detail cause : Nat) : State :=
  raise s 1 0 { mgcRec s 0x0505 0xFF (detail + 2 ^ 32 * cause) with addr := addr }

/-- R467: an uncorrectable word in a structure that the GW7 owns: the record, then the whole-chip reset with collection, which leaves the
lending state FAULTED. -/
def chipPoison (s : State) (addr detail : Nat) : State :=
  if isolated s 103 then s
  else isolateDomain (chipPoisonRec s addr detail 1) 103 3 true

/-- R380: the packets of the edition that INJECT does not name. -/
def oldCount (s : State) : Nat :=
  let inj := getF s RT_EDITION_INJECT 0
  let old (p : Packet) : Bool := p.edn.toNat != inj
  (s.router.inject.filter old).length + (s.router.held.filter (fun h => old h.pkt)).length
    + sumNat ((List.range 18).map (fun f => ((getFlue s f).txq.filter (fun h => old h.pkt)).length
      + ((getFlue s f).cur.filter old).toList.length + ((getFlue s f).unacked.filter (fun u => old u.1)).length))

/-- R380: RT_OLD.SEEN is set whenever that count is nonzero. -/
def noteOld (s : State) : State := if oldCount s = 0 then s else setF s RT_OLD_SEEN 0 1

/-- R466: the words of an edition that are poisoned. -/
def catalogueBad (s : State) (e : Nat) : Bool :=
  s.poison.any (fun kv => kv.2 && (0xF300000000 + e * 0x80000) / 16 ≤ kv.1 && kv.1 < (0xF300000000 + (e + 1) * 0x80000) / 16)

end Sys2Proof.Machine
end

