-- ==== Sys2Proof/Machine/LineCode.lean ====
section
/-! DEFINITION. The (144,128) line code (R455 to R459), how a word that is read is judged, and the line records, the ledger and
the classification of what it finds (R473, R474, R478). -/
namespace Sys2Proof.Machine

/-- R456: times alpha in GF(16), with the polynomial z^4 + z + 1. -/
def gfX (a : Nat) : Nat := if 8 ≤ a then (2 * a) ^^^ 0x13 else 2 * a

/-- R456: the product in GF(16). -/
def gfMul (a b : Nat) : Nat :=
  (if bit b 0 then a else 0) ^^^ (if bit b 1 then gfX a else 0) ^^^ (if bit b 2 then gfX (gfX a) else 0)
    ^^^ (if bit b 3 then gfX (gfX (gfX a)) else 0)

/-- a / b in GF(16), for b not 0. -/
def gfDiv (a b : Nat) : Nat := ((List.range 16).find? (fun q => gfMul q b == a)).getD 0

/-- R456: the quadric Q(x, y). -/
def gfQ (x y : Nat) : Nat := gfMul x x ^^^ gfMul x y ^^^ gfMul 8 (gfMul y y)

/-- Four elements of GF(16). -/
structure Syn where
  s0 : Nat
  s1 : Nat
  s2 : Nat
  s3 : Nat
  deriving DecidableEq, Repr

def Syn.add (a b : Syn) : Syn := ⟨a.s0 ^^^ b.s0, a.s1 ^^^ b.s1, a.s2 ^^^ b.s2, a.s3 ^^^ b.s3⟩
def Syn.scale (k : Nat) (a : Syn) : Syn := ⟨gfMul k a.s0, gfMul k a.s1, gfMul k a.s2, gfMul k a.s3⟩

/-- The column of a point (x, y). -/
def colOf (x y : Nat) : Syn := ⟨1, x, y, gfQ x y⟩

/-- R456: the column of symbol j: data 0 to 31, check 32 to 35, address 36 to 43. -/
def lineCol (j : Nat) : Syn :=
  if j < 32 then colOf (j % 16) (2 + j / 16)
  else if j = 32 then colOf 0 0
  else if j = 33 then ⟨0, 0, 0, 1⟩
  else if j = 34 then colOf 1 0
  else if j = 35 then colOf 0 1
  else colOf (j - 36) 4

/-- R456: the poison point. -/
def poisonCol : Syn := colOf 0 5

/-- R457: address symbol m of a fold address. -/
def addrSym (a m : Nat) : Nat := if m = 0 then bits a 4 4 ^^^ bits a 36 4 else bits a (4 * m + 4) 4

/-- The sum over the data and the address symbols. -/
def lineSum (w a : Nat) : Syn :=
  (List.range 8).foldl (fun t m => t.add (Syn.scale (addrSym a m) (lineCol (36 + m))))
    ((List.range 32).foldl (fun t k => t.add (Syn.scale (bits w (4 * k) 4) (lineCol k))) ⟨0, 0, 0, 0⟩)

/-- R457: the check field of a word at a fold address. -/
def lineCheck (w a : Nat) (poison : Bool) : Nat :=
  let t := if poison then (lineSum w a).add poisonCol else lineSum w a
  (t.s0 ^^^ t.s1 ^^^ t.s2) + 16 * (t.s3 ^^^ t.s1 ^^^ gfMul 8 t.s2) + 256 * t.s1 + 4096 * t.s2

/-- R458: the syndrome of a stored word and check field, read at a fold address. -/
def lineSyn (w chk a : Nat) : Syn :=
  (List.range 4).foldl (fun t i => t.add (Syn.scale (bits chk (4 * i) 4) (lineCol (32 + i)))) (lineSum w a)

/-- What a reader makes of a word (R458). -/
inductive Verdict
  | good
  | poisoned
  | corrected (sym : Nat) (v : Nat)
  | misdirected (sym : Nat)
  | uncorrectable
  deriving DecidableEq, Repr

/-- R458: the symbol whose column passes the single-symbol test. -/
def nameSym (t : Syn) (js : List Nat) : Option Nat :=
  if t.s0 = 0 then none else js.find? (fun j => Syn.scale t.s0 (lineCol j) == t)

/-- R458: the rows in order. -/
def judge (t : Syn) : Verdict :=
  if t = ⟨0, 0, 0, 0⟩ then .good
  else if t = poisonCol then .poisoned
  else if t.s0 = 0 ∧ t.s1 = 0 ∧ t.s2 = 0 then .corrected 33 t.s3
  else match nameSym t (List.range 36) with
    | some j => .corrected j t.s0
    | none => match nameSym t ((List.range 8).map (· + 36)) with
      | some j => .misdirected j
      | none => .uncorrectable

/-- R455: the fold addresses of the accumulation buffers' words. -/
def inBuf (a : Nat) : Bool := 0xF400000000 ≤ a && a < 0xF412000000

/-- The first accumulation buffer entry of the word at a fold address, with its tile. -/
def bufEntry (a : Nat) : Nat × Nat := ((a - 0xF400000000) / 0x400000, (a - 0xF400000000) % 0x100000 / 16 * 4)

/-- The word stored at a fold address, and whether it is poisoned. -/
def storedWord (s : State) (a : Nat) : Nat × Bool :=
  if inBuf a then
    let x := (getTile s (bufEntry a).1).mx
    let e := (bufEntry a).2
    (sumNat ((List.range 4).map (fun j => (mapGet (fun _ => 0) x.acc (e + j)).toNat * 2 ^ (32 * j)))
      , (List.range 4).any (fun j => mapGet (fun _ => false) x.accBad (e + j)))
  else (readNat s a 16, isBad s a)

/-- The word at a fold address becomes poisoned. -/
def poisonStored (s : State) (a : Nat) : State :=
  if inBuf a then
    let e := (bufEntry a).2
    modTile s (bufEntry a).1 (fun t => { t with mx := { t.mx with
      accBad := (List.range 4).foldl (fun m j => mapSet (fun _ => false) m (e + j) true) t.mx.accBad } })
  else poisonWord s a

/-- A word that a reader meets: its verdict, the data bits as corrected, and its syndrome. The stored word is that of `readAt`
with the error symbols added. -/
def readLine (s : State) (e : LineErr) : Verdict × Nat × Syn :=
  let src := e.readAt.toNat / 16 * 16
  let w := (storedWord s src).1
  let chk := lineCheck w src (storedWord s src).2
  let w' := w ^^^ bits e.flip.toNat 0 128
  let t := lineSyn w' (chk ^^^ bits e.flip.toNat 128 16) (e.addr.toNat / 16 * 16)
  let v := judge t
  match v with
  | .corrected j x => (v, if j < 32 then w' ^^^ (x * 2 ^ (4 * j)) else w', t)
  | _ => (v, w', t)

/-! The ledger (R473). Kinds: 1 uncorrectable word, 2 corrected words, 3 classification, 4 retirement, 5 hand-over, 6 silent error,
8 BIST, 9 lane, 11 key change, 12 on-die ECC reports (log entry 12). Units: a physical tile, 0x100 + 64 s + c for a pseudo-channel,
0x300 + 16 f + lane, 0x500 + c for a collective engine, 0x510 + s for a slice. -/

def logLedger (s : State) (kind unit : Nat) (data : List Nat) : State :=
  { s with ledger := s.ledger ++ [⟨kind, unit, s.gsc, data⟩] }

/-- R473: corrected words are logged as counts per unit per hour (log entry 138). -/
def logCorrected (s : State) (unit : Nat) : State :=
  let same (r : LedgerRec) : Bool := r.kind == 2 && r.unit == unit && r.gsc / 3600000000000 == s.gsc / 3600000000000
  if s.ledger.any same then { s with ledger := s.ledger.map (fun r => if same r then { r with data := r.data.map (· + 1) } else r) }
  else logLedger s 2 unit [1]

/-- Where a line code finds a word: structure code of R478, the block and instance that raises the record, its UNIT, its ledger unit. -/
structure LinePlace where
  struct : Nat
  blk : Nat
  inst : Nat
  unit : Nat
  ledger : Nat

/-- R478: the DETAIL of a line record. -/
def lineDetail (struct : Nat) (t : Syn) (pos : Nat) : Nat :=
  struct + 2 ^ 8 * (t.s0 + 16 * t.s1 + 256 * t.s2 + 4096 * t.s3) + 2 ^ 24 * pos

/-- R478: a line record; at most one for each structure in a millisecond, the rest counted. -/
def lineRecord (s : State) (pl : LinePlace) (code addr detail : Nat) : State :=
  let last := getTimer s (tmLine pl.struct)
  if last ≠ 0 ∧ s.gsc < last - 1 + 1000000 then addF s MG_LINE_DROPPED 0 1
  else
    let s := setTimer s (tmLine pl.struct) (s.gsc + 1)
    raise s pl.blk pl.inst ⟨code, pl.unit, 0, 0, 0, s.gsc, jobGen s, 0xFF, addr, 0, detail⟩

/-- R458, R459, R478, R551: a word that cannot be corrected is poisoned, entered in the ledger and recorded. -/
def lostWord (s : State) (pl : LinePlace) (code a detail : Nat) : State :=
  let s := logLedger (poisonStored s a) 1 pl.ledger [a]
  lineRecord (if code = 0x0503 then bumpLife s 1 else s) pl code a detail

/-- R474: a corrected word has been rewritten and reread: permanent when the reread shows the same symbol, else transient. -/
def classifyWord (s : State) (pl : LinePlace) (permanent : Bool) : State :=
  let v := if permanent then 2 else 1
  raiseMgc (bumpLife (logLedger s 3 pl.ledger [v]) (1 + v)) 0x0506 (v * 2 ^ 32)

/-- R458, R459, R474: one word that a sweep reads: a correctable word is rewritten and reread (`again` is what the reread met),
a word that cannot be corrected is marked poisoned and recorded. -/
def sweepWord (s : State) (pl : LinePlace) (e : LineErr) (again : Option LineErr) : State × Verdict :=
  let (v, w, t) := readLine s e
  let a := e.addr.toNat / 16 * 16
  match v with
  | .good => (s, v)
  | .poisoned => (s, v)
  | .corrected j _ =>
    let s := logCorrected (writeNat s a 16 w) pl.ledger
    let s := if 0x100 ≤ pl.ledger ∧ pl.ledger < 0x280 then addWear s (2000 + (pl.ledger - 0x100)) 1 else s
    let hard := match again with
      | some e' => (match (readLine s e').1 with | .corrected j' _ => j' == j | _ => false)
      | none => false
    (classifyWord s pl hard, v)
  | .misdirected j => (lostWord s pl 0x0504 a (lineDetail pl.struct t j), v)
  | .uncorrectable => (lostWord s pl 0x0503 a (lineDetail pl.struct t 0xFF), v)

/-- R458, R459: one word that an access reads: a correction is not written back; a bad word reaches the reader poisoned. -/
def accessWord (s : State) (pl : LinePlace) (e : LineErr) : State × Verdict :=
  let (v, _, t) := readLine s e
  let a := e.addr.toNat / 16 * 16
  match v with
  | .misdirected j => (lostWord s pl 0x0504 a (lineDetail pl.struct t j), v)
  | .uncorrectable => (lostWord s pl 0x0503 a (lineDetail pl.struct t 0xFF), v)
  | _ => (s, v)

/-- The ledger's unit of an engine (R473) and the place of its instruction memory (R206, R478). -/
def imemPlace (s : State) (e : Eng) : LinePlace :=
  ⟨4, engBlk e, engInst e, engUnit s e, match e with | .tile p _ => p.val | .ce c => 0x500 + c.val⟩

/-- R462: a parity error in state that the engine keeps in registers faults it, with structure code 12 in DETAIL. -/
def parityFault (s : State) (e : Eng) : State :=
  let g := getEng s e
  if g.st ≠ .running ∧ g.st ≠ .waiting then s
  else match g.queue with
    | q :: _ => faultEngine s e 0x0303 (iTag q.word) q.idx (iT q.word) 0 0 12
    | [] => faultEngine s e 0x0303 0 g.fetchPc false 0 0 12

/-- ENGINE_FETCH: R206, R208. The word passes its line code at its window address; `errs` is what the reader meets there. `parity`: a
register of the engine's state shows a parity error (R462, log entry 126). -/
def engineFetch (s : State) (e : Eng) (errs : List LineErr) (parity : Bool) : State :=
  let a := imemBase e + 16 * (getEng s e).fetchPc
  if parity then parityFault s e
  else if !canFetch s e || decide (imemSize e ≤ (getEng s e).fetchPc) then fetch s e
  else match errs.find? (fun x => x.addr.toNat / 16 == a / 16) with
    | none => fetch s e
    | some x =>
      let (v, w, _) := readLine s x
      let s := (accessWord s (imemPlace s e) x).1
      fetchAs s e (some (BitVec.ofNat 128 w, match v with | .good => false | .corrected _ _ => false | _ => true))

/-- The errors of a sweep, each with what the reread of its word met: a second error of the same address is the reread's. -/
def pairErrs : List LineErr → List (LineErr × Option LineErr)
  | [] => []
  | [e] => [(e, none)]
  | e :: e' :: r => if e'.addr = e.addr then (e, some e') :: pairErrs r else (e, none) :: pairErrs (e' :: r)

/-- Whether a verdict counts as corrected, and whether it counts as poisoned. -/
def isCorrected : Verdict → Bool
  | .corrected _ _ => true
  | _ => false

def isLost : Verdict → Bool
  | .misdirected _ => true
  | .uncorrectable => true
  | _ => false

end Sys2Proof.Machine
end

