-- ==== Sys2Proof/Machine/Num.lean ====
section
/-! DEFINITION. Number formats, exact values, rounding and conversion, and the defined dot product (R24 to R58).
A value is exact: a sign, a natural mantissa and a power of two, or a special. No rounding happens but where a rule rounds. -/
namespace Sys2Proof.Machine

/-- The format codes of R24 (codes 0xB to 0xF are reserved), and binary64, which has no code, and INT32 (R49, R163). -/
inductive Fmt
  | fp32 | bf16 | fp16 | e4m3 | e5m2 | e3m2 | e2m3 | e2m1 | int8 | int4 | e8m0 | binary64 | int32
  deriving DecidableEq, Repr

/-- R24: format of a 4-bit code. -/
def fmtOfCode : Nat → Option Fmt
  | 0 => some .fp32 | 1 => some .bf16 | 2 => some .fp16 | 3 => some .e4m3 | 4 => some .e5m2 | 5 => some .e3m2
  | 6 => some .e2m3 | 7 => some .e2m1 | 8 => some .int8 | 9 => some .int4 | 10 => some .e8m0 | _ => none

/-- R24: width in bits. -/
def fmtWidth : Fmt → Nat
  | .fp32 => 32 | .bf16 => 16 | .fp16 => 16 | .e4m3 => 8 | .e5m2 => 8 | .e3m2 => 6 | .e2m3 => 6 | .e2m1 => 4
  | .int8 => 8 | .int4 => 4 | .e8m0 => 8 | .binary64 => 64 | .int32 => 32

def fmtIsInt : Fmt → Bool
  | .int8 => true | .int4 => true | .int32 => true | _ => false

/-- R24: exponent width, mantissa width, bias. -/
def fmtEMB : Fmt → Nat × Nat × Nat
  | .fp32 => (8, 23, 127) | .bf16 => (8, 7, 127) | .fp16 => (5, 10, 15) | .e4m3 => (4, 3, 7) | .e5m2 => (5, 2, 15)
  | .e3m2 => (3, 2, 3) | .e2m3 => (2, 3, 1) | .e2m1 => (2, 1, 1) | .binary64 => (11, 52, 1023)
  | .e8m0 => (8, 0, 127) | .int8 => (0, 8, 0) | .int4 => (0, 4, 0) | .int32 => (0, 32, 0)

/-- R30: formats whose subnormals are flushed. -/
def fmtFlushes : Fmt → Bool
  | .fp32 => true | .bf16 => true | .binary64 => true | _ => false

/-- R26: formats whose all-ones exponent is infinity and NaN. -/
def fmtIeee : Fmt → Bool
  | .fp32 => true | .bf16 => true | .fp16 => true | .e5m2 => true | .binary64 => true | _ => false

/-- R26: the encoding of the largest finite value. -/
def fmtMaxCode : Fmt → Nat
  | .fp32 => 0x7F7FFFFF | .bf16 => 0x7F7F | .fp16 => 0x7BFF | .e4m3 => 0x7E | .e5m2 => 0x7B | .e3m2 => 0x1F
  | .e2m3 => 0x1F | .e2m1 => 0x7 | .int8 => 127 | .int4 => 7 | .e8m0 => 0xFE | .binary64 => 0x7FEFFFFFFFFFFFFF
  | .int32 => 0x7FFFFFFF

/-- R26, R27: the canonical NaN of the formats that have one. -/
def fmtNan : Fmt → Option Nat
  | .fp32 => some 0x7FC00000 | .bf16 => some 0x7FC0 | .fp16 => some 0x7E00 | .e4m3 => some 0x7F | .e5m2 => some 0x7E
  | .e8m0 => some 0xFF | .binary64 => some 0x7FF8000000000000 | _ => none

/-- An exact value: NaN, an infinity, or (-1)^neg * m * 2^e. A zero keeps its sign. -/
inductive FV
  | nan
  | inf (neg : Bool)
  | fin (neg : Bool) (m : Nat) (e : Int)
  deriving DecidableEq, Repr

def fvZero : FV := .fin false 0 0

def fvIsNan : FV → Bool
  | .nan => true | _ => false

def fvIsInf : FV → Bool
  | .inf _ => true | _ => false

def fvIsZero : FV → Bool
  | .fin _ 0 _ => true | _ => false

def fvNeg : FV → FV
  | .nan => .nan | .inf n => .inf (!n) | .fin n m e => .fin (!n) m e

def fvAbs : FV → FV
  | .nan => .nan | .inf _ => .inf false | .fin _ m e => .fin false m e

def fvSign : FV → Bool
  | .nan => false | .inf n => n | .fin n _ _ => n

/-- floor(log2 (m * 2^e)) for m not 0. -/
def flog2 (m : Nat) (e : Int) : Int := (m.log2 : Int) + e

/-- m * 2^k rounded down, for an integer k. -/
def scaleFloor (m : Nat) (k : Int) : Nat := if 0 ≤ k then m * 2 ^ k.toNat else m / 2 ^ (-k).toNat

/-- The signed integer m * 2^e in units of 2^u (exact when u is at most e). -/
def fvUnits (neg : Bool) (m : Nat) (e u : Int) : Int :=
  let x : Int := ((m * 2 ^ (e - u).toNat : Nat) : Int)
  if neg then -x else x

/-- R25, R26, R30: the value of an encoding. Integer formats read in two's complement. -/
def decodeNum (f : Fmt) (raw : Nat) : FV :=
  if fmtIsInt f then
    let x := sext (fmtWidth f) raw
    .fin (decide (x < 0)) x.natAbs 0
  else match f with
  | .e8m0 => if raw % 256 = 255 then .nan else .fin false 1 ((raw % 256 : Nat) - 127 : Int)
  | _ =>
    let (ew, mw, bias) := fmtEMB f
    let neg := bit raw (ew + mw)
    let ef := bits raw mw ew
    let mf := bits raw 0 mw
    let top := 2 ^ ew - 1
    if fmtIeee f && ef = top then (if mf = 0 then .inf neg else .nan)
    else if f = .e4m3 && ef = top && mf = 7 then .nan
    else if ef = 0 then
      (if fmtFlushes f || mf = 0 then .fin neg 0 0 else .fin neg mf ((1 : Int) - bias - mw))
    else .fin neg (2 ^ mw + mf) ((ef : Int) - bias - mw)

/-- The conversion flags of R40. -/
structure CFlags where
  ovf : Bool
  unf : Bool
  nanl : Bool
  deriving DecidableEq, Repr

def noFlags : CFlags := ⟨false, false, false⟩

def orFlags (a b : CFlags) : CFlags := ⟨a.ovf || b.ovf, a.unf || b.unf, a.nanl || b.nanl⟩

/-- m * 2^e in units of 2^q: to nearest, ties to even (R35), or by 16 random bits (R36). -/
def roundUnits (m : Nat) (e q : Int) (r : Option Nat) : Nat :=
  if q ≤ e then m * 2 ^ (e - q).toNat
  else match r with
  | none =>
    let d := 2 ^ (q - e).toNat
    let n := m / d
    let rem := m % d
    if 2 * rem > d || (2 * rem = d && n % 2 = 1) then n + 1 else n
  | some r => (m * 65536 / 2 ^ (q - e).toNat + r % 65536) / 65536

/-- R38: a result too large, or an infinity, by target. `sat` is the mode bit of E4M3 and E5M2. -/
def overflowCode (f : Fmt) (neg sat : Bool) : Nat :=
  let w := fmtWidth f
  let s := if neg then 2 ^ (w - 1) else 0
  match f with
  | .e4m3 => if sat then s + 0x7E else 0x7F
  | .e5m2 => if sat then s + 0x7B else s + 0x7C
  | .e3m2 => s + 0x1F
  | .e2m3 => s + 0x1F
  | .e2m1 => s + 0x7
  | .e8m0 => 0xFE
  | .int8 => if neg then 0x80 else 0x7F
  | .int4 => if neg then 0x8 else 0x7
  | .int32 => if neg then 0x80000000 else 0x7FFFFFFF
  | .fp32 => s + 0x7F800000
  | .bf16 => s + 0x7F80
  | .fp16 => s + 0x7C00
  | .binary64 => s + 0x7FF0000000000000

/-- R39: conversion to an integer format. -/
def encodeInt (f : Fmt) (v : FV) (r : Option Nat) : Nat × CFlags :=
  match v with
  | .nan => (0, { noFlags with nanl := true })
  | .inf neg => (overflowCode f neg true, noFlags)
  | .fin neg m e =>
    let n := roundUnits m e 0 r
    let w := fmtWidth f
    let lim := if neg then 2 ^ (w - 1) else 2 ^ (w - 1) - 1
    if n > lim then (overflowCode f neg true, { noFlags with ovf := true })
    else (wrapInt w (if neg then -(n : Int) else n), { noFlags with unf := decide (n = 0 ∧ m ≠ 0) })

/-- R39: conversion to E8M0. -/
def encodeE8M0 (v : FV) : Nat × CFlags :=
  match v with
  | .nan => (0xFF, noFlags)
  | .inf _ => (0xFE, noFlags)
  | .fin _ 0 _ => (0, noFlags)
  | .fin _ m e =>
    let k := flog2 m e + 127
    if k < 0 then (0, { noFlags with unf := true })
    else if k > 0xFE then (0xFE, { noFlags with ovf := true })
    else (k.toNat, noFlags)

/-- R35 step 1: the exponent of the spacing of a float format at a magnitude of binade `l`.
The flushing formats continue the spacing of normal numbers below the smallest normal, as though the exponent range went on: each binade
has its own (DEDUCED, log entry 6). -/
def spacingExp (f : Fmt) (l : Int) : Int :=
  let (_, mw, bias) := fmtEMB f
  (if fmtFlushes f then l else max l (1 - bias)) - mw

/-- R35 to R40: convert an exact value to a format, with the flags it sets.
`r` is none for rne and the 16 random bits for sr; `sat` is the E4M3 and E5M2 mode bit. -/
def encodeNum (f : Fmt) (v : FV) (r : Option Nat) (sat : Bool) : Nat × CFlags :=
  if fmtIsInt f then encodeInt f v r
  else match f, v with
  | .e8m0, v => encodeE8M0 v
  | f, .nan => match fmtNan f with
    | some n => (n, noFlags)
    | none => (0, { noFlags with nanl := true })
  | f, .inf neg => (overflowCode f neg sat, noFlags)
  | f, .fin neg m e =>
    let (ew, mw, bias) := fmtEMB f
    let s := if neg then 2 ^ (ew + mw) else 0
    if m = 0 then (s, noFlags)
    else
      let q := spacingExp f (flog2 m e)
      let n := roundUnits m e q r
      if n = 0 then (s, { noFlags with unf := true })
      else
        let l := flog2 n q
        let emin : Int := 1 - bias
        if l < emin then
          (if fmtFlushes f then (s, { noFlags with unf := true }) else (s + n, noFlags))
        else
          let code := ((l + bias).toNat) * 2 ^ mw + (scaleFloor n (q + mw - l) - 2 ^ mw)
          if code > fmtMaxCode f then (overflowCode f neg sat, { noFlags with ovf := true })
          else (s + code, noFlags)

/-- rne(x, F) as bits (R35). -/
def rneCode (f : Fmt) (v : FV) : Nat := (encodeNum f v none false).1

/-- rne32(x) as an exact value (R35). -/
def rne32 (v : FV) : FV := decodeNum .fp32 (rneCode .fp32 v)

/-- rne64(x) as an exact value (R35). -/
def rne64 (v : FV) : FV := decodeNum .binary64 (rneCode .binary64 v)

/-- Exact product with the specials of IEEE arithmetic (R42, R47). -/
def fvMul : FV → FV → FV
  | .nan, _ => .nan
  | _, .nan => .nan
  | .inf a, .inf b => .inf (a != b)
  | .inf a, .fin b m _ => if m = 0 then .nan else .inf (a != b)
  | .fin a m _, .inf b => if m = 0 then .nan else .inf (a != b)
  | .fin a m e, .fin b n f => .fin (a != b) (m * n) (e + f)

/-- Exact sum; an exact zero is +0 unless both addends are -0 (R47). -/
def fvAdd : FV → FV → FV
  | .nan, _ => .nan
  | _, .nan => .nan
  | .inf a, .inf b => if a = b then .inf a else .nan
  | .inf a, .fin _ _ _ => .inf a
  | .fin _ _ _, .inf b => .inf b
  | .fin a m e, .fin b n f =>
    let u := min e f
    let x := fvUnits a m e u + fvUnits b n f u
    if x = 0 then .fin (a && b && m = 0 && n = 0) 0 0
    else .fin (decide (x < 0)) x.natAbs u

/-- Order of two values that are not NaN; the zeros are equal (R162, R164). -/
def fvLt : FV → FV → Bool
  | .nan, _ => false
  | _, .nan => false
  | .inf a, .inf b => a && !b
  | .inf a, .fin _ _ _ => a
  | .fin _ _ _, .inf b => !b
  | .fin a m e, .fin b n f =>
    let u := min e f
    decide (fvUnits a m e u < fvUnits b n f u)

/-- Equality of two values that are not NaN; the zeros are equal (R164). -/
def fvEq (a b : FV) : Bool := !fvIsNan a && !fvIsNan b && !fvLt a b && !fvLt b a

/-! FP32 and binary64 arithmetic on bits: one rounding each (R47, R53, R162). -/

/-- An FP32 operand is read as zero when it is subnormal (R30); R40 names the flush of a result, and a conversion of an operand so read
sets no UNF (log entry 113). -/
def f32 (b : Word) : FV := decodeNum .fp32 b.toNat
def f32Bits (v : FV) : Word := BitVec.ofNat 32 (rneCode .fp32 v)
def f64Bits (v : FV) : DWord := BitVec.ofNat 64 (rneCode .binary64 v)
def f64 (b : DWord) : FV := decodeNum .binary64 b.toNat

def fadd (a b : Word) : Word := f32Bits (fvAdd (f32 a) (f32 b))
def fsub (a b : Word) : Word := f32Bits (fvAdd (f32 a) (fvNeg (f32 b)))
def fmul (a b : Word) : Word := f32Bits (fvMul (f32 a) (f32 b))
def ffma (a b c : Word) : Word := f32Bits (fvAdd (fvMul (f32 a) (f32 b)) (f32 c))
/-- rne64(w + acc), acc widened exactly (R51). -/
def wideAdd (w : DWord) (acc : Word) : DWord := f64Bits (fvAdd (f64 w) (f32 acc))
/-- rne32 of a binary64 (R53). -/
def narrow32 (w : DWord) : Word := f32Bits (f64 w)
/-- rne32(rne64(w + acc)), the end of a run (R51). -/
def drainAdd (w : DWord) (acc : Word) : Word := narrow32 (wideAdd w acc)

/-! The defined dot product (R41 to R45). -/

/-- R42: a group that holds specials. -/
def specialGroup (p : List FV) : FV :=
  if p.any fvIsNan then .nan
  else
    let pos := p.any (fun v => v = .inf false)
    let neg := p.any (fun v => v = .inf true)
    if pos && neg then .nan else if pos then .inf false else .inf true

/-- The largest binade of the nonzero products. -/
def maxBinade : List FV → Option Int
  | [] => none
  | .fin _ m e :: r =>
    if m = 0 then maxBinade r
    else match maxBinade r with
      | none => some (flog2 m e)
      | some k => some (max k (flog2 m e))
  | _ :: r => maxBinade r

/-- A product's magnitude truncated toward zero to a multiple of 2^u, signed, in units of 2^u (R41). -/
def truncUnits (u : Int) : FV → Int
  | .fin neg m e => let x : Int := (scaleFloor m (e - u) : Nat); if neg then -x else x
  | _ => 0

/-- R41: the sum of sixteen products in a 48-bit window, rounded once. -/
def groupSum (p : List FV) : FV :=
  if p.any (fun v => fvIsNan v || fvIsInf v) then specialGroup p
  else match maxBinade p with
  | none => fvZero
  | some top =>
    let u := top - 43
    let x := (p.map (truncUnits u)).foldl (· + ·) 0
    if x = 0 then fvZero else rne32 (.fin (decide (x < 0)) x.natAbs u)

/-- R41: one group: its sum times the two scales, rounded once. `none` is an unscaled operand. -/
def scaledGroup (p : List FV) (sa sb : Option Nat) : FV :=
  let sc : Option Nat → FV := fun o => match o with
    | none => .fin false 1 0
    | some s => decodeNum .e8m0 s
  rne32 (fvMul (fvMul (groupSum p) (sc sa)) (sc sb))

/-- R41: the chunk sum of four groups in the fixed order. -/
def chunkSum (g : List FV) : FV :=
  match g with
  | [g0, g1, g2, g3] => rne32 (fvAdd (rne32 (fvAdd g0 g1)) (rne32 (fvAdd g2 g3)))
  | _ => fvZero

/-- rne32(a + b) as values. -/
def radd (a b : FV) : FV := rne32 (fvAdd a b)

/-- Flush of a finished split part: below 2^-126 it is the zero of its own sign (R56). -/
def flushPart : FV → FV
  | .fin n m e => if m = 0 then .fin n 0 0 else if flog2 m e < -126 then .fin n 0 0 else .fin n m e
  | v => v

/-- R56: the three BF16 parts of an FP32 operand, as values; each is flushed only after all are formed.
A normal FP32 mantissa has 24 bits: `hi` keeps the top 8, `mid` the next 8 significant ones, `lo` the rest. -/
def splitParts (a : Word) : FV × FV × FV :=
  match f32 a with
  | .nan => (.nan, fvZero, fvZero)
  | .inf n => (.inf n, fvZero, fvZero)
  | .fin neg m e =>
    if m = 0 then (.fin neg 0 0, fvZero, fvZero)
    else
      let hi := m / 65536 * 65536
      let r := m % 65536
      let mid := if r.log2 ≤ 7 then r else r / 2 ^ (r.log2 - 7) * 2 ^ (r.log2 - 7)
      let part : Nat → FV := fun x => if x = 0 then fvZero else flushPart (.fin neg x e)
      (part hi, part mid, part (r - mid))

/-- R57: combine the terms of one chunk into the accumulator, by pass count.
`t i j` is the chunk sum of part `i` of A with part `j` of B (0 hi, 1 mid, 2 lo). -/
def splitCombine (passes : Nat) (acc : FV) (t : Nat → Nat → FV) : FV :=
  if passes ≤ 1 then radd acc (t 0 0)
  else if passes = 2 then
    let x := radd (t 0 1) (t 1 0)
    radd acc (radd x (t 0 0))
  else
    let y := radd (radd (t 0 2) (t 2 0)) (t 1 1)
    let x := radd y (radd (t 0 1) (t 1 0))
    radd acc (radd x (t 0 0))

/-! Block scales derived from data (R34). -/

/-- R34 step 2: the exponent of a format's largest finite value. -/
def fmtEmax : Fmt → Int
  | .bf16 => 127 | .fp16 => 15 | .e4m3 => 8 | .e5m2 => 15 | .e3m2 => 4 | .e2m3 => 2 | .e2m1 => 2 | _ => 127

/-- R34: scale byte of a block of values and the exponent k by which its elements are divided. -/
def deriveScale (f : Fmt) (xs : List FV) : Nat × Int :=
  if xs.any fvIsNan then (0xFF, 0)
  else match maxBinade xs with
  | none => if xs.any fvIsInf then (0x7F, 0) else (0, -127)
  | some l =>
    let k := max (-127) (min 127 (l - fmtEmax f))
    ((k + 127).toNat, k)

/-- x / 2^k, exactly. -/
def fvScale (k : Int) : FV → FV
  | .fin n m e => .fin n m (e - k)
  | v => v

/-- Elements of a row of packed elements, from the byte string that holds them (R28). `i` counts elements. -/
def elemAt (f : Fmt) (bytes : List Byte) (i : Nat) : Nat :=
  let w := fmtWidth f
  if w = 6 then
    let g := (bytes.drop (3 * (i / 4))).take 3
    bits (ofBytes g) (6 * (i % 4)) 6
  else if w = 4 then bits (ofBytes ((bytes.drop (i / 2)).take 1)) (4 * (i % 2)) 4
  else ofBytes ((bytes.drop (i * (w / 8))).take (w / 8))

/-- Bytes that `n` elements of a format take (R28). -/
def elemBytes (f : Fmt) (n : Nat) : Nat := (n * fmtWidth f + 7) / 8

/-- Pack element codes into bytes (R28); a final partial byte is filled with zeros. -/
def packElems (f : Fmt) (xs : List Nat) : List Byte :=
  let w := fmtWidth f
  bytesOf (elemBytes f xs.length) (xs.foldr (fun x acc => x % 2 ^ w + 2 ^ w * acc) 0)

end Sys2Proof.Machine
end

