-- ==== Sys2Proof/Machine/Hbm.lean ====
section
/-! DEFINITION. HBM and the hint cache (chapter 08): interleave, line accesses by hint, flushes, sweeps, the narrow path and the
retirement of pseudo-channels. The bytes of job memory are always those of `mem`: a slice holds only which lines it has. -/
namespace Sys2Proof.Machine

/-- R274: stack, q, pseudo-channel and offset of a device physical address. -/
def ilStack (a : Nat) : Nat := a / 256 % 6
def ilQ (a : Nat) : Nat := a / 256 / 6
def pcOfQ (q : Nat) : Nat := bits q 0 6 ^^^ bits q 6 6 ^^^ bits q 12 6 ^^^ bits q 18 6 ^^^ bits q 24 4
def ilOff (a : Nat) : Nat := ilQ a / 64

/-- R273: the first address above HBM. -/
def hbmTop : Nat := 0x5D00000000

/-- R283: lines of a slice: its share of the 64 MiB hint cache (log entry 23). -/
def sliceLines : Nat := 43690

/-- R276: the lines of a pseudo-channel below its reserve slice, and the lines of a slot. -/
def mainLines : Nat := 4063232
def slotLines : Nat := 65536

/-! Retired pseudo-channels (R276 to R278). -/

/-- The retired pseudo-channels of a stack, in order of retirement. -/
def retiredPcs (s : State) (st : Nat) : List Nat :=
  (if flagF s MC_RETIRE_V1 st then [getF s MC_RETIRE_PC1 st] else []) ++ (if flagF s MC_RETIRE_V2 st then [getF s MC_RETIRE_PC2 st] else [])

/-- The pseudo-channels that are not among `r`, in increasing number. -/
def livePcs (r : List Nat) : List Nat := (List.range 64).filter (fun c => !r.contains c)

/-- R277: where line `o` of a retired pseudo-channel lives: its live pseudo-channel, and the line there, in slot A (0) or B (1). -/
def slotPlace (live : List Nat) (slot o : Nat) : Nat × Nat :=
  (live.getD (o % live.length) 0, mainLines + slotLines * slot + o / live.length)

/-- R278: the running migration has moved line `o` of the i-th retired pseudo-channel: first the lines of the first one are taken, then
those of the second (log entry 133). -/
def migrated (s : State) (st i o : Nat) : Bool :=
  match (getStack s st).migrating with
  | none => true
  | some k => mainLines * i + o < k

/-- How many lines a migration of a stack moves: those of every retired pseudo-channel (R277). -/
def migrationLines (s : State) (st : Nat) : Nat := mainLines * (retiredPcs s st).length

/-- R277, R278: the pseudo-channel and the line in it where the line of pseudo-channel c and offset o lives. -/
def physPlace (s : State) (st c o : Nat) : Nat × Nat :=
  match retiredPcs s st with
  | [] => (c, o)
  | [p] => if c = p ∧ migrated s st 0 o then slotPlace (livePcs [p]) 0 o else (c, o)
  | p :: p2 :: _ =>
    if c = p then slotPlace (livePcs (if migrated s st 0 o then [p, p2] else [p])) 0 o
    else if c = p2 ∧ migrated s st 1 o then slotPlace (livePcs [p, p2]) 1 o
    else (c, o)

/-- Where the line that holds a device physical address lives in its stack. -/
def linePlace (s : State) (a : Nat) : Nat × Nat := physPlace s (ilStack a) (pcOfQ (ilQ a)) (ilOff a)

/-- R279: the pseudo-channel in which the words at an address count: that of the place where they live. -/
def pcOf (s : State) (a : Nat) : Nat := (linePlace s a).1

/-- R274: the q of pseudo-channel c and offset o. -/
def qOf (c o : Nat) : Nat := 64 * o + (c ^^^ bits o 0 6 ^^^ bits o 6 6 ^^^ bits o 12 6 ^^^ bits o 18 4)

/-- The lines, as q, that could live at place q of a stack (R277). -/
def placeCands (s : State) (st q : Nat) : List Nat :=
  if q < 64 * mainLines then [q]
  else
    let r := retiredPcs s st
    let slot := (q / 64 - mainLines) / slotLines
    let k := (q / 64 - mainLines) % slotLines
    match r[slot]? with
    | none => []
    | some p => [r.take 1, r].filterMap (fun x =>
        let live := livePcs x
        let o := k * live.length + live.idxOf (pcOfQ q)
        if live.contains (pcOfQ q) && decide (o < mainLines) then some (qOf p o) else none)

/-- The line that lives at place q of a stack, reserve slices included (R282): its line number, if there is one. -/
def lineAt (s : State) (st q : Nat) : Option Nat :=
  ((placeCands s st q).find? (fun x => physPlace s st (pcOfQ x) (x / 64) == (pcOfQ q, q / 64))).map (fun x => 6 * x + st)

/-- Count bytes to or from a stack (R295). -/
def stackBytes (s : State) (st n : Nat) : State := addStat s MC_BYTES st n

/-- R286: keep lines that normal and stream allocations leave alone. -/
def keepMax (s : State) (st : Nat) : Nat := min (getF s HC_CFG_KEEP_MAX st) 8 * sliceLines / 8

def keepCount (ls : List HcLine) : Nat := (ls.filter (·.keep)).length

/-- R286: the line that an allocation evicts; none while every line is a keep line within the share. -/
def victim (ls : List HcLine) (kmax : Nat) : Option HcLine :=
  if keepCount ls ≤ kmax then ls.find? (fun l => !l.keep) else ls.head?

/-- A dirty line is written to its stack. -/
def writeBack (s : State) (st : Nat) (l : HcLine) : State :=
  if l.dirty then stackBytes (addStat s HC_WRITEBACKS st 1) st 256 else s

/-- R286: an allocation as keep beyond the share makes the least recently used keep line normal. -/
def demoteKeep : List HcLine → List HcLine
  | [] => []
  | l :: r => if l.keep then { l with keep := false } :: r else l :: demoteKeep r

/-- R285, R286: allocate a line as most recently used. A keep line beyond the share makes the least recently used keep line normal: the
line itself where the slice has no other. Where no line may be evicted, none is allocated. -/
def allocLine (s : State) (st line : Nat) (wr keep : Bool) : State :=
  let old := (getStack s st).lines
  let kmax := keepMax s st
  let past := keep && decide (kmax < keepCount old + 1)
  let ls := if past then demoteKeep old else old
  let new : HcLine := ⟨line, wr, keep && !(past && keepCount old == 0)⟩
  if ls.length < sliceLines then setStack s st { getStack s st with lines := ls ++ [new] }
  else match victim ls kmax with
    | some v => setStack (writeBack s st v) st { getStack s st with lines := ls.filter (fun l => l.line != v.line) ++ [new] }
    | none => setStack s st { getStack s st with lines := ls }

/-- R285: what a hit does to its line, by hint. -/
def hitLine (s : State) (st : Nat) (l : HcLine) (wr : Bool) (hint : Nat) : State :=
  let rest := (getStack s st).lines.filter (fun x => x.line != l.line)
  let l' := { l with dirty := l.dirty || wr }
  match hint with
  | 0 => setStack s st { getStack s st with lines := rest ++ [l'] }
  | 1 => setStack s st { getStack s st with lines := l' :: rest }
  | 2 => setStack s st { getStack s st with lines := rest ++ [{ l' with keep := true }] }
  | _ => setStack (writeBack s st l') st { getStack s st with lines := rest }

/-- R285: HC_CFG.NOALLOC makes every access a stream access. -/
def effHint (s : State) (st hint : Nat) : Nat := if flagF s HC_CFG_NOALLOC st then 1 else hint

/-- R285: one line access at its slice. Answers whether it hit. -/
def lineAccess (s : State) (line : Nat) (wr : Bool) (hint : Nat) : State × Bool :=
  let st := line % 6
  let h := effHint s st hint
  match (getStack s st).lines.find? (fun l => l.line == line) with
  | some l => (hitLine (addStat s HC_HITS st 1) st l wr h, true)
  | none =>
    let s := stackBytes (addStat s HC_MISSES st 1) st 256
    (if h = 0 ∨ h = 2 then allocLine s st line wr (h == 2) else s, false)

/-! Errors and retirement. -/

/-- The place of HBM words and of cached words (R478). -/
def hbmPlace (s : State) (a : Nat) : LinePlace := ⟨6, 11, ilStack a, 0x48, 0x100 + 64 * ilStack a + pcOf s a⟩
def hcPlace (a : Nat) : LinePlace := ⟨5, 12, ilStack a, 0x48, 0x510 + ilStack a⟩

/-- R277 to R281: a retirement begins. The ledger holds it; MC_STATUS and MC_RETIRE show it to the control node, since the spec gives the
report of R279 neither an event kind nor a code (log entry 134). -/
def startRetire (s : State) (st pc : Nat) : State :=
  let n := (retiredPcs s st).length
  let s := if n = 0 then setF (setF s MC_RETIRE_PC1 st pc) MC_RETIRE_V1 st 1 else setF (setF s MC_RETIRE_PC2 st pc) MC_RETIRE_V2 st 1
  let s := setF (setF s MC_STATUS_RETIRED st (n + 1)) MC_STATUS_MIGRATING st 1
  let s := setFi s MC_PC_UE st pc 0
  logLedger (bumpLife (setStack s st { getStack s st with migrating := some 0 }) 5) 4 (0x100 + 64 * st + pc) [st, pc]

/-- MC_RETIRE_CMD: R279, R280, R296. -/
def retireCmd (s : State) (st pc : Nat) : State :=
  let r := retiredPcs s st
  if flagF s MC_STATUS_MIGRATING st ∨ r.contains pc ∨ r.length = 2 then setF s MC_STATUS_CMD_ERR st 1 else startRetire s st pc

/-- R279: the limits. A limit of 0 is met by no count of 0. -/
def overLimit (s : State) (st ce ue : Nat) : Bool :=
  (0 < ce && getF s MC_RETIRE_CFG_CE_LIMIT st ≤ ce) || (0 < ue && getF s MC_RETIRE_CFG_UE_LIMIT st ≤ ue)

/-- R279, R280: after words of a pseudo-channel were counted: `was` says whether a limit had been met before. -/
def checkLimits (s : State) (st pc : Nat) (was : Bool) : State :=
  if !overLimit s st (getFi s MC_PC_CE st pc) (getFi s MC_PC_UE st pc) then s
  else
    let r := retiredPcs s st
    if r.contains pc then s
    else if r.length = 2 then
      if was then s
      else raise (setF s MC_STATUS_REPAIR_EXHAUSTED st 1) 11 st
        ⟨0x0310, 0x48, 0, 0, 0, s.gsc, jobGen s, 0xFF, 0, 0, st + 256 * pc⟩
    else if flagF s MC_STATUS_MIGRATING st then s
    else startRetire s st pc

/-- R295: count a corrected or poisoned word of a stack, and apply R279. -/
def countHbmErr (s : State) (a : Nat) (v : Verdict) : State :=
  let st := ilStack a
  let pc := pcOf s a
  let was := overLimit s st (getFi s MC_PC_CE st pc) (getFi s MC_PC_UE st pc)
  let s := if isCorrected v then
      let s := addF s MC_ECC_CORRECTED st 1
      setFi s MC_PC_CE st pc (satAdd 16 (getFi s MC_PC_CE st pc) 1)
    else s
  let s := if isLost v then
      let s := addF s MC_ECC_UNCORRECTED st 1
      setFi s MC_PC_UE st pc (satAdd 16 (getFi s MC_PC_UE st pc) 1)
    else s
  checkLimits s st pc was

/-- R297: count a corrected or poisoned word of a slice. -/
def countHcErr (s : State) (a : Nat) (v : Verdict) : State :=
  let s := if isCorrected v then addF s HC_ECC_CORRECTED (ilStack a) 1 else s
  if isLost v then addF s HC_ECC_UNCORRECTED (ilStack a) 1 else s

/-- The errors that one access meets: in the slice on a hit, in HBM on a miss. -/
def accessErr (hit : Bool) (line : Nat) (s : State) (e : LineErr) : State :=
  let a := e.addr.toNat
  if a / 256 ≠ line then s
  else if hit then
    let (s, v) := accessWord s (hcPlace a) e
    countHcErr s a v
  else
    let (s, v) := accessWord s (hbmPlace s a) e
    countHbmErr s a v

/-- R464, R466, R467: an error in a catalogue word: corrected, or a poisoned entry of the edition that no packet uses, or the
whole-chip fallback. -/
def catalogueErr (s : State) (e : LineErr) : State :=
  let a := e.addr.toNat / 16 * 16
  let ed := (a - 0xF300000000) / 0x80000
  let (v, _, t) := readLine s e
  let lost (pos : Nat) : State :=
    let s := logLedger (poisonWord s a) 1 0x600 [a]
    if ed ≠ getF s RT_EDITION_INJECT 0 ∧ !flagF s RT_EDITION_ARMED 0 ∧ oldCount s = 0 then chipPoisonRec s a (lineDetail 8 t pos) 2
    else chipPoison s a (lineDetail 8 t pos)
  match v with
  | .misdirected j => lost j
  | .uncorrectable => lost 0xFF
  | _ => s

/-- R464, R467: an uncorrectable word of another structure that the GW7 owns: the ledger, and the whole-chip fallback. -/
def ownedErr (s : State) (e : OwnedErr) : State :=
  chipPoison (logLedger s 1 0x600 [e.addr.toNat]) (e.addr.toNat / 16 * 16) (9 + e.kind.val + 2 ^ 8 * e.syn.toNat + 2 ^ 24 * 0xFF)

/-- An address in the catalogue's window (R590). -/
def inCatalogue (a : Nat) : Bool := 0xF300000000 ≤ a && a < 0xF300100000

/-- R288: lines that no slice can serve: the hint cache resets, or the stack resets and the line is not in its slice. -/
def memReset (s : State) (segs : List (Nat × Nat)) : Bool :=
  isolated s 100 || segs.any (fun x => (wordsOf x.1 x.2).any (fun w =>
    let l := w / 16
    isolated s (72 + l % 6) && !(getStack s (l % 6)).lines.any (fun h => h.line == l)))

/-- R603: a line access waits while its slice drains, or, when the slice does not hold its line, while the controller drains. -/
def lineWaits (s : State) (line : Nat) : Bool :=
  drainOn s 12 (line % 6) || (drainOn s 11 (line % 6) && !(getStack s (line % 6)).lines.any (fun h => h.line == line))

/-- The slices of these parts take no new request yet (R603). -/
def slicesWait (s : State) (segs : List (Nat × Nat)) : Bool :=
  segs.any (fun x => (List.range ((x.1 + x.2 + 255) / 256 - x.1 / 256)).any (fun i => lineWaits s (x.1 / 256 + i)))

/-- R289: a write of another generation is discarded at the slice of each of its lines and counted. -/
def staleWrite (s : State) (gen : Nat) (segs : List (Nat × Nat)) : Option State :=
  if gen = getF s MC_JOB_GEN_GEN 0 then none
  else some (segs.foldl (fun s x => (List.range ((x.1 + x.2 + 255) / 256 - x.1 / 256)).foldl
    (fun s i => addF s MC_STALE_WRITES ((x.1 / 256 + i) % 6) 1) s) s)

/-- How many lines `n` bytes at `a` touch. -/
def lineCount (a n : Nat) : Nat := (a + n + 255) / 256 - a / 256

/-- A requester's access goes to the slices: one access for each line that `n` bytes at `a` touch (R283). -/
def lineReqsFor (own : Option (Nat × Nat × Nat)) (s : State) (a n : Nat) (wr : Bool) (hint : Nat) : State :=
  { s with lineQ := s.lineQ ++ (List.range (lineCount a n)).map (fun i => ⟨(a / 256 + i) * 256, wr, hint, own⟩) }

/-- The same for an access whose bytes move at once: it reaches its slices before every access that still waits (log entry 135). -/
def lineReqs (s : State) (a n : Nat) (wr : Bool) (hint : Nat) : State := lineReqsFor none s a n wr hint

/-! Flushes and sweeps. -/

/-- R287: every dirty line of a slice is written back. -/
def flushWb (s : State) (st : Nat) : State :=
  let ls := (getStack s st).lines
  let s := ls.foldl (fun s l => writeBack s st l) s
  setStack s st { getStack s st with lines := ls.map (fun l => { l with dirty := false }) }

/-- HC_FLUSH_WB. -/
def hcFlushWb (s : State) (st : Nat) : State := setF (flushWb s st) HC_STATUS_FLUSHING st 1

/-- HC_FLUSH_INV: every line is written back, then invalidated. -/
def hcFlushInv (s : State) (st : Nat) : State :=
  let s := flushWb s st
  setF (setStack s st { getStack s st with lines := [] }) HC_STATUS_FLUSHING st 1

def hcFlushDone (s : State) (st : Nat) : State := setF s HC_STATUS_FLUSHING st 0

/-- HC_SWEEP: every 100 ms, the words of the lines that a slice holds (R282). -/
def hcSweep (s : State) (st : Nat) (errs : List LineErr) : State :=
  if s.gsc < getTimer s (tmHcSweep st) + 100000000 ∨ isolated s 100 then s
  else
    let s := setTimer s (tmHcSweep st) s.gsc
    (pairErrs errs).foldl (fun s e =>
      let a := e.1.addr.toNat
      if (getStack s st).lines.any (fun l => l.line == a / 256) then
        let (s, v) := sweepWord s (hcPlace a) e.1 e.2
        countHcErr s a v
      else s) s

/-- R274, R276: places of a stack, reserve slices included. -/
def stackQ : Nat := 2 ^ 28

/-- R282, R295: a pass of the sweep begins MC_SWEEP.PERIOD hours after the last began; 0 acts as 8 (log entry 136). -/
def sweepDue (s : State) (st : Nat) : Bool :=
  let h := if getF s MC_SWEEP_PERIOD st = 0 then 8 else getF s MC_SWEEP_PERIOD st
  let last := getTimer s (tmMcSweep st)
  last == 0 || decide (last - 1 + h * 3600000000000 ≤ s.gsc)

/-- R272: the on-die ECC reports that a controller has read: counted, and copied into the ledger. -/
def odeccReports (s : State) (st pc n : Nat) : State :=
  if n = 0 then s else logLedger (addF s MC_ODECC_REPORTS st n) 12 (0x100 + 64 * st + pc) [n]

/-- One word of a line that a controller sweeps; its rewriting and its rereading move a burst each (R271, R295). -/
def sweepHbmWord (line st : Nat) (s : State) (e : LineErr × Option LineErr) : State :=
  let a := e.1.addr.toNat
  if a / 256 = line then
    let (s, v) := sweepWord s (hbmPlace s a) e.1 e.2
    countHbmErr (if isCorrected v then stackBytes s st 64 else s) a v
  else s

/-- MC_SWEEP_LINE: the next line of a stack, reserve slices included (R282); at the end of a pass the corrected counts clear (R295).
`odecc` on-die ECC reports come with it (R272). -/
def mcSweepLine (s : State) (st : Nat) (errs : List LineErr) (odecc : Nat) : State :=
  let q := getF s MC_SWEEP_POS_Q st
  if !flagF s MC_SWEEP_EN st ∨ isolated s (72 + st) ∨ (q = 0 ∧ !sweepDue s st) then s
  else
    let s := odeccReports s st (pcOfQ q) odecc
    let s := if q = 0 then setTimer s (tmMcSweep st) (s.gsc + 1) else s
    let s := match lineAt s st q with
      | some line => (pairErrs errs).foldl (sweepHbmWord line st) (stackBytes s st 256)
      | none => stackBytes s st 256
    if q + 1 < stackQ then setF s MC_SWEEP_POS_Q st (q + 1)
    else (List.range 64).foldl (fun s c => setFi s MC_PC_CE st c 0) (setF s MC_SWEEP_POS_Q st 0)

/-- R278: the lines of a stack, by line number, whose copies a migration makes between two counts. -/
def movedLine (s : State) (st j k line : Nat) : Bool :=
  let c := pcOfQ (line / 6)
  let i := (retiredPcs s st).idxOf c
  let n := mainLines * i + line / 6 / 64
  line % 6 == st && (retiredPcs s st).contains c && decide (j ≤ n ∧ n < k)

/-- R278: one word that a migration reads: an uncorrectable one reaches its new place poisoned. -/
def migrateWord (st j k : Nat) (s : State) (e : LineErr) : State :=
  let a := e.addr.toNat
  if movedLine s st j k (a / 256) then
    let (s, v) := accessWord s (hbmPlace s a) e
    countHbmErr s a v
  else s

/-- RETIREMENT_MIGRATION_COMPLETE: R278. The copy has reached `upto` lines (log entry 133); with the last of them the migration ends, and
the limits that other pseudo-channels met meanwhile are judged (R279, R280). -/
def migrationDone (s : State) (st upto : Nat) (errs : List LineErr) : State :=
  match (getStack s st).migrating with
  | none => s
  | some j =>
    let k := min upto (migrationLines s st)
    if k ≤ j ∨ isolated s (72 + st) then s
    else
      let s := stackBytes (errs.foldl (migrateWord st j k) s) st (512 * (k - j))
      if k < migrationLines s st then setStack s st { getStack s st with migrating := some k }
      else
        let s := setF (setStack s st { getStack s st with migrating := none }) MC_STATUS_MIGRATING st 0
        if (retiredPcs s st).length = 1 then (List.range 64).foldl (fun s c => checkLimits s st c false) s else s

/-! The narrow path (R290 to R293). -/

/-- R285, R291: the line of a narrow access, present or not. Answers whether the line was present. -/
def narrowTouch (s : State) (a : Nat) (wr : Bool) (hint : Nat) : State × Bool :=
  let line := a / 256
  let st := line % 6
  match (getStack s st).lines.find? (fun l => l.line == line) with
  | some l => (hitLine s st l wr (effHint s st hint), true)
  | none => (s, false)

/-- R291: a narrow read of 32 bytes. -/
def narrowRead (s : State) (a hint : Nat) : State × List PByte :=
  let st := ilStack a
  let bs := readBytes s a 32
  let (s, hit) := narrowTouch (addStat s HC_NARROW st 1) a false hint
  let s := if hit then s
    else if effHint s st hint = 2 then allocLine (stackBytes s st 256) st (a / 256) false true
    else stackBytes s st 32
  (s, bs)

/-- R292: eight lanes added to an element. -/
def addLanes (int : Bool) (old add : List PByte) : List Byte :=
  (List.range 8).flatMap (fun i =>
    let x : Word := BitVec.ofNat 32 (ofBytes (((old.drop (4 * i)).take 4).map (·.b)))
    let y : Word := BitVec.ofNat 32 (ofBytes (((add.drop (4 * i)).take 4).map (·.b)))
    bytesOf 4 (if int then x + y else fadd x y).toNat)

/-- R292, R293: an atomic add to the element at `a`. Answers whether it was applied. -/
def atomicAdd (s : State) (a hint : Nat) (int : Bool) (add : List PByte) : State × Bool :=
  let st := ilStack a
  let old := readBytes s a 32
  let (s, hit) := narrowTouch s a true hint
  let s := if hit then s else stackBytes s st 64
  if old.any (·.bad) || add.any (·.bad) then
    (addF (poisonWord (poisonWord s a) (a + 16)) HC_ATOMIC_POISON st 1, false)
  else (writeBytes (addStat s HC_ATOMICS st 1) a (good (addLanes int old add)), true)

/-! Addresses above HBM (R273). -/

/-- R273: count an access to addresses that reach no memory, at the controller of each line. -/
def rsvAccess (s : State) (a n : Nat) : State :=
  (List.range ((a + n + 255) / 256 - a / 256)).foldl (fun s i => addF s MC_RSV_ACCESS ((a / 256 + i) % 6) 1) s

end Sys2Proof.Machine
end

