-- ==== Sys2Proof/Machine/Folio.lean ====
section
/-! DEFINITION. Folios (chapter 09): the folio table and its caches, the checks on each access, lazy restore, dirty tracking, the
trickle checkpoint and the mirror duplicator. -/
namespace Sys2Proof.Machine

/-! Folio table entries (R299). -/

def eV (e : Nat) : Bool := bit e 0
def eCls (e : Nat) : Nat := bits e 1 2
def eWr (e : Nat) : Bool := bit e 3
def eRst (e : Nat) : Bool := bit e 4
def ePfn (e : Nat) : Nat := bits e 8 19
def eMpfn (e : Nat) : Nat := bits e 32 19
def eRsvBad (e : Nat) : Bool := bits e 5 3 != 0 || bits e 27 5 != 0 || bits e 51 13 != 0

/-- R298: the address of an entry. -/
def ftEntryAddr (base vpn : Nat) : Nat := base + 8 * vpn

/-- R298: the device physical address of an offset in a frame. -/
def frameAddr (pfn off : Nat) : Nat := pfn * 2 ^ 21 + off % 2 ^ 21

/-! Frames. -/

def fetchingCount (s : State) : Nat := (s.folio.frames.filter (fun kv => kv.2.rstate == 3)).length
def pendingCount (s : State) : Nat := (s.folio.frames.filter (fun kv => kv.2.rstate == 2)).length

/-- R302: classes whose writes are tracked. -/
def tracked (cls : Nat) : Bool := cls == 0 || cls == 3

/-- The frame that a VPN owns. -/
def frameOfVpn (s : State) (vpn : Nat) : Option Nat :=
  (s.folio.frames.find? (fun kv => kv.2.vpn == vpn && kv.2.rstate != 0 && kv.2.rstate != 5)).map (·.1)

/-- R313: an access meets a frame that is not present: a PENDING one is set FETCHING and requested, if a slot is free; not while
RECALLING (R442). -/
def requestRestore (s : State) (pfn : Nat) : State :=
  let f := getFrame s pfn
  if f.rstate ≠ 2 ∨ lendState s = 3 then s
  else if fetchingCount s < 256 then
    let s := setFrame s pfn { f with rstate := 3, since := s.gsc }
    pushEvent { s with folio := { s.folio with waiting := s.folio.waiting.filter (· != pfn) } } (.restore f.vpn)
  else if s.folio.waiting.contains pfn then s
  else { s with folio := { s.folio with waiting := s.folio.waiting ++ [pfn] } }

/-! Translation (R306, R307). `who` names a tile's DME, or none for the folio unit's own cache. -/

def xlatCache (s : State) : Option Nat → List Xlat
  | some p => (getTile s p).dm.xlat
  | none => s.folio.xlat

def setXlat (s : State) (who : Option Nat) (c : List Xlat) : State :=
  match who with
  | some p => modTile s p (fun t => { t with dm := { t.dm with xlat := c } })
  | none => { s with folio := { s.folio with xlat := c } }

def xlatCap (who : Option Nat) : Nat := if who.isSome then 64 else 1024

/-- What a translation finds: an entry, none, or a poisoned entry (R464). -/
inductive XlatAns
  | entry (e : Nat)
  | invalid
  | poisoned
  deriving DecidableEq, Repr

/-- R306, R307: translate a folio number. The oldest entry of a full cache gives way (log entry 24). -/
def translate (s : State) (who : Option Nat) (vpn : Nat) : State × XlatAns :=
  let c := xlatCache s who
  match c.find? (fun x => x.vpn == vpn) with
  | some x =>
    let r := (getFrame s (ePfn x.entry.toNat)).rstate
    (setXlat s who (c.map (fun y => if y.vpn = vpn then { y with rstate := r } else y)), .entry x.entry.toNat)
  | none =>
    let s := addStat s MC_TC_MISSES 6 1
    match s.folio.ftBase with
    | none => (s, .invalid)
    | some base =>
      let a := ftEntryAddr base vpn
      let s := lineReqs s a 8 false 0
      if isBad s a then (s, .poisoned)
      else
        let e := readNat s a 8
        if !eV e then (s, .invalid)
        else
          let c := if c.length < xlatCap who then c else c.drop 1
          (setXlat s who (c ++ [⟨vpn, BitVec.ofNat 64 e, (getFrame s (ePfn e)).rstate⟩]), .entry e)

/-- What the checks of R308 answer for an access: where its bytes lie, a stall on a frame, or a fault. -/
inductive FolioAns
  | ok (segs : List (Nat × Nat))
  | stall (vpn pfn : Nat)
  | fault (code : Nat)
  deriving DecidableEq, Repr

/-- R308: the rows in order, for an access within one granule. -/
def folioRow (s : State) (e vpn off n : Nat) (wr : Bool) : FolioAns :=
  let f := getFrame s (ePfn e)
  if !eV e then .fault 0x0301
  else if wr && !eWr e then .fault 0x0301
  else if f.rstate = 2 ∨ f.rstate = 3 then .stall vpn (ePfn e)
  else if f.rstate = 4 ∧ !wr ∧ !bit f.d.toNat (off / 65536) then .fault 0x0305
  else .ok [(frameAddr (ePfn e) off, n)]

/-- The parts of an access at job address `a` that lie in one granule each; addresses wrap at 2^40 (log entry 25). -/
def granParts (a n : Nat) : List (Nat × Nat) :=
  let k := min n (65536 - a % 65536)
  if k = n then [(a % 2 ^ 40, n)] else [(a % 2 ^ 40, k), ((a + k) % 2 ^ 40, n - k)]

/-- R308: check an access to job memory. A stall requests the frame's restore (R313). -/
def jobCheck (s : State) (who : Option Nat) (a n : Nat) (wr : Bool) : State × FolioAns :=
  (granParts a n).foldl (fun acc part => match acc with
    | (s, .ok segs) =>
      let vpn := part.1 / 2 ^ 21
      (match translate s who vpn with
      | (s, .invalid) => (s, .fault 0x0301)
      | (s, .poisoned) => (s, .fault 0x0303)
      | (s, .entry e) => match folioRow s e vpn (part.1 % 2 ^ 21) part.2 wr with
        | .ok l => (s, .ok (segs ++ l))
        | .stall v p => (requestRestore s p, .stall v p)
        | .fault c => (s, .fault c))
    | r => r) (s, .ok [])

/-- The bytes of a checked access. -/
def segLoad (s : State) (segs : List (Nat × Nat)) : List PByte := segs.flatMap (fun x => readBytes s x.1 x.2)

/-- The line accesses of a checked access. -/
def segLines (s : State) (segs : List (Nat × Nat)) (wr : Bool) (hint : Nat) : State :=
  segs.foldl (fun s x => lineReqs s x.1 x.2 wr hint) s

/-! The mirror duplicator (R321 to R324). -/

/-- Duplication is in force; a resync resumes it for the lines that it sends (log entry 26). -/
def mirrorOn (s : State) : Bool :=
  flagF s MC_MIRROR_CFG_EN 6 && (!flagF s MC_MIRROR_CFG_DEGRADED 6 || flagF s MC_MIRROR_CFG_RESYNCING 6)

/-- R321: send a line to the partner as it now stands. -/
def sendDup (s : State) (line target : Nat) : State :=
  let bs := readBytes s line 256
  let s := lineReqs s line 256 false 0
  sendPkt s { request s 0x48 5 (epId (getF s MC_MIRROR_PARTNER_NODE 6) 0x48) ((getDom s 103).gen * 256) 0 with
    addr := BitVec.ofNat 40 target, payload := bs, len := 256, poison := bs.any (·.bad), last := true }

/-- A line that the duplicator holds. -/
def dupHeld (s : State) (line : Nat) : Bool := s.folio.dups.any (fun d => d.line == line)

/-- R322: duplicate a line: one in flight for each line. -/
def dupLine (s : State) (line target : Nat) : State :=
  if dupHeld s line then
    { s with folio := { s.folio with dups := s.folio.dups.map (fun x => if x.line = line then { x with again := true } else x) } }
  else sendDup { s with folio := { s.folio with dups := s.folio.dups ++ [⟨line, target, false⟩] } } line target

/-- R321: a write to this address is duplicated. -/
def mirrored (s : State) (pa : Nat) : Bool :=
  let f := getFrame s (pa / 2 ^ 21)
  mirrorOn s && f.cls == 3 && f.rstate == 1

/-- R322: the duplicator has no room for a write: it would hold more than 4,096 lines. -/
def mirrorFull (s : State) (segs : List (Nat × Nat)) : Bool :=
  let new := sumNat ((segs.filter (fun x => mirrored s x.1)).map (fun x =>
    ((List.range (lineCount x.1 x.2)).filter (fun i => !dupHeld s ((x.1 / 256 + i) * 256))).length))
  0 < new && 4096 < s.folio.dups.length + new

/-- R322, R603: a write waits at its slices. -/
def writeWaits (s : State) (segs : List (Nat × Nat)) : Bool := slicesWait s segs || mirrorFull s segs

/-- The target address of a local address in a mirror frame: MPFN of the frame's table entry (R299, R321). -/
def mirrorTarget (s : State) (pa : Nat) : Nat :=
  match s.folio.ftBase with
  | none => 0
  | some base => frameAddr (eMpfn (readNat s (ftEntryAddr base (getFrame s (pa / 2 ^ 21)).vpn) 8)) pa

/-- Where there is room, the next line of a resync is sent. -/
def pumpDups (s : State) : State :=
  match s.folio.resync with
  | l :: r => if s.folio.dups.length < 4096 then dupLine { s with folio := { s.folio with resync := r } } l (mirrorTarget s l) else s
  | [] => s

/-- An acknowledgement of a duplicate (R322, R324). -/
def dupAcked (s : State) (target : Nat) : State :=
  match s.folio.dups.find? (fun d => d.target == target) with
  | none => s
  | some d =>
    let s := addStat s MC_MIRROR_BYTES 6 256
    let s := { s with mark := { s.mark with fence := s.mark.fence.erase d.line } }
    if d.again then
      sendDup { s with folio := { s.folio with dups := s.folio.dups.map (fun x => if x.line = d.line then { x with again := false } else x) } } d.line d.target
    else pumpDups { s with folio := { s.folio with dups := s.folio.dups.filter (fun x => x.line != d.line) } }

/-- R324: a duplicate refused, or a fence not complete in time. -/
def mirrorLost (s : State) : State :=
  let s := { s with folio := { s.folio with dups := [], resync := [] }, mark := { s.mark with fence := [] } }
  let s := setF (setF s MC_MIRROR_CFG_DEGRADED 6 1) MC_MIRROR_CFG_RESYNCING 6 0
  raise s 11 6 ⟨0x0306, 0x48, 0, 0, 0, s.gsc, jobGen s, 0xFF, 0, 0, getF s MC_MIRROR_PARTNER_NODE 6⟩

/-- MIRROR_FENCE_TIMEOUT: R324. -/
def mirrorFenceTimeout (s : State) : State :=
  if s.mark.phase = 1 ∧ s.mark.fence ≠ [] ∧ s.mark.since + 10000000 ≤ s.gsc then mirrorLost s else s

/-- The lines of every mirror frame. -/
def mirrorLines (s : State) : List Nat :=
  (s.folio.frames.filter (fun kv => kv.2.cls == 3 && kv.2.rstate == 1)).flatMap
    (fun kv => (List.range 8192).map (fun i => kv.1 * 2 ^ 21 + 256 * i))

/-- MIRROR_RESYNC: R324. The duplicator sends as many lines as it holds, the rest as they are acknowledged. -/
def mirrorResync (s : State) : State :=
  if flagF s MC_MIRROR_CFG_EN 6 ∧ !flagF s MC_MIRROR_CFG_RESYNCING 6 then
    let ls := mirrorLines s
    let s := setF s MC_MIRROR_CFG_RESYNCING 6 1
    let s := { s with folio := { s.folio with resync := ls } }
    (List.range (min 4096 ls.length)).foldl (fun s _ => pumpDups s) s
  else s

/-- MIRROR_RESYNC_COMPLETE: R324. -/
def mirrorResyncDone (s : State) : State :=
  if flagF s MC_MIRROR_CFG_RESYNCING 6 ∧ s.folio.resync = [] ∧ s.folio.dups = [] then
    setF (setF s MC_MIRROR_CFG_RESYNCING 6 0) MC_MIRROR_CFG_DEGRADED 6 0
  else s

/-! Writes that land in HBM (R308, R309, R316). -/

/-- R308, R316: what a write into a granule does to its frame's record. -/
def noteWrite (s : State) (pa : Nat) : State :=
  let pfn := pa / 2 ^ 21
  let g := pa % 2 ^ 21 / 65536
  let f := getFrame s pfn
  let s := if f.rstate = 4 ∧ !bit f.d.toNat g then zeroRange s (pfn * 2 ^ 21 + g * 65536) (pfn * 2 ^ 21 + (g + 1) * 65536) else s
  let s := if f.rstate = 4 ∨ (f.rstate = 1 ∧ tracked f.cls) then setFrame s pfn { f with d := f.d ||| (1#32 <<< g) } else s
  match s.folio.sending with
  | some x => if x.pfn = pfn ∧ x.gran = g ∧ !x.ended then { s with folio := { s.folio with sending := some { x with overlap := true } } } else s
  | none => s

/-- R321: duplicate the lines of a write that has landed in a mirror frame. -/
def mirrorWrite (s : State) (pa n : Nat) : State :=
  if mirrored s pa then
    (List.range ((pa + n + 255) / 256 - pa / 256)).foldl (fun s i =>
      let l := (pa / 256 + i) * 256
      dupLine s l (mirrorTarget s l)) s
  else s

/-- A write of bytes within one granule of HBM lands. -/
def landWrite (s : State) (pa : Nat) (bs : List PByte) : State := mirrorWrite (writeBytes (noteWrite s pa) pa bs) pa bs.length

/-- The bytes of a checked write land. -/
def segStore : State → List (Nat × Nat) → List PByte → State
  | s, [], _ => s
  | s, (a, n) :: r, bs => segStore (landWrite s a (bs.take n)) r (bs.drop n)

/-- R292, R316, R321: an atomic add to job memory lands at a device physical address. -/
def landAtomic (s : State) (pa hint : Nat) (int : Bool) (add : List PByte) : State :=
  mirrorWrite (atomicAdd (noteWrite s pa) pa hint int add).1 pa 32

/-! Loading the table (R300, R301, R304). -/

/-- The folio numbers whose entries could be valid or poisoned: those with a byte listed or a poisoned word. -/
def tableVpns (s : State) (base : Nat) : List Nat :=
  let inT (a : Nat) : Bool := base ≤ a && a < base + 0x400000
  let a := (s.mem.filter (fun c => inT c.1)).map (fun c => (c.1 - base) / 8)
  let b := (s.poison.filter (fun c => inT (16 * c.1))).flatMap (fun c => [(16 * c.1 - base) / 8, (16 * c.1 - base) / 8 + 1])
  (a ++ b).eraseDups.mergeSort (· ≤ ·)

/-- R300, R465: the check that an entry fails first, as CAUSE; `used` are the frames already taken. -/
def entryCause (s : State) (base vpn : Nat) (used : List Nat) : Nat :=
  let e := readNat s (ftEntryAddr base vpn) 8
  if isBad s (ftEntryAddr base vpn) then 6
  else if !eV e then 0
  else if eRsvBad e then 1
  else if 0x2E7FF < ePfn e then 2
  else if used.contains (ePfn e) then 3
  else if eCls e = 3 ∧ !flagF s MC_MIRROR_CFG_EN 6 then 4
  else if eRst e ∧ (eCls e = 1 ∨ eCls e = 2) then 5
  else 0

/-- R300: the first failing entry of a table, with its cause. -/
def tableCheck (s : State) (base : Nat) : List Nat → List Nat → Option (Nat × Nat)
  | [], _ => none
  | v :: r, used =>
    let c := entryCause s base v used
    if c ≠ 0 then some (v, c)
    else
      let e := readNat s (ftEntryAddr base v) 8
      tableCheck s base r (if eV e then ePfn e :: used else used)

/-- R303, R304, R447: the record of a frame that an entry maps. -/
def mapFrame (s : State) (vpn e : Nat) : Frame :=
  let f := getFrame s (ePfn e)
  if f.rstate ≠ 0 ∧ f.rstate ≠ 5 ∧ f.vpn = vpn ∧ f.cls = eCls e then f
  else
    { rstate := if eRst e then 2 else if s.lend.restore ∧ (eCls e = 1 ∨ eCls e = 2) then 4 else 1
      vpn := vpn, cls := eCls e, d := 0, s := 0, since := s.gsc }

/-- R301: every translation cache of the GW7 is emptied. -/
def flushXlat (s : State) : State :=
  let s := { s with folio := { s.folio with xlat := [] } }
  (List.range 72).foldl (fun s p => if (getTile s p).dm.xlat.isEmpty then s else setXlat s (some p) []) s

/-- R449: during LENDING a frame that a table maps or that holds one is TOUCHED. -/
def touchFrames (s : State) (ps : List Nat) : State :=
  if lendState s = 2 then { s with touched := ps.foldl (fun m p => mapSet (fun _ => false) m p true) s.touched } else s

/-- R303: the frames that the table at `base` names, with its own two. -/
def tableFrames (s : State) (base : Nat) (es : List (Nat × Nat)) : SMap Frame :=
  let frames := es.foldl (fun m x => mapSet (fun _ => Frame.reset) m (ePfn x.2) (mapFrame s x.1 x.2)) []
  let t : Frame := { Frame.reset with rstate := 5 }
  mapSet (fun _ => Frame.reset) (mapSet (fun _ => Frame.reset) frames (base / 2 ^ 21) t) (base / 2 ^ 21 + 1) t

/-- R300, R304: put the checked table at `base` in force. -/
def applyTable (s : State) (base : Nat) : State :=
  let es := (tableVpns s base).filterMap (fun v =>
    let e := readNat s (ftEntryAddr base v) 8
    if eV e then some (v, e) else none)
  let frames := tableFrames s base es
  let kept (k : Nat) : Bool := (mapGet (fun _ => Frame.reset) frames (k / 32)).s != 0
  let s := touchFrames s (base / 2 ^ 21 :: (base / 2 ^ 21 + 1) :: es.map (fun x => ePfn x.2))
  flushXlat { s with folio := { s.folio with
    ftBase := some base, frames := frames, waiting := s.folio.waiting.filter (fun p => (mapGet (fun _ => Frame.reset) frames p).rstate == 2)
    marks := mapDrop (fun k => !kept k) s.folio.marks } }

/-! Held requests (R310, R311). -/

/-- The bytes of job memory that a held request touches, and their folios. -/
def heldParts (h : HeldReq) : List (Nat × Nat) :=
  granParts h.pkt.addr.toNat (if h.pkt.typ = 1 then max h.pkt.len.toNat 1 else max h.pkt.payload.length 1)
def heldVpns (h : HeldReq) : List Nat := (heldParts h).map (fun x => x.1 / 2 ^ 21)

/-- A folio whose frame is PENDING or FETCHING, with its frame. -/
def stalledFrame (s : State) (vpn : Nat) : Option Nat :=
  match frameOfVpn s vpn with
  | some p => if (getFrame s p).rstate = 2 ∨ (getFrame s p).rstate = 3 then some p else none
  | none => none

/-- R313: requests that wait for a slot are sent while one is free. -/
def pumpWaiting (s : State) : State := s.folio.waiting.foldl requestRestore s

/-- R313: a frame that is PENDING no more asks for nothing. -/
def dropWaiting (s : State) : State :=
  { s with folio := { s.folio with waiting := s.folio.waiting.filter (fun p => (getFrame s p).rstate == 2) } }

/-- R310, R314: the requests held at endpoint 0x48 none of whose folios stalls any more go on. One that meets another folio that is not
present stays, its limit of R311 running on, and asks for that one (R313). -/
def releaseHeld (s : State) : State :=
  let (stay, go) := s.folio.held.partition (fun h => (heldVpns h).any (fun v => (stalledFrame s v).isSome))
  let s := { s with folio := { s.folio with held := stay }, router := { s.router with arrived := s.router.arrived ++ go.map (·.pkt) } }
  pumpWaiting ((stay.flatMap (fun h => (heldVpns h).filterMap (stalledFrame s))).foldl requestRestore s)

/-- R301: every tile engine and collective engine is HALTED, LOADED or QUIESCED. -/
def jobStopped (s : State) : Bool :=
  s.engines.all (fun kv => kv.2.st = .halted || kv.2.st = .loaded || kv.2.st = .quiesced)

/-- FT_LOAD: R300, R301. The base is that of the command (log entry 137). -/
def ftLoad (s : State) : State :=
  if s.folio.busy ≠ 0 ∨ !jobStopped s then setF s MC_FT_STATUS_CMD_ERR 6 1
  else setF { s with folio := { s.folio with busy := 1, cmdArg := getF s MC_FT_BASE_BASE 6 * 2 ^ 22 } } MC_FT_STATUS_BUSY 6 1

def ftRefuse (s : State) (vpn cause : Nat) : State :=
  setF (setF (setF s MC_FT_STATUS_LOAD_ERR 6 1) MC_FT_ERR_VPN 6 vpn) MC_FT_STATUS_CAUSE 6 cause

def ftIdle (s : State) : State := setF { s with folio := { s.folio with busy := 0 } } MC_FT_STATUS_BUSY 6 0

/-- FT_LOAD_COMPLETE: R300, R301. -/
def ftLoadComplete (s : State) : State :=
  if s.folio.busy ≠ 1 then s
  else
    let base := s.folio.cmdArg
    let s := ftIdle s
    if hbmTop < base + 0x400000 then ftRefuse s 0 7
    else match tableCheck s base (tableVpns s base) [base / 2 ^ 21, base / 2 ^ 21 + 1] with
      | some (v, c) => ftRefuse (lineReqs s base 0x400000 false 0) v c
      | none => releaseHeld (applyTable (lineReqs s base 0x400000 false 0) base)

/-- FT_UPDATE: R301. -/
def ftUpdate (s : State) : State :=
  if s.folio.busy ≠ 0 then setF s MC_FT_STATUS_CMD_ERR 6 1
  else match s.folio.ftBase with
    | none => setF s MC_FT_STATUS_CMD_ERR 6 1
    | some _ =>
      if (frameOfVpn s (getF s MC_FT_VPN_VPN 6)).isSome ∧ !jobStopped s then setF s MC_FT_STATUS_CMD_ERR 6 1
      else setF { s with folio := { s.folio with busy := 2, cmdArg := getF s MC_FT_VPN_VPN 6 } } MC_FT_STATUS_BUSY 6 1

/-- FT_UPDATE_COMPLETE: R301, R304. -/
def ftUpdateComplete (s : State) : State :=
  if s.folio.busy ≠ 2 then s
  else match s.folio.ftBase with
    | none => ftIdle s
    | some base =>
      let vpn := s.folio.cmdArg
      let s := lineReqs (ftIdle s) (ftEntryAddr base vpn) 8 false 0
      let e := readNat s (ftEntryAddr base vpn) 8
      let used := (s.folio.frames.filter (fun kv => kv.2.rstate != 0 && !(kv.2.vpn == vpn && kv.2.rstate != 5))).map (·.1)
      let c := entryCause s base vpn used
      if c ≠ 0 then ftRefuse s vpn c
      else
        let old := frameOfVpn s vpn
        let new := if eV e then some (ePfn e, mapFrame s vpn e) else none
        let s := match old with | some p => setFrame s p Frame.reset | none => s
        let s := match new with | some (p, f) => touchFrames (setFrame s p f) [p] | none => s
        releaseHeld (dropWaiting (if old.isSome then flushXlat s else s))

/-! Restore (R313 to R315). -/

/-- MC_RESTORE: R314, R442. -/
def mcRestore (s : State) (vpn : Nat) : State :=
  if lendState s = 3 then setF s MC_FT_STATUS_CMD_ERR 6 1
  else match frameOfVpn s vpn with
  | none => setF s MC_FT_STATUS_CMD_ERR 6 1
  | some pfn =>
    let f := getFrame s pfn
    if f.rstate ≠ 2 ∧ f.rstate ≠ 3 then setF s MC_FT_STATUS_CMD_ERR 6 1
    else
      let s := setFrame s pfn { f with rstate := 1, d := 0, s := 0 }
      releaseHeld (dropWaiting (addStat s MC_RESTORES 6 1))

/-- R315, R435: the job has not been torn down; a release that waits for its quiesce has not begun the teardown. -/
def jobStands (s : State) : Bool := decide (lendState s < 3) || (lendState s == 4 && s.lend.release)

/-- RESTORE_RESEND: R315; none while RECALLING (R442). -/
def restoreResend (s : State) (pfn : Nat) : State :=
  let f := getFrame s pfn
  let ms := if getF s MC_RESTORE_CFG_RESEND_MS 6 = 0 then 100 else getF s MC_RESTORE_CFG_RESEND_MS 6
  if f.rstate = 3 ∧ jobStands s ∧ f.since + ms * 1000000 ≤ s.gsc then pushEvent (setFrame s pfn { f with since := s.gsc }) (.restore f.vpn) else s

/-- HOLD_REPLY_SEND: R310: every 1 ms. -/
def holdReplies (s : State) : State :=
  if s.gsc < getTimer s tmHold + 1000000 then s
  else s.folio.held.foldl (fun s h => sendPkt s (reply s h.pkt 10 [])) (setTimer s tmHold s.gsc)

/-- HOLD_TIMEOUT: R311. -/
def holdTimeout (s : State) (k : Nat) : State :=
  match s.folio.held[k]? with
  | none => s
  | some h =>
    let ms := if getF s MC_RESTORE_CFG_HOLD_MS 6 = 0 then 1000 else getF s MC_RESTORE_CFG_HOLD_MS 6
    if h.since + ms * 1000000 ≤ s.gsc then
      sendNack { s with folio := { s.folio with held := s.folio.held.eraseIdx k } } h.pkt 0x0403
    else s

/-! The trickle checkpoint (R316 to R320). -/

/-- R317: one frame at a step mark: its dirty granules are released. -/
def releaseFrame (mark : Word) (s : State) (kv : Nat × Frame) : State :=
  let f := kv.2
  if !tracked f.cls || f.rstate == 5 || f.d == 0 then s
  else
    let gs := (List.range 32).filter (fun g => bit f.d.toNat g)
    let s := setFrame s kv.1 { f with s := f.s ||| f.d, d := 0 }
    let s := gs.foldl (fun s g => { s with folio := { s.folio with marks := mapSet (fun _ => 0) s.folio.marks (32 * kv.1 + g) mark } }) s
    match s.folio.sending with
    | some x => if x.pfn = kv.1 ∧ gs.contains x.gran then { s with folio := { s.folio with sending := some { x with again := true } } } else s
    | none => s

/-- R317: step 3 of R22. -/
def releaseDirty (s : State) (mark : Word) : State := s.folio.frames.foldl (releaseFrame mark) s

/-- The granules whose S bit is set, in order, as 32 * frame + granule. -/
def sGranules (s : State) : List Nat :=
  s.folio.frames.flatMap (fun kv => ((List.range 32).filter (fun g => bit kv.2.s.toNat g)).map (fun g => 32 * kv.1 + g))

/-- R317: the next granule of the round, or the first of a new one. -/
def nextGranule (s : State) : Option Nat :=
  match (sGranules s).find? (fun k => s.folio.pos ≤ k) with
  | some k => some k
  | none => (sGranules s).head?

/-- R318: 65,536 bytes as they are sent: a poisoned word is 16 zero bytes. -/
def granuleBytes (s : State) (a n : Nat) : List Byte := (readBytes s a n).map (fun b => if b.bad then 0 else b.b)

/-- R318: the bitmap of a granule's poisoned words, and whether it has one. -/
def granuleBitmap (s : State) (a : Nat) : List Byte :=
  (List.range 512).map (fun i => BitVec.ofNat 8 ((List.range 8).foldl (fun t j => t + b2n (isBad s (a + 16 * (8 * i + j))) * 2 ^ j) 0))

/-- The end of a granule's send: its four parts and its trailer (R318, R579). -/
def granuleEnd (s : State) (x : GranSend) : State :=
  let a := x.pfn * 2 ^ 21 + x.gran * 65536
  let vpn := x.vpn
  let bm := granuleBitmap s a
  let st := if x.overlap then 1 else if bm.any (· != 0) then 2 else 0
  let key := vpn + x.gran * 2 ^ 32
  let s := (List.range 4).foldl (fun s i =>
    ebOut s ⟨4, 0x48, 0, 0, key, x.mark.toNat + i * 2 ^ 32, granuleBytes s (a + 16384 * i) 16384⟩) s
  let s := ebOut s ⟨4, 0x48, st, 0, key, x.mark.toNat + 4 * 2 ^ 32, if st = 2 then bm else []⟩
  lineReqs (addStat { s with folio := { s.folio with sending := some { x with ended := true } } } MC_TRICKLE_BYTES 6 65536) a 65536 false 0

/-- TRICKLE_GRANULE_SEND: the first read of the next granule's send, then its last (R317, R318). One send is open at a time
(log entry 27); from RECALLING on no send begins (R437). -/
def trickleStep (s : State) : State :=
  match s.folio.sending with
    | some x => if x.ended then s else granuleEnd s x
    | none => if !flagF s MC_TRICKLE_EN 6 ∨ 3 ≤ lendState s then s else match nextGranule s with
      | none => s
      | some k =>
        let f := getFrame s (k / 32)
        { s with folio := { s.folio with
            pos := k + 1
            sending := some ⟨k / 32, f.vpn, k % 32, mapGet (fun _ => 0) s.folio.marks k, bit f.d.toNat (k % 32), false, false⟩ } }

/-- GRANULE_ACK: R318. -/
def granuleAck (s : State) (vpn gran : Nat) : State :=
  match s.folio.sending with
  | some x =>
    if x.ended ∧ x.gran = gran ∧ x.vpn = vpn then
      let f := getFrame s x.pfn
      let s := { s with folio := { s.folio with sending := none } }
      if f.vpn ≠ vpn then s
      else if x.again then { s with folio := { s.folio with pos := 32 * x.pfn + x.gran } }
      else
        let s := setFrame s x.pfn { f with s := f.s &&& ~~~(1#32 <<< gran) }
        { s with folio := { s.folio with marks := mapSet (fun _ => 0) s.folio.marks (32 * x.pfn + gran) 0 } }
    else s
  | none => s

end Sys2Proof.Machine
end

