-- ==== Sys2Proof/Machine/TileStore.lean ====
section
/-! DEFINITION. Tile store accesses (R122 to R129), with the digest regions that a write tears (R470). -/
namespace Sys2Proof.Machine

/-- R122: the bank and bank line of a tile store byte. -/
def tsBank (a : Nat) : Nat := (a / 64 + a / 2048) % 32
def tsLine (a : Nat) : Nat := a / 2048

/-- The byte address of a bank's line: the line of 2 KiB holds each bank once. -/
def tsOfBank (bank line : Nat) : Nat := 2048 * line + 64 * ((bank + 32 - line % 32 + 32 - (32 * line) % 32) % 32)

/-- Bytes of a tile store. -/
def tileRead (s : State) (p a n : Nat) : List PByte := readBytes s (tsAddr p a) n

/-- R468: the two digest regions of a physical tile, as (base, length). -/
def digestRegions (s : State) (p : Nat) : List (Nat × Nat) :=
  [(getF s TL_DIGEST_RGN0_BASE p, getF s TL_DIGEST_RGN0_LEN p), (getF s TL_DIGEST_RGN1_BASE p, getF s TL_DIGEST_RGN1_LEN p)]

/-- R470: a write into a region that the round has not read tears the round. -/
def tearDigest (s : State) (p a n : Nat) : State :=
  if s.digest.reading.contains p && (digestRegions s p).any (fun r => a < r.1 + r.2 && r.1 < a + n) then
    let s := setF (setF s TL_DIGEST_ST_TORN p 1) MG_DIGEST_STATUS_TORN 0 1
    { s with digest := { s.digest with torn := true } }
  else s

/-- R484: a running unit's region is written: what its words held before is one of the values that the unit may read. -/
def cvShadow (s : State) (p u a n : Nat) : State :=
  let t := getTile s p
  let st := if u = 0 then t.cv0 else t.cv1
  let lo := getFi s TL_CV_REGION_BASE p u
  let ws := (wordsOf a n).filter (fun w => lo < 16 * w + 16 && 16 * w < lo + getFi s TL_CV_REGION_LEN p u)
  if (st = 2 ∨ st = 4) ∧ ws ≠ [] then
    modTile s p (fun t => { t with cvOld := ws.foldl (fun m w => mapMod (fun _ => []) m (2 ^ 18 * u + w) (· ++ [tileRead s p (16 * w) 16])) t.cvOld })
  else s

/-- A write to a tile store. -/
def tileWrite (s : State) (p a : Nat) (bs : List PByte) : State :=
  writeBytes (tearDigest (cvShadow (cvShadow s p 0 a bs.length) p 1 a bs.length) p a bs.length) (tsAddr p a) bs

/-- The place of tile store words (R478). -/
def tilePlace (s : State) (p : Nat) : LinePlace := ⟨1, 2, p, (logOf s p).getD 0xFF, p⟩

/-- The place of accumulation buffer words (R478). -/
def bufPlace (s : State) (p : Nat) : LinePlace := ⟨2, 3, p, (logOf s p).getD 0xFF, p⟩

/-- R458, R463: a word of the tile's accumulation buffer that a reader meets; it comes with the sweep's errors (log entry 139). -/
def bufErr (s : State) (p : Nat) (e : LineErr) : State :=
  if inBuf e.addr.toNat ∧ (bufEntry e.addr.toNat).1 = p then
    let (s, v) := accessWord s (bufPlace s p) e
    if isLost v then addF s TL_ECC_UNCORRECTED p 1 else s
  else s

/-- TILE_SWEEP_READ: R128, R156. -/
def tileSweep (s : State) (p bank line : Nat) (errs : List LineErr) : State :=
  if !flagF s TL_SWEEP_EN p ∨ isolated s p then s
  else
    let base := tsAddr p (tsOfBank bank line)
    (pairErrs errs).foldl (fun s e =>
      if e.1.addr.toNat / 64 = base / 64 then
        let (s, v) := sweepWord s (tilePlace s p) e.1 e.2
        let s := if isCorrected v then addF s TL_ECC_CORRECTED p 1 else s
        if isLost v then addF s TL_ECC_UNCORRECTED p 1 else s
      else bufErr s p e.1) s

end Sys2Proof.Machine
end

