-- ==== Sys2Proof/Machine/Dm.lean ====
section
/-! DEFINITION. The data mover (chapter 04): descriptors, their pieces, the packets of remote pieces, read-ahead, faults and timeouts. -/
namespace Sys2Proof.Machine

def dmEng (p : Nat) : Eng := .tile (Fin.ofNat 72 p) .dm
def getDm (s : State) (p : Nat) : DmState := (getTile s p).dm
def modDm (s : State) (p : Nat) (f : DmState → DmState) : State := modTile s p (fun t => { t with dm := f t.dm })

/-! Shapes (R131 to R134). -/

/-- Whether an op addresses destination rows (copy, fill), source rows (warm) or elements. -/
def isNarrow (op : Nat) : Bool := op == 0x43 || op == 0x44

/-- The byte address of row r of a side, within its space; job addresses wrap at 2^40 (log entry 25). -/
def rowAddr (base : Nat) (str : Nat) (n1 r : Nat) : Nat :=
  wrapInt 40 ((base : Int) + ((r / n1 : Nat) : Int) * sext 32 (str / 2 ^ 32) + ((r % n1 : Nat) : Int) * sext 32 str)

def descSrc (d : Desc) : Nat := spaceOff d.ssp (BitVec.ofNat 64 d.src)
def descDst (d : Desc) : Nat := spaceOff d.dsp (BitVec.ofNat 64 d.dst)

/-- The side whose rows are split into pieces (R133). -/
def splitRow (d : Desc) (r : Nat) : Nat :=
  if d.op = 0x42 then rowAddr (descSrc d) d.sstr d.n1 r else rowAddr (descDst d) d.dstr d.n1 r

/-- R133: the pieces of a row of `n` bytes at address `a`. -/
def rowPieces (a n : Nat) : Nat := (a + n + 255) / 256 - a / 256

/-- R134: pieces of a descriptor; more than 65,536 rows are too many in any case. -/
def pieceTotal (d : Desc) : Nat :=
  if isNarrow d.op then d.n1
  else if 65536 < d.n1 * d.n2 then d.n1 * d.n2
  else sumNat ((List.range (d.n1 * d.n2)).map (fun r => rowPieces (splitRow d r) d.len))

/-- The row and part of piece k, looking from row r on for at most `fuel` rows. -/
def findPiece (d : Desc) : Nat → Nat → Nat → Nat × Nat
  | 0, r, _ => (r, 0)
  | fuel + 1, r, k =>
    let c := rowPieces (splitRow d r) d.len
    if k < c then (r, k) else findPiece d fuel (r + 1) (k - c)

/-- The row, the offset within it and the bytes of piece k. -/
def pieceSpan (d : Desc) (k : Nat) : Nat × Nat × Nat :=
  let (r, j) := findPiece d (d.n1 * d.n2) 0 k
  let a := splitRow d r
  let lo := if j = 0 then 0 else (a / 256 + j) * 256 - a
  let hi := min d.len ((a / 256 + j + 1) * 256 - a)
  (r, lo, hi - lo)

/-! Checks when a descriptor starts (R130, R139, R142, R149, R151). -/

/-- A side is job memory: space 1, or endpoint 0x48 of a node (R138). -/
def isJobSide (sp word : Nat) : Bool := sp == 1 || (sp == 3 && bits word 40 8 == 0x48)

/-- R151: an access to a tile store of rows of `len` bytes runs past its 4 MiB. -/
def shapeBad (base len n1 n2 str : Nat) : Bool :=
  let s1 := sext 32 str * ((n1 : Int) - 1)
  let s2 := sext 32 (str / 2 ^ 32) * ((n2 : Int) - 1)
  decide ((base : Int) + min 0 s1 + min 0 s2 < 0 ∨ 0x400000 < (base : Int) + max 0 s1 + max 0 s2 + len)

def isTileSide (sp word : Nat) : Bool := sp == 0 || sp == 2 || (sp == 3 && bits word 40 8 != 0x48)

/-- R130, R131, R139, R142, R151: DM_BAD_ENCODING of what a started descriptor read from its registers. -/
def descBad (d : Desc) (shape : Nat) : Bool :=
  match d.op with
  | 0x40 => bits shape 56 8 != 0 || d.len == 0 || spaceBad d.ssp (BitVec.ofNat 64 d.src) || spaceBad d.dsp (BitVec.ofNat 64 d.dst)
      || (!isJobSide d.ssp d.src && d.shint != 0) || (!isJobSide d.dsp d.dst && d.dhint != 0) || (isJobSide d.dsp d.dst && d.rctr.isSome)
  | 0x41 => bits shape 56 8 != 0 || d.len == 0 || spaceBad d.dsp (BitVec.ofNat 64 d.dst)
      || (!isJobSide d.dsp d.dst && d.dhint != 0) || (isJobSide d.dsp d.dst && d.rctr.isSome)
  | 0x42 => bits shape 56 8 != 0 || d.len == 0 || spaceBad 1 (BitVec.ofNat 64 d.src)
  | _ => !(d.ssp == 1 || (d.ssp == 3 && bits d.src 40 8 == 0x48)) || spaceBad d.ssp (BitVec.ofNat 64 d.src)

/-- R151: DM_ADDR_RANGE. -/
def descRange (d : Desc) : Bool :=
  match d.op with
  | 0x40 => (isTileSide d.ssp d.src && shapeBad (descSrc d) d.len d.n1 d.n2 d.sstr)
      || (isTileSide d.dsp d.dst && shapeBad (descDst d) d.len d.n1 d.n2 d.dstr)
  | 0x41 => isTileSide d.dsp d.dst && shapeBad (descDst d) d.len d.n1 d.n2 d.dstr
  | 0x42 => false
  | _ => 0x400000 < d.dst + 32 * d.n1 || 0x400000 < d.idxAddr + 4 * d.n1

/-- The fault code of a descriptor's start, if any. -/
def descFault (d : Desc) (shape : Nat) : Option Nat :=
  if descBad d shape then some 0x0C01
  else if isNarrow d.op && (d.src % 32 != 0 || d.idxAddr % 4 != 0) then some 0x0304
  else if descRange d then some 0x0C02
  else if 65536 < pieceTotal d then some 0x0C03
  else none

/-- R502: what a TESTING tile's descriptor names besides its own tile store. -/
def namesOther (d : Desc) : Bool :=
  match d.op with
  | 0x40 => d.ssp != 0 || d.dsp != 0
  | 0x41 => d.dsp != 0
  | _ => true

/-- A transfer number below 128 that no descriptor or piece uses, from `nextTid` on (R521). -/
def freeTid (x : DmState) : Nat :=
  ((List.range 128).map (fun i => (x.nextTid + i) % 128)).find?
    (fun n => !x.descs.any (fun d => d.tid == n) && !x.out.any (fun o => o.tid == n)) |>.getD 0

/-- A packet's endpoint: tile `l` of this node, or an endpoint of any node (R130). -/
def pieceDst (s : State) (sp word : Nat) : BitVec 24 :=
  if sp = 2 then epId (nodeId s) (bits word 40 8) else epId (bits word 48 16) (bits word 40 8)

/-- R149, R4: a logical tile of this GW7 that is absent. -/
def absentTile (s : State) (sp word : Nat) : Bool :=
  (sp == 2 || (sp == 3 && bits word 48 16 == nodeId s && bits word 40 8 < 0x40)) && (physOf s (bits word 40 8)).isNone

/-- The first side of a descriptor that names an absent tile of this GW7, as its address and space code. -/
def absentSide (s : State) (d : Desc) : Option (Nat × Nat) :=
  if d.op = 0x40 ∧ absentTile s d.ssp d.src then some (descSrc d, d.ssp)
  else if (d.op = 0x40 ∨ d.op = 0x41) ∧ absentTile s d.dsp d.dst then some (descDst d, d.dsp)
  else none

/-! Overlap (R132, R136). -/

/-- The endpoint whose memory a side of tile p's descriptor lies in. -/
def sideOf (s : State) (p sp word : Nat) : BitVec 24 :=
  match sp with
  | 0 => epId (nodeId s) ((logOf s p).getD 0xFF)
  | 1 => epId (nodeId s) 0x48
  | _ => pieceDst s sp word

/-- The rows of a side, as first byte and length. -/
def rowsAt (d : Desc) (base str : Nat) : List (Nat × Nat) :=
  (List.range (d.n1 * d.n2)).map (fun r => (rowAddr base str d.n1 r, d.len))

/-- The elements that a narrow descriptor's index list names now. -/
def elemsAt (s : State) (p : Nat) (d : Desc) : List (Nat × Nat) :=
  (List.range d.n1).map (fun k => (bits d.src 0 40 + 32 * ofBytes ((tileRead s p (d.idxAddr + 4 * k) 4).map (·.b)), 32))

def descWrites (s : State) (p : Nat) (d : Desc) : List (BitVec 24 × List (Nat × Nat)) :=
  match d.op with
  | 0x42 => []
  | 0x43 => [(sideOf s p 0 0, [(d.dst, 32 * d.n1)])]
  | 0x44 => [(sideOf s p d.ssp d.src, elemsAt s p d)]
  | _ => [(sideOf s p d.dsp d.dst, rowsAt d (descDst d) d.dstr)]

def descReads (s : State) (p : Nat) (d : Desc) : List (BitVec 24 × List (Nat × Nat)) :=
  match d.op with
  | 0x40 => [(sideOf s p d.ssp d.src, rowsAt d (descSrc d) d.sstr)]
  | 0x43 => [(sideOf s p 0 0, [(d.idxAddr, 4 * d.n1)]), (sideOf s p d.ssp d.src, elemsAt s p d)]
  | 0x44 => [(sideOf s p 0 0, [(d.idxAddr, 4 * d.n1), (d.dst, 32 * d.n1)])]
  | _ => []

def sidesMeet (xs ys : List (BitVec 24 × List (Nat × Nat))) : Bool :=
  xs.any (fun x => ys.any (fun y => x.1 == y.1 && x.2.any (fun a => y.2.any (spansMeet a))))

/-- Some two of the spans share a byte. -/
def spansOverlap : List (Nat × Nat) → Bool
  | [] => false
  | a :: r => r.any (spansMeet a) || spansOverlap r

/-- R132: a descriptor overlaps itself. Adds to one element land in arrival order and are supported (R292). -/
def overlapsSelf (s : State) (p : Nat) (d : Desc) : Bool :=
  ((d.op == 0x40 || d.op == 0x41) && (descWrites s p d).any (fun x => spansOverlap x.2)) || sidesMeet (descReads s p d) (descWrites s p d)

/-- R136: two descriptors in flight touch the same bytes, and not only by adding to them (R292). -/
def overlapsOther (s : State) (p : Nat) (a b : Desc) : Bool :=
  (!(a.op == 0x44 && b.op == 0x44) && sidesMeet (descWrites s p a) (descWrites s p b))
    || sidesMeet (descReads s p a) (descWrites s p b) || sidesMeet (descWrites s p a) (descReads s p b)

/-- A descriptor joins those in flight; the results of those that overlap become free (log entry 4). -/
def joinDescs (s : State) (p : Nat) (d : Desc) : State :=
  let x := getDm s p
  let hit := (x.descs.filter (overlapsOther s p d)).map (·.tid)
  let d := { d with unsup := overlapsSelf s p d || !hit.isEmpty }
  modDm s p (fun x => { x with
    descs := x.descs.map (fun y => { y with unsup := y.unsup || hit.contains y.tid }) ++ [d]
    out := x.out.map (fun o => { o with unsup := o.unsup || hit.contains o.tid }), nextTid := (d.tid + 1) % 128 })

/-- R149 step 3: DM_PROG. -/
def dmProg (s : State) (p next tid tag : Nat) : State :=
  let s := setF s DM_PROG_NEXT_PIECE p next
  let s := setF s DM_PROG_TRANSFER_ID p (domGenOf s (dmEng p) * 256 + tid)
  setF s DM_PROG_TAG p tag

/-- Start a descriptor of the queue's front (R135). A descriptor that R149 faults here, for a misaligned narrow access or an absent
tile (R4, R5), leaves in DM_PROG piece 0 and the transfer number it would have had (log entry 121). -/
def startDesc (s : State) (p : Nat) (q : QEntry) (d : Desc) (shape : Nat) : State :=
  let e := dmEng p
  let n := freeTid (getDm s p)
  match descFault d shape, absentSide s d with
  | some 0x0304, _ => faultQ (dmProg s p 0 n d.tag) e q 0x0304 (bits d.src 0 40) d.ssp 0
  | some c, _ => faultQ s e q c 0 0 0
  | none, some a => faultQ (dmProg s p 0 n d.tag) e q 0x0101 a.1 a.2 0
  | none, none =>
    if ptileOf s p = 2 ∧ namesOther d then faultQ s e q 0x0101 0 0 0
    else
      joinDescs (traceEv (popFront s e) e (iT q.word) (iTag q.word) q.idx 2 0) p
        { d with tid := n, total := pieceTotal d, since := s.gsc }

/-- Issue a dm. instruction: R202, R151, R603, the in-flight limit of R135, and its W wait (R200). -/
def runDm (s : State) (p op : Nat) (bad : IWord → Bool) (mk : State → IWord → Desc × Nat) : State :=
  let e := dmEng p
  match frontIs s e 3 op with
  | none => s
  | some q =>
    if draining s p || 8 ≤ (getDm s p).descs.length then s
    else if flagBad q.word || (iV q.word != (op == 0x44)) || bad q.word then faultQ s e q 0x0C01 0 0 0
    else match takeW s e q with
      | (s, true) =>
        let (d, shape) := mk s q.word
        startDesc s p q { d with op := op, pc := q.idx, tag := iTag q.word, v := iV q.word, t := iT q.word, sctr := iSig q.word } shape
      | (s, false) => s

def Desc.zero : Desc :=
  { tid := 0, op := 0, pc := 0, tag := 0, v := false, t := false, sctr := none, src := 0, dst := 0, ssp := 0, dsp := 0, len := 0,
    n1 := 1, n2 := 1, sstr := 0, dstr := 0, shint := 0, dhint := 0, rctr := none, ectr := none, int := false, idxAddr := 0,
    total := 0, next := 0, readBack := 0, doneCnt := 0, esigDone := false, stall := none, since := 0, acc := 0, unsup := false }

/-- R155: the operands of dm.copy, dm.fill and dm.warm, with the shape register. -/
def shapeDesc (p : Nat) (op : Nat) (s : State) (w : IWord) : Desc × Nat :=
  let g (lo : Nat) : Nat := (getG s (dmEng p) (ifld w lo 5)).toNat
  let shape := g 59
  ({ Desc.zero with
     ssp := if op = 0x41 then 0 else ifld w 77 3
     dsp := if op = 0x42 then 0 else ifld w 74 3
     src := g 69, dst := if op = 0x42 then 0 else g 64
     len := bits shape 0 24, n1 := bits shape 24 16 + 1, n2 := bits shape 40 16 + 1
     sstr := if op = 0x41 then 0 else g 54, dstr := if op = 0x42 then 0 else g 49
     shint := ifld w 47 2, dhint := ifld w 45 2
     rctr := if ibit w 44 then some (ifld w 36 8) else none
     ectr := if ibit w 35 then some (ifld w 27 8) else none }, shape)

/-- R155: the operands of dm.gather and dm.atomadd: `src` is the base, `dst` the tile-store data address. -/
def narrowDesc (p : Nat) (s : State) (w : IWord) : Desc × Nat :=
  let g (lo : Nat) : Nat := (getG s (dmEng p) (ifld w lo 5)).toNat
  ({ Desc.zero with
     ssp := ifld w 77 3, int := ibit w 76, src := g 69, dst := bits (g 64) 0 22, idxAddr := bits (g 59) 0 22
     n1 := ifld w 43 16 + 1, shint := ifld w 41 2, rctr := if ibit w 40 then some (ifld w 32 8) else none }, 0)

def doDmCopy (s : State) (p : Nat) : State :=
  runDm s p 0x40 (fun w => rsvBad w [(0, 27)]) (shapeDesc p 0x40)

def doDmFill (s : State) (p : Nat) : State :=
  runDm s p 0x41 (fun w => rsvBad w [(0, 36), (77, 3), (54, 5), (47, 2)]) (shapeDesc p 0x41)

def doDmWarm (s : State) (p : Nat) : State :=
  runDm s p 0x42 (fun w => ifld w 77 3 != 1 || rsvBad w [(0, 47), (74, 3), (64, 5), (49, 5)]) (shapeDesc p 0x42)

def doDmGather (s : State) (p : Nat) : State :=
  runDm s p 0x43 (fun w => rsvBad w [(0, 32), (74, 3)]) (narrowDesc p)

def doDmAtomadd (s : State) (p : Nat) : State :=
  runDm s p 0x44 (fun w => rsvBad w [(0, 41), (74, 2)]) (narrowDesc p)

/-! Pieces. -/

/-- R149: a piece's fault: DM_PROG, and the program faults with the descriptor's tag; no descriptor signals any more. -/
def faultDesc (s : State) (p : Nat) (d : Desc) (code addr space detail : Nat) : State :=
  faultEngine (dmProg s p d.next d.tid d.tag) (dmEng p) code d.tag d.pc d.t addr space detail

/-- A fault of a piece whose descriptor may have ended with an earlier fault. -/
def faultPiece (s : State) (p tid code addr space detail : Nat) : State :=
  match (getDm s p).descs.find? (fun d => d.tid == tid) with
  | some d => faultDesc s p d code addr space detail
  | none => s

def setDesc (s : State) (p : Nat) (d : Desc) : State :=
  modDm s p (fun x => { x with descs := x.descs.map (fun y => if y.tid = d.tid then d else y) })

def getPiece (s : State) (p tid pseq : Nat) : Option PieceOut := (getDm s p).out.find? (fun x => x.tid == tid && x.pseq == pseq)

/-- Line accesses whose piece is gone move no bytes. -/
def orphanLines (s : State) (gone : Nat × Nat × Nat → Bool) : State :=
  { s with lineQ := s.lineQ.map (fun q => match q.own with | some k => if gone k then { q with own := none } else q | none => q) }

def dropPiece (s : State) (p : Nat) (x : PieceOut) : State :=
  modDm (orphanLines s (fun k => k == (p, x.tid, x.pseq))) p (fun y => { y with out := y.out.filter (fun z => !(z.tid == x.tid && z.pseq == x.pseq)) })
def putPiece (s : State) (p : Nat) (x : PieceOut) : State :=
  modDm s p (fun y => { y with out := y.out.filter (fun z => !(z.tid == x.tid && z.pseq == x.pseq)) ++ [x] })

/-- R141: a source read has returned; the last of them signals ECTR. -/
def noteRead (s : State) (p tid : Nat) : State :=
  match (getDm s p).descs.find? (fun d => d.tid == tid) with
  | none => s
  | some d =>
    let d := { d with readBack := d.readBack + 1 }
    if d.readBack = d.total ∧ d.ectr.isSome ∧ !d.esigDone then
      signalUnit (setDesc s p { d with esigDone := true }) p d.ectr d.tag
    else setDesc s p d

/-- R150: the poisoned 16-byte words among bytes read from address `a` on; `cont` says that a word in which they begin has been
counted with the bytes before them. -/
def poisonedWords (a : Nat) (cont : Bool) (bs : List PByte) : Nat :=
  let lead := if a % 16 = 0 then 0 else 16 - a % 16
  (if (bs.take lead).any (·.bad) && !cont then 1 else 0)
    + ((chunksOf 16 bs.length (bs.drop lead)).filter (fun c => c.any (·.bad))).length

/-- A piece's poisoned words, each counted once in its row. -/
def piecePoison (s : State) (p : Nat) (x : PieceOut) : Nat :=
  let cont := match (getDm s p).descs.find? (fun d => d.tid == x.tid) with
    | some d => !isNarrow d.op && (pieceSpan d x.pseq).2.1 != 0
    | none => false
  poisonedWords x.sa cont x.data

/-- R140, R142: a piece completes; the last one completes its descriptor. -/
def finishPiece (s : State) (p : Nat) (x : PieceOut) : State :=
  let bad := piecePoison s p x
  let s := addStat (addStat (dropPiece s p x) DM_PIECES p 1) DM_BYTES p x.n
  let s := addStat s DM_POISON_MOVED p bad
  match (getDm s p).descs.find? (fun d => d.tid == x.tid) with
  | none => s
  | some d =>
    let d := { d with doneCnt := d.doneCnt + 1 }
    if d.doneCnt = d.total then
      let s := modDm s p (fun y => { y with descs := y.descs.filter (fun z => z.tid != d.tid) })
      let s := if (d.op = 0x43 ∨ d.dsp = 0) ∧ d.rctr.isSome then signalUnit s p d.rctr d.tag else s
      completeDone s (dmEng p) ⟨d.sctr, d.tag, d.pc, d.v, d.t⟩
    else setDesc s p d

/-- The bytes that a piece writes: free ones where R132 or R136 leaves its result unspecified. -/
def landing (s : State) (x : PieceOut) (bs : List PByte) : List PByte × State := if x.unsup then freshBytes s bs else (bs, s)

/-- R283, R284: a piece asks the slices for its lines; its bytes move as each of them is served. -/
def askLines (s : State) (p : Nat) (x : PieceOut) (segs : List (Nat × Nat)) (wr : Bool) (hint : Nat) : State :=
  segs.foldl (fun s g => lineReqsFor (some (p, x.tid, x.pseq)) s g.1 g.2 wr hint)
    (putPiece s p { x with lines := sumNat (segs.map (fun g => lineCount g.1 g.2)) })

/-- A piece whose data has come goes on to its destination; a packet takes EDN and GEN as it is injected (R358). -/
def pieceToDest (s : State) (p : Nat) (x : PieceOut) (data : List PByte) : State :=
  let x := { x with data := data, since := s.gsc, held := none }
  match x.sp with
  | 0 => putPiece s p { x with kind := 2 }
  | 1 => askLines s p { x with kind := 3 } x.dst true x.hint
  | _ => match x.dpkt with
    | some k =>
      let (bs, s) := landing s x data
      let k := { k with payload := bs, len := BitVec.ofNat 9 bs.length, poison := bs.any (·.bad)
                        gen := BitVec.ofNat 8 (jobGen s), edn := BitVec.ofNat 1 (getF s RT_EDITION_INJECT 0) }
      sendPkt (putPiece s p { x with kind := 4, pkt := some k }) k
    | none => putPiece s p { x with kind := 2 }

/-- A request of the mover for piece k of descriptor d. -/
def pieceReq (s : State) (p : Nat) (d : Desc) (typ sp word addr k : Nat) : Packet :=
  { request s (engUnit s (dmEng p)) typ (pieceDst s sp word) (domGenOf s (dmEng p) * 256 + d.tid) k with
    addr := BitVec.ofNat 40 addr, last := k + 1 == d.total }

def stallDesc (s : State) (p : Nat) (d : Desc) (vpn : Nat) : State :=
  setDesc s p { d with stall := some ⟨vpn, s.gsc, 0⟩, acc := d.acc + (s.gsc - d.since), since := s.gsc }

def blankPiece (s : State) (d : Desc) (k n : Nat) : PieceOut :=
  { tid := d.tid, pseq := k, kind := 2, n := n, data := [], src := [], dst := [], sp := 0, addr := 0, pkt := none, dpkt := none,
    hint := d.dhint, int := d.int, gen := jobGen s, since := s.gsc, held := none, ssp := d.ssp, sa := 0, unsup := d.unsup, lines := 0 }

/-- Issue a piece of dm.copy, dm.fill or dm.warm (R133, R146, R149). -/
def issueShape (s : State) (p : Nat) (d : Desc) : State :=
  let k := d.next
  let (r, off, n) := pieceSpan d k
  let sa := (rowAddr (descSrc d) d.sstr d.n1 r + off) % 2 ^ 40
  let da := (rowAddr (descDst d) d.dstr d.n1 r + off) % 2 ^ 40
  let (s, sAns) := if d.op ≠ 0x41 ∧ d.ssp = 1 then jobCheck s (some p) sa n false else (s, .ok [])
  let (s, dAns) := if d.op ≠ 0x42 ∧ d.dsp = 1 then jobCheck s (some p) da n true else (s, .ok [])
  match sAns, dAns with
  | .fault c, _ => faultDesc s p d c sa 1 0
  | .stall v _, _ => stallDesc s p d v
  | .ok _, .fault c => faultDesc s p d c da 1 0
  | .ok _, .stall v _ => stallDesc s p d v
  | .ok ss, .ok ds =>
    if d.op = 0x40 ∧ absentTile s d.ssp d.src then faultDesc s p d 0x0101 sa d.ssp 0
    else if d.op ≠ 0x42 ∧ absentTile s d.dsp d.dst then faultDesc s p d 0x0101 da d.dsp 0
    else
      let s := setDesc s p { d with next := k + 1 }
      let dpkt := if 2 ≤ d.dsp then some { pieceReq s p d 0 d.dsp d.dst da k with
          rsig := d.rctr.isSome, rctr := BitVec.ofNat 8 (if isJobSide d.dsp d.dst then d.dhint else d.rctr.getD 0) } else none
      let x := { blankPiece s d k n with src := ss, dst := ds, sp := d.dsp, addr := da, sa := sa, dpkt := dpkt }
      if d.op = 0x42 then askLines s p { x with kind := 8, sp := 0 } ss false d.shint
      else if d.op = 0x41 then
        pieceToDest s p x (good ((List.range n).map (fun i => BitVec.ofNat 8 (bits d.src (8 * ((off + i) % 8)) 8))))
      else match d.ssp with
        | 0 => pieceToDest (noteRead s p d.tid) p x (tileRead s p sa n)
        | 1 => askLines s p { x with kind := 0, data := List.replicate n ⟨0, false⟩ } ss false d.shint
        | _ =>
          let rq := { pieceReq s p d 1 d.ssp d.src sa k with len := BitVec.ofNat 9 n, rctr := BitVec.ofNat 8 d.shint }
          sendPkt (putPiece s p { x with kind := 1, pkt := some rq }) rq

/-- Issue an element of dm.gather or dm.atomadd (R155, R290, R149). -/
def issueNarrow (s : State) (p : Nat) (d : Desc) : State :=
  let k := d.next
  let ib := tileRead s p (d.idxAddr + 4 * k) 4
  let base := bits d.src 0 40
  let idx := ofBytes (ib.map (·.b))
  let a := base + 32 * idx
  let atom := d.op == 0x44
  if ib.any (·.bad) then faultDesc s p d 0x0303 (d.idxAddr + 4 * k) 0 0
  else if 2 ^ 40 ≤ a then faultDesc s p d 0x0301 base d.ssp idx
  else
    let (s, ans) := if d.ssp = 1 then jobCheck s (some p) a 32 atom else (s, .ok [])
    match ans with
    | .fault c => faultDesc s p d c a 1 0
    | .stall v _ => stallDesc s p d v
    | .ok ss =>
      let s := setDesc s p { d with next := k + 1 }
      let x := { blankPiece s d k 32 with src := ss, addr := d.dst + 32 * k, sa := a, hint := d.shint }
      let add := if atom then tileRead s p (d.dst + 32 * k) 32 else []
      if d.ssp = 1 then putPiece s p { x with kind := if atom then 6 else 5, data := add }
      else
        let (add, s) := landing s x add
        let rq := { pieceReq s p d (if atom then 3 else 2) d.ssp d.src a k with
          payload := add, len := 32, poison := add.any (·.bad), rctr := BitVec.ofNat 8 (d.shint + (if d.int then 4 else 0)) }
        sendPkt (putPiece s p { x with kind := if atom then 4 else 1, pkt := some rq, data := add }) rq

/-- The mover issues: its program runs or waits and has not been asked to quiesce (R152). -/
def dmIssues (s : State) (p : Nat) : Bool :=
  let g := getEng s (dmEng p)
  (g.st = .running || g.st = .waiting) && !g.quiesceReq && !isolated s p && (getDm s p).out.length < 2048

/-- DM_PIECE_ISSUE: R133, R135. -/
def issuePiece (s : State) (p tid : Nat) : State :=
  if !dmIssues s p then s
  else match (getDm s p).descs.find? (fun d => d.tid == tid) with
    | none => s
    | some d =>
      if d.stall.isSome || d.total ≤ d.next then s
      else if isNarrow d.op then issueNarrow s p d else issueShape s p d

/-- The parts of a piece that lie in a line: their place in the piece, their address, their length. -/
def partsIn (line : Nat) : Nat → List (Nat × Nat) → List (Nat × Nat × Nat)
  | _, [] => []
  | o, (a, n) :: r =>
    let lo := max a (256 * line)
    let hi := min (a + n) (256 * line + 256)
    if lo < hi then (o + (lo - a), lo, hi - lo) :: partsIn line (o + n) r else partsIn line (o + n) r

/-- Bytes in place of those from `o` on. -/
def splice (bs : List PByte) (o : Nat) (new : List PByte) : List PByte := bs.take o ++ new ++ bs.drop (o + new.length)

/-- R284, R289: the bytes of a piece that lie in a line move as its slice serves the line: they are read, or they are written, or a
write of another generation is discarded. -/
def pieceLine (s : State) (p : Nat) (x : PieceOut) (line : Nat) : State :=
  let y := { x with lines := x.lines - 1 }
  match x.kind with
  | 0 => putPiece s p { y with data := (partsIn line 0 x.src).foldl (fun d g => splice d g.1 (readBytes s g.2.1 g.2.2)) x.data }
  | 3 => (partsIn line 0 x.dst).foldl (fun s g => match staleWrite s x.gen [g.2] with
      | some s => s
      | none => let (bs, s) := landing s x ((x.data.drop g.1).take g.2.2); landWrite s g.2.1 bs) (putPiece s p y)
  | _ => putPiece s p y

/-- R322: the write of a piece to a line waits at its slice while the duplicator is full. -/
def pieceWaits (s : State) (q : LineReq) : Bool :=
  match q.own with
  | some (p, t, k) => q.wr && (match getPiece s p t k with | some x => mirrorFull s ((partsIn (q.addr / 256) 0 x.dst).map (·.2)) | none => false)
  | none => false

/-- The line access at the head of its line's queue is served (R284, R285); `odecc` on-die ECC reports come with a miss (R272). -/
def serveLine (s : State) (q : LineReq) (errs : List LineErr) (odecc : Nat) : State :=
  let line := q.addr / 256
  let s := { s with lineQ := dropFirst (fun r => r.addr / 256 == line) s.lineQ }
  let (s, hit) := lineAccess s line q.wr q.hint
  let s := if hit then s else odeccReports s (line % 6) (pcOf s q.addr) odecc
  let s := if q.wr then s else errs.foldl (accessErr hit line) s
  match q.own with
  | none => s
  | some (p, t, k) => match getPiece s p t k with
    | some x => pieceLine s p x line
    | none => s

/-- HC_ACCESS: the oldest waiting access of the line reaches its slice, if it is the one named (R284, R285). Where none waits, the errors
are those that an access meets whose bytes move at once (log entry 135). `owned` is a word of the GW7's own structures that the access
meets (R467). -/
def hcAccess (s : State) (addr : Nat) (wr : Bool) (hint : Nat) (errs : List LineErr) (odecc : Nat) (owned : Option OwnedErr) : State :=
  let line := addr / 256
  let s := owned.toList.foldl ownedErr s
  let s := (errs.filter (fun e => inCatalogue e.addr.toNat)).foldl catalogueErr s
  if memReset s [(256 * line, 256)] || lineWaits s line then s
  else match s.lineQ.find? (fun q => q.addr / 256 == line) with
    | some q => if q.wr = wr ∧ q.hint = hint ∧ !pieceWaits s q then serveLine s q errs odecc else s
    | none => if wr then s else errs.foldl (accessErr ((getStack s (line % 6)).lines.any (fun l => l.line == line)) line) s

/-- R149: the first byte of a piece and its space code, for a record: of its destination once its data has come, of its source before. -/
def pieceAddr (x : PieceOut) : Nat × Nat :=
  if x.kind = 2 ∨ ((x.kind = 3 ∨ x.kind = 4) ∧ x.sp ≠ 0) then (x.addr, x.sp) else (x.sa, x.ssp)

/-- DM_PIECE_COMPLETE: a piece within the GW7's own memory moves on or completes (R140). A line that no slice can serve
is answered with DOMAIN_RESET (R288). -/
def completePiece (s : State) (p tid pseq : Nat) : State :=
  match getPiece s p tid pseq with
  | none => s
  | some x =>
    if x.kind ≠ 2 ∧ (x.lines ≠ 0 ∨ x.kind = 5 ∨ x.kind = 6) ∧ memReset s (x.src ++ x.dst) then
      (if x.kind = 1 ∨ x.kind = 4 ∨ x.kind = 7 ∨ x.kind = 9 then s
       else faultPiece (dropPiece s p x) p tid 0x0402 (pieceAddr x).1 (pieceAddr x).2 0)
    else match x.kind with
    | 0 => if x.lines = 0 then pieceToDest (noteRead s p tid) p x x.data else s
    | 2 => let (bs, s) := landing s x x.data; finishPiece (tileWrite s p x.addr bs) p x
    | 3 => if x.lines = 0 then finishPiece s p x else s
    | 5 => (match x.src with
      | [(a, _)] =>
        if slicesWait s x.src then s else
        let (s, bs) := narrowRead s a x.hint
        let (w, s) := landing (noteRead s p tid) x bs
        finishPiece (tileWrite s p x.addr w) p { x with data := bs }
      | _ => s)
    | 6 => (match x.src with
      | [(a, _)] =>
        if writeWaits s x.src then s else
        (match staleWrite s x.gen x.src with
        | some s => finishPiece s p x
        | none => let (bs, s) := landing s x x.data; finishPiece (landAtomic s a x.hint x.int bs) p x)
      | _ => s)
    | 8 => if x.lines = 0 then finishPiece s p x else s
    | _ => s

/-- DM_DESCRIPTOR_RESUME: R146. -/
def resumeDesc (s : State) (p tid : Nat) : State :=
  match (getDm s p).descs.find? (fun d => d.tid == tid) with
  | none => s
  | some d => match d.stall with
    | none => s
    | some x => match frameOfVpn s x.vpn with
      | some pfn =>
        if (getFrame s pfn).rstate = 2 ∨ (getFrame s pfn).rstate = 3 then s else setDesc s p { d with stall := none, since := s.gsc }
      | none => setDesc s p { d with stall := none, since := s.gsc }

/-! Read-ahead (R143 to R145). -/

/-- R143: RA_DEPTH, 9 to 15 acting as 8. -/
def raDepth (s : State) (p : Nat) : Nat := min (getF s DM_CFG_RA_DEPTH p) 8

/-- R143: the unstarted descriptors of the queue up to the first control instruction, with their places. -/
def unstarted (s : State) (p : Nat) : List (QEntry × Nat) :=
  ((getEng s (dmEng p)).queue.takeWhile (fun q => iCls q.word != 0)).zipIdx.filter (fun q => iCls q.1.word == 3)

/-- The source parts of the first 64 KiB of a shape: at most 256 rows hold a byte each when rows are short (bounded by bytes). -/
def raParts (d : Desc) : Nat → Nat → Nat → List (Nat × Nat)
  | 0, _, _ => []
  | fuel + 1, r, left =>
    if left = 0 ∨ d.n1 * d.n2 ≤ r then []
    else
      let n := min d.len left
      (rowAddr (descSrc d) d.sstr d.n1 r, n) :: raParts d fuel (r + 1) (left - n)

/-- R144, R145: one folio part of a read-ahead: lines are asked for, a PENDING folio is requested, a fault ends the rest. -/
def raTouch (p hint : Nat) (acc : State × Bool) (part : Nat × Nat) : State × Bool :=
  if !acc.2 then acc
  else match jobCheck acc.1 (some p) part.1 part.2 false with
    | (s, .ok segs) =>
      let s := addStat s DM_RA_TOUCHES p (sumNat (segs.map (fun x => rowPieces x.1 x.2)))
      (segLines s segs false hint, true)
    | (s, .stall _ _) => (s, true)
    | (s, .fault _) => (s, false)

/-- A row's parts of at most 256 bytes, as pieces of its source. -/
def rowParts (part : Nat × Nat) : List (Nat × Nat) :=
  (List.range (rowPieces part.1 part.2)).map (fun j =>
    let lo := if j = 0 then part.1 else (part.1 / 256 + j) * 256
    let hi := min (part.1 + part.2) ((part.1 / 256 + j + 1) * 256)
    (lo % 2 ^ 40, hi - lo))

/-- DM_READ_AHEAD: the k-th descriptor beyond the oldest unstarted one (R143). -/
def readAhead (s : State) (p k : Nat) : State :=
  if k = 0 ∨ raDepth s p < k ∨ isolated s p then s
  else match (unstarted s p)[k]? with
    | none => s
    | some (q, i) =>
      if q.filled then s
      else
        let s := modEng s (dmEng p) (fun g => { g with queue := g.queue.set i { q with filled := true } })
        if iOp q.word = 0x40 ∨ iOp q.word = 0x42 then
          let (d, shape) := shapeDesc p (iOp q.word) s q.word
          if d.ssp ≠ 1 ∨ (descFault { d with op := iOp q.word } shape).isSome then s
          else (((raParts d 65536 0 65536).flatMap rowParts).foldl (raTouch p d.shint) (s, true)).1
        else s

/-! Timeouts and replies (R148, R149, R311, R375, R439). -/

/-- Time a stall has run (R148, R517). -/
def stallElapsed (s : State) (e : Eng) (x : DmStall) : Nat :=
  if (getEng s e).st = .quiesced ∨ lendState s = 3 then x.acc else x.acc + (s.gsc - x.since)

def waitLimit (s : State) (e : Eng) : Nat := (if getP s e P_WAIT_TMO_US = 0 then 1000000 else getP s e P_WAIT_TMO_US) * 1000

/-- The first byte of a descriptor's next piece, with its space code: on its source side, or on its destination side where `dest`
says so. -/
def nextAddr (s : State) (p : Nat) (d : Desc) (dest : Bool) : Nat × Nat :=
  if isNarrow d.op then
    ((bits d.src 0 40 + 32 * ofBytes ((tileRead s p (d.idxAddr + 4 * d.next) 4).map (·.b))) % 2 ^ 40, d.ssp)
  else
    let (r, off, _) := pieceSpan d d.next
    if dest || d.op == 0x41 then ((rowAddr (descDst d) d.dstr d.n1 r + off) % 2 ^ 40, d.dsp)
    else ((rowAddr (descSrc d) d.sstr d.n1 r + off) % 2 ^ 40, d.ssp)

/-- A stalled descriptor waits for the folio of its destination and not for that of its source. -/
def stallsAtDst (d : Desc) (vpn : Nat) : Bool :=
  let (r, off, n) := pieceSpan d d.next
  let a := (rowAddr (descSrc d) d.sstr d.n1 r + off) % 2 ^ 40
  !isNarrow d.op && !(d.ssp == 1 && a / 2 ^ 21 ≤ vpn && vpn ≤ (a + n - 1) / 2 ^ 21)

/-- The piece that a descriptor is incomplete for: its next, or the oldest that is out once all are issued. -/
def lateAddr (s : State) (p : Nat) (d : Desc) : Nat × Nat :=
  match (getDm s p).out.find? (fun x => x.tid == d.tid) with
  | some x => if d.total ≤ d.next then pieceAddr x else nextAddr s p d false
  | none => nextAddr s p d false

/-- DM_STALL_TIMEOUT: R148; DETAIL names the folio. -/
def stallTimeout (s : State) (p tid : Nat) : State :=
  match (getDm s p).descs.find? (fun d => d.tid == tid) with
  | none => s
  | some d => match d.stall with
    | some x => if waitLimit s (dmEng p) ≤ stallElapsed s (dmEng p) x then 
      faultDesc s p d 0x0403 (nextAddr s p d (stallsAtDst d x.vpn)).1 1 x.vpn else s
    | none => s

/-- DM_REQUEST_TIMEOUT: R149; a request that is being held runs against P_WAIT_TMO (R311). A request to a tile of this GW7 has the
100 µs of own memory (DESIGN CHOICE, log entry 122). -/
def requestTimeout (s : State) (p tid pseq : Nat) : State :=
  match getPiece s p tid pseq with
  | none => s
  | some x =>
    if x.kind = 7 ∨ x.kind = 9 ∨ x.kind = 2 then s
    else
      let remote := match x.pkt with | some k => epNode k.dst != nodeId s | none => false
      let lim := if remote then 10000000 else 100000
      let heldLong : Bool := match x.held with | some h => lendState s != 3 && decide (h + waitLimit s (dmEng p) ≤ s.gsc) | none => false
      if x.since + lim ≤ s.gsc ∨ heldLong then
        faultPiece (dropPiece s p x) p tid 0x0403 (pieceAddr x).1 (pieceAddr x).2 0
      else s

/-- DM_DESCRIPTOR_TIMEOUT: R149, R517. -/
def descTimeout (s : State) (p tid : Nat) : State :=
  match (getDm s p).descs.find? (fun d => d.tid == tid) with
  | none => s
  | some d =>
    let run := d.stall.isNone && (getEng s (dmEng p)).st != .quiesced
      && !(getDm s p).out.any (fun x => x.tid == tid && x.held.isSome)
    if 10000000 ≤ d.acc + (if run then s.gsc - d.since else 0) then 
      faultDesc s p d 0x0403 (lateAddr s p d).1 (lateAddr s p d).2 0 else s

/-- Send the request of a refused piece again (R375, R439). -/
def resend (s : State) (p : Nat) (x : PieceOut) : State :=
  match x.pkt with
  | some k =>
    let k := { k with gen := BitVec.ofNat 8 (jobGen s), edn := BitVec.ofNat 1 (getF s RT_EDITION_INJECT 0)
                      tid := BitVec.ofNat 16 (domGenOf s (dmEng p) * 256 + x.tid) }
    sendPkt (putPiece s p { x with kind := if k.typ = 1 ∨ k.typ = 2 then 1 else 4, pkt := some k, since := s.gsc, held := none }) k
  | none => s

/-- DM_XFER_BUSY_RETRY: R375; the retry is counted. -/
def xferRetry (s : State) (p tid pseq : Nat) : State :=
  match getPiece s p tid pseq with
  | some x => if x.kind = 9 ∧ x.since + 2000 ≤ s.gsc then resend (addF s RT_XFER_BUSY 0 1) p x else s
  | none => s

/-- A refused piece that a restore brought back has no request yet: it is formed again from its descriptor, and stays refused while
its frame stalls (R439). -/
def reissue (s : State) (p : Nat) (x : PieceOut) : State :=
  match (getDm s p).descs.find? (fun d => d.tid == x.tid) with
  | none => s
  | some d =>
    let d' := { d with next := x.pseq }
    let t := setDesc (dropPiece s p x) p d'
    let t := if isNarrow d.op then issueNarrow t p d' else issueShape t p d'
    let back (y : Desc) : Desc := if y.tid = d.tid then { y with next := d.next, stall := d.stall, since := d.since, acc := d.acc } else y
    let t := modDm t p (fun y => { y with descs := y.descs.map back })
    if (getPiece t p x.tid x.pseq).isSome ∨ (getEng t (dmEng p)).st = .faulted then t else putPiece t p { x with since := s.gsc }

/-- DM_RECALL_HELD_RESEND: R439. -/
def heldResend (s : State) (p tid pseq : Nat) : State :=
  match getPiece s p tid pseq with
  | some x =>
    let g := getEng s (dmEng p)
    if x.kind = 7 ∧ lendState s ≠ 3 ∧ (g.st = .running ∨ g.st = .waiting) ∧ x.since + 1000000 ≤ s.gsc then
      (if x.pkt.isSome then resend s p x else reissue s p x)
    else s
  | none => s

/-- An acknowledgement of a piece. -/
def dmAcked (s : State) (p tid pseq : Nat) : State :=
  match getPiece s p tid pseq with
  | some x => if x.kind = 4 then finishPiece s p x else s
  | none => s

/-- The data of a read piece. -/
def dmData (s : State) (p tid pseq : Nat) (bs : List PByte) : State :=
  match getPiece s p tid pseq with
  | some x => if x.kind = 1 then pieceToDest (noteRead s p tid) p x bs else s
  | none => s

/-- A refusal of a piece (R149, R375, R439). -/
def dmNacked (s : State) (p tid pseq code : Nat) : State :=
  match getPiece s p tid pseq with
  | some x =>
    if x.kind ≠ 1 ∧ x.kind ≠ 4 then s
    else if code = 0x0405 then putPiece s p { x with kind := 9, since := s.gsc }
    else if code = 0x0702 then putPiece s p { x with kind := 7, since := s.gsc }
    else faultPiece (dropPiece s p x) p tid code (pieceAddr x).1 (pieceAddr x).2 0
  | none => s

/-- A hold reply (R310, R311): from the first on, the time up to the last does not count against the descriptor (log entry 37). -/
def dmHeld (s : State) (p tid pseq : Nat) : State :=
  match getPiece s p tid pseq with
  | some x =>
    let s := modDm s p (fun y => { y with descs := y.descs.map (fun d =>
      if d.tid = tid then { d with acc := if x.held.isSome then d.acc else d.acc + (s.gsc - d.since), since := s.gsc } else d) })
    putPiece s p { x with since := s.gsc, held := some (x.held.getD s.gsc) }
  | none => s

end Sys2Proof.Machine
end

