-- ==== Sys2Proof/Machine/Router.lean ====
section
/-! DEFINITION. The router (chapter 11): packets as byte strings, the catalogue, the choice of a hop, drops, multicast and the
switching of editions. -/
namespace Sys2Proof.Machine

/-! The packet header (R357). -/

/-- The header as a number of 24 bytes. -/
def headerNat (p : Packet) : Nat :=
  p.dst.toNat + 2 ^ 24 * p.src.toNat + 2 ^ 48 * p.gen.toNat + 2 ^ 56 * p.edn.toNat + 2 ^ 57 * p.vc.toNat + 2 ^ 60 * b2n p.last
    + 2 ^ 61 * b2n p.poison + 2 ^ 62 * b2n p.rsig + 2 ^ 63 * b2n p.rsvA + 2 ^ 64 * p.tid.toNat + 2 ^ 80 * p.pseq.toNat
    + 2 ^ 96 * p.typ.toNat + 2 ^ 100 * b2n p.mc + 2 ^ 101 * p.maxis.toNat + 2 ^ 103 * b2n p.rsvB + 2 ^ 104 * p.spanp.toNat
    + 2 ^ 110 * p.spann.toNat + 2 ^ 116 * p.dl.toNat + 2 ^ 120 * p.rctr.toNat + 2 ^ 128 * p.addr.toNat + 2 ^ 168 * p.len.toNat
    + 2 ^ 177 * p.hops.toNat + 2 ^ 185 * p.rsvC.toNat

def packetBytes (p : Packet) : List PByte := good (bytesOf 24 (headerNat p)) ++ p.payload

/-- R357: the header of 24 bytes, read. -/
def headerOf (n : Nat) : Packet :=
  let f (lo len : Nat) : BitVec len := BitVec.ofNat len (bits n lo len)
  { dst := f 0 24, src := f 24 24, gen := f 48 8, edn := f 56 1, vc := f 57 3, last := bit n 60, poison := bit n 61, rsig := bit n 62
    rsvA := bit n 63, tid := f 64 16, pseq := f 80 16, typ := f 96 4, mc := bit n 100, maxis := f 101 2, rsvB := bit n 103
    spanp := f 104 6, spann := f 110 6, dl := f 116 4, rctr := f 120 8, addr := f 128 40, len := f 168 9, hops := f 177 8
    rsvC := f 185 7, payload := [] }

/-- Payload bytes that follow a header: LEN of them, but for a read request, whose LEN is the length that it asks for and which the
model sends without a payload (DESIGN CHOICE, log entry 22). -/
def payloadLen (p : Packet) : Nat := if p.typ = 1 ∨ p.typ = 2 then 0 else p.len.toNat

/-- The packets at the front of a byte stream, and what is left of it; `fuel` bounds their number. -/
def parsePackets : Nat → List PByte → List Packet × List PByte
  | 0, bs => ([], bs)
  | fuel + 1, bs =>
    if bs.length < 24 then ([], bs)
    else
      let h := headerOf (ofBytes ((bs.take 24).map (·.b)))
      let n := 24 + payloadLen h
      if bs.length < n then ([], bs)
      else
        let (ps, rest) := parsePackets fuel (bs.drop n)
        ({ h with payload := (bs.take n).drop 24 } :: ps, rest)

/-- Bytes of a packet on a flue and in a buffer. -/
def packetSize (p : Packet) : Nat := 24 + p.payload.length

/-! Flues as the router sees them. -/

/-- R339: the slot of a flue under a preset. -/
def slotOf (preset f : Nat) : Nat :=
  let i := f % 9
  let ax := match preset with
    | 0 => i / 3
    | 1 => if i < 5 then 0 else if i < 7 then 1 else 2
    | 2 => if i < 3 then 0 else if i < 5 then 1 else if i < 7 then 2 else 3
    | _ => if i < 5 then 0 else 1
  2 * ax + f / 9

def flueSlot (s : State) (f : Nat) : Nat := slotOf (getF s FL_CFG_PRESET f) f

/-- The flues of a slot. -/
def slotFlues (s : State) (sl : Nat) : List Nat := (List.range 18).filter (fun f => flueSlot s f == sl)

/-- FL_STATUS.STATE is UP or UP_NARROW. -/
def flueUp (s : State) (f : Nat) : Bool := getF s FL_STATUS_STATE f == 3 || getF s FL_STATUS_STATE f == 4

/-- R344: the slot is ADMITTED. -/
def admitted (s : State) (sl : Nat) : Bool := (getSlot s sl).1 == 1

/-- Bytes queued for transmission on a flue: of a packet that has started, what is left of it (`txBytes`). -/
def queuedBytes (s : State) (f : Nat) : Nat :=
  let x := getFlue s f
  x.txBytes.length + sumNat (x.msgs.map packetSize) + sumNat (x.txq.map (fun h => packetSize h.pkt))

/-- R341, R344: packets pass on the flue: it is UP, not MISWIRED, and its slot is ADMITTED. -/
def carries (s : State) (f : Nat) : Bool := flueUp s f && getF s FL_PEER_PSTATE f != 6 && admitted s (flueSlot s f)

/-- R340: under preset C with WBYPASS the ±W slots carry no torus axis. -/
def bypassSlot (s : State) (f : Nat) : Bool := getF s FL_CFG_PRESET f == 2 && flagF s FL_CFG_WBYPASS f && 6 ≤ flueSlot s f

/-! The catalogue (R361 to R363). -/

def catAddr (e n : Nat) : Nat := 0xF300000000 + e * 0x80000 + 8 * n
def catEntry (s : State) (e n : Nat) : Nat := readNat s (catAddr e n) 8

/-- R362: the productive slots of an entry. -/
def productive (e : Nat) : List Nat := ((List.range 4).filter (fun a => bits e (8 * a) 6 != 0)).map (fun a => 2 * a + bits e (8 * a + 6) 1)

/-- R362. -/
def unreachable (e : Nat) : Bool := bits e 36 2 != 1 || (productive e).isEmpty || !(productive e).contains (bits e 32 3)

def dateline (s : State) (edn sl : Nat) : Bool := bit (getFi s RT_EDN_CFG_DATELINE 0 edn) sl
def fenced (s : State) (edn sl : Nat) : Bool := bit (getFi s RT_EDN_CFG_FENCE 0 edn) sl

/-- R370: a job packet. -/
def isJob (p : Packet) : Bool := !(p.typ == 5 || p.typ == 6) && !((p.typ == 7 || p.typ == 9) && p.gen == 0)

/-- R360, R377: reserved type or VC, nonzero RSV bits, or a multicast of another type. -/
def badPacket (p : Packet) : Bool := 12 ≤ p.typ.toNat || 6 ≤ p.vc.toNat || p.rsvA || p.rsvB || p.rsvC != 0 || (p.mc && p.typ != 11)

/-- R367: the dateline bits and the VC of a hop through a slot. -/
def hopClass (s : State) (p : Packet) (sl : Nat) : BitVec 4 × BitVec 3 :=
  let a := sl / 2
  let dl := if dateline s p.edn.toNat sl then p.dl ||| (1#4 <<< a) else p.dl
  (dl, BitVec.ofNat 3 (p.vc.toNat / 2 * 2 + b2n (dl.getLsbD a)))

/-- R365: a flue of slot `sl` is a candidate for the packet. -/
def candidate (s : State) (p : Packet) (f sl : Nat) : Bool :=
  carries s f && admitted s sl && !(isJob p && fenced s p.edn.toNat sl) && !bit (getFlue s f).damper (hopClass s p sl).2.toNat

/-- R366: the candidate with the fewest bytes queued, the lowest on a tie. -/
def bestFlue (s : State) : List Nat → Option Nat
  | [] => none
  | f :: r => match bestFlue s r with
    | some g => if queuedBytes s g < queuedBytes s f then some g else some f
    | none => some f


/-! Arrival (R365, R369, R370, R376, R381). -/

/-- R627, R375: what each local endpoint takes. -/
def takes (l typ : Nat) : Bool :=
  if l < 0x40 then typ == 0 || typ == 1 || typ == 4
  else if l < 0x44 then typ == 11
  else if l = 0x48 then typ ≤ 3 || typ == 5
  else l == 0x4A && typ == 6

/-- R383: a packet forwarded through a port. -/
def countPort (s : State) (i : Nat) (p : Packet) : State := addStat (addStat s RT_P_PKTS i 1) RT_P_BYTES i (packetSize p)

/-- A packet for this node reaches its endpoint, through the mesh port that serves it (R383, log entry 125). A request that the endpoint does not take is refused; MGC traffic, whose content
its own rows carry, is acknowledged (log entry 32); the rest waits there for its row. -/
def deliver (s : State) (p : Packet) : State :=
  let typ := p.typ.toNat
  let l := epLocal p.dst
  let s := countPort s (19 + (Config.meshPort l).val) p
  if 7 ≤ typ ∧ typ ≤ 10 then { s with router := { s.router with arrived := s.router.arrived ++ [p] } }
  else if !takes l typ then sendNack s p 0x0101
  else if typ = 6 then sendAck s p
  else { s with router := { s.router with arrived := s.router.arrived ++ [p] } }

def hold (s : State) (p : Packet) (via slot : Option Nat) : State :=
  { s with router := { s.router with held := s.router.held ++ [⟨p, s.gsc, via, slot⟩] } }

/-- R376: one branch of a multicast; it stops at a fenced or non-ADMITTED slot. -/
def branch (s : State) (p : Packet) (sl : Nat) (via : Option Nat) : State :=
  if !admitted s sl || fenced s p.edn.toNat sl then addF s RT_FENCE_DROPS 0 1
  else hold s { p with dst := epId (getSlot s sl).2.2 (epLocal p.dst) } via (some sl)

/-- R376: a node that a multicast reaches takes a copy and sends the branches on. Slots that carry no axis take none (R340). -/
def splitMc (s : State) (p : Packet) (via : Option Nat) : State :=
  let a := p.maxis.toNat
  if (List.range 18).any (fun f => flueSlot s f / 2 == a && bypassSlot s f) then
    (if p.spanp = 0 ∧ p.spann = 0 then s else addF s RT_FENCE_DROPS 0 (b2n (p.spanp != 0) + b2n (p.spann != 0)))
  else
  let s := if p.spanp = 0 then s else branch s { p with spanp := p.spanp - 1, spann := 0 } (2 * a) via
  if p.spann = 0 then s else branch s { p with spann := p.spann - 1, spanp := 0 } (2 * a + 1) via

/-- R381: the packet's next hop would be beyond 200. -/
def hopsOut (p : Packet) : Bool := 200 ≤ p.hops.toNat

/-- R365: look a packet for another node up; it waits for a hop, or is dropped. -/
def lookUp (s : State) (p : Packet) (via : Option Nat) : State :=
  if !flagF s RT_STATUS_CAT_LIVE 0 then hold s p via none
  else if isBad s (catAddr p.edn.toNat (epNode p.dst)) then chipPoison s (catAddr p.edn.toNat (epNode p.dst)) (8 + 2 ^ 24 * 0xFF)
  else if unreachable (catEntry s p.edn.toNat (epNode p.dst)) then addF s RT_UNROUTABLE 0 1
  else if hopsOut p then addF s RT_HOP_DROPS 0 1
  else hold s p via none

/-- ROUTER_PACKET_ARRIVAL: a packet that a local endpoint injects (`via` none) or that comes by a flue; `lost` says that the two coded
words of its header cannot be corrected (R462). -/
def routerArrive (s : State) (p : Packet) (via : Option Nat) (lost : Bool) : State :=
  let s := if via.isNone then { s with router := { s.router with inject := s.router.inject.erase p } } else s
  if lost || badPacket p then addF s RT_UNROUTABLE 0 1
  else if isJob p && p.gen.toNat != jobGen s then addF s RT_STALE_DROPS 0 1
  else if isJob p && (match via with | some f => fenced s p.edn.toNat (flueSlot s f) | none => false) then addF s RT_FENCE_DROPS 0 1
  else if epNode p.dst = nodeId s then noteOld (deliver (if p.mc then splitMc s p via else s) p)
  else noteOld (lookUp s p via)

/-! Forwarding (R366, R367) and drops (R381). -/

/-- A packet waits to leave on a flue; its dateline bits, VC and HOPS change as it leaves (`onHop`). -/
def sendOn (s : State) (h : RtPkt) (f : Nat) : State :=
  let x := getFlue s f
  setFlue s f { x with txq := x.txq ++ [{ h with via := none }] }

/-- R367: a packet as it leaves through a slot. -/
def onHop (s : State) (sl : Nat) (p : Packet) : Packet :=
  let (dl, vc) := hopClass s p sl
  { p with dl := dl, vc := vc, hops := p.hops + 1 }

def dropHeld (s : State) (k : Nat) : State := { s with router := { s.router with held := s.router.held.eraseIdx k } }

/-- ROUTER_PACKET_FORWARD: the k-th packet held leaves on its best candidate, or waits. A job packet whose generation has been torn
down since it came is dropped (R370, R435). -/
def routerForward (s : State) (k : Nat) : State :=
  match s.router.held[k]? with
  | none => s
  | some h =>
    let p := h.pkt
    if isJob p && p.gen.toNat != jobGen s then addF (dropHeld s k) RT_STALE_DROPS 0 1
    else match h.slot with
    | some sl =>
      if !admitted s sl || fenced s p.edn.toNat sl then addF (dropHeld s k) RT_FENCE_DROPS 0 1
      else if hopsOut p then addF (dropHeld s k) RT_HOP_DROPS 0 1
      else (match bestFlue s ((slotFlues s sl).filter (fun f => candidate s p f sl)) with
        | some f => noteOld (sendOn (dropHeld s k) h f)
        | none => s)
    | none =>
      if !flagF s RT_STATUS_CAT_LIVE 0 then s
      else
        let e := catEntry s p.edn.toNat (epNode p.dst)
        if unreachable e then addF (dropHeld s k) RT_UNROUTABLE 0 1
        else if hopsOut p then addF (dropHeld s k) RT_HOP_DROPS 0 1
        else (match bestFlue s ((List.range 18).filter (fun f => (productive e).contains (flueSlot s f) && candidate s p f (flueSlot s f))) with
          | some f => noteOld (sendOn (dropHeld s k) h f)
          | none => s)

/-- R381: a packet has been held at the router for STALL_MS. -/
def stalled (s : State) (h : RtPkt) : Bool :=
  h.since + (if getF s RT_CFG_STALL_MS 0 = 0 then 5 else getF s RT_CFG_STALL_MS 0) * 1000000 ≤ s.gsc

/-- The packets that wait for a flue which has taken them, with the flue and their place. -/
def queuedPkts (s : State) : List (Nat × Nat × RtPkt) :=
  (List.range 18).flatMap (fun f => (getFlue s f).txq.zipIdx.map (fun x => (f, x.2, x.1)))

/-- ROUTER_STALL_DROP: R381. The packets held come first, then those that wait for a flue. -/
def stallDrop (s : State) (k : Nat) : State :=
  match s.router.held[k]? with
  | some h => if stalled s h then addF (dropHeld s k) RT_STALL_DROPS 0 1 else s
  | none => match (queuedPkts s)[k - s.router.held.length]? with
    | some (f, i, h) =>
      if stalled s h then
        addF (setFlue s f { getFlue s f with txq := (getFlue s f).txq.eraseIdx i }) RT_STALL_DROPS 0 1
      else s
    | none => s

/-! Editions (R378 to R380, R505). -/

def catRej (s : State) : State := setF s RT_STATUS_CAT_REJ 0 1

/-- R378: a write to edition e of the catalogue or its RT_EDNe_CFG is refused. -/
def editionLocked (s : State) (e : Nat) : Bool :=
  flagF s RT_STATUS_CAT_LIVE 0 && (getF s RT_EDITION_INJECT 0 == e || flagF s RT_EDITION_ARMED 0)

/-- RT_EDITION_ARM: R379, R466. -/
def editionArm (s : State) : State :=
  if flagF s RT_EDITION_ARMED 0 ∨ getF s RT_EDITION_AT 0 ≤ s.gsc ∨ !flagF s RT_STATUS_CAT_LIVE 0
    ∨ catalogueBad s (1 - getF s RT_EDITION_INJECT 0) then catRej s
  else setF s RT_EDITION_ARMED 0 1

/-- EDITION_SWITCH: R379. -/
def editionSwitch (s : State) : State :=
  if flagF s RT_EDITION_ARMED 0 ∧ getF s RT_EDITION_AT 0 ≤ s.gsc then
    noteOld (setF (setF s RT_EDITION_INJECT 0 (1 - getF s RT_EDITION_INJECT 0)) RT_EDITION_ARMED 0 0)
  else s

/-- RT_EDITION_AT_WRITE: R379. -/
def editionAtWrite (s : State) (v : DWord) : State := if flagF s RT_EDITION_ARMED 0 then catRej s else setF s RT_EDITION_AT 0 v.toNat

/-- RT_EDN_CFG_WRITE: R378. The edition counts as written (R378, K4). -/
def ednCfgWrite (s : State) (e : Nat) (v : Word) : State :=
  if editionLocked s e then catRej s
  else setFi (setFi s RT_EDN_CFG_DATELINE 0 e (bits v.toNat 0 8)) RT_EDN_CFG_FENCE 0 e (bits v.toNat 8 8)

/-- A catalogue write through its window (R361, R378): `bs` at an address of the window. -/
def catalogueWrite (s : State) (a : Nat) (bs : List PByte) : State :=
  let e := (a - 0xF300000000) / 0x80000
  if editionLocked s e then catRej s
  else
    let s := writeBytes s a bs
    { s with router := { s.router with written := if s.router.written.contains e then s.router.written else s.router.written ++ [e] } }

/-- RT_NODE_WRITE: R505. A GW7 that has not reached K5 shows IDLE. -/
def nodeWrite (s : State) (v : Word) : State :=
  if getF s MG_LEND_STATUS_STATE 0 = 0 then setF s RT_NODE_NODE 0 (bits v.toNat 0 16) else catRej s

end Sys2Proof.Machine
end

