-- ==== Sys2Proof/Machine/Endpoint.lean ====
section
/-! DEFINITION. The endpoints (R374, R375, R627): requests at a tile's network station and at the memory space of endpoint 0x48, and
the replies that return to a tile. A packet's row takes it from the endpoint where the router left it. -/
namespace Sys2Proof.Machine

/-- R521: the tile that a reply of this GW7 names has the generation that the reply returns; a stale one is counted. -/
def freshReply (s : State) (d : Nat) (p : Packet) : Bool := p.tid.toNat / 256 == (getDom s d).gen
def countStale (s : State) (d : Nat) : State := setFi s MG_DSTALE 0 d (satAdd 32 (getFi s MG_DSTALE 0 d) 1)

/-- A packet of a type reaches its local endpoint: one for another node has no effect here, and one of another job generation is
dropped (R370). -/
def atEndpoint (s : State) (p : Packet) (typ : Nat) (k : State → State) : State :=
  if p.typ.toNat ≠ typ ∨ epNode p.dst ≠ nodeId s then s
  else
    let s := takeArrived s p
    if isJob p && p.gen.toNat != jobGen s then addF s RT_STALE_DROPS 0 1 else k s

/-- R494: the source's station holds packets for an index that migrates. -/
def migrating (s : State) (p : Nat) : Bool := match s.migr with | some m => m.src == p && !m.repl | none => false

/-- A packet goes back to those that wait at its endpoint. -/
def waitArrived (s : State) (pkt : Packet) : State := { s with router := { s.router with arrived := s.router.arrived ++ [pkt] } }

/-- R493, R375, R523, R494, R603: a request at the station of logical tile l; a draining tile lets it wait. -/
def atTile (s : State) (pkt : Packet) (k : Nat → State → State) : State :=
  match physOf s (epLocal pkt.dst) with
  | none => sendNack s pkt 0x0101
  | some p =>
    if isolated s p then sendNack s pkt 0x0402
    else if draining s p then waitArrived s pkt
    else if migrating s p then modTile s p (fun t => { t with held := t.held ++ [pkt] })
    else k p s

/-! The transfer table (R374, R375). -/

def xferKey (x : XferEntry) (pkt : Packet) : Bool := x.src == pkt.src.toNat && x.num == pkt.tid.toNat % 256 && x.gen == pkt.gen.toNat

/-- R374: one landed packet of a transfer. -/
def xferLand (s : State) (p : Nat) (pkt : Packet) : State :=
  let t := getTile s p
  let old := (t.xfer.find? (fun x => xferKey x pkt)).getD ⟨pkt.src.toNat, pkt.tid.toNat % 256, pkt.gen.toNat, 0, none, s.gsc⟩
  let x : XferEntry := { old with landed := old.landed + 1, since := s.gsc, total := if pkt.last then some (pkt.pseq.toNat + 1) else old.total }
  let rest := t.xfer.filter (fun y => !xferKey y pkt)
  if x.total = some x.landed then signalUnit (modTile s p (fun t => { t with xfer := rest })) p (some pkt.rctr.toNat) 0
  else modTile s p (fun t => { t with xfer := rest ++ [x] })

/-- R151: a packet whose bytes run past the 4 MiB of a tile store. -/
def pastStore (pkt : Packet) : Bool := 0x400000 < pkt.addr.toNat + pkt.len.toNat

/-- R151, R374, R375: a WRITE at a tile. -/
def tileWritePkt (s : State) (p : Nat) (pkt : Packet) : State :=
  let t := getTile s p
  if pastStore pkt then sendNack s pkt 0x0C02
  else if pkt.rsig && !t.xfer.any (fun x => xferKey x pkt) && 1024 ≤ t.xfer.length then sendNack s pkt 0x0405
  else
    let s := tileWrite s p pkt.addr.toNat pkt.payload
    sendAck (if pkt.rsig then xferLand s p pkt else s) pkt

/-- XFER_ENTRY_EXPIRE: R375. -/
def xferExpire (s : State) (p k : Nat) : State :=
  match (getTile s p).xfer[k]? with
  | none => s
  | some x =>
    if x.since + 10000000 ≤ s.gsc then addF (modTile s p (fun t => { t with xfer := t.xfer.eraseIdx k })) RT_XFER_EXPIRED 0 1 else s

/-! Memory at endpoint 0x48 (R288 to R293, R308, R310, R323, R439). -/

/-- R310: endpoint 0x48 holds a request. -/
def holdAtMemory (s : State) (pkt : Packet) : State := { s with folio := { s.folio with held := s.folio.held ++ [⟨pkt, s.gsc⟩] } }

/-- R308, R310: check a request; a stalled one is held, or refused while RECALLING (R439); one that its slices do not take yet waits there
(R322, R603). -/
def atMemory (s : State) (pkt : Packet) (a n : Nat) (wr : Bool) (k : List (Nat × Nat) → State → State) : State :=
  match jobCheck s none a n wr with
  | (s, .fault c) => sendNack s pkt c
  | (s, .stall _ _) =>
    if lendState s = 3 then sendNack s pkt 0x0702
    else holdAtMemory s pkt
  | (s, .ok segs) =>
    if memReset s segs then sendNack s pkt 0x0402
    else if slicesWait s segs || (wr && mirrorFull s segs) then waitArrived s pkt
    else k segs s

/-- A WRITE at endpoint 0x48; the generation check of R289. -/
def memWritePkt (s : State) (pkt : Packet) : State :=
  atMemory s pkt pkt.addr.toNat pkt.payload.length true (fun segs s =>
    match staleWrite s pkt.gen.toNat segs with
    | some s => sendAck s pkt
    | none => sendAck (segStore (segLines s segs true (pkt.rctr.toNat % 4)) segs pkt.payload) pkt)

/-- A reply that carries bytes. -/
def sendData (s : State) (pkt : Packet) (bs : List PByte) : State := sendPkt s (reply s pkt 8 bs)

/-- READ_REQ (R627). -/
def readReqPkt (s : State) (pkt : Packet) : State :=
  let n := pkt.len.toNat
  if epLocal pkt.dst < 0x40 then 
    atTile s pkt (fun p s => if pastStore pkt then sendNack s pkt 0x0C02 else sendData s pkt (tileRead s p pkt.addr.toNat n))
  else if epLocal pkt.dst = 0x48 then
    atMemory s pkt pkt.addr.toNat n false (fun segs s => sendData (segLines s segs false (pkt.rctr.toNat % 4)) pkt (segLoad s segs))
  else sendNack s pkt 0x0101

/-- WRITE. -/
def writePkt (s : State) (pkt : Packet) : State :=
  if epLocal pkt.dst < 0x40 then atTile s pkt (fun p s => tileWritePkt s p pkt)
  else if epLocal pkt.dst = 0x48 then memWritePkt s pkt
  else sendNack s pkt 0x0101

/-- The element of a narrow request, aligned to 32 bytes (R290). -/
def elemAddr (pkt : Packet) : Nat := pkt.addr.toNat / 32 * 32

/-- NARROW: R291. -/
def narrowPkt (s : State) (pkt : Packet) : State :=
  if epLocal pkt.dst ≠ 0x48 then sendNack s pkt 0x0101
  else atMemory s pkt (elemAddr pkt) 32 false (fun segs s =>
    let (s, bs) := narrowRead s ((segs.head?.map (·.1)).getD 0) (pkt.rctr.toNat % 4)
    sendData s pkt bs)

/-- ATOMIC: R292, R293. -/
def atomicPkt (s : State) (pkt : Packet) : State :=
  if epLocal pkt.dst ≠ 0x48 then sendNack s pkt 0x0101
  else atMemory s pkt (elemAddr pkt) 32 true (fun segs s =>
    match staleWrite s pkt.gen.toNat segs with
    | some s => sendAck s pkt
    | none => sendAck (landAtomic s ((segs.head?.map (·.1)).getD 0) (pkt.rctr.toNat % 4) (bit pkt.rctr.toNat 2) pkt.payload) pkt)

/-- SIGNAL: R242, R249: the increment is on its way; its acknowledgement follows when it reaches the counter. -/
def signalPkt (s : State) (pkt : Packet) : State :=
  if epLocal pkt.dst < 0x40 then
    atTile s pkt (fun p s => addIncr s p ⟨pkt.rctr.toNat, pkt.addr.toNat % 2 ^ 24, .signal pkt⟩)
  else sendNack s pkt 0x0101

/-- R323: a duplicate of the mirror partner is accepted. -/
def dupOk (s : State) (pkt : Packet) : Bool :=
  let f := pkt.addr.toNat / 2 ^ 21
  let lo := getF s MC_MIRROR_REGION_FIRST 6
  flagF s MC_MIRROR_CFG_EN 6 && epNode pkt.src == getF s MC_MIRROR_PARTNER_NODE 6 && lo ≤ f && f < lo + getF s MC_MIRROR_REGION_COUNT 6

/-- R509: a pushed line is accepted. -/
def pushOk (s : State) (pkt : Packet) : Bool :=
  let f := getFrame s (pkt.addr.toNat / 2 ^ 21)
  epNode pkt.src == getF s MC_MIRROR_PARTNER_NODE 6 && f.cls == 3 && (f.rstate == 2 || f.rstate == 3)

/-- MIRROR: R323, R509. Addresses that reach no memory are ignored and counted (R273). -/
def mirrorPkt (s : State) (pkt : Packet) : State :=
  if epLocal pkt.dst ≠ 0x48 then sendNack s pkt 0x0101
  else
    let a := pkt.addr.toNat
    if memReset s [(a, pkt.payload.length)] then sendNack s pkt 0x0402
    else if slicesWait s [(a, pkt.payload.length)] then waitArrived s pkt
    else if dupOk s pkt || pushOk s pkt then
      sendAck (if a < hbmTop then writeBytes (lineReqs s a pkt.payload.length true 0) a pkt.payload else rsvAccess s a pkt.payload.length) pkt
    else sendNack s pkt 0x0306

/-! Replies at a tile (R149, R249, R521). -/

/-- The engine of a tile that has the sy.sig of a number in flight. -/
def sigEngine (s : State) (p n : Nat) : Option Eng :=
  ([EngKind.mx, .vx, .dm, .sy].map (fun k => Eng.tile (Fin.ofNat 72 p) k)).find? (fun e => (getEng s e).sigs.any (fun x => x.num == n))

/-- A reply at tile p: a transfer of the mover below 128, an sy.sig from 128 on (log entry 22). -/
def tileReply (s : State) (p : Nat) (pkt : Packet) : State :=
  let n := pkt.tid.toNat % 256
  let k := pkt.pseq.toNat
  if !freshReply s p pkt then countStale s p
  else if n < 128 then
    match pkt.typ.toNat with
    | 7 => dmAcked s p n k
    | 8 => dmData s p n k pkt.payload
    | 9 => dmNacked s p n k (ofBytes ((pkt.payload.take 2).map (·.b)))
    | _ => dmHeld s p n k
  else match sigEngine s p n with
    | none => s
    | some e => match pkt.typ.toNat with
      | 7 => sigAcked s e n
      | 9 => sigFailed s e n (ofBytes ((pkt.payload.take 2).map (·.b)))
      | _ => s

end Sys2Proof.Machine
end

