-- ==== Sys2Proof/Machine/Flags.lean ====
section
/-! DEFINITION. The sticky flags that results set (R40, R116, R194): each is set by a result and cleared only by its own commands. -/
namespace Sys2Proof.Machine

/-- MX_FLAGS: the conversion flags of a result, and an overflow of the integer adder (R116). -/
def orMxFlags (s : State) (p : Nat) (f : CFlags) (iovf : Bool) : State :=
  let s := if f.ovf then setF s MX_FLAGS_OVF p 1 else s
  let s := if f.unf then setF s MX_FLAGS_UNF p 1 else s
  let s := if f.nanl then setF s MX_FLAGS_NANL p 1 else s
  if iovf then setF s MX_FLAGS_IOVF p 1 else s

/-- VX_FLAGS: the conversion flags of a result (R40). -/
def orVxFlags (s : State) (p : Nat) (f : CFlags) : State :=
  let s := if f.ovf then setF s VX_FLAGS_OVF p 1 else s
  let s := if f.unf then setF s VX_FLAGS_UNF p 1 else s
  if f.nanl then setF s VX_FLAGS_NANL p 1 else s

/-- MX_FLAGS as mx.flag reads them (R113). -/
def mxFlagBits (s : State) (p : Nat) : Nat :=
  getF s MX_FLAGS_OVF p + 2 * getF s MX_FLAGS_UNF p + 4 * getF s MX_FLAGS_NANL p + 8 * getF s MX_FLAGS_IOVF p

/-- MX_FLAGS cleared, as mx.flag with C does (R113). -/
def clearMxFlags (s : State) (p : Nat) : State :=
  setF (setF (setF (setF s MX_FLAGS_OVF p 0) MX_FLAGS_UNF p 0) MX_FLAGS_NANL p 0) MX_FLAGS_IOVF p 0

end Sys2Proof.Machine
end

