-- ==== Sys2Proof/Machine/Mx.lean ====
section
/-! DEFINITION. The matrix engine (chapter 03): operands in the tile store, the fill stage, loads into the idle sets, the defined
dot product into the accumulation buffer, runs and spills, stores and flags. Effects that the spec lets land at any time between
issue and completion (R107) land at issue. -/
namespace Sys2Proof.Machine

def mxEng (p : Nat) : Eng := .tile (Fin.ofNat 72 p) .mx
def getMx (s : State) (p : Nat) : MxState := (getTile s p).mx
def modMx (s : State) (p : Nat) (f : MxState → MxState) : State := modTile s p (fun t => { t with mx := f t.mx })

/-- Accumulation buffer and wide spill buffer entries, and the poison of the former. -/
def getAcc (s : State) (p e : Nat) : Word := mapGet (fun _ => 0) (getMx s p).acc e
def accBad (s : State) (p e : Nat) : Bool := mapGet (fun _ => false) (getMx s p).accBad e
def setAcc (s : State) (p e : Nat) (v : Word) (bad : Bool) : State :=
  modMx s p (fun x => { x with acc := mapSet (fun _ => 0) x.acc e v, accBad := mapSet (fun _ => false) x.accBad e bad })
def getWide (s : State) (p e : Nat) : Option DWord := mapGet (fun _ => none) (getMx s p).wide e
def setWide (s : State) (p e : Nat) (v : Option DWord) : State := modMx s p (fun x => { x with wide := mapSet (fun _ => none) x.wide e v })

/-- The sets of an array: key 2 a + physical set. -/
def actSet (x : MxState) (a : Nat) : Nat := 2 * a + b2n (bit x.act a)
def idleSet (x : MxState) (a : Nat) : Nat := 2 * a + b2n (!bit x.act a)
def getSet (x : MxState) (k : Nat) : MxSet := mapGet (fun _ => MxSet.reset) x.sets k

/-! Shapes (R66, R67). -/

def shapeK : Nat → Nat
  | 1 => 128 | 3 => 256 | _ => 64
def shapeN : Nat → Nat
  | 1 => 128 | 2 => 256 | _ => 64
/-- Chunks added per output element per row. -/
def shapeChunks : Nat → Nat
  | 1 => 2 | 3 => 4 | _ => 1
def shapeArrays (sh a : Nat) : List Nat := if sh = 0 then [a] else [0, 1, 2, 3]
/-- The first K row and N column that array `a` holds. -/
def arrayK (sh a : Nat) : Nat := match sh with | 1 => 64 * (a % 2) | 3 => 64 * a | _ => 0
def arrayN (sh a : Nat) : Nat := match sh with | 1 => 64 * (a / 2) | 2 => 64 * a | _ => 0
/-- R67: the array that gives chunk c of column n. -/
def chunkArray (sh a c n : Nat) : Nat := match sh with | 0 => a | 1 => 2 * (n / 64) + c | 2 => n / 64 | _ => c
/-- The shape that a packed set shows (log entry 28). -/
def packedShape : Nat := 4

/-! Reference words and rows (R28, R29, R70). -/

def refAddr (v : DWord) : Nat := bits v.toNat 0 22
def refStride (v : DWord) : Nat := bits v.toNat 24 16
def refBad (v : DWord) : Bool := bits v.toNat 22 2 != 0 || bits v.toNat 40 24 != 0

/-- R29: the start of a row. -/
def rowStart (f : Fmt) (a : Nat) : Nat := if fmtWidth f = 6 then a / 3 * 3 else a

/-- R108: `rows` rows of `n` bytes run past 4 MiB. -/
def rowsPast (a stride rows n : Nat) : Bool := 0x400000 < a + (rows - 1) * stride + n

/-- The address of the first poisoned word among bytes at an address. -/
def firstBad (a : Nat) (bs : List PByte) : Option Nat := (bs.findIdx? (·.bad)).map (fun i => (a + i) / 16 * 16)

/-- n elements of a row, with the first poisoned word read. -/
def readRow (s : State) (p : Nat) (f : Fmt) (a n : Nat) : List Word × Option Nat :=
  let a := rowStart f a
  let bs := tileRead s p a (elemBytes f n)
  let raw := bs.map (·.b)
  ((List.range n).map (fun i => BitVec.ofNat 32 (elemAt f raw i)), firstBad a bs)

/-- Rows of elements. -/
def readRows (s : State) (p : Nat) (f : Fmt) (a stride rows n : Nat) : List (List Word) × Option Nat :=
  let rs := (List.range rows).map (fun r => readRow s p f (a + r * stride) n)
  (rs.map (·.1), rs.findSome? (·.2))

/-- Rows of bytes (scales). -/
def readByteRows (s : State) (p a stride rows n : Nat) : List (List Byte) × Option Nat :=
  let rs := (List.range rows).map (fun r => let bs := tileRead s p (a + r * stride) n
                                            (bs.map (·.b), firstBad (a + r * stride) bs))
  (rs.map (·.1), rs.findSome? (·.2))

def cellAt (m : List (List Word)) (i j : Nat) : Word := ((m[i]?).getD [])[j]?.getD 0
def byteAt (m : List (List Byte)) (i j : Nat) : Byte := ((m[i]?).getD [])[j]?.getD 0

/-- A format code as a format (a reserved one does not get this far). -/
def fmtC (c : Nat) : Fmt := (fmtOfCode c).getD .fp32

/-- R31: formats that may carry block scales. -/
def mayScale (f : Nat) : Bool := 1 ≤ f && f ≤ 7

/-- R31: an A and a B format that pair: both integer, or both floats. R58 asks FP32 on both sides of more than one pass. -/
def pairOk (fa fb pass : Nat) : Bool := fmtIsInt (fmtC fa) == fmtIsInt (fmtC fb) && (pass == 1 || (fa == 0 && fb == 0))

def scaleBlocks (kv : Nat) (bs32 : Bool) : Nat := if bs32 then (kv + 31) / 32 else (kv + 15) / 16

/-! Instruction fields and their checks (R109 to R112). -/

def mxG (s : State) (p : Nat) (w : IWord) (lo : Nat) : DWord := getG s (mxEng p) (ifld w lo 5)

/-- mx.lds: encoding. -/
def ldsBad (s : State) (p : Nat) (w : IWord) : Bool :=
  let sh := ifld w 78 2
  (sh != 0 && ifld w 76 2 != 0) || (fmtOfCode (ifld w 72 4)).isNone || (ibit w 71 && !mayScale (ifld w 72 4))
    || shapeK sh < ifld w 61 8 + 1 || shapeN sh < ifld w 53 8 + 1 || ifld w 0 43 != 0
    || refBad (mxG s p w 48) || (ibit w 71 && refBad (mxG s p w 43))

/-- The spans of `rows` rows of `n` bytes, from the row starts of a format on (R29), as (first byte, bytes). -/
def rowSpans (f : Fmt) (a stride rows n : Nat) : List (Nat × Nat) := (List.range rows).map (fun r => (rowStart f (a + r * stride), n))

/-- The tile store spans that an mx.lds reads. -/
def ldsSpans (s : State) (p : Nat) (w : IWord) : List (Nat × Nat) :=
  let f := fmtC (ifld w 72 4)
  let kv := ifld w 61 8 + 1
  let nv := ifld w 53 8 + 1
  let rb := mxG s p w 48
  let rs := mxG s p w 43
  let (rows, n) := if ibit w 69 then (nv, kv) else (kv, nv)
  rowSpans f (refAddr rb) (refStride rb) rows (elemBytes f n)
    ++ (if ibit w 71 then rowSpans .int8 (refAddr rs) (refStride rs) nv (scaleBlocks kv (ibit w 70)) else [])

def spanPast (x : Nat × Nat) : Bool := 0x400000 < x.1 + x.2

/-- mx.mm: encoding; the pairing with the active set is checked at issue. -/
def mmBad (s : State) (p : Nat) (w : IWord) : Bool :=
  let sh := ifld w 78 2
  let f := ifld w 71 4
  (sh != 0 && ifld w 76 2 != 0) || (fmtOfCode f).isNone || (ibit w 70 && !mayScale f) || 2 ≤ ifld w 66 2
    || ifld w 63 2 == 0 || (ifld w 63 2 != 1 && (f != 0 || 64 < ifld w 55 8 + 1)) || ifld w 40 5 != 0 || ifld w 0 12 != 0
    || refBad (mxG s p w 50) || (ibit w 70 && refBad (mxG s p w 45))

/-- R93, R95: the accumulation buffer rows of an mx.mm: base and count. -/
def mmRows (w : IWord) : Nat × Nat := (ifld w 12 12, (ifld w 55 8 + 1) * (shapeN (ifld w 78 2) / 64))

/-- The spans that an mx.mm's fill reads, by K_valid of its set. -/
def mmSpans (s : State) (p : Nat) (w : IWord) (kv : Nat) : List (Nat × Nat) :=
  let f := fmtC (ifld w 71 4)
  let m := ifld w 55 8 + 1
  let ra := mxG s p w 50
  let rs := mxG s p w 45
  let (rows, n) := if ibit w 68 then (kv, m) else (m, kv)
  rowSpans f (refAddr ra) (refStride ra) rows (elemBytes f n)
    ++ (if ibit w 70 then rowSpans .int8 (refAddr rs) (refStride rs) m (scaleBlocks kv (ibit w 69)) else [])

/-- mx.ldsp and mx.mmp: encoding, but for the pack table. -/
def ldspBad (s : State) (p : Nat) (w : IWord) : Bool :=
  ifld w 78 2 != 0 || (fmtOfCode (ifld w 72 4)).isNone || (ibit w 71 && !mayScale (ifld w 72 4)) || ifld w 0 48 != 0
    || ifld w 48 16 == 0 || bits (mxG s p w 64).toNat 0 22 % 32 != 0
def mmpBad (s : State) (p : Nat) (w : IWord) : Bool :=
  ifld w 78 2 != 0 || (fmtOfCode (ifld w 71 4)).isNone || (ibit w 70 && !mayScale (ifld w 71 4)) || ifld w 0 47 != 0
    || ifld w 47 16 == 0 || bits (mxG s p w 63).toNat 0 22 % 32 != 0

/-- The problems of a mask. -/
def problems (mask : Nat) : List Nat := (List.range 16).filter (fun q => bit mask q)

/-- mx.st: encoding. With RAW = 1, whose FMT is ignored, SC and SAT are ignored too: no scales are written and no fault is raised
(log entry 118). -/
def stBad (s : State) (p : Nat) (w : IWord) : Bool :=
  let f := ifld w 50 4
  let raw := ibit w 46
  (!raw && ((fmtOfCode f).isNone || (ibit w 49 && f != 3 && f != 4)
      || (ibit w 48 && (!mayScale f || (ibit w 47 && ifld w 54 4 % 2 == 0) || refBad (mxG s p w 36)))))
    || ifld w 0 34 != 0 || refBad (mxG s p w 41)

def stFmt (w : IWord) : Fmt := if ibit w 46 then .fp32 else fmtC (ifld w 50 4)

/-- R84: the destination spans of an mx.st: each from its first byte to the last byte of its last row, gaps included. -/
def stSpans (s : State) (p : Nat) (w : IWord) : List (Nat × Nat) :=
  let n := 16 * (ifld w 54 4 + 1)
  let rd := mxG s p w 41
  let rs := mxG s p w 36
  (refAddr rd, ifld w 58 8 * refStride rd + elemBytes (stFmt w) n)
    :: (if ibit w 48 && !ibit w 46 then [(refAddr rs, ifld w 58 8 * refStride rs + scaleBlocks n (ibit w 47))] else [])

def ldaccBad (s : State) (p : Nat) (w : IWord) : Bool := ifld w 0 48 != 0 || refBad (mxG s p w 49)

/-- The span that an mx.ldacc reads. -/
def ldaccSpan (s : State) (p : Nat) (w : IWord) : Nat × Nat :=
  let rs := mxG s p w 49
  (refAddr rs, (if ibit w 48 then 0 else ifld w 58 8) * refStride rs + 64 * (ifld w 54 4 + 1))

/-- The quarter-rows of an mx.st or mx.ldacc: first and count. -/
def stQuarters (w : IWord) : Nat × Nat := (ifld w 66 14, (ifld w 58 8 + 1) * (ifld w 54 4 + 1))

/-! The pack table (R112). -/

/-- Entry q of the pack table at an address, as a number of 32 bytes, with its poison in a byte range. -/
def packEntry (s : State) (p table q : Nat) : Nat := readNat s (tsAddr p (table + 32 * q)) 32
def packBad (s : State) (p table q lo n : Nat) : Option Nat := firstBad (table + 32 * q + lo) (tileRead s p (table + 32 * q + lo) n)

/-- Bytes 0 to 11: reserved bits. R112 calls bits [31:22] reserved for B_ADDR alone; the model takes those of the other three address
words as reserved with it (log entry 117). -/
def packRsvB (e : Nat) : Bool := bits e 22 10 != 0 || bits e 56 8 != 0 || bits e 86 10 != 0
/-- Bytes 12 to 31: reserved bits (log entry 117). -/
def packRsvA (e : Nat) : Bool := bits e 118 10 != 0 || bits e 153 7 != 0 || bits e 182 10 != 0 || bits e 206 50 != 0

/-! The fill stage (R83, R84, R109). -/

/-- Which physical set of array `a` an instruction will use: the active one after the swaps of earlier unissued instructions. -/
def willUse (x : MxState) (before : List QEntry) (a : Nat) (sw : Bool) : MxSet :=
  let swaps := before.filter (fun q => (iOp q.word = 0x22 ∨ iOp q.word = 0x23) ∧ ibit q.word 75
    ∧ (shapeArrays (ifld q.word 78 2) (ifld q.word 76 2)).contains a)
  getSet x (2 * a + b2n (Bool.xor (bit x.act a) (Bool.xor (swaps.length % 2 = 1) sw)))

/-- The arrays of an mx. instruction that has them. -/
def mxArrays (w : IWord) : List Nat := shapeArrays (ifld w 78 2) (ifld w 76 2)

/-- R104: an instruction's row slots have run, one in each cycle of the 1.3 GHz CCLK: its last row has entered its arrays. -/
def rowsSent (s : State) (f : MxFly) : Bool := f.since + (10 * f.rowSlots + 12) / 13 ≤ s.gsc

/-- Staging slots in use (R83): of filled instructions and of those whose rows are still being sent. -/
def slotsUsed (s : State) (p : Nat) : Nat :=
  sumNat ((getEng s (mxEng p)).queue.map (fun q => match q.staged with | some t => t.slots | none => 0))
    + sumNat (((getMx s p).fly.filter (fun f => !rowsSent s f)).map (·.slots))

/-- R84: an earlier mx.st that has not completed writes bytes of these spans. -/
def storeMeets (s : State) (p : Nat) (before : List QEntry) (spans : List (Nat × Nat)) : Bool :=
  let d := (before.filter (fun q => iOp q.word == 0x24)).flatMap (fun q => stSpans s p q.word) ++ (getMx s p).fly.flatMap (·.dests)
  d.any (fun x => spans.any (spansMeet x))

/-- The fault of an instruction at the fill stage (R109), as code and address. -/
def fillFault (s : State) (p : Nat) (w : IWord) (kv : Nat) : Option Nat :=
  if iV w || flagBad w then some 0x0A01
  else match iOp w with
  | 0x20 => if ldsBad s p w then some 0x0A01 else if (ldsSpans s p w).any spanPast then some 0x0A03 else none
  | 0x21 => if ldspBad s p w then some 0x0A01 else none
  | 0x22 => if mmBad s p w then some 0x0A01
    else if (mmSpans s p w kv).any spanPast ∨ 4096 < (mmRows w).1 + (mmRows w).2 then some 0x0A03 else none
  | 0x23 => if mmpBad s p w then some 0x0A01 else none
  | 0x24 => if stBad s p w then some 0x0A01
    else if (stSpans s p w).any spanPast ∨ 16384 < (stQuarters w).1 + (stQuarters w).2 then some 0x0A03 else none
  | 0x25 => if ldaccBad s p w then some 0x0A01
    else if spanPast (ldaccSpan s p w) ∨ 16384 < (stQuarters w).1 + (stQuarters w).2 then some 0x0A03 else none
  | 0x26 => if ifld w 0 56 ≠ 0 then some 0x0A01 else if 4096 < ifld w 68 12 + ifld w 56 12 + 1 then some 0x0A03 else none
  | _ => if ifld w 0 74 ≠ 0 then some 0x0A01 else none

/-- A transposed matrix. -/
def transpose (m : List (List Word)) (rows : Nat) : List (List Word) := (List.range rows).map (fun i => m.map (fun r => r[i]?.getD 0))

/-- Read the A side of an mx.mm (R71, R72). -/
def stageMm (s : State) (p : Nat) (w : IWord) (kv : Nat) : Staged :=
  let f := fmtC (ifld w 71 4)
  let m := ifld w 55 8 + 1
  let ra := mxG s p w 50
  let rs := mxG s p w 45
  let (rows, bad) := if ibit w 68 then
      let (t, b) := readRows s p f (refAddr ra) (refStride ra) kv m
      (transpose t m, b)
    else readRows s p f (refAddr ra) (refStride ra) m kv
  let nb := scaleBlocks kv (ibit w 69)
  let (sc, bad') := if ibit w 70 then readByteRows s p (refAddr rs) (refStride rs) m nb else ([], none)
  let size := m * elemBytes f kv + (if ibit w 70 then m * nb else 0)
  { slots := (size + 65535) / 65536, rows := rows, scales := sc, packs := [], bad := bad.orElse (fun _ => bad') }

/-- One packed problem's A side: MX_ADDR_RANGE and MX_BAD_ENCODING as the entry is read (R109, R112). -/
def stagePack (s : State) (p : Nat) (w : IWord) (kv q : Nat) : Except Nat (PackA × Option Nat) :=
  let f := fmtC (ifld w 71 4)
  let tb := bits (mxG s p w 63).toNat 0 22
  if 0x400000 < tb + 32 * q + 32 then .error 0x0A03
  else
    let e := packEntry s p tb q
    let pb := packBad s p tb q 12 20
    let a := bits e 96 22
    let str := bits e 128 16
    let m := bits e 144 8 + 1
    let sc := bits e 160 22
    let qr := bits e 192 14
    let (rows, n) := if ibit w 68 then (kv, m) else (m, kv)
    if packRsvA e then .error 0x0A01
    else if rowsPast a str rows (elemBytes f n) ∨ (ibit w 70 ∧ 0x400000 < sc + m) ∨ 16384 < qr + m then .error 0x0A03
    else
      let (t, b) := readRows s p f a str rows n
      let scb := tileRead s p sc (if ibit w 70 then m else 0)
      .ok ({ prob := q, rows := if ibit w 68 then transpose t m else t, scales := scb.map (·.b), start := bit e 152, accq := qr },
        ((pb.orElse (fun _ => b)).orElse (fun _ => firstBad sc scb)))

/-- R84: the spans of A rows and A scale bytes of an mx.mmp, as its pack table gives them; `kv` is each problem's K_valid. -/
def mmpSpans (s : State) (p : Nat) (w : IWord) (kv : Nat → Nat) : List (Nat × Nat) :=
  let f := fmtC (ifld w 71 4)
  (problems (ifld w 47 16)).flatMap (fun q =>
    let e := packEntry s p (bits (mxG s p w 63).toNat 0 22) q
    let m := bits e 144 8 + 1
    let (rows, n) := if ibit w 68 then (kv q, m) else (m, kv q)
    rowSpans f (bits e 96 22) (bits e 128 16) rows (elemBytes f n) ++ (if ibit w 70 then [(bits e 160 22, m)] else []))

/-- R112: K_valid of a problem of a set. -/
def packKv (set : MxSet) (q : Nat) : Nat := match set.probs.find? (fun x => x.1 == q) with | some x => x.2.1 | none => 1

/-- All problems of an mx.mmp. -/
def stageMmp (s : State) (p : Nat) (w : IWord) (set : MxSet) : Except Nat Staged :=
  let f := fmtC (ifld w 71 4)
  let rs := (problems (ifld w 47 16)).map (fun q =>
    stagePack s p w (packKv set q) q)
  match rs.findSome? (fun r => match r with | .error c => some c | .ok _ => none) with
  | some c => .error c
  | none =>
    let ok := rs.filterMap (fun r => match r with | .ok x => some x | .error _ => none)
    let size := sumNat (ok.map (fun x => x.1.rows.length * elemBytes f ((x.1.rows.head?.getD []).length) + x.1.scales.length))
    .ok { slots := (size + 65535) / 65536, rows := [], scales := [], packs := ok.map (·.1), bad := ok.findSome? (·.2) }

/-- Replace the queue entry at a place. -/
def setEntry (s : State) (p k : Nat) (q : QEntry) : State :=
  modEng s (mxEng p) (fun g => { g with queue := g.queue.set k q })

/-- Take the W wait at the fill stage (R200, R84). -/
def fillWait (s : State) (p k : Nat) (q : QEntry) : State × Bool :=
  if !iW q.word || q.wDone then (s, true)
  else
    let e := mxEng p
    let c := iWctr q.word
    if 1 ≤ getCtr s p c then (setEntry (takeCtr s p c 1 e) p k { q with wDone := true }, true)
    else
      (modEng (traceEv s e (iT q.word) (iTag q.word) q.idx 0 c) e
        (fun g => { g with st := .waiting, fwait := some ⟨.wflag, c, 1, s.gsc, 0⟩ }), false)

/-- A fault found at the fill stage is raised once every earlier instruction has issued. -/
def fillFaultAt (s : State) (p : Nat) (q : QEntry) (first : Bool) (code addr : Nat) : State :=
  if first then faultQ s (mxEng p) q code addr 0 0 else s

/-- MX_FILL: R84, R109, R232: encoding and range are checked before the W wait. The stage takes the first mx. instruction not yet filled; a control instruction or an mx.flag before it,
which may write a register that it names, must have issued (log entry 29), and so must a load into its arrays. -/
def mxFill (s : State) (p : Nat) : State :=
  let e := mxEng p
  let g := getEng s e
  let before := g.queue.takeWhile (fun q => iCls q.word == 1 && q.filled)
  match (g.queue.drop before.length).head? with
  | none => s
  | some q =>
    let first := before.isEmpty
    if iCls q.word ≠ 1 ∨ !(g.st = .running ∨ g.st = .waiting) ∨ g.wait.isSome ∨ g.fwait.isSome ∨ g.quiesceReq ∨ isolated s p
        ∨ before.any (fun b => iOp b.word == 0x27) then s
    else
      let mm := iOp q.word == 0x22 || iOp q.word == 0x23
      if mm && before.any (fun b => (iOp b.word == 0x20 || iOp b.word == 0x21) && (mxArrays b.word).any (fun a => (mxArrays q.word).contains a)) then s
      else
        let set := willUse (getMx s p) before ((mxArrays q.word).head?.getD 0) (mm && ibit q.word 75)
        match fillFault s p q.word set.kv with
        | some c => fillFaultAt s p q first c 0
        | none => match fillWait s p before.length q with
        | (s, false) => s
        | (s, true) =>
          let q := { q with wDone := true }
          if iOp q.word = 0x22 then
            let st := stageMm s p q.word set.kv
            if storeMeets s p before (mmSpans s p q.word set.kv) ∨ 8 < slotsUsed s p + st.slots then s
            else setEntry s p before.length { q with filled := true, staged := some st }
          else if iOp q.word = 0x23 then
            match stageMmp s p q.word set with
            | .error c => fillFaultAt s p q first c 0
            | .ok st =>
              if storeMeets s p before (mmpSpans s p q.word (packKv set)) ∨ 8 < slotsUsed s p + st.slots then s
              else setEntry s p before.length { q with filled := true, staged := some st }
          else setEntry s p before.length { q with filled := true }

/-! Issue. -/

/-- The mx. instruction at issue, filled. -/
def mxFront (s : State) (p op : Nat) : Option QEntry :=
  match frontIs s (mxEng p) 1 op with
  | some q => if q.filled && !draining s p then some q else none
  | none => none

/-- The instruction issues: it leaves the queue and is in flight. -/
def mxIssued (s : State) (p : Nat) (q : QEntry) (f : MxFly) : State :=
  let s := traceEv (popFront s (mxEng p)) (mxEng p) (iT q.word) (iTag q.word) q.idx 2 0
  modMx s p (fun x => { x with fly := x.fly ++ [{ f with since := s.gsc }] })

def fly0 (q : QEntry) : MxFly :=
  { kind := 0, arrays := 0, quarters := [], slots := 0, rowSlots := 0, dests := [], lastRun := none, badEntry := none, since := 0
    done := doneOf q.word q.idx }

def arrayMask (l : List Nat) : Nat := l.foldl (fun t a => t + 2 ^ a) 0
def loading (x : MxState) (l : List Nat) : Bool := x.fly.any (fun f => f.kind == 0 && l.any (fun a => bit f.arrays a))

/-- Two ranges of quarter-rows share an accumulation buffer row. -/
def rowsMeet (x y : Nat × Nat) : Bool := x.1 / 4 ≤ (y.1 + y.2 - 1) / 4 && y.1 / 4 ≤ (x.1 + x.2 - 1) / 4
def flyMeets (f : MxFly) (qs : List (Nat × Nat)) : Bool := f.quarters.any (fun x => qs.any (rowsMeet x))

/-- R86: what holds a load at issue: an earlier load into one of its arrays, an earlier mx.st that writes a byte it reads. -/
def ldHeld (x : MxState) (l : List Nat) (spans : List (Nat × Nat)) : Bool :=
  loading x l || x.fly.any (fun f => f.dests.any (fun d => spans.any (spansMeet d)))

/-- The scale bytes of an array's own K rows, of the scale rows of its columns. -/
def ownScales (sh a bs : Nat) (sc : List (List Byte)) : List (List Byte) :=
  ((sc.drop (arrayN sh a)).take 64).map (fun r => (r.drop (arrayK sh a / bs)).take (64 / bs))

/-- MX_LDS: R62, R86. -/
def doLds (s : State) (p : Nat) : State :=
  match mxFront s p 0x20 with
  | none => s
  | some q =>
    let w := q.word
    let x := getMx s p
    let sh := ifld w 78 2
    let as := shapeArrays sh (ifld w 76 2)
    if ldHeld x as (ldsSpans s p w) then s
    else
      let f := fmtC (ifld w 72 4)
      let kv := ifld w 61 8 + 1
      let nv := ifld w 53 8 + 1
      let rb := mxG s p w 48
      let rs := mxG s p w 43
      let (m, bad) := if ibit w 69 then
          let (t, b) := readRows s p f (refAddr rb) (refStride rb) nv kv
          (transpose t kv, b)
        else readRows s p f (refAddr rb) (refStride rb) kv nv
      let (sc, bad') := if ibit w 71 then readByteRows s p (refAddr rs) (refStride rs) nv (scaleBlocks kv (ibit w 70)) else ([], none)
      let set (a : Nat) : MxSet :=
        { loaded := false, shape := sh, fmt := ifld w 72 4, scaled := ibit w 71, bs32 := ibit w 70, kv := kv, nv := nv, mask := 0
          probs := [], cells := ((m.drop (arrayK sh a)).take 64).map (fun r => (r.drop (arrayN sh a)).take 64)
          scales := ownScales sh a (if ibit w 70 then 32 else 16) sc, bad := bad.orElse (fun _ => bad') }
      let s := modMx s p (fun x => { x with sets := as.foldl (fun m a => mapSet (fun _ => MxSet.reset) m (idleSet x a) (set a)) x.sets })
      mxIssued s p q { fly0 q with arrays := arrayMask as }

/-- One problem of an mx.ldsp: its extents, cells, scale bytes and a poisoned word (R109, R112). -/
def readProblem (s : State) (p : Nat) (w : IWord) (k : Nat) : Except Nat ((Nat × Nat × Nat) × List (List Word) × List Byte × Option Nat) :=
  let f := fmtC (ifld w 72 4)
  let tb := bits (mxG s p w 64).toNat 0 22
  if 0x400000 < tb + 32 * k + 32 then .error 0x0A03
  else
    let e := packEntry s p tb k
    let a := bits e 0 22
    let str := bits e 32 16
    let kv := bits e 48 4 + 1
    let nv := bits e 52 4 + 1
    let sc := bits e 64 22
    let (rows, n) := if ibit w 69 then (nv, kv) else (kv, nv)
    if packRsvB e then .error 0x0A01
    else if rowsPast a str rows (elemBytes f n) ∨ (ibit w 71 ∧ 0x400000 < sc + nv) then .error 0x0A03
    else
      let (t, b) := readRows s p f a str rows n
      let scb := tileRead s p sc (if ibit w 71 then nv else 0)
      .ok ((k, kv, nv), if ibit w 69 then transpose t kv else t, scb.map (·.b),
        ((packBad s p tb k 0 12).orElse (fun _ => b)).orElse (fun _ => firstBad sc scb))

/-- R86: the bytes that an mx.ldsp reads: bytes 0 to 11 of its pack table entries, B rows and B scale bytes. -/
def ldspSpans (s : State) (p : Nat) (w : IWord) : List (Nat × Nat) :=
  let f := fmtC (ifld w 72 4)
  let tb := bits (mxG s p w 64).toNat 0 22
  (problems (ifld w 48 16)).flatMap (fun k =>
    let e := packEntry s p tb k
    let kv := bits e 48 4 + 1
    let nv := bits e 52 4 + 1
    let (rows, n) := if ibit w 69 then (nv, kv) else (kv, nv)
    (tb + 32 * k, 12) :: rowSpans f (bits e 0 22) (bits e 32 16) rows (elemBytes f n)
      ++ (if ibit w 71 then [(bits e 64 22, nv)] else []))

/-- R77: the problem that holds a cell, and an element or scale byte of it. -/
def packAt (i j : Nat) : Nat := 4 * (i / 16) + j / 16

/-- MX_LDSP: R77, R86, R112. Problem q holds K rows 16 (q / 4) on and N columns 16 (q mod 4) on; its scale byte of a column is that of
the column's block q / 4. A second load into the same idle set replaces the problems of the first (log entry 114). -/
def doLdsp (s : State) (p : Nat) : State :=
  match mxFront s p 0x21 with
  | none => s
  | some q =>
    let w := q.word
    let x := getMx s p
    let a := ifld w 76 2
    let rs := (problems (ifld w 48 16)).map (readProblem s p w)
    if ldHeld x [a] (ldspSpans s p w) then s
    else match rs.findSome? (fun r => match r with | .error c => some c | .ok _ => none) with
    | some c => faultQ s (mxEng p) q c 0 0 0
    | none =>
      let ok := rs.filterMap (fun r => match r with | .ok x => some x | .error _ => none)
      let find (k : Nat) := ok.find? (fun y => y.1.1 == k)
      let cells := (List.range 64).map (fun i => (List.range 64).map (fun j => match find (packAt i j) with
        | some y => cellAt y.2.1 (i % 16) (j % 16)
        | none => 0))
      let scales := (List.range 64).map (fun j => (List.range 4).map (fun b => match find (packAt (16 * b) j) with
        | some y => (y.2.2.1[j % 16]?).getD 0
        | none => 0))
      let set : MxSet :=
        { loaded := false, shape := packedShape, fmt := ifld w 72 4, scaled := ibit w 71, bs32 := ibit w 70, kv := 16, nv := 16
          mask := ifld w 48 16, probs := ok.map (·.1), cells := cells, scales := scales, bad := ok.findSome? (·.2.2.2) }
      let s := modMx s p (fun x => { x with sets := mapSet (fun _ => MxSet.reset) x.sets (idleSet x a) set })
      mxIssued s p q { fly0 q with arrays := 2 ^ a }

/-- MX_LOAD_COMPLETE: R105: the k-th instruction in flight, a load, completes. -/
def loadComplete (s : State) (p k : Nat) : State :=
  match (getMx s p).fly[k]? with
  | none => s
  | some f =>
    if f.kind ≠ 0 then s
    else
      let as := (List.range 4).filter (fun a => bit f.arrays a)
      let s := modMx s p (fun x => { x with
        fly := x.fly.eraseIdx k
        sets := as.foldl (fun m a => mapMod (fun _ => MxSet.reset) m (idleSet x a) (fun t => { t with loaded := true })) x.sets })
      completeDone s (mxEng p) f.done

/-! The defined dot product over elements (R41 to R45, R49, R57). -/

/-- R57: an operand's value in a single pass: of an FP32 operand the hi part, beside an operand of any float format. -/
def passVal (f : Fmt) (a : Word) : FV := if f = .fp32 then (splitParts a).1 else decodeNum f a.toNat

/-- The products of one group: positions outside the problem give +0 (R43). -/
def groupProds (fa fb : Fmt) (ab : List (Option (Word × Word))) : List FV :=
  ab.map (fun o => match o with
    | some (a, b) => fvMul (passVal fa a) (passVal fb b)
    | none => fvZero)

/-- R41: the chunk sum of 64 positions with the scale bytes of each group. -/
def dotChunk (fa fb : Fmt) (ab : List (Option (Word × Word))) (sa sb : Nat → Option Nat) : FV :=
  chunkSum ((List.range 4).map (fun g => scaledGroup (groupProds fa fb ((ab.drop (16 * g)).take 16)) (sa g) (sb g)))

/-- Part i of a split operand (R56): 0 hi, 1 mid, 2 lo. -/
def splitPart (i : Nat) (a : Word) : FV := let (h, m, l) := splitParts a; if i = 0 then h else if i = 1 then m else l

/-- R57: the chunk sum of part i of A with part j of B. -/
def splitChunk (ab : List (Option (Word × Word))) (i j : Nat) : FV :=
  chunkSum ((List.range 4).map (fun g => scaledGroup (((ab.drop (16 * g)).take 16).map (fun o => match o with
    | some (a, b) => fvMul (splitPart i a) (splitPart j b)
    | none => fvZero)) none none))

/-- One chunk into a float accumulator (R41, R47, R57). -/
def accFloat (fa fb : Fmt) (passes : Nat) (acc : Word) (ab : List (Option (Word × Word))) (sa sb : Nat → Option Nat) : Word :=
  if 1 < passes then f32Bits (splitCombine passes (f32 acc) (splitChunk ab))
  else f32Bits (fvAdd (f32 acc) (dotChunk fa fb ab sa sb))

/-- One chunk into an INT32 accumulator, with the overflow of R50. -/
def accInt (fa fb : Fmt) (acc : Word) (ab : List (Option (Word × Word))) : Word × Bool :=
  let x := ab.foldl (fun t o => match o with
    | some (a, b) => t + sext (fmtWidth fa) a.toNat * sext (fmtWidth fb) b.toNat
    | none => t) acc.toInt
  (BitVec.ofInt 32 x, decide (x < -2147483648 ∨ 2147483647 < x))

/-- A running output element: accumulator, wide partial, integer overflow. -/
structure AccRun where
  acc : Word
  w : Option DWord
  iovf : Bool
  deriving DecidableEq, Repr

/-- One chunk of R51: `cn` is its number in the run, `spill` the interval, `last` the run's last chunk. -/
def stepChunk (fa fb : Fmt) (passes spill cn : Nat) (last : Bool) (r : AccRun) (ab : List (Option (Word × Word)))
    (sa sb : Nat → Option Nat) : AccRun :=
  if fmtIsInt fa then let (v, o) := accInt fa fb r.acc ab; { r with acc := v, iovf := r.iovf || o }
  else
    let acc := accFloat fa fb passes r.acc ab sa sb
    if spill ≠ 0 ∧ cn % spill = 0 ∧ !last then { r with acc := 0, w := some (wideAdd (r.w.getD 0) acc) } else { r with acc := acc }

/-! Runs (R96 to R100). -/

def runRows (r : MxRun) : Nat × Nat := (r.base, r.rows)
def rangesMeet (x y : Nat × Nat) : Bool := x.1 < y.1 + y.2 && y.1 < x.1 + x.2

/-- R51: end a run: each entry that has spilled takes its wide partial in; a poisoned one stays poisoned (R103). -/
def endRun (s : State) (p : Nat) (r : MxRun) : State :=
  let s := if r.spilled then
      (List.range (64 * r.rows)).foldl (fun s i =>
        let e := 64 * r.base + i
        match getWide s p e with
        | some w => setWide (setAcc s p e (drainAdd w (getAcc s p e)) (accBad s p e)) p e none
        | none => s) s
    else s
  modMx s p (fun x => { x with runs := x.runs.filter (fun y => y.base != r.base) })

/-- A run's spill rows are freed without conversion, and an instruction in flight no longer ends it (R98). -/
def abandonRun (s : State) (p : Nat) (r : MxRun) : State :=
  let s := if r.spilled then (List.range (64 * r.rows)).foldl (fun s i => setWide s p (64 * r.base + i) none) s else s
  modMx s p (fun x => { x with
    runs := x.runs.filter (fun y => y.base != r.base)
    fly := x.fly.map (fun f => if f.lastRun = some (runRows r) then { f with lastRun := none } else f) })

/-- R103: the first poisoned entry that the end of a run reads: one that has spilled. -/
def runBad (s : State) (p : Nat) (r : MxRun) : Option Nat :=
  if r.spilled then
    ((List.range (64 * r.rows)).find? (fun i => (getWide s p (64 * r.base + i)).isSome && accBad s p (64 * r.base + i))).map (64 * r.base + ·)
  else none

/-! mx.mm. -/

/-- The positions of chunk c of output (m, n): A row elements against the column of its array. -/
def mmPairs (x : MxState) (sh arr : Nat) (arow : List Word) (kv n c : Nat) : List (Option (Word × Word)) :=
  let set := getSet x (actSet x (chunkArray sh arr c n))
  (List.range 64).map (fun k => if 64 * c + k < kv then some (arow[64 * c + k]?.getD 0, cellAt set.cells k (n % 64)) else none)

/-- The scale byte of the group at K index k, of a row of scale bytes that begins at K index k0; none beyond K_valid or for an unscaled
operand. -/
def groupScale (scaled bs32 : Bool) (kv : Nat) (row : List Byte) (k0 k : Nat) : Option Nat :=
  if scaled ∧ k / (if bs32 then 32 else 16) < scaleBlocks kv bs32 then
    some ((row[(k - k0) / (if bs32 then 32 else 16)]?).getD 0).toNat
  else none

/-- Output element (m, n) of an mx.mm, over its chunks. `from` is the number of chunks the run has, `ends` that the run ends here. -/
def mmElem (x : MxState) (w : IWord) (st : Staged) (fb : Fmt) (b : MxSet) (m n spill start : Nat) (ends : Bool) (r : AccRun) : AccRun :=
  let sh := ifld w 78 2
  let fa := fmtC (ifld w 71 4)
  let nc := shapeChunks sh
  (List.range nc).foldl (fun r c =>
    let bset := getSet x (actSet x (chunkArray sh (ifld w 76 2) c n))
    stepChunk fa fb (ifld w 63 2) spill (start + c + 1) (ends && c + 1 == nc) r
      (mmPairs x sh (ifld w 76 2) ((st.rows[m]?).getD []) b.kv n c)
      (fun g => groupScale (ibit w 70) (ibit w 69) b.kv ((st.scales[m]?).getD []) 0 (64 * c + 16 * g))
      (fun g => groupScale b.scaled b.bs32 b.kv ((bset.scales[n % 64]?).getD []) (64 * c) (64 * c + 16 * g))) r

/-- Compute every output element (R74, R93); answers the first poisoned entry that the adder read (R103). -/
def mmCompute (s : State) (p : Nat) (w : IWord) (st : Staged) (b : MxSet) (spill start : Nat) (ends : Bool) : State × Option Nat :=
  let sh := ifld w 78 2
  let x := getMx s p
  let fb := fmtC b.fmt
  let base := ifld w 12 12
  let init := ifld w 66 2 == 1
  (List.range (ifld w 55 8 + 1)).foldl (fun acc m => (List.range b.nv).foldl (fun (acc : State × Option Nat) n =>
    let s := acc.1
    let e := 64 * (base + m * (shapeN sh / 64) + n / 64) + n % 64
    if !init && accBad s p e then (s, some (acc.2.getD e))
    else
      let r := mmElem x w st fb b m n spill start ends ⟨if init then 0 else getAcc s p e, if init then none else getWide s p e, false⟩
      (orMxFlags (setWide (setAcc s p e r.acc false) p e r.w) p noFlags r.iovf, acc.2)) acc) (s, none)

/-- Swap the sets of arrays (R63). -/
def swapSets (s : State) (p : Nat) (as : List Nat) : State :=
  modMx s p (fun x => { x with act := x.act ^^^ arrayMask as })

/-- R85: what holds an mx.mm or mx.mmp at issue: an earlier one on its arrays that has not sent its last row, a load into its arrays
that it would swap in, stores and loads of its rows, and an earlier matrix instruction on its rows that is not of the same arrays with at
least 16 row slots. -/
def mmHeld (s : State) (x : MxState) (as : List Nat) (sw : Bool) (qs : List (Nat × Nat)) : Bool :=
  (sw && loading x as) || x.fly.any (fun f => f.kind == 1 && as.any (fun a => bit f.arrays a) && !rowsSent s f)
    || x.fly.any (fun f => [2, 3, 4, 6].contains f.kind && flyMeets f qs)
    || x.fly.any (fun f => f.kind == 1 && flyMeets f qs && !(f.arrays == arrayMask as && 16 ≤ f.rowSlots))

/-- The sets that arrays will have active, after a swap if one is asked for. -/
def nextSet (x : MxState) (a : Nat) (sw : Bool) : MxSet := getSet x (if sw then idleSet x a else actSet x a)

/-- R109: what an mx.mm or mx.mmp finds wrong when it would otherwise issue, as code and address: poison, the active sets, the
pairing. `sh` is the shape its sets must show. -/
def mmFault (x : MxState) (as : List Nat) (sw : Bool) (sh fa pass : Nat) (mask : Nat) (bad : Option Nat) : Option (Nat × Nat) :=
  let sets := as.map (fun a => nextSet x a sw)
  match bad.orElse (fun _ => sets.findSome? (·.bad)) with
  | some a => some (0x0303, a)
  | none =>
    if sets.any (fun t => !t.loaded || t.shape != sh || mask &&& t.mask != mask) then some (0x0A02, 0)
    else if sets.any (fun t => !pairOk fa t.fmt pass) then some (0x0A01, 0)
    else none

/-- Spill rows that open runs hold (R100). -/
def spillRows (x : MxState) : Nat := sumNat ((x.runs.filter (·.spilled)).map (·.rows))

/-- What the run table makes of an mx.mm (R97 to R100). -/
inductive RunPlan
  | overlap
  | hold
  | go (run : Option MxRun) (start : Nat)
  deriving DecidableEq, Repr

/-- R97 to R100: the run that an mx.mm adds to, with the chunks that it had; an exact run of a start is abandoned by the caller. A
continue-mode integer mx.mm on the rows of an open float run, which R98 does not speak of, leaves the run as it is (log entry 116). -/
def planRun (x : MxState) (w : IWord) : RunPlan :=
  let rows := mmRows w
  let n := ifld w 24 16
  let nc := shapeChunks (ifld w 78 2)
  let float := !fmtIsInt (fmtC (ifld w 71 4))
  let start := ifld w 66 2 == 1
  let met := x.runs.filter (fun r => rangesMeet (runRows r) rows)
  if met.any (fun r => runRows r != rows) then .overlap
  else
    let old := if start then none else met.head?
    let others := x.runs.filter (fun r => runRows r != rows)
    if !float then .go none 0
    else if old.isNone ∧ n = 0 then .go none 0
    else
      let r : MxRun := old.getD ⟨rows.1, rows.2, 0, n, false⟩
      let spills := (List.range nc).any (fun c => n != 0 && (r.chunks + c + 1) % n == 0 && !(ibit w 65 && c + 1 == nc))
      if old.isNone ∧ 128 ≤ others.length then .hold
      else if spills ∧ !r.spilled ∧ 1024 < spillRows { x with runs := others } + r.rows then .hold
      else .go (some { r with chunks := r.chunks + nc, spilled := r.spilled || spills }) r.chunks

/-- Count a matrix instruction (R118). -/
def countMm (s : State) (p slots macs : Nat) : State := addStat (addStat s MX_ROW_SLOTS p slots) MX_MACS p macs

/-- MX_MM: R85, R91 to R103. The active sets of a ganged instruction have one shape; where their other metadata differ, which R74 does
not settle, those of the first array apply (log entry 115). -/
def doMm (s : State) (p : Nat) : State :=
  match mxFront s p 0x22 with
  | none => s
  | some q => match q.staged with
    | none => s
    | some st =>
      let w := q.word
      let sh := ifld w 78 2
      let as := mxArrays w
      let sw := ibit w 75
      let rows := mmRows w
      let qs := [(4 * rows.1, 4 * rows.2)]
      let x := getMx s p
      let plan := planRun x w
      if mmHeld s x as sw qs ∨ plan = .hold then s
      else
        match mmFault x as sw sh (ifld w 71 4) (ifld w 63 2) 0 st.bad with
        | some (c, a) => faultQ s (mxEng p) q c a 0 0
        | none =>
          match plan with
          | .overlap => faultQ s (mxEng p) q 0x0A04 0 0 0
          | .hold => s
          | .go run start =>
            let b := nextSet x (as.head?.getD 0) sw
            let s := if sw then swapSets s p as else s
            let s := if ifld w 66 2 = 1 then
                (match (getMx s p).runs.find? (fun r => runRows r == rows) with | some r => abandonRun s p r | none => s)
              else s
            let m := ifld w 55 8 + 1
            let terms := if ifld w 63 2 = 1 then 1 else if ifld w 63 2 = 2 then 3 else 6
            let (s, bad) := mmCompute s p w st b (if run.isSome then ifld w 24 16 else 0) start (ibit w 65)
            let s := match run with
              | some r => modMx s p (fun x => { x with runs := x.runs.filter (fun y => runRows y != rows) ++ [r] })
              | none => s
            let s := countMm s p (m * terms * as.length) (m * b.kv * b.nv * terms)
            mxIssued s p q { fly0 q with
              kind := 1, arrays := arrayMask as, quarters := qs, slots := st.slots, rowSlots := m * terms
              lastRun := if ibit w 65 && run.isSome then some rows else none, badEntry := bad }

/-! mx.mmp (R77 to R81). -/

/-- One output element of a packed problem: group 0 of one chunk (R78). -/
def packElem (w : IWord) (b : MxSet) (a : PackA) (kv m n : Nat) (acc : Word) : Word × Bool :=
  let fa := fmtC (ifld w 71 4)
  let fb := fmtC b.fmt
  let arow := (a.rows[m]?).getD []
  let i := 16 * (a.prob / 4)
  let j := 16 * (a.prob % 4) + n
  let ab := (List.range 64).map (fun k => if k < kv then some (arow[k]?.getD 0, cellAt b.cells (i + k) j) else none)
  if fmtIsInt fa then accInt fa fb acc ab
  else
    (accFloat fa fb 1 acc ab (fun g => if ibit w 70 && g == 0 then some ((a.scales[m]?).getD 0).toNat else none)
      (fun g => if b.scaled && g == 0 then some (byteAt b.scales j (a.prob / 4)).toNat else none), false)

/-- All elements of a packed problem (R94, R96, R103). -/
def packCompute (p : Nat) (w : IWord) (b : MxSet) (acc : State × Option Nat) (a : PackA) : State × Option Nat :=
  match b.probs.find? (fun x => x.1 == a.prob) with
  | none => acc
  | some (_, kv, nv) =>
    (List.range a.rows.length).foldl (fun acc m => (List.range nv).foldl (fun (acc : State × Option Nat) n =>
      let s := acc.1
      let e := 16 * (a.accq + m) + n
      if !a.start && accBad s p e then (s, some (acc.2.getD e))
      else
        let (v, o) := packElem w b a kv m n (if a.start then 0 else getAcc s p e)
        (orMxFlags (setAcc s p e v false) p noFlags o, acc.2)) acc) acc

/-- R81: two problems write a common entry. -/
def packsMeet : List PackA → Bool
  | [] => false
  | a :: r => r.any (fun b => rangesMeet (a.accq, a.rows.length) (b.accq, b.rows.length)) || packsMeet r

/-- MX_MMP. -/
def doMmp (s : State) (p : Nat) : State :=
  match mxFront s p 0x23 with
  | none => s
  | some q => match q.staged with
    | none => s
    | some st =>
      let w := q.word
      let as := mxArrays w
      let sw := ibit w 75
      let qs := st.packs.map (fun a => (a.accq, a.rows.length))
      let x := getMx s p
      if mmHeld s x as sw qs then s
      else match mmFault x as sw packedShape (ifld w 71 4) 1 (ifld w 47 16) st.bad with
      | some (c, a) => faultQ s (mxEng p) q c a 0 0
      | none =>
        if packsMeet st.packs then faultQ s (mxEng p) q 0x0A05 0 0 0
        else
          let b := nextSet x (as.head?.getD 0) sw
          let s := if sw then swapSets s p as else s
          let (s, bad) := st.packs.foldl (packCompute p w b) (s, none)
          let slots := (st.packs.map (fun a => a.rows.length)).foldl max 0
          let macs := sumNat (st.packs.map (fun a => match b.probs.find? (fun x => x.1 == a.prob) with
            | some (_, kv, nv) => a.rows.length * kv * nv
            | none => 0))
          mxIssued (countMm s p slots macs) p q { fly0 q with
            kind := 1, arrays := arrayMask as, quarters := qs, slots := st.slots, rowSlots := slots, badEntry := bad }

/-! mx.st, mx.ldacc, mx.drain and mx.flag. -/

/-- R87: an in-flight instruction writes rows that these quarter-rows touch. -/
def stHeld (x : MxState) (qs : List (Nat × Nat)) : Bool := x.fly.any (fun f => [1, 3, 4, 6].contains f.kind && flyMeets f qs)

/-- An entry's value as mx.st converts it (R113). -/
def entryVal (int : Bool) (v : Word) : FV := if int then decodeNum .int32 v.toNat else f32 v

/-- One block of a row converted: its codes, its scale byte and flags (R34, R35, R40). -/
def convBlock (f : Fmt) (sat scaled : Bool) (xs : List FV) : List Nat × Nat × CFlags :=
  let (sc, k) := if scaled then deriveScale f xs else (0, 0)
  let cs := xs.map (fun x => encodeNum f (fvScale k x) none sat)
  (cs.map (·.1), sc, (cs.map (·.2)).foldl orFlags noFlags)

/-- One destination row of an mx.st: its bytes, its scale bytes and flags. -/
def stRow (w : IWord) (vals : List Word) : List Byte × List Byte × CFlags :=
  let f := stFmt w
  if ibit w 46 then (packElems .fp32 (vals.map (·.toNat)), [], noFlags)
  else
    let bs := if ibit w 48 then (if ibit w 47 then 32 else 16) else vals.length
    let cs := (chunksOf bs vals.length (vals.map (entryVal (ibit w 34)))).map (convBlock f (ibit w 49) (ibit w 48))
    (packElems f (cs.flatMap (·.1)), if ibit w 48 then cs.map (fun c => BitVec.ofNat 8 c.2.1) else [],
      (cs.map (·.2.2)).foldl orFlags noFlags)

/-- MX_ST: R101, R108, R113. -/
def doSt (s : State) (p : Nat) : State :=
  match mxFront s p 0x24 with
  | none => s
  | some q =>
    let w := q.word
    let qs := stQuarters w
    if stHeld (getMx s p) [qs] then s
    else
      let n := 16 * (ifld w 54 4 + 1)
      match (List.range (16 * qs.2)).find? (fun i => accBad s p (16 * qs.1 + i)) with
      | some i => faultQ s (mxEng p) q 0x0303 (16 * qs.1 + i) 0 0
      | none =>
        let rd := mxG s p w 41
        let rs := mxG s p w 36
        let s := (List.range (ifld w 58 8 + 1)).foldl (fun s m =>
          let vals := (List.range n).map (fun i => getAcc s p (16 * qs.1 + m * n + i))
          let (bytes, scs, fl) := stRow w vals
          let s := tileWrite s p (rowStart (stFmt w) (refAddr rd + m * refStride rd)) (good bytes)
          let s := if scs.isEmpty then s else tileWrite s p (refAddr rs + m * refStride rs) (good scs)
          orMxFlags s p fl false) s
        let s := if ibit w 35 then (List.range (16 * qs.2)).foldl (fun s i => setAcc s p (16 * qs.1 + i) 0 false) s else s
        mxIssued s p q { fly0 q with kind := if ibit w 35 then 6 else 2, quarters := [qs], dests := stSpans s p w }

/-- MX_LDACC: R108. -/
def doLdacc (s : State) (p : Nat) : State :=
  match mxFront s p 0x25 with
  | none => s
  | some q =>
    let w := q.word
    let qs := stQuarters w
    if stHeld (getMx s p) [qs] then s
    else
      let n := 16 * (ifld w 54 4 + 1)
      let rs := mxG s p w 49
      let s := (List.range (ifld w 58 8 + 1)).foldl (fun s m =>
        let bs := tileRead s p (refAddr rs + (if ibit w 48 then 0 else m * refStride rs)) (4 * n)
        (List.range n).foldl (fun s i =>
          let c := (bs.drop (4 * i)).take 4
          setAcc s p (16 * qs.1 + m * n + i) (BitVec.ofNat 32 (ofBytes (c.map (·.b)))) (c.any (·.bad))) s) s
      mxIssued s p q { fly0 q with kind := 3, quarters := [qs] }

/-- MX_DRAIN: R114. An entry of a run that is poisoned is read by the adder (R103). -/
def doDrain (s : State) (p : Nat) : State :=
  match mxFront s p 0x26 with
  | none => s
  | some q =>
    let w := q.word
    let rows := (ifld w 68 12, ifld w 56 12 + 1)
    let qs := (4 * rows.1, 4 * rows.2)
    if stHeld (getMx s p) [qs] then s
    else
      let met := (getMx s p).runs.filter (fun r => rangesMeet (runRows r) rows)
      if met.any (fun r => r.base < rows.1 || rows.1 + rows.2 < r.base + r.rows) then faultQ s (mxEng p) q 0x0A04 0 0 0
      else
        let bad := met.findSome? (runBad s p)
        mxIssued (met.foldl (fun s r => endRun s p r) s) p q { fly0 q with kind := 4, quarters := [qs], badEntry := bad }

/-- MX_FLAG: it completes after every earlier mx. instruction (R106). -/
def doFlag (s : State) (p : Nat) : State :=
  match mxFront s p 0x27 with
  | none => s
  | some q =>
    if !(getMx s p).fly.isEmpty then s
    else
      let s := setG s (mxEng p) (ifld q.word 75 5) (BitVec.ofNat 64 (mxFlagBits s p))
      let s := if ibit q.word 74 then clearMxFlags s p else s
      finishFront s (mxEng p) q

/-- R106: the instruction takes the store port. -/
def usesPort (f : MxFly) : Bool := [2, 3, 6].contains f.kind

/-- R100: the open run that an instruction with the last bit ends. -/
def endsRun (x : MxState) (f : MxFly) : Option MxRun := f.lastRun.bind (fun b => x.runs.find? (fun r => runRows r == b))

/-- MX_INSTR_COMPLETE: R107, R100, R103: the k-th instruction in flight, not a load, completes; those that share the store port, in
issue order (R106). The end of a run adds its wide partials, and faults where it reads a poisoned entry. -/
def instrComplete (s : State) (p k : Nat) : State :=
  match (getMx s p).fly[k]? with
  | none => s
  | some f =>
    if f.kind = 0 ∨ (usesPort f ∧ ((getMx s p).fly.take k).any usesPort) then s
    else
      let run := endsRun (getMx s p) f
      let bad := f.badEntry.orElse (fun _ => run.bind (runBad s p))
      let s := match run with
        | some r => endRun s p r
        | none => s
      let s := modMx s p (fun x => { x with fly := x.fly.eraseIdx k })
      match bad with
      | some e => faultEngine s (mxEng p) 0x0303 f.done.tag f.done.pc f.done.t e 0 0
      | none => completeDone s (mxEng p) f.done

/-- R85 to R87: an mx. instruction at the front of the queue is held at issue. A matrix instruction whose W wait is satisfied and whose
staging slots are not yet full is held by item 1 of R85. -/
def heldAtIssue (s : State) (p : Nat) (q : QEntry) : Bool :=
  let w := q.word
  let x := getMx s p
  match iOp w, q.staged with
  | 0x20, _ => q.filled && ldHeld x (mxArrays w) (ldsSpans s p w)
  | 0x21, _ => q.filled && ldHeld x [ifld w 76 2] (ldspSpans s p w)
  | 0x22, some _ =>
    mmHeld s x (mxArrays w) (ibit w 75) [(4 * (mmRows w).1, 4 * (mmRows w).2)] || planRun x w == .hold
  | 0x23, some st => mmHeld s x (mxArrays w) (ibit w 75) (st.packs.map (fun a => (a.accq, a.rows.length)))
  | 0x22, none => !iW w || q.wDone
  | 0x23, none => !iW w || q.wDone
  | 0x24, _ => q.filled && stHeld x [stQuarters w]
  | 0x25, _ => q.filled && stHeld x [stQuarters w]
  | 0x26, _ => q.filled && stHeld x [(4 * ifld w 68 12, 4 * (ifld w 56 12 + 1))]
  | _, _ => false

/-- MX_ISSUE_TIMEOUT: R89. -/
def issueTimeout (s : State) (p : Nat) : State :=
  let e := mxEng p
  let us := getP s e P_WAIT_TMO_US
  match (getEng s e).queue with
  | q :: _ =>
    if canIssue s e ∧ iCls q.word = 1 ∧ heldAtIssue s p q ∧ lendState s ≠ 3
        ∧ (getEng s e).since + (if us = 0 then 1000000 else us) * 1000 ≤ s.gsc then faultQ s e q 0x0A06 0 0 0
    else s
  | [] => s

end Sys2Proof.Machine
end

