-- ==== Sys2Proof/Machine/Sfu.lean ====
section
/-! DEFINITION. The special functions and the random numbers of the vector engine (R165, R166, R171 to R177). The bits of an SFU
result are an open value within the bound of R165 (log entry 5): the opaque proposal stands where it lies within the bound of the
exact result, else the exact result rounded once. -/
namespace Sys2Proof.Machine

/-! Exact results to about 110 bits, in fixed point. -/

def fxOne : Nat := 2 ^ 120
/-- ln 2 * 2^120. -/
def fxLn2 : Nat := 921350637599661305226344307672478454

/-- e^r for r in units of 2^-120, 0 ≤ r < 1: the terms from `i` on, given the last one. -/
def expTerms (r : Nat) : Nat → Nat → Nat → Nat
  | 0, _, _ => 0
  | f + 1, i, t => let t' := t * r / (i * fxOne); t' + expTerms r f (i + 1) t'

/-- exp of ±m 2^e, for m not 0: its argument is rounded down, so that the result stays in its own binade. -/
def expExact (neg : Bool) (m : Nat) (e : Int) : FV :=
  let x : Int := let a : Int := (scaleFloor m (e + 120) : Nat); if neg then -a - 1 else a
  let k := x / fxLn2
  let r := (x - k * fxLn2).toNat
  .fin false (fxOne + expTerms r 40 1 fxOne) (k - 120)

/-- The terms y^(2i+1) / (2i+1) of the inverse hyperbolic tangent. -/
def atanhTerms (y2 : Nat) : Nat → Nat → Nat → Nat
  | 0, _, _ => 0
  | f + 1, i, t => t / i + atanhTerms y2 f (i + 2) (t * y2 / fxOne)

/-- log of m 2^e, for m not 0. -/
def logExact (m : Nat) (e : Int) : FV :=
  let l := flog2 m e
  let n := scaleFloor m (e - l + 120)
  let y := (n - fxOne) * fxOne / (n + fxOne)
  let v : Int := l * fxLn2 + (2 * atanhTerms (y * y / fxOne) 40 1 y : Nat)
  .fin (decide (v < 0)) v.natAbs (-120)

/-- 1 / (±m 2^e). -/
def rcpExact (neg : Bool) (m : Nat) (e : Int) : FV := .fin neg (2 ^ 140 / m) (-e - 140)

/-- The integer square root, by bits from 2^k down. -/
def isqrt (n : Nat) : Nat → Nat → Nat
  | 0, r => r
  | k + 1, r => isqrt n k (if (r + 2 ^ k) * (r + 2 ^ k) ≤ n then r + 2 ^ k else r)

/-- 1 / sqrt (m 2^e). -/
def rsqrtExact (m : Nat) (e : Int) : FV :=
  let (m, e) := if e % 2 = 0 then (m, e) else (2 * m, e - 1)
  .fin false (isqrt (2 ^ 240 / m) 121 0) (-120 - e / 2)

/-- The distance of two finite values is at most `n` units of 2^u. -/
def within (a b : FV) (n : Nat) (u : Int) : Bool :=
  match a, b with
  | .fin x m e, .fin y k f =>
    let w := min (min e f) u
    (fvUnits x m e w - fvUnits y k f w).natAbs ≤ n * 2 ^ (u - w).toNat
  | _, _ => false

/-- The bound of R165 on a result `r` of function `fn`, less 2^-60 ulp for the error of the exact result as computed here: whatever
keeps this keeps the bound (log entry 5). -/
def sfuBound (fn : Nat) (x exact : FV) (r : Word) : Bool :=
  match exact with
  | .fin _ m e =>
    let ulp := flog2 m e - 23
    let inHalf := !fvLt x (.fin false 1 (-1)) && !fvLt (.fin false 1 1) x
    if fn = 1 ∧ inHalf then within (f32 r) exact (2 ^ 38 - 1) (-60)
    else within (f32 r) exact ((if fn ≤ 1 then 2 else 1) * 2 ^ 60 - 1) (ulp - 60)
  | _ => false

/-- An open SFU result: the proposal where it keeps the bound, itself flushed (R30); an exact result outside FP32's normal range
flushes or overflows. -/
def sfuOpen (fn : Nat) (x exact : FV) (r : Word) : Word :=
  match exact with
  | .fin neg m e =>
    if m = 0 ∨ flog2 m e < -126 then (if neg then 0x80000000 else 0)
    else if sfuBound fn x exact r then f32Bits (f32 r) else f32Bits exact
  | v => f32Bits v

/-- A power of two: its exponent. -/
def pow2 (m : Nat) (e : Int) : Option Int := if m = 2 ^ m.log2 then some (flog2 m e) else none

def nan32 : Word := 0x7FC00000
def pinf32 : Word := 0x7F800000
def ninf32 : Word := 0xFF800000

/-- R165: function 0 exp, 1 log, 2 rcp, 3 rsqrt, at SFU revision `rev`. -/
def sfu (rev fn : Nat) (a : Word) : Word :=
  let v := f32 a
  let r := Config.sfu rev fn a
  match fn, v with
  | _, .nan => nan32
  | 0, .inf neg => if neg then 0 else pinf32
  | 0, .fin neg m e =>
    if m = 0 then 0x3F800000
    else if !neg && fvLt (.fin false 8872284 0) (fvMul (.fin false 100000 0) v) then pinf32
    else sfuOpen 0 v (expExact neg m e) r
  | 1, .inf neg => if neg then nan32 else pinf32
  | 1, .fin neg m e =>
    if m = 0 then ninf32 else if neg then nan32
    else if pow2 m e = some 0 then 0 else sfuOpen 1 v (logExact m e) r
  | 2, .inf neg => if neg then 0x80000000 else 0
  | 2, .fin neg m e =>
    if m = 0 then (if neg then ninf32 else pinf32)
    else match pow2 m e with
      | some k => f32Bits (.fin neg 1 (-k))
      | none => sfuOpen 2 v (rcpExact neg m e) r
  | _, .inf neg => if neg then nan32 else 0
  | _, .fin neg m e =>
    if m = 0 then (if neg then ninf32 else pinf32)
    else if neg then nan32
    else match pow2 m e with
      | some k => if k % 2 = 0 then f32Bits (.fin false 1 (-(k / 2))) else sfuOpen 3 v (rsqrtExact m e) r
      | none => sfuOpen 3 v (rsqrtExact m e) r

/-! Philox4x32-10 (R171). -/

def philoxM0 : Nat := 0xD2511F53
def philoxM1 : Nat := 0xCD9E8D57
def philoxW0 : Word := 0x9E3779B9
def philoxW1 : Word := 0xBB67AE85

structure Quad where
  w0 : Word
  w1 : Word
  w2 : Word
  w3 : Word
  deriving DecidableEq, Repr

/-- One round. -/
def philoxRound (c : Quad) (k0 k1 : Word) : Quad :=
  let p0 := philoxM0 * c.w0.toNat
  let p1 := philoxM1 * c.w2.toNat
  ⟨BitVec.ofNat 32 (p1 / 2 ^ 32) ^^^ c.w1 ^^^ k0, BitVec.ofNat 32 p1, BitVec.ofNat 32 (p0 / 2 ^ 32) ^^^ c.w3 ^^^ k1, BitVec.ofNat 32 p0⟩

/-- `n` rounds; the key moves on before each but the first. -/
def philoxRounds : Nat → Quad → Word → Word → Quad
  | 0, c, _, _ => c
  | n + 1, c, k0, k1 => philoxRounds n (philoxRound c k0 k1) (k0 + philoxW0) (k1 + philoxW1)

def philox (c : Quad) (k0 k1 : Word) : Quad := philoxRounds 10 c k0 k1

/-- R175: what a coordinate pair of registers holds. -/
structure Coord where
  col : Nat
  pos : Nat
  site : Nat
  seq : Nat
  step : Nat
  deriving DecidableEq, Repr

/-- R175: the coordinate pair gC, gC+1. -/
def coordOf (a b : DWord) : Coord := ⟨bits a.toNat 0 32, bits a.toNat 32 24, bits b.toNat 0 16, bits b.toNat 16 16, bits b.toNat 32 32⟩

/-- R176: the counter for a column. -/
def rngCounter (purpose : Nat) (c : Coord) (col : Nat) : Quad :=
  ⟨BitVec.ofNat 32 (col / 8 + 2 ^ 29 * purpose), BitVec.ofNat 32 (c.pos + 2 ^ 24 * (c.seq % 256)), BitVec.ofNat 32 c.step,
    BitVec.ofNat 32 (c.site + 2 ^ 16 * (c.seq / 256))⟩

/-- R177: the 16-bit value of lane or element `l`. -/
def rng16 (key : DWord) (purpose : Nat) (c : Coord) (l : Nat) : Nat :=
  let col := (c.col + l) % 2 ^ 32
  let q := philox (rngCounter purpose c col) (BitVec.ofNat 32 key.toNat) (BitVec.ofNat 32 (key.toNat / 2 ^ 32))
  let j := col % 8
  let w := match j / 2 with | 0 => q.w0 | 1 => q.w1 | 2 => q.w2 | _ => q.w3
  bits w.toNat (16 * (j % 2)) 16

/-- Philox calls that `n` columns from `col` take (R177). -/
def rngCalls (col n : Nat) : Nat := (col % 8 + n + 7) / 8

end Sys2Proof.Machine
end

