-- ==== Sys2Proof/Machine/Vx.lean ====
section
/-! DEFINITION. The vector engine (chapter 05): lanes, predicates, guards, lane arithmetic, loads and stores, reductions, attention
rows, random values and the optimiser step. An instruction's effects fall at issue; its registers have a write pending until it
completes (R160), which holds later instructions that name them. -/
namespace Sys2Proof.Machine

def vxEng (p : Nat) : Eng := .tile (Fin.ofNat 72 p) .vx
def getVx (s : State) (p : Nat) : VxState := (getTile s p).vx
def modVx (s : State) (p : Nat) (f : VxState → VxState) : State := modTile s p (fun t => { t with vx := f t.vx })

/-- A lane of a vector register. -/
def getLane (s : State) (p r l : Nat) : Word := mapGet (fun _ => 0) (getVx s p).v (128 * r + l)

/-- R158: a predicate; p0 reads as all ones. -/
def getPred (s : State) (p n : Nat) : BitVec 128 := if n = 0 then BitVec.allOnes 128 else mapGet (fun _ => 0) (getVx s p).p n

/-- R158: writes to p0 are ignored. -/
def setPred (s : State) (p n : Nat) (v : BitVec 128) : State :=
  if n = 0 then s else modVx s p (fun x => { x with p := mapSet (fun _ => 0) x.p n v })

/-- The lanes that a mask selects, in order. -/
def lanesOf (act : BitVec 128) : List Nat := (List.range 128).filter (fun l => act.getLsbD l)

/-- R159: write the active lanes of a register. -/
def setLanes (s : State) (p r : Nat) (act : BitVec 128) (f : Nat → Word) : State :=
  modVx s p (fun x => { x with v := (lanesOf act).foldl (fun m l => mapSet (fun _ => 0) m (128 * r + l) (f l)) x.v })

/-- R159: the active lanes under a guard. -/
def guardOf (s : State) (p pg : Nat) (inv : Bool) : BitVec 128 := if inv then ~~~(getPred s p pg) else getPred s p pg

/-- A predicate from a test of each lane. -/
def predOf (f : Nat → Bool) : BitVec 128 := BitVec.ofNat 128 (sumNat ((List.range 128).map (fun l => b2n (f l) * 2 ^ l)))

/-! Lane arithmetic (R162 to R164). -/

/-- The smaller or larger of two FP32 values (R162). -/
def fminmax (mx : Bool) (a b : Word) : Word :=
  let x := f32 a
  let y := f32 b
  if fvIsNan x || fvIsNan y then nan32
  else if fvLt x y then f32Bits (if mx then y else x)
  else if fvLt y x then f32Bits (if mx then x else y)
  else f32Bits (if fvSign x == mx then y else x)

/-- vx.fop, but for sel. -/
def fopLane (fn : Nat) (a b c : Word) : Word :=
  match fn with
  | 0 => fadd a b
  | 1 => fsub a b
  | 2 => fmul a b
  | 3 => ffma a b c
  | 4 => fminmax false a b
  | 5 => fminmax true a b
  | 6 => f32Bits (fvAbs (f32 a))
  | 7 => f32Bits (fvNeg (f32 a))
  | _ => b

/-- vx.iop, but for the conversion to INT32. -/
def iopLane (fn : Nat) (a b : Word) : Word :=
  let k := b.toNat % 32
  match fn with
  | 0 => a + b
  | 1 => a - b
  | 2 => a * b
  | 3 => a &&& b
  | 4 => a ||| b
  | 5 => a ^^^ b
  | 6 => a <<< k
  | 7 => a >>> k
  | 8 => a.sshiftRight k
  | 9 => if a.slt b then a else b
  | 10 => if a.slt b then b else a
  | 11 => f32Bits (decodeNum .int32 a.toNat)
  | _ => b

/-- R40, R163: vx.iop FN 12, with its flags. -/
def toInt32 (a : Word) : Word × CFlags :=
  let (v, f) := encodeNum .int32 (f32 a) none true
  (BitVec.ofNat 32 v, f)

/-- vx.cmp. -/
def cmpLane (fn : Nat) (a b : Word) : Bool :=
  match fn with
  | 0 => fvEq (f32 a) (f32 b)
  | 1 => fvLt (f32 a) (f32 b)
  | 2 => fvLt (f32 a) (f32 b) || fvEq (f32 a) (f32 b)
  | 3 => !fvEq (f32 a) (f32 b)
  | 4 => a == b
  | 5 => a.slt b
  | 6 => a.slt b || a == b
  | _ => a != b

/-- vx.pop. -/
def popPred (fn : Nat) (a b : BitVec 128) : BitVec 128 :=
  match fn with
  | 0 => a &&& b
  | 1 => a ||| b
  | 2 => a ^^^ b
  | 3 => a &&& ~~~b
  | 4 => ~~~a
  | 5 => BitVec.allOnes 128
  | _ => 0

/-- One level of the tree of R167: the first half against the second. -/
def treeLevel (op : Word → Word → Word) (xs : List Word) (w : Nat) : List Word := List.zipWith op (xs.take w) (xs.drop w)

/-- R167. -/
def laneTree (op : Word → Word → Word) (xs : List Word) : Word :=
  (([64, 32, 16, 8, 4, 2, 1].foldl (treeLevel op) xs).head?).getD 0

/-- R167: operation 0 sum, 1 max, 2 min of the active lanes. -/
def reduceLanes (fn : Nat) (act : BitVec 128) (f : Nat → Word) : Word :=
  let fill := match fn with | 0 => 0 | 1 => ninf32 | _ => pinf32
  let op := match fn with | 0 => fadd | 1 => fminmax true | _ => fminmax false
  laneTree op ((List.range 128).map (fun l => if act.getLsbD l then f l else fill))

/-! Issue (R160, R184, R186, R190). -/

/-- What an instruction answers when it runs: the state, and a fault as code and address. -/
abbrev VxRes := State × Option (Nat × Nat)

/-- A register that an instruction names has a write pending (R160, R210); writes to p0 are ignored (R158). -/
def vxPending (x : VxState) (rs : List Nat) : Bool := x.fly.any (fun f => f.writes.any (fun r => r != 32 && rs.contains r))

/-- The general registers that a vx. instruction reads (R188, R191): addresses, a scalar operand, a coordinate pair. -/
def vxGReads (w : IWord) : List Nat :=
  let pair (lo : Nat) : List Nat := [ifld w lo 5, ifld w lo 5 + 1]
  match iOp w with
  | 0x60 => [ifld w 70 5] ++ (if ibit w 43 then [ifld w 37 5] else [])
  | 0x61 => [ifld w 70 5] ++ (if ibit w 43 then [ifld w 37 5] else []) ++ (if ibit w 35 then pair 29 else [])
  | 0x62 | 0x63 | 0x6E => [ifld w 70 5]
  | 0x64 | 0x65 | 0x66 | 0x68 | 0x69 => if ifld w 52 2 = 2 then [ifld w 59 5] else []
  | 0x6C => ifld w 44 5 :: pair 65
  | 0x6D => pair 65
  | 0x6F => [ifld w 65 5, ifld w 60 5]
  | 0x70 => [ifld w 75 5]
  | _ => []

/-- The general register that INC writes. -/
def vxGWrites (w : IWord) : List Nat :=
  match iOp w with
  | 0x60 | 0x61 => if ibit w 36 then [ifld w 70 5] else []
  | 0x62 | 0x63 => if ibit w 54 then [ifld w 70 5] else []
  | _ => []

/-- Issue a vx. instruction: its encoding, the pending writes of the registers it reads or writes (predicate n as 32 + n, general
register n as 40 + n), its W wait, then its effects. A fault leaves it at the front. -/
def vxRun (s : State) (p op : Nat) (bad : IWord → Bool) (reads writes : IWord → List Nat) (body : State → IWord → VxRes) : State :=
  let e := vxEng p
  match frontIs s e 2 op with
  | none => s
  | some q =>
    let w := q.word
    let gw := (vxGWrites w).map (40 + ·)
    if draining s p then s
    else if iV w || flagBad w || bad w then faultQ s e q 0x0B01 0 0 0
    else if vxPending (getVx s p) (reads w ++ writes w ++ (vxGReads w).map (40 + ·) ++ gw) then s
    else match takeW s e q with
      | (s, false) => s
      | (s, true) => match body s w with
        | (s, some (c, a)) => faultQ s e q c a 0 0
        | (s, none) =>
          let s := traceEv (popFront s e) e (iT w) (iTag w) q.idx 2 0
          modVx s p (fun x => { x with fly := x.fly ++ [⟨writes w ++ gw, op == 0x70, doneOf w q.idx⟩] })

/-- VX_INSTR_COMPLETE: R188: the k-th instruction in flight completes. -/
def vxComplete (s : State) (p k : Nat) : State :=
  match (getVx s p).fly[k]? with
  | none => s
  | some f => completeDone (modVx s p (fun x => { x with fly := x.fly.eraseIdx k })) (vxEng p) f.done

/-- R193: lane operations are counted for the register forms, reductions, random values, positions and masks (log entry 31). -/
def countLanes (s : State) (p : Nat) (act : BitVec 128) : State := addStat s VX_LANE_OPS p (lanesOf act).length
def countSfu (s : State) (p n : Nat) : State := addStat s VX_SFU_RESULTS p n

def sfuRev (s : State) (p : Nat) : Nat := getF s VX_SFU_REV_REV p

/-! The register form. -/

def rFn (w : IWord) : Nat := ifld w 74 6
def rVd (w : IWord) : Nat := ifld w 69 5
def rVa (w : IWord) : Nat := ifld w 64 5
def rVb (w : IWord) : Nat := ifld w 59 5
def rAct (s : State) (p : Nat) (w : IWord) : BitVec 128 := guardOf s p (ifld w 42 3) (ibit w 41)
def vxG (s : State) (p : Nat) (w : IWord) (lo : Nat) : DWord := getG s (vxEng p) (ifld w lo 5)

/-- Operand b of lane l, by BSRC. -/
def rB (s : State) (p : Nat) (w : IWord) (l : Nat) : Word :=
  match ifld w 52 2 with
  | 0 => getLane s p (rVb w) l
  | 1 => getLane s p (rVb w) (ifld w 45 7)
  | 2 => BitVec.ofNat 32 (getG s (vxEng p) (rVb w)).toNat
  | _ => BitVec.ofNat 32 (ifld w 9 32)

/-- The registers that the register form reads: a, b unless broadcast from elsewhere, the guard. -/
def rReads (w : IWord) : List Nat := [rVa w, 32 + ifld w 42 3] ++ (if ifld w 52 2 < 2 then [rVb w] else [])

/-- VX_FOP. -/
def doVxFop (s : State) (p : Nat) : State :=
  vxRun s p 0x64 (fun w => 9 < rFn w || rsvBad w [(0, 9)] || (rFn w != 3 && ifld w 54 5 != 0))
    (fun w => rReads w ++ (if rFn w = 3 then [ifld w 54 5] else [])) (fun w => [rVd w]) (fun s w =>
    let act := rAct s p w
    let a := getLane s p (rVa w)
    let s' := if rFn w = 9 then setLanes s p (rVd w) (BitVec.allOnes 128) (fun l => if act.getLsbD l then a l else rB s p w l)
      else setLanes s p (rVd w) act (fun l => fopLane (rFn w) (a l) (rB s p w l) (getLane s p (ifld w 54 5) l))
    (countLanes s' p act, none))

/-- VX_IOP. -/
def doVxIop (s : State) (p : Nat) : State :=
  vxRun s p 0x65 (fun w => 13 < rFn w || rsvBad w [(0, 9), (54, 5)]) rReads (fun w => [rVd w]) (fun s w =>
    let act := rAct s p w
    let a := getLane s p (rVa w)
    let s' := if rFn w = 12 then
        orVxFlags (setLanes s p (rVd w) act (fun l => (toInt32 (a l)).1)) p ((lanesOf act).foldl (fun f l => orFlags f (toInt32 (a l)).2) noFlags)
      else setLanes s p (rVd w) act (fun l => iopLane (rFn w) (a l) (rB s p w l))
    (countLanes s' p act, none))

/-- VX_CMP. -/
def doVxCmp (s : State) (p : Nat) : State :=
  vxRun s p 0x66 (fun w => 7 < rFn w || rsvBad w [(0, 9), (54, 5), (72, 2)]) rReads (fun w => [32 + ifld w 69 3]) (fun s w =>
    let act := rAct s p w
    let pd := ifld w 69 3
    let old := getPred s p pd
    let hit (l : Nat) : Bool := cmpLane (rFn w) (getLane s p (rVa w) l) (rB s p w l)
    (countLanes (setPred s p pd (predOf (fun l => if act.getLsbD l then hit l else old.getLsbD l))) p act, none))

/-- VX_POP. -/
def doVxPop (s : State) (p : Nat) : State :=
  vxRun s p 0x67 (fun w => 6 < rFn w || rsvBad w [(0, 9), (54, 5), (72, 2), (42, 3)])
    (fun w => [32 + ifld w 64 3, 32 + ifld w 59 3]) (fun w => [32 + ifld w 69 3]) (fun s w =>
    (setPred s p (ifld w 69 3) (popPred (rFn w) (getPred s p (ifld w 64 3)) (getPred s p (ifld w 59 3))), none))

/-- VX_SFU. -/
def doVxSfu (s : State) (p : Nat) : State :=
  vxRun s p 0x68 (fun w => 3 < rFn w || rsvBad w [(0, 9), (54, 5)]) rReads (fun w => [rVd w]) (fun s w =>
    let act := rAct s p w
    let s' := setLanes s p (rVd w) act (fun l => sfu (sfuRev s p) (rFn w) (getLane s p (rVa w) l))
    (countSfu (countLanes s' p act) p (lanesOf act).length, none))

/-- VX_RED. -/
def doVxRed (s : State) (p : Nat) : State :=
  vxRun s p 0x69 (fun w => 2 < rFn w || rsvBad w [(0, 9), (54, 5)]) rReads (fun w => [rVd w]) (fun s w =>
    let act := rAct s p w
    let v := reduceLanes (rFn w) act (getLane s p (rVa w))
    (countLanes (setLanes s p (rVd w) (BitVec.allOnes 128) (fun _ => v)) p act, none))

/-! vx.ld and vx.st. -/

/-- R29, R189: where a row of 128 elements starts, or the fault of its address. -/
def rowAt (f : Fmt) (a : Nat) : Except (Nat × Nat) Nat :=
  let w := fmtWidth f
  if 16 ≤ w ∧ a % (w / 8) ≠ 0 then .error (0x0B03, a)
  else if 0x400000 < rowStart f a + elemBytes f 128 then .error (0x0B02, a)
  else .ok (rowStart f a)

/-- The byte offsets in a row that hold active lanes' elements. -/
def activeByte (f : Fmt) (act : BitVec 128) (i : Nat) : Bool :=
  (List.range 8).any (fun j => let l := (8 * i + j) / fmtWidth f; l < 128 && act.getLsbD l)

/-- The first poisoned word among the bytes that a test selects. -/
def firstBadAt (a : Nat) (bs : List PByte) (sel : Nat → Bool) : Option Nat :=
  (bs.zipIdx.find? (fun x => x.1.bad && sel x.2)).map (fun x => (a + x.2) / 16 * 16)

/-- The address of the row, from RA and OFF. -/
def lsAddr (s : State) (p : Nat) (w : IWord) : Nat := bits (vxG s p w 70).toNat 0 22 + ifld w 48 22
def lsBs (w : IWord) : Nat := if ibit w 42 then 32 else 16
def lsAct (s : State) (p : Nat) (w : IWord) : BitVec 128 := guardOf s p (ifld w 26 3) (ibit w 25)

/-- A block of lanes that holds an active one. -/
def activeBlock (act : BitVec 128) (bs b : Nat) : Bool := (List.range bs).any (fun j => act.getLsbD (bs * b + j))

/-- INC. -/
def bumpG (s : State) (p : Nat) (on : Bool) (r n : Nat) : State :=
  if on then setG s (vxEng p) r (getG s (vxEng p) r + BitVec.ofNat 64 n) else s

/-- The FP32 or INT32 lane of an element (vx.ld). -/
def widenElem (f : Fmt) (raw : Nat) (sc : Option Nat) : Word :=
  if f = .fp32 then BitVec.ofNat 32 raw
  else if fmtIsInt f then BitVec.ofInt 32 (sext (fmtWidth f) raw)
  else match sc with
    | some b => f32Bits (fvMul (decodeNum f raw) (decodeNum .e8m0 b))
    | none => f32Bits (decodeNum f raw)

/-- Encoding checks that vx.ld and vx.st share. -/
def lsBad (w : IWord) : Bool := (fmtOfCode (ifld w 44 4)).isNone || (ibit w 43 && !mayScale (ifld w 44 4)) || ifld w 0 25 != 0

/-- VX_LD. -/
def doVxLd (s : State) (p : Nat) : State :=
  vxRun s p 0x60 (fun w => lsBad w || rsvBad w [(34, 2)]) (fun w => [32 + ifld w 26 3]) (fun w => [ifld w 75 5]) (fun s w =>
    let f := fmtC (ifld w 44 4)
    let act := lsAct s p w
    let bs := lsBs w
    let sa := bits (vxG s p w 37).toNat 0 22
    match rowAt f (lsAddr s p w) with
    | .error x => (s, some x)
    | .ok a =>
      if ibit w 43 ∧ 0x400000 < sa + 128 / bs then (s, some (0x0B02, sa))
      else
        let row := tileRead s p a (elemBytes f 128)
        let scs := if ibit w 43 then tileRead s p sa (128 / bs) else []
        match (firstBadAt a row (activeByte f act)).orElse (fun _ => firstBadAt sa scs (activeBlock act bs)) with
        | some b => (s, some (0x0303, b))
        | none =>
          let raw := row.map (·.b)
          let s := setLanes s p (ifld w 75 5) act (fun l => widenElem f (elemAt f raw l) ((scs[l / bs]?).map (·.b.toNat)))
          (bumpG s p (ibit w 36) (ifld w 70 5) (elemBytes f 128), none))

/-- Consecutive offsets of a list in rising order, as runs (first, count). -/
def runsOf : List Nat → List (Nat × Nat)
  | [] => []
  | x :: r => match runsOf r with
    | (y, n) :: t => if y = x + 1 then (x, n + 1) :: t else (x, 1) :: (y, n) :: t
    | [] => [(x, 1)]

/-- Write the bytes of a row that a test selects (R159). -/
def writeRow (s : State) (p a : Nat) (bs : List Byte) (sel : Nat → Bool) : State :=
  (runsOf ((List.range bs.length).filter sel)).foldl (fun s r => tileWrite s p (a + r.1) (good ((bs.drop r.1).take r.2))) s

/-- R34: the scale byte and exponent of block `b`, from its active lanes. -/
def blockScale (f : Fmt) (act : BitVec 128) (bs b : Nat) (x : Nat → FV) : Nat × Int :=
  deriveScale f (((List.range bs).map (fun j => bs * b + j)).filter (fun l => act.getLsbD l) |>.map x)

/-- VX_ST. -/
def doVxSt (s : State) (p : Nat) : State :=
  vxRun s p 0x61 (fun w => lsBad w || (ibit w 34 && ifld w 44 4 != 3 && ifld w 44 4 != 4) || (ibit w 35 && ifld w 29 5 % 2 == 1))
    (fun w => [ifld w 75 5, 32 + ifld w 26 3]) (fun _ => []) (fun s w =>
    let f := fmtC (ifld w 44 4)
    let act := lsAct s p w
    let bs := lsBs w
    let sa := bits (vxG s p w 37).toNat 0 22
    match rowAt f (lsAddr s p w) with
    | .error x => (s, some x)
    | .ok a =>
      if ibit w 43 ∧ 0x400000 < sa + 128 / bs then (s, some (0x0B02, sa))
      else
        let v := getLane s p (ifld w 75 5)
        let x (l : Nat) : FV := f32 (v l)
        let scs := (List.range (128 / bs)).map (fun b => if ibit w 43 then blockScale f act bs b x else (0, 0))
        let rc := ifld w 29 5
        let co := coordOf (getG s (vxEng p) rc) (getG s (vxEng p) (rc + 1))
        let key := BitVec.ofNat 64 (getF s VX_RNG_KEY_KEY p)
        let conv (l : Nat) : Nat × CFlags :=
          if f = .fp32 then ((v l).toNat, noFlags)
          else encodeNum f (fvScale ((scs[l / bs]?).getD (0, 0)).2 (x l)) (if ibit w 35 then some (rng16 key 2 co l) else none) (ibit w 34)
        let old := (tileRead s p a (elemBytes f 128)).map (·.b)
        let codes := (List.range 128).map (fun l => if act.getLsbD l then (conv l).1 else elemAt f old l)
        let fl := (lanesOf act).foldl (fun t l => orFlags t (conv l).2) noFlags
        let s := writeRow s p a (packElems f codes) (activeByte f act)
        let s := if ibit w 43 then writeRow s p sa (scs.map (fun c => BitVec.ofNat 8 c.1)) (activeBlock act bs) else s
        let s := if ibit w 35 ∧ f ≠ .fp32 then addStat s VX_RNG_CALLS p (rngCalls co.col 128) else s
        (bumpG (orVxFlags s p fl) p (ibit w 36) (ifld w 70 5) (elemBytes f 128), none))

/-! vx.lda and vx.sta. -/

def qAddr (s : State) (p : Nat) (w : IWord) : Nat := bits (vxG s p w 70).toNat 0 14 + ifld w 56 14
def qAct (s : State) (p : Nat) (w : IWord) : BitVec 128 := guardOf s p (ifld w 51 3) (ibit w 50)

/-- VX_LDA. -/
def doVxLda (s : State) (p : Nat) : State :=
  vxRun s p 0x62 (fun w => ifld w 0 50 != 0) (fun w => [32 + ifld w 51 3]) (fun w => [ifld w 75 5]) (fun s w =>
    let q := qAddr s p w
    let act := qAct s p w
    if 16383 < q + 7 then (s, some (0x0B02, 16 * q))
    else match (lanesOf act).find? (fun l => accBad s p (16 * q + l)) with
    | some l => (s, some (0x0303, 16 * q + l))
    | none =>
      let s' := setLanes s p (ifld w 75 5) act (fun l => getAcc s p (16 * q + l))
      let s' := if ibit w 55 then (lanesOf act).foldl (fun s l => setAcc s p (16 * q + l) 0 false) s' else s'
      (bumpG s' p (ibit w 54) (ifld w 70 5) 8, none))

/-- R161: an MXE instruction in flight writes accumulation buffer entry k. -/
def entryRaced (s : State) (p k : Nat) : Bool :=
  (getMx s p).fly.any (fun f => [1, 3, 4, 6].contains f.kind && f.quarters.any (fun x => x.1 ≤ k / 16 && k / 16 < x.1 + x.2))

/-- R8, R161: what vx.sta writes to entry k from lane l: a free value where an MXE instruction in flight writes it too (log entry 4). -/
def staWord (s : State) (p : Nat) (w : IWord) (k l : Nat) : Word :=
  if entryRaced s p k then BitVec.ofNat 32 (Config.freeWord (s.freeCtr + l)).toNat else getLane s p (ifld w 75 5) l

/-- VX_STA: R161. -/
def doVxSta (s : State) (p : Nat) : State :=
  vxRun s p 0x63 (fun w => ifld w 0 50 != 0 || ibit w 55) (fun w => [ifld w 75 5, 32 + ifld w 51 3]) (fun _ => []) (fun s w =>
    let q := qAddr s p w
    if 16383 < q + 7 then (s, some (0x0B02, 16 * q))
    else
      let s' := (lanesOf (qAct s p w)).foldl (fun t l => setAcc t p (16 * q + l) (staWord s p w (16 * q + l) l) false) s
      (bumpG { s' with freeCtr := s.freeCtr + 128 } p (ibit w 54) (ifld w 70 5) 8, none))

/-! Attention rows (R168 to R170). -/

def aAct (s : State) (p : Nat) (w : IWord) : BitVec 128 := guardOf s p (ifld w 50 3) (ibit w 49)
def oneLane (l : Nat) : BitVec 128 := BitVec.ofNat 128 (2 ^ l)

/-- VX_RMAX: R168; the scores are read again after lane ROW of VA and VM is written, as its loop does. -/
def doVxRmax (s : State) (p : Nat) : State :=
  vxRun s p 0x6A (fun w => ifld w 0 49 != 0 || ifld w 75 5 == ifld w 65 5 || ifld w 75 5 == ifld w 60 5 || ifld w 65 5 == ifld w 60 5)
    (fun w => [ifld w 70 5, 32 + ifld w 50 3]) (fun w => [ifld w 75 5, ifld w 65 5, ifld w 60 5]) (fun s w =>
    let act := aAct s p w
    let row := ifld w 53 7
    let rev := sfuRev s p
    let mo := getLane s p (ifld w 65 5) row
    let mn := fminmax true mo (reduceLanes 1 act (getLane s p (ifld w 70 5)))
    let same := fvEq (f32 mo) (f32 mn)
    let live := !fvEq (f32 mn) (.inf true)
    let s := setLanes s p (ifld w 60 5) (oneLane row) (fun _ => if same then 0x3F800000 else sfu rev 0 (fsub mo mn))
    let s := setLanes s p (ifld w 65 5) (oneLane row) (fun _ => mn)
    let vs := getLane s p (ifld w 70 5)
    let s := setLanes s p (ifld w 75 5) (BitVec.allOnes 128)
      (fun l => if act.getLsbD l && live then sfu rev 0 (fsub (vs l) mn) else 0)
    (countSfu (countLanes s p act) p (b2n (!same) + (if live then (lanesOf act).length else 0)), none))

/-- VX_RSUM. -/
def doVxRsum (s : State) (p : Nat) : State :=
  vxRun s p 0x6B (fun w => ifld w 0 49 != 0 || ifld w 65 5 != 0 || ifld w 75 5 == ifld w 60 5)
    (fun w => [ifld w 70 5, ifld w 60 5, 32 + ifld w 50 3]) (fun w => [ifld w 75 5]) (fun s w =>
    let act := aAct s p w
    let row := ifld w 53 7
    let t := reduceLanes 0 act (getLane s p (ifld w 70 5))
    let v := fadd (fmul (getLane s p (ifld w 75 5) row) (getLane s p (ifld w 60 5) row)) t
    (countLanes (setLanes s p (ifld w 75 5) (oneLane row) (fun _ => v)) p act, none))

/-! Random values, positions and masks (R175 to R181). -/

def vxCoord (s : State) (p rc : Nat) : Coord := coordOf (getG s (vxEng p) rc) (getG s (vxEng p) (rc + 1))
def vxKey (s : State) (p : Nat) : DWord := BitVec.ofNat 64 (getF s VX_RNG_KEY_KEY p)
def dAct (s : State) (p : Nat) (w : IWord) : BitVec 128 := guardOf s p (ifld w 39 3) (ibit w 38)

/-- VX_DROP. -/
def doVxDrop (s : State) (p : Nat) : State :=
  vxRun s p 0x6C (fun w => rsvBad w [(0, 38), (42, 2)] || ifld w 65 5 % 2 == 1)
    (fun w => [ifld w 70 5, 32 + ifld w 39 3]) (fun w => [ifld w 75 5]) (fun s w =>
    let act := dAct s p w
    let co := vxCoord s p (ifld w 65 5)
    let k : Word := BitVec.ofNat 32 (vxG s p w 44).toNat
    let s' := setLanes s p (ifld w 75 5) act
      (fun l => if rng16 (vxKey s p) 1 co l < ifld w 49 16 then 0 else fmul (getLane s p (ifld w 70 5) l) k)
    (addStat (countLanes s' p act) VX_RNG_CALLS p (rngCalls co.col 128), none))

/-- VX_RNG. -/
def doVxRng (s : State) (p : Nat) : State :=
  vxRun s p 0x6D (fun w => rsvBad w [(0, 38), (44, 5), (49, 16), (70, 5)] || ifld w 65 5 % 2 == 1 || 1 < ifld w 42 2)
    (fun w => [32 + ifld w 39 3]) (fun w => [ifld w 75 5]) (fun s w =>
    let act := dAct s p w
    let co := vxCoord s p (ifld w 65 5)
    let s' := setLanes s p (ifld w 75 5) act (fun l =>
      let r := rng16 (vxKey s p) 0 co l
      if ifld w 42 2 = 0 then BitVec.ofNat 32 r else f32Bits (.fin false r (-16)))
    (addStat (countLanes s' p act) VX_RNG_CALLS p (rngCalls co.col 128), none))

/-- VX_POS. -/
def doVxPos (s : State) (p : Nat) : State :=
  vxRun s p 0x6E (fun w => ifld w 0 57 != 0) (fun w => [32 + ifld w 58 3]) (fun w => [ifld w 75 5]) (fun s w =>
    let act := guardOf s p (ifld w 58 3) (ibit w 57)
    let p0 := bits (vxG s p w 70).toNat 0 24
    let s' := setLanes s p (ifld w 75 5) act (fun l =>
      let x := p0 + l * ifld w 62 8
      if ibit w 61 then f32Bits (.fin false x 0) else BitVec.ofNat 32 x)
    (countLanes s' p act, none))

/-- R181: whether a position is kept. -/
def keepPos (k klen qpos win : Nat) (causal : Bool) : Bool :=
  k ≤ 16777215 && k < klen && (!causal || k ≤ qpos) && (win == 0 || decide ((qpos : Int) - k < win))

/-- VX_CMASK. -/
def doVxCmask (s : State) (p : Nat) : State :=
  vxRun s p 0x6F (fun w => rsvBad w [(0, 54), (70, 2)]) (fun w => [32 + ifld w 55 3])
    (fun w => [32 + ifld w 72 3] ++ (if ibit w 58 then [ifld w 75 5] else [])) (fun s w =>
    let act := guardOf s p (ifld w 55 3) (ibit w 54)
    let rq := (vxG s p w 65).toNat
    let rl := (vxG s p w 60).toNat
    let keep (l : Nat) : Bool := keepPos (bits rq 24 24 + l) (bits rl 0 25) (bits rq 0 24) (bits rl 25 24) (ibit w 59)
    let pd := ifld w 72 3
    let old := getPred s p pd
    let s' := setPred s p pd (predOf (fun l => if act.getLsbD l then keep l else old.getLsbD l))
    let s' := if ibit w 58 then setLanes s' p (ifld w 75 5) (act &&& predOf (fun l => !keep l)) (fun _ => ninf32) else s'
    (countLanes s' p act, none))

/-! The optimiser step (R182 to R185). -/

/-- Word i of a parameter block. -/
def optWord (s : State) (p rp i : Nat) : Nat := readNat s (tsAddr p (rp + 4 * i)) 4
def optF (s : State) (p rp i : Nat) : Word := BitVec.ofNat 32 (optWord s p rp i)

/-- The words of a parameter block, as vx.opt reads it once (R182). -/
def optBlock (s : State) (p rp : Nat) : List Nat := (List.range 20).map (optWord s p rp)

/-- The arrays that an instruction uses: word index, bytes and alignment (R182, R185). -/
def optArrays (w : IWord) (n : Nat) : List (Nat × Nat × Nat) :=
  let f := fmtC (ifld w 69 4)
  let gw := if ibit w 64 then 2 else 4
  [(0, 4 * n, 4), (1, 4 * n, 4)] ++ (if ifld w 73 2 = 0 then [(2, 4 * n, 4)] else [])
    ++ [(3, gw * n, gw), (4, elemBytes f n, if 16 ≤ fmtWidth f then fmtWidth f / 8 else 1)]
    ++ (if ibit w 66 then [(5, (n + (if ibit w 65 then 31 else 15)) / (if ibit w 65 then 32 else 16), 1)] else [])

/-- R182: RSV bits of a parameter block; mode 1 does not read V_ADDR (R183). -/
def optRsv (s : State) (p : Nat) (w : IWord) (rp : Nat) : Bool :=
  [0, 1, 2, 3, 4, 5].any (fun i => !(i == 2 && ifld w 73 2 == 1) && optWord s p rp i / 2 ^ 22 != 0)
    || (readBytes s (tsAddr p (rp + 80)) 48).any (·.b != 0)

/-- The fault of a parameter block (R185, R189). -/
def optFault (s : State) (p : Nat) (w : IWord) (rp : Nat) : Option (Nat × Nat) :=
  let n := optWord s p rp 6
  let start (x : Nat × Nat × Nat) : Nat := let a := optWord s p rp x.1; if x.1 = 4 then rowStart (fmtC (ifld w 69 4)) a else a
  if rp % 128 ≠ 0 then some (0x0B03, rp)
  else match firstBad rp (tileRead s p rp 128) with
  | some a => some (0x0303, a)
  | none =>
    if optRsv s p w rp then some (0x0B01, rp)
    else if n = 0 ∨ 262144 < n then some (0x0B02, rp + 24)
    else (optArrays w n).findSome? (fun x =>
      if start x % x.2.2 ≠ 0 then some (0x0B03, start x)
      else if 0x400000 < start x + x.2.1 then some (0x0B02, start x) else none)

/-- The new values of one element: master, first moment, second moment, and the gradient as scaled (R183). -/
def optElem (rev mode : Nat) (h : Nat → Word) (w m v g : Word) : Word × Word × Word × Word :=
  let g := fmul g (h 15)
  let (m', v', u) :=
    if mode = 0 then
      let m' := ffma (h 9) m (fmul (h 10) g)
      let v' := ffma (h 11) v (fmul (h 12) (fmul g g))
      let mh := fmul m' (h 16)
      let vh := fmul v' (h 17)
      let r := if fvEq (f32 vh) fvZero then 0 else fmul vh (sfu rev 3 vh)
      (m', v', fmul mh (sfu rev 2 (fadd r (h 13))))
    else
      let m' := ffma (h 9) m g
      (m', v, m')
  (fsub w (fmul (h 8) (fadd u (fmul (h 14) w))), m', v', g)

/-- Word i of a block that has been read. -/
def blkWord (blk : List Nat) (i : Nat) : Nat := (blk[i]?).getD 0

/-- Element i: it is read, and V, W and M are written, in that order (R183); the new master is appended. -/
def optOne (p : Nat) (w : IWord) (blk : List Nat) (acc : State × List Word) (i : Nat) : State × List Word :=
  let s := acc.1
  let mode := ifld w 73 2
  let rd (k : Nat) : Word := BitVec.ofNat 32 (readNat s (tsAddr p (blkWord blk k + 4 * i)) 4)
  let grad : Word := if ibit w 64 then widenElem .bf16 (readNat s (tsAddr p (blkWord blk 3 + 2 * i)) 2) none else rd 3
  let e := optElem (sfuRev s p) mode (fun k => BitVec.ofNat 32 (blkWord blk k)) (rd 0) (rd 1) (rd 2) grad
  let wr (s : State) (k : Nat) (v : Word) : State := tileWrite s p (blkWord blk k + 4 * i) (good (bytesOf 4 v.toNat))
  let s := if mode = 0 then wr s 2 e.2.2.1 else s
  let s := wr (wr s 0 e.1) 1 e.2.1
  let g := f32 e.2.2.2
  (if fvIsNan g || fvIsInf g then setF s VX_FLAGS_NANG p 1 else s, acc.2 ++ [e.1])

/-- The elements whose copy is written together: a scale block, whose scale needs all of them, else those that fill whole bytes
(log entry 124). -/
def optUnitLen (w : IWord) : Nat :=
  if ibit w 66 then (if ibit w 65 then 32 else 16)
  else match fmtWidth (fmtC (ifld w 69 4)) with | 4 => 2 | 6 => 4 | _ => 1

/-- R183: `n` elements from element `i0` on, in order, then their copy C. -/
def optUnit (p : Nat) (w : IWord) (blk : List Nat) (s : State) (i0 n : Nat) : State :=
  let f := fmtC (ifld w 69 4)
  let (s, ws) := (List.range n).foldl (fun acc i => optOne p w blk acc (i0 + i)) (s, [])
  let sc := if ibit w 66 then deriveScale f (ws.map f32) else (0, 0)
  let co : Coord := ⟨blkWord blk 7, 0, blkWord blk 18 % 65536, blkWord blk 18 / 65536, blkWord blk 19⟩
  let conv := ws.zipIdx.map (fun x =>
    if f = .fp32 then (x.1.toNat, noFlags)
    else encodeNum f (fvScale sc.2 (f32 x.1)) (if ibit w 68 then some (rng16 (vxKey s p) 2 co (i0 + x.2)) else none) (ibit w 67))
  let s := tileWrite s p (rowStart f (blkWord blk 4) + elemBytes f i0) (good (packElems f (conv.map (·.1))))
  let s := if ibit w 66 then tileWrite s p (blkWord blk 5 + i0 / optUnitLen w) (good [BitVec.ofNat 8 sc.1]) else s
  orVxFlags s p ((conv.map (·.2)).foldl orFlags noFlags)

/-- One group of at most 128 elements from element `i0` on; a fault when it meets poison (R190). -/
def optGroup (s : State) (p : Nat) (w : IWord) (blk : List Nat) (i0 n : Nat) : VxRes :=
  let mode := ifld w 73 2
  let gw := if ibit w 64 then 2 else 4
  let a (i : Nat) : Nat := blkWord blk i
  let spans := [(a 0 + 4 * i0, 4 * n), (a 1 + 4 * i0, 4 * n), (a 3 + gw * i0, gw * n)] ++ (if mode = 0 then [(a 2 + 4 * i0, 4 * n)] else [])
  match spans.findSome? (fun x => firstBad x.1 (tileRead s p x.1 x.2)) with
  | some a => (s, some (0x0303, a))
  | none =>
    let k := optUnitLen w
    let s' := (List.range ((n + k - 1) / k)).foldl (fun s u => optUnit p w blk s (i0 + k * u) (min k (n - k * u))) s
    let s' := if mode = 0 then countSfu s' p (2 * n) else s'
    (if ibit w 68 ∧ fmtC (ifld w 69 4) ≠ .fp32 then addStat s' VX_RNG_CALLS p (rngCalls (a 7 + i0) n) else s', none)

/-- The groups in order, up to one that faults. -/
def optGroups (p : Nat) (w : IWord) (blk : List Nat) (n : Nat) : Nat → State → VxRes
  | 0, s => (s, none)
  | k + 1, s =>
    let i0 := 128 * ((n + 127) / 128 - (k + 1))
    match optGroup s p w blk i0 (min 128 (n - i0)) with
    | (s, none) => optGroups p w blk n k s
    | r => r

/-- VX_OPT: nothing later issues until it completes (R184). -/
def doVxOpt (s : State) (p : Nat) : State :=
  vxRun s p 0x70 (fun w => 1 < ifld w 73 2 || (fmtOfCode (ifld w 69 4)).isNone || (ibit w 66 && !mayScale (ifld w 69 4)) || ifld w 0 64 != 0)
    (fun _ => []) (fun _ => []) (fun s w =>
    let rp := bits (vxG s p w 75).toNat 0 22
    match optFault s p w rp with
    | some x => (s, some x)
    | none => let n := optWord s p rp 6; optGroups p w (optBlock s p rp) n ((n + 127) / 128) s)

/-- VX_RNG_KEY_WRITE: R173. -/
def writeRngKey (s : State) (p : Nat) (v : DWord) : State :=
  match (getEng s (vxEng p)).st with
  | .halted | .loaded | .quiesced => setF s VX_RNG_KEY_KEY p v.toNat
  | _ => s

end Sys2Proof.Machine
end

