-- ==== Sys2Proof/Machine/Ce.lean ====
section
/-! DEFINITION. The collective engines (chapter 12): rings, blocks, reduction arithmetic, pieces and credits, point-to-point
transfers, the ring pass, gradient statistics and the timeouts. -/
namespace Sys2Proof.Machine

def ceEng (c : Nat) : Eng := .ce (Fin.ofNat 4 c)
def modCe (s : State) (c : Nat) (f : Ce → Ce) : State := setCe s c (f (getCe s c))
def setOp (s : State) (c : Nat) (o : CeOp) : State := modCe s c (fun x => { x with op := some o })
def modOp (s : State) (c : Nat) (f : CeOp → CeOp) : State := modCe s c (fun x => { x with op := x.op.map f })

/-! Elements (R389, R395). -/

def isReduce (o : CeOp) : Bool := o.op == 0xA0 || o.op == 0xA1

/-- The format of elements in memory, and of partials as they travel. -/
def ceMem (o : CeOp) : Fmt := if o.int then .int32 else (fmtOfCode o.fmt).getD .fp32
def ceWire (o : CeOp) : Fmt := if o.int then .int32 else if o.wide then .fp32 else ceMem o

/-- Bytes of an element in memory and on the wire; copies move bytes (R389; log entry 44 for ce.allgather). -/
def ceEs (o : CeOp) : Nat := if isReduce o then fmtWidth (ceMem o) / 8 else 1
def ceWs (o : CeOp) : Nat := if isReduce o then fmtWidth (ceWire o) / 8 else 1

/-- R395: a memory element as it travels: widened exactly when WIDE is 1. -/
def toWire (o : CeOp) (x : Nat) : Nat := if o.wide && !o.int then rneCode .fp32 (decodeNum (ceMem o) x) else x

/-- R395: final, and whether it overflowed. -/
def ceFinal (o : CeOp) (a : Nat) : Nat × Bool :=
  if o.wide && !o.int then
    let (c, fl) := encodeNum (ceMem o) (decodeNum .fp32 a) none false
    (c, fl.ovf)
  else (a, false)

/-- What add sets in CE_FLAGS: OVF, IOVF. -/
structure CeFlag where
  ovf : Bool
  iovf : Bool
  deriving DecidableEq, Repr

/-- R395: INT32. -/
def ceAddInt (fn a x : Nat) : Nat × CeFlag :=
  let ia := sext 32 a
  let ix := sext 32 x
  match fn with
  | 0 => (wrapInt 32 (ia + ix), ⟨false, decide (sext 32 (wrapInt 32 (ia + ix)) ≠ ia + ix)⟩)
  | 1 => (if ia < ix then x else a, ⟨false, false⟩)
  | _ => (if ix < ia then x else a, ⟨false, false⟩)

/-- R395: the FP32 operation. -/
def ceAdd32 (fn : Nat) (a x : Word) : Nat × Bool :=
  match fn with
  | 0 => let (c, fl) := encodeNum .fp32 (fvAdd (f32 a) (f32 x)) none false; (c, fl.ovf)
  | 1 => ((fminmax true a x).toNat, false)
  | _ => ((fminmax false a x).toNat, false)

/-- R395: add, on wire elements. -/
def ceAdd (o : CeOp) (a x : Nat) : Nat × CeFlag :=
  if o.int then ceAddInt o.fn a x
  else
    let w := ceWire o
    let up (v : Nat) : Word := BitVec.ofNat 32 (rneCode .fp32 (decodeNum w v))
    match w with
    | .fp32 => let (c, ov) := ceAdd32 o.fn (BitVec.ofNat 32 a) (BitVec.ofNat 32 x); (c, ⟨ov, false⟩)
    | _ =>
      let (c, ov) := ceAdd32 o.fn (up a) (up x)
      let (d, fl) := encodeNum w (decodeNum .fp32 c) none false
      (d, ⟨ov || fl.ovf, false⟩)

/-- The elements of a byte string, each with its poison. -/
def elemsOf (w : Nat) (bs : List PByte) : List (Nat × Bool) := (chunksOf w bs.length bs).map (fun c => (ofBytes (c.map (·.b)), c.any (·.bad)))
def elemBytesOf (w : Nat) (xs : List (Nat × Bool)) : List PByte := xs.flatMap (fun x => (bytesOf w x.1).map (fun b => ⟨b, x.2⟩))

/-- Memory elements to the wire, and back through final. -/
def wireOf (o : CeOp) (bs : List PByte) : List PByte := elemBytesOf (ceWs o) ((elemsOf (ceEs o) bs).map (fun x => (toWire o x.1, x.2)))
def finalOf (o : CeOp) (bs : List PByte) : List PByte := elemBytesOf (ceEs o) ((elemsOf (ceWs o) bs).map (fun x => ((ceFinal o x.1).1, x.2)))

/-- R395: add of two wire strings. -/
def addWire (o : CeOp) (acc x : List PByte) : List PByte :=
  elemBytesOf (ceWs o) (((elemsOf (ceWs o) acc).zip (elemsOf (ceWs o) x)).map (fun p => ((ceAdd o p.1.1 p.2.1).1, p.1.2 || p.2.2)))

/-- R395, R397: the flags that an add sets, and that a final sets. -/
def addFlags (s : State) (c : Nat) (o : CeOp) (acc x : List PByte) : State :=
  let ps := (elemsOf (ceWs o) acc).zip (elemsOf (ceWs o) x)
  let s := if ps.any (fun p => (ceAdd o p.1.1 p.2.1).2.ovf) then setF s CE_FLAGS_OVF c 1 else s
  let s := if ps.any (fun p => (ceAdd o p.1.1 p.2.1).2.iovf) then setF s CE_FLAGS_IOVF c 1 else s
  if ps.any (fun p => p.1.2 || p.2.2) then setF s CE_FLAGS_POISON c 1 else s

def finalFlags (s : State) (c : Nat) (o : CeOp) (acc : List PByte) : State :=
  let es := elemsOf (ceWs o) acc
  let s := if es.any (fun x => (ceFinal o x.1).2) then setF s CE_FLAGS_OVF c 1 else s
  if es.any (·.2) then setF s CE_FLAGS_POISON c 1 else s

/-! Blocks and steps (R390, R392). -/

/-- Pieces of a buffer (R398). -/
def cePieces (n : Nat) : Nat := (n + 255) / 256

/-- R390: the elements of the + half. -/
def ceHalf (o : CeOp) : Nat := if o.dir then min o.n (64 * ((o.n + 127) / 128)) else o.n

/-- R390: the first source element of block b of a half, and its count. -/
def ceBlk (o : CeOp) (l : Nat) (plus : Bool) (b : Nat) : Nat × Nat :=
  let h := ceHalf o
  if o.op = 0xA1 then (if plus then (b * o.n, h) else (b * o.n + h, o.n - h))
  else
    let m := if plus then h else o.n - h
    let q := 64 * ((m + 64 * l - 1) / (64 * l))
    let lo := min (b * q) m
    ((if plus then 0 else h) + lo, min ((b + 1) * q) m - lo)

/-- The result element of a source element of block b. -/
def ceDstElem (o : CeOp) (b e : Nat) : Nat := if o.op = 0xA1 then e - b * o.n else e

/-- The halves of a reduction: their direction and first step. -/
def ceHalves (o : CeOp) (l : Nat) : List (Bool × Nat) := if o.dir then [(true, 0), (false, ceSteps o l)] else [(true, 0)]

/-- The half of a step, and the step within it. -/
def ceStepOf (o : CeOp) (l step : Nat) : Bool × Nat := if step < ceSteps o l then (true, step) else (false, step - ceSteps o l)

/-- R392: the block that rank r sends at a step of a half of the ring algorithm. -/
def ceSendBlk (l r : Nat) (plus : Bool) (st : Nat) : Nat :=
  if st + 1 < l then (if plus then (r + 2 * l - st - 1) % l else (r + st + 1) % l)
  else
    let t := st + 1 - l
    if plus then (r + l - t) % l else (r + t) % l

/-- The neighbour toward which a half moves, and the one it comes from. -/
def ceNext (l r : Nat) (plus : Bool) : Nat := if plus then (r + 1) % l else (r + l - 1) % l
def cePrev (l r : Nat) (plus : Bool) : Nat := if plus then (r + l - 1) % l else (r + 1) % l

/-- Pieces of block b in the reduce phase and in the copy phase; the 16 bytes of R406 are a piece of their own after them
(log entry 46). -/
def ceRedPieces (o : CeOp) (l : Nat) (plus : Bool) (b : Nat) : Nat := cePieces ((ceBlk o l plus b).2 * ceWs o)
def ceCopyPieces (o : CeOp) (l : Nat) (plus : Bool) (b : Nat) : Nat := ceRedPieces o l plus b + (if o.stat then 1 else 0)

/-- The ranks of a ring but one. -/
def ceOthers (l r : Nat) : List Nat := (List.range l).filter (· != r)

def xfersOf (xs : List (Nat × Nat × Nat)) : List CeXfer := (xs.filter (fun x => x.2.2 != 0)).map (fun x => ⟨x.1, x.2.1, x.2.2, 0, []⟩)

/-- R392: every transfer that rank r receives, as (rank, step, pieces). -/
def ceRxPlan (o : CeOp) (l r : Nat) : List (Nat × Nat × Nat) :=
  match o.op with
  | 0xA2 => (ceOthers l r).map (fun k => (k, 0, cePieces o.n))
  | 0xA3 => if o.root = r then [] else [(o.root, 0, cePieces o.n)]
  | 0xA4 => []
  | 0xA5 => [(o.peer, 0, cePieces o.n)]
  | 0xA6 => (List.range (l - 1)).map (fun t => (cePrev l r (!o.dir), t, cePieces o.n))
  | _ => (ceHalves o l).flatMap (fun h =>
      if o.alg then (ceOthers l r).flatMap (fun k => (k, h.2, ceRedPieces o l h.1 r) ::
        (if o.op = 0xA0 then [(k, h.2 + 1, ceCopyPieces o l h.1 k)] else []))
      else (List.range (ceSteps o l)).map (fun st =>
        let k := cePrev l r h.1
        let b := ceSendBlk l k h.1 st
        (k, h.2 + st, if st + 1 < l then ceRedPieces o l h.1 b else ceCopyPieces o l h.1 b)))

/-- R392: every transfer that rank r sends. -/
def ceTxPlan (o : CeOp) (l r : Nat) : List (Nat × Nat × Nat) :=
  match o.op with
  | 0xA2 => (ceOthers l r).map (fun k => (k, 0, cePieces o.n))
  | 0xA3 => if o.root = r then (ceOthers l r).map (fun k => (k, 0, cePieces o.n)) else []
  | 0xA4 => [(o.peer, 0, cePieces o.n)]
  | 0xA5 => []
  | 0xA6 => (List.range (l - 1)).map (fun t => (ceNext l r (!o.dir), t, cePieces o.n))
  | _ => (ceHalves o l).flatMap (fun h =>
      if o.alg then (ceOthers l r).flatMap (fun k => (k, h.2, ceRedPieces o l h.1 k) ::
        (if o.op = 0xA0 then [(k, h.2 + 1, ceCopyPieces o l h.1 r)] else []))
      else (List.range (ceSteps o l)).map (fun st =>
        let b := ceSendBlk l r h.1 st
        (ceNext l r h.1, h.2 + st, if st + 1 < l then ceRedPieces o l h.1 b else ceCopyPieces o l h.1 b)))

/-- A stream of local pieces. -/
def localOut (kind step : Nat) (far : Option Nat) (plus : Bool) (off len : Nat) (lim : Bool) : CeOut :=
  ⟨kind, step, far, plus, off, len, 0, none, lim, none⟩

/-- R392: what rank r sends from its own data. Kind 7 is a copy within the GW7. -/
def ceTodoPlan (o : CeOp) (l r : Nat) : List CeOut :=
  let own : CeOut := localOut 7 0 none true 0 (o.n * ceWs o) false
  let xs : List CeOut := match o.op with
    | 0xA2 => [own, localOut 1 0 none true 0 o.n false]
    | 0xA3 => if o.root = r then [own, localOut 1 0 none true 0 o.n false] else []
    | 0xA4 => [localOut 1 0 (some o.peer) (!o.dir) 0 o.n true]
    | 0xA5 => []
    | 0xA6 => if l = 1 then [] else [localOut 1 0 (some (ceNext l r (!o.dir))) (!o.dir) 0 o.n true]
    | _ =>
      if l = 1 then [own]
      else (ceHalves o l).flatMap (fun (h : Bool × Nat) =>
        if o.alg then (ceOthers l r).map (fun k =>
          let b := ceBlk o l h.1 k
          localOut 0 h.2 (some k) h.1 b.1 (b.2 * ceWs o) true)
        else
          let b := ceBlk o l h.1 (ceSendBlk l r h.1 0)
          [localOut 0 h.2 (some (ceNext l r h.1)) h.1 b.1 (b.2 * ceWs o) true])
  xs.filter (fun x => x.len != 0 && (l != 1 || x.kind == 7))

/-- The local source bytes that the operation reads, for NSIG (R413). -/
def ceReadPlan (o : CeOp) (l r : Nat) : Nat :=
  match o.op with
  | 0xA0 => o.n * ceEs o
  | 0xA1 => o.n * l * ceEs o
  | _ => sumNat ((ceTodoPlan o l r).map (·.len))

/-! Buffers (R388). -/

/-- What an access to a buffer answers; `stall` also of one that waits at its slices (R322, R603), which is tried again. -/
inductive CeAns
  | ok (d : List PByte)
  | stall (vpn : Nat)
  | bad (code addr space : Nat)
  deriving DecidableEq, Repr

/-- The physical tile of a space 2 buffer. -/
def ceTile (s : State) (base : Nat) : Option Nat := physOf s (bits base 40 8)

def ceRead (s : State) (sp base off n hint : Nat) : State × CeAns :=
  if sp = 1 then
    let a := (base + off) % 2 ^ 40
    match jobCheck s none a n false with
    | (s, .ok segs) =>
      if memReset s segs then (s, .bad 0x0402 a 1)
      else if slicesWait s segs then (s, .stall (a / 2 ^ 21))
      else (segLines s segs false hint, .ok (segLoad s segs))
    | (s, .stall v _) => (s, .stall v)
    | (s, .fault c) => (s, .bad c a 1)
  else
    let a := bits base 0 22 + off
    match ceTile s base with
    | none => (s, .bad 0x0101 a 2)
    | some p => if isolated s p then (s, .bad 0x0402 a 2) else (s, .ok (tileRead s p a n))

def ceWrite (s : State) (sp base off hint : Nat) (bs : List PByte) : State × CeAns :=
  if sp = 1 then
    let a := (base + off) % 2 ^ 40
    match jobCheck s none a bs.length true with
    | (s, .ok segs) =>
      if memReset s segs then (s, .bad 0x0402 a 1)
      else if writeWaits s segs then (s, .stall (a / 2 ^ 21))
      else (segStore (segLines s segs true hint) segs bs, .ok [])
    | (s, .stall v _) => (s, .stall v)
    | (s, .fault c) => (s, .bad c a 1)
  else
    let a := bits base 0 22 + off
    match ceTile s base with
    | none => (s, .bad 0x0101 a 2)
    | some p => if isolated s p then (s, .bad 0x0402 a 2) else (tileWrite s p a bs, .ok [])

/-- A whole buffer, in parts of 256 bytes. -/
def ceReadAll (sp base hint : Nat) : Nat → Nat → Nat → State → State × CeAns
  | 0, _, _, s => (s, .ok [])
  | fuel + 1, off, n, s =>
    if n = 0 then (s, .ok [])
    else match ceRead s sp base off (min n 256) hint with
      | (s, .ok d) => match ceReadAll sp base hint fuel (off + 256) (n - min n 256) s with
        | (s, .ok e) => (s, .ok (d ++ e))
        | r => r
      | r => r

/-! Faults, credits and packets (R398 to R401, R409, R410). -/

/-- R410: the operation faults; DETAIL names the peer's rank, 0xFF for none. -/
def ceFault (s : State) (c code addr space peer : Nat) : State :=
  match (getCe s c).op with
  | some o => faultEngine s (ceEng c) code o.tag o.pc false addr space peer
  | none => s

/-- R388, R146: an access answered with a stall or a fault. -/
def ceTrouble (s : State) (c : Nat) (a : CeAns) : State :=
  match a with
  | .ok _ => s
  | .stall v => modOp s c (fun o => { o with stall := some ⟨v, s.gsc, 0⟩ })
  | .bad code addr space => ceFault s c code addr space 0xFF

/-- R398: ADDR of a piece. -/
def ceAddr (o : CeOp) (r step : Nat) : Nat := step + 2 ^ 12 * o.sig + 2 ^ 24 * r

/-- R400: the direction whose credits a piece to rank k uses: that of the neighbour; on a ring of two, and to a rank that is no neighbour,
that of its half or of its transfer (log entry 47). -/
def ceOutDir (l r k : Nat) (plus : Bool) : Bool := if l ≠ 2 ∧ k = (r + 1) % l then true else if l ≠ 2 ∧ k = (r + l - 1) % l then false else plus

/-- R400: the first grant of an engine: its whole receive buffer of each direction. -/
def ceGrant (s : State) (c : Nat) : State :=
  if (getCe s c).granted then s
  else modCe s c (fun x => { x with granted := true, freedP := x.freedP + 4096, freedM := x.freedM + 4096 })

/-- The engine works on its operation: its program runs or waits and has not been asked to quiesce (R411). -/
def ceActive (s : State) (c : Nat) : Bool :=
  let g := getEng s (ceEng c)
  (g.st = .running || g.st = .waiting) && !g.quiesceReq && !isolated s (96 + c)

/-- Local source bytes have been read; after the last of them NSIG falls (R413). -/
def ceNoteRead (s : State) (c n : Nat) : State :=
  match (getCe s c).op with
  | none => s
  | some o =>
    let left := o.readLeft - n
    if left = 0 ∧ o.nsig.isSome then
      (match homeOf s (ceEng c) with
       | some p => signalUnit (setOp s c { o with readLeft := 0, nsig := none }) p o.nsig o.tag
       | none => s)
    else setOp s c { o with readLeft := left }

/-! Statistics (R406). -/

def nan64 : DWord := 0x7FF8000000000000

/-- R406: one addition; a NaN or an infinity makes the sum NaN. -/
def statAdd (a b : DWord) : DWord := if fvIsInf (f64 a) || fvIsInf (f64 b) then nan64 else f64Bits (fvAdd (f64 a) (f64 b))

/-- R406: the sum of squares of elements of a format. -/
def sumSq (f : Fmt) (es : List (Nat × Bool)) : DWord :=
  es.foldl (fun acc e =>
    let v := decodeNum f e.1
    if e.2 || fvIsNan v || fvIsInf v || fvIsNan (f64 acc) then nan64 else f64Bits (fvAdd (f64 acc) (fvMul v v))) 0

/-- The key of the own LOC term in `ss`. -/
def locKey : Nat := 128

def hasSs (o : CeOp) (k : Nat) : Bool := o.ss.any (fun x => x.1 == k)
def ssOf (o : CeOp) (k : Nat) : Nat × Nat := ((o.ss.find? (fun x => x.1 == k)).map (·.2)).getD (0, 0)

/-- R406: the own LOC term, over the contributions as they stand before any is consumed. -/
def ceLoc (s : State) (c : Nat) : State :=
  match (getCe s c).op with
  | none => s
  | some o =>
    if !o.stat || hasSs o locKey then s
    else
      let n := o.n * ceEs o
      match ceReadAll o.ssp o.src o.sh (n / 256 + 1) 0 n s with
      | (s, .ok d) => modOp s c (fun o => { o with ss := o.ss ++ [(locKey, 0, (sumSq (ceMem o) (elemsOf (ceEs o) d)).toNat)] })
      | (s, a) => ceTrouble s c a

/-- R406: the own block of a half is reduced: its sum of squares goes with it in the copy phase. -/
def ceTail (s : State) (c : Nat) (h : Bool × Nat) : State :=
  let l := ceSize s c
  let r := ceRank s c
  match (getCe s c).op with
  | none => s
  | some o =>
    let key := if h.1 then r else 64 + r
    let last := if o.alg then h.2 else h.2 + l - 2
    if !o.stat || o.stall.isSome || l = 1 || hasSs o key || !hasSs o locKey
        || o.rx.any (fun x => x.step == last && x.cnt != x.total) then s
    else
      let b := ceBlk o l h.1 r
      let n := b.2 * ceEs o
      match ceReadAll o.dsp o.dst o.dh (n / 256 + 1) (b.1 * ceEs o) n s with
      | (s, .ok d) =>
        let sq := (sumSq (ceMem o) (elemsOf (ceEs o) d)).toNat
        let loc := (ssOf o locKey).2
        let out : CeOut := ⟨1, last + 1, if o.alg then none else some (ceNext l r h.1), h.1, 0, 16, ceRedPieces o l h.1 r,
          some (good (bytesOf 8 sq ++ bytesOf 8 loc)), false, none⟩
        modOp s c (fun o => { o with ss := o.ss ++ [(key, sq, loc)], todo := o.todo ++ [out] })
      | (s, a) => ceTrouble s c a

def ceTails (s : State) (c : Nat) : State :=
  match (getCe s c).op with
  | some o => if o.stat then (ceHalves o (ceSize s c)).foldl (fun s h => ceTail s c h) s else s
  | none => s

/-! Receiving pieces (R399). -/

/-- The number of a piece within its transfer: PSEQ; the 16 bytes of R406 that follow 65,536 pieces have the number 65,536, which PSEQ shows
modulo 65,536 (log entry 46). -/
def ceNumber (o : CeOp) (x : CeXfer) (pkt : Packet) : Nat :=
  if o.stat ∧ x.total = 65537 ∧ pkt.pseq = 0 ∧ pkt.payload.length = 16 then 65536 else pkt.pseq.toNat

/-- R373, R374, R401: a piece of a transfer has been applied; a piece with LAST records the total. A piece that is forwarded keeps its slot. -/
def ceApplied (s : State) (c : Nat) (pkt : Packet) (forwarded : Bool) : State :=
  let k := bits pkt.addr.toNat 24 6
  let step := pkt.addr.toNat % 4096
  match (getCe s c).op with
  | none => s
  | some o =>
    match o.rx.find? (fun x => x.far == k && x.step == step) with
    | none => s
    | some x =>
      let n := ceNumber o x pkt
      let x := { x with cnt := x.cnt + 1, seen := x.seen ++ [n], total := if pkt.last then n + 1 else x.total }
      let s := addStat s CE_PIECES c 1
      let s := if forwarded then s else ceFree s c pkt
      let s := modOp s c (fun o => { o with
        rx := o.rx.map (fun y => if y.far = k ∧ y.step = step then x else y)
        step := if x.cnt = x.total then max o.step (step + 1) else o.step })
      if x.cnt = x.total ∨ (pkt.mc ∧ x.cnt % 64 = 0) then
        sendPkt s (cePacket s c 4 o.num (x.cnt - 1) (ceAddr o (ceRank s c) step) k [])
      else s

/-- A piece to forward (R398), with the slot that it holds. -/
def forward (kind step : Nat) (far : Option Nat) (plus : Bool) (pseq : Nat) (d : List PByte) (slot : Option (Nat × Bool)) : CeOut :=
  ⟨kind, step, far, plus, 0, d.length, pseq, some d, false, slot⟩

def ceQueue (s : State) (c : Nat) (x : CeOut) : State := modOp s c (fun o => { o with todo := o.todo ++ [x] })

/-- A piece that cannot be applied yet waits with its operation. -/
def ceHold (s : State) (c : Nat) (pkt : Packet) : State := modOp s c (fun o => { o with early := o.early ++ [pkt] })

/-- A reduced piece of the own block is written; an all-reduce copies it on. -/
def ceLand (s : State) (c : Nat) (o : CeOp) (plus : Bool) (base st pseq : Nat) (acc : List PByte) (pkt : Packet) : State :=
  let l := ceSize s c
  let r := ceRank s c
  let e := (ceBlk o l plus r).1 + pseq * 256 / ceWs o
  let out := finalOf o acc
  match ceWrite s o.dsp o.dst (ceDstElem o r e * ceEs o) o.dh out with
  | (s, .ok _) =>
    let on := o.op == 0xA0 && !o.alg
    let s := ceApplied (finalFlags s c o acc) c pkt on
    if o.op = 0xA0 then
      ceQueue s c (forward 1 (base + st + 1) (if o.alg then none else some (ceNext l r plus)) plus pseq (wireOf o out)
        (if on then ceSlotOf s c pkt else none))
    else s
  | (s, a) => ceHold (ceTrouble s c a) c pkt

/-- R392, R394: a reduce piece of the ring algorithm. -/
def ceRingReduce (s : State) (c : Nat) (o : CeOp) (pkt : Packet) : State :=
  let l := ceSize s c
  let r := ceRank s c
  let step := pkt.addr.toNat % 4096
  let (plus, st) := ceStepOf o l step
  let b := ceSendBlk l (cePrev l r plus) plus st
  let n := pkt.payload.length / ceWs o
  let e := (ceBlk o l plus b).1 + pkt.pseq.toNat * 256 / ceWs o
  match ceRead s o.ssp o.src (e * ceEs o) (n * ceEs o) o.sh with
  | (s, .ok d) =>
    let x := wireOf o d
    let acc := addWire o pkt.payload x
    if st + 2 < l then
      let s := ceNoteRead (ceApplied (addFlags s c o pkt.payload x) c pkt true) c d.length
      ceQueue s c (forward 0 (step + 1) (some (ceNext l r plus)) plus pkt.pseq.toNat acc (ceSlotOf s c pkt))
    else
      let before := ((getCe s c).op.map (fun o => o.early.length)).getD 0
      let s := ceLand s c o plus (step - st) st pkt.pseq.toNat acc pkt
      if ((getCe s c).op.map (fun o => o.early.length)).getD 0 = before then ceNoteRead (addFlags s c o pkt.payload x) c d.length else s
  | (s, a) => ceHold (ceTrouble s c a) c pkt

/-- The rank whose contribution is next in the order of R394 at owner r, after `cnt` others. -/
def ceTurn (l r cnt : Nat) (plus : Bool) : Nat := if plus then (r + 1 + cnt) % l else (r + 2 * l - 1 - cnt) % l

/-- The key of a partial: its half and its piece number. -/
def partKey (plus : Bool) (pseq : Nat) : Nat := if plus then pseq else 65536 + pseq

/-- R394, R396: a contribution of the direct algorithm at its owner. -/
def ceDirectReduce (s : State) (c : Nat) (o : CeOp) (pkt : Packet) : State :=
  let l := ceSize s c
  let r := ceRank s c
  let step := pkt.addr.toNat % 4096
  let (plus, st) := ceStepOf o l step
  let pseq := pkt.pseq.toNat
  let key := partKey plus pseq
  let old := o.parts.find? (fun p => p.pseq == key)
  let cnt := (old.map (·.cnt)).getD 0
  let n := pkt.payload.length / ceWs o
  let e := (ceBlk o l plus r).1 + pseq * 256 / ceWs o
  let rest := o.parts.filter (fun p => p.pseq != key)
  if o.ord ∧ bits pkt.addr.toNat 24 6 ≠ ceTurn l r cnt plus then ceHold s c pkt
  else
    match (if (!o.ord && cnt == 0) || (o.ord && cnt + 2 == l) then ceRead s o.ssp o.src (e * ceEs o) (n * ceEs o) o.sh else (s, .ok [])) with
    | (s, .ok d) =>
      let own := wireOf o d
      let first := if o.ord then pkt.payload else addWire o own pkt.payload
      let acc := match old with
        | none => first
        | some p => addWire o p.acc pkt.payload
      let s := match old with
        | none => if o.ord then s else addFlags s c o own pkt.payload
        | some p => addFlags s c o p.acc pkt.payload
      let full := if o.ord then addWire o acc own else acc
      if cnt + 2 < l then
        ceApplied (modOp (ceNoteRead s c d.length) c (fun o => { o with parts := rest ++ [⟨key, cnt + 1, acc⟩] })) c pkt false
      else
        let before := ((getCe s c).op.map (fun o => o.early.length)).getD 0
        let s := ceLand s c o plus (step - st) st pseq full pkt
        if ((getCe s c).op.map (fun o => o.early.length)).getD 0 = before then
          modOp (ceNoteRead (if o.ord then addFlags s c o acc own else s) c d.length) c (fun o => { o with parts := rest })
        else s
    | (s, a) => ceHold (ceTrouble s c a) c pkt

/-- Where a copy piece lands, its bytes, and how it goes on: a piece of an all-reduce's copy phase. -/
def ceCopyReduce (s : State) (c : Nat) (o : CeOp) (pkt : Packet) : State :=
  let l := ceSize s c
  let r := ceRank s c
  let step := pkt.addr.toNat % 4096
  let (plus, st) := ceStepOf o l step
  let b := if o.alg then bits pkt.addr.toNat 24 6 else ceSendBlk l (cePrev l r plus) plus st
  let pseq := match o.rx.find? (fun x => x.far == bits pkt.addr.toNat 24 6 && x.step == step) with | some x => ceNumber o x pkt | none => pkt.pseq.toNat
  let on := !o.alg && st + 1 != ceSteps o l
  let onward (s : State) : State :=
    if on then ceQueue s c (forward 1 (step + 1) (some (ceNext l r plus)) plus pseq pkt.payload (ceSlotOf s c pkt)) else s
  if o.stat ∧ pseq = ceRedPieces o l plus b then
    let v (i : Nat) : Nat := ofBytes (((pkt.payload.drop i).take 8).map (·.b))
    onward (ceApplied (modOp s c (fun o => { o with ss := o.ss ++ [(if plus then b else 64 + b, v 0, v 8)] })) c pkt on)
  else
    let e := (ceBlk o l plus b).1 + pseq * 256 / ceWs o
    match ceWrite s o.dsp o.dst (e * ceEs o) o.dh (finalOf o pkt.payload) with
    | (s, .ok _) => onward (ceApplied s c pkt on)
    | (s, a) => ceHold (ceTrouble s c a) c pkt

/-- R405 step 1: the home counter of a block received. -/
def ceRctr (s : State) (c : Nat) (o : CeOp) (step : Nat) : State :=
  match (getCe s c).op, homeOf s (ceEng c) with
  | some x, some p => if x.rx.any (fun y => y.step == step && y.cnt == y.total) then signalUnit s p (some o.rctr) o.tag else s
  | _, _ => s

/-- Copy pieces of ce.allgather, ce.bcast, ce.recv and ce.ringpass. -/
def ceCopyBytes (s : State) (c : Nat) (o : CeOp) (pkt : Packet) : State :=
  let l := ceSize s c
  let k := bits pkt.addr.toNat 24 6
  let step := pkt.addr.toNat % 4096
  let pseq := pkt.pseq.toNat
  let at0 := match o.op with
    | 0xA2 => k * o.n
    | 0xA6 => step % o.nb * o.stride
    | _ => 0
  match ceWrite s o.dsp o.dst (at0 + 256 * pseq) o.dh pkt.payload with
  | (s, .ok _) =>
    let s := ceApplied s c pkt false
    if o.op = 0xA6 then
      let s := if step + 2 < l then ceQueue s c ⟨1, step + 1, some (ceNext l (ceRank s c) (!o.dir)), !o.dir, at0 + 256 * pseq, pkt.payload.length, pseq,
        none, false, none⟩ else s
      ceRctr s c o step
    else s
  | (s, a) => ceHold (ceTrouble s c a) c pkt

/-- R399: the piece belongs to the operation in progress. A transfer of ce.send and ce.recv is matched by its ranks and its order
(R404; log entry 49). -/
def ceMine (o : CeOp) (pkt : Packet) : Bool :=
  let k := bits pkt.addr.toNat 24 6
  let same := pkt.tid.toNat / 16 == o.num
  match pkt.tid.toNat % 16 with
  | 2 => if pkt.payload.isEmpty then o.op == 0xA6 && same else o.op == 0xA4 && k == o.peer && o.ready.isEmpty
  | 4 => if o.op = 0xA4 then k == o.peer else same
  | _ => if o.op = 0xA5 then o.rx.any (fun x => x.far == k && x.cnt != x.total) else o.op != 0xA4 && same

/-- R399: a piece for an operation that has not started. -/
def ceLater (x : Ce) (pkt : Packet) : Bool :=
  if pkt.tid.toNat % 16 = 2 ∧ !pkt.payload.isEmpty then true
  else
    let d := (pkt.tid.toNat / 16 + 4096 - x.opnum) % 4096
    0 < d && d < 2048

/-- R399, R404: SIG differs, or the two N of a point-to-point transfer: both ends fault. -/
def ceMismatch (s : State) (c : Nat) (pkt : Packet) : State :=
  ceFault (sendNack s pkt 0x0E03) c 0x0E03 0 0 (bits pkt.addr.toNat 24 6)

/-- Apply a piece to the operation in progress, or hold it. -/
def ceApply (s : State) (c : Nat) (pkt : Packet) : State :=
  match (getCe s c).op with
  | none => ceFree s c pkt
  | some o =>
    let k := bits pkt.addr.toNat 24 6
    let step := pkt.addr.toNat % 4096
    if bits pkt.addr.toNat 12 12 ≠ o.sig then ceMismatch s c pkt
    else match o.rx.find? (fun x => x.far == k && x.step == step) with
      | none => ceFree s c pkt
      | some x =>
        if x.seen.contains (ceNumber o x pkt) ∨ x.total ≤ ceNumber o x pkt then ceFree s c pkt
        else if o.stall.isSome ∨ (o.stat ∧ !hasSs o locKey) then ceHold s c pkt
        else if pkt.tid.toNat % 16 = 0 then
          (if !isReduce o then ceFree s c pkt else if o.alg then ceDirectReduce s c o pkt else ceRingReduce s c o pkt)
        else if isReduce o then ceCopyReduce s c o pkt
        else ceCopyBytes s c o pkt

/-- Try the pieces that wait with the operation again. -/
def ceRetry (c : Nat) : Nat → State → State
  | 0, s => s
  | fuel + 1, s =>
    match (getCe s c).op with
    | none => s
    | some o =>
      let s' := o.early.foldl (fun s p => ceApply s c p) (modOp s c (fun o => { o with early := [] }))
      if ((getCe s' c).op.map (fun o => o.early.length)).getD 0 < o.early.length then ceRetry c fuel s' else s'

/-! READY (R404, R405). -/

/-- R404: the packet of a ce.recv: it carries N in 4 bytes (log entry 50). -/
def ceSendReady (s : State) (c : Nat) (o : CeOp) (far step : Nat) (bs : List Byte) : State :=
  sendPkt s (cePacket s c 2 o.num 0 (ceAddr o (ceRank s c) step) far (good bs))

/-- R405 step 3: the READY of one step of a ring pass. -/
def cePassOne (s : State) (c : Nat) (o : CeOp) : State :=
  ceSendReady (setOp s c { o with passReady := o.passReady + 1, fctrOk := false }) c o (cePrev (ceSize s c) (ceRank s c) (!o.dir)) o.passReady []

/-- R405 step 3: the READY of the next steps of a ring pass. -/
def cePassReady (c : Nat) : Nat → State → State
  | 0, s => s
  | fuel + 1, s =>
    match (getCe s c).op with
    | none => s
    | some o =>
      let l := ceSize s c
      let t := o.passReady
      if o.op ≠ 0xA6 ∨ l ≤ t + 1 then s
      else if t < o.nb then cePassReady c fuel (cePassOne s c o)
      else if o.rx.any (fun x => x.step == t - o.nb && x.cnt != x.total) || o.todo.any (fun x => x.step == t - o.nb + 1) then s
      else if o.fctrOk then cePassReady c fuel (cePassOne s c o)
      else match homeOf s (ceEng c) with
        | none => ceFault s c 0x0101 0 0 0xFF
        | some p =>
          if 1 ≤ getCtr s p o.fctr then cePassReady c fuel (cePassOne (takeCtr s p o.fctr 1 (ceEng c)) c o)
          else
            let g := getEng s (ceEng c)
            if g.st = .running ∧ g.wait.isNone then
              modEng s (ceEng c) (fun g => { g with st := .waiting, wait := some ⟨.fctr, o.fctr, 1, s.gsc, 0⟩ })
            else s

/-- A READY for the operation in progress (R404, R405). -/
def ceTakeReady (s : State) (c : Nat) (o : CeOp) (pkt : Packet) : State :=
  if bits pkt.addr.toNat 12 12 ≠ o.sig ∨ (o.op = 0xA4 ∧ ofBytes (pkt.payload.map (·.b)) ≠ o.n) then ceMismatch s c pkt
  else setOp s c { o with ready := o.ready ++ [pkt.addr.toNat % 4096] }

/-! Starting an operation. -/

/-- A READY of a ce.recv. -/
def recvReady (p : Packet) : Bool := p.tid.toNat % 16 == 2 && !p.payload.isEmpty

/-- The held packets that belong to an operation, and the rest; a ce.send takes one READY, the first (R404). -/
def pickMine (o : CeOp) : Bool → List Packet → List Packet × List Packet
  | _, [] => ([], [])
  | rdy, p :: r =>
    let mine := ceMine o p && !(rdy && recvReady p)
    let (a, b) := pickMine o (rdy || (mine && recvReady p)) r
    if mine then (p :: a, b) else (a, p :: b)

/-- Give the operation the packets that came before it. -/
def ceTakeEarly (s : State) (c : Nat) : State :=
  match (getCe s c).op with
  | none => s
  | some o =>
    let (now, rest) := pickMine o false (getCe s c).early
    let s := modCe s c (fun x => { x with early := rest })
    now.foldl (fun s p => match (getCe s c).op with
      | none => s
      | some o => if p.tid.toNat % 16 = 2 then ceTakeReady s c o p else ceApply s c p) s

/-- What an operation can do without a piece arriving: a stall that has ended, pieces that came before the operation or while the engine stood still, held pieces, tails, READY. -/
def cePump (s : State) (c : Nat) : State :=
  if !ceActive s c then s
  else
    let s := match (getCe s c).op with
      | none => s
      | some o => match o.stall with
        | none => s
        | some x =>
          let held : Bool := match frameOfVpn s x.vpn with
            | some pfn => decide ((getFrame s pfn).rstate = 2 ∨ (getFrame s pfn).rstate = 3)
            | none => false
          if held then s else setOp s c { o with stall := none, since := s.gsc, acc := 0, heard := [] }
    let s := ceLoc (ceTakeEarly s c) c
    let s := ceRetry c (((getCe s c).op.map (fun o => o.early.length)).getD 0 + 1) s
    cePassReady c (ceSize s c) (ceTails s c)

/-- R398, R399: an operation starts. -/
def ceStart (s : State) (c : Nat) (q : QEntry) (o : CeOp) : State :=
  let l := ceSize s c
  let r := ceRank s c
  let n := ((getCe s c).opnum + 1) % 4096
  let o := { o with
    num := n, tag := iTag q.word, pc := q.idx, sctr := iSig q.word, since := s.gsc
    todo := ceTodoPlan o l r, rx := xfersOf (ceRxPlan o l r), tx := xfersOf (ceTxPlan o l r), readLeft := ceReadPlan o l r }
  let s := popFront s (ceEng c)
  let s := modCe (ceGrant s c) c (fun x => { x with opnum := n, op := some o })
  let s := ceFlush s c
  let s := if o.readLeft = 0 then ceNoteRead s c 0 else s
  let s := if o.op = 0xA5 then ceSendReady s c o o.peer 0 (bytesOf 4 o.n) else s
  cePump s c

def CeOp.zero : CeOp :=
  { op := 0, num := 0, tag := 0, pc := 0, sctr := none, ssp := 0, dsp := 0, src := 0, dst := 0, n := 0, fmt := 0, int := false,
    fn := 0, ord := false, dir := false, alg := false, wide := false, sig := 0, stat := false, nsig := none, sh := 0, dh := 0,
    root := 0, peer := 0, nb := 1, stride := 0, rctr := 0, fctr := 0, step := 0, todo := [], rx := [], tx := [], parts := [],
    early := [], ready := [], passReady := 0, fctrOk := false, readLeft := 0, ss := [], since := 0, acc := 0, heard := [], stall := none }

/-- R388: the buffer runs past 4 MiB. -/
def ceRange (sp base n : Nat) : Bool := sp == 2 && 0x400000 < bits base 0 22 + n

/-- R130, R388: a buffer's address word is badly formed for its space. -/
def ceWordBad (o : CeOp) (r : Nat) : Bool :=
  (o.op != 0xA5 && (o.op != 0xA3 || o.root == r) && spaceBad o.ssp (BitVec.ofNat 64 o.src)) || (o.op != 0xA4 && spaceBad o.dsp (BitVec.ofNat 64 o.dst))

/-- R388, R391: CE_ADDR_RANGE of an operation. A block whose pieces PSEQ cannot number is beyond the limit too (log entry 83). -/
def ceAddrBad (o : CeOp) (l r : Nat) : Bool :=
  let lim := if o.alg then 16384 else 16777216
  let long (n : Nat) : Bool := lim < n * ceEs o || 16777216 < n * ceWs o
  match o.op with
  | 0xA0 => (ceHalves o l).any (fun h => long (ceBlk o l h.1 0).2)
      || ceRange o.ssp o.src (o.n * ceEs o) || ceRange o.dsp o.dst (o.n * ceEs o)
  | 0xA1 => lim < o.n * ceEs o || (ceHalves o l).any (fun h => long (ceBlk o l h.1 0).2) || ceRange o.ssp o.src (o.n * l * ceEs o) || ceRange o.dsp o.dst (o.n * ceEs o)
  | 0xA2 => lim < o.n || ceRange o.ssp o.src o.n || ceRange o.dsp o.dst (o.n * l)
  | 0xA3 => lim < o.n || (o.root == r && ceRange o.ssp o.src o.n) || ceRange o.dsp o.dst o.n
  | 0xA4 => lim < o.n || ceRange o.ssp o.src o.n
  | 0xA5 => lim < o.n || ceRange o.dsp o.dst o.n
  | _ => lim < o.n || o.stride < o.n || ceRange o.ssp o.src o.n || ceRange o.dsp o.dst ((o.nb - 1) * o.stride + o.n)

/-- R385: CE_RING_CONFIG. -/
def ceRingBad (s : State) (c : Nat) (o : CeOp) : Bool :=
  ceSize s c ≤ ceRank s c || (o.dir && o.op != 0xA4 && o.op != 0xA5 && !ceWrap s c) || (o.op == 0xA3 && ceSize s c ≤ o.root)

/-- R404: PEER is out of the ring. -/
def peerBad (l : Nat) (peer : Int) : Bool := decide (peer = 0 ∨ (l : Int) ≤ peer.natAbs)

/-- Issue a ce. instruction: its encoding (R409, R413), its home tile (R387), its W wait, its ring and its ranges. -/
def runCe (s : State) (c op : Nat) (bad : IWord → Bool) (mk : State → IWord → CeOp) : State :=
  let e := ceEng c
  match frontIs s e 5 op with
  | none => s
  | some q =>
    if (getCe s c).op.isSome || drainOn s 8 c then s
    else if flagBad q.word || bad q.word then faultQ s e q 0x0E01 0 0 0xFF
    else if (homeOf s e).isNone then faultQ s e q 0x0101 0 0 0xFF
    else match takeW s e q with
      | (s, true) =>
        let o := { mk s q.word with op := op }
        if ceRingBad s c o then faultQ s e q 0x0E02 0 0 0xFF
        else if (op = 0xA4 ∨ op = 0xA5) ∧ peerBad (ceSize s c) (sext 7 (ifld q.word 52 7)) then faultQ s e q 0x0E01 0 0 0xFF
        else if ceWordBad o (ceRank s c) then faultQ s e q 0x0E01 0 0 0xFF
        else if ceAddrBad o (ceSize s c) (ceRank s c) then faultQ s e q 0x0E04 0 0 0xFF
        else ceStart s c q o
      | (s, false) => s

def ceSpaceBad (sp : Nat) : Bool := sp != 1 && sp != 2

/-- R413: the reduction and copy forms. -/
def ceBadCommon (w : IWord) : Bool :=
  ceSpaceBad (ifld w 77 3) || ceSpaceBad (ifld w 74 3) || rsvBad w [(0, 16)] || (!ibit w 34 && ifld w 26 8 != 0)
    || (ifld w 77 3 != 1 && ifld w 24 2 != 0) || (ifld w 74 3 != 1 && ifld w 22 2 != 0)

def ceBadReduce (w : IWord) : Bool :=
  ceBadCommon w || rsvBad w [(16, 6)] || (if ibit w 54 then ifld w 55 4 != 0 || ibit w 35 else 2 < ifld w 55 4)
    || ifld w 52 2 == 3 || (iV w != !ibit w 51) || (!ibit w 51 && !ibit w 49)

def ceBadGather (w : IWord) : Bool := ceBadCommon w || iV w || rsvBad w [(48, 11), (35, 1), (16, 6)]
def ceBadBcast (w : IWord) : Bool := ceBadCommon w || iV w || rsvBad w [(48, 11), (35, 1)]

def ceReg (s : State) (c : Nat) (w : IWord) (lo : Nat) : Nat := (getG s (ceEng c) (ifld w lo 5)).toNat

def ceOperands (c : Nat) (s : State) (w : IWord) : CeOp :=
  { CeOp.zero with
    ssp := ifld w 77 3, dsp := ifld w 74 3, src := ceReg s c w 69, dst := ceReg s c w 64, n := ceReg s c w 59 % 2 ^ 32
    fmt := ifld w 55 4, int := ibit w 54, fn := ifld w 52 2, ord := ibit w 51, dir := ibit w 50, alg := ibit w 49, wide := ibit w 48
    sig := ifld w 36 12, stat := ibit w 35, nsig := if ibit w 34 then some (ifld w 26 8) else none
    sh := ifld w 24 2, dh := ifld w 22 2, root := ifld w 16 6 }

def doCeAllreduce (s : State) (c : Nat) : State := runCe s c 0xA0 ceBadReduce (ceOperands c)
/-- R406 gathers statistics on ce.allreduce alone. -/
def doCeReducescatter (s : State) (c : Nat) : State := runCe s c 0xA1 ceBadReduce (fun s w => { ceOperands c s w with stat := false })
def doCeAllgather (s : State) (c : Nat) : State := runCe s c 0xA2 ceBadGather (ceOperands c)
def doCeBcast (s : State) (c : Nat) : State := runCe s c 0xA3 ceBadBcast (ceOperands c)

/-- R413: ce.send and ce.recv. -/
def ceBadPeer (w : IWord) : Bool :=
  iV w || ceSpaceBad (ifld w 77 3) || rsvBad w [(0, 34), (48, 4), (64, 5), (74, 3)] || (ifld w 77 3 != 1 && ifld w 34 2 != 0)

/-- `dir` is the direction in which the sender's peer lies: 1 for -. -/
def cePeerOperands (c : Nat) (recv : Bool) (s : State) (w : IWord) : CeOp :=
  { CeOp.zero with
    dir := if recv then decide (0 < sext 7 (ifld w 52 7)) else decide (sext 7 (ifld w 52 7) < 0)
    ssp := ifld w 77 3, dsp := ifld w 77 3, src := ceReg s c w 69, dst := ceReg s c w 69, n := ceReg s c w 59 % 2 ^ 32
    sig := ifld w 36 12, sh := ifld w 34 2, dh := ifld w 34 2
    peer := (((ceRank s c : Int) + sext 7 (ifld w 52 7)) % (ceSize s c : Int)).toNat }

def doCeSend (s : State) (c : Nat) : State := runCe s c 0xA4 ceBadPeer (cePeerOperands c false)
def doCeRecv (s : State) (c : Nat) : State := runCe s c 0xA5 ceBadPeer (cePeerOperands c true)

/-- R413: ce.ringpass. -/
def ceBadPass (w : IWord) : Bool :=
  iV w || ceSpaceBad (ifld w 77 3) || ceSpaceBad (ifld w 74 3) || rsvBad w [(0, 20), (48, 3)] || ifld w 52 2 == 0

def cePassOperands (c : Nat) (s : State) (w : IWord) : CeOp :=
  { CeOp.zero with
    ssp := ifld w 77 3, dsp := ifld w 74 3, src := ceReg s c w 69, dst := ceReg s c w 64, n := ceReg s c w 59 % 2 ^ 32
    stride := ceReg s c w 54 % 2 ^ 32, nb := ifld w 52 2 + 1, dir := ibit w 51, sig := ifld w 36 12
    rctr := ifld w 28 8, fctr := ifld w 20 8 }

def doCeRingpass (s : State) (c : Nat) : State := runCe s c 0xA6 ceBadPass (cePassOperands c)

/-! Sending pieces (R400, R401). -/

/-- R400, R401, R404, R405: whether a piece may leave now. -/
def ceMaySend (s : State) (c : Nat) (o : CeOp) (x : CeOut) : Bool :=
  let l := ceSize s c
  let ce := getCe s c
  match x.far with
  | none =>
    let acks := (o.tx.filter (fun t => t.step == x.step)).map (·.cnt)
    acks.all (fun a => x.pseq < a + 4096)
  | some k =>
    (o.op != 0xA4 || !o.ready.isEmpty) && (o.op != 0xA6 || o.ready.contains x.step) &&
    (if ceOutDir l (ceRank s c) k x.plus then 0 < ce.credP && (!x.local_ || (ce.usedP.filter id).length < 2048)
     else 0 < ce.credM && (!x.local_ || (ce.usedM.filter id).length < 2048))

/-- R400: a piece uses a credit. -/
def ceUse (s : State) (c k : Nat) (plus loc : Bool) : State :=
  if ceOutDir (ceSize s c) (ceRank s c) k plus then modCe s c (fun x => { x with credP := x.credP - 1, usedP := x.usedP ++ [loc] })
  else modCe s c (fun x => { x with credM := x.credM - 1, usedM := x.usedM ++ [loc] })

/-- R409: how long the operation has run, QUIESCED time not counted. -/
def ceRun (s : State) (c : Nat) (o : CeOp) : Nat :=
  o.acc + (if (getEng s (ceEng c)).st = .quiesced ∨ lendState s = 3 then 0 else s.gsc - o.since)

/-- R409: the silence of a rank begins anew: a packet of it has come, or a piece for it has left. -/
def ceHeard (s : State) (c k : Nat) : State :=
  modOp s c (fun o => { o with heard := (k, ceRun s c o) :: o.heard.filter (fun x => x.1 != k) })

/-- R373: a piece is the last of its transfer. -/
def ceLast (o : CeOp) (x : CeOut) : Bool :=
  o.tx.any (fun t => t.step == x.step && x.far.all (· == t.far) && x.pseq + 1 == t.total)

/-- The piece leaves (R398, R393). -/
def ceEmit (s : State) (c : Nat) (o : CeOp) (x : CeOut) (d : List PByte) : State :=
  let s := addStat s CE_BYTES c d.length
  let r := ceRank s c
  let p (far : Nat) : Packet := { cePacket s c x.kind o.num x.pseq (ceAddr o r x.step) far d with last := ceLast o x }
  match x.far with
  | some k => sendPkt (ceHeard (ceUse s c k x.plus x.local_) c k) (p k)
  | none => sendMulticast ((ceOthers (ceSize s c) r).foldl (fun s k => ceHeard s c k) s) c (0x40 + c) (p r)

/-- A stream moves on, or ends. -/
def ceAdvance (s : State) (c k : Nat) (x : CeOut) : State :=
  modOp s c (fun o => { o with todo :=
    if x.data.isSome ∨ x.len ≤ 256 * (x.pseq + 1) then o.todo.eraseIdx k else o.todo.set k { x with pseq := x.pseq + 1 } })

/-- One piece of the own data that stays within the GW7 (R392; a ring of one rank, R387). -/
def ceLocal (s : State) (c k : Nat) (o : CeOp) (x : CeOut) (d : List PByte) : State :=
  let acc := if isReduce o then wireOf o d else d
  let out := if isReduce o then finalOf o acc else d
  let base := if o.op = 0xA2 then ceRank s c * o.n else x.pseq * 256 / ceWs o * ceEs o
  let off := if o.op = 0xA2 then base + 256 * x.pseq else base
  match ceWrite s o.dsp o.dst off o.dh out with
  | (s, .ok _) =>
    let s := if isReduce o then finalFlags s c o acc else s
    ceAdvance (ceNoteRead s c d.length) c k x
  | (s, a) => ceTrouble s c a

/-- CE_PIECE_SEND: the k-th stream or forwarded piece of the operation. -/
def cePieceSend (s : State) (c k : Nat) : State :=
  let s := cePump s c
  match (getCe s c).op with
  | none => s
  | some o =>
    if !ceActive s c || o.stall.isSome || (o.stat && !hasSs o locKey) then s
    else match o.todo[k]? with
      | none => s
      | some x =>
        if x.kind ≠ 7 ∧ !ceMaySend s c o x then s
        else match x.data with
          | some d => ceFlush (cePump (ceFreeSlot (ceAdvance (ceEmit s c o x d) c k x) c x.slot) c) c
          | none =>
            if o.op = 0xA6 ∧ !x.local_ then
              (match ceRead s o.dsp o.dst x.off x.len o.dh with
               | (s, .ok d) => cePump (ceAdvance (ceEmit s c o x d) c k x) c
               | (s, a) => ceTrouble s c a)
            else
            let n := min 256 (x.len - 256 * x.pseq)
            let e := x.off + 256 * x.pseq / ceWs o
            (match ceRead s o.ssp o.src (e * ceEs o) (n / ceWs o * ceEs o) o.sh with
             | (s, .ok d) =>
               let s := if isReduce o && d.any (·.bad) then setF s CE_FLAGS_POISON c 1 else s
               if x.kind = 7 then ceLocal s c k o x d
               else cePump (ceAdvance (ceNoteRead (ceEmit s c o x (if isReduce o then wireOf o d else d)) c d.length) c k x) c
             | (s, a) => ceTrouble s c a)

/-! Packets at a collective engine. -/

/-- R409: a reserved KIND faults the program, whether or not an operation is in progress. -/
def ceBadKind (s : State) (c k : Nat) : State :=
  let e := ceEng c
  let g := getEng s e
  if (getCe s c).op.isSome then ceFault s c 0x0E01 0 0 k
  else if g.st ≠ .running ∧ g.st ≠ .waiting then s
  else match g.queue with
    | q :: _ => faultQ s e q 0x0E01 0 0 k
    | [] => faultEngine s e 0x0E01 0 g.fetchPc false 0 0 k

/-- A packet of a kind reaches engine c: R412 refuses pieces until the engine is loaded again; a reserved KIND faults (R409). -/
def atCe (s : State) (pkt : Packet) (kinds : List Nat) (k : Nat → State → State) : State :=
  let kd := pkt.tid.toNat % 16
  let l := epLocal pkt.dst
  if l < 0x40 ∨ 0x44 ≤ l ∨ !(kinds.contains kd || 7 ≤ kd) then s
  else atEndpoint s pkt 11 (fun s =>
    let c := l - 0x40
    if isolated s (96 + c) then sendNack s pkt 0x0402
    else if kd ≤ 2 ∧ (getCe s c).nack then sendNack s pkt 0x0402
    else if 7 ≤ kd then ceBadKind s c (bits pkt.addr.toNat 24 6)
    else k c s)

/-- R399, R411: a piece or READY is applied, held for a later operation, or, when it was applied before, dropped. -/
def cePiece (s : State) (c : Nat) (pkt : Packet) : State :=
  let keep (s : State) : State := modCe s c (fun x => { x with early := x.early ++ [pkt] })
  let s := match (getCe s c).op with
    | some o =>
      if ceMine o pkt then
        if ceActive s c then
          (let s := ceHeard s c (bits pkt.addr.toNat 24 6)
           if pkt.tid.toNat % 16 = 2 then ceTakeReady s c (((getCe s c).op).getD o) pkt else cePump (ceApply s c pkt) c)
        else keep s
      else if ceLater (getCe s c) pkt then keep s else ceFree s c pkt
    | none => if ceLater (getCe s c) pkt then keep s else ceFree s c pkt
  ceFlush s c

/-- CE_REDUCE_PIECE, CE_COPY_PIECE, CE_READY. -/
def ceReducePkt (s : State) (pkt : Packet) : State := atCe s pkt [0] (fun c s => cePiece s c pkt)
def ceCopyPkt (s : State) (pkt : Packet) : State := atCe s pkt [1] (fun c s => cePiece s c pkt)
def ceReadyPkt (s : State) (pkt : Packet) : State := atCe s pkt [2] (fun c s => cePiece s c pkt)

/-- CE_CREDIT: R400. -/
def ceCreditPkt (s : State) (pkt : Packet) : State :=
  atCe s pkt [3] (fun c s =>
    let n := pkt.pseq.toNat
    let k := bits pkt.addr.toNat 24 6
    let s := ceHeard s c k
    if ceOutDir (ceSize s c) (ceRank s c) k (!bit pkt.addr.toNat 0) then
      modCe s c (fun x => { x with credP := min 4096 (x.credP + n), usedP := x.usedP.drop n })
    else modCe s c (fun x => { x with credM := min 4096 (x.credM + n), usedM := x.usedM.drop n }))

/-- R401: the pieces that a KIND 4 packet acknowledges; the count of the last piece may be one more than PSEQ can show (log entry 46). -/
def ceAcked (total n : Nat) : Nat := if n % 65536 = total % 65536 then total else min total n

/-- CE_DONE: R401. -/
def ceDonePkt (s : State) (pkt : Packet) : State :=
  atCe s pkt [4] (fun c s => match (getCe s c).op with
    | none => s
    | some o =>
      if ceMine o pkt then
        let k := bits pkt.addr.toNat 24 6
        modOp (ceHeard s c k) c (fun o => { o with tx := o.tx.map (fun x =>
          if x.far = k ∧ x.step = pkt.addr.toNat % 4096 then { x with cnt := max x.cnt (ceAcked x.total (pkt.pseq.toNat + 1)) } else x) })
      else s)

/-- CE_BARRIER_ARRIVE, CE_BARRIER_RELEASE (R407, R408). -/
def ceArrivePkt (s : State) (pkt : Packet) : State := atCe s pkt [5] (fun c s => torusCount s c pkt)
def ceReleasePkt (s : State) (pkt : Packet) : State := atCe s pkt [6] (fun c s => torusReleaseIn s c pkt)

/-- A refusal that returns to a collective engine (R261, R399, R408, R409). -/
def ceNacked (s : State) (c : Nat) (pkt : Packet) : State :=
  let code := ofBytes ((pkt.payload.take 2).map (·.b))
  let x := pkt.addr.toNat % 64
  if pkt.tid.toNat % 16 = 5 then (if code = 0x0402 then orphanCtx s x else overrunCtx s x)
  else match (getCe s c).op with
    | some o =>
      if o.num = pkt.tid.toNat / 16 then ceFault s c code 0 0 ((rankOf s c (epNode pkt.src)).getD 0xFF) else s
    | none => s

/-! Completion and timeouts (R406, R409, R414). -/

/-- R406: the sums of a completed operation enter the live registers. -/
def ceStats (s : State) (c : Nat) (o : CeOp) : State :=
  if !o.stat then s
  else
    let l := ceSize s c
    let ks := List.range l ++ (if o.dir then (List.range l).map (· + 64) else [])
    let red := ks.foldl (fun a k => statAdd a (BitVec.ofNat 64 (ssOf o k).1)) 0
    let sum := (List.range l).foldl (fun a k => statAdd a (BitVec.ofNat 64 (ssOf o k).2)) 0
    let loc : DWord := BitVec.ofNat 64 (ssOf o locKey).2
    let add (s : State) (f : Fld) (v : DWord) : State := setF s f c (statAdd (BitVec.ofNat 64 (getF s f c)) v).toNat
    let s := add (add (add (addStat s CE_STAT_N c o.n) CE_STAT_LOC loc) CE_STAT_LOCSUM sum) CE_STAT_RED red
    if [loc, sum, red].any (fun v => fvIsNan (f64 v)) then setF s CE_FLAGS_STATNAN c 1 else s

/-- A ring of one rank: RED and LOCSUM from the results that its local copy wrote. -/
def ceOwnStats (s : State) (c : Nat) : State :=
  match (getCe s c).op with
  | none => s
  | some o =>
    if !o.stat || ceSize s c != 1 || hasSs o 0 then s
    else
      let n := o.n * ceEs o
      match ceReadAll o.dsp o.dst o.dh (n / 256 + 1) 0 n s with
      | (s, .ok d) => modOp s c (fun o => { o with
          ss := o.ss ++ [(0, (sumSq (ceMem o) (elemsOf (ceEs o) d)).toNat, (ssOf o locKey).2), (64, 0, 0)] })
      | (s, a) => ceTrouble s c a

/-- R401, R404, R414: everything is written and acknowledged, and a ce.send has met its READY. -/
def ceFinished (o : CeOp) (l : Nat) : Bool :=
  (o.op != 0xA4 || !o.ready.isEmpty) && o.todo.isEmpty && o.early.isEmpty && o.stall.isNone && o.rx.all (fun x => x.cnt == x.total) && o.tx.all (fun x => x.cnt == x.total)
    && (!o.stat || (List.range l).all (fun k => hasSs o k && (!o.dir || hasSs o (64 + k))))

/-- CE_OP_COMPLETE. -/
def ceComplete (s : State) (c : Nat) : State :=
  let s := cePump s c
  let s := match (getCe s c).op with
    | some o => if ceActive s c && o.todo.isEmpty then ceOwnStats s c else s
    | none => s
  match (getCe s c).op with
  | none => s
  | some o =>
    if ceActive s c && ceFinished o (ceSize s c) then
      let s := modCe (ceStats s c o) c (fun x => { x with op := none })
      completeDone s (ceEng c) ⟨o.sctr, o.tag, o.pc, isReduce o && !o.ord, false⟩
    else s

/-- The pieces of a transfer that are in the receive buffer and not yet applied. -/
def ceHeldOf (held : List Packet) (o : CeOp) (x : CeXfer) : Nat :=
  ((o.early ++ held.filter (ceMine o)).filter (fun p => bits p.addr.toNat 24 6 == x.far && p.addr.toNat % 4096 == x.step)).length

/-- The ranks that the operation awaits something of: pieces that have not arrived, else an acknowledgement, a READY or a credit. An
operation that stalls on job memory (R388) or has pieces to apply awaits none of these last. -/
def ceAwaited (held : List Packet) (o : CeOp) : List Nat :=
  match o.rx.filter (fun x => x.cnt + ceHeldOf held o x < x.total) with
  | [] =>
    if o.stall.isSome || !o.early.isEmpty || held.any (ceMine o) then []
    else (if o.op = 0xA4 ∧ o.ready.isEmpty then [o.peer] else []) ++ (o.tx.filter (fun x => x.cnt != x.total)).map (·.far)
  | xs => xs.map (·.far)

/-- R409: the first awaited rank that has been silent for 10 ms. -/
def ceSilent (s : State) (c : Nat) (o : CeOp) : Option Nat :=
  (ceAwaited (getCe s c).early o).find? (fun k => ((o.heard.find? (fun x => x.1 == k)).map (·.2)).getD 0 + 10000000 ≤ ceRun s c o)

/-- CE_PEER_TIMEOUT: R409, R517; a job-memory stall runs against P_WAIT_TMO (R148). -/
def cePeerTimeout (s : State) (c : Nat) : State :=
  match (getCe s c).op with
  | none => s
  | some o =>
    let long : Bool := match o.stall with
      | some x => decide (waitLimit s (ceEng c) ≤ stallElapsed s (ceEng c) x)
      | none => false
    if long then ceFault s c 0x0403 0 1 0xFF
    else match ceSilent s c o with
      | some k => ceFault s c 0x0403 0 0 k
      | none => s

/-- CE_CONFIG_WRITE: R385. -/
def ceConfigWrite (s : State) (c off : Nat) (v : Word) : State :=
  let e := ceEng c
  let node := 0x300 ≤ off && off < 0x400 && off % 4 == 0
  if !(off == 0x40 || off == 0x44 || node) then s
  else match (getEng s e).st with
    | .halted | .loaded | .quiesced =>
      let w := if off = 0x40 then 6 else if off = 0x44 then 13 else 16
      regSet s (regKey 8 c off) (BitVec.ofNat 64 (bits v.toNat 0 w))
    | _ => cmdErr s e

end Sys2Proof.Machine
end

