-- ==== Sys2Proof/Machine/CeRows.lean ====
section
/-! DEFINITION. The meanings of the collective engines' commands (chapter 12), one for each row. -/
namespace Sys2Proof.Machine

/-- CE_ALLREDUCE (R392). -/
def execCeAllreduce (c : Fin 4) (s : State) : Out := .next (doCeAllreduce s c.val)
/-- CE_REDUCESCATTER (R392). -/
def execCeReducescatter (c : Fin 4) (s : State) : Out := .next (doCeReducescatter s c.val)
/-- CE_ALLGATHER (R392). -/
def execCeAllgather (c : Fin 4) (s : State) : Out := .next (doCeAllgather s c.val)
/-- CE_BCAST (R392). -/
def execCeBcast (c : Fin 4) (s : State) : Out := .next (doCeBcast s c.val)
/-- CE_SEND (R404). -/
def execCeSend (c : Fin 4) (s : State) : Out := .next (doCeSend s c.val)
/-- CE_RECV (R404). -/
def execCeRecv (c : Fin 4) (s : State) : Out := .next (doCeRecv s c.val)
/-- CE_RINGPASS (R405). -/
def execCeRingpass (c : Fin 4) (s : State) : Out := .next (doCeRingpass s c.val)
/-- CE_PIECE_SEND (R400). -/
def execCePieceSend (c : Fin 4) (k : Nat) (s : State) : Out := .next (ceFlush (cePieceSend s c.val k) c.val)
/-- CE_REDUCE_PIECE (R399). -/
def execCeReducePiece (pkt : Packet) (s : State) : Out := .next (ceReducePkt s pkt)
/-- CE_COPY_PIECE (R399). -/
def execCeCopyPiece (pkt : Packet) (s : State) : Out := .next (ceCopyPkt s pkt)
/-- CE_READY (R404). -/
def execCeReady (pkt : Packet) (s : State) : Out := .next (ceReadyPkt s pkt)
/-- CE_CREDIT (R400). -/
def execCeCredit (pkt : Packet) (s : State) : Out := .next (ceCreditPkt s pkt)
/-- CE_DONE (R401). -/
def execCeDone (pkt : Packet) (s : State) : Out := .next (ceDonePkt s pkt)
/-- CE_BARRIER_ARRIVE (R408). -/
def execCeBarrierArrive (pkt : Packet) (s : State) : Out := .next (ceArrivePkt s pkt)
/-- CE_BARRIER_RELEASE (R407). -/
def execCeBarrierRelease (pkt : Packet) (s : State) : Out := .next (ceReleasePkt s pkt)
/-- CE_OP_COMPLETE (R414). -/
def execCeOpComplete (c : Fin 4) (s : State) : Out := .next (ceFlush (ceComplete s c.val) c.val)
/-- R409: `dt` GSC counts pass first. -/
def execCePeerTimeout (c : Fin 4) (dt : Nat) (s : State) : Out := .next (cePeerTimeout (advance s dt) c.val)
/-- CE_CONFIG_WRITE (R385). -/
def execCeConfigWrite (c : Fin 4) (off : BitVec 12) (v : Word) (s : State) : Out :=
  .next (onPage s 8 c.val (fun s => ceConfigWrite s c.val off.toNat v))

end Sys2Proof.Machine
end

