-- ==== Sys2Proof/Machine/Cv.lean ====
section
/-! DEFINITION. The check-value units (chapter 16): the CRC of R480, the folds, the commands, completion and the records. -/
namespace Sys2Proof.Machine

/-- One bit of R480. -/
def cvBit (w p r : Nat) (v : Bool) : Nat :=
  let fb := bit r (w - 1) != v
  let r := (2 * r) % 2 ^ w
  if fb then r ^^^ (p % 2 ^ w) else r

/-- One byte of R480; REF takes its bits in reverse. -/
def cvByte (w p : Nat) (ref : Bool) (r : Nat) (b : Byte) : Nat :=
  (List.range 8).foldl (fun r i => cvBit w p r (if ref then b.getLsbD i else b.getMsbD i)) r

/-- R480: RAW of a byte string. -/
def cvRaw (w p : Nat) (ref : Bool) (i : Nat) (bs : List Byte) : Nat := bs.foldl (cvByte w p ref) i

/-- The `w` low bits of a number in reverse order. -/
def reverseBits (w v : Nat) : Nat := sumNat ((List.range w).map (fun i => if bit v i then 2 ^ (w - 1 - i) else 0))

/-- R480: RESULT of a RAW value. -/
def cvResult (w : Nat) (ref inv : Bool) (raw : Nat) : Nat :=
  let r := if ref then reverseBits w raw else raw
  if inv then r ^^^ (2 ^ w - 1) else r

/-- Carry-less product modulo the polynomial x^w + p (R471, R489), by the bits of `b` from the highest. -/
def cvMul (w p a b : Nat) : Nat :=
  (List.range w).reverse.foldl (fun r i => (cvBit w p r false) ^^^ (if bit b i then a else 0)) 0

/-- x^e modulo the polynomial, by the bits of `e` from the highest of `n`. -/
def cvPow (w p e n : Nat) : Nat :=
  (List.range n).reverse.foldl (fun r i =>
    let r := cvMul w p r r
    if bit e i then cvBit w p r false else r) 1

/-- (a * x^(8 n)) mod P. A polynomial of width 1 to 7 is handled alike. -/
def cvShift (w p a n : Nat) : Nat := cvMul w p a (cvPow w p (8 * n) 32)

/-- R481: the bytes that enter the CRC: `at0` is BASE for an address fold and SEQ for a sequence fold. -/
def cvFold (fold at0 : Nat) (bs : List Byte) : List Byte :=
  if fold = 0 then bs
  else
    let step := if fold = 1 then 8 else 1
    ((chunksOf 8 bs.length bs).zipIdx).flatMap (fun c => bytesOf 8 (ofBytes c.1 ^^^ ((at0 + step * c.2) % 2 ^ 64)))

/-! A unit's registers. -/

def cvState (s : State) (p u : Nat) : Nat := if u = 0 then (getTile s p).cv0 else (getTile s p).cv1

/-- A unit's state; the values that its run might have read go with the run. -/
def setCv (s : State) (p u v : Nat) : State :=
  modTile s p (fun t =>
    let t := if v < 2 then { t with cvOld := mapDrop (fun k => k / 2 ^ 18 == u) t.cvOld } else t
    if u = 0 then { t with cv0 := v } else { t with cv1 := v })
def cvW (s : State) (p u : Nat) : Nat := getFi s TL_CV_CFG_WIDTH p u + 1
def cvErr (s : State) (p u : Nat) : State := setFi s TL_CV_STATUS_CMD_ERR p u 1

/-- R469: unit 1 is reserved for digests while MG_DIGEST_CFG.EN is 1. -/
def cvReserved (s : State) (u : Nat) : Bool := u == 1 && flagF s MG_DIGEST_CFG_EN 0

/-- R482. -/
def cvBad (s : State) (p u : Nat) : Bool :=
  let w := cvW s p u
  let base := getFi s TL_CV_REGION_BASE p u
  let len := getFi s TL_CV_REGION_LEN p u
  let fold := getFi s TL_CV_CFG_FOLD p u
  2 ^ w ≤ getFi s TL_CV_POLY_P p u || 2 ^ w ≤ getFi s TL_CV_INIT_I p u || 2 ^ w ≤ getFi s TL_CV_EXPECT_E p u
    || 0x400000 < base + len || len == 0 || fold == 3 || ((fold == 1 || fold == 2) && (base % 8 != 0 || len % 8 != 0))

/-- R482: a unit starts, or refuses and returns to idle. -/
def cvBegin (s : State) (p u : Nat) : State :=
  if cvBad s p u then setCv (setFi (setFi s TL_CV_STATUS_CFG_ERR p u 1) TL_CV_STATUS_DONE p u 1) p u 0 else setCv s p u 2

/-- CV_START: R482, R488. -/
def cvStart (s : State) (p u : Nat) : State := if cvState s p u ≠ 0 ∨ cvReserved s u then cvErr s p u else cvBegin s p u

/-- CV_ARM: R488; a counter that already holds 1 is taken at once. -/
def cvArm (s : State) (p u : Nat) : State :=
  if cvState s p u ≠ 0 ∨ cvReserved s u then cvErr s p u else satisfyCv (setCv s p u 1) p (getFi s TL_CV_TRIG_CTR p u) u

/-- CV_DISARM: R488. -/
def cvDisarm (s : State) (p u : Nat) : State := if cvState s p u = 1 then setCv s p u 0 else cvErr s p u

/-- CV_COMBINE: R489. -/
def cvCombine (s : State) (p u : Nat) : State := if cvState s p u ≠ 0 ∨ cvReserved s u then cvErr s p u else setCv s p u 3

/-- R487: a record of a unit. -/
def cvRecord (s : State) (p u code detail : Nat) : State :=
  raise s 2 p ⟨code, (logOf s p).getD 0xFF, 4, getFi s TL_CV_TRIG_TAG p u, 0, s.gsc, jobGen s, p, getFi s TL_CV_REGION_BASE p u, 0, detail⟩

def cvSignal (s : State) (p u : Nat) (on ctr : Fld) : State :=
  if getFi s on p u = 1 then signalUnit s p (some (getFi s ctr p u)) (getFi s TL_CV_TRIG_TAG p u) else s

/-- R480, R486: RAW is known: RESULT, DONE, the comparison and its signal. -/
def cvFinish (s : State) (p u raw : Nat) : State :=
  let r := cvResult (cvW s p u) (getFi s TL_CV_CFG_REF p u == 1) (getFi s TL_CV_CFG_INV p u == 1) raw
  let s := setFi (setFi (setFi s TL_CV_RAW_R p u raw) TL_CV_RESULT_R p u r) TL_CV_STATUS_DONE p u 1
  let s := setCv s p u 0
  if getFi s TL_CV_CFG_CMP p u = 1 ∧ r ≠ getFi s TL_CV_EXPECT_E p u then
    let s := setFi s TL_CV_STATUS_MISMATCH p u 1
    let k := regKey 2 p 0x20
    let s := regSet s k (regGet s k ||| BitVec.ofNat 64 (2 ^ (16 + u)))
    cvSignal (cvRecord s p u 0x0601 r) p u TL_CV_CFG_BADSIG TL_CV_CFG_BADCTR
  else cvSignal s p u TL_CV_CFG_OKSIG TL_CV_CFG_OKCTR

/-- R484: a word of a unit's region as the unit reads it: where it was written during the run, one of the values that it has had, which the
spec leaves open (a free value, log entry 4). -/
def cvWord (s : State) (p u w : Nat) : State × List PByte :=
  let cur := tileRead s p (16 * w) 16
  match mapGet (fun _ => []) (getTile s p).cvOld (2 ^ 18 * u + w) with
  | [] => (s, cur)
  | olds =>
    let (f, s) := freshWord s
    (s, olds.getD (f.toNat % (olds.length + 1)) cur)

/-- The bytes of a region as the unit reads them. -/
def cvRead (s : State) (p u : Nat) : State × List PByte :=
  let base := getFi s TL_CV_REGION_BASE p u
  let len := getFi s TL_CV_REGION_LEN p u
  let r := (wordsOf base len).foldl (fun r w => let (s, bs) := cvWord r.1 p u w; (s, bs :: r.2)) (s, ([] : List (List PByte)))
  (r.1, (r.2.reverse.flatten.drop (base % 16)).take len)

/-- A triggered unit starts when its run is first advanced (R488). -/
def cvTriggered (s : State) (p u : Nat) : State := if cvState s p u = 4 then cvBegin s p u else s

/-- R485: stop on poison; RAW and RESULT hold free values (log entry 4). -/
def cvStop (s : State) (p u off : Nat) : State :=
  let (a, s) := freshWord s
  let (b, s) := freshWord s
  let w := 2 ^ cvW s p u
  let s := setFi (setFi s TL_CV_RAW_R p u (a.toNat % w)) TL_CV_RESULT_R p u (b.toNat % w)
  let s := setFi (setFi s TL_CV_STATUS_POISON p u 1) TL_CV_STATUS_DONE p u 1
  cvRecord (cvSignal (setCv s p u 0) p u TL_CV_CFG_BADSIG TL_CV_CFG_BADCTR) p u 0x0602 off

/-- CV_RUN_COMPLETE: R480, R481, R486; a region that holds a poisoned word stops instead (R485). -/
def cvRun (s : State) (p u : Nat) : State :=
  let s := cvTriggered s p u
  if cvState s p u ≠ 2 ∨ isolated s p then s
  else
    let (s, ws) := cvRead s p u
    match ws.findIdx? (·.bad) with
    | some off => cvStop s p u off
    | none =>
      let base := getFi s TL_CV_REGION_BASE p u
      let fold := getFi s TL_CV_CFG_FOLD p u
      let bs := ws.map (·.b)
      let i := if getFi s TL_CV_CFG_CONT p u = 1 then getFi s TL_CV_RAW_R p u else getFi s TL_CV_INIT_I p u
      cvFinish s p u (cvRaw (cvW s p u) (getFi s TL_CV_POLY_P p u) (getFi s TL_CV_CFG_REF p u == 1) (i % 2 ^ cvW s p u)
        (cvFold fold (if fold = 1 then base else getFi s TL_CV_SEQ_SEQ0 p u) bs))

/-- CV_POISON_STOP: R485. -/
def cvPoisonStop (s : State) (p u : Nat) : State :=
  let s := cvTriggered s p u
  if cvState s p u ≠ 2 ∨ isolated s p then s
  else
    let (t, ws) := cvRead s p u
    match ws.findIdx? (·.bad) with
    | some off => cvStop t p u off
    | none => s

/-- CV_COMBINE_COMPLETE: R489. -/
def cvCombined (s : State) (p u : Nat) : State :=
  if cvState s p u ≠ 3 ∨ isolated s p then s
  else
    let w := cvW s p u
    let raw := cvShift w (getFi s TL_CV_POLY_P p u % 2 ^ w) (getFi s TL_CV_RAW_R p u % 2 ^ w) (getFi s TL_CV_REGION_LEN p u)
    cvFinish s p u (raw ^^^ (getFi s TL_CV_INIT_I p u % 2 ^ w))

/-- CV_CONFIG_WRITE: R491. `off` is the register's offset within its unit. -/
def cvConfig (s : State) (p u off : Nat) (v : DWord) : State :=
  let k := regKey 2 p (0x100 + 0x80 * u + off)
  if !([0x04, 0x0C, 0x10, 0x18, 0x20, 0x38, 0x40].contains off) then s
  else if cvState s p u ≠ 0 then cvErr s p u
  else
    let x := v.toNat
    regSet s k (BitVec.ofNat 64 (match off with
      | 0x04 => bits x 0 30
      | 0x0C => bits x 0 8 + bits x 16 16 * 2 ^ 16
      | 0x38 => bits x 0 22 + bits x 32 23 * 2 ^ 32
      | _ => x))

/-- R490: at a quiesce of its tile a unit that is armed is disarmed. -/
def cvDisarmAll (s : State) (p : Nat) : State :=
  (List.range 2).foldl (fun s u => if cvState s p u = 1 then setCv s p u 0 else s) s

end Sys2Proof.Machine
end

