-- ==== Sys2Proof/Machine/CvRows.lean ====
section
/-! DEFINITION. The meanings of the check-value units' commands (chapter 16), one for each row. -/
namespace Sys2Proof.Machine

/-- CV_START (R482, R488). -/
def execCvStart (p : Fin 72) (u : Fin 2) (s : State) : Out := .next (onPage s 2 p.val (fun s => cvStart s p.val u.val))
/-- CV_ARM (R488). -/
def execCvArm (p : Fin 72) (u : Fin 2) (s : State) : Out := .next (onPage s 2 p.val (fun s => cvArm s p.val u.val))
/-- CV_DISARM (R488). -/
def execCvDisarm (p : Fin 72) (u : Fin 2) (s : State) : Out := .next (onPage s 2 p.val (fun s => cvDisarm s p.val u.val))
/-- CV_COMBINE (R489). -/
def execCvCombine (p : Fin 72) (u : Fin 2) (s : State) : Out := .next (onPage s 2 p.val (fun s => cvCombine s p.val u.val))
/-- CV_COMBINE_COMPLETE (R489). -/
def execCvCombineComplete (p : Fin 72) (u : Fin 2) (s : State) : Out := .next (cvCombined s p.val u.val)
/-- CV_RUN_COMPLETE (R480, R481, R486). -/
def execCvRunComplete (p : Fin 72) (u : Fin 2) (s : State) : Out := .next (cvRun s p.val u.val)
/-- CV_POISON_STOP (R485). -/
def execCvPoisonStop (p : Fin 72) (u : Fin 2) (s : State) : Out := .next (cvPoisonStop s p.val u.val)
/-- CV_CONFIG_WRITE (R491). -/
def execCvConfigWrite (p : Fin 72) (u : Fin 2) (off : Fin 128) (v : DWord) (s : State) : Out :=
  .next (onPage s 2 p.val (fun s => cvConfig s p.val u.val off.val v))

end Sys2Proof.Machine
end

