-- ==== Sys2Proof/Machine/View.lean ====
section
/-! DEFINITION. What a register reads: its home in `regs`, with the fields that other parts of the state determine laid over it
(R115, R156, R192, R236, R268, R269, R295, R297, R326, R355, R382, R415, R429, R515, R536, R553, R589, R601, R604). -/
namespace Sys2Proof.Machine

/-- R212: the code of a program state. -/
def stCode : EState → Nat
  | .halted => 0 | .loaded => 1 | .armed => 2 | .running => 3 | .waiting => 4 | .quiesced => 5 | .faulted => 6

/-- The engine of an engine page. -/
def engOfPage (b inst : Nat) : Eng :=
  match b with
  | 3 => .tile (Fin.ofNat 72 inst) .mx
  | 4 => .tile (Fin.ofNat 72 inst) .vx
  | 5 => .tile (Fin.ofNat 72 inst) .dm
  | 6 => .tile (Fin.ofNat 72 inst) .sy
  | _ => .ce (Fin.ofNat 4 inst)

/-! The common header (R601 to R604). -/

/-- R603: CTRL.RESET_REQ acts on the page. -/
def capReset (b inst : Nat) : Bool :=
  (2 ≤ b && b ≤ 6) || b == 8 || b == 10 || b == 12 || (b == 11 && inst < 6) || (b == 7 && inst == 0) || b == 1

/-- R603: CTRL.DRAIN acts on the page. -/
def capDrain (b inst : Nat) : Bool := b == 2 || b == 8 || b == 12 || (b == 11 && inst < 6) || (b == 7 && inst == 0)

/-- R601: the page holds _LATCHED registers. -/
def capStats (b inst : Nat) : Bool := (latchPairs b).any (fun r => r.2.2.2.2.1 ≤ inst && inst ≤ r.2.2.2.2.2)

/-- The unit whose running version a page shows: the units of one image share it (R593). -/
def fwUnit (b inst : Nat) : Nat := if b = 7 ∨ b = 9 ∨ (b = 11 ∧ inst = 6) then 0 else inst

/-- The running version of a unit, and its SVN (kept together in `fw`). -/
def fwVersion (s : State) (b unit : Nat) : Nat := mapGet (fun _ => 0) s.fw (256 * b + unit) % 2 ^ 32
def fwSvn (s : State) (b unit : Nat) : Nat := mapGet (fun _ => 0) s.fw (256 * b + unit) / 2 ^ 32

/-- R603: nothing that the block has taken is outstanding. -/
def drained (s : State) (b inst : Nat) : Bool :=
  match b with
  | 2 => (getMx s inst).fly.isEmpty && (getTile s inst).vx.fly.isEmpty && (getDm s inst).descs.isEmpty && (getDm s inst).out.isEmpty
  | 8 => (getCe s inst).op.isNone
  | 7 => s.ctxs.all (fun kv => !kv.2.leaving && !kv.2.globalPend)
  | 12 => getF s HC_STATUS_FLUSHING inst == 0
  | _ => true

/-- R604: a page has an enabled pending bit. -/
def pagePending (s : State) (b inst : Nat) : Bool :=
  (((regGet s (regKey b inst 0x20)).toNat &&& (regGet s (regKey b inst 0x24)).toNat) != 0) && !blkAbsent s b inst

/-- R604: any page has one: the SMBus alert ball is asserted. -/
def anyPending (s : State) : Bool := (List.range 17).any (fun b => (List.range (blkInstances b)).any (pagePending s b))

/-- The GEN field of a page: the generation of its domain, or the port's (R601). -/
def pageGen (s : State) (b inst : Nat) : Nat := if b = 14 then s.eb.portGen else (getDom s (pageDomain b inst)).gen

/-- A header register as it reads (R601). -/
def headerView (s : State) (b inst off v : Nat) : Nat :=
  match off with
  | 0x00 => b + 2 ^ 16 * inst
  | 0x04 => if blkFirmware b then fwVersion s b (fwUnit b inst) else 0xA1
  | 0x08 => blkInstances b + 2 ^ 8 * b2n (blkFirmware b) + 2 ^ 9 * b2n (capReset b inst) + 2 ^ 10 * b2n (capDrain b inst)
      + 2 ^ 11 * b2n (capStats b inst)
  | 0x10 =>
    let en := if b = 10 then getF s FL_CFG_EN inst else if b = 14 then getF s EB_CFG_EN 0 else 1
    en + 2 * (if capDrain b inst then bits v 1 1 else 0)
  | 0x14 => b2n (capDrain b inst && bit (regGet s (regKey b inst 0x10)).toNat 1 && drained s b inst)
      + 2 * b2n (isolated s (pageDomain b inst)) + 4 * rdF s b H_ERR_LOG_VALID inst 0 + 8 * b2n (pagePending s b inst)
  | 0x18 => pageGen s b inst + 2 ^ 8 * pageDomain b inst + 2 ^ 16 * (getDom s 103).gen
  | 0x28 => 0
  | 0x38 => if mapGet (fun _ => false) s.statReset (pageDomain b inst) then 0 else rdF s 1 H_STAT_LATCH_GSC 0 0
  | 0x3C => rdF s 1 H_PERIOD_ID_ID 0 0
  | _ => v

/-! The blocks. -/

/-- The program control registers of an engine page (R236). -/
def engineView (s : State) (b inst off v : Nat) : Nat :=
  let e := engOfPage b inst
  let g := getEng s e
  match off with
  | 0x100 => putBits v 0 4 0
  | 0x104 => putBits (putBits v 0 3 (stCode g.st)) 16 12 (enginePc g)
  | 0x118 => s.mark.last.toNat
  | _ => v

/-- Set bits of a predicate over 4 things. -/
def mask4 (p : Nat → Bool) : Nat := sumNat ((List.range 4).map (fun a => b2n (p a) * 2 ^ a))

/-- R115. More than 15 instructions in ACC_OPS's 4 bits show modulo 16 (log entry 119). -/
def viewMX (s : State) (p off v : Nat) : Nat :=
  let x := getMx s p
  match off with
  | 0x40 =>
    mask4 (fun a => x.fly.any (fun f => f.kind == 1 && bit f.arrays a)) + 2 ^ 4 * mask4 (fun a => x.fly.any (fun f => f.kind == 0 && bit f.arrays a))
      + 2 ^ 8 * mask4 (fun a => bit x.act a) + 2 ^ 12 * mask4 (fun a => (getSet x (idleSet x a)).loaded)
      + 2 ^ 16 * (slotsUsed s p % 16) + 2 ^ 20 * ((x.fly.filter (fun f => [2, 3, 4, 6].contains f.kind)).length % 16)
  | 0x48 => x.runs.length + 2 ^ 8 * spillRows x
  | _ => v

def viewVX (s : State) (p off v : Nat) : Nat :=
  let x := (getTile s p).vx
  let st := (getEng s (.tile (Fin.ofNat 72 p) .vx)).st
  match off with
  | 0x40 => b2n (!x.fly.isEmpty) + 2 * b2n (x.fly.any (·.opt)) + 4 * b2n (!(st = .halted || st = .loaded || st = .quiesced))
  | _ => v

def viewDM (s : State) (p off v : Nat) : Nat :=
  let x := getDm s p
  match off with
  | 0x44 => x.descs.length + 2 ^ 4 * (x.descs.filter (fun d => d.stall.isSome)).length + 2 ^ 8 * min x.out.length 4095
  | _ => v

/-- The four engines of a tile. -/
def tileEngs (p : Nat) : List Eng := [EngKind.mx, .vx, .dm, .sy].map (fun k => Eng.tile (Fin.ofNat 72 p) k)

def viewSY (s : State) (p off v : Nat) : Nat :=
  match off with
  | 0x40 => mask4 (fun a => ((tileEngs p)[a]?.map (fun e => (getEng s e).st == .waiting)).getD false) + bits v 4 1 * 2 ^ 4
      + 2 ^ 5 * min 31 (sumNat ((tileEngs p).map (fun e => (getEng s e).sigs.length)))
  | _ => v

def viewBA (s : State) (inst off v : Nat) : Nat :=
  if inst = 0 then v
  else
    let x := getCtx s (inst - 1)
    if off = 0x44 then
      b2n x.round + 2 * x.cur + 2 ^ 10 * x.next + 2 ^ 19 * b2n x.leaving + 2 ^ 20 * b2n x.globalPend + 2 ^ 21 * x.cstate
    else v

def viewCE (s : State) (c off v : Nat) : Nat :=
  let x := getCe s c
  match off with
  | 0x48 => b2n x.op.isSome + 2 * (x.opnum % 4096) + 2 ^ 13 * ((x.op.map (·.step)).getD 0 % 4096)
  | 0x54 => x.credP + 2 ^ 13 * x.credM
  | _ => v

def viewRT (s : State) (inst off v : Nat) : Nat :=
  if inst = 0 ∧ off = 0x54 then min (oldCount s) 65535 + 2 ^ 16 * b2n (bit v 16 || oldCount s != 0) else v

def viewFL (s : State) (f off v : Nat) : Nat := if off = 0x44 then putBits v 3 3 (flueSlot s f) else v

def viewMC (s : State) (i off v : Nat) : Nat :=
  if i < 6 then v
  else
    let fr := getFrame s (getF s MC_FRAME_SEL_PFN 6)
    match off with
    | 0x60 => min (fetchingCount s) 511 + 2 ^ 9 * pendingCount s
    | 0x68 => (sGranules s).length
    | 0x70 => putBits v 4 12 (min s.folio.dups.length 4095)
    | 0x88 => fr.rstate + 2 ^ 3 * fr.cls + 2 ^ 5 * fr.vpn
    | 0x90 => fr.d.toNat + 2 ^ 32 * fr.s.toNat
    | _ => v

def viewHC (s : State) (i off v : Nat) : Nat := if off = 0x44 then bits v 0 1 + 2 * keepCount (getStack s i).lines else v

def viewTL (s : State) (p off v : Nat) : Nat :=
  let t := getTile s p
  let cv (x : Nat) : Nat := if x = 4 then 2 else x
  if off = 0x108 then putBits v 0 2 (cv t.cv0)
  else if off = 0x188 then putBits v 0 2 (cv t.cv1)
  else if 0x90 ≤ off ∧ off < 0xA0 then
    bits (mapGet (fun _ => 0) t.trace (getF s TL_TRACE_SEL_IDX p)).toNat (32 * ((off - 0x90) / 4)) 32
  else v

/-- R545: an entry of the measurement log as bytes: register and block type of 2 bytes each, version, GSC, digest (log entry 33). -/
def mrBytes (m : MrEntry) : List Byte := bytesOf 2 m.reg ++ bytesOf 2 m.block ++ bytesOf 4 m.version ++ bytesOf 8 m.gsc ++ bytesOf 32 m.digest

/-- MG_TMAPl (R515). -/
def tmapView (s : State) (l : Nat) : Nat :=
  match physOf s l with
  | some p => p + 2 ^ 7
  | none => 0

/-- R440: image bytes that the port has taken since the image began, at 50 GB/s; MG_IMAGE_LEFT's home holds the whole length meanwhile. -/
def imageSent (s : State) : Nat := min (getF s MG_IMAGE_LEFT_BYTES 0) (50 * (s.gsc - getTimer s tmImage))

def viewMG (s : State) (off v : Nat) : Nat :=
  if off = 0x118 ∧ s.lend.image = 2 then imageSent s
  else if off = 0x120 ∧ s.lend.image = 2 then v - imageSent s
  else if 0x600 ≤ off ∧ off < 0x700 then tmapView s ((off - 0x600) / 4)
  else if 0x700 ≤ off ∧ off < 0x820 then ptileOf s ((off - 0x700) / 4) + 2 ^ 3 * (logOf s ((off - 0x700) / 4)).getD 0
  else if off = 0x844 then
    putBits (putBits v 0 1 (b2n s.migr.isSome)) 2 5 (s.ptile.filter (fun kv => kv.2 == 1)).length
  else if off = 0x854 then ofBytes ((s.testset.drop 8).take 4)
  else if off = 0x858 then putBits v 17 1 (b2n !s.push.isEmpty)
  else if off = 0x904 then
    putBits (putBits v 0 1 (b2n (s.doms.any (fun kv => 2 ≤ kv.2.phase)))) 2 3 (min (s.resetQ.length - 1) 7)
  else if off = 0xC0C then putBits v 10 11 s.mrlog.length
  else if 0xC40 ≤ off ∧ off < 0xC70 then
    match s.mrlog[getF s MG_MRLOG_SEL_IDX 0]? with
    | some m => bits (ofBytes (mrBytes m)) (32 * ((off - 0xC40) / 4)) 32
    | none => 0
  else if 0xE10 ≤ off ∧ off < 0xF10 then
    let b := (off - 0xE00) / 16
    let w := off % 16 / 4
    sumNat ((List.range 32).map (fun j => if 32 * w + j < blkInstances b ∧ pagePending s b (32 * w + j) then 2 ^ j else 0))
  else v

/-- R589. What the optical engine measures once the port is on is a free value (log entry 145). -/
def viewEB (s : State) (off v : Nat) : Nat :=
  if off = 0x4C then min s.eb.events.length 4096
  else if 0x100 ≤ off ∧ off < 0x110 ∧ getF s EB_STATUS_STATE 0 ≠ 0 then (Config.optical ((off - 0x100) / 4) s.gsc).toNat
  else v

/-- What the register that begins at `off` of a page reads, RSV and WO fields as stored. -/
def viewReg (s : State) (b inst off : Nat) : Nat :=
  let v := (regGet s (regKey b inst off)).toNat
  if off < 0x40 then headerView s b inst off v
  else if isEngineBlk b ∧ 0x100 ≤ off ∧ off < 0x300 then engineView s b inst off v
  else match b with
    | 1 => viewMG s off v
    | 2 => viewTL s inst off v
    | 3 => viewMX s inst off v
    | 4 => viewVX s inst off v
    | 5 => viewDM s inst off v
    | 6 => viewSY s inst off v
    | 7 => viewBA s inst off v
    | 8 => viewCE s inst off v
    | 9 => viewRT s inst off v
    | 10 => viewFL s inst off v
    | 11 => viewMC s inst off v
    | 12 => viewHC s inst off v
    | 13 => if off = 0x48 then s.gsc else v
    | 14 => viewEB s off v
    | _ => v

/-- R10: WO and RSV fields read zero. -/
def readable (r : RegSpec) (v : Nat) : Nat :=
  sumNat (r.fields.map (fun f => if f.typ = .wo ∨ f.typ = .rsv then 0 else bits v f.lo f.len * 2 ^ f.lo))

/-- The register that holds a byte offset of a present page, whole: its first offset, its width in words and what it reads. -/
def readReg (s : State) (b inst off : Nat) : Option (Nat × Nat × Nat) :=
  match regAt b inst off with
  | none => none
  | some (r, i) =>
    let base := r.off + i * r.stride
    some (base, r.words, readable r (viewReg s b inst base))

/-- The 32-bit word at a 4-byte offset of a page (R594: an offset that no chapter assigns reads zero). -/
def readWord (s : State) (b inst off : Nat) : Nat :=
  if blkAbsent s b inst then 0
  else match readReg s b inst off with
    | some (base, _, v) => bits v (8 * (off - base)) 32
    | none => 0

end Sys2Proof.Machine
end

