-- ==== Sys2Proof/Machine/Collect.lean ====
section
/-! DEFINITION. What a collection takes over the debug ring (R526 to R530). -/
namespace Sys2Proof.Machine

/-- R593, R527: the pages of a domain; of the whole chip, every page. -/
def domainPages (d : Nat) : List (Nat × Nat) :=
  ((List.range 17).flatMap (fun b => (List.range (blkInstances b)).map (fun i => (b, i)))).filter
    (fun x => d == 103 || pageDomain x.1 x.2 == d)

def pageAddr (x : Nat × Nat) : Nat := 0xF000000000 + x.1 * 2 ^ 20 + x.2 * 2 ^ 12

/-- R527, R529: one register record; its first `skip` accesses were not answered. -/
def takePage (skip : Nat) (s : State) (x : Nat × Nat) : State :=
  let dn := ashRd s 32 4
  let r := bits dn 16 9
  let ws := (List.range 512).map (fun j => if j < 16 * skip then 0 else readWord s x.1 x.2 (4 * j))
  let s := ashWr s (0xF000 + 4 * r) 4 (pageAddr x / 4096 % 2 ^ 28)
  let s := writeBytes s (ashBase + 0x100000 + 2048 * r) (good (ws.flatMap (bytesOf 4)))
  ashWr s 32 4 (putBits dn 16 9 ((r + 1) % 512))

/-- R530: an entry of UNREADABLE: place, kind (1 tile store, 2 register page), physical tile or 0x7F, cause, 64-byte units. -/
def badEntry (place kind phys cause units : Nat) : Nat :=
  place + 2 ^ 28 * kind + 2 ^ 32 * phys + 2 ^ 40 * cause + 2 ^ 48 * min units 65535

/-- R527: 64 bytes of a bank line, a poisoned word as zeros. -/
def sampleUnit (s : State) (p bank line : Nat) : List Byte :=
  (tileRead s p (tsOfBank bank line) 64).map (fun b => if b.bad then 0 else b.b)

/-- R527, R529: the sample of a physical tile into the next slot. -/
def takeTile (num : Nat) (s : State) (p : Nat) : State :=
  let sn := ashRd s 36 4
  let k := bits sn 0 6
  let bytes := (List.range 32).flatMap (fun b => (List.range 64).flatMap (fun l => sampleUnit s p b l))
  let s := writeBytes s (ashBase + 0x200000 + 0x20000 * k) (good bytes)
  let s := ashWr s (512 + 8 * k) 8 (p + 2 ^ 7 + 2 ^ 8 * (logOf s p).getD 0 + 2 ^ 16 * jobGen s + 2 ^ 32 * num)
  ashWr s 36 4 (putBits sn 0 6 ((k + 1) % 48))

/-- R527: the poisoned units of a tile's sample. -/
def sampleBad (s : State) (p : Nat) : List Nat :=
  (List.range 32).flatMap (fun b => ((List.range 64).filter (fun l => (tileRead s p (tsOfBank b l) 64).any (·.bad))).map
    (fun l => badEntry (tsOfBank b l) 1 p 3 1))

/-- R528: the tiles that a collection samples, in order, as physical tiles. -/
def sampleTiles (s : State) (d : Nat) : List Nat :=
  if d < 72 then [d]
  else if d ≠ 103 then []
  else
    let ps := (List.range 64).filterMap (physOf s)
    let has (st : EState) (p : Nat) : Bool := (tileEngs p).any (fun e => (getEng s e).st == st)
    let a := ps.filter (has .faulted)
    let b := ps.filter (fun p => !has .faulted p && has .waiting p)
    let c := ps.filter (fun p => !has .faulted p && !has .waiting p)
    (a ++ b ++ c).take 48

/-- R528: the logical tiles left out. -/
def omitted (s : State) (d : Nat) (taken : List Nat) : Nat :=
  if d ≠ 103 then 0
  else sumNat ((List.range 64).map (fun l => match physOf s l with
    | some p => if taken.contains p then 0 else 2 ^ l
    | none => 0))

/-- R526: what the timeouts of a collection leave unread: the unanswered accesses of the first page and, after four, the rest. -/
def timeoutBad (d n : Nat) (pages : List (Nat × Nat)) (tiles : List Nat) : List Nat :=
  let phys := if d < 72 then d else 0x7F
  match pages with
  | [] => []
  | x :: r =>
    if n = 0 then []
    else
      let place (y : Nat × Nat) : Nat := pageAddr y / 4096 % 2 ^ 28
      badEntry (place x) 2 phys 1 (min n 4) :: (if n < 4 then [] else
        badEntry (place x) 2 phys 2 28 :: r.map (fun y => badEntry (place y) 2 phys 2 32) ++ tiles.map (fun p => badEntry 0 1 p 2 2048))

/-- R526 to R530: the collection of a domain, taken at its end. -/
def collect (s : State) (d : Nat) : State :=
  match (getDom s d).entry with
  | none => s
  | some e =>
    let n := (getDom s d).timeouts
    let pages := domainPages d
    let tiles := sampleTiles s d
    let stop := 4 ≤ n
    let num := ashRd s (dirOff e) 4
    let k0 := bits (ashRd s 36 4) 0 6
    let bad := timeoutBad d n pages tiles ++ (if stop then [] else tiles.flatMap (sampleBad s))
    let om := omitted s d tiles
    let s := ashWr s (dirOff e + 32) 4 (bits (ashRd s 32 4) 16 9)
    let s := if stop then s else (pages.drop 1).foldl (takePage 0) ((pages.take 1).foldl (takePage n) s)
    let s := if stop then s else tiles.foldl (takeTile num) s
    let slots := if stop then 0 else sumNat ((List.range tiles.length).map (fun i => 2 ^ ((k0 + i) % 48)))
    let s := ashWr (ashWr s (dirOff e + 16) 8 s.gsc) (dirOff e + 26) 2 (if stop then 0 else pages.length)
    let s := ashWr (ashWr s (dirOff e + 36) 6 slots) (dirOff e + 48) 8 om
    let s := writeBytes s (ashBase + dirOff e + 64) (good ((bad.take 24).flatMap (bytesOf 8)))
    let s := if om = 0 then s else setFlag s d 1
    setFlag s d 0

/-! What a domain's reset does to its pages (R558, R602). -/

/-- A header register that a reset clears: all but IRQ_ENABLE, and PERIOD_ID and STAT_LATCH, which the MG page keeps for all. -/
def headerCleared (off : Nat) : Bool := off < 0x40 && off != 0x24 && off != 0x38 && off != 0x3C

/-- R558, R602: the header fields of a domain's pages and its live and _LATCHED counters return to their reset values. -/
def resetPages (s : State) (d : Nat) : State :=
  { s with
    regs := mapDrop (fun k => pageDomain (k / 2 ^ 20) (k / 2 ^ 12 % 256) == d
      && (headerCleared (k % 2 ^ 12) || isLatched k || (latchOf k).isSome)) s.regs
    statReset := mapSet (fun _ => false) s.statReset d true }

/-- R601, R523 step 5: READY on every page of a domain. -/
def setReady (s : State) (d : Nat) : State :=
  ((domainPages d).filter (fun x => pageDomain x.1 x.2 == d)).foldl (fun s x => wrF s x.1 H_IRQ_STATUS_READY x.2 0 1) s

/-- R523 step 5, R530, R535: a domain is admitted: its dump is marked, READY is set and DOMAIN_READY delivered. -/
def admitDomain (s : State) (d : Nat) : State :=
  let num := dumpNumber s d
  let s := setFlag s d 2
  let s := if 72 ≤ d ∧ d < 78 then setF (setF s MC_STATUS_SELF_REFRESH (d - 72) 0) MC_STATUS_TRAINED (d - 72) 1 else s
  let s := setReady (setDom s d { getDom s d with phase := 0, entry := none }) d
  raiseMgcTile s 0x0407 (if d < 72 then d else 0xFF) (d + 2 ^ 8 * (getDom s d).gen + 2 ^ 16 * num)

end Sys2Proof.Machine
end

