-- ==== Sys2Proof/Machine/Flue.lean ====
section
/-! DEFINITION. Flues (chapter 10): frames, link-level retry, the damper, training and authentication, the slot check, lane rotation
and failure, and the flue's way down. -/
namespace Sys2Proof.Machine

/-! Frames (R331). -/

/-- One byte of the CRC-64 of R331 and R469: polynomial 0x42F0_E1EB_A9EA_3693, no reflection. -/
def crc64Byte (c : BitVec 64) (b : Byte) : BitVec 64 :=
  (List.range 8).foldl (fun r _ => if r.msb then (r <<< 1) ^^^ 0x42F0E1EBA9EA3693#64 else r <<< 1) (c ^^^ (b.setWidth 64 <<< 56))

/-- The CRC-64 of a byte string, from a starting value. -/
def crc64From (c : BitVec 64) (bs : List Byte) : BitVec 64 := bs.foldl crc64Byte c

/-- R331: the 24 header bytes of a frame. -/
def flHeader (fr : FlFrame) : Nat :=
  fr.fseq.toNat + 2 ^ 12 * fr.typ.toNat + 2 ^ 16 * fr.ack.toNat + 2 ^ 28 * b2n fr.nak + 2 ^ 29 * b2n fr.ts + 2 ^ 30 * b2n fr.rot
    + 2 ^ 31 * b2n fr.rsvA + 2 ^ 32 * fr.damper.toNat + 2 ^ 38 * fr.rsvB.toNat + 2 ^ 40 * b2n fr.half + 2 ^ 41 * fr.rsvC.toNat
    + 2 ^ 48 * (fr.body.length % 1024) + 2 ^ 58 * fr.rsvD.toNat + 2 ^ 64 * fr.tstamp.toNat + 2 ^ 128 * fr.rotAt.toNat
    + 2 ^ 140 * fr.rsvE.toNat + 2 ^ 144 * fr.rotOld.toNat + 2 ^ 148 * fr.rotNew.toNat + 2 ^ 152 * (fr.rsvF.toNat % 256)
    + 2 ^ 160 * fr.gen.toNat + 2 ^ 168 * (fr.rsvF.toNat / 256)

/-- Bytes 0 to 1,015 of a frame. -/
def flBytes (fr : FlFrame) : List Byte :=
  bytesOf 24 (flHeader fr) ++ fr.body.map (·.b) ++ List.replicate (992 - fr.body.length) 0

def flCrc (fr : FlFrame) : BitVec 64 := crc64From 0 (flBytes fr)

/-! Registers of a flue. -/

def flueState (s : State) (f : Nat) : Nat := getF s FL_STATUS_STATE f
def setFlueState (s : State) (f v : Nat) : State := setF s FL_STATUS_STATE f v
def flueDomain (f : Nat) : Nat := 78 + f
def flueGen (s : State) (f : Nat) : Nat := (getDom s (flueDomain f)).gen
def modFlue (s : State) (f : Nat) (g : Flue → Flue) : State := setFlue s f (g (getFlue s f))

/-- FL_LANEMAP.LOGn. -/
def logLane (s : State) (f n : Nat) : Nat := bits (regGet s (regKey 10 f 0x48)).toNat (4 * n) 4
def setLogLane (s : State) (f n v : Nat) : State :=
  regSet s (regKey 10 f 0x48) (BitVec.ofNat 64 (putBits (regGet s (regKey 10 f 0x48)).toNat (4 * n) 4 v))

/-- The logical lane that a physical lane carries. -/
def laneLog (s : State) (f l : Nat) : Option Nat := (List.range 8).find? (fun n => logLane s f n == l)
def laneFailed (s : State) (f l : Nat) : Bool := bit (getF s FL_LANES_FAILED f) l
def setLState (s : State) (f l v : Nat) : State := setFi s FL_LANE_LSTATE f l v

/-- R354: a record of a flue. -/
def flueRec (s : State) (f code lane cause : Nat) : State :=
  raise s 10 f (mgcRec s code 0xFF (f + 2 ^ 8 * lane + 2 ^ 16 * cause + 2 ^ 32 * getF s FL_PEER_NODE f))

/-! The damper (R337, R338). -/

def vcBuffer : Nat := 196608

/-- Bytes held in a flue's receive buffer of a VC. -/
def vcHeld (s : State) (f v : Nat) : Nat :=
  sumNat ((s.router.held.filter (fun h => h.via == some f && h.pkt.vc.toNat == v)).map (fun h => packetSize h.pkt))

/-- R355: HEADROOM in bytes; below 18 acts as 18, above 22 as 22. -/
def headroom (s : State) (f : Nat) : Nat := min (max (getF s FL_DAMP_CFG_HEADROOM f) 18) 22 * 8192

/-- R337: the DAMPER bits of the next outgoing header. -/
def damperBits (s : State) (f : Nat) : Nat :=
  sumNat ((List.range 6).map (fun v =>
    let free := vcBuffer - vcHeld s f v
    let on := free < headroom s f || (bit (getFlue s f).damperOut v && free < headroom s f + 8192)
    b2n on * 2 ^ v))

/-! Going down (R351). -/

/-- The packets that a flue has taken and not delivered: started, or in a frame that no ACK covers, or in its receive buffers. -/
def lostPackets (s : State) (f : Nat) : Nat :=
  let x := getFlue s f
  x.unacked.length + b2n x.cur.isSome + (s.router.held.filter (fun h => h.via == some f)).length

/-- R351 step 2: FL_GEN increments, the buffers are dropped and their packets counted; packets that had not started return to the
router as they came, to take another hop (R366, R381); the link retrains, or is held while EN is 0. -/
def flueClear (s : State) (f : Nat) : State :=
  let x := getFlue s f
  let lost := lostPackets s f
  let s := resetPages (nextGen s (flueDomain f)) (flueDomain f)
  let s := addF s FL_LOST_PACKETS f lost
  let s := { s with router := { s.router with held := s.router.held.filter (fun h => h.via != some f) ++ x.txq } }
  let s := setFlue s f { Flue.reset with fails := x.fails, lastRot := x.lastRot, nextLane := x.nextLane }
  let s := setF (setF s FL_STATUS_ROTATING f 0) FL_LANES_RECAL f 0xF
  let s := if getF s FL_CFG_SELFTEST_STATUS f = 1 then setF s FL_CFG_SELFTEST_STATUS f 0 else s
  setFlueState s f (if flagF s FL_CFG_EN f then 1 else 5)

/-- R351, R519, R523: an event takes a flue down: its dump, the reset of its domain, the record. -/
def flueDown (s : State) (f lane cause : Nat) : State :=
  let s := collect (beginDump s (flueDomain f) 7) (flueDomain f)
  flueRec (setF (flueClear s f) MG_RESET_STATUS_LAST 0 (flueDomain f)) f 0x0906 lane cause

/-- FLUE_FRAME_LOCK_LOST. -/
def frameLockLost (s : State) (f : Nat) : State := if 3 ≤ (getFlue s f).step then flueDown s f 0xF 3 else s

/-- FL_RESET: R351, R353. -/
def flReset (s : State) (f : Nat) : State :=
  flueDown (modFlue s f (fun x => { x with fails := 0 })) f 0xF 4

/-- FL_EN_WRITE: R353, R355. -/
def flEnWrite (s : State) (f : Nat) (v : Bool) : State :=
  if flagF s FL_CFG_EN f = v then s
  else
    let s := setF s FL_CFG_EN f (b2n v)
    if v then setFlueState (modFlue s f (fun x => { x with fails := 0 })) f 1
    else flueDown s f 0xF 4

/-! Transmission (R331, R334, R335, R337). -/

/-- R337, R378: the packet that starts next, as it leaves (`hop`), and the flue without it: a message of the MGC to the far end, else,
where packets pass (`all`), the first that the damper lets start. -/
def nextStart (hop : Packet → Packet) (all : Bool) (x : Flue) : Option (Packet × Flue) :=
  let ok (p : Packet) : Bool := !bit x.damper (hop p).vc.toNat
  match x.msgs.find? ok with
  | some p => some (hop p, { x with msgs := x.msgs.erase p })
  | none => if !all then none else match x.txq.find? (fun h => ok h.pkt) with
    | some h => some (hop h.pkt, { x with txq := x.txq.erase h })
    | none => none

/-- Fill a frame's body: the packet that has started first, then packets that may start. Answers the bytes taken, the packets whose
last byte they hold, those that start in it, and the flue. -/
def fillBody (hop : Packet → Packet) (all : Bool) : Nat → Nat → Flue → List PByte × List Packet × List Packet × Flue
  | 0, _, x => ([], [], [], x)
  | fuel + 1, room, x =>
    if room = 0 then ([], [], [], x)
    else match x.cur with
      | none => match nextStart hop all x with
        | none => ([], [], [], x)
        | some (p, y) =>
          let (bs, ends, starts, z) := fillBody hop all fuel room { y with cur := some p, txBytes := packetBytes p }
          (bs, ends, p :: starts, z)
      | some p =>
        let now := x.txBytes.take room
        let rest := x.txBytes.drop room
        if rest.isEmpty then
          let (more, ends, starts, y) := fillBody hop all fuel (room - now.length) { x with cur := none, txBytes := [] }
          (now ++ more, p :: ends, starts, y)
        else (now, [], [], { x with txBytes := rest })

/-- The header that every outgoing frame carries: the acknowledgement, the damper, the width, the rotation, the GSC and the generation. -/
def frameHead (s : State) (f : Nat) (x : Flue) (fr : FlFrame) : FlFrame :=
  let r := match x.rot with | some r => if r.phase = 0 ∧ !r.txDone then (true, r.tx, r.lane, r.new) else (false, 0, 0, 0) | none => (false, 0, 0, 0)
  let fr := { fr with
    ack := BitVec.ofNat 12 (x.rseq + 4095), nak := x.sendNak, damper := BitVec.ofNat 6 (damperBits s f), half := x.half, ts := true
    tstamp := BitVec.ofNat 64 s.gsc, rot := r.1, rotAt := BitVec.ofNat 12 r.2.1, rotOld := BitVec.ofNat 4 r.2.2.1
    rotNew := BitVec.ofNat 4 r.2.2.2, gen := BitVec.ofNat 8 (flueGen s f) }
  { fr with crc := flCrc fr }

/-- A frame of a type and a body. -/
def frameOf (fseq typ : Nat) (body : List PByte) : FlFrame :=
  ⟨BitVec.ofNat 12 fseq, BitVec.ofNat 4 typ, 0, false, false, false, false, 0, 0, false, 0, 0, 0, 0, 0, 0, 0, 0, 0, body, 0⟩

/-- R332, R348 step 1: the bytes of a frame that each physical lane carries, in 16-byte units; until a swap the joining lane carries a
copy of the leaving lane's. -/
def stripe (s : State) (f : Nat) (x : Flue) (fr : FlFrame) : List (List Byte) :=
  let units := (chunksOf 16 1024 (flBytes fr ++ bytesOf 8 fr.crc.toNat)).zipIdx
  let n := if x.lineHalf then 4 else 8
  (List.range 9).map (fun l =>
    let from' := match x.rot with | some r => if r.phase = 0 ∧ !r.txDone ∧ l = r.new then r.lane else l | none => l
    match (List.range n).find? (fun k => logLane s f k == from') with
    | some k => (units.filter (fun u => u.2 % n == k)).flatMap (·.1)
    | none => [])

/-- A frame leaves; the width that its header announces holds from the next frame on (R331). -/
def putFrame (s : State) (f : Nat) (x : Flue) (fr : FlFrame) : State :=
  let fr := frameHead s f x fr
  let sent := if fr.typ = 0 ∧ !x.sent.any (fun y => y.1.fseq == fr.fseq) then x.sent ++ [(fr, 0)] else x.sent
  setFlue s f { x with
    sent := sent, line := some fr, lanes := stripe s f x fr, lineHalf := fr.half, sendNak := false, damperOut := damperBits s f }

/-- R424: the lowest-numbered flue of the parent slot that is UP. -/
def parentFlue (s : State) : Option Nat := (slotFlues s (getF s CK_CFG_PARENT 0)).find? (flueUp s)

/-- R424: the departure count of the frame that an exchange goes out with. -/
def noteDepart (s : State) (f : Nat) : State :=
  if s.clock.ask ∧ parentFlue s = some f ∧ (getFlue s f).msgs.isEmpty then
    { s with clock := { s.clock with ask := false, t1 := some s.gsc } }
  else s

/-- R342 step 4: what a discovery frame tells, in the model's own layout (log entry 128): device ID, flue, slot and preset. -/
def discBody (s : State) (f : Nat) : List PByte :=
  good (bytesOf 8 (getF s MG_DEVICE_ID_ID 0) ++ [f, flueSlot s f, getF s FL_CFG_PRESET f].map (BitVec.ofNat 8))

/-- FLUE_FRAME_TRANSMIT: a replayed frame, else the control frame of discovery (R342), else a data frame, else an idle frame. A control
or idle frame carries the FSEQ of the next data frame and takes none (log entry 35). A started packet counts at the flue's port
(R383). -/
def flueTransmit (s : State) (f : Nat) : State :=
  let x := getFlue s f
  if x.step < 3 ∨ !flagF s FL_CFG_EN f then s
  else match x.replay with
    | r :: rest =>
      let sent := x.sent.map (fun y => if y.1.fseq = r.fseq then (y.1, y.2 + 1) else y)
      putFrame (addStat s FL_REPLAYS f 1) f { x with replay := rest, sent := sent } r
    | [] =>
      let (body, ps, starts, y) := if 4 ≤ x.step then fillBody (onHop s (flueSlot s f)) (carries s f) 128 992 x else ([], [], [], x)
      if !x.disc then putFrame s f { x with disc := true } (frameOf x.fseq 2 (discBody s f))
      else if body.isEmpty then putFrame s f x (frameOf x.fseq 1 [])
      else if 256 ≤ x.sent.length then putFrame (addStat s FL_REPLAYS f 1) f x (frameOf x.fseq 1 [])
      else
        let s := starts.foldl (fun s p => countPort s (1 + f) p) s
        let y := { y with fseq := (x.fseq + 1) % 4096, unacked := y.unacked ++ ps.map (fun p => (p, x.fseq)) }
        noteDepart (noteOld (putFrame (addStat s FL_TX_BYTES f body.length) f y (frameOf x.fseq 0 body))) f

/-! Reception (R333, R334, R336 to R338). -/

/-- An ACK covers a sequence number. -/
def acked (ack fseq : Nat) : Bool := (ack + 4096 - fseq) % 4096 < 2048

/-- R334, R336: the ACK and NAK of a good header. -/
def takeAck (s : State) (f : Nat) (fr : FlFrame) : State :=
  let a := fr.ack.toNat
  let s := modFlue s f (fun x => { x with
    sent := x.sent.filter (fun y => !acked a y.1.fseq.toNat), unacked := x.unacked.filter (fun u => !acked a u.2)
    replay := x.replay.filter (fun r => !acked a r.fseq.toNat) })
  if !fr.nak then s
  else
    let x := getFlue s f
    let max := if getF s FL_RETRY_CFG_REPLAY_MAX f = 0 then 8 else getF s FL_RETRY_CFG_REPLAY_MAX f
    if x.sent.any (fun y => max ≤ y.2) then flueDown s f 0xF 2 else setFlue s f { x with replay := x.sent.map (·.1) }

/-- R333, R334: a rejected frame. -/
def rejectFrame (s : State) (f : Nat) : State :=
  modFlue (addF s FL_ERR_CRC_ERRORS f 1) f (fun x => { x with sendNak := x.sendNak || !x.naked, naked := true })

/-- R338: the packets of a frame for a VC buffer that cannot hold them. -/
def overruns (s : State) (f : Nat) (ps : List Packet) : Bool :=
  (List.range 6).any (fun v =>
    let n := sumNat ((ps.filter (fun p => p.vc.toNat == v)).map packetSize)
    n != 0 && vcBuffer < vcHeld s f v + n)

/-- The spare is there and no rotation runs. -/
def spareFree (s : State) (f : Nat) : Bool := getF s FL_LANES_SPARE f != 0xF && (getFlue s f).rot.isNone && flueUp s f

/-- R348 steps 1 and 3: a rotation of `lane` onto the spare: the stream is copied and the swap of the own direction announced, 64 frames
ahead; `rx` is the other direction's ROT_AT where the far end leads. -/
def beginRot (s : State) (f lane : Nat) (test : Bool) (rx : Option Nat) : State :=
  let sp := getF s FL_LANES_SPARE f
  let s := modFlue s f (fun x => { x with
    rot := some ⟨0, lane, sp, test, s.gsc, (x.fseq + 64) % 4096, false, rx, false⟩, lastRot := s.gsc, nextLane := (lane + 1) % 9 })
  setF s FL_STATUS_ROTATING f 1

/-- The rotation fields of a received header (R348 step 3): a follower announces the same swap for its direction, a leader takes the
follower's ROT_AT. -/
def takeRot (s : State) (f : Nat) (fr : FlFrame) : State :=
  let lane := fr.rotOld.toNat
  if !fr.rot then s
  else match (getFlue s f).rot with
    | some r => if r.lane = lane ∧ r.new = fr.rotNew.toNat ∧ r.rx = none then
        modFlue s f (fun x => { x with rot := some { r with rx := some fr.rotAt.toNat } }) else s
    | none =>
      if spareFree s f ∧ getF s FL_LANES_SPARE f = fr.rotNew.toNat ∧ (laneLog s f lane).isSome then
        beginRot s f lane false (some fr.rotAt.toNat)
      else s

/-- A message of this MGC on a flue, in pieces of 256 bytes; its layout is the model's own (log entry 128). -/
def flueMessage (s : State) (f : Nat) (bs : List Byte) : State :=
  ((chunksOf 256 bs.length bs).zipIdx).foldl (fun s c => modFlue s f (fun x => { x with msgs := x.msgs ++
    [{ request s 0x4A 6 (epId (getF s FL_PEER_NODE f) 0x4A) ((getDom s 102).gen * 256 + 1) c.2 with
       payload := good c.1, len := BitVec.ofNat 9 c.1.length, last := 256 * c.2 + c.1.length == bs.length }] })) s

/-- R424 step 2: a neighbour's exchange is answered with its arrival count (8 fraction bits, which are free), the departure count and
the time state. -/
def timeAnswer (s : State) (f : Nat) : State :=
  let (w, s) := freshWord s
  flueMessage s f ([6] ++ bytesOf 8 (256 * s.gsc + w.toNat % 256) ++ bytesOf 8 (256 * s.gsc) ++ bytesOf 1 (getF s CK_STATUS_STATE 0))

/-- A packet that comes by a flue: it passes to the router where packets pass. A message of the neighbour's MGC is taken before that as
well (R378): what it tells is its own row's operand, but a time exchange, which is answered here. -/
def fromFlue (s : State) (f : Nat) (p : Packet) : State :=
  if p.typ = 6 ∧ (getFlue s f).authed ∧ p.payload = good [5] then timeAnswer s f
  else if carries s f then routerArrive s p (some f) false
  else s

/-- R424: a frame of the parent with TS: its arrival count. -/
def noteArrive (s : State) (f : Nat) (fr : FlFrame) : State :=
  if fr.ts ∧ parentFlue s = some f then { s with clock := { s.clock with t4 := s.gsc } } else s

/-- FLUE_FRAME_RECEIVED: R333. The packets that the frame completes pass to the router. -/
def flueReceive (s : State) (f : Nat) (fr : FlFrame) (ucw : Bool) (corrected : Nat) : State :=
  let x := getFlue s f
  if x.step < 3 ∨ !flagF s FL_CFG_EN f then s
  else
    let s := addStat s FL_FEC_CORRECTED f corrected
    let bad := fr.crc != flCrc fr || ucw || fr.fseq.toNat != x.rseq || fr.gen.toNat != x.peerGen || 992 < fr.body.length
    if bad then rejectFrame s f
    else
      let (ps, rest) := if fr.typ = 0 then parsePackets 128 (x.rxBytes ++ fr.body) else ([], x.rxBytes)
      if overruns s f ps then rejectFrame (addF s FL_ERR_DAMP_OVERRUN f 1) f
      else
        let s := modFlue s f (fun x => { x with
          rseq := if fr.typ = 0 then (x.rseq + 1) % 4096 else x.rseq, naked := false, rxBytes := rest, damper := fr.damper.toNat })
        let s := if fr.typ = 0 then addStat s FL_RX_BYTES f fr.body.length else s
        let s := ps.foldl (fun s p => fromFlue s f p) (noteArrive s f fr)
        takeAck (takeRot s f fr) f fr

/-! Training (R342, R352, R353). -/

def goodLanes (m : BitVec 9) : List Nat := (List.range 9).filter (fun l => m.getLsbD l)

/-- FLUE_LANE_TRAINED: at least four lanes lock. -/
def laneTrained (s : State) (f : Nat) (lanes : BitVec 9) : State :=
  let g := goodLanes lanes
  if flueState s f ≠ 1 ∨ (getFlue s f).step ≠ 0 ∨ g.length < 4 then s
  else
    let s := setF (setF s FL_STATUS_LANES_GOOD f g.length) FL_LANES_FAILED f ((2 ^ 9 - 1) ^^^ lanes.toNat)
    modFlue s f (fun x => { x with step := 1 })

/-- FLUE_FEC_LOCK: the lane map is agreed, with the worst-margin lane as spare when all nine are good; fewer than eight run narrow
(R349); generations are exchanged. -/
def fecLock (s : State) (f : Nat) (lanes : BitVec 9) (spare peerGen : Nat) : State :=
  let ok := (goodLanes lanes).filter (fun l => !laneFailed s f l)
  if (getFlue s f).step ≠ 1 ∨ ok.length < 4 then s
  else
    let sp := if ok.length = 9 then spare else 0xF
    let act := ok.filter (fun l => l != sp)
    let act := if ok.length < 8 then act.take 4 else act
    let bad := (List.range 9).filter (fun l => !ok.contains l)
    let s := setF (setF s FL_LANES_SPARE f sp) FL_LANES_FAILED f (sumNat (bad.map (fun l => 2 ^ l)))
    let s := setF s FL_STATUS_LANES_GOOD f ok.length
    let s := (List.range act.length).foldl (fun s n => setLogLane s f n (act[n]?.getD 0)) s
    let s := (List.range 9).foldl (fun s l => setLState s f l (if bad.contains l then 3 else if l = sp then 1 else 0)) s
    let s := modFlue s f (fun x => { x with step := 2, half := decide (ok.length < 8), peerGen := peerGen })
    match bad with
    | [] => s
    | l :: _ => flueRec s f (if ok.length < 8 then 0x0905 else 0x0904) l 1

/-- FLUE_FRAME_LOCK. -/
def frameLock (s : State) (f : Nat) : State :=
  if (getFlue s f).step = 2 then modFlue s f (fun x => { x with step := 3, fseq := 0, rseq := 0 }) else s

/-- FLUE_TRAIN_FAIL: R353. -/
def trainFail (s : State) (f : Nat) : State :=
  if flueState s f ≠ 1 ∧ flueState s f ≠ 2 then s
  else
    let n := (getFlue s f).fails + 1
    let s := modFlue s f (fun x => { Flue.reset with fails := n, lastRot := x.lastRot, nextLane := x.nextLane })
    if n < 3 then setFlueState s f 1 else flueRec (setFlueState s f 5) f 0x0906 0xF 5

/-! Discovery (R341, R342 step 4). -/

/-- The device reached by most flues of a list, that of the lowest flue on a tie. -/
def majority (ds : List (BitVec 64)) : Option (BitVec 64) :=
  ds.foldl (fun best d => match best with
    | none => some d
    | some b => if (ds.filter (· == b)).length < (ds.filter (· == d)).length then some d else best) none

/-- The flues of a slot that discovery has reached, with their peers. -/
def slotPeers (s : State) (sl : Nat) : List (Nat × FluePeer) :=
  (slotFlues s sl).filterMap (fun f => (getFlue s f).peer.map (fun p => (f, p)))

/-- R341: why a flue is MISWIRED: 1 wrong slot, 2 minority device, 0 not. A bypass slot may reach any slot (R340). -/
def miswired (s : State) (f : Nat) (p : FluePeer) : Nat :=
  if p.slot.toNat ≠ flueSlot s f ^^^ 1 ∧ !bypassSlot s f then 1
  else if majority ((slotPeers s (flueSlot s f)).map (·.2.device)) ≠ some p.device then 2
  else 0

/-- R341: judge the flues of a slot. -/
def judgeWiring (s : State) (sl : Nat) : State :=
  (slotPeers s sl).foldl (fun s x =>
    let c := miswired s x.1 x.2
    let was := getF s FL_PEER_PSTATE x.1 == 6
    if c = 0 then (if was then setF s FL_PEER_PSTATE x.1 0 else s)
    else if was then s
    else flueRec (setF s FL_PEER_PSTATE x.1 6) x.1 0x0903 0xF c) s

/-- R548 step 1: the own HELLO: device ID, flue, slot, a fresh nonce, the certificate chain. -/
def sendHello (s : State) (f : Nat) : State :=
  let (a, s) := freshWord s
  let (b, s) := freshWord s
  let (c, s) := freshWord s
  let (d, s) := freshWord s
  let n : BitVec 256 := a ++ b ++ c ++ d
  let s := modFlue s f (fun x => { x with ownNonce := some n })
  flueMessage s f ([1] ++ bytesOf 8 (getF s MG_DEVICE_ID_ID 0) ++ [f, flueSlot s f].map (BitVec.ofNat 8) ++ bytesOf 32 n.toNat ++ Config.certChain)

/-- R548 step 2: the own PROOF: the signature of both nonces, the own device ID, flue and slot. -/
def sendProof (s : State) (f : Nat) (peer : BitVec 256) : State :=
  let own := ((getFlue s f).ownNonce.getD 0).toNat
  flueMessage s f ([2] ++ bytesOf 64 (Config.sign (bytesOf 32 peer.toNat ++ bytesOf 32 own ++ bytesOf 8 (getF s MG_DEVICE_ID_ID 0)
    ++ [f, flueSlot s f].map (BitVec.ofNat 8))).toNat)

/-- FLUE_DISCOVERY. -/
def discovery (s : State) (f : Nat) (p : FluePeer) : State :=
  if (getFlue s f).step ≠ 3 then s
  else
    let s := modFlue s f (fun x => { x with step := 4, peer := some p, proofSince := s.gsc, nonce := none, authed := false, authFail := false })
    let s := setF (setF s FL_PEER_FLUE f p.flue.toNat) FL_PEER_ID_DEVICE_ID f p.device.toNat
    sendHello (judgeWiring (setFlueState s f 2) (flueSlot s f)) f

/-! The slot check (R344 to R346). -/

/-- The device found in a slot: that of its authenticated flues that are not MISWIRED. -/
def slotDevice (s : State) (sl : Nat) : Option (BitVec 64) :=
  majority (((slotPeers s sl).filter (fun x => (getFlue s x.1).authed && getF s FL_PEER_PSTATE x.1 != 6)).map (·.2.device))

/-- R344: the state of a slot, from its plan (0 names no neighbour) and the device found there. -/
def slotState (plan : DWord) (found : Option (BitVec 64)) : Nat :=
  match found with
  | none => if plan = 0 then 5 else 2
  | some d => if plan = 0 then 4 else if d = plan then 1 else 3

/-- R344: check one slot. -/
def checkSlot (s : State) (sl : Nat) : State :=
  let fs := slotFlues s sl
  match fs with
  | [] => s
  | f0 :: _ =>
    let (old, plan, node) := getSlot s sl
    let st := slotState plan (slotDevice s sl)
    let s := setSlot s sl (st, plan, node)
    let s := fs.foldl (fun s f => if getF s FL_PEER_PSTATE f = 6 then s
      else setF (setF s FL_PEER_PSTATE f st) FL_PEER_NODE f (if st = 1 then node else 0xFFFF)) s
    if st = old then s
    else if st = 2 then flueRec s f0 0x0902 0xF 0
    else if st = 4 then flueRec s f0 0x0901 0xF 1
    else if st = 3 then flueRec s f0 0x0901 0xF 2
    else s

/-- R345: a required slot is MISSING or MISMATCH. -/
def joinDegraded (s : State) : Bool := (List.range 8).any (fun sl => (getSlot s sl).1 == 2 || (getSlot s sl).1 == 3)

/-- The slot check can be made: the plan is loaded and the catalogue is live (R342 step 6, R378). -/
def canCheck (s : State) : Bool := s.planned && flagF s RT_STATUS_CAT_LIVE 0

/-- R345, R538: before K5 a slot that fails makes a degraded-join. -/
def noteDegraded (s : State) : State :=
  if getF s MG_KIND_STATUS_STAGE 0 = 4 then setF s MG_KIND_STATUS_DEGRADED 0 (b2n (joinDegraded s)) else s

/-- The slot check of K4: every slot (R378). -/
def slotCheck (s : State) : State := if canCheck s then noteDegraded ((List.range 8).foldl checkSlot s) else s

/-- The slot check of a flue that has trained (R342 step 6). -/
def slotCheckOne (s : State) (sl : Nat) : State := if canCheck s then noteDegraded (checkSlot s sl) else s

/-! Authentication (R343, R548). -/

/-- R343: a flue is held out of service until its next reset. -/
def attestFail (s : State) (f cause : Nat) : State :=
  let s := setFlueState (modFlue s f (fun x => { x with authFail := true })) f 5
  raise s 10 f (mgcRec s 0x0801 0xFF (f + 2 ^ 16 * cause))

/-- R548: a flue of the same slot has authenticated the same device already. -/
def knownPeer (s : State) (f : Nat) (p : FluePeer) : Bool :=
  (slotPeers s (flueSlot s f)).any (fun x => x.1 != f && (getFlue s x.1).authed && x.2.device == p.device)

/-- NEIGHBOUR_HELLO. The device ID of the HELLO must be the one that discovery showed (log entry 36). -/
def hello (s : State) (f : Nat) (p : FluePeer) (nonce : BitVec 256) (chainOk : Bool) : State :=
  let x := getFlue s f
  if x.step ≠ 4 ∨ x.authFail then s
  else match x.peer with
    | none => s
    | some q =>
      if q.device ≠ p.device then attestFail s f 4
      else sendProof (setFlue s f { x with nonce := some nonce, chainOk := chainOk || knownPeer s f p }) f nonce

/-- PROOF_TIMEOUT. -/
def proofTimeout (s : State) (f : Nat) : State :=
  let x := getFlue s f
  if x.step = 4 ∧ !x.authFail ∧ x.proofSince + 200000000 ≤ s.gsc then attestFail s f 3 else s

/-! Lane rotation and self-test (R348, R350). -/

/-- R348: the end with the lower device ID leads. -/
def leads (s : State) (f : Nat) : Bool :=
  match (getFlue s f).peer with | some p => getF s MG_DEVICE_ID_ID 0 < p.device.toNat | none => false

/-- The next lane in turn that is active (R348). -/
def nextRotLane (s : State) (f : Nat) : Option Nat :=
  ((List.range 9).map (fun i => ((getFlue s f).nextLane + i) % 9)).find? (fun l => (laneLog s f l).isSome && !laneFailed s f l)

/-- LANE_ROTATION_START: R348 steps 1 to 3, by the end that leads. `same` says that the 1,024 codewords checked on the spare agree with
the leaving lane's; otherwise no swap is announced (log entry 129). -/
def rotationStart (s : State) (f : Nat) (same : Bool) : State :=
  let per := (if getF s FL_ROT_CFG_PERIOD_S f = 0 then 60 else getF s FL_ROT_CFG_PERIOD_S f) * 1000000000
  if !flagF s FL_ROT_CFG_EN f ∨ !spareFree s f ∨ !leads s f ∨ s.gsc < (getFlue s f).lastRot + per then s
  else match nextRotLane s f with
    | some l => if same then beginRot s f l false none else modFlue s f (fun x => { x with lastRot := s.gsc, nextLane := (l + 1) % 9 })
    | none => s

/-- FL_SELFTEST: R350. -/
def selftest (s : State) (f : Nat) : State :=
  if !spareFree s f then setF s FL_CFG_SELFTEST_STATUS f 2
  else match nextRotLane s f with
    | some l => setF (beginRot s f l true none) FL_CFG_SELFTEST_STATUS f 1
    | none => setF s FL_CFG_SELFTEST_STATUS f 2

/-- R350: a deferred self-test runs once a spare is free. -/
def deferredTest (s : State) (f : Nat) : State := if getF s FL_CFG_SELFTEST_STATUS f = 2 ∧ spareFree s f then selftest s f else s

/-- NEIGHBOUR_PROOF: R548 step 3, R342 step 6; a self-test that waits for a spare may run again (R350). -/
def proof (s : State) (f : Nat) (sigOk : Bool) : State :=
  let x := getFlue s f
  if x.step ≠ 4 ∨ x.authFail ∨ x.nonce.isNone then s
  else if !x.chainOk then attestFail s f 1
  else if !sigOk then attestFail s f 2
  else
    let s := setFlue s f { x with authed := true, step := 5, fails := 0 }
    deferredTest (slotCheckOne (setFlueState s f (if x.half then 4 else 3)) (flueSlot s f)) f

/-- Frame `cur` is at or beyond the frame that a swap is announced for (R348 step 4). -/
def reached (cur at' : Nat) : Bool := (cur + 4096 - at') % 4096 < 2048

/-- The transmit direction stripes onto the new lane. -/
def moveTx (s : State) (f : Nat) (r : FlueRot) : State :=
  let s := match laneLog s f r.lane with | some n => setLogLane s f n r.new | none => s
  setLState (setF s FL_LANES_SPARE f 0xF) f r.new 0

/-- LANE_SWAP: R348 steps 4 and 5: each direction whose next frame is at its ROT_AT moves; once both have, the leaving pair recalibrates
or is tested. -/
def laneSwap (s : State) (f : Nat) : State :=
  let x := getFlue s f
  match x.rot with
  | none => s
  | some r =>
    if r.phase ≠ 0 then s
    else
      let tx := !r.txDone && reached x.fseq r.tx
      let rx := match r.rx with | some a => reached x.rseq a | none => false
      let r' := { r with txDone := r.txDone || tx, rxDone := r.rxDone || rx }
      let s := if tx then moveTx s f r else s
      if r'.txDone && r'.rxDone then
        let s := setLState (setF s FL_LANES_RECAL f r.lane) f r.lane (if r.selftest then 4 else 2)
        modFlue s f (fun x => { x with rot := some { r' with phase := 1, since := s.gsc } })
      else modFlue s f (fun x => { x with rot := some r' })

/-- R348 steps 5 and 6: the pair that was out becomes the spare, with its eye margins. -/
def endRot (s : State) (f : Nat) (eyeV eyeH : Nat) : State :=
  match (getFlue s f).rot with
  | none => s
  | some r =>
    let s := addWear (setFi (setFi s FL_LANE_EYE_V f r.lane eyeV) FL_LANE_EYE_H f r.lane eyeH) (1000 + 9 * f + r.lane) eyeV
    let s := setLState (setF (setF s FL_LANES_SPARE f r.lane) FL_LANES_RECAL f 0xF) f r.lane 1
    setF (modFlue s f (fun x => { x with rot := none })) FL_STATUS_ROTATING f 0

/-- LANE_RECAL_COMPLETE. -/
def recalComplete (s : State) (f : Nat) (eyeV eyeH : Nat) : State :=
  match (getFlue s f).rot with
  | some r => if r.phase = 1 ∧ !r.selftest then deferredTest (endRot s f eyeV eyeH) f else s
  | none => s

/-! Lane failure (R349). -/

/-- R473, R551: a failed lane in the ledger. -/
def failLane (s : State) (f l : Nat) : State :=
  let s := setF s FL_LANES_FAILED f (putBits (getF s FL_LANES_FAILED f) l 1 1)
  let s := setF (setLState s f l 3) FL_STATUS_LANES_GOOD f (getF s FL_STATUS_LANES_GOOD f - 1)
  logLedger (bumpLife s 6) 9 (0x300 + 16 * f + l) [f, l]

/-- FL_SELFTEST_COMPLETE: R350, after 20 ms. A failed lane shows in FL_LANES. -/
def selftestComplete (s : State) (f : Nat) (pass : Bool) (eyeV eyeH : Nat) : State :=
  match (getFlue s f).rot with
  | some r =>
    if r.phase = 1 ∧ r.selftest ∧ r.since + 20000000 ≤ s.gsc then
      if pass then setF (endRot s f eyeV eyeH) FL_CFG_SELFTEST_STATUS f 3
      else
        let s := endRot s f eyeV eyeH
        setF (setF (failLane s f r.lane) FL_LANES_SPARE f 0xF) FL_CFG_SELFTEST_STATUS f 0
    else s
  | none => s

/-- A rotation stops; a self-test that it was waits for the next free spare (R350, log entry 130). -/
def dropRot (s : State) (f : Nat) : State :=
  match (getFlue s f).rot with
  | none => s
  | some r =>
    let s := setF (setF (modFlue s f (fun x => { x with rot := none })) FL_STATUS_ROTATING f 0) FL_LANES_RECAL f 0xF
    if r.selftest then setF s FL_CFG_SELFTEST_STATUS f 2 else s

/-- The lane map at full width. -/
def wideLane (s : State) (f n : Nat) : Nat := bits ((getFlue s f).wideMap.getD (regGet s (regKey 10 f 0x48)).toNat) (4 * n) 4

/-- R349: the flue runs on four good lanes: the first in logical order, then in physical order (log entry 131). -/
def narrow (s : State) (f : Nat) : State :=
  let wide := (getFlue s f).wideMap.getD (regGet s (regKey 10 f 0x48)).toNat
  let out := getF s FL_LANES_RECAL f
  let order := ((List.range 8).map (wideLane s f) ++ List.range 9).eraseDups.filter (fun l => l < 9 && l != out && !laneFailed s f l)
  let s := ((order.take 4).zipIdx).foldl (fun s x => setLogLane s f x.2 x.1) s
  setFlueState (modFlue s f (fun x => { x with half := true, wideMap := some wide })) f 4

/-- LANE_FAIL: R349: a lane loses clock lock (`ucw` none), or `ucw` of its codewords in a millisecond are uncorrectable. -/
def laneFail (s : State) (f l : Nat) (ucw : Option Nat) : State :=
  let past := match ucw with | some n => decide (getF s FL_RETRY_CFG_LANE_UCW_MAX f < n) | none => true
  let cause := if ucw.isSome then 2 else 1
  if !flueUp s f ∨ laneFailed s f l ∨ !past then s
  else
    let sp := getF s FL_LANES_SPARE f
    let rot := (getFlue s f).rot
    let s := failLane s f l
    if getF s FL_STATUS_LANES_GOOD f < 4 then flueDown s f l 1
    else if sp = l then dropRot (setF s FL_LANES_SPARE f 0xF) f
    else if sp ≠ 0xF then
      let s := match laneLog s f l with | some n => setLogLane s f n sp | none => s
      flueRec (dropRot (setLState (setF s FL_LANES_SPARE f 0xF) f sp 0) f) f 0x0904 l cause
    else match rot with
      | some r =>
        if r.phase ≠ 2 ∧ r.lane = l then dropRot s f
        else if r.phase ≠ 2 then
          flueRec (narrow (modFlue (setF s FL_LANES_RECAL f r.lane) f (fun x => { x with rot := some { r with phase := 2 } })) f) f 0x0904 l cause
        else flueRec (narrow (dropRot s f) f) f 0x0905 l cause
      | none => flueRec (narrow s f) f 0x0905 l cause

/-- LANE_REJOIN: R349: the pair that was recalibrating restores its settings and takes the failed lane's logical place, and the flue
widens to the map it had. -/
def laneRejoin (s : State) (f : Nat) : State :=
  match (getFlue s f).rot with
  | some r =>
    if r.phase ≠ 2 then s
    else
      let s := (List.range 8).foldl (fun t n => setLogLane t f n (if laneFailed s f (wideLane s f n) then r.lane else wideLane s f n)) s
      let s := setF (dropRot (setLState s f r.lane 0) f) FL_LANES_SPARE f 0xF
      setFlueState (modFlue s f (fun x => { x with half := false, wideMap := none })) f 3
  | none => s

end Sys2Proof.Machine
end

