-- ==== Sys2Proof/Machine/Measure.lean ====
section
/-! DEFINITION. The measurement registers (R544, R545) and the reproducibility key (R511 to R513). -/
namespace Sys2Proof.Machine

/-- Bytes of a 256-bit value, the lowest first. -/
def bytes256 (v : BitVec 256) : List Byte := bytesOf 32 v.toNat

/-- MRi as it stands. -/
def mrValue (s : State) (i : Nat) : Nat := sumNat ((List.range 8).map (fun k => getFi s MG_MR_V 0 (8 * i + k) * 2 ^ (32 * k)))

/-- Eight words of 32 bits into a register array. -/
def putWords (s : State) (f : Fld) (base n v : Nat) : State :=
  (List.range n).foldl (fun s k => setFi s f 0 (base + k) (bits v (32 * k) 32)) s

/-- R545: one log entry; a full log takes none. -/
def mrLog (s : State) (e : MrEntry) : State :=
  if s.mrlog.length < 1024 then
    let s := { s with mrlog := s.mrlog ++ [e] }
    s
  else setF s MG_KIND_STATUS_LOG_FULL 0 1

/-- R544: extend MRi with a digest of a block's image or of a plan, an edition or the driver. -/
def mrExtend (s : State) (i block version : Nat) (d : BitVec 256) : State :=
  let v := Config.sm3 (bytesOf 32 (mrValue s i) ++ bytes256 d)
  mrLog (putWords s MG_MR_V (8 * i) 8 v.toNat) ⟨i, block, version, s.gsc, d.toNat⟩

/-- R544: the register that covers a block type. -/
def mrOf (b : Nat) : Nat :=
  match b with
  | 1 => 1 | 2 => 2 | 4 => 2 | 9 => 3 | 10 => 3 | 11 => 4 | 12 => 4 | _ => 5

/-- R544: the digest of an edition as it stands. -/
def editionDigest (s : State) (e : Nat) : BitVec 256 := Config.sm3 ((readBytes s (0xF300000000 + e * 0x80000) 0x80000).map (·.b))

/-! Versions and the key. -/

/-- The nine firmware-bearing block types (R539, R593). -/
def fwBlocks : List Nat := [1, 2, 4, 7, 8, 9, 10, 11, 12]

/-- The units of a block type that run its image: those that are present; the folio unit shares the controllers' (R593). -/
def fwUnits (s : State) (b : Nat) : List Nat :=
  ((if b = 7 ∨ b = 9 then [0] else List.range (if b = 11 then 6 else blkInstances b))).filter (fun u => !blkAbsent s b u)

/-- R512: the instances of a block type carry different versions. -/
def typeMixed (s : State) (b : Nat) : Bool :=
  match fwUnits s b with
  | [] => false
  | u :: r => r.any (fun v => fwVersion s b v != fwVersion s b u)

/-- R511, R512: the version of a block type's key entry; an absent block type has version 0. -/
def keyVersion (s : State) (b : Nat) : Nat :=
  match fwUnits s b with
  | [] => 0
  | u :: _ => if typeMixed s b then 0xFFFFFFFF else fwVersion s b u

/-- R511: LMAP. -/
def logicalMap (s : State) : Nat := sumNat ((List.range 64).map (fun l => if (physOf s l).isSome then 2 ^ l else 0))

/-- The number of logical tiles. -/
def tileCount (s : State) : Nat := ((List.range 64).filter (fun l => (physOf s l).isSome)).length

/-- R511: the key record. -/
def keyRecord (s : State) : List Byte :=
  [0x47, 0x57, 0x37, 0x52, 0x4B, 0x45, 0x59, 0x31] ++ bytesOf 2 1 ++ bytesOf 2 fwBlocks.length ++ bytesOf 8 (logicalMap s)
    ++ fwBlocks.flatMap (fun b => bytesOf 2 b ++ bytesOf 2 0 ++ bytesOf 4 (keyVersion s b))

/-- The key that is in force. -/
def reproKey (s : State) : Nat := sumNat ((List.range 4).map (fun i => getFi s MG_REPRO_KEY_KEY 0 i * 2 ^ (64 * i)))

def setKey (s : State) (k : BitVec 256) : State :=
  (List.range 4).foldl (fun s i => setFi s MG_REPRO_KEY_KEY 0 i (bits k.toNat (64 * i) 64)) s

/-- MG_KEY_STATUS.MIXED (R512). -/
def noteMixed (s : State) : State := setF s MG_KEY_STATUS_MIXED 0 (b2n (fwBlocks.any (typeMixed s)))

/-- R513: the key changes, with cause 1 for a live update and 2 for a map change. A record that is unchanged changes no key. -/
def changeKey (s : State) (old : List Byte) (cause : Nat) : State :=
  let s := noteMixed s
  if keyRecord s = old then s
  else
    let was := reproKey s
    let k := Config.sm3 (keyRecord s)
    let s := addF (setF (setKey s k) MG_KEY_STATUS_CHANGED 0 1) MG_KEY_STATUS_CHANGES 0 1
    let s := logLedger (bumpLife s 8) 11 0x600 [was, k.toNat, cause]
    raiseMgc s 0x0F03 (bits k.toNat 0 32 + 2 ^ 32 * cause)

end Sys2Proof.Machine
end

