-- ==== Sys2Proof/Machine/Spare.lean ====
section
/-! DEFINITION. Spare tiles, migration, replacement, rotation and tests, mirror pushes (chapter 17, R492 to R510). -/
namespace Sys2Proof.Machine

def tileEng (p k : Nat) : Eng := engOf (4 * (p % 72) + k)

/-- The lowest-numbered SPARE (R494). -/
def spareTile (s : State) : Option Nat := (List.range 72).find? (fun p => ptileOf s p == 1)

def setPtile (s : State) (p v : Nat) : State := { s with ptile := mapSet (fun _ => 0) s.ptile p v }
def setTmap (s : State) (l v : Nat) : State := { s with tmap := mapSet (fun _ => 0) s.tmap l v }

/-- A key of a register of a tile's five pages beyond their headers (R594). -/
def tileKey (p k : Nat) : Bool :=
  let b := k / 2 ^ 20
  2 ≤ b && b ≤ 6 && k / 2 ^ 12 % 256 == p && 0x40 ≤ k % 2 ^ 12

/-- A tile zeroed (R449, R494, R497): its stores, instruction memories, engines, units and registers. -/
def zeroTile (s : State) (p : Nat) : State :=
  let s := zeroRange (zeroRange s (tsAddr p 0) (tsAddr (p + 1) 0)) (0xF200000000 + p * 0x40000) (0xF200000000 + (p + 1) * 0x40000)
  let s := (List.range 4).foldl (fun s k => setEng s (tileEng p k) Engine.reset) (setTile (orphanLines s (fun k => k.1 == p)) p Tile.reset)
  { s with regs := mapDrop (tileKey p) s.regs }

/-! Moving a tile (R494, R496). -/

/-- Copy the bytes and the poison of a range of the address map; both ends are multiples of 16. -/
def copyRange (s : State) (a n b : Nat) : State :=
  let cells := s.mem.filter (fun c => a ≤ c.1 && c.1 < a + n)
  let bad := s.poison.filter (fun c => a ≤ 16 * c.1 && 16 * c.1 < a + n)
  let s := zeroRange s b (b + n)
  { s with mem := cells.foldl (fun m c => mapSet (fun _ => 0) m (c.1 - a + b) c.2) s.mem
           poison := bad.foldl (fun m c => mapSet (fun _ => false) m (c.1 - a / 16 + b / 16) c.2) s.poison }

/-- An engine of tile `src` as tile `dst` has it. -/
def moveEng (src dst : Nat) : Eng → Eng
  | .tile p k => if p.val = src then .tile (Fin.ofNat 72 dst) k else .tile p k
  | e => e

def moveIncr (src dst : Nat) (i : Incr) : Incr :=
  match i.src with
  | .instr e tag pc => { i with src := .instr (moveEng src dst e) tag pc }
  | _ => i

/-- The index of an engine that moves. -/
def moveIdx (src dst i : Nat) : Nat := if i < 288 ∧ i / 4 = src then 4 * dst + i % 4 else i

/-- R494 step 3: everything the source holds goes to the target, but for its headers, its check-value units (R490) and the _LATCHED
copies (log entry 51). -/
def moveTile (s : State) (src dst : Nat) : State :=
  let s := copyRange (copyRange s (tsAddr src 0) 0x400000 (tsAddr dst 0)) (0xF200000000 + src * 0x40000) 0x40000 (0xF200000000 + dst * 0x40000)
  let moved := s.regs.filter (fun kv => tileKey src kv.1 && !isLatched kv.1
    && !(kv.1 / 2 ^ 20 == 2 && 0x100 ≤ kv.1 % 2 ^ 12 && kv.1 % 2 ^ 12 < 0x200))
  let s := { s with regs := mapDrop (tileKey dst) s.regs }
  let s := moved.foldl (fun s kv => regSet s (kv.1 - src * 2 ^ 12 + dst * 2 ^ 12) kv.2) s
  let t := getTile s src
  let s := setTile s dst { t with pend := t.pend.map (moveIncr src dst), cv0 := 0, cv1 := 0, digestBusy := false, held := [] }
  let s := (List.range 4).foldl (fun s k => setEng s (tileEng dst k) (getEng s (tileEng src k))) s
  let ix := moveIdx src dst
  { s with mark := { s.mark with arrived := s.mark.arrived.map ix, sigs := s.mark.sigs.map (fun x => (ix x.1, x.2)) }
           snapWaits := s.snapWaits.map (fun x => (ix x.1, x.2)) }

/-- Ask an engine to quiesce, if it runs, waits or is armed. Answers whether it did. -/
def askQuiesce (s : State) (e : Eng) : State × Bool :=
  match (getEng s e).st with
  | .running | .waiting | .armed => (modEng s e (fun g => { g with quiesceReq := true, quiesceAt := s.gsc }), true)
  | _ => (s, false)

/-- R494 step 1, R497: a migration or a replacement begins. -/
def startMove (s : State) (lt src dst : Nat) (repl rot upd : Bool) : State :=
  let s := setPtile (setPtile s src 3) dst 3
  let ask := if repl then [] else (List.range 4).filter (fun k => (askQuiesce s (tileEng src k)).2)
  let s := ask.foldl (fun s k => (askQuiesce s (tileEng src k)).1) s
  { s with migr := some ⟨lt, src, dst, repl, rot, upd, ask⟩ }

def spareErr (s : State) : State := setF s MG_SPARE_STATUS_CMD_ERR 0 1

/-- The target that a command names (R494). -/
def spareTarget (s : State) (phys : Nat) : Option Nat :=
  if phys = 0x7F then spareTile s else if phys < 72 ∧ ptileOf s phys = 1 then some phys else none

/-- MIGRATE and REPLACE: R494, R495, R497, R538. -/
def spareCmd (s : State) (lt phys : Nat) (repl : Bool) : State :=
  if getF s MG_KIND_STATUS_STAGE 0 < 5 ∨ s.migr.isSome then spareErr s
  else match physOf s lt, spareTarget s phys with
    | some src, some dst => startMove s lt src dst repl false false
    | none, _ => absentCmd (spareErr s) lt
    | _, _ => spareErr s

/-- R514: TILE_SPARED. -/
def sparedRec (s : State) (m : Migr) : State :=
  raiseMgcTile s 0x0F01 m.src (m.lt + 2 ^ 8 * m.src + 2 ^ 16 * m.dst + 2 ^ 24 * (if m.repl then 2 else 1))

/-- A tile is retired (R492, R551). -/
def retireTile (s : State) (p : Nat) : State := bumpLife (setPtile s p 4) 4

/-! Tiles judged permanent (R498, R499). -/

/-- R499: no SPARE exists for a tile judged permanent. -/
def sparesGone (s : State) (l p : Nat) : State := raiseMgcTile (setF s MG_SPARE_STATUS_EXHAUSTED 0 1) 0x0F02 p (l + 2 ^ 8 * p)

/-- R498, R499: the next of the tiles judged permanent is substituted once a SPARE exists; without one each shortage is reported once. An
entry has 128 added for a replacement, and 256 once its shortage is reported. -/
def pumpPerm (s : State) : State :=
  if s.migr.isSome then s
  else match s.perm with
    | [] => s
    | x :: r =>
      let p := x % 128
      match logOf s p, spareTile s with
      | none, _ => { s with perm := r }
      | some l, some dst => startMove { s with perm := r } l p dst (bit x 7 || isolated s p) false false
      | some _, none =>
        let s' := { s with perm := s.perm.map (fun y => if bit y 8 then y else y + 256) }
        (s.perm.filter (fun y => !bit y 8)).foldl (fun t y => match logOf s (y % 128) with
          | some l => sparesGone t l (y % 128)
          | none => t) s'

/-- A physical tile is judged permanent. -/
def condemn (s : State) (p : Nat) (repl : Bool) : State :=
  match logOf s p with
  | none => if ptileOf s p = 1 ∨ ptileOf s p = 2 then retireTile s p else s
  | some _ =>
    if s.perm.any (fun x => x % 128 == p) then s else pumpPerm { s with perm := s.perm ++ [p + (if repl then 128 else 0)] }

/-- R499: at an entry to IDLE, tiles judged permanent that no SPARE can replace leave the map, and the key changes. -/
def dropPerm (s : State) : State :=
  let lost := s.perm.map (· % 128)
  if lost.isEmpty || (spareTile s).isSome then s
  else
    let old := keyRecord s
    let s := lost.foldl (fun s p => match logOf s p with
      | some l => retireTile (setTmap s l 0) p
      | none => s) { s with perm := [] }
    changeKey s old 2

/-- Start the test program of a tile that has been rotated out (R501). -/
def startTest (s : State) (p : Nat) : State :=
  setF (setF { setPtile s p 2 with test := some ⟨p, 1⟩ } MG_TEST_STATUS_STATE 0 1) MG_TEST_STATUS_PHYS 0 p

/-- The target's engines go on (R494 step 4); those of a recall or of a release stay QUIESCED (R500, R452). -/
def resumeMoved (s : State) (m : Migr) : State :=
  if lendState s = 3 ∨ lendState s = 4 then s
  else m.pend.foldl (fun s k => if (getEng s (tileEng m.dst k)).st = .quiesced then resumeEngine s (tileEng m.dst k) else s) s

/-- R494 steps 4 and 5: the map switches, held packets go to the target, the source is zeroed. -/
def finishMigrate (s : State) (m : Migr) : State :=
  let held := (getTile s m.src).held
  let s := moveTile s m.src m.dst
  let s := { zeroTile s m.src with migr := none }
  let s := setPtile (setTmap s m.lt (m.dst + 1)) m.dst 0
  let s := resumeMoved { s with router := { s.router with arrived := s.router.arrived ++ held } } m
  let s := sparedRec s m
  if m.rot then startTest s m.src else if m.upd then setPtile s m.src 3 else retireTile s m.src

/-- R497: the target takes the index zeroed, as a reset tile domain. -/
def finishReplace (s : State) (m : Migr) : State :=
  let held := (getTile s m.src).held
  let s := zeroTile (zeroTile { s with migr := none, router := { s.router with arrived := s.router.arrived ++ held } } m.src) m.dst
  let s := setPtile (setTmap s m.lt (m.dst + 1)) m.dst 0
  let s := orphanMembers (nextGen s m.dst) [4 * m.lt, 4 * m.lt + 1, 4 * m.lt + 2, 4 * m.lt + 3]
  retireTile (sparedRec s m) m.src

/-- R494: nothing of the source runs any more. -/
def moveReady (s : State) (m : Migr) : Bool :=
  m.repl || (!isolated s m.src && !isolated s m.dst
    && (List.range 4).all (fun k => match (getEng s (tileEng m.src k)).st with
      | .running | .waiting | .armed => !m.pend.contains k
      | _ => true)
    && (List.range 2).all (fun u => cvState s m.src u < 2)
    && (List.range 4).all (fun k => (getEng s (tileEng m.src k)).sigs.isEmpty))

/-- R497: the copy of a migration meets a debug-ring timeout on its source: the GW7 substitutes by replacement instead. -/
def copyTimeout (s : State) (d : Nat) : State :=
  match s.migr with
  | some m => if m.src = d ∧ moveReady s m then { s with migr := some { m with repl := true } } else s
  | none => s

/-- TILE_MIGRATION_COMPLETE. -/
def moveComplete (s : State) : State :=
  match s.migr with
  | none => s
  | some m => if moveReady s m then pumpPerm (if m.repl then finishReplace s m else finishMigrate s m) else s

/-- R500: a reset of a tile's domain abandons its migration: the target is zeroed and is SPARE again. -/
def abandonMove (s : State) (d : Nat) : State :=
  match s.migr with
  | none => s
  | some m =>
    if m.src ≠ d ∧ m.dst ≠ d then s
    else
      let held := (getTile s m.src).held
      let s := modTile (zeroTile { s with migr := none } m.dst) m.src (fun t => { t with held := [] })
      let s := { s with router := { s.router with arrived := s.router.arrived ++ held } }
      let s := m.pend.foldl (fun s k => if (getEng s (tileEng m.src k)).st = .quiesced then resumeEngine s (tileEng m.src k)
        else modEng s (tileEng m.src k) (fun g => { g with quiesceReq := false })) s
      setPtile (setPtile s m.src 0) m.dst 1

/-! Rotation and tests (R501 to R503). -/

def rotPeriod (s : State) : Nat := (if getF s MG_ROT_CFG_PERIOD_S 0 = 0 then 3600 else getF s MG_ROT_CFG_PERIOD_S 0) * 1000000000

/-- R501: the next ACTIVE tile in increasing order. -/
def rotSource (s : State) : Option Nat :=
  ((List.range 72).map (fun i => (s.rotNext + i) % 72)).find? (fun p => (logOf s p).isSome && ptileOf s p == 0 && !isolated s p)

/-- R501: the moment that the lending state allows. -/
def rotMoment (s : State) (p : Nat) : Bool :=
  match lendState s with
  | 2 => getTimer s tmMark != 0 && s.gsc ≤ getTimer s tmMark + 1
  | 1 => (List.range 4).all (fun k =>
      let g := getEng s (tileEng p k)
      match g.st with
      | .halted | .loaded => true
      | .armed => decide (s.gsc + 15000000 ≤ g.launch.toNat)
      | _ => false)
  | _ => false

/-- TILE_ROTATION: every PERIOD_S while EN is 1, or for a rotation test that was asked for (R503). -/
def tileRotation (s : State) : State :=
  let due := s.testDue || (flagF s MG_ROT_CFG_EN 0 && getTimer s tmRot + rotPeriod s ≤ s.gsc)
  if !due || s.migr.isSome || s.test.isSome then s
  else match rotSource s, spareTile s with
    | some p, some dst =>
      if rotMoment s p then
        (match logOf s p with
         | some l => startMove (setTimer { s with rotNext := (p + 1) % 72, testDue := false } tmRot s.gsc) l p dst false true false
         | none => s)
      else s
    | _, _ => s

/-- R503, R514: a test's outcome in MG_TEST_STATUS. -/
def testState (s : State) (v : Nat) : State := setF s MG_TEST_STATUS_STATE 0 v

/-- R514: TEST_FAILED. The failing program's number is not among what this command carries: it is a free value (log entry 52). -/
def testFailed (s : State) (p run : Nat) : State :=
  let (w, s) := freshWord s
  raiseMgcTile s 0x0F05 p (w.toNat % 64 + 2 ^ 8 * run)

/-- TILE_TEST_COMPLETE: R501. -/
def tileTestComplete (s : State) (pass : Bool) : State :=
  match s.test with
  | none => s
  | some t =>
    if 72 ≤ t.phys then s
    else if pass then
      let s := testState (setPtile (zeroTile { s with test := none } t.phys) t.phys 1) 3
      let s := if t.run = 2 then bumpLife (logLedger s 3 t.phys [1]) 2 else s
      pumpPerm s
    else if t.run = 1 then testFailed { s with test := some { t with run := 2 } } t.phys 1
    else
      let s := testFailed (testState { s with test := none } 4) t.phys 2
      retireTile (bumpLife (logLedger s 3 t.phys [2]) 3) t.phys

/-- TEST_ROTATION: R503. -/
def testRotation (s : State) : State :=
  let s := { s with testDue := true }
  if (spareTile s).isSome then s else testState s 2

/-- R503: the full-chip BIST runs; it is held in `test` as tile 127. -/
def startBist (s : State) : State := testState { s with test := some ⟨127, 1⟩, bistDue := false } 1

/-- TEST_BIST. -/
def testBist (s : State) : State :=
  if lendState s = 0 ∧ getF s MG_KIND_STATUS_STAGE 0 = 5 ∧ s.test.isNone then startBist s else testState { s with bistDue := true } 2

/-- BIST_COMPLETE: R503; a tile that fails is judged permanent. -/
def bistComplete (s : State) (failed : List Nat) : State :=
  match s.test with
  | none => s
  | some t =>
    if t.phys ≠ 127 then s
    else
      let s := testState { s with test := none } (if failed.isEmpty then 3 else 4)
      failed.foldl (fun s p => condemn (bumpLife (logLedger s 3 p [2]) 3) p false) (logLedger s 8 0x600 failed)

/-- R499, R503: what an entry to IDLE begins. -/
def enterIdle (s : State) : State :=
  let s := dropPerm s
  if s.bistDue ∧ s.test.isNone then startBist s else s

/-! Mirror pushes (R509, R510) and fence records (R507). -/

/-- R509: one pushed line. -/
def sendPush (s : State) (a : Nat) : State :=
  let bs := readBytes s a 256
  let s := lineReqs s a 256 false 0
  sendPkt s { request s 0x48 5 (epId s.pushNode 0x48) ((getDom s 102).gen * 256 + 1) 0 with
    addr := BitVec.ofNat 40 a, payload := bs, len := 256, poison := bs.any (·.bad), last := true }

/-- R509: a push ends. -/
def pushDone (s : State) : State := raiseMgc s 0x0F06 (s.pushNode + 2 ^ 32 * s.pushBad)

/-- MIRROR_PUSH: 4,096 lines at a time. -/
def mirrorPush (s : State) (node : Nat) : State :=
  if s.push ≠ [] ∨ lendState s = 3 ∨ lendState s = 4 then setF s MG_MIRROR_PUSH_ERR 0 1
  else
    let lo := getF s MC_MIRROR_REGION_FIRST 6
    let ls := (List.range (8192 * getF s MC_MIRROR_REGION_COUNT 6)).map (fun i => lo * 2 ^ 21 + 256 * i)
    let s := { s with push := ls, pushNode := node, pushBad := 0 }
    if ls.isEmpty then pushDone s else (ls.take 4096).foldl sendPush s

/-- A pushed line is answered; `ok` for an acknowledgement. -/
def pushAnswered (s : State) (a : Nat) (ok : Bool) : State :=
  if !s.push.contains a then s
  else
    let s := if ok then s else setF { s with pushBad := s.pushBad + 1 } MG_MIRROR_PUSH_ERR 0 1
    let more := s.push[4096]?
    let s := { s with push := s.push.erase a }
    match more with
    | some b => sendPush s b
    | none => if s.push.isEmpty then pushDone s else s

/-- MIRROR_FENCE_RECORD: R507. -/
def fenceRecord (s : State) (node : Nat) (mark : Word) : State :=
  if flagF s MC_MIRROR_CFG_EN 6 ∧ node = getF s MC_MIRROR_PARTNER_NODE 6 then setF s MG_MIRROR_MARK_MARK 0 mark.toNat else s

/-- R474, R498: a tile-store sweep that finds a hard error makes its tile permanent. -/
def sweptTile (s : State) (p : Nat) (errs : List LineErr) : State :=
  let hard := (pairErrs errs).any (fun e => match e.2 with
    | some e' => (match (readLine s e.1).1, (readLine s e').1 with | .corrected j _, .corrected j' _ => j == j' | _, _ => false)
    | none => false)
  if hard then condemn s p false else s

end Sys2Proof.Machine
end

