-- ==== Sys2Proof/Machine/Marks.lean ====
section
/-! DEFINITION. The completion of step marks (R22, R222, R507), weight digests (R468 to R472) and classification (R475, R476). -/
namespace Sys2Proof.Machine

/-! Digests. -/

/-- R469: the digest polynomial, in the terms of R480. -/
def digestPoly : Nat := 0x42F0E1EBA9EA3693

/-- R469: a tile's digest regions as bytes, region 0 then region 1, with their poison. -/
def digestBytes (s : State) (p : Nat) : List PByte := (digestRegions s p).flatMap (fun r => tileRead s p r.1 r.2)

/-- MG_DIGEST_STATUS.STATE: reading, awaiting a peer, or idle. -/
def digestShow (s : State) : State :=
  setF s MG_DIGEST_STATUS_STATE 0 (if !s.digest.reading.isEmpty then 1 else if !s.digest.rounds.isEmpty then 2 else 0)

/-- R469: a round begins at mark n on every tile of the map. -/
def digestBegin (s : State) (n : Nat) : State :=
  let ps := (s.tmap.map (fun kv => kv.2 - 1)).filter (fun p => !isolated s p)
  let s := ps.foldl (fun s p => setF (modTile s p (fun t => { t with digestBusy := true })) TL_DIGEST_ST_BUSY p 1) s
  digestShow { s with digest := { s.digest with mark := n, reading := ps, torn := false } }

/-- R469, R472: the ring of the digest's collective engine: its rank and its neighbours' nodes. -/
def digestCe (s : State) : Nat := getF s MG_DIGEST_CFG_CE 0
def digestPrev (s : State) : Nat := (ceRank s (digestCe s) + ceSize s (digestCe s) - 1) % ceSize s (digestCe s)
def digestPeer (s : State) : Nat := ceNode s (digestCe s) (digestPrev s)

/-- A message of the MGC to another node's MGC (R472, R507), in packets of at most 256 bytes (R357); its payload is the model's own
layout (log entry 32). -/
def mgcMessage (s : State) (node : Nat) (bs : List Byte) : State :=
  ((chunksOf 256 bs.length bs).zipIdx).foldl (fun s c =>
    sendPkt s { request s 0x4A 6 (epId node 0x4A) ((getDom s 102).gen * 256) c.2 with
      payload := good c.1, len := BitVec.ofNat 9 c.1.length, last := 256 * c.2 + c.1.length == bs.length }) s

/-- The digests of the 64 logical tiles. -/
def tileDigests (s : State) : List DWord := (List.range 64).map (fun t => BitVec.ofNat 64 (getFi s MG_DIGEST_TILE_CRC 0 t))

/-- R471: the chip digest. -/
def chipDigest (s : State) : Nat :=
  (List.range 64).foldl (fun d t => match physOf s t with
    | some p => cvShift 64 digestPoly d (sumNat ((digestRegions s p).map (·.2))) ^^^ getFi s MG_DIGEST_TILE_CRC 0 t
    | none => d) 0

/-- R472: compare a round's digests with those of rank - 1 for the same mark. -/
def digestCompare (s : State) (r : DigestRound) (node : Nat) (chip : DWord) (tiles : List DWord) : State :=
  let s := setF s MG_DIGEST_PEER_CRC 0 chip.toNat
  let diff := (List.range 64).find? (fun t => r.tiles[t]? != tiles[t]?)
  if r.chip = chip ∧ diff = none then s
  else
    let c := digestCe s
    let d := node + 2 ^ 16 * ceRank s c + 2 ^ 24 * digestPrev s + 2 ^ 32 * diff.getD 0xFF + 2 ^ 40 * (r.mark % 2 ^ 24)
    bumpLife (raiseMgc (setF s MG_DIGEST_STATUS_MISMATCH 0 1) 0x0501 d) 9

/-- R470, R472: a round that awaits its peer meets the peer's message, and ends: a torn round and a skipped message (one without tile
digests) compare nothing. -/
def digestMeet (s : State) (r : DigestRound) (node : Nat) (chip : DWord) (tiles : List DWord) : State :=
  let s := digestShow { s with digest := { s.digest with rounds := s.digest.rounds.filter (fun x => x.mark != r.mark) } }
  if r.torn ∨ tiles.isEmpty then s else digestCompare s r node chip tiles

/-- R472: the round has been read: the message to rank + 1, and a message of rank - 1 that came before. -/
def digestEnd (s : State) : State :=
  let c := digestCe s
  let s := setF (setF s MG_DIGEST_MARK_MARK 0 s.digest.mark) MG_DIGEST_CRC 0 (chipDigest s)
  if ceSize s c = 1 then digestShow s
  else
    let r : DigestRound := ⟨s.digest.mark, BitVec.ofNat 64 (getF s MG_DIGEST_CRC 0), tileDigests s, s.digest.torn, s.gsc⟩
    let s := digestShow { s with digest := { s.digest with rounds := s.digest.rounds ++ [r] } }
    let next := ceNode s c ((ceRank s c + 1) % ceSize s c)
    let s := mgcMessage s next (bytesOf 4 r.mark ++ bytesOf 8 r.chip.toNat ++ (if r.torn then [] else r.tiles.flatMap (fun d => bytesOf 8 d.toNat)))
    match s.digest.msgs.find? (fun m => m.2.1 == r.mark) with
    | some m => digestMeet { s with digest := { s.digest with msgs := s.digest.msgs.filter (fun x => x.2.1 != r.mark) } } r m.1 m.2.2.1 m.2.2.2
    | none => s

/-- DIGEST_TILE_DONE: R469. A poisoned word tears the round (R485; log entry 53). -/
def digestTile (s : State) (p : Nat) : State :=
  if !s.digest.reading.contains p ∨ isolated s p then s
  else
    let bs := digestBytes s p
    let s := if bs.any (·.bad) then
        { setF (setF s TL_DIGEST_ST_TORN p 1) MG_DIGEST_STATUS_TORN 0 1 with digest := { s.digest with torn := true } }
      else s
    let s := match logOf s p with
      | some l => setFi s MG_DIGEST_TILE_CRC 0 l (crc64From 0 (bs.map (·.b))).toNat
      | none => s
    let s := setF (modTile s p (fun t => { t with digestBusy := false })) TL_DIGEST_ST_BUSY p 0
    let s := signalUnit s p (some (getF s MG_DIGEST_CFG_CTR 0)) 0
    let s := { s with digest := { s.digest with reading := s.digest.reading.filter (· != p) } }
    if s.digest.reading.isEmpty then digestEnd s else s

/-- DIGEST_MESSAGE: R472. A message for a round that has not ended is held. -/
def digestMessage (s : State) (node mark : Nat) (chip : DWord) (tiles : List DWord) : State :=
  if ceSize s (digestCe s) = 1 ∨ node ≠ digestPeer s then s
  else match s.digest.rounds.find? (fun r => r.mark == mark) with
    | some r => digestMeet s r node chip tiles
    | none =>
      if getF s MG_DIGEST_MARK_MARK 0 < mark then { s with digest := { s.digest with msgs := s.digest.msgs ++ [(node, mark, chip, tiles)] } }
      else s

/-- DIGEST_LATE: R472: the first round to have ended has waited for 1 s. -/
def digestLate (s : State) : State :=
  match s.digest.rounds with
  | [] => s
  | r :: rest =>
    if r.ended + 1000000000 ≤ s.gsc then
      raiseMgc (setF (digestShow { s with digest := { s.digest with rounds := rest } }) MG_DIGEST_STATUS_LATE 0 1) 0x0502
        (digestPeer s + 2 ^ 40 * (r.mark % 2 ^ 24))
    else s

/-- TL_DIGEST_RGN_WRITE: R468. -/
def digestRegion (s : State) (p i : Nat) (v : DWord) : State :=
  if tileStopped s p then regSet s (regKey 2 p (0xC0 + 8 * i)) (BitVec.ofNat 64 (bits v.toNat 0 22 + bits v.toNat 32 23 * 2 ^ 32))
  else setF s TL_DIGEST_ST_WR_REJ p 1

/-! The completion of a step mark. -/

/-- R220, R262: the S signals that fall when the mark completes. -/
def markSignals (s : State) : State :=
  s.mark.sigs.foldl (fun s x => lateSig s (engOf x.1) x.2) s

/-- STEP_MARK_COMPLETE: R22 steps 2 and 3, R223, R317, R469, R507. A next mark that all have reached meanwhile begins. -/
def markComplete (s : State) : State :=
  if s.mark.phase ≠ 1 ∨ s.mark.fence ≠ [] then s
  else
    let n := s.mark.last + 1
    let s := markSignals s
    let s := { s with mark := { s.mark with last := n, phase := 0, sigs := [], since := s.gsc } }
    let s := setTimer (releaseDirty s n) tmMark s.gsc
    let s := if mirrorOn s then mgcMessage s (getF s MC_MIRROR_PARTNER_NODE 6) (bytesOf 4 n.toNat) else s
    let every := if getF s MG_DIGEST_CFG_EVERY 0 = 0 then 1 else getF s MG_DIGEST_CFG_EVERY 0
    let s := if flagF s MG_DIGEST_CFG_EN 0 ∧ n.toNat % every = 0 then digestBegin s n.toNat else s
    if s.mark.arrived ≠ [] ∧ (participants s).all (fun i => s.mark.arrived.contains i) then beginMark s else s

/-! Classification (R475, R476). -/

/-- CLASS_ASK and the three recordings: MG_CLASS_CMD with GO. A logical tile missing from the map is rejected (R4, R5). -/
def classCommand (s : State) (rec lt : Nat) : State :=
  if flagF s MG_CLASS_STATUS_BUSY 0 then setF s MG_CLASS_STATUS_CMD_ERR 0 1
  else if (physOf s lt).isNone then absentCmd s lt
  else setF { s with classCmd := some (rec, lt) } MG_CLASS_STATUS_BUSY 0 1

/-- R476: a verdict on a physical tile: the ledger, the record, the substitution of R498. -/
def classVerdict (s : State) (p v : Nat) (sub : Bool) : State :=
  let s := bumpLife (logLedger s 3 p [v]) (1 + v)
  let s := raiseMgc (setF s MG_CLASS_STATUS_VERDICT 0 v) 0x0506 (v * 2 ^ 32)
  if v = 2 ∧ sub then condemn s p false else s

/-- R476: silent-error events on a physical tile within WINDOW_D days. -/
def silentEvents (s : State) (p : Nat) : Nat :=
  let d := (if getF s MG_CLASS_CFG_WINDOW_D 0 = 0 then 30 else getF s MG_CLASS_CFG_WINDOW_D 0) * 86400000000000
  (s.ledger.filter (fun r => r.kind == 6 && r.unit == p && s.gsc ≤ r.gsc + d)).length

/-- The physical tile that was asked about when a repetition was called for. -/
def repeated (s : State) (lt : Nat) : Option Nat := ((s.classRep.find? (fun x => x / 128 == lt)).map (· % 128))

/-- R476: the answer to an ask. -/
def classAnswer (s : State) (lt : Nat) : State :=
  let size := if getF s MG_SLICE_SIZE 0 = 0 then 1 else getF s MG_SLICE_SIZE 0
  match physOf s lt with
  | none => absentCmd s lt
  | some p =>
  if size ≤ getF s MG_CLASS_CFG_SLICE_MAX 0 then
    let s := logLedger s 6 p [lt]
    let n := silentEvents s p
    let lim := if getF s MG_CLASS_CFG_LIMIT 0 = 0 then 1 else getF s MG_CLASS_CFG_LIMIT 0
    let s := setF (setF s MG_CLASS_STATUS_METHOD 0 0) MG_CLASS_STATUS_EVENTS 0 (min n 255)
    classVerdict s p (if lim ≤ n then 2 else 1) true
  else
    let s := { s with classRep := (s.classRep.filter (fun x => x / 128 != lt)) ++ [128 * lt + p] }
    setF (setF s MG_CLASS_STATUS_METHOD 0 1) MG_CLASS_STATUS_VERDICT 0 0

/-- CLASS_COMMAND_COMPLETE. REC 1 and 2 judge the tile that was asked about, REC 3 the spare that holds the index now; a tile that a
repetition has moved its index off is spared already (log entry 54). -/
def classComplete (s : State) : State :=
  match s.classCmd with
  | none => s
  | some (rec, lt) =>
    let s := setF { s with classCmd := none } MG_CLASS_STATUS_BUSY 0 0
    let now := (physOf s lt).getD 0xFF
    let was := (repeated s lt).getD now
    let drop (s : State) : State := setF { s with classRep := s.classRep.filter (fun x => x / 128 != lt) } MG_CLASS_STATUS_METHOD 0 0
    match rec with
    | 0 => classAnswer s lt
    | 1 => classVerdict (drop s) was 1 true
    | 2 => classVerdict (drop s) was 2 (was == now)
    | _ =>
      let s := setF (classVerdict (drop s) now 2 true) MG_CLASS_STATUS_VERDICT 0 1
      bumpLife (logLedger s 3 was [1]) 2

end Sys2Proof.Machine
end

