-- ==== Sys2Proof/Machine/Codec.lean ====
section
/-! DEFINITION. How the recall image writes the state of engines and units as bytes, and reads it back (R120, R153, R195, R262, R411,
R445). The spec gives the places and sizes of the parts; the order of the items within a part is the model's own (log entry 58). -/
namespace Sys2Proof.Machine

/-! Fixed fields: pairs of a size in bytes and a value. -/

def packF (fs : List (Nat × Nat)) : List Byte := fs.flatMap (fun x => bytesOf x.1 x.2)
def padTo (n : Nat) (bs : List Byte) : List Byte := (bs ++ List.replicate (n - bs.length) 0).take n

/-- A little-endian number at an offset of a byte string. -/
def numAt (bs : List Byte) (off n : Nat) : Nat := ofBytes ((bs.drop off).take n)

/-- The bits of a list of positions below n, as bytes. -/
def bitsNat (xs : List Nat) : Nat := xs.foldl (fun a x => if bit a x then a else a + 2 ^ x) 0
def listBits (n v : Nat) : List Nat := (List.range n).filter (fun i => bit v i)

def optN (o : Option Nat) : Nat := match o with | some x => x + 1 | none => 0
def ofOptN (n : Nat) : Option Nat := if n = 0 then none else some (n - 1)

/-! Waits and program state (R445 0x5A_0400, R262). -/

def waitCode : WaitKind → Nat
  | .wflag => 1 | .sywait => 2 | .sybar => 3 | .ctmark => 4 | .sysig => 5 | .fctr => 6
def waitOf (n : Nat) : WaitKind := match n with | 2 => .sywait | 3 => .sybar | 4 => .ctmark | 5 => .sysig | 6 => .fctr | _ => .wflag

def stateCode : EState → Nat
  | .halted => 0 | .loaded => 1 | .armed => 2 | .running => 3 | .waiting => 4 | .quiesced => 5 | .faulted => 6
def stateOf (n : Nat) : EState := match n with | 1 => .loaded | 2 => .armed | 3 => .running | 4 => .waiting | 5 => .quiesced | 6 => .faulted | _ => .halted

/-- A wait as 10 bytes: kind, counter or context, VAL, elapsed time in µs; kind 0 for none. -/
def packWait (s : State) (e : Eng) (w : Option Wait) : List Byte :=
  match w with
  | none => bytesOf 10 0
  | some w => packF [(1, waitCode w.kind), (1, w.ctr), (4, w.val), (4, waitElapsed s e w / 1000)]

def readWait (s : State) (bs : List Byte) (off : Nat) : Option Wait :=
  let k := numAt bs off 1
  if k = 0 then none else some ⟨waitOf k, numAt bs (off + 1) 1, numAt bs (off + 2) 4, s.gsc, 1000 * numAt bs (off + 6) 4⟩

/-- The 64 bytes of an engine: of the S signals still to fall, one of a step mark and one of a barrier. -/
def packEng (s : State) (e : Eng) : List Byte :=
  let g := getEng s e
  let sig (i : Nat) := (g.lateSigs[i]?).getD (0, 0, 0)
  padTo 64 (packF [(1, stateCode (if g.st = .quiesced then g.resumeSt else g.st)), (2, enginePc g)]
    ++ packWait s e g.wait ++ packWait s e g.fwait
    ++ packF [(1, min g.lateSigs.length 2), (1, (sig 0).1), (2, (sig 0).2.1), (2, (sig 0).2.2)]
    ++ packF [(8, (regGet s (regKey (engBlk e) (engInst e) 0x110)).toNat), (1, getP s e P_PCTL_MARK_EN)]
    ++ packF [(1, bits (regGet s (regKey (engBlk e) (engInst e) 0x104)).toNat 3 4), (8, g.rbits)]
    ++ packF [(1, g.marks.length), (2, bitsNat ((List.range g.marks.length).filter (fun i => (g.marks[i]?).getD false)))]
    ++ packF [(1, (sig 1).1), (2, (sig 1).2.1), (2, (sig 1).2.2)])

/-- R447: an engine leaves the restore QUIESCED, but for those that were HALTED, LOADED or FAULTED (R438, R448). -/
def unpackEng (s : State) (e : Eng) (bs : List Byte) : State :=
  let st := stateOf (numAt bs 0 1)
  let still := st == .halted || st == .loaded || st == .faulted
  let n := numAt bs 47 1
  let g : Engine := { Engine.reset with
    st := if still then st else .quiesced, resumeSt := st, fetchPc := numAt bs 1 2
    wait := readWait s bs 3, fwait := readWait s bs 13, rbits := numAt bs 39 8, since := s.gsc
    lateSigs := [(numAt bs 24 1, numAt bs 25 2, numAt bs 27 2), (numAt bs 50 1, numAt bs 51 2, numAt bs 53 2)].take (numAt bs 23 1)
    launch := BitVec.ofNat 64 (numAt bs 29 8), marks := (List.range n).map (fun i => bit (numAt bs 48 2) i) }
  let s := setEng s e g
  let s := regSet s (regKey (engBlk e) (engInst e) 0x110) g.launch
  let s := setP s e P_PCTL_MARK_EN (numAt bs 37 1)
  let k := regKey (engBlk e) (engInst e) 0x104
  regSet s k (BitVec.ofNat 64 (putBits (regGet s k).toNat 3 4 (numAt bs 38 1)))

def packGs (s : State) (e : Eng) : List Byte := (List.range 32).flatMap (fun n => bytesOf 8 (getG s e n).toNat)
def unpackGs (s : State) (e : Eng) (bs : List Byte) : State :=
  (List.range 32).foldl (fun s n => setG s e n (BitVec.ofNat 64 (numAt bs (8 * n) 8))) s

/-! The MXE (R120, R445). -/

/-- Entries of a sparse array from its first on, each of `w` bytes. -/
def packArr (w n : Nat) (f : Nat → Nat) : List Byte := (List.range n).flatMap (fun i => bytesOf w (f i))

/-- The block size that a set's scale bytes go by; a packed problem has one block of 16 K rows (R77). -/
def scaleBlk (t : MxSet) : Nat := if t.probs.isEmpty then (if t.bs32 then 32 else 16) else 16

/-- The scale byte that applies to the cell at row k, column n. -/
def cellScale (t : MxSet) (k n : Nat) : Nat :=
  if t.scaled then (((t.scales[n]?.getD [])[k / scaleBlk t]?).getD 0).toNat else 0

/-- A set's cells, 4 bytes each; a scaled element, of at most 16 bits, carries its scale byte in [31:24]. -/
def packCells (t : MxSet) : List Byte :=
  packArr 4 4096 (fun i => (((t.cells[i / 64]?.getD [])[i % 64]?).getD 0).toNat + 2 ^ 24 * cellScale t (i / 64) (i % 64))

/-- A set's metadata, 32 bytes (R61): the loaded flag, shape, format, scaled flag and block size, extents, mask, the address of a
poisoned word, the extents of its packed problems. -/
def packMeta (t : MxSet) : List Byte :=
  padTo 32 (packF [(1, b2n t.loaded), (1, t.shape), (1, t.fmt), (1, b2n t.scaled + 2 * b2n t.bs32), (2, t.kv), (2, t.nv), (2, t.mask), (4, optN t.bad)]
    ++ (List.range 16).flatMap (fun q => match t.probs.find? (fun x => x.1 == q) with
      | some (_, k, n) => bytesOf 1 ((k - 1) + 16 * (n - 1))
      | none => bytesOf 1 0))

def readSet (cells mt : List Byte) : MxSet :=
  let mask := numAt mt 8 2
  let shape := numAt mt 1 1
  let scaled := bit (numAt mt 3 1) 0
  let bs32 := bit (numAt mt 3 1) 1
  let probs := if shape = packedShape then (listBits 16 mask).map (fun q =>
    (q, numAt mt (14 + q) 1 % 16 + 1, numAt mt (14 + q) 1 / 16 + 1)) else []
  let ws := (List.range 4096).map (fun i => numAt cells (4 * i) 4)
  let rows := chunksOf 64 4096 ws
  let val (w : Nat) : Word := BitVec.ofNat 32 (if scaled then bits w 0 24 else w)
  let sc (k n : Nat) : Byte := BitVec.ofNat 8 (((rows[k]?.getD [])[n]?).getD 0 / 2 ^ 24)
  let blk := if probs.isEmpty && bs32 then 32 else 16
  { loaded := numAt mt 0 1 == 1, shape := shape, fmt := numAt mt 2 1, scaled := scaled, bs32 := bs32, kv := numAt mt 4 2, nv := numAt mt 6 2
    mask := mask, probs := probs, cells := rows.map (fun r => r.map val), bad := ofOptN (numAt mt 10 4)
    scales := if scaled then (List.range 64).map (fun n => (List.range (64 / blk)).map (fun b => sc (b * blk) n)) else [] }

/-- The wide spill buffer: the rows of each spilled run in the run table's order. An entry that its run has not spilled is written as
-0, which no wide partial is (R51). -/
def spillEntries (x : MxState) : List Nat :=
  (x.runs.filter (·.spilled)).flatMap (fun r => (List.range (64 * r.rows)).map (fun i => 64 * r.base + i))

def packWide (x : MxState) : List Byte :=
  padTo 524288 ((spillEntries x).flatMap (fun e => bytesOf 8 ((mapGet (fun _ => none) x.wide e).map (·.toNat) |>.getD (2 ^ 63))))

/-- The run table: 16 bytes a run. -/
def packRuns (x : MxState) : List Byte :=
  padTo 2048 (x.runs.flatMap (fun r => packF [(4, r.base), (4, r.rows), (4, r.chunks), (2, r.interval), (1, b2n r.spilled), (1, 1)]))

def readRuns (bs : List Byte) : List MxRun :=
  (List.range 128).filterMap (fun i => if numAt bs (16 * i + 15) 1 = 1 then
    some ⟨numAt bs (16 * i) 4, numAt bs (16 * i + 4) 4, numAt bs (16 * i + 8) 4, numAt bs (16 * i + 12) 2, numAt bs (16 * i + 14) 1 == 1⟩ else none)

/-- Eight sets: set k of array a is set 2 a + k. -/
def packSets (x : MxState) : List Byte := (List.range 8).flatMap (fun i => packCells (getSet x i))
def packMetas (x : MxState) : List Byte :=
  (List.range 8).flatMap (fun i => packMeta (getSet x i)) ++ padTo 64 (bytesOf 1 x.act ++ bytesOf 1 (mask4 (fun a => (getSet x (idleSet x a)).loaded)))

/-- A sparse map from the entries of an array that are not its default. -/
def readMap {α : Type} [DecidableEq α] (d : α) (n : Nat) (f : Nat → α) : SMap α :=
  (List.range n).foldl (fun m i => mapSet (fun _ => d) m i (f i)) []

def readMx (acc wide cells runs metas : List Byte) : MxState :=
  let rs := readRuns runs
  let x : MxState := { MxState.reset with runs := rs, act := numAt metas 256 1 }
  { x with
    sets := readMap MxSet.reset 8 (fun i => readSet ((cells.drop (16384 * i)).take 16384) ((metas.drop (32 * i)).take 32))
    acc := readMap 0 262144 (fun i => BitVec.ofNat 32 (numAt acc (4 * i) 4))
    wide := ((spillEntries x).zipIdx).foldl (fun m e =>
      let v := numAt wide (8 * e.2) 8
      mapSet (fun _ => none) m e.1 (if v = 2 ^ 63 then none else some (BitVec.ofNat 64 v))) [] }

/-! The DME (R153, R445 0x5A_51C0). -/

/-- The pieces of a descriptor that its reissue list holds (R439). -/
def heldPieces (x : DmState) (tid : Nat) : List PieceOut := x.out.filter (fun o => o.kind == 7 && o.tid == tid)

/-- A descriptor's 64 bytes; the sources of held pieces are read again, so they do not count as read. -/
def packDesc (x : DmState) (d : Desc) : List Byte :=
  let wr := (heldPieces x d.tid).filter (fun o => (o.pkt.map (fun k => k.typ == 0 || k.typ == 3)).getD false)
  padTo 64 (packF [(1, d.tid + 128), (1, d.op), (2, d.pc), (2, d.tag)
    , (1, b2n d.v + 2 * b2n d.t + 4 * b2n d.int + 8 * b2n d.esigDone + 16 * b2n d.sctr.isSome + 32 * b2n d.rctr.isSome + 64 * b2n d.ectr.isSome + 128 * b2n d.unsup)
    , (1, d.sctr.getD 0), (1, d.rctr.getD 0), (1, d.ectr.getD 0), (1, d.ssp + 16 * d.dsp), (1, d.shint + 16 * d.dhint)
    , (8, d.src), (8, d.dst), (8, d.sstr), (8, d.dstr), (3, d.len), (2, d.n1 - 1), (2, d.n2 - 1), (3, d.idxAddr), (4, d.next)
    , (4, d.readBack - wr.length)])

def readDesc (s : State) (held : Nat → Nat) (bs : List Byte) : Option Desc :=
  let n (o k : Nat) : Nat := numAt bs o k
  let fl := n 6 1
  if n 0 1 < 128 then none
  else
    let tid := n 0 1 - 128
    let d : Desc := { Desc.zero with
      tid := tid, op := n 1 1, pc := n 2 2, tag := n 4 2, v := bit fl 0, t := bit fl 1, int := bit fl 2, esigDone := bit fl 3, unsup := bit fl 7
      sctr := if bit fl 4 then some (n 7 1) else none, rctr := if bit fl 5 then some (n 8 1) else none
      ectr := if bit fl 6 then some (n 9 1) else none, ssp := n 10 1 % 16, dsp := n 10 1 / 16, shint := n 11 1 % 16, dhint := n 11 1 / 16
      src := n 12 8, dst := n 20 8, sstr := n 28 8, dstr := n 36 8, len := n 44 3, n1 := n 47 2 + 1, n2 := n 49 2 + 1
      idxAddr := n 51 3, next := n 54 4, readBack := n 58 4, doneCnt := n 54 4 - held tid, since := s.gsc }
    some { d with total := pieceTotal d }

/-- The descriptor records, then the reissue list. -/
def packDm (x : DmState) : List Byte :=
  padTo 512 (x.descs.flatMap (packDesc x))
    ++ padTo 8192 ((x.out.filter (·.kind == 7)).flatMap (fun o => bytesOf 4 (o.pseq + 2 ^ 16 * o.tid + 2 ^ 31)))

/-- A piece of the reissue list after a restore: its request is formed again when it is sent (R439). -/
def heldAgain (s : State) (tid pseq : Nat) : PieceOut :=
  { tid := tid, pseq := pseq, kind := 7, n := 0, data := [], src := [], dst := [], sp := 0, addr := 0, pkt := none, dpkt := none
    hint := 0, int := false, gen := jobGen s, since := s.gsc, held := none, ssp := 0, sa := 0, unsup := false, lines := 0 }

def readDm (s : State) (bs : List Byte) : DmState :=
  let es := ((List.range 2048).map (fun i => numAt bs (512 + 4 * i) 4)).filter (fun v => bit v 31)
  let out := es.map (fun v => heldAgain s (bits v 16 8) (bits v 0 16))
  let held (t : Nat) : Nat := (es.filter (fun v => bits v 16 8 == t)).length
  { DmState.reset with
    descs := (List.range 8).filterMap (fun i => readDesc s held ((bs.drop (64 * i)).take 64)), out := out }

/-! Stations, the VXE (R195, R374, R447). -/

def packXfer (t : Tile) : List Byte :=
  padTo 16384 (t.xfer.flatMap (fun x => padTo 16 (packF [(3, x.src), (1, x.num), (1, x.gen), (4, x.landed), (4, optN x.total), (1, 1)])))

def readXfer (s : State) (bs : List Byte) : List XferEntry :=
  (List.range 1024).filterMap (fun i =>
    let n (o k : Nat) : Nat := numAt bs (16 * i + o) k
    if n 13 1 = 1 then some ⟨n 0 3, n 3 1, jobGen s, n 5 4, ofOptN (n 9 4), s.gsc⟩ else none)

def packVx (s : State) (p : Nat) : List Byte :=
  let x := (getTile s p).vx
  packArr 4 4096 (fun i => (mapGet (fun _ => 0) x.v i).toNat)
    ++ padTo 128 (packArr 16 7 (fun i => (mapGet (fun _ => 0) x.p (i + 1)).toNat)
      ++ bytesOf 4 (regGet s (regKey 4 p VX_FLAGS_OVF.off)).toNat ++ bytesOf 8 (regGet s (regKey 4 p VX_RNG_KEY_KEY.off)).toNat)

def readVx (bs : List Byte) : VxState :=
  { VxState.reset with
    v := readMap 0 4096 (fun i => BitVec.ofNat 32 (numAt bs (4 * i) 4))
    p := (List.range 7).foldl (fun m i => mapSet (fun _ => 0) m (i + 1) (BitVec.ofNat 128 (numAt bs (16384 + 16 * i) 16))) [] }

end Sys2Proof.Machine
end

