-- ==== Sys2Proof/Machine/Gsc.lean ====
section
/-! DEFINITION. Machine time (R422 to R428): the exchange with the parent, the time states, the PPS input. -/
namespace Sys2Proof.Machine

def timeState (s : State) : Nat := getF s CK_STATUS_STATE 0
def setTimeState (s : State) (v : Nat) : State := setF s CK_STATUS_STATE 0 v
def isSource (s : State) : Bool := flagF s CK_CFG_SOURCE 0

/-- R424, R428: no engine is ARMED, RUNNING or WAITING. -/
def noneActive (s : State) : Bool := s.engines.all (fun kv => !(kv.2.st == .armed || kv.2.st == .running || kv.2.st == .waiting))

/-- R424: the offset is slewed away, at a rate of its sign of at most 100 ppm; which rate is a free value (log entry 4). -/
def slewTo (s : State) (off : Int) : State :=
  let (w, s) := freshWord s
  let r : Int := ((w.toNat % 101 : Nat) : Int)
  { s with clock := { s.clock with slew := if 0 < off then r else if off < 0 then -r else 0 } }

/-- R424: a step moves the GSC on by the whole counts of an offset in 1/256 ns, and the exchanges before it are forgotten
(log entry 55). -/
def stepGsc (s : State) (off : Int) : State :=
  setF { s with gsc := (s.gsc + (off / 256).toNat) % 2 ^ 64, clock := { s.clock with offs := [], slew := 0 } } CK_STATUS_STEPPED 0 1

/-- R424: the correction of a filtered offset. A step is taken in the two cases, never backward. -/
def correct (s : State) (off : Int) : State :=
  let may := (timeState s == 1 && noneActive s) || s.clock.first
  let s := { s with clock := { s.clock with first := false } }
  if may && decide (256 ≤ off) then stepGsc s off else slewTo s off

/-- R425: an offset within 2 ns (512/256) for 16 consecutive exchanges or edges locks. -/
def countGood (s : State) (off : Int) : State :=
  if timeState s ≠ 1 then s
  else
    let n := if off.natAbs ≤ 512 then s.clock.good + 1 else 0
    let s := { s with clock := { s.clock with good := n } }
    if 16 ≤ n then setTimeState s 2 else s

/-- GSC_EXCHANGE: once per millisecond the GW7 asks its parent, with a message on the parent flue; the TSTAMP of the frame that carries
it is the departure count (R424). -/
def gscExchange (s : State) : State :=
  match parentFlue s with
  | some f =>
    if isSource s ∨ s.gsc < getTimer s tmGscX + 1000000 then s
    else
      let s := flueMessage (setTimer s tmGscX s.gsc) f [5]
      { s with clock := { s.clock with ask := true, t1 := none } }
  | none => s

/-- R425: a FREE GW7 whose parent slot is ADMITTED with a flue UP, and whose parent has reported LOCKED, begins to acquire. -/
def parentCheck (s : State) : State :=
  if timeState s = 0 ∧ !isSource s ∧ s.clock.parent = 2 ∧ admitted s (getF s CK_CFG_PARENT 0) ∧ (parentFlue s).isSome then
    { setTimeState s 1 with clock := { s.clock with good := 0 } }
  else s

/-- R425: the state that an exchange with a LOCKED parent leads to. -/
def meetParent (s : State) : State :=
  match timeState s with
  | 0 => parentCheck s
  | 3 => { setTimeState s 1 with clock := { s.clock with good := 0 } }
  | _ => s

/-- R424: the offset of an exchange, in 1/256 ns: the parent's counts t2 and t3, the own departure count t1, and the own arrival count
t4 with its 8 fraction bits. -/
def exchangeOff (s : State) (t1 t2 t3 frac : Nat) : Int :=
  (((t2 : Int) - (256 * t1 : Nat)) - (((256 * s.clock.t4 + frac : Nat) : Int) - t3)) / 2

/-- GSC_TIME_REPLY: R424, R425: the parent's message, with t2 and t3 in 1/256 ns, and the fraction of t4. A parent that is not LOCKED
corrects nothing (R423). A reply to no exchange is ignored. -/
def gscTimeReply (s : State) (t2 t3 frac parent : Nat) : State :=
  match s.clock.t1 with
  | none => s
  | some t1 =>
  let s := { s with clock := { s.clock with t1 := none } }
  if isSource s ∨ (parentFlue s).isNone then s
  else if parent ≠ 2 then
    let s := { s with clock := { s.clock with good := 0, lastX := s.gsc, parent := parent, first := false } }
    if timeState s = 2 then setTimeState s 3 else s
  else
    let s := meetParent { s with clock := { s.clock with lastX := s.gsc, parent := 2 } }
    if timeState s = 0 then s
    else
      let offs := (exchangeOff s t1 t2 t3 frac :: s.clock.offs).take 64
      let off := Config.gscFilter offs
      let s := setF { s with clock := { s.clock with offs := offs } } CK_OFFSET_OFFSET 0 (wrapInt 32 off)
      countGood (correct s off) off

/-- GSC_HOLDOVER: R425, R427. -/
def gscHoldover (s : State) : State :=
  if timeState s = 2 ∧ !isSource s ∧ s.clock.lastX + 10000000 ≤ s.gsc then setTimeState s 3 else s

/-- R428: the source follows the PPS input. -/
def followsPps (s : State) : Bool := isSource s && flagF s CK_CFG_PPS_EN 0

/-- R428: how far the GSC is from the nearest whole second, in 1/256 ns. -/
def ppsOffset (s : State) : Int :=
  let r := s.gsc % 1000000000
  if r < 500000000 then -((256 * r : Nat) : Int) else ((256 * (1000000000 - r) : Nat) : Int)

/-- PPS_EDGE: R428, R425. -/
def ppsEdge (s : State) : State :=
  if !followsPps s then s
  else
    let off := ppsOffset s
    let s := setF { s with clock := { s.clock with lastPps := s.gsc } } CK_STATUS_PPS_LOST 0 0
    let s := if timeState s = 1 ∧ noneActive s ∧ 256 ≤ off then stepGsc s off else slewTo s off
    countGood s off

/-- PPS_LOST: R428. -/
def ppsLost (s : State) : State :=
  if followsPps s ∧ s.clock.lastPps + 2000000000 ≤ s.gsc ∧ !flagF s CK_STATUS_PPS_LOST 0 then
    setF { s with clock := { s.clock with slew := 0 } } CK_STATUS_PPS_LOST 0 1
  else s

/-- CK_CFG_WRITE: R425, R429. What the parent before reported no longer counts. -/
def ckCfgWrite (s : State) (v : Word) : State :=
  let s := setF (setF (setF s CK_CFG_SOURCE 0 (bits v.toNat 0 1)) CK_CFG_PPS_EN 0 (bits v.toNat 1 1)) CK_CFG_PARENT 0 (bits v.toNat 2 3)
  let s := { s with clock := { s.clock with offs := [], good := 0, lastX := s.gsc, lastPps := s.gsc, parent := 0, ask := false, t1 := none } }
  if isSource s then
    let s := setF { s with clock := { s.clock with slew := 0 } } CK_OFFSET_OFFSET 0 0
    setTimeState s (if flagF s CK_CFG_PPS_EN 0 then 1 else 2)
  else setTimeState s (if (parentFlue s).isSome then 1 else 0)

end Sys2Proof.Machine
end

