-- ==== Sys2Proof/Machine/Replies.lean ====
section
/-! DEFINITION. Replies that return to an endpoint of this GW7 (R359, R149, R249, R323, R509), and what the switching of editions
brings with it (R378, R544). -/
namespace Sys2Proof.Machine

/-- The code of a NACK (R359). -/
def nackCode (p : Packet) : Nat := ofBytes ((p.payload.take 2).map (·.b))

/-- A reply at a collective engine: an sy.sig of its own, or a refusal of its collective traffic. -/
def ceReply (s : State) (c : Nat) (p : Packet) : State :=
  if p.typ = 7 then sigAcked s (ceEng c) (p.tid.toNat % 256)
  else if p.typ = 9 then
    if 0x40 ≤ epLocal p.src then ceNacked s c p else sigFailed s (ceEng c) (p.tid.toNat % 256) (nackCode p)
  else s

/-- A reply at the folio unit (domain 103) and the MGC's pusher (domain 102): a duplicate (transfer number 0) or a pushed line (1). A
stale one is dropped and counted (R521). -/
def memReply (s : State) (p : Packet) : State :=
  let ok := p.typ == 7
  let d := if p.tid.toNat % 256 = 1 then 102 else 103
  if !freshReply s d p then countStale s d
  else if !ok && p.typ != 9 then s
  else if p.tid.toNat % 256 = 1 then pushAnswered s p.addr.toNat ok
  else if ok then dupAcked s p.addr.toNat
  else if s.folio.dups.any (fun d => d.target == p.addr.toNat) then mirrorLost s else s

/-- A reply by its endpoint: a tile, a collective engine, or 0x48. The MGC's own messages need nothing of theirs. -/
def replyAt (s : State) (p : Packet) : State :=
  let l := epLocal p.dst
  if l < 0x40 then (match physOf s l with | some t => tileReply s t p | none => s)
  else if l < 0x44 then ceReply s (l - 0x40) p
  else if l = 0x48 then memReply s p
  else s

/-- ACK, DATA, NACK and HOLD. -/
def replyPkt (s : State) (p : Packet) (typ : Nat) : State := atEndpoint s p typ (fun s => replyAt s p)

/-- R344: the plan of the slots that the control node loads. -/
def loadPlan (s : State) (plan : List PlanSlot) : State :=
  (List.range 8).foldl (fun s i =>
    match plan[i]? with
    | some x => setSlot s i ((getSlot s i).1, x.device.getD 0, x.node.toNat)
    | none => setSlot s i ((getSlot s i).1, 0, 0)) s

/-- EDITION_SWITCH: R379; MR6 is extended with the edition newly in use (R544). A plan that the control node has loaded with the edition
holds from now on (R345, R346, R506; log entry 127), and the slots are checked. -/
def switchEdition (s : State) (plan : Option (List PlanSlot)) : State :=
  if flagF s RT_EDITION_ARMED 0 ∧ getF s RT_EDITION_AT 0 ≤ s.gsc then
    let s := editionSwitch s
    let s := mrExtend s 6 0 0 (editionDigest s (getF s RT_EDITION_INJECT 0))
    match plan with
    | some x => parentCheck (slotCheck (loadPlan s x))
    | none => slotCheck s
  else s

/-- R544: at K4, MR6 is extended with each catalogue edition, after the plan. -/
def measureEditions (s : State) : State := mrExtend (mrExtend s 6 0 0 (editionDigest s 0)) 6 0 0 (editionDigest s 1)

/-- CATALOGUE_LIVE: R378. -/
def catalogueLive (s : State) : State :=
  if s.router.written.contains 0 ∧ s.router.written.contains 1 ∧ !flagF s RT_STATUS_CAT_LIVE 0 ∧ 4 ≤ getF s MG_KIND_STATUS_STAGE 0 then
    let s := parentCheck (slotCheck (setF s RT_STATUS_CAT_LIVE 0 1))
    if s.planned then measureEditions s else s
  else s

end Sys2Proof.Machine
end

