-- ==== Sys2Proof/Machine/Reset.lean ====
section
/-! DEFINITION. Reset domains (chapter 18): requests, isolation, what each domain's reset clears, admission, the MGC watchdog, stale
generations and live updates. -/
namespace Sys2Proof.Machine

def resetErr (s : State) : State := setF s MG_RESET_STATUS_CMD_ERR 0 1

/-- R519: how long a domain's requests are held after its last reset, in whole GSC counts: 200 STALL_MS / 255 ms. -/
def resetHold (s : State) : Nat := (200 * (if getF s RT_CFG_STALL_MS 0 = 0 then 5 else getF s RT_CFG_STALL_MS 0) * 1000000 + 254) / 255

/-- R240: whether an increment is an sy.sig that a tile has accepted. -/
def isSig (i : Incr) : Bool := match i.src with | .signal _ => true | _ => false

/-- R240: the sy.sig increments that a tile has accepted before step 1 of its reset are applied and acknowledged; the rest fall with
the isolation. -/
def acceptSigs (s : State) (p : Nat) : State :=
  flushIncrs (modTile s p (fun t => { t with pend := t.pend.filter isSig })) p

/-- R240: from step 1 on every other increment bound for the tile is dropped. -/
def dropPend (s : State) (p : Nat) : State := modTile s p (fun t => { t with pend := [] })

/-- R524: the requests that the folio unit holds for a frame on a stack being reset. -/
def heldOnStack (s : State) (h : HeldReq) : Bool :=
  (heldParts h).any (fun x => match frameOfVpn s (x.1 / 2 ^ 21) with
    | some pfn => memReset s [(frameAddr pfn x.1, x.2)]
    | none => false)

/-- R288: a controller's reset places its stack in self-refresh, out of service until retraining ends. -/
def selfRefresh (s : State) (st : Nat) : State := setF (setF s MC_STATUS_SELF_REFRESH st 1) MC_STATUS_TRAINED st 0

/-- R524: what the isolation of a controller's domain ends: held requests of its stack, and a granule that is being sent. -/
def stackIsolated (s : State) : State :=
  let gone := s.folio.held.filter (heldOnStack s)
  let s := { s with folio := { s.folio with held := s.folio.held.filter (fun h => !heldOnStack s h) } }
  let s := gone.foldl (fun s h => sendNack s h.pkt 0x0402) s
  match s.folio.sending with
  | some x => if x.ended then s else { s with folio := { s.folio with sending := none } }
  | none => s

/-- R500: a tile's reset abandons the migration that it meets, and with it the live update that asked for it. -/
def abandonFor (s : State) (d : Nat) : State :=
  match s.migr with
  | some m =>
    if d < 72 ∧ (m.src = d ∨ m.dst = d) then
      let s := abandonMove s d
      if m.upd then setF { s with update := none } MG_UPDATE_STATUS_STATE 0 6 else s
    else s
  | none => s

/-- R240: what a tile has accepted takes effect before its isolation. -/
def acceptFor (s : State) (d : Nat) : State := if d < 72 then acceptSigs s d else s

/-- R523 step 1, with what the domain's isolation means for its requesters. -/
def beginReset (s : State) (d cause : Nat) (coll : Bool) : State :=
  let s := isolateDomain (acceptFor (abandonFor s d) d) d cause coll
  if d < 72 then dropPend s d
  else if d < 78 then selfRefresh (stackIsolated s) (d - 72)
  else if 78 ≤ d ∧ d < 96 then modFlue (setFlueState s (d - 78) 0) (d - 78) (fun x => { x with step := 0 })
  else s

/-- R519, R525, R536: a request for a domain's reset. -/
def requestReset (s : State) (d : Nat) (coll : Bool) (cause : Nat) : State :=
  if 104 ≤ d then resetErr s
  else
    let x := getDom s d
    if isolated s d then resetErr s
    else if x.phase = 1 then s
    else match x.last with
      | some t => if s.gsc < t + resetHold s ∧ d ≠ 103 then setDom s d { x with phase := 1, collect := coll, cause := cause } else beginReset s d cause coll
      | none => beginReset s d cause coll

/-- RESET_HOLD_EXPIRE: R519. -/
def resetHoldExpire (s : State) (d : Nat) : State :=
  let x := getDom s d
  match x.phase, x.last with
  | 1, some t => if s.gsc < t + resetHold s ∨ 2 ≤ (getDom s 103).phase then s else beginReset s d x.cause x.collect
  | _, _ => s

/-- The domain whose collection runs (R525, R526). -/
def collecting (s : State) (d : Nat) : Bool := (getDom s d).phase == 2 && (getDom s d).collect && s.resetQ.head? == some d

/-- DEBUG_RING_TIMEOUT: R526; one that meets a migration's copy makes it a replacement (R497). -/
def debugTimeout (s : State) (d : Nat) : State :=
  let s := copyTimeout s d
  if collecting s d ∧ getTimer s (tmAccess d) + 10000 ≤ s.gsc then
    setTimer (setDom s d { getDom s d with timeouts := (getDom s d).timeouts + 1 }) (tmAccess d) s.gsc
  else s

/-! What a reset clears (R518). -/

def dropKeys (s : State) (p : Nat → Bool) : State := { s with regs := mapDrop p s.regs }

/-- A key of the TL page's check-value registers (R490), of MX_FLAGS, of VX_FLAGS and VX_RNG_KEY, or of a counter. -/
def tileCleared (p k : Nat) : Bool :=
  let b := k / 2 ^ 20
  let o := k % 2 ^ 12
  k / 2 ^ 12 % 256 == p && ((b == 2 && 0x100 ≤ o && o < 0x200) || (b == 3 && o == MX_FLAGS_OVF.off)
    || (b == 4 && (o == VX_FLAGS_OVF.off || o == VX_RNG_KEY_KEY.off)) || (b == 6 && SY_CTR.off ≤ o && o < SY_CTR.off + 1024))

/-- Physical tile p: R121, R154, R196, R207, R240, R490, and its tile store, accumulation and wide spill buffers. -/
def clearTile (s : State) (p : Nat) : State :=
  let s := tearDigest s p 0 0x400000
  let s := zeroRange s (tsAddr p 0) (tsAddr (p + 1) 0)
  let s := zeroRange s (0xF200000000 + p * 0x40000) (0xF200000000 + (p + 1) * 0x40000)
  let s := (List.range 4).foldl (fun s k => setEng s (tileEng p k) Engine.reset) s
  let t := getTile s p
  let s := setTile (orphanLines s (fun k => k.1 == p)) p { Tile.reset with xfer := t.xfer, trace := t.trace, sweepAt := t.sweepAt, digestBusy := t.digestBusy }
  let s := { s with mark := { s.mark with arrived := s.mark.arrived.filter (fun i => i / 4 != p || 288 ≤ i) } }
  dropKeys s (tileCleared p)

/-- Collective engine c: R412. -/
def clearCe (s : State) (c : Nat) : State :=
  let s := zeroRange s (0xF202000000 + c * 0x10000) (0xF202000000 + (c + 1) * 0x10000)
  let s := setCe (setEng s (ceEng c) Engine.reset) c { Ce.reset with nack := true }
  let s := takeBackMark s (ceEng c)
  dropKeys s (fun k => k == regKey 8 c CE_FLAGS_OVF.off)

/-- R288: one word that a slice meets as it writes back its dirty lines; the HBM copy of a line that it cannot read is poisoned. -/
def flushWord (s : State) (e : LineErr) : State :=
  let a := e.addr.toNat
  if (getStack s (ilStack a)).lines.any (fun l => l.line == a / 256 && l.dirty) then
    let (s, v) := accessWord s (hcPlace a) e
    let s := countHcErr s a v
    if isLost v then (List.range 16).foldl (fun s i => poisonWord s (256 * (a / 256) + 16 * i)) s else s
  else s

/-- The hint cache: R288. Every dirty line is written back first, or its copy in HBM poisoned. -/
def clearHc (s : State) (errs : List LineErr) : State :=
  let s := errs.foldl flushWord s
  let s := (List.range 6).foldl (fun s i => setStack (flushWb s i) i { getStack (flushWb s i) i with lines := [] }) s
  { s with lineQ := [] }

/-- The MGC: its program state; its data SRAM stays (R525, R531). MR1 is extended again (R544). What it was doing for the driver ends
(log entry 56). -/
def clearMgc (s : State) : State :=
  let s := setF (setF { s with classCmd := none } MG_CLASS_STATUS_BUSY 0 0) MG_DIGEST_STATUS_STATE 0 0
  let s := setF { s with mrPend := none } MG_MR_CMD_BUSY 0 0
  let s := { s with digest := ⟨0, [], false, [], []⟩, checking := none, eb := { s.eb with reqs := [], colo := [] } }
  let img := s.images.find? (fun i => i.block.toNat == 1 && i.version.toNat == fwVersion s 1 0)
  mrExtend s 1 1 (fwVersion s 1 0) ((img.map (·.digest)).getD 0)

/-- Whether an address lies in the ash record (R529). -/
def inAsh (a : Nat) : Bool := ashBase ≤ a && a < ashBase + 0x800000

/-- R531: what a whole-chip reset keeps; the rest is as after reset. The tiles, which now find every engine HALTED, are let down
group by group (R19, R20). -/
def chipKept (s : State) : State :=
  { State.reset with
    pending := s.pending, freeCtr := s.freeCtr, pins := { s.pins with lowTill := s.pins.lowTill - s.gsc }, ledger := s.ledger
    lifetime := s.lifetime, fuses := s.fuses, ramp := s.ramp
    testset := s.testset, wear := s.wear, mem := mapDrop (fun a => !inAsh a) s.mem, poison := mapDrop (fun w => !inAsh (16 * w)) s.poison
    ptile := mapDrop (fun p => ptileOf s p != 4) s.ptile }

/-- R531, R532, R572: what a whole-chip reset keeps: CRIT of a thermal trip, the ash record, the ledger with its counts and wear
history, fused values and the NOR's test set, and the tiles already retired (R492; log entry 57). The queue of commands is outside the
part. The lending flow is FAULTED until kindling ends (R432, R442, R467). -/
def chipClear (s : State) : State :=
  let x := getDom s 103
  let t := applyStraps (chipKept s)
  let t := (List.range 104).foldl (fun t d => setGen t d ((ashRd t (48 + d) 1 + 1) % 256)) t
  let t := setDom t 103 { getDom t 103 with entry := x.entry, cause := x.cause }
  let t := setF (if s.pins.stop = 5 then setF t PW_THERM_CRIT 0 1 else t) MG_LEND_STATUS_STATE 0 5
  bumpLife (ashWr t 12 4 ((ashRd t 12 4 + 1) % 2 ^ 32)) 0

/-- R523 steps 3 and 4: the generation advances and the domain clears. -/
def clearDomain (s : State) (d : Nat) (errs : List LineErr) : State :=
  if d = 103 then chipClear s
  else if 78 ≤ d ∧ d < 96 then flueRec (flueClear s (d - 78)) (d - 78) 0x0906 0xF 4
  else
    let s := resetPages (nextGen s d) d
    if d < 72 then clearTile s d
    else if d < 78 then s
    else if d < 100 then clearCe s (d - 96)
    else if d = 100 then clearHc s errs
    else if d = 101 then (List.range 64).foldl orphanCtx s
    else clearMgc s

/-- COLLECTION_COMPLETE: R523 steps 2 to 4. `errs` are the line errors that a hint cache meets in its dirty lines (R288). -/
def collectionComplete (s : State) (d : Nat) (errs : List LineErr) : State :=
  let x := getDom s d
  if x.phase ≠ 2 then s
  else if x.collect && s.resetQ.head? != some d then s
  else
    let s := if x.collect then collect s d else s
    let s := { s with resetQ := if x.collect then s.resetQ.drop 1 else s.resetQ }
    let s := match s.resetQ with
      | n :: _ => if x.collect then setTimer s (tmAccess n) s.gsc else s
      | [] => s
    let s := clearDomain s d errs
    if d = 103 then s else setDom s d { getDom s d with phase := 3 }

/-- R525, R551, R473: a tile that fails its BIST is permanent and is replaced. -/
def bistFailed (s : State) (p : Nat) : State := condemn (bumpLife (logLedger s 3 p [2]) 3) p true

/-- R520, R535: the MGC reports its watchdog's expiries when it returns. -/
def watchdogRec (s : State) (n : Nat) : State := raiseMgc s 0x0406 n

/-! Live updates (R533, R534). -/

def updErr (s : State) : State := setF s MG_UPDATE_STATUS_CMD_ERR 0 1
def updState (s : State) (v : Nat) : State := setF s MG_UPDATE_STATUS_STATE 0 v

/-- R541: why an image is invalid: 1 header, 2 digest, 3 signature, 4 SVN; 0 when it is valid. -/
def imageFault (s : State) (b : Nat) (i : FwImage) : Nat :=
  if !i.headOk ∨ i.block.toNat ≠ b then 1
  else if !i.digOk then 2
  else if !i.sigOk then 3
  else if i.svn.toNat < mapGet (fun _ => 0) s.fuses b ∨ 32 < i.svn.toNat then 4
  else 0

/-- R533, R538: what refuses every staging and application. -/
def updBarred (s : State) : Bool :=
  getF s MG_KIND_STATUS_STAGE 0 < 5 || lendState s == 3 || lendState s == 4 || s.update.isSome || s.checking.isSome

/-- UPDATE_STAGE: R533: the check begins. -/
def updateStage (s : State) (b : Nat) (i : FwImage) : State :=
  if updBarred s ∨ !fwBlocks.contains b then updErr s else { s with checking := some { i with headOk := i.headOk && i.block.toNat == b } }

/-- UPDATE_STAGE_COMPLETE: R533, R541, R543. -/
def updateStaged (s : State) : State :=
  match s.checking with
  | none => s
  | some i =>
    let s := { s with checking := none }
    if imageFault s i.block.toNat i = 0 then updState { s with staged := some i } 1 else updState s 6

/-- UPDATE_DROP: R533, R538. -/
def updateDrop (s : State) : State := if getF s MG_KIND_STATUS_STAGE 0 < 5 then updErr s else updState { s with staged := none } 0

/-- The reset domain of an instance of a block type; none for the router (R518, R534). -/
def updDomain (b i : Nat) : Option Nat := if b = 9 then none else some (pageDomain b i)

/-- R533: the instance meets the precondition of its block type. -/
def updReady (s : State) (b i : Nat) : Bool :=
  (fwUnits s b).contains i && (match b with
    | 10 => (slotFlues s (flueSlot s i)).any (fun f => f != i && flueUp s f)
    | 11 => (List.range 292).all (fun k => (getEng s (engOf k)).st != .running && (getEng s (engOf k)).st != .waiting)
    | 8 => (getEng s (ceEng i)).st == .halted
    | 7 => (List.range 64).all (fun x => (getCtx s x).cstate == 0)
    | 2 | 4 => ptileOf s i == 1 || ptileOf s i == 2 || (ptileOf s i == 0 && (spareTile s).isSome && s.migr.isNone)
    | _ => true)

/-- The instance's domain resets with cause 5 (R534). -/
def updReset (s : State) (d : Nat) : State := requestReset (updState s 3) d true 5

/-- UPDATE_APPLY: R533, R534. -/
def updateApply (s : State) (b i : Nat) : State :=
  let ok := match s.staged with | some g => g.block.toNat == b | none => false
  let free := match updDomain b i with | some d => !isolated s d && (getDom s d).phase == 0 | none => true
  if updBarred s || !ok || !free || !updReady s b i then updErr s
  else
    let s := { s with update := some (b, i) }
    match updDomain b i with
    | none => updState s 3
    | some d =>
      if d < 72 ∧ ptileOf s d = 0 then
        (match logOf s d, spareTile s with
         | some l, some dst => startMove (updState s 2) l d dst false false true
         | _, _ => s)
      else updReset s d

/-- R533: the tile to update has been freed by its migration; its update runs on it. -/
def updFreed (s : State) : State :=
  match s.update with
  | some (b, i) => if getF s MG_UPDATE_STATUS_STATE 0 = 2 ∧ s.migr.isNone ∧ (b = 2 ∨ b = 4) then updReset s i else s
  | none => s

/-- The digest of the image that a unit runs. -/
def runningDigest (s : State) (b u : Nat) : BitVec 256 :=
  ((s.images.find? (fun i => i.block.toNat == b && i.version.toNat == fwVersion s b u)).map (·.digest)).getD 0

/-- A unit runs an image: its version and SVN; the SFU image sets VX_SFU_REV (R511). -/
def runImage (s : State) (b u : Nat) (i : FwImage) : State :=
  let s := { s with
    fw := mapSet (fun _ => 0) s.fw (256 * b + u) (i.version.toNat + 2 ^ 32 * i.svn.toNat)
    images := if s.images.any (fun j => j.block == i.block && j.version == i.version) then s.images else s.images ++ [i] }
  if b = 4 then setF s VX_SFU_REV_REV u (bits i.version.toNat 0 16) else s

/-- R534: the loading ends: the measurement, the record, the key. -/
def finishUpdate (s : State) (b i : Nat) (g : FwImage) : State :=
  let old := keyRecord s
  let s := if g.loads then runImage s b i g else s
  let s := mrExtend s (mrOf b) b (fwVersion s b i) (runningDigest s b i)
  let s := updState { s with update := none } (if g.loads then 5 else 6)
  let s := raiseMgcTile s (if g.loads then 0x0408 else 0x0409) (if b = 2 ∨ b = 4 then i else 0xFF) (b + 2 ^ 16 * i + 2 ^ 32 * fwVersion s b i)
  if g.loads then changeKey s old 1 else s

/-- A tile that has been updated off the map is SPARE again (R533). -/
def updSpare (s : State) (d : Nat) : State :=
  if d < 72 ∧ (logOf s d).isNone ∧ (ptileOf s d = 2 ∨ ptileOf s d = 3 ∨ ptileOf s d = 1) then
    let s := if (s.test.map (·.phys)) = some d then setF { s with test := none } MG_TEST_STATUS_STATE 0 0 else s
    pumpPerm (setPtile s d 1)
  else s

/-- UPDATE_DONE: R534. -/
def updateDone (s : State) : State :=
  match s.update, s.staged with
  | some (b, i), some g =>
    (match updDomain b i with
     | none => if getF s MG_UPDATE_STATUS_STATE 0 = 3 then finishUpdate s b i g else s
     | some d => if (getDom s d).phase = 3 then updSpare (admitDomain (finishUpdate s b i g) d) d else s)
  | _, _ => s

/-- DOMAIN_READY: R523 step 5. A domain under update is admitted by UPDATE_DONE. -/
def domainReady (s : State) (d : Nat) (bistOk : Bool) : State :=
  let upd : Bool := match s.update with | some (b, i) => updDomain b i == some d && (getDom s d).cause == 5 | none => false
  if (getDom s d).phase != 3 || upd then s
  else
    let cause := (getDom s d).cause
    let s := admitDomain s d
    if d < 72 ∧ !bistOk then bistFailed s d
    else if d = 102 ∧ cause = 2 then watchdogRec s 1
    else s

/-! The watchdog and stale replies (R520, R521). -/

/-- WDOG_KICK. -/
def wdogKick (s : State) : State := setTimer s tmKick s.gsc

/-- MGC_WATCHDOG: R520, R551. -/
def mgcWatchdog (s : State) : State :=
  if getF s MG_KIND_STATUS_STAGE 0 < 2 ∨ isolated s 102 ∨ s.gsc < getTimer s tmKick + 2000000000 then s
  else
    let s := bumpLife (addF (setF s MG_WDOG_EXPIRED 0 1) MG_WDOG_EXPIRIES 0 1) 10
    let first := getTimer s tmExpire
    let s := setTimer s tmKick s.gsc
    if first ≠ 0 ∧ s.gsc ≤ first + 60000000000 then requestReset s 103 true 2
    else requestReset (setTimer s tmExpire s.gsc) 102 true 2

/-- STALE_GENERATION: R521. -/
def staleGeneration (s : State) (d : Nat) : State :=
  let n := getFi s MG_DSTALE 0 d
  let x := getDom s d
  if n ≤ x.reported ∨ (getTimer s (tmStale d) ≠ 0 ∧ s.gsc < getTimer s (tmStale d) + 1000000000) then s
  else raiseMgcTile (setTimer (setDom s d { x with reported := n }) (tmStale d) s.gsc) 0x0401 (if d < 72 then d else 0xFF) (d + 2 ^ 32 * (n - x.reported))

end Sys2Proof.Machine
end

