-- ==== Sys2Proof/Machine/Telemetry.lean ====
section
/-! DEFINITION. Rails, temperatures, pacing, wear and ageing (chapter 19). -/
namespace Sys2Proof.Machine

/-! Rails (R561, R619, R621). -/

/-- R619: nominal voltage in mV and tolerance in per cent of rails 0 to 14. -/
def railSpec : List (Nat × Nat) :=
  [(720, 3), (720, 3), (720, 3), (720, 3), (720, 3), (750, 3), (750, 3), (1050, 3), (1800, 5), (850, 2), (1200, 2), (3300, 5), (800, 3)
  , (900, 2), (1800, 5)]

/-- Whether a rail's voltage in mV is out of tolerance: 1 low, 2 high. -/
def railOut (i mv : Nat) : Nat :=
  match railSpec[i]? with
  | some (v, t) => if 100 * mv < v * (100 - t) then 1 else if v * (100 + t) < 100 * mv then 2 else 0
  | none => 0

/-- R561: the mean power of rail i over the samples of the last millisecond, in 0.01 W. The samples are in µW. -/
def railMean (rs : List (List Nat)) (i : Nat) : Nat := if rs.isEmpty then 0 else sumNat (rs.map (fun r => r[i]?.getD 0)) / rs.length / 10000

/-- R621: a rail out of tolerance twice running: the record, and a whole-chip reset as under R467. -/
def railFault (s : State) (i mv : Nat) : State :=
  requestReset (raiseMgc s 0x1004 (i + 2 ^ 4 * railOut i mv + 2 ^ 16 * mv)) 103 true 3

/-- The die temperature T as PW_TEMP holds it, with the sensor that reads it (R562). -/
def dieTemp (s : State) : Int × Nat :=
  (List.range 12).foldl (fun b i =>
    let t := sext 12 (getFi s PW_TEMP_T 0 i)
    if b.1 < t then (t, i) else b) (sext 12 (getFi s PW_TEMP_T 0 0), 0)

/-- The largest number below 2^b above `r` that passes a test which all smaller ones pass, by its bits. -/
def topBits (ok : Nat → Bool) : Nat → Nat → Nat
  | 0, r => r
  | b + 1, r => topBits ok b (if ok (r + 2 ^ b) then r + 2 ^ b else r)

/-- R567: the current-time use of one sample of 10 µs, I × 2^((T - 90 °C) / 10 °C) × t, rounded down to a whole 10^-15 ampere-second
(log entry 140); `ma` is in mA, `t8` in 1/8 °C, so that the weight is the 80th root of a power of 2. -/
def wearUse (ma : Nat) (t8 : Int) : Nat :=
  let n := 10000000 * ma
  let k := t8 - 720
  topBits (fun r => decide (r ^ 80 * 2 ^ (-k).toNat ≤ n ^ 80 * 2 ^ k.toNat)) (Nat.log2 n + 20) 0

/-- R567: a rail's current-time use; USED is in ampere-seconds. -/
def railWear (s : State) (i ma : Nat) : State :=
  let w := wearUse ma (dieTemp s).1
  let s := addWear (addWear s (3000 + i) w) (3100 + i) w
  let used := (mapGet (fun _ => Wear.reset) s.wear (3100 + i)).sum / 1000000000000000
  setFi (setFi s AG_ICT_USED 0 i (used % 2 ^ 48)) AG_ICT_PERMIL 0 i (min 1000 (used * 1000 / Config.railBudget i))

/-- RAIL_SAMPLE: a pair is a rail's current in mA and its voltage in mV. -/
def railSample (s : State) (xs : List (Nat × Nat)) : State :=
  if !s.pins.powerGood ∨ s.gsc < getTimer s tmRail + 10000 then s
  else
    let xs := xs.take 15
    let s := setTimer s tmRail s.gsc
    let ps := xs.map (fun x => x.1 * x.2)
    let rs := (ps :: s.rails).take 100
    let pj := s.energyRem + 10 * sumNat ps
    let s := addStat { s with rails := rs, energyRem := pj % 1000000000 } PW_ENERGY 0 (pj / 1000000000)
    let s := xs.zipIdx.foldl (fun s x => railWear (setFi s PW_RAIL_CW 0 x.2 (railMean rs x.2 % 2 ^ 18)) x.2 x.1.1) s
    let bad := (xs.zipIdx.filter (fun x => railOut x.2 x.1.2 != 0))
    let twice := bad.filter (fun x => s.railBad.contains x.2)
    let s := { s with railBad := bad.map (·.2) }
    if isolated s 103 then s
    else match twice with
      | x :: _ => railFault s x.2 x.1.2
      | [] => s

/-! Temperature (R562, R563). -/

def alertC (s : State) : Int := (min (getF s PW_THERM_ALERT_C 0) 100 : Nat)
def throttleC (s : State) : Int := (min (getF s PW_THERM_THROTTLE_C 0) 98 : Nat)

/-- R571: THERMAL_ALERT and THERMAL_CRIT. -/
def thermRec (s : State) (code : Nat) : State := raiseMgc s code ((dieTemp s).2 + 2 ^ 16 * wrapInt 12 (dieTemp s).1)

/-- R563: the alert. -/
def thermAlert (s : State) : State :=
  let t := (dieTemp s).1
  if 8 * alertC s ≤ t ∧ !flagF s PW_THERM_ALERT 0 then thermRec (setF s PW_THERM_ALERT 0 1) 0x1001
  else if t < 8 * (alertC s - 3) ∧ flagF s PW_THERM_ALERT 0 then setF s PW_THERM_ALERT 0 0
  else s

/-- R563: the critical limit: CRIT, the record, the whole-chip reset with collection, and the hold. -/
def thermCrit (s : State) : State :=
  let t := (dieTemp s).1
  if 8 * 105 ≤ t ∧ s.pins.stop ≠ 5 ∧ !isolated s 103 then
    let s := thermRec (setF s PW_THERM_CRIT 0 1) 0x1002
    requestReset { s with pins := { s.pins with stop := 5 } } 103 true 3
  else if t < 8 * 90 ∧ s.pins.stop = 5 then { s with pins := { s.pins with stop := 0 } }
  else s

/-- TEMPERATURE_SAMPLE. -/
def temperatureSample (s : State) (ts : List (BitVec 12)) : State :=
  if !s.pins.powerGood ∨ s.gsc < getTimer s tmTemp + 100000 then s
  else
    let s := setTimer s tmTemp s.gsc
    let s := (ts.take 19).zipIdx.foldl (fun s x => setFi s PW_TEMP_T 0 x.2 x.1.toNat) s
    thermCrit (thermAlert s)

/-! Pacing (R565). -/

/-- One step of a level: up by one once `up` counts have passed while `rise`, down by one once a millisecond has while `fall`. -/
def levelStep (s : State) (f : Fld) (rise fall : Bool) (tUp tDn up : Nat) : State :=
  let v := getF s f 0
  if rise && v < 12 && getTimer s tUp + up ≤ s.gsc then setTimer (setF s f 0 (v + 1)) tUp s.gsc
  else if fall && 0 < v && getTimer s tDn + 1000000 ≤ s.gsc then setTimer (setF s f 0 (v - 1)) tDn s.gsc
  else s

/-- The total power of the rails in 0.01 W. -/
def totalPower (s : State) : Nat := sumNat ((List.range 15).map (fun i => getFi s PW_RAIL_CW 0 i))

/-- PACING_LEVEL_STEP. -/
def pacingStep (s : State) : State :=
  let t := (dieTemp s).1
  let cap := max 600 (getF s PW_CAP_WATTS 0)
  let s := levelStep s PW_PACE_THERMAL (decide (8 * throttleC s ≤ t)) (decide (t < 8 * (throttleC s - 2))) tmTherm tmThermDn 100000
  let s := levelStep s PW_PACE_CAP (decide (100 * cap < totalPower s)) (decide (totalPower s < 100 * (cap - 50))) tmCapUp tmCapDn 10000
  let want := max (min 12 (getF s PW_PACE_MIN 0)) (max (getF s PW_PACE_THERMAL 0) (getF s PW_PACE_CAP 0))
  let v := getF s PW_PACE_LEVEL 0
  if v = want ∨ s.gsc < getTimer s tmEff + 10000 then s
  else setTimer (setF s PW_PACE_LEVEL 0 (if v < want then v + 1 else v - 1)) tmEff s.gsc

/-! Wear and ageing (R567 to R570). -/

/-- PATH_DELAY_SAMPLE: eight monitors for each physical tile. -/
def pathDelay (s : State) (xs : List (List (BitVec 8))) : State :=
  if s.gsc < getTimer s tmPath + 10000000000 then s
  else (xs.take 72).zipIdx.foldl (fun s x =>
    let ms := (x.1.take 8).map (·.toNat)
    let s := ms.zipIdx.foldl (fun s m => addWear s (8 * x.2 + m.2) m.1) s
    if ms.isEmpty then s else setFi s AG_TILE_MARGIN 0 x.2 (ms.foldl min 255)) (setTimer s tmPath s.gsc)

/-- A day ends for a monitor. -/
def endDay (w : Wear) : Wear := { sum := 0, n := 0, days := ((w.sum, w.n) :: w.days).take 90 }

/-- The daily means as points (days from the last one, mean). -/
def wearPoints (w : Wear) : List (Rat × Rat) :=
  (w.days.zipIdx.filter (fun x => x.1.2 != 0)).map (fun x => (-(x.2 : Rat), (x.1.1 : Rat) / (x.1.2 : Rat)))

/-- A number of days as whole months, saturating (R568). -/
def monthsOf (d : Rat) : Nat := if d ≤ 0 then 0 else min 0xFFFE (d.floor.toNat / Config.daysPerMonth)

/-- R568: the straight line by least squares, and the months until it reaches the limit; `down` when the limit lies below. -/
def fitMonths (w : Wear) (limit : Nat) (down : Bool) : Nat :=
  let ps := wearPoints w
  if ps.length < 30 then 0xFFFF
  else
    let n : Rat := (ps.length : Rat)
    let sx := (ps.map (·.1)).foldl (· + ·) (0 : Rat)
    let sy := (ps.map (·.2)).foldl (· + ·) (0 : Rat)
    let sxx := (ps.map (fun p => p.1 * p.1)).foldl (· + ·) (0 : Rat)
    let sxy := (ps.map (fun p => p.1 * p.2)).foldl (· + ·) (0 : Rat)
    let b := (n * sxy - sx * sy) / (n * sxx - sx * sx)
    let a := (sy - b * sx) / n
    if (down && decide (0 ≤ b)) || (!down && decide (b ≤ 0)) then 0xFFFF else monthsOf (((limit : Rat) - a) / b)

/-- R568: the remaining budget of a rail over its mean use of the last 30 days. -/
def railMonths (s : State) (r : Nat) : Nat :=
  let w := mapGet (fun _ => Wear.reset) s.wear (3000 + r)
  let total := (mapGet (fun _ => Wear.reset) s.wear (3100 + r)).sum
  let use30 := sumNat ((w.days.take 30).map (·.1))
  if w.days.length < 30 ∨ use30 = 0 then 0xFFFF
  else monthsOf (((Config.railBudget r * 1000000000000000 - total : Nat) : Rat) * 30 / (use30 : Rat))

def minOf (xs : List Nat) : Nat := xs.foldl min 0xFFFF

def wearAt (s : State) (k : Nat) : Wear := mapGet (fun _ => Wear.reset) s.wear k

def tileMonths (s : State) (p : Nat) : Nat :=
  minOf ((List.range 8).map (fun j => fitMonths (wearAt s (8 * p + j)) 15 true) ++ [0, 1, 2].map (railMonths s))

def flueMonths (s : State) (f : Nat) : Nat :=
  minOf ((List.range 9).map (fun l => fitMonths (wearAt s (1000 + 9 * f + l)) 12 true) ++ [9, 10].map (railMonths s))

def stackMonths (s : State) (i : Nat) : Nat :=
  minOf ((List.range 64).map (fun c => fitMonths (wearAt s (2000 + 64 * i + c)) (getF s MC_RETIRE_CFG_CE_LIMIT i) false)
    ++ [5, 6, 7, 8].map (railMonths s))

/-- R569: entries 0 to 40. Which rails are a block's monitors follows the budget lines of R619 (log entry 60). -/
def ageEntries (s : State) : List Nat :=
  let tiles := (List.range 72).map (tileMonths s)
  (List.range 9).map (fun g => minOf (((List.range 8).filter (fun i => ptileOf s (8 * g + i) != 4 && ptileOf s (8 * g + i) != 5)).map
      (fun i => tiles[8 * g + i]?.getD 0xFFFF)))
    ++ (List.range 18).map (flueMonths s) ++ (List.range 6).map (stackMonths s) ++ [railMonths s 3] ++ List.replicate 4 (railMonths s 3)
    ++ [railMonths s 4, minOf [railMonths s 12, railMonths s 13], railMonths s 11]

/-- R570: an entry that first falls below WARN_MONTHS is reported; it may be reported again once it has risen above. -/
def ageWarn (s : State) (x : Nat × Nat) : State :=
  let (m, i) := x
  let lim := getF s AG_CFG_WARN_MONTHS 0
  let was := mapGet (fun _ => false) s.warned i
  if m < lim ∧ !was then raiseMgc { s with warned := mapSet (fun _ => false) s.warned i true } 0x1003 (i + 2 ^ 16 * m)
  else if lim < m ∧ was then { s with warned := mapSet (fun _ => false) s.warned i false }
  else s

/-- R568, R569: the predictions, shown in AG_EOL and AG_TILE. -/
def agePredict (s : State) : State :=
  let es := ageEntries s
  let es := es ++ [minOf es]
  let s := es.zipIdx.foldl (fun s x => setFi s (if x.2 % 2 = 0 then AG_EOL_EOL_LO else AG_EOL_EOL_HI) 0 (x.2 / 2) x.1) s
  let s := (List.range 72).foldl (fun s p => setFi s AG_TILE_EOL 0 p (tileMonths s p)) s
  es.zipIdx.foldl ageWarn s

/-- R567: the corrected words of each pseudo-channel are counted as they are logged (R473); the day's count is one value. -/
def dayErrors (s : State) : State :=
  { s with wear := (List.range 384).foldl (fun m i => mapMod (fun _ => Wear.reset) m (2000 + i) (fun w => { w with n := 1 })) s.wear }

/-- A monitor whose days are counted: all but a rail's use in all. -/
def daily (k : Nat) : Bool := k < 3100

/-- R567: a day ends for each of them. -/
def endDays (s : State) : State := { s with wear := s.wear.map (fun kv => if daily kv.1 then (kv.1, endDay kv.2) else kv) }

/-- AGEING_PREDICTION: once a day. -/
def ageing (s : State) : State :=
  if s.gsc < getTimer s tmAge + 86400000000000 then s
  else
    let s := endDays (dayErrors s)
    agePredict (setTimer s tmAge s.gsc)

end Sys2Proof.Machine
end

