-- ==== Sys2Proof/Machine/Kindle.lean ====
section
/-! DEFINITION. Power, kindling, firmware images, measurement requests and colophons (chapters 19 and 23). -/
namespace Sys2Proof.Machine

def stage (s : State) : Nat := getF s MG_KIND_STATUS_STAGE 0
def setStage (s : State) (v : Nat) : State := setF s MG_KIND_STATUS_STAGE 0 v

/-! Power and the reset ball (R612 to R614, R623). -/

/-- R531: what a loss of power keeps: the ledger with its counts and wear history, fused values, the NOR's test set, tiles already
retired (log entry 57). -/
def powerLost (s : State) : State :=
  { State.reset with
    pending := s.pending, freeCtr := s.freeCtr, ledger := s.ledger, lifetime := s.lifetime, fuses := s.fuses, testset := s.testset
    wear := s.wear, ptile := mapDrop (fun p => ptileOf s p != 4) s.ptile, pins := { Pins.reset with small := s.pins.small } }

/-- POWER_GOOD_RISE: the straps are sampled (bits 0 and 1 PRESET, 2 WBYPASS, 3 TEST, 4 and 5 SMBADDR); the monitor's finding on the
rails, or a high STRAP_TEST, stops the boot ROM at K0 (R612, R623). -/
def powerRise (s : State) (straps : BitVec 8) (rails : Nat) : State :=
  if s.pins.powerGood then s
  else
    let v := straps.toNat
    let stop := if rails ≠ 0 then rails else if bit v 3 then 6 else 0
    let s := { s with pins := { s.pins with powerGood := true, straps := straps, stop := stop } }
    (List.range 18).foldl (fun s f => setF (setF s FL_CFG_PRESET f (bits v 0 2)) FL_CFG_WBYPASS f (bits v 2 1)) s

/-- RESET_N: a pulse of 10 µs or more; the reset begins once they have passed. -/
def resetBall (s : State) (lowUs : Nat) : State :=
  if lowUs < 10 ∨ !s.pins.powerGood then s
  else requestReset { s with pins := { s.pins with lowTill := s.gsc + (lowUs - 10) * 1000 } } 103 true 6

/-! Kindling (R537). -/

/-- The boot can go on: power is good, nothing stops it, no whole-chip reset runs, RESET_N is high. -/
def mayBoot (s : State) : Bool := s.pins.powerGood && s.pins.stop == 0 && !isolated s 103 && s.pins.lowTill ≤ s.gsc

/-- R532: after a power loss the ash record has no header and every domain starts at generation 1. -/
def ashStart (s : State) : State :=
  if ashRd s 0 8 = 0x3130485341375747 then s else (List.range 104).foldl (fun s d => setGen s d 1) (ashFresh s)

/-- KINDLING_K0: the fused tiles, the grade, the device ID, MR0. A PLL that does not lock stops the boot with cause 3 (R617). -/
def kindleK0 (s : State) (pll : Bool) (fused : List Nat) (small : Bool) (id : DWord) (digest : BitVec 256) : State :=
  if !mayBoot s ∨ stage s ≠ 0 then s
  else if !pll then { s with pins := { s.pins with stop := 3 } }
  else
    let s := ashStart (applyStraps { s with pins := { s.pins with small := small } })
    let s := fused.foldl (fun s p => setPtile s p 5) s
    let s := ashWr (setF s MG_DEVICE_ID_ID 0 id.toNat) 16 8 id.toNat
    setStage (mrExtend s 0 0 0 digest) 1

/-- R552: FW_REJECT. -/
def fwReject (s : State) (b slot cause : Nat) : State := raiseMgc s 0x0802 (b + 2 ^ 16 * slot + 2 ^ 24 * cause)

/-- R542: the image that a block type takes of its two, with the records that leads to. -/
def chooseImage (s : State) (b : Nat) (x : FwImage × FwImage) : State × Option FwImage :=
  let fa := imageFault s b x.1
  let fb := imageFault s b x.2
  if fa = 0 then (s, some x.1)
  else if fb = 0 then (fwReject (setF s MG_KIND_STATUS_FALLBACK 0 1) b 0 fa, some x.2)
  else (fwReject (fwReject s b 0 fa) b 1 fb, none)

/-- The Eboth port starts to train (R585, R589). -/
def ebStart (s : State) : State :=
  setF { s with eb := { s.eb with downSince := s.gsc } } EB_STATUS_STATE 0 (if flagF s EB_CFG_EN 0 then 1 else 3)

/-- KINDLING_K1: the MGC image is chosen and measured; with neither valid the boot ROM stops with cause 4 (R542). -/
def kindleK1 (s : State) (a b : FwImage) : State :=
  if !mayBoot s ∨ stage s ≠ 1 then s
  else if imageFault s 1 a ≠ 0 ∧ imageFault s 1 b ≠ 0 then { s with pins := { s.pins with stop := 4 } }
  else match chooseImage s 1 (a, b) with
    | (s, some i) => ebStart (setTimer (setStage (mrExtend (runImage s 1 0 i) 1 1 i.version.toNat i.digest) 2) tmKick s.gsc)
    | (s, none) => s

/-- K2: one block type's image is loaded on all its units and measured, or the type stays absent (R542, R544). -/
def loadBlock (s : State) (x : Nat × Option (FwImage × FwImage)) : State :=
  let b := x.1
  let gone (s : State) : State := { s with fw := mapSet (fun _ => 0) s.fw (256 * b + 255) 1 }
  match x.2 with
  | none => gone s
  | some p =>
    match chooseImage s b p with
    | (s, some i) => mrExtend ((fwUnits s b).foldl (fun s u => runImage s b u i) s) (mrOf b) b i.version.toNat i.digest
    | (s, none) => gone s

/-- K2: the block types but the MGC, in order, with the pairs of the directory. -/
def blockPairs (ps : List (FwImage × FwImage)) : List (Nat × Option (FwImage × FwImage)) :=
  ((fwBlocks.drop 1).zipIdx).map (fun x => (x.1, ps[x.2]?))

/-- R492, R499: the indices 0 to n - 1 go to the usable tiles in order, the rest are SPARE. -/
def assignTiles (s : State) : State :=
  let usable := (List.range 72).filter (fun p => ptileOf s p != 4 && ptileOf s p != 5)
  let n := if s.pins.small then 56 else 64
  let s := { s with tmap := [] }
  usable.zipIdx.foldl (fun s x => if x.2 < n then setPtile (setTmap s x.2 (x.1 + 1)) x.1 0 else setPtile s x.1 1) s

/-- R279: a retirement that the ledger records is applied again. -/
def reapplyRetire (s : State) (r : LedgerRec) : State :=
  match r.kind, r.data with
  | 4, [st, pc] =>
    let n := (retiredPcs s st).length
    if 2 ≤ n ∨ (retiredPcs s st).contains pc then s
    else
      let s := if n = 0 then setF (setF s MC_RETIRE_PC1 st pc) MC_RETIRE_V1 st 1 else setF (setF s MC_RETIRE_PC2 st pc) MC_RETIRE_V2 st 1
      setF s MC_STATUS_RETIRED st (n + 1)
  | _, _ => s

/-- R449: at kindling every frame is zeroised. -/
def zeroAllFrames (s : State) : State := zeroRange s 0 0x6000000000

/-- A tile that fails its BIST at kindling is permanent (R525, R551). -/
def bistRetire (s : State) (p : Nat) : State :=
  if ptileOf s p = 5 ∨ ptileOf s p = 4 then s else retireTile (bumpLife (logLedger s 3 p [2]) 3) p

/-- R511: the key at kindling. -/
def firstKey (s : State) : State := noteMixed (setKey s (Config.sm3 (keyRecord s)))

/-- The flues begin to train (K3); a flue whose EN is 0 is held (R353). -/
def startFlues (s : State) : State :=
  ((List.range 18).filter (fun f => !blkAbsent s 10 f)).foldl (fun s f => setFlueState s f (if flagF s FL_CFG_EN f then 1 else 5)) s

/-- KINDLING_K2. -/
def kindleK2 (s : State) (images : List (FwImage × FwImage)) (bistFailed untrained : List Nat) : State :=
  if !mayBoot s ∨ stage s ≠ 2 ∨ isolated s 102 then s
  else
    let s := assignTiles (bistFailed.foldl bistRetire s)
    let s := (blockPairs images).foldl loadBlock s
    let s := (List.range 6).foldl (fun s i => setF s MC_STATUS_TRAINED i (b2n (!untrained.contains i))) s
    let s := firstKey (zeroAllFrames (s.ledger.foldl reapplyRetire s))
    startFlues (setStage (agePredict s) 3)

/-- KINDLING_K3. -/
def kindleK3 (s : State) : State := if mayBoot s ∧ stage s = 3 then setStage s 4 else s

/-- KINDLING_K4: the node, the plan (R344), MR6; the slot check if the catalogue is live. -/
def kindleK4 (s : State) (node : BitVec 16) (plan : List PlanSlot) (hash : BitVec 256) : State :=
  if !mayBoot s ∨ stage s ≠ 4 ∨ isolated s 102 then s
  else
    let s := setF s RT_NODE_NODE 0 node.toNat
    let s := mrExtend { loadPlan s plan with planned := true } 6 0 0 hash
    let s := if flagF s RT_STATUS_CAT_LIVE 0 then measureEditions s else s
    parentCheck (slotCheck s)

/-- KINDLED: K5, IDLE, the event; the whole-chip domain's dump ends, and the MGC reports the watchdog that reset it (R535). A GW7 in
degraded-join stays in K4 (R345, R538). -/
def kindled (s : State) : State :=
  if !mayBoot s ∨ stage s ≠ 4 ∨ !canCheck s ∨ joinDegraded s ∨ isolated s 102 then s
  else
    let s := pushEvent (setF (setStage s 5) MG_LEND_STATUS_STATE 0 0) (.lending 4)
    let x := getDom s 103
    if x.entry.isSome then
      let s := admitDomain s 103
      if x.cause = 2 then watchdogRec s 2 else s
    else s

/-! Firmware commits and MR7 (R543, R545). -/

/-- COMMIT: MG_FW_CMD with OP = 1. -/
def commitFw (s : State) (b : Nat) : State :=
  let svn := (match fwUnits s b with | u :: _ => fwSvn s b u | [] => 0)
  if !fwBlocks.contains b || flagF s MG_KEY_STATUS_MIXED 0 || svn ≤ mapGet (fun _ => 0) s.fuses b then setF s MG_FW_CMD_CMD_ERR 0 1
  else { s with fuses := mapSet (fun _ => 0) s.fuses b svn }

/-- The 32 bytes of MG_MR_DATA. -/
def mrData (s : State) : Nat := sumNat ((List.range 8).map (fun i => getFi s MG_MR_DATA_D 0 i * 2 ^ (32 * i)))

/-- MR7_EXTEND. -/
def mr7Go (s : State) : State :=
  if flagF s MG_MR_CMD_BUSY 0 then setF s MG_MR_CMD_CMD_ERR 0 1
  else setF { s with mrPend := some (BitVec.ofNat 256 (mrData s)) } MG_MR_CMD_BUSY 0 1

/-- MR7_EXTEND_COMPLETE. -/
def mr7Done (s : State) : State :=
  match s.mrPend with
  | some d => setF (mrExtend { s with mrPend := none } 7 0 0 d) MG_MR_CMD_BUSY 0 0
  | none => s

/-! Colophons (R549, R550). -/

/-- R550: the entries of VERSIONS. -/
def versionEntries (s : State) : List Byte :=
  padTo 192 (fwBlocks.flatMap (fun b => packF [(2, b), (1, match fwUnits s b with | u :: _ => fwSvn s b u | [] => 0)
    , (1, mapGet (fun _ => 0) s.fuses b), (4, keyVersion s b)]))

/-- R550: bytes 0 to 959. -/
def colophonBody (s : State) (flue : Bool) (nonce : BitVec 256) : List Byte :=
  let st := stage s + 2 ^ 3 * getF s MG_KEY_STATUS_MIXED 0 + 2 ^ 4 * getF s MG_KIND_STATUS_DEGRADED 0
    + 2 ^ 5 * getF s MG_KIND_STATUS_FALLBACK 0 + 2 ^ 6 * getF s MG_KIND_STATUS_LOG_FULL 0
  padTo 960 ([0x47, 0x57, 0x37, 0x43, 0x4F, 0x4C, 0x4F, 0x31]
    ++ packF [(2, 1), (2, 1024), (4, s.eb.coloSeq), (8, getF s MG_DEVICE_ID_ID 0), (2, if stage s < 4 then 0 else nodeId s), (1, 0xA1)
      , (1, if s.pins.small then 56 else 64), (1, lendState s), (1, jobGen s), (1, b2n flue), (1, st)]
    ++ bytes256 nonce ++ bytesOf 8 s.gsc ++ (List.range 8).flatMap (fun i => bytesOf 32 (mrValue s i)) ++ bytesOf 32 (reproKey s)
    ++ bytesOf 8 (logicalMap s) ++ versionEntries s ++ (List.range 16).flatMap (fun i => bytesOf 4 (mapGet (fun _ => 0) s.lifetime i))
    ++ (List.range 64).flatMap (fun i => bytesOf 2 (getFi s (if i % 2 = 0 then AG_EOL_EOL_LO else AG_EOL_EOL_HI) 0 (i / 2)))
    ++ (List.range 8).map (fun i => BitVec.ofNat 8 (getSlot s i).1)
    ++ (List.range 8).flatMap (fun i => bytesOf 8 (((slotDevice s i).map (·.toNat)).getD 0)))

/-- R550: a colophon, signed under IK; SEQ counts those issued. -/
def colophon (s : State) (flue : Bool) (nonce : BitVec 256) : State × List Byte :=
  let b := colophonBody s flue nonce
  ({ s with eb := { s.eb with coloSeq := (s.eb.coloSeq + 1) % 2 ^ 32 } }, b ++ bytesOf 64 (Config.sign b).toNat)

/-- A request for a colophon is queued; false for the 17th. -/
def coloQueue (s : State) (flue : Option Nat) (tag : Nat) (nonce : BitVec 256) : State × Bool :=
  if 16 ≤ s.eb.colo.length then (s, false) else ({ s with eb := { s.eb with colo := s.eb.colo ++ [(flue, tag, nonce)] } }, true)

/-- NEIGHBOUR_COLOPHON_REQUEST: over any authenticated flue; the 17th is answered BUSY (4). -/
def neighbourColophon (s : State) (f : Nat) (nonce : BitVec 256) : State :=
  if !(getFlue s f).authed ∨ stage s < 2 ∨ isolated s 102 then s
  else match coloQueue s (some f) 0 nonce with
    | (s, true) => s
    | (s, false) => flueMessage s f [4]

/-- The oldest request of a flue is answered when its link next transmits. -/
def answerNeighbour (s : State) (f : Nat) : State :=
  match s.eb.colo.find? (fun x => x.1 == some f) with
  | some x =>
    if isolated s 102 then s
    else
      let s := { s with eb := { s.eb with colo := s.eb.colo.erase x } }
      let (s, b) := colophon s true x.2.2
      flueMessage s f b
  | none => s

end Sys2Proof.Machine
end

