-- ==== Sys2Proof/Machine/CeCodec.lean ====
section
/-! DEFINITION. How the recall image writes a collective engine's operation, credits and receive buffers (R411, R444): the bytes of its
pieces in the place of the receive buffers, and in the state block a string of numbers, each in groups of 7 bits, the last group below
128. The encoding is the model's own (log entry 58). -/
namespace Sys2Proof.Machine

/-- One number in groups of 7 bits, the lowest first; `fuel` bounds the groups. -/
def putVar : Nat → Nat → List Byte
  | 0, _ => []
  | fuel + 1, n => if n < 128 then bytesOf 1 n else bytesOf 1 (n % 128 + 128) ++ putVar fuel (n / 128)

def putVars (ns : List Nat) : List Byte := ns.flatMap (putVar 40)

/-- The numbers that a byte string spells; `k` counts the groups of the number being read, `a` is its value so far. -/
def getVars : Nat → Nat → List Byte → List Nat
  | _, _, [] => []
  | k, a, b :: r =>
    let a := a + 128 ^ k * (b.toNat % 128)
    if b.toNat < 128 then a :: getVars 0 0 r else getVars (k + 1) a r

/-! Writers. -/

def eB (b : Bool) : List Nat := [b2n b]
def eO (o : Option Nat) : List Nat := [optN o]
def eList {α : Type} (f : α → List Nat) (xs : List α) : List Nat := xs.length :: xs.flatMap f

/-- Held packets: the headers that differ in more than PSEQ, each with its payload's length, then each packet's header and PSEQ. -/
def packetForm (p : Packet) : Nat × Nat := (headerNat { p with pseq := 0 }, p.payload.length)

def ePackets (ps : List Packet) : List Nat :=
  let hs := (ps.map packetForm).eraseDups
  eList (fun h => [h.1, h.2]) hs ++ eList (fun p => [hs.idxOf (packetForm p), p.pseq.toNat]) ps

def eOut (x : CeOut) : List Nat :=
  [x.kind, x.step] ++ eO x.far ++ eB x.plus ++ [x.off, x.len, x.pseq] ++ eO (x.data.map (·.length)) ++ eB x.local_
    ++ (match x.slot with | some (k, d) => [1 + 2 * k + b2n d] | none => [0])

/-- A run of local pieces that follow one another: the first and how many. -/
def outFollows (x y : CeOut) (n : Nat) : Bool := y == { x with off := x.off + 256 * n, pseq := x.pseq + n } && x.data.isNone

def outRuns : List CeOut → List (CeOut × Nat)
  | [] => []
  | x :: r => match outRuns r with
    | (y, n) :: t => if outFollows x y 1 then (x, n + 1) :: t else (x, 1) :: (y, n) :: t
    | [] => [(x, 1)]

/-- Runs of consecutive numbers: the first and how many. -/
def natRuns : List Nat → List (Nat × Nat)
  | [] => []
  | x :: r => match natRuns r with
    | (y, n) :: t => if y = x + 1 then (x, n + 1) :: t else (x, 1) :: (y, n) :: t
    | [] => [(x, 1)]

def eXfer (x : CeXfer) : List Nat := [x.far, x.step, x.total, x.cnt] ++ eList (fun y => [y.1, y.2]) (natRuns x.seen)
def ePart (x : CePart) : List Nat := [x.pseq, x.cnt, x.acc.length]

def eOp (o : CeOp) : List Nat :=
  [o.op, o.num, o.tag, o.pc] ++ eO o.sctr ++ [o.ssp, o.dsp, o.src, o.dst, o.n, o.fmt] ++ eB o.int ++ [o.fn] ++ eB o.ord ++ eB o.dir ++ eB o.alg
    ++ eB o.wide ++ [o.sig] ++ eB o.stat ++ eO o.nsig ++ [o.sh, o.dh, o.root, o.peer, o.nb, o.stride, o.rctr, o.fctr, o.step]
    ++ eList (fun x => eOut x.1 ++ [x.2]) (outRuns o.todo) ++ eList eXfer o.rx ++ eList eXfer o.tx ++ eList ePart o.parts
    ++ ePackets o.early ++ eList (fun k => [k]) o.ready ++ [o.passReady] ++ eB o.fctrOk ++ [o.readLeft]
    ++ eList (fun x => [x.1, x.2.1, x.2.2]) o.ss ++ [o.acc] ++ eList (fun x => [x.1, x.2]) o.heard
    ++ (match o.stall with | some x => [1, x.vpn, x.acc] | none => [0])

def eBar (x : Nat × CeBar) : List Nat := [x.1, x.2.cur, x.2.next, x.2.a, x.2.b] ++ eB x.2.own

def eCe (x : Ce) : List Nat :=
  [x.opnum] ++ (match x.op with | some o => 1 :: eOp o | none => [0]) ++ [x.credP, x.credM] ++ eList eB x.usedP ++ eList eB x.usedM
    ++ [x.freedP, x.freedM] ++ eList (fun f => [2 * f.1 + b2n f.2]) x.freedFar ++ eB x.granted ++ ePackets x.early ++ eList eBar x.bars ++ eB x.nack

/-- The byte strings of a collective engine, in the order in which the numbers name them. -/
def ceStrings (x : Ce) : List (List PByte) :=
  (match x.op with
    | some o => o.todo.filterMap (·.data) ++ o.parts.map (·.acc) ++ o.early.map (·.payload)
    | none => []) ++ x.early.map (·.payload)

/-- A string in whole words of 16 bytes. -/
def padWord (bs : List PByte) : List PByte := bs ++ List.replicate ((bs.length + 15) / 16 * 16 - bs.length) ⟨0, false⟩

/-- The bytes that stand in the place of the receive buffers. -/
def ceRaw (x : Ce) : List PByte := (ceStrings x).flatMap padWord

/-- The positions of poisoned bytes, as runs. -/
def badRuns (bs : List PByte) : List (Nat × Nat) := natRuns ((bs.zipIdx.filter (fun b => b.1.bad)).map (·.2))

/-- Bytes with the poison of the runs. -/
def withRuns (bs : List Byte) (runs : List (Nat × Nat)) : List PByte :=
  bs.zipIdx.map (fun b => ⟨b.1, runs.any (fun r => r.1 ≤ b.2 && b.2 < r.1 + r.2)⟩)

/-! Readers: each takes what it reads from the front of the numbers and of the bytes that are left. -/

abbrev Rd (α : Type) := StateM (List Nat × List PByte) α

def rN : Rd Nat := modifyGet (fun l => (l.1.headD 0, (l.1.tail, l.2)))
def rFlag : Rd Bool := return (← rN) == 1
def rO : Rd (Option Nat) := return ofOptN (← rN)
def rList {α : Type} (f : Rd α) : Rd (List α) := do
  let n ← rN
  (List.range n).mapM (fun _ => f)

def rMaybe {α : Type} (b : Bool) (f : Rd α) : Rd (Option α) := if b then some <$> f else pure none

/-- The next byte string, of n bytes. -/
def rBytes (n : Nat) : Rd (List PByte) := modifyGet (fun l => (l.2.take n, (l.1, l.2.drop ((n + 15) / 16 * 16))))

def rPair : Rd (Nat × Nat) := do
  let a ← rN
  let b ← rN
  return (a, b)

/-- Held packets without their payloads, each with its length. -/
def rPackets : Rd (List (Packet × Nat)) := do
  let hs ← rList rPair
  let ps ← rList rPair
  return ps.map (fun p => let h := (hs[p.1]?).getD (0, 0); ({ headerOf h.1 with pseq := BitVec.ofNat 16 p.2 }, h.2))

/-- The payloads of held packets. -/
def rPayloads (ps : List (Packet × Nat)) : Rd (List Packet) := ps.mapM (fun p => do
  let bs ← rBytes p.2
  return { p.1 with payload := bs })

def rOut : Rd CeOut := do
  let kind ← rN
  let step ← rN
  let far ← rO
  let plus ← rFlag
  let off ← rN
  let len ← rN
  let pseq ← rN
  let n ← rO
  let l ← rFlag
  let v ← rN
  return ⟨kind, step, far, plus, off, len, pseq, n.map (fun k => List.replicate k ⟨0, false⟩), l
    , if v = 0 then none else some ((v - 1) / 2, (v - 1) % 2 == 1)⟩

/-- The data of a piece to be forwarded. -/
def rData (x : CeOut) : Rd CeOut := match x.data with
  | some d => do
    let bs ← rBytes d.length
    return { x with data := some bs }
  | none => pure x

def rRun : Rd (List CeOut) := do
  let x ← rOut
  let n ← rN
  return (List.range n).map (fun i => { x with off := x.off + 256 * i, pseq := x.pseq + i })

def rXfer : Rd CeXfer := do
  let far ← rN
  let step ← rN
  let total ← rN
  let cnt ← rN
  let runs ← rList rPair
  return ⟨far, step, total, cnt, runs.flatMap (fun r => (List.range r.2).map (· + r.1))⟩

def rPart : Rd CePart := do
  let pseq ← rN
  let cnt ← rN
  let n ← rN
  return ⟨pseq, cnt, List.replicate n ⟨0, false⟩⟩

/-- The value of a partial. -/
def rAcc (x : CePart) : Rd CePart := do
  let bs ← rBytes x.acc.length
  return { x with acc := bs }

def rOp (now : Nat) : Rd CeOp := do
  let op ← rN
  let num ← rN
  let tag ← rN
  let pc ← rN
  let sctr ← rO
  let ssp ← rN
  let dsp ← rN
  let src ← rN
  let dst ← rN
  let n ← rN
  let fmt ← rN
  let int ← rFlag
  let fn ← rN
  let ord ← rFlag
  let dir ← rFlag
  let alg ← rFlag
  let wide ← rFlag
  let sig ← rN
  let stat ← rFlag
  let nsig ← rO
  let sh ← rN
  let dh ← rN
  let root ← rN
  let peer ← rN
  let nb ← rN
  let stride ← rN
  let rctr ← rN
  let fctr ← rN
  let step ← rN
  let todo ← rList rRun
  let rx ← rList rXfer
  let tx ← rList rXfer
  let parts ← rList rPart
  let early ← rPackets
  let ready ← rList rN
  let passReady ← rN
  let fctrOk ← rFlag
  let readLeft ← rN
  let ss ← rList (do
    let a ← rN
    let b ← rN
    let c ← rN
    return (a, b, c))
  let acc ← rN
  let heard ← rList rPair
  let stalled ← rFlag
  let stall ← rMaybe stalled rPair
  let todo ← todo.flatten.mapM rData
  let parts ← parts.mapM rAcc
  let early ← rPayloads early
  return { op := op, num := num, tag := tag, pc := pc, sctr := sctr, ssp := ssp, dsp := dsp, src := src, dst := dst, n := n, fmt := fmt, int := int
           fn := fn, ord := ord, dir := dir, alg := alg, wide := wide, sig := sig, stat := stat, nsig := nsig, sh := sh, dh := dh, root := root
           peer := peer, nb := nb, stride := stride, rctr := rctr, fctr := fctr, step := step, todo := todo, rx := rx, tx := tx
           parts := parts, early := early, ready := ready, passReady := passReady, fctrOk := fctrOk, readLeft := readLeft, ss := ss
           since := now, acc := acc, heard := heard, stall := stall.map (fun x => ⟨x.1, now, x.2⟩) }

def rBar : Rd (Nat × CeBar) := do
  let k ← rN
  let cur ← rN
  let next ← rN
  let a ← rN
  let b ← rN
  let own ← rFlag
  return (k, ⟨cur, next, a, b, own⟩)

def rCe (now : Nat) : Rd Ce := do
  let opnum ← rN
  let has ← rFlag
  let op ← rMaybe has (rOp now)
  let credP ← rN
  let credM ← rN
  let usedP ← rList rFlag
  let usedM ← rList rFlag
  let freedP ← rN
  let freedM ← rN
  let far ← rList rN
  let granted ← rFlag
  let early ← rPackets
  let bars ← rList rBar
  let nack ← rFlag
  let early ← rPayloads early
  return { opnum := opnum, op := op, credP := credP, credM := credM, usedP := usedP, usedM := usedM, freedP := freedP, freedM := freedM
           freedFar := far.map (fun v => (v / 2, v % 2 == 1)), granted := granted, early := early, bars := bars.foldl (fun m x => mapSet (fun _ => CeBar.reset) m x.1 x.2) [], nack := nack }

/-! The CE section's body (R444): the bytes of pieces in the receive buffers' 2 MiB, then the state block of 65,536 bytes. -/

/-- R447: packets that an engine holds take the new generation. -/
def renew (gen : Nat) (p : Packet) : Packet := { p with gen := BitVec.ofNat 8 gen }
def renewCe (gen : Nat) (x : Ce) : Ce :=
  { x with early := x.early.map (renew gen), op := x.op.map (fun o => { o with early := o.early.map (renew gen) }) }

/-- The words of a CE page from 0x040 that its section keeps: all its registers but the _LATCHED copies. -/
def ceRegOffs : List Nat := (List.range 0x3F0).map (fun i => 0x40 + 4 * i)

/-- The engine, g0 to g31, the page, then the numbers: the poisoned bytes of the strings, and the rest. -/
def packCe (s : State) (c : Nat) : List Byte :=
  let x := getCe s c
  let regs := ceRegOffs.flatMap (fun o => bytesOf 4 (regGet s (regKey 8 c o)).toNat ++ bytesOf 4 ((regGet s (regKey 8 c o)).toNat / 2 ^ 32))
  padTo 2097152 ((ceRaw x).map (fun b => if b.bad then 0 else b.b))
    ++ padTo 65536 (packEng s (ceEng c) ++ packGs s (ceEng c) ++ regs ++ putVars (eList (fun r => [r.1, r.2]) (badRuns (ceRaw x)) ++ eCe x))

/-- The body offsets of the poisoned words of a CE section. -/
def ceBad (s : State) (c : Nat) : List Nat :=
  ((chunksOf 16 0x20000 (ceRaw (getCe s c))).zipIdx.filter (fun w => w.1.any (·.bad))).map (fun w => 16 * w.2)

/-- A restore of a collective engine: the page with its P_ registers, the operation and the buffers, the engine. -/
def unpackCe (s : State) (c : Nat) (bs : List Byte) : State :=
  let st := bs.drop 2097152
  let nums := getVars 0 0 (st.drop (320 + 8 * 0x3F0))
  let n := nums.headD 0
  let runs := (List.range n).map (fun i => ((nums[1 + 2 * i]?).getD 0, (nums[2 + 2 * i]?).getD 0))
  let x := ((rCe s.gsc).run (nums.drop (1 + 2 * n), withRuns (bs.take 2097152) runs)).1
  let s := setCe s c (renewCe (jobGen s) x)
  let s := (List.range 0x3F0).foldl (fun s i =>
    let k := regKey 8 c (0x40 + 4 * i)
    if isLatched k then s else regSet s k (BitVec.ofNat 64 (numAt (st.drop 320) (8 * i) 8))) s
  unpackGs (unpackEng s (ceEng c) st) (ceEng c) ((st.drop 64).take 256)

end Sys2Proof.Machine
end

