-- ==== Sys2Proof/Machine/Image.lean ====
section
/-! DEFINITION. The recall image (R443 to R446) and the sections of a restore (R447). -/
namespace Sys2Proof.Machine

/-- A section: its type, unit, bytes 8 to 15 of its header, its body, and the body offsets of its poisoned words. -/
structure Sec where
  typ : Nat
  unit : Nat
  ext : Nat
  body : List Byte
  bad : List Nat
  deriving DecidableEq, Repr

/-- The logical tiles that are present, in order. -/
def presentTiles (s : State) : List Nat := (List.range 64).filter (fun l => (physOf s l).isSome)

/-- The member number of an engine as the GLOBAL section and barriers count it: 4 l + kind, or 256 + c. -/
def memberIdx (s : State) (i : Nat) : Option Nat := if 288 ≤ i then some (256 + (i - 288)) else (logOf s (i / 4)).map (fun l => 4 * l + i % 4)
def memberEng (s : State) (m : Nat) : Option Nat := if 256 ≤ m then some (288 + (m - 256)) else (physOf s (m / 4)).map (fun p => 4 * p + m % 4)

def goodOf (bs : List PByte) : List Byte := bs.map (fun b => if b.bad then 0 else b.b)
def badWords (bs : List PByte) : List Nat := ((chunksOf 16 bs.length bs).zipIdx.filter (fun c => c.1.any (·.bad))).map (fun c => 16 * c.2)

/-- GLOBAL (R444): the mirror's partner, enable and region, the trickle's register, PERIOD_ID, the last mark, and the engines that have
reached the next. -/
def globalBody (s : State) : List Byte :=
  padTo 4096 (packF [(4, getF s MC_MIRROR_PARTNER_NODE 6), (4, getF s MC_MIRROR_CFG_EN 6), (4, getF s MC_MIRROR_REGION_FIRST 6)
    , (4, getF s MC_MIRROR_REGION_COUNT 6), (4, (regGet s (regKey 11 6 MC_TRICKLE_EN.off)).toNat), (4, rdF s 1 H_PERIOD_ID_ID 0 0)
    , (4, s.mark.last.toNat), (40, bitsNat (s.mark.arrived.filterMap (memberIdx s)))])

def applyGlobal (s : State) (b : List Byte) : State :=
  let s := setF (setF s MC_MIRROR_PARTNER_NODE 6 (numAt b 0 4)) MC_MIRROR_CFG_EN 6 (numAt b 4 4)
  let s := setF (setF s MC_MIRROR_REGION_FIRST 6 (numAt b 8 4)) MC_MIRROR_REGION_COUNT 6 (numAt b 12 4)
  let s := regSet s (regKey 11 6 MC_TRICKLE_EN.off) (BitVec.ofNat 64 (numAt b 16 4))
  let s := wrF s 1 H_PERIOD_ID_ID 0 0 (numAt b 20 4)
  { s with mark := { s.mark with last := BitVec.ofNat 32 (numAt b 24 4), arrived := (listBits 260 (numAt b 28 40)).filterMap (memberEng s) } }

/-- TILE (R445). -/
def accWordBad (x : MxState) (i : Nat) : Bool := (List.range 4).any (fun j => mapGet (fun _ => false) x.accBad (4 * (i / 4) + j))

def tileBody (s : State) (p : Nat) : List Byte :=
  let t := getTile s p
  let es := tileEngs p
  goodOf (tileRead s p 0 0x400000)
    ++ packArr 4 262144 (fun i => if accWordBad t.mx i then 0 else (mapGet (fun _ => 0) t.mx.acc i).toNat) ++ packWide t.mx ++ packSets t.mx
    ++ packArr 4 256 (fun c => getCtr s p c) ++ es.flatMap (packEng s) ++ es.flatMap (packGs s) ++ packVx s p
    ++ packRuns t.mx ++ padTo 64 (bytesOf 4 (regGet s (regKey 3 p MX_FLAGS_OVF.off)).toNat)
    ++ packDm t.dm ++ packXfer t ++ packMetas t.mx ++ List.replicate 19200 0

/-- The body offsets of the poisoned words of a TILE section. -/
def tileBad (s : State) (p : Nat) : List Nat :=
  (((List.range 0x40000).filter (fun w => isBad s (tsAddr p (16 * w)))).map (16 * ·))
    ++ ((List.range 65536).filter (fun w => accWordBad (getMx s p) (4 * w))).map (fun w => 0x400000 + 16 * w)

def slice (b : List Byte) (off n : Nat) : List Byte := (b.drop off).take n

def applyTile (s : State) (p : Nat) (b : List Byte) : State :=
  let s := writeBytes s (tsAddr p 0) (good (b.take 0x400000))
  let mx := readMx (slice b 0x400000 0x100000) (slice b 0x500000 0x80000) (slice b 0x580000 0x20000) (slice b 0x5A4980 2048) (slice b 0x5AB3C0 320)
  let s := modTile s p (fun t => { t with
    mx := mx, vx := readVx (slice b 0x5A0900 0x4080), dm := readDm s (slice b 0x5A51C0 8704), xfer := readXfer s (slice b 0x5A73C0 16384)
    pend := [] })
  let s := (List.range 256).foldl (fun s c => setCtr s p c (numAt b (0x5A0000 + 4 * c) 3)) s
  let s := (List.range 4).foldl (fun s k =>
    unpackGs (unpackEng s (tileEng p k) (slice b (0x5A0400 + 64 * k) 64)) (tileEng p k) (slice b (0x5A0500 + 256 * k) 256)) s
  let s := regSet s (regKey 3 p MX_FLAGS_OVF.off) (BitVec.ofNat 64 (numAt b 0x5A5180 4))
  let s := regSet s (regKey 4 p VX_FLAGS_OVF.off) (BitVec.ofNat 64 (numAt b 0x5A4970 4))
  regSet s (regKey 4 p VX_RNG_KEY_KEY.off) (BitVec.ofNat 64 (numAt b 0x5A4974 8))

/-- BARRIER (R444): 128 bytes for each context. -/
def ctxBytes (s : State) (x : Nat) : List Byte :=
  let c := getCtx s x
  padTo 128 (bytesOf 4 (regGet s (regKey 7 (1 + x) BA_CFG_MODE.off)).toNat ++ packArr 4 9 (fun i => getFi s BA_MASK_MEMBERS (1 + x) i)
    ++ packF [(1, b2n c.round), (2, c.cur), (2, c.next), (1, b2n c.leaving + 2 * b2n c.globalPend), (2, c.cstate), (33, c.a), (33, c.b)])

def barrierBody (s : State) : List Byte := (List.range 64).flatMap (ctxBytes s)

def applyBarrier (s : State) (b : List Byte) : State :=
  (List.range 64).foldl (fun s x =>
    let n (o k : Nat) : Nat := numAt b (128 * x + o) k
    let s := regSet s (regKey 7 (1 + x) BA_CFG_MODE.off) (BitVec.ofNat 64 (n 0 4))
    let s := (List.range 9).foldl (fun s i => setFi s BA_MASK_MEMBERS (1 + x) i (n (4 + 4 * i) 4)) s
    setCtx s x ⟨n 40 1 == 1, n 41 2, n 43 2, n 48 33, n 81 33, bit (n 45 1) 0, bit (n 45 1) 1, n 46 2⟩) s

/-- FOLIO_TABLE (R444): the table as loaded. -/
def tableBytes (s : State) : List PByte :=
  match s.folio.ftBase with
  | some b => readBytes s b 0x400000
  | none => List.replicate 0x400000 ⟨0, false⟩

/-- PENDING (R444). -/
def pendingVpns (s : State) : List Nat :=
  ((s.folio.frames.filter (fun kv => kv.2.rstate == 2 || kv.2.rstate == 3)).map (fun kv => kv.2.vpn)).mergeSort (· ≤ ·)

/-- R319: the granules that are not clean, of persistent and mirror frames, as (frame, granule). -/
def nonClean (s : State) : List (Nat × Nat) :=
  (s.folio.frames.filter (fun kv => tracked kv.2.cls)).flatMap (fun kv =>
    ((List.range 32).filter (fun g => bit (kv.2.d.toNat ||| kv.2.s.toNat) g)).map (fun g => (kv.1, g)))

def granuleSec (s : State) (x : Nat × Nat) : Sec :=
  let bs := readBytes s (x.1 * 2 ^ 21 + x.2 * 65536) 65536
  ⟨8, x.2, (getFrame s x.1).vpn + 2 ^ 32 * s.mark.last.toNat, goodOf bs, badWords bs⟩

/-- The sections in order, but for POISON. -/
def sections (s : State) : List Sec :=
  [⟨1, 0, 0, globalBody s, []⟩]
    ++ (presentTiles s).map (fun l => let p := (physOf s l).getD 0; ⟨2, l, 0, tileBody s p, tileBad s p⟩)
    ++ (List.range 4).map (fun c => ⟨3, c, 0, packCe s c, ceBad s c⟩)
    ++ [⟨4, 0, 0, barrierBody s, []⟩, ⟨5, 0, 0, goodOf (tableBytes s), badWords (tableBytes s)⟩]
    ++ (if (pendingVpns s).isEmpty then [] else [⟨6, 0, 0, (pendingVpns s).flatMap (bytesOf 4), []⟩])
    ++ (nonClean s).map (granuleSec s)

/-- R444, R446: the image byte offsets of the poisoned words, the first section's header standing at `at0`. -/
def poisonOffs (at0 : Nat) : List Sec → List Nat
  | [] => []
  | x :: r => x.bad.map (· + at0 + 16) ++ poisonOffs (at0 + 16 + x.body.length) r

def allSections (s : State) : List Sec :=
  let ss := sections s
  let ps := poisonOffs 256 ss
  ss ++ (if ps.isEmpty then [] else [⟨7, 0, 0, ps.flatMap (bytesOf 8), []⟩])

/-- R443: the header. -/
def imageHeader (s : State) : List Byte :=
  padTo 256 ([0x47, 0x57, 0x37, 0x52, 0x49, 0x4D, 0x47, 0x31] ++ packF [(2, 1), (2, nodeId s), (1, jobGen s), (1, tileCount s), (2, 0)
    , (8, getF s MG_DEVICE_ID_ID 0), (32, reproKey s), (8, getF s MG_RECALL_AT_GSC 0), (8, s.lend.gscQuiesced), (4, s.mark.last.toNat)])

def secBytes (x : Sec) : List Byte := packF [(2, x.typ), (2, x.unit), (4, x.body.length), (8, x.ext)] ++ x.body
def secSize (x : Sec) : Nat := 16 + x.body.length
def imageSize (ss : List Sec) : Nat := 256 + sumNat (ss.map secSize)

/-- R446: the trailer of the image bytes before it. -/
def trailer (bs : List Byte) (granules status : Nat) : List Byte :=
  let head := [0x47, 0x57, 0x37, 0x52, 0x54, 0x52, 0x4C, 0x31] ++ packF [(1, status), (7, 0), (8, bs.length), (8, granules)] ++ bytes256 (Config.sm3 bs)
  head ++ bytesOf 64 (Config.sign head).toNat

/-- R579: image bytes as IMAGE messages of 16,384 bytes. -/
def imageMsgs (bs : List Byte) : List EbMsg :=
  ((chunksOf 16384 bs.length bs).zipIdx).map (fun c => ⟨2, 0x47, 0, 0, 16384 * c.2, 0, c.1⟩)

/-- R443, R440: the sections, then the trailer, go to the Eboth port. Answers the bytes sent. -/
def sendImage (s : State) (ss : List Sec) (status : Nat) : State × Nat :=
  let bs := imageHeader s ++ ss.flatMap secBytes
  let all := bs ++ trailer bs (ss.filter (fun x => x.typ == 8)).length status
  ((imageMsgs all).foldl ebOut s, all.length)

/-- R440: the sections that stand whole within the bytes sent by the cutoff (log entry 59). -/
def sentSections (sent : Nat) : Nat → List Sec → List Sec
  | _, [] => []
  | at0, x :: r => if at0 + secSize x ≤ sent then x :: sentSections sent (at0 + secSize x) r else []

/-! The sink (R447). -/

/-- Whether a folio table is being loaded from the sink. -/
def setRestore (s : State) (on : Bool) : State := { s with lend := { s.lend with restore := on } }

/-- R447: the table of a restore: RST set on every persistent and mirror entry. -/
def restoredEntry (e : Nat) : Nat := if eV e ∧ tracked (eCls e) ∧ !eRst e then e + 2 ^ 4 else e

/-- The FOLIO_TABLE section is written at MC_FT_BASE. -/
def writeTable (s : State) (base : Nat) (b : List Byte) : State :=
  writeBytes s base (good (((List.range 0x80000).map (fun v => restoredEntry (numAt b (8 * v) 8))).flatMap (bytesOf 8)))

/-- The table written at `base` is put in force, or its first fault is noted. -/
def loadTable (s : State) (base : Nat) : State × Bool :=
  match tableCheck s base (tableVpns s base) [base / 2 ^ 21, base / 2 ^ 21 + 1] with
  | some (v, c) => (ftRefuse s v c, false)
  | none => (releaseHeld (setRestore (applyTable (setRestore s true) base) false), true)

/-- The FOLIO_TABLE section is loaded at MC_FT_BASE. Answers whether the load passes the checks of R300. -/
def applyFolioTable (s : State) (b : List Byte) : State × Bool :=
  let base := getF s MC_FT_BASE_BASE 6 * 2 ^ 22
  if hbmTop < base + 0x400000 then (ftRefuse s 0 7, false) else loadTable (writeTable s base b) base

/-- R447: a word listed in POISON, by its image byte offset: in a tile's store, its accumulation buffer, or the folio table. -/
def poisonAt (s : State) (o : Nat) : State :=
  let ts := presentTiles s
  let t0 := 4368
  let i := (o - t0) / 5963792
  let b := (o - t0) % 5963792 - 16
  if o < t0 then s
  else if i < ts.length then
    match physOf s (ts[i]?.getD 0) with
    | some p =>
      if b < 0x400000 then poisonWord s (tsAddr p b)
      else if b < 0x500000 then (List.range 4).foldl (fun s j => modMx s p (fun x =>
        { x with accBad := mapSet (fun _ => false) x.accBad ((b - 0x400000) / 4 + j) true })) s
      else s
    | none => s
  else
    let f0 := t0 + ts.length * 5963792 + 4 * 2162704 + 8208 + 16
    if f0 ≤ o ∧ o < f0 + 0x400000 then poisonWord s (getF s MC_FT_BASE_BASE 6 * 2 ^ 22 + (o - f0)) else s

/-- One section of a restore (R447); false when the table is refused. -/
def applySection (s : State) (typ unit : Nat) (b : List Byte) : State × Bool :=
  match typ with
  | 1 => (applyGlobal s b, true)
  | 2 => (match physOf s unit with | some p => (applyTile s p b, true) | none => (s, true))
  | 3 => (unpackCe s (unit % 4) b, true)
  | 4 => (applyBarrier s b, true)
  | 5 => applyFolioTable s b
  | 7 => ((List.range (b.length / 8)).foldl (fun s i => poisonAt s (numAt b (8 * i) 8)) s, true)
  | _ => (s, true)

/-- R447: why a header is refused: 1 MAGIC or VERSION, 2 REPRO_KEY, 3 TILES, 4 NODE; 0 when it fits. -/
def headerFault (s : State) (b : List Byte) : Nat :=
  if b.take 8 ≠ [0x47, 0x57, 0x37, 0x52, 0x49, 0x4D, 0x47, 0x31] ∨ numAt b 8 2 ≠ 1 then 1
  else if numAt b 24 32 ≠ reproKey s then 2
  else if numAt b 13 1 ≠ tileCount s then 3
  else if numAt b 10 2 ≠ nodeId s then 4
  else 0

end Sys2Proof.Machine
end

