-- ==== Sys2Proof/Machine/Lend.lean ====
section
/-! DEFINITION. Lending, recall and hand-over (chapter 14): the states, the teardown order, quiesce, the image, zeroisation, restore. -/
namespace Sys2Proof.Machine

def lendErr (s : State) : State := setF s MG_LEND_STATUS_CMD_ERR 0 1
def setLend (s : State) (v : Nat) : State := setF s MG_LEND_STATUS_STATE 0 v
def modLend (s : State) (f : Lend → Lend) : State := { s with lend := f s.lend }

/-- R453: a record of the lending flow. -/
def lendRec (s : State) (code cause : Nat) : State := raiseMgc s code cause

/-- R581: a lending event. -/
def lendEvent (s : State) (code : Nat) : State := pushEvent s (.lending code)

/-- R433, R503, R538: no command but RECALL is taken before K5, while a LEND runs its teardown, or while a BIST runs. -/
def lendOpen (s : State) : Bool :=
  getF s MG_KIND_STATUS_STAGE 0 == 5 && s.lend.tear == 0 && (s.test.map (·.phys)) != some 127

/-- An event of the lending flow; a whole-chip reset ends the flow. -/
def lendStep (s : State) (f : State → State) : State := if isolated s 103 then s else f s

/-- The engine keys that are not at their reset state. -/
def liveEngines (s : State) : List Nat := s.engines.map (·.1)

/-! Frames (R449). -/

def inRegion (s : State) (p : Nat) : Bool :=
  getF s MC_MIRROR_REGION_FIRST 6 ≤ p && p < getF s MC_MIRROR_REGION_FIRST 6 + getF s MC_MIRROR_REGION_COUNT 6

/-- The frames that a hand-over zeroes: TOUCHED, of the 190,464 that there are. -/
def zeroFrame (s : State) (p : Nat) : Bool := p < 0x2E800 && (mapGet (fun _ => false) s.touched p || inRegion s p)

/-- R449: while LENDING, the frames of the mirror region are TOUCHED. -/
def touchRegion (s : State) : State :=
  touchFrames s ((List.range (getF s MC_MIRROR_REGION_COUNT 6)).map (· + getF s MC_MIRROR_REGION_FIRST 6))

def zeroCount (s : State) : Nat := ((List.range 0x2E800).filter (zeroFrame s)).length

/-! The teardown order (R434 to R436). -/

/-- TEARDOWN_GENERATION: step 1. -/
def beginTeardown (s : State) (g after : Nat) : State :=
  let old := jobGen s
  let s := (List.range 6).foldl (fun s i => setF s MC_JOB_GEN_GEN i g) (setF s RT_JOB_GEN_GEN 0 g)
  let s := setF (setF s MC_MIRROR_CFG_EN 6 0) MC_MIRROR_CFG_RESYNCING 6 0
  let s := { s with
    folio := { s.folio with dups := s.folio.dups.map (fun d => { d with again := false }), resync := [] }
    mark := { s.mark with fence := s.mark.fence.eraseDups } }
  modLend s (fun x => { x with tear := 1, tearGen := g, tearSince := s.gsc, after := after, oldGen := old })

/-- Step 2: every outstanding count is zero. -/
def drainedAll (s : State) : Bool :=
  s.tiles.all (fun kv => kv.2.dm.out.all (fun x => x.kind == 7)) && s.engines.all (fun kv => kv.2.sigs.isEmpty)
    && s.ces.all (fun kv => kv.2.op.isNone && kv.2.usedP.isEmpty && kv.2.usedM.isEmpty)
    && s.folio.dups.isEmpty && s.folio.held.isEmpty

/-- A job packet of another generation than the current one. -/
def oldJob (s : State) (p : Packet) : Bool := isJob p && p.gen.toNat != jobGen s

/-- A write of a data mover's piece of another generation that waits at a memory controller. -/
def oldLine (s : State) (q : LineReq) : Bool :=
  q.wr && (match q.own with | some (p, t, k) => ((getPiece s p t k).map (fun x => x.gen != jobGen s)).getD false | none => false)

/-- Step 3: a router queue, a VC buffer, an endpoint or a memory controller's queue holds one. -/
def fenceHeld (s : State) : Bool :=
  s.lineQ.any (oldLine s) || s.router.inject.any (oldJob s) || s.router.held.any (fun h => oldJob s h.pkt) || s.router.arrived.any (oldJob s)
    || s.flues.any (fun kv => kv.2.txq.any (fun h => oldJob s h.pkt) || (kv.2.cur.map (oldJob s)).getD false) || s.tiles.any (fun kv => kv.2.held.any (oldJob s))

/-- TEARDOWN_DRAIN_END. -/
def drainEnd (s : State) : State := if s.lend.tear = 1 ∧ drainedAll s then modLend s (fun x => { x with tear := 2 }) else s

/-- DRAIN_LATE: 10 ms after step 1. -/
def drainLate (s : State) : State :=
  if s.lend.tear = 1 ∧ !drainedAll s ∧ s.lend.tearSince + 10000000 ≤ s.gsc then
    modLend (setF s MG_LEND_STATUS_DRAIN_LATE 0 1) (fun x => { x with tear := 2 })
  else s

/-! Recall (R437 to R439, R442). -/

/-- R437: quiesce of every engine of every logical tile and of every collective engine. -/
def quiesceAll (s : State) : State :=
  ((liveEngines s).filter (fun i => 288 ≤ i || (logOf s (i / 4)).isSome)).foldl (fun s i => (askQuiesce s (engOf i)).1) s

/-- R442: a resync is abandoned. -/
def dropResync (s : State) : State :=
  if flagF s MC_MIRROR_CFG_RESYNCING 6 then
    setF (setF { s with folio := { s.folio with resync := [] } } MC_MIRROR_CFG_RESYNCING 6 0) MC_MIRROR_CFG_DEGRADED 6 1
  else s

/-- R439: every request held at 0x48 is answered RECALL_HELD. -/
def refuseHeld (s : State) : State :=
  s.folio.held.foldl (fun s h => sendNack s h.pkt 0x0702) { s with folio := { s.folio with held := [] } }

/-- The quiesce that a recall and a release begin with: the sink closes, and what the last recall left in the status falls. -/
def beginQuiesce (s : State) (target release : Bool) : State :=
  let s := setF s MG_LEND_STATUS_QUIESCED 0 0
  let s := modLend s (fun x => { x with
    sink := false, sinkBuf := [], target := target, release := release, notice := none, image := 0, gscQuiesced := 0, risked := false
    tearSince := s.gsc })
  quiesceAll s

/-- R253, R517: the waits that are open when RECALLING begins keep the time they have run. -/
def holdWaits (s : State) : State :=
  (liveEngines s).foldl (fun s i => modEng s (engOf i) (fun g => if g.st = .quiesced then g else
    { g with wait := g.wait.map (holdWait s), fwait := g.fwait.map (holdWait s) })) s

/-- R437: RECALLING is entered, with the GSC at the notice's arrival. -/
def enterRecall (s : State) (at0 : Nat) (target : Bool) : State :=
  let s := setF (setLend (holdWaits s) 3) MG_RECALL_AT_GSC 0 at0
  let s := setF (setF (setF s MG_LEND_STATUS_IMAGE_DONE 0 0) MG_LEND_STATUS_INCOMPLETE 0 0) MG_LEND_STATUS_RISK 0 0
  let s := setF (setF s MG_IMAGE_BYTES 0 0) MG_IMAGE_LEFT_BYTES 0 0
  beginQuiesce (refuseHeld (dropResync s)) target false

/-- R433: a RELEASE that was given in this GCLK cycle (2 ns) and that nothing has followed up yet. -/
def justReleased (s : State) (at0 : Nat) : Bool := lendState s == 4 && s.lend.release && s.lend.tearSince / 2 == at0 / 2

/-- R432, R433: a notice in LENDING recalls, also in the cycle of a RELEASE, which it turns away; one that meets a LEND's teardown is
held; FAULTED does not allow it; any other, and one before K5 (R538), changes nothing. -/
def recallAt (s : State) (at0 : Nat) (target : Bool) : State :=
  if s.lend.tear ≠ 0 ∧ s.lend.after ≠ 1 then
    (if s.lend.notice.isSome then s else modLend s (fun x => { x with notice := some (at0, target) }))
  else if lendState s = 2 then enterRecall s at0 target
  else if justReleased s at0 then enterRecall (lendErr s) at0 target
  else if lendState s = 5 ∧ getF s MG_KIND_STATUS_STAGE 0 = 5 then lendErr s
  else s

/-- RECALL_COMMAND: a notice that arrives now. -/
def recallNotice (s : State) (target : Bool) : State := recallAt s s.gsc target

/-- LENDING is entered (R432, R447). -/
def enterLending (s : State) : State :=
  let restore : Bool := s.lend.after == 2
  let s := touchRegion (setLend s 2)
  let s := if restore then (liveEngines s).foldl (fun s i => haltEngine s (engOf i)) s else s
  let s := modLend s (fun x => { x with sink := restore, sinkBuf := [], sinkOff := 0, secs := 0, release := false })
  match s.lend.notice with
  | some (t, target) => enterRecall s t target
  | none => s

/-- TEARDOWN_FENCE: step 3. -/
def teardownFence (s : State) : State :=
  if s.lend.tear ≠ 2 ∨ fenceHeld s then s
  else
    let s := setF s MG_LEND_STATUS_GEN 0 s.lend.tearGen
    let s := modLend { s with folio := { s.folio with held := s.folio.held.filter (fun h => !oldJob s h.pkt) } } (fun x => { x with tear := 0 })
    if s.lend.after = 1 then modLend (setF s MG_ZERO_FRAMES_FRAMES 0 (zeroCount s)) (fun x => { x with zeroing := true, retried := false })
    else enterLending s

/-! Commands (R432). -/

def serve (s : State) : State := if lendOpen s ∧ lendState s = 0 then setLend s 1 else lendErr s
def idleCmd (s : State) : State := if lendOpen s ∧ lendState s = 1 then enterIdle (setLend s 0) else lendErr s

/-- LEND, and LEND with RESTORE: R434. -/
def lendCmd (s : State) (g : Nat) (restore : Bool) : State :=
  if lendOpen s && lendState s == 0 && g != 0 && g != jobGen s then
    beginTeardown (modLend (if restore then setF s MG_LEND_STATUS_REJECT 0 0 else s) (fun x => { x with notice := none })) g (if restore then 2 else 0)
  else lendErr s

/-- Every engine halts and the hand-over's teardown begins (R452, R434). -/
def handover (s : State) : State :=
  let s := (liveEngines s).foldl (fun s i => haltEngine s (engOf i)) (setLend s 4)
  let s := modLend s (fun x => { x with release := false, image := 0, sink := false, sinkBuf := [] })
  beginTeardown s (if jobGen s = 0xFF then 1 else jobGen s + 1) 1

/-- RELEASE: R452. -/
def releaseJob (s : State) (target : Bool) : State := beginQuiesce (setLend s 4) target true

def releaseCmd (s : State) (target : Bool) : State :=
  if lendOpen s && lendState s == 2 then releaseJob s target else lendErr s

/-- RESUME: R448. -/
def resumeJob (s : State) : State :=
  if lendOpen s && lendState s == 2 then
    let s := modLend s (fun x => { x with sink := false, sinkBuf := [] })
    (liveEngines s).foldl (fun s i => if (getEng s (engOf i)).st = .quiesced then resumeEngine s (engOf i) else s) s
  else lendErr s

/-! All-quiesced (R438). -/

def atRest (g : Engine) : Bool := g.st == .quiesced || g.st == .halted || g.st == .loaded || g.st == .faulted

/-- The engines of the job that are not yet in one of the four states. Those of a domain in reset count once it is admitted (R525),
or once they have been stopped. -/
def notAtRest (s : State) : List Nat :=
  (List.range 292).filter (fun i =>
    let g := getEng s (engOf i)
    (288 ≤ i || (logOf s (i / 4)).isSome) && (!atRest g || (isolated s (engDom (engOf i)) && g.st != .faulted)))

def allQuiesced (s : State) : Bool :=
  (notAtRest s).isEmpty && s.tiles.all (fun kv => kv.2.cv0 < 2 && kv.2.cv1 < 2) && s.engines.all (fun kv => kv.2.sigs.isEmpty) && s.mark.phase != 1 && s.folio.dups.isEmpty && s.migr.isNone

/-- A recall or a release waits for all-quiesced. -/
def quiescing (s : State) : Bool :=
  (lendState s == 3 || (lendState s == 4 && s.lend.release)) && !flagF s MG_LEND_STATUS_QUIESCED 0

/-! The image (R440, R441, R443). -/

/-- R440: the cutoff. -/
def cutoff (s : State) : Nat :=
  getF s MG_RECALL_AT_GSC 0 + ((if getF s MG_LEND_CFG_DEADLINE_S 0 = 0 then 60 else getF s MG_LEND_CFG_DEADLINE_S 0)
    - getF s MG_LEND_CFG_RESERVE_S 0) * 1000000000

/-- The poisoned words of the image (R446). -/
def imagePoison (s : State) : Nat :=
  let bad (lo n : Nat) : Nat := (s.poison.filter (fun kv => lo ≤ 16 * kv.1 && 16 * kv.1 < lo + n)).length
  sumNat ((presentTiles s).map (fun l =>
      let p := (physOf s l).getD 0
      bad (tsAddr p 0) 0x400000 + (((getMx s p).accBad.map (fun kv => kv.1 / 4)).eraseDups).length))
    + sumNat ((List.range 4).map (fun c => (ceBad s c).length)) + (match s.folio.ftBase with | some b => bad b 0x400000 | none => 0)
    + sumNat ((nonClean s).map (fun x => bad (x.1 * 2 ^ 21 + x.2 * 65536) 65536))

/-- The bytes of the image and its trailer (R443 to R446). -/
def imageTotal (s : State) : Nat :=
  let section0 (n body : Nat) : Nat := if n = 0 then 0 else 16 + n * body
  256 + 4112 + (presentTiles s).length * 5963792 + 4 * 2162704 + 8208 + 4194320 + section0 (pendingVpns s).length 4
    + (nonClean s).length * 65552 + section0 (imagePoison s) 8 + 128

/-- The image begins; MG_IMAGE_LEFT holds its whole length while it is written. -/
def startImage (s : State) : State :=
  setTimer (setTimer (modLend (setF s MG_IMAGE_LEFT_BYTES 0 (imageTotal s)) (fun x => { x with image := 2 })) tmImage s.gsc) tmRisk s.gsc

/-- R525, R586: a link or an MGC that was reset has the image begin again from its header, while the cutoff has not passed. -/
def restartImage (s : State) : State := if s.lend.image = 2 ∧ s.gsc < cutoff s then setTimer s tmImage s.gsc else s

/-- IMAGE: R440. -/
def imageCmd (s : State) : State :=
  if lendState s = 3 ∧ s.lend.image = 0 then
    (if flagF s MG_LEND_STATUS_QUIESCED 0 then startImage s else modLend s (fun x => { x with image := 1 }))
  else lendErr s

/-- The GW7 is all-quiesced (R438), its armed check-value units disarmed (R490); a release goes on to its hand-over (R452), an image that was asked for begins (R440). -/
def nowQuiesced (s : State) : State :=
  let s := setF (modLend s (fun x => { x with gscQuiesced := s.gsc })) MG_LEND_STATUS_QUIESCED 0 1
  let s := lendEvent (s.tiles.foldl (fun s kv => cvDisarmAll s kv.1) s) 1
  if s.lend.release then handover s
  else if s.lend.image = 1 ∨ flagF s MG_LEND_CFG_AUTO_IMAGE 0 then startImage s
  else s

/-- ALL_QUIESCED. -/
def allQuiescedEv (s : State) : State := if quiescing s ∧ allQuiesced s then nowQuiesced s else s

/-- R438: an engine is stopped where it stands, as FAULTED. -/
def stopEngine (s : State) (i : Nat) : State :=
  let g := getEng s (engOf i)
  stopWork (setEng s (engOf i) { g with
    st := .faulted, queue := [], fetchPc := enginePc g, fetchStop := false, wait := none, fwait := none, marks := [], quiesceReq := false }) (engOf i)

/-- QUIESCE_DEADLINE: R438. -/
def quiesceDeadline (s : State) : State :=
  if quiescing s ∧ s.lend.tearSince + 250000000 ≤ s.gsc then
    match notAtRest s with
    | [] => s
    | l => lendRec (l.foldl stopEngine s) 0x0701 2
  else s

/-- R262: before the image saves them, the counters take the increments that are on their way to them, and the contexts finish
delivering the releases of their rounds. -/
def settleSync (s : State) : State := (List.range 64).foldl barrierDelivered ((List.range 72).foldl flushIncrs s)

/-- RECALL_IMAGE_COMPLETE: R440, R443. -/
def imageComplete (s : State) : State :=
  if lendState s = 3 ∧ s.lend.image = 2 ∧ s.gsc ≤ cutoff s ∧ !isolated s 102 then
    let s := settleSync s
    let (s, n) := sendImage s (allSections s) 0
    let s := setF (setF (setF s MG_IMAGE_BYTES 0 n) MG_IMAGE_LEFT_BYTES 0 0) MG_LEND_STATUS_IMAGE_DONE 0 1
    handover (lendEvent s 2)
  else s

/-- RECALL_CUTOFF: R440. -/
def recallCutoff (s : State) : State :=
  if lendState s ≠ 3 ∨ s.gsc < cutoff s then s
  else if s.lend.image = 2 then
    let s := settleSync s
    let (s, n) := sendImage s (sentSections (imageSent s) 256 (allSections s)) 1
    let s := setF (setF (setF s MG_IMAGE_BYTES 0 n) MG_IMAGE_LEFT_BYTES 0 0) MG_LEND_STATUS_INCOMPLETE 0 1
    handover (lendRec s 0x0703 1)
  else handover (lendRec s 0x0703 2)

/-- RECALL_RISK_CHECK: R441: from the image's start, once a second; the record once per recall. -/
def riskCheck (s : State) : State :=
  if lendState s = 3 ∧ s.lend.image = 2 ∧ getTimer s tmRisk ≤ s.gsc then
    let s := setTimer s tmRisk (getTimer s tmRisk + 1000000000)
    let left := getF s MG_IMAGE_LEFT_BYTES 0 - imageSent s
    if 50 * cutoff s < 50 * (s.gsc + 100000000) + left ∧ !s.lend.risked then
      lendRec (setF (modLend s (fun x => { x with risked := true })) MG_LEND_STATUS_RISK 0 1) 0x0701 1
    else s
  else s

/-- MG_LEND_CFG_WRITE: R454. -/
def lendCfg (s : State) (v : Word) : State :=
  let k := regKey 1 0 MG_LEND_CFG_DEADLINE_S.off
  let new := v.toNat % 2 ^ 13
  if (lendState s = 3 ∨ lendState s = 4) ∧ s.gsc < cutoff s then
    let s' := setF s MG_LEND_CFG_DEADLINE_S 0 (bits new 0 8)
    if bits new 8 5 = bits (regGet s k).toNat 8 5 then s' else lendErr s'
  else if lendState s = 3 ∨ lendState s = 4 then lendErr s
  else regSet s k (BitVec.ofNat 64 new)

/-! Zeroisation (R449 to R451). -/

/-- A key of the registers that a hand-over zeroes: g0 to g31, P_LAUNCH, P_START_PC, the flags, the counters, VX_RNG_KEY, the TL_CV
registers, the barrier contexts, live collective statistics. -/
def zeroKey (k : Nat) : Bool :=
  let b := k / 2 ^ 20
  let i := k / 2 ^ 12 % 256
  let o := k % 2 ^ 12
  (isEngineBlk b && ((0x200 ≤ o && o < 0x300) || (P_LAUNCH.off ≤ o && o < P_LAUNCH.off + 8) || o == P_START_PC_PC.off))
    || tileCleared i k || (b == 8 && (o == CE_FLAGS_OVF.off || (latchOf k).isSome)) || (b == 7 && 1 ≤ i && 0x40 ≤ o)

/-- R490: TL_CVu_CFG and TL_CVu_POLY, whose reset values are not zero, are written as zero. -/
def zeroCv (s : State) (p : Nat) : State :=
  (List.range 2).foldl (fun s u => regSet (regSet s (regKey 2 p (0x104 + 128 * u)) 0) (regKey 2 p (0x110 + 128 * u)) 0) s

/-- One physical tile. -/
def zeroTileJob (s : State) (p : Nat) : State :=
  let s := tearDigest s p 0 0x400000
  modTile (zeroCv (orphanLines s (fun k => k.1 == p)) p) p (fun t => { Tile.reset with sweepAt := t.sweepAt, digestBusy := t.digestBusy })

/-- The dump directory entry that holds register record r: the last one taken over it (R529, R530). -/
def recordOwner (s : State) (r : Nat) : Option Nat :=
  (List.range 64).foldl (fun best e =>
    let first := ashRd s (dirOff e + 32) 4
    let n := ashRd s (dirOff e + 26) 2
    let later : Bool := match best with | some b => decide (ashRd s (dirOff b) 4 ≤ ashRd s (dirOff e) 4) | none => true
    if decide ((r + 512 - first % 512) % 512 < n) && later then some e else best) none

/-- R449, R532: the register records and tile samples of the old generation. -/
def zeroAsh (s : State) (g : Nat) : State :=
  let recs := (List.range 512).filter (fun r => match recordOwner s r with | some e => ashRd s (dirOff e + 7) 1 == g | none => false)
  let slots := (List.range 48).filter (fun k => bit (ashRd s (512 + 8 * k) 1) 7 && ashRd s (512 + 8 * k + 2) 1 == g)
  let s := recs.foldl (fun s r => zeroRange s (ashBase + 0x100000 + 2048 * r) (ashBase + 0x100000 + 2048 * (r + 1))) s
  slots.foldl (fun s k => zeroRange s (ashBase + 0x200000 + 0x20000 * k) (ashBase + 0x200000 + 0x20000 * (k + 1))) s

/-- The hint cache: dirty lines of other frames are written back, every line is invalidated. -/
def zeroHc (s : State) : State :=
  (List.range 6).foldl (fun s i =>
    let s := (getStack s i).lines.foldl (fun t l => if zeroFrame s (256 * l.line / 2 ^ 21) then t else writeBack t i l) s
    setStack s i { getStack s i with lines := [] }) s

/-- An address that a hand-over zeroes: its frames, the tile stores and the instruction memories. -/
def zeroAddr (s : State) (a : Nat) : Bool :=
  zeroFrame s (a / 2 ^ 21) || (tsAddr 0 0 ≤ a && a < tsAddr 72 0) || (0xF200000000 ≤ a && a < 0xF202040000)

def zeroise (s : State) (old : Nat) : State :=
  let s := zeroHc s
  let s := { s with mem := mapDrop (zeroAddr s) s.mem, poison := mapDrop (fun w => zeroAddr s (16 * w)) s.poison }
  let s := { s with regs := mapDrop zeroKey s.regs, engines := [], ctxs := []
                    ces := s.ces.foldl (fun m kv => mapSet (fun _ => Ce.reset) m kv.1 { Ce.reset with opnum := kv.2.opnum, nack := kv.2.nack }) []
                    folio := { Folio.reset with busy := s.folio.busy }
                    mark := { s.mark with phase := 0, arrived := [], sigs := [], fence := [] } }
  zeroAsh ((List.range 72).foldl zeroTileJob s) old

/-- R451: a zero write cannot complete: one of a frame while a controller is in reset (cause 1), one of a tile, a collective engine or
the hint cache before its reset has cleared it (cause 2); 0 if all can. -/
def zeroFault (s : State) : Nat :=
  if zeroCount s ≠ 0 ∧ (List.range 6).any (fun i => isolated s (72 + i)) then 1
  else if (List.range 72 ++ [96, 97, 98, 99, 100]).any (fun d => (getDom s d).phase == 2) then 2
  else 0

/-- ZEROISATION_COMPLETE: R451. A write that fails is tried again; one that fails twice ends in FAULTED. -/
def zeroised (s : State) : State :=
  if lendState s ≠ 4 ∨ !s.lend.zeroing ∨ s.migr.isSome then s
  else
    let n := zeroCount s
    if zeroFault s ≠ 0 then
      (if s.lend.retried then lendRec (setLend (modLend s (fun x => { x with zeroing := false })) 5) 0x0704 (zeroFault s)
       else modLend s (fun x => { x with retried := true }))
    else
      let old := s.lend.oldGen
      let s := setF (zeroise s old) MG_ZERO_FRAMES_FRAMES 0 0
      let s := lendEvent (bumpLife (logLedger s 5 0x600 [old, n, s.gsc]) 7) 3
      let target := s.lend.target
      let s := { s with touched := [], lend := Lend.reset }
      if target then setLend s 1 else enterIdle (setLend s 0)

/-! The sink (R447). -/

/-- R447: the image is refused: the cause, the record, a hand-over to IDLE. -/
def rejectImage (s : State) (cause : Nat) : State :=
  let s := lendRec (setF s MG_LEND_STATUS_REJECT 0 cause) 0x0705 cause
  handover (modLend s (fun x => { x with target := false }))

/-- R558: after a restore, the live counters other than those of the collective engines start at zero. -/
def zeroLive (s : State) : State := { s with regs := mapDrop (fun k => k / 2 ^ 20 != 8 && (latchOf k).isSome) s.regs }

/-- R204: the restore is complete: the instruction memories of the engines it left QUIESCED may be written until they resume. -/
def markRestored (s : State) : State :=
  (liveEngines s).foldl (fun s i => modEng s (engOf i) (fun g => if g.st = .quiesced then { g with restored := true } else g)) s

/-- The sections that stand whole in the sink's buffer are applied as they arrive. -/
def sinkPump : Nat → State → State
  | 0, s => s
  | fuel + 1, s =>
    let b := s.lend.sinkBuf
    if !s.lend.sink then s
    else if s.lend.secs = 0 then
      if b.length < 256 then s
      else
        let c := headerFault s b
        if c ≠ 0 then rejectImage s c
        else sinkPump fuel (modLend s (fun x => { x with sinkBuf := b.drop 256, secs := 1 }))
    else if b.length < 16 ∨ b.length < 16 + numAt b 4 4 then s
    else
      let typ := numAt b 0 2
      let (s, ok) := applySection s typ (numAt b 2 2) ((b.drop 16).take (numAt b 4 4))
      if !ok then rejectImage s 5
      else
        let s := modLend s (fun x => { x with sinkBuf := b.drop (16 + numAt b 4 4), secs := x.secs + 1 })
        let s := if typ = 5 then lendEvent (markRestored (zeroLive s)) 5 else if typ = 1 then touchRegion s else s
        sinkPump fuel s

/-- SINK: image bytes from an offset on. Answers the status of R582: 5 with the sink closed; 3 for bytes that do not follow, unless they
begin a later section. -/
def sinkBytes (s : State) (off : Nat) (bs : List Byte) : State × Nat :=
  if !s.lend.sink then (s, 5)
  else if off ≠ s.lend.sinkOff ∧ !(s.lend.sinkOff < off ∧ s.lend.sinkBuf.isEmpty ∧ 0 < s.lend.secs) then (s, 3)
  else
    let s := modLend s (fun x => { x with sinkBuf := x.sinkBuf ++ bs, sinkOff := off + bs.length })
    (sinkPump (s.lend.sinkBuf.length + 1) s, 0)

end Sys2Proof.Machine
end

