-- ==== Sys2Proof/Machine/EbLink.lean ====
section
/-! DEFINITION. The link of the Eboth port (R573 to R589): frames, link-level retry, classes and credits, bring-up and loss. -/
namespace Sys2Proof.Machine

def modEb (s : State) (f : Eboth → Eboth) : State := { s with eb := f s.eb }
def ebState (s : State) : Nat := getF s EB_STATUS_STATE 0
def setEbState (s : State) (v : Nat) : State := setF s EB_STATUS_STATE 0 v

/-! Frames (R576). -/

/-- The 32 header bytes. -/
def ebHeader (fr : EbFrame) : Nat :=
  fr.lseq.toNat + 2 ^ 12 * fr.kind.toNat + 2 ^ 16 * fr.lack.toNat + 2 ^ 28 * b2n fr.nak + 2 ^ 29 * fr.rsvA.toNat
    + 2 ^ 32 * fr.cred.toNat + 2 ^ 64 * fr.mtype.toNat + 2 ^ 72 * fr.status.toNat + 2 ^ 80 * fr.len.toNat + 2 ^ 95 * b2n fr.rsvB
    + 2 ^ 96 * fr.tag.toNat + 2 ^ 112 * fr.gen.toNat + 2 ^ 120 * fr.rsvC.toNat + 2 ^ 128 * fr.a.toNat + 2 ^ 192 * fr.b.toNat

def ebCrc (fr : EbFrame) : BitVec 64 := crc64From 0 (bytesOf 32 (ebHeader fr) ++ fr.body)

/-- Header, body and CRC. -/
def ebSize (fr : EbFrame) : Nat := 40 + fr.body.length

/-- R578, R579: the class of a message type; a type that is not in the table travels in C1. -/
def ebClass (mtype : Nat) : Nat :=
  match mtype with
  | 0x03 => 3 | 0x04 => 3 | 0x43 => 3
  | 0x07 => 2 | 0x08 => 2 | 0x47 => 2
  | 0x48 => 4
  | _ => 1

/-- R578: the credits that a frame consumes. -/
def ebCost (body : Nat) : Nat := (40 + body + 1023) / 1024

/-- A byte of CRED, for class 1 to 4. -/
def credOf (v : BitVec 32) (c : Nat) : Nat := bits v.toNat (8 * (c - 1)) 8

/-- Add to the count of a class. -/
def addCred (l : List Nat) (c n : Nat) : List Nat := l.set (c - 1) (l[c - 1]?.getD 0 + n)
def subCred (l : List Nat) (c n : Nat) : List Nat := l.set (c - 1) (l[c - 1]?.getD 0 - n)

/-! Transmission (R577, R578). -/

/-- A frame of a message. -/
def msgFrame (m : EbMsg) : EbFrame :=
  ⟨0, 1, 0, false, 0, 0, BitVec.ofNat 8 m.mtype, BitVec.ofNat 8 m.status, BitVec.ofNat 15 m.body.length, false, BitVec.ofNat 16 m.tag, 0, 0
    , BitVec.ofNat 64 m.a, BitVec.ofNat 64 m.b, m.body, 0⟩

def idleFrame : EbFrame := ⟨0, 0, 0, false, 0, 0, 0, 0, 0, false, 0, 0, 0, 0, 0, [], 0⟩

/-- The credits that the next frame returns: at most 255 of each class. -/
def credNow (x : Eboth) : BitVec 32 := BitVec.ofNat 32 (sumNat ((x.ret.zipIdx).map (fun r => min r.1 255 * 2 ^ (8 * r.2))))

/-- The acknowledgement, NAK and generation that every outgoing frame carries. -/
def ebHead (x : Eboth) (fr : EbFrame) : EbFrame :=
  let fr := { fr with lack := BitVec.ofNat 12 (x.rseq + 4095), nak := x.sendNak, gen := BitVec.ofNat 8 x.portGen }
  { fr with crc := ebCrc fr }

/-- A frame leaves, with the credits that it returns if it is new. -/
def ebPut (s : State) (fr : EbFrame) (new : Bool) : State :=
  let x := s.eb
  let fr := ebHead x (if new then { fr with lseq := BitVec.ofNat 12 x.lseq, cred := credNow x } else fr)
  let s := addStat s EB_TX_BYTES 0 (ebSize fr)
  modEb s (fun x => { x with
    line := some fr, sendNak := false
    ret := if new then x.ret.map (fun r => r - min r 255) else x.ret
    sent := if new && fr.kind == 1 then x.sent ++ [(fr, 0)] else x.sent
    lseq := if new && fr.kind == 1 then (x.lseq + 1) % 4096 else x.lseq })

/-- The bytes of the retry buffer (R577). -/
def retryBytes (x : Eboth) : Nat := sumNat (x.sent.map (fun y => ebSize y.1))

/-- R578: the ready message of the highest class whose credits cover it. -/
def ebReady (x : Eboth) : Option EbMsg :=
  ([1, 2, 3, 4].filterMap (fun c => x.out.find? (fun m => m.cls == c))).find? (fun m => ebCost m.body.length ≤ x.cred[m.cls - 1]?.getD 0)

/-- R583: remember the response to a tag, the last 1,024 of them. -/
def remember (s : State) (tag : Nat) (m : EbMsg) : State :=
  modEb s (fun x =>
    let l := x.tags.filter (fun t => t.1 != tag) ++ [(tag, m)]
    { x with tags := l.drop (l.length - 1024) })

/-- R549: the oldest colophon request of the port is answered; the colophon is formed as it is about to leave. -/
def formColophon (s : State) : State :=
  match s.eb.colo.find? (fun x => x.1 == none) with
  | some x =>
    if isolated s 102 then s
    else
      let (s, b) := colophon (modEb s (fun e => { e with colo := e.colo.erase x })) false x.2.2
      let m : EbMsg := ⟨1, 0x45, 0, x.2.1, 0, 0, b⟩
      ebOut (remember s x.2.1 m) m
  | none => s

/-- R585: the link-control frame of the bring-up: the device ID in A, the sizes of the GW7's receive buffers in B, in units of 1 KiB
with 16 bits for each class (R578), and the port generation in GEN (log entry 63). -/
def helloFrame (s : State) : EbFrame :=
  { idleFrame with kind := 2, a := BitVec.ofNat 64 (getF s MG_DEVICE_ID_ID 0), b := BitVec.ofNat 64 (64 + 2 ^ 16 * 1024 + 2 ^ 32 * 1024 + 2 ^ 48 * 256) }

/-- EBOTH_FRAME_TRANSMIT: a link that trains sends its HELLO; one that is UP sends a replayed frame, else the ready message of the highest class, else an idle frame, which takes no LSEQ. -/
def ebTransmit (s : State) : State :=
  if ebState s = 1 then ebPut s (helloFrame s) true
  else if ebState s ≠ 2 then s
  else match s.eb.replay with
    | r :: rest =>
      ebPut (addStat (modEb s (fun x => { x with
        replay := rest, sent := x.sent.map (fun y => if y.1.lseq = r.lseq then (y.1, y.2 + 1) else y) })) EB_REPLAYS 0 1) r false
    | [] =>
      let s := formColophon s
      match ebReady s.eb with
      | none => ebPut s idleFrame true
      | some m =>
        if 2 ^ 20 < retryBytes s.eb + 40 + m.body.length then ebPut (addStat s EB_REPLAYS 0 1) idleFrame true
        else ebPut (modEb s (fun x => { x with out := x.out.erase m, cred := subCred x.cred m.cls (ebCost m.body.length) })) (msgFrame m) true

/-! Loss (R586). -/

/-- Retraining, or holding while EN is 0. -/
def ebRetrain (s : State) : State :=
  let s := setEbState s (if flagF s EB_CFG_EN 0 then 1 else 3)
  modEb (setF s EB_STATUS_LOCKED 0 0) (fun x => { x with downSince := s.gsc, sendNak := false, naked := false, replay := [] })

/-- R586, R588: the link goes down; the record waits in the queue for the link. -/
def ebDown (s : State) (cause lane : Nat) : State :=
  if ebState s ≠ 2 then s
  else raise (ebRetrain s) 14 0 (mgcRec s 0x1101 0xFF (cause + 2 ^ 8 * lane))

/-- EBOTH_LOSS_OF_SIGNAL: of a lane, or of frame lock. -/
def ebLoss (s : State) (lane : Option Nat) : State :=
  match lane with
  | some l => ebDown s 1 l
  | none => ebDown s 2 0xF

/-- EB_RESET: the link goes down and trains again, also one that was held after three failures. -/
def ebReset (s : State) : State :=
  let s := modEb s (fun x => { x with fails := 0 })
  if ebState s = 2 then ebDown s 4 0xF
  else if ebState s = 0 then s
  else setEbState s (if flagF s EB_CFG_EN 0 then 1 else 3)

/-- EB_EN_WRITE: R589; a link held after three failures waits for EB_CFG.RESET (R586). -/
def ebEnWrite (s : State) (v : Bool) : State :=
  if flagF s EB_CFG_EN 0 = v then s
  else
    let s := setF s EB_CFG_EN 0 (b2n v)
    if v then (if ebState s = 3 ∧ s.eb.fails < 3 then setEbState s 1 else s)
    else if ebState s = 2 then ebDown s 4 0xF
    else if ebState s = 1 then setEbState s 3
    else s

/-- EBOTH_TRAIN_FAIL. -/
def ebTrainFail (s : State) : State :=
  if ebState s ≠ 1 then s
  else
    let n := s.eb.fails + 1
    let s := modEb s (fun x => { x with fails := n })
    if n < 3 then s else setEbState s 3

/-- R586: how long both ends keep their buffers. -/
def holdCounts (s : State) : Nat := (if getF s EB_CFG_HOLD_MS 0 = 0 then 1000 else getF s EB_CFG_HOLD_MS 0) * 1000000

/-- EBOTH_HOLD_EXPIRE: a new port generation; the events that are not acknowledged are sent again. -/
def ebHoldExpire (s : State) : State :=
  if ebState s = 2 ∨ !s.eb.hello ∨ s.gsc < s.eb.downSince + holdCounts s then s
  else
    let g := (s.eb.portGen + 1) % 256
    let s := modEb s (fun x => { x with
      portGen := g, hello := false, lseq := 0, rseq := 0, sent := [], replay := [], reqs := []
      out := (x.out.filter (fun m => m.mtype != 0x48 && m.mtype != 0x46)) ++ x.events.map (fun e => eventMsg e.1 e.2) })
    let s := { s with folio := { s.folio with sending := none } }
    restartImage (raise s 14 0 (mgcRec s 0x1102 0xFF g))

/-- EBOTH_HELLO: R585, R586: what the peer's LACK covers is dropped and the rest is replayed; the credits are those of the peer's
buffers (log entry 63), less what the frames to be replayed hold. A hold that has run out meanwhile ends first. -/
def ebHello (s : State) (lack credits : Nat) : State :=
  if ebState s ≠ 1 then s
  else
    let s := ebHoldExpire s
    let keep := s.eb.sent.filter (fun y => !acked lack y.1.lseq.toNat)
    let left (c : Nat) : Nat :=
      bits credits (16 * (c - 1)) 16 - sumNat ((keep.filter (fun y => ebClass y.1.mtype.toNat == c)).map (fun y => ebCost y.1.body.length))
    setEbState (setF (modEb s (fun x => { x with
      sent := keep, replay := keep.map (·.1), cred := [left 1, left 2, left 3, left 4], ret := [0, 0, 0, 0], fails := 0, hello := true }))
      EB_STATUS_LOCKED 0 0xF) 2

/-- EBOTH_LOST_RELEASE: R587. -/
def ebLostRelease (s : State) : State :=
  let n := getF s EB_CFG_LOST_S 0
  if n ≠ 0 ∧ ebState s ≠ 2 ∧ lendState s = 2 ∧ s.eb.downSince + n * 1000000000 ≤ s.gsc then releaseJob s false else s

/-! Reception (R577). -/

/-- R333, R577: a rejected frame. -/
def ebReject (s : State) : State :=
  modEb (addF s EB_ERR_CRC_ERRORS 0 1) (fun x => { x with sendNak := x.sendNak || !x.naked, naked := true })

/-- The LACK and NAK of a good frame. -/
def ebAck (s : State) (fr : EbFrame) : State :=
  let a := fr.lack.toNat
  let s := modEb s (fun x => { x with
    sent := x.sent.filter (fun y => !acked a y.1.lseq.toNat), replay := x.replay.filter (fun r => !acked a r.lseq.toNat) })
  if !fr.nak then s
  else if s.eb.sent.any (fun y => 8 ≤ y.2) then ebDown s 3 0xF
  else modEb s (fun x => { x with replay := x.sent.map (·.1) })

/-- EBOTH_FRAME_RECEIVED. A message waits in the receive buffer for its own command. -/
def ebReceive (s : State) (fr : EbFrame) (ucw : Bool) : State :=
  if ebState s ≠ 2 then s
  else if fr.crc != ebCrc fr || ucw || fr.lseq.toNat != s.eb.rseq || fr.gen.toNat != s.eb.portGen || 2 < fr.kind.toNat || 16384 < fr.body.length then
    ebReject s
  else
    let s := addStat s EB_RX_BYTES 0 (ebSize fr)
    let s := modEb s (fun x => { x with
      rseq := if fr.kind = 1 then (x.rseq + 1) % 4096 else x.rseq, naked := false
      cred := [1, 2, 3, 4].foldl (fun l c => addCred l c (credOf fr.cred c)) x.cred
      reqs := if fr.kind = 1 then x.reqs ++ [⟨fr, s.gsc⟩] else x.reqs })
    ebAck s fr

end Sys2Proof.Machine
end

