-- ==== Sys2Proof/Machine/Registers.lean ====
section
/-! DEFINITION. Register accesses (chapter 22): what a write of a register does, field by field and command by command, and what a
read clears. -/
namespace Sys2Proof.Machine

/-! Fields by their access types (R10). -/

/-- A write of `v` to one field of a register that holds `old`. -/
def writeField (f : FSpec) (old v : Nat) : Nat :=
  let n := bits v f.lo f.len
  let o := bits old f.lo f.len
  match f.typ with
  | .rw => putBits old f.lo f.len n
  | .w1c => putBits old f.lo f.len (o - (o &&& n))
  | .w1s => putBits old f.lo f.len (o ||| n)
  | _ => old

/-- A write of the register at element offset `base` of a page, by the types of its fields. -/
def plainWrite (s : State) (b inst base v : Nat) : State :=
  match regAt b inst base with
  | none => s
  | some (r, _) =>
    let k := regKey b inst base
    regSet s k (BitVec.ofNat 64 (r.fields.foldl (fun old f => writeField f old v) (regGet s k).toNat))

/-! The common header (R601, R603). -/

/-- ERR_LOG_CLEAR. -/
def errLogClear (s : State) (b inst : Nat) : State :=
  wrF (wrF (wrF s b H_ERR_LOG_VALID inst 0 0) b H_ERR_LOG_CODE inst 0 0) b H_ERR_LOG_COUNT inst 0 0

/-- IRQ_FORCE: FAULT and READY on every page, the two BLOCK bits of check-value units on TL pages. -/
def irqForce (s : State) (b inst v : Nat) : State :=
  let k := regKey b inst 0x20
  let ok := if b = 2 then 0x30003 else 3
  regSet s k (BitVec.ofNat 64 ((regGet s k).toNat ||| (v &&& ok)))

/-- CTRL_DRAIN. -/
def ctrlDrain (s : State) (b inst : Nat) (on : Bool) : State :=
  if capDrain b inst then wrF s b H_CTRL_DRAIN inst 0 (b2n on) else s

/-- CTRL_RESET_REQ. -/
def ctrlReset (s : State) (b inst : Nat) : State := if capReset b inst then requestReset s (pageDomain b inst) true 1 else s

/-- A write of CTRL; a reset that it requests discards its drain. -/
def ctrlWrite (s : State) (b inst v : Nat) : State :=
  let s := if b = 10 then flEnWrite s inst (bit v 0) else if b = 14 then ebEnWrite s (bit v 0) else s
  if bit v 2 && capReset b inst then ctrlReset s b inst else ctrlDrain s b inst (bit v 1)

def headerWrite (s : State) (b inst off v : Nat) : State :=
  match off with
  | 0x10 => ctrlWrite s b inst v
  | 0x28 => irqForce s b inst v
  | 0x30 => if bit v 24 then errLogClear s b inst else s
  | _ => plainWrite s b inst off v

/-! Pages. -/

/-- The program control registers of an engine page: a MARK_EN write and a command are judged each on its own (R221). -/
def engineWrite (s : State) (b inst off v : Nat) : State :=
  let e := engOfPage b inst
  if off = 0x100 then doPctl (doMarkEn s e (bit v 4)) e (bits v 0 4)
  else if 0x200 ≤ off ∧ off < 0x300 then doGWrite s e ((off - 0x200) / 8) (BitVec.ofNat 64 v)
  else plainWrite s b inst off v

/-- The NOR flash stands outside the part, so an image that a register write stages is one of free values (log entry 61). -/
def norImage (s : State) (b : Nat) : State × FwImage :=
  let (w0, s) := freshWord s
  let (w1, s) := freshWord s
  let (w2, s) := freshWord s
  let (w3, s) := freshWord s
  let (w4, s) := freshWord s
  (s, { block := BitVec.ofNat 16 b, version := BitVec.ofNat 32 w0.toNat, svn := BitVec.ofNat 8 (w0.toNat / 2 ^ 32)
        digest := BitVec.ofNat 256 (w1.toNat + 2 ^ 64 * w2.toNat + 2 ^ 128 * w3.toNat + 2 ^ 192 * w4.toNat)
        headOk := bit w0.toNat 40, digOk := bit w0.toNat 41, sigOk := bit w0.toNat 42, loads := bit w0.toNat 43 })

/-- MG_LEND_CMD (R454). -/
def lendWrite (s : State) (v : Nat) : State :=
  match bits v 0 4 with
  | 1 => serve s
  | 2 => idleCmd s
  | 3 => lendCmd s (bits v 4 8) (bit v 12)
  | 4 => recallNotice s (bit v 13)
  | 5 => imageCmd s
  | 6 => releaseCmd s (bit v 13)
  | 7 => resumeJob s
  | _ => lendErr s

/-- MG_UPDATE_CMD (R536). -/
def updateWrite (s : State) (v : Nat) : State :=
  if !bit v 26 then s
  else match bits v 24 2 with
    | 1 => let (s, i) := norImage s (bits v 0 16); updateStage s (bits v 0 16) i
    | 2 => updateApply s (bits v 0 16) (bits v 16 8)
    | 3 => updateDrop s
    | _ => updErr s

/-- MG_SPARE_CMD (R515): an OP that is neither command is refused. -/
def spareWrite (s : State) (v : Nat) : State :=
  if !bit v 15 then s
  else match bits v 13 2 with
    | 1 => spareCmd s (bits v 0 6) (bits v 6 7) false
    | 2 => spareCmd s (bits v 0 6) (bits v 6 7) true
    | _ => spareErr s

/-- MG_FW_CMD (R553): every OP but COMMIT sets CMD_ERR, also as the same write clears it (R597). -/
def fwWrite (s : State) (v : Nat) : State :=
  let s := plainWrite s 1 0 0xC04 v
  if bits v 16 2 = 1 then commitFw s (bits v 0 16) else setF s MG_FW_CMD_CMD_ERR 0 1

def mgWrite (s : State) (off v : Nat) : State :=
  match off with
  | 0x100 => lendWrite s v
  | 0x108 => lendCfg s (BitVec.ofNat 32 v)
  | 0x208 => if bit v 6 then classCommand s (bits v 7 2) (bits v 0 6) else s
  | 0x840 => spareWrite s v
  | 0x84C => (match bits v 0 2 with | 1 => testRotation s | 2 => testBist s | _ => s)
  | 0x858 => let s := plainWrite s 1 0 off v; if bit v 16 then mirrorPush s (bits v 0 16) else s
  | 0x900 => if bit v 8 then requestReset s (bits v 0 7) (bit v 7) 1 else s
  | 0x908 => let s := plainWrite s 1 0 off v; if bit v 0 then wdogKick s else s
  | 0x910 => updateWrite s v
  | 0xC04 => fwWrite s v
  | 0xC08 => let s := plainWrite s 1 0 off v; if bit v 0 then mr7Go s else s
  | _ => plainWrite s 1 0 off v

/-- TL_CVu_CTRL (R491). -/
def cvWrite (s : State) (p u cmd : Nat) : State :=
  match cmd with
  | 1 => cvStart s p u
  | 2 => cvArm s p u
  | 3 => cvDisarm s p u
  | 4 => cvCombine s p u
  | _ => cvErr s p u

def tlWrite (s : State) (p off v : Nat) : State :=
  if off = 0xC0 ∨ off = 0xC8 then digestRegion s p ((off - 0xC0) / 8) (BitVec.ofNat 64 v)
  else if 0x100 ≤ off ∧ off < 0x200 then
    let u := (off - 0x100) / 128
    let o := (off - 0x100) % 128
    if o = 0 then cvWrite s p u (bits v 0 3)
    else if o = 8 then plainWrite s 2 p off v
    else cvConfig s p u o (BitVec.ofNat 64 v)
  else plainWrite s 2 p off v

def baWrite (s : State) (inst off v : Nat) : State :=
  if inst = 0 then plainWrite s 7 0 off v
  else if off = 0x40 then writeBaCfg s (inst - 1) 0 (BitVec.ofNat 32 v)
  else if 0x50 ≤ off ∧ off < 0x74 then writeBaCfg s (inst - 1) (1 + (off - 0x50) / 4) (BitVec.ofNat 32 v)
  else plainWrite s 7 inst off v

def cePageWrite (s : State) (c off v : Nat) : State :=
  if off = 0x40 ∨ off = 0x44 ∨ 0x300 ≤ off then ceConfigWrite s c off (BitVec.ofNat 32 v) else plainWrite s 8 c off v

def rtWrite (s : State) (inst off v : Nat) : State :=
  if inst ≠ 0 then plainWrite s 9 inst off v
  else match off with
    | 0x48 => nodeWrite s (BitVec.ofNat 32 v)
    | 0x50 => if bit v 2 then editionArm s else s
    | 0x58 => editionAtWrite s (BitVec.ofNat 64 v)
    | 0x60 => ednCfgWrite s 0 (BitVec.ofNat 32 v)
    | 0x64 => ednCfgWrite s 1 (BitVec.ofNat 32 v)
    | _ => plainWrite s 9 0 off v

def flWrite (s : State) (f off v : Nat) : State :=
  if off = 0x44 then
    let s := flEnWrite s f (bit v 6)
    let s := if bit v 7 then flReset s f else s
    if bit v 8 then selftest s f else s
  else plainWrite s 10 f off v

def mcWrite (s : State) (inst off v : Nat) : State :=
  if inst < 6 then (if off = 0x4C then (if bit v 6 then retireCmd s inst (bits v 0 6) else s) else plainWrite s 11 inst off v)
  else match off with
    | 0x40 => let s := if bit v 0 then ftLoad s else s; if bit v 1 then ftUpdate s else s
    | 0x58 => if bit v 19 then mcRestore s (bits v 0 19) else s
    | 0x70 => let s := plainWrite s 11 6 off v; if bit v 2 then mirrorResync s else s
    | 0x78 => let s := plainWrite s 11 6 off v; if lendState s = 2 then touchRegion s else s
    | _ => plainWrite s 11 6 off v

def hcWrite (s : State) (i off v : Nat) : State :=
  if off = 0x48 then (if bit v 1 then hcFlushInv s i else if bit v 0 then hcFlushWb s i else s) else plainWrite s 12 i off v

def ebWrite (s : State) (off v : Nat) : State :=
  if off = 0x44 then
    let t := plainWrite s 14 0 off v
    let t := ebEnWrite (setF t EB_CFG_EN 0 (getF s EB_CFG_EN 0)) (bit v 0)
    if bit v 1 then ebReset t else t
  else plainWrite s 14 0 off v

/-- A write of the whole register that begins at `off` of a page. -/
def writeReg (s : State) (b inst off v : Nat) : State :=
  if off < 0x40 then headerWrite s b inst off v
  else if isEngineBlk b ∧ 0x100 ≤ off ∧ off < 0x300 then engineWrite s b inst off v
  else match b with
    | 1 => mgWrite s off v
    | 2 => tlWrite s inst off v
    | 4 => if off = 0x50 then writeRngKey s inst (BitVec.ofNat 64 v) else plainWrite s 4 inst off v
    | 6 => if 0x400 ≤ off then writeCtr s inst ((off - 0x400) / 4) (bits v 0 24) else plainWrite s 6 inst off v
    | 7 => baWrite s inst off v
    | 8 => cePageWrite s inst off v
    | 9 => rtWrite s inst off v
    | 10 => flWrite s inst off v
    | 11 => mcWrite s inst off v
    | 12 => hcWrite s inst off v
    | 13 => if off = 0x40 then ckCfgWrite s (BitVec.ofNat 32 v) else plainWrite s 13 inst off v
    | 14 => ebWrite s off v
    | _ => plainWrite s b inst off v

/-! Accesses by address (R591 to R599). -/

/-- The page and the offset that an address of the register region names; none for an unassigned page. -/
def regPage (addr : Nat) : Option (Nat × Nat × Nat) :=
  let r := addr - 0xF000000000
  let b := r / 2 ^ 20
  let i := r / 2 ^ 12 % 256
  if 0xF000000000 ≤ addr ∧ addr < 0xF100000000 ∧ 1 ≤ b ∧ b ≤ 16 ∧ i < blkInstances b then some (b, i, r % 2 ^ 12) else none

/-- R595: a 4-byte access of the 32-bit register at an offset; an offset without one is left alone. -/
def write4 (s : State) (b inst off v : Nat) : State :=
  match regAt b inst off with
  | some (r, _) => if r.words = 1 then writeReg s b inst off (v % 2 ^ 32) else s
  | none => s

/-- A write of 4 or 8 bytes; answers the status of R582. -/
def writeAt (s : State) (addr n v : Nat) : State × Nat :=
  if addr < 0xF000000000 ∨ 0xF100000000 ≤ addr then (s, 2)
  else if addr % n ≠ 0 then (s, 3)
  else match regPage addr with
    | none => (s, 2)
    | some (b, inst, off) =>
      if blkAbsent s b inst then (s, 0)
      else if isolated s (pageDomain b inst) then (s, 1)
      else
        let two := match regAt b inst off with | some (r, _) => r.words == 2 | none => false
        if two then (if n = 8 then (writeReg s b inst off (v % 2 ^ 64), 0) else (s, 3))
        else if n = 8 then (write4 (write4 s b inst off v) b inst (off + 4) (v / 2 ^ 32), 0)
        else (write4 s b inst off v, 0)

/-- R10: a read of a register clears its RC fields; the stale count of a domain starts again (R521), and RT_OLD.SEEN is set at once
while packets of the old edition are held (R380). -/
def readClear (s : State) (b inst off : Nat) : State :=
  match regAt b inst off with
  | none => s
  | some (r, i) =>
    let base := r.off + i * r.stride
    let k := regKey b inst base
    let v := r.fields.foldl (fun v f => if f.typ = .rc then putBits v f.lo f.len 0 else v) (regGet s k).toNat
    let s := regSet s k (BitVec.ofNat 64 v)
    if b = 1 ∧ 0xA00 ≤ base ∧ base < 0xBA0 then setDom s ((base - 0xA00) / 4) { getDom s ((base - 0xA00) / 4) with reported := 0 }
    else if b = 9 ∧ inst = 0 ∧ base = 0x54 then noteOld s
    else s

/-- A read of 4 or 8 bytes: the state after it, the status and the value. -/
def readAt (s : State) (addr n : Nat) : State × Nat × Nat :=
  if addr < 0xF000000000 ∨ 0xF100000000 ≤ addr then (s, 2, 0)
  else if addr % n ≠ 0 then (s, 3, 0)
  else match regPage addr with
    | none => (s, 2, 0)
    | some (b, inst, off) =>
      if blkAbsent s b inst then (s, 0, 0)
      else if isolated s (pageDomain b inst) ∧ 0x40 ≤ off then (s, 1, 0)
      else
        let lo := readWord s b inst off
        if n = 4 then (readClear s b inst off, 0, lo)
        else (readClear (readClear s b inst off) b inst (off + 4), 0, lo + 2 ^ 32 * readWord s b inst (off + 4))

/-- A page of the register region that a command names by block and instance. -/
def onPageOf (s : State) (b inst : Nat) (f : State → State) : State :=
  if 1 ≤ b ∧ b ≤ 16 ∧ inst < blkInstances b then onPage s b inst f else s

end Sys2Proof.Machine
end

