-- ==== Sys2Proof/Machine/Window.lean ====
section
/-! DEFINITION. PUT and GET by device physical address (R580, R590 to R592): HBM, tile stores, instruction memories, the catalogue and
the ash record. -/
namespace Sys2Proof.Machine

/-- What an address range of the windows reaches. -/
inductive Place
  | hbm
  | tile (p off : Nat)
  | imem (e : Eng) (off : Nat)
  | catalogue
  | ash
  | absent
  | nothing
  deriving DecidableEq, Repr

/-- R203, R590: the engine whose instruction memory holds an offset of a tile's 256 KiB window, with the offset in it. -/
def imemOf (p o n : Nat) : Option (Eng × Nat) :=
  let k : EngKind := match o / 0x10000 with | 0 => .mx | 1 => .vx | 2 => .dm | _ => .sy
  let e := Eng.tile (Fin.ofNat 72 p) k
  if o % 0x10000 + n ≤ 16 * imemSize e then some (e, o % 0x10000) else none

/-- R592: a tile that is FUSED or RETIRED. -/
def tileAbsent (s : State) (p : Nat) : Bool := ptileOf s p == 5 || ptileOf s p == 4

/-- R590: what `n` bytes at an address reach. -/
def placeOf (s : State) (a n : Nat) : Place :=
  if a + n ≤ 0x6000000000 then .hbm
  else if 0xF100000000 ≤ a ∧ a + n ≤ 0xF112000000 then
    let p := (a - 0xF100000000) / 0x400000
    if tileAbsent s p then .absent else .tile p ((a - 0xF100000000) % 0x400000)
  else if 0xF200000000 ≤ a ∧ a + n ≤ 0xF201200000 then
    let p := (a - 0xF200000000) / 0x40000
    match imemOf p ((a - 0xF200000000) % 0x40000) n with
    | some (e, o) => if tileAbsent s p then .absent else .imem e o
    | none => .nothing
  else if 0xF202000000 ≤ a ∧ a + n ≤ 0xF202040000 then
    let c := (a - 0xF202000000) / 0x10000
    let o := (a - 0xF202000000) % 0x10000
    if o + n ≤ 0x8000 then .imem (.ce (Fin.ofNat 4 c)) o else .nothing
  else if 0xF300000000 ≤ a ∧ a + n ≤ 0xF300100000 then .catalogue
  else if 0xF500000000 ≤ a ∧ a + n ≤ 0xF500800000 then .ash
  else .nothing

/-- R523, R524: the place is isolated. -/
def placeIsolated (s : State) (pl : Place) (a n : Nat) : Bool :=
  match pl with
  | .hbm => decide (a < hbmTop) && memReset s [(a, min n (hbmTop - a))]
  | .tile p _ => isolated s p
  | .imem e _ => isolated s (engDom e)
  | .catalogue => isolated s 103
  | _ => false

/-- The parts of a range of HBM that lie in one granule each. -/
def hbmParts (a n : Nat) : List (Nat × Nat) :=
  (List.range ((a + n + 65535) / 65536 - a / 65536)).map (fun i =>
    let g := a / 65536 + i
    let lo := max a (g * 65536)
    (lo, min (a + n) ((g + 1) * 65536) - lo))

/-- A write of HBM through the window: R273 above its top; R309 and R316 below it. -/
def hbmPut (s : State) (a : Nat) (bs : List PByte) : State :=
  let n := min bs.length (hbmTop - a)
  let s := if n < bs.length then rsvAccess s (a + n) (bs.length - n) else s
  if n = 0 then s
  else
    let segs := hbmParts a n
    segStore (segLines s segs true 0) segs (bs.take n)

/-- R322, R603: a window access of HBM waits at its slices. -/
def windowWaits (s : State) (a n : Nat) (wr : Bool) : Bool :=
  decide (a + n ≤ hbmTop) && (if wr then writeWaits s (hbmParts a n) else slicesWait s (hbmParts a n))

/-- R204: an instruction memory may be written. -/
def imemOpen (s : State) (e : Eng) : Bool :=
  let g := getEng s e
  g.st == .halted || g.st == .loaded || (g.st == .quiesced && g.restored)

/-- A write at an instruction memory's window. -/
def imemPut (s : State) (e : Eng) (a : Nat) (bs : List PByte) : State :=
  if imemOpen s e then writeBytes s a bs else setP s e P_PSTATE_IMEM_REJ 1

/-- A write of the catalogue's window, by edition. -/
def cataloguePut (s : State) (a : Nat) (bs : List PByte) : State :=
  let n := min bs.length (0x80000 - (a - 0xF300000000) % 0x80000)
  let s := catalogueWrite s a (bs.take n)
  if n < bs.length then catalogueWrite s (a + n) (bs.drop n) else s

/-- R580: an address that PUT and GET may name, and no 2 MiB boundary crossed. -/
def rangeStatus (s : State) (a n : Nat) : Nat :=
  if placeOf s a n = .nothing then 2
  else if a / 2 ^ 21 ≠ (a + n - 1) / 2 ^ 21 then 3
  else 0

/-- A PUT; answers its status. -/
def putAt (s : State) (a : Nat) (bs : List Byte) : State × Nat :=
  let n := bs.length
  let pl := placeOf s a n
  if rangeStatus s a n ≠ 0 then (s, rangeStatus s a n)
  else if pl = .hbm ∧ lendState s = 3 then (s, 5)
  else if placeIsolated s pl a n then (s, 1)
  else
    (match pl with
      | .hbm => hbmPut s a (good bs)
      | .tile p off => tileWrite s p off (good bs)
      | .imem e _ => imemPut s e a (good bs)
      | .catalogue => cataloguePut s a (good bs)
      | _ => s, 0)

/-- The bytes that a GET reads, with their poison. -/
def getBytes (s : State) (pl : Place) (a n : Nat) : List PByte :=
  match pl with
  | .absent => List.replicate n ⟨0, false⟩
  | .hbm => readBytes s a (min n (hbmTop - a)) ++ List.replicate (n - min n (hbmTop - a)) ⟨0, false⟩
  | _ => readBytes s a n

/-- A GET: the state after it, the status, the first poisoned offset and the bytes (R582). -/
def getAt (s : State) (a n : Nat) : State × Nat × Nat × List Byte :=
  let pl := placeOf s a n
  if rangeStatus s a n ≠ 0 then (s, rangeStatus s a n, 0, [])
  else if placeIsolated s pl a n then (s, 1, 0, [])
  else
    let bs := getBytes s pl a n
    let s := if pl = .hbm then
        (let k := min n (hbmTop - a)
         let s := if k < n then rsvAccess s (a + k) (n - k) else s
         if k = 0 then s else segLines s (hbmParts a k) false 0)
      else s
    match bs.findIdx? (·.bad) with
    | some i => (s, 6, i, goodOf bs)
    | none => (s, 0, 0, goodOf bs)

end Sys2Proof.Machine
end

