-- ==== Sys2Proof/Machine/Eboth.lean ====
section
/-! DEFINITION. The messages of the Eboth port (R579 to R584): how a request is taken, applied and answered. -/
namespace Sys2Proof.Machine

/-- R579: the MTYPE of a request's response; none for the two acknowledgements. -/
def answerType (mtype : Nat) : Option Nat :=
  match mtype with
  | 0x01 => some 0x41 | 0x04 => some 0x43 | 0x05 => some 0x44 | 0x06 => some 0x45
  | 0x09 => none | 0x0A => none
  | _ => some 0x42

/-- R579: the LEN and the body that a request type allows. -/
def lenOk (m : EbFrame) : Bool :=
  let n := m.len.toNat
  match m.mtype.toNat with
  | 0x01 => (n == 4 || n == 8) && m.body.isEmpty
  | 0x02 => (n == 4 || n == 8) && m.body.length == n
  | 0x03 => 1 ≤ n && n ≤ 16384 && m.body.length == n
  | 0x06 => n == 32 && m.body.length == 32
  | 0x07 => n ≤ 16384 && m.body.length == n
  | 0x08 => n ≤ 16384 && m.body.length == n
  | _ => n == 0 && m.body.isEmpty

/-- A message that the MGC handles, not the port's own hardware. -/
def viaMgc (mtype : Nat) : Bool := mtype == 5 || mtype == 6 || mtype == 7 || mtype == 8 || mtype == 9

/-! Responses (R582, R583). -/

/-- The response that a tag is remembered with. -/
def remembered (s : State) (tag : Nat) : Option EbMsg := (s.eb.tags.find? (fun t => t.1 == tag)).map (·.2)

/-- A response leaves; a BAD_REQUEST counts (R589). -/
def ebSend (s : State) (m : EbMsg) : State := ebOut (if m.status = 3 then addF s EB_ERR_BAD_REQ 0 1 else s) m

/-- Answer a request. -/
def ebAnswer (s : State) (m : EbFrame) (mtype status a b : Nat) (body : List Byte) : State :=
  let r : EbMsg := ⟨ebClass mtype, mtype, status, m.tag.toNat, a, b, body⟩
  ebSend (if mtype = 0x43 then s else remember s m.tag.toNat r) r

def wrAck (s : State) (m : EbFrame) (status : Nat) : State := ebAnswer s m 0x42 status m.a.toNat 0 []

/-! Taking a request. -/

/-- R580: an earlier request of the same class waits before this one; one that waits for the MGC holds up none but the MGC's. -/
def ebBefore (s : State) (m : EbFrame) : Bool :=
  (s.eb.reqs.takeWhile (fun r => r.msg != m)).any (fun r =>
    ebClass r.msg.mtype.toNat == ebClass m.mtype.toNat && !(isolated s 102 && viaMgc r.msg.mtype.toNat))

/-- The request leaves the receive buffer and its credits go back. -/
def ebTake (s : State) (m : EbFrame) : State :=
  if s.eb.reqs.any (fun r => r.msg == m) then
    modEb s (fun x => { x with
      reqs := dropFirst (fun r => r.msg == m) x.reqs
      ret := addCred x.ret (ebClass m.mtype.toNat) (ebCost m.body.length) })
  else s

/-- The GSC at a request's arrival. -/
def ebArrival (s : State) (m : EbFrame) : Nat := ((s.eb.reqs.find? (fun r => r.msg == m)).map (·.since)).getD s.gsc

/-- R525: whether the MGC is away and the message is one that it handles. -/
def mgcAway (s : State) (mtype : Nat) : Bool := isolated s 102 && viaMgc mtype

/-- R525, R582: a message for an MGC that resets is held, up to 16 of them; a 17th is refused where a status says so, and waits else. -/
def holdForMgc (s : State) (m : EbFrame) (mtype : Nat) : State :=
  if s.eb.mgcHeld.any (fun h => h.1.tag == m.tag && h.1.mtype == m.mtype && mtype != 9) then ebTake s m
  else if s.eb.mgcHeld.length < 16 then modEb (ebTake s m) (fun x => { x with mgcHeld := x.mgcHeld ++ [(m, ebArrival s m)] })
  else if mtype = 7 ∨ mtype = 8 then wrAck (ebTake s m) m 5
  else if mtype = 6 then ebAnswer (ebTake s m) m 0x45 4 0 0 []
  else s

/-- R579, R583: what every request meets before its own effect `f`, which is given the GSC at arrival: its turn, its form, the tag
memory, an MGC that resets. -/
def onRequest (s : State) (m : EbFrame) (mtype : Nat) (f : Nat → State → State) : State :=
  if m.mtype.toNat ≠ mtype ∨ ebBefore s m then s
  else if !lenOk m then wrAck (ebTake s m) m 3
  else match remembered s m.tag.toNat with
    | some r =>
      if mtype = 4 ∨ mtype = 9 ∨ mtype = 10 then (if mgcAway s mtype then holdForMgc s m mtype else f (ebArrival s m) (ebTake s m))
      else ebSend (ebTake s m) r
    | none => if mgcAway s mtype then holdForMgc s m mtype else f (ebArrival s m) (ebTake s m)

/-! The requests. -/

/-- REG_RD: R580, R595. -/
def regRead (s : State) (m : EbFrame) : State :=
  let n := m.len.toNat
  let (s, st, v) := readAt s m.a.toNat n
  ebAnswer s m 0x41 st m.a.toNat 0 (if st = 0 then bytesOf n v else [])

/-- REG_WR: R580, R595, R596. -/
def regWrite (s : State) (m : EbFrame) : State :=
  let (s, st) := writeAt s m.a.toNat m.len.toNat (ofBytes m.body)
  wrAck s m st

/-- PUT. -/
def putMsg (s : State) (m : EbFrame) : State :=
  let (s, st) := putAt s m.a.toNat m.body
  wrAck s m st

/-- GET: a byte count that R579 does not allow is a BAD_REQUEST. -/
def getMsg (s : State) (m : EbFrame) : State :=
  let n := bits m.b.toNat 0 15
  if n = 0 ∨ 16384 < n then ebAnswer s m 0x43 3 m.a.toNat 0 []
  else
    let (s, st, off, bs) := getAt s m.a.toNat n
    ebAnswer s m 0x43 st m.a.toNat off bs

/-- R433, R538: the lending state that a recall notice's answer carries; before K5 it is IDLE. -/
def recallState (s : State) : Nat := if stage s < 5 ∧ lendState s = 5 then 0 else lendState s

/-- RECALL: R584. -/
def recallMsg (s : State) (m : EbFrame) (at0 : Nat) : State :=
  let s := recallAt s at0 (bit m.a.toNat 0)
  ebAnswer s m 0x44 0 (recallState s) at0 []

/-- COLO_REQ: R549; BUSY for the 17th. A request that is repeated while it waits is covered by the answer to come. -/
def coloMsg (s : State) (m : EbFrame) : State :=
  if stage s < 2 then s
  else if s.eb.colo.any (fun x => x.1 == none && x.2.1 == m.tag.toNat) then s
  else match coloQueue s none m.tag.toNat (BitVec.ofNat 256 (ofBytes m.body)) with
    | (s, true) => s
    | (s, false) => ebAnswer s m 0x45 4 0 0 []

/-- SINK: R447. -/
def sinkMsg (s : State) (m : EbFrame) : State :=
  let (s, st) := sinkBytes s m.a.toNat m.body
  wrAck s m st

/-- R504, R514: why a test set is rejected: 1 digest, 2 signature, 3 stepping, 4 sequence; 0 when it is accepted. -/
def testsetFault (s : State) (b : List Byte) : Nat :=
  if BitVec.ofNat 256 (numAt b 24 32) ≠ Config.sm3 (b.drop 128) then 1
  else if !Config.testSigOk (b.take 120) then 2
  else if numAt b 12 4 ≠ 0xA1 then 3
  else if !s.testset.isEmpty ∧ numAt b 8 4 ≤ numAt s.testset 8 4 then 4
  else 0

/-- R504: a whole test set has come. -/
def testsetEnd (s : State) : State :=
  let b := s.testbuf
  let c := testsetFault s b
  let s := { s with testbuf := [] }
  if c = 0 then { s with testset := b } else raiseMgc s 0x0F04 c

/-- TESTSET: the bytes of a set in order; offset 0 begins another. -/
def testsetMsg (s : State) (m : EbFrame) : State :=
  let off := m.a.toNat
  let have0 := if off = 0 then [] else s.testbuf
  let b := have0 ++ m.body
  let total := if b.length < 128 then 128 else 128 + numAt b 20 4
  if off ≠ have0.length ∨ 2 ^ 22 < total ∨ total < b.length then wrAck s m 3
  else
    let s := { s with testbuf := b }
    wrAck (if 128 ≤ b.length ∧ b.length = total then testsetEnd s else s) m 0

/-- EVENT_ACK: R581. -/
def eventAckMsg (s : State) (m : EbFrame) : State :=
  let ev := s.eb.events.filter (fun e => m.a.toNat < e.1)
  modEb s (fun x => { x with
    events := ev, lostQueued := ev.any (fun e => match e.2 with | .fault r => r.code == 0x1103 | _ => false) })

/-- GRANULE_ACK: R318. -/
def granuleAckMsg (s : State) (m : EbFrame) : State := granuleAck s (bits m.a.toNat 0 19) (bits m.a.toNat 32 5)

/-- The effect of a request that the MGC handles. -/
def mgcRequest (s : State) (m : EbFrame) (at0 : Nat) : State :=
  match m.mtype.toNat with
  | 5 => recallMsg s m at0
  | 6 => coloMsg s m
  | 7 => sinkMsg s m
  | 8 => testsetMsg s m
  | 9 => eventAckMsg s m
  | _ => s

/-- R525: an MGC that returns in the step from `was` takes the messages that were held for it, and begins an interrupted image again. -/
def mgcReturn (was s : State) : State :=
  if (getDom was 102).phase ≠ 3 ∨ isolated s 102 then s
  else
    let held := s.eb.mgcHeld
    restartImage (held.foldl (fun s h => mgcRequest s h.1 h.2) (modEb s (fun x => { x with mgcHeld := [] })))

/-- EBOTH_REQUEST_TIMEOUT: R582. -/
def requestExpired (s : State) (tag : Nat) : State :=
  match s.eb.reqs.find? (fun r => r.msg.tag.toNat == tag && r.since + 10000000 ≤ s.gsc) with
  | some r =>
    (match answerType r.msg.mtype.toNat with
     | some t => ebAnswer (ebTake s r.msg) r.msg t 7 r.msg.a.toNat 0 []
     | none => s)
  | none => s

/-- R579: a request of a type that the table does not list is answered BAD_REQUEST. -/
def unknownType (mtype : Nat) : Bool := mtype == 0 || 0x0B ≤ mtype

/-- The unlisted requests of the receive buffer, each answered as it comes. -/
def ebAnswerUnknown (s : State) : State :=
  (s.eb.reqs.filter (fun r => unknownType r.msg.mtype.toNat)).foldl (fun s r => wrAck (ebTake s r.msg) r.msg 3) s

end Sys2Proof.Machine
end

