-- ==== Sys2Proof/Machine/EbothRows.lean ====
section
/-! DEFINITION. The meanings of the Eboth port's commands (chapter 21), one for each row. -/
namespace Sys2Proof.Machine

/-- EBOTH_FRAME_TRANSMIT (R578). -/
def execEbothFrameTransmit (s : State) : Out := .next (ebTransmit s)
/-- EBOTH_FRAME_RECEIVED (R577). -/
def execEbothFrameReceived (fr : EbFrame) (ucw : Bool) (s : State) : Out := .next (ebAnswerUnknown (ebReceive s fr ucw))
/-- EBOTH_HELLO (R585). -/
def execEbothHello (_device : DWord) (lack : BitVec 12) (credits : BitVec 64) (dt : Nat) (s : State) : Out :=
  .next (ebHello (advance s dt) lack.toNat credits.toNat)
/-- EBOTH_LOSS_OF_SIGNAL (R586). -/
def execEbothLossOfSignal (lane : Option (Fin 4)) (s : State) : Out := .next (ebLoss s (lane.map (·.val)))
/-- EBOTH_TRAIN_FAIL (R586). -/
def execEbothTrainFail (s : State) : Out := .next (ebTrainFail s)
/-- EB_RESET (R586). -/
def execEbReset (s : State) : Out := .next (onPage s 14 0 ebReset)
/-- EB_EN_WRITE (R589). -/
def execEbEnWrite (v : Bool) (s : State) : Out := .next (onPage s 14 0 (fun s => ebEnWrite s v))
/-- EBOTH_HOLD_EXPIRE (R586). -/
def execEbothHoldExpire (dt : Nat) (s : State) : Out := .next (ebHoldExpire (advance s dt))
/-- EBOTH_LOST_RELEASE (R587). -/
def execEbothLostRelease (dt : Nat) (s : State) : Out := .next (ebLostRelease (advance s dt))
/-- EBOTH_REQUEST_TIMEOUT (R582). -/
def execEbothRequestTimeout (tag : BitVec 16) (dt : Nat) (s : State) : Out := .next (requestExpired (advance s dt) tag.toNat)
/-- REG_RD (R580). -/
def execRegRd (m : EbFrame) (s : State) : Out := .next (onRequest s m 1 (fun _ s => regRead s m))
/-- REG_WR (R580). -/
def execRegWr (m : EbFrame) (s : State) : Out := .next (onRequest s m 2 (fun _ s => regWrite s m))
/-- PUT (R580). -/
def execPut (m : EbFrame) (s : State) : Out :=
  .next (if windowWaits s m.a.toNat m.body.length true then s else onRequest s m 3 (fun _ s => putMsg s m))
/-- GET (R580). -/
def execGet (m : EbFrame) (s : State) : Out :=
  .next (if windowWaits s m.a.toNat (bits m.b.toNat 0 15) false then s else onRequest s m 4 (fun _ s => getMsg s m))
/-- RECALL (R584). -/
def execRecall (m : EbFrame) (s : State) : Out := .next (onRequest s m 5 (fun t s => recallMsg s m t))
/-- COLO_REQ (R549). -/
def execColoReq (m : EbFrame) (s : State) : Out := .next (onRequest s m 6 (fun _ s => coloMsg s m))
/-- SINK (R447). -/
def execSink (m : EbFrame) (s : State) : Out := .next (onRequest s m 7 (fun _ s => sinkMsg s m))
/-- TESTSET (R504). -/
def execTestset (m : EbFrame) (s : State) : Out := .next (onRequest s m 8 (fun _ s => testsetMsg s m))
/-- EVENT_ACK (R581). -/
def execEventAck (m : EbFrame) (s : State) : Out := .next (onRequest s m 9 (fun _ s => eventAckMsg s m))
/-- GRANULE_ACK (R318). -/
def execGranuleAck (m : EbFrame) (s : State) : Out := .next (onRequest s m 10 (fun _ s => granuleAckMsg s m))

end Sys2Proof.Machine
end

