-- ==== Sys2Proof/Machine/EngineRows.lean ====
section
/-! DEFINITION. The meanings of the commands of engine programs, counters, waits, barriers and the step mark (chapters 06 and 07). -/
namespace Sys2Proof.Machine

/-- ENGINE_FETCH (R208). -/
def execEngineFetch (x : FetchIn) (s : State) : Out := .next (engineFetch s x.eng x.errs x.parity)

/-- LOAD (R213). -/
def execLoad (e : Eng) (s : State) : Out := .next (onEng s e (fun s => doLoad s e))

/-- START (R213). -/
def execStart (e : Eng) (s : State) : Out := .next (onEng s e (fun s => doStart s e))

/-- ARM (R213, R215). -/
def execArm (e : Eng) (s : State) : Out := .next (onEng s e (fun s => doArm s e))

/-- HALT (R213). -/
def execHalt (e : Eng) (s : State) : Out := .next (onEng s e (fun s => doHalt s e))

/-- QUIESCE (R213). -/
def execQuiesce (e : Eng) (s : State) : Out := .next (onEng s e (fun s => doQuiesce s e))

/-- RESUME (R213, R216, R262). -/
def execResume (e : Eng) (s : State) : Out := .next (onEng s e (fun s => doResume s e))

/-- MARK_EN_WRITE (R221). -/
def execMarkEnWrite (e : Eng) (v : Bool) (s : State) : Out := .next (onEng s e (fun s => doMarkEn s e v))

/-- P_G_WRITE (R237). -/
def execPGWrite (e : Eng) (n : Fin 32) (v : DWord) (s : State) : Out := .next (onEng s e (fun s => doGWrite s e n.val v))

/-- ENGINE_LAUNCH (R215, R21). -/
def execEngineLaunch (e : Eng) (dt : Nat) (s : State) : Out := .next (launch (advance s dt) e)

/-- ENGINE_QUIESCED (R213, R119, R152, R194, R411, R490): a tile's running check-value units finish first, and its armed ones are
disarmed once the tile has stopped. -/
def execEngineQuiesced (e : Eng) (s : State) : Out :=
  .next (match e with
    | .tile p _ =>
      if (List.range 2).any (fun u => 2 ≤ cvState s p.val u) then s
      else
        let t := quiesced s e
        if tileStopped t p.val ∧ (getEng t e).st ≠ (getEng s e).st then cvDisarmAll t p.val else t
    | .ce _ => quiesced s e)

/-- TILE_RAMP_STEP (R20). -/
def execTileRampStep (dt : Nat) (s : State) : Out := .next (rampStep (advance s dt))

/-- CT_NOP (R218): nothing beyond its flags. -/
def execCtNop (e : Eng) (s : State) : Out := .next (ctSimple s e 1 [(0, 80)] (fun s _ => s))

/-- CT_HALT (R218). -/
def execCtHalt (e : Eng) (s : State) : Out := .next (doCtHalt s e)

/-- CT_TRAP (R218). -/
def execCtTrap (e : Eng) (s : State) : Out := .next (doCtTrap s e)

/-- CT_MARK (R222 to R224). -/
def execCtMark (e : Eng) (s : State) : Out := .next (doCtMark s e)

/-- CT_LAUNCH (R218). -/
def execCtLaunch (e : Eng) (s : State) : Out := .next (doCtLaunch s e)

/-- CT_LI (R218). -/
def execCtLi (e : Eng) (s : State) : Out := .next (doCtLi s e)

/-- CT_ADDI (R218). -/
def execCtAddi (e : Eng) (s : State) : Out := .next (doCtAddi s e)

/-- CT_LD (R218, R219). -/
def execCtLd (e : Eng) (s : State) : Out := .next (doCtLd s e)

/-- CT_GSC (R218). -/
def execCtGsc (e : Eng) (s : State) : Out := .next (doCtGsc s e)

/-- CT_JMP (R218, R219). -/
def execCtJmp (e : Eng) (s : State) : Out := .next (doCtJmp s e)

/-- CT_BNZ (R218, R219). -/
def execCtBnz (e : Eng) (s : State) : Out := .next (doCtBnz s e)

/-- SY_WAIT (R245). -/
def execSyWait (e : Eng) (s : State) : Out := .next (doSyWait s e)

/-- SY_ADD (R241). -/
def execSyAdd (e : Eng) (s : State) : Out := .next (doSyAdd s e)

/-- SY_SUB (R244). -/
def execSySub (e : Eng) (s : State) : Out := .next (doSySub s e)

/-- SY_SIG (R248 to R250). -/
def execSySig (e : Eng) (s : State) : Out := .next (doSySig s e)

/-- SY_GET (R247). -/
def execSyGet (e : Eng) (s : State) : Out := .next (doSyGet s e)

/-- SY_BAR (R256). -/
def execSyBar (e : Eng) (s : State) : Out := .next (doSyBar s e)

/-- COUNTER_INCREMENT (R242, R243, R246). -/
def execCounterIncrement (p : Fin 72) (c : Fin 256) (n : Nat) (s : State) : Out := .next (incrementCtr s p.val c.val n)

/-- WAIT_TIMEOUT (R253, R264). -/
def execWaitTimeout (e : Eng) (dt : Nat) (s : State) : Out := .next (waitTimeout (advance s dt) e)

/-- WAIT_GRAPH_SNAPSHOT (R263 to R266). -/
def execWaitGraphSnapshot (s : State) : Out := .next (snapshot s)

/-- BARRIER_ARRIVAL (R256, R258). -/
def execBarrierArrival (e : Eng) (s : State) : Out := .next (barrierArrive s e)

/-- BARRIER_RELEASES_DELIVERED (R257). -/
def execBarrierReleasesDelivered (ctx : Fin 64) (s : State) : Out := .next (barrierDelivered s ctx.val)

/-- BA_CFG_WRITE (R259, R260). -/
def execBaCfgWrite (ctx : Fin 64) (reg : Fin 10) (v : Word) (s : State) : Out :=
  .next (onPage s 7 (1 + ctx.val) (fun s => writeBaCfg s ctx.val reg.val v))

/-- SY_CTR_WRITE (R259). -/
def execSyCtrWrite (p : Fin 72) (n : Fin 256) (v : Word) (s : State) : Out :=
  .next (onPage s 6 p.val (fun s => writeCtr s p.val n.val v.toNat))

/-- SY_SIG_TIMEOUT (R249). -/
def execSySigTimeout (e : Eng) (k : Nat) (dt : Nat) (s : State) : Out := .next (sigTimeout (advance s dt) e k)

end Sys2Proof.Machine
end

