-- ==== Sys2Proof/Machine/FlueRows.lean ====
section
/-! DEFINITION. The meanings of the flues' commands (chapter 10), one for each row. -/
namespace Sys2Proof.Machine

/-- FLUE_FRAME_TRANSMIT (R331, R334, R337). -/
def execFlueFrameTransmit (f : Fin 18) (s : State) : Out := .next (flueTransmit (answerNeighbour s f.val) f.val)
/-- FLUE_FRAME_RECEIVED (R333, R334, R338, R348). -/
def execFlueFrameReceived (f : Fin 18) (fr : FlFrame) (ucw : Bool) (corrected : Nat) (s : State) : Out :=
  .next (flueReceive s f.val fr ucw corrected)
/-- FLUE_LANE_TRAINED (R342). -/
def execFlueLaneTrained (f : Fin 18) (lanes : BitVec 9) (s : State) : Out := .next (laneTrained s f.val lanes)
/-- FLUE_FEC_LOCK (R342, R349). -/
def execFlueFecLock (f : Fin 18) (lanes : BitVec 9) (spare : Fin 9) (peerGen : BitVec 8) (s : State) : Out :=
  .next (fecLock s f.val lanes spare.val peerGen.toNat)
/-- FLUE_FRAME_LOCK (R342). -/
def execFlueFrameLock (f : Fin 18) (s : State) : Out := .next (frameLock s f.val)
/-- FLUE_DISCOVERY (R341, R342). -/
def execFlueDiscovery (f : Fin 18) (peer : FluePeer) (s : State) : Out := .next (discovery s f.val peer)
/-- FLUE_TRAIN_FAIL (R353). -/
def execFlueTrainFail (f : Fin 18) (s : State) : Out := .next (trainFail s f.val)
/-- FLUE_FRAME_LOCK_LOST (R351). -/
def execFlueFrameLockLost (f : Fin 18) (s : State) : Out := .next (frameLockLost s f.val)
/-- FL_RESET (R351, R353). -/
def execFlReset (f : Fin 18) (s : State) : Out := .next (onPage s 10 f.val (fun s => flReset s f.val))
/-- FL_EN_WRITE (R353). -/
def execFlEnWrite (f : Fin 18) (v : Bool) (s : State) : Out := .next (onPage s 10 f.val (fun s => flEnWrite s f.val v))
/-- FL_SELFTEST (R350). -/
def execFlSelftest (f : Fin 18) (s : State) : Out := .next (onPage s 10 f.val (fun s => selftest s f.val))
/-- FL_SELFTEST_COMPLETE (R350): `dt` GSC counts pass first. -/
def execFlSelftestComplete (f : Fin 18) (pass : Bool) (eyeV eyeH : BitVec 8) (dt : Nat) (s : State) : Out :=
  .next (selftestComplete (advance s dt) f.val pass eyeV.toNat eyeH.toNat)
/-- NEIGHBOUR_HELLO (R548). -/
def execNeighbourHello (f : Fin 18) (peer : FluePeer) (nonce : BitVec 256) (chainOk : Bool) (s : State) : Out :=
  .next (hello s f.val peer nonce chainOk)
/-- NEIGHBOUR_PROOF (R548, R342, R344, R425). -/
def execNeighbourProof (f : Fin 18) (sigOk : Bool) (s : State) : Out := .next (parentCheck (proof s f.val sigOk))
/-- PROOF_TIMEOUT (R548): `dt` GSC counts pass first. -/
def execProofTimeout (f : Fin 18) (dt : Nat) (s : State) : Out := .next (proofTimeout (advance s dt) f.val)
/-- LANE_ROTATION_START (R348): `dt` GSC counts pass first. -/
def execLaneRotationStart (f : Fin 18) (x : RotateIn) (s : State) : Out := .next (rotationStart (advance s x.dt) f.val x.same)
/-- LANE_SWAP (R348). -/
def execLaneSwap (f : Fin 18) (s : State) : Out := .next (laneSwap s f.val)
/-- LANE_RECAL_COMPLETE (R348, R350). -/
def execLaneRecalComplete (f : Fin 18) (eyeV eyeH : BitVec 8) (s : State) : Out :=
  .next (recalComplete s f.val eyeV.toNat eyeH.toNat)
/-- LANE_FAIL (R349, R351). -/
def execLaneFail (f : Fin 18) (lane : Fin 9) (ucw : Option Nat) (s : State) : Out := .next (laneFail s f.val lane.val ucw)
/-- LANE_REJOIN (R349). -/
def execLaneRejoin (f : Fin 18) (s : State) : Out := .next (laneRejoin s f.val)

end Sys2Proof.Machine
end

