-- ==== Sys2Proof/Machine/GscRows.lean ====
section
/-! DEFINITION. The meanings of the commands of machine time (chapter 13), one for each row. -/
namespace Sys2Proof.Machine

/-- GSC_EXCHANGE (R424): `dt` GSC counts pass first. -/
def execGscExchange (dt : Nat) (s : State) : Out := .next (gscExchange (advance s dt))
/-- GSC_TIME_REPLY (R424, R425): the parent's arrival count with its 8 fraction bits, its departure count, the fraction bits of the own
arrival count, the parent's state. -/
def execGscTimeReply (t2 : Nat) (f2 : BitVec 8) (t3 : Nat) (f4 : BitVec 8) (parent : Fin 4) (s : State) : Out :=
  .next (gscTimeReply s (256 * t2 + f2.toNat) (256 * t3) f4.toNat parent.val)
/-- GSC_HOLDOVER (R425, R427): `dt` GSC counts pass first. -/
def execGscHoldover (dt : Nat) (s : State) : Out := .next (gscHoldover (advance s dt))
/-- PPS_EDGE (R428): `dt` GSC counts pass first. -/
def execPpsEdge (dt : Nat) (s : State) : Out := .next (ppsEdge (advance s dt))
/-- PPS_LOST (R428): `dt` GSC counts pass first. -/
def execPpsLost (dt : Nat) (s : State) : Out := .next (ppsLost (advance s dt))
/-- CK_CFG_WRITE (R425, R429). -/
def execCkCfgWrite (v : Word) (s : State) : Out := .next (onPage s 13 0 (fun s => ckCfgWrite s v))

end Sys2Proof.Machine
end

