-- ==== Sys2Proof/Machine/KindleRows.lean ====
section
/-! DEFINITION. The meanings of the commands of power, kindling, firmware commits, measurement and neighbour colophons (chapters 19
and 23). -/
namespace Sys2Proof.Machine

/-- POWER_GOOD_RISE (R612). -/
def execPowerGoodRise (straps : BitVec 8) (rails : Fin 3) (s : State) : Out := .next (powerRise s straps rails.val)
/-- POWER_GOOD_FALL (R614). -/
def execPowerGoodFall (s : State) : Out := .next (powerLost s)
/-- RESET_N (R613). -/
def execResetN (lowUs : Nat) (s : State) : Out := .next (resetBall s lowUs)
/-- KINDLING_K0 (R537). -/
def execKindlingK0 (pll : Bool) (fused : List (Fin 72)) (small : Bool) (id : DWord) (digest : BitVec 256) (s : State) : Out :=
  .next (kindleK0 s pll (fused.map (·.val)) small id digest)
/-- KINDLING_K1 (R542). -/
def execKindlingK1 (a b : FwImage) (s : State) : Out := .next (kindleK1 s a b)
/-- KINDLING_K2 (R537). -/
def execKindlingK2 (images : List (FwImage × FwImage)) (bistFailed : List (Fin 72)) (untrained : List (Fin 6)) (s : State) : Out :=
  .next (kindleK2 s images (bistFailed.map (·.val)) (untrained.map (·.val)))
/-- KINDLING_K3 (R537). -/
def execKindlingK3 (s : State) : Out := .next (kindleK3 s)
/-- KINDLING_K4 (R537). -/
def execKindlingK4 (node : BitVec 16) (plan : List PlanSlot) (planHash : BitVec 256) (s : State) : Out :=
  .next (kindleK4 s node plan planHash)
/-- KINDLED (R537). -/
def execKindled (s : State) : Out := .next (kindled s)
/-- COMMIT (R543). -/
def execCommit (blk : BitVec 16) (s : State) : Out := .next (onPage s 1 0 (fun s => commitFw s blk.toNat))
/-- MR7_EXTEND (R545). -/
def execMr7Extend (s : State) : Out := .next (onPage s 1 0 mr7Go)
/-- MR7_EXTEND_COMPLETE (R545). -/
def execMr7ExtendComplete (s : State) : Out := .next (mr7Done s)
/-- NEIGHBOUR_COLOPHON_REQUEST (R549). -/
def execNeighbourColophonRequest (f : Fin 18) (nonce : BitVec 256) (s : State) : Out := .next (neighbourColophon s f.val nonce)

end Sys2Proof.Machine
end

