-- ==== Sys2Proof/Machine/LendRows.lean ====
section
/-! DEFINITION. The meanings of the lending commands and events (chapter 14). -/
namespace Sys2Proof.Machine

/-- SERVE (R432). -/
def execServe (s : State) : Out := .next (onPage s 1 0 serve)
/-- IDLE (R432). -/
def execIdle (s : State) : Out := .next (onPage s 1 0 idleCmd)
/-- LEND (R434). -/
def execLend (gen : BitVec 8) (s : State) : Out := .next (onPage s 1 0 (fun s => lendCmd s gen.toNat false))
/-- LEND_RESTORE (R447). -/
def execLendRestore (gen : BitVec 8) (s : State) : Out := .next (onPage s 1 0 (fun s => lendCmd s gen.toNat true))
/-- RECALL_COMMAND (R437). -/
def execRecallCommand (target : Bool) (s : State) : Out := .next (onPage s 1 0 (fun s => recallNotice s target))
/-- IMAGE (R440). -/
def execImage (s : State) : Out := .next (onPage s 1 0 imageCmd)
/-- RELEASE (R452). -/
def execRelease (target : Bool) (s : State) : Out := .next (onPage s 1 0 (fun s => releaseCmd s target))
/-- RESUME_JOB (R448). -/
def execResumeJob (s : State) : Out := .next (onPage s 1 0 resumeJob)
/-- MG_LEND_CFG_WRITE (R454). -/
def execMgLendCfgWrite (v : Word) (s : State) : Out := .next (onPage s 1 0 (fun s => lendCfg s v))
/-- TEARDOWN_DRAIN_END (R435). -/
def execTeardownDrainEnd (s : State) : Out := .next (lendStep s drainEnd)
/-- DRAIN_LATE (R435). -/
def execDrainLate (dt : Nat) (s : State) : Out := .next (lendStep (advance s dt) drainLate)
/-- TEARDOWN_FENCE (R435). -/
def execTeardownFence (s : State) : Out := .next (lendStep s teardownFence)
/-- ALL_QUIESCED (R438). -/
def execAllQuiesced (s : State) : Out := .next (lendStep s allQuiescedEv)
/-- QUIESCE_DEADLINE (R438). -/
def execQuiesceDeadline (dt : Nat) (s : State) : Out := .next (lendStep (advance s dt) quiesceDeadline)
/-- RECALL_IMAGE_COMPLETE (R443). -/
def execRecallImageComplete (s : State) : Out := .next (lendStep s imageComplete)
/-- RECALL_CUTOFF (R440). -/
def execRecallCutoff (dt : Nat) (s : State) : Out := .next (lendStep (advance s dt) recallCutoff)
/-- RECALL_RISK_CHECK (R441). -/
def execRecallRiskCheck (dt : Nat) (s : State) : Out := .next (lendStep (advance s dt) riskCheck)
/-- ZEROISATION_COMPLETE (R451). -/
def execZeroisationComplete (s : State) : Out := .next (lendStep s zeroised)

end Sys2Proof.Machine
end

