-- ==== Sys2Proof/Machine/MemoryRows.lean ====
section
/-! DEFINITION. The meanings of the commands of the hint cache, the memory controllers and the folio unit (chapters 08 and 09). -/
namespace Sys2Proof.Machine

/-- HC_ACCESS (R272, R283 to R286). -/
def execHcAccess (addr : BitVec 40) (wr : Bool) (hint : Fin 4) (x : AccessIn) (s : State) : Out :=
  .next (hcAccess s addr.toNat wr hint.val x.errs x.odecc x.owned)

/-- HC_FLUSH_WB (R287). -/
def execHcFlushWb (s' : Fin 6) (s : State) : Out := .next (onPage s 12 s'.val (fun s => hcFlushWb s s'.val))

/-- HC_FLUSH_INV (R287). -/
def execHcFlushInv (s' : Fin 6) (s : State) : Out := .next (onPage s 12 s'.val (fun s => hcFlushInv s s'.val))

/-- HC_FLUSH_DONE (R287). -/
def execHcFlushDone (s' : Fin 6) (s : State) : Out := .next (hcFlushDone s s'.val)

/-- HC_SWEEP (R282). -/
def execHcSweep (s' : Fin 6) (errs : List LineErr) (s : State) : Out := .next (hcSweep s s'.val errs)

/-- MC_SWEEP_LINE (R272, R279, R280, R282). -/
def execMcSweepLine (s' : Fin 6) (x : SweepIn) (s : State) : Out :=
  .next (mcSweepLine (advance s x.dt) s'.val x.errs x.odecc)

/-- MC_RETIRE_CMD (R279, R280, R296). -/
def execMcRetireCmd (s' : Fin 6) (pc : Fin 64) (s : State) : Out :=
  .next (onPage s 11 s'.val (fun s => retireCmd s s'.val pc.val))

/-- RETIREMENT_MIGRATION_COMPLETE (R278). -/
def execRetirementMigrationComplete (x : MigrateIn) (s : State) : Out :=
  .next (migrationDone s x.stack.val x.upto x.errs)

/-- FT_LOAD (R300, R301). -/
def execFtLoad (s : State) : Out := .next (onPage s 11 6 ftLoad)

/-- FT_LOAD_COMPLETE (R300, R301, R304). -/
def execFtLoadComplete (s : State) : Out := .next (ftLoadComplete s)

/-- FT_UPDATE (R301). -/
def execFtUpdate (s : State) : Out := .next (onPage s 11 6 ftUpdate)

/-- FT_UPDATE_COMPLETE (R301, R304). -/
def execFtUpdateComplete (s : State) : Out := .next (ftUpdateComplete s)

/-- MC_RESTORE (R314). -/
def execMcRestore (vpn : BitVec 19) (s : State) : Out := .next (onPage s 11 6 (fun s => mcRestore s vpn.toNat))

/-- RESTORE_RESEND (R315). -/
def execRestoreResend (pfn dt : Nat) (s : State) : Out := .next (restoreResend (advance s dt) pfn)

/-- HOLD_REPLY_SEND (R310). -/
def execHoldReplySend (dt : Nat) (s : State) : Out := .next (holdReplies (advance s dt))

/-- HOLD_TIMEOUT (R311). -/
def execHoldTimeout (k dt : Nat) (s : State) : Out := .next (holdTimeout (advance s dt) k)

/-- TRICKLE_GRANULE_SEND (R317, R318). -/
def execTrickleGranuleSend (s : State) : Out := .next (trickleStep s)

/-- MIRROR_FENCE_TIMEOUT (R324). -/
def execMirrorFenceTimeout (dt : Nat) (s : State) : Out := .next (mirrorFenceTimeout (advance s dt))

/-- MIRROR_RESYNC (R324). -/
def execMirrorResync (s : State) : Out := .next (onPage s 11 6 mirrorResync)

/-- MIRROR_RESYNC_COMPLETE (R324). -/
def execMirrorResyncComplete (s : State) : Out := .next (mirrorResyncDone s)

end Sys2Proof.Machine
end

