-- ==== Sys2Proof/Machine/MoverRows.lean ====
section
/-! DEFINITION. The meanings of the commands of the data mover and the tile store (chapter 04). -/
namespace Sys2Proof.Machine

/-- DM_COPY (R131 to R135, R155). -/
def execDmCopy (p : Fin 72) (s : State) : Out := .next (doDmCopy s p.val)

/-- DM_FILL (R155). -/
def execDmFill (p : Fin 72) (s : State) : Out := .next (doDmFill s p.val)

/-- DM_WARM (R155). -/
def execDmWarm (p : Fin 72) (s : State) : Out := .next (doDmWarm s p.val)

/-- DM_GATHER (R155, R290). -/
def execDmGather (p : Fin 72) (s : State) : Out := .next (doDmGather s p.val)

/-- DM_ATOMADD (R155, R292). -/
def execDmAtomadd (p : Fin 72) (s : State) : Out := .next (doDmAtomadd s p.val)

/-- DM_PIECE_ISSUE (R133, R135, R146, R149). -/
def execDmPieceIssue (p : Fin 72) (tid : BitVec 8) (s : State) : Out := .next (issuePiece s p.val tid.toNat)

/-- DM_PIECE_COMPLETE (R140 to R142). -/
def execDmPieceComplete (p : Fin 72) (tid : BitVec 8) (pseq : BitVec 16) (s : State) : Out :=
  .next (completePiece s p.val tid.toNat pseq.toNat)

/-- DM_DESCRIPTOR_RESUME (R146). -/
def execDmDescriptorResume (p : Fin 72) (tid : BitVec 8) (s : State) : Out := .next (resumeDesc s p.val tid.toNat)

/-- DM_READ_AHEAD (R143 to R145). -/
def execDmReadAhead (p : Fin 72) (k : Nat) (s : State) : Out := .next (readAhead s p.val k)

/-- DM_STALL_TIMEOUT (R148). -/
def execDmStallTimeout (p : Fin 72) (tid : BitVec 8) (dt : Nat) (s : State) : Out := .next (stallTimeout (advance s dt) p.val tid.toNat)

/-- DM_REQUEST_TIMEOUT (R149, R311). -/
def execDmRequestTimeout (p : Fin 72) (tid : BitVec 8) (pseq : BitVec 16) (dt : Nat) (s : State) : Out :=
  .next (requestTimeout (advance s dt) p.val tid.toNat pseq.toNat)

/-- DM_DESCRIPTOR_TIMEOUT (R149, R517). -/
def execDmDescriptorTimeout (p : Fin 72) (tid : BitVec 8) (dt : Nat) (s : State) : Out := .next (descTimeout (advance s dt) p.val tid.toNat)

/-- DM_XFER_BUSY_RETRY (R375). -/
def execDmXferBusyRetry (p : Fin 72) (tid : BitVec 8) (pseq : BitVec 16) (dt : Nat) (s : State) : Out :=
  .next (xferRetry (advance s dt) p.val tid.toNat pseq.toNat)

/-- DM_RECALL_HELD_RESEND (R439). -/
def execDmRecallHeldResend (p : Fin 72) (tid : BitVec 8) (pseq : BitVec 16) (dt : Nat) (s : State) : Out :=
  .next (heldResend (advance s dt) p.val tid.toNat pseq.toNat)

/-- TILE_SWEEP_READ (R128, R474, R498). -/
def execTileSweepRead (p : Fin 72) (bank : Fin 32) (line : Fin 2048) (errs : List LineErr) (s : State) : Out :=
  .next (if flagF s TL_SWEEP_EN p.val ∧ !isolated s p.val then sweptTile (tileSweep s p.val bank.val line.val errs) p.val errs else s)

end Sys2Proof.Machine
end

