-- ==== Sys2Proof/Machine/MxRows.lean ====
section
/-! DEFINITION. The meanings of the commands of the matrix engine (chapter 03). -/
namespace Sys2Proof.Machine

/-- MX_FILL (R83, R84, R109). -/
def execMxFill (p : Fin 72) (s : State) : Out := .next (mxFill s p.val)

/-- MX_LDS (R62, R86). -/
def execMxLds (p : Fin 72) (s : State) : Out := .next (doLds s p.val)

/-- MX_LDSP (R86, R112). -/
def execMxLdsp (p : Fin 72) (s : State) : Out := .next (doLdsp s p.val)

/-- MX_MM (R63, R85, R91 to R103). -/
def execMxMm (p : Fin 72) (s : State) : Out := .next (doMm s p.val)

/-- MX_MMP (R77 to R81, R85). -/
def execMxMmp (p : Fin 72) (s : State) : Out := .next (doMmp s p.val)

/-- MX_ST (R87, R101, R113). -/
def execMxSt (p : Fin 72) (s : State) : Out := .next (doSt s p.val)

/-- MX_LDACC (R87, R108). -/
def execMxLdacc (p : Fin 72) (s : State) : Out := .next (doLdacc s p.val)

/-- MX_DRAIN (R87, R114). -/
def execMxDrain (p : Fin 72) (s : State) : Out := .next (doDrain s p.val)

/-- MX_FLAG (R106, R113, R116). -/
def execMxFlag (p : Fin 72) (s : State) : Out := .next (doFlag s p.val)

/-- MX_LOAD_COMPLETE (R105). -/
def execMxLoadComplete (p : Fin 72) (k : Nat) (s : State) : Out := .next (loadComplete s p.val k)

/-- MX_INSTR_COMPLETE (R100, R103, R107). -/
def execMxInstrComplete (p : Fin 72) (k : Nat) (s : State) : Out := .next (instrComplete s p.val k)

/-- MX_ISSUE_TIMEOUT (R89). -/
def execMxIssueTimeout (p : Fin 72) (dt : Nat) (s : State) : Out := .next (issueTimeout (advance s dt) p.val)

end Sys2Proof.Machine
end

