-- ==== Sys2Proof/Machine/Pins.lean ====
section
/-! DEFINITION. SMBus and JTAG (R615, R616). -/
namespace Sys2Proof.Machine

/-- The SMBus target answers a command: not while POWER_GOOD is low, and only STATUS in the stop of R542. -/
def smbOpen (s : State) (cmd : Nat) : Bool := s.pins.powerGood && (s.pins.stop != 4 || cmd == 1)

/-- A block read: its bytes, or a NACK. The address of a REG_RD is the one written just before. -/
def smbAnswer (s : State) (out : Option (List Byte)) : State := { s with pins := { s.pins with smbOut := out, smbAddr := none } }

/-- SMB_ADDRESS_WRITE. -/
def smbAddress (s : State) (a : BitVec 40) : State :=
  if smbOpen s 4 then { s with pins := { s.pins with smbAddr := some a } } else s

/-- SMB_STATUS. -/
def smbStatus (s : State) : State :=
  smbAnswer s (if smbOpen s 1 then
    some ([stage s, s.pins.stop, lendState s, getF s PW_THERM_ALERT 0 + 2 * b2n (anyPending s) + 4 * getF s PW_THERM_CRIT 0].map (BitVec.ofNat 8))
    else none)

/-- SMB_TEMP: the die temperature as 12 bits. -/
def smbTemp (s : State) : State := smbAnswer s (if smbOpen s 2 then some (bytesOf 2 (wrapInt 12 (dieTemp s).1)) else none)

/-- SMB_POWER. -/
def smbPower (s : State) : State := smbAnswer s (if smbOpen s 3 then some (bytesOf 4 (totalPower s)) else none)

/-- SMB_REG_RD: a 4-byte read; a NACK where the port's status would not be OK. -/
def smbRegRead (s : State) : State :=
  match s.pins.smbAddr with
  | some a =>
    if !smbOpen s 4 || decide (stage s < 2) then smbAnswer s none
    else
      let (s, st, v) := readAt s a.toNat 4
      smbAnswer s (if st = 0 then some (bytesOf 4 v) else none)
  | none => smbAnswer s none

/-- The JTAG instruction register. -/
def setIr (s : State) (v : BitVec 8) : State := { s with pins := { s.pins with ir := v } }

/-- R616: RESET_N or POWER_GOOD is low. -/
def pinsHeld (s : State) : Bool := !s.pins.powerGood || decide (s.gsc < s.pins.lowTill)

/-- EXTEST, CLAMP and HIGHZ: at any other time they act as BYPASS. -/
def boundary (s : State) (op : BitVec 8) : State := setIr s (if pinsHeld s then op else 0xFF)

/-- IDCODE. -/
def jtagId (s : State) : State :=
  let s := setIr s 0x01
  { s with pins := { s.pins with dr := if s.pins.small then 0x107565A7 else 0x107645A7 } }

/-- SAMPLE/PRELOAD: the boundary scan is loaded. -/
def preload (s : State) (cells : Nat) : State :=
  let s := setIr s 0x02
  { s with pins := { s.pins with cells := cells } }

end Sys2Proof.Machine
end

