-- ==== Sys2Proof/Machine/PinRows.lean ====
section
/-! DEFINITION. The meanings of the commands on the SMBus and the JTAG port (chapter 23). -/
namespace Sys2Proof.Machine

/-- SMB_ADDRESS_WRITE (R615). -/
def execSmbAddressWrite (addr : BitVec 40) (s : State) : Out := .next (smbAddress s addr)
/-- SMB_STATUS (R615). -/
def execSmbStatus (s : State) : Out := .next (smbStatus s)
/-- SMB_TEMP (R615). -/
def execSmbTemp (s : State) : Out := .next (smbTemp s)
/-- SMB_POWER (R615). -/
def execSmbPower (s : State) : Out := .next (smbPower s)
/-- SMB_REG_RD (R615). -/
def execSmbRegRd (s : State) : Out := .next (smbRegRead s)
/-- IDCODE (R616). -/
def execIdcode (s : State) : Out := .next (jtagId s)
/-- SAMPLE_PRELOAD (R616). -/
def execSamplePreload (cells : Nat) (s : State) : Out := .next (preload s cells)
/-- EXTEST (R616). -/
def execExtest (s : State) : Out := .next (boundary s 0x03)
/-- CLAMP (R616). -/
def execClamp (s : State) : Out := .next (boundary s 0x04)
/-- HIGHZ (R616). -/
def execHighz (s : State) : Out := .next (boundary s 0x05)
/-- BYPASS (R616). -/
def execBypass (s : State) : Out := .next (setIr s 0xFF)
/-- JTAG_RESET (R611). -/
def execJtagReset (s : State) : Out := .next (setIr s 0x01)

end Sys2Proof.Machine
end

