-- ==== Sys2Proof/Machine/RegisterRows.lean ====
section
/-! DEFINITION. The meanings of the register commands that every page shares (chapters 0 and 22). -/
namespace Sys2Proof.Machine

/-- REGISTER_WRITE (R10). -/
def execRegisterWrite (addr : BitVec 40) (wide : Bool) (v : DWord) (s : State) : Out :=
  .next (writeAt s addr.toNat (if wide then 8 else 4) v.toNat).1
/-- REGISTER_READ_CLEAR (R10). -/
def execRegisterReadClear (addr : BitVec 40) (wide : Bool) (s : State) : Out := .next (readAt s addr.toNat (if wide then 8 else 4)).1
/-- ERR_LOG_CLEAR (R601). -/
def execErrLogClear (blk : Fin 17) (inst : Fin 72) (s : State) : Out :=
  .next (onPageOf s blk.val inst.val (fun s => errLogClear s blk.val inst.val))
/-- IRQ_FORCE (R601). -/
def execIrqForce (blk : Fin 17) (inst : Fin 72) (v : Word) (s : State) : Out :=
  .next (onPageOf s blk.val inst.val (fun s => irqForce s blk.val inst.val v.toNat))
/-- CTRL_DRAIN (R603). -/
def execCtrlDrain (blk : Fin 17) (inst : Fin 72) (on : Bool) (s : State) : Out :=
  .next (onPageOf s blk.val inst.val (fun s => ctrlDrain s blk.val inst.val on))
/-- CTRL_RESET_REQ (R603). -/
def execCtrlResetReq (blk : Fin 17) (inst : Fin 72) (s : State) : Out :=
  .next (onPageOf s blk.val inst.val (fun s => ctrlReset s blk.val inst.val))

end Sys2Proof.Machine
end

