-- ==== Sys2Proof/Machine/ResetRows.lean ====
section
/-! DEFINITION. The meanings of the commands of resets, collections, the watchdog and live updates (chapter 18). -/
namespace Sys2Proof.Machine

/-- DOMAIN_RESET_REQUEST (R519). -/
def execDomainResetRequest (d : BitVec 7) (collect : Bool) (s : State) : Out :=
  .next (onPage s 1 0 (fun s => requestReset s d.toNat collect 1))
/-- RESET_HOLD_EXPIRE (R519). -/
def execResetHoldExpire (d : Fin 104) (dt : Nat) (s : State) : Out := .next (resetHoldExpire (advance s dt) d.val)
/-- DEBUG_RING_TIMEOUT (R526). -/
def execDebugRingTimeout (d : Fin 104) (dt : Nat) (s : State) : Out := .next (debugTimeout (advance s dt) d.val)
/-- COLLECTION_COMPLETE (R527). -/
def execCollectionComplete (x : CollectIn) (s : State) : Out := .next (collectionComplete s x.dom.val x.errs)
/-- DOMAIN_READY (R523). -/
def execDomainReady (d : Fin 104) (bistOk : Bool) (s : State) : Out := .next (mgcReturn s (domainReady s d.val bistOk))
/-- WDOG_KICK (R520). -/
def execWdogKick (s : State) : Out := .next (onPage s 1 0 wdogKick)
/-- MGC_WATCHDOG (R520). -/
def execMgcWatchdog (dt : Nat) (s : State) : Out := .next (mgcWatchdog (advance s dt))
/-- STALE_GENERATION (R521). -/
def execStaleGeneration (d : Fin 104) (dt : Nat) (s : State) : Out := .next (staleGeneration (advance s dt) d.val)
/-- UPDATE_STAGE (R533). -/
def execUpdateStage (blk : BitVec 16) (img : FwImage) (s : State) : Out :=
  .next (onPage s 1 0 (fun s => updateStage s blk.toNat img))
/-- UPDATE_STAGE_COMPLETE (R533). -/
def execUpdateStageComplete (s : State) : Out := .next (updateStaged s)
/-- UPDATE_APPLY (R534). -/
def execUpdateApply (blk : BitVec 16) (inst : BitVec 8) (s : State) : Out :=
  .next (onPage s 1 0 (fun s => updateApply s blk.toNat inst.toNat))
/-- UPDATE_DROP (R533). -/
def execUpdateDrop (s : State) : Out := .next (onPage s 1 0 updateDrop)
/-- UPDATE_DONE (R534). -/
def execUpdateDone (s : State) : Out := .next (mgcReturn s (updateDone s))

end Sys2Proof.Machine
end

