-- ==== Sys2Proof/Machine/RouterRows.lean ====
section
/-! DEFINITION. The meanings of the commands of the router, of packets at their endpoints and of catalogue editions (chapter 11), one
for each row. -/
namespace Sys2Proof.Machine

/-- ROUTER_PACKET_ARRIVAL (R360, R364, R365, R370, R376, R377, R462). -/
def execRouterPacketArrival (pkt : Packet) (x : ArriveIn) (s : State) : Out :=
  .next (routerArrive s pkt (x.via.map (·.val)) x.lost)
/-- ROUTER_PACKET_FORWARD (R365 to R367). -/
def execRouterPacketForward (k : Nat) (s : State) : Out := .next (routerForward s k)
/-- ROUTER_STALL_DROP (R381): `dt` GSC counts pass first. -/
def execRouterStallDrop (k dt : Nat) (s : State) : Out := .next (stallDrop (advance s dt) k)
/-- WRITE (R359, R374, R375, R308). -/
def execWrite (pkt : Packet) (s : State) : Out := .next (atEndpoint s pkt 0 (fun s => writePkt s pkt))
/-- READ_REQ (R627). -/
def execReadReq (pkt : Packet) (s : State) : Out := .next (atEndpoint s pkt 1 (fun s => readReqPkt s pkt))
/-- NARROW (R290, R291). -/
def execNarrow (pkt : Packet) (s : State) : Out := .next (atEndpoint s pkt 2 (fun s => narrowPkt s pkt))
/-- ATOMIC (R292, R293). -/
def execAtomic (pkt : Packet) (s : State) : Out := .next (atEndpoint s pkt 3 (fun s => atomicPkt s pkt))
/-- SIGNAL (R242, R249). -/
def execSignal (pkt : Packet) (s : State) : Out := .next (atEndpoint s pkt 4 (fun s => signalPkt s pkt))
/-- MIRROR (R323, R509). -/
def execMirror (pkt : Packet) (s : State) : Out := .next (atEndpoint s pkt 5 (fun s => mirrorPkt s pkt))
/-- ACK (R359, R140, R249, R322, R509). -/
def execAck (pkt : Packet) (s : State) : Out := .next (replyPkt s pkt 7)
/-- DATA (R359, R140). -/
def execData (pkt : Packet) (s : State) : Out := .next (replyPkt s pkt 8)
/-- NACK (R359, R149, R375, R439, R249, R323, R409). -/
def execNack (pkt : Packet) (s : State) : Out := .next (replyPkt s pkt 9)
/-- HOLD (R310, R311). -/
def execHold (pkt : Packet) (s : State) : Out := .next (replyPkt s pkt 10)
/-- XFER_ENTRY_EXPIRE (R375): `dt` GSC counts pass first. -/
def execXferEntryExpire (p : Fin 72) (k dt : Nat) (s : State) : Out := .next (xferExpire (advance s dt) p.val k)
/-- RT_EDITION_ARM (R379, R466). -/
def execRtEditionArm (s : State) : Out := .next (onPage s 9 0 editionArm)
/-- EDITION_SWITCH (R345, R379, R544): `dt` GSC counts pass first. -/
def execEditionSwitch (x : SwitchIn) (s : State) : Out := .next (switchEdition (advance s x.dt) x.plan)
/-- RT_EDITION_AT_WRITE (R379). -/
def execRtEditionAtWrite (v : DWord) (s : State) : Out := .next (onPage s 9 0 (fun s => editionAtWrite s v))
/-- RT_EDN_CFG_WRITE (R378). -/
def execRtEdnCfgWrite (e : Fin 2) (v : Word) (s : State) : Out := .next (onPage s 9 0 (fun s => ednCfgWrite s e.val v))
/-- RT_NODE_WRITE (R505). -/
def execRtNodeWrite (v : Word) (s : State) : Out := .next (onPage s 9 0 (fun s => nodeWrite s v))
/-- CATALOGUE_LIVE (R378, R344). -/
def execCatalogueLive (s : State) : Out := .next (catalogueLive s)

end Sys2Proof.Machine
end

