-- ==== Sys2Proof/Machine/SpareRows.lean ====
section
/-! DEFINITION. The meanings of the commands of sparing, tests and mirror pushes (chapter 17), digests and classification
(chapter 15) and the step mark's completion (R22), one for each row. -/
namespace Sys2Proof.Machine

/-- STEP_MARK_COMPLETE (R22, R223, R317, R469, R507). -/
def execStepMarkComplete (s : State) : Out := .next (markComplete s)
/-- DIGEST_TILE_DONE (R469, R471, R472). -/
def execDigestTileDone (p : Fin 72) (s : State) : Out := .next (digestTile s p.val)
/-- DIGEST_MESSAGE (R472). -/
def execDigestMessage (node : BitVec 16) (mark : Word) (chip : DWord) (tiles : List DWord) (s : State) : Out :=
  .next (digestMessage s node.toNat mark.toNat chip tiles)
/-- DIGEST_LATE (R472): `dt` GSC counts pass first. -/
def execDigestLate (dt : Nat) (s : State) : Out := .next (digestLate (advance s dt))
/-- TL_DIGEST_RGN_WRITE (R468). -/
def execTlDigestRgnWrite (p : Fin 72) (i : Fin 2) (v : DWord) (s : State) : Out :=
  .next (onPage s 2 p.val (fun s => digestRegion s p.val i.val v))
/-- CLASS_ASK (R476). -/
def execClassAsk (lt : Fin 64) (s : State) : Out := .next (onPage s 1 0 (fun s => classCommand s 0 lt.val))
/-- CLASS_RECORD_TRANSIENT (R476). -/
def execClassRecordTransient (lt : Fin 64) (s : State) : Out := .next (onPage s 1 0 (fun s => classCommand s 1 lt.val))
/-- CLASS_RECORD_PERMANENT (R476). -/
def execClassRecordPermanent (lt : Fin 64) (s : State) : Out := .next (onPage s 1 0 (fun s => classCommand s 2 lt.val))
/-- CLASS_RECORD_SPARE_PERMANENT (R476). -/
def execClassRecordSparePermanent (lt : Fin 64) (s : State) : Out := .next (onPage s 1 0 (fun s => classCommand s 3 lt.val))
/-- CLASS_COMMAND_COMPLETE (R475, R476, R498). -/
def execClassCommandComplete (s : State) : Out := .next (classComplete s)
/-- MIGRATE (R494, R495). -/
def execMigrate (lt : Fin 64) (phys : BitVec 7) (s : State) : Out :=
  .next (onPage s 1 0 (fun s => spareCmd s lt.val phys.toNat false))
/-- REPLACE (R497). -/
def execReplace (lt : Fin 64) (phys : BitVec 7) (s : State) : Out :=
  .next (onPage s 1 0 (fun s => spareCmd s lt.val phys.toNat true))
/-- TILE_MIGRATION_COMPLETE (R494, R496, R497). -/
def execTileMigrationComplete (s : State) : Out := .next (updFreed (moveComplete s))
/-- TILE_ROTATION (R501, R503): `dt` GSC counts pass first. -/
def execTileRotation (dt : Nat) (s : State) : Out := .next (tileRotation (advance s dt))
/-- TILE_TEST_COMPLETE (R501, R502). -/
def execTileTestComplete (pass : Bool) (s : State) : Out := .next (tileTestComplete s pass)
/-- TEST_ROTATION (R503). -/
def execTestRotation (s : State) : Out := .next (onPage s 1 0 testRotation)
/-- TEST_BIST (R503). -/
def execTestBist (s : State) : Out := .next (onPage s 1 0 testBist)
/-- BIST_COMPLETE (R503). -/
def execBistComplete (failed : List (Fin 72)) (s : State) : Out := .next (bistComplete s (failed.map (·.val)))
/-- MIRROR_PUSH (R509, R510). -/
def execMirrorPush (node : BitVec 16) (s : State) : Out := .next (onPage s 1 0 (fun s => mirrorPush s node.toNat))
/-- MIRROR_FENCE_RECORD (R507). -/
def execMirrorFenceRecord (node : BitVec 16) (mark : Word) (s : State) : Out := .next (fenceRecord s node.toNat mark)

end Sys2Proof.Machine
end

