-- ==== Sys2Proof/Machine/TelemetryRows.lean ====
section
/-! DEFINITION. The meanings of the commands of statistics, power and ageing (chapter 19). -/
namespace Sys2Proof.Machine

/-- PERIOD_END (R555). -/
def execPeriodEnd (dt : Nat) (s : State) : Out := .next (periodBoundary (advance s dt))
/-- RAIL_SAMPLE (R561). -/
def execRailSample (samples : List (Nat × Nat)) (dt : Nat) (s : State) : Out := .next (railSample (advance s dt) samples)
/-- TEMPERATURE_SAMPLE (R563). -/
def execTemperatureSample (samples : List (BitVec 12)) (dt : Nat) (s : State) : Out := .next (temperatureSample (advance s dt) samples)
/-- PACING_LEVEL_STEP (R565). -/
def execPacingLevelStep (dt : Nat) (s : State) : Out := .next (pacingStep (advance s dt))
/-- PATH_DELAY_SAMPLE (R567). -/
def execPathDelaySample (slacks : List (List (BitVec 8))) (dt : Nat) (s : State) : Out := .next (pathDelay (advance s dt) slacks)
/-- AGEING_PREDICTION (R568). -/
def execAgeingPrediction (dt : Nat) (s : State) : Out := .next (ageing (advance s dt))

end Sys2Proof.Machine
end

