-- ==== Sys2Proof/Machine/VxRows.lean ====
section
/-! DEFINITION. The meanings of the commands of the vector engine (chapter 05). -/
namespace Sys2Proof.Machine

/-- VX_LD (R191). -/
def execVxLd (p : Fin 72) (s : State) : Out := .next (doVxLd s p.val)

/-- VX_ST (R191, R34, R177). -/
def execVxSt (p : Fin 72) (s : State) : Out := .next (doVxSt s p.val)

/-- VX_LDA (R191). -/
def execVxLda (p : Fin 72) (s : State) : Out := .next (doVxLda s p.val)

/-- VX_STA (R161). -/
def execVxSta (p : Fin 72) (s : State) : Out := .next (doVxSta s p.val)

/-- VX_FOP (R162). -/
def execVxFop (p : Fin 72) (s : State) : Out := .next (doVxFop s p.val)

/-- VX_IOP (R163). -/
def execVxIop (p : Fin 72) (s : State) : Out := .next (doVxIop s p.val)

/-- VX_CMP (R164). -/
def execVxCmp (p : Fin 72) (s : State) : Out := .next (doVxCmp s p.val)

/-- VX_POP (R191). -/
def execVxPop (p : Fin 72) (s : State) : Out := .next (doVxPop s p.val)

/-- VX_SFU (R165, R166). -/
def execVxSfu (p : Fin 72) (s : State) : Out := .next (doVxSfu s p.val)

/-- VX_RED (R167). -/
def execVxRed (p : Fin 72) (s : State) : Out := .next (doVxRed s p.val)

/-- VX_RMAX (R168, R170). -/
def execVxRmax (p : Fin 72) (s : State) : Out := .next (doVxRmax s p.val)

/-- VX_RSUM (R169, R170). -/
def execVxRsum (p : Fin 72) (s : State) : Out := .next (doVxRsum s p.val)

/-- VX_DROP (R178). -/
def execVxDrop (p : Fin 72) (s : State) : Out := .next (doVxDrop s p.val)

/-- VX_RNG (R179). -/
def execVxRng (p : Fin 72) (s : State) : Out := .next (doVxRng s p.val)

/-- VX_POS (R180). -/
def execVxPos (p : Fin 72) (s : State) : Out := .next (doVxPos s p.val)

/-- VX_CMASK (R181). -/
def execVxCmask (p : Fin 72) (s : State) : Out := .next (doVxCmask s p.val)

/-- VX_OPT (R182 to R185, R190). -/
def execVxOpt (p : Fin 72) (s : State) : Out := .next (doVxOpt s p.val)

/-- VX_INSTR_COMPLETE (R188). -/
def execVxInstrComplete (p : Fin 72) (k : Nat) (s : State) : Out := .next (vxComplete s p.val k)

/-- VX_RNG_KEY_WRITE (R173). -/
def execVxRngKeyWrite (p : Fin 72) (v : DWord) (s : State) : Out := .next (onPage s 4 p.val (fun s => writeRngKey s p.val v))

end Sys2Proof.Machine
end

