-- ==== Sys2Proof/Machine/Dispatch.lean ====
section
/-! DEFINITION. One arm per command: each calls its meaning. -/
namespace Sys2Proof.Machine

def exec (i : Instr) (s : State) : Host.Outcome State Fault Refusal :=
  match i with
  | .registerWrite addr wide v => Sys2Proof.Machine.execRegisterWrite addr wide v s
  | .registerReadClear addr wide => Sys2Proof.Machine.execRegisterReadClear addr wide s
  | .errLogClear blk inst => Sys2Proof.Machine.execErrLogClear blk inst s
  | .irqForce blk inst v => Sys2Proof.Machine.execIrqForce blk inst v s
  | .ctrlDrain blk inst on => Sys2Proof.Machine.execCtrlDrain blk inst on s
  | .ctrlResetReq blk inst => Sys2Proof.Machine.execCtrlResetReq blk inst s
  | .engineFetch x => Sys2Proof.Machine.execEngineFetch x s
  | .load e => Sys2Proof.Machine.execLoad e s
  | .start e => Sys2Proof.Machine.execStart e s
  | .arm e => Sys2Proof.Machine.execArm e s
  | .halt e => Sys2Proof.Machine.execHalt e s
  | .quiesce e => Sys2Proof.Machine.execQuiesce e s
  | .resume e => Sys2Proof.Machine.execResume e s
  | .markEnWrite e v => Sys2Proof.Machine.execMarkEnWrite e v s
  | .pGWrite e n v => Sys2Proof.Machine.execPGWrite e n v s
  | .engineLaunch e dt => Sys2Proof.Machine.execEngineLaunch e dt s
  | .engineQuiesced e => Sys2Proof.Machine.execEngineQuiesced e s
  | .tileRampStep dt => Sys2Proof.Machine.execTileRampStep dt s
  | .ctNop e => Sys2Proof.Machine.execCtNop e s
  | .ctHalt e => Sys2Proof.Machine.execCtHalt e s
  | .ctTrap e => Sys2Proof.Machine.execCtTrap e s
  | .ctMark e => Sys2Proof.Machine.execCtMark e s
  | .stepMarkComplete => Sys2Proof.Machine.execStepMarkComplete s
  | .ctLaunch e => Sys2Proof.Machine.execCtLaunch e s
  | .ctLi e => Sys2Proof.Machine.execCtLi e s
  | .ctAddi e => Sys2Proof.Machine.execCtAddi e s
  | .ctLd e => Sys2Proof.Machine.execCtLd e s
  | .ctGsc e => Sys2Proof.Machine.execCtGsc e s
  | .ctJmp e => Sys2Proof.Machine.execCtJmp e s
  | .ctBnz e => Sys2Proof.Machine.execCtBnz e s
  | .syWait e => Sys2Proof.Machine.execSyWait e s
  | .syAdd e => Sys2Proof.Machine.execSyAdd e s
  | .sySub e => Sys2Proof.Machine.execSySub e s
  | .sySig e => Sys2Proof.Machine.execSySig e s
  | .syGet e => Sys2Proof.Machine.execSyGet e s
  | .syBar e => Sys2Proof.Machine.execSyBar e s
  | .counterIncrement p c n => Sys2Proof.Machine.execCounterIncrement p c n s
  | .waitTimeout e dt => Sys2Proof.Machine.execWaitTimeout e dt s
  | .waitGraphSnapshot => Sys2Proof.Machine.execWaitGraphSnapshot s
  | .barrierArrival e => Sys2Proof.Machine.execBarrierArrival e s
  | .barrierReleasesDelivered ctx => Sys2Proof.Machine.execBarrierReleasesDelivered ctx s
  | .baCfgWrite ctx reg v => Sys2Proof.Machine.execBaCfgWrite ctx reg v s
  | .syCtrWrite p n v => Sys2Proof.Machine.execSyCtrWrite p n v s
  | .sySigTimeout e k dt => Sys2Proof.Machine.execSySigTimeout e k dt s
  | .mxFill p => Sys2Proof.Machine.execMxFill p s
  | .mxLds p => Sys2Proof.Machine.execMxLds p s
  | .mxLdsp p => Sys2Proof.Machine.execMxLdsp p s
  | .mxMm p => Sys2Proof.Machine.execMxMm p s
  | .mxMmp p => Sys2Proof.Machine.execMxMmp p s
  | .mxSt p => Sys2Proof.Machine.execMxSt p s
  | .mxLdacc p => Sys2Proof.Machine.execMxLdacc p s
  | .mxDrain p => Sys2Proof.Machine.execMxDrain p s
  | .mxFlag p => Sys2Proof.Machine.execMxFlag p s
  | .mxLoadComplete p k => Sys2Proof.Machine.execMxLoadComplete p k s
  | .mxInstrComplete p k => Sys2Proof.Machine.execMxInstrComplete p k s
  | .mxIssueTimeout p dt => Sys2Proof.Machine.execMxIssueTimeout p dt s
  | .vxLd p => Sys2Proof.Machine.execVxLd p s
  | .vxSt p => Sys2Proof.Machine.execVxSt p s
  | .vxLda p => Sys2Proof.Machine.execVxLda p s
  | .vxSta p => Sys2Proof.Machine.execVxSta p s
  | .vxFop p => Sys2Proof.Machine.execVxFop p s
  | .vxIop p => Sys2Proof.Machine.execVxIop p s
  | .vxCmp p => Sys2Proof.Machine.execVxCmp p s
  | .vxPop p => Sys2Proof.Machine.execVxPop p s
  | .vxSfu p => Sys2Proof.Machine.execVxSfu p s
  | .vxRed p => Sys2Proof.Machine.execVxRed p s
  | .vxRmax p => Sys2Proof.Machine.execVxRmax p s
  | .vxRsum p => Sys2Proof.Machine.execVxRsum p s
  | .vxDrop p => Sys2Proof.Machine.execVxDrop p s
  | .vxRng p => Sys2Proof.Machine.execVxRng p s
  | .vxPos p => Sys2Proof.Machine.execVxPos p s
  | .vxCmask p => Sys2Proof.Machine.execVxCmask p s
  | .vxOpt p => Sys2Proof.Machine.execVxOpt p s
  | .vxInstrComplete p k => Sys2Proof.Machine.execVxInstrComplete p k s
  | .vxRngKeyWrite p v => Sys2Proof.Machine.execVxRngKeyWrite p v s
  | .dmCopy p => Sys2Proof.Machine.execDmCopy p s
  | .dmFill p => Sys2Proof.Machine.execDmFill p s
  | .dmWarm p => Sys2Proof.Machine.execDmWarm p s
  | .dmGather p => Sys2Proof.Machine.execDmGather p s
  | .dmAtomadd p => Sys2Proof.Machine.execDmAtomadd p s
  | .dmPieceIssue p tid => Sys2Proof.Machine.execDmPieceIssue p tid s
  | .dmPieceComplete p tid pseq => Sys2Proof.Machine.execDmPieceComplete p tid pseq s
  | .dmDescriptorResume p tid => Sys2Proof.Machine.execDmDescriptorResume p tid s
  | .dmReadAhead p k => Sys2Proof.Machine.execDmReadAhead p k s
  | .dmStallTimeout p tid dt => Sys2Proof.Machine.execDmStallTimeout p tid dt s
  | .dmRequestTimeout p tid pseq dt => Sys2Proof.Machine.execDmRequestTimeout p tid pseq dt s
  | .dmDescriptorTimeout p tid dt => Sys2Proof.Machine.execDmDescriptorTimeout p tid dt s
  | .dmXferBusyRetry p tid pseq dt => Sys2Proof.Machine.execDmXferBusyRetry p tid pseq dt s
  | .dmRecallHeldResend p tid pseq dt => Sys2Proof.Machine.execDmRecallHeldResend p tid pseq dt s
  | .tileSweepRead p bank line errs => Sys2Proof.Machine.execTileSweepRead p bank line errs s
  | .routerPacketArrival pkt x => Sys2Proof.Machine.execRouterPacketArrival pkt x s
  | .routerPacketForward k => Sys2Proof.Machine.execRouterPacketForward k s
  | .routerStallDrop k dt => Sys2Proof.Machine.execRouterStallDrop k dt s
  | .write pkt => Sys2Proof.Machine.execWrite pkt s
  | .readReq pkt => Sys2Proof.Machine.execReadReq pkt s
  | .narrow pkt => Sys2Proof.Machine.execNarrow pkt s
  | .atomic pkt => Sys2Proof.Machine.execAtomic pkt s
  | .signal pkt => Sys2Proof.Machine.execSignal pkt s
  | .mirror pkt => Sys2Proof.Machine.execMirror pkt s
  | .ack pkt => Sys2Proof.Machine.execAck pkt s
  | .data pkt => Sys2Proof.Machine.execData pkt s
  | .nack pkt => Sys2Proof.Machine.execNack pkt s
  | .hold pkt => Sys2Proof.Machine.execHold pkt s
  | .xferEntryExpire p k dt => Sys2Proof.Machine.execXferEntryExpire p k dt s
  | .rtEditionArm => Sys2Proof.Machine.execRtEditionArm s
  | .editionSwitch x => Sys2Proof.Machine.execEditionSwitch x s
  | .rtEditionAtWrite v => Sys2Proof.Machine.execRtEditionAtWrite v s
  | .rtEdnCfgWrite e v => Sys2Proof.Machine.execRtEdnCfgWrite e v s
  | .rtNodeWrite v => Sys2Proof.Machine.execRtNodeWrite v s
  | .catalogueLive => Sys2Proof.Machine.execCatalogueLive s
  | .flueFrameTransmit f => Sys2Proof.Machine.execFlueFrameTransmit f s
  | .flueFrameReceived f fr ucw corrected => Sys2Proof.Machine.execFlueFrameReceived f fr ucw corrected s
  | .flueLaneTrained f lanes => Sys2Proof.Machine.execFlueLaneTrained f lanes s
  | .flueFecLock f lanes spare peerGen => Sys2Proof.Machine.execFlueFecLock f lanes spare peerGen s
  | .flueFrameLock f => Sys2Proof.Machine.execFlueFrameLock f s
  | .flueDiscovery f peer => Sys2Proof.Machine.execFlueDiscovery f peer s
  | .flueTrainFail f => Sys2Proof.Machine.execFlueTrainFail f s
  | .flueFrameLockLost f => Sys2Proof.Machine.execFlueFrameLockLost f s
  | .flReset f => Sys2Proof.Machine.execFlReset f s
  | .flEnWrite f v => Sys2Proof.Machine.execFlEnWrite f v s
  | .flSelftest f => Sys2Proof.Machine.execFlSelftest f s
  | .flSelftestComplete f pass eyeV eyeH dt => Sys2Proof.Machine.execFlSelftestComplete f pass eyeV eyeH dt s
  | .neighbourHello f peer nonce chainOk => Sys2Proof.Machine.execNeighbourHello f peer nonce chainOk s
  | .neighbourProof f sigOk => Sys2Proof.Machine.execNeighbourProof f sigOk s
  | .proofTimeout f dt => Sys2Proof.Machine.execProofTimeout f dt s
  | .laneRotationStart f x => Sys2Proof.Machine.execLaneRotationStart f x s
  | .laneSwap f => Sys2Proof.Machine.execLaneSwap f s
  | .laneRecalComplete f eyeV eyeH => Sys2Proof.Machine.execLaneRecalComplete f eyeV eyeH s
  | .laneFail f lane ucw => Sys2Proof.Machine.execLaneFail f lane ucw s
  | .laneRejoin f => Sys2Proof.Machine.execLaneRejoin f s
  | .ceAllreduce c => Sys2Proof.Machine.execCeAllreduce c s
  | .ceReducescatter c => Sys2Proof.Machine.execCeReducescatter c s
  | .ceAllgather c => Sys2Proof.Machine.execCeAllgather c s
  | .ceBcast c => Sys2Proof.Machine.execCeBcast c s
  | .ceSend c => Sys2Proof.Machine.execCeSend c s
  | .ceRecv c => Sys2Proof.Machine.execCeRecv c s
  | .ceRingpass c => Sys2Proof.Machine.execCeRingpass c s
  | .cePieceSend c k => Sys2Proof.Machine.execCePieceSend c k s
  | .ceReducePiece pkt => Sys2Proof.Machine.execCeReducePiece pkt s
  | .ceCopyPiece pkt => Sys2Proof.Machine.execCeCopyPiece pkt s
  | .ceReady pkt => Sys2Proof.Machine.execCeReady pkt s
  | .ceCredit pkt => Sys2Proof.Machine.execCeCredit pkt s
  | .ceDone pkt => Sys2Proof.Machine.execCeDone pkt s
  | .ceBarrierArrive pkt => Sys2Proof.Machine.execCeBarrierArrive pkt s
  | .ceBarrierRelease pkt => Sys2Proof.Machine.execCeBarrierRelease pkt s
  | .ceOpComplete c => Sys2Proof.Machine.execCeOpComplete c s
  | .cePeerTimeout c dt => Sys2Proof.Machine.execCePeerTimeout c dt s
  | .ceConfigWrite c off v => Sys2Proof.Machine.execCeConfigWrite c off v s
  | .hcAccess addr wr hint x => Sys2Proof.Machine.execHcAccess addr wr hint x s
  | .hcFlushWb st => Sys2Proof.Machine.execHcFlushWb st s
  | .hcFlushInv st => Sys2Proof.Machine.execHcFlushInv st s
  | .hcFlushDone st => Sys2Proof.Machine.execHcFlushDone st s
  | .hcSweep st errs => Sys2Proof.Machine.execHcSweep st errs s
  | .mcSweepLine st x => Sys2Proof.Machine.execMcSweepLine st x s
  | .mcRetireCmd st pc => Sys2Proof.Machine.execMcRetireCmd st pc s
  | .retirementMigrationComplete x => Sys2Proof.Machine.execRetirementMigrationComplete x s
  | .ftLoad => Sys2Proof.Machine.execFtLoad s
  | .ftLoadComplete => Sys2Proof.Machine.execFtLoadComplete s
  | .ftUpdate => Sys2Proof.Machine.execFtUpdate s
  | .mcRestore vpn => Sys2Proof.Machine.execMcRestore vpn s
  | .restoreResend pfn dt => Sys2Proof.Machine.execRestoreResend pfn dt s
  | .holdReplySend dt => Sys2Proof.Machine.execHoldReplySend dt s
  | .holdTimeout k dt => Sys2Proof.Machine.execHoldTimeout k dt s
  | .trickleGranuleSend => Sys2Proof.Machine.execTrickleGranuleSend s
  | .mirrorFenceTimeout dt => Sys2Proof.Machine.execMirrorFenceTimeout dt s
  | .mirrorResync => Sys2Proof.Machine.execMirrorResync s
  | .mirrorResyncComplete => Sys2Proof.Machine.execMirrorResyncComplete s
  | .mirrorFenceRecord node mark => Sys2Proof.Machine.execMirrorFenceRecord node mark s
  | .gscExchange dt => Sys2Proof.Machine.execGscExchange dt s
  | .gscTimeReply t2 f2 t3 f4 parent => Sys2Proof.Machine.execGscTimeReply t2 f2 t3 f4 parent s
  | .gscHoldover dt => Sys2Proof.Machine.execGscHoldover dt s
  | .ppsEdge dt => Sys2Proof.Machine.execPpsEdge dt s
  | .ppsLost dt => Sys2Proof.Machine.execPpsLost dt s
  | .ckCfgWrite v => Sys2Proof.Machine.execCkCfgWrite v s
  | .serve => Sys2Proof.Machine.execServe s
  | .idle => Sys2Proof.Machine.execIdle s
  | .lend gen => Sys2Proof.Machine.execLend gen s
  | .lendRestore gen => Sys2Proof.Machine.execLendRestore gen s
  | .recallCommand target => Sys2Proof.Machine.execRecallCommand target s
  | .image => Sys2Proof.Machine.execImage s
  | .release target => Sys2Proof.Machine.execRelease target s
  | .resumeJob => Sys2Proof.Machine.execResumeJob s
  | .mgLendCfgWrite v => Sys2Proof.Machine.execMgLendCfgWrite v s
  | .teardownDrainEnd => Sys2Proof.Machine.execTeardownDrainEnd s
  | .drainLate dt => Sys2Proof.Machine.execDrainLate dt s
  | .teardownFence => Sys2Proof.Machine.execTeardownFence s
  | .allQuiesced => Sys2Proof.Machine.execAllQuiesced s
  | .quiesceDeadline dt => Sys2Proof.Machine.execQuiesceDeadline dt s
  | .recallImageComplete => Sys2Proof.Machine.execRecallImageComplete s
  | .recallCutoff dt => Sys2Proof.Machine.execRecallCutoff dt s
  | .recallRiskCheck dt => Sys2Proof.Machine.execRecallRiskCheck dt s
  | .zeroisationComplete => Sys2Proof.Machine.execZeroisationComplete s
  | .digestTileDone p => Sys2Proof.Machine.execDigestTileDone p s
  | .digestMessage node mark chip tiles => Sys2Proof.Machine.execDigestMessage node mark chip tiles s
  | .digestLate dt => Sys2Proof.Machine.execDigestLate dt s
  | .tlDigestRgnWrite p rgn v => Sys2Proof.Machine.execTlDigestRgnWrite p rgn v s
  | .classAsk lt => Sys2Proof.Machine.execClassAsk lt s
  | .classRecordTransient lt => Sys2Proof.Machine.execClassRecordTransient lt s
  | .classRecordPermanent lt => Sys2Proof.Machine.execClassRecordPermanent lt s
  | .classRecordSparePermanent lt => Sys2Proof.Machine.execClassRecordSparePermanent lt s
  | .cvStart p u => Sys2Proof.Machine.execCvStart p u s
  | .cvArm p u => Sys2Proof.Machine.execCvArm p u s
  | .cvDisarm p u => Sys2Proof.Machine.execCvDisarm p u s
  | .cvCombine p u => Sys2Proof.Machine.execCvCombine p u s
  | .cvCombineComplete p u => Sys2Proof.Machine.execCvCombineComplete p u s
  | .cvRunComplete p u => Sys2Proof.Machine.execCvRunComplete p u s
  | .cvPoisonStop p u => Sys2Proof.Machine.execCvPoisonStop p u s
  | .cvConfigWrite p u off v => Sys2Proof.Machine.execCvConfigWrite p u off v s
  | .migrate lt phys => Sys2Proof.Machine.execMigrate lt phys s
  | .replace lt phys => Sys2Proof.Machine.execReplace lt phys s
  | .tileMigrationComplete => Sys2Proof.Machine.execTileMigrationComplete s
  | .tileRotation dt => Sys2Proof.Machine.execTileRotation dt s
  | .tileTestComplete pass => Sys2Proof.Machine.execTileTestComplete pass s
  | .testRotation => Sys2Proof.Machine.execTestRotation s
  | .testBist => Sys2Proof.Machine.execTestBist s
  | .bistComplete failed => Sys2Proof.Machine.execBistComplete failed s
  | .mirrorPush node => Sys2Proof.Machine.execMirrorPush node s
  | .domainResetRequest d collect => Sys2Proof.Machine.execDomainResetRequest d collect s
  | .resetHoldExpire d dt => Sys2Proof.Machine.execResetHoldExpire d dt s
  | .debugRingTimeout d dt => Sys2Proof.Machine.execDebugRingTimeout d dt s
  | .collectionComplete x => Sys2Proof.Machine.execCollectionComplete x s
  | .domainReady d bistOk => Sys2Proof.Machine.execDomainReady d bistOk s
  | .wdogKick => Sys2Proof.Machine.execWdogKick s
  | .mgcWatchdog dt => Sys2Proof.Machine.execMgcWatchdog dt s
  | .staleGeneration d dt => Sys2Proof.Machine.execStaleGeneration d dt s
  | .updateStage blk img => Sys2Proof.Machine.execUpdateStage blk img s
  | .updateApply blk inst => Sys2Proof.Machine.execUpdateApply blk inst s
  | .updateDrop => Sys2Proof.Machine.execUpdateDrop s
  | .updateDone => Sys2Proof.Machine.execUpdateDone s
  | .powerGoodRise straps rails => Sys2Proof.Machine.execPowerGoodRise straps rails s
  | .powerGoodFall => Sys2Proof.Machine.execPowerGoodFall s
  | .resetN lowUs => Sys2Proof.Machine.execResetN lowUs s
  | .kindlingK0 pll fused small id digest => Sys2Proof.Machine.execKindlingK0 pll fused small id digest s
  | .kindlingK1 a b => Sys2Proof.Machine.execKindlingK1 a b s
  | .kindlingK2 images bistFailed untrained => Sys2Proof.Machine.execKindlingK2 images bistFailed untrained s
  | .kindlingK3 => Sys2Proof.Machine.execKindlingK3 s
  | .kindlingK4 node plan planHash => Sys2Proof.Machine.execKindlingK4 node plan planHash s
  | .kindled => Sys2Proof.Machine.execKindled s
  | .commit blk => Sys2Proof.Machine.execCommit blk s
  | .mr7Extend => Sys2Proof.Machine.execMr7Extend s
  | .neighbourColophonRequest f nonce => Sys2Proof.Machine.execNeighbourColophonRequest f nonce s
  | .periodEnd dt => Sys2Proof.Machine.execPeriodEnd dt s
  | .railSample samples dt => Sys2Proof.Machine.execRailSample samples dt s
  | .temperatureSample samples dt => Sys2Proof.Machine.execTemperatureSample samples dt s
  | .pacingLevelStep dt => Sys2Proof.Machine.execPacingLevelStep dt s
  | .pathDelaySample slacks dt => Sys2Proof.Machine.execPathDelaySample slacks dt s
  | .ageingPrediction dt => Sys2Proof.Machine.execAgeingPrediction dt s
  | .ebothFrameTransmit => Sys2Proof.Machine.execEbothFrameTransmit s
  | .ebothFrameReceived fr ucw => Sys2Proof.Machine.execEbothFrameReceived fr ucw s
  | .ebothHello device lack credits dt => Sys2Proof.Machine.execEbothHello device lack credits dt s
  | .ebothLossOfSignal lane => Sys2Proof.Machine.execEbothLossOfSignal lane s
  | .ebReset => Sys2Proof.Machine.execEbReset s
  | .ebEnWrite v => Sys2Proof.Machine.execEbEnWrite v s
  | .ebothHoldExpire dt => Sys2Proof.Machine.execEbothHoldExpire dt s
  | .ebothLostRelease dt => Sys2Proof.Machine.execEbothLostRelease dt s
  | .ebothRequestTimeout tag dt => Sys2Proof.Machine.execEbothRequestTimeout tag dt s
  | .regRd m => Sys2Proof.Machine.execRegRd m s
  | .regWr m => Sys2Proof.Machine.execRegWr m s
  | .put m => Sys2Proof.Machine.execPut m s
  | .get m => Sys2Proof.Machine.execGet m s
  | .recall m => Sys2Proof.Machine.execRecall m s
  | .coloReq m => Sys2Proof.Machine.execColoReq m s
  | .sink m => Sys2Proof.Machine.execSink m s
  | .testset m => Sys2Proof.Machine.execTestset m s
  | .eventAck m => Sys2Proof.Machine.execEventAck m s
  | .granuleAck m => Sys2Proof.Machine.execGranuleAck m s
  | .smbAddressWrite addr => Sys2Proof.Machine.execSmbAddressWrite addr s
  | .smbStatus => Sys2Proof.Machine.execSmbStatus s
  | .smbTemp => Sys2Proof.Machine.execSmbTemp s
  | .smbPower => Sys2Proof.Machine.execSmbPower s
  | .smbRegRd => Sys2Proof.Machine.execSmbRegRd s
  | .idcode => Sys2Proof.Machine.execIdcode s
  | .samplePreload cells => Sys2Proof.Machine.execSamplePreload cells s
  | .extest => Sys2Proof.Machine.execExtest s
  | .clamp => Sys2Proof.Machine.execClamp s
  | .highz => Sys2Proof.Machine.execHighz s
  | .bypass => Sys2Proof.Machine.execBypass s
  | .jtagReset => Sys2Proof.Machine.execJtagReset s
  | .ebothTrainFail => Sys2Proof.Machine.execEbothTrainFail s
  | .ftUpdateComplete => Sys2Proof.Machine.execFtUpdateComplete s
  | .mr7ExtendComplete => Sys2Proof.Machine.execMr7ExtendComplete s
  | .classCommandComplete => Sys2Proof.Machine.execClassCommandComplete s
  | .updateStageComplete => Sys2Proof.Machine.execUpdateStageComplete s

end Sys2Proof.Machine
end

