-- ==== Sys2Proof/Safety.lean ====
section
/-! DEFINITION. The terms that statements about the machine are written in: the parts of the state and what an action leaves alone, and
the canonical form of the sparse maps (memory among them) that every action keeps. -/
namespace Sys2Proof.Machine

/-- The parts of the state, one for each field of State. -/
inductive Part
  | pending | gsc | freeCtr | regs | mem | poison | engines | tiles | ctxs | mark | snapNum | snapWaits | tmap | ptile | ramp
  | hbmStacks | lineQ | folio | touched | flues | router | slots | planned | ces | clock | lend | digest | classRep | classCmd
  | perm | migr | test | rotNext | testDue | bistDue | push | pushNode | pushBad | doms | resetQ | update | staged | checking
  | fw | images | fuses | ledger | testset | testbuf | mrlog | mrPend | lifetime | wear | rails | railBad | energyRem | warned
  | timers | statReset | eb | pins
  deriving DecidableEq, Repr

/-- Two states agree in a part. -/
def Same (p : Part) (s t : State) : Prop :=
  match p with
  | .pending => s.pending = t.pending
  | .gsc => s.gsc = t.gsc
  | .freeCtr => s.freeCtr = t.freeCtr
  | .regs => s.regs = t.regs
  | .mem => s.mem = t.mem
  | .poison => s.poison = t.poison
  | .engines => s.engines = t.engines
  | .tiles => s.tiles = t.tiles
  | .ctxs => s.ctxs = t.ctxs
  | .mark => s.mark = t.mark
  | .snapNum => s.snapNum = t.snapNum
  | .snapWaits => s.snapWaits = t.snapWaits
  | .tmap => s.tmap = t.tmap
  | .ptile => s.ptile = t.ptile
  | .ramp => s.ramp = t.ramp
  | .hbmStacks => s.hbmStacks = t.hbmStacks
  | .lineQ => s.lineQ = t.lineQ
  | .folio => s.folio = t.folio
  | .touched => s.touched = t.touched
  | .flues => s.flues = t.flues
  | .router => s.router = t.router
  | .slots => s.slots = t.slots
  | .planned => s.planned = t.planned
  | .ces => s.ces = t.ces
  | .clock => s.clock = t.clock
  | .lend => s.lend = t.lend
  | .digest => s.digest = t.digest
  | .classRep => s.classRep = t.classRep
  | .classCmd => s.classCmd = t.classCmd
  | .perm => s.perm = t.perm
  | .migr => s.migr = t.migr
  | .test => s.test = t.test
  | .rotNext => s.rotNext = t.rotNext
  | .testDue => s.testDue = t.testDue
  | .bistDue => s.bistDue = t.bistDue
  | .push => s.push = t.push
  | .pushNode => s.pushNode = t.pushNode
  | .pushBad => s.pushBad = t.pushBad
  | .doms => s.doms = t.doms
  | .resetQ => s.resetQ = t.resetQ
  | .update => s.update = t.update
  | .staged => s.staged = t.staged
  | .checking => s.checking = t.checking
  | .fw => s.fw = t.fw
  | .images => s.images = t.images
  | .fuses => s.fuses = t.fuses
  | .ledger => s.ledger = t.ledger
  | .testset => s.testset = t.testset
  | .testbuf => s.testbuf = t.testbuf
  | .mrlog => s.mrlog = t.mrlog
  | .mrPend => s.mrPend = t.mrPend
  | .lifetime => s.lifetime = t.lifetime
  | .wear => s.wear = t.wear
  | .rails => s.rails = t.rails
  | .railBad => s.railBad = t.railBad
  | .energyRem => s.energyRem = t.energyRem
  | .warned => s.warned = t.warned
  | .timers => s.timers = t.timers
  | .statReset => s.statReset = t.statReset
  | .eb => s.eb = t.eb
  | .pins => s.pins = t.pins

/-- Nothing outside the listed parts has changed: the frame of an action. -/
def Only (ps : List Part) (s t : State) : Prop := ∀ p, p ∉ ps → Same p s t

/-- R127, R459: memory and its poison marks are in canonical form: addresses strictly rise, and no entry holds what an unlisted
address reads as. -/
def Memory.wf (s : State) : Bool := mapWf (fun _ => 0) s.mem && mapWf (fun _ => false) s.poison

/-- Every sparse map of the state is in canonical form, so equal contents are equal data. -/
structure Canon (s : State) : Prop where
  regs : mapWf (regDefault) s.regs = true
  mem : mapWf (fun _ => 0) s.mem = true
  poison : mapWf (fun _ => false) s.poison = true
  engines : mapWf (fun _ => Engine.reset) s.engines = true
  tiles : mapWf (fun _ => Tile.reset) s.tiles = true
  ctxs : mapWf (fun _ => BaCtx.reset) s.ctxs = true
  tmap : mapWf (fun _ => 0) s.tmap = true
  ptile : mapWf (fun _ => 0) s.ptile = true
  hbmStacks : mapWf (fun _ => Stack.reset) s.hbmStacks = true
  touched : mapWf (fun _ => false) s.touched = true
  flues : mapWf (fun _ => Flue.reset) s.flues = true
  slots : mapWf (fun _ => (0, 0, 0)) s.slots = true
  ces : mapWf (fun _ => Ce.reset) s.ces = true
  doms : mapWf (fun _ => Dom.reset) s.doms = true
  fw : mapWf (fun _ => 0) s.fw = true
  fuses : mapWf (fun _ => 0) s.fuses = true
  lifetime : mapWf (fun _ => 0) s.lifetime = true
  wear : mapWf (fun _ => Wear.reset) s.wear = true
  warned : mapWf (fun _ => false) s.warned = true
  timers : mapWf (fun _ => 0) s.timers = true
  statReset : mapWf (fun _ => false) s.statReset = true
  frames : mapWf (fun _ => Frame.reset) s.folio.frames = true
  marks : mapWf (fun _ => 0) s.folio.marks = true

/-! How statements speak of a command. -/

/-- The command completes: exec answers a next state, of which P holds. -/
def Does (c : Instr) (s : State) (P : State → Prop) : Prop := ∃ t, exec c s = .next t ∧ P t

/-- Every register but the listed keys holds what it held. -/
def RegsBut (ks : List Nat) (s t : State) : Prop := ∀ k, k ∉ ks → regGet t k = regGet s k

/-- Every engine but the listed ones is as it was. -/
def EngsBut (es : List Eng) (s t : State) : Prop := ∀ e, e ∉ es → getEng t e = getEng s e

/-- Every physical tile but the listed ones is as it was. -/
def TilesBut (ps : List Nat) (s t : State) : Prop := ∀ p, p ∉ ps → getTile t p = getTile s p

/-- Every byte but those of the ranges (address, count) reads as before, with the poison mark of its word. -/
def BytesBut (rs : List (Nat × Nat)) (s t : State) : Prop :=
  ∀ a, (∀ r ∈ rs, a < r.1 ∨ r.1 + r.2 ≤ a) → memByte t a = memByte s a

/-- The register of general register n of an engine (R235). -/
def gKey (e : Eng) (n : Nat) : Nat := regKey (engBlk e) (engInst e) (0x200 + 8 * n)

/-- The register of an engine's program control field. -/
def pKey (e : Eng) (f : Fld) : Nat := fldKey (engBlk e) f (engInst e) 0

/-- R215: the register LAUNCH.COUNT of an engine. -/
def launchKey (e : Eng) : Nat := regKey (engBlk e) (engInst e) 0x110

/-- R229, R230: the trace head of an engine's tile, which an instruction with T writes. -/
def traceKeys : Eng → List Nat
  | .tile p _ => [fldKey 2 TL_TRACE_HEAD_NEXT p.val 0]
  | .ce _ => []

/-- R202, R208: the instruction stands at issue in an engine that may issue, its encoding is good, and its W wait is behind it. -/
structure Ready (s : State) (e : Eng) (cls op : Nat) (rsv : List (Nat × Nat)) (q : QEntry) : Prop where
  front : frontIs s e cls op = some q
  flags : flagBad q.word = false
  zero : rsvBad q.word rsv = false
  waited : iW q.word = false ∨ q.wDone = true

/-- R200, R202, R210, R218: a ct. or sy. instruction that may take effect: no V either, and no general register that it names has a
write pending. -/
def ReadyCtl (s : State) (e : Eng) (cls op : Nat) (rsv : List (Nat × Nat)) (q : QEntry) : Prop :=
  Ready s e cls op rsv q ∧ iV q.word = false ∧ gPending s e q.word = false

/-- R201: what a completion adds to the increments on their way to counters: 1 to the counter named, if one is, of the home tile;
nothing otherwise. -/
def Notifies (s t : State) (e : Eng) (sctr : Option Nat) (tag pc : Nat) : Prop :=
  (∀ c p, sctr = some c → homeOf s e = some p → isolated s p = false →
    (getTile t p).pend = (getTile s p).pend ++ [⟨c, 1, .instr e tag pc⟩])
  ∧ (∀ p, sctr = none ∨ homeOf s e ≠ some p → (getTile t p).pend = (getTile s p).pend)

/-- R201: the signal of an instruction that completes: 1 to SCTR when S is set. -/
def Signalled (s t : State) (e : Eng) (q : QEntry) : Prop := Notifies s t e (iSig q.word) (iTag q.word) q.idx

/-- A tile but for its increments and its trace is as it was. -/
def TileCore (s t : State) : Prop :=
  ∀ p, { getTile t p with pend := (getTile s p).pend, trace := (getTile s p).trace } = getTile s p

/-- R201, R208, R220: the instruction leaves its queue and signals; nothing else moves but the listed registers. -/
structure Retires (s t : State) (e : Eng) (q : QEntry) (ks : List Nat) : Prop where
  queue : (getEng t e).queue = (getEng s e).queue.drop 1
  going : (getEng t e).st = (getEng s e).st
  signal : Signalled s t e q
  regs : RegsBut (ks ++ traceKeys e) s t
  others : EngsBut [e] s t
  tiles : TileCore s t
  frame : Only [.regs, .engines, .tiles] s t

/-- R213, R228, R581: the program of an engine has faulted with a code, and its record is the next event (unless the 3,840 entries
that records may take are full). -/
structure FaultsWith (s t : State) (e : Eng) (code tag pc : Nat) : Prop where
  st : (getEng t e).st = .faulted
  event : s.eb.events.length < 3840 → ∃ r, (s.eb.evSeq, EbEvent.fault r) ∈ t.eb.events ∧ r.code = code ∧ r.unit = engUnit s e
    ∧ r.engine = engClass e ∧ r.tag = tag ∧ r.pc = pc ∧ r.gsc = s.gsc ∧ r.gen = jobGen s ∧ r.phys = engPhys e
  others : EngsBut [e] s t

/-- R213, R215, R21: an ARMED engine whose launch is due. -/
def LaunchDue (s : State) (e : Eng) : Prop :=
  (getEng s e).st = .armed ∧ (getEng s e).quiesceReq = false ∧ (getEng s e).launch.toNat ≤ s.gsc ∧ (s.ramp = 9 ∨ rampUp s = false)

/-- R228, R581: the queue of events holds a fault record of an engine with a code, a tag, a PC and a DETAIL. -/
def FaultQueued (t : State) (e : Eng) (code tag pc detail : Nat) : Prop :=
  ∃ n r, (n, EbEvent.fault r) ∈ t.eb.events ∧ r.code = code ∧ r.engine = engClass e ∧ r.phys = engPhys e ∧ r.tag = tag ∧ r.pc = pc
    ∧ r.detail = detail

/-- R10, R600: a register without a row of its own: a write of it acts on its fields by their access types alone. -/
def PlainReg (b inst off : Nat) : Prop := ∀ s v, writeReg s b inst off v = plainWrite s b inst off v

/-- R592, R595, R599: a register access of a page that is there and not isolated. -/
def Reaches (s : State) (a b inst off : Nat) : Prop :=
  regPage a = some (b, inst, off) ∧ blkAbsent s b inst = false ∧ isolated s (pageDomain b inst) = false

/-- R519: no reset of the domain is held or running, and the hold since its last one has passed. -/
def mayReset (s : State) (d : Nat) : Prop :=
  (getDom s d).phase = 0 ∧ ∀ x, (getDom s d).last = some x → x + resetHold s ≤ s.gsc

/-- R519, R523 step 1: the domain is isolated, its collection waits its turn when one was asked for. -/
structure ResetBegun (s t : State) (d cause : Nat) (coll : Bool) : Prop where
  isolated : isolated t d = true
  phase : (getDom t d).phase = 2
  collect : (getDom t d).collect = coll
  cause : (getDom t d).cause = cause
  last : (getDom t d).last = some s.gsc
  queue : t.resetQ = if coll then s.resetQ ++ [d] else s.resetQ
  gen : (getDom t d).gen = (getDom s d).gen
  others : ∀ d', d' ≠ d → getDom t d' = getDom s d'

/-- The register of a tile's counter (R240). -/
def ctrKey (p c : Nat) : Nat := fldKey 6 SY_CTR p c

/-- No engine waits on a counter, and no check-value unit is armed on it. -/
def Unwaited (s : State) (p c : Nat) : Prop :=
  (∀ e w, homeOf s e = some p → (getEng s e).wait = some w ∨ (getEng s e).fwait = some w → w.ctr ≠ c)
  ∧ ((getTile s p).cv0 ≠ 1 ∨ getFi s TL_CV_TRIG_CTR p 0 ≠ c) ∧ ((getTile s p).cv1 ≠ 1 ∨ getFi s TL_CV_TRIG_CTR p 1 ≠ c)

/-- R86, R109: an mx. instruction at issue has been filled, and its tile does not drain. -/
def MxReady (s : State) (p op : Nat) (q : QEntry) : Prop := mxFront s p op = some q

/-- R107: an mx. instruction has issued: it has left the queue and is in flight as `f`. Other engines and tiles are as they were. -/
structure MxIssues (s t : State) (p : Fin 72) (q : QEntry) (f : MxFly) : Prop where
  queue : (getEng t (.tile p .mx)).queue = (getEng s (.tile p .mx)).queue.drop 1
  st : (getEng t (.tile p .mx)).st = (getEng s (.tile p .mx)).st
  done : f.done = doneOf q.word q.idx
  fly : ∃ l, (getMx t p).fly = l ++ [{ f with since := s.gsc }] ∧ l.length = (getMx s p).fly.length
  others : EngsBut [.tile p .mx] s t
  tiles : TilesBut [p.val] s t

/-- R160, R191: the registers that a vx. instruction names: those it reads or writes of lanes and predicates, and its general registers. -/
def vxNamed (rs : List Nat) (w : IWord) : List Nat := rs ++ (vxGReads w).map (40 + ·) ++ (vxGWrites w).map (40 + ·)

/-- R184, R190: a vx. instruction at issue: its tile does not drain, no V, its W wait is behind it, and no register that it names has
a write pending. -/
structure VxReady (s : State) (p : Fin 72) (op : Nat) (rs : List Nat) (q : QEntry) : Prop where
  front : frontIs s (.tile p .vx) 2 op = some q
  drain : draining s p = false
  noV : iV q.word = false
  flags : flagBad q.word = false
  waited : iW q.word = false ∨ q.wDone = true
  pending : vxPending (getVx s p) (vxNamed rs q.word) = false

/-- R190: a vx. instruction has faulted with a code and has no effect: no lane, predicate, accumulation buffer entry or byte of a store
has changed. -/
structure VxFaults (s t : State) (p : Fin 72) (q : QEntry) (code : Nat) : Prop where
  fault : FaultsWith s t (.tile p .vx) code (iTag q.word) q.idx
  lanes : ∀ r l, getLane t p r l = getLane s p r l
  preds : ∀ n, getPred t p n = getPred s p n
  acc : ∀ i, getAcc t p i = getAcc s p i ∧ accBad t p i = accBad s p i
  mem : ∀ a, a < ashBase → memByte t a = memByte s a

/-- R188: a vx. instruction has issued, with the writes that are pending until it completes. -/
structure VxIssues (s t : State) (p : Fin 72) (q : QEntry) (ws : List Nat) : Prop where
  queue : (getEng t (.tile p .vx)).queue = (getEng s (.tile p .vx)).queue.drop 1
  st : (getEng t (.tile p .vx)).st = (getEng s (.tile p .vx)).st
  fly : (getVx t p).fly = (getVx s p).fly ++ [⟨ws ++ (vxGWrites q.word).map (40 + ·), iOp q.word == 0x70, doneOf q.word q.idx⟩]
  others : EngsBut [.tile p .vx] s t
  tiles : TilesBut [p.val] s t

/-- R158: the active lanes of a vector register take the values of f; every other lane and register is as it was. -/
def LanesSet (s t : State) (p vd : Nat) (act : BitVec 128) (f : Nat → Word) : Prop :=
  (∀ l < 128, getLane t p vd l = if act.getLsbD l then f l else getLane s p vd l)
  ∧ ∀ r l, r ≠ vd → l < 128 → getLane t p r l = getLane s p r l

/-- R193, R192: the registers of counters and flags of a vector engine. -/
def vxCountKeys (p : Nat) : List Nat :=
  [fldKey 4 VX_LANE_OPS p 0, fldKey 4 VX_SFU_RESULTS p 0, fldKey 4 VX_RNG_CALLS p 0, fldKey 4 VX_FLAGS_OVF p 0]

/-- What a vx. instruction leaves alone that writes vector registers and predicates only: every register but those listed, the counters
and flags; the accumulation buffers; memory. -/
structure VxLeaves (s t : State) (p : Fin 72) (ks : List Nat) : Prop where
  regs : RegsBut (ks ++ vxCountKeys p ++ traceKeys (.tile p .vx)) s t
  mx : ∀ q, getMx t q = getMx s q
  frame : Only [.regs, .engines, .tiles] s t

/-- R140, R142: a piece has completed: it is gone and counted; the last piece of its descriptor completes it, with the receive counter of
a descriptor that lands in the own tile store and the signal of its instruction. -/
structure PieceDone (s t : State) (p : Fin 72) (x : PieceOut) (d : Desc) : Prop where
  gone : getPiece t p x.tid x.pseq = none
  pieces : getF t DM_PIECES p = (getF s DM_PIECES p + 1) % 2 ^ 64
  bytes : getF t DM_BYTES p = (getF s DM_BYTES p + x.n) % 2 ^ 64
  more : d.doneCnt + 1 ≠ d.total →
    (getDm t p).descs.find? (fun y => y.tid == x.tid) = some { d with doneCnt := d.doneCnt + 1 } ∧ (getTile t p).pend = (getTile s p).pend
  last : d.doneCnt + 1 = d.total → (getDm t p).descs.find? (fun y => y.tid == x.tid) = none
    ∧ (isolated s p.val = false → (getTile t p).pend = (getTile s p).pend
      ++ (if d.op = 0x43 ∨ d.dsp = 0 then (match d.rctr with | some c => [⟨c, 1, .unit d.tag⟩] | none => []) else [])
      ++ (match d.sctr with | some c => [⟨c, 1, .instr (.tile p .dm) d.tag d.pc⟩] | none => []))
  engines : EngsBut [] s t
  others : TilesBut [p.val] s t

/-- The accesses of its lines that a piece asks the slices for (R283, R284). -/
def asksLines (own : Nat × Nat × Nat) (segs : List (Nat × Nat)) (wr : Bool) (hint : Nat) : List LineReq :=
  segs.flatMap (fun g => (List.range (lineCount g.1 g.2)).map (fun i => ⟨(g.1 / 256 + i) * 256, wr, hint, some own⟩))

/-- The predicate registers but one are as they were. -/
def PredsBut (ns : List Nat) (s t : State) (p : Nat) : Prop := ∀ n, n ∉ ns → getPred t p n = getPred s p n

/-- The register that holds a field of an instance. -/
def fKey (f : Fld) (i : Nat) : Nat := fldKey f.blk f i 0

/-- A counter has counted once, saturating at its width, and nothing else has moved. -/
structure Counts (f : Fld) (i : Nat) (s t : State) : Prop where
  count : getF t f i = satAdd f.len (getF s f i) 1
  regs : RegsBut [fKey f i] s t
  frame : Only [.regs] s t

/-- R365: a packet is handed to the router; besides the router only the listed parts may have changed. -/
structure Sends (s t : State) (k : Packet) (ps : List Part) : Prop where
  router : t.router = { s.router with inject := s.router.inject ++ [k] }
  frame : Only (.router :: ps) s t

/-- R358, R359, R521: a request is answered: the reply of a type goes to its sender with its GEN, TID and PSEQ and some bytes. -/
def Replies (s t : State) (q : Packet) (typ : BitVec 4) (bs : List PByte) (ps : List Part) : Prop :=
  ∃ k, Sends s t k ps ∧ k.typ = typ ∧ k.dst = q.src ∧ k.gen = q.gen ∧ k.tid = q.tid ∧ k.pseq = q.pseq ∧ k.payload = bs

/-- R359: the payload of a NACK. -/
def nackBytes (code : Nat) : List PByte := good (bytesOf 2 code)

/-- R493, R523, R603: a request of a job reaches the station of a logical tile that physical tile p holds, and may act there. -/
structure AtStation (s : State) (q : Packet) (p : Nat) : Prop where
  node : epNode q.dst = nodeId s
  tile : epLocal q.dst < 0x40
  phys : physOf s (epLocal q.dst) = some p
  drain : draining s p = false
  mig : migrating s p = false
  up : isolated s p = false
  gen : q.gen.toNat = jobGen s

/-- R228, R581: a record with a property is the next event, unless records have filled the queue. -/
def Records (s t : State) (P : FaultRec → Prop) : Prop :=
  s.eb.events.length < 3840 → ∃ r, (s.eb.evSeq, EbEvent.fault r) ∈ t.eb.events ∧ P r

/-- A record of the MGC with a code and a DETAIL. -/
def McRecords (s t : State) (code detail : Nat) : Prop :=
  Records s t (fun r => r.code = code ∧ r.unit = 0x4A ∧ r.engine = 0 ∧ r.tag = 0 ∧ r.gsc = s.gsc ∧ r.phys = 0xFF ∧ r.detail = detail)

/-- R354: a record of a flue: its code, lane (0xF for none) and cause. -/
def FlueRecords (s t : State) (code f lane cause : Nat) : Prop :=
  Records s t (fun r => r.code = code ∧ r.unit = 0x4A ∧ r.engine = 0 ∧ r.tag = 0 ∧ r.phys = 0xFF
    ∧ r.detail % 2 ^ 32 = f + 2 ^ 8 * lane + 2 ^ 16 * cause)

/-- Every flue but one is as it was. -/
def FluesBut (f : Nat) (s t : State) : Prop := ∀ g, g ≠ f → getFlue t g = getFlue s g

/-- R351: a flue has gone down: its generation has moved on, its buffers are dropped and their packets counted, it trains again (or is
held while EN is 0), and FLUE_DOWN is recorded. -/
structure FlueFalls (s t : State) (f lane cause : Nat) (en : Bool) : Prop where
  gen : (getDom t (78 + f)).gen = ((getDom s (78 + f)).gen + 1) % 256
  lost : getF t FL_LOST_PACKETS f = satAdd 32 (getF s FL_LOST_PACKETS f) (lostPackets s f)
  step : (getFlue t f).step = 0
  sent : (getFlue t f).sent = []
  peer : (getFlue t f).peer = none
  state : getF t FL_STATUS_STATE f = if en then 1 else 5
  record : FlueRecords s t 0x0906 f lane cause
  others : FluesBut f s t
  frame : Only [.regs, .mem, .poison, .flues, .router, .doms, .statReset, .eb] s t

/-- R343: authentication of a flue has failed for a cause: it is held and ATTEST_FAIL recorded. -/
structure AttestFails (s t : State) (f cause : Nat) : Prop where
  state : getF t FL_STATUS_STATE f = 5
  failed : (getFlue t f).authFail = true
  step : (getFlue t f).step = (getFlue s f).step
  record : McRecords s t 0x0801 (f + 2 ^ 16 * cause)
  others : FluesBut f s t

/-- R398, R412: a packet of a job reaches collective engine c, which is not held in reset. -/
structure AtCe (s : State) (q : Packet) (c : Fin 4) : Prop where
  node : epNode q.dst = nodeId s
  typ : q.typ = 11
  dest : epLocal q.dst = 0x40 + c.val
  gen : q.gen.toNat = jobGen s
  up : isolated s (96 + c.val) = false

/-- R399, R411: a piece that reaches a working engine with an operation `o` in progress, nothing held back and nothing stalled. -/
structure CeWorks (s : State) (q : Packet) (c : Fin 4) (o : CeOp) : Prop extends AtCe s q c where
  op : (getCe s c).op = some o
  early : (getCe s c).early = [] ∧ o.early = []
  loaded : (getCe s c).nack = false
  mine : ceMine o q = true
  active : ceActive s c = true
  plain : o.stall = none ∧ o.stat = false ∧ o.op ≠ 0xA6

/-- R409: the program of a collective engine has faulted over a peer, which DETAIL names, and its operation is dropped. -/
structure CeFaults (s t : State) (c : Fin 4) (o : CeOp) (code peer : Nat) : Prop where
  fault : FaultsWith s t (.ce c) code o.tag o.pc
  detail : s.eb.events.length < 3840 → FaultQueued t (.ce c) code o.tag o.pc peer
  op : (getCe t c).op = none

/-- R581: an event is the next one in the queue, with the next sequence number, and its message has gone to the port. -/
def Delivers (s t : State) (ev : EbEvent) : Prop :=
  (s.eb.evSeq, ev) ∈ t.eb.events ∧ eventMsg s.eb.evSeq ev ∈ t.eb.out

/-- R285: a slice's lines, its counters of hits and misses, and no other slice. -/
structure SliceIs (s t : State) (st : Nat) (ls : List HcLine) (hit : Bool) : Prop where
  lines : (getStack t st).lines = ls
  hits : getF t HC_HITS st = if hit then (getF s HC_HITS st + 1) % 2 ^ 64 else getF s HC_HITS st
  misses : getF t HC_MISSES st = if hit then getF s HC_MISSES st else (getF s HC_MISSES st + 1) % 2 ^ 64
  others : ∀ k, k ≠ st → getStack t k = getStack s k
  frame : Only [.regs, .hbmStacks, .lineQ] s t

/-- R213, R434, R452: a hand-over has begun: every engine is HALTED, the job generation has moved on, the mirror is off and the teardown
drains. -/
structure HandsOver (s t : State) : Prop where
  state : lendState t = 4
  halted : ∀ e, (getEng t e).st = .halted
  gen : jobGen t = if jobGen s = 0xFF then 1 else jobGen s + 1
  mcGen : ∀ i < 6, getF t MC_JOB_GEN_GEN i = jobGen t
  mirror : flagF t MC_MIRROR_CFG_EN 6 = false
  tear : t.lend.tear = 1 ∧ t.lend.after = 1 ∧ t.lend.tearGen = jobGen t ∧ t.lend.oldGen = jobGen s

/-- R437: every engine of the job that runs, waits or is armed has been asked to quiesce. -/
def AskedToQuiesce (s t : State) : Prop :=
  ∀ e, ((∃ c, e = .ce c) ∨ ∃ (p : Fin 72) (k : _), e = .tile p k ∧ (logOf s p.val).isSome = true) → (getEng s e).st ∈ [EState.running, .waiting, .armed] →
    (getEng t e).quiesceReq = true ∧ (getEng t e).st = (getEng s e).st

/-- R487: a record of a check-value unit of a physical tile: its TAG, BASE and DETAIL. -/
def UnitRecords (s t : State) (p u code detail : Nat) : Prop :=
  Records s t (fun r => r.code = code ∧ r.unit = (logOf s p).getD 0xFF ∧ r.engine = 4 ∧ r.tag = getFi s TL_CV_TRIG_TAG p u ∧ r.gsc = s.gsc
    ∧ r.gen = jobGen s ∧ r.phys = p ∧ r.addr = getFi s TL_CV_REGION_BASE p u ∧ r.space = 0 ∧ r.detail = detail)

/-- R486: a check-value unit signals a counter of its own tile, where its flag asks for it. -/
def UnitSignals (s t : State) (p u : Nat) (on ctr : Fld) : Prop :=
  (getTile t p).pend = (getTile s p).pend
    ++ if getFi s on p u = 1 then [⟨getFi s ctr p u, 1, .unit (getFi s TL_CV_TRIG_TAG p u)⟩] else []

/-- The check-value unit is idle after a run or a combination has ended; other tiles, the engines and memory are as they were. -/
structure CvIdle (s t : State) (p u : Nat) : Prop where
  state : cvState t p u = 0
  done : getFi t TL_CV_STATUS_DONE p u = 1
  others : TilesBut [p] s t
  engines : EngsBut [] s t
  mem : ∀ a, a < ashBase → memByte t a = memByte s a

/-- R480, R486: a unit has come to a RAW value: RESULT follows from it, and is compared where CMP is 1. -/
structure CvEnds (s t : State) (p u raw : Nat) : Prop extends CvIdle s t p u where
  rawIs : getFi t TL_CV_RAW_R p u = raw % 2 ^ 64
  result : getFi t TL_CV_RESULT_R p u
    = cvResult (cvW s p u) (getFi s TL_CV_CFG_REF p u == 1) (getFi s TL_CV_CFG_INV p u == 1) raw % 2 ^ 64
  same : getFi s TL_CV_CFG_CMP p u = 0
      ∨ cvResult (cvW s p u) (getFi s TL_CV_CFG_REF p u == 1) (getFi s TL_CV_CFG_INV p u == 1) raw = getFi s TL_CV_EXPECT_E p u →
    getFi t TL_CV_STATUS_MISMATCH p u = getFi s TL_CV_STATUS_MISMATCH p u ∧ UnitSignals s t p u TL_CV_CFG_OKSIG TL_CV_CFG_OKCTR ∧ t.eb = s.eb
  differs : getFi s TL_CV_CFG_CMP p u = 1 →
      cvResult (cvW s p u) (getFi s TL_CV_CFG_REF p u == 1) (getFi s TL_CV_CFG_INV p u == 1) raw ≠ getFi s TL_CV_EXPECT_E p u →
    getFi t TL_CV_STATUS_MISMATCH p u = 1 ∧ UnitSignals s t p u TL_CV_CFG_BADSIG TL_CV_CFG_BADCTR
    ∧ (regGet t (regKey 2 p 0x20)).getLsbD (16 + u) = true
    ∧ UnitRecords s t p u 0x0601 (cvResult (cvW s p u) (getFi s TL_CV_CFG_REF p u == 1) (getFi s TL_CV_CFG_INV p u == 1) raw)

/-- R485: a unit has stopped on a poisoned word at an offset. -/
structure CvStops (s t : State) (p u off : Nat) : Prop extends CvIdle s t p u where
  poison : getFi t TL_CV_STATUS_POISON p u = 1
  signal : UnitSignals s t p u TL_CV_CFG_BADSIG TL_CV_CFG_BADCTR
  record : UnitRecords s t p u 0x0602 off

/-- R482: a unit refuses its configuration. -/
structure CvRefuses (s t : State) (p u : Nat) : Prop extends CvIdle s t p u where
  cfgErr : getFi t TL_CV_STATUS_CFG_ERR p u = 1
  pend : (getTile t p).pend = (getTile s p).pend
  regs : RegsBut [fldKey 2 TL_CV_STATUS_DONE p u] s t

/-- R482: the configurations that a unit refuses. -/
def CvUnfit (s : State) (p u : Nat) : Prop :=
  let w := getFi s TL_CV_CFG_WIDTH p u + 1
  let base := getFi s TL_CV_REGION_BASE p u
  let len := getFi s TL_CV_REGION_LEN p u
  let fold := getFi s TL_CV_CFG_FOLD p u
  2 ^ w ≤ getFi s TL_CV_POLY_P p u ∨ 2 ^ w ≤ getFi s TL_CV_INIT_I p u ∨ 2 ^ w ≤ getFi s TL_CV_EXPECT_E p u
    ∨ 0x400000 < base + len ∨ len = 0 ∨ fold = 3 ∨ ((fold = 1 ∨ fold = 2) ∧ (base % 8 ≠ 0 ∨ len % 8 ≠ 0))

/-- R514: a record of the MGC that concerns a physical tile. -/
def TileRecords (s t : State) (code phys detail : Nat) : Prop :=
  Records s t (fun r => r.code = code ∧ r.unit = 0x4A ∧ r.engine = 0 ∧ r.tag = 0 ∧ r.gsc = s.gsc ∧ r.phys = phys ∧ r.detail = detail)

/-- R498, R499: physical tile p, judged permanent while no other one waits and no move runs, is substituted at once where a SPARE exists,
by replacement where it cannot be read; it stays, and the shortage is shown, where none does. -/
def Substitutes (s t : State) (p : Nat) : Prop :=
  ∀ l, logOf s p = some l → s.perm = [] → s.migr = none →
    (∀ dst, spareTile s = some dst → t.perm = [] ∧ ptileOf t p = 3 ∧ ptileOf t dst = 3
      ∧ ∃ ask, t.migr = some ⟨l, p, dst, isolated s p, false, false, ask⟩)
    ∧ (spareTile s = none → t.perm = [p + 256] ∧ t.migr = none ∧ flagF t MG_SPARE_STATUS_EXHAUSTED 0 = true ∧ logOf t p = some l)

/-- R494 step 1: a move of a logical tile has begun; the engines of a source that is read quiesce, and the map has not changed. -/
structure MoveBegins (s t : State) (lt src dst : Nat) (repl rot : Bool) : Prop where
  states : ptileOf t src = 3 ∧ ptileOf t dst = 3
  map : t.tmap = s.tmap
  moves : ∃ ask, t.migr = some ⟨lt, src, dst, repl, rot, false, ask⟩
    ∧ ∀ k < 4, k ∈ ask ↔ repl = false ∧ (getEng s (tileEng src k)).st ∈ [EState.running, .waiting, .armed]
  asked : repl = false → ∀ k < 4, (getEng s (tileEng src k)).st ∈ [EState.running, .waiting, .armed] →
    (getEng t (tileEng src k)).quiesceReq = true ∧ (getEng t (tileEng src k)).st = (getEng s (tileEng src k)).st
  stays : repl = true → EngsBut [] s t
  mem : ∀ a, a < ashBase → memByte t a = memByte s a

/-- R494 step 3: what a tile's engines, units and counters held at the source stands at the target. -/
structure TileMoved (s t : State) (src dst : Nat) : Prop where
  regs : ∀ k < 4, ∀ n < 32, getG t (tileEng dst k) n = getG s (tileEng src k) n
  ctrs : ∀ n < 256, getCtr t dst n = getCtr s src n
  units : getMx t dst = getMx s src ∧ getVx t dst = getVx s src ∧ getDm t dst = getDm s src
  engines : ∀ k < 4, getEng t (tileEng dst k) = getEng s (tileEng src k)

/-- R494 step 5, R497: a tile is zeroed: its store, counters, units and engines. -/
structure TileZeroed (t : State) (p : Nat) : Prop where
  store : ∀ i < 0x400000, memByte t (tsAddr p i) = 0 ∧ isBad t (tsAddr p i) = false
  ctrs : ∀ n < 256, getCtr t p n = 0
  engines : ∀ k < 4, getEng t (tileEng p k) = Engine.reset

/-- R533: the instance meets the precondition of its block type. -/
def UpdateReady (s : State) (b i : Nat) : Prop :=
  i ∈ fwUnits s b
  ∧ (b = 10 → ∃ f ∈ slotFlues s (flueSlot s i), f ≠ i ∧ flueUp s f = true)
  ∧ (b = 11 → ∀ e, (getEng s e).st ≠ .running ∧ (getEng s e).st ≠ .waiting)
  ∧ (b = 8 → (getEng s (ceEng i)).st = .halted)
  ∧ (b = 7 → ∀ x < 64, (getCtx s x).cstate = 0)
  ∧ (b = 2 ∨ b = 4 → ptileOf s i = 1 ∨ ptileOf s i = 2 ∨ (ptileOf s i = 0 ∧ (spareTile s).isSome = true ∧ s.migr = none))

/-- R518, R523 steps 3 and 4: what each domain's reset clears, and no other domain's generation. -/
structure DomainCleared (s t : State) (d : Nat) : Prop where
  gen : (getDom t d).gen = ((getDom s d).gen + 1) % 256
  phase : (getDom t d).phase = 3
  others : ∀ d', d' ≠ d → d' ≠ 103 → getDom t d' = getDom s d'
  tile : d < 72 → TileZeroed t d
  flue : 78 ≤ d → d < 96 → (getFlue t (d - 78)).step = 0 ∧ (getFlue t (d - 78)).txq = []
  ce : 96 ≤ d → d < 100 → getCe t (d - 96) = { Ce.reset with nack := true } ∧ getEng t (ceEng (d - 96)) = Engine.reset
  hint : d = 100 → (∀ i < 6, (getStack t i).lines = []) ∧ t.lineQ = []
  barrier : d = 101 → ∀ x < 64, (getCtx s x).cstate = 1 → (getCtx t x).cstate = 2
  mgc : d = 102 → t.classCmd = none ∧ t.checking = none ∧ t.digest.reading = [] ∧ t.eb.reqs = [] ∧ t.tmap = s.tmap ∧ lendState t = lendState s
  memory : 72 ≤ d → d < 96 ∨ 100 ≤ d → ∀ a, a < ashBase → memByte t a = memByte s a

/-- R518, R531, R532: a whole-chip reset has cleared everything but what it keeps; every domain's generation has moved on. -/
structure ChipCleared (s t : State) : Prop where
  lending : lendState t = 5
  stage : getF t MG_KIND_STATUS_STAGE 0 = 0
  time : t.gsc = 0
  engines : ∀ e, getEng t e = Engine.reset
  map : ∀ l, physOf t l = none
  mem : ∀ a, a < ashBase → memByte t a = 0
  phase : (getDom t 103).phase = 0
  gens : (∀ d < 104, ashRd s (48 + d) 1 = (getDom s d).gen) → ∀ d < 104, (getDom t d).gen = ((getDom s d).gen + 1) % 256
  ledger : t.ledger = s.ledger
  fuses : t.fuses = s.fuses
  queue : t.pending = s.pending
  retired : ∀ p, ptileOf s p = 4 → ptileOf t p = 4

/-- R541, R543: a firmware image is valid for a block type. -/
def ImageValid (s : State) (b : Nat) (i : FwImage) : Prop :=
  i.headOk = true ∧ i.block.toNat = b ∧ i.digOk = true ∧ i.sigOk = true ∧ mapGet (fun _ => 0) s.fuses b ≤ i.svn.toNat ∧ i.svn.toNat ≤ 32

/-- R544: measurement register i has been extended once with a digest. -/
def Extended (s t : State) (i : Nat) (d : BitVec 256) : Prop :=
  mrValue t i = (Config.sm3 (bytesOf 32 (mrValue s i) ++ bytesOf 32 d.toNat)).toNat

/-- R537, R612, R613: nothing holds the boot: power is good, no stop, no whole-chip reset, RESET_N high. -/
def Boots (s : State) : Prop := s.pins.powerGood = true ∧ s.pins.stop = 0 ∧ isolated s 103 = false ∧ s.pins.lowTill ≤ s.gsc

/-- R492, R499: kindling gives the indices below n to the usable tiles in order, and the others become SPARE. -/
structure TilesAssigned (s t : State) (bad : List Nat) (n : Nat) : Prop where
  map : ∀ l, physOf t l = if l < n then ((List.range 72).filter (fun p => ptileOf s p != 4 && ptileOf s p != 5 && !bad.contains p))[l]? else none
  states : ∀ i p, ((List.range 72).filter (fun p => ptileOf s p != 4 && ptileOf s p != 5 && !bad.contains p))[i]? = some p →
    ptileOf t p = if i < n then 0 else 1
  retired : ∀ p ∈ bad, ptileOf s p ≠ 5 → ptileOf t p = 4

/-- R542: of a block type's two images the first valid one runs on every unit; with none valid the type is absent. -/
structure BlockLoaded (s t : State) (b : Nat) (x : FwImage × FwImage) : Prop where
  first : ImageValid s b x.1 → ∀ u ∈ fwUnits t b, fwVersion t b u = x.1.version.toNat
  second : ¬ImageValid s b x.1 → ImageValid s b x.2 → flagF t MG_KIND_STATUS_FALLBACK 0 = true ∧ ∀ u ∈ fwUnits t b, fwVersion t b u = x.2.version.toNat
  absent : ¬ImageValid s b x.1 → ¬ImageValid s b x.2 → ∀ u, blkAbsent t b u = true

/-- R586, R588: the Eboth link has gone down for a cause: it trains again (or is held while EN is 0), keeps its retry buffer, and
EBOTH_LINK_DOWN is recorded. -/
structure LinkFalls (s t : State) (cause lane : Nat) : Prop where
  state : getF t EB_STATUS_STATE 0 = if flagF t EB_CFG_EN 0 then 1 else 3
  locked : getF t EB_STATUS_LOCKED 0 = 0
  since : t.eb.downSince = s.gsc
  replay : t.eb.replay = []
  sent : t.eb.sent = s.eb.sent
  requests : t.eb.reqs = s.eb.reqs
  record : McRecords s t 0x1101 (cause + 2 ^ 8 * lane)

/-- R576: a frame has been put on the line, with the acknowledgement, the generation and the check value of every frame. -/
structure FrameLeaves (s t : State) (fr : EbFrame) : Prop where
  line : t.eb.line = some fr
  lack : fr.lack = BitVec.ofNat 12 (s.eb.rseq + 4095)
  nak : fr.nak = s.eb.sendNak
  gen : fr.gen = BitVec.ofNat 8 s.eb.portGen
  crc : fr.crc = ebCrc fr
  count : getF t EB_TX_BYTES 0 = (getF s EB_TX_BYTES 0 + 40 + fr.body.length) % 2 ^ 64

/-- R586: the hold of a lost link has run out: a new port generation, empty buffers, the events sent again, an image begun again. -/
structure PortRestarts (s t : State) : Prop where
  gen : t.eb.portGen = (s.eb.portGen + 1) % 256
  sent : t.eb.sent = []
  replay : t.eb.replay = []
  lseq : t.eb.lseq = 0
  rseq : t.eb.rseq = 0
  granule : t.folio.sending = none
  events : ∀ e ∈ s.eb.events, e ∈ t.eb.events ∧ eventMsg e.1 e.2 ∈ t.eb.out
  record : McRecords s t 0x1102 ((s.eb.portGen + 1) % 256)
  image : s.lend.image = 2 → s.gsc < cutoff s → getTimer t tmImage = s.gsc

/-- R579: the LEN and the body that a request's type allows. -/
def Fits (m : EbFrame) : Prop :=
  let n := m.len.toNat
  match m.mtype.toNat with
  | 1 => (n = 4 ∨ n = 8) ∧ m.body = []
  | 2 => (n = 4 ∨ n = 8) ∧ m.body.length = n
  | 3 => 1 ≤ n ∧ n ≤ 16384 ∧ m.body.length = n
  | 6 => n = 32 ∧ m.body.length = 32
  | 7 | 8 => n ≤ 16384 ∧ m.body.length = n
  | _ => n = 0 ∧ m.body = []

/-- R580, R603: a request may act now: its command names its type, no earlier request of its class waits, and a PUT's or GET's slices
take it. -/
structure MayAct (s : State) (m : EbFrame) (ty : Nat) : Prop where
  type : m.mtype.toNat = ty
  turn : ebBefore s m = false
  put : ty = 3 → windowWaits s m.a.toNat m.body.length true = false
  get : ty = 4 → windowWaits s m.a.toNat (bits m.b.toNat 0 15) false = false

/-- R583: a request that its own effect follows: its form fits, its tag is new (a GET and the two acknowledgements always act), and the
MGC is there to handle it (R525). -/
def Acts (s : State) (m : EbFrame) (ty : Nat) : Prop :=
  MayAct s m ty ∧ Fits m ∧ (ty ∈ [4, 9, 10] ∨ remembered s m.tag.toNat = none) ∧ ¬(isolated s 102 = true ∧ 5 ≤ ty ∧ ty ≤ 9)

/-- R582, R583, R589: a response leaves; its tag remembers it, unless it is GET_DATA; a BAD_REQUEST counts. -/
structure Responds (s t : State) (r : EbMsg) : Prop where
  out : t.eb.out = s.eb.out ++ [r]
  tag : r.mtype ≠ 0x43 → remembered t r.tag = some r
  count : getF t EB_ERR_BAD_REQ 0 = if r.status = 3 then satAdd 16 (getF s EB_ERR_BAD_REQ 0) 1 else getF s EB_ERR_BAD_REQ 0
  regs : RegsBut [fKey EB_ERR_BAD_REQ 0] s t
  frame : Only [.regs, .eb] s t

/-- R580: WR_ACK with a status. -/
def AcksWrite (s t : State) (m : EbFrame) (st : Nat) : Prop := Responds s t ⟨1, 0x42, st, m.tag.toNat, m.a.toNat, 0, []⟩

end Sys2Proof.Machine
end

