-- ==== Sys2Proof/WellFormed.lean ====
section
/-! DEFINITION. Well-formed commands: the checks that the spec puts on what arrives with a command, before any meaning. A
register access is aligned to its width within the register pages, a packet's payload is as long as its header says, a frame's body
fits the frame, reserved fields are zero, and a unit's number names a unit. -/
namespace Sys2Proof

/-- R580, R595: a register access is aligned to its width and lies in the register pages. -/
def regAddrOk (addr : BitVec 40) (wide : Bool) : Bool :=
  addr.toNat % (if wide then 8 else 4) == 0 && 0xF000000000 ≤ addr.toNat && addr.toNat < 0xF100000000

/-- R357, R359: the payload bytes that a packet of this header carries; a read request carries none. -/
def Packet.bytes (p : Packet) : Nat := if p.typ = 1 ∨ p.typ = 2 then 0 else p.len.toNat

/-- R357: payload as long as LEN, at most 256 bytes, reserved bits zero, a virtual channel and a type that exist. -/
def Packet.wf (p : Packet) : Bool :=
  p.payload.length == p.bytes && p.len.toNat ≤ 256 && p.vc.toNat < 6 && p.typ.toNat < 12 && !p.rsvA && !p.rsvB && p.rsvC == 0

/-- R357: a packet of the given type. -/
def Packet.wfOf (p : Packet) (typ : Nat) : Bool := p.wf && p.typ.toNat == typ

/-- R331: a body of at most 992 bytes, a type that exists, reserved bits zero. -/
def FlFrame.wf (f : FlFrame) : Bool :=
  f.body.length ≤ 992 && f.typ.toNat < 3 && !f.rsvA && f.rsvB == 0 && f.rsvC == 0 && f.rsvD == 0 && f.rsvE == 0 && f.rsvF == 0

/-- R576: a body as long as LEN (a REG_RD's LEN names the bytes asked for and carries none) and at most 16,384 bytes, a kind that exists, reserved bits zero. -/
def EbFrame.wf (f : EbFrame) : Bool :=
  (f.body.length == f.len.toNat || (f.mtype == 1 && f.body.isEmpty)) && f.len.toNat ≤ 16384 && f.kind.toNat < 3 && f.rsvA == 0 && !f.rsvB && f.rsvC == 0

/-- R579: a message frame of the given type. -/
def EbFrame.wfOf (f : EbFrame) (mtype : Nat) : Bool :=
  f.wf && f.kind == 1 && f.mtype.toNat == mtype

/-- R455: a line error names a 16-byte word. -/
def LineErr.wf (e : LineErr) : Bool := e.addr.toNat % 16 == 0 && e.readAt.toNat % 16 == 0

/-- The checks of each command's operands. -/
def Instr.wf (i : Instr) : Bool :=
  match i with
  | .registerWrite a w _ => regAddrOk a w
  | .registerReadClear a w => regAddrOk a w
  | .errLogClear _ _ => true
  | .irqForce _ _ _ => true
  | .ctrlDrain _ _ _ => true
  | .ctrlResetReq _ _ => true
  | .engineFetch x => x.errs.all LineErr.wf
  | .load _ => true
  | .start _ => true
  | .arm _ => true
  | .halt _ => true
  | .quiesce _ => true
  | .resume _ => true
  | .markEnWrite _ _ => true
  | .pGWrite _ _ _ => true
  | .engineLaunch _ _ => true
  | .engineQuiesced _ => true
  | .tileRampStep _ => true
  | .ctNop _ => true
  | .ctHalt _ => true
  | .ctTrap _ => true
  | .ctMark _ => true
  | .stepMarkComplete => true
  | .ctLaunch _ => true
  | .ctLi _ => true
  | .ctAddi _ => true
  | .ctLd _ => true
  | .ctGsc _ => true
  | .ctJmp _ => true
  | .ctBnz _ => true
  | .syWait _ => true
  | .syAdd _ => true
  | .sySub _ => true
  | .sySig _ => true
  | .syGet _ => true
  | .syBar _ => true
  | .counterIncrement _ _ _ => true
  | .waitTimeout _ _ => true
  | .waitGraphSnapshot => true
  | .barrierArrival _ => true
  | .barrierReleasesDelivered _ => true
  | .baCfgWrite _ _ _ => true
  | .syCtrWrite _ _ _ => true
  | .sySigTimeout _ _ _ => true
  | .mxFill _ => true
  | .mxLds _ => true
  | .mxLdsp _ => true
  | .mxMm _ => true
  | .mxMmp _ => true
  | .mxSt _ => true
  | .mxLdacc _ => true
  | .mxDrain _ => true
  | .mxFlag _ => true
  | .mxLoadComplete _ _ => true
  | .mxInstrComplete _ _ => true
  | .mxIssueTimeout _ _ => true
  | .vxLd _ => true
  | .vxSt _ => true
  | .vxLda _ => true
  | .vxSta _ => true
  | .vxFop _ => true
  | .vxIop _ => true
  | .vxCmp _ => true
  | .vxPop _ => true
  | .vxSfu _ => true
  | .vxRed _ => true
  | .vxRmax _ => true
  | .vxRsum _ => true
  | .vxDrop _ => true
  | .vxRng _ => true
  | .vxPos _ => true
  | .vxCmask _ => true
  | .vxOpt _ => true
  | .vxInstrComplete _ _ => true
  | .vxRngKeyWrite _ _ => true
  | .dmCopy _ => true
  | .dmFill _ => true
  | .dmWarm _ => true
  | .dmGather _ => true
  | .dmAtomadd _ => true
  | .dmPieceIssue _ _ => true
  | .dmPieceComplete _ _ _ => true
  | .dmDescriptorResume _ _ => true
  | .dmReadAhead _ _ => true
  | .dmStallTimeout _ _ _ => true
  | .dmRequestTimeout _ _ _ _ => true
  | .dmDescriptorTimeout _ _ _ => true
  | .dmXferBusyRetry _ _ _ _ => true
  | .dmRecallHeldResend _ _ _ _ => true
  | .tileSweepRead _ _ _ e => e.all LineErr.wf
  | .routerPacketArrival p _ => p.wf
  | .routerPacketForward _ => true
  | .routerStallDrop _ _ => true
  | .write p => p.wfOf 0
  | .readReq p => p.wfOf 1
  | .narrow p => p.wfOf 2
  | .atomic p => p.wfOf 3
  | .signal p => p.wfOf 4
  | .mirror p => p.wfOf 5
  | .ack p => p.wfOf 7
  | .data p => p.wfOf 8
  | .nack p => p.wfOf 9
  | .hold p => p.wfOf 10
  | .xferEntryExpire _ _ _ => true
  | .rtEditionArm => true
  | .editionSwitch _ => true
  | .rtEditionAtWrite _ => true
  | .rtEdnCfgWrite _ _ => true
  | .rtNodeWrite _ => true
  | .catalogueLive => true
  | .flueFrameTransmit _ => true
  | .flueFrameReceived _ f _ _ => f.wf
  | .flueLaneTrained _ _ => true
  | .flueFecLock _ _ _ _ => true
  | .flueFrameLock _ => true
  | .flueDiscovery _ _ => true
  | .flueTrainFail _ => true
  | .flueFrameLockLost _ => true
  | .flReset _ => true
  | .flEnWrite _ _ => true
  | .flSelftest _ => true
  | .flSelftestComplete _ _ _ _ _ => true
  | .neighbourHello _ _ _ _ => true
  | .neighbourProof _ _ => true
  | .proofTimeout _ _ => true
  | .laneRotationStart _ _ => true
  | .laneSwap _ => true
  | .laneRecalComplete _ _ _ => true
  | .laneFail _ _ _ => true
  | .laneRejoin _ => true
  | .ceAllreduce _ => true
  | .ceReducescatter _ => true
  | .ceAllgather _ => true
  | .ceBcast _ => true
  | .ceSend _ => true
  | .ceRecv _ => true
  | .ceRingpass _ => true
  | .cePieceSend _ _ => true
  | .ceReducePiece p => p.wfOf 11
  | .ceCopyPiece p => p.wfOf 11
  | .ceReady p => p.wfOf 11
  | .ceCredit p => p.wfOf 11
  | .ceDone p => p.wfOf 11
  | .ceBarrierArrive p => p.wfOf 11
  | .ceBarrierRelease p => p.wfOf 11
  | .ceOpComplete _ => true
  | .cePeerTimeout _ _ => true
  | .ceConfigWrite _ o _ => o.toNat % 4 == 0
  | .hcAccess _ _ _ x => x.errs.all LineErr.wf
  | .hcFlushWb _ => true
  | .hcFlushInv _ => true
  | .hcFlushDone _ => true
  | .hcSweep _ e => e.all LineErr.wf
  | .mcSweepLine _ x => x.errs.all LineErr.wf
  | .mcRetireCmd _ _ => true
  | .retirementMigrationComplete x => x.errs.all LineErr.wf
  | .ftLoad => true
  | .ftLoadComplete => true
  | .ftUpdate => true
  | .mcRestore _ => true
  | .restoreResend _ _ => true
  | .holdReplySend _ => true
  | .holdTimeout _ _ => true
  | .trickleGranuleSend => true
  | .mirrorFenceTimeout _ => true
  | .mirrorResync => true
  | .mirrorResyncComplete => true
  | .mirrorFenceRecord _ _ => true
  | .gscExchange _ => true
  | .gscTimeReply _ _ _ _ _ => true
  | .gscHoldover _ => true
  | .ppsEdge _ => true
  | .ppsLost _ => true
  | .ckCfgWrite _ => true
  | .serve => true
  | .idle => true
  | .lend _ => true
  | .lendRestore _ => true
  | .recallCommand _ => true
  | .image => true
  | .release _ => true
  | .resumeJob => true
  | .mgLendCfgWrite _ => true
  | .teardownDrainEnd => true
  | .drainLate _ => true
  | .teardownFence => true
  | .allQuiesced => true
  | .quiesceDeadline _ => true
  | .recallImageComplete => true
  | .recallCutoff _ => true
  | .recallRiskCheck _ => true
  | .zeroisationComplete => true
  | .digestTileDone _ => true
  | .digestMessage _ _ _ _ => true
  | .digestLate _ => true
  | .tlDigestRgnWrite _ _ _ => true
  | .classAsk _ => true
  | .classRecordTransient _ => true
  | .classRecordPermanent _ => true
  | .classRecordSparePermanent _ => true
  | .cvStart _ _ => true
  | .cvArm _ _ => true
  | .cvDisarm _ _ => true
  | .cvCombine _ _ => true
  | .cvCombineComplete _ _ => true
  | .cvRunComplete _ _ => true
  | .cvPoisonStop _ _ => true
  | .cvConfigWrite _ _ o _ => o.val % 4 == 0
  | .migrate _ d => d.toNat < 72
  | .replace _ d => d.toNat < 72
  | .tileMigrationComplete => true
  | .tileRotation _ => true
  | .tileTestComplete _ => true
  | .testRotation => true
  | .testBist => true
  | .bistComplete _ => true
  | .mirrorPush _ => true
  | .domainResetRequest d _ => d.toNat < 104
  | .resetHoldExpire _ _ => true
  | .debugRingTimeout _ _ => true
  | .collectionComplete x => x.errs.all LineErr.wf
  | .domainReady _ _ => true
  | .wdogKick => true
  | .mgcWatchdog _ => true
  | .staleGeneration _ _ => true
  | .updateStage _ _ => true
  | .updateApply _ _ => true
  | .updateDrop => true
  | .updateDone => true
  | .powerGoodRise _ _ => true
  | .powerGoodFall => true
  | .resetN n => 10 ≤ n
  | .kindlingK0 _ _ _ _ _ => true
  | .kindlingK1 _ _ => true
  | .kindlingK2 _ _ _ => true
  | .kindlingK3 => true
  | .kindlingK4 _ l _ => l.length ≤ 8
  | .kindled => true
  | .commit _ => true
  | .mr7Extend => true
  | .neighbourColophonRequest _ _ => true
  | .periodEnd _ => true
  | .railSample _ _ => true
  | .temperatureSample l _ => !l.isEmpty
  | .pacingLevelStep _ => true
  | .pathDelaySample l _ => l.length ≤ 72 && l.all (fun x => x.length == 8)
  | .ageingPrediction _ => true
  | .ebothFrameTransmit => true
  | .ebothFrameReceived f _ => f.wf
  | .ebothHello _ _ _ _ => true
  | .ebothLossOfSignal _ => true
  | .ebReset => true
  | .ebEnWrite _ => true
  | .ebothHoldExpire _ => true
  | .ebothLostRelease _ => true
  | .ebothRequestTimeout _ _ => true
  | .regRd m => m.wfOf 1
  | .regWr m => m.wfOf 2
  | .put m => m.wfOf 3
  | .get m => m.wfOf 4
  | .recall m => m.wfOf 5
  | .coloReq m => m.wfOf 6
  | .sink m => m.wfOf 7
  | .testset m => m.wfOf 8
  | .eventAck m => m.wfOf 9
  | .granuleAck m => m.wfOf 0x0A
  | .smbAddressWrite a => a.toNat % 4 == 0
  | .smbStatus => true
  | .smbTemp => true
  | .smbPower => true
  | .smbRegRd => true
  | .idcode => true
  | .samplePreload _ => true
  | .extest => true
  | .clamp => true
  | .highz => true
  | .bypass => true
  | .jtagReset => true
  | .ebothTrainFail => true
  | .ftUpdateComplete => true
  | .mr7ExtendComplete => true
  | .classCommandComplete => true
  | .updateStageComplete => true

end Sys2Proof
end

