-- ==== Sys2Proof/Certificates/Slice0/Obligations.lean ====
section
/-! DEFINITION. The statements about the GW7 for the provers: what each command does where the spec says it acts, what it leaves
alone, and what every step keeps. -/
open Sys2Proof Sys2Proof.Machine

/-- When a command stands at the front of the queue, a step is that command's meaning on the state with the queue's rest. (On an empty queue one GSC count passes: the model's choice, log entry 2.) (95_what_each_step_holds.md, R422) -/
def Obligations.StepRunsFrontCommand : Prop :=
  (∀ c rest s, s.pending = c :: rest → step s = exec c { s with pending := rest })
  ∧ ∀ s, s.pending = [] → step s = .next (advance s 1)

/-- From every state whose sparse maps (memory and its poison marks among them) are canonical, each command answers a next state with canonical maps, and a step takes exactly the front command from the queue. (R127, R459, 95_what_each_step_holds.md) -/
def Obligations.StepKeepsCanon : Prop :=
  ∀ s, Canon s → ∃ t, step s = .next t ∧ Canon t ∧ t.pending = s.pending.drop 1

/-- The state after reset has canonical maps and an empty queue: every byte of memory reads 0 (the model's choice where the spec gives no contents, log entry 3), no word is poisoned, every engine is HALTED. (R459, R212) -/
def Obligations.ResetIsCanon : Prop :=
  Canon State.reset ∧ Memory.wf State.reset = true ∧ State.reset.pending = [] ∧ (∀ a, memByte State.reset a = 0 ∧ isBad State.reset a = false)
  ∧ (∀ e, (getEng State.reset e).st = .halted)

/-- REGISTER_WRITE of a register without a row of its own changes each field by its access type (RW set, W1C cleared by ones, W1S set by ones, RO, RC, WO and RSV left) and no other register; a wide access of two such 32-bit registers is the two narrow ones; a write of an absent unit's page is ignored. (R10, R11, R595, R592) -/
def Obligations.RegisterWriteByType : Prop :=
  (∀ (a : BitVec 40) (v : DWord) s b inst off r i w, Canon s → Reaches s a.toNat b inst off → a.toNat % (if w then 8 else 4) = 0 →
    regAt b inst off = some (r, i) → r.words = (if w then 2 else 1) → off = r.off + i * r.stride → PlainReg b inst off →
    Does (.registerWrite a w v) s (fun t =>
      (∀ f ∈ r.fields,
        let o := bits (regGet s (regKey b inst off)).toNat f.lo f.len
        let n := bits v.toNat f.lo f.len
        bits (regGet t (regKey b inst off)).toNat f.lo f.len =
          match f.typ with | .rw => n | .w1c => o - (o &&& n) | .w1s => o ||| n | _ => o)
      ∧ RegsBut [regKey b inst off] s t ∧ Only [.regs] s t))
  ∧ (∀ (a : BitVec 40) (v : DWord) s b inst off r i r' i', Canon s → Reaches s a.toNat b inst off → a.toNat % 8 = 0 →
    regAt b inst off = some (r, i) → r.words = 1 → regAt b inst (off + 4) = some (r', i') → r'.words = 1 →
    PlainReg b inst off → PlainReg b inst (off + 4) →
    ∃ u, exec (.registerWrite a false v) s = .next u
      ∧ exec (.registerWrite a true v) s = exec (.registerWrite (a + 4) false (v >>> 32)) u)
  ∧ (∀ a w v s b inst off, regPage (BitVec.toNat a) = some (b, inst, off) → blkAbsent s b inst = true →
    exec (.registerWrite a w v) s = .next s)

/-- REGISTER_READ_CLEAR clears the RC fields of the register it reads to zero and leaves every other field and register; a wide read does so for both registers it covers. (In a stale count of the MGC page the count last reported starts again, R521; RT_OLD.SEEN is set again at once while packets of the old edition are held, R380.) (R10, R380, R521, R595) -/
def Obligations.RegisterReadClearsCounts : Prop :=
  ∀ (a : BitVec 40) s b inst off r i, Canon s → Reaches s a.toNat b inst off → regAt b inst off = some (r, i) →
    let k := regKey b inst (r.off + i * r.stride)
    (a.toNat % 4 = 0 → Does (.registerReadClear a false) s (fun t =>
      (∀ f ∈ r.fields, bits (regGet t k).toNat f.lo f.len =
        if f.typ = .rc then b2n (b == 9 && inst == 0 && r.off + i * r.stride == 0x54 && oldCount s != 0)
        else bits (regGet s k).toNat f.lo f.len)
      ∧ RegsBut [k] s t ∧ Only [.regs, .doms] s t))
    ∧ (a.toNat % 8 = 0 → ∃ u v, exec (.registerReadClear a false) s = .next u
      ∧ exec (.registerReadClear (a + 4) false) u = .next v ∧ exec (.registerReadClear a true) s = .next v)

/-- ERR_LOG_CLEAR clears VALID, CODE and COUNT of a page; IRQ_FORCE sets the FAULT and READY bits written (on TL pages also the two check-value bits) and no reserved bit; CTRL_DRAIN sets or clears DRAIN where the block has it; CTRL_RESET_REQ asks for a reset of the page's domain, which isolates it at once when no reset runs. (R601, R603, R519) -/
def Obligations.HeaderCommands : Prop :=
  ∀ (b : Fin 17) (i : Fin 72) s, Canon s → 1 ≤ b.val → i.val < blkInstances b.val → pageUp s b.val i.val = true →
    Does (.errLogClear b i) s (fun t => rdF t b H_ERR_LOG_VALID i 0 = 0 ∧ rdF t b H_ERR_LOG_CODE i 0 = 0
      ∧ rdF t b H_ERR_LOG_COUNT i 0 = 0 ∧ rdF t b H_ERR_LOG_GSC i 0 = rdF s b H_ERR_LOG_GSC i 0
      ∧ RegsBut [fldKey b H_ERR_LOG_VALID i 0] s t ∧ Only [.regs] s t)
    ∧ (∀ v : Word, Does (.irqForce b i v) s (fun t =>
      regGet t (regKey b i 0x20) = regGet s (regKey b i 0x20) ||| (v.setWidth 64 &&& (if b.val = 2 then 0x30003 else 3))
      ∧ RegsBut [regKey b i 0x20] s t ∧ Only [.regs] s t))
    ∧ (∀ on, Does (.ctrlDrain b i on) s (fun t =>
      (capDrain b i = true → rdF t b H_CTRL_DRAIN i 0 = b2n on) ∧ (capDrain b i = false → t = s)
      ∧ RegsBut [fldKey b H_CTRL_DRAIN i 0] s t ∧ Only [.regs] s t))
    ∧ (capReset b i = true → isolated s (pageDomain b i) = false → mayReset s (pageDomain b i) →
      Does (.ctrlResetReq b i) s (fun t => ResetBegun s t (pageDomain b i) 1 true))
    ∧ (capReset b i = false → exec (.ctrlResetReq b i) s = .next s)

/-- LOAD, START, ARM, HALT, QUIESCE and RESUME take effect in the program states that R213 lists (LOAD sets PC to START_PC, ARM takes the launch count from LAUNCH.COUNT, RESUME of an engine with no open wait returns to the state held before quiesce, an ARMED one with the count of LAUNCH.COUNT); in another state they leave the engine and set CMD_ERR. HALT and QUIESCE meet an ARMED engine whose launch is due as RUNNING (R214). An engine that resumes is QUIESCED no more. Other engines keep their program state. (R212, R213, R214, R215, R216) -/
def Obligations.EngineCommands : Prop :=
  ∀ e s, Canon s → pageUp s (engBlk e) (engInst e) = true →
    let st := (getEng s e).st
    let refuses := fun c => Does c s (fun t => getEng t e = getEng s e ∧ getP t e P_PSTATE_CMD_ERR = 1
      ∧ RegsBut [pKey e P_PSTATE_CMD_ERR] s t ∧ Only [.regs] s t)
    (st = .halted → Does (.load e) s (fun t => (getEng t e).st = .loaded ∧ (getEng t e).fetchPc = getP s e P_START_PC_PC
      ∧ (getEng t e).queue = [] ∧ EngsBut [e] s t ∧ Only [.engines, .ces] s t))
    ∧ (st ≠ .halted → refuses (.load e))
    ∧ (st = .loaded → Does (.start e) s (fun t => getEng t e = { getEng s e with st := .running, since := s.gsc }
      ∧ EngsBut [e] s t ∧ Only [.engines] s t))
    ∧ (st ≠ .loaded → refuses (.start e))
    ∧ (st = .loaded → Does (.arm e) s (fun t =>
      let n := regGet s (launchKey e)
      getEng t e = { getEng s e with st := .armed, launch := n, late := decide (n.toNat < s.gsc) }
      ∧ EngsBut [e] s t ∧ Only [.engines] s t))
    ∧ (st ≠ .loaded → refuses (.arm e))
    ∧ (st = .loaded ∨ (st = .armed ∧ ¬ LaunchDue s e) ∨ st = .quiesced ∨ st = .faulted → Does (.halt e) s (fun t =>
      (getEng t e).st = .halted ∧ (getEng t e).queue = [] ∧ (getEng t e).fetchPc = enginePc (getEng s e)
      ∧ EngsBut [e] s t ∧ Only [.engines, .tiles, .ces, .mark, .router] s t))
    ∧ (st = .halted ∨ st = .running ∨ st = .waiting → refuses (.halt e))
    ∧ (LaunchDue s e → Does (.halt e) s (fun t => (getEng t e).st = .running ∧ getP t e P_PSTATE_CMD_ERR = 1
      ∧ EngsBut [e] s t ∧ Only [.engines, .regs] s t))
    ∧ (st = .running ∨ st = .waiting ∨ (st = .armed ∧ ¬ LaunchDue s e) → Does (.quiesce e) s (fun t =>
      getEng t e = { getEng s e with quiesceReq := true, quiesceAt := s.gsc } ∧ EngsBut [e] s t ∧ Only [.engines] s t))
    ∧ (LaunchDue s e → Does (.quiesce e) s (fun t => (getEng t e).st = .running ∧ (getEng t e).quiesceReq = true
      ∧ EngsBut [e] s t ∧ Only [.engines, .regs] s t))
    ∧ (st = .halted ∨ st = .loaded ∨ st = .quiesced ∨ st = .faulted → refuses (.quiesce e))
    ∧ (st = .quiesced → (getEng s e).resumeSt = .running → (getEng s e).marks = [] → (getEng s e).lateSigs = [] →
      (getEng s e).wait = none → (getEng s e).fwait = none → Does (.resume e) s (fun t =>
        getEng t e = { getEng s e with st := .running, restored := false, quiesceReq := false }
        ∧ EngsBut [e] s t ∧ Only [.engines, .tiles, .ces] s t))
    ∧ (st = .quiesced → (getEng s e).resumeSt = .armed → (getEng s e).marks = [] → (getEng s e).lateSigs = [] →
      (getEng s e).wait = none → (getEng s e).fwait = none → Does (.resume e) s (fun t =>
        (getEng t e).st = .armed ∧ (getEng t e).launch = regGet s (launchKey e)
        ∧ (getEng t e).late = decide ((regGet s (launchKey e)).toNat < s.gsc)))
    ∧ (st = .quiesced → (getEng s e).resumeSt = .running ∨ (getEng s e).resumeSt = .waiting ∨ (getEng s e).resumeSt = .armed →
      Does (.resume e) s (fun t => (getEng t e).st ≠ .quiesced))
    ∧ (st ≠ .quiesced → refuses (.resume e))

/-- MARK_EN_WRITE sets MARK_EN while the engine is HALTED or LOADED, does nothing when the value stays, and otherwise sets CMD_ERR; P_G_WRITE sets general register n while the engine is HALTED, LOADED or QUIESCED, and otherwise sets CMD_ERR and leaves the register. (R221, R237) -/
def Obligations.EngineRegisterWrites : Prop :=
  ∀ e s, Canon s → pageUp s (engBlk e) (engInst e) = true →
    let st := (getEng s e).st
    (∀ v, b2n v ≠ getP s e P_PCTL_MARK_EN → st = .halted ∨ st = .loaded → Does (.markEnWrite e v) s (fun t =>
      getP t e P_PCTL_MARK_EN = b2n v ∧ RegsBut [pKey e P_PCTL_MARK_EN] s t ∧ Only [.regs] s t))
    ∧ (∀ v, b2n v = getP s e P_PCTL_MARK_EN → exec (.markEnWrite e v) s = .next s)
    ∧ (∀ v, b2n v ≠ getP s e P_PCTL_MARK_EN → st ≠ .halted → st ≠ .loaded → Does (.markEnWrite e v) s (fun t =>
      getP t e P_PSTATE_CMD_ERR = 1 ∧ RegsBut [pKey e P_PSTATE_CMD_ERR] s t ∧ Only [.regs] s t))
    ∧ (∀ (n : Fin 32) v, st = .halted ∨ st = .loaded ∨ st = .quiesced → Does (.pGWrite e n v) s (fun t =>
      getG t e n = v ∧ RegsBut [gKey e n] s t ∧ Only [.regs] s t))
    ∧ (∀ (n : Fin 32) v, st = .armed ∨ st = .running ∨ st = .waiting ∨ st = .faulted → Does (.pGWrite e n v) s (fun t =>
      getP t e P_PSTATE_CMD_ERR = 1 ∧ RegsBut [pKey e P_PSTATE_CMD_ERR] s t ∧ Only [.regs] s t))

/-- ENGINE_FETCH that meets no error appends the instruction at the fetch address to the queue and moves the fetch on, to the target of a ct.jmp; a poisoned word that nothing stands before faults with POISON_CONSUMED, and a fetch past the last instruction with CT_PC_RANGE at the last index. ENGINE_LAUNCH takes an ARMED engine whose launch is due to RUNNING, setting LATE when the count had passed; before that it does nothing. ENGINE_QUIESCED takes an engine with no issued work left to QUIESCED. TILE_RAMP_STEP brings one more group of 8 tiles to full draw, or one fewer, no sooner than 10 µs after the last. (R206, R208, R209, R213, R215, R20, R199) -/
def Obligations.FetchLaunchQuiesce : Prop :=
  (∀ e s, Canon s → let g := getEng s e
    let w := (imemWord s e g.fetchPc).1
    (g.st = .running ∨ g.st = .waiting) → g.quiesceReq = false → isolated s (engDom e) = false → g.queue.length < 16 → g.fetchStop = false →
    g.fetchPc < imemSize e →
      ((imemWord s e g.fetchPc).2 = false → accepts e (iCls w) = true → opExists (iCls w) (iOp w) = true →
        Does (.engineFetch ⟨e, [], false⟩) s (fun t =>
          (getEng t e).queue = g.queue ++ [⟨g.fetchPc, w, g.marks.head?.getD false, false, none⟩]
          ∧ (getEng t e).fetchPc = (if iCls w = 0 ∧ iOp w = 0x0C then ifld w 68 12 else g.fetchPc + 1)
          ∧ (getEng t e).st = g.st ∧ EngsBut [e] s t ∧ Only [.engines] s t))
      ∧ ((imemWord s e g.fetchPc).2 = true → g.queue = [] → canIssue s e = true →
        Does (.engineFetch ⟨e, [], false⟩) s (fun t => FaultsWith s t e 0x0303 0 g.fetchPc)))
  ∧ (∀ e s, Canon s → canIssue s e = true → (getEng s e).queue = [] → (getEng s e).fetchStop = false → imemSize e ≤ (getEng s e).fetchPc →
    Does (.engineFetch ⟨e, [], false⟩) s (fun t => FaultsWith s t e 0x0D03 0 (imemSize e - 1)))
  ∧ (∀ e dt s, Canon s → let u := advance s dt
    isolated s (engDom e) = false →
      (LaunchDue u e → Does (.engineLaunch e dt) s (fun t => (getEng t e).st = .running
        ∧ ((getEng s e).late = true → getP t e P_PSTATE_LATE = 1)
        ∧ RegsBut (if (getEng s e).late then [pKey e P_PSTATE_LATE] else []) s t ∧ EngsBut [e] s t ∧ Only [.gsc, .regs, .engines] s t))
      ∧ (¬ LaunchDue u e → exec (.engineLaunch e dt) s = .next u))
  ∧ (∀ e s, Canon s → let g := getEng s e
    g.quiesceReq = true → (g.st = .running ∨ g.st = .waiting ∨ g.st = .armed) → quiesceReady s e = true → g.sigs = [] →
    (∀ p k, e = .tile p k → cvState s p 0 < 2 ∧ cvState s p 1 < 2) →
    Does (.engineQuiesced e) s (fun t => (getEng t e).st = .quiesced ∧ (getEng t e).resumeSt = g.st ∧ (getEng t e).launch = g.launch
      ∧ (getEng t e).fetchPc = enginePc g ∧ (getEng t e).queue = [] ∧ EngsBut [e] s t ∧ Only [.engines, .tiles, .ces, .regs] s t))
  ∧ (∀ dt s, Canon s → let u := advance s dt
    (getTimer s tmRamp = 0 ∨ getTimer s tmRamp + 10000 ≤ u.gsc →
      (rampUp s = true → s.ramp < 9 → Does (.tileRampStep dt) s (fun t => t.ramp = s.ramp + 1 ∧ Only [.gsc, .ramp, .timers] s t))
      ∧ (anyActive s = false → 0 < s.ramp → Does (.tileRampStep dt) s (fun t => t.ramp = s.ramp - 1 ∧ Only [.gsc, .ramp, .timers] s t)))
    ∧ (getTimer s tmRamp ≠ 0 → u.gsc < getTimer s tmRamp + 10000 → exec (.tileRampStep dt) s = .next u))

/-- ct.nop changes nothing beyond its flags; ct.li sets g[RD] to IMM; ct.addi sets g[RD] to g[RA] + sext(IMM) modulo 2^64; ct.gsc sets g[RD] to the GSC value; ct.ld sets g[RD] to 8 bytes of the home tile's store at (g[RA][21:0] + OFF) mod 2^22. Each leaves the queue, signals SCTR when S is set, and leaves every other register, engine and tile. A ct.ld faults with CT_BAD_ENCODING at an address that is not 8-byte aligned, with POISON_CONSUMED at a poisoned word, and with ABSENT_UNIT where its engine has no home tile. (R218, R219, R201, R220) -/
def Obligations.ControlOnRegisters : Prop :=
  ∀ e s q, Canon s → let w := q.word
    let rd := ifld w 75 5
    let ra := getG s e (ifld w 70 5)
    (ReadyCtl s e 0 0x01 [(0, 80)] q → Does (.ctNop e) s (fun t => Retires s t e q []))
    ∧ (ReadyCtl s e 0 0x08 [(0, 11)] q → Does (.ctLi e) s (fun t =>
      getG t e rd = BitVec.ofNat 64 (ifld w 11 64) ∧ Retires s t e q [gKey e rd]))
    ∧ (ReadyCtl s e 0 0x09 [(0, 22)] q → Does (.ctAddi e) s (fun t =>
      getG t e rd = ra + BitVec.ofInt 64 (sext 48 (ifld w 22 48)) ∧ Retires s t e q [gKey e rd]))
    ∧ (ReadyCtl s e 0 0x0B [(0, 75)] q → Does (.ctGsc e) s (fun t =>
      getG t e rd = BitVec.ofNat 64 s.gsc ∧ Retires s t e q [gKey e rd]))
    ∧ (ReadyCtl s e 0 0x0A [(0, 48)] q → let a := (ra.toNat + ifld w 48 22) % 2 ^ 22
      (∀ p, homeOf s e = some p → a % 8 = 0 →
        (isBad s (tsAddr p a) = false → Does (.ctLd e) s (fun t =>
          getG t e rd = BitVec.ofNat 64 (readNat s (tsAddr p a) 8) ∧ Retires s t e q [gKey e rd]))
        ∧ (isBad s (tsAddr p a) = true → Does (.ctLd e) s (fun t => FaultsWith s t e 0x0303 (iTag w) q.idx)))
      ∧ (∀ p, homeOf s e = some p → a % 8 ≠ 0 → Does (.ctLd e) s (fun t => FaultsWith s t e 0x0D01 (iTag w) q.idx))
      ∧ (homeOf s e = none → Does (.ctLd e) s (fun t => FaultsWith s t e 0x0101 (iTag w) q.idx)))

/-- ct.jmp leaves the queue (the fetch has followed it); ct.bnz decrements g[RA] modulo 2^64 and the fetch goes on at TGT when it is then not zero, at PC + 1 when it is; a branch that is taken past the last instruction faults with CT_PC_RANGE. ct.halt, once every earlier instruction has completed, enters HALTED at PC + 1; ct.launch then enters ARMED at PC + 1 with the count of g[RG]; until then both wait. ct.trap faults with CT_TRAP. (R218, R219, R220, R213) -/
def Obligations.ControlFlow : Prop :=
  ∀ e s q, Canon s → let w := q.word
    (ReadyCtl s e 0 0x0C [(0, 68)] q → ifld w 68 12 < imemSize e → Does (.ctJmp e) s (fun t => Retires s t e q []))
    ∧ (ReadyCtl s e 0 0x0C [(0, 68)] q → imemSize e ≤ ifld w 68 12 → Does (.ctJmp e) s (fun t => FaultsWith s t e 0x0D03 (iTag w) q.idx))
    ∧ (ReadyCtl s e 0 0x0D [(0, 63)] q → let v := getG s e (ifld w 75 5) - 1
      (v = 0 ∨ ifld w 63 12 < imemSize e → Does (.ctBnz e) s (fun t => getG t e (ifld w 75 5) = v
        ∧ (getEng t e).fetchPc = (if v = 0 then q.idx + 1 else ifld w 63 12) ∧ (getEng t e).fetchStop = false
        ∧ Retires s t e q [gKey e (ifld w 75 5)]))
      ∧ (v ≠ 0 → imemSize e ≤ ifld w 63 12 → Does (.ctBnz e) s (fun t => FaultsWith s t e 0x0D03 (iTag w) q.idx)))
    ∧ (ReadyCtl s e 0 0x02 [(0, 80)] q → idleBehind s e = true → Does (.ctHalt e) s (fun t =>
      (getEng t e).st = .halted ∧ (getEng t e).fetchPc = q.idx + 1 ∧ (getEng t e).queue = [] ∧ Signalled s t e q
      ∧ RegsBut (traceKeys e) s t ∧ EngsBut [e] s t ∧ Only [.regs, .engines, .tiles] s t))
    ∧ (ReadyCtl s e 0 0x05 [(0, 75)] q → idleBehind s e = true → Does (.ctLaunch e) s (fun t =>
      let n := getG s e (ifld w 75 5)
      (getEng t e).st = .armed ∧ (getEng t e).launch = n ∧ (getEng t e).late = decide (n.toNat < s.gsc)
      ∧ (getEng t e).fetchPc = q.idx + 1 ∧ regGet t (launchKey e) = n ∧ Signalled s t e q
      ∧ RegsBut (launchKey e :: traceKeys e) s t ∧ EngsBut [e] s t ∧ Only [.regs, .engines, .tiles] s t))
    ∧ (idleBehind s e = false → exec (.ctHalt e) s = .next s ∧ exec (.ctLaunch e) s = .next s)
    ∧ (ReadyCtl s e 0 0x03 [(0, 64)] q → Does (.ctTrap e) s (fun t => FaultsWith s t e 0x0D02 (iTag w) q.idx))

/-- A ct. or sy. instruction at issue with V set, a flag field that R202 forbids or a nonzero reserved bit faults with CT_BAD_ENCODING. Otherwise one with W whose counter WCTR holds at least 1 first subtracts 1 from the counter, noting its engine as served last, and then acts as the same instruction with its wait behind it; while the counter holds 0 the engine enters WAITING with the instruction still at the front. (Of ct.halt and ct.launch, which first wait for the instructions before them, only the encoding is stated here.) (R200, R202, R213, R218, R225, R245) -/
def Obligations.EncodingAndWaitComeFirst : Prop :=
  ∀ e s q, Canon s → (getEng s e).queue.head? = some q → canIssue s e = true →
    ∀ c cls op rsv, (c, cls, op, rsv) ∈ [(Instr.ctNop e, 0, 0x01, [(0, 80)]), (.ctLi e, 0, 0x08, [(0, 11)]), (.ctAddi e, 0, 0x09, [(0, 22)]),
        (.ctLd e, 0, 0x0A, [(0, 48)]), (.ctGsc e, 0, 0x0B, [(0, 75)]), (.ctJmp e, 0, 0x0C, [(0, 68)]), (.ctBnz e, 0, 0x0D, [(0, 63)]),
        (.ctTrap e, 0, 0x03, [(0, 64)]), (.ctMark e, 0, 0x04, [(0, 75)]), (.syWait e, 4, 0x80, [(0, 48)]), (.syAdd e, 4, 0x81, [(0, 48)]),
        (.sySub e, 4, 0x82, [(0, 48)]), (.sySig e, 4, 0x83, [(0, 43)]), (.syGet e, 4, 0x84, [(0, 67)]), (.syBar e, 4, 0x85, [(0, 74)]),
        (.ctHalt e, 0, 0x02, [(0, 80)]), (.ctLaunch e, 0, 0x05, [(0, 75)])] →
      iCls q.word = cls → iOp q.word = op →
      ((iV q.word || flagBad q.word || rsvBad q.word rsv) = true → (c = .ctHalt e ∨ c = .ctLaunch e → idleBehind s e = true) →
        Does c s (fun t => FaultsWith s t e 0x0D01 (iTag q.word) q.idx))
      ∧ (∀ p, homeOf s e = some p → (iV q.word || flagBad q.word || rsvBad q.word rsv) = false → gPending s e q.word = false →
        iW q.word = true → q.wDone = false → c ≠ .ctHalt e → c ≠ .ctLaunch e →
        (1 ≤ getCtr s p (iWctr q.word) → exec c s = exec c (modEng (takeCtr s p (iWctr q.word) 1 e) e (fun g =>
          { g with queue := { q with wDone := true } :: g.queue.drop 1 })))
        ∧ (getCtr s p (iWctr q.word) = 0 → Does c s (fun t => (getEng t e).st = .waiting ∧ (getEng t e).queue = (getEng s e).queue
          ∧ (∃ x, (getEng t e).wait = some x ∧ x.kind = .wflag ∧ x.ctr = iWctr q.word ∧ x.val = 1)
          ∧ RegsBut (traceKeys e) s t ∧ EngsBut [e] s t ∧ Only [.regs, .engines, .tiles] s t)))

/-- When an sy.sub would take a counter below zero, the GW7 leaves the counter unchanged and faults the program with SYNC_UNDERFLOW. (R244) -/
def Obligations.UnderflowFaults : Prop :=
  ∀ e s q p, Canon s → homeOf s e = some p → p < 72 → ReadyCtl s e 4 0x82 [(0, 48)] q →
    getCtr s p (ifld q.word 72 8) < ifld q.word 48 24 →
    Does (.sySub e) s (fun t => FaultsWith s t e 0x0201 (iTag q.word) q.idx
      ∧ getCtr t p (ifld q.word 72 8) = getCtr s p (ifld q.word 72 8))

/-- sy.wait with VAL 0 completes at once; when the counter holds at least VAL it subtracts VAL and completes; otherwise the engine enters WAITING for it and the counter stays. sy.sub subtracts what the counter holds. sy.add puts an increment of VAL on its way to the counter. sy.get reads the counter into g[RD]. An engine without a home tile faults with ABSENT_UNIT in each that needs a counter. (R225, R241, R244, R245, R247, R213, R387) -/
def Obligations.CounterInstructions : Prop :=
  (∀ e s q p, Canon s → homeOf s e = some p → p < 72 → let w := q.word
    let c := ifld w 72 8
    let v := ifld w 48 24
    (ReadyCtl s e 4 0x80 [(0, 48)] q → v = 0 → Does (.syWait e) s (fun t => Retires s t e q []))
    ∧ (ReadyCtl s e 4 0x80 [(0, 48)] q → v ≠ 0 → v ≤ getCtr s p c → Does (.syWait e) s (fun t => getCtr t p c = getCtr s p c - v
      ∧ (getEng t e).queue = (getEng s e).queue.drop 1 ∧ (getEng t e).st = (getEng s e).st ∧ Signalled s t e q
      ∧ RegsBut (ctrKey p c :: traceKeys e) s t ∧ EngsBut [e] s t ∧ Only [.regs, .engines, .tiles] s t))
    ∧ (ReadyCtl s e 4 0x80 [(0, 48)] q → getCtr s p c < v → Does (.syWait e) s (fun t => (getEng t e).st = .waiting
      ∧ (getEng t e).wait = some ⟨.sywait, c, v, s.gsc, 0⟩ ∧ (getEng t e).queue = (getEng s e).queue
      ∧ RegsBut (traceKeys e) s t ∧ EngsBut [e] s t ∧ Only [.regs, .engines, .tiles] s t))
    ∧ (ReadyCtl s e 4 0x82 [(0, 48)] q → v ≤ getCtr s p c → Does (.sySub e) s (fun t => getCtr t p c = getCtr s p c - v
      ∧ Retires s t e q [ctrKey p c]))
    ∧ (ReadyCtl s e 4 0x81 [(0, 48)] q → isolated s p = false → Does (.syAdd e) s (fun t =>
      (getTile t p).pend = (getTile s p).pend ++ ⟨c, v, .instr e (iTag w) q.idx⟩ ::
        (match iSig w with | some n => [⟨n, 1, .instr e (iTag w) q.idx⟩] | none => [])
      ∧ (getEng t e).queue = (getEng s e).queue.drop 1 ∧ (getEng t e).st = (getEng s e).st ∧ TileCore s t
      ∧ RegsBut (traceKeys e) s t ∧ EngsBut [e] s t ∧ Only [.regs, .engines, .tiles] s t))
    ∧ (ReadyCtl s e 4 0x84 [(0, 67)] q → Does (.syGet e) s (fun t =>
      getG t e (ifld w 75 5) = BitVec.ofNat 64 (getCtr s p (ifld w 67 8)) ∧ Retires s t e q [gKey e (ifld w 75 5)])))
  ∧ (∀ e s q, Canon s → homeOf s e = none →
    (∀ c op rsv, (c, op, rsv) ∈ [(Instr.sySub e, 0x82, [(0, 48)]), (.syAdd e, 0x81, [(0, 48)]), (.syGet e, 0x84, [(0, 67)])] →
      ReadyCtl s e 4 op rsv q → Does c s (fun t => FaultsWith s t e 0x0101 (iTag q.word) q.idx))
    ∧ (ReadyCtl s e 4 0x80 [(0, 48)] q → ifld q.word 48 24 ≠ 0 →
      Does (.syWait e) s (fun t => FaultsWith s t e 0x0101 (iTag q.word) q.idx)))

/-- sy.sig hands the router a SIGNAL packet for the endpoint in g[RE], with the counter and VAL, and keeps it as sent until it is acknowledged; a seventeenth waits at issue. A local endpoint from 0x40 on faults with SYNC_BAD_TARGET; a local tile that the map lacks, and any target of an engine whose tile is under test, with ABSENT_UNIT. SY_SIG_TIMEOUT faults its sender with TRANSFER_TIMEOUT after 100 µs to the own node or 10 ms to another, and does nothing before. (The packet's field uses are the model's, log entry 22.) (R248, R249, R250) -/
def Obligations.SignalsSent : Prop :=
  (∀ e s q, Canon s → let w := q.word
    let ep := (getG s e (ifld w 75 5)).toNat % 2 ^ 24
    ReadyCtl s e 4 0x83 [(0, 43)] q →
      (ep % 256 < 0x40 → (∀ p k, e = .tile p k → ptileOf s p ≠ 2) → (ep / 256 = nodeId s → (physOf s (ep % 256)).isSome) →
        ((getEng s e).sigs.length < 16 → Does (.sySig e) s (fun t =>
          (∃ pk x, t.router.inject = s.router.inject ++ [pk] ∧ pk.typ = 4 ∧ pk.dst.toNat = ep ∧ pk.rctr.toNat = ifld w 67 8
            ∧ pk.addr.toNat = ifld w 43 24 ∧ pk.gen.toNat = jobGen s ∧ (getEng t e).sigs = (getEng s e).sigs ++ [x]
            ∧ x.dst = ep ∧ x.ctr = ifld w 67 8 ∧ x.sctr = iSig w ∧ x.since = s.gsc)
          ∧ (getEng t e).queue = (getEng s e).queue.drop 1 ∧ (getEng t e).st = (getEng s e).st
          ∧ RegsBut (traceKeys e) s t ∧ EngsBut [e] s t ∧ Only [.regs, .engines, .tiles, .router] s t))
        ∧ (16 ≤ (getEng s e).sigs.length → Does (.sySig e) s (fun t => (getEng t e).st = .waiting
          ∧ (getEng t e).wait = some ⟨.sysig, ifld w 67 8, ifld w 43 24, s.gsc, 0⟩
          ∧ (getEng t e).queue = (getEng s e).queue ∧ t.router = s.router ∧ Only [.regs, .engines, .tiles] s t)))
      ∧ (0x40 ≤ ep % 256 → Does (.sySig e) s (fun t => FaultsWith s t e 0x0207 (iTag w) q.idx))
      ∧ (ep % 256 < 0x40 → (ep / 256 = nodeId s ∧ physOf s (ep % 256) = none) ∨ (∃ p k, e = .tile p k ∧ ptileOf s p = 2) →
        Does (.sySig e) s (fun t => FaultsWith s t e 0x0101 (iTag w) q.idx)))
  ∧ (∀ e k dt s x, Canon s → (getEng s e).sigs[k]? = some x →
    ((∀ y ∈ (getEng s e).sigs.take k, y.num ≠ x.num) → (getEng s e).st = .running ∨ (getEng s e).st = .waiting →
      x.since + (if x.own then 100000 else 10000000) ≤ (advance s dt).gsc →
      Does (.sySigTimeout e k dt) s (fun t => FaultsWith (advance s dt) t e 0x0403 x.tag x.pc ∧ ∀ y ∈ (getEng t e).sigs, y.num ≠ x.num))
    ∧ ((advance s dt).gsc < x.since + (if x.own then 100000 else 10000000) → exec (.sySigTimeout e k dt) s = .next (advance s dt)))

/-- COUNTER_INCREMENT adds the increments that reach a counter nobody waits on to its value and counts them; past 16,777,215 the counter saturates and every increment of the cycle is refused (stated for sy.sig increments: a refusal each to the sender). An engine of the tile waiting in sy.wait for at most the new value goes on, with its value subtracted. SY_CTR_WRITE sets the counter only while every engine of the tile is halted, loaded or quiesced, and otherwise sets WR_REJ. (R242, R243, R245, R259) -/
def Obligations.IncrementsReachCounters : Prop :=
  ∀ (p : Fin 72) (c : Fin 256) s, Canon s →
    (∀ n, (takeIncr c n (getTile s p).pend).1 ≠ [] → Unwaited s p c →
      let now := (takeIncr c n (getTile s p).pend).1
      let v := getCtr s p c + sumNat (now.map (·.val))
      (v ≤ 16777215 → Does (.counterIncrement p c n) s (fun t => getCtr t p c = v
        ∧ getF t SY_SIGNALS p = (getF s SY_SIGNALS p + now.length) % 2 ^ 64
        ∧ (getTile t p).pend = (takeIncr c n (getTile s p).pend).2 ∧ TilesBut [p.val] s t
        ∧ RegsBut [ctrKey p c, fldKey 6 SY_SIGNALS p 0] s t ∧ Only [.regs, .tiles, .router] s t))
      ∧ (16777215 < v → (∀ i ∈ now, ∃ k, i.src = .signal k) → Does (.counterIncrement p c n) s (fun t => getCtr t p c = 16777215
        ∧ (getTile t p).pend = (takeIncr c n (getTile s p).pend).2
        ∧ (∃ ks, t.router.inject = s.router.inject ++ ks ∧ ks.length = now.length ∧ ∀ k ∈ ks, k.typ = 9 ∧ k.payload = nackBytes 0x0206)
        ∧ RegsBut [ctrKey p c] s t ∧ Only [.regs, .tiles, .router] s t)))
    ∧ (∀ i rest k q qs w, (getTile s p).pend = i :: rest → i.ctr = c.val → (∃ tag, i.src = .unit tag) → let e := Eng.tile p k
      (getEng s e).st = .waiting → (getEng s e).wait = some w → w.kind = .sywait → w.ctr = c.val → (getEng s e).fwait = none →
      (getEng s e).queue = q :: qs → iV q.word = false → w.val ≤ getCtr s p c + i.val → getCtr s p c + i.val ≤ 16777215 →
      (∀ e', e' ≠ e → (getEng s e').wait = none ∧ (getEng s e').fwait = none) →
      (getTile s p).cv0 ≠ 1 → (getTile s p).cv1 ≠ 1 →
      Does (.counterIncrement p c 1) s (fun t => getCtr t p c = getCtr s p c + i.val - w.val ∧ (getEng t e).st = .running
        ∧ (getEng t e).wait = none ∧ (getEng t e).queue = qs ∧ EngsBut [e] s t))
    ∧ (∀ v : Word, pageUp s 6 p = true → tileStopped s p = true → Unwaited s p c →
      Does (.syCtrWrite p c v) s (fun t => getCtr t p c = v.toNat % 2 ^ 24 ∧ RegsBut [ctrKey p c] s t ∧ Only [.regs] s t))
    ∧ (∀ v : Word, pageUp s 6 p = true → tileStopped s p = false → Does (.syCtrWrite p c v) s (fun t =>
      getF t SY_STATUS_WR_REJ p = 1 ∧ getCtr t p c = getCtr s p c ∧ RegsBut [fldKey 6 SY_STATUS_WR_REJ p 0] s t ∧ Only [.regs] s t))

/-- sy.bar puts the engine in WAITING at its context with its arrival on the way. BARRIER_ARRIVAL counts a member of an ACTIVE context in the current round, or in the next while releases are being delivered or its last release has not come; a repeated arrival faults with BARRIER_OVERRUN, one at a context it is no member of with BARRIER_NOT_MEMBER, one at an ORPHANED context with SYNC_ORPHANED. The last arrival of a context that is not TORUS starts the releases. BARRIER_RELEASES_DELIVERED flips ROUND and carries the next round's arrivals over, and the waiting members whose arrival it counted go on. (R254, R256, R257, R258, R261) -/
def Obligations.Barriers : Prop :=
  (∀ e s q, Canon s → ReadyCtl s e 4 0x85 [(0, 74)] q → Does (.syBar e) s (fun t => (getEng t e).st = .waiting
    ∧ (getEng t e).wait = some ⟨.sybar, ifld q.word 74 6, 1, s.gsc, 0⟩ ∧ (getEng t e).queue = (getEng s e).queue
    ∧ RegsBut (traceKeys e) s t ∧ EngsBut [e] s t ∧ Only [.regs, .engines, .tiles] s t))
  ∧ (∀ e s q w m, Canon s → let g := getEng s e
    let x := w.ctr
    let b := getCtx s x
    let cur := (bit g.rbits x == b.round) && !b.leaving
    g.st = .waiting → g.wait = some w → w.kind = .sybar → w.val = 1 → g.queue.head? = some q → drainOn s 7 0 = false →
    memberOf s e = some m →
      (b.cstate = 1 → inMask s x m = true → (cur = true → bit b.a m = false) → bit b.b m = false →
        ((cur = false → Does (.barrierArrival e) s (fun t => getCtx t x = { b with next := b.next + 1, b := b.b + 2 ^ m }
          ∧ (getEng t e).wait = some { w with val := 0 } ∧ EngsBut [e] s t ∧ Only [.engines, .ctxs] s t))
        ∧ (cur = true → b.globalPend = false → ctxMode s x ≠ 3 → Does (.barrierArrival e) s (fun t =>
          getCtx t x = { b with cur := b.cur + 1, a := b.a + 2 ^ m, leaving := decide (b.cur + 1 = (members s x).length) }
          ∧ (getEng t e).wait = some { w with val := 0 } ∧ EngsBut [e] s t ∧ Only [.engines, .ctxs] s t))))
      ∧ (b.cstate = 1 → inMask s x m = true → ((bit b.a m = true ∧ cur = true) ∨ bit b.b m = true) →
        Does (.barrierArrival e) s (fun t => FaultsWith s t e 0x0205 (iTag q.word) q.idx))
      ∧ (b.cstate = 2 → Does (.barrierArrival e) s (fun t => FaultsWith s t e 0x0202 (iTag q.word) q.idx))
      ∧ (b.cstate ≠ 2 → inMask s x m = false → Does (.barrierArrival e) s (fun t => FaultsWith s t e 0x0208 (iTag q.word) q.idx)))
  ∧ (∀ (x : Fin 64) s, Canon s → let b := getCtx s x
    b.leaving = true → Does (.barrierReleasesDelivered x) s (fun t =>
      (getCtx t x).round = !b.round ∧ (getCtx t x).cur = b.next ∧ (getCtx t x).a = b.b ∧ (getCtx t x).next = 0 ∧ (getCtx t x).b = 0
      ∧ (∀ x', x' ≠ x.val → getCtx t x' = getCtx s x')
      ∧ ∀ m ∈ members s x, ∀ e w q qs, engOfMember s m = some e → bit b.a m = true → (getEng s e).st = .waiting →
        (getEng s e).fwait = none → (getEng s e).wait = some w → w.kind = .sybar → w.ctr = x.val → (getEng s e).queue = q :: qs →
        (getEng t e).st = .running ∧ (getEng t e).wait = none))

/-- While a context is not ACTIVE and nobody waits at it, BA_CFG_WRITE writes a mask register or BA_CFG, and a write of BA_CFG with a nonzero MODE makes the context ACTIVE, with no arrivals unless it is TORUS, and with MODE 0 IDLE. A LOCAL mask that names a member of another tile than TILE, an ACTIVE context and one that an engine waits at set CFG_ERR and change nothing else. (R259, R260) -/
def Obligations.BarrierConfiguration : Prop :=
  ∀ (x : Fin 64) s (v : Word), Canon s → pageUp s 7 (1 + x) = true →
    let b := getCtx s x
    let tile := bits v.toNat 2 6
    let errs := fun r => Does (.baCfgWrite x r v) s (fun t => getF t BA_STATUS_CFG_ERR 0 = 1
      ∧ RegsBut [fldKey 7 BA_STATUS_CFG_ERR 0 0] s t ∧ Only [.regs] s t)
    (b.cstate ≠ 1 → (∀ e, waitsAt s e x = false) →
      (ctxMode s x ≠ 1 → ∀ i : Fin 9, Does (.baCfgWrite x ⟨1 + i, by omega⟩ v) s (fun t =>
        getFi t BA_MASK_MEMBERS (1 + x) i = (if i.val = 8 then v.toNat % 16 else v.toNat)
        ∧ getCtx t x = b ∧ RegsBut [fldKey 7 BA_MASK_MEMBERS (1 + x) i] s t ∧ Only [.regs] s t))
      ∧ (v.toNat % 4 = 2 ∨ (v.toNat % 4 = 1 ∧ ∀ m ∈ members s x, m / 4 = tile) → Does (.baCfgWrite x 0 v) s (fun t =>
        getCtx t x = { BaCtx.reset with cstate := 1 } ∧ ctxMode t x = v.toNat % 4
        ∧ RegsBut [fldKey 7 BA_CFG_MODE (1 + x) 0] s t ∧ Only [.regs, .ctxs, .ces, .engines] s t))
      ∧ (v.toNat % 4 = 3 → Does (.baCfgWrite x 0 v) s (fun t => (getCtx t x).cstate = 1 ∧ ctxMode t x = 3 ∧ ctxCe t x = bits v.toNat 8 2))
      ∧ (v.toNat % 4 = 0 → Does (.baCfgWrite x 0 v) s (fun t => getCtx t x = { b with cstate := 0 }))
      ∧ (v.toNat % 4 = 1 → (∃ m ∈ members s x, m / 4 ≠ tile) → errs 0)
      ∧ (ctxMode s x = 1 → ∀ i : Fin 9, (∃ j < (if i.val = 8 then 4 else 32), bit v.toNat j = true
        ∧ (32 * i.val + j) / 4 ≠ getF s BA_CFG_TILE (1 + x)) → errs ⟨1 + i, by omega⟩))
    ∧ (b.cstate = 1 → ∀ r, errs r)
    ∧ (∀ m ∈ members s x, ∀ e, engOfMember s m = some e → (getEng s e).st = .waiting ∨ (getEng s e).st = .quiesced →
      waitsAt s e x = true → ∀ r, errs r)

/-- WAIT_TIMEOUT of an engine whose open wait has run for P_WAIT_TMO starts a wait-graph snapshot or adds the engine to the one running; where no open wait has run so long it does nothing. WAIT_GRAPH_SNAPSHOT ends the snapshot: SNAP_BUSY clears, the snapshot number goes up, every engine on a cycle of the graph faults with SYNC_DEADLOCK_SUSPECT and every other timed-out engine with SYNC_TIMEOUT, each with the snapshot number and the count of engines on cycles in DETAIL; all other engines are as they were. With no snapshot running it does nothing. (R253, R264, R265) -/
def Obligations.WaitTimeouts : Prop :=
  (∀ e dt s, Canon s → let u := advance s dt
    let lim := (if getP s e P_WAIT_TMO_US = 0 then 1000000 else getP s e P_WAIT_TMO_US) * 1000
    ((∃ w ∈ openWaits s (engIdx e), lim ≤ waitElapsed u e w) →
      Does (.waitTimeout e dt) s (fun t => getF t BA_STATUS_SNAP_BUSY 0 = 1 ∧ (∃ y ∈ t.snapWaits, y.1 = engIdx e)
        ∧ (∀ y ∈ s.snapWaits, y ∈ t.snapWaits) ∧ EngsBut [] s t ∧ RegsBut [fldKey 7 BA_STATUS_SNAP_BUSY 0 0] s t
        ∧ Only [.gsc, .regs, .snapWaits] s t))
    ∧ ((∀ w ∈ openWaits s (engIdx e), waitElapsed u e w < lim) → exec (.waitTimeout e dt) s = .next u))
  ∧ (∀ s, Canon s → flagF s BA_STATUS_SNAP_BUSY 0 = true →
    let ws := waiters s
    let cyc := onCycle (ws.map (fun i => (i, (openWaits s i).flatMap (waitEdges s i))))
    let late := s.snapWaits.filter (fun y => !cyc.contains y.1)
    let live := fun e => (getEng s e).st = .running ∨ (getEng s e).st = .waiting ∨ (getEng s e).st = .armed
    let det := (s.snapNum + 1) % 2 ^ 32 + cyc.length * 2 ^ 32
    Does .waitGraphSnapshot s (fun t => t.snapNum = s.snapNum + 1 ∧ t.snapWaits = [] ∧ getF t BA_STATUS_SNAP_BUSY 0 = 0
      ∧ (∀ i ∈ cyc, (getEng t (engOf i)).st = .faulted)
      ∧ (∀ y ∈ late, live (engOf y.1) → (getEng t (engOf y.1)).st = .faulted)
      ∧ (∀ e, engIdx e ∉ cyc → (∀ y ∈ late, engOf y.1 ≠ e ∨ ¬ live e) → getEng t e = getEng s e)
      ∧ (s.eb.events.length + cyc.length + late.length ≤ 3840 →
        (∀ i ∈ cyc, ∃ tag pc, FaultQueued t (engOf i) 0x0204 tag pc det)
        ∧ ∀ y ∈ late, engOf y.1 ∉ cyc.map engOf → (late.filter (fun z => engOf z.1 == engOf y.1)).length = 1 → live (engOf y.1) →
          FaultQueued t (engOf y.1) 0x0203 y.2.1 y.2.2 det)))
  ∧ (∀ s, flagF s BA_STATUS_SNAP_BUSY 0 = false → exec .waitGraphSnapshot s = .next s)

/-- ct.mark of an engine that takes part holds it in WAITING until the last participant arrives, and then the mark begins: the engines that wait in it go on, and MARK.LAST stays until the mirror fence is done. A number other than MARK.LAST + 1 faults with CT_MARK_MISMATCH; an engine with MARK_EN 0 completes at once. STEP_MARK_COMPLETE, once the fence has nothing left to wait for, sets MARK.LAST to the mark's number and opens the next round; with lines left it does nothing. (R22, R221, R222, R223, R224) -/
def Obligations.StepMarks : Prop :=
  (∀ e s q, Canon s → ReadyCtl s e 0 0x04 [(0, 75)] q → let n : Word := BitVec.ofNat 32 (getG s e (ifld q.word 75 5)).toNat
    (getP s e P_PCTL_MARK_EN ≠ 1 → Does (.ctMark e) s (fun t => Retires s t e q []))
    ∧ (getP s e P_PCTL_MARK_EN = 1 → s.mark.phase = 0 → n = s.mark.last + 1 →
      (∃ i ∈ participants s, i ∉ s.mark.arrived ∧ i ≠ engIdx e) → Does (.ctMark e) s (fun t => (getEng t e).st = .waiting
        ∧ t.mark = { s.mark with arrived := s.mark.arrived ++ [engIdx e] } ∧ RegsBut (traceKeys e) s t ∧ EngsBut [e] s t
        ∧ Only [.regs, .engines, .tiles, .mark] s t))
    ∧ (getP s e P_PCTL_MARK_EN = 1 → s.mark.phase = 0 → n = s.mark.last + 1 →
      (∀ i ∈ participants s, i ∈ s.mark.arrived ∨ i = engIdx e) → (getEng s e).fwait = none → Does (.ctMark e) s (fun t =>
        t.mark.phase = 1 ∧ t.mark.arrived = [] ∧ t.mark.last = s.mark.last ∧ (getEng t e).st = .running
        ∧ ∀ i ∈ s.mark.arrived, (getEng s (engOf i)).st = .waiting → (getEng s (engOf i)).queue ≠ [] →
          (getEng s (engOf i)).fwait = none → (getEng t (engOf i)).st = .running))
    ∧ (getP s e P_PCTL_MARK_EN = 1 → s.mark.phase = 0 → n ≠ s.mark.last + 1 →
      Does (.ctMark e) s (fun t => FaultsWith s t e 0x0D04 (iTag q.word) q.idx)))
  ∧ (∀ s, Canon s → s.mark.phase = 1 →
      (s.mark.fence = [] → s.mark.arrived = [] → Does .stepMarkComplete s (fun t =>
        t.mark.last = s.mark.last + 1 ∧ t.mark.phase = 0 ∧ t.mark.sigs = [] ∧ (∀ e, (getEng t e).st = (getEng s e).st)))
      ∧ (s.mark.fence ≠ [] → exec .stepMarkComplete s = .next s))

/-- MX_FILL takes the mx. instruction at the front of the queue: bad encoding or a range past its memory faults; of a W wait it subtracts 1 from the counter and goes on as the same instruction with its wait behind it, and it enters WAITING, filling nothing, while the counter holds 0. An mx.mm or mx.mmp is staged with its A side unless an mx.st that has not completed writes bytes that it reads or the 8 slots are full; what an mx.mmp's pack table gets wrong faults. MX_ISSUE_TIMEOUT faults an instruction that R85 to R87 hold for the engine wait timeout, and else does nothing. (R83, R84, R89, R109, R200, R232) -/
def Obligations.MatrixFill : Prop :=
  ∀ (p : Fin 72) s q qs, Canon s → let e := Eng.tile p .mx
    let g := getEng s e
    let w := q.word
    let set := nextSet (getMx s p) ((mxArrays w).head?.getD 0) ((iOp w == 0x22 || iOp w == 0x23) && ibit w 75)
    let waited := iW w = false ∨ q.wDone = true
    g.queue = q :: qs → iCls w = 1 →
    (q.filled = false → isolated s p.val = false → (g.st = .running ∨ g.st = .waiting) → g.wait = none → g.fwait = none → g.quiesceReq = false →
      (∀ c, fillFault s p w set.kv = some c → Does (.mxFill p) s (fun t => FaultsWith s t e c (iTag w) q.idx))
      ∧ (fillFault s p w set.kv = none →
        (iW w = true → q.wDone = false → 1 ≤ getCtr s p (iWctr w) → exec (.mxFill p) s = exec (.mxFill p)
          (modEng (takeCtr s p (iWctr w) 1 e) e (fun g => { g with queue := { q with wDone := true } :: qs })))
        ∧ (iW w = true → q.wDone = false → getCtr s p (iWctr w) = 0 → Does (.mxFill p) s (fun t => (getEng t e).st = .waiting
          ∧ (getEng t e).fwait = some ⟨.wflag, iWctr w, 1, s.gsc, 0⟩ ∧ (getEng t e).queue = g.queue
          ∧ RegsBut (traceKeys e) s t ∧ EngsBut [e] s t ∧ Only [.regs, .engines, .tiles] s t))
        ∧ (waited → iOp w ≠ 0x22 → iOp w ≠ 0x23 → Does (.mxFill p) s (fun t =>
          (getEng t e).queue = { q with wDone := true, filled := true } :: qs ∧ (getEng t e).st = g.st ∧ EngsBut [e] s t ∧ Only [.engines] s t))
        ∧ (waited → iOp w = 0x22 → storeMeets s p [] (mmSpans s p w set.kv) = false → let st := stageMm s p w set.kv
          (slotsUsed s p + st.slots ≤ 8 → Does (.mxFill p) s (fun t =>
            (getEng t e).queue = { q with wDone := true, filled := true, staged := some st } :: qs ∧ st.rows.length = ifld w 55 8 + 1
            ∧ EngsBut [e] s t ∧ Only [.engines] s t))
          ∧ (8 < slotsUsed s p + st.slots → exec (.mxFill p) s = .next s))
        ∧ (waited → iOp w = 0x23 → (∀ st, stageMmp s p w set = .ok st → storeMeets s p [] (mmpSpans s p w (packKv set)) = false →
            slotsUsed s p + st.slots ≤ 8 → Does (.mxFill p) s (fun t =>
              (getEng t e).queue = { q with wDone := true, filled := true, staged := some st } :: qs ∧ EngsBut [e] s t ∧ Only [.engines] s t))
          ∧ (∀ c, stageMmp s p w set = .error c → Does (.mxFill p) s (fun t => FaultsWith s t e c (iTag w) q.idx)))))
    ∧ (∀ dt, let u := advance s dt
      let due := g.since + (if getP s e P_WAIT_TMO_US = 0 then 1000000 else getP s e P_WAIT_TMO_US) * 1000
      (canIssue s e = true → heldAtIssue u p q = true → lendState s ≠ 3 → due ≤ u.gsc →
        Does (.mxIssueTimeout p dt) s (fun t => FaultsWith u t e 0x0A06 (iTag w) q.idx))
      ∧ (heldAtIssue u p q = false ∨ lendState s = 3 ∨ u.gsc < due → exec (.mxIssueTimeout p dt) s = .next u))

/-- mx.lds puts element (k, n) of its operand, read from storage row k or transposed from row n, into row k and column n of the idle set of the array that holds it, with the operand's shape, format, scales and extents, and leaves the active sets and every accumulation buffer entry. mx.ldsp loads problem k of its mask from its pack table into rows 16 (k / 4) and columns 16 (k mod 4) on. Both wait while a load into their idle sets or a store of bytes that they read is in flight. MX_LOAD_COMPLETE marks the idle sets loaded and signals. (R62, R66, R70, R71, R77, R86, R105, R112) -/
def Obligations.MatrixLoads : Prop :=
  (∀ (p : Fin 72) s q, let w := q.word
    let x := getMx s p
    let sh := ifld w 78 2
    let as := shapeArrays sh (ifld w 76 2)
    let f := fmtC (ifld w 72 4)
    let kv := ifld w 61 8 + 1
    let nv := ifld w 53 8 + 1
    let rb := mxG s p w 48
    let row := fun r n => (tileRead s p (rowStart f (refAddr rb + r * refStride rb)) (elemBytes f n)).map (·.b)
    let bs := if ibit w 70 then 32 else 16
    Canon s → MxReady s p 0x20 q → (ldHeld x as (ldsSpans s p w) = true → exec (.mxLds p) s = .next s)
    ∧ (ldHeld x as (ldsSpans s p w) = false → Does (.mxLds p) s (fun t => MxIssues s t p q { fly0 q with arrays := arrayMask as }
      ∧ (∀ a ∈ as, let d := getSet (getMx t p) (idleSet x a)
        d.loaded = false ∧ d.shape = sh ∧ d.fmt = ifld w 72 4 ∧ d.scaled = ibit w 71 ∧ d.bs32 = ibit w 70 ∧ d.kv = kv ∧ d.nv = nv
        ∧ ∀ i < 64, ∀ j < 64, arrayK sh a + i < kv → arrayN sh a + j < nv → cellAt d.cells i j = BitVec.ofNat 32
          (if ibit w 69 then elemAt f (row (arrayN sh a + j) kv) (arrayK sh a + i) else elemAt f (row (arrayK sh a + i) nv) (arrayN sh a + j)))
      ∧ (ibit w 71 = true → ∀ a ∈ as, ∀ j < 64, ∀ b < 64 / bs, arrayN sh a + j < nv → arrayK sh a / bs + b < scaleBlocks kv (ibit w 70) →
        byteAt (getSet (getMx t p) (idleSet x a)).scales j b =
          memByte s (tsAddr p (refAddr (mxG s p w 43) + (arrayN sh a + j) * refStride (mxG s p w 43) + arrayK sh a / bs + b)))
      ∧ (∀ k, (∀ a ∈ as, k ≠ idleSet x a) → getSet (getMx t p) k = getSet x k) ∧ (getMx t p).act = x.act
      ∧ (∀ i, getAcc t p i = getAcc s p i) ∧ RegsBut (traceKeys (.tile p .mx)) s t ∧ Only [.regs, .engines, .tiles] s t)))
  ∧ (∀ (p : Fin 72) s q, let w := q.word
    let x := getMx s p
    let a := ifld w 76 2
    Canon s → MxReady s p 0x21 q → (ldHeld x [a] (ldspSpans s p w) = true → exec (.mxLdsp p) s = .next s)
    ∧ (ldHeld x [a] (ldspSpans s p w) = false → (∀ k ∈ problems (ifld w 48 16), ∃ y, readProblem s p w k = .ok y) →
      Does (.mxLdsp p) s (fun t => MxIssues s t p q { fly0 q with arrays := 2 ^ a }
      ∧ (let d := getSet (getMx t p) (idleSet x a)
        d.loaded = false ∧ d.shape = packedShape ∧ d.fmt = ifld w 72 4 ∧ d.mask = ifld w 48 16
        ∧ ∀ k ∈ problems (ifld w 48 16), ∀ y, readProblem s p w k = .ok y → d.probs.find? (fun z => z.1 == k) = some y.1
          ∧ ∀ i < 16, ∀ j < 16, cellAt d.cells (16 * (k / 4) + i) (16 * (k % 4) + j) = cellAt y.2.1 i j)
      ∧ (∀ k, k ≠ idleSet x a → getSet (getMx t p) k = getSet x k) ∧ (getMx t p).act = x.act
      ∧ (∀ i, getAcc t p i = getAcc s p i) ∧ RegsBut (traceKeys (.tile p .mx)) s t ∧ Only [.regs, .engines, .tiles] s t)))
  ∧ (∀ (p : Fin 72) k s f, Canon s → let x := getMx s p
    x.fly[k]? = some f → f.kind = 0 → Does (.mxLoadComplete p k) s (fun t => (getMx t p).fly = x.fly.eraseIdx k
      ∧ (∀ a < 4, bit f.arrays a = true → getSet (getMx t p) (idleSet x a) = { getSet x (idleSet x a) with loaded := true })
      ∧ (∀ i, (∀ a < 4, bit f.arrays a = true → i ≠ idleSet x a) → getSet (getMx t p) i = getSet x i)
      ∧ Notifies s t (.tile p .mx) f.done.sctr f.done.tag f.done.pc ∧ (∀ i, getAcc t p i = getAcc s p i)
      ∧ RegsBut (pKey (.tile p .mx) P_PSTATE_VSEEN :: traceKeys (.tile p .mx)) s t ∧ TilesBut [p.val] s t ∧ Only [.regs, .tiles] s t))

/-- mx.mm adds its chunks to entry n mod 64 of row A0 + m (N / 64) + n / 64 for each m of M and n of N_valid, from +0 in start mode; a poisoned entry stays as it is; every other entry keeps its contents, and SWAP exchanges the sets of its arrays. mx.mmp does so for entry n of quarter-row ACCQ + m of each problem. Each waits while R85 holds it (an mx.mm also for a run entry or spill rows). What an instruction finds wrong with its operands or sets faults, rows that cut an open run with MX_RUN_OVERLAP, and problems that share an entry with MX_PACK_OVERLAP. (R63, R67, R74, R77, R78, R81, R85, R93, R94, R96, R103, R109) -/
def Obligations.MatrixProducts : Prop :=
  (∀ (p : Fin 72) s q st run start, let w := q.word
    let x := getMx s p
    let sh := ifld w 78 2
    let as := mxArrays w
    let sw := ibit w 75
    let rows := mmRows w
    let b := nextSet x (as.head?.getD 0) sw
    let init := ifld w 66 2 == 1
    let x' : MxState := if sw then { x with act := x.act ^^^ arrayMask as } else x
    let key := fun m n => 64 * (ifld w 12 12 + m * (shapeN sh / 64) + n / 64) + n % 64
    let terms := if ifld w 63 2 = 1 then 1 else if ifld w 63 2 = 2 then 3 else 6
    Canon s → MxReady s p 0x22 q → q.staged = some st → mmHeld s x as sw [(4 * rows.1, 4 * rows.2)] = false →
      mmFault x as sw sh (ifld w 71 4) (ifld w 63 2) 0 st.bad = none → planRun x w = .go run start → b.nv ≤ shapeN sh →
    Does (.mxMm p) s (fun t =>
      (∃ be, MxIssues s t p q { fly0 q with
          kind := 1, arrays := arrayMask as, quarters := [(4 * rows.1, 4 * rows.2)], slots := st.slots, rowSlots := (ifld w 55 8 + 1) * terms,
           lastRun := if ibit w 65 && run.isSome then some rows else none, badEntry := be }
        ∧ (be = none ↔ (init = true ∨ ∀ m < ifld w 55 8 + 1, ∀ n < b.nv, accBad s p (key m n) = false)))
      ∧ (∀ m < ifld w 55 8 + 1, ∀ n < b.nv,
        ((init = true ∨ accBad s p (key m n) = false) → accBad t p (key m n) = false ∧
          getAcc t p (key m n) = (mmElem x' w st (fmtC b.fmt) b m n (if run.isSome then ifld w 24 16 else 0) start (ibit w 65)
            ⟨if init then 0 else getAcc s p (key m n), if init then none else getWide s p (key m n), false⟩).acc)
        ∧ (init = false → accBad s p (key m n) = true → accBad t p (key m n) = true ∧ getAcc t p (key m n) = getAcc s p (key m n)))
      ∧ (∀ k, (∀ m < ifld w 55 8 + 1, ∀ n < b.nv, k ≠ key m n) → getAcc t p k = getAcc s p k ∧ accBad t p k = accBad s p k)
      ∧ (getMx t p).act = x'.act ∧ (getMx t p).sets = x.sets ∧ Only [.regs, .engines, .tiles] s t))
  ∧ (∀ (p : Fin 72) s q st, let w := q.word
    let x := getMx s p
    let as := mxArrays w
    let sw := ibit w 75
    let b := nextSet x (as.head?.getD 0) sw
    let held := mmHeld s x as sw (st.packs.map (fun a => (a.accq, a.rows.length)))
    let fault := mmFault x as sw packedShape (ifld w 71 4) 1 (ifld w 47 16) st.bad
    Canon s → MxReady s p 0x23 q → q.staged = some st → (held = true → exec (.mxMmp p) s = .next s)
    ∧ (held = false → (∀ c a, fault = some (c, a) → Does (.mxMmp p) s (fun t => FaultsWith s t (.tile p .mx) c (iTag w) q.idx))
      ∧ (fault = none → packsMeet st.packs = true → Does (.mxMmp p) s (fun t => FaultsWith s t (.tile p .mx) 0x0A05 (iTag w) q.idx)))
    ∧ (held = false → fault = none → packsMeet st.packs = false → (∀ y ∈ b.probs, y.2.2 ≤ 16) → Does (.mxMmp p) s (fun t =>
      (∀ a ∈ st.packs, ∀ k kv nv, b.probs.find? (fun y => y.1 == a.prob) = some (k, kv, nv) → ∀ m < a.rows.length, ∀ n < nv,
        let i := 16 * (a.accq + m) + n
        ((a.start = true ∨ accBad s p i = false) → accBad t p i = false
          ∧ getAcc t p i = (packElem w b a kv m n (if a.start then 0 else getAcc s p i)).1)
        ∧ (a.start = false → accBad s p i = true → accBad t p i = true ∧ getAcc t p i = getAcc s p i))
      ∧ (∀ i, (∀ a ∈ st.packs, i / 16 < a.accq ∨ a.accq + a.rows.length ≤ i / 16) → getAcc t p i = getAcc s p i ∧ accBad t p i = accBad s p i)
      ∧ (getMx t p).act = (if sw then x.act ^^^ arrayMask as else x.act) ∧ (getMx t p).sets = x.sets ∧ (getMx t p).runs = x.runs
      ∧ (getEng t (.tile p .mx)).queue = (getEng s (.tile p .mx)).queue.drop 1 ∧ EngsBut [.tile p .mx] s t ∧ TilesBut [p.val] s t
      ∧ Only [.regs, .engines, .tiles] s t)))
  ∧ (∀ (p : Fin 72) s q st, let w := q.word
    let x := getMx s p
    let held := mmHeld s x (mxArrays w) (ibit w 75) [(4 * (mmRows w).1, 4 * (mmRows w).2)] = true ∨ planRun x w = .hold
    let fault := mmFault x (mxArrays w) (ibit w 75) (ifld w 78 2) (ifld w 71 4) (ifld w 63 2) 0 st.bad
    let faults := fun c => Does (.mxMm p) s (fun t => FaultsWith s t (.tile p .mx) c (iTag w) q.idx ∧ (∀ i, getAcc t p i = getAcc s p i))
    Canon s → MxReady s p 0x22 q → q.staged = some st → (held → exec (.mxMm p) s = .next s)
      ∧ (¬ held → (∀ c a, fault = some (c, a) → faults c) ∧ (fault = none → planRun x w = .overlap → faults 0x0A04)))

/-- mx.st writes each row of its entries, converted or raw, at its destination in the tile store, with its scale bytes where it derives scales, touches no other byte, and zeroes the entries with ZERO; a poisoned entry faults with POISON_CONSUMED (where rows overlap, the row written last stands). Both wait while an instruction in flight writes rows of their entries. mx.ldacc loads entries from rows of the tile store (one row for all with BCAST), poisoned where a word read is. (R87, R108, R113) -/
def Obligations.MatrixStores : Prop :=
  (∀ (p : Fin 72) s q, let w := q.word
    let x := getMx s p
    let qs := stQuarters w
    let n := 16 * (ifld w 54 4 + 1)
    let rd := mxG s p w 41
    let rs := mxG s p w 36
    let row := fun m => stRow w ((List.range n).map (fun i => getAcc s p (16 * qs.1 + m * n + i)))
    let da := fun m => tsAddr p (rowStart (stFmt w) (refAddr rd + m * refStride rd))
    let sa := fun m => tsAddr p (refAddr rs + m * refStride rs)
    Canon s → MxReady s p 0x24 q → (stHeld x [qs] = true → exec (.mxSt p) s = .next s) ∧ (stHeld x [qs] = false →
      ((∀ i < 16 * qs.2, accBad s p (16 * qs.1 + i) = false) → Does (.mxSt p) s (fun t =>
        MxIssues s t p q { fly0 q with kind := if ibit w 35 then 6 else 2, quarters := [qs], dests := stSpans s p w }
        ∧ (∀ m ≤ ifld w 58 8, ∀ i < (row m).1.length, (∀ m' ≤ ifld w 58 8,
            (m < m' → da m + i < da m' ∨ da m' + (row m').1.length ≤ da m + i)
            ∧ (m ≤ m' → da m + i < sa m' ∨ sa m' + (row m').2.1.length ≤ da m + i)) →
          memByte t (da m + i) = ((row m).1[i]?).getD 0)
        ∧ (∀ m ≤ ifld w 58 8, ∀ i < (row m).2.1.length, (∀ m' ≤ ifld w 58 8, m < m' →
            (sa m + i < da m' ∨ da m' + (row m').1.length ≤ sa m + i) ∧ (sa m + i < sa m' ∨ sa m' + (row m').2.1.length ≤ sa m + i)) →
          memByte t (sa m + i) = ((row m).2.1[i]?).getD 0)
        ∧ BytesBut ((List.range (ifld w 58 8 + 1)).flatMap (fun m => [(da m, (row m).1.length), (sa m, (row m).2.1.length)])) s t
        ∧ (∀ i < 16 * qs.2, getAcc t p (16 * qs.1 + i) = if ibit w 35 then 0 else getAcc s p (16 * qs.1 + i))
        ∧ (∀ k, (k < 16 * qs.1 ∨ 16 * qs.1 + 16 * qs.2 ≤ k) → getAcc t p k = getAcc s p k)
        ∧ Only [.regs, .engines, .tiles, .mem, .poison, .digest] s t))
      ∧ (∀ i < 16 * qs.2, accBad s p (16 * qs.1 + i) = true → Does (.mxSt p) s (fun t => FaultsWith s t (.tile p .mx) 0x0303 (iTag w) q.idx
        ∧ ∀ a, 0xF100000000 ≤ a → a < 0xF200000000 → memByte t a = memByte s a))))
  ∧ (∀ (p : Fin 72) s q, let w := q.word
    let x := getMx s p
    let qs := stQuarters w
    let n := 16 * (ifld w 54 4 + 1)
    let rs := mxG s p w 49
    let row := fun m => tileRead s p (refAddr rs + (if ibit w 48 then 0 else m * refStride rs)) (4 * n)
    Canon s → MxReady s p 0x25 q → (stHeld x [qs] = true → exec (.mxLdacc p) s = .next s)
      ∧ (stHeld x [qs] = false → Does (.mxLdacc p) s (fun t => MxIssues s t p q { fly0 q with kind := 3, quarters := [qs] }
        ∧ (∀ m ≤ ifld w 58 8, ∀ i < n, let c := ((row m).drop (4 * i)).take 4
          getAcc t p (16 * qs.1 + m * n + i) = BitVec.ofNat 32 (ofBytes (c.map (·.b)))
          ∧ accBad t p (16 * qs.1 + m * n + i) = c.any (·.bad))
        ∧ (∀ k, (k < 16 * qs.1 ∨ 16 * qs.1 + 16 * qs.2 ≤ k) → getAcc t p k = getAcc s p k ∧ accBad t p k = accBad s p k)
        ∧ (getMx t p).sets = x.sets ∧ (getMx t p).act = x.act ∧ Only [.regs, .engines, .tiles] s t)))

/-- mx.drain ends every run wholly within its rows: each of its entries that has spilled takes its wide partial in, and its run is gone; a run that it cuts faults with MX_RUN_OVERLAP; other entries keep their contents. mx.flag, after every earlier mx. instruction, reads OVF, UNF, NANL and IOVF into g[RD] and clears them with C. MX_INSTR_COMPLETE signals, ends the run of a LAST, and faults where the adder read poison; of the instructions that share the store port the first in issue order completes first. (R51, R100, R103, R106, R107, R113, R114) -/
def Obligations.MatrixRunsAndFlags : Prop :=
  (∀ (p : Fin 72) s q, let w := q.word
    let x := getMx s p
    let rows := (ifld w 68 12, ifld w 56 12 + 1)
    let met := x.runs.filter (fun r => rangesMeet (runRows r) rows)
    Canon s → MxReady s p 0x26 q → (stHeld x [(4 * rows.1, 4 * rows.2)] = true → exec (.mxDrain p) s = .next s)
      ∧ (stHeld x [(4 * rows.1, 4 * rows.2)] = false → ((∀ r ∈ met, rows.1 ≤ r.base ∧ r.base + r.rows ≤ rows.1 + rows.2) → Does (.mxDrain p) s (fun t =>
        (∀ r ∈ met, r ∉ (getMx t p).runs)
        ∧ (∀ r ∈ met, r.spilled = true → ∀ i < 64 * r.rows, ∀ v, getWide s p (64 * r.base + i) = some v →
          getAcc t p (64 * r.base + i) = drainAdd v (getAcc s p (64 * r.base + i)) ∧ getWide t p (64 * r.base + i) = none)
        ∧ (∀ k, (∀ r ∈ met, k < 64 * r.base ∨ 64 * (r.base + r.rows) ≤ k) → getAcc t p k = getAcc s p k ∧ getWide t p k = getWide s p k)
        ∧ (getEng t (.tile p .mx)).queue = (getEng s (.tile p .mx)).queue.drop 1 ∧ EngsBut [.tile p .mx] s t
        ∧ RegsBut (traceKeys (.tile p .mx)) s t ∧ Only [.regs, .engines, .tiles] s t))
      ∧ (∀ r ∈ met, (r.base < rows.1 ∨ rows.1 + rows.2 < r.base + r.rows) →
        Does (.mxDrain p) s (fun t => FaultsWith s t (.tile p .mx) 0x0A04 (iTag w) q.idx ∧ (getMx t p).runs = x.runs))))
  ∧ (∀ (p : Fin 72) s q, let w := q.word
    let e := Eng.tile p .mx
    Canon s → MxReady s p 0x27 q → iV w = false → ((getMx s p).fly ≠ [] → exec (.mxFlag p) s = .next s)
    ∧ ((getMx s p).fly = [] → Does (.mxFlag p) s (fun t =>
      getG t e (ifld w 75 5) = BitVec.ofNat 64 (getF s MX_FLAGS_OVF p + 2 * getF s MX_FLAGS_UNF p + 4 * getF s MX_FLAGS_NANL p
        + 8 * getF s MX_FLAGS_IOVF p)
      ∧ (∀ f ∈ [MX_FLAGS_OVF, MX_FLAGS_UNF, MX_FLAGS_NANL, MX_FLAGS_IOVF], getF t f p = if ibit w 74 then 0 else getF s f p)
      ∧ Retires s t e q [gKey e (ifld w 75 5), fldKey 3 MX_FLAGS_OVF p 0])))
  ∧ (∀ (p : Fin 72) k s f, let x := getMx s p
    let e := Eng.tile p .mx
    let port := usesPort f && (x.fly.take k).any usesPort
    Canon s → x.fly[k]? = some f → f.kind ≠ 0 → (port = true → exec (.mxInstrComplete p k) s = .next s) ∧ (port = false →
      (f.lastRun = none → f.badEntry = none → Does (.mxInstrComplete p k) s (fun t => (getMx t p).fly = x.fly.eraseIdx k
        ∧ (getMx t p).runs = x.runs ∧ (getMx t p).sets = x.sets ∧ (∀ i, getAcc t p i = getAcc s p i)
        ∧ Notifies s t e f.done.sctr f.done.tag f.done.pc ∧ RegsBut (pKey e P_PSTATE_VSEEN :: traceKeys e) s t ∧ TilesBut [p.val] s t
        ∧ Only [.regs, .tiles] s t))
      ∧ (∀ r, f.lastRun = some (runRows r) → x.runs.find? (fun y => runRows y == runRows r) = some r → r.spilled = true →
        f.badEntry = none → runBad s p r = none → Does (.mxInstrComplete p k) s (fun t => r ∉ (getMx t p).runs
          ∧ (∀ i < 64 * r.rows, ∀ v, getWide s p (64 * r.base + i) = some v →
            getAcc t p (64 * r.base + i) = drainAdd v (getAcc s p (64 * r.base + i)) ∧ getWide t p (64 * r.base + i) = none)
          ∧ (∀ i, (i < 64 * r.base ∨ 64 * (r.base + r.rows) ≤ i) → getAcc t p i = getAcc s p i)))
      ∧ ((∃ i, f.badEntry = some i) ∨ (∃ r i, endsRun x f = some r ∧ runBad s p r = some i) →
        (getEng s e).st = .running ∨ (getEng s e).st = .waiting →
        Does (.mxInstrComplete p k) s (fun t => FaultsWith s t e 0x0303 f.done.tag f.done.pc))))

/-- Of each vx. instruction: at the front of a tile that drains, or while a vx.opt is in flight, it does not issue. With V set, a counter number without its flag, or a word that its table reserves (opcode FN, MODE, FMT or RSV bits, an odd coordinate register, scales against R31, equal registers against R170) it faults with VX_BAD_ENCODING and has no effect. Otherwise it does not issue while a register that it reads or writes has a write pending; then a W whose counter holds at least 1 subtracts 1 and it acts as the same instruction with its wait behind it, and a counter of 0 puts the engine in WAITING. (R160, R170, R184, R186, R189, R190, R191, R603) -/
def Obligations.VectorIssue : Prop :=
  ∀ (p : Fin 72) s q, let w := q.word
    let e := Eng.tile p .vx
    Canon s → (getEng s e).queue.head? = some q → iCls w = 2 →
    ∀ c op bad rs, (c, op, bad, rs) ∈
      [(Instr.vxLd p, 0x60, (lsBad w || rsvBad w [(34, 2)]), [32 + ifld w 26 3, ifld w 75 5]),
       (.vxSt p, 0x61, (lsBad w || (ibit w 34 && ifld w 44 4 != 3 && ifld w 44 4 != 4) || (ibit w 35 && ifld w 29 5 % 2 == 1)),
        [ifld w 75 5, 32 + ifld w 26 3]),
       (.vxLda p, 0x62, ifld w 0 50 != 0, [32 + ifld w 51 3, ifld w 75 5]),
       (.vxSta p, 0x63, (ifld w 0 50 != 0 || ibit w 55), [ifld w 75 5, 32 + ifld w 51 3]),
       (.vxFop p, 0x64, (decide (9 < rFn w) || rsvBad w [(0, 9)] || (rFn w != 3 && ifld w 54 5 != 0)),
        rReads w ++ (if rFn w = 3 then [ifld w 54 5] else []) ++ [rVd w]),
       (.vxIop p, 0x65, (decide (13 < rFn w) || rsvBad w [(0, 9), (54, 5)]), rReads w ++ [rVd w]),
       (.vxCmp p, 0x66, (decide (7 < rFn w) || rsvBad w [(0, 9), (54, 5), (72, 2)]), rReads w ++ [32 + ifld w 69 3]),
       (.vxPop p, 0x67, (decide (6 < rFn w) || rsvBad w [(0, 9), (54, 5), (72, 2), (42, 3)]),
        [32 + ifld w 64 3, 32 + ifld w 59 3, 32 + ifld w 69 3]),
       (.vxSfu p, 0x68, (decide (3 < rFn w) || rsvBad w [(0, 9), (54, 5)]), rReads w ++ [rVd w]),
       (.vxRed p, 0x69, (decide (2 < rFn w) || rsvBad w [(0, 9), (54, 5)]), rReads w ++ [rVd w]),
       (.vxRmax p, 0x6A, (ifld w 0 49 != 0 || ifld w 75 5 == ifld w 65 5 || ifld w 75 5 == ifld w 60 5 || ifld w 65 5 == ifld w 60 5),
        [ifld w 70 5, 32 + ifld w 50 3, ifld w 75 5, ifld w 65 5, ifld w 60 5]),
       (.vxRsum p, 0x6B, (ifld w 0 49 != 0 || ifld w 65 5 != 0 || ifld w 75 5 == ifld w 60 5),
        [ifld w 70 5, ifld w 60 5, 32 + ifld w 50 3, ifld w 75 5]),
       (.vxDrop p, 0x6C, (rsvBad w [(0, 38), (42, 2)] || ifld w 65 5 % 2 == 1), [ifld w 70 5, 32 + ifld w 39 3, ifld w 75 5]),
       (.vxRng p, 0x6D, (rsvBad w [(0, 38), (44, 5), (49, 16), (70, 5)] || ifld w 65 5 % 2 == 1 || decide (1 < ifld w 42 2)),
        [32 + ifld w 39 3, ifld w 75 5]),
       (.vxPos p, 0x6E, ifld w 0 57 != 0, [32 + ifld w 58 3, ifld w 75 5]),
       (.vxCmask p, 0x6F, rsvBad w [(0, 54), (70, 2)], [32 + ifld w 55 3] ++ ([32 + ifld w 72 3] ++ (if ibit w 58 then [ifld w 75 5] else []))),
       (.vxOpt p, 0x70, (decide (1 < ifld w 73 2) || (fmtOfCode (ifld w 69 4)).isNone || (ibit w 66 && !mayScale (ifld w 69 4)) || ifld w 0 64 != 0),
        [])] →
      iOp w = op →
      (draining s p = true ∨ (getVx s p).fly.any (·.opt) = true → exec c s = .next s)
      ∧ (canIssue s e = true → draining s p = false →
        ((iV w || flagBad w || bad) = true → Does c s (fun t => VxFaults s t p q 0x0B01))
        ∧ ((iV w || flagBad w || bad) = false → (vxPending (getVx s p) (vxNamed rs w) = true → exec c s = .next s)
          ∧ (vxPending (getVx s p) (vxNamed rs w) = false → iW w = true → q.wDone = false →
            (1 ≤ getCtr s p (iWctr w) → exec c s = exec c (modEng (takeCtr s p (iWctr w) 1 e) e (fun g =>
              { g with queue := { q with wDone := true } :: g.queue.drop 1 })))
            ∧ (getCtr s p (iWctr w) = 0 → Does c s (fun t => (getEng t e).st = .waiting ∧ (getEng t e).queue = (getEng s e).queue
              ∧ (∃ x, (getEng t e).wait = some x ∧ x.kind = .wflag ∧ x.ctr = iWctr w ∧ x.val = 1)
              ∧ RegsBut (traceKeys e) s t ∧ EngsBut [e] s t ∧ Only [.regs, .engines, .tiles] s t)))))

/-- vx.fop writes to each active lane of VD the operation FN of lanes a, b and c (sel, FN 9, writes every lane: a where the guard holds, b elsewhere); vx.iop the integer operation, or the saturating conversion to INT32 for FN 12, which sets OVF, UNF and NANL where an active lane raises them and leaves them otherwise; vx.sfu the special function. Inactive lanes, other registers and predicates keep their values, and VD has a write pending. (R40, R159, R160, R162, R163, R165, R166) -/
def Obligations.LaneArithmetic : Prop :=
  ∀ (p : Fin 72) s q, let w := q.word
    let act := rAct s p w
    let a := getLane s p (rVa w)
    let b := rB s p w
    let rs := rReads w ++ [rVd w]
    let flag := fun t fld (on : CFlags → Bool) =>
      getF t fld p = if (lanesOf act).any (fun l => on (toInt32 (a l)).2) then 1 else getF s fld p
    Canon s → (rFn w ≤ 8 → rsvBad w [(0, 9)] = false → (rFn w ≠ 3 → ifld w 54 5 = 0) →
      VxReady s p 0x64 (rReads w ++ (if rFn w = 3 then [ifld w 54 5] else []) ++ [rVd w]) q → Does (.vxFop p) s (fun t =>
        LanesSet s t p (rVd w) act (fun l => fopLane (rFn w) (a l) (b l) (getLane s p (ifld w 54 5) l)) ∧ PredsBut [] s t p
        ∧ VxIssues s t p q [rVd w] ∧ VxLeaves s t p []))
    ∧ (rFn w = 9 → rsvBad w [(0, 9)] = false → ifld w 54 5 = 0 → VxReady s p 0x64 rs q → Does (.vxFop p) s (fun t =>
        LanesSet s t p (rVd w) (BitVec.allOnes 128) (fun l => if act.getLsbD l then a l else b l) ∧ PredsBut [] s t p
        ∧ VxIssues s t p q [rVd w] ∧ VxLeaves s t p []))
    ∧ (rFn w ≤ 13 → rFn w ≠ 12 → rsvBad w [(0, 9), (54, 5)] = false → VxReady s p 0x65 rs q → Does (.vxIop p) s (fun t =>
        LanesSet s t p (rVd w) act (fun l => iopLane (rFn w) (a l) (b l)) ∧ PredsBut [] s t p
        ∧ VxIssues s t p q [rVd w] ∧ VxLeaves s t p []))
    ∧ (rFn w = 12 → rsvBad w [(0, 9), (54, 5)] = false → VxReady s p 0x65 rs q → Does (.vxIop p) s (fun t =>
        LanesSet s t p (rVd w) act (fun l => (toInt32 (a l)).1) ∧ PredsBut [] s t p
        ∧ flag t VX_FLAGS_OVF (·.ovf) ∧ flag t VX_FLAGS_UNF (·.unf) ∧ flag t VX_FLAGS_NANL (·.nanl)
        ∧ VxIssues s t p q [rVd w] ∧ VxLeaves s t p []))
    ∧ (rFn w ≤ 3 → rsvBad w [(0, 9), (54, 5)] = false → VxReady s p 0x68 rs q → Does (.vxSfu p) s (fun t =>
        LanesSet s t p (rVd w) act (fun l => sfu (getF s VX_SFU_REV_REV p) (rFn w) (a l)) ∧ PredsBut [] s t p
        ∧ getF t VX_SFU_RESULTS p = (getF s VX_SFU_RESULTS p + (lanesOf act).length) % 2 ^ 64
        ∧ VxIssues s t p q [rVd w] ∧ VxLeaves s t p []))

/-- The integer operations of vx.iop as R163 gives them: add, subtract and multiply wrap modulo 2^32, and a shift takes the low 5 bits of its count, the arithmetic one keeping the sign; min and max compare signed values. (R163) -/
def Obligations.IntegerLaneValues : Prop :=
  ∀ a b : Word,
    (iopLane 0 a b).toNat = (a.toNat + b.toNat) % 2 ^ 32 ∧ (iopLane 1 a b).toInt = (a.toInt - b.toInt).bmod (2 ^ 32)
    ∧ (iopLane 2 a b).toNat = a.toNat * b.toNat % 2 ^ 32
    ∧ (iopLane 6 a b).toNat = a.toNat * 2 ^ (b.toNat % 32) % 2 ^ 32 ∧ (iopLane 7 a b).toNat = a.toNat / 2 ^ (b.toNat % 32)
    ∧ (iopLane 8 a b).toInt = a.toInt / (2 : Int) ^ (b.toNat % 32)
    ∧ (iopLane 9 a b).toInt = min a.toInt b.toInt ∧ (iopLane 10 a b).toInt = max a.toInt b.toInt

/-- vx.cmp writes the comparison of each active lane into its bit of PD; vx.pop combines two predicates; vx.pos writes POS0 + l INC; vx.cmask writes whether position KPOS0 + l is kept by KLEN, CAUSAL and WIN, and with APPLY puts minus infinity into the active lanes not kept. Bits of inactive lanes stay, and a write of p0 is ignored. (R158, R159, R164, R180, R181) -/
def Obligations.PredicatesAndMasks : Prop :=
  ∀ (p : Fin 72) s q, let w := q.word
    let bits' := fun t pd (act : BitVec 128) (f : Nat → Bool) =>
      (pd ≠ 0 → ∀ l < 128, (getPred t p pd).getLsbD l = if act.getLsbD l then f l else (getPred s p pd).getLsbD l)
      ∧ PredsBut [pd] s t p ∧ getPred t p 0 = BitVec.allOnes 128
    let lanes := fun t => ∀ r l, getLane t p r l = getLane s p r l
    Canon s → (rFn w ≤ 7 → rsvBad w [(0, 9), (54, 5), (72, 2)] = false → VxReady s p 0x66 (rReads w ++ [32 + ifld w 69 3]) q →
      Does (.vxCmp p) s (fun t => bits' t (ifld w 69 3) (rAct s p w) (fun l => cmpLane (rFn w) (getLane s p (rVa w) l) (rB s p w l))
        ∧ lanes t ∧ VxIssues s t p q [32 + ifld w 69 3] ∧ VxLeaves s t p []))
    ∧ (rFn w ≤ 6 → rsvBad w [(0, 9), (54, 5), (72, 2), (42, 3)] = false →
      VxReady s p 0x67 [32 + ifld w 64 3, 32 + ifld w 59 3, 32 + ifld w 69 3] q → Does (.vxPop p) s (fun t =>
        (ifld w 69 3 ≠ 0 → getPred t p (ifld w 69 3) = popPred (rFn w) (getPred s p (ifld w 64 3)) (getPred s p (ifld w 59 3)))
        ∧ PredsBut [ifld w 69 3] s t p ∧ getPred t p 0 = BitVec.allOnes 128
        ∧ lanes t ∧ VxIssues s t p q [32 + ifld w 69 3] ∧ VxLeaves s t p []))
    ∧ (ifld w 0 57 = 0 → VxReady s p 0x6E [32 + ifld w 58 3, ifld w 75 5] q → let p0 := bits (vxG s p w 70).toNat 0 24
      Does (.vxPos p) s (fun t => LanesSet s t p (ifld w 75 5) (guardOf s p (ifld w 58 3) (ibit w 57)) (fun l =>
          if ibit w 61 then f32Bits (.fin false (p0 + l * ifld w 62 8) 0) else BitVec.ofNat 32 (p0 + l * ifld w 62 8))
        ∧ PredsBut [] s t p ∧ VxIssues s t p q [ifld w 75 5] ∧ VxLeaves s t p []))
    ∧ (rsvBad w [(0, 54), (70, 2)] = false →
      VxReady s p 0x6F ([32 + ifld w 55 3] ++ ([32 + ifld w 72 3] ++ (if ibit w 58 then [ifld w 75 5] else []))) q →
      let rq := (vxG s p w 65).toNat
      let rl := (vxG s p w 60).toNat
      let act := guardOf s p (ifld w 55 3) (ibit w 54)
      let keep := fun l => let k := bits rq 24 24 + l
        decide (k ≤ 16777215 ∧ k < bits rl 0 25 ∧ (ibit w 59 = true → k ≤ bits rq 0 24)
          ∧ (bits rl 25 24 ≠ 0 → (bits rq 0 24 : Int) - k < bits rl 25 24))
      Does (.vxCmask p) s (fun t => bits' t (ifld w 72 3) act keep
        ∧ (ibit w 58 = false → lanes t)
        ∧ (ibit w 58 = true → LanesSet s t p (ifld w 75 5) act (fun l => if keep l then getLane s p (ifld w 75 5) l else 0xFF800000))
        ∧ VxIssues s t p q ([32 + ifld w 72 3] ++ (if ibit w 58 then [ifld w 75 5] else [])) ∧ VxLeaves s t p []))

/-- vx.red writes the fixed tree's sum, maximum or minimum of the active lanes to all lanes of VD. vx.rmax sets lane ROW of VM to the larger of it and the tree's maximum, lane ROW of VA to 1.0 or to the exponential of the difference, and VD to the exponentials of the active scores less the new maximum, +0 elsewhere (where VS is VM or VA, the score of lane ROW is what was just written there). vx.rsum sets lane ROW of VL to rne32(rne32(VL VA) + tree sum). Every other lane stays. Each pair of VD, VM and VA of a vx.rmax that is equal faults with VX_BAD_ENCODING. (R167, R168, R169, R170) -/
def Obligations.ReductionsAndAttention : Prop :=
  ∀ (p : Fin 72) s q, let w := q.word
    let rev := getF s VX_SFU_REV_REV p
    let row := ifld w 53 7
    Canon s → (rFn w ≤ 2 → rsvBad w [(0, 9), (54, 5)] = false → VxReady s p 0x69 (rReads w ++ [rVd w]) q → Does (.vxRed p) s (fun t =>
      LanesSet s t p (rVd w) (BitVec.allOnes 128) (fun _ => reduceLanes (rFn w) (rAct s p w) (getLane s p (rVa w)))
      ∧ PredsBut [] s t p ∧ VxIssues s t p q [rVd w] ∧ VxLeaves s t p []))
    ∧ (ifld w 0 49 = 0 → ifld w 75 5 ≠ ifld w 65 5 → ifld w 75 5 ≠ ifld w 60 5 → ifld w 65 5 ≠ ifld w 60 5 →
      VxReady s p 0x6A [ifld w 70 5, 32 + ifld w 50 3, ifld w 75 5, ifld w 65 5, ifld w 60 5] q →
      let act := aAct s p w
      let old := getLane s p (ifld w 70 5)
      let mo := getLane s p (ifld w 65 5) row
      let mn := fminmax true mo (reduceLanes 1 act old)
      let al := if fvEq (f32 mo) (f32 mn) then 0x3F800000 else sfu rev 0 (fsub mo mn)
      let vs := fun l => if l = row ∧ ifld w 70 5 = ifld w 65 5 then mn else if l = row ∧ ifld w 70 5 = ifld w 60 5 then al else old l
      Does (.vxRmax p) s (fun t =>
        (∀ l < 128, getLane t p (ifld w 75 5) l =
          if act.getLsbD l ∧ fvEq (f32 mn) (.inf true) = false then sfu rev 0 (fsub (vs l) mn) else 0)
        ∧ (∀ l < 128, getLane t p (ifld w 65 5) l = if l = row then mn else getLane s p (ifld w 65 5) l)
        ∧ (∀ l < 128, getLane t p (ifld w 60 5) l = if l = row then al else getLane s p (ifld w 60 5) l)
        ∧ (∀ r l, r ≠ ifld w 75 5 → r ≠ ifld w 65 5 → r ≠ ifld w 60 5 → l < 128 → getLane t p r l = getLane s p r l)
        ∧ PredsBut [] s t p ∧ VxIssues s t p q [ifld w 75 5, ifld w 65 5, ifld w 60 5] ∧ VxLeaves s t p []))
    ∧ (ifld w 0 49 = 0 → ifld w 65 5 = 0 → ifld w 75 5 ≠ ifld w 60 5 →
      VxReady s p 0x6B [ifld w 70 5, ifld w 60 5, 32 + ifld w 50 3, ifld w 75 5] q → Does (.vxRsum p) s (fun t =>
        LanesSet s t p (ifld w 75 5) (oneLane row) (fun _ => fadd (fmul (getLane s p (ifld w 75 5) row) (getLane s p (ifld w 60 5) row))
          (reduceLanes 0 (aAct s p w) (getLane s p (ifld w 70 5))))
        ∧ PredsBut [] s t p ∧ VxIssues s t p q [ifld w 75 5] ∧ VxLeaves s t p []))
    ∧ (ifld w 75 5 = ifld w 65 5 ∨ ifld w 75 5 = ifld w 60 5 ∨ ifld w 65 5 = ifld w 60 5 →
      frontIs s (.tile p .vx) 2 0x6A = some q → draining s p = false → Does (.vxRmax p) s (fun t => VxFaults s t p q 0x0B01))

/-- With all counter and key words zero, philox returns the four words of R172. (R172) -/
def Obligations.PhiloxOfZeros : Prop :=
  philox ⟨0, 0, 0, 0⟩ 0 0 = ⟨0x6627E8D5, 0xE169C58D, 0xBC57AC4C, 0x9B00DBD8⟩

/-- vx.rng writes the 16-bit value of each active lane's column as INT32 (FN 0) or times 2^-16 as FP32 (FN 1); vx.drop writes +0 where that value is below the threshold and the product with the keep scale elsewhere. Either with an odd coordinate register faults with VX_BAD_ENCODING. A write of VX_RNG_KEY takes effect only while the engine is HALTED, LOADED or QUIESCED. (R173, R175, R178, R179) -/
def Obligations.RandomLanes : Prop :=
  (∀ (p : Fin 72) s q, let w := q.word
    let key : DWord := BitVec.ofNat 64 (getF s VX_RNG_KEY_KEY p)
    let act := dAct s p w
    let co := vxCoord s p (ifld w 65 5)
    Canon s → (rsvBad w [(0, 38), (44, 5), (49, 16), (70, 5)] = false → ifld w 65 5 % 2 = 0 → ifld w 42 2 ≤ 1 →
      VxReady s p 0x6D [32 + ifld w 39 3, ifld w 75 5] q → Does (.vxRng p) s (fun t =>
        LanesSet s t p (ifld w 75 5) act (fun l => if ifld w 42 2 = 0 then BitVec.ofNat 32 (rng16 key 0 co l)
          else f32Bits (.fin false (rng16 key 0 co l) (-16)))
        ∧ PredsBut [] s t p ∧ VxIssues s t p q [ifld w 75 5] ∧ VxLeaves s t p []))
    ∧ (rsvBad w [(0, 38), (42, 2)] = false → ifld w 65 5 % 2 = 0 → VxReady s p 0x6C [ifld w 70 5, 32 + ifld w 39 3, ifld w 75 5] q →
      Does (.vxDrop p) s (fun t => LanesSet s t p (ifld w 75 5) act (fun l => if rng16 key 1 co l < ifld w 49 16 then 0
          else fmul (getLane s p (ifld w 70 5) l) (BitVec.ofNat 32 (vxG s p w 44).toNat))
        ∧ PredsBut [] s t p ∧ VxIssues s t p q [ifld w 75 5] ∧ VxLeaves s t p []))
    ∧ (ifld w 65 5 % 2 = 1 → draining s p = false →
      (frontIs s (.tile p .vx) 2 0x6C = some q → Does (.vxDrop p) s (fun t => VxFaults s t p q 0x0B01))
      ∧ (frontIs s (.tile p .vx) 2 0x6D = some q → Does (.vxRng p) s (fun t => VxFaults s t p q 0x0B01))))
  ∧ (∀ (p : Fin 72) s v, Canon s → pageUp s 4 p = true → let st := (getEng s (.tile p .vx)).st
    (st = .halted ∨ st = .loaded ∨ st = .quiesced → Does (.vxRngKeyWrite p v) s (fun t => getF t VX_RNG_KEY_KEY p = v.toNat
      ∧ RegsBut [fldKey 4 VX_RNG_KEY_KEY p 0] s t ∧ Only [.regs] s t))
    ∧ (st = .armed ∨ st = .running ∨ st = .waiting ∨ st = .faulted → exec (.vxRngKeyWrite p v) s = .next s))

/-- vx.ld widens the element of each active lane from the row at RA + OFF, times its block's scale with SC, and steps RA with INC. vx.st writes the bytes that hold active lanes of the converted row, and no byte of an inactive lane, and with SC the scale of each block that holds an active lane. vx.lda reads 128 accumulation buffer entries, clearing the active ones with CLR; vx.sta writes them; what stands in one that an MXE instruction in flight writes too is open. An access past the store or the buffer faults with VX_ADDR_RANGE, one that is not aligned to its elements with VX_MISALIGNED, and a load whose active elements, scales or entries are poisoned with POISON_CONSUMED; a fault has no effect. (R159, R161, R177, R189, R190, R191) -/
def Obligations.VectorLoadsAndStores : Prop :=
  ∀ (p : Fin 72) s q, let w := q.word
    let e := Eng.tile p .vx
    let f := fmtC (ifld w 44 4)
    let act := lsAct s p w
    let bs := lsBs w
    let sa := bits (vxG s p w 37).toNat 0 22
    let ra := ifld w 70 5
    let scd := ibit w 43 = true
    Canon s → (lsBad w = false → rsvBad w [(34, 2)] = false → VxReady s p 0x60 [32 + ifld w 26 3, ifld w 75 5] q →
      (∀ c x, rowAt f (lsAddr s p w) = .error (c, x) → Does (.vxLd p) s (fun t => VxFaults s t p q c))
      ∧ (∀ a, rowAt f (lsAddr s p w) = .ok a → (scd → 0x400000 < sa + 128 / bs → Does (.vxLd p) s (fun t => VxFaults s t p q 0x0B02))
        ∧ ((scd → sa + 128 / bs ≤ 0x400000) → let row := tileRead s p a (elemBytes f 128)
          let scs := if ibit w 43 then tileRead s p sa (128 / bs) else []
          (firstBadAt a row (activeByte f act) = none → firstBadAt sa scs (activeBlock act bs) = none → Does (.vxLd p) s (fun t =>
            LanesSet s t p (ifld w 75 5) act (fun l => widenElem f (elemAt f (row.map (·.b)) l) ((scs[l / bs]?).map (·.b.toNat)))
            ∧ (ibit w 36 = true → getG t e ra = getG s e ra + BitVec.ofNat 64 (elemBytes f 128))
            ∧ PredsBut [] s t p ∧ VxIssues s t p q [ifld w 75 5] ∧ VxLeaves s t p (if ibit w 36 then [gKey e ra] else [])))
          ∧ (firstBadAt a row (activeByte f act) ≠ none ∨ firstBadAt sa scs (activeBlock act bs) ≠ none →
            Does (.vxLd p) s (fun t => VxFaults s t p q 0x0303)))))
    ∧ (lsBad w = false → (ibit w 34 = true → ifld w 44 4 = 3 ∨ ifld w 44 4 = 4) → (ibit w 35 = true → ifld w 29 5 % 2 = 0) →
      VxReady s p 0x61 [ifld w 75 5, 32 + ifld w 26 3] q →
      (∀ c x, rowAt f (lsAddr s p w) = .error (c, x) → Does (.vxSt p) s (fun t => VxFaults s t p q c))
      ∧ (∀ a, rowAt f (lsAddr s p w) = .ok a → (scd → 0x400000 < sa + 128 / bs → Does (.vxSt p) s (fun t => VxFaults s t p q 0x0B02))
        ∧ ((scd → sa + 128 / bs ≤ 0x400000) → let v := getLane s p (ifld w 75 5)
          let sc := fun b => if ibit w 43 then blockScale f act bs b (fun l => f32 (v l)) else (0, 0)
          let rnd := fun l => if ibit w 35 then some (rng16 (BitVec.ofNat 64 (getF s VX_RNG_KEY_KEY p)) 2 (vxCoord s p (ifld w 29 5)) l) else none
          let code := fun l => if f = .fp32 then (v l).toNat else (encodeNum f (fvScale (sc (l / bs)).2 (f32 (v l))) (rnd l) (ibit w 34)).1
          let old := (tileRead s p a (elemBytes f 128)).map (·.b)
          let new := packElems f ((List.range 128).map (fun l => if act.getLsbD l then code l else elemAt f old l))
          Does (.vxSt p) s (fun t => (∀ i < elemBytes f 128, (scd → a + i < sa ∨ sa + 128 / bs ≤ a + i) → memByte t (tsAddr p (a + i)) =
              if activeByte f act i then (new[i]?).getD 0 else memByte s (tsAddr p (a + i)))
            ∧ (scd → ∀ b < 128 / bs, activeBlock act bs b = true → memByte t (tsAddr p (sa + b)) = BitVec.ofNat 8 (sc b).1)
            ∧ (scd → ∀ b < 128 / bs, activeBlock act bs b = false → (sa + b < a ∨ a + elemBytes f 128 ≤ sa + b) →
              memByte t (tsAddr p (sa + b)) = memByte s (tsAddr p (sa + b)))
            ∧ BytesBut ([(tsAddr p a, elemBytes f 128)] ++ (if ibit w 43 then [(tsAddr p sa, 128 / bs)] else [])) s t
            ∧ (ibit w 36 = true → getG t e ra = getG s e ra + BitVec.ofNat 64 (elemBytes f 128))
            ∧ (∀ r l, getLane t p r l = getLane s p r l) ∧ PredsBut [] s t p
            ∧ VxIssues s t p q [] ∧ Only [.regs, .engines, .tiles, .mem, .poison, .digest] s t))))
    ∧ (ifld w 0 50 = 0 → let x := qAddr s p w
      let on := qAct s p w
      (VxReady s p 0x62 [32 + ifld w 51 3, ifld w 75 5] q → (16383 < x + 7 → Does (.vxLda p) s (fun t => VxFaults s t p q 0x0B02))
        ∧ (x + 7 ≤ 16383 → (∃ l < 128, on.getLsbD l = true ∧ accBad s p (16 * x + l) = true) → Does (.vxLda p) s (fun t => VxFaults s t p q 0x0303))
        ∧ (x + 7 ≤ 16383 → (∀ l < 128, on.getLsbD l = true → accBad s p (16 * x + l) = false) →
        Does (.vxLda p) s (fun t => LanesSet s t p (ifld w 75 5) on (fun l => getAcc s p (16 * x + l))
          ∧ (∀ k, getAcc t p k = if ibit w 55 = true ∧ 16 * x ≤ k ∧ k < 16 * x + 128 ∧ on.getLsbD (k - 16 * x) = true then 0 else getAcc s p k)
          ∧ (ibit w 54 = true → getG t e ra = getG s e ra + 8) ∧ PredsBut [] s t p ∧ VxIssues s t p q [ifld w 75 5]
          ∧ RegsBut (gKey e ra :: traceKeys e) s t ∧ Only [.regs, .engines, .tiles] s t)))
      ∧ (VxReady s p 0x63 [ifld w 75 5, 32 + ifld w 51 3] q → ibit w 55 = false → (16383 < x + 7 → Does (.vxSta p) s (fun t => VxFaults s t p q 0x0B02))
        ∧ (x + 7 ≤ 16383 → Does (.vxSta p) s (fun t =>
          (∀ k, if 16 * x ≤ k ∧ k < 16 * x + 128 ∧ on.getLsbD (k - 16 * x) = true
            then entryRaced s p k = false → getAcc t p k = getLane s p (ifld w 75 5) (k - 16 * x) else getAcc t p k = getAcc s p k)
          ∧ (∀ l < 128, on.getLsbD l = true → accBad t p (16 * x + l) = false) ∧ (∀ r l, getLane t p r l = getLane s p r l)
          ∧ (ibit w 54 = true → getG t e ra = getG s e ra + 8) ∧ PredsBut [] s t p ∧ VxIssues s t p q []
          ∧ RegsBut (gKey e ra :: traceKeys e) s t ∧ Only [.freeCtr, .regs, .engines, .tiles] s t))))

/-- vx.opt over arrays that lie apart and hold no poison replaces, for each of its N elements, the FP32 master and first moment, and in mode 0 the second moment, by the values of R183 from their old ones and the gradient, and writes the copy of the new master in its format, with the scales of its blocks where it is scaled; it sets NANG for a gradient that is not finite and writes no byte outside its arrays. What its parameter block breaks faults before any element is written. VX_INSTR_COMPLETE ends an instruction's pending writes and signals. (R34, R182, R183, R185, R188, R189) -/
def Obligations.OptimiserStep : Prop :=
  (∀ (p : Fin 72) s q, let w := q.word
    let rp := bits (vxG s p w 75).toNat 0 22
    let n := optWord s p rp 6
    let f := fmtC (ifld w 69 4)
    let lo := fun k => let a := optWord s p rp k; if k = 4 then rowStart f a else a
    let rd := fun t k i => BitVec.ofNat 32 (readNat t (tsAddr p (optWord s p rp k + 4 * i)) 4)
    let grad := fun i => if ibit w 64 then widenElem .bf16 (readNat s (tsAddr p (optWord s p rp 3 + 2 * i)) 2) none else rd s 3 i
    let r := fun i => optElem (getF s VX_SFU_REV_REV p) (ifld w 73 2) (optF s p rp) (rd s 0 i) (rd s 1 i) (rd s 2 i) (grad i)
    let bl := if ibit w 65 then 32 else 16
    let sc := fun b => if ibit w 66 then deriveScale f ((List.range (min bl (n - bl * b))).map (fun j => f32 (r (bl * b + j)).1)) else (0, 0)
    let co : Coord := ⟨optWord s p rp 7, 0, optWord s p rp 18 % 65536, optWord s p rp 18 / 65536, optWord s p rp 19⟩
    let rnd := fun i => if ibit w 68 then some (rng16 (BitVec.ofNat 64 (getF s VX_RNG_KEY_KEY p)) 2 co i) else none
    Canon s → ifld w 73 2 ≤ 1 → (fmtOfCode (ifld w 69 4)).isSome → (ibit w 66 = true → mayScale (ifld w 69 4) = true) → ifld w 0 64 = 0 →
      VxReady s p 0x70 [] q → (∀ c a, optFault s p w rp = some (c, a) → Does (.vxOpt p) s (fun t => VxFaults s t p q c))
      ∧ (optFault s p w rp = none →
      (∀ x ∈ optArrays w n, ∀ i < x.2.1, isBad s (tsAddr p (lo x.1 + i)) = false) →
      (optArrays w n).Pairwise (fun x y => lo x.1 + x.2.1 ≤ lo y.1 ∨ lo y.1 + y.2.1 ≤ lo x.1) →
      (∀ x ∈ optArrays w n, lo x.1 + x.2.1 ≤ rp ∨ rp + 128 ≤ lo x.1) →
      Does (.vxOpt p) s (fun t => (∀ i < n, rd t 0 i = (r i).1 ∧ rd t 1 i = (r i).2.1 ∧ (ifld w 73 2 = 0 → rd t 2 i = (r i).2.2.1)
          ∧ ((fvIsNan (f32 (r i).2.2.2) || fvIsInf (f32 (r i).2.2.2)) = true → getF t VX_FLAGS_NANG p = 1)
          ∧ elemAt f ((tileRead t p (lo 4) (elemBytes f n)).map (·.b)) i = (if f = .fp32 then (r i).1.toNat
            else (encodeNum f (fvScale (sc (i / bl)).2 (f32 (r i).1)) (rnd i) (ibit w 67)).1))
        ∧ (ibit w 66 = true → ∀ b < (n + bl - 1) / bl, memByte t (tsAddr p (optWord s p rp 5 + b)) = BitVec.ofNat 8 (sc b).1)
        ∧ BytesBut ((optArrays w n).map (fun x => (tsAddr p (lo x.1), x.2.1))) s t
        ∧ (∀ r l, getLane t p r l = getLane s p r l) ∧ PredsBut [] s t p ∧ VxIssues s t p q []
        ∧ Only [.regs, .engines, .tiles, .mem, .poison, .digest] s t)))
  ∧ (∀ (p : Fin 72) s q, let w := q.word
    let rp := bits (vxG s p w 75).toNat 0 22
    Canon s → ifld w 73 2 ≤ 1 → (fmtOfCode (ifld w 69 4)).isSome → (ibit w 66 = true → mayScale (ifld w 69 4) = true) → ifld w 0 64 = 0 →
      VxReady s p 0x70 [] q → rp % 128 ≠ 0 → Does (.vxOpt p) s (fun t => VxFaults s t p q 0x0B03))
  ∧ (∀ (p : Fin 72) k s f, Canon s → (getVx s p).fly[k]? = some f → Does (.vxInstrComplete p k) s (fun t =>
      (getVx t p).fly = (getVx s p).fly.eraseIdx k ∧ (∀ r l, getLane t p r l = getLane s p r l) ∧ PredsBut [] s t p
      ∧ Notifies s t (.tile p .vx) f.done.sctr f.done.tag f.done.pc
      ∧ RegsBut (pKey (.tile p .vx) P_PSTATE_VSEEN :: traceKeys (.tile p .vx)) s t ∧ TilesBut [p.val] s t ∧ Only [.regs, .tiles] s t))

/-- dm.copy, dm.fill, dm.warm, dm.gather and dm.atomadd leave the queue and put in flight a descriptor with what they read from their registers, a free transfer number, its count of pieces, no progress, and a mark where it overlaps itself or another in flight (their result is then open, log entry 4). With 8 in flight, or on a draining tile, they wait at issue. A V that is not dm.atomadd's, a counter number without its flag or a reserved bit faults with DM_BAD_ENCODING; a W first subtracts 1 from its counter or puts the engine in WAITING; a descriptor that breaks a check of its start faults with the code of that check, one that names an absent tile of this GW7 with ABSENT_UNIT. Memory, general registers and other engines stay. (R4, R131, R132, R134, R135, R136, R151, R155, R200, R502, R603) -/
def Obligations.DescriptorsStart : Prop :=
  ∀ (p : Fin 72) s q c op rsv (mk : State → IWord → Desc × Nat), let e := Eng.tile p .dm
    let w := q.word
    (c, op, rsv, mk) ∈ [(Instr.dmCopy p, 0x40, [(0, 27)], shapeDesc p.val 0x40),
      (.dmFill p, 0x41, [(0, 36), (77, 3), (54, 5), (47, 2)], shapeDesc p.val 0x41),
      (.dmWarm p, 0x42, [(0, 47), (74, 3), (64, 5), (49, 5)], shapeDesc p.val 0x42),
      (.dmGather p, 0x43, [(0, 32), (74, 3)], narrowDesc p.val), (.dmAtomadd p, 0x44, [(0, 41), (74, 2)], narrowDesc p.val)] →
    Canon s → frontIs s e 3 op = some q →
    let d : Desc := { (mk s w).1 with op := op, pc := q.idx, tag := iTag w, v := iV w, t := iT w, sctr := iSig w }
    let x := getDm s p
    let bad := flagBad w || (iV w != (op == 0x44)) || rsvBad w rsv || (op == 0x42 && ifld w 77 3 != 1)
    let unused := fun n => (∀ y ∈ x.descs, y.tid ≠ n) ∧ ∀ y ∈ x.out, y.tid ≠ n
    let plain := fun (y : Desc) => { y with unsup := false }
    (draining s p.val = true ∨ 8 ≤ x.descs.length → exec c s = .next s)
    ∧ (draining s p.val = false → x.descs.length < 8 →
      (bad = true → Does c s (fun t => FaultsWith s t e 0x0C01 (iTag w) q.idx ∧ (getDm t p).out = x.out))
      ∧ (bad = false → iW w = true → q.wDone = false →
        (1 ≤ getCtr s p (iWctr w) → exec c s = exec c (modEng (takeCtr s p (iWctr w) 1 e) e (fun g =>
          { g with queue := { q with wDone := true } :: g.queue.drop 1 })))
        ∧ (getCtr s p (iWctr w) = 0 → Does c s (fun t => (getEng t e).st = .waiting ∧ (getEng t e).queue = (getEng s e).queue
          ∧ (∃ x, (getEng t e).wait = some x ∧ x.kind = .wflag ∧ x.ctr = iWctr w ∧ x.val = 1)
          ∧ RegsBut (traceKeys e) s t ∧ EngsBut [e] s t ∧ Only [.regs, .engines, .tiles] s t)))
      ∧ (bad = false → iW w = false ∨ q.wDone = true →
        (∀ x, descFault d (mk s w).2 = some x → Does c s (fun t => FaultsWith s t e x (iTag w) q.idx ∧ (getDm t p).out = (getDm s p).out))
        ∧ (descFault d (mk s w).2 = none → (absentSide s d).isSome ∨ (ptileOf s p.val = 2 ∧ namesOther d = true) →
          Does c s (fun t => FaultsWith s t e 0x0101 (iTag w) q.idx ∧ (getDm t p).out = (getDm s p).out))
        ∧ (descFault d (mk s w).2 = none → absentSide s d = none → (ptileOf s p.val ≠ 2 ∨ namesOther d = false) → (∃ n < 128, unused n) →
          Does c s (fun t =>
            (∃ n < 128, unused n ∧ ∃ y, (getDm t p).descs.map plain = x.descs.map plain ++ [plain y] ∧ (getDm t p).descs.getLast? = some y
              ∧ plain y = { plain d with tid := n, total := pieceTotal d, since := s.gsc }
              ∧ y.unsup = (overlapsSelf s p d || x.descs.any (overlapsOther s p d)))
            ∧ d.next = 0 ∧ d.doneCnt = 0 ∧ d.stall = none
            ∧ (op ≤ 0x42 → let shape := (getG s e (ifld w 59 5)).toNat
              d.len = bits shape 0 24 ∧ d.n1 = bits shape 24 16 + 1 ∧ d.n2 = bits shape 40 16 + 1 ∧ d.src = (getG s e (ifld w 69 5)).toNat)
            ∧ (getDm t p).out.map (fun o => { o with unsup := false }) = x.out.map (fun o => { o with unsup := false })
            ∧ (getEng t e).queue = (getEng s e).queue.drop 1 ∧ (getEng t e).st = (getEng s e).st
            ∧ EngsBut [e] s t ∧ TilesBut [p.val] s t ∧ RegsBut (traceKeys e) s t ∧ Only [.regs, .engines, .tiles] s t))))

/-- DM_PIECE_ISSUE takes the next piece of a descriptor that lies apart from every other. A copy within the own tile store reads the source bytes; a source in own job memory asks the slices for the lines of its checked parts; a write to own job memory carries the source bytes and asks for its lines; a piece to another tile of the node leaves as a WRITE packet with the data, the piece's number and LAST on the final one; one from there sends a READ_REQ. A fill repeats its 8 bytes by the offset in the row, a warm asks for lines only. A piece whose folio is not restored stalls its descriptor there, one whose folio is bad faults the program with TRANSLATION_INVALID or what the check found. The last source read raises ECTR. A gather or an atomic add takes the element that its index names, and faults at a poisoned index or past the job address space. (R130, R133, R135, R140, R141, R146, R149, R283, R290, R308) -/
def Obligations.PiecesIssue : Prop :=
  ∀ (p : Fin 72) (tid : BitVec 8) s d, let k := d.next
    let e := Eng.tile p .dm
    let sp := pieceSpan d k
    let sa := (rowAddr (descSrc d) d.sstr d.n1 sp.1 + sp.2.1) % 2 ^ 40
    let da := (rowAddr (descDst d) d.dstr d.n1 sp.1 + sp.2.1) % 2 ^ 40
    let own := (p.val, tid.toNat, k)
    let c := Instr.dmPieceIssue p tid
    let desc := fun t => (getDm t p).descs.find? (fun y => y.tid == tid.toNat)
    let src := jobCheck s (some p.val) sa sp.2.2 false
    let dst := jobCheck s (some p.val) da sp.2.2 true
    Canon s → (dmIssues s p = false → exec c s = .next s)
    ∧ (dmIssues s p = true → desc s = some d → (d.stall.isSome ∨ d.total ≤ d.next) → exec c s = .next s)
    ∧ (dmIssues s p = true → desc s = some d → d.stall = none → d.next < d.total → d.unsup = false → d.ectr = none →
      (d.op = 0x40 → d.ssp = 0 → d.dsp = 0 → Does c s (fun t =>
        (∃ x, getPiece t p tid.toNat k = some x ∧ x.kind = 2 ∧ x.n = sp.2.2 ∧ x.addr = da ∧ x.data = tileRead s p sa sp.2.2)
        ∧ desc t = some { d with next := k + 1, readBack := d.readBack + 1 } ∧ TilesBut [p.val] s t ∧ Only [.tiles] s t))
      ∧ (∀ segs, d.op = 0x40 → d.ssp = 1 → d.dsp = 0 → src.2 = .ok segs → Does c s (fun t =>
        (∃ x, getPiece t p tid.toNat k = some x ∧ x.kind = 0 ∧ x.src = segs ∧ x.addr = da ∧ x.lines = (asksLines own segs false d.shint).length)
        ∧ t.lineQ = src.1.lineQ ++ asksLines own segs false d.shint ∧ desc t = some { d with next := k + 1 } ∧ t.mem = src.1.mem))
      ∧ (∀ segs, d.op = 0x40 → d.ssp = 0 → d.dsp = 1 → dst.2 = .ok segs → Does c s (fun t =>
        (∃ x, getPiece t p tid.toNat k = some x ∧ x.kind = 3 ∧ x.dst = segs ∧ x.data = tileRead s p sa sp.2.2
          ∧ x.lines = (asksLines own segs true d.dhint).length)
        ∧ t.lineQ = dst.1.lineQ ++ asksLines own segs true d.dhint ∧ t.mem = dst.1.mem))
      ∧ (d.op = 0x40 → d.ssp = 0 → d.dsp = 2 → (physOf s (bits d.dst 40 8)).isSome → Does c s (fun t =>
        (∃ pk, t.router.inject = s.router.inject ++ [pk] ∧ pk.typ = 0 ∧ pk.dst = epId (nodeId s) (bits d.dst 40 8) ∧ pk.addr.toNat = da
          ∧ pk.payload = tileRead s p sa sp.2.2 ∧ pk.pseq = BitVec.ofNat 16 k ∧ pk.last = decide (k + 1 = d.total) ∧ pk.rsig = d.rctr.isSome
          ∧ pk.gen = BitVec.ofNat 8 (jobGen s) ∧ pk.edn = BitVec.ofNat 1 (getF s RT_EDITION_INJECT 0))
        ∧ (∃ x, getPiece t p tid.toNat k = some x ∧ x.kind = 4) ∧ Only [.tiles, .router] s t))
      ∧ (d.op = 0x40 → d.ssp = 2 → d.dsp = 0 → (physOf s (bits d.src 40 8)).isSome → Does c s (fun t =>
        (∃ pk, t.router.inject = s.router.inject ++ [pk] ∧ pk.typ = 1 ∧ pk.dst = epId (nodeId s) (bits d.src 40 8) ∧ pk.addr.toNat = sa
          ∧ pk.len.toNat = sp.2.2 % 512 ∧ pk.payload = [] ∧ pk.pseq = BitVec.ofNat 16 k)
        ∧ (∃ x, getPiece t p tid.toNat k = some x ∧ x.kind = 1 ∧ x.addr = da) ∧ Only [.tiles, .router] s t))
      ∧ (d.op = 0x40 → (d.ssp = 2 ∧ physOf s (bits d.src 40 8) = none ∧ d.dsp = 0) ∨ (d.ssp = 0 ∧ d.dsp = 2 ∧ physOf s (bits d.dst 40 8) = none) →
        Does c s (fun t => FaultsWith s t e 0x0101 d.tag d.pc ∧ (getDm t p).descs = []))
      ∧ (d.op = 0x41 → d.dsp = 0 → Does c s (fun t =>
        (∃ x, getPiece t p tid.toNat k = some x ∧ x.kind = 2 ∧ x.addr = da ∧ x.data.length = sp.2.2
          ∧ ∀ i < sp.2.2, x.data[i]? = some ⟨BitVec.ofNat 8 (d.src / 2 ^ (8 * ((sp.2.1 + i) % 8))), false⟩)
        ∧ desc t = some { d with next := k + 1 } ∧ Only [.tiles] s t))
      ∧ (∀ segs, d.op = 0x42 → d.ssp = 1 → src.2 = .ok segs → Does c s (fun t =>
        (∃ x, getPiece t p tid.toNat k = some x ∧ x.kind = 8) ∧ t.lineQ = src.1.lineQ ++ asksLines own segs false d.shint
        ∧ desc t = some { d with next := k + 1 } ∧ t.mem = src.1.mem))
      ∧ (∀ v n, d.op = 0x40 ∨ d.op = 0x42 → d.ssp = 1 → d.dsp = 0 → src.2 = .stall v n →
        Does c s (fun t => ∃ y, desc t = some y ∧ y.next = k ∧ y.stall = some ⟨v, s.gsc, 0⟩))
      ∧ (∀ v, d.op = 0x40 ∨ d.op = 0x42 → d.ssp = 1 → d.dsp = 0 → src.2 = .fault v →
        Does c s (fun t => FaultsWith src.1 t e v d.tag d.pc ∧ (getDm t p).descs = []))
      ∧ (d.op = 0x43 ∨ d.op = 0x44 → let ib := tileRead s p (d.idxAddr + 4 * k) 4
        let a := bits d.src 0 40 + 32 * ofBytes (ib.map (·.b))
        (ib.any (·.bad) = true → Does c s (fun t => FaultsWith s t e 0x0303 d.tag d.pc ∧ (getDm t p).descs = []))
        ∧ (ib.any (·.bad) = false → 2 ^ 40 ≤ a → Does c s (fun t => FaultsWith s t e 0x0301 d.tag d.pc ∧ (getDm t p).descs = []))
        ∧ (∀ segs, ib.any (·.bad) = false → a < 2 ^ 40 → d.ssp = 1 → (jobCheck s (some p.val) a 32 (d.op == 0x44)).2 = .ok segs → Does c s (fun t =>
          (∃ x, getPiece t p tid.toNat k = some x ∧ x.kind = (if d.op = 0x44 then 6 else 5) ∧ x.src = segs ∧ x.addr = d.dst + 32 * k
            ∧ (d.op = 0x44 → x.data = tileRead s p (d.dst + 32 * k) 32)) ∧ desc t = some { d with next := k + 1 })))) 
    ∧ (∀ c', dmIssues s p = true → desc s = some d → d.stall = none → d.next < d.total → d.op = 0x40 → d.ssp = 0 → d.dsp = 0 →
      d.ectr = some c' → d.readBack + 1 = d.total → d.esigDone = false → isolated s p.val = false →
      Does c s (fun t => (getTile t p).pend = (getTile s p).pend ++ [⟨c', 1, .unit d.tag⟩]))

/-- DM_PIECE_COMPLETE lands a piece in the own tile store, writing its bytes and no other (free ones where R132 or R136 leaves the result open, log entry 4). A read of own job memory whose lines are all served goes on to the tile store, a write or a warm whose lines are served completes, a gathered element lands in the tile store, an atomic add puts the sums of its lanes in place of the element or poisons it where either operand is poisoned. A completed piece is counted, and the last one completes the descriptor and signals. Before a slice has served a piece's lines nothing changes. (R140, R142, R157, R283, R284, R290, R292, R293) -/
def Obligations.PiecesComplete : Prop :=
  ∀ (p : Fin 72) (tid : BitVec 8) (pseq : BitVec 16) s x, let c := Instr.dmPieceComplete p tid pseq
    Canon s → (getPiece s p tid.toNat pseq.toNat = none → exec c s = .next s)
    ∧ (getPiece s p tid.toNat pseq.toNat = some x →
      ((x.kind = 1 ∨ x.kind = 4 ∨ x.kind = 7 ∨ x.kind = 9) → exec c s = .next s)
      ∧ (x.kind = 0 ∨ x.kind = 3 ∨ x.kind = 8 → x.lines ≠ 0 → memReset s (x.src ++ x.dst) = false → exec c s = .next s)
      ∧ (x.kind = 0 → x.lines = 0 → x.sp = 0 → Does c s (fun t =>
        getPiece t p tid.toNat pseq.toNat = some { x with kind := 2, since := s.gsc, held := none } ∧ t.mem = s.mem ∧ EngsBut [] s t))
      ∧ ∀ d, (getDm s p).descs.find? (fun y => y.tid == tid.toNat) = some d →
        (x.kind = 2 → Does c s (fun t => PieceDone s t p x d ∧ BytesBut [(tsAddr p x.addr, x.data.length)] s t
          ∧ (x.unsup = false → ∀ i < x.data.length, memByte t (tsAddr p (x.addr + i)) = ((x.data[i]?).getD ⟨0, false⟩).b)
          ∧ Only [.freeCtr, .regs, .tiles, .mem, .poison, .digest] s t))
        ∧ (x.kind = 3 ∨ x.kind = 8 → x.lines = 0 → Does c s (fun t => PieceDone s t p x d ∧ t.mem = s.mem ∧ t.poison = s.poison))
        ∧ (∀ a, x.kind = 5 → x.src = [(a, 32)] → x.unsup = false → d.ectr = none → memReset s (x.src ++ x.dst) = false → slicesWait s x.src = false →
          Does c s (fun t => getPiece t p tid.toNat pseq.toNat = none
            ∧ ∀ i < 32, memByte t (tsAddr p (x.addr + i)) = memByte s (a + i)))
        ∧ (∀ a, x.kind = 6 → x.src = [(a, 32)] → a % 32 = 0 → a < 2 ^ 36 → x.unsup = false → memReset s (x.src ++ x.dst) = false →
          writeWaits s x.src = false → x.gen = getF s MC_JOB_GEN_GEN 0 →
          ((getFrame s (a / 2 ^ 21)).rstate ≠ 4 ∨ bit (getFrame s (a / 2 ^ 21)).d.toNat (a % 2 ^ 21 / 65536) = true) →
          let old := readBytes s a 32
          ((old ++ x.data).all (fun b => !b.bad) = true → Does c s (fun t => PieceDone s t p x d
            ∧ ∀ i < 32, memByte t (a + i) = ((addLanes x.int old x.data)[i]?).getD 0))
          ∧ ((old ++ x.data).any (·.bad) = true → Does c s (fun t => PieceDone s t p x d ∧ isBad t a = true ∧ isBad t (a + 16) = true))))

/-- A stalled descriptor goes on at its piece once the folio is valid. A stall of P_WAIT_TMO, a request without a reply for 100 µs (10 ms to another node) and a descriptor incomplete after 10 ms fault with TRANSFER_TIMEOUT. A piece refused with RT_XFER_BUSY is sent again 2 µs later and counted, one refused with RECALL_HELD after 1 ms. A read-ahead writes no memory and signals nothing. TILE_SWEEP_READ counts a corrected word and poisons one that it cannot correct. (R128, R144, R146, R148, R149, R375, R439) -/
def Obligations.MoverTimers : Prop :=
  (∀ (p : Fin 72) (tid : BitVec 8) s d x, Canon s → (getDm s p).descs.find? (fun y => y.tid == tid.toNat) = some d → d.stall = some x →
    ((∀ n, frameOfVpn s x.vpn = some n → (getFrame s n).rstate ≠ 2 ∧ (getFrame s n).rstate ≠ 3) →
      Does (.dmDescriptorResume p tid) s (fun t => (getDm t p).descs.find? (fun y => y.tid == tid.toNat) = some { d with stall := none, since := s.gsc }
        ∧ (getDm t p).out = (getDm s p).out ∧ TilesBut [p.val] s t ∧ Only [.tiles] s t))
    ∧ (∀ n, frameOfVpn s x.vpn = some n → (getFrame s n).rstate = 2 ∨ (getFrame s n).rstate = 3 → exec (.dmDescriptorResume p tid) s = .next s))
  ∧ (∀ (p : Fin 72) (tid : BitVec 8) dt s d x, let e := Eng.tile p .dm
    let u := advance s dt
    Canon s → (getDm s p).descs.find? (fun y => y.tid == tid.toNat) = some d → d.stall = some x →
    (stallElapsed u e x < waitLimit u e → exec (.dmStallTimeout p tid dt) s = .next u)
    ∧ (waitLimit u e ≤ stallElapsed u e x → (getEng s e).st = .running ∨ (getEng s e).st = .waiting →
      Does (.dmStallTimeout p tid dt) s (fun t => FaultsWith u t e 0x0403 d.tag d.pc ∧ (getDm t p).descs = [])))
  ∧ (∀ (p : Fin 72) (tid : BitVec 8) (pseq : BitVec 16) dt s d x, let e := Eng.tile p .dm
    let u := advance s dt
    Canon s → getPiece s p tid.toNat pseq.toNat = some x → x.kind ≠ 7 → x.kind ≠ 9 → x.kind ≠ 2 →
    (getDm s p).descs.find? (fun y => y.tid == tid.toNat) = some d →
    let due := x.since + (if x.pkt.any (fun k => epNode k.dst != nodeId s) then 10000000 else 100000)
    (due ≤ u.gsc → (getEng s e).st = .running ∨ (getEng s e).st = .waiting →
    Does (.dmRequestTimeout p tid pseq dt) s (fun t => FaultsWith u t e 0x0403 d.tag d.pc ∧ (getDm t p).descs = []
      ∧ getF t DM_PROG_NEXT_PIECE p = d.next % 2 ^ 17 ∧ getF t DM_PROG_TAG p = d.tag % 2 ^ 16))
    ∧ (u.gsc < due → x.held = none → exec (.dmRequestTimeout p tid pseq dt) s = .next u))
  ∧ (∀ (p : Fin 72) (tid : BitVec 8) dt s d, let e := Eng.tile p .dm
    let u := advance s dt
    Canon s → (getDm s p).descs.find? (fun y => y.tid == tid.toNat) = some d → d.stall = none → (∀ y ∈ (getDm s p).out, y.held = none) →
    (getEng s e).st = .running ∨ (getEng s e).st = .waiting →
    (10000000 ≤ d.acc + (u.gsc - d.since) →
      Does (.dmDescriptorTimeout p tid dt) s (fun t => FaultsWith u t e 0x0403 d.tag d.pc ∧ (getDm t p).descs = []))
    ∧ (d.acc + (u.gsc - d.since) < 10000000 → exec (.dmDescriptorTimeout p tid dt) s = .next u))
  ∧ (∀ (p : Fin 72) (tid : BitVec 8) (pseq : BitVec 16) dt s x k, let u := advance s dt
    Canon s → getPiece s p tid.toNat pseq.toNat = some x → x.pkt = some k →
    let sent := fun t => (∃ k', t.router.inject = s.router.inject ++ [k'] ∧ k'.typ = k.typ ∧ k'.dst = k.dst ∧ k'.addr = k.addr
        ∧ k'.payload = k.payload ∧ k'.pseq = k.pseq ∧ k'.gen = BitVec.ofNat 8 (jobGen s))
      ∧ (∃ y, getPiece t p tid.toNat pseq.toNat = some y ∧ y.kind = (if k.typ = 1 ∨ k.typ = 2 then 1 else 4) ∧ y.since = u.gsc)
      ∧ TilesBut [p.val] s t
    (x.kind = 9 → x.since + 2000 ≤ u.gsc → Does (.dmXferBusyRetry p tid pseq dt) s (fun t => sent t ∧ Counts RT_XFER_BUSY 0 s { t with
      gsc := s.gsc, tiles := s.tiles, router := s.router }))
    ∧ (x.kind = 9 → u.gsc < x.since + 2000 → exec (.dmXferBusyRetry p tid pseq dt) s = .next u)
    ∧ (x.kind = 7 → lendState s ≠ 3 → (getEng s (.tile p .dm)).st = .running ∨ (getEng s (.tile p .dm)).st = .waiting →
      x.since + 1000000 ≤ u.gsc → Does (.dmRecallHeldResend p tid pseq dt) s (fun t => sent t ∧ Only [.gsc, .tiles, .router] s t))
    ∧ (x.kind = 7 → lendState s = 3 ∨ u.gsc < x.since + 1000000 → exec (.dmRecallHeldResend p tid pseq dt) s = .next u))
  ∧ (∀ (p : Fin 72) k s, Canon s → Does (.dmReadAhead p k) s (fun t => t.mem = s.mem ∧ t.poison = s.poison ∧ t.router = s.router
      ∧ (∀ x, (getTile t x).pend = (getTile s x).pend) ∧ (∀ x, (getDm t x).descs = (getDm s x).descs) ∧ ∀ e, (getEng t e).st = (getEng s e).st))
  ∧ (∀ (p : Fin 72) bank line s (err : LineErr), let a := err.addr.toNat / 16 * 16
    Canon s → (flagF s TL_SWEEP_EN p = false ∨ isolated s p.val = true → exec (.tileSweepRead p bank line [err]) s = .next s)
    ∧ (flagF s TL_SWEEP_EN p = true → isolated s p.val = false → err.addr.toNat / 64 = tsAddr p (tsOfBank bank line) / 64 →
      (isLost (readLine s err).1 = true → Does (.tileSweepRead p bank line [err]) s (fun t => isBad t a = true
        ∧ getF t TL_ECC_UNCORRECTED p = min (getF s TL_ECC_UNCORRECTED p + 1) 65535
        ∧ ∀ b, b < ashBase → memByte t b = memByte s b))
      ∧ (isCorrected (readLine s err).1 = true → Does (.tileSweepRead p bank line [err]) s (fun t =>
        getF t TL_ECC_CORRECTED p = min (getF s TL_ECC_CORRECTED p + 1) 65535 ∧ readNat t a 16 = (readLine s err).2.1
        ∧ getF t TL_ECC_UNCORRECTED p = getF s TL_ECC_UNCORRECTED p))))

/-- ROUTER_PACKET_ARRIVAL: a packet whose header is lost, of a reserved type or VC or with an RSV bit is dropped and counted in RT_UNROUTABLE, one of another generation in RT_STALE_DROPS, one that comes by a fenced slot in RT_FENCE_DROPS. For this node it reaches its endpoint and counts at a mesh port, or a NACK answers; a multicast with hops left also leaves a branch in each direction of its axis, or counts in RT_FENCE_DROPS for a slot that is fenced or not ADMITTED. For another node it is held for a hop, or dropped for an entry that reaches nothing or for 200 hops, and a poisoned entry begins the whole-chip reset. ROUTER_PACKET_FORWARD hands it to the candidate flue with the fewest bytes queued, the lowest on a tie; ROUTER_STALL_DROP drops it, there too, after STALL_MS. (R360, R365, R366, R370, R376, R377, R380, R381, R383, R462, R466, R627) -/
def Obligations.RouterForwardsPackets : Prop :=
  (∀ (pkt : Packet) (via : Option (Fin 18)) s lost, let c := Instr.routerPacketArrival pkt ⟨via, lost⟩
    let u := if via.isNone then { s with router := { s.router with inject := s.router.inject.erase pkt } } else s
    let bad := lost = true ∨ badPacket pkt = true
    let stale := isJob pkt = true ∧ pkt.gen.toNat ≠ jobGen s
    let fencedIn := isJob pkt = true ∧ ∃ f : Fin 18, via = some f ∧ fenced s pkt.edn.toNat (flueSlot s f) = true
    let typ := pkt.typ.toNat
    let port := 19 + (Config.meshPort (epLocal pkt.dst)).val
    let ports := [fKey RT_P_PKTS port, fKey RT_P_BYTES port, fKey RT_OLD_SEEN 0]
    let counted := fun (t : State) => getF t RT_P_PKTS port = (getF s RT_P_PKTS port + 1) % 2 ^ 64
      ∧ getF t RT_P_BYTES port = (getF s RT_P_BYTES port + packetSize pkt) % 2 ^ 64
    let reaches := fun (t : State) => t.router = { u.router with arrived := u.router.arrived ++ [pkt] } ∧ counted t
      ∧ RegsBut ports s t ∧ Only [.regs, .router] u t
    let entry := catEntry s pkt.edn.toNat (epNode pkt.dst)
    let word := isBad s (catAddr pkt.edn.toNat (epNode pkt.dst)) = true
    let live := getF s RT_STATUS_CAT_LIVE 0 = 1
    let drops := fun f (t : State) => getF t f 0 = satAdd 32 (getF s f 0) 1 ∧ RegsBut [fKey f 0, fKey RT_OLD_SEEN 0] u t ∧ Only [.regs] u t
    let waits := fun (t : State) => t.router = { u.router with held := u.router.held ++ [⟨pkt, s.gsc, via.map (·.val), none⟩] }
      ∧ (0 < oldCount t → getF t RT_OLD_SEEN 0 = 1) ∧ RegsBut [fKey RT_OLD_SEEN 0] u t ∧ Only [.regs, .router] u t
    let passes := ¬bad ∧ ¬stale ∧ ¬fencedIn
    Canon s → (bad → Does c s (Counts RT_UNROUTABLE 0 u))
    ∧ (¬bad → stale → Does c s (Counts RT_STALE_DROPS 0 u))
    ∧ (¬bad → ¬stale → fencedIn → Does c s (Counts RT_FENCE_DROPS 0 u))
    ∧ (passes → epNode pkt.dst = nodeId s → pkt.mc = false →
      (7 ≤ typ → typ ≤ 10 → Does c s reaches)
      ∧ ((typ < 7 ∨ typ = 11) → takes (epLocal pkt.dst) typ = true → typ ≠ 6 → Does c s reaches)
      ∧ (typ = 6 → takes (epLocal pkt.dst) typ = true → Does c s (fun t => Replies u t pkt 7 [] [.regs] ∧ counted t))
      ∧ ((typ < 7 ∨ typ = 11) → takes (epLocal pkt.dst) typ = false → Does c s (fun t => Replies u t pkt 9 (nackBytes 0x0101) [.regs] ∧ counted t)))
    ∧ (passes → epNode pkt.dst = nodeId s → pkt.mc = true → takes (epLocal pkt.dst) typ = true → via.isSome = true →
      let sl := 2 * pkt.maxis.toNat
      let open' := fun x => admitted s x = true ∧ fenced s pkt.edn.toNat x = false
      let branch := fun (x : Nat) (a b : BitVec 6) => (⟨{ pkt with spanp := a, spann := b, dst := epId (getSlot s x).2.2 (epLocal pkt.dst) },
        s.gsc, via.map (·.val), some x⟩ : RtPkt)
      (∀ f < 18, flueSlot s f / 2 = pkt.maxis.toNat → bypassSlot s f = false) →
      (((pkt.spanp ≠ 0 → open' sl) → (pkt.spann ≠ 0 → open' (sl + 1)) → Does c s (fun t => t.router = { u.router with
          held := u.router.held ++ (if pkt.spanp = 0 then [] else [branch sl (pkt.spanp - 1) 0])
            ++ (if pkt.spann = 0 then [] else [branch (sl + 1) 0 (pkt.spann - 1)]),
          arrived := u.router.arrived ++ [pkt] } ∧ counted t ∧ RegsBut ports s t ∧ Only [.regs, .router] u t))
        ∧ (pkt.spanp ≠ 0 → pkt.spann = 0 → ¬open' sl → Does c s (fun t => t.router = { u.router with arrived := u.router.arrived ++ [pkt] }
          ∧ getF t RT_FENCE_DROPS 0 = satAdd 32 (getF s RT_FENCE_DROPS 0) 1))))
    ∧ (passes → epNode pkt.dst ≠ nodeId s →
      (¬live → Does c s waits)
      ∧ (live → word → Does c s (fun t => isolated t 103 = true))
      ∧ (live → ¬word → (unreachable entry = true → Does c s (drops RT_UNROUTABLE))
        ∧ (unreachable entry = false → 200 ≤ pkt.hops.toNat → Does c s (drops RT_HOP_DROPS))
        ∧ (unreachable entry = false → pkt.hops.toNat < 200 → Does c s waits))))
  ∧ (∀ k s (h : RtPkt), s.router.held[k]? = some h → let p := h.pkt
    let c := Instr.routerPacketForward k
    let u := { s with router := { s.router with held := s.router.held.eraseIdx k } }
    let entry := catEntry s p.edn.toNat (epNode p.dst)
    let cand := fun f => (match h.slot with | some x => flueSlot s f = x | none => (productive entry).contains (flueSlot s f) = true)
      ∧ candidate s p f (flueSlot s f) = true
    let leaves := ((∀ f < 18, ¬cand f) → exec c s = .next s)
      ∧ ∀ f < 18, cand f →
        (∀ g < 18, cand g → queuedBytes s f ≤ queuedBytes s g ∧ (queuedBytes s f = queuedBytes s g → f ≤ g)) →
        Does c s (fun t => getFlue t f = { getFlue s f with txq := (getFlue s f).txq ++ [{ h with via := none }] }
          ∧ FluesBut f s t ∧ t.router = u.router ∧ RegsBut [fKey RT_OLD_SEEN 0] s t ∧ Only [.regs, .flues, .router] s t)
    let old := isJob p = true ∧ p.gen.toNat ≠ jobGen s
    Canon s → (old → Does c s (Counts RT_STALE_DROPS 0 u))
    ∧ (¬old → h.slot = none → getF s RT_STATUS_CAT_LIVE 0 = 0 → exec c s = .next s)
    ∧ (¬old → h.slot = none → getF s RT_STATUS_CAT_LIVE 0 = 1 → (unreachable entry = true → Does c s (Counts RT_UNROUTABLE 0 u))
      ∧ (unreachable entry = false → 200 ≤ p.hops.toNat → Does c s (Counts RT_HOP_DROPS 0 u))
      ∧ (unreachable entry = false → p.hops.toNat < 200 → leaves))
    ∧ (∀ x, ¬old → h.slot = some x → (admitted s x = false ∨ fenced s p.edn.toNat x = true → Does c s (Counts RT_FENCE_DROPS 0 u))
      ∧ (admitted s x = true → fenced s p.edn.toNat x = false → (200 ≤ p.hops.toNat → Does c s (Counts RT_HOP_DROPS 0 u))
        ∧ (p.hops.toNat < 200 → leaves))))
  ∧ (∀ k dt s (h : RtPkt), let v := advance s dt
    let due := h.since + (if getF s RT_CFG_STALL_MS 0 = 0 then 5 else getF s RT_CFG_STALL_MS 0) * 1000000
    Canon s → (s.router.held[k]? = some h → (due ≤ v.gsc → Does (.routerStallDrop k dt) s
        (Counts RT_STALL_DROPS 0 { v with router := { s.router with held := s.router.held.eraseIdx k } }))
      ∧ (v.gsc < due → exec (.routerStallDrop k dt) s = .next v))
    ∧ (∀ f i, s.router.held.length ≤ k → (queuedPkts s)[k - s.router.held.length]? = some (f, i, h) →
      (due ≤ v.gsc → Does (.routerStallDrop k dt) s (fun t => getFlue t f = { getFlue s f with txq := (getFlue s f).txq.eraseIdx i }
        ∧ FluesBut f s t ∧ getF t RT_STALL_DROPS 0 = satAdd 32 (getF s RT_STALL_DROPS 0) 1 ∧ RegsBut [fKey RT_STALL_DROPS 0] s t
        ∧ Only [.regs, .flues] v t))
      ∧ (v.gsc < due → exec (.routerStallDrop k dt) s = .next v)))

/-- At a tile's station a WRITE stores its payload and is acknowledged, with RSIG it also counts in the transfer table, which raises RCTR with the last packet and answers NACK XFER_BUSY to a new transfer while 1,024 are held; a READ_REQ is answered with the bytes; a SIGNAL puts its increment on the way to the counter; bytes past the store answer DM_ADDR_RANGE, an absent tile ABSENT_UNIT, one in reset DOMAIN_RESET, and a draining or migrating one lets them wait. At endpoint 0x48 a request that passes the folio checks stores, reads, or adds to its 32-byte element, one that stalls is held (refused while RECALLING), one that fails is refused with the code, a write of another generation of the controllers is discarded; a MIRROR line of the partner is stored. A request of another job generation is dropped and counted. (R151, R242, R289, R291, R292, R308, R310, R323, R374, R375, R493, R627) -/
def Obligations.EndpointRequests : Prop :=
  (∀ (q : Packet) s p, Canon s → AtStation s q p → let u := takeArrived s q
    let a := q.addr.toNat
    let mem := fun (t : State) => (∀ i < q.payload.length, memByte t (tsAddr p (a + i)) = ((q.payload[i]?).getD ⟨0, false⟩).b)
      ∧ BytesBut [(tsAddr p a, q.payload.length)] s t
    let old := (getTile s p).xfer
    let x0 := (old.find? (fun x => xferKey x q)).getD ⟨q.src.toNat, q.tid.toNat % 256, q.gen.toNat, 0, none, s.gsc⟩
    let x : XferEntry := { x0 with landed := x0.landed + 1, since := s.gsc, total := if q.last then some (q.pseq.toNat + 1) else x0.total }
    let rest := old.filter (fun y => !xferKey y q)
    let full := old.any (fun x => xferKey x q) = false ∧ 1024 ≤ old.length
    (q.typ = 0 → q.rsig = false → pastStore q = false → Does (.write q) s (fun t => mem t ∧ Replies u t q 7 [] [.tiles, .mem, .poison, .digest]))
    ∧ (q.typ = 0 → q.rsig = true → pastStore q = false → (full → Does (.write q) s (fun t => Replies u t q 9 (nackBytes 0x0405) []))
      ∧ (¬full → Does (.write q) s (fun t => mem t ∧ Replies u t q 7 [] [.tiles, .mem, .poison, .digest]
        ∧ (x.total ≠ some x.landed → (getTile t p).xfer = rest ++ [x] ∧ (getTile t p).pend = (getTile s p).pend)
        ∧ (x.total = some x.landed → (getTile t p).xfer = rest ∧ (getTile t p).pend = (getTile s p).pend ++ [⟨q.rctr.toNat, 1, .unit 0⟩]))))
    ∧ (q.typ = 1 → pastStore q = false → Does (.readReq q) s (fun t => Replies u t q 8 (readBytes s (tsAddr p a) q.len.toNat) []))
    ∧ (pastStore q = true → (q.typ = 0 → Does (.write q) s (fun t => Replies u t q 9 (nackBytes 0x0C02) []))
      ∧ (q.typ = 1 → Does (.readReq q) s (fun t => Replies u t q 9 (nackBytes 0x0C02) [])))
    ∧ (q.typ = 4 → Does (.signal q) s (fun t => (getTile t p).pend = (getTile s p).pend ++ [⟨q.rctr.toNat, q.addr.toNat % 2 ^ 24, .signal q⟩]
      ∧ TilesBut [p] s t ∧ Only [.tiles] u t)))
  ∧ (∀ (q : Packet) s c, Canon s → epNode q.dst = nodeId s → q.gen.toNat = jobGen s → epLocal q.dst < 0x40 →
    (c, q.typ.toNat) ∈ [(Instr.write q, 0), (.readReq q, 1), (.signal q, 4)] → let u := takeArrived s q
    (physOf s (epLocal q.dst) = none → Does c s (fun t => Replies u t q 9 (nackBytes 0x0101) []))
    ∧ ∀ p, physOf s (epLocal q.dst) = some p → (isolated s p = true → Does c s (fun t => Replies u t q 9 (nackBytes 0x0402) []))
      ∧ (isolated s p = false → draining s p = true → exec c s = .next (waitArrived u q))
      ∧ (isolated s p = false → draining s p = false → migrating s p = true → Does c s (fun t =>
        (getTile t p).held = (getTile s p).held ++ [q] ∧ TilesBut [p] s t ∧ Only [.tiles] u t)))
  ∧ (∀ (q : Packet) s c, Canon s → epNode q.dst = nodeId s → q.gen.toNat ≠ jobGen s →
    (c, q.typ.toNat) ∈ [(Instr.write q, 0), (.readReq q, 1), (.narrow q, 2), (.atomic q, 3), (.signal q, 4)] →
    Does c s (Counts RT_STALE_DROPS 0 (takeArrived s q)))
  ∧ (∀ (q : Packet) s c n wr, Canon s → epNode q.dst = nodeId s → epLocal q.dst = 0x48 → q.gen.toNat = jobGen s →
    (c, q.typ.toNat, n, wr) ∈ [(Instr.write q, 0, q.payload.length, true), (.readReq q, 1, q.len.toNat, false), (.narrow q, 2, 32, false),
      (.atomic q, 3, 32, true)] →
    let u := takeArrived s q
    let a := if q.typ.toNat ≤ 1 then q.addr.toNat else q.addr.toNat / 32 * 32
    let v := (jobCheck u none a n wr).1
    let acked := fun (t : State) => ∃ k, t.router.inject.getLast? = some k ∧ k.typ = 7 ∧ k.dst = q.src ∧ k.tid = q.tid ∧ k.pseq = q.pseq
    (∀ x, (jobCheck u none a n wr).2 = .fault x → Does c s (fun t => Replies v t q 9 (nackBytes x) []))
    ∧ (∀ x y, (jobCheck u none a n wr).2 = .stall x y →
      (lendState v = 3 → Does c s (fun t => Replies v t q 9 (nackBytes 0x0702) []))
      ∧ (lendState v ≠ 3 → Does c s (fun t => t.folio.held = v.folio.held ++ [⟨q, s.gsc⟩] ∧ Only [.folio] v t)))
    ∧ (∀ segs, (jobCheck u none a n wr).2 = .ok segs → (memReset v segs = true → Does c s (fun t => Replies v t q 9 (nackBytes 0x0402) []))
      ∧ (memReset v segs = false → (slicesWait v segs = true ∨ (wr = true ∧ mirrorFull v segs = true)) → exec c s = .next (waitArrived v q)))
    ∧ (∀ d, (jobCheck u none a n wr).2 = .ok [(d, n)] → memReset v [(d, n)] = false → slicesWait v [(d, n)] = false →
      (wr = true → mirrorFull v [(d, n)] = false) → let r := (getFrame v (d / 2 ^ 21)).rstate
      let now := q.gen.toNat = getF v MC_JOB_GEN_GEN 0
      (wr = true → ¬now → Does c s (fun t => Replies v t q 7 [] [.regs]))
      ∧ (q.typ.toNat = 0 → now → Does c s (fun t => (∀ i < n, memByte t (d + i) = ((q.payload[i]?).getD ⟨0, false⟩).b)
        ∧ (r ≠ 4 → BytesBut [(d, n)] s t) ∧ acked t ∧ Only [.mem, .poison, .router, .folio, .lineQ] v t))
      ∧ (q.typ.toNat = 1 → Does c s (fun t => Replies v t q 8 (readBytes v d n) [.lineQ]))
      ∧ (q.typ.toNat = 2 → Does c s (fun t => Replies v t q 8 (readBytes v d 32) [.regs, .hbmStacks]))
      ∧ (q.typ.toNat = 3 → now → (readBytes v d 32).any (·.bad) = false → q.payload.any (·.bad) = false → d % 32 = 0 → r ≠ 4 →
        Does c s (fun t => (∀ i < 8,
          let x := BitVec.ofNat 32 (readNat s (d + 4 * i) 4)
          let y := BitVec.ofNat 32 (ofBytes (((q.payload.drop (4 * i)).take 4).map (·.b)))
          readNat t (d + 4 * i) 4 = (if q.rctr.getLsbD 2 then x + y else fadd x y).toNat)
        ∧ BytesBut [(d, 32)] s t ∧ acked t))))
  ∧ (∀ (q : Packet) s, Canon s → epNode q.dst = nodeId s → epLocal q.dst = 0x48 → q.typ = 5 → let u := takeArrived s q
    let a := q.addr.toNat
    let sp := [(a, q.payload.length)]
    (memReset s sp = true → Does (.mirror q) s (fun t => Replies u t q 9 (nackBytes 0x0402) []))
    ∧ (memReset s sp = false → slicesWait s sp = true → exec (.mirror q) s = .next (waitArrived u q))
    ∧ (memReset s sp = false → slicesWait s sp = false →
      (dupOk s q = true ∨ pushOk s q = true → (a < hbmTop → Does (.mirror q) s (fun t =>
        (∀ i < q.payload.length, memByte t (a + i) = ((q.payload[i]?).getD ⟨0, false⟩).b) ∧ BytesBut sp s t
        ∧ Replies u t q 7 [] [.mem, .poison, .lineQ]))
        ∧ (hbmTop ≤ a → Does (.mirror q) s (fun t => Replies u t q 7 [] [.regs])))
      ∧ (dupOk s q = false → pushOk s q = false → Does (.mirror q) s (fun t => Replies u t q 9 (nackBytes 0x0306) []))))

/-- A reply that returns to a tile with the tile's generation acts on the mover's piece that it names: an ACK completes it, DATA moves it on to its destination, NACK XFER_BUSY and RECALL_HELD let it wait for their repeats, another NACK faults its engine with the code, HOLD restarts its timer. An ACK or NACK of an sy.sig completes or faults it. A reply of another generation of the tile is dropped and counted in MG_DSTALE. XFER_ENTRY_EXPIRE removes an entry idle for 10 ms. (R140, R149, R249, R310, R311, R359, R375, R439, R521) -/
def Obligations.RepliesAtTiles : Prop :=
  (∀ (q : Packet) s (p : Fin 72) c, Canon s → epNode q.dst = nodeId s → epLocal q.dst < 0x40 → physOf s (epLocal q.dst) = some p.val →
    (c, q.typ.toNat) ∈ [(Instr.ack q, 7), (.data q, 8), (.nack q, 9), (.hold q, 10)] →
    (isJob q = false ∨ q.gen.toNat = jobGen s) → let u := takeArrived s q
    let n := q.tid.toNat % 256
    let code := ofBytes ((q.payload.take 2).map (·.b))
    (q.tid.toNat / 256 ≠ (getDom s p).gen → Does c s (fun t => getFi t MG_DSTALE 0 p = satAdd 32 (getFi s MG_DSTALE 0 p) 1
      ∧ RegsBut [fldKey 1 MG_DSTALE 0 p] s t ∧ Only [.regs] u t))
    ∧ (q.tid.toNat / 256 = (getDom s p).gen → n < 128 → ∀ x d, getPiece s p n q.pseq.toNat = some x →
      (getDm s p).descs.find? (fun y => y.tid == n) = some d →
      (c = .ack q → x.kind = 4 → Does c s (fun t => PieceDone s t p x d ∧ t.mem = s.mem))
      ∧ (c = .data q → x.kind = 1 → x.sp = 0 → Does c s (fun t =>
        getPiece t p n q.pseq.toNat = some { x with kind := 2, data := q.payload, since := s.gsc, held := none }
        ∧ TilesBut [p.val] s t ∧ Only [.tiles] u t))
      ∧ (c = .nack q → x.kind = 1 ∨ x.kind = 4 →
        (code = 0x0405 → Does c s (fun t => getPiece t p n q.pseq.toNat = some { x with kind := 9, since := s.gsc } ∧ Only [.tiles] u t))
        ∧ (code = 0x0702 → Does c s (fun t => getPiece t p n q.pseq.toNat = some { x with kind := 7, since := s.gsc } ∧ Only [.tiles] u t))
        ∧ (code ≠ 0x0405 → code ≠ 0x0702 → (getEng s (.tile p .dm)).st = .running ∨ (getEng s (.tile p .dm)).st = .waiting →
          Does c s (fun t => FaultsWith s t (.tile p .dm) code d.tag d.pc ∧ (getDm t p).descs = [])))
      ∧ (c = .hold q → Does c s (fun t =>
        getPiece t p n q.pseq.toNat = some { x with since := s.gsc, held := some (x.held.getD s.gsc) } ∧ Only [.tiles] u t)))
    ∧ (q.tid.toNat / 256 = (getDom s p).gen → n < 128 → getPiece s p n q.pseq.toNat = none → exec c s = .next u)
    ∧ (q.tid.toNat / 256 = (getDom s p).gen → 128 ≤ n → ∀ e x, sigEngine s p n = some e → (getEng s e).sigs.find? (fun y => y.num == n) = some x →
      (c = .ack q → isolated s p = false → Does c s (fun t => Notifies s t e x.sctr x.tag x.pc ∧ EngsBut [e] s t
        ∧ (getEng t e).sigs = (getEng s e).sigs.filter (fun y => y.num != n)))
      ∧ (c = .nack q → (getEng s e).st = .running ∨ (getEng s e).st = .waiting → Does c s (fun t => FaultsWith s t e code x.tag x.pc))))
  ∧ (∀ (p : Fin 72) k dt s x, Canon s → (getTile s p).xfer[k]? = some x → let v := advance s dt
    (x.since + 10000000 ≤ v.gsc → Does (.xferEntryExpire p k dt) s (fun t => (getTile t p).xfer = (getTile s p).xfer.eraseIdx k
      ∧ getF t RT_XFER_EXPIRED 0 = satAdd 32 (getF s RT_XFER_EXPIRED 0) 1 ∧ TilesBut [p.val] s t ∧ Only [.regs, .tiles] v t))
    ∧ (v.gsc < x.since + 10000000 → exec (.xferEntryExpire p k dt) s = .next v))

/-- RT_EDITION_ARM arms the switch when EDITION_AT lies ahead, the catalogue is live and the other edition is whole, and is refused with CAT_REJ otherwise; EDITION_SWITCH at that count makes the other edition the one injected, before it does nothing. While armed EDITION_AT is refused; RT_EDN_CFG of an edition in use is refused. RT_NODE is written while IDLE only. CATALOGUE_LIVE follows both editions' writing at K4. (R378, R379, R466, R505) -/
def Obligations.CatalogueEditions : Prop :=
  ∀ s, Canon s → pageUp s 9 0 = true → let inj := getF s RT_EDITION_INJECT 0
    let refused := fun (t : State) => getF t RT_STATUS_CAT_REJ 0 = 1 ∧ RegsBut [fKey RT_STATUS_CAT_REJ 0] s t ∧ Only [.regs] s t
    let bad := getF s RT_EDITION_ARMED 0 = 1 ∨ getF s RT_EDITION_AT 0 ≤ s.gsc ∨ getF s RT_STATUS_CAT_LIVE 0 = 0 ∨ catalogueBad s (1 - inj) = true
    let locked := fun e => getF s RT_STATUS_CAT_LIVE 0 = 1 ∧ (inj = e ∨ getF s RT_EDITION_ARMED 0 = 1)
    (bad → Does .rtEditionArm s refused)
    ∧ (¬bad → Does .rtEditionArm s (fun t => getF t RT_EDITION_ARMED 0 = 1 ∧ getF t RT_EDITION_INJECT 0 = inj
      ∧ RegsBut [fKey RT_EDITION_ARMED 0] s t ∧ Only [.regs] s t))
    ∧ (∀ dt plan, let v := advance s dt
      (getF s RT_EDITION_ARMED 0 = 1 → getF s RT_EDITION_AT 0 ≤ v.gsc → Does (.editionSwitch ⟨plan, dt⟩) s (fun t =>
        getF t RT_EDITION_INJECT 0 = 1 - inj ∧ getF t RT_EDITION_ARMED 0 = 0))
      ∧ (getF s RT_EDITION_ARMED 0 = 0 ∨ v.gsc < getF s RT_EDITION_AT 0 → exec (.editionSwitch ⟨plan, dt⟩) s = .next v))
    ∧ (∀ v : DWord, (getF s RT_EDITION_ARMED 0 = 1 → Does (.rtEditionAtWrite v) s refused)
      ∧ (getF s RT_EDITION_ARMED 0 = 0 → Does (.rtEditionAtWrite v) s (fun t => getF t RT_EDITION_AT 0 = v.toNat
        ∧ RegsBut [fKey RT_EDITION_AT 0] s t ∧ Only [.regs] s t)))
    ∧ (∀ (e : Fin 2) (v : Word), (locked e.val → Does (.rtEdnCfgWrite e v) s refused)
      ∧ (¬locked e.val → Does (.rtEdnCfgWrite e v) s (fun t => getFi t RT_EDN_CFG_DATELINE 0 e = bits v.toNat 0 8
        ∧ getFi t RT_EDN_CFG_FENCE 0 e = bits v.toNat 8 8 ∧ RegsBut [fldKey 9 RT_EDN_CFG_FENCE 0 e] s t ∧ Only [.regs] s t)))
    ∧ (∀ v : Word, (getF s MG_LEND_STATUS_STATE 0 = 0 → Does (.rtNodeWrite v) s (fun t => nodeId t = bits v.toNat 0 16
        ∧ RegsBut [fKey RT_NODE_NODE 0] s t ∧ Only [.regs] s t))
      ∧ (getF s MG_LEND_STATUS_STATE 0 ≠ 0 → Does (.rtNodeWrite v) s refused))
    ∧ (s.router.written.contains 0 = true → s.router.written.contains 1 = true → 4 ≤ getF s MG_KIND_STATUS_STAGE 0 →
      getF s RT_STATUS_CAT_LIVE 0 = 0 → Does .catalogueLive s (fun t => getF t RT_STATUS_CAT_LIVE 0 = 1 ∧ t.mem = s.mem ∧ t.pending = s.pending))
    ∧ (s.router.written.contains 0 = false ∨ s.router.written.contains 1 = false ∨ getF s MG_KIND_STATUS_STAGE 0 < 4
      ∨ getF s RT_STATUS_CAT_LIVE 0 = 1 → exec .catalogueLive s = .next s)

/-- FLUE_FRAME_TRANSMIT sends the next frame to replay, else the discovery frame, else a data frame with the packets that may start, each taking its hop's dateline bits, VC and HOPS, else an idle frame; every header carries the acknowledgement, NAK, DAMPER, GSC count, generation, the rotation announced and the CRC; with 256 frames held it sends idle frames and counts them. FLUE_FRAME_RECEIVED rejects a frame for its CRC, an uncorrectable codeword, its FSEQ or its generation, counting it and setting NAK once; a good frame's packets pass to the router where the flue carries packets, one that overruns a VC buffer is rejected and counted; an ACK frees what it covers, a NAK starts a replay, REPLAY_MAX replays take the flue down, and a rotation announced is followed. (R331, R333, R334, R335, R336, R337, R338, R342, R348, R351, R367, R383) -/
def Obligations.FlueFrames : Prop :=
  (∀ (f : Fin 18) s, let x := getFlue s f
    let c := Instr.flueFrameTransmit f
    Canon s → s.eb.colo.find? (fun y => y.1 == some f.val) = none → (x.step < 3 ∨ flagF s FL_CFG_EN f = false → exec c s = .next s)
    ∧ (3 ≤ x.step → flagF s FL_CFG_EN f = true →
    let headed := fun (t : State) (fr : FlFrame) => (getFlue t f).line = some fr ∧ fr.ack = BitVec.ofNat 12 (x.rseq + 4095) ∧ fr.nak = x.sendNak
      ∧ fr.damper = BitVec.ofNat 6 (damperBits s f) ∧ fr.half = x.half ∧ fr.ts = true ∧ fr.tstamp = BitVec.ofNat 64 s.gsc
      ∧ fr.gen = BitVec.ofNat 8 (flueGen s f) ∧ fr.crc = flCrc fr ∧ (x.rot = none → fr.rot = false)
      ∧ (∀ r, x.rot = some r → r.phase = 0 → r.txDone = false → fr.rot = true ∧ fr.rotAt = BitVec.ofNat 12 r.tx
        ∧ fr.rotOld = BitVec.ofNat 4 r.lane ∧ fr.rotNew = BitVec.ofNat 4 r.new)
      ∧ (getFlue t f).sendNak = false ∧ FluesBut f s t ∧ Only [.regs, .flues, .clock] s t
    let replays := fun t => getF t FL_REPLAYS f = (getF s FL_REPLAYS f + 1) % 2 ^ 64
    let hop := onHop s (flueSlot s f)
    let idle := Does c s (fun t => (∃ fr, headed t fr ∧ fr.fseq = BitVec.ofNat 12 x.fseq ∧ fr.typ = 1 ∧ fr.body = []) ∧ (getFlue t f).txq = x.txq
      ∧ (getFlue t f).fseq = x.fseq ∧ (getFlue t f).sent = x.sent)
    (∀ r rest, x.replay = r :: rest → Does c s (fun t => (∃ fr, headed t fr ∧ fr.fseq = r.fseq ∧ fr.typ = r.typ
      ∧ fr.body = r.body) ∧ (getFlue t f).replay = rest ∧ (getFlue t f).txq = x.txq ∧ replays t))
    ∧ (x.replay = [] → x.disc = false → Does c s (fun t => (∃ fr, headed t fr ∧ fr.typ = 2
      ∧ (fr.body.take 8).map (·.b) = bytesOf 8 (getF s MG_DEVICE_ID_ID 0)) ∧ (getFlue t f).disc = true ∧ (getFlue t f).fseq = x.fseq
      ∧ (getFlue t f).txq = x.txq))
    ∧ (∀ h, let k := hop h.pkt
      x.replay = [] → x.disc = true → 4 ≤ x.step → carries s f = true → x.cur = none → x.msgs = [] → x.txq = [h] →
      bit x.damper k.vc.toNat = false → packetSize h.pkt ≤ 992 →
      (x.sent.length < 256 → x.sent.any (fun y => y.1.fseq == BitVec.ofNat 12 x.fseq) = false → Does c s (fun t =>
        (∃ fr, headed t fr ∧ fr.fseq = BitVec.ofNat 12 x.fseq ∧ fr.typ = 0 ∧ fr.body = packetBytes k ∧ (getFlue t f).sent = x.sent ++ [(fr, 0)])
        ∧ (let a := flueSlot s f / 2
          k.dl = (if dateline s h.pkt.edn.toNat (flueSlot s f) then h.pkt.dl ||| (1#4 <<< a) else h.pkt.dl)
          ∧ k.vc = BitVec.ofNat 3 (h.pkt.vc.toNat / 2 * 2 + b2n (k.dl.getLsbD a)) ∧ k.hops = h.pkt.hops + 1)
        ∧ (getFlue t f).txq = [] ∧ (getFlue t f).fseq = (x.fseq + 1) % 4096 ∧ (getFlue t f).unacked = x.unacked ++ [(k, x.fseq)]
        ∧ getF t RT_P_PKTS (1 + f.val) = (getF s RT_P_PKTS (1 + f.val) + 1) % 2 ^ 64
        ∧ getF t RT_P_BYTES (1 + f.val) = (getF s RT_P_BYTES (1 + f.val) + packetSize h.pkt) % 2 ^ 64))
      ∧ (256 ≤ x.sent.length → Does c s (fun t =>
        (∃ fr, headed t fr ∧ fr.typ = 1 ∧ fr.body = []) ∧ (getFlue t f).txq = [h] ∧ replays t)))
    ∧ (x.replay = [] → x.disc = true → x.cur = none → x.msgs = [] →
      (x.step = 3 ∨ carries s f = false ∨ ∀ h ∈ x.txq, bit x.damper (hop h.pkt).vc.toNat = true) → idle)))
  ∧ (∀ (f : Fin 18) fr ucw n s, let x := getFlue s f
    let c := Instr.flueFrameReceived f fr ucw n
    Canon s → (x.step < 3 ∨ flagF s FL_CFG_EN f = false → exec c s = .next s)
    ∧ (3 ≤ x.step → flagF s FL_CFG_EN f = true →
    let rejects := fun (t : State) => getF t FL_ERR_CRC_ERRORS f = min (getF s FL_ERR_CRC_ERRORS f + 1) 65535 ∧ t.router = s.router
      ∧ getFlue t f = { x with sendNak := x.sendNak || !x.naked, naked := true } ∧ FluesBut f s t ∧ Only [.regs, .flues] s t
    let good := fr.crc = flCrc fr ∧ ucw = false ∧ fr.fseq.toNat = x.rseq ∧ fr.gen.toNat = x.peerGen ∧ fr.body.length ≤ 992
    let kept := x.sent.filter (fun y => !acked fr.ack.toNat y.1.fseq.toNat)
    (¬good → Does c s (fun t => rejects t ∧ getF t FL_ERR_DAMP_OVERRUN f = getF s FL_ERR_DAMP_OVERRUN f))
    ∧ (good → fr.typ ≠ 0 → fr.nak = false → Does c s (fun t => (getFlue t f).rseq = x.rseq ∧ (getFlue t f).naked = false
      ∧ (getFlue t f).damper = fr.damper.toNat ∧ (getFlue t f).sent = kept ∧ t.router = s.router ∧ FluesBut f s t
      ∧ (fr.rot = false → (getFlue t f).rot = x.rot)
      ∧ (fr.rot = true → x.rot = none → spareFree s f = true → getF s FL_LANES_SPARE f = fr.rotNew.toNat → (laneLog s f fr.rotOld.toNat).isSome →
        (getFlue t f).rot = some ⟨0, fr.rotOld.toNat, fr.rotNew.toNat, false, s.gsc, (x.fseq + 64) % 4096, false, some fr.rotAt.toNat, false⟩
        ∧ getF t FL_STATUS_ROTATING f = 1)
      ∧ (∀ r, fr.rot = true → x.rot = some r → r.lane = fr.rotOld.toNat → r.new = fr.rotNew.toNat → r.rx = none →
        (getFlue t f).rot = some { r with rx := some fr.rotAt.toNat })
      ∧ Only [.regs, .flues, .clock] s t))
    ∧ (good → fr.typ ≠ 0 → fr.rot = false → fr.nak = true →
      let max := if getF s FL_RETRY_CFG_REPLAY_MAX f = 0 then 8 else getF s FL_RETRY_CFG_REPLAY_MAX f
      ((∀ y ∈ kept, y.2 < max) → Does c s (fun t => (getFlue t f).replay = kept.map (·.1) ∧ (getFlue t f).sent = kept ∧ t.router = s.router))
      ∧ ((∃ y ∈ kept, max ≤ y.2) → Does c s (fun t => (getDom t (78 + f)).gen = ((getDom s (78 + f)).gen + 1) % 256 ∧ (getFlue t f).step = 0
        ∧ FlueRecords s t 0x0906 f 0xF 2)))
    ∧ (∀ p, good → fr.typ = 0 → fr.rot = false → fr.nak = false → x.rxBytes = [] → fr.body = packetBytes p → p.typ = 0 →
      p.payload.length = p.len.toNat →
      (overruns s f [p] = true → Does c s (fun t => rejects t
        ∧ getF t FL_ERR_DAMP_OVERRUN f = min (getF s FL_ERR_DAMP_OVERRUN f + 1) 65535))
      ∧ (overruns s f [p] = false → carries s f = false → Does c s (fun t => t.router = s.router
          ∧ (getFlue t f).rseq = (x.rseq + 1) % 4096 ∧ (getFlue t f).sent = kept))
      ∧ (overruns s f [p] = false → carries s f = true → badPacket p = false → p.gen.toNat = jobGen s → fenced s p.edn.toNat (flueSlot s f) = false →
        epNode p.dst = nodeId s → epLocal p.dst = 0x48 → Does c s (fun t => t.router = { s.router with arrived := s.router.arrived ++ [p] }
          ∧ (getFlue t f).rseq = (x.rseq + 1) % 4096 ∧ (getFlue t f).rxBytes = [] ∧ (getFlue t f).sent = kept
          ∧ getF t FL_RX_BYTES f = (getF s FL_RX_BYTES f + fr.body.length) % 2 ^ 64 ∧ Only [.regs, .flues, .router, .clock] s t)))))

/-- A flue passes the steps of training in order: FLUE_LANE_TRAINED needs four lanes, FLUE_FEC_LOCK agrees the lane map (the spare named when all nine are good, four lanes and a record when fewer than eight are), FLUE_FRAME_LOCK starts at FSEQ 0, FLUE_DISCOVERY notes the peer and marks a wrong slot MISWIRED (a bypass slot may reach any); with the own HELLO and PROOF sent, NEIGHBOUR_HELLO and NEIGHBOUR_PROOF bring it UP and its slot to the state that the plan gives, or hold it with ATTEST_FAIL, as PROOF_TIMEOUT does after 200 ms. FLUE_TRAIN_FAIL holds it at the third failure. FL_RESET, FLUE_FRAME_LOCK_LOST and EN = 0 take it down. (R341, R342, R343, R344, R349, R351, R353, R355, R548) -/
def Obligations.FlueTraining : Prop :=
  ∀ (f : Fin 18) s, let x := getFlue s f
    Canon s → (∀ lanes, (flueState s f = 1 → x.step = 0 → 4 ≤ (goodLanes lanes).length → Does (.flueLaneTrained f lanes) s (fun t =>
        getFlue t f = { x with step := 1 } ∧ getF t FL_STATUS_LANES_GOOD f = (goodLanes lanes).length ∧ FluesBut f s t ∧ Only [.regs, .flues] s t))
      ∧ ((goodLanes lanes).length < 4 → exec (.flueLaneTrained f lanes) s = .next s))
    ∧ (∀ (lanes : BitVec 9) (sp : Fin 9) (g : BitVec 8), x.step = 1 → getF s FL_LANES_FAILED f = 0 →
      let k := (goodLanes lanes).length
      (k = 9 → Does (.flueFecLock f lanes sp g) s (fun t => getFlue t f = { x with step := 2, half := false, peerGen := g.toNat }
        ∧ getF t FL_LANES_SPARE f = sp ∧ getF t FL_LANES_FAILED f = 0 ∧ (∀ n < 8, logLane t f n = if n < sp.val then n else n + 1)
        ∧ FluesBut f s t ∧ Only [.regs, .flues] s t))
      ∧ (4 ≤ k → k < 9 → Does (.flueFecLock f lanes sp g) s (fun t => getFlue t f = { x with step := 2, half := decide (k < 8), peerGen := g.toNat }
        ∧ getF t FL_LANES_SPARE f = 0xF ∧ (∀ l < 9, laneFailed t f l = !lanes.getLsbD l)
        ∧ (∀ l < 9, lanes.getLsbD l = false → (∀ j < l, lanes.getLsbD j = true) → FlueRecords s t (if k < 8 then 0x0905 else 0x0904) f l 1))))
    ∧ (x.step = 2 → exec (.flueFrameLock f) s = .next (setFlue s f { x with step := 3, fseq := 0, rseq := 0 }))
    ∧ (∀ p, x.step = 3 → Does (.flueDiscovery f p) s (fun t => (getFlue t f).step = 4 ∧ (getFlue t f).peer = some p ∧ (getFlue t f).authed = false
      ∧ getF t FL_STATUS_STATE f = 2 ∧ getF t FL_PEER_FLUE f = p.flue.toNat ∧ getF t FL_PEER_ID_DEVICE_ID f = p.device.toNat
      ∧ (p.slot.toNat ≠ flueSlot s f ^^^ 1 → bypassSlot s f = false → getF t FL_PEER_PSTATE f = 6)
      ∧ (p.slot.toNat = flueSlot s f ^^^ 1 → (∀ g ∈ slotFlues s (flueSlot s f), g ≠ f.val → (getFlue s g).peer = none) →
        getF t FL_PEER_PSTATE f ≠ 6)
      ∧ (getFlue t f).ownNonce.isSome = true ∧ x.msgs.length < (getFlue t f).msgs.length ∧ FluesBut f s t))
    ∧ (flueState s f = 1 ∨ flueState s f = 2 → Does (.flueTrainFail f) s (fun t => (getFlue t f).fails = x.fails + 1 ∧ (getFlue t f).step = 0
      ∧ (x.fails + 1 < 3 → getF t FL_STATUS_STATE f = 1)
      ∧ (3 ≤ x.fails + 1 → getF t FL_STATUS_STATE f = 5 ∧ FlueRecords s t 0x0906 f 0xF 5) ∧ FluesBut f s t))
    ∧ (3 ≤ x.step → Does (.flueFrameLockLost f) s (fun t => FlueFalls s t f 0xF 3 (flagF s FL_CFG_EN f)))
    ∧ (pageUp s 10 f = true → Does (.flReset f) s (fun t => FlueFalls s t f 0xF 4 (flagF s FL_CFG_EN f) ∧ (getFlue t f).fails = 0))
    ∧ (pageUp s 10 f = true → (flagF s FL_CFG_EN f = true → Does (.flEnWrite f false) s (fun t => FlueFalls s t f 0xF 4 false ∧ flagF t FL_CFG_EN f = false))
      ∧ (∀ v, flagF s FL_CFG_EN f = v → exec (.flEnWrite f v) s = .next s)
      ∧ (flagF s FL_CFG_EN f = false → Does (.flEnWrite f true) s (fun t => flagF t FL_CFG_EN f = true ∧ getF t FL_STATUS_STATE f = 1
        ∧ getFlue t f = { x with fails := 0 } ∧ Only [.regs, .flues] s t)))
    ∧ (∀ p n ok q, x.step = 4 → x.authFail = false → x.peer = some q →
      (q.device = p.device → Does (.neighbourHello f p n ok) s (fun t =>
        { getFlue t f with msgs := x.msgs } = { x with nonce := some n, chainOk := ok || knownPeer s f p }
        ∧ x.msgs.length < (getFlue t f).msgs.length ∧ FluesBut f s t ∧ Only [.flues] s t))
      ∧ (q.device ≠ p.device → Does (.neighbourHello f p n ok) s (fun t => AttestFails s t f 4)))
    ∧ (∀ ok, x.step = 4 → x.authFail = false → x.nonce.isSome = true →
      (x.chainOk = false → Does (.neighbourProof f ok) s (fun t => AttestFails s t f 1))
      ∧ (x.chainOk = true → ok = false → Does (.neighbourProof f ok) s (fun t => AttestFails s t f 2))
      ∧ (x.chainOk = true → ok = true → getF s FL_CFG_SELFTEST_STATUS f ≠ 2 → Does (.neighbourProof f ok) s (fun t => getFlue t f = { x with authed := true, step := 5, fails := 0 }
        ∧ getF t FL_STATUS_STATE f = (if x.half then 4 else 3) ∧ FluesBut f s t
        ∧ (canCheck s = true → let sl := flueSlot s f
          getSlot t sl = (slotState (getSlot s sl).2.1 (slotDevice t sl), (getSlot s sl).2)))))
    ∧ (∀ dt, let u := advance s dt
      (x.step = 4 → x.authFail = false → x.proofSince + 200000000 ≤ u.gsc → Does (.proofTimeout f dt) s (fun t => AttestFails u t f 3))
      ∧ (u.gsc < x.proofSince + 200000000 → exec (.proofTimeout f dt) s = .next u))

/-- LANE_ROTATION_START, each PERIOD_S while a spare is free, by the end that leads, announces the next lane's swap 64 frames ahead, or only passes the lane by where the spare's codewords differ; LANE_SWAP gives its logical place to the spare as the own direction reaches its frame, and the pair recalibrates once both directions have; LANE_RECAL_COMPLETE makes the recalibrated lane the spare, with its eye margins. FL_SELFTEST does the same for a test, DEFERRED without a spare; FL_SELFTEST_COMPLETE after 20 ms passes the lane or fails it. LANE_FAIL puts the spare in a failed lane's place, narrows the flue when there is none, and takes it down below four lanes, but a count of uncorrectable codewords within LANE_UCW_MAX fails no lane; LANE_REJOIN gives the failed lane's place to the pair that recalibrated and widens the flue. (R347, R348, R349, R350, R351, R355) -/
def Obligations.FlueLanes : Prop :=
  ∀ (f : Fin 18) s, let x := getFlue s f
    let sp := getF s FL_LANES_SPARE f
    Canon s → (∀ dt l, let u := advance s dt
      let per := (if getF s FL_ROT_CFG_PERIOD_S f = 0 then 60 else getF s FL_ROT_CFG_PERIOD_S f) * 1000000000
      nextRotLane s f = some l →
      (flagF s FL_ROT_CFG_EN f = true → spareFree s f = true → leads s f = true → x.lastRot + per ≤ u.gsc →
        Does (.laneRotationStart f ⟨true, dt⟩) s (fun t =>
          getFlue t f = { x with rot := some ⟨0, l, sp, false, u.gsc, (x.fseq + 64) % 4096, false, none, false⟩, lastRot := u.gsc, nextLane := (l + 1) % 9 }
          ∧ getF t FL_STATUS_ROTATING f = 1 ∧ FluesBut f s t ∧ Only [.gsc, .regs, .flues] s t)
        ∧ Does (.laneRotationStart f ⟨false, dt⟩) s (fun t => getFlue t f = { x with lastRot := u.gsc, nextLane := (l + 1) % 9 }
          ∧ FluesBut f s t ∧ Only [.gsc, .flues] s t))
      ∧ (∀ same, flagF s FL_ROT_CFG_EN f = false ∨ spareFree s f = false ∨ leads s f = false ∨ u.gsc < x.lastRot + per →
        exec (.laneRotationStart f ⟨same, dt⟩) s = .next u))
    ∧ (∀ r, x.rot = some r → r.phase = 0 → r.lane < 9 → r.new < 9 → r.lane ≠ r.new →
      let tx := r.txDone = false ∧ reached x.fseq r.tx = true
      let rx := r.rxDone = true ∨ ∃ a, r.rx = some a ∧ reached x.rseq a = true
      let d := (r.txDone = true ∨ tx) ∧ rx
      Does (.laneSwap f) s (fun t => (¬tx → ∀ m < 8, logLane t f m = logLane s f m)
        ∧ (tx → getF t FL_LANES_SPARE f = 0xF ∧ getFi t FL_LANE_LSTATE f r.new = 0
          ∧ ∀ n, laneLog s f r.lane = some n → ∀ m < 8, logLane t f m = if m = n then r.new else logLane s f m)
        ∧ (d → getF t FL_LANES_RECAL f = r.lane ∧ getFi t FL_LANE_LSTATE f r.lane = (if r.selftest then 4 else 2)
          ∧ getFlue t f = { x with rot := some { r with phase := 1, since := s.gsc, txDone := true, rxDone := true } })
        ∧ (¬d → getF t FL_LANES_RECAL f = getF s FL_LANES_RECAL f ∧ ∃ a b, (a = true ↔ r.txDone = true ∨ tx) ∧ (b = true ↔ rx)
          ∧ getFlue t f = { x with rot := some { r with txDone := a, rxDone := b } })
        ∧ FluesBut f s t ∧ Only [.regs, .flues] s t))
    ∧ (∀ r (v h : BitVec 8), x.rot = some r → r.phase = 1 → r.lane < 9 →
      let spared := fun (t : State) => getF t FL_LANES_SPARE f = r.lane ∧ getF t FL_LANES_RECAL f = 0xF ∧ getF t FL_STATUS_ROTATING f = 0
        ∧ getFi t FL_LANE_LSTATE f r.lane = 1 ∧ getFi t FL_LANE_EYE_V f r.lane = v.toNat ∧ getFi t FL_LANE_EYE_H f r.lane = h.toNat
        ∧ getFlue t f = { x with rot := none } ∧ FluesBut f s t ∧ Only [.gsc, .regs, .flues, .wear] s t
      (r.selftest = false → getF s FL_CFG_SELFTEST_STATUS f ≠ 2 → Does (.laneRecalComplete f v h) s spared)
      ∧ (∀ dt, r.selftest = true → r.since + 20000000 ≤ (advance s dt).gsc →
        Does (.flSelftestComplete f true v h dt) s (fun t => spared t ∧ getF t FL_CFG_SELFTEST_STATUS f = 3)
        ∧ Does (.flSelftestComplete f false v h dt) s (fun t => getF t FL_CFG_SELFTEST_STATUS f = 0 ∧ laneFailed t f r.lane = true
          ∧ getF t FL_LANES_SPARE f = 0xF ∧ (getFlue t f).rot = none))
      ∧ (∀ dt ok, (advance s dt).gsc < r.since + 20000000 → exec (.flSelftestComplete f ok v h dt) s = .next (advance s dt)))
    ∧ (pageUp s 10 f = true → (spareFree s f = false → Does (.flSelftest f) s (fun t => getF t FL_CFG_SELFTEST_STATUS f = 2 ∧ Only [.regs] s t))
      ∧ (∀ l, spareFree s f = true → nextRotLane s f = some l → Does (.flSelftest f) s (fun t => getF t FL_CFG_SELFTEST_STATUS f = 1
        ∧ (getFlue t f).rot = some ⟨0, l, sp, true, s.gsc, (x.fseq + 64) % 4096, false, none, false⟩ ∧ FluesBut f s t)))
    ∧ (∀ (l : Fin 9) ucw, let cause := if ucw.isSome then 2 else 1
      let c := Instr.laneFail f l ucw
      ((∃ n, ucw = some n ∧ n ≤ getF s FL_RETRY_CFG_LANE_UCW_MAX f) → exec c s = .next s)
      ∧ ((∀ n, ucw = some n → getF s FL_RETRY_CFG_LANE_UCW_MAX f < n) → flueUp s f = true → laneFailed s f l = false →
        (getF s FL_STATUS_LANES_GOOD f < 5 → Does c s (fun t =>
          (getDom t (78 + f)).gen = ((getDom s (78 + f)).gen + 1) % 256 ∧ (getFlue t f).step = 0 ∧ FlueRecords s t 0x0906 f l 1))
        ∧ (5 ≤ getF s FL_STATUS_LANES_GOOD f →
          (∀ n, sp < 9 → sp ≠ l.val → laneLog s f l = some n → Does c s (fun t => laneFailed t f l = true
            ∧ (∀ m < 8, logLane t f m = if m = n then sp else logLane s f m) ∧ getF t FL_LANES_SPARE f = 0xF ∧ (getFlue t f).rot = none
            ∧ getF t FL_STATUS_LANES_GOOD f = getF s FL_STATUS_LANES_GOOD f - 1 ∧ FlueRecords s t 0x0904 f l cause ∧ FluesBut f s t))
          ∧ (sp = l.val → Does c s (fun t => laneFailed t f l = true ∧ getF t FL_LANES_SPARE f = 0xF ∧ (getFlue t f).rot = none
            ∧ (∀ m < 8, logLane t f m = logLane s f m) ∧ FluesBut f s t))
          ∧ (sp = 0xF → x.rot = none → Does c s (fun t => laneFailed t f l = true
            ∧ (getFlue t f).half = true ∧ getF t FL_STATUS_STATE f = 4 ∧ FlueRecords s t 0x0905 f l cause ∧ FluesBut f s t))
          ∧ (∀ r, sp = 0xF → x.rot = some r → r.phase ≠ 2 → (r.lane ≠ l.val → Does c s (fun t => laneFailed t f l = true
              ∧ (getFlue t f).half = true ∧ (getFlue t f).rot = some { r with phase := 2 } ∧ getF t FL_STATUS_STATE f = 4
              ∧ FlueRecords s t 0x0904 f l cause))
            ∧ (r.lane = l.val → Does c s (fun t => laneFailed t f l = true ∧ (getFlue t f).rot = none ∧ FluesBut f s t))))))
    ∧ (∀ r, x.rot = some r → r.phase = 2 → r.lane < 9 → Does (.laneRejoin f) s (fun t =>
        getFlue t f = { x with rot := none, half := false, wideMap := none } ∧ getF t FL_STATUS_STATE f = 3 ∧ getF t FL_LANES_SPARE f = 0xF
        ∧ (∀ n < 8, logLane t f n = if laneFailed s f (wideLane s f n) then r.lane else wideLane s f n)
        ∧ FluesBut f s t ∧ Only [.regs, .flues] s t))
    ∧ (x.rot = none → exec (.laneSwap f) s = .next s ∧ exec (.laneRejoin f) s = .next s ∧ ∀ v h, exec (.laneRecalComplete f v h) s = .next s)

/-- A ce. instruction waits while an operation is in progress or the engine drains. A bad encoding, an absent home tile, a bad ring, a PEER or address word out of range and a buffer or block too long fault it with the codes of R409, and a W wait that the home counter does not meet begins. Otherwise it leaves its queue as the operation in progress, with the next OPNUM and the operands of its general registers and fields, its transfers and the pieces of its own data planned by R392, and the first grant of both receive buffers sent to the neighbours; a ce.recv also sends its READY with N to its peer. (R384, R385, R387, R388, R390, R391, R392, R400, R404, R409, R413, R414) -/
def Obligations.CollectivesStart : Prop :=
  ∀ (c : Fin 4) s i op bad mk,
    (i, op, bad, mk) ∈ ([(Instr.ceAllreduce c, 0xA0, ceBadReduce, ceOperands c.val),
      (.ceReducescatter c, 0xA1, ceBadReduce, fun s w => { ceOperands c.val s w with stat := false }),
      (.ceAllgather c, 0xA2, ceBadGather, ceOperands c.val), (.ceBcast c, 0xA3, ceBadBcast, ceOperands c.val),
      (.ceSend c, 0xA4, ceBadPeer, cePeerOperands c.val false), (.ceRecv c, 0xA5, ceBadPeer, cePeerOperands c.val true),
      (.ceRingpass c, 0xA6, ceBadPass, cePassOperands c.val)] : List (Instr × Nat × (IWord → Bool) × (State → IWord → CeOp))) →
    let e := Eng.ce c
    let x := getCe s c
    let l := ceSize s c
    let r := ceRank s c
    Canon s → (frontIs s e 5 op = none → exec i s = .next s)
    ∧ ∀ q, frontIs s e 5 op = some q → (x.op.isSome = true ∨ drainOn s 8 c = true → exec i s = .next s)
    ∧ (x.op = none → drainOn s 8 c = false →
      let o := { mk s q.word with op := op }
      let peer := sext 7 (ifld q.word 52 7)
      let fails := fun code => Does i s (fun t => FaultsWith s t e code (iTag q.word) q.idx ∧ (getCe t c).op = none ∧ (getCe t c).opnum = x.opnum)
      (flagBad q.word = true ∨ bad q.word = true → fails 0x0E01)
      ∧ (flagBad q.word = false → bad q.word = false → homeOf s e = none → fails 0x0101)
      ∧ (∀ p, flagBad q.word = false → bad q.word = false → homeOf s e = some p → iW q.word = true → q.wDone = false → getCtr s p (iWctr q.word) = 0 →
        exec i s = .next (beginWait s e q .wflag (iWctr q.word) 1))
      ∧ (∀ p, flagBad q.word = false → bad q.word = false → homeOf s e = some p → (iW q.word = false ∨ q.wDone = true) →
        let ring := l ≤ r ∨ (o.dir = true ∧ op ≠ 0xA4 ∧ op ≠ 0xA5 ∧ ceWrap s c = false) ∨ (op = 0xA3 ∧ l ≤ o.root)
        let far := (op = 0xA4 ∨ op = 0xA5) ∧ (peer = 0 ∨ (l : Int) ≤ peer.natAbs)
        (ring → fails 0x0E02)
        ∧ (¬ring → far → fails 0x0E01)
        ∧ (¬ring → ¬far → ceWordBad o r = true → fails 0x0E01)
        ∧ (¬ring → ¬far → ceWordBad o r = false → ceAddrBad o l r = true → fails 0x0E04)
        ∧ (¬ring → ¬far → ceWordBad o r = false → ceAddrBad o l r = false → o.stat = false → x.early = [] →
          Does i s (fun t => let n := (x.opnum + 1) % 4096
            (∃ y, (getCe t c).op = some y ∧ y.op = op ∧ y.num = n ∧ y.tag = iTag q.word ∧ y.pc = q.idx ∧ y.sctr = iSig q.word
              ∧ y.src = o.src ∧ y.dst = o.dst ∧ y.n = o.n ∧ y.sig = o.sig ∧ y.todo = ceTodoPlan o l r ∧ y.rx = xfersOf (ceRxPlan o l r)
              ∧ y.tx = xfersOf (ceTxPlan o l r))
            ∧ (getCe t c).opnum = n ∧ (getCe t c).granted = true ∧ (getEng t e).queue = (getEng s e).queue.drop 1
            ∧ (x.granted = false → x.freedP = 0 → 2 ≤ l → ∃ k ∈ t.router.inject, k.typ = 11 ∧ k.tid = BitVec.ofNat 16 (3 + 16 * n) ∧ k.pseq = 4096
              ∧ k.dst = epId (ceNode s c ((r + l - 1) % l)) (0x40 + c))
            ∧ (op = 0xA5 → ∃ k ∈ t.router.inject, k.typ = 11 ∧ k.tid = BitVec.ofNat 16 (2 + 16 * n) ∧ k.payload = good (bytesOf 4 o.n)
              ∧ k.dst = epId (ceNode s c o.peer) (0x40 + c) ∧ k.addr = BitVec.ofNat 40 (2 ^ 12 * o.sig + 2 ^ 24 * r))
            ∧ (op ≠ 0xA6 → o.nsig = none → (getEng t e).st = (getEng s e).st ∧ EngsBut [e] s t ∧ Only [.engines, .ces, .router] s t)))))

/-- CE_PIECE_SEND first does what waits at the engine, then sends the chosen piece of its operation: at most 256 bytes of its own data, as they travel, or the bytes of a forwarded piece, in a packet of TYPE 11 with the piece's kind, OPNUM, number, step, SIG and rank, and LAST on the final one. It uses a credit of its direction and counts the bytes in CE_BYTES. Without a credit, a READY that it needs, or room beyond the last acknowledgement of a multicast, it stays. A copy within the GW7 writes the bytes, or a ring of one rank its rounded contribution, at their place in the result. (R388, R392, R395, R398, R400, R401, R403, R404, R405, R411) -/
def Obligations.CollectivePiecesLeave : Prop :=
  ∀ (c : Fin 4) (k : Nat) s o, let u := cePump s c
    let l := ceSize u c
    let i := Instr.cePieceSend c k
    Canon s → ((getCe u c).op = none → exec i s = .next (ceFlush u c))
    ∧ ((getCe u c).op = some o → (ceActive u c = false ∨ o.stall.isSome = true ∨ o.todo[k]? = none) → exec i s = .next (ceFlush u c))
    ∧ (∀ x d p, (getCe u c).op = some o → ceActive u c = true → o.stall = none → o.stat = false → o.todo[k]? = some x → x.kind = 7 → x.data = none →
      (ceRead u o.ssp o.src ((x.off + 256 * x.pseq / ceWs o) * ceEs o) (min 256 (x.len - 256 * x.pseq) / ceWs o * ceEs o) o.sh).2 = .ok d →
      o.op ≠ 0xA6 → o.dsp = 2 → ceTile u o.dst = some p → isolated u p = false → o.nsig = none →
      let off := if o.op = 0xA2 then ceRank u c * o.n + 256 * x.pseq else x.pseq * 256 / ceWs o * ceEs o
      let out := if isReduce o then finalOf o (wireOf o d) else d
      bits o.dst 0 22 + off + out.length ≤ 0x400000 → Does i s (fun t => t.router.inject = (ceFlush u c).router.inject
        ∧ ∀ j < out.length, memByte t (tsAddr p (bits o.dst 0 22 + off + j)) = ((out[j]?).getD ⟨0, false⟩).b))
    ∧ (∀ x, (getCe u c).op = some o → ceActive u c = true → o.stall = none → o.stat = false → o.todo[k]? = some x → x.kind ≠ 7 →
      let leaves := fun (t : State) (p : Packet) => p ∈ t.router.inject ∧ p.typ = 11 ∧ p.tid = BitVec.ofNat 16 (x.kind + 16 * (o.num % 4096))
        ∧ p.pseq = BitVec.ofNat 16 x.pseq ∧ p.addr = BitVec.ofNat 40 (x.step + 2 ^ 12 * o.sig + 2 ^ 24 * ceRank u c) ∧ p.last = ceLast o x
        ∧ getF t CE_BYTES c = (getF u CE_BYTES c + p.payload.length) % 2 ^ 64
      let toRank := fun (t : State) (p : Packet) => (∀ m, x.far = some m → p.dst = epId (ceNode u c m) (0x40 + c) ∧ p.mc = false
          ∧ (ceOutDir l (ceRank u c) m x.plus = true → (getCe t c).credP = (getCe u c).credP - 1)
          ∧ (ceOutDir l (ceRank u c) m x.plus = false → (getCe t c).credM = (getCe u c).credM - 1))
        ∧ (x.far = none → p.mc = true ∧ (getCe t c).credP = (getCe u c).credP ∧ (getCe t c).credM = (getCe u c).credM)
      (ceMaySend u c o x = false → exec i s = .next (ceFlush u c))
      ∧ (∀ m, x.far = some m → ceOutDir l (ceRank u c) m x.plus = true → (getCe u c).credP = 0 → ceMaySend u c o x = false)
      ∧ (∀ m, x.far = some m → o.op = 0xA4 → o.ready = [] → ceMaySend u c o x = false)
      ∧ (ceMaySend u c o x = true → (x.far.isSome = true ∨ 2 ≤ l) →
        (∀ d, x.data = some d → Does i s (fun t => ∃ p, leaves t p ∧ toRank t p ∧ p.payload = d))
        ∧ (x.data = none → (o.op ≠ 0xA6 ∨ x.local_ = true) → let n := min 256 (x.len - 256 * x.pseq)
          ∀ d, (ceRead u o.ssp o.src ((x.off + 256 * x.pseq / ceWs o) * ceEs o) (n / ceWs o * ceEs o) o.sh).2 = .ok d →
            Does i s (fun t => ∃ p, leaves t p ∧ toRank t p ∧ p.payload = (if isReduce o then wireOf o d else d)))
        ∧ (∀ d, x.data = none → o.op = 0xA6 → x.local_ = false → (ceRead u o.dsp o.dst x.off x.len o.dh).2 = .ok d →
          Does i s (fun t => ∃ p, leaves t p ∧ toRank t p ∧ p.payload = d))))

/-- A piece or READY of a later operation is held; one whose SIG or N differs faults the program with CE_PEER_MISMATCH and is refused with that code; one at an engine that was reset meets the DOMAIN_RESET NACK and a reserved KIND faults it. A ring's reduce piece takes the own contribution added and goes on to the next rank, or lands as the result of a reduce-scatter; the direct algorithm with ORD = 1 holds a contribution until its turn; a copied piece lands at its number. A piece applied counts once, and the last is acknowledged. KIND 3 returns credits, KIND 4 acknowledges pieces, KIND 5 and 6 count and release cross-chip barrier rounds. (R394, R395, R396, R398, R399, R400, R401, R404, R407, R408, R409, R412) -/
def Obligations.CollectivePackets : Prop :=
  ∀ (c : Fin 4) (q : Packet) s, AtCe s q c → Canon s → let u := takeArrived s q
    let kd := q.tid.toNat % 16
    let k := bits q.addr.toNat 24 6
    let step := q.addr.toNat % 4096
    let l := ceSize s c
    let r := ceRank s c
    (∀ i n, (i, n) ∈ [(Instr.ceReducePiece q, 0), (.ceCopyPiece q, 1), (.ceReady q, 2)] →
      (kd ≠ n → kd < 7 → exec i s = .next s)
      ∧ (kd = n → (getCe s c).nack = true → Does i s (fun t => Replies u t q 9 (nackBytes 0x0402) []))
      ∧ (kd = n → (getCe s c).nack = false → (getCe s c).op = none → ceLater (getCe s c) q = true →
        Does i s (fun t => (getCe t c).early = (getCe s c).early ++ [q] ∧ (getCe t c).op = none ∧ t.mem = s.mem ∧ Only [.ces, .router] s t))
      ∧ (∀ o, kd = n → CeWorks s q c o → bits q.addr.toNat 12 12 ≠ o.sig → Does i s (fun t => CeFaults s t c o 0x0E03 k
        ∧ ∃ a ∈ t.router.inject, a.typ = 9 ∧ a.dst = q.src ∧ a.payload = nackBytes 0x0E03))
      ∧ (7 ≤ kd → ∀ o, (getCe s c).op = some o → (getEng s (.ce c)).st = .running → Does i s (fun t => CeFaults s t c o 0x0E01 k)))
    ∧ (∀ o x, CeWorks s q c o → bits q.addr.toNat 12 12 = o.sig → o.rx.find? (fun y => y.far == k && y.step == step) = some x →
      let num := q.pseq.toNat
      let applied := fun (t : State) (y : CeOp) => y.rx = o.rx.map (fun z => if z.far = k ∧ z.step = step then
          { x with cnt := x.cnt + 1, seen := x.seen ++ [num], total := if q.last then num + 1 else x.total } else z)
        ∧ getF t CE_PIECES c = (getF s CE_PIECES c + 1) % 2 ^ 64
        ∧ (x.cnt + 1 = (if q.last then num + 1 else x.total) → ∃ a ∈ t.router.inject, a.typ = 11 ∧ a.tid = BitVec.ofNat 16 (4 + 16 * (o.num % 4096))
          ∧ a.pseq = BitVec.ofNat 16 x.cnt ∧ a.dst = epId (ceNode s c k) (0x40 + c))
      (kd < 2 → (num ∈ x.seen ∨ x.total ≤ num) → Does (if kd = 0 then .ceReducePiece q else .ceCopyPiece q) s (fun t =>
        (∃ y, (getCe t c).op = some y ∧ y.rx = o.rx ∧ y.todo = o.todo) ∧ t.mem = s.mem))
      ∧ (kd < 2 → num ∉ x.seen → num < x.total →
        let st := (ceStepOf o l step).2
        let plus := (ceStepOf o l step).1
        let b := ceSendBlk l (cePrev l r plus) plus st
        let e := (ceBlk o l plus b).1 + num * 256 / ceWs o
        (kd = 0 → isReduce o = true → o.alg = false → st + 2 < l →
          ∀ d, (ceRead s o.ssp o.src (e * ceEs o) (q.payload.length / ceWs o * ceEs o) o.sh).2 = .ok d → o.nsig = none →
          Does (.ceReducePiece q) s (fun t => ∃ y, (getCe t c).op = some y ∧ applied t y ∧ y.todo = o.todo ++
            [forward 0 (step + 1) (some (ceNext l r plus)) plus num (addWire o q.payload (wireOf o d)) (ceSlotOf s c q)]))
        ∧ (kd = 0 → o.op = 0xA1 → o.alg = false → st + 2 = l → o.dsp = 2 → o.nsig = none →
          ∀ d p, (ceRead s o.ssp o.src (e * ceEs o) (q.payload.length / ceWs o * ceEs o) o.sh).2 = .ok d → ceTile s o.dst = some p →
          isolated s p = false → let out := finalOf o (addWire o q.payload (wireOf o d))
          let ebase := ceDstElem o r ((ceBlk o l plus r).1 + num * 256 / ceWs o) * ceEs o
          bits o.dst 0 22 + ebase + out.length ≤ 0x400000 →
          Does (.ceReducePiece q) s (fun t => (∃ y, (getCe t c).op = some y ∧ applied t y ∧ y.todo = o.todo)
            ∧ ∀ j < out.length, memByte t (tsAddr p (bits o.dst 0 22 + ebase + j)) = ((out[j]?).getD ⟨0, false⟩).b))
        ∧ (kd = 0 → isReduce o = true → o.alg = true → o.ord = true →
          k ≠ ceTurn l r (((o.parts.find? (fun z => z.pseq == partKey plus num)).map (·.cnt)).getD 0) plus →
          Does (.ceReducePiece q) s (fun t => (∃ y, (getCe t c).op = some y ∧ y.early = [q] ∧ y.rx = o.rx) ∧ t.mem = s.mem))
        ∧ (kd = 1 → o.op = 0xA2 ∨ o.op = 0xA3 ∨ o.op = 0xA5 → o.dsp = 2 → ∀ p, ceTile s o.dst = some p → isolated s p = false →
          let off := (if o.op = 0xA2 then k * o.n else 0) + 256 * num
          bits o.dst 0 22 + off + q.payload.length ≤ 0x400000 →
          Does (.ceCopyPiece q) s (fun t => (∃ y, (getCe t c).op = some y ∧ applied t y)
            ∧ ∀ j < q.payload.length, memByte t (tsAddr p (bits o.dst 0 22 + off + j)) = ((q.payload[j]?).getD ⟨0, false⟩).b))))
    ∧ (∀ o, CeWorks s q c o → kd = 2 → o.op = 0xA4 → bits q.addr.toNat 12 12 = o.sig →
      (ofBytes (q.payload.map (·.b)) = o.n → Does (.ceReady q) s (fun t => (∃ y, (getCe t c).op = some y ∧ y.ready = o.ready ++ [step] ∧ y.todo = o.todo)
        ∧ Only [.ces, .router] s t))
      ∧ (ofBytes (q.payload.map (·.b)) ≠ o.n → Does (.ceReady q) s (fun t => CeFaults s t c o 0x0E03 k
        ∧ ∃ a ∈ t.router.inject, a.typ = 9 ∧ a.dst = q.src ∧ a.payload = nackBytes 0x0E03)))
    ∧ (kd = 3 → let plus := ceOutDir l r k (!bit q.addr.toNat 0)
      let n := q.pseq.toNat
      Does (.ceCredit q) s (fun t => (getCe t c).credP = (if plus then min 4096 ((getCe s c).credP + n) else (getCe s c).credP)
        ∧ (getCe t c).credM = (if plus then (getCe s c).credM else min 4096 ((getCe s c).credM + n))
        ∧ (getCe t c).usedP = (if plus then (getCe s c).usedP.drop n else (getCe s c).usedP)
        ∧ (getCe t c).usedM = (if plus then (getCe s c).usedM else (getCe s c).usedM.drop n)
        ∧ ((getCe t c).op.map (·.todo) = (getCe s c).op.map (·.todo)) ∧ Only [.ces, .router] s t))
    ∧ (kd = 4 → ((getCe s c).op = none → exec (.ceDone q) s = .next u)
      ∧ ∀ o, (getCe s c).op = some o → (ceMine o q = false → exec (.ceDone q) s = .next u)
        ∧ (ceMine o q = true → Does (.ceDone q) s (fun t => ∃ y, (getCe t c).op = some y ∧ y.todo = o.todo ∧ y.rx = o.rx
          ∧ y.tx = o.tx.map (fun x => if x.far = k ∧ x.step = step then { x with cnt := max x.cnt (ceAcked x.total (q.pseq.toNat + 1)) } else x)
          ∧ Only [.ces, .router] s t)))
    ∧ (kd = 5 → let x := q.addr.toNat % 64
      let cur := bit q.addr.toNat 6 = (getCtx s x).round ∧ (getCtx s x).leaving = false
      (barAxisOf s (epNode q.src) = none → Does (.ceBarrierArrive q) s (fun t => Replies u t q 9 (nackBytes 0x0205) []))
      ∧ ∀ a m, barAxisOf s (epNode q.src) = some (a, m) → (torusHere s c x = false → exec (.ceBarrierArrive q) s = .next u)
        ∧ (torusHere s c x = true → let b := getBar s a x
          ((bit b.a m = true ∧ cur) ∨ bit b.b m = true → Does (.ceBarrierArrive q) s (fun t => Replies u t q 9 (nackBytes 0x0205) []))
          ∧ (cur → bit b.a m = false → bit b.b m = false → (b.own = false ∨ b.cur + 2 ≠ ceSize s a) →
            Does (.ceBarrierArrive q) s (fun t => getBar t a x = { b with cur := b.cur + 1, a := b.a + 2 ^ m } ∧ t.ctxs = s.ctxs ∧ Only [.ces, .router] s t))
          ∧ (cur → bit b.a m = false → bit b.b m = false → b.own = true → b.cur + 2 = ceSize s a → (∀ d ∈ barAxes s, d ≤ a) →
            (getCtx s x).globalPend = true →
            Does (.ceBarrierArrive q) s (fun t => (getCtx t x).leaving = true ∧ (getCtx t x).globalPend = false
              ∧ ∃ a ∈ t.router.inject, a.typ = 11 ∧ a.mc = true ∧ a.tid.toNat % 16 = 6 ∧ a.addr.toNat % 64 = x))
          ∧ (¬cur → bit b.b m = false → Does (.ceBarrierArrive q) s (fun t => getBar t a x = { b with next := b.next + 1, b := b.b + 2 ^ m }
            ∧ t.ctxs = s.ctxs ∧ Only [.ces, .router] s t))))
    ∧ (kd = 6 → let x := q.addr.toNat % 64
      (torusHere s c x = false → exec (.ceBarrierRelease q) s = .next u)
      ∧ (torusHere s c x = true → Does (.ceBarrierRelease q) s (fun t => Only [.ctxs, .router] s t
        ∧ getCtx t x = (if (getCtx s x).globalPend then { getCtx s x with globalPend := false, leaving := true } else getCtx s x)
        ∧ ((∀ d ∈ barAxes s, q.maxis.toNat ≤ d) → t.router = u.router))))

/-- CE_OP_COMPLETE ends an operation whose results are written and whose pieces all peers have acknowledged: it signals and no operation is in progress; in arrival order it sets VSEEN. Until then the operation goes on. CE_PEER_TIMEOUT faults the program with TRANSFER_TIMEOUT when an awaited rank has been silent for 10 ms, naming it, or a job-memory stall has lasted P_WAIT_TMO. CE_CONFIG_WRITE writes CE_CFG, CE_RING and CE_NODEk of an engine that is HALTED, LOADED or QUIESCED, and sets CMD_ERR otherwise. (R385, R388, R396, R401, R404, R409, R411, R414) -/
def Obligations.CollectivesEnd : Prop :=
  (∀ (c : Fin 4) s, let i := Instr.ceOpComplete c
    let e := Eng.ce c
    Canon s → ((getCe s c).op = none → (getCe s c).early = [] → Does i s (fun t => (getCe t c).op = none ∧ Only [.ces, .router] s t))
    ∧ ∀ o, (getCe s c).op = some o → (getCe s c).early = [] → o.early = [] → o.stall = none → o.stat = false → o.op ≠ 0xA6 →
      let ended := ceActive s c = true ∧ o.todo = [] ∧ (o.op = 0xA4 → o.ready ≠ []) ∧ (∀ x ∈ o.rx, x.cnt = x.total) ∧ (∀ x ∈ o.tx, x.cnt = x.total)
      (¬ended → Does i s (fun t => (getCe t c).op = some o ∧ Only [.ces, .router] s t))
      ∧ (ended → Does i s (fun t => (getCe t c).op = none ∧ (getCe t c).opnum = (getCe s c).opnum ∧ Notifies s t e o.sctr o.tag o.pc
        ∧ (isReduce o = true → o.ord = false → getP t e P_PSTATE_VSEEN = 1) ∧ RegsBut [pKey e P_PSTATE_VSEEN] s t ∧ EngsBut [] s t
        ∧ Only [.regs, .tiles, .ces, .router] s t)))
  ∧ (∀ (c : Fin 4) dt s, let i := Instr.cePeerTimeout c dt
    let e := Eng.ce c
    let u := advance s dt
    Canon s → ((getCe s c).op = none → exec i s = .next u)
    ∧ ∀ o, (getCe s c).op = some o → (getEng s e).st = .running ∨ (getEng s e).st = .waiting →
      (∀ x, o.stall = some x → waitLimit u e ≤ stallElapsed u e x → Does i s (fun t => CeFaults u t c o 0x0403 0xFF))
      ∧ (o.stall = none → let late := fun k => k ∈ ceAwaited (getCe s c).early o
            ∧ ((o.heard.find? (fun x => x.1 == k)).map (·.2)).getD 0 + 10000000 ≤ ceRun u c o
        ((∀ k, ¬late k) → exec i s = .next u)
        ∧ ∀ k, late k → (∀ k', late k' → k' = k) → Does i s (fun t => CeFaults u t c o 0x0403 k)))
  ∧ (∀ (c : Fin 4) (off : BitVec 12) v s, let i := Instr.ceConfigWrite c off v
    let o := off.toNat
    let node := 0x300 ≤ o ∧ o < 0x400 ∧ o % 4 = 0
    Canon s → (pageUp s 8 c = false → exec i s = .next s)
    ∧ (o ≠ 0x40 → o ≠ 0x44 → ¬node → exec i s = .next s)
    ∧ (pageUp s 8 c = true → (o = 0x40 ∨ o = 0x44 ∨ node) →
      ((getEng s (.ce c)).st ∈ [EState.halted, .loaded, .quiesced] → Does i s (fun t =>
        regGet t (regKey 8 c o) = BitVec.ofNat 64 (v.toNat % 2 ^ (if o = 0x40 then 6 else if o = 0x44 then 13 else 16))
        ∧ RegsBut [regKey 8 c o] s t ∧ Only [.regs] s t))
      ∧ ((getEng s (.ce c)).st ∉ [EState.halted, .loaded, .quiesced] → exec i s = .next (setP s (.ce c) P_PSTATE_CMD_ERR 1))))

/-- HC_ACCESS serves the oldest waiting access of a line at its slice: a hit counts and takes the hint's effect, a miss counts and allocates with the normal hint, evicting the next line that is no keep line and writing it back if dirty; the bytes of a piece move with its line, those of another generation being discarded; with the slice drained or in reset, or another access first, it waits. A word that cannot be corrected is poisoned and counted. HC_FLUSH_WB and HC_FLUSH_INV write back, and invalidate, until HC_FLUSH_DONE. HC_SWEEP and MC_SWEEP_LINE rewrite corrected words, and the sweep's place moves on. MC_RETIRE_CMD retires a live pseudo-channel, once and at most two of a stack, and RETIREMENT_MIGRATION_COMPLETE ends its migration; the data of no address changes. (R272, R278, R279, R280, R281, R282, R283, R284, R285, R286, R287, R289) -/
def Obligations.LinesSweepsRetirements : Prop :=
  (∀ (addr : BitVec 40) wr (hint : Fin 4) s, let line := addr.toNat / 256
    let st := line % 6
    let ls := (getStack s st).lines
    let h := effHint s st hint
    let c := Instr.hcAccess addr wr hint ⟨[], 0, none⟩
    let stays := memReset s [(256 * line, 256)] = true ∨ lineWaits s line = true
    Canon s → (stays → exec c s = .next s)
    ∧ (¬stays → s.lineQ.find? (fun q => q.addr / 256 == line) = none → exec c s = .next s)
    ∧ ∀ q, ¬stays → s.lineQ.find? (fun q => q.addr / 256 == line) = some q →
      (q.wr ≠ wr ∨ q.hint ≠ hint.val ∨ pieceWaits s q = true → exec c s = .next s)
      ∧ (q.wr = wr → q.hint = hint.val → pieceWaits s q = false →
        Does c s (fun t => ∃ more, t.lineQ = dropFirst (fun r => r.addr / 256 == line) s.lineQ ++ more)
        ∧ (q.own = none →
          (∀ l, ls.find? (fun l => l.line == line) = some l → let rest := ls.filter (fun x => x.line != line)
            let l' : HcLine := ⟨line, l.dirty || wr, l.keep⟩
            Does c s (fun t => SliceIs s t st (if h = 0 then rest ++ [l'] else if h = 1 then l' :: rest else if h = 2 then rest ++ [{ l' with keep := true }]
              else rest) true
              ∧ getF t HC_WRITEBACKS st = (getF s HC_WRITEBACKS st + b2n (decide (h = 3) && l'.dirty)) % 2 ^ 64))
          ∧ (ls.find? (fun l => l.line == line) = none → h = 1 ∨ h = 3 → Does c s (fun t => SliceIs s t st ls false
            ∧ getF t MC_BYTES st = (getF s MC_BYTES st + 256) % 2 ^ 64))
          ∧ (ls.find? (fun l => l.line == line) = none → h = 0 → ls.length < sliceLines → Does c s (fun t => SliceIs s t st (ls ++ [⟨line, wr, false⟩]) false))
          ∧ (∀ v, ls.find? (fun l => l.line == line) = none → h = 0 → sliceLines ≤ ls.length → keepCount ls ≤ keepMax s st →
            ls.find? (fun l => !l.keep) = some v → Does c s (fun t => SliceIs s t st (ls.filter (fun l => l.line != v.line) ++ [⟨line, wr, false⟩]) false
              ∧ getF t HC_WRITEBACKS st = (getF s HC_WRITEBACKS st + b2n v.dirty) % 2 ^ 64))
          ∧ (ls.find? (fun l => l.line == line) = none → h = 2 → ls.length < sliceLines → keepCount ls < keepMax s st →
            Does c s (fun t => SliceIs s t st (ls ++ [⟨line, wr, true⟩]) false)))
        ∧ (∀ p tid k x, q.own = some (p, tid, k) → getPiece s p tid k = some x →
          (∀ a n, x.kind = 0 → x.src = [(a, n)] → a / 256 = line → a % 256 + n ≤ 256 → x.data.length = n → 0 < n → Does c s (fun t =>
            getPiece t p tid k = some { x with lines := x.lines - 1, data := readBytes s a n } ∧ t.mem = s.mem))
          ∧ (∀ a n, x.kind = 3 → x.dst = [(a, n)] → a / 256 = line → a % 256 + n ≤ 256 → x.data.length = n → 0 < n → a + n ≤ 2 ^ 36 →
            x.unsup = false →
            (x.gen ≠ getF s MC_JOB_GEN_GEN 0 → Does c s (fun t => t.mem = s.mem
              ∧ getF t MC_STALE_WRITES st = satAdd MC_STALE_WRITES.len (getF s MC_STALE_WRITES st) 1))
            ∧ (x.gen = getF s MC_JOB_GEN_GEN 0 → mirrored s a = false →
              ((getFrame s (a / 2 ^ 21)).rstate ≠ 4 ∨ bit (getFrame s (a / 2 ^ 21)).d.toNat (a % 2 ^ 21 / 65536) = true) →
              Does c s (fun t => BytesBut [(a, n)] s t ∧ ∀ i < n, memByte t (a + i) = ((x.data[i]?).getD ⟨0, false⟩).b))))))
  ∧ (∀ (addr : BitVec 40) (hint : Fin 4) (e : LineErr) s, let line := addr.toNat / 256
    let a := e.addr.toNat / 16 * 16
    let st := line % 6
    Canon s → memReset s [(256 * line, 256)] = false → lineWaits s line = false → s.lineQ.find? (fun q => q.addr / 256 == line) = none →
    e.addr.toNat / 256 = line → e.addr.toNat < hbmTop → (getStack s st).lines.any (fun l => l.line == line) = false →
    (readLine s e).1 = .uncorrectable → Does (.hcAccess addr false hint ⟨[e], 0, none⟩) s (fun t => isBad t a = true
      ∧ getF t MC_ECC_UNCORRECTED st = satAdd MC_ECC_UNCORRECTED.len (getF s MC_ECC_UNCORRECTED st) 1))
  ∧ (∀ (i : Fin 6) s, let ls := (getStack s i).lines
    let n := (ls.filter (·.dirty)).length
    let back := fun (t : State) => getF t HC_WRITEBACKS i = (getF s HC_WRITEBACKS i + n) % 2 ^ 64 ∧ getF t MC_BYTES i = (getF s MC_BYTES i + 256 * n) % 2 ^ 64
      ∧ getF t HC_STATUS_FLUSHING i = 1 ∧ Only [.regs, .hbmStacks] s t
    Canon s → (pageUp s 12 i = false → exec (.hcFlushWb i) s = .next s ∧ exec (.hcFlushInv i) s = .next s)
    ∧ (pageUp s 12 i = true → Does (.hcFlushWb i) s (fun t => back t ∧ (getStack t i).lines = ls.map (fun l => { l with dirty := false })))
    ∧ (pageUp s 12 i = true → Does (.hcFlushInv i) s (fun t => back t ∧ (getStack t i).lines = []))
    ∧ Does (.hcFlushDone i) s (fun t => getF t HC_STATUS_FLUSHING i = 0 ∧ RegsBut [fKey HC_STATUS_FLUSHING i] s t ∧ Only [.regs] s t))
  ∧ (∀ (i : Fin 6) s, let due := getTimer s (tmHcSweep i) + 100000000 ≤ s.gsc ∧ isolated s 100 = false
    Canon s → (∀ errs, ¬due → exec (.hcSweep i errs) s = .next s)
    ∧ (due → exec (.hcSweep i []) s = .next (setTimer s (tmHcSweep i) s.gsc))
    ∧ ∀ (e : LineErr), let a := e.addr.toNat / 16 * 16
      due → (getStack s i).lines.any (fun l => l.line == e.addr.toNat / 256) = true → e.addr.toNat < hbmTop →
      e.addr.toNat / 256 % 6 = i.val →
      (∀ j v, (readLine s e).1 = .corrected j v → Does (.hcSweep i [e]) s (fun t => readNat t a 16 = (readLine s e).2.1 % 2 ^ 128
        ∧ BytesBut [(a, 16), (ashBase, 2 ^ 24)] s t ∧ getF t HC_ECC_CORRECTED i = satAdd HC_ECC_CORRECTED.len (getF s HC_ECC_CORRECTED i) 1))
      ∧ ((readLine s e).1 = .uncorrectable → Does (.hcSweep i [e]) s (fun t => isBad t a = true
        ∧ getF t HC_ECC_UNCORRECTED i = satAdd HC_ECC_UNCORRECTED.len (getF s HC_ECC_UNCORRECTED i) 1)))
  ∧ (∀ (i : Fin 6) dt n s, let u := advance s dt
    let q := getF s MC_SWEEP_POS_Q i
    let goes := flagF s MC_SWEEP_EN i = true ∧ isolated s (72 + i) = false ∧ (q ≠ 0 ∨ sweepDue u i = true)
    Canon s → (¬goes → exec (.mcSweepLine i ⟨[], n, dt⟩) s = .next u)
    ∧ (goes → Does (.mcSweepLine i ⟨[], n, dt⟩) s (fun t => getF t MC_BYTES i = (getF s MC_BYTES i + 256) % 2 ^ 64
      ∧ getF t MC_SWEEP_POS_Q i = (if q + 1 < stackQ then q + 1 else 0) ∧ (stackQ ≤ q + 1 → ∀ c < 64, getFi t MC_PC_CE i c = 0)
      ∧ getF t MC_ODECC_REPORTS i = (if n = 0 then getF s MC_ODECC_REPORTS i else satAdd MC_ODECC_REPORTS.len (getF s MC_ODECC_REPORTS i) n)
      ∧ Only [.gsc, .regs, .timers, .ledger] s t)))
  ∧ (∀ (i : Fin 6) (pc : Fin 64) s, let r := retiredPcs s i
    let refused := flagF s MC_STATUS_MIGRATING i = true ∨ pc.val ∈ r ∨ r.length = 2
    Canon s → (pageUp s 11 i = false → exec (.mcRetireCmd i pc) s = .next s)
    ∧ (pageUp s 11 i = true → refused → exec (.mcRetireCmd i pc) s = .next (setF s MC_STATUS_CMD_ERR i 1))
    ∧ (pageUp s 11 i = true → ¬refused → (flagF s MC_RETIRE_V2 i = true → flagF s MC_RETIRE_V1 i = true) → Does (.mcRetireCmd i pc) s (fun t =>
      retiredPcs t i = r ++ [pc.val] ∧ getF t MC_STATUS_MIGRATING i = 1 ∧ getF t MC_STATUS_RETIRED i = r.length + 1
      ∧ getStack t i = { getStack s i with migrating := some 0 } ∧ t.ledger = s.ledger ++ [⟨4, 0x100 + 64 * i.val + pc.val, s.gsc, [i.val, pc.val]⟩]
      ∧ t.mem = s.mem ∧ t.poison = s.poison)))
  ∧ (∀ (i : Fin 6) upto s, let c := Instr.retirementMigrationComplete ⟨i, upto, []⟩
    let k := min upto (migrationLines s i)
    Canon s → ((getStack s i).migrating = none → exec c s = .next s)
    ∧ ∀ j, (getStack s i).migrating = some j → (k ≤ j ∨ isolated s (72 + i) = true → exec c s = .next s)
      ∧ (j < k → isolated s (72 + i) = false → (∀ x < 64, overLimit s i (getFi s MC_PC_CE i x) (getFi s MC_PC_UE i x) = false) → Does c s (fun t =>
        (getStack t i).migrating = (if k < migrationLines s i then some k else none) ∧ (getStack t i).lines = (getStack s i).lines
        ∧ (k = migrationLines s i → getF t MC_STATUS_MIGRATING i = 0) ∧ getF t MC_BYTES i = (getF s MC_BYTES i + 512 * (k - j)) % 2 ^ 64
        ∧ Only [.regs, .hbmStacks] s t)))

/-- FT_LOAD and FT_UPDATE are refused with CMD_ERR while one runs or the job's engines run; FT_LOAD_COMPLETE puts a table that passes every check in force, with the frames of its entries and empty translation caches, else LOAD_ERR names the entry and the cause; FT_UPDATE_COMPLETE does so for one entry. MC_RESTORE makes a PENDING or FETCHING frame PRESENT and lets the requests held for it go on; RESTORE_RESEND asks again. HOLD_REPLY_SEND answers each held request every 1 ms, HOLD_TIMEOUT refuses one after HOLD_MS. TRICKLE_GRANULE_SEND begins and ends the send of the next granule with its trailer. MIRROR_FENCE_TIMEOUT degrades the mirror, MIRROR_RESYNC sends every mirror line again, MIRROR_RESYNC_COMPLETE ends that. (R300, R301, R304, R310, R311, R313, R314, R315, R317, R318, R324, R442) -/
def Obligations.FolioUnit : Prop :=
  (∀ s, let b := s.folio.busy
    Canon s → (pageUp s 11 6 = false → exec .ftLoad s = .next s ∧ exec .ftUpdate s = .next s ∧ ∀ v, exec (.mcRestore v) s = .next s)
    ∧ (pageUp s 11 6 = true → (b ≠ 0 ∨ jobStopped s = false → exec .ftLoad s = .next (setF s MC_FT_STATUS_CMD_ERR 6 1))
      ∧ (b = 0 → jobStopped s = true → Does .ftLoad s (fun t => t.folio = { s.folio with busy := 1, cmdArg := getF s MC_FT_BASE_BASE 6 * 2 ^ 22 }
        ∧ getF t MC_FT_STATUS_BUSY 6 = 1 ∧ Only [.regs, .folio] s t))
      ∧ (let no := b ≠ 0 ∨ s.folio.ftBase = none ∨ ((frameOfVpn s (getF s MC_FT_VPN_VPN 6)).isSome = true ∧ jobStopped s = false)
        (no → exec .ftUpdate s = .next (setF s MC_FT_STATUS_CMD_ERR 6 1))
        ∧ (¬no → Does .ftUpdate s (fun t => t.folio = { s.folio with busy := 2, cmdArg := getF s MC_FT_VPN_VPN 6 } ∧ getF t MC_FT_STATUS_BUSY 6 = 1
          ∧ Only [.regs, .folio] s t))))
    ∧ (b ≠ 1 → exec .ftLoadComplete s = .next s) ∧ (b ≠ 2 → exec .ftUpdateComplete s = .next s))
  ∧ (∀ s, let base := s.folio.cmdArg
    let entry := fun v => readNat s (ftEntryAddr base v) 8
    let check := tableCheck s base (tableVpns s base) [base / 2 ^ 21, base / 2 ^ 21 + 1]
    let refuses := fun v c => Does .ftLoadComplete s (fun t => t.folio = { s.folio with busy := 0 } ∧ getF t MC_FT_STATUS_BUSY 6 = 0
      ∧ getF t MC_FT_STATUS_LOAD_ERR 6 = 1 ∧ getF t MC_FT_STATUS_CAUSE 6 = c ∧ getF t MC_FT_ERR_VPN 6 = v % 2 ^ MC_FT_ERR_VPN.len)
    Canon s → s.folio.busy = 1 → (hbmTop < base + 0x400000 → refuses 0 7)
    ∧ (∀ v c, base + 0x400000 ≤ hbmTop → check = some (v, c) → refuses v c)
    ∧ (base + 0x400000 ≤ hbmTop → check = none → s.folio.held = [] → s.folio.waiting = [] → Does .ftLoadComplete s (fun t =>
      t.folio.ftBase = some base ∧ t.folio.busy = 0 ∧ getF t MC_FT_STATUS_BUSY 6 = 0 ∧ getF t MC_FT_STATUS_LOAD_ERR 6 = getF s MC_FT_STATUS_LOAD_ERR 6
      ∧ (∀ v < 2 ^ 19, eV (entry v) = true → getFrame t (ePfn (entry v)) = mapFrame s v (entry v))
      ∧ (∀ p, p = base / 2 ^ 21 ∨ p = base / 2 ^ 21 + 1 → (getFrame t p).rstate = 5)
      ∧ (∀ p, p ≠ base / 2 ^ 21 → p ≠ base / 2 ^ 21 + 1 → (∀ v, eV (entry v) = true → ePfn (entry v) ≠ p) → getFrame t p = Frame.reset)
      ∧ t.folio.xlat = [] ∧ (∀ p < 72, (getTile t p).dm.xlat = []) ∧ t.mem = s.mem)))
  ∧ (∀ s base, let vpn := s.folio.cmdArg
    let e := readNat s (ftEntryAddr base vpn) 8
    let used := (s.folio.frames.filter (fun kv => kv.2.rstate != 0 && !(kv.2.vpn == vpn && kv.2.rstate != 5))).map (·.1)
    let c := entryCause s base vpn used
    Canon s → s.folio.busy = 2 → s.folio.ftBase = some base →
    (c ≠ 0 → Does .ftUpdateComplete s (fun t => t.folio = { s.folio with busy := 0 } ∧ getF t MC_FT_STATUS_BUSY 6 = 0 ∧ getF t MC_FT_STATUS_LOAD_ERR 6 = 1
      ∧ getF t MC_FT_STATUS_CAUSE 6 = c ∧ getF t MC_FT_ERR_VPN 6 = vpn % 2 ^ MC_FT_ERR_VPN.len))
    ∧ (c = 0 → s.folio.held = [] → s.folio.waiting = [] → Does .ftUpdateComplete s (fun t => getF t MC_FT_STATUS_BUSY 6 = 0 ∧ t.folio.busy = 0
      ∧ (eV e = true → getFrame t (ePfn e) = mapFrame s vpn e)
      ∧ (∀ p, frameOfVpn s vpn = some p → (eV e = false ∨ ePfn e ≠ p) → getFrame t p = Frame.reset)
      ∧ (∀ p, frameOfVpn s vpn ≠ some p → (eV e = false ∨ ePfn e ≠ p) → getFrame t p = getFrame s p)
      ∧ ((frameOfVpn s vpn).isSome = true → t.folio.xlat = [] ∧ ∀ p < 72, (getTile t p).dm.xlat = []) ∧ t.mem = s.mem)))
  ∧ (∀ (v : BitVec 19) s, pageUp s 11 6 = true → Canon s → let no := lendState s = 3 ∨ ∀ p, frameOfVpn s v.toNat = some p → (getFrame s p).rstate ≠ 2 ∧ (getFrame s p).rstate ≠ 3
    (no → exec (.mcRestore v) s = .next (setF s MC_FT_STATUS_CMD_ERR 6 1))
    ∧ ∀ p, ¬no → frameOfVpn s v.toNat = some p → s.folio.waiting = [] → ∀ h, s.folio.held = [h] → (∀ x ∈ heldVpns h, x = v.toNat) →
      (∀ q, q ≠ p → (getFrame s q).vpn ≠ v.toNat) →
      Does (.mcRestore v) s (fun t => getFrame t p = { getFrame s p with rstate := 1, d := 0, s := 0 } ∧ (∀ q, q ≠ p → getFrame t q = getFrame s q)
        ∧ t.folio.held = [] ∧ t.router = { s.router with arrived := s.router.arrived ++ [h.pkt] }
        ∧ getF t MC_RESTORES 6 = (getF s MC_RESTORES 6 + 1) % 2 ^ 64 ∧ Only [.regs, .folio, .router] s t))
  ∧ (∀ p dt s, let u := advance s dt
    let f := getFrame s p
    let ms := if getF s MC_RESTORE_CFG_RESEND_MS 6 = 0 then 100 else getF s MC_RESTORE_CFG_RESEND_MS 6
    let due := f.rstate = 3 ∧ jobStands s = true ∧ f.since + ms * 1000000 ≤ u.gsc
    Canon s → (¬due → exec (.restoreResend p dt) s = .next u)
    ∧ (due → Does (.restoreResend p dt) s (fun t => Delivers u t (.restore f.vpn) ∧ getFrame t p = { f with since := u.gsc } ∧ Only [.gsc, .folio, .eb] s t)))
  ∧ (∀ dt s, let u := advance s dt
    Canon s → (u.gsc < getTimer s tmHold + 1000000 → exec (.holdReplySend dt) s = .next u)
    ∧ (getTimer s tmHold + 1000000 ≤ u.gsc → Does (.holdReplySend dt) s (fun t =>
      t.router = { s.router with inject := s.router.inject ++ s.folio.held.map (fun h => reply s h.pkt 10 []) }
      ∧ getTimer t tmHold = u.gsc ∧ Only [.gsc, .router, .timers] s t)))
  ∧ (∀ k dt s, let u := advance s dt
    let ms := if getF s MC_RESTORE_CFG_HOLD_MS 6 = 0 then 1000 else getF s MC_RESTORE_CFG_HOLD_MS 6
    Canon s → (s.folio.held[k]? = none → exec (.holdTimeout k dt) s = .next u)
    ∧ ∀ h, s.folio.held[k]? = some h → (u.gsc < h.since + ms * 1000000 → exec (.holdTimeout k dt) s = .next u)
      ∧ (h.since + ms * 1000000 ≤ u.gsc → Does (.holdTimeout k dt) s (fun t => Replies u t h.pkt 9 (nackBytes 0x0403) [.folio]
        ∧ t.folio = { s.folio with held := s.folio.held.eraseIdx k })))
  ∧ (∀ s, Canon s → (s.folio.sending = none → (flagF s MC_TRICKLE_EN 6 = false ∨ 3 ≤ lendState s ∨ nextGranule s = none) → exec .trickleGranuleSend s = .next s)
    ∧ (∀ k, s.folio.sending = none → flagF s MC_TRICKLE_EN 6 = true → lendState s < 3 → nextGranule s = some k → let f := getFrame s (k / 32)
      exec .trickleGranuleSend s = .next { s with folio := { s.folio with pos := k + 1, sending := some ⟨k / 32, f.vpn, k % 32,
        mapGet (fun _ => 0) s.folio.marks k, bit f.d.toNat (k % 32), false, false⟩ } })
    ∧ ∀ x, s.folio.sending = some x → (x.ended = true → exec .trickleGranuleSend s = .next s)
      ∧ (x.ended = false → let a := x.pfn * 2 ^ 21 + x.gran * 65536
        let poisoned := ∃ i < 4096, isBad s (a + 16 * i) = true
        Does .trickleGranuleSend s (fun t => t.folio = { s.folio with sending := some { x with ended := true } }
          ∧ (∃ ms m, t.eb.out = s.eb.out ++ ms ++ [m] ∧ ms.length = 4 ∧ ms.flatMap (·.body) = (readBytes s a 65536).map (fun b => if b.bad then 0 else b.b)
            ∧ m.mtype = 0x48 ∧ m.a = x.vpn + x.gran * 2 ^ 32 ∧ (x.overlap = true → m.status = 1 ∧ m.body = [])
            ∧ (x.overlap = false → poisoned → m.status = 2 ∧ m.body = granuleBitmap s a) ∧ (x.overlap = false → ¬poisoned → m.status = 0 ∧ m.body = []))
          ∧ getF t MC_TRICKLE_BYTES 6 = (getF s MC_TRICKLE_BYTES 6 + 65536) % 2 ^ 64 ∧ Only [.regs, .folio, .eb, .lineQ] s t)))
  ∧ (∀ dt s, let u := advance s dt
    let due := s.mark.phase = 1 ∧ s.mark.fence ≠ [] ∧ s.mark.since + 10000000 ≤ u.gsc
    Canon s → (¬due → exec (.mirrorFenceTimeout dt) s = .next u)
    ∧ (due → Does (.mirrorFenceTimeout dt) s (fun t => t.mark = { s.mark with fence := [] } ∧ t.folio = { s.folio with dups := [], resync := [] }
      ∧ getF t MC_MIRROR_CFG_DEGRADED 6 = 1 ∧ Records u t (fun r => r.code = 0x0306 ∧ r.unit = 0x48 ∧ r.detail = getF s MC_MIRROR_PARTNER_NODE 6))))
  ∧ (∀ s, let on := flagF s MC_MIRROR_CFG_EN 6 = true ∧ flagF s MC_MIRROR_CFG_RESYNCING 6 = false
    Canon s → (pageUp s 11 6 = false ∨ ¬on → exec .mirrorResync s = .next s)
    ∧ (pageUp s 11 6 = true → on → s.folio.dups = [] → Does .mirrorResync s (fun t => getF t MC_MIRROR_CFG_RESYNCING 6 = 1
      ∧ t.folio.dups.map (·.line) = (mirrorLines s).take 4096 ∧ t.folio.resync = (mirrorLines s).drop 4096
      ∧ (∃ ks, t.router = { s.router with inject := s.router.inject ++ ks } ∧ ks.length = min 4096 (mirrorLines s).length ∧ ∀ k ∈ ks, k.typ = 5 ∧ k.payload.length = 256
        ∧ k.dst = epId (getF s MC_MIRROR_PARTNER_NODE 6) 0x48) ∧ t.mem = s.mem))
    ∧ (let ended := flagF s MC_MIRROR_CFG_RESYNCING 6 = true ∧ s.folio.resync = [] ∧ s.folio.dups = []
      (¬ended → exec .mirrorResyncComplete s = .next s)
      ∧ (ended → Does .mirrorResyncComplete s (fun t => getF t MC_MIRROR_CFG_RESYNCING 6 = 0 ∧ getF t MC_MIRROR_CFG_DEGRADED 6 = 0 ∧ t.folio = s.folio
        ∧ Only [.regs] s t))))

/-- GSC_EXCHANGE asks the parent once a millisecond; GSC_TIME_REPLY filters the offset, steps forward only where a step is allowed and slews by at most 100 ppm otherwise, and moves the time state; GSC_HOLDOVER, PPS_EDGE, PPS_LOST and CK_CFG_WRITE move it as R425 and R428 state. PERIOD_END copies each live counter, restarts it and advances PERIOD_ID. RAIL_SAMPLE and TEMPERATURE_SAMPLE record the sample and raise RAIL_FAULT, THERMAL_ALERT and THERMAL_CRIT. PACING_LEVEL_STEP moves each level by at most one. PATH_DELAY_SAMPLE and AGEING_PREDICTION update margins, months and warnings. A sample before its time changes nothing. (R423, R424, R425, R427, R428, R554, R555, R561, R563, R565, R568, R570) -/
def Obligations.TimeStatisticsPower : Prop :=
  (∀ dt s, let u := advance s dt
    Canon s → (parentFlue s = none ∨ isSource s = true ∨ u.gsc < getTimer s tmGscX + 1000000 → exec (.gscExchange dt) s = .next u)
    ∧ ∀ f, parentFlue s = some f → isSource s = false → getTimer s tmGscX + 1000000 ≤ u.gsc → Does (.gscExchange dt) s (fun t =>
      t.clock = { s.clock with ask := true, t1 := none } ∧ getTimer t tmGscX = u.gsc
      ∧ (∃ k, (getFlue t f).msgs = (getFlue s f).msgs ++ [k] ∧ k.typ = 6 ∧ k.dst = epId (getF s FL_PEER_NODE f) 0x4A ∧ k.last = true)
      ∧ FluesBut f s t ∧ Only [.gsc, .clock, .flues, .timers] s t))
  ∧ (∀ t2 f2 t3 f4 (pa : Fin 4) s, let c := Instr.gscTimeReply t2 f2 t3 f4 pa
    let st := timeState s
    Canon s → (s.clock.t1 = none → exec c s = .next s)
    ∧ ∀ t1, s.clock.t1 = some t1 →
      (isSource s = true ∨ parentFlue s = none → exec c s = .next { s with clock := { s.clock with t1 := none } })
      ∧ (isSource s = false → (parentFlue s).isSome = true →
        (pa ≠ 2 → Does c s (fun t => timeState t = (if st = 2 then 3 else st) ∧ t.gsc = s.gsc ∧ t.clock.offs = s.clock.offs ∧ t.clock.slew = s.clock.slew
          ∧ t.clock.good = 0 ∧ t.clock.lastX = s.gsc ∧ t.clock.parent = pa.val ∧ t.clock.t1 = none ∧ Only [.regs, .clock] s t))
        ∧ (pa = 2 → st = 0 → admitted s (getF s CK_CFG_PARENT 0) = false → Does c s (fun t => timeState t = 0 ∧ t.gsc = s.gsc ∧ t.clock.slew = s.clock.slew
          ∧ Only [.clock] s t))
        ∧ (pa = 2 → st ≠ 0 → let offs := (exchangeOff s t1 (256 * t2 + f2.toNat) (256 * t3) f4.toNat :: s.clock.offs).take 64
          let off := Config.gscFilter offs
          let acq := st = 1 ∨ st = 3
          let may := (acq ∧ noneActive s = true) ∨ s.clock.first = true
          let good := if off.natAbs ≤ 512 then (if st = 1 then s.clock.good else 0) + 1 else 0
          Does c s (fun t => getF t CK_OFFSET_OFFSET 0 = wrapInt 32 off ∧ t.clock.lastX = s.gsc ∧ t.clock.first = false
            ∧ (may → 256 ≤ off → t.gsc = (s.gsc + (off / 256).toNat) % 2 ^ 64 ∧ flagF t CK_STATUS_STEPPED 0 = true ∧ t.clock.slew = 0 ∧ t.clock.offs = [])
            ∧ (¬may ∨ off < 256 → t.gsc = s.gsc ∧ t.clock.offs = offs ∧ t.clock.slew.natAbs ≤ 100 ∧ (0 < off → 0 ≤ t.clock.slew) ∧ (off < 0 → t.clock.slew ≤ 0)
              ∧ flagF t CK_STATUS_STEPPED 0 = flagF s CK_STATUS_STEPPED 0)
            ∧ (st = 2 → timeState t = 2) ∧ (acq → t.clock.good = good ∧ timeState t = (if 16 ≤ good then 2 else 1))
            ∧ Only [.gsc, .freeCtr, .regs, .clock] s t))))
  ∧ (∀ dt s, let u := advance s dt
    let lost := timeState s = 2 ∧ isSource s = false ∧ s.clock.lastX + 10000000 ≤ u.gsc
    Canon s → (¬lost → exec (.gscHoldover dt) s = .next u)
    ∧ (lost → Does (.gscHoldover dt) s (fun t => timeState t = 3 ∧ t.clock = s.clock ∧ RegsBut [fKey CK_STATUS_STATE 0] s t ∧ Only [.gsc, .regs] s t)))
  ∧ (∀ dt s, let u := advance s dt
    let r := u.gsc % 1000000000
    let near := (r : Int) ≤ 2 ∨ 1000000000 - (r : Int) ≤ 2
    let step := timeState s = 1 ∧ noneActive s = true ∧ 500000000 ≤ r
    Canon s → (followsPps s = false → exec (.ppsEdge dt) s = .next u ∧ exec (.ppsLost dt) s = .next u)
    ∧ (followsPps s = true → Does (.ppsEdge dt) s (fun t => flagF t CK_STATUS_PPS_LOST 0 = false ∧ t.clock.lastPps = u.gsc
      ∧ (step → t.gsc = (u.gsc + (1000000000 - r)) % 2 ^ 64 ∧ flagF t CK_STATUS_STEPPED 0 = true)
      ∧ (¬step → t.gsc = u.gsc ∧ t.clock.slew.natAbs ≤ 100 ∧ (500000000 ≤ r → 0 ≤ t.clock.slew) ∧ (0 < r → r < 500000000 → t.clock.slew ≤ 0))
      ∧ (timeState s = 1 → let n := if near then s.clock.good + 1 else 0
        t.clock.good = n ∧ timeState t = (if 16 ≤ n then 2 else 1))))
    ∧ (let lost := s.clock.lastPps + 2000000000 ≤ u.gsc ∧ flagF s CK_STATUS_PPS_LOST 0 = false
      followsPps s = true → (¬lost → exec (.ppsLost dt) s = .next u)
        ∧ (lost → Does (.ppsLost dt) s (fun t => flagF t CK_STATUS_PPS_LOST 0 = true ∧ t.clock.slew = 0 ∧ timeState t = timeState s ∧ Only [.gsc, .regs, .clock] s t))))
  ∧ (∀ v s, Canon s → (pageUp s 13 0 = false → exec (.ckCfgWrite v) s = .next s)
    ∧ (pageUp s 13 0 = true → Does (.ckCfgWrite v) s (fun t => flagF t CK_CFG_SOURCE 0 = v.getLsbD 0 ∧ flagF t CK_CFG_PPS_EN 0 = v.getLsbD 1
      ∧ getF t CK_CFG_PARENT 0 = bits v.toNat 2 3 ∧ t.clock.offs = [] ∧ t.clock.good = 0
      ∧ timeState t = (if v.getLsbD 0 then (if v.getLsbD 1 then 1 else 2) else if (parentFlue t).isSome then 1 else 0) ∧ Only [.regs, .clock] s t)))
  ∧ (∀ dt s, let u := advance s dt
    let m := getF s PW_PERIOD_CFG_MODE 0
    let last := getTimer s tmPeriod
    let b := u.gsc / periodCounts s * periodCounts s
    let no := m = 0 ∨ b = 0 ∨ b ≤ last ∨ (m ≠ 1 ∧ b ≤ last + 1000)
    Canon s → (no → exec (.periodEnd dt) s = .next u)
    ∧ (¬no → Does (.periodEnd dt) s (fun t => (∀ k k', latchOf k = some k' → regGet t k' = regGet s k ∧ regGet t k = 0)
      ∧ rdF t 1 H_PERIOD_ID_ID 0 0 = (rdF s 1 H_PERIOD_ID_ID 0 0 + 1) % 2 ^ 32 ∧ rdF t 1 H_STAT_LATCH_GSC 0 0 = bits b 10 32 ∧ getTimer t tmPeriod = b
      ∧ Only [.gsc, .regs, .timers, .statReset] s t)))
  ∧ (∀ xs dt s, let u := advance s dt
    let ps := (xs.take 15).map (fun x => x.1 * x.2)
    let early := s.pins.powerGood = false ∨ u.gsc < getTimer s tmRail + 10000
    Canon s → (early → exec (.railSample xs dt) s = .next u)
    ∧ (¬early → Does (.railSample xs dt) s (fun t => t.rails = (ps :: s.rails).take 100 ∧ getTimer t tmRail = u.gsc
      ∧ (∀ i, i ∈ t.railBad ↔ i < 15 ∧ ∃ x, xs[i]? = some x ∧ railOut i x.2 ≠ 0)
      ∧ ((∀ i x, xs[i]? = some x → railOut i x.2 ≠ 0 → i ∉ s.railBad) → (∀ i < ps.length, getFi t PW_RAIL_CW 0 i = railMean t.rails i % 2 ^ 18)
        ∧ t.energyRem = (s.energyRem + 10 * sumNat ps) % 1000000000
        ∧ getF t PW_ENERGY 0 = (getF s PW_ENERGY 0 + (s.energyRem + 10 * sumNat ps) / 1000000000) % 2 ^ 64
        ∧ Only [.gsc, .regs, .timers, .rails, .railBad, .energyRem, .wear] s t)
      ∧ (∀ i x, isolated s 103 = false → (getDom s 103).phase = 0 → i < 15 → xs[i]? = some x → railOut i x.2 ≠ 0 → i ∈ s.railBad →
        (∀ j y, j < i → xs[j]? = some y → j ∈ s.railBad → railOut j y.2 = 0) →
        McRecords u t 0x1004 (i + 2 ^ 4 * railOut i x.2 + 2 ^ 16 * x.2) ∧ isolated t 103 = true))))
  ∧ (∀ ts dt s (T : Int), let u := advance s dt
    let early := s.pins.powerGood = false ∨ u.gsc < getTimer s tmTemp + 100000
    Canon s → (early → exec (.temperatureSample ts dt) s = .next u)
    ∧ (¬early → ts.length = 19 → (∀ i < 12, ∀ x, ts[i]? = some x → sext 12 x.toNat ≤ T) → (∃ i < 12, ∃ x, ts[i]? = some x ∧ sext 12 x.toNat = T) →
      Does (.temperatureSample ts dt) s (fun t => getTimer t tmTemp = u.gsc
        ∧ (T < 840 → ∀ i < 19, ∀ x, ts[i]? = some x → getFi t PW_TEMP_T 0 i = x.toNat)
        ∧ (T < 840 → 8 * alertC s ≤ T → flagF t PW_THERM_ALERT 0 = true)
        ∧ (8 * alertC s ≤ T → flagF s PW_THERM_ALERT 0 = false → Records u t (fun r => r.code = 0x1001 ∧ r.unit = 0x4A ∧ r.detail / 2 ^ 16 = wrapInt 12 T))
        ∧ (T < 8 * (alertC s - 3) → flagF t PW_THERM_ALERT 0 = false)
        ∧ (840 ≤ T → s.pins.stop ≠ 5 → isolated s 103 = false → (getDom s 103).phase = 0 → t.pins.stop = 5 ∧ isolated t 103 = true)
        ∧ (T < 720 → s.pins.stop = 5 → t.pins.stop = 0))))
  ∧ (∀ dt s, let u := advance s dt
    let T := (dieTemp s).1
    let cap := max 600 (getF s PW_CAP_WATTS 0)
    let moves := fun (t : State) (f : Fld) (rise fall : Prop) (tUp tDn up : Nat) => let v := getF s f 0
      let goesUp := rise ∧ v < 12 ∧ getTimer s tUp + up ≤ u.gsc
      (goesUp → getF t f 0 = v + 1) ∧ (¬goesUp → fall → 0 < v → getTimer s tDn + 1000000 ≤ u.gsc → getF t f 0 = v - 1)
      ∧ (¬goesUp → ¬(fall ∧ 0 < v ∧ getTimer s tDn + 1000000 ≤ u.gsc) → getF t f 0 = v)
    Canon s → Does (.pacingLevelStep dt) s (fun t =>
      moves t PW_PACE_THERMAL (8 * throttleC s ≤ T) (T < 8 * (throttleC s - 2)) tmTherm tmThermDn 100000
      ∧ moves t PW_PACE_CAP (100 * cap < totalPower s) (totalPower s < 100 * (cap - 50)) tmCapUp tmCapDn 10000
      ∧ (let want := max (min 12 (getF s PW_PACE_MIN 0)) (max (getF t PW_PACE_THERMAL 0) (getF t PW_PACE_CAP 0))
        let v := getF s PW_PACE_LEVEL 0
        getF t PW_PACE_LEVEL 0 = if v = want ∨ u.gsc < getTimer s tmEff + 10000 then v else if v < want then v + 1 else v - 1)
      ∧ Only [.gsc, .regs, .timers] s t))
  ∧ (∀ xs dt s, let u := advance s dt
    Canon s → (u.gsc < getTimer s tmPath + 10000000000 → exec (.pathDelaySample xs dt) s = .next u)
    ∧ (getTimer s tmPath + 10000000000 ≤ u.gsc → xs.length ≤ 72 → (∀ x ∈ xs, x.length = 8) → Does (.pathDelaySample xs dt) s (fun t =>
      (∀ p x, xs[p]? = some x → getFi t AG_TILE_MARGIN 0 p = (x.map (·.toNat)).foldl min 255
        ∧ ∀ m y, x[m]? = some y → (wearAt t (8 * p + m)).sum = (wearAt s (8 * p + m)).sum + y.toNat ∧ (wearAt t (8 * p + m)).n = (wearAt s (8 * p + m)).n + 1)
      ∧ Only [.gsc, .regs, .timers, .wear] s t)))
  ∧ (∀ dt s, let u := advance s dt
    Canon s → (u.gsc < getTimer s tmAge + 86400000000000 → exec (.ageingPrediction dt) s = .next u)
    ∧ (getTimer s tmAge + 86400000000000 ≤ u.gsc → Does (.ageingPrediction dt) s (fun t => getTimer t tmAge = u.gsc
      ∧ (let es := ageEntries t ++ [minOf (ageEntries t)]
        let lim := getF s AG_CFG_WARN_MONTHS 0
        (∀ i m, es[i]? = some m → getFi t (if i % 2 = 0 then AG_EOL_EOL_LO else AG_EOL_EOL_HI) 0 (i / 2) = m
          ∧ (m < lim → mapGet (fun _ => false) t.warned i = true) ∧ (lim < m → mapGet (fun _ => false) t.warned i = false))
        ∧ (∀ i m, es[i]? = some m → m < lim → mapGet (fun _ => false) s.warned i = false → (∀ j y, j < i → es[j]? = some y → lim ≤ y) →
          McRecords u t 0x1003 (i + 2 ^ 16 * m)))
      ∧ (∀ p < 72, getFi t AG_TILE_EOL 0 p = tileMonths t p) ∧ (∀ k w, (k, w) ∈ s.wear → k < 2000 → (wearAt t k).days = ((w.sum, w.n) :: w.days).take 90)
      ∧ Only [.gsc, .regs, .timers, .wear, .warned, .eb, .mem, .poison] s t)))

/-- SERVE, IDLE, LEND, LEND with RESTORE, RELEASE, RESUME and IMAGE act in the states that the table of lending states allows, once kindling has ended and while no LEND runs its teardown and no BIST runs, and set CMD_ERR otherwise. LEND begins the teardown with its generation, RELEASE and RECALL ask every engine of the job to quiesce, RECALL records the notice and refuses the requests held, RESUME sets QUIESCED engines going. A recall notice is held through a LEND's teardown, turns away a RELEASE of the same GCLK cycle, and changes nothing in the other states. MG_LEND_CFG takes only DEADLINE_S in RECALLING and HANDOVER before the cutoff. (R432, R433, R434, R435, R437, R439, R440, R447, R448, R452, R454, R499) -/
def Obligations.LendingCommands : Prop :=
  ∀ s, let err := setF s MG_LEND_STATUS_CMD_ERR 0 1
    let st := lendState s
    Canon s → (pageUp s 1 0 = false → ∀ c, (c ∈ [Instr.serve, .idle, .image, .resumeJob] ∨ (∃ g, c = .lend g ∨ c = .lendRestore g)
      ∨ (∃ b, c = .recallCommand b ∨ c = .release b) ∨ ∃ v, c = .mgLendCfgWrite v) → exec c s = .next s)
    ∧ (pageUp s 1 0 = true →
    (lendOpen s = true → st = 0 → Does .serve s (fun t => lendState t = 1 ∧ RegsBut [fKey MG_LEND_STATUS_STATE 0] s t ∧ Only [.regs] s t))
    ∧ (lendOpen s = false ∨ st ≠ 0 → exec .serve s = .next err)
    ∧ (lendOpen s = false ∨ st ≠ 1 → exec .idle s = .next err)
    ∧ (lendOpen s = true → st = 1 →
      (s.perm = [] → s.bistDue = false → Does .idle s (fun t => lendState t = 0 ∧ RegsBut [fKey MG_LEND_STATUS_STATE 0] s t ∧ Only [.regs] s t))
      ∧ (s.perm = [] → s.bistDue = true → s.test = none → Does .idle s (fun t => lendState t = 0 ∧ t.test = some ⟨127, 1⟩ ∧ t.bistDue = false))
      ∧ (∀ p l, s.perm = [p] → p < 72 → logOf s p = some l → spareTile s = none → Does .idle s (fun t => lendState t = 0 ∧ physOf t l = none
        ∧ ptileOf t p = 4 ∧ t.perm = [])))
    ∧ (∀ (g : BitVec 8) c after, (c, after) ∈ [(Instr.lend g, 0), (.lendRestore g, 2)] →
      let ok := lendOpen s = true ∧ st = 0 ∧ g ≠ 0 ∧ g.toNat ≠ jobGen s
      (¬ok → exec c s = .next err)
      ∧ (ok → Does c s (fun t => jobGen t = g.toNat ∧ (∀ i < 6, getF t MC_JOB_GEN_GEN i = g.toNat) ∧ flagF t MC_MIRROR_CFG_EN 6 = false
        ∧ lendState t = 0 ∧ t.lend = { s.lend with tear := 1, tearGen := g.toNat, tearSince := s.gsc, after := after, oldGen := jobGen s, notice := none }
        ∧ (after = 2 → getF t MG_LEND_STATUS_REJECT 0 = 0) ∧ Only [.regs, .folio, .mark, .lend] s t)))
    ∧ (∀ target, let c := Instr.recallCommand target
      let lending := s.lend.tear = 0 ∨ s.lend.after = 1
      (¬lending → s.lend.notice = none → exec c s = .next { s with lend := { s.lend with notice := some (s.gsc, target) } })
      ∧ (¬lending → s.lend.notice.isSome = true → exec c s = .next s)
      ∧ (lending → (st = 2 ∨ justReleased s s.gsc = true) → Does c s (fun t => lendState t = 3 ∧ getF t MG_RECALL_AT_GSC 0 = s.gsc % 2 ^ 64 ∧ AskedToQuiesce s t
        ∧ t.lend.target = target ∧ t.lend.image = 0 ∧ t.lend.release = false ∧ flagF t MG_LEND_STATUS_QUIESCED 0 = false ∧ t.folio.held = []
        ∧ (st ≠ 2 → flagF t MG_LEND_STATUS_CMD_ERR 0 = true)
        ∧ (∃ ks, t.router.inject = s.router.inject ++ ks ∧ ks.length = s.folio.held.length ∧ ∀ k ∈ ks, k.typ = 9 ∧ k.payload = nackBytes 0x0702) ∧ t.mem = s.mem))
      ∧ (lending → st ∈ [0, 1, 3] → exec c s = .next s)
      ∧ (lending → st = 4 → justReleased s s.gsc = false → exec c s = .next s)
      ∧ (lending → st = 5 → getF s MG_KIND_STATUS_STAGE 0 = 5 → exec c s = .next err))
    ∧ (st ≠ 3 ∨ s.lend.image ≠ 0 → exec .image s = .next err)
    ∧ (st = 3 → s.lend.image = 0 → (flagF s MG_LEND_STATUS_QUIESCED 0 = false → exec .image s = .next { s with lend := { s.lend with image := 1 } })
      ∧ (flagF s MG_LEND_STATUS_QUIESCED 0 = true → Does .image s (fun t => t.lend = { s.lend with image := 2 } ∧ getTimer t tmImage = s.gsc
        ∧ getF t MG_IMAGE_LEFT_BYTES 0 = imageTotal s % 2 ^ 64 ∧ Only [.regs, .lend, .timers] s t)))
    ∧ (∀ target, (lendOpen s = false ∨ st ≠ 2 → exec (.release target) s = .next err)
      ∧ (lendOpen s = true → st = 2 → Does (.release target) s (fun t => lendState t = 4 ∧ t.lend.release = true ∧ t.lend.target = target ∧ t.lend.image = 0
        ∧ AskedToQuiesce s t ∧ t.mem = s.mem ∧ Only [.regs, .engines, .lend] s t)))
    ∧ (lendOpen s = false ∨ st ≠ 2 → exec .resumeJob s = .next err)
    ∧ (lendOpen s = true → st = 2 → Does .resumeJob s (fun t => t.lend.sink = false
      ∧ (∀ e, (getEng s e).st = .quiesced → (getEng s e).resumeSt = .running → (getEng s e).wait = none → (getEng s e).fwait = none →
        (getEng t e).st = .running ∧ (getEng t e).quiesceReq = false)
      ∧ ∀ e, (getEng s e).st = .faulted → (getEng t e).st = .faulted))
    ∧ (∀ v : Word, let k := regKey 1 0 MG_LEND_CFG_DEADLINE_S.off
      let c := Instr.mgLendCfgWrite v
      (st ≠ 3 → st ≠ 4 → Does c s (fun t => regGet t k = BitVec.ofNat 64 (v.toNat % 2 ^ 13) ∧ RegsBut [k] s t ∧ Only [.regs] s t))
      ∧ ((st = 3 ∨ st = 4) → cutoff s ≤ s.gsc → exec c s = .next err)
      ∧ ((st = 3 ∨ st = 4) → s.gsc < cutoff s → let same := bits v.toNat 8 5 = bits (regGet s k).toNat 8 5
        Does c s (fun t => getF t MG_LEND_CFG_DEADLINE_S 0 = bits v.toNat 0 8 ∧ getF t MG_LEND_CFG_RESERVE_S 0 = getF s MG_LEND_CFG_RESERVE_S 0
          ∧ (same → t = setF s MG_LEND_CFG_DEADLINE_S 0 (bits v.toNat 0 8)) ∧ (¬same → flagF t MG_LEND_STATUS_CMD_ERR 0 = true) ∧ Only [.regs] s t))))

/-- A teardown goes from its drain to its fence when every outstanding count is zero, or after 10 ms with DRAIN_LATE, and ends once no packet or write of the old generation is held: the new generation shows and the GW7 enters LENDING, RECALLING where a notice was held, or zeroises. ALL_QUIESCED sets QUIESCED and sends the event, begins an image asked for, or hands over a release; QUIESCE_DEADLINE stops what has not quiesced in 250 ms. The image's end, and the cutoff, hand over, the latter with a record; RECALL_RISK_CHECK flags a projected end past the cutoff once. ZEROISATION_COMPLETE zeroes what the job could have touched, keeps every other frame, logs the hand-over and enters the target state; a zero write that fails twice ends in FAULTED. (R434, R435, R438, R440, R441, R443, R449, R450, R451, R452, R453) -/
def Obligations.TeardownRecallZeroisation : Prop :=
  (∀ s, isolated s 103 = true → (∀ c, c ∈ [Instr.teardownDrainEnd, .teardownFence, .allQuiesced, .recallImageComplete, .zeroisationComplete] → exec c s = .next s)
    ∧ ∀ dt c, c ∈ [Instr.drainLate dt, .quiesceDeadline dt, .recallCutoff dt, .recallRiskCheck dt] → exec c s = .next (advance s dt))
  ∧ (∀ s, isolated s 103 = false → Canon s →
    (s.lend.tear ≠ 1 ∨ drainedAll s = false → exec .teardownDrainEnd s = .next s)
    ∧ (s.lend.tear = 1 → drainedAll s = true → exec .teardownDrainEnd s = .next { s with lend := { s.lend with tear := 2 } })
    ∧ (∀ dt, let u := advance s dt
      let late := s.lend.tear = 1 ∧ drainedAll s = false ∧ s.lend.tearSince + 10000000 ≤ u.gsc
      (¬late → exec (.drainLate dt) s = .next u)
      ∧ (late → Does (.drainLate dt) s (fun t => t.lend = { s.lend with tear := 2 } ∧ flagF t MG_LEND_STATUS_DRAIN_LATE 0 = true ∧ Only [.gsc, .regs, .lend] s t)))
    ∧ (s.lend.tear ≠ 2 ∨ fenceHeld s = true → exec .teardownFence s = .next s)
    ∧ (s.lend.tear = 2 → fenceHeld s = false → s.lend.tearGen < 256 →
      (s.lend.after = 1 → Does .teardownFence s (fun t => getF t MG_LEND_STATUS_GEN 0 = s.lend.tearGen ∧ t.lend = { s.lend with tear := 0, zeroing := true, retried := false }
        ∧ getF t MG_ZERO_FRAMES_FRAMES 0 = zeroCount s % 2 ^ 18 ∧ Only [.regs, .folio, .lend] s t))
      ∧ (s.lend.after = 0 → s.lend.notice = none → Does .teardownFence s (fun t => getF t MG_LEND_STATUS_GEN 0 = s.lend.tearGen ∧ lendState t = 2 ∧ t.lend.tear = 0
        ∧ t.lend.sink = false ∧ (∀ p, inRegion s p = true → mapGet (fun _ => false) t.touched p = true) ∧ Only [.regs, .folio, .lend, .touched] s t))
      ∧ (s.lend.after = 2 → s.lend.notice = none → Does .teardownFence s (fun t => getF t MG_LEND_STATUS_GEN 0 = s.lend.tearGen ∧ lendState t = 2 ∧ t.lend.sink = true
        ∧ t.lend.sinkBuf = [] ∧ t.lend.sinkOff = 0 ∧ t.lend.secs = 0 ∧ ∀ e, (getEng t e).st = .halted))
      ∧ (∀ n, s.lend.after ≠ 1 → s.lend.notice = some n → Does .teardownFence s (fun t => lendState t = 3 ∧ getF t MG_RECALL_AT_GSC 0 = n.1 % 2 ^ 64 ∧ t.lend.target = n.2
        ∧ t.lend.notice = none)))
    ∧ (quiescing s = false ∨ allQuiesced s = false → exec .allQuiesced s = .next s)
    ∧ (quiescing s = true → allQuiesced s = true →
      (s.lend.release = false → Does .allQuiesced s (fun t => flagF t MG_LEND_STATUS_QUIESCED 0 = true ∧ t.lend.gscQuiesced = s.gsc ∧ Delivers s t (.lending 1)
        ∧ lendState t = lendState s ∧ t.lend.image = (if s.lend.image = 1 ∨ flagF s MG_LEND_CFG_AUTO_IMAGE 0 = true then 2 else s.lend.image)
        ∧ EngsBut [] s t ∧ t.mem = s.mem))
      ∧ (s.lend.release = true → Does .allQuiesced s (fun t => HandsOver s t ∧ Delivers s t (.lending 1))))
    ∧ (∀ dt, let u := advance s dt
      let late := quiescing s = true ∧ s.lend.tearSince + 250000000 ≤ u.gsc ∧ notAtRest s ≠ []
      (¬late → exec (.quiesceDeadline dt) s = .next u)
      ∧ (late → Does (.quiesceDeadline dt) s (fun t => (∀ i ∈ notAtRest s, (getEng t (engOf i)).st = .faulted) ∧ McRecords u t 0x0701 2
        ∧ lendState t = lendState s ∧ ∀ e, (∀ i ∈ notAtRest s, engOf i ≠ e) → getEng t e = getEng s e)))
    ∧ (let may := lendState s = 3 ∧ s.lend.image = 2 ∧ s.gsc ≤ cutoff s ∧ isolated s 102 = false
      (¬may → exec .recallImageComplete s = .next s)
      ∧ (may → Does .recallImageComplete s (fun t => HandsOver s t ∧ flagF t MG_LEND_STATUS_IMAGE_DONE 0 = true ∧ getF t MG_IMAGE_LEFT_BYTES 0 = 0
        ∧ (∃ n, (n, EbEvent.lending 2) ∈ t.eb.events)
        ∧ ∃ bs, (∀ m ∈ imageMsgs bs, m ∈ t.eb.out) ∧ getF t MG_IMAGE_BYTES 0 = bs.length % 2 ^ 64 ∧ bs.take 8 = [0x47, 0x57, 0x37, 0x52, 0x49, 0x4D, 0x47, 0x31])))
    ∧ (∀ dt, let u := advance s dt
      let c := Instr.recallCutoff dt
      (lendState s ≠ 3 ∨ u.gsc < cutoff s → exec c s = .next u)
      ∧ (lendState s = 3 → cutoff s ≤ u.gsc → s.lend.image ≠ 2 → Does c s (fun t => HandsOver s t ∧ McRecords u t 0x0703 2))
      ∧ (lendState s = 3 → cutoff s ≤ u.gsc → s.lend.image = 2 → settleSync u = u → Does c s (fun t => HandsOver s t ∧ McRecords u t 0x0703 1
        ∧ flagF t MG_LEND_STATUS_INCOMPLETE 0 = true)))
    ∧ (∀ dt, let u := advance s dt
      let c := Instr.recallRiskCheck dt
      let due := lendState s = 3 ∧ s.lend.image = 2 ∧ getTimer s tmRisk ≤ u.gsc
      let past := 50 * cutoff s < 50 * (u.gsc + 100000000) + (getF s MG_IMAGE_LEFT_BYTES 0 - imageSent u)
      (¬due → exec c s = .next u)
      ∧ (due → Does c s (fun t => getTimer t tmRisk = getTimer s tmRisk + 1000000000 ∧ lendState t = 3
        ∧ (past → s.lend.risked = false → flagF t MG_LEND_STATUS_RISK 0 = true ∧ t.lend.risked = true ∧ McRecords u t 0x0701 1)
        ∧ (¬past ∨ s.lend.risked = true → t = setTimer u tmRisk (getTimer s tmRisk + 1000000000)))))
    ∧ (let may := lendState s = 4 ∧ s.lend.zeroing = true ∧ s.migr = none
      let c := Instr.zeroisationComplete
      (¬may → exec c s = .next s)
      ∧ (may → zeroFault s ≠ 0 → s.lend.retried = false → exec c s = .next { s with lend := { s.lend with retried := true } })
      ∧ (may → zeroFault s ≠ 0 → s.lend.retried = true → Does c s (fun t => lendState t = 5 ∧ McRecords s t 0x0704 (zeroFault s) ∧ t.lend.zeroing = false))
      ∧ (may → zeroFault s = 0 → s.perm = [] → s.bistDue = false → Does c s (fun t => lendState t = (if s.lend.target then 1 else 0)
        ∧ (∀ a, zeroAddr s a = true → memByte t a = 0 ∧ isBad t a = false) ∧ (∀ a < hbmTop, zeroFrame s (a / 2 ^ 21) = false → memByte t a = memByte s a)
        ∧ (∀ e, getEng t e = Engine.reset) ∧ (∀ x, getCtx t x = BaCtx.reset) ∧ (∀ p, getFrame t p = Frame.reset) ∧ t.folio.xlat = []
        ∧ (∀ e : Eng, ∀ n < 32, getG t e n = 0) ∧ (∀ p < 72, ∀ n < 256, getCtr t p n = 0)
        ∧ t.touched = [] ∧ t.lend = Lend.reset ∧ getF t MG_ZERO_FRAMES_FRAMES 0 = 0
        ∧ (∃ r ∈ t.ledger, r.kind = 5 ∧ r.gsc = s.gsc ∧ r.data = [s.lend.oldGen, zeroCount s, s.gsc]) ∧ Delivers s t (.lending 3)))))

/-- DIGEST_TILE_DONE forms the CRC of a tile's regions, signals its counter and, for the last tile, ends the round with the chip digest and the message to the next rank. DIGEST_MESSAGE is compared with the own round of its mark, held ahead of it, or dropped; DIGEST_LATE ends the first round that has waited 1 s. TL_DIGEST_RGN_WRITE takes effect only while the tile's engines are stopped. CV_START, CV_ARM and CV_COMBINE need an idle unit that digests do not reserve, CV_DISARM an armed one, CV_CONFIG_WRITE an idle one; a START checks the configuration, an ARM takes 1 of its counter once there. A run or a combination ends with RAW, RESULT and the comparison, or stops on a poisoned word. (R468, R469, R470, R471, R472, R480, R481, R482, R485, R486, R488, R489) -/
def Obligations.DigestsCheckValues : Prop :=
  (∀ (p : Fin 72) s, let bs := digestBytes s p
    let rest := s.digest.reading.filter (· != p.val)
    let ends := p.val ∈ s.digest.reading ∧ isolated s p = false
    let torn := s.digest.torn || bs.any (·.bad)
    let c := digestCe s
    let size := getF s CE_RING_SIZEM1 c + 1
    Canon s → (¬ends → exec (.digestTileDone p) s = .next s)
    ∧ (ends → Does (.digestTileDone p) s (fun t => getF t TL_DIGEST_ST_BUSY p = 0 ∧ t.digest.reading = rest ∧ t.digest.torn = torn
      ∧ (getTile t p).pend = (getTile s p).pend ++ [⟨getF s MG_DIGEST_CFG_CTR 0, 1, .unit 0⟩] ∧ (getTile t p).digestBusy = false
      ∧ (∀ l < 64, logOf s p = some l → getFi t MG_DIGEST_TILE_CRC 0 l = (crc64From 0 (bs.map (·.b))).toNat)
      ∧ ((∃ x ∈ bs, x.bad = true) → flagF t TL_DIGEST_ST_TORN p = true ∧ flagF t MG_DIGEST_STATUS_TORN 0 = true)
      ∧ TilesBut [p.val] s t ∧ EngsBut [] s t ∧ ∀ a < ashBase, memByte t a = memByte s a))
    ∧ (ends → rest ≠ [] → Does (.digestTileDone p) s (fun t => t.digest.rounds = s.digest.rounds ∧ Only [.regs, .tiles, .digest] s t))
    ∧ (ends → rest = [] → size = 1 → Does (.digestTileDone p) s (fun t => getF t MG_DIGEST_MARK_MARK 0 = s.digest.mark % 2 ^ 32
      ∧ getF t MG_DIGEST_CRC 0 = chipDigest t % 2 ^ 64 ∧ t.digest.rounds = s.digest.rounds ∧ Only [.regs, .tiles, .digest] s t))
    ∧ (ends → rest = [] → size ≠ 1 → (∀ m ∈ s.digest.msgs, m.2.1 ≠ s.digest.mark) → Does (.digestTileDone p) s (fun t =>
      getF t MG_DIGEST_MARK_MARK 0 = s.digest.mark % 2 ^ 32 ∧ getF t MG_DIGEST_CRC 0 = chipDigest t % 2 ^ 64 ∧ getF t MG_DIGEST_STATUS_STATE 0 = 2
      ∧ (∃ r, t.digest.rounds = s.digest.rounds ++ [r] ∧ r.mark = s.digest.mark ∧ r.chip.toNat = getF t MG_DIGEST_CRC 0 ∧ r.torn = torn ∧ r.ended = s.gsc
        ∧ r.tiles = (List.range 64).map (fun i => BitVec.ofNat 64 (getFi t MG_DIGEST_TILE_CRC 0 i))
        ∧ ∃ ks, t.router.inject = s.router.inject ++ ks
          ∧ (∀ k ∈ ks, k.typ = 6 ∧ k.dst = epId (getFi s CE_NODE_NODE c ((getF s CE_RING_RANK c + 1) % size)) 0x4A ∧ k.payload.length ≤ 256)
          ∧ (ks.flatMap (·.payload)).map (·.b) = bytesOf 4 r.mark ++ bytesOf 8 r.chip.toNat ++ (if torn then [] else r.tiles.flatMap (fun d => bytesOf 8 d.toNat))))))
  ∧ (∀ (node : BitVec 16) (mark : Word) (chip : DWord) tiles s, let c := Instr.digestMessage node mark chip tiles
    let ce := digestCe s
    let size := getF s CE_RING_SIZEM1 ce + 1
    let prev := (getF s CE_RING_RANK ce + size - 1) % size
    let mine := s.digest.rounds.find? (fun r => r.mark == mark.toNat)
    let drop (t : State) := t.digest.rounds = s.digest.rounds.filter (fun r => r.mark != mark.toNat)
    Canon s → (size = 1 ∨ node.toNat ≠ getFi s CE_NODE_NODE ce prev → exec c s = .next s)
    ∧ (size ≠ 1 → node.toNat = getFi s CE_NODE_NODE ce prev →
      (mine = none → mark.toNat ≤ getF s MG_DIGEST_MARK_MARK 0 → exec c s = .next s)
      ∧ (mine = none → getF s MG_DIGEST_MARK_MARK 0 < mark.toNat →
        exec c s = .next { s with digest := { s.digest with msgs := s.digest.msgs ++ [(node.toNat, mark.toNat, chip, tiles)] } })
      ∧ ∀ r, mine = some r →
        (r.torn = true ∨ tiles = [] → Does c s (fun t => drop t ∧ RegsBut [fKey MG_DIGEST_STATUS_STATE 0] s t ∧ Only [.regs, .digest] s t))
        ∧ (r.torn = false → tiles ≠ [] →
          (r.chip = chip → (∀ i < 64, r.tiles[i]? = tiles[i]?) → Does c s (fun t => drop t ∧ getF t MG_DIGEST_PEER_CRC 0 = chip.toNat
            ∧ flagF t MG_DIGEST_STATUS_MISMATCH 0 = flagF s MG_DIGEST_STATUS_MISMATCH 0 ∧ Only [.regs, .digest] s t))
          ∧ ∀ first, ((first < 64 ∧ r.tiles[first]? ≠ tiles[first]? ∧ ∀ i < first, r.tiles[i]? = tiles[i]?)
              ∨ (first = 0xFF ∧ r.chip ≠ chip ∧ ∀ i < 64, r.tiles[i]? = tiles[i]?)) →
            Does c s (fun t => drop t ∧ getF t MG_DIGEST_PEER_CRC 0 = chip.toNat ∧ flagF t MG_DIGEST_STATUS_MISMATCH 0 = true
              ∧ McRecords s t 0x0501 (node.toNat + 2 ^ 16 * getF s CE_RING_RANK ce + 2 ^ 24 * prev + 2 ^ 32 * first + 2 ^ 40 * (mark.toNat % 2 ^ 24))))))
  ∧ (∀ dt s, let u := advance s dt
    Canon s → (s.digest.rounds = [] → exec (.digestLate dt) s = .next u)
    ∧ ∀ r rest, s.digest.rounds = r :: rest → (u.gsc < r.ended + 1000000000 → exec (.digestLate dt) s = .next u)
      ∧ (r.ended + 1000000000 ≤ u.gsc → Does (.digestLate dt) s (fun t => t.digest.rounds = rest ∧ flagF t MG_DIGEST_STATUS_LATE 0 = true
        ∧ flagF t MG_DIGEST_STATUS_MISMATCH 0 = flagF s MG_DIGEST_STATUS_MISMATCH 0 ∧ McRecords u t 0x0502 (digestPeer s + 2 ^ 40 * (r.mark % 2 ^ 24)))))
  ∧ (∀ (p : Fin 72) (i : Fin 2) (v : DWord) s, let k := regKey 2 p (0xC0 + 8 * i.val)
    let c := Instr.tlDigestRgnWrite p i v
    let may := ∀ e : EngKind, (getEng s (.tile p e)).st ∈ [EState.halted, .loaded, .quiesced]
    Canon s → (pageUp s 2 p = false → exec c s = .next s)
    ∧ (pageUp s 2 p = true → (¬may → exec c s = .next (setF s TL_DIGEST_ST_WR_REJ p 1))
      ∧ (may → Does c s (fun t => bits (regGet t k).toNat 0 22 = bits v.toNat 0 22 ∧ bits (regGet t k).toNat 32 23 = bits v.toNat 32 23
        ∧ RegsBut [k] s t ∧ Only [.regs] s t))))
  ∧ (∀ (p : Fin 72) (u : Fin 2) s, let st := cvState s p u
    let up := pageUp s 2 p = true
    let idle := st = 0 ∧ (u = 0 ∨ flagF s MG_DIGEST_CFG_EN 0 = false)
    let err := setFi s TL_CV_STATUS_CMD_ERR p u 1
    let ctr := getFi s TL_CV_TRIG_CTR p u
    Canon s → (pageUp s 2 p = false → ∀ c, c ∈ [Instr.cvStart p u, .cvArm p u, .cvDisarm p u, .cvCombine p u] ∨ (∃ off v, c = .cvConfigWrite p u off v) → exec c s = .next s)
    ∧ (up → ¬idle → ∀ c ∈ [Instr.cvStart p u, .cvArm p u, .cvCombine p u], exec c s = .next err)
    ∧ (up → idle → (CvUnfit s p u → Does (.cvStart p u) s (fun t => CvRefuses s t p u ∧ Only [.regs, .tiles] s t))
      ∧ (¬CvUnfit s p u → Does (.cvStart p u) s (fun t => cvState t p u = 2 ∧ TilesBut [p.val] s t ∧ Only [.tiles] s t))
      ∧ (getCtr s p ctr = 0 → Does (.cvArm p u) s (fun t => cvState t p u = 1 ∧ TilesBut [p.val] s t ∧ Only [.tiles] s t))
      ∧ (1 ≤ getCtr s p ctr → Does (.cvArm p u) s (fun t => cvState t p u = 4 ∧ getCtr t p ctr = getCtr s p ctr - 1 ∧ RegsBut [ctrKey p ctr] s t
        ∧ TilesBut [p.val] s t ∧ Only [.regs, .tiles] s t))
      ∧ Does (.cvCombine p u) s (fun t => cvState t p u = 3 ∧ TilesBut [p.val] s t ∧ Only [.tiles] s t))
    ∧ (up → st = 1 → Does (.cvDisarm p u) s (fun t => cvState t p u = 0 ∧ TilesBut [p.val] s t ∧ Only [.tiles] s t))
    ∧ (up → st ≠ 1 → exec (.cvDisarm p u) s = .next err)
    ∧ (∀ (off : Fin 128) (v : DWord), let k := regKey 2 p (0x100 + 0x80 * u.val + off.val)
      let c := Instr.cvConfigWrite p u off v
      let known := off.val ∈ [0x04, 0x0C, 0x10, 0x18, 0x20, 0x38, 0x40]
      up → (¬known → exec c s = .next s) ∧ (known → st ≠ 0 → exec c s = .next err)
      ∧ (known → st = 0 → Does c s (fun t => (∀ i < 64, (regGet t k).getLsbD i = (v.getLsbD i && (match off.val with
          | 0x04 => decide (i < 30)
          | 0x0C => decide (i < 8 ∨ (16 ≤ i ∧ i < 32))
          | 0x38 => decide (i < 22 ∨ (32 ≤ i ∧ i < 55))
          | _ => true))) ∧ RegsBut [k] s t ∧ Only [.regs] s t)))
    ∧ (let w := cvW s p u
      let poly := getFi s TL_CV_POLY_P p u
      let base := getFi s TL_CV_REGION_BASE p u
      let len := getFi s TL_CV_REGION_LEN p u
      let fold := getFi s TL_CV_CFG_FOLD p u
      let init := if getFi s TL_CV_CFG_CONT p u = 1 then getFi s TL_CV_RAW_R p u else getFi s TL_CV_INIT_I p u
      let ws := tileRead s p base len
      let begins := (st = 2 ∨ (st = 4 ∧ ¬CvUnfit s p u)) ∧ isolated s p = false
      let whole := begins ∧ ∀ x, mapGet (fun _ => []) (getTile s p).cvOld (2 ^ 18 * u.val + x) = []
      let runs := [Instr.cvRunComplete p u, .cvPoisonStop p u]
      (st ≠ 3 ∨ isolated s p = true → exec (.cvCombineComplete p u) s = .next s)
      ∧ (st = 3 → isolated s p = false → Does (.cvCombineComplete p u) s (fun t =>
        CvEnds s t p u (cvShift w (poly % 2 ^ w) (getFi s TL_CV_RAW_R p u % 2 ^ w) len ^^^ (getFi s TL_CV_INIT_I p u % 2 ^ w))))
      ∧ (st ∉ [2, 4] ∨ (st = 2 ∧ isolated s p = true) → ∀ c ∈ runs, exec c s = .next s)
      ∧ (st = 4 → CvUnfit s p u → ∀ c ∈ runs, Does c s (fun t => CvRefuses s t p u ∧ Only [.regs, .tiles] s t))
      ∧ (begins → Does (.cvRunComplete p u) s (fun t => CvIdle s t p u))
      ∧ (whole → ∀ off, ws.findIdx? (·.bad) = some off → ∀ c ∈ runs, Does c s (fun t => CvStops s t p u off))
      ∧ (whole → ws.findIdx? (·.bad) = none →
        Does (.cvRunComplete p u) s (fun t => CvEnds s t p u (cvRaw w poly (getFi s TL_CV_CFG_REF p u == 1) (init % 2 ^ w)
          (cvFold fold (if fold = 1 then base else getFi s TL_CV_SEQ_SEQ0 p u) (ws.map (·.b)))))
        ∧ Does (.cvPoisonStop p u) s (fun t => cvState t p u = 2 ∧ TilesBut [p.val] s t ∧ Only [.tiles] s t))))

/-- MG_CLASS_CMD is refused while BUSY and for an absent tile; CLASS_COMMAND_COMPLETE answers by the ledger in a small slice, asks for repetition in a large one, or records the verdict given, and substitutes a permanent tile. MIGRATE and REPLACE begin a move onto a SPARE; TILE_MIGRATION_COMPLETE waits until the source has stopped, then switches the map, carries state, store and held packets across, and zeroes the source; a replacement leaves the target zeroed. TILE_ROTATION moves the next tile out at an allowed moment; TILE_TEST_COMPLETE makes a tile SPARE, runs it again, or retires it. TEST_ROTATION and TEST_BIST begin or defer; BIST_COMPLETE records. MIRROR_PUSH sends the region's lines; a fence record stores its mark. (R475, R476, R492, R494, R495, R497, R498, R499, R501, R503, R507, R509) -/
def Obligations.ClassificationSparing : Prop :=
  (∀ (lt : Fin 64) s, Canon s → ∀ c rec, (c, rec) ∈ [(Instr.classAsk lt, 0), (.classRecordTransient lt, 1), (.classRecordPermanent lt, 2), (.classRecordSparePermanent lt, 3)] →
    (pageUp s 1 0 = false → exec c s = .next s)
    ∧ (pageUp s 1 0 = true → (flagF s MG_CLASS_STATUS_BUSY 0 = true → exec c s = .next (setF s MG_CLASS_STATUS_CMD_ERR 0 1))
      ∧ (flagF s MG_CLASS_STATUS_BUSY 0 = false → (physOf s lt = none → Does c s (fun t => t.classCmd = s.classCmd ∧ McRecords s t 0x0101 lt.val))
        ∧ (physOf s lt ≠ none → Does c s (fun t => t.classCmd = some (rec, lt.val) ∧ flagF t MG_CLASS_STATUS_BUSY 0 = true
          ∧ RegsBut [fKey MG_CLASS_STATUS_BUSY 0] s t ∧ Only [.regs, .classCmd] s t)))))
  ∧ (∀ s, let c := Instr.classCommandComplete
    (s.classCmd = none → exec c s = .next s)
    ∧ ∀ rec lt p, Canon s → s.classCmd = some (rec, lt) → physOf s lt = some p → p < 72 → let was := (repeated s lt).getD p
      let size := max 1 (getF s MG_SLICE_SIZE 0)
      let n := silentEvents s p + 1
      let v := if max 1 (getF s MG_CLASS_CFG_LIMIT 0) ≤ n then 2 else 1
      Does c s (fun t => t.classCmd = none ∧ flagF t MG_CLASS_STATUS_BUSY 0 = false)
      ∧ (rec = 0 → size ≤ getF s MG_CLASS_CFG_SLICE_MAX 0 → Does c s (fun t => t.ledger = s.ledger ++ [⟨6, p, s.gsc, [lt]⟩, ⟨3, p, s.gsc, [v]⟩]
        ∧ getF t MG_CLASS_STATUS_VERDICT 0 = v ∧ flagF t MG_CLASS_STATUS_METHOD 0 = false ∧ getF t MG_CLASS_STATUS_EVENTS 0 = min n 255
        ∧ McRecords s t 0x0506 (v * 2 ^ 32) ∧ (v = 1 → t.perm = s.perm ∧ t.migr = s.migr) ∧ (v = 2 → Substitutes s t p)))
      ∧ (rec = 0 → getF s MG_CLASS_CFG_SLICE_MAX 0 < size → Does c s (fun t => t.classRep = s.classRep.filter (fun x => x / 128 != lt) ++ [128 * lt + p]
        ∧ getF t MG_CLASS_STATUS_VERDICT 0 = 0 ∧ flagF t MG_CLASS_STATUS_METHOD 0 = true ∧ Only [.regs, .classRep, .classCmd] s t))
      ∧ (rec = 1 → Does c s (fun t => t.ledger = s.ledger ++ [⟨3, was, s.gsc, [1]⟩] ∧ getF t MG_CLASS_STATUS_VERDICT 0 = 1
        ∧ flagF t MG_CLASS_STATUS_METHOD 0 = false ∧ McRecords s t 0x0506 (2 ^ 32) ∧ t.perm = s.perm ∧ t.migr = s.migr))
      ∧ (rec = 2 → Does c s (fun t => t.ledger = s.ledger ++ [⟨3, was, s.gsc, [2]⟩] ∧ getF t MG_CLASS_STATUS_VERDICT 0 = 2
        ∧ flagF t MG_CLASS_STATUS_METHOD 0 = false ∧ McRecords s t 0x0506 (2 * 2 ^ 32) ∧ (was ≠ p → t.perm = s.perm ∧ t.migr = s.migr) ∧ (was = p → Substitutes s t p)))
      ∧ (rec = 3 → Does c s (fun t => t.ledger = s.ledger ++ [⟨3, p, s.gsc, [2]⟩, ⟨3, was, s.gsc, [1]⟩] ∧ getF t MG_CLASS_STATUS_VERDICT 0 = 1
        ∧ McRecords s t 0x0506 (2 * 2 ^ 32) ∧ Substitutes s t p)))
  ∧ (∀ (lt : Fin 64) (phys : BitVec 7) s, let target := if phys = 0x7F then spareTile s else if phys.toNat < 72 ∧ ptileOf s phys.toNat = 1 then some phys.toNat else none
    Canon s → ∀ c repl, (c, repl) ∈ [(Instr.migrate lt phys, false), (.replace lt phys, true)] →
    (pageUp s 1 0 = false → exec c s = .next s)
    ∧ (pageUp s 1 0 = true → let barred := getF s MG_KIND_STATUS_STAGE 0 < 5 ∨ s.migr.isSome = true
      (barred ∨ ((physOf s lt).isSome = true ∧ target = none) → exec c s = .next (setF s MG_SPARE_STATUS_CMD_ERR 0 1))
      ∧ (¬barred → physOf s lt = none → Does c s (fun t => flagF t MG_SPARE_STATUS_CMD_ERR 0 = true ∧ McRecords s t 0x0101 lt.val ∧ t.migr = none))
      ∧ ∀ src dst, ¬barred → physOf s lt = some src → target = some dst → Does c s (fun t => MoveBegins s t lt.val src dst repl false
        ∧ Only [.engines, .ptile, .migr] s t)))
  ∧ (∀ s, let c := Instr.tileMigrationComplete
    Canon s → s.update = none → (s.migr = none → exec c s = .next s)
    ∧ ∀ m, s.migr = some m → let ready := m.repl = true ∨ (isolated s m.src = false ∧ isolated s m.dst = false
        ∧ (∀ k < 4, k ∈ m.pend → (getEng s (tileEng m.src k)).st ∉ [EState.running, .waiting, .armed]) ∧ (∀ u < 2, cvState s m.src u < 2)
        ∧ ∀ k < 4, (getEng s (tileEng m.src k)).sigs = [])
      (¬ready → exec c s = .next s)
      ∧ (ready → s.perm = [] → m.src < 72 → m.dst < 72 → m.src ≠ m.dst →
        Does c s (fun t => t.migr = none ∧ physOf t m.lt = some m.dst ∧ ptileOf t m.dst = 0 ∧ TileZeroed t m.src
          ∧ ∃ more, t.router.arrived = s.router.arrived ++ (getTile s m.src).held ++ more)
        ∧ (m.repl = true → Does c s (fun t => TileZeroed t m.dst ∧ ptileOf t m.src = 4 ∧ (getDom t m.dst).gen = ((getDom s m.dst).gen + 1) % 256
          ∧ ((∀ x < 64, ∀ k < 4, inMask s x (4 * m.lt + k) = false) → TileRecords s t 0x0F01 m.src (m.lt + 2 ^ 8 * m.src + 2 ^ 16 * m.dst + 2 ^ 24 * 2))))
        ∧ (m.repl = false → Does c s (fun t => ptileOf t m.src = (if m.rot then 2 else if m.upd then 3 else 4)
            ∧ (m.rot = true → t.test = some ⟨m.src, 1⟩ ∧ getF t MG_TEST_STATUS_STATE 0 = 1)
            ∧ (∀ k < 4, lendState s ≠ 3 → lendState s ≠ 4 → k ∈ m.pend → let g := getEng s (tileEng m.src k)
              g.st = .quiesced → g.resumeSt = .running → g.wait = none → g.fwait = none → (getEng t (tileEng m.dst k)).st = .running)
            ∧ (∀ i < 0x400000, memByte t (tsAddr m.dst i) = memByte s (tsAddr m.src i) ∧ isBad t (tsAddr m.dst i) = isBad s (tsAddr m.src i))
            ∧ (lendState s = 3 ∨ lendState s = 4 ∨ m.pend = [] → TileMoved s t m.src m.dst)
            ∧ (m.pend = [] → TileRecords s t 0x0F01 m.src (m.lt + 2 ^ 8 * m.src + 2 ^ 16 * m.dst + 2 ^ 24))))))
  ∧ (∀ dt s, let u := advance s dt
    let c := Instr.tileRotation dt
    let due := s.testDue = true ∨ (flagF s MG_ROT_CFG_EN 0 = true ∧ getTimer s tmRot + rotPeriod s ≤ u.gsc)
    let moment (p : Nat) := (lendState s = 2 ∧ getTimer s tmMark ≠ 0 ∧ u.gsc ≤ getTimer s tmMark + 1)
      ∨ (lendState s = 1 ∧ ∀ k < 4, (getEng s (tileEng p k)).st ∈ [EState.halted, .loaded]
        ∨ ((getEng s (tileEng p k)).st = .armed ∧ u.gsc + 15000000 ≤ (getEng s (tileEng p k)).launch.toNat))
    Canon s → (¬due ∨ s.migr.isSome = true ∨ s.test.isSome = true ∨ rotSource s = none ∨ spareTile s = none → exec c s = .next u)
    ∧ ∀ p dst, due → s.migr = none → s.test = none → rotSource s = some p → spareTile s = some dst → (¬moment p → exec c s = .next u)
      ∧ (moment p → ∀ l, logOf s p = some l → Does c s (fun t => MoveBegins u t l p dst false true ∧ t.rotNext = (p + 1) % 72 ∧ t.testDue = false
        ∧ getTimer t tmRot = u.gsc)))
  ∧ (∀ pass s, let c := Instr.tileTestComplete pass
    Canon s → (s.test = none ∨ (∃ x, s.test = some x ∧ 72 ≤ x.phys) → exec c s = .next s)
    ∧ ∀ x, s.test = some x → x.phys < 72 → (pass = true → s.perm = [] ∨ s.migr.isSome = true → Does c s (fun t => t.test = none ∧ ptileOf t x.phys = 1
        ∧ getF t MG_TEST_STATUS_STATE 0 = 3 ∧ TileZeroed t x.phys ∧ t.ledger = s.ledger ++ (if x.run = 2 then [⟨3, x.phys, s.gsc, [1]⟩] else [])))
      ∧ (pass = false → x.run = 1 → Does c s (fun t => t.test = some ⟨x.phys, 2⟩ ∧ t.ptile = s.ptile ∧ t.ledger = s.ledger
        ∧ ∃ prog < 64, TileRecords s t 0x0F05 x.phys (prog + 2 ^ 8)))
      ∧ (pass = false → x.run ≠ 1 → Does c s (fun t => t.test = none ∧ ptileOf t x.phys = 4 ∧ getF t MG_TEST_STATUS_STATE 0 = 4
        ∧ t.ledger = s.ledger ++ [⟨3, x.phys, s.gsc, [2]⟩] ∧ ∃ prog < 64, TileRecords s t 0x0F05 x.phys (prog + 2 ^ 8 * 2))))
  ∧ (∀ (node : BitVec 16) s, let idle := lendState s = 0 ∧ getF s MG_KIND_STATUS_STAGE 0 = 5 ∧ s.test = none
    let k := fKey MG_TEST_STATUS_STATE 0
    Canon s → (pageUp s 1 0 = false → ∀ c ∈ [Instr.testRotation, .testBist, .mirrorPush node], exec c s = .next s)
    ∧ (pageUp s 1 0 = true →
      ((spareTile s).isSome = true → exec .testRotation s = .next { s with testDue := true })
      ∧ (spareTile s = none → Does .testRotation s (fun t => t.testDue = true ∧ getF t MG_TEST_STATUS_STATE 0 = 2 ∧ RegsBut [k] s t ∧ Only [.regs, .testDue] s t))
      ∧ (idle → Does .testBist s (fun t => t.test = some ⟨127, 1⟩ ∧ t.bistDue = false ∧ getF t MG_TEST_STATUS_STATE 0 = 1 ∧ RegsBut [k] s t ∧ Only [.regs, .test, .bistDue] s t))
      ∧ (¬idle → Does .testBist s (fun t => t.bistDue = true ∧ getF t MG_TEST_STATUS_STATE 0 = 2 ∧ RegsBut [k] s t ∧ Only [.regs, .bistDue] s t))
      ∧ (let c := Instr.mirrorPush node
        let count := getF s MC_MIRROR_REGION_COUNT 6
        let may := s.push = [] ∧ lendState s ≠ 3 ∧ lendState s ≠ 4
        let line (i : Nat) := getF s MC_MIRROR_REGION_FIRST 6 * 2 ^ 21 + 256 * i
        (¬may → exec c s = .next (setF s MG_MIRROR_PUSH_ERR 0 1))
        ∧ (may → count = 0 → Does c s (fun t => t.push = [] ∧ McRecords s t 0x0F06 node.toNat))
        ∧ (may → count ≠ 0 → Does c s (fun t => t.push = (List.range (8192 * count)).map line ∧ t.pushNode = node.toNat ∧ t.pushBad = 0
          ∧ ∃ ks, t.router.inject = s.router.inject ++ ks ∧ ks.length = 4096
            ∧ ∀ i < 4096, ∃ k, ks[i]? = some k ∧ k.typ = 5 ∧ k.dst = epId node.toNat 0x48 ∧ k.addr = BitVec.ofNat 40 (line i) ∧ k.payload = readBytes s (line i) 256)))))
  ∧ (∀ failed s, let c := Instr.bistComplete failed
    let bad := failed.map (·.val)
    Canon s → (s.test = none ∨ (∃ x, s.test = some x ∧ x.phys ≠ 127) → exec c s = .next s)
    ∧ ∀ x, s.test = some x → x.phys = 127 → Does c s (fun t => t.test = none ∧ getF t MG_TEST_STATUS_STATE 0 = (if failed = [] then 3 else 4)
        ∧ t.ledger = s.ledger ++ ⟨8, 0x600, s.gsc, bad⟩ :: bad.map (fun p => ⟨3, p, s.gsc, [2]⟩))
      ∧ (∀ p, bad = [p] → Does c s (fun t => Substitutes s t p ∧ (logOf s p = none → ptileOf s p = 1 ∨ ptileOf s p = 2 → ptileOf t p = 4))))
  ∧ (∀ (node : BitVec 16) (mark : Word) s, let k := fKey MG_MIRROR_MARK_MARK 0
    let c := Instr.mirrorFenceRecord node mark
    let partner := flagF s MC_MIRROR_CFG_EN 6 = true ∧ node.toNat = getF s MC_MIRROR_PARTNER_NODE 6
    Canon s → (¬partner → exec c s = .next s) ∧ (partner → Does c s (fun t => getF t MG_MIRROR_MARK_MARK 0 = mark.toNat ∧ RegsBut [k] s t ∧ Only [.regs] s t)))

/-- DOMAIN_RESET_REQUEST isolates its domain, is held for 200 STALL_MS / 255 ms after the last reset, and sets CMD_ERR for a number past 103 or a domain being reset; RESET_HOLD_EXPIRE lets it go on. DEBUG_RING_TIMEOUT counts an access, or turns a migration into a replacement. COLLECTION_COMPLETE advances the generation and clears what the domain's row lists; DOMAIN_READY admits it, with its record. WDOG_KICK restarts the watchdog; MGC_WATCHDOG resets the MGC, or the chip on a second expiry within 60 s. STALE_GENERATION reports a grown count once a second. UPDATE_STAGE, its completion, UPDATE_APPLY, UPDATE_DROP and UPDATE_DONE check, stage, apply, drop and finish a firmware image. (R497, R518, R519, R520, R521, R523, R525, R526, R531, R532, R533, R534) -/
def Obligations.ResetsUpdates : Prop :=
  (∀ (d : BitVec 7) coll s, let n := d.toNat
    let c := Instr.domainResetRequest d coll
    let x := getDom s n
    let due := ∀ a, x.last = some a → a + resetHold s ≤ s.gsc
    Canon s → (pageUp s 1 0 = false → exec c s = .next s)
    ∧ (pageUp s 1 0 = true → (104 ≤ n ∨ isolated s n = true → exec c s = .next (setF s MG_RESET_STATUS_CMD_ERR 0 1))
      ∧ (n < 104 → isolated s n = false → (x.phase = 1 → exec c s = .next s)
        ∧ (x.phase = 0 → n ≠ 103 → ¬due → Does c s (fun t => getDom t n = { x with phase := 1, collect := coll, cause := 1 } ∧ Only [.doms] s t))
        ∧ (x.phase = 0 → n ≠ 103 → due → Does c s (fun t => ResetBegun s t n 1 coll ∧ getF t MG_RESET_STATUS_LAST 0 = n
          ∧ (n < 72 → (getTile t n).pend = []) ∧ (72 ≤ n → n < 78 → flagF t MC_STATUS_SELF_REFRESH (n - 72) = true ∧ flagF t MC_STATUS_TRAINED (n - 72) = false)
          ∧ (78 ≤ n → n < 96 → (getFlue t (n - 78)).step = 0 ∧ getF t FL_STATUS_STATE (n - 78) = 0)))
        ∧ (x.phase = 0 → n = 103 → Does c s (fun t => (∀ d', isolated t d' = true) ∧ (getDom t 103).phase = 2 ∧ (getDom t 103).cause = 1
          ∧ (getDom t 103).collect = coll ∧ t.resetQ = (if coll then [103] else []))))))
  ∧ (∀ (d : Fin 104) dt s, let u := advance s dt
    let x := getDom s d
    let c := Instr.resetHoldExpire d dt
    let due := x.phase = 1 ∧ (getDom s 103).phase < 2 ∧ ∃ a, x.last = some a ∧ a + resetHold s ≤ u.gsc
    Canon s → (¬due → exec c s = .next u) ∧ (due → d.val ≠ 103 → Does c s (fun t => ResetBegun u t d x.cause x.collect)))
  ∧ (∀ (d : Fin 104) dt s, let u := advance s dt
    let c := Instr.debugRingTimeout d dt
    let late := collecting s d = true ∧ getTimer s (tmAccess d) + 10000 ≤ u.gsc
    let copies := ∃ m, s.migr = some m ∧ m.src = d.val ∧ moveReady s m = true
    Canon s → (¬late → ¬copies → exec c s = .next u)
    ∧ (late → ¬copies → Does c s (fun t => getDom t d = { getDom s d with timeouts := (getDom s d).timeouts + 1 } ∧ getTimer t (tmAccess d) = u.gsc
      ∧ Only [.gsc, .doms, .timers] s t))
    ∧ (∀ m, ¬late → s.migr = some m → m.src = d.val → moveReady s m = true → exec c s = .next { u with migr := some { m with repl := true } }))
  ∧ (∀ (d : Fin 104) errs s, let x := getDom s d
    let c := Instr.collectionComplete ⟨d, errs⟩
    let ends := x.phase = 2 ∧ (x.collect = true → s.resetQ.head? = some d.val)
    Canon s → (¬ends → exec c s = .next s)
    ∧ (ends → d.val ≠ 103 → errs = [] → Does c s (fun t => DomainCleared s t d ∧ t.resetQ = if x.collect then s.resetQ.drop 1 else s.resetQ))
    ∧ (ends → d.val = 103 → Does c s (fun t => ChipCleared s t)))
  ∧ (∀ (d : Fin 104) ok s, let x := getDom s d
    let c := Instr.domainReady d ok
    let upd := x.cause = 5 ∧ ∃ b i, s.update = some (b, i) ∧ updDomain b i = some d.val
    let phys := if d.val < 72 then d.val else 0xFF
    Canon s → (x.phase ≠ 3 ∨ upd → exec c s = .next s)
    ∧ (x.phase = 3 → ¬upd → d.val ≠ 102 ∨ s.eb.mgcHeld = [] → Does c s (fun t => (getDom t d).phase = 0 ∧ (getDom t d).entry = none
      ∧ TileRecords s t 0x0407 phys (d.val + 2 ^ 8 * x.gen + 2 ^ 16 * dumpNumber s d) ∧ (∀ d', d' ≠ d.val → getDom t d' = getDom s d')
      ∧ (72 ≤ d.val → d.val < 78 → flagF t MC_STATUS_TRAINED (d.val - 72) = true ∧ flagF t MC_STATUS_SELF_REFRESH (d.val - 72) = false)
      ∧ (d.val < 72 → ok = false → t.ledger = s.ledger ++ [⟨3, d.val, s.gsc, [2]⟩] ∧ ∀ l dst, logOf s d = some l → s.perm = [] → s.migr = none
        → spareTile s = some dst → ∃ ask, t.migr = some ⟨l, d.val, dst, true, false, false, ask⟩))))
  ∧ (∀ s, Canon s → (pageUp s 1 0 = false → exec .wdogKick s = .next s)
    ∧ (pageUp s 1 0 = true → Does .wdogKick s (fun t => getTimer t tmKick = s.gsc ∧ Only [.timers] s t)))
  ∧ (∀ dt s, let u := advance s dt
    let c := Instr.mgcWatchdog dt
    let runs := 2 ≤ getF s MG_KIND_STATUS_STAGE 0 ∧ isolated s 102 = false ∧ getTimer s tmKick + 2000000000 ≤ u.gsc
    let second := getTimer s tmExpire ≠ 0 ∧ u.gsc ≤ getTimer s tmExpire + 60000000000
    let due := ∀ a, (getDom s 102).last = some a → a + resetHold s ≤ u.gsc
    Canon s → (¬runs → exec c s = .next u)
    ∧ (runs → Does c s (fun t => flagF t MG_WDOG_EXPIRED 0 = true ∧ getF t MG_WDOG_EXPIRIES 0 = satAdd 8 (getF s MG_WDOG_EXPIRIES 0) 1 ∧ getTimer t tmKick = u.gsc
      ∧ (second → (getDom s 103).phase = 0 → (getDom t 103).phase = 2 ∧ (getDom t 103).cause = 2 ∧ (getDom t 103).collect = true)
      ∧ (¬second → getTimer t tmExpire = u.gsc ∧ ((getDom s 102).phase = 0 → (getDom t 102).phase = (if due then 2 else 1) ∧ (getDom t 102).cause = 2
        ∧ getDom t 103 = getDom s 103)))))
  ∧ (∀ (d : Fin 104) dt s, let u := advance s dt
    let c := Instr.staleGeneration d dt
    let x := getDom s d
    let n := getFi s MG_DSTALE 0 d
    let no := n ≤ x.reported ∨ (getTimer s (tmStale d) ≠ 0 ∧ u.gsc < getTimer s (tmStale d) + 1000000000)
    Canon s → (no → exec c s = .next u)
    ∧ (¬no → Does c s (fun t => getDom t d = { x with reported := n } ∧ getTimer t (tmStale d) = u.gsc
      ∧ TileRecords u t 0x0401 (if d.val < 72 then d.val else 0xFF) (d.val + 2 ^ 32 * (n - x.reported)))))
  ∧ (∀ (blk : BitVec 16) img (inst : BitVec 8) s, let b := blk.toNat
    let i := inst.toNat
    let err := setF s MG_UPDATE_STATUS_CMD_ERR 0 1
    let early := getF s MG_KIND_STATUS_STAGE 0 < 5
    let barred := early ∨ lendState s = 3 ∨ lendState s = 4 ∨ s.update.isSome = true ∨ s.checking.isSome = true
    let listed := b ∈ [1, 2, 4, 7, 8, 9, 10, 11, 12]
    let fits := (∃ g, s.staged = some g ∧ g.block = blk) ∧ UpdateReady s b i ∧ ∀ d, updDomain b i = some d → isolated s d = false ∧ (getDom s d).phase = 0
    let apply := Instr.updateApply blk inst
    Canon s → (pageUp s 1 0 = false → ∀ c ∈ [Instr.updateStage blk img, apply, .updateDrop], exec c s = .next s)
    ∧ (pageUp s 1 0 = true → (barred ∨ ¬listed → exec (.updateStage blk img) s = .next err)
      ∧ (¬barred → listed → Does (.updateStage blk img) s (fun t => t.checking = some { img with headOk := img.headOk && decide (img.block = blk) } ∧ Only [.checking] s t))
      ∧ (early → exec .updateDrop s = .next err)
      ∧ (¬early → Does .updateDrop s (fun t => t.staged = none ∧ getF t MG_UPDATE_STATUS_STATE 0 = 0 ∧ Only [.regs, .staged] s t))
      ∧ (barred ∨ ¬fits → exec apply s = .next err)
      ∧ (¬barred → fits →
        (b = 9 → Does apply s (fun t => t.update = some (9, i) ∧ getF t MG_UPDATE_STATUS_STATE 0 = 3 ∧ Only [.regs, .update] s t))
        ∧ (∀ l dst, b = 2 ∨ b = 4 → ptileOf s i = 0 → logOf s i = some l → spareTile s = some dst → Does apply s (fun t => t.update = some (b, i)
          ∧ getF t MG_UPDATE_STATUS_STATE 0 = 2 ∧ ∃ ask, t.migr = some ⟨l, i, dst, false, false, true, ask⟩))
        ∧ (∀ d, listed → updDomain b i = some d → (b ≠ 2 ∧ b ≠ 4) ∨ (ptileOf s i ≠ 0 ∧ s.migr = none) → let due := ∀ a, (getDom s d).last = some a → a + resetHold s ≤ s.gsc
          Does apply s (fun t => t.update = some (b, i) ∧ getF t MG_UPDATE_STATUS_STATE 0 = 3 ∧ (due → ResetBegun s t d 5 true)
            ∧ (¬due → (getDom t d).phase = 1 ∧ (getDom t d).cause = 5 ∧ (getDom t d).collect = true))))))
  ∧ (∀ s, let c := Instr.updateStageComplete
    Canon s → (s.checking = none → exec c s = .next s)
    ∧ ∀ g, s.checking = some g → let good := g.headOk = true ∧ g.digOk = true ∧ g.sigOk = true ∧ mapGet (fun _ => 0) s.fuses g.block.toNat ≤ g.svn.toNat ∧ g.svn.toNat ≤ 32
      Does c s (fun t => t.checking = none ∧ t.staged = (if good then some g else s.staged) ∧ getF t MG_UPDATE_STATUS_STATE 0 = (if good then 1 else 6)
        ∧ Only [.regs, .staged, .checking] s t))
  ∧ (∀ s, let c := Instr.updateDone
    Canon s → (s.update = none ∨ s.staged = none → exec c s = .next s)
    ∧ ∀ b i g, s.update = some (b, i) → s.staged = some g → let ends := (b = 9 ∧ getF s MG_UPDATE_STATUS_STATE 0 = 3) ∨ ∃ d, updDomain b i = some d ∧ (getDom s d).phase = 3
      (¬ends → exec c s = .next s)
      ∧ (ends → b ≠ 1 ∨ s.eb.mgcHeld = [] → Does c s (fun t => t.update = none ∧ getF t MG_UPDATE_STATUS_STATE 0 = (if g.loads then 5 else 6)
        ∧ fwVersion t b i = (if g.loads then g.version.toNat else fwVersion s b i)
        ∧ (s.mrlog.length < 1024 → ∃ e, t.mrlog = s.mrlog ++ [e] ∧ e.reg = mrOf b ∧ e.block = b ∧ e.version = fwVersion t b i ∧ e.gsc = s.gsc)
        ∧ TileRecords s t (if g.loads then 0x0408 else 0x0409) (if b = 2 ∨ b = 4 then i else 0xFF) (b + 2 ^ 16 * i + 2 ^ 32 * fwVersion t b i)
        ∧ (∀ d, updDomain b i = some d → (getDom t d).phase = 0)
        ∧ (b = 2 ∨ b = 4 → i < 72 → logOf s i = none → s.perm = [] → ptileOf s i ∈ [1, 2, 3] → ptileOf t i = 1))))

/-- A rise of POWER_GOOD samples the straps and a fault of the rails; a fall leaves what R531 keeps; RESET_N low for 10 µs begins the whole-chip reset. Kindling goes through K0 to K5, each stage only after the one before and while nothing holds the boot: K0 latches fuses and straps, K1 chooses the MGC image or stops, K2 loads each block type, assigns the tiles and zeroes every frame, K4 takes node and plan, KINDLED reports. COMMIT raises a fused count; MR7 is extended on request; a neighbour's colophon request is queued or answered BUSY. The SMBus commands answer their bytes or a NACK. The JTAG instructions load the instruction register; EXTEST, CLAMP and HIGHZ act as BYPASS unless a pin holds the GW7. (R531, R532, R537, R542, R543, R544, R545, R549, R612, R613, R615, R616) -/
def Obligations.KindlingPins : Prop :=
  (∀ (straps : BitVec 8) (rails : Fin 3) s, let c := Instr.powerGoodRise straps rails
    Canon s → (s.pins.powerGood = true → exec c s = .next s)
    ∧ (s.pins.powerGood = false → Does c s (fun t =>
      t.pins = { s.pins with powerGood := true, straps := straps, stop := if rails ≠ 0 then rails.val else if straps.getLsbD 3 then 6 else 0 }
      ∧ (∀ f < 18, getF t FL_CFG_PRESET f = straps.toNat % 4 ∧ flagF t FL_CFG_WBYPASS f = straps.getLsbD 2) ∧ Only [.regs, .pins] s t)))
  ∧ (∀ s, Canon s → Does .powerGoodFall s (fun t => t.pins.powerGood = false ∧ t.gsc = 0 ∧ (∀ k, regGet t k = regDefault k) ∧ (∀ a, memByte t a = 0) ∧ (∀ e, getEng t e = Engine.reset)
    ∧ (∀ l, physOf t l = none) ∧ (∀ d, getDom t d = Dom.reset) ∧ t.ledger = s.ledger ∧ t.fuses = s.fuses ∧ t.lifetime = s.lifetime ∧ t.testset = s.testset ∧ t.wear = s.wear
    ∧ (∀ p, ptileOf t p = if ptileOf s p = 4 then 4 else 0)))
  ∧ (∀ lowUs s, let c := Instr.resetN lowUs
    let till := s.gsc + (lowUs - 10) * 1000
    Canon s → (lowUs < 10 ∨ s.pins.powerGood = false → exec c s = .next s)
    ∧ (10 ≤ lowUs → s.pins.powerGood = true → (isolated s 103 = true → Does c s (fun t => t.pins = { s.pins with lowTill := till } ∧ t.doms = s.doms))
      ∧ ((getDom s 103).phase = 0 → Does c s (fun t => t.pins = { s.pins with lowTill := till } ∧ (getDom t 103).phase = 2 ∧ (getDom t 103).cause = 6
        ∧ (getDom t 103).collect = true))))
  ∧ (∀ pll (fused : List (Fin 72)) small (id : DWord) digest s, let c := Instr.kindlingK0 pll fused small id digest
    let may := Boots s ∧ getF s MG_KIND_STATUS_STAGE 0 = 0
    Canon s → (¬may → exec c s = .next s) ∧ (may → pll = false → exec c s = .next { s with pins := { s.pins with stop := 3 } })
    ∧ (may → pll = true → Does c s (fun t => getF t MG_KIND_STATUS_STAGE 0 = 1 ∧ t.pins = { s.pins with small := small } ∧ getF t MG_DEVICE_ID_ID 0 = id.toNat
      ∧ (∀ p ∈ fused, ptileOf t p.val = 5) ∧ Extended s t 0 digest
      ∧ (∀ d < 104, (getDom t d).gen = if ashRd s 0 8 = 0x3130485341375747 then (getDom s d).gen else 1))))
  ∧ (∀ a b s, let c := Instr.kindlingK1 a b
    let may := Boots s ∧ getF s MG_KIND_STATUS_STAGE 0 = 1
    let goes (i : FwImage) (t : State) := getF t MG_KIND_STATUS_STAGE 0 = 2 ∧ fwVersion t 1 0 = i.version.toNat ∧ Extended s t 1 i.digest ∧ getTimer t tmKick = s.gsc
      ∧ getF t EB_STATUS_STATE 0 = if flagF s EB_CFG_EN 0 then 1 else 3
    Canon s → (¬may → exec c s = .next s)
    ∧ (may → ¬ImageValid s 1 a → ¬ImageValid s 1 b → exec c s = .next { s with pins := { s.pins with stop := 4 } })
    ∧ (may → ImageValid s 1 a → Does c s (fun t => goes a t ∧ t.eb.events = s.eb.events))
    ∧ (may → ¬ImageValid s 1 a → ImageValid s 1 b → Does c s (fun t => goes b t ∧ flagF t MG_KIND_STATUS_FALLBACK 0 = true
      ∧ ∃ cause ∈ [1, 2, 3, 4], McRecords s t 0x0802 (1 + 2 ^ 24 * cause))))
  ∧ (∀ images (failed : List (Fin 72)) (untrained : List (Fin 6)) s, let c := Instr.kindlingK2 images failed untrained
    let may := Boots s ∧ getF s MG_KIND_STATUS_STAGE 0 = 2 ∧ isolated s 102 = false
    Canon s → (¬may → exec c s = .next s)
    ∧ (may → Does c s (fun t => getF t MG_KIND_STATUS_STAGE 0 = 3 ∧ TilesAssigned s t (failed.map (·.val)) (if s.pins.small then 56 else 64)
      ∧ (∀ j < 8, ∀ b x, [2, 4, 7, 8, 9, 10, 11, 12][j]? = some b → images[j]? = some x → BlockLoaded s t b x)
      ∧ (∀ j < 8, ∀ b, [2, 4, 7, 8, 9, 10, 11, 12][j]? = some b → images[j]? = none → ∀ u, blkAbsent t b u = true)
      ∧ (∀ i : Fin 6, flagF t MC_STATUS_TRAINED i = !untrained.contains i) ∧ (∀ a < hbmTop, memByte t a = 0 ∧ isBad t a = false)
      ∧ reproKey t = (Config.sm3 (keyRecord t)).toNat ∧ ∀ f < 18, blkAbsent t 10 f = false → getF t FL_STATUS_STATE f = if flagF s FL_CFG_EN f then 1 else 5)))
  ∧ (∀ s, let may := Boots s ∧ getF s MG_KIND_STATUS_STAGE 0 = 3
    Canon s → (¬may → exec .kindlingK3 s = .next s)
    ∧ (may → Does .kindlingK3 s (fun t => getF t MG_KIND_STATUS_STAGE 0 = 4 ∧ RegsBut [fKey MG_KIND_STATUS_STAGE 0] s t ∧ Only [.regs] s t)))
  ∧ (∀ (node : BitVec 16) plan hash s, let c := Instr.kindlingK4 node plan hash
    let may := Boots s ∧ getF s MG_KIND_STATUS_STAGE 0 = 4 ∧ isolated s 102 = false
    Canon s → (¬may → exec c s = .next s)
    ∧ (may → Does c s (fun t => getF t RT_NODE_NODE 0 = node.toNat ∧ t.planned = true ∧ getF t MG_KIND_STATUS_STAGE 0 = 4
      ∧ (flagF s RT_STATUS_CAT_LIVE 0 = false → Extended s t 6 hash
        ∧ ∀ i < 8, (getSlot t i).2 = match plan[i]? with | some x => (x.device.getD 0, x.node.toNat) | none => (0, 0)))))
  ∧ (∀ s, let may := Boots s ∧ getF s MG_KIND_STATUS_STAGE 0 = 4 ∧ s.planned = true ∧ flagF s RT_STATUS_CAT_LIVE 0 = true ∧ joinDegraded s = false ∧ isolated s 102 = false
    Canon s → (¬may → exec .kindled s = .next s)
    ∧ (may → Does .kindled s (fun t => getF t MG_KIND_STATUS_STAGE 0 = 5 ∧ lendState t = 0 ∧ Delivers s t (.lending 4)
      ∧ ((getDom s 103).entry.isSome = true → (getDom t 103).entry = none ∧ (getDom t 103).phase = 0))))
  ∧ (∀ (blk : BitVec 16) s, let b := blk.toNat
    let svn := match fwUnits s b with | u :: _ => fwSvn s b u | [] => 0
    let may := b ∈ [1, 2, 4, 7, 8, 9, 10, 11, 12] ∧ flagF s MG_KEY_STATUS_MIXED 0 = false ∧ mapGet (fun _ => 0) s.fuses b < svn
    let c := Instr.commit blk
    Canon s → (pageUp s 1 0 = false → exec c s = .next s ∧ exec .mr7Extend s = .next s)
    ∧ (pageUp s 1 0 = true → (¬may → exec c s = .next (setF s MG_FW_CMD_CMD_ERR 0 1))
      ∧ (may → Does c s (fun t => mapGet (fun _ => 0) t.fuses b = svn ∧ (∀ b', b' ≠ b → mapGet (fun _ => 0) t.fuses b' = mapGet (fun _ => 0) s.fuses b') ∧ Only [.fuses] s t))
      ∧ (flagF s MG_MR_CMD_BUSY 0 = true → exec .mr7Extend s = .next (setF s MG_MR_CMD_CMD_ERR 0 1))
      ∧ (flagF s MG_MR_CMD_BUSY 0 = false → Does .mr7Extend s (fun t => (∃ d : BitVec 256, t.mrPend = some d ∧ ∀ i < 8, bits d.toNat (32 * i) 32 = getFi s MG_MR_DATA_D 0 i)
        ∧ flagF t MG_MR_CMD_BUSY 0 = true ∧ Only [.regs, .mrPend] s t))))
  ∧ (∀ s, Canon s → (s.mrPend = none → exec .mr7ExtendComplete s = .next s)
    ∧ ∀ d, s.mrPend = some d → Does .mr7ExtendComplete s (fun t => Extended s t 7 d ∧ t.mrPend = none ∧ flagF t MG_MR_CMD_BUSY 0 = false
      ∧ (∀ i < 7, mrValue t i = mrValue s i) ∧ (s.mrlog.length < 1024 → t.mrlog = s.mrlog ++ [⟨7, 0, 0, s.gsc, d.toNat⟩])
      ∧ (1024 ≤ s.mrlog.length → t.mrlog = s.mrlog ∧ flagF t MG_KIND_STATUS_LOG_FULL 0 = true) ∧ Only [.regs, .mrPend, .mrlog] s t))
  ∧ (∀ (f : Fin 18) nonce s, let c := Instr.neighbourColophonRequest f nonce
    let may := (getFlue s f).authed = true ∧ 2 ≤ getF s MG_KIND_STATUS_STAGE 0 ∧ isolated s 102 = false
    Canon s → (¬may → exec c s = .next s)
    ∧ (may → s.eb.colo.length < 16 → exec c s = .next { s with eb := { s.eb with colo := s.eb.colo ++ [(some f.val, 0, nonce)] } })
    ∧ (may → 16 ≤ s.eb.colo.length → Does c s (fun t => (∃ k, (getFlue t f).msgs = (getFlue s f).msgs ++ [k] ∧ k.typ = 6 ∧ k.payload = good [4]) ∧ FluesBut f s t ∧ Only [.flues] s t)))
  ∧ (∀ (addr : BitVec 40) s, let on := s.pins.powerGood = true ∧ s.pins.stop ≠ 4
    let tells (c : Instr) (bs : List Byte) := exec c s = .next { s with pins := { s.pins with smbOut := some bs, smbAddr := none } }
    let nacks (c : Instr) := exec c s = .next { s with pins := { s.pins with smbOut := none, smbAddr := none } }
    (on → exec (.smbAddressWrite addr) s = .next { s with pins := { s.pins with smbAddr := some addr } })
    ∧ (¬on → exec (.smbAddressWrite addr) s = .next s ∧ nacks .smbTemp ∧ nacks .smbPower ∧ nacks .smbRegRd)
    ∧ (s.pins.powerGood = false → nacks .smbStatus)
    ∧ (s.pins.powerGood = true → tells .smbStatus [BitVec.ofNat 8 (getF s MG_KIND_STATUS_STAGE 0), BitVec.ofNat 8 s.pins.stop, BitVec.ofNat 8 (lendState s),
      BitVec.ofNat 8 (getF s PW_THERM_ALERT 0 + (if anyPending s then 2 else 0) + 4 * getF s PW_THERM_CRIT 0)])
    ∧ (on → tells .smbTemp (bytesOf 2 (wrapInt 12 (dieTemp s).1)) ∧ tells .smbPower (bytesOf 4 (sumNat ((List.range 15).map (fun i => getFi s PW_RAIL_CW 0 i)))))
    ∧ (on → (s.pins.smbAddr = none ∨ getF s MG_KIND_STATUS_STAGE 0 < 2 → nacks .smbRegRd)
      ∧ ∀ a, s.pins.smbAddr = some a → 2 ≤ getF s MG_KIND_STATUS_STAGE 0 → (a.toNat < 0xF000000000 ∨ 0xF0FFFFFFFF < a.toNat ∨ a.toNat % 4 ≠ 0 → nacks .smbRegRd)
        ∧ ∀ u st v, readAt s a.toNat 4 = (u, st, v) → exec .smbRegRd s = .next { u with pins := { u.pins with smbOut := (if st = 0 then some (bytesOf 4 v) else none), smbAddr := none } }))
  ∧ (∀ cells s, let held := s.pins.powerGood = false ∨ s.gsc < s.pins.lowTill
    let loads (c : Instr) (op : BitVec 8) := exec c s = .next { s with pins := { s.pins with ir := op } }
    exec .idcode s = .next { s with pins := { s.pins with ir := 0x01, dr := if s.pins.small then 0x107565A7 else 0x107645A7 } }
    ∧ exec (.samplePreload cells) s = .next { s with pins := { s.pins with ir := 0x02, cells := cells } }
    ∧ loads .bypass 0xFF ∧ loads .jtagReset 0x01
    ∧ (held → loads .extest 0x03 ∧ loads .clamp 0x04 ∧ loads .highz 0x05) ∧ (¬held → loads .extest 0xFF ∧ loads .clamp 0xFF ∧ loads .highz 0xFF))

/-- EBOTH_FRAME_TRANSMIT sends HELLO while training; UP, a frame to be replayed, else the first message of the highest class whose credits cover it, else an idle frame, also while the retry buffer is full; a colophon asked for is formed then. EBOTH_FRAME_RECEIVED rejects a bad frame, counted, with one NAK of a run; a good one is acknowledged, its credits applied, its message held for its own command or, of an unlisted type, answered BAD_REQUEST; a NAK replays, or after 8 replays takes the link down. EBOTH_HELLO brings the link UP; loss, RESET and EN take it down or let it train; EBOTH_HOLD_EXPIRE begins a new port generation; EBOTH_LOST_RELEASE performs RELEASE; three failed trainings hold it. (R549, R576, R577, R578, R579, R581, R585, R586, R587, R588, R589) -/
def Obligations.EbothLink : Prop :=
  (∀ s, let st := getF s EB_STATUS_STATE 0
    let c := Instr.ebothFrameTransmit
    let first (k : Nat) := s.eb.out.find? (fun m => m.cls == k)
    let fits (m : EbMsg) := ebCost m.body.length ≤ s.eb.cred[m.cls - 1]?.getD 0
    let noColo := s.eb.colo.find? (fun x => x.1 == none) = none
    let quiet := st = 2 ∧ s.eb.replay = [] ∧ noColo
    let idles (t : State) := (∃ fr, FrameLeaves s t fr ∧ fr.kind = 0 ∧ fr.body = []) ∧ t.eb.sent = s.eb.sent ∧ t.eb.lseq = s.eb.lseq ∧ t.eb.out = s.eb.out ∧ t.eb.cred = s.eb.cred
    Canon s → (st ≠ 1 → st ≠ 2 → exec c s = .next s)
    ∧ (st = 1 → Does c s (fun t => (∃ fr, FrameLeaves s t fr ∧ fr.kind = 2 ∧ fr.a = BitVec.ofNat 64 (getF s MG_DEVICE_ID_ID 0)
      ∧ fr.b = BitVec.ofNat 64 (64 + 2 ^ 16 * 1024 + 2 ^ 32 * 1024 + 2 ^ 48 * 256)) ∧ t.eb.sent = s.eb.sent ∧ t.eb.lseq = s.eb.lseq ∧ Only [.regs, .eb] s t))
    ∧ (∀ r rest, st = 2 → s.eb.replay = r :: rest → Does c s (fun t => (∃ fr, FrameLeaves s t fr ∧ fr.lseq = r.lseq ∧ fr.mtype = r.mtype ∧ fr.tag = r.tag ∧ fr.body = r.body)
      ∧ t.eb.replay = rest ∧ t.eb.sent.map (·.1) = s.eb.sent.map (·.1) ∧ getF t EB_REPLAYS 0 = (getF s EB_REPLAYS 0 + 1) % 2 ^ 64 ∧ Only [.regs, .eb] s t))
    ∧ (quiet → (∀ k ∈ [1, 2, 3, 4], ∀ m, first k = some m → ¬fits m) → Does c s (fun t => idles t ∧ getF t EB_REPLAYS 0 = getF s EB_REPLAYS 0 ∧ Only [.regs, .eb] s t))
    ∧ (∀ k ∈ [1, 2, 3, 4], ∀ m, quiet → (∀ j ∈ [1, 2, 3, 4], j < k → ∀ m', first j = some m' → ¬fits m') → first k = some m → fits m →
      let n := sumNat (s.eb.sent.map (fun y => ebSize y.1)) + 40 + m.body.length
      (2 ^ 20 < n → Does c s (fun t => idles t ∧ getF t EB_REPLAYS 0 = (getF s EB_REPLAYS 0 + 1) % 2 ^ 64 ∧ Only [.regs, .eb] s t))
      ∧ (n ≤ 2 ^ 20 → Does c s (fun t => (∃ fr, FrameLeaves s t fr ∧ fr.kind = 1 ∧ fr.lseq = BitVec.ofNat 12 s.eb.lseq ∧ fr.mtype = BitVec.ofNat 8 m.mtype
          ∧ fr.status = BitVec.ofNat 8 m.status ∧ fr.tag = BitVec.ofNat 16 m.tag ∧ fr.a = BitVec.ofNat 64 m.a ∧ fr.b = BitVec.ofNat 64 m.b ∧ fr.body = m.body
          ∧ t.eb.sent = s.eb.sent ++ [(fr, 0)])
        ∧ t.eb.lseq = (s.eb.lseq + 1) % 4096 ∧ t.eb.out = s.eb.out.erase m ∧ t.eb.cred = subCred s.eb.cred k (ebCost m.body.length) ∧ Only [.regs, .eb] s t)))
    ∧ (∀ x, st = 2 → s.eb.replay = [] → isolated s 102 = false → s.eb.colo.find? (fun x => x.1 == none) = some x → let bs := colophonBody s false x.2.2
      Does c s (fun t => t.eb.colo = s.eb.colo.erase x ∧ t.eb.coloSeq = (s.eb.coloSeq + 1) % 2 ^ 32
        ∧ (x.2.1, (⟨1, 0x45, 0, x.2.1, 0, 0, bs ++ bytesOf 64 (Config.sign bs).toNat⟩ : EbMsg)) ∈ t.eb.tags)))
  ∧ (∀ fr ucw s, let st := getF s EB_STATUS_STATE 0
    let c := Instr.ebothFrameReceived fr ucw
    let bad := fr.crc ≠ ebCrc fr ∨ ucw = true ∨ fr.lseq.toNat ≠ s.eb.rseq ∨ fr.gen.toNat ≠ s.eb.portGen ∨ 2 < fr.kind.toNat ∨ 16384 < fr.body.length
    let known := fr.kind ≠ 1 ∨ (1 ≤ fr.mtype.toNat ∧ fr.mtype.toNat ≤ 10)
    let lost := fr.nak = true ∧ ∃ y ∈ s.eb.sent, acked fr.lack.toNat y.1.lseq.toNat = false ∧ 8 ≤ y.2
    let keep := s.eb.sent.filter (fun y => !acked fr.lack.toNat y.1.lseq.toNat)
    Canon s → (∀ r ∈ s.eb.reqs, 1 ≤ r.msg.mtype.toNat ∧ r.msg.mtype.toNat ≤ 10) →
    (st ≠ 2 → exec c s = .next s)
    ∧ (st = 2 → bad → Does c s (fun t => getF t EB_ERR_CRC_ERRORS 0 = satAdd 16 (getF s EB_ERR_CRC_ERRORS 0) 1
      ∧ t.eb = { s.eb with sendNak := s.eb.sendNak || !s.eb.naked, naked := true } ∧ Only [.regs, .eb] s t))
    ∧ (st = 2 → ¬bad → let got (t : State) := getF t EB_RX_BYTES 0 = (getF s EB_RX_BYTES 0 + 40 + fr.body.length) % 2 ^ 64
        ∧ t.eb.rseq = (if fr.kind = 1 then (s.eb.rseq + 1) % 4096 else s.eb.rseq)
      (known → ¬lost → Does c s (fun t => got t ∧ t.eb.naked = false ∧ t.eb.sent = keep ∧ t.eb.replay = (if fr.nak then keep.map (·.1) else s.eb.replay.filter (fun r => !acked fr.lack.toNat r.lseq.toNat))
        ∧ (∀ k ∈ [1, 2, 3, 4], s.eb.cred.length = 4 → t.eb.cred[k - 1]?.getD 0 = s.eb.cred[k - 1]?.getD 0 + credOf fr.cred k)
        ∧ t.eb.reqs = s.eb.reqs ++ (if fr.kind = 1 then [⟨fr, s.gsc⟩] else []) ∧ Only [.regs, .eb] s t))
      ∧ (known → lost → Does c s (fun t => got t ∧ getF t EB_STATUS_STATE 0 = (if flagF s EB_CFG_EN 0 then 1 else 3) ∧ McRecords s t 0x1101 (3 + 2 ^ 8 * 0xF)))
      ∧ (¬known → ¬lost → Does c s (fun t => got t ∧ t.eb.reqs = s.eb.reqs
        ∧ t.eb.out = s.eb.out ++ [⟨1, 0x42, 3, fr.tag.toNat, fr.a.toNat, 0, []⟩] ∧ getF t EB_ERR_BAD_REQ 0 = satAdd 16 (getF s EB_ERR_BAD_REQ 0) 1 ∧ Only [.regs, .eb] s t))))
  ∧ (∀ device (lack : BitVec 12) (credits : BitVec 64) dt s, let u := advance s dt
    let c := Instr.ebothHello device lack credits dt
    let past := s.eb.hello = true ∧ s.eb.downSince + holdCounts s ≤ u.gsc
    let keep := s.eb.sent.filter (fun y => !acked lack.toNat y.1.lseq.toNat)
    let size (k : Nat) := bits credits.toNat (16 * (k - 1)) 16
    let used (k : Nat) := sumNat ((keep.filter (fun y => ebClass y.1.mtype.toNat == k)).map (fun y => ebCost y.1.body.length))
    let up (t : State) := getF t EB_STATUS_STATE 0 = 2 ∧ getF t EB_STATUS_LOCKED 0 = 0xF ∧ t.eb.fails = 0 ∧ t.eb.hello = true
    Canon s → (getF s EB_STATUS_STATE 0 ≠ 1 → exec c s = .next u)
    ∧ (getF s EB_STATUS_STATE 0 = 1 → ¬past → Does c s (fun t => up t ∧ t.eb.sent = keep ∧ t.eb.replay = keep.map (·.1) ∧ t.eb.portGen = s.eb.portGen
      ∧ t.eb.cred = [size 1 - used 1, size 2 - used 2, size 3 - used 3, size 4 - used 4] ∧ Only [.gsc, .regs, .eb] s t))
    ∧ (getF s EB_STATUS_STATE 0 = 1 → past → Does c s (fun t => up t ∧ PortRestarts u t ∧ t.eb.cred = [size 1, size 2, size 3, size 4])))
  ∧ (∀ (lane : Option (Fin 4)) s, let c := Instr.ebothLossOfSignal lane
    Canon s → (getF s EB_STATUS_STATE 0 ≠ 2 → exec c s = .next s)
    ∧ (getF s EB_STATUS_STATE 0 = 2 → Does c s (fun t => match lane with | some l => LinkFalls s t 1 l | none => LinkFalls s t 2 0xF)))
  ∧ (∀ v s, let st := getF s EB_STATUS_STATE 0
    let en := flagF s EB_CFG_EN 0
    let up := pageUp s 14 0 = true
    Canon s → (pageUp s 14 0 = false → exec .ebReset s = .next s ∧ exec (.ebEnWrite v) s = .next s)
    ∧ (up → (st = 2 → Does .ebReset s (fun t => LinkFalls s t 4 0xF ∧ t.eb.fails = 0))
      ∧ (st = 0 → exec .ebReset s = .next { s with eb := { s.eb with fails := 0 } })
      ∧ (st = 1 ∨ st = 3 → Does .ebReset s (fun t => getF t EB_STATUS_STATE 0 = (if en then 1 else 3) ∧ t.eb = { s.eb with fails := 0 } ∧ Only [.regs, .eb] s t))
      ∧ (en = v → exec (.ebEnWrite v) s = .next s)
      ∧ (en ≠ v → st = 2 → v = false → Does (.ebEnWrite v) s (fun t => LinkFalls s t 4 0xF ∧ flagF t EB_CFG_EN 0 = false))
      ∧ (en ≠ v → st ≠ 2 ∨ v = true → Does (.ebEnWrite v) s (fun t => flagF t EB_CFG_EN 0 = v ∧ Only [.regs] s t
        ∧ getF t EB_STATUS_STATE 0 = (if v = true ∧ st = 3 ∧ s.eb.fails < 3 then 1 else if v = false ∧ st = 1 then 3 else st)))))
  ∧ (∀ dt s, let u := advance s dt
    let st := getF s EB_STATUS_STATE 0
    let past := st ≠ 2 ∧ s.eb.hello = true ∧ s.eb.downSince + holdCounts s ≤ u.gsc
    let n := getF s EB_CFG_LOST_S 0
    let lost := n ≠ 0 ∧ st ≠ 2 ∧ lendState s = 2 ∧ s.eb.downSince + n * 1000000000 ≤ u.gsc
    Canon s → (¬past → exec (.ebothHoldExpire dt) s = .next u)
    ∧ (past → Does (.ebothHoldExpire dt) s (fun t => PortRestarts u t ∧ t.eb.reqs = [] ∧ t.eb.hello = false ∧ getF t EB_STATUS_STATE 0 = st))
    ∧ (¬lost → exec (.ebothLostRelease dt) s = .next u)
    ∧ (lost → Does (.ebothLostRelease dt) s (fun t => lendState t = 4 ∧ t.lend.release = true ∧ t.lend.target = false ∧ AskedToQuiesce s t)))
  ∧ (∀ s, let c := Instr.ebothTrainFail
    Canon s → (getF s EB_STATUS_STATE 0 ≠ 1 → exec c s = .next s)
    ∧ (getF s EB_STATUS_STATE 0 = 1 → s.eb.fails < 2 → exec c s = .next { s with eb := { s.eb with fails := s.eb.fails + 1 } })
    ∧ (getF s EB_STATUS_STATE 0 = 1 → 2 ≤ s.eb.fails → Does c s (fun t => getF t EB_STATUS_STATE 0 = 3 ∧ t.eb = { s.eb with fails := s.eb.fails + 1 } ∧ Only [.regs, .eb] s t)))

/-- A request acts in its turn; then it leaves the buffer and its credits return. A LEN or body its type does not allow is answered BAD_REQUEST, a remembered tag with the same response; one for an MGC that resets is held, up to 16. REG_RD and REG_WR act as the register commands, PUT and GET on what the address reaches, each with its status; RECALL as the recall command at its arrival; COLO_REQ queues a nonce or is BUSY; SINK takes image bytes in order; TESTSET loads a set or rejects it; EVENT_ACK drops events, GRANULE_ACK ends a send; one unanswered for 10 ms is answered TIMEOUT. (R318, R447, R504, R525, R549, R579, R580, R581, R582, R583, R584) -/
def Obligations.EbothMessages : Prop :=
  (∀ m s r l l', s.eb.reqs = l ++ r :: l' → r.msg = m → (∀ x ∈ l, x.msg ≠ m) → ebArrival s m = r.since
    ∧ ebTake s m = { s with eb := { s.eb with reqs := l ++ l', ret := addCred s.eb.ret (ebClass m.mtype.toNat) (ebCost m.body.length) } })
  ∧ (∀ m s, (∀ r ∈ s.eb.reqs, r.msg ≠ m) → ebTake s m = s ∧ ebArrival s m = s.gsc)
  ∧ (∀ m s, Canon s → ∀ c ty, (c, ty) ∈ [(Instr.regRd m, 1), (.regWr m, 2), (.put m, 3), (.get m, 4), (.recall m, 5), (.coloReq m, 6), (.sink m, 7),
      (.testset m, 8), (.eventAck m, 9), (.granuleAck m, 10)] →
    let q := ebTake s m
    let away := isolated s 102 = true ∧ 5 ≤ ty ∧ ty ≤ 9
    let held := ∃ h ∈ s.eb.mgcHeld, h.1.tag = m.tag ∧ h.1.mtype = m.mtype ∧ ty ≠ 9
    (¬MayAct s m ty → exec c s = .next s)
    ∧ (MayAct s m ty → ¬Fits m → Does c s (fun t => AcksWrite q t m 3))
    ∧ (∀ r, MayAct s m ty → Fits m → ty ∉ [4, 9, 10] → remembered s m.tag.toNat = some r →
      Does c s (fun t => t.eb = { q.eb with out := q.eb.out ++ [r] } ∧ RegsBut [fKey EB_ERR_BAD_REQ 0] s t ∧ Only [.regs, .eb] s t
        ∧ getF t EB_ERR_BAD_REQ 0 = if r.status = 3 then satAdd 16 (getF s EB_ERR_BAD_REQ 0) 1 else getF s EB_ERR_BAD_REQ 0))
    ∧ (MayAct s m ty → Fits m → away → ty = 9 ∨ remembered s m.tag.toNat = none →
      (held → exec c s = .next q)
      ∧ (¬held → s.eb.mgcHeld.length < 16 → exec c s = .next { q with eb := { q.eb with mgcHeld := s.eb.mgcHeld ++ [(m, ebArrival s m)] } })
      ∧ (¬held → 16 ≤ s.eb.mgcHeld.length → (ty = 7 ∨ ty = 8 → Does c s (fun t => AcksWrite q t m 5))
        ∧ (ty = 6 → Does c s (fun t => Responds q t ⟨1, 0x45, 4, m.tag.toNat, 0, 0, []⟩)) ∧ (ty = 5 ∨ ty = 9 → exec c s = .next s))))
  ∧ (∀ m s, Canon s → let q := ebTake s m
    let A := m.a.toNat
    let n := m.len.toNat
    (Acts s m 1 → ∀ u st v, readAt q A n = (u, st, v) →
      Does (.regRd m) s (fun t => Responds u t ⟨1, 0x41, st, m.tag.toNat, A, 0, if st = 0 then bytesOf n v else []⟩)
      ∧ (A < 0xF000000000 ∨ 0xF100000000 ≤ A → u = q ∧ st = 2)
      ∧ (0xF000000000 ≤ A → A < 0xF100000000 → (A % n ≠ 0 → u = q ∧ st = 3) ∧ (A % n = 0 → (regPage A = none → u = q ∧ st = 2)
        ∧ ∀ b i o, regPage A = some (b, i, o) → (blkAbsent s b i = true → u = q ∧ st = 0 ∧ v = 0)
          ∧ (blkAbsent s b i = false → isolated s (pageDomain b i) = true → 0x40 ≤ o → u = q ∧ st = 1)
          ∧ (blkAbsent s b i = false → isolated s (pageDomain b i) = false ∨ o < 0x40 → st = 0 ∧ (∀ a : BitVec 40, a.toNat = A → exec (.registerReadClear a (n == 8)) q = .next u)
            ∧ v = if n = 4 then readWord q b i o else readWord q b i o + 2 ^ 32 * readWord q b i (o + 4)))))
    ∧ (Acts s m 2 → ∀ u st, writeAt q A n (ofBytes m.body) = (u, st) → Does (.regWr m) s (fun t => AcksWrite u t m st)
      ∧ (∀ a : BitVec 40, a.toNat = A → exec (.registerWrite a (n == 8) (BitVec.ofNat 64 (ofBytes m.body))) q = .next u)
      ∧ (A < 0xF000000000 ∨ 0xF100000000 ≤ A → u = q ∧ st = 2)
      ∧ (0xF000000000 ≤ A → A < 0xF100000000 → (A % n ≠ 0 → u = q ∧ st = 3) ∧ (A % n = 0 → (regPage A = none → u = q ∧ st = 2)
        ∧ ∀ b i o, regPage A = some (b, i, o) → (blkAbsent s b i = true → u = q ∧ st = 0) ∧ (blkAbsent s b i = false → isolated s (pageDomain b i) = true → u = q ∧ st = 1)
          ∧ (blkAbsent s b i = false → isolated s (pageDomain b i) = false → (n = 4 ∧ (∃ r k, regAt b i o = some (r, k) ∧ r.words = 2) → u = q ∧ st = 3)
            ∧ (¬(n = 4 ∧ ∃ r k, regAt b i o = some (r, k) ∧ r.words = 2) → st = 0)))))
    ∧ (Acts s m 3 → ∀ u st, putAt q A m.body = (u, st) → let pl := placeOf s A n
      let lands := (∀ i < n, (pl = .hbm → A + i < hbmTop) → memByte u (A + i) = m.body[i]?.getD 0)
        ∧ (∀ a < ashBase, (a < A ∨ A + n ≤ a) → (getFrame s (a / 2 ^ 21)).rstate ≠ 4 → memByte u a = memByte s a)
      let stays := ∀ a, memByte u a = memByte s a
      Does (.put m) s (fun t => AcksWrite u t m st)
      ∧ (pl = .nothing → u = q ∧ st = 2)
      ∧ (pl ≠ .nothing → A / 2 ^ 21 ≠ (A + n - 1) / 2 ^ 21 → u = q ∧ st = 3)
      ∧ (pl ≠ .nothing → A / 2 ^ 21 = (A + n - 1) / 2 ^ 21 → (pl = .hbm → lendState s = 3 → u = q ∧ st = 5)
        ∧ (¬(pl = .hbm ∧ lendState s = 3) → (placeIsolated s pl A n = true → u = q ∧ st = 1)
          ∧ (placeIsolated s pl A n = false → st = 0 ∧ (pl = .hbm → lands) ∧ (∀ p o, pl = .tile p o → lands) ∧ (pl = .absent ∨ pl = .ash → u = q)
            ∧ (∀ e o, pl = .imem e o → (imemOpen s e = true → lands) ∧ (imemOpen s e = false → stays ∧ getP u e P_PSTATE_IMEM_REJ = 1))
            ∧ (pl = .catalogue → let ed (i : Nat) := (A - 0xF300000000 + i) / 0x80000
              (editionLocked s (ed 0) = false → editionLocked s (ed (n - 1)) = false → lands)
              ∧ (editionLocked s (ed 0) = true → editionLocked s (ed (n - 1)) = true → stays ∧ flagF u RT_STATUS_CAT_REJ 0 = true))))))
    ∧ (Acts s m 4 → let k := bits m.b.toNat 0 15
      (k = 0 ∨ 16384 < k → Does (.get m) s (fun t => Responds q t ⟨3, 0x43, 3, m.tag.toNat, A, 0, []⟩))
      ∧ (1 ≤ k → k ≤ 16384 → ∀ u st off bs, getAt q A k = (u, st, off, bs) → let pl := placeOf s A k
        let none' (i : Nat) := pl = .absent ∨ (pl = .hbm ∧ hbmTop ≤ A + i)
        let bad (i : Nat) := ¬none' i ∧ isBad s (A + i) = true
        Does (.get m) s (fun t => Responds u t ⟨3, 0x43, st, m.tag.toNat, A, off, bs⟩) ∧ (∀ a, memByte u a = memByte s a)
        ∧ (pl = .nothing → st = 2 ∧ bs = [])
        ∧ (pl ≠ .nothing → A / 2 ^ 21 ≠ (A + k - 1) / 2 ^ 21 → st = 3 ∧ bs = [])
        ∧ (pl ≠ .nothing → A / 2 ^ 21 = (A + k - 1) / 2 ^ 21 → (placeIsolated s pl A k = true → st = 1 ∧ bs = [])
          ∧ (placeIsolated s pl A k = false → bs.length = k ∧ (∀ i < k, (bad i → bs[i]?.getD 0 = 0) ∧ (none' i → bs[i]?.getD 0 = 0)
              ∧ (¬none' i → ¬bad i → bs[i]?.getD 0 = memByte s (A + i)))
            ∧ ((∀ i < k, ¬bad i) → st = 0) ∧ ∀ i < k, bad i → (∀ j < i, ¬bad j) → st = 6 ∧ off = i))))
    ∧ (Acts s m 5 → let at0 := ebArrival s m
      let target := m.a.getLsbD 0
      let u := recallAt q at0 target
      Does (.recall m) s (fun t => Responds u t ⟨1, 0x44, 0, m.tag.toNat, if getF u MG_KIND_STATUS_STAGE 0 < 5 ∧ lendState u = 5 then 0 else lendState u, at0, []⟩)
      ∧ (at0 = s.gsc → pageUp s 1 0 = true → exec (.recallCommand target) q = .next u)
      ∧ (s.lend.tear = 0 → lendState s = 2 → lendState u = 3 ∧ getF u MG_RECALL_AT_GSC 0 = at0 % 2 ^ 64 ∧ AskedToQuiesce s u ∧ u.lend.target = target))
    ∧ (Acts s m 6 → let asked := ∃ nonce, (none, m.tag.toNat, nonce) ∈ s.eb.colo
      (getF s MG_KIND_STATUS_STAGE 0 < 2 ∨ asked → exec (.coloReq m) s = .next q)
      ∧ (2 ≤ getF s MG_KIND_STATUS_STAGE 0 → ¬asked → (s.eb.colo.length < 16 →
          exec (.coloReq m) s = .next { q with eb := { q.eb with colo := s.eb.colo ++ [(none, m.tag.toNat, BitVec.ofNat 256 (ofBytes m.body))] } })
        ∧ (16 ≤ s.eb.colo.length → Does (.coloReq m) s (fun t => Responds q t ⟨1, 0x45, 4, m.tag.toNat, 0, 0, []⟩))))
    ∧ (Acts s m 7 → ∀ u st, sinkBytes q A m.body = (u, st) → let follows := A = s.lend.sinkOff ∨ (s.lend.sinkOff < A ∧ s.lend.sinkBuf = [] ∧ 0 < s.lend.secs)
      let bs := s.lend.sinkBuf ++ m.body
      let waits (b : List Byte) := (s.lend.secs = 0 ∧ b.length < 256) ∨ (0 < s.lend.secs ∧ (b.length < 16 ∨ b.length < 16 + numAt b 4 4))
      Does (.sink m) s (fun t => AcksWrite u t m st)
      ∧ (s.lend.sink = false → u = q ∧ st = 5)
      ∧ (s.lend.sink = true → ¬follows → u = q ∧ st = 3)
      ∧ (s.lend.sink = true → follows → st = 0 ∧ (waits bs → u = { q with lend := { s.lend with sinkBuf := bs, sinkOff := A + m.body.length } })
        ∧ (s.lend.secs = 0 → bs.length = 256 → (headerFault s bs = 0 → u = { q with lend := { s.lend with sinkBuf := [], sinkOff := A + m.body.length, secs := 1 } })
          ∧ (headerFault s bs ≠ 0 → HandsOver s u ∧ u.lend.target = false ∧ u.lend.sink = false ∧ getF u MG_LEND_STATUS_REJECT 0 = headerFault s bs
            ∧ McRecords s u 0x0705 (headerFault s bs)))))
    ∧ (Acts s m 8 → let had := if A = 0 then [] else s.testbuf
      let b := had ++ m.body
      let total := if b.length < 128 then 128 else 128 + numAt b 20 4
      let fits := A = had.length ∧ total ≤ 2 ^ 22 ∧ b.length ≤ total
      let whole := 128 ≤ b.length ∧ b.length = total
      let c := if BitVec.ofNat 256 (numAt b 24 32) ≠ Config.sm3 (b.drop 128) then 1 else if Config.testSigOk (b.take 120) = false then 2
        else if numAt b 12 4 ≠ 0xA1 then 3 else if s.testset ≠ [] ∧ numAt b 8 4 ≤ numAt s.testset 8 4 then 4 else 0
      (¬fits → Does (.testset m) s (fun t => AcksWrite q t m 3))
      ∧ (fits → ¬whole → Does (.testset m) s (fun t => AcksWrite { q with testbuf := b } t m 0))
      ∧ (fits → whole → c = 0 → Does (.testset m) s (fun t => AcksWrite { q with testbuf := [], testset := b } t m 0))
      ∧ (fits → whole → c ≠ 0 → Does (.testset m) s (fun t => t.testset = s.testset ∧ t.testbuf = [] ∧ McRecords s t 0x0F04 c
        ∧ remembered t m.tag.toNat = some ⟨1, 0x42, 0, m.tag.toNat, A, 0, []⟩ ∧ (⟨1, 0x42, 0, m.tag.toNat, A, 0, []⟩ : EbMsg) ∈ t.eb.out)))
    ∧ (Acts s m 9 → Does (.eventAck m) s (fun t => let ev := s.eb.events.filter (fun e => A < e.1)
      t.eb = { q.eb with events := ev, lostQueued := t.eb.lostQueued } ∧ (t.eb.lostQueued = true ↔ ∃ e ∈ ev, ∃ r, e.2 = .fault r ∧ r.code = 0x1103) ∧ Only [.eb] s t))
    ∧ (Acts s m 10 → let vpn := bits A 0 19
      let g := bits A 32 5
      let mine (x : GranSend) := x.ended = true ∧ x.gran = g ∧ x.vpn = vpn
      ((∀ x, s.folio.sending = some x → ¬mine x) → exec (.granuleAck m) s = .next q)
      ∧ ∀ x, s.folio.sending = some x → mine x → let f := getFrame s x.pfn
        (f.vpn ≠ vpn → exec (.granuleAck m) s = .next { q with folio := { s.folio with sending := none } })
        ∧ (f.vpn = vpn → x.again = true → exec (.granuleAck m) s = .next { q with folio := { s.folio with sending := none, pos := 32 * x.pfn + g } })
        ∧ (f.vpn = vpn → x.again = false → Does (.granuleAck m) s (fun t => t.folio.sending = none ∧ getFrame t x.pfn = { f with s := f.s &&& ~~~(1#32 <<< g) }
          ∧ mapGet (fun _ => 0) t.folio.marks (32 * x.pfn + g) = 0 ∧ (∀ p, p ≠ x.pfn → getFrame t p = getFrame s p) ∧ t.eb = q.eb ∧ Only [.folio, .eb] s t))))
  ∧ (∀ tag dt s, let u := advance s dt
    let c := Instr.ebothRequestTimeout tag dt
    let due (r : EbReq) := r.msg.tag = tag ∧ r.since + 10000000 ≤ u.gsc
    Canon s → ((∀ r ∈ s.eb.reqs, ¬due r) → exec c s = .next u)
    ∧ ∀ r l l', s.eb.reqs = l ++ r :: l' → due r → (∀ x ∈ l, ¬due x) → let ty := r.msg.mtype.toNat
      (ty = 9 ∨ ty = 10 → exec c s = .next u)
      ∧ ∀ k cls, (cls, k) = (match ty with | 1 => (1, 0x41) | 4 => (3, 0x43) | 5 => (1, 0x44) | 6 => (1, 0x45) | _ => (1, 0x42)) → ty ≠ 9 → ty ≠ 10 →
        Does c s (fun t => Responds (ebTake u r.msg) t ⟨cls, k, 7, tag.toNat, r.msg.a.toNat, 0, []⟩))
end

