-- ==== Sys2Proof/Laws/Bits.lean ====
section
/-! SUPPORT. The laws of bit fields: what replacing a field of a number does to that field, to the others and to its size. -/
namespace Sys2Proof.Laws
open Sys2Proof.Machine

theorem split3 (v lo len : Nat) : v = v / 2 ^ (lo + len) * 2 ^ (lo + len) + bits v lo len * 2 ^ lo + v % 2 ^ lo := by
  have h1 := Nat.div_add_mod v (2 ^ lo)
  have h2 := Nat.div_add_mod (v / 2 ^ lo) (2 ^ len)
  rw [Nat.div_div_eq_div_mul, ← pow_add] at h2
  unfold bits
  have e : v / 2 ^ lo * 2 ^ lo = v / 2 ^ (lo + len) * 2 ^ (lo + len) + v / 2 ^ lo % 2 ^ len * 2 ^ lo := by
    conv_lhs => rw [← h2]
    rw [pow_add]
    ring
  rw [← e, Nat.mul_comm]
  exact h1.symm

theorem putBits_eq (v lo len x : Nat) :
    putBits v lo len x = v / 2 ^ (lo + len) * 2 ^ (lo + len) + (x % 2 ^ len) * 2 ^ lo + v % 2 ^ lo := by
  have h := split3 v lo len
  unfold putBits
  omega

/-- A field read back is the value put there. -/
theorem bits_putBits_same (v lo len x : Nat) : bits (putBits v lo len x) lo len = x % 2 ^ len := by
  rw [putBits_eq, bits]
  have hl : v % 2 ^ lo < 2 ^ lo := Nat.mod_lt _ (by positivity)
  have e : v / 2 ^ (lo + len) * 2 ^ (lo + len) + x % 2 ^ len * 2 ^ lo + v % 2 ^ lo
      = v % 2 ^ lo + 2 ^ lo * (x % 2 ^ len + 2 ^ len * (v / 2 ^ (lo + len))) := by rw [pow_add]; ring
  rw [e, Nat.add_mul_div_left _ _ (by positivity), Nat.div_eq_of_lt hl, Nat.zero_add, Nat.add_mul_mod_self_left, Nat.mod_mod]

/-- A field below is left alone. -/
theorem bits_putBits_below (v lo len x a n : Nat) (h : a + n ≤ lo) : bits (putBits v lo len x) a n = bits v a n := by
  obtain ⟨k, rfl⟩ := Nat.exists_eq_add_of_le h
  have e : ∀ y, v / 2 ^ (a + n + k + len) * 2 ^ (a + n + k + len) + y * 2 ^ (a + n + k) + v % 2 ^ (a + n + k)
      = v % 2 ^ (a + n + k) + 2 ^ (a + n) * (2 ^ k * y + 2 ^ (k + len) * (v / 2 ^ (a + n + k + len))) := by
    intro y; rw [show a + n + k + len = (a + n) + (k + len) by ring, pow_add 2 (a + n) (k + len), pow_add 2 (a + n) k]; ring
  have m : ∀ y, bits (v % 2 ^ (a + n + k) + 2 ^ (a + n) * y) a n = bits v a n := by
    intro y
    have d : 2 ^ (a + n) ∣ 2 ^ (a + n + k) := pow_dvd_pow 2 (by omega)
    have r : ∀ w, bits w a n = w % 2 ^ (a + n) / 2 ^ a := by
      intro w
      unfold bits
      rw [pow_add, Nat.mod_mul_right_div_self]
    rw [r, r, Nat.add_mul_mod_self_left, Nat.mod_mod_of_dvd _ d]
  rw [putBits_eq, e, m]

/-- A field above is left alone. -/
theorem bits_putBits_above (v lo len x a n : Nat) (h : lo + len ≤ a) : bits (putBits v lo len x) a n = bits v a n := by
  have hl : v % 2 ^ lo < 2 ^ lo := Nat.mod_lt _ (by positivity)
  have hx : x % 2 ^ len < 2 ^ len := Nat.mod_lt _ (by positivity)
  obtain ⟨k, rfl⟩ := Nat.exists_eq_add_of_le h
  have q : putBits v lo len x / 2 ^ (lo + len) = v / 2 ^ (lo + len) := by
    rw [putBits_eq]
    have lt : (x % 2 ^ len) * 2 ^ lo + v % 2 ^ lo < 2 ^ (lo + len) := by
      rw [pow_add]
      have : (x % 2 ^ len + 1) * 2 ^ lo ≤ 2 ^ len * 2 ^ lo := Nat.mul_le_mul_right _ hx
      rw [Nat.mul_comm (2 ^ lo)]
      rw [Nat.add_mul, Nat.one_mul] at this
      omega
    rw [show v / 2 ^ (lo + len) * 2 ^ (lo + len) + x % 2 ^ len * 2 ^ lo + v % 2 ^ lo
        = (x % 2 ^ len * 2 ^ lo + v % 2 ^ lo) + 2 ^ (lo + len) * (v / 2 ^ (lo + len)) by ring,
      Nat.add_mul_div_left _ _ (by positivity), Nat.div_eq_of_lt lt, Nat.zero_add]
  unfold bits
  rw [pow_add 2 (lo + len) k, ← Nat.div_div_eq_div_mul, ← Nat.div_div_eq_div_mul, q]

/-- A number of w bits stays one when a field within it is replaced. -/
theorem putBits_lt (v lo len x w : Nat) (hv : v < 2 ^ w) (h : lo + len ≤ w) : putBits v lo len x < 2 ^ w := by
  have hl : v % 2 ^ lo < 2 ^ lo := Nat.mod_lt _ (by positivity)
  have hx : x % 2 ^ len < 2 ^ len := Nat.mod_lt _ (by positivity)
  obtain ⟨k, rfl⟩ := Nat.exists_eq_add_of_le h
  have hq : v / 2 ^ (lo + len) < 2 ^ k := by
    rw [Nat.div_lt_iff_lt_mul (by positivity), ← pow_add, Nat.add_comm k]
    exact hv
  have lt : (x % 2 ^ len) * 2 ^ lo + v % 2 ^ lo < 2 ^ (lo + len) := by
    rw [pow_add]
    have : (x % 2 ^ len + 1) * 2 ^ lo ≤ 2 ^ len * 2 ^ lo := Nat.mul_le_mul_right _ hx
    rw [Nat.mul_comm (2 ^ lo)]
    rw [Nat.add_mul, Nat.one_mul] at this
    omega
  rw [putBits_eq, pow_add 2 (lo + len) k]
  have : (v / 2 ^ (lo + len) + 1) * 2 ^ (lo + len) ≤ 2 ^ k * 2 ^ (lo + len) := Nat.mul_le_mul_right _ hq
  rw [Nat.add_mul, Nat.one_mul] at this
  rw [Nat.mul_comm (2 ^ (lo + len)) (2 ^ k)]
  omega

theorem bits_lt (v lo len : Nat) : bits v lo len < 2 ^ len := Nat.mod_lt _ (by positivity)

end Sys2Proof.Laws
end

