-- ==== Sys2Proof/Laws/Map.lean ====
section
/-! SUPPORT. The laws of the sparse maps: a read after a write gives the value written, a write leaves every other key alone, and
every operation keeps the canonical form. -/
namespace Sys2Proof.Laws
open Sys2Proof.Machine

variable {α : Type}

@[simp] theorem mapGet_nil (d : Nat → α) (i : Nat) : mapGet d [] i = d i := rfl

/-- Every key of a map lies above a bound. -/
def Above (b : Nat) (m : SMap α) : Prop := ∀ kv ∈ m, b < kv.1

theorem mapGet_above [DecidableEq α] (d : Nat → α) {b i : Nat} (hi : i ≤ b) : ∀ {m : SMap α}, Above b m → mapGet d m i = d i := by
  intro m
  induction m with
  | nil => intro _; rfl
  | cons x r ih =>
    intro h
    have hx := h x (by simp)
    rw [mapGet, if_neg (by omega)]
    exact ih (fun kv hkv => h kv (by simp [hkv]))

theorem mapWf_cons [DecidableEq α] {d : Nat → α} {k : Nat} {v : α} {r : SMap α} :
    mapWf d ((k, v) :: r) = true ↔ v ≠ d k ∧ Above k r ∧ mapWf d r = true := by
  induction r generalizing k v with
  | nil => simp [mapWf, Above]
  | cons x r ih =>
    obtain ⟨k', v'⟩ := x
    rw [mapWf, Bool.and_eq_true, Bool.and_eq_true, ih]
    simp only [decide_eq_true_eq, Above]
    constructor
    · rintro ⟨⟨h1, h2⟩, h3, h4, h5⟩
      refine ⟨h1, ?_, h3, h4, h5⟩
      intro kv hkv
      rcases List.mem_cons.1 hkv with h | h
      · subst h; exact h2
      · exact lt_trans h2 (h4 kv h)
    · rintro ⟨h1, h2, h3, h4, h5⟩
      exact ⟨⟨h1, h2 (k', v') (by simp)⟩, h3, h4, h5⟩

/-- Put an entry at its place. -/
def mapPut : SMap α → Nat → α → SMap α
  | [], i, v => [(i, v)]
  | (k, w) :: r, i, v => if i < k then (i, v) :: (k, w) :: r else if i = k then (i, v) :: r else (k, w) :: mapPut r i v

/-- A write drops the entry or puts it at its place. -/
theorem mapSet_eq [DecidableEq α] (d : Nat → α) (m : SMap α) (i : Nat) (v : α) :
    mapSet d m i v = if v = d i then mapDrop (fun k => k == i) m else mapPut m i v := by
  induction m with
  | nil => simp [mapSet, mapDrop, mapPut]
  | cons x r ih =>
    obtain ⟨k, w⟩ := x
    rw [mapSet]
    by_cases hv : v = d i
    · rw [if_pos hv] at ih ⊢
      rw [if_pos hv]
      by_cases hk : i = k
      · rw [if_pos hk, ih]; simp [mapDrop, hk]
      · rw [if_neg hk, ih]; simp [mapDrop, Ne.symm hk]
    · rw [if_neg hv] at ih ⊢
      rw [if_neg hv, ih, mapPut]

theorem mapPut_above {b i : Nat} {v : α} (hi : b < i) : ∀ {m : SMap α}, Above b m → Above b (mapPut m i v) := by
  intro m
  induction m with
  | nil =>
    intro _ kv hkv
    simp only [mapPut, List.mem_singleton] at hkv
    subst hkv; exact hi
  | cons x r ih =>
    intro h
    have hx := h x (by simp)
    have hr : Above b r := fun kv hkv => h kv (by simp [hkv])
    rw [mapPut]
    split
    · intro kv hkv
      rcases List.mem_cons.1 hkv with e | e
      · subst e; exact hi
      · exact h kv e
    · split
      · intro kv hkv
        rcases List.mem_cons.1 hkv with e | e
        · subst e; exact hi
        · exact hr kv e
      · intro kv hkv
        rcases List.mem_cons.1 hkv with e | e
        · subst e; exact hx
        · exact ih hr kv e

/-- Dropping keys keeps the canonical form. -/
theorem mapFilter_wf [DecidableEq α] (d : Nat → α) (p : Nat × α → Bool) (m : SMap α) (h : mapWf d m = true) :
    mapWf d (m.filter p) = true := by
  induction m with
  | nil => rfl
  | cons x r ih =>
    obtain ⟨k, w⟩ := x
    obtain ⟨h1, h2, h3⟩ := mapWf_cons.1 h
    rw [List.filter_cons]
    split
    · exact mapWf_cons.2 ⟨h1, fun kv hkv => h2 kv (List.mem_filter.1 hkv).1, ih h3⟩
    · exact ih h3

theorem mapDrop_wf [DecidableEq α] (d : Nat → α) (p : Nat → Bool) (m : SMap α) (h : mapWf d m = true) :
    mapWf d (mapDrop p m) = true := mapFilter_wf d _ m h

theorem mapPut_wf [DecidableEq α] (d : Nat → α) (m : SMap α) (i : Nat) (v : α) (hv : v ≠ d i) (h : mapWf d m = true) :
    mapWf d (mapPut m i v) = true := by
  induction m with
  | nil => exact mapWf_cons.2 ⟨hv, fun _ h => absurd h (by simp), rfl⟩
  | cons x r ih =>
    obtain ⟨k, w⟩ := x
    obtain ⟨h1, h2, h3⟩ := mapWf_cons.1 h
    rw [mapPut]
    split
    · rename_i hlt
      refine mapWf_cons.2 ⟨hv, ?_, h⟩
      intro kv hkv
      rcases List.mem_cons.1 hkv with e | e
      · subst e; exact hlt
      · exact lt_trans hlt (h2 kv e)
    · split
      · rename_i hk
        subst hk
        exact mapWf_cons.2 ⟨hv, h2, h3⟩
      · exact mapWf_cons.2 ⟨h1, mapPut_above (by omega) h2, ih h3⟩

/-- A write keeps the canonical form. -/
theorem mapSet_wf [DecidableEq α] (d : Nat → α) (m : SMap α) (i : Nat) (v : α) (h : mapWf d m = true) :
    mapWf d (mapSet d m i v) = true := by
  rw [mapSet_eq]
  split
  · exact mapDrop_wf d _ m h
  · exact mapPut_wf d m i v (by assumption) h

theorem mapMod_wf [DecidableEq α] (d : Nat → α) (m : SMap α) (i : Nat) (f : α → α) (h : mapWf d m = true) :
    mapWf d (mapMod d m i f) = true := mapSet_wf d m i _ h

/-- Changing values and no keys keeps the canonical form when no new value is the default. -/
theorem mapVals_wf [DecidableEq α] (d : Nat → α) (f : Nat × α → Nat × α) (hk : ∀ kv, (f kv).1 = kv.1)
    (hv : ∀ kv, kv.2 ≠ d kv.1 → (f kv).2 ≠ d kv.1) (m : SMap α) (h : mapWf d m = true) : mapWf d (m.map f) = true := by
  induction m with
  | nil => rfl
  | cons x r ih =>
    obtain ⟨k, w⟩ := x
    obtain ⟨h1, h2, h3⟩ := mapWf_cons.1 h
    have e : f (k, w) = (k, (f (k, w)).2) := Prod.ext (hk (k, w)) rfl
    rw [List.map_cons, e]
    refine mapWf_cons.2 ⟨hv (k, w) h1, ?_, ih h3⟩
    intro kv hkv
    obtain ⟨y, hy, rfl⟩ := List.mem_map.1 hkv
    rw [hk]
    exact h2 y hy

theorem foldl_wf [DecidableEq α] {β : Type} (d : Nat → α) {f : SMap α → β → SMap α} (l : List β)
    (hf : ∀ m x, mapWf d m = true → mapWf d (f m x) = true) : ∀ m, mapWf d m = true → mapWf d (l.foldl f m) = true := by
  induction l with
  | nil => exact fun _ h => h
  | cons x l ih => exact fun m h => ih _ (hf m x h)

/-- Dropping keys leaves the others alone and gives the dropped ones the default. -/
theorem mapGet_mapDrop (d : Nat → α) (p : Nat → Bool) (m : SMap α) (i : Nat) :
    mapGet d (mapDrop p m) i = if p i then d i else mapGet d m i := by
  induction m with
  | nil => simp [mapDrop, mapGet]
  | cons x r ih =>
    obtain ⟨k, w⟩ := x
    have hd : mapDrop p ((k, w) :: r) = if p k then mapDrop p r else (k, w) :: mapDrop p r := by
      simp only [mapDrop, List.filter_cons]
      cases p k <;> simp
    rw [hd]
    by_cases hik : i = k
    · subst hik
      by_cases hp : p i
      · simp only [hp, if_true, ih]
      · simp [hp, mapGet]
    · by_cases hp : p k <;> simp [hp, mapGet, hik, ih]

theorem mapGet_mapPut_same (d : Nat → α) (m : SMap α) (i : Nat) (v : α) : mapGet d (mapPut m i v) i = v := by
  induction m with
  | nil => simp [mapPut, mapGet]
  | cons x r ih =>
    rw [mapPut]
    split
    · simp [mapGet]
    · split
      · simp [mapGet]
      · rename_i hk
        rw [mapGet, if_neg hk, ih]

theorem mapGet_mapPut_other (d : Nat → α) (m : SMap α) (i j : Nat) (v : α) (hij : j ≠ i) :
    mapGet d (mapPut m i v) j = mapGet d m j := by
  induction m with
  | nil => simp [mapPut, mapGet, hij]
  | cons x r ih =>
    rw [mapPut]
    split
    · simp [mapGet, hij]
    · split
      · rename_i hk
        subst hk
        simp [mapGet, hij]
      · rw [mapGet, mapGet, ih]

/-- A read after a write to the same key gives the value written. -/
@[simp] theorem mapGet_mapSet_same [DecidableEq α] (d : Nat → α) (m : SMap α) (i : Nat) (v : α) :
    mapGet d (mapSet d m i v) i = v := by
  rw [mapSet_eq]
  split
  · rw [mapGet_mapDrop]; simp [*]
  · exact mapGet_mapPut_same d m i v

/-- A write leaves every other key alone. -/
theorem mapGet_mapSet_other [DecidableEq α] (d : Nat → α) (m : SMap α) (i j : Nat) (v : α) (hij : j ≠ i) :
    mapGet d (mapSet d m i v) j = mapGet d m j := by
  rw [mapSet_eq]
  split
  · rw [mapGet_mapDrop, if_neg (by simpa using hij)]
  · exact mapGet_mapPut_other d m i j v hij

end Sys2Proof.Laws
end

