-- ==== Sys2Proof/Laws/Moves.lean ====
section
/-! SUPPORT. What an operation may change. `Moves m s t`: t differs from s only in the parts whose bit is set in m, and is canonical
when s is. Each operation of the machine has one lemma of this form (Laws/Moves files), which later proofs cite and never unfold. -/
namespace Sys2Proof.Laws
open Sys2Proof.Machine

/-- The bit of a part in a mask. -/
def partBit : Part → Nat
  | .pending => 0
  | .gsc => 1
  | .freeCtr => 2
  | .regs => 3
  | .mem => 4
  | .poison => 5
  | .engines => 6
  | .tiles => 7
  | .ctxs => 8
  | .mark => 9
  | .snapNum => 10
  | .snapWaits => 11
  | .tmap => 12
  | .ptile => 13
  | .ramp => 14
  | .hbmStacks => 15
  | .lineQ => 16
  | .folio => 17
  | .touched => 18
  | .flues => 19
  | .router => 20
  | .slots => 21
  | .planned => 22
  | .ces => 23
  | .clock => 24
  | .lend => 25
  | .digest => 26
  | .classRep => 27
  | .classCmd => 28
  | .perm => 29
  | .migr => 30
  | .test => 31
  | .rotNext => 32
  | .testDue => 33
  | .bistDue => 34
  | .push => 35
  | .pushNode => 36
  | .pushBad => 37
  | .doms => 38
  | .resetQ => 39
  | .update => 40
  | .staged => 41
  | .checking => 42
  | .fw => 43
  | .images => 44
  | .fuses => 45
  | .ledger => 46
  | .testset => 47
  | .testbuf => 48
  | .mrlog => 49
  | .mrPend => 50
  | .lifetime => 51
  | .wear => 52
  | .rails => 53
  | .railBad => 54
  | .energyRem => 55
  | .warned => 56
  | .timers => 57
  | .statReset => 58
  | .eb => 59
  | .pins => 60

/-- The parts of t whose bit is set, and the others of s. -/
def pick (m : Nat) (s t : State) : State :=
  { pending := if m.testBit 0 then t.pending else s.pending
    gsc := if m.testBit 1 then t.gsc else s.gsc
    freeCtr := if m.testBit 2 then t.freeCtr else s.freeCtr
    regs := if m.testBit 3 then t.regs else s.regs
    mem := if m.testBit 4 then t.mem else s.mem
    poison := if m.testBit 5 then t.poison else s.poison
    engines := if m.testBit 6 then t.engines else s.engines
    tiles := if m.testBit 7 then t.tiles else s.tiles
    ctxs := if m.testBit 8 then t.ctxs else s.ctxs
    mark := if m.testBit 9 then t.mark else s.mark
    snapNum := if m.testBit 10 then t.snapNum else s.snapNum
    snapWaits := if m.testBit 11 then t.snapWaits else s.snapWaits
    tmap := if m.testBit 12 then t.tmap else s.tmap
    ptile := if m.testBit 13 then t.ptile else s.ptile
    ramp := if m.testBit 14 then t.ramp else s.ramp
    hbmStacks := if m.testBit 15 then t.hbmStacks else s.hbmStacks
    lineQ := if m.testBit 16 then t.lineQ else s.lineQ
    folio := if m.testBit 17 then t.folio else s.folio
    touched := if m.testBit 18 then t.touched else s.touched
    flues := if m.testBit 19 then t.flues else s.flues
    router := if m.testBit 20 then t.router else s.router
    slots := if m.testBit 21 then t.slots else s.slots
    planned := if m.testBit 22 then t.planned else s.planned
    ces := if m.testBit 23 then t.ces else s.ces
    clock := if m.testBit 24 then t.clock else s.clock
    lend := if m.testBit 25 then t.lend else s.lend
    digest := if m.testBit 26 then t.digest else s.digest
    classRep := if m.testBit 27 then t.classRep else s.classRep
    classCmd := if m.testBit 28 then t.classCmd else s.classCmd
    perm := if m.testBit 29 then t.perm else s.perm
    migr := if m.testBit 30 then t.migr else s.migr
    test := if m.testBit 31 then t.test else s.test
    rotNext := if m.testBit 32 then t.rotNext else s.rotNext
    testDue := if m.testBit 33 then t.testDue else s.testDue
    bistDue := if m.testBit 34 then t.bistDue else s.bistDue
    push := if m.testBit 35 then t.push else s.push
    pushNode := if m.testBit 36 then t.pushNode else s.pushNode
    pushBad := if m.testBit 37 then t.pushBad else s.pushBad
    doms := if m.testBit 38 then t.doms else s.doms
    resetQ := if m.testBit 39 then t.resetQ else s.resetQ
    update := if m.testBit 40 then t.update else s.update
    staged := if m.testBit 41 then t.staged else s.staged
    checking := if m.testBit 42 then t.checking else s.checking
    fw := if m.testBit 43 then t.fw else s.fw
    images := if m.testBit 44 then t.images else s.images
    fuses := if m.testBit 45 then t.fuses else s.fuses
    ledger := if m.testBit 46 then t.ledger else s.ledger
    testset := if m.testBit 47 then t.testset else s.testset
    testbuf := if m.testBit 48 then t.testbuf else s.testbuf
    mrlog := if m.testBit 49 then t.mrlog else s.mrlog
    mrPend := if m.testBit 50 then t.mrPend else s.mrPend
    lifetime := if m.testBit 51 then t.lifetime else s.lifetime
    wear := if m.testBit 52 then t.wear else s.wear
    rails := if m.testBit 53 then t.rails else s.rails
    railBad := if m.testBit 54 then t.railBad else s.railBad
    energyRem := if m.testBit 55 then t.energyRem else s.energyRem
    warned := if m.testBit 56 then t.warned else s.warned
    timers := if m.testBit 57 then t.timers else s.timers
    statReset := if m.testBit 58 then t.statReset else s.statReset
    eb := if m.testBit 59 then t.eb else s.eb
    pins := if m.testBit 60 then t.pins else s.pins }

structure Moves (m : Nat) (s t : State) : Prop where
  frame : t = pick m s t
  canon : Canon s → Canon t

theorem pick_same {m : Nat} {s t : State} (h : t = pick m s t) (p : Part) (hp : m.testBit (partBit p) = false) : Same p s t := by
  cases p <;> (simp only [partBit] at hp; simp only [Same]; rw [h]; simp [pick, hp])

theorem pick_of_same {m : Nat} {s t : State} (h : ∀ p, m.testBit (partBit p) = false → Same p s t) : t = pick m s t := by
  cases t
  simp only [pick, State.mk.injEq]
  refine ⟨?_, ?_, ?_, ?_, ?_, ?_, ?_, ?_, ?_, ?_, ?_, ?_, ?_, ?_, ?_, ?_, ?_, ?_, ?_, ?_, ?_, ?_, ?_, ?_, ?_, ?_, ?_, ?_, ?_, ?_, ?_, ?_, ?_, ?_, ?_, ?_, ?_, ?_, ?_, ?_, ?_, ?_, ?_, ?_, ?_, ?_, ?_, ?_, ?_, ?_, ?_, ?_, ?_, ?_, ?_, ?_, ?_, ?_, ?_, ?_, ?_⟩
  · have := h .pending; simp only [partBit, Same] at this; split <;> simp_all
  · have := h .gsc; simp only [partBit, Same] at this; split <;> simp_all
  · have := h .freeCtr; simp only [partBit, Same] at this; split <;> simp_all
  · have := h .regs; simp only [partBit, Same] at this; split <;> simp_all
  · have := h .mem; simp only [partBit, Same] at this; split <;> simp_all
  · have := h .poison; simp only [partBit, Same] at this; split <;> simp_all
  · have := h .engines; simp only [partBit, Same] at this; split <;> simp_all
  · have := h .tiles; simp only [partBit, Same] at this; split <;> simp_all
  · have := h .ctxs; simp only [partBit, Same] at this; split <;> simp_all
  · have := h .mark; simp only [partBit, Same] at this; split <;> simp_all
  · have := h .snapNum; simp only [partBit, Same] at this; split <;> simp_all
  · have := h .snapWaits; simp only [partBit, Same] at this; split <;> simp_all
  · have := h .tmap; simp only [partBit, Same] at this; split <;> simp_all
  · have := h .ptile; simp only [partBit, Same] at this; split <;> simp_all
  · have := h .ramp; simp only [partBit, Same] at this; split <;> simp_all
  · have := h .hbmStacks; simp only [partBit, Same] at this; split <;> simp_all
  · have := h .lineQ; simp only [partBit, Same] at this; split <;> simp_all
  · have := h .folio; simp only [partBit, Same] at this; split <;> simp_all
  · have := h .touched; simp only [partBit, Same] at this; split <;> simp_all
  · have := h .flues; simp only [partBit, Same] at this; split <;> simp_all
  · have := h .router; simp only [partBit, Same] at this; split <;> simp_all
  · have := h .slots; simp only [partBit, Same] at this; split <;> simp_all
  · have := h .planned; simp only [partBit, Same] at this; split <;> simp_all
  · have := h .ces; simp only [partBit, Same] at this; split <;> simp_all
  · have := h .clock; simp only [partBit, Same] at this; split <;> simp_all
  · have := h .lend; simp only [partBit, Same] at this; split <;> simp_all
  · have := h .digest; simp only [partBit, Same] at this; split <;> simp_all
  · have := h .classRep; simp only [partBit, Same] at this; split <;> simp_all
  · have := h .classCmd; simp only [partBit, Same] at this; split <;> simp_all
  · have := h .perm; simp only [partBit, Same] at this; split <;> simp_all
  · have := h .migr; simp only [partBit, Same] at this; split <;> simp_all
  · have := h .test; simp only [partBit, Same] at this; split <;> simp_all
  · have := h .rotNext; simp only [partBit, Same] at this; split <;> simp_all
  · have := h .testDue; simp only [partBit, Same] at this; split <;> simp_all
  · have := h .bistDue; simp only [partBit, Same] at this; split <;> simp_all
  · have := h .push; simp only [partBit, Same] at this; split <;> simp_all
  · have := h .pushNode; simp only [partBit, Same] at this; split <;> simp_all
  · have := h .pushBad; simp only [partBit, Same] at this; split <;> simp_all
  · have := h .doms; simp only [partBit, Same] at this; split <;> simp_all
  · have := h .resetQ; simp only [partBit, Same] at this; split <;> simp_all
  · have := h .update; simp only [partBit, Same] at this; split <;> simp_all
  · have := h .staged; simp only [partBit, Same] at this; split <;> simp_all
  · have := h .checking; simp only [partBit, Same] at this; split <;> simp_all
  · have := h .fw; simp only [partBit, Same] at this; split <;> simp_all
  · have := h .images; simp only [partBit, Same] at this; split <;> simp_all
  · have := h .fuses; simp only [partBit, Same] at this; split <;> simp_all
  · have := h .ledger; simp only [partBit, Same] at this; split <;> simp_all
  · have := h .testset; simp only [partBit, Same] at this; split <;> simp_all
  · have := h .testbuf; simp only [partBit, Same] at this; split <;> simp_all
  · have := h .mrlog; simp only [partBit, Same] at this; split <;> simp_all
  · have := h .mrPend; simp only [partBit, Same] at this; split <;> simp_all
  · have := h .lifetime; simp only [partBit, Same] at this; split <;> simp_all
  · have := h .wear; simp only [partBit, Same] at this; split <;> simp_all
  · have := h .rails; simp only [partBit, Same] at this; split <;> simp_all
  · have := h .railBad; simp only [partBit, Same] at this; split <;> simp_all
  · have := h .energyRem; simp only [partBit, Same] at this; split <;> simp_all
  · have := h .warned; simp only [partBit, Same] at this; split <;> simp_all
  · have := h .timers; simp only [partBit, Same] at this; split <;> simp_all
  · have := h .statReset; simp only [partBit, Same] at this; split <;> simp_all
  · have := h .eb; simp only [partBit, Same] at this; split <;> simp_all
  · have := h .pins; simp only [partBit, Same] at this; split <;> simp_all

theorem Moves.refl (m : Nat) (s : State) : Moves m s s :=
  ⟨pick_of_same fun p _ => by cases p <;> rfl, id⟩

theorem same_trans {p : Part} {s t u : State} (h : Same p s t) (k : Same p t u) : Same p s u := by
  cases p <;> exact Eq.trans h k

theorem Moves.same {m : Nat} {s t : State} (h : Moves m s t) (p : Part) (hp : m.testBit (partBit p) = false) : Same p s t :=
  pick_same h.frame p hp

theorem Moves.trans {m : Nat} {s t u : State} (k : Moves m t u) (h : Moves m s t) : Moves m s u :=
  ⟨pick_of_same fun p hp => same_trans (h.same p hp) (k.same p hp), fun c => k.canon (h.canon c)⟩

theorem Moves.le {n m : Nat} {s t : State} (k : Moves n s t) (hm : n ||| m = m) : Moves m s t :=
  ⟨pick_of_same fun p hp => k.same p (by rw [← hm, Nat.testBit_or, Bool.or_eq_false_iff] at hp; exact hp.1), k.canon⟩

/-- An operation after another. -/
theorem Moves.next {n m : Nat} {s t u : State} (hm : n ||| m = m) (k : Moves n t u) (h : Moves m s t) : Moves m s u :=
  (k.le hm).trans h

theorem Moves.cut {m : Nat} {a t u : State} (h : Moves m a t) (k : Moves m a t → Moves m a u) : Moves m a u := k h

theorem Moves.ite {m : Nat} {a t u : State} {c : Prop} [Decidable c] (h : Moves m a t) (k : Moves m a u) :
    Moves m a (if c then t else u) := by split <;> assumption

theorem Moves.ite_fst {α : Type} {m : Nat} {a : State} {t u : State × α} {c : Prop} [Decidable c] (h : Moves m a t.1)
    (k : Moves m a u.1) : Moves m a (if c then t else u).1 := by split <;> assumption

theorem Moves.ite_snd {α : Type} {m : Nat} {a : State} {t u : α × State} {c : Prop} [Decidable c] (h : Moves m a t.2)
    (k : Moves m a u.2) : Moves m a (if c then t else u).2 := by split <;> assumption

theorem Moves.fst_of {α : Type} {m : Nat} {a t : State} {x : α} {p : State × α} (e : p = (t, x)) (h : Moves m a p.1) : Moves m a t := by
  rw [e] at h; exact h

theorem Moves.snd_of {α : Type} {m : Nat} {a t : State} {x : α} {p : α × State} (e : p = (x, t)) (h : Moves m a p.2) : Moves m a t := by
  rw [e] at h; exact h

theorem Moves.foldl {α : Type} {m : Nat} {a : State} {f : State → α → State} (l : List α)
    (hf : ∀ s x, Moves m s (f s x)) : ∀ s, Moves m a s → Moves m a (l.foldl f s) := by
  induction l with
  | nil => exact fun _ h => h
  | cons x l ih => exact fun s h => ih _ ((hf s x).trans h)

theorem Moves.foldl_fst {α β : Type} {m : Nat} {a : State} {f : State × β → α → State × β} (l : List α)
    (hf : ∀ s x, Moves m s.1 (f s x).1) : ∀ s, Moves m a s.1 → Moves m a (l.foldl f s).1 := by
  induction l with
  | nil => exact fun _ h => h
  | cons x l ih => exact fun s h => ih _ ((hf s x).trans h)

theorem Moves.upd {m : Nat} {a t u : State} (e : u = pick m t u) (c : Canon t → Canon u) (h : Moves m a t) : Moves m a u :=
  Moves.trans ⟨e, c⟩ h

theorem le_of {n k m : Nat} (h : n ||| m = m) (hk : k ||| n = n) : k ||| m = m := by
  rw [← h, ← Nat.lor_assoc, hk]

theorem pokeBytes_wf (bs : List PByte) : ∀ (m : SMap Byte) (a : Nat), mapWf (fun _ => 0) m = true →
    mapWf (fun _ => 0) (pokeBytes m a bs) = true := by
  induction bs with
  | nil => exact fun _ _ h => h
  | cons b r ih => exact fun m a h => ih _ _ (mapSet_wf _ _ _ _ h)

end Sys2Proof.Laws
end

