-- ==== Sys2Proof/Laws/MovesCore.lean ====
section
/-! SUPPORT. What each operation may change: the shared operations, engine programs, counters, waits, the line code and the ash record. One lemma for each, of the form of Laws/Moves.lean. -/
set_option linter.unusedVariables false
set_option linter.unusedTactic false
set_option linter.unreachableTactic false
set_option linter.tactic.unusedName false
namespace Sys2Proof.Laws
open Sys2Proof.Machine

theorem regSet_moves (s k v) : Moves 0x8 s (regSet s k v) := by
  unfold regSet
  repeat' first
    | with_reducible exact Moves.refl _ _
    | refine Moves.upd rfl (fun h => by cases h; constructor <;> first | assumption | (try dsimp only; first | exact mapSet_wf _ _ _ _ (by assumption) | exact mapMod_wf _ _ _ _ (by assumption) | exact mapDrop_wf _ _ _ (by assumption) | exact mapFilter_wf _ _ _ (by assumption) | exact pokeBytes_wf _ _ _ (by assumption) | exact foldl_wf _ _ (fun _ _ h => mapSet_wf _ _ _ _ h) _ (by assumption) | exact foldl_wf _ _ (fun _ _ h => mapMod_wf _ _ _ _ h) _ (by assumption) | exact rfl)) ?_

theorem wrF_moves (s b f inst i v) : Moves 0x8 s (wrF s b f inst i v) := by
  unfold wrF
  repeat' first
    | with_reducible exact Moves.refl _ _
    | (with_reducible apply Moves.next ?hm (regSet_moves ..) ?_; (case hm => decide))

theorem setF_moves (s f inst v) : Moves 0x8 s (setF s f inst v) := by
  unfold setF
  repeat' first
    | with_reducible exact Moves.refl _ _
    | (with_reducible apply Moves.next ?hm (wrF_moves ..) ?_; (case hm => decide))

theorem setFi_moves (s f inst i v) : Moves 0x8 s (setFi s f inst i v) := by
  unfold setFi
  repeat' first
    | with_reducible exact Moves.refl _ _
    | (with_reducible apply Moves.next ?hm (wrF_moves ..) ?_; (case hm => decide))

theorem addF_moves (s f inst n) : Moves 0x8 s (addF s f inst n) := by
  unfold addF
  repeat' first
    | with_reducible exact Moves.refl _ _
    | (with_reducible apply Moves.next ?hm (setF_moves ..) ?_; (case hm => decide))

theorem addStat_moves (s f inst n) : Moves 0x8 s (addStat s f inst n) := by
  unfold addStat
  repeat' first
    | with_reducible exact Moves.refl _ _
    | (with_reducible apply Moves.next ?hm (setF_moves ..) ?_; (case hm => decide))

theorem setEng_moves (s e x) : Moves 0x40 s (setEng s e x) := by
  unfold setEng
  repeat' first
    | with_reducible exact Moves.refl _ _
    | refine Moves.upd rfl (fun h => by cases h; constructor <;> first | assumption | (try dsimp only; first | exact mapSet_wf _ _ _ _ (by assumption) | exact mapMod_wf _ _ _ _ (by assumption) | exact mapDrop_wf _ _ _ (by assumption) | exact mapFilter_wf _ _ _ (by assumption) | exact pokeBytes_wf _ _ _ (by assumption) | exact foldl_wf _ _ (fun _ _ h => mapSet_wf _ _ _ _ h) _ (by assumption) | exact foldl_wf _ _ (fun _ _ h => mapMod_wf _ _ _ _ h) _ (by assumption) | exact rfl)) ?_

theorem modEng_moves (s e f) : Moves 0x40 s (modEng s e f) := by
  unfold modEng
  repeat' first
    | with_reducible exact Moves.refl _ _
    | (with_reducible apply Moves.next ?hm (setEng_moves ..) ?_; (case hm => decide))

theorem setP_moves (s e f v) : Moves 0x8 s (setP s e f v) := by
  unfold setP
  repeat' first
    | with_reducible exact Moves.refl _ _
    | (with_reducible apply Moves.next ?hm (wrF_moves ..) ?_; (case hm => decide))

theorem setG_moves (s e n v) : Moves 0x8 s (setG s e n v) := by
  unfold setG
  repeat' first
    | with_reducible exact Moves.refl _ _
    | (with_reducible apply Moves.next ?hm (regSet_moves ..) ?_; (case hm => decide))

theorem setTile_moves (s p t') : Moves 0x80 s (setTile s p t') := by
  unfold setTile
  repeat' first
    | with_reducible exact Moves.refl _ _
    | refine Moves.upd rfl (fun h => by cases h; constructor <;> first | assumption | (try dsimp only; first | exact mapSet_wf _ _ _ _ (by assumption) | exact mapMod_wf _ _ _ _ (by assumption) | exact mapDrop_wf _ _ _ (by assumption) | exact mapFilter_wf _ _ _ (by assumption) | exact pokeBytes_wf _ _ _ (by assumption) | exact foldl_wf _ _ (fun _ _ h => mapSet_wf _ _ _ _ h) _ (by assumption) | exact foldl_wf _ _ (fun _ _ h => mapMod_wf _ _ _ _ h) _ (by assumption) | exact rfl)) ?_

theorem modTile_moves (s p f) : Moves 0x80 s (modTile s p f) := by
  unfold modTile
  repeat' first
    | with_reducible exact Moves.refl _ _
    | (with_reducible apply Moves.next ?hm (setTile_moves ..) ?_; (case hm => decide))

theorem setCtx_moves (s c x) : Moves 0x100 s (setCtx s c x) := by
  unfold setCtx
  repeat' first
    | with_reducible exact Moves.refl _ _
    | refine Moves.upd rfl (fun h => by cases h; constructor <;> first | assumption | (try dsimp only; first | exact mapSet_wf _ _ _ _ (by assumption) | exact mapMod_wf _ _ _ _ (by assumption) | exact mapDrop_wf _ _ _ (by assumption) | exact mapFilter_wf _ _ _ (by assumption) | exact pokeBytes_wf _ _ _ (by assumption) | exact foldl_wf _ _ (fun _ _ h => mapSet_wf _ _ _ _ h) _ (by assumption) | exact foldl_wf _ _ (fun _ _ h => mapMod_wf _ _ _ _ h) _ (by assumption) | exact rfl)) ?_

theorem setStack_moves (s i x) : Moves 0x8000 s (setStack s i x) := by
  unfold setStack
  repeat' first
    | with_reducible exact Moves.refl _ _
    | refine Moves.upd rfl (fun h => by cases h; constructor <;> first | assumption | (try dsimp only; first | exact mapSet_wf _ _ _ _ (by assumption) | exact mapMod_wf _ _ _ _ (by assumption) | exact mapDrop_wf _ _ _ (by assumption) | exact mapFilter_wf _ _ _ (by assumption) | exact pokeBytes_wf _ _ _ (by assumption) | exact foldl_wf _ _ (fun _ _ h => mapSet_wf _ _ _ _ h) _ (by assumption) | exact foldl_wf _ _ (fun _ _ h => mapMod_wf _ _ _ _ h) _ (by assumption) | exact rfl)) ?_

theorem setFlue_moves (s f x) : Moves 0x80000 s (setFlue s f x) := by
  unfold setFlue
  repeat' first
    | with_reducible exact Moves.refl _ _
    | refine Moves.upd rfl (fun h => by cases h; constructor <;> first | assumption | (try dsimp only; first | exact mapSet_wf _ _ _ _ (by assumption) | exact mapMod_wf _ _ _ _ (by assumption) | exact mapDrop_wf _ _ _ (by assumption) | exact mapFilter_wf _ _ _ (by assumption) | exact pokeBytes_wf _ _ _ (by assumption) | exact foldl_wf _ _ (fun _ _ h => mapSet_wf _ _ _ _ h) _ (by assumption) | exact foldl_wf _ _ (fun _ _ h => mapMod_wf _ _ _ _ h) _ (by assumption) | exact rfl)) ?_

theorem setCe_moves (s c x) : Moves 0x800000 s (setCe s c x) := by
  unfold setCe
  repeat' first
    | with_reducible exact Moves.refl _ _
    | refine Moves.upd rfl (fun h => by cases h; constructor <;> first | assumption | (try dsimp only; first | exact mapSet_wf _ _ _ _ (by assumption) | exact mapMod_wf _ _ _ _ (by assumption) | exact mapDrop_wf _ _ _ (by assumption) | exact mapFilter_wf _ _ _ (by assumption) | exact pokeBytes_wf _ _ _ (by assumption) | exact foldl_wf _ _ (fun _ _ h => mapSet_wf _ _ _ _ h) _ (by assumption) | exact foldl_wf _ _ (fun _ _ h => mapMod_wf _ _ _ _ h) _ (by assumption) | exact rfl)) ?_

theorem setDom_moves (s d x) : Moves 0x4000000000 s (setDom s d x) := by
  unfold setDom
  repeat' first
    | with_reducible exact Moves.refl _ _
    | refine Moves.upd rfl (fun h => by cases h; constructor <;> first | assumption | (try dsimp only; first | exact mapSet_wf _ _ _ _ (by assumption) | exact mapMod_wf _ _ _ _ (by assumption) | exact mapDrop_wf _ _ _ (by assumption) | exact mapFilter_wf _ _ _ (by assumption) | exact pokeBytes_wf _ _ _ (by assumption) | exact foldl_wf _ _ (fun _ _ h => mapSet_wf _ _ _ _ h) _ (by assumption) | exact foldl_wf _ _ (fun _ _ h => mapMod_wf _ _ _ _ h) _ (by assumption) | exact rfl)) ?_

theorem setFrame_moves (s n x) : Moves 0x20000 s (setFrame s n x) := by
  unfold setFrame
  dsimp only
  repeat' first
    | (extract_lets +onlyGivenNames x; revert x; intro _)
    | with_reducible exact Moves.refl _ _
    | refine Moves.upd rfl (fun h => by cases h; constructor <;> first | assumption | (try dsimp only; first | exact mapSet_wf _ _ _ _ (by assumption) | exact mapMod_wf _ _ _ _ (by assumption) | exact mapDrop_wf _ _ _ (by assumption) | exact mapFilter_wf _ _ _ (by assumption) | exact pokeBytes_wf _ _ _ (by assumption) | exact foldl_wf _ _ (fun _ _ h => mapSet_wf _ _ _ _ h) _ (by assumption) | exact foldl_wf _ _ (fun _ _ h => mapMod_wf _ _ _ _ h) _ (by assumption) | exact rfl)) ?_

theorem setTimer_moves (s k v) : Moves 0x200000000000000 s (setTimer s k v) := by
  unfold setTimer
  repeat' first
    | with_reducible exact Moves.refl _ _
    | refine Moves.upd rfl (fun h => by cases h; constructor <;> first | assumption | (try dsimp only; first | exact mapSet_wf _ _ _ _ (by assumption) | exact mapMod_wf _ _ _ _ (by assumption) | exact mapDrop_wf _ _ _ (by assumption) | exact mapFilter_wf _ _ _ (by assumption) | exact pokeBytes_wf _ _ _ (by assumption) | exact foldl_wf _ _ (fun _ _ h => mapSet_wf _ _ _ _ h) _ (by assumption) | exact foldl_wf _ _ (fun _ _ h => mapMod_wf _ _ _ _ h) _ (by assumption) | exact rfl)) ?_

theorem setSlot_moves (s i x) : Moves 0x200000 s (setSlot s i x) := by
  unfold setSlot
  repeat' first
    | with_reducible exact Moves.refl _ _
    | refine Moves.upd rfl (fun h => by cases h; constructor <;> first | assumption | (try dsimp only; first | exact mapSet_wf _ _ _ _ (by assumption) | exact mapMod_wf _ _ _ _ (by assumption) | exact mapDrop_wf _ _ _ (by assumption) | exact mapFilter_wf _ _ _ (by assumption) | exact pokeBytes_wf _ _ _ (by assumption) | exact foldl_wf _ _ (fun _ _ h => mapSet_wf _ _ _ _ h) _ (by assumption) | exact foldl_wf _ _ (fun _ _ h => mapMod_wf _ _ _ _ h) _ (by assumption) | exact rfl)) ?_

theorem advance_moves (s dt) : Moves 0x2 s (advance s dt) := by
  unfold advance
  repeat' first
    | with_reducible exact Moves.refl _ _
    | refine Moves.upd rfl (fun h => by cases h; constructor <;> first | assumption | (try dsimp only; first | exact mapSet_wf _ _ _ _ (by assumption) | exact mapMod_wf _ _ _ _ (by assumption) | exact mapDrop_wf _ _ _ (by assumption) | exact mapFilter_wf _ _ _ (by assumption) | exact pokeBytes_wf _ _ _ (by assumption) | exact foldl_wf _ _ (fun _ _ h => mapSet_wf _ _ _ _ h) _ (by assumption) | exact foldl_wf _ _ (fun _ _ h => mapMod_wf _ _ _ _ h) _ (by assumption) | exact rfl)) ?_

theorem freshWord_moves (s) : Moves 0x4 s (freshWord s).2 := by
  unfold freshWord
  repeat' first
    | with_reducible exact Moves.refl _ _
    | refine Moves.upd rfl (fun h => by cases h; constructor <;> first | assumption | (try dsimp only; first | exact mapSet_wf _ _ _ _ (by assumption) | exact mapMod_wf _ _ _ _ (by assumption) | exact mapDrop_wf _ _ _ (by assumption) | exact mapFilter_wf _ _ _ (by assumption) | exact pokeBytes_wf _ _ _ (by assumption) | exact foldl_wf _ _ (fun _ _ h => mapSet_wf _ _ _ _ h) _ (by assumption) | exact foldl_wf _ _ (fun _ _ h => mapMod_wf _ _ _ _ h) _ (by assumption) | exact rfl)) ?_

theorem freshBytes_moves (s bs) : Moves 0x4 s (freshBytes s bs).2 := by
  unfold freshBytes
  repeat' first
    | with_reducible exact Moves.refl _ _
    | refine Moves.upd rfl (fun h => by cases h; constructor <;> first | assumption | (try dsimp only; first | exact mapSet_wf _ _ _ _ (by assumption) | exact mapMod_wf _ _ _ _ (by assumption) | exact mapDrop_wf _ _ _ (by assumption) | exact mapFilter_wf _ _ _ (by assumption) | exact pokeBytes_wf _ _ _ (by assumption) | exact foldl_wf _ _ (fun _ _ h => mapSet_wf _ _ _ _ h) _ (by assumption) | exact foldl_wf _ _ (fun _ _ h => mapMod_wf _ _ _ _ h) _ (by assumption) | exact rfl)) ?_

theorem writeBytes_moves (s a bs) : Moves 0x30 s (writeBytes s a bs) := by
  unfold writeBytes
  repeat' first
    | with_reducible apply Moves.ite
    | with_reducible exact Moves.refl _ _
    | refine Moves.upd rfl (fun h => by cases h; constructor <;> first | assumption | (try dsimp only; first | exact mapSet_wf _ _ _ _ (by assumption) | exact mapMod_wf _ _ _ _ (by assumption) | exact mapDrop_wf _ _ _ (by assumption) | exact mapFilter_wf _ _ _ (by assumption) | exact pokeBytes_wf _ _ _ (by assumption) | exact foldl_wf _ _ (fun _ _ h => mapSet_wf _ _ _ _ h) _ (by assumption) | exact foldl_wf _ _ (fun _ _ h => mapMod_wf _ _ _ _ h) _ (by assumption) | exact rfl)) ?_

theorem poisonWord_moves (s a) : Moves 0x20 s (poisonWord s a) := by
  unfold poisonWord
  repeat' first
    | with_reducible exact Moves.refl _ _
    | refine Moves.upd rfl (fun h => by cases h; constructor <;> first | assumption | (try dsimp only; first | exact mapSet_wf _ _ _ _ (by assumption) | exact mapMod_wf _ _ _ _ (by assumption) | exact mapDrop_wf _ _ _ (by assumption) | exact mapFilter_wf _ _ _ (by assumption) | exact pokeBytes_wf _ _ _ (by assumption) | exact foldl_wf _ _ (fun _ _ h => mapSet_wf _ _ _ _ h) _ (by assumption) | exact foldl_wf _ _ (fun _ _ h => mapMod_wf _ _ _ _ h) _ (by assumption) | exact rfl)) ?_

theorem zeroRange_moves (s lo hi) : Moves 0x30 s (zeroRange s lo hi) := by
  unfold zeroRange
  repeat' first
    | with_reducible exact Moves.refl _ _
    | refine Moves.upd rfl (fun h => by cases h; constructor <;> first | assumption | (try dsimp only; first | exact mapSet_wf _ _ _ _ (by assumption) | exact mapMod_wf _ _ _ _ (by assumption) | exact mapDrop_wf _ _ _ (by assumption) | exact mapFilter_wf _ _ _ (by assumption) | exact pokeBytes_wf _ _ _ (by assumption) | exact foldl_wf _ _ (fun _ _ h => mapSet_wf _ _ _ _ h) _ (by assumption) | exact foldl_wf _ _ (fun _ _ h => mapMod_wf _ _ _ _ h) _ (by assumption) | exact rfl)) ?_

theorem writeNat_moves (s a n v) : Moves 0x30 s (writeNat s a n v) := by
  unfold writeNat
  repeat' first
    | with_reducible exact Moves.refl _ _
    | (with_reducible apply Moves.next ?hm (writeBytes_moves ..) ?_; (case hm => decide))

theorem ebOut_moves (s m') : Moves 0x800000000000000 s (ebOut s m') := by
  unfold ebOut
  repeat' first
    | (extract_lets +onlyGivenNames x; clear_value x; revert x; intro _)
    | with_reducible exact Moves.refl _ _
    | refine Moves.upd rfl (fun h => by cases h; constructor <;> first | assumption | (try dsimp only; first | exact mapSet_wf _ _ _ _ (by assumption) | exact mapMod_wf _ _ _ _ (by assumption) | exact mapDrop_wf _ _ _ (by assumption) | exact mapFilter_wf _ _ _ (by assumption) | exact pokeBytes_wf _ _ _ (by assumption) | exact foldl_wf _ _ (fun _ _ h => mapSet_wf _ _ _ _ h) _ (by assumption) | exact foldl_wf _ _ (fun _ _ h => mapMod_wf _ _ _ _ h) _ (by assumption) | exact rfl)) ?_

theorem putEvent_moves (s ev) : Moves 0x800000000000000 s (putEvent s ev) := by
  unfold putEvent
  repeat' first
    | (extract_lets +onlyGivenNames x; clear_value x; revert x; intro _)
    | with_reducible exact Moves.refl _ _
    | (with_reducible apply Moves.next ?hm (ebOut_moves ..) ?_; (case hm => decide))
    | refine Moves.upd rfl (fun h => by cases h; constructor <;> first | assumption | (try dsimp only; first | exact mapSet_wf _ _ _ _ (by assumption) | exact mapMod_wf _ _ _ _ (by assumption) | exact mapDrop_wf _ _ _ (by assumption) | exact mapFilter_wf _ _ _ (by assumption) | exact pokeBytes_wf _ _ _ (by assumption) | exact foldl_wf _ _ (fun _ _ h => mapSet_wf _ _ _ _ h) _ (by assumption) | exact foldl_wf _ _ (fun _ _ h => mapMod_wf _ _ _ _ h) _ (by assumption) | exact rfl)) ?_

theorem pushEvent_moves (s ev) : Moves 0x800000000000008 s (pushEvent s ev) := by
  unfold pushEvent
  repeat' first
    | (extract_lets +onlyGivenNames t; refine Moves.cut (t := t) ?_ (fun ht => ?_); (on_goal 2 => (clear_value t; revert t; intro _ _)); (on_goal 1 => (unfold t; clear t)))
    | (extract_lets +onlyGivenNames x; clear_value x; revert x; intro _)
    | with_reducible apply Moves.ite
    | with_reducible exact Moves.refl _ _
    | with_reducible assumption
    | (with_reducible apply Moves.next ?hm (putEvent_moves ..) ?_; (case hm => decide))
    | (with_reducible apply Moves.next ?hm (addF_moves ..) ?_; (case hm => decide))
    | split
    | refine Moves.upd rfl (fun h => by cases h; constructor <;> first | assumption | (try dsimp only; first | exact mapSet_wf _ _ _ _ (by assumption) | exact mapMod_wf _ _ _ _ (by assumption) | exact mapDrop_wf _ _ _ (by assumption) | exact mapFilter_wf _ _ _ (by assumption) | exact pokeBytes_wf _ _ _ (by assumption) | exact foldl_wf _ _ (fun _ _ h => mapSet_wf _ _ _ _ h) _ (by assumption) | exact foldl_wf _ _ (fun _ _ h => mapMod_wf _ _ _ _ h) _ (by assumption) | exact rfl)) ?_

theorem ashFault_moves (s r) : Moves 0x30 s (ashFault s r) := by
  unfold ashFault
  repeat' first
    | (extract_lets +onlyGivenNames t; refine Moves.cut (t := t) ?_ (fun ht => ?_); (on_goal 2 => (clear_value t; revert t; intro _ _)); (on_goal 1 => (unfold t; clear t)))
    | (extract_lets +onlyGivenNames x; clear_value x; revert x; intro _)
    | with_reducible exact Moves.refl _ _
    | with_reducible assumption
    | (with_reducible apply Moves.next ?hm (writeNat_moves ..) ?_; (case hm => decide))
    | (with_reducible apply Moves.next ?hm (writeBytes_moves ..) ?_; (case hm => decide))

theorem logErr_moves (s b inst code) : Moves 0x8 s (logErr s b inst code) := by
  unfold logErr
  repeat' first
    | (extract_lets +onlyGivenNames t; refine Moves.cut (t := t) ?_ (fun ht => ?_); (on_goal 2 => (clear_value t; revert t; intro _ _)); (on_goal 1 => (unfold t; clear t)))
    | with_reducible exact Moves.refl _ _
    | with_reducible assumption
    | (with_reducible apply Moves.next ?hm (wrF_moves ..) ?_; (case hm => decide))

theorem raise_moves (s b inst r) : Moves 0x800000000000038 s (raise s b inst r) := by
  unfold raise
  repeat' first
    | with_reducible exact Moves.refl _ _
    | (with_reducible apply Moves.next ?hm (logErr_moves ..) ?_; (case hm => decide))
    | (with_reducible apply Moves.next ?hm (pushEvent_moves ..) ?_; (case hm => decide))
    | (with_reducible apply Moves.next ?hm (ashFault_moves ..) ?_; (case hm => decide))

theorem raiseMgc_moves (s code detail) : Moves 0x800000000000038 s (raiseMgc s code detail) := by
  unfold raiseMgc
  repeat' first
    | with_reducible exact Moves.refl _ _
    | (with_reducible apply Moves.next ?hm (raise_moves ..) ?_; (case hm => decide))

theorem raiseMgcTile_moves (s code phys detail) : Moves 0x800000000000038 s (raiseMgcTile s code phys detail) := by
  unfold raiseMgcTile
  repeat' first
    | with_reducible exact Moves.refl _ _
    | (with_reducible apply Moves.next ?hm (raise_moves ..) ?_; (case hm => decide))

theorem absentCmd_moves (s l) : Moves 0x800000000000038 s (absentCmd s l) := by
  unfold absentCmd
  repeat' first
    | with_reducible exact Moves.refl _ _
    | (with_reducible apply Moves.next ?hm (raiseMgc_moves ..) ?_; (case hm => decide))

theorem sendPkt_moves (s p) : Moves 0x100000 s (sendPkt s p) := by
  unfold sendPkt
  repeat' first
    | (extract_lets +onlyGivenNames x; clear_value x; revert x; intro _)
    | with_reducible exact Moves.refl _ _
    | refine Moves.upd rfl (fun h => by cases h; constructor <;> first | assumption | (try dsimp only; first | exact mapSet_wf _ _ _ _ (by assumption) | exact mapMod_wf _ _ _ _ (by assumption) | exact mapDrop_wf _ _ _ (by assumption) | exact mapFilter_wf _ _ _ (by assumption) | exact pokeBytes_wf _ _ _ (by assumption) | exact foldl_wf _ _ (fun _ _ h => mapSet_wf _ _ _ _ h) _ (by assumption) | exact foldl_wf _ _ (fun _ _ h => mapMod_wf _ _ _ _ h) _ (by assumption) | exact rfl)) ?_

theorem takeArrived_moves (s p) : Moves 0x100000 s (takeArrived s p) := by
  unfold takeArrived
  repeat' first
    | (extract_lets +onlyGivenNames x; clear_value x; revert x; intro _)
    | with_reducible exact Moves.refl _ _
    | refine Moves.upd rfl (fun h => by cases h; constructor <;> first | assumption | (try dsimp only; first | exact mapSet_wf _ _ _ _ (by assumption) | exact mapMod_wf _ _ _ _ (by assumption) | exact mapDrop_wf _ _ _ (by assumption) | exact mapFilter_wf _ _ _ (by assumption) | exact pokeBytes_wf _ _ _ (by assumption) | exact foldl_wf _ _ (fun _ _ h => mapSet_wf _ _ _ _ h) _ (by assumption) | exact foldl_wf _ _ (fun _ _ h => mapMod_wf _ _ _ _ h) _ (by assumption) | exact rfl)) ?_

theorem onPage_moves {m : Nat} {f} (hm : 0x0 ||| m = m) (hf : ∀ s, Moves m s (f s)) (s b inst) :
    Moves m s (onPage s b inst f) := by
  unfold onPage
  repeat' first
    | with_reducible apply Moves.ite
    | with_reducible exact Moves.refl _ _
    | with_reducible apply Moves.trans (hf ..) ?_

theorem onEng_moves {m : Nat} {f} (hm : 0x0 ||| m = m) (hf : ∀ s, Moves m s (f s)) (s e) :
    Moves m s (onEng s e f) := by
  unfold onEng
  repeat' first
    | with_reducible exact Moves.refl _ _
    | with_reducible apply Moves.trans (hf ..) ?_
    | (with_reducible apply Moves.trans (onPage_moves ?hm (fun s => ?_) ..) ?_; (case hm => exact le_of hm (by decide)))

theorem bumpLife_moves (s i) : Moves 0x8000000000000 s (bumpLife s i) := by
  unfold bumpLife
  repeat' first
    | with_reducible exact Moves.refl _ _
    | refine Moves.upd rfl (fun h => by cases h; constructor <;> first | assumption | (try dsimp only; first | exact mapSet_wf _ _ _ _ (by assumption) | exact mapMod_wf _ _ _ _ (by assumption) | exact mapDrop_wf _ _ _ (by assumption) | exact mapFilter_wf _ _ _ (by assumption) | exact pokeBytes_wf _ _ _ (by assumption) | exact foldl_wf _ _ (fun _ _ h => mapSet_wf _ _ _ _ h) _ (by assumption) | exact foldl_wf _ _ (fun _ _ h => mapMod_wf _ _ _ _ h) _ (by assumption) | exact rfl)) ?_

theorem addWear_moves (s k v) : Moves 0x10000000000000 s (addWear s k v) := by
  unfold addWear
  repeat' first
    | with_reducible exact Moves.refl _ _
    | refine Moves.upd rfl (fun h => by cases h; constructor <;> first | assumption | (try dsimp only; first | exact mapSet_wf _ _ _ _ (by assumption) | exact mapMod_wf _ _ _ _ (by assumption) | exact mapDrop_wf _ _ _ (by assumption) | exact mapFilter_wf _ _ _ (by assumption) | exact pokeBytes_wf _ _ _ (by assumption) | exact foldl_wf _ _ (fun _ _ h => mapSet_wf _ _ _ _ h) _ (by assumption) | exact foldl_wf _ _ (fun _ _ h => mapMod_wf _ _ _ _ h) _ (by assumption) | exact rfl)) ?_

theorem applyStraps_moves (s) : Moves 0x8 s (applyStraps s) := by
  unfold applyStraps
  repeat' first
    | with_reducible exact Moves.refl _ _
    | (with_reducible apply Moves.next ?hm (setF_moves ..) ?_; (case hm => decide))
    | with_reducible apply Moves.foldl _ (fun s x => ?_) _ ?_

theorem sendAck_moves (s p) : Moves 0x100000 s (sendAck s p) := by
  unfold sendAck
  repeat' first
    | with_reducible exact Moves.refl _ _
    | (with_reducible apply Moves.next ?hm (sendPkt_moves ..) ?_; (case hm => decide))

theorem sendNack_moves (s p code) : Moves 0x100000 s (sendNack s p code) := by
  unfold sendNack
  repeat' first
    | with_reducible exact Moves.refl _ _
    | (with_reducible apply Moves.next ?hm (sendPkt_moves ..) ?_; (case hm => decide))

theorem traceEv_moves (s e t' tag pc ev detail) : Moves 0x88 s (traceEv s e t' tag pc ev detail) := by
  unfold traceEv
  repeat' first
    | (extract_lets +onlyGivenNames t; refine Moves.cut (t := t) ?_ (fun ht => ?_); (on_goal 2 => (clear_value t; revert t; intro _ _)); (on_goal 1 => (unfold t; clear t)))
    | (extract_lets +onlyGivenNames x; clear_value x; revert x; intro _)
    | with_reducible apply Moves.ite
    | with_reducible exact Moves.refl _ _
    | with_reducible assumption
    | (with_reducible apply Moves.next ?hm (setF_moves ..) ?_; (case hm => decide))
    | (with_reducible apply Moves.next ?hm (modTile_moves ..) ?_; (case hm => decide))
    | split

theorem traceCap_moves (before s p) : Moves 0x88 s (traceCap before s p) := by
  unfold traceCap
  repeat' first
    | (extract_lets +onlyGivenNames t; refine Moves.cut (t := t) ?_ (fun ht => ?_); (on_goal 2 => (clear_value t; revert t; intro _ _)); (on_goal 1 => (unfold t; clear t)))
    | (extract_lets +onlyGivenNames x; clear_value x; revert x; intro _)
    | with_reducible apply Moves.ite
    | with_reducible exact Moves.refl _ _
    | with_reducible assumption
    | (with_reducible apply Moves.next ?hm (addF_moves ..) ?_; (case hm => decide))
    | (with_reducible apply Moves.next ?hm (setF_moves ..) ?_; (case hm => decide))
    | (with_reducible apply Moves.next ?hm (modTile_moves ..) ?_; (case hm => decide))

theorem traceCaps_moves (before s) : Moves 0x88 s (traceCaps before s) := by
  unfold traceCaps
  repeat' first
    | with_reducible exact Moves.refl _ _
    | (with_reducible apply Moves.next ?hm (traceCap_moves ..) ?_; (case hm => decide))
    | with_reducible apply Moves.foldl _ (fun s x => ?_) _ ?_

theorem setLastFault_moves (s e code tag) : Moves 0x8 s (setLastFault s e code tag) := by
  unfold setLastFault
  repeat' first
    | (extract_lets +onlyGivenNames t; refine Moves.cut (t := t) ?_ (fun ht => ?_); (on_goal 2 => (clear_value t; revert t; intro _ _)); (on_goal 1 => (unfold t; clear t)))
    | with_reducible apply Moves.ite
    | with_reducible exact Moves.refl _ _
    | with_reducible assumption
    | (with_reducible apply Moves.next ?hm (setF_moves ..) ?_; (case hm => decide))
    | split

theorem ceFreeSlot_moves (s c x) : Moves 0x800000 s (ceFreeSlot s c x) := by
  unfold ceFreeSlot
  repeat' first
    | (extract_lets +onlyGivenNames x; clear_value x; revert x; intro _)
    | with_reducible apply Moves.ite
    | with_reducible exact Moves.refl _ _
    | (with_reducible apply Moves.next ?hm (setCe_moves ..) ?_; (case hm => decide))
    | split

theorem ceFree_moves (s c pkt) : Moves 0x800000 s (ceFree s c pkt) := by
  unfold ceFree
  repeat' first
    | with_reducible exact Moves.refl _ _
    | (with_reducible apply Moves.next ?hm (ceFreeSlot_moves ..) ?_; (case hm => decide))

theorem ceFlush_moves (s c) : Moves 0x900000 s (ceFlush s c) := by
  unfold ceFlush
  dsimp only
  repeat' first
    | with_reducible apply Moves.ite
    | with_reducible exact Moves.refl _ _
    | (with_reducible apply Moves.next ?hm (sendPkt_moves ..) ?_; (case hm => decide))
    | (with_reducible apply Moves.next ?hm (setCe_moves ..) ?_; (case hm => decide))
    | with_reducible apply Moves.foldl _ (fun s x => ?_) _ ?_

theorem stopWork_moves (s x1) : Moves 0x900080 s (stopWork s x1) := by
  unfold stopWork
  repeat' first
    | (extract_lets +onlyGivenNames t; refine Moves.cut (t := t) ?_ (fun ht => ?_); (on_goal 2 => (clear_value t; revert t; intro _ _)); (on_goal 1 => (unfold t; clear t)))
    | (extract_lets +onlyGivenNames x; clear_value x; revert x; intro _)
    | with_reducible exact Moves.refl _ _
    | with_reducible assumption
    | (with_reducible apply Moves.next ?hm (ceFreeSlot_moves ..) ?_; (case hm => decide))
    | (with_reducible apply Moves.next ?hm (ceFlush_moves ..) ?_; (case hm => decide))
    | (with_reducible apply Moves.next ?hm (ceFree_moves ..) ?_; (case hm => decide))
    | (with_reducible apply Moves.next ?hm (modTile_moves ..) ?_; (case hm => decide))
    | (with_reducible apply Moves.next ?hm (setCe_moves ..) ?_; (case hm => decide))
    | with_reducible apply Moves.foldl _ (fun s x => ?_) _ ?_
    | split

theorem takeBackMark_moves (s e) : Moves 0x200 s (takeBackMark s e) := by
  unfold takeBackMark
  repeat' first
    | (extract_lets +onlyGivenNames x; clear_value x; revert x; intro _)
    | with_reducible exact Moves.refl _ _
    | refine Moves.upd rfl (fun h => by cases h; constructor <;> first | assumption | (try dsimp only; first | exact mapSet_wf _ _ _ _ (by assumption) | exact mapMod_wf _ _ _ _ (by assumption) | exact mapDrop_wf _ _ _ (by assumption) | exact mapFilter_wf _ _ _ (by assumption) | exact pokeBytes_wf _ _ _ (by assumption) | exact foldl_wf _ _ (fun _ _ h => mapSet_wf _ _ _ _ h) _ (by assumption) | exact foldl_wf _ _ (fun _ _ h => mapMod_wf _ _ _ _ h) _ (by assumption) | exact rfl)) ?_

theorem takeBackBar_moves (s e) : Moves 0x100 s (takeBackBar s e) := by
  unfold takeBackBar
  repeat' first
    | (extract_lets +onlyGivenNames x; clear_value x; revert x; intro _)
    | with_reducible apply Moves.ite
    | with_reducible exact Moves.refl _ _
    | (with_reducible apply Moves.next ?hm (setCtx_moves ..) ?_; (case hm => decide))
    | split

theorem faultEngine_moves (s e code tag pc t' addr space detail) : Moves 0x8000000009003f8 s (faultEngine s e code tag pc t' addr space detail) := by
  unfold faultEngine
  repeat' first
    | (extract_lets +onlyGivenNames t; refine Moves.cut (t := t) ?_ (fun ht => ?_); (on_goal 2 => (clear_value t; revert t; intro _ _)); (on_goal 1 => (unfold t; clear t)))
    | (extract_lets +onlyGivenNames x; clear_value x; revert x; intro _)
    | with_reducible apply Moves.ite
    | with_reducible exact Moves.refl _ _
    | with_reducible assumption
    | (with_reducible apply Moves.next ?hm (setEng_moves ..) ?_; (case hm => decide))
    | (with_reducible apply Moves.next ?hm (stopWork_moves ..) ?_; (case hm => decide))
    | (with_reducible apply Moves.next ?hm (takeBackMark_moves ..) ?_; (case hm => decide))
    | (with_reducible apply Moves.next ?hm (setLastFault_moves ..) ?_; (case hm => decide))
    | (with_reducible apply Moves.next ?hm (takeBackBar_moves ..) ?_; (case hm => decide))
    | (with_reducible apply Moves.next ?hm (traceEv_moves ..) ?_; (case hm => decide))
    | (with_reducible apply Moves.next ?hm (raise_moves ..) ?_; (case hm => decide))

theorem faultQ_moves (s e q code addr space detail) : Moves 0x8000000009003f8 s (faultQ s e q code addr space detail) := by
  unfold faultQ
  repeat' first
    | with_reducible exact Moves.refl _ _
    | (with_reducible apply Moves.next ?hm (faultEngine_moves ..) ?_; (case hm => decide))

theorem setCtr_moves (s p c v) : Moves 0x8 s (setCtr s p c v) := by
  unfold setCtr
  repeat' first
    | with_reducible exact Moves.refl _ _
    | (with_reducible apply Moves.next ?hm (setFi_moves ..) ?_; (case hm => decide))

theorem addIncr_moves (s p i) : Moves 0x80 s (addIncr s p i) := by
  unfold addIncr
  repeat' first
    | with_reducible apply Moves.ite
    | with_reducible exact Moves.refl _ _
    | (with_reducible apply Moves.next ?hm (modTile_moves ..) ?_; (case hm => decide))

theorem signalDone_moves (s e sctr tag pc) : Moves 0x80 s (signalDone s e sctr tag pc) := by
  unfold signalDone
  repeat' first
    | with_reducible exact Moves.refl _ _
    | (with_reducible apply Moves.next ?hm (addIncr_moves ..) ?_; (case hm => decide))
    | split

theorem signalUnit_moves (s p ctr tag) : Moves 0x80 s (signalUnit s p ctr tag) := by
  unfold signalUnit
  repeat' first
    | with_reducible exact Moves.refl _ _
    | (with_reducible apply Moves.next ?hm (addIncr_moves ..) ?_; (case hm => decide))
    | split

theorem completeDone_moves (s e d) : Moves 0x88 s (completeDone s e d) := by
  unfold completeDone
  repeat' first
    | (extract_lets +onlyGivenNames t; refine Moves.cut (t := t) ?_ (fun ht => ?_); (on_goal 2 => (clear_value t; revert t; intro _ _)); (on_goal 1 => (unfold t; clear t)))
    | with_reducible apply Moves.ite
    | with_reducible exact Moves.refl _ _
    | with_reducible assumption
    | (with_reducible apply Moves.next ?hm (setP_moves ..) ?_; (case hm => decide))
    | (with_reducible apply Moves.next ?hm (signalDone_moves ..) ?_; (case hm => decide))
    | (with_reducible apply Moves.next ?hm (traceEv_moves ..) ?_; (case hm => decide))

theorem popFront_moves (s e) : Moves 0x40 s (popFront s e) := by
  unfold popFront
  repeat' first
    | with_reducible exact Moves.refl _ _
    | (with_reducible apply Moves.next ?hm (modEng_moves ..) ?_; (case hm => decide))

theorem finishFront_moves (s e q) : Moves 0xc8 s (finishFront s e q) := by
  unfold finishFront
  repeat' first
    | with_reducible exact Moves.refl _ _
    | (with_reducible apply Moves.next ?hm (popFront_moves ..) ?_; (case hm => decide))
    | (with_reducible apply Moves.next ?hm (completeDone_moves ..) ?_; (case hm => decide))
    | (with_reducible apply Moves.next ?hm (traceEv_moves ..) ?_; (case hm => decide))

theorem beginWait_moves (s e q k c v) : Moves 0xc8 s (beginWait s e q k c v) := by
  unfold beginWait
  repeat' first
    | (extract_lets +onlyGivenNames t; refine Moves.cut (t := t) ?_ (fun ht => ?_); (on_goal 2 => (clear_value t; revert t; intro _ _)); (on_goal 1 => (unfold t; clear t)))
    | with_reducible exact Moves.refl _ _
    | with_reducible assumption
    | (with_reducible apply Moves.next ?hm (modEng_moves ..) ?_; (case hm => decide))
    | (with_reducible apply Moves.next ?hm (traceEv_moves ..) ?_; (case hm => decide))

theorem noteServed_moves (s p c e) : Moves 0x80 s (noteServed s p c e) := by
  unfold noteServed
  repeat' first
    | with_reducible exact Moves.refl _ _
    | (with_reducible apply Moves.next ?hm (modTile_moves ..) ?_; (case hm => decide))
    | split

theorem takeCtr_moves (s p c v e) : Moves 0x88 s (takeCtr s p c v e) := by
  unfold takeCtr
  repeat' first
    | with_reducible exact Moves.refl _ _
    | (with_reducible apply Moves.next ?hm (noteServed_moves ..) ?_; (case hm => decide))
    | (with_reducible apply Moves.next ?hm (setCtr_moves ..) ?_; (case hm => decide))

theorem passFctr_moves (s x1) : Moves 0x800000 s (passFctr s x1) := by
  unfold passFctr
  repeat' first
    | (extract_lets +onlyGivenNames x; clear_value x; revert x; intro _)
    | with_reducible exact Moves.refl _ _
    | (with_reducible apply Moves.next ?hm (setCe_moves ..) ?_; (case hm => decide))
    | split

theorem satisfyIssue_moves (s p c e) : Moves 0x8000c8 s (satisfyIssue s p c e) := by
  unfold satisfyIssue
  repeat' first
    | (extract_lets +onlyGivenNames t; refine Moves.cut (t := t) ?_ (fun ht => ?_); (on_goal 2 => (clear_value t; revert t; intro _ _)); (on_goal 1 => (unfold t; clear t)))
    | (extract_lets +onlyGivenNames x; clear_value x; revert x; intro _)
    | with_reducible apply Moves.ite
    | with_reducible exact Moves.refl _ _
    | with_reducible assumption
    | (with_reducible apply Moves.next ?hm (setEng_moves ..) ?_; (case hm => decide))
    | (with_reducible apply Moves.next ?hm (passFctr_moves ..) ?_; (case hm => decide))
    | (with_reducible apply Moves.next ?hm (finishFront_moves ..) ?_; (case hm => decide))
    | (with_reducible apply Moves.next ?hm (traceEv_moves ..) ?_; (case hm => decide))
    | (with_reducible apply Moves.next ?hm (takeCtr_moves ..) ?_; (case hm => decide))
    | split

theorem satisfyFill_moves (s p c e) : Moves 0xc8 s (satisfyFill s p c e) := by
  unfold satisfyFill
  repeat' first
    | (extract_lets +onlyGivenNames t; refine Moves.cut (t := t) ?_ (fun ht => ?_); (on_goal 2 => (clear_value t; revert t; intro _ _)); (on_goal 1 => (unfold t; clear t)))
    | (extract_lets +onlyGivenNames x; clear_value x; revert x; intro _)
    | with_reducible apply Moves.ite
    | with_reducible exact Moves.refl _ _
    | with_reducible assumption
    | (with_reducible apply Moves.next ?hm (setEng_moves ..) ?_; (case hm => decide))
    | (with_reducible apply Moves.next ?hm (traceEv_moves ..) ?_; (case hm => decide))
    | (with_reducible apply Moves.next ?hm (takeCtr_moves ..) ?_; (case hm => decide))
    | split

theorem satisfyCv_moves (s p c u) : Moves 0x88 s (satisfyCv s p c u) := by
  unfold satisfyCv
  repeat' first
    | (extract_lets +onlyGivenNames t; refine Moves.cut (t := t) ?_ (fun ht => ?_); (on_goal 2 => (clear_value t; revert t; intro _ _)); (on_goal 1 => (unfold t; clear t)))
    | (extract_lets +onlyGivenNames x; clear_value x; revert x; intro _)
    | with_reducible apply Moves.ite
    | with_reducible exact Moves.refl _ _
    | with_reducible assumption
    | (with_reducible apply Moves.next ?hm (setCtr_moves ..) ?_; (case hm => decide))
    | (with_reducible apply Moves.next ?hm (modTile_moves ..) ?_; (case hm => decide))

theorem testWaits_moves (s p c) : Moves 0x8000c8 s (testWaits s p c) := by
  unfold testWaits
  repeat' first
    | (extract_lets +onlyGivenNames t; refine Moves.cut (t := t) ?_ (fun ht => ?_); (on_goal 2 => (clear_value t; revert t; intro _ _)); (on_goal 1 => (unfold t; clear t)))
    | (extract_lets +onlyGivenNames x; clear_value x; revert x; intro _)
    | with_reducible exact Moves.refl _ _
    | with_reducible assumption
    | (with_reducible apply Moves.next ?hm (satisfyFill_moves ..) ?_; (case hm => decide))
    | (with_reducible apply Moves.next ?hm (satisfyCv_moves ..) ?_; (case hm => decide))
    | (with_reducible apply Moves.next ?hm (satisfyIssue_moves ..) ?_; (case hm => decide))
    | with_reducible apply Moves.foldl _ (fun s x => ?_) _ ?_

theorem takeW_moves (s e q) : Moves 0x8000000009003f8 s (takeW s e q).1 := by
  unfold takeW
  repeat' first
    | (extract_lets +onlyGivenNames x; clear_value x; revert x; intro _)
    | with_reducible apply Moves.ite_fst
    | with_reducible exact Moves.refl _ _
    | (with_reducible apply Moves.next ?hm (modEng_moves ..) ?_; (case hm => decide))
    | (with_reducible apply Moves.next ?hm (beginWait_moves ..) ?_; (case hm => decide))
    | (with_reducible apply Moves.next ?hm (faultQ_moves ..) ?_; (case hm => decide))
    | (with_reducible apply Moves.next ?hm (takeCtr_moves ..) ?_; (case hm => decide))
    | split

theorem runCtl_moves {m : Nat} {body} (hm : 0x8000000009003f8 ||| m = m) (hf : ∀ s q, Moves m s (body s q)) (s e cls op rsv) :
    Moves m s (runCtl s e cls op rsv body) := by
  unfold runCtl
  repeat' first
    | with_reducible apply Moves.ite
    | with_reducible exact Moves.refl _ _
    | with_reducible apply Moves.trans (hf ..) ?_
    | (with_reducible apply Moves.next ?hm (takeW_moves ..) ?_; (case hm => exact le_of hm (by decide)))
    | (with_reducible apply Moves.next ?hm (faultQ_moves ..) ?_; (case hm => exact le_of hm (by decide)))
    | split
    | (with_reducible apply Moves.fst_of ?he ?_; (case he => with_reducible assumption))

theorem fetchAs_moves (s e seen) : Moves 0x8000000009003f8 s (fetchAs s e seen) := by
  unfold fetchAs
  repeat' first
    | (extract_lets +onlyGivenNames x; clear_value x; revert x; intro _)
    | with_reducible apply Moves.ite
    | with_reducible exact Moves.refl _ _
    | (with_reducible apply Moves.next ?hm (setEng_moves ..) ?_; (case hm => decide))
    | (with_reducible apply Moves.next ?hm (faultEngine_moves ..) ?_; (case hm => decide))

theorem fetch_moves (s e) : Moves 0x8000000009003f8 s (fetch s e) := by
  unfold fetch
  repeat' first
    | with_reducible exact Moves.refl _ _
    | (with_reducible apply Moves.next ?hm (fetchAs_moves ..) ?_; (case hm => decide))

theorem cmdErr_moves (s e) : Moves 0x8 s (cmdErr s e) := by
  unfold cmdErr
  repeat' first
    | with_reducible exact Moves.refl _ _
    | (with_reducible apply Moves.next ?hm (setP_moves ..) ?_; (case hm => decide))

theorem launch_moves (s e) : Moves 0x48 s (launch s e) := by
  unfold launch
  repeat' first
    | (extract_lets +onlyGivenNames t; refine Moves.cut (t := t) ?_ (fun ht => ?_); (on_goal 2 => (clear_value t; revert t; intro _ _)); (on_goal 1 => (unfold t; clear t)))
    | (extract_lets +onlyGivenNames x; clear_value x; revert x; intro _)
    | with_reducible apply Moves.ite
    | with_reducible exact Moves.refl _ _
    | with_reducible assumption
    | (with_reducible apply Moves.next ?hm (setEng_moves ..) ?_; (case hm => decide))
    | (with_reducible apply Moves.next ?hm (setP_moves ..) ?_; (case hm => decide))

theorem ceLoaded_moves (s x1) : Moves 0x800000 s (ceLoaded s x1) := by
  unfold ceLoaded
  repeat' first
    | (extract_lets +onlyGivenNames x; clear_value x; revert x; intro _)
    | with_reducible exact Moves.refl _ _
    | (with_reducible apply Moves.next ?hm (setCe_moves ..) ?_; (case hm => decide))
    | split

theorem doLoad_moves (s e) : Moves 0x800048 s (doLoad s e) := by
  unfold doLoad
  repeat' first
    | with_reducible apply Moves.ite
    | with_reducible exact Moves.refl _ _
    | (with_reducible apply Moves.next ?hm (cmdErr_moves ..) ?_; (case hm => decide))
    | (with_reducible apply Moves.next ?hm (ceLoaded_moves ..) ?_; (case hm => decide))
    | (with_reducible apply Moves.next ?hm (modEng_moves ..) ?_; (case hm => decide))

theorem doStart_moves (s e) : Moves 0x48 s (doStart s e) := by
  unfold doStart
  repeat' first
    | with_reducible apply Moves.ite
    | with_reducible exact Moves.refl _ _
    | (with_reducible apply Moves.next ?hm (cmdErr_moves ..) ?_; (case hm => decide))
    | (with_reducible apply Moves.next ?hm (modEng_moves ..) ?_; (case hm => decide))

theorem arm_moves (s e count) : Moves 0x40 s (arm s e count) := by
  unfold arm
  repeat' first
    | with_reducible exact Moves.refl _ _
    | (with_reducible apply Moves.next ?hm (modEng_moves ..) ?_; (case hm => decide))

theorem doArm_moves (s e) : Moves 0x48 s (doArm s e) := by
  unfold doArm
  repeat' first
    | with_reducible apply Moves.ite
    | with_reducible exact Moves.refl _ _
    | (with_reducible apply Moves.next ?hm (cmdErr_moves ..) ?_; (case hm => decide))
    | (with_reducible apply Moves.next ?hm (arm_moves ..) ?_; (case hm => decide))

theorem haltEngine_moves (s e) : Moves 0x9002c0 s (haltEngine s e) := by
  unfold haltEngine
  repeat' first
    | (extract_lets +onlyGivenNames x; clear_value x; revert x; intro _)
    | with_reducible exact Moves.refl _ _
    | (with_reducible apply Moves.next ?hm (setEng_moves ..) ?_; (case hm => decide))
    | (with_reducible apply Moves.next ?hm (stopWork_moves ..) ?_; (case hm => decide))
    | (with_reducible apply Moves.next ?hm (takeBackMark_moves ..) ?_; (case hm => decide))

theorem doHalt_moves (s e) : Moves 0x9002c8 s (doHalt s e) := by
  unfold doHalt
  repeat' first
    | (extract_lets +onlyGivenNames t; refine Moves.cut (t := t) ?_ (fun ht => ?_); (on_goal 2 => (clear_value t; revert t; intro _ _)); (on_goal 1 => (unfold t; clear t)))
    | with_reducible exact Moves.refl _ _
    | with_reducible assumption
    | (with_reducible apply Moves.next ?hm (cmdErr_moves ..) ?_; (case hm => decide))
    | (with_reducible apply Moves.next ?hm (launch_moves ..) ?_; (case hm => decide))
    | (with_reducible apply Moves.next ?hm (haltEngine_moves ..) ?_; (case hm => decide))
    | split

theorem doQuiesce_moves (s e) : Moves 0x48 s (doQuiesce s e) := by
  unfold doQuiesce
  repeat' first
    | (extract_lets +onlyGivenNames t; refine Moves.cut (t := t) ?_ (fun ht => ?_); (on_goal 2 => (clear_value t; revert t; intro _ _)); (on_goal 1 => (unfold t; clear t)))
    | with_reducible exact Moves.refl _ _
    | with_reducible assumption
    | (with_reducible apply Moves.next ?hm (cmdErr_moves ..) ?_; (case hm => decide))
    | (with_reducible apply Moves.next ?hm (modEng_moves ..) ?_; (case hm => decide))
    | (with_reducible apply Moves.next ?hm (launch_moves ..) ?_; (case hm => decide))
    | split

theorem holdWork_moves (s x1) : Moves 0x800080 s (holdWork s x1) := by
  unfold holdWork
  repeat' first
    | (extract_lets +onlyGivenNames x; clear_value x; revert x; intro _)
    | with_reducible exact Moves.refl _ _
    | (with_reducible apply Moves.next ?hm (modTile_moves ..) ?_; (case hm => decide))
    | (with_reducible apply Moves.next ?hm (setCe_moves ..) ?_; (case hm => decide))
    | split

theorem restartWork_moves (s x1) : Moves 0x800080 s (restartWork s x1) := by
  unfold restartWork
  repeat' first
    | (extract_lets +onlyGivenNames x; clear_value x; revert x; intro _)
    | with_reducible exact Moves.refl _ _
    | (with_reducible apply Moves.next ?hm (modTile_moves ..) ?_; (case hm => decide))
    | (with_reducible apply Moves.next ?hm (setCe_moves ..) ?_; (case hm => decide))
    | split

theorem refetch_moves (s e x2) : Moves 0x8000000009003f8 s (refetch s e x2) := by
  induction x2 generalizing s with
    | zero => ?_
    | succ n ih => ?_
  all_goals unfold refetch
  repeat' first
    | with_reducible exact Moves.refl _ _
    | (with_reducible apply Moves.next ?hm (fetch_moves ..) ?_; (case hm => decide))
    | with_reducible apply Moves.trans (ih ..) ?_

theorem resumeEngine_moves (s e) : Moves 0x8000000009003f8 s (resumeEngine s e) := by
  unfold resumeEngine
  repeat' first
    | (extract_lets +onlyGivenNames t; refine Moves.cut (t := t) ?_ (fun ht => ?_); (on_goal 2 => (clear_value t; revert t; intro _ _)); (on_goal 1 => (unfold t; clear t)))
    | (extract_lets +onlyGivenNames x; clear_value x; revert x; intro _)
    | with_reducible apply Moves.ite
    | with_reducible exact Moves.refl _ _
    | with_reducible assumption
    | (with_reducible apply Moves.next ?hm (setEng_moves ..) ?_; (case hm => decide))
    | (with_reducible apply Moves.next ?hm (testWaits_moves ..) ?_; (case hm => decide))
    | (with_reducible apply Moves.next ?hm (signalDone_moves ..) ?_; (case hm => decide))
    | (with_reducible apply Moves.next ?hm (arm_moves ..) ?_; (case hm => decide))
    | (with_reducible apply Moves.next ?hm (faultEngine_moves ..) ?_; (case hm => decide))
    | (with_reducible apply Moves.next ?hm (refetch_moves ..) ?_; (case hm => decide))
    | (with_reducible apply Moves.next ?hm (restartWork_moves ..) ?_; (case hm => decide))
    | with_reducible apply Moves.foldl _ (fun s x => ?_) _ ?_
    | split

theorem doResume_moves (s e) : Moves 0x8000000009003f8 s (doResume s e) := by
  unfold doResume
  repeat' first
    | with_reducible apply Moves.ite
    | with_reducible exact Moves.refl _ _
    | (with_reducible apply Moves.next ?hm (cmdErr_moves ..) ?_; (case hm => decide))
    | (with_reducible apply Moves.next ?hm (resumeEngine_moves ..) ?_; (case hm => decide))

theorem doMarkEn_moves (s e v) : Moves 0x8 s (doMarkEn s e v) := by
  unfold doMarkEn
  repeat' first
    | with_reducible apply Moves.ite
    | with_reducible exact Moves.refl _ _
    | (with_reducible apply Moves.next ?hm (setP_moves ..) ?_; (case hm => decide))
    | (with_reducible apply Moves.next ?hm (cmdErr_moves ..) ?_; (case hm => decide))
    | split

theorem doGWrite_moves (s e n v) : Moves 0x8 s (doGWrite s e n v) := by
  unfold doGWrite
  repeat' first
    | with_reducible exact Moves.refl _ _
    | (with_reducible apply Moves.next ?hm (cmdErr_moves ..) ?_; (case hm => decide))
    | (with_reducible apply Moves.next ?hm (setG_moves ..) ?_; (case hm => decide))
    | split

theorem doPctl_moves (s e cmd) : Moves 0x8000000009003f8 s (doPctl s e cmd) := by
  unfold doPctl
  repeat' first
    | with_reducible exact Moves.refl _ _
    | (with_reducible apply Moves.next ?hm (doResume_moves ..) ?_; (case hm => decide))
    | (with_reducible apply Moves.next ?hm (doStart_moves ..) ?_; (case hm => decide))
    | (with_reducible apply Moves.next ?hm (doArm_moves ..) ?_; (case hm => decide))
    | (with_reducible apply Moves.next ?hm (cmdErr_moves ..) ?_; (case hm => decide))
    | (with_reducible apply Moves.next ?hm (doQuiesce_moves ..) ?_; (case hm => decide))
    | (with_reducible apply Moves.next ?hm (doHalt_moves ..) ?_; (case hm => decide))
    | (with_reducible apply Moves.next ?hm (doLoad_moves ..) ?_; (case hm => decide))
    | split

theorem quiesced_moves (s e) : Moves 0x8000c0 s (quiesced s e) := by
  unfold quiesced
  repeat' first
    | (extract_lets +onlyGivenNames x; clear_value x; revert x; intro _)
    | with_reducible apply Moves.ite
    | with_reducible exact Moves.refl _ _
    | (with_reducible apply Moves.next ?hm (setEng_moves ..) ?_; (case hm => decide))
    | (with_reducible apply Moves.next ?hm (holdWork_moves ..) ?_; (case hm => decide))

theorem rampStep_moves (s) : Moves 0x200000000004000 s (rampStep s) := by
  unfold rampStep
  repeat' first
    | (extract_lets +onlyGivenNames x; clear_value x; revert x; intro _)
    | with_reducible apply Moves.ite
    | with_reducible exact Moves.refl _ _
    | (with_reducible apply Moves.next ?hm (setTimer_moves ..) ?_; (case hm => decide))
    | refine Moves.upd rfl (fun h => by cases h; constructor <;> first | assumption | (try dsimp only; first | exact mapSet_wf _ _ _ _ (by assumption) | exact mapMod_wf _ _ _ _ (by assumption) | exact mapDrop_wf _ _ _ (by assumption) | exact mapFilter_wf _ _ _ (by assumption) | exact pokeBytes_wf _ _ _ (by assumption) | exact foldl_wf _ _ (fun _ _ h => mapSet_wf _ _ _ _ h) _ (by assumption) | exact foldl_wf _ _ (fun _ _ h => mapMod_wf _ _ _ _ h) _ (by assumption) | exact rfl)) ?_

theorem ctSimple_moves {m : Nat} {f} (hm : 0x8000000009003f8 ||| m = m) (hf : ∀ s q, Moves m s (f s q)) (s e op rsv) :
    Moves m s (ctSimple s e op rsv f) := by
  unfold ctSimple
  repeat' first
    | with_reducible exact Moves.refl _ _
    | with_reducible apply Moves.trans (hf ..) ?_
    | (with_reducible apply Moves.trans (runCtl_moves ?hm (fun s q => ?_) ..) ?_; (case hm => exact le_of hm (by decide)))
    | (with_reducible apply Moves.next ?hm (finishFront_moves ..) ?_; (case hm => exact le_of hm (by decide)))

theorem doCtHalt_moves (s e) : Moves 0x8000000009003f8 s (doCtHalt s e) := by
  unfold doCtHalt
  repeat' first
    | (extract_lets +onlyGivenNames t; refine Moves.cut (t := t) ?_ (fun ht => ?_); (on_goal 2 => (clear_value t; revert t; intro _ _)); (on_goal 1 => (unfold t; clear t)))
    | with_reducible apply Moves.ite
    | with_reducible exact Moves.refl _ _
    | with_reducible assumption
    | (with_reducible apply Moves.trans (runCtl_moves ?hm (fun s q => ?_) ..) ?_; (case hm => decide))
    | (with_reducible apply Moves.next ?hm (finishFront_moves ..) ?_; (case hm => decide))
    | (with_reducible apply Moves.next ?hm (modEng_moves ..) ?_; (case hm => decide))

theorem doCtTrap_moves (s e) : Moves 0x8000000009003f8 s (doCtTrap s e) := by
  unfold doCtTrap
  repeat' first
    | with_reducible exact Moves.refl _ _
    | (with_reducible apply Moves.trans (runCtl_moves ?hm (fun s q => ?_) ..) ?_; (case hm => decide))
    | (with_reducible apply Moves.next ?hm (faultQ_moves ..) ?_; (case hm => decide))

theorem doCtLaunch_moves (s e) : Moves 0x8000000009003f8 s (doCtLaunch s e) := by
  unfold doCtLaunch
  repeat' first
    | (extract_lets +onlyGivenNames t; refine Moves.cut (t := t) ?_ (fun ht => ?_); (on_goal 2 => (clear_value t; revert t; intro _ _)); (on_goal 1 => (unfold t; clear t)))
    | (extract_lets +onlyGivenNames x; clear_value x; revert x; intro _)
    | with_reducible apply Moves.ite
    | with_reducible exact Moves.refl _ _
    | with_reducible assumption
    | (with_reducible apply Moves.trans (runCtl_moves ?hm (fun s q => ?_) ..) ?_; (case hm => decide))
    | (with_reducible apply Moves.next ?hm (finishFront_moves ..) ?_; (case hm => decide))
    | (with_reducible apply Moves.next ?hm (modEng_moves ..) ?_; (case hm => decide))
    | (with_reducible apply Moves.next ?hm (regSet_moves ..) ?_; (case hm => decide))
    | (with_reducible apply Moves.next ?hm (arm_moves ..) ?_; (case hm => decide))

theorem doCtLi_moves (s e) : Moves 0x8000000009003f8 s (doCtLi s e) := by
  unfold doCtLi
  repeat' first
    | with_reducible exact Moves.refl _ _
    | (with_reducible apply Moves.trans (ctSimple_moves ?hm (fun s q => ?_) ..) ?_; (case hm => decide))
    | (with_reducible apply Moves.next ?hm (setG_moves ..) ?_; (case hm => decide))

theorem doCtAddi_moves (s e) : Moves 0x8000000009003f8 s (doCtAddi s e) := by
  unfold doCtAddi
  repeat' first
    | with_reducible exact Moves.refl _ _
    | (with_reducible apply Moves.trans (ctSimple_moves ?hm (fun s q => ?_) ..) ?_; (case hm => decide))
    | (with_reducible apply Moves.next ?hm (setG_moves ..) ?_; (case hm => decide))

theorem doCtLd_moves (s e) : Moves 0x8000000009003f8 s (doCtLd s e) := by
  unfold doCtLd
  repeat' first
    | with_reducible apply Moves.ite
    | with_reducible exact Moves.refl _ _
    | (with_reducible apply Moves.trans (runCtl_moves ?hm (fun s q => ?_) ..) ?_; (case hm => decide))
    | (with_reducible apply Moves.next ?hm (finishFront_moves ..) ?_; (case hm => decide))
    | (with_reducible apply Moves.next ?hm (faultQ_moves ..) ?_; (case hm => decide))
    | (with_reducible apply Moves.next ?hm (setG_moves ..) ?_; (case hm => decide))
    | split

theorem doCtGsc_moves (s e) : Moves 0x8000000009003f8 s (doCtGsc s e) := by
  unfold doCtGsc
  repeat' first
    | with_reducible exact Moves.refl _ _
    | (with_reducible apply Moves.trans (ctSimple_moves ?hm (fun s q => ?_) ..) ?_; (case hm => decide))
    | (with_reducible apply Moves.next ?hm (setG_moves ..) ?_; (case hm => decide))

theorem doCtJmp_moves (s e) : Moves 0x8000000009003f8 s (doCtJmp s e) := by
  unfold doCtJmp
  repeat' first
    | with_reducible apply Moves.ite
    | with_reducible exact Moves.refl _ _
    | (with_reducible apply Moves.trans (runCtl_moves ?hm (fun s q => ?_) ..) ?_; (case hm => decide))
    | (with_reducible apply Moves.next ?hm (finishFront_moves ..) ?_; (case hm => decide))
    | (with_reducible apply Moves.next ?hm (faultQ_moves ..) ?_; (case hm => decide))

theorem doCtBnz_moves (s e) : Moves 0x8000000009003f8 s (doCtBnz s e) := by
  unfold doCtBnz
  repeat' first
    | (extract_lets +onlyGivenNames t; refine Moves.cut (t := t) ?_ (fun ht => ?_); (on_goal 2 => (clear_value t; revert t; intro _ _)); (on_goal 1 => (unfold t; clear t)))
    | (extract_lets +onlyGivenNames x; clear_value x; revert x; intro _)
    | with_reducible apply Moves.ite
    | with_reducible exact Moves.refl _ _
    | with_reducible assumption
    | (with_reducible apply Moves.trans (runCtl_moves ?hm (fun s q => ?_) ..) ?_; (case hm => decide))
    | (with_reducible apply Moves.next ?hm (finishFront_moves ..) ?_; (case hm => decide))
    | (with_reducible apply Moves.next ?hm (modEng_moves ..) ?_; (case hm => decide))
    | (with_reducible apply Moves.next ?hm (faultQ_moves ..) ?_; (case hm => decide))
    | (with_reducible apply Moves.next ?hm (setG_moves ..) ?_; (case hm => decide))

theorem doSyWait_moves (s e) : Moves 0x8000000009003f8 s (doSyWait s e) := by
  unfold doSyWait
  repeat' first
    | (extract_lets +onlyGivenNames x; clear_value x; revert x; intro _)
    | with_reducible apply Moves.ite
    | with_reducible exact Moves.refl _ _
    | (with_reducible apply Moves.trans (runCtl_moves ?hm (fun s q => ?_) ..) ?_; (case hm => decide))
    | (with_reducible apply Moves.next ?hm (finishFront_moves ..) ?_; (case hm => decide))
    | (with_reducible apply Moves.next ?hm (beginWait_moves ..) ?_; (case hm => decide))
    | (with_reducible apply Moves.next ?hm (faultQ_moves ..) ?_; (case hm => decide))
    | (with_reducible apply Moves.next ?hm (takeCtr_moves ..) ?_; (case hm => decide))
    | split

theorem doSyAdd_moves (s e) : Moves 0x8000000009003f8 s (doSyAdd s e) := by
  unfold doSyAdd
  repeat' first
    | with_reducible exact Moves.refl _ _
    | (with_reducible apply Moves.trans (runCtl_moves ?hm (fun s q => ?_) ..) ?_; (case hm => decide))
    | (with_reducible apply Moves.next ?hm (finishFront_moves ..) ?_; (case hm => decide))
    | (with_reducible apply Moves.next ?hm (faultQ_moves ..) ?_; (case hm => decide))
    | (with_reducible apply Moves.next ?hm (addIncr_moves ..) ?_; (case hm => decide))
    | split

theorem doSySub_moves (s e) : Moves 0x8000000009003f8 s (doSySub s e) := by
  unfold doSySub
  repeat' first
    | (extract_lets +onlyGivenNames x; clear_value x; revert x; intro _)
    | with_reducible apply Moves.ite
    | with_reducible exact Moves.refl _ _
    | (with_reducible apply Moves.trans (runCtl_moves ?hm (fun s q => ?_) ..) ?_; (case hm => decide))
    | (with_reducible apply Moves.next ?hm (finishFront_moves ..) ?_; (case hm => decide))
    | (with_reducible apply Moves.next ?hm (faultQ_moves ..) ?_; (case hm => decide))
    | (with_reducible apply Moves.next ?hm (setCtr_moves ..) ?_; (case hm => decide))
    | split

theorem doSyGet_moves (s e) : Moves 0x8000000009003f8 s (doSyGet s e) := by
  unfold doSyGet
  repeat' first
    | with_reducible exact Moves.refl _ _
    | (with_reducible apply Moves.trans (runCtl_moves ?hm (fun s q => ?_) ..) ?_; (case hm => decide))
    | (with_reducible apply Moves.next ?hm (finishFront_moves ..) ?_; (case hm => decide))
    | (with_reducible apply Moves.next ?hm (faultQ_moves ..) ?_; (case hm => decide))
    | (with_reducible apply Moves.next ?hm (setG_moves ..) ?_; (case hm => decide))
    | split

theorem doSySig_moves (s e) : Moves 0x8000000009003f8 s (doSySig s e) := by
  unfold doSySig
  repeat' first
    | (extract_lets +onlyGivenNames t; refine Moves.cut (t := t) ?_ (fun ht => ?_); (on_goal 2 => (clear_value t; revert t; intro _ _)); (on_goal 1 => (unfold t; clear t)))
    | (extract_lets +onlyGivenNames x; clear_value x; revert x; intro _)
    | with_reducible apply Moves.ite
    | with_reducible exact Moves.refl _ _
    | with_reducible assumption
    | (with_reducible apply Moves.next ?hm (sendPkt_moves ..) ?_; (case hm => decide))
    | (with_reducible apply Moves.trans (runCtl_moves ?hm (fun s q => ?_) ..) ?_; (case hm => decide))
    | (with_reducible apply Moves.next ?hm (popFront_moves ..) ?_; (case hm => decide))
    | (with_reducible apply Moves.next ?hm (modEng_moves ..) ?_; (case hm => decide))
    | (with_reducible apply Moves.next ?hm (beginWait_moves ..) ?_; (case hm => decide))
    | (with_reducible apply Moves.next ?hm (faultQ_moves ..) ?_; (case hm => decide))
    | (with_reducible apply Moves.next ?hm (traceEv_moves ..) ?_; (case hm => decide))

theorem freeHeldSig_moves (s e) : Moves 0xc8 s (freeHeldSig s e) := by
  unfold freeHeldSig
  repeat' first
    | (extract_lets +onlyGivenNames x; clear_value x; revert x; intro _)
    | with_reducible apply Moves.ite
    | with_reducible exact Moves.refl _ _
    | (with_reducible apply Moves.next ?hm (setEng_moves ..) ?_; (case hm => decide))
    | (with_reducible apply Moves.next ?hm (traceEv_moves ..) ?_; (case hm => decide))
    | split

theorem sigAcked_moves (s e num) : Moves 0xc8 s (sigAcked s e num) := by
  unfold sigAcked
  repeat' first
    | (extract_lets +onlyGivenNames t; refine Moves.cut (t := t) ?_ (fun ht => ?_); (on_goal 2 => (clear_value t; revert t; intro _ _)); (on_goal 1 => (unfold t; clear t)))
    | with_reducible exact Moves.refl _ _
    | with_reducible assumption
    | (with_reducible apply Moves.next ?hm (modEng_moves ..) ?_; (case hm => decide))
    | (with_reducible apply Moves.next ?hm (freeHeldSig_moves ..) ?_; (case hm => decide))
    | (with_reducible apply Moves.next ?hm (completeDone_moves ..) ?_; (case hm => decide))
    | split

theorem sigFailed_moves (s e num code) : Moves 0x8000000009003f8 s (sigFailed s e num code) := by
  unfold sigFailed
  repeat' first
    | (extract_lets +onlyGivenNames t; refine Moves.cut (t := t) ?_ (fun ht => ?_); (on_goal 2 => (clear_value t; revert t; intro _ _)); (on_goal 1 => (unfold t; clear t)))
    | with_reducible exact Moves.refl _ _
    | with_reducible assumption
    | (with_reducible apply Moves.next ?hm (modEng_moves ..) ?_; (case hm => decide))
    | (with_reducible apply Moves.next ?hm (faultEngine_moves ..) ?_; (case hm => decide))
    | split

theorem sigTimeout_moves (s e k) : Moves 0x8000000009003f8 s (sigTimeout s e k) := by
  unfold sigTimeout
  repeat' first
    | with_reducible apply Moves.ite
    | with_reducible exact Moves.refl _ _
    | (with_reducible apply Moves.next ?hm (sigFailed_moves ..) ?_; (case hm => decide))
    | split

theorem latchOne_moves (s kv) : Moves 0x8 s (latchOne s kv) := by
  unfold latchOne
  repeat' first
    | with_reducible exact Moves.refl _ _
    | (with_reducible apply Moves.next ?hm (regSet_moves ..) ?_; (case hm => decide))
    | split

theorem periodEnd_moves (s at0) : Moves 0x600000000000008 s (periodEnd s at0) := by
  unfold periodEnd
  repeat' first
    | (extract_lets +onlyGivenNames t; refine Moves.cut (t := t) ?_ (fun ht => ?_); (on_goal 2 => (clear_value t; revert t; intro _ _)); (on_goal 1 => (unfold t; clear t)))
    | (extract_lets +onlyGivenNames x; clear_value x; revert x; intro _)
    | with_reducible exact Moves.refl _ _
    | with_reducible assumption
    | (with_reducible apply Moves.next ?hm (setTimer_moves ..) ?_; (case hm => decide))
    | (with_reducible apply Moves.next ?hm (wrF_moves ..) ?_; (case hm => decide))
    | (with_reducible apply Moves.next ?hm (latchOne_moves ..) ?_; (case hm => decide))
    | with_reducible apply Moves.foldl _ (fun s x => ?_) _ ?_
    | refine Moves.upd rfl (fun h => by cases h; constructor <;> first | assumption | (try dsimp only; first | exact mapSet_wf _ _ _ _ (by assumption) | exact mapMod_wf _ _ _ _ (by assumption) | exact mapDrop_wf _ _ _ (by assumption) | exact mapFilter_wf _ _ _ (by assumption) | exact pokeBytes_wf _ _ _ (by assumption) | exact foldl_wf _ _ (fun _ _ h => mapSet_wf _ _ _ _ h) _ (by assumption) | exact foldl_wf _ _ (fun _ _ h => mapMod_wf _ _ _ _ h) _ (by assumption) | exact rfl)) ?_

theorem periodBoundary_moves (s) : Moves 0x600000000000008 s (periodBoundary s) := by
  unfold periodBoundary
  repeat' first
    | (extract_lets +onlyGivenNames x; clear_value x; revert x; intro _)
    | with_reducible apply Moves.ite
    | with_reducible exact Moves.refl _ _
    | (with_reducible apply Moves.next ?hm (periodEnd_moves ..) ?_; (case hm => decide))

theorem refuseIncr_moves (s p i) : Moves 0x8000000009003f8 s (refuseIncr s p i) := by
  unfold refuseIncr
  repeat' first
    | with_reducible exact Moves.refl _ _
    | (with_reducible apply Moves.next ?hm (setF_moves ..) ?_; (case hm => decide))
    | (with_reducible apply Moves.next ?hm (sendNack_moves ..) ?_; (case hm => decide))
    | (with_reducible apply Moves.next ?hm (faultEngine_moves ..) ?_; (case hm => decide))
    | (with_reducible apply Moves.next ?hm (raise_moves ..) ?_; (case hm => decide))
    | split

theorem ackIncr_moves (s i) : Moves 0x100000 s (ackIncr s i) := by
  unfold ackIncr
  repeat' first
    | with_reducible exact Moves.refl _ _
    | (with_reducible apply Moves.next ?hm (sendAck_moves ..) ?_; (case hm => decide))
    | split

theorem applyIncrs_moves (s p c now) : Moves 0x8000000009003f8 s (applyIncrs s p c now) := by
  unfold applyIncrs
  repeat' first
    | (extract_lets +onlyGivenNames x; clear_value x; revert x; intro _)
    | with_reducible apply Moves.ite
    | with_reducible exact Moves.refl _ _
    | (with_reducible apply Moves.next ?hm (addStat_moves ..) ?_; (case hm => decide))
    | (with_reducible apply Moves.next ?hm (ackIncr_moves ..) ?_; (case hm => decide))
    | (with_reducible apply Moves.next ?hm (refuseIncr_moves ..) ?_; (case hm => decide))
    | (with_reducible apply Moves.next ?hm (setCtr_moves ..) ?_; (case hm => decide))
    | with_reducible apply Moves.foldl _ (fun s x => ?_) _ ?_

theorem incrementCtr_moves (s p c n) : Moves 0x8000000009003f8 s (incrementCtr s p c n) := by
  unfold incrementCtr
  repeat' first
    | with_reducible apply Moves.ite
    | with_reducible exact Moves.refl _ _
    | (with_reducible apply Moves.next ?hm (testWaits_moves ..) ?_; (case hm => decide))
    | (with_reducible apply Moves.next ?hm (applyIncrs_moves ..) ?_; (case hm => decide))
    | (with_reducible apply Moves.next ?hm (traceCap_moves ..) ?_; (case hm => decide))
    | (with_reducible apply Moves.next ?hm (modTile_moves ..) ?_; (case hm => decide))

theorem flushIncrs_moves (s p) : Moves 0x8000000009003f8 s (flushIncrs s p) := by
  unfold flushIncrs
  repeat' first
    | with_reducible exact Moves.refl _ _
    | (with_reducible apply Moves.next ?hm (incrementCtr_moves ..) ?_; (case hm => decide))
    | with_reducible apply Moves.foldl _ (fun s x => ?_) _ ?_

theorem writeCtr_moves (s p c v) : Moves 0x8000c8 s (writeCtr s p c v) := by
  unfold writeCtr
  repeat' first
    | with_reducible apply Moves.ite
    | with_reducible exact Moves.refl _ _
    | (with_reducible apply Moves.next ?hm (testWaits_moves ..) ?_; (case hm => decide))
    | (with_reducible apply Moves.next ?hm (setF_moves ..) ?_; (case hm => decide))
    | (with_reducible apply Moves.next ?hm (traceCap_moves ..) ?_; (case hm => decide))
    | (with_reducible apply Moves.next ?hm (setCtr_moves ..) ?_; (case hm => decide))

theorem sendMulticast_moves (s c ep p) : Moves 0x100000 s (sendMulticast s c ep p) := by
  unfold sendMulticast
  dsimp only
  repeat' first
    | with_reducible apply Moves.ite
    | with_reducible exact Moves.refl _ _
    | (with_reducible apply Moves.next ?hm (sendPkt_moves ..) ?_; (case hm => decide))

theorem passWait_moves (s e) : Moves 0xc8 s (passWait s e).1 := by
  unfold passWait
  repeat' first
    | (extract_lets +onlyGivenNames t; refine Moves.cut (t := t) ?_ (fun ht => ?_); (on_goal 2 => (clear_value t; revert t; intro _ _)); (on_goal 1 => (unfold t; clear t)))
    | (extract_lets +onlyGivenNames x; clear_value x; revert x; intro _)
    | with_reducible exact Moves.refl _ _
    | with_reducible assumption
    | (with_reducible apply Moves.next ?hm (popFront_moves ..) ?_; (case hm => decide))
    | (with_reducible apply Moves.next ?hm (setEng_moves ..) ?_; (case hm => decide))
    | (with_reducible apply Moves.next ?hm (traceEv_moves ..) ?_; (case hm => decide))
    | split

theorem lateSig_moves (s e d) : Moves 0xc8 s (lateSig s e d) := by
  unfold lateSig
  repeat' first
    | (extract_lets +onlyGivenNames t; refine Moves.cut (t := t) ?_ (fun ht => ?_); (on_goal 2 => (clear_value t; revert t; intro _ _)); (on_goal 1 => (unfold t; clear t)))
    | with_reducible apply Moves.ite
    | with_reducible exact Moves.refl _ _
    | with_reducible assumption
    | (with_reducible apply Moves.next ?hm (modEng_moves ..) ?_; (case hm => decide))
    | (with_reducible apply Moves.next ?hm (signalDone_moves ..) ?_; (case hm => decide))
    | (with_reducible apply Moves.next ?hm (traceEv_moves ..) ?_; (case hm => decide))
    | split

theorem releaseMember_moves (x a s m') : Moves 0xc8 s (releaseMember x a s m') := by
  unfold releaseMember
  repeat' first
    | (extract_lets +onlyGivenNames t; refine Moves.cut (t := t) ?_ (fun ht => ?_); (on_goal 2 => (clear_value t; revert t; intro _ _)); (on_goal 1 => (unfold t; clear t)))
    | with_reducible apply Moves.ite
    | with_reducible exact Moves.refl _ _
    | with_reducible assumption
    | (with_reducible apply Moves.next ?hm (modEng_moves ..) ?_; (case hm => decide))
    | (with_reducible apply Moves.next ?hm (passWait_moves ..) ?_; (case hm => decide))
    | (with_reducible apply Moves.next ?hm (lateSig_moves ..) ?_; (case hm => decide))
    | split
    | (with_reducible apply Moves.fst_of ?he ?_; (case he => with_reducible assumption))

theorem setBar_moves (s a x b) : Moves 0x800000 s (setBar s a x b) := by
  unfold setBar
  repeat' first
    | (extract_lets +onlyGivenNames x; clear_value x; revert x; intro _)
    | with_reducible exact Moves.refl _ _
    | (with_reducible apply Moves.next ?hm (setCe_moves ..) ?_; (case hm => decide))

theorem dropBars_moves (s x) : Moves 0x800000 s (dropBars s x) := by
  unfold dropBars
  repeat' first
    | (extract_lets +onlyGivenNames x; clear_value x; revert x; intro _)
    | with_reducible exact Moves.refl _ _
    | (with_reducible apply Moves.next ?hm (setCe_moves ..) ?_; (case hm => decide))
    | with_reducible apply Moves.foldl _ (fun s x => ?_) _ ?_

theorem torusReleased_moves (s x) : Moves 0x100 s (torusReleased s x) := by
  unfold torusReleased
  repeat' first
    | (extract_lets +onlyGivenNames x; clear_value x; revert x; intro _)
    | with_reducible apply Moves.ite
    | with_reducible exact Moves.refl _ _
    | (with_reducible apply Moves.next ?hm (setCtx_moves ..) ?_; (case hm => decide))

theorem torusRelease_moves (s x upto) : Moves 0x100100 s (torusRelease s x upto) := by
  unfold torusRelease
  repeat' first
    | with_reducible exact Moves.refl _ _
    | (with_reducible apply Moves.next ?hm (torusReleased_moves ..) ?_; (case hm => decide))
    | (with_reducible apply Moves.next ?hm (sendMulticast_moves ..) ?_; (case hm => decide))
    | with_reducible apply Moves.foldl _ (fun s x => ?_) _ ?_

theorem torusArrive_moves (x all x2 x3) : Moves 0x900100 x3 (torusArrive x all x2 x3) := by
  induction x2 generalizing x3 with
    | nil => ?_
    | cons y r ih => ?_
  all_goals unfold torusArrive
  repeat' first
    | (extract_lets +onlyGivenNames t; refine Moves.cut (t := t) ?_ (fun ht => ?_); (on_goal 2 => (clear_value t; revert t; intro _ _)); (on_goal 1 => (unfold t; clear t)))
    | (extract_lets +onlyGivenNames x; clear_value x; revert x; intro _)
    | with_reducible apply Moves.ite
    | with_reducible exact Moves.refl _ _
    | with_reducible assumption
    | (with_reducible apply Moves.next ?hm (sendPkt_moves ..) ?_; (case hm => decide))
    | (with_reducible apply Moves.next ?hm (torusRelease_moves ..) ?_; (case hm => decide))
    | (with_reducible apply Moves.next ?hm (setBar_moves ..) ?_; (case hm => decide))
    | with_reducible apply Moves.trans (ih ..) ?_

theorem torusCount_moves (s c pkt) : Moves 0x900100 s (torusCount s c pkt) := by
  unfold torusCount
  repeat' first
    | (extract_lets +onlyGivenNames t; refine Moves.cut (t := t) ?_ (fun ht => ?_); (on_goal 2 => (clear_value t; revert t; intro _ _)); (on_goal 1 => (unfold t; clear t)))
    | (extract_lets +onlyGivenNames x; clear_value x; revert x; intro _)
    | with_reducible apply Moves.ite
    | with_reducible exact Moves.refl _ _
    | with_reducible assumption
    | (with_reducible apply Moves.next ?hm (torusArrive_moves ..) ?_; (case hm => decide))
    | (with_reducible apply Moves.next ?hm (sendNack_moves ..) ?_; (case hm => decide))
    | (with_reducible apply Moves.next ?hm (setBar_moves ..) ?_; (case hm => decide))
    | split

theorem torusReleaseIn_moves (s c pkt) : Moves 0x100100 s (torusReleaseIn s c pkt) := by
  unfold torusReleaseIn
  repeat' first
    | (extract_lets +onlyGivenNames x; clear_value x; revert x; intro _)
    | with_reducible apply Moves.ite
    | with_reducible exact Moves.refl _ _
    | (with_reducible apply Moves.next ?hm (torusRelease_moves ..) ?_; (case hm => decide))

theorem checkRound_moves (s x) : Moves 0x900100 s (checkRound s x) := by
  unfold checkRound
  repeat' first
    | (extract_lets +onlyGivenNames t; refine Moves.cut (t := t) ?_ (fun ht => ?_); (on_goal 2 => (clear_value t; revert t; intro _ _)); (on_goal 1 => (unfold t; clear t)))
    | (extract_lets +onlyGivenNames x; clear_value x; revert x; intro _)
    | with_reducible apply Moves.ite
    | with_reducible exact Moves.refl _ _
    | with_reducible assumption
    | (with_reducible apply Moves.next ?hm (torusArrive_moves ..) ?_; (case hm => decide))
    | (with_reducible apply Moves.next ?hm (setCtx_moves ..) ?_; (case hm => decide))

theorem doSyBar_moves (s e) : Moves 0x8000000009003f8 s (doSyBar s e) := by
  unfold doSyBar
  repeat' first
    | with_reducible exact Moves.refl _ _
    | (with_reducible apply Moves.trans (runCtl_moves ?hm (fun s q => ?_) ..) ?_; (case hm => decide))
    | (with_reducible apply Moves.next ?hm (beginWait_moves ..) ?_; (case hm => decide))
    | (with_reducible apply Moves.next ?hm (traceEv_moves ..) ?_; (case hm => decide))

theorem barrierArrive_moves (s e) : Moves 0x8000000009003f8 s (barrierArrive s e) := by
  unfold barrierArrive
  repeat' first
    | (extract_lets +onlyGivenNames t; refine Moves.cut (t := t) ?_ (fun ht => ?_); (on_goal 2 => (clear_value t; revert t; intro _ _)); (on_goal 1 => (unfold t; clear t)))
    | (extract_lets +onlyGivenNames x; clear_value x; revert x; intro _)
    | with_reducible apply Moves.ite
    | with_reducible exact Moves.refl _ _
    | with_reducible assumption
    | (with_reducible apply Moves.next ?hm (modEng_moves ..) ?_; (case hm => decide))
    | (with_reducible apply Moves.next ?hm (faultQ_moves ..) ?_; (case hm => decide))
    | (with_reducible apply Moves.next ?hm (checkRound_moves ..) ?_; (case hm => decide))
    | (with_reducible apply Moves.next ?hm (setCtx_moves ..) ?_; (case hm => decide))
    | split

theorem barrierDelivered_moves (s x) : Moves 0x9001c8 s (barrierDelivered s x) := by
  unfold barrierDelivered
  repeat' first
    | (extract_lets +onlyGivenNames t; refine Moves.cut (t := t) ?_ (fun ht => ?_); (on_goal 2 => (clear_value t; revert t; intro _ _)); (on_goal 1 => (unfold t; clear t)))
    | (extract_lets +onlyGivenNames x; clear_value x; revert x; intro _)
    | with_reducible apply Moves.ite
    | with_reducible exact Moves.refl _ _
    | with_reducible assumption
    | (with_reducible apply Moves.next ?hm (traceCaps_moves ..) ?_; (case hm => decide))
    | (with_reducible apply Moves.next ?hm (releaseMember_moves ..) ?_; (case hm => decide))
    | (with_reducible apply Moves.next ?hm (checkRound_moves ..) ?_; (case hm => decide))
    | (with_reducible apply Moves.next ?hm (setBar_moves ..) ?_; (case hm => decide))
    | (with_reducible apply Moves.next ?hm (setCtx_moves ..) ?_; (case hm => decide))
    | with_reducible apply Moves.foldl _ (fun s x => ?_) _ ?_

theorem orphanCtx_moves (s x) : Moves 0x8000000009003f8 s (orphanCtx s x) := by
  unfold orphanCtx
  repeat' first
    | (extract_lets +onlyGivenNames t; refine Moves.cut (t := t) ?_ (fun ht => ?_); (on_goal 2 => (clear_value t; revert t; intro _ _)); (on_goal 1 => (unfold t; clear t)))
    | (extract_lets +onlyGivenNames x; clear_value x; revert x; intro _)
    | with_reducible apply Moves.ite
    | with_reducible exact Moves.refl _ _
    | with_reducible assumption
    | (with_reducible apply Moves.next ?hm (faultQ_moves ..) ?_; (case hm => decide))
    | (with_reducible apply Moves.next ?hm (setCtx_moves ..) ?_; (case hm => decide))
    | with_reducible apply Moves.foldl _ (fun s x => ?_) _ ?_
    | split

theorem orphanMembers_moves (s ms) : Moves 0x8000000009003f8 s (orphanMembers s ms) := by
  unfold orphanMembers
  repeat' first
    | with_reducible apply Moves.ite
    | with_reducible exact Moves.refl _ _
    | (with_reducible apply Moves.next ?hm (orphanCtx_moves ..) ?_; (case hm => decide))
    | with_reducible apply Moves.foldl _ (fun s x => ?_) _ ?_

theorem orphanTorus_moves (s c) : Moves 0x8000000009003f8 s (orphanTorus s c) := by
  unfold orphanTorus
  repeat' first
    | with_reducible apply Moves.ite
    | with_reducible exact Moves.refl _ _
    | (with_reducible apply Moves.next ?hm (orphanCtx_moves ..) ?_; (case hm => decide))
    | with_reducible apply Moves.foldl _ (fun s x => ?_) _ ?_

theorem overrunCtx_moves (s x) : Moves 0x8000000009003f8 s (overrunCtx s x) := by
  unfold overrunCtx
  repeat' first
    | with_reducible apply Moves.ite
    | with_reducible exact Moves.refl _ _
    | (with_reducible apply Moves.next ?hm (faultQ_moves ..) ?_; (case hm => decide))
    | with_reducible apply Moves.foldl _ (fun s x => ?_) _ ?_
    | split

theorem writeBaCfg_moves (s x reg v) : Moves 0x900148 s (writeBaCfg s x reg v) := by
  unfold writeBaCfg
  repeat' first
    | (extract_lets +onlyGivenNames t; refine Moves.cut (t := t) ?_ (fun ht => ?_); (on_goal 2 => (clear_value t; revert t; intro _ _)); (on_goal 1 => (unfold t; clear t)))
    | (extract_lets +onlyGivenNames x; clear_value x; revert x; intro _)
    | with_reducible apply Moves.ite
    | with_reducible exact Moves.refl _ _
    | with_reducible assumption
    | (with_reducible apply Moves.next ?hm (dropBars_moves ..) ?_; (case hm => decide))
    | (with_reducible apply Moves.next ?hm (modEng_moves ..) ?_; (case hm => decide))
    | (with_reducible apply Moves.next ?hm (regSet_moves ..) ?_; (case hm => decide))
    | (with_reducible apply Moves.next ?hm (setF_moves ..) ?_; (case hm => decide))
    | (with_reducible apply Moves.next ?hm (checkRound_moves ..) ?_; (case hm => decide))
    | (with_reducible apply Moves.next ?hm (setCtx_moves ..) ?_; (case hm => decide))
    | with_reducible apply Moves.foldl _ (fun s x => ?_) _ ?_
    | split

theorem releaseMark_moves (s i) : Moves 0x2c8 s (releaseMark s i) := by
  unfold releaseMark
  repeat' first
    | (extract_lets +onlyGivenNames x; clear_value x; revert x; intro _)
    | with_reducible exact Moves.refl _ _
    | (with_reducible apply Moves.next ?hm (passWait_moves ..) ?_; (case hm => decide))
    | split
    | (with_reducible apply Moves.fst_of ?he ?_; (case he => with_reducible assumption))
    | refine Moves.upd rfl (fun h => by cases h; constructor <;> first | assumption | (try dsimp only; first | exact mapSet_wf _ _ _ _ (by assumption) | exact mapMod_wf _ _ _ _ (by assumption) | exact mapDrop_wf _ _ _ (by assumption) | exact mapFilter_wf _ _ _ (by assumption) | exact pokeBytes_wf _ _ _ (by assumption) | exact foldl_wf _ _ (fun _ _ h => mapSet_wf _ _ _ _ h) _ (by assumption) | exact foldl_wf _ _ (fun _ _ h => mapMod_wf _ _ _ _ h) _ (by assumption) | exact rfl)) ?_

theorem beginMark_moves (s) : Moves 0x6000000000002c8 s (beginMark s) := by
  unfold beginMark
  repeat' first
    | (extract_lets +onlyGivenNames t; refine Moves.cut (t := t) ?_ (fun ht => ?_); (on_goal 2 => (clear_value t; revert t; intro _ _)); (on_goal 1 => (unfold t; clear t)))
    | (extract_lets +onlyGivenNames x; clear_value x; revert x; intro _)
    | with_reducible apply Moves.ite
    | with_reducible exact Moves.refl _ _
    | with_reducible assumption
    | (with_reducible apply Moves.next ?hm (releaseMark_moves ..) ?_; (case hm => decide))
    | (with_reducible apply Moves.next ?hm (periodEnd_moves ..) ?_; (case hm => decide))
    | with_reducible apply Moves.foldl _ (fun s x => ?_) _ ?_
    | refine Moves.upd rfl (fun h => by cases h; constructor <;> first | assumption | (try dsimp only; first | exact mapSet_wf _ _ _ _ (by assumption) | exact mapMod_wf _ _ _ _ (by assumption) | exact mapDrop_wf _ _ _ (by assumption) | exact mapFilter_wf _ _ _ (by assumption) | exact pokeBytes_wf _ _ _ (by assumption) | exact foldl_wf _ _ (fun _ _ h => mapSet_wf _ _ _ _ h) _ (by assumption) | exact foldl_wf _ _ (fun _ _ h => mapMod_wf _ _ _ _ h) _ (by assumption) | exact rfl)) ?_

theorem doCtMark_moves (s e) : Moves 0xe000000009003f8 s (doCtMark s e) := by
  unfold doCtMark
  repeat' first
    | (extract_lets +onlyGivenNames x; clear_value x; revert x; intro _)
    | with_reducible apply Moves.ite
    | with_reducible exact Moves.refl _ _
    | (with_reducible apply Moves.trans (runCtl_moves ?hm (fun s q => ?_) ..) ?_; (case hm => decide))
    | (with_reducible apply Moves.next ?hm (traceCaps_moves ..) ?_; (case hm => decide))
    | (with_reducible apply Moves.next ?hm (finishFront_moves ..) ?_; (case hm => decide))
    | (with_reducible apply Moves.next ?hm (beginWait_moves ..) ?_; (case hm => decide))
    | (with_reducible apply Moves.next ?hm (faultQ_moves ..) ?_; (case hm => decide))
    | (with_reducible apply Moves.next ?hm (traceEv_moves ..) ?_; (case hm => decide))
    | (with_reducible apply Moves.next ?hm (beginMark_moves ..) ?_; (case hm => decide))
    | refine Moves.upd rfl (fun h => by cases h; constructor <;> first | assumption | (try dsimp only; first | exact mapSet_wf _ _ _ _ (by assumption) | exact mapMod_wf _ _ _ _ (by assumption) | exact mapDrop_wf _ _ _ (by assumption) | exact mapFilter_wf _ _ _ (by assumption) | exact pokeBytes_wf _ _ _ (by assumption) | exact foldl_wf _ _ (fun _ _ h => mapSet_wf _ _ _ _ h) _ (by assumption) | exact foldl_wf _ _ (fun _ _ h => mapMod_wf _ _ _ _ h) _ (by assumption) | exact rfl)) ?_

theorem ashSnapshot_moves (s num cyc ws) : Moves 0x30 s (ashSnapshot s num cyc ws) := by
  unfold ashSnapshot
  repeat' first
    | (extract_lets +onlyGivenNames t; refine Moves.cut (t := t) ?_ (fun ht => ?_); (on_goal 2 => (clear_value t; revert t; intro _ _)); (on_goal 1 => (unfold t; clear t)))
    | (extract_lets +onlyGivenNames x; clear_value x; revert x; intro _)
    | with_reducible exact Moves.refl _ _
    | with_reducible assumption
    | (with_reducible apply Moves.next ?hm (writeNat_moves ..) ?_; (case hm => decide))
    | (with_reducible apply Moves.next ?hm (writeBytes_moves ..) ?_; (case hm => decide))

theorem waitTimeout_moves (s e) : Moves 0x808 s (waitTimeout s e) := by
  unfold waitTimeout
  repeat' first
    | (extract_lets +onlyGivenNames t; refine Moves.cut (t := t) ?_ (fun ht => ?_); (on_goal 2 => (clear_value t; revert t; intro _ _)); (on_goal 1 => (unfold t; clear t)))
    | (extract_lets +onlyGivenNames x; clear_value x; revert x; intro _)
    | with_reducible apply Moves.ite
    | with_reducible exact Moves.refl _ _
    | with_reducible assumption
    | (with_reducible apply Moves.next ?hm (setF_moves ..) ?_; (case hm => decide))
    | refine Moves.upd rfl (fun h => by cases h; constructor <;> first | assumption | (try dsimp only; first | exact mapSet_wf _ _ _ _ (by assumption) | exact mapMod_wf _ _ _ _ (by assumption) | exact mapDrop_wf _ _ _ (by assumption) | exact mapFilter_wf _ _ _ (by assumption) | exact pokeBytes_wf _ _ _ (by assumption) | exact foldl_wf _ _ (fun _ _ h => mapSet_wf _ _ _ _ h) _ (by assumption) | exact foldl_wf _ _ (fun _ _ h => mapMod_wf _ _ _ _ h) _ (by assumption) | exact rfl)) ?_

theorem waitFault_moves (code det s i) : Moves 0x8000000009003f8 s (waitFault code det s i) := by
  unfold waitFault
  repeat' first
    | (extract_lets +onlyGivenNames x; clear_value x; revert x; intro _)
    | with_reducible exact Moves.refl _ _
    | (with_reducible apply Moves.next ?hm (faultEngine_moves ..) ?_; (case hm => decide))

theorem lateFault_moves (det s x) : Moves 0x8000000009003f8 s (lateFault det s x) := by
  unfold lateFault
  repeat' first
    | (extract_lets +onlyGivenNames x; clear_value x; revert x; intro _)
    | with_reducible apply Moves.ite
    | with_reducible exact Moves.refl _ _
    | (with_reducible apply Moves.next ?hm (faultEngine_moves ..) ?_; (case hm => decide))

theorem snapshot_moves (s) : Moves 0x800000000900ff8 s (snapshot s) := by
  unfold snapshot
  repeat' first
    | (extract_lets +onlyGivenNames t; refine Moves.cut (t := t) ?_ (fun ht => ?_); (on_goal 2 => (clear_value t; revert t; intro _ _)); (on_goal 1 => (unfold t; clear t)))
    | (extract_lets +onlyGivenNames x; clear_value x; revert x; intro _)
    | with_reducible apply Moves.ite
    | with_reducible exact Moves.refl _ _
    | with_reducible assumption
    | (with_reducible apply Moves.next ?hm (ashSnapshot_moves ..) ?_; (case hm => decide))
    | (with_reducible apply Moves.next ?hm (waitFault_moves ..) ?_; (case hm => decide))
    | (with_reducible apply Moves.next ?hm (setF_moves ..) ?_; (case hm => decide))
    | (with_reducible apply Moves.next ?hm (lateFault_moves ..) ?_; (case hm => decide))
    | with_reducible apply Moves.foldl _ (fun s x => ?_) _ ?_
    | refine Moves.upd rfl (fun h => by cases h; constructor <;> first | assumption | (try dsimp only; first | exact mapSet_wf _ _ _ _ (by assumption) | exact mapMod_wf _ _ _ _ (by assumption) | exact mapDrop_wf _ _ _ (by assumption) | exact mapFilter_wf _ _ _ (by assumption) | exact pokeBytes_wf _ _ _ (by assumption) | exact foldl_wf _ _ (fun _ _ h => mapSet_wf _ _ _ _ h) _ (by assumption) | exact foldl_wf _ _ (fun _ _ h => mapMod_wf _ _ _ _ h) _ (by assumption) | exact rfl)) ?_

theorem poisonStored_moves (s a) : Moves 0xa0 s (poisonStored s a) := by
  unfold poisonStored
  repeat' first
    | (extract_lets +onlyGivenNames x; clear_value x; revert x; intro _)
    | with_reducible apply Moves.ite
    | with_reducible exact Moves.refl _ _
    | (with_reducible apply Moves.next ?hm (poisonWord_moves ..) ?_; (case hm => decide))
    | (with_reducible apply Moves.next ?hm (modTile_moves ..) ?_; (case hm => decide))

theorem logLedger_moves (s kind unit data) : Moves 0x400000000000 s (logLedger s kind unit data) := by
  unfold logLedger
  repeat' first
    | with_reducible exact Moves.refl _ _
    | refine Moves.upd rfl (fun h => by cases h; constructor <;> first | assumption | (try dsimp only; first | exact mapSet_wf _ _ _ _ (by assumption) | exact mapMod_wf _ _ _ _ (by assumption) | exact mapDrop_wf _ _ _ (by assumption) | exact mapFilter_wf _ _ _ (by assumption) | exact pokeBytes_wf _ _ _ (by assumption) | exact foldl_wf _ _ (fun _ _ h => mapSet_wf _ _ _ _ h) _ (by assumption) | exact foldl_wf _ _ (fun _ _ h => mapMod_wf _ _ _ _ h) _ (by assumption) | exact rfl)) ?_

theorem logCorrected_moves (s unit) : Moves 0x400000000000 s (logCorrected s unit) := by
  unfold logCorrected
  repeat' first
    | (extract_lets +onlyGivenNames x; clear_value x; revert x; intro _)
    | with_reducible apply Moves.ite
    | with_reducible exact Moves.refl _ _
    | (with_reducible apply Moves.next ?hm (logLedger_moves ..) ?_; (case hm => decide))
    | refine Moves.upd rfl (fun h => by cases h; constructor <;> first | assumption | (try dsimp only; first | exact mapSet_wf _ _ _ _ (by assumption) | exact mapMod_wf _ _ _ _ (by assumption) | exact mapDrop_wf _ _ _ (by assumption) | exact mapFilter_wf _ _ _ (by assumption) | exact pokeBytes_wf _ _ _ (by assumption) | exact foldl_wf _ _ (fun _ _ h => mapSet_wf _ _ _ _ h) _ (by assumption) | exact foldl_wf _ _ (fun _ _ h => mapMod_wf _ _ _ _ h) _ (by assumption) | exact rfl)) ?_

theorem lineRecord_moves (s pl code addr detail) : Moves 0xa00000000000038 s (lineRecord s pl code addr detail) := by
  unfold lineRecord
  repeat' first
    | (extract_lets +onlyGivenNames t; refine Moves.cut (t := t) ?_ (fun ht => ?_); (on_goal 2 => (clear_value t; revert t; intro _ _)); (on_goal 1 => (unfold t; clear t)))
    | (extract_lets +onlyGivenNames x; clear_value x; revert x; intro _)
    | with_reducible apply Moves.ite
    | with_reducible exact Moves.refl _ _
    | with_reducible assumption
    | (with_reducible apply Moves.next ?hm (setTimer_moves ..) ?_; (case hm => decide))
    | (with_reducible apply Moves.next ?hm (addF_moves ..) ?_; (case hm => decide))
    | (with_reducible apply Moves.next ?hm (raise_moves ..) ?_; (case hm => decide))

theorem lostWord_moves (s pl code a detail) : Moves 0xa084000000000b8 s (lostWord s pl code a detail) := by
  unfold lostWord
  repeat' first
    | (extract_lets +onlyGivenNames t; refine Moves.cut (t := t) ?_ (fun ht => ?_); (on_goal 2 => (clear_value t; revert t; intro _ _)); (on_goal 1 => (unfold t; clear t)))
    | with_reducible apply Moves.ite
    | with_reducible exact Moves.refl _ _
    | with_reducible assumption
    | (with_reducible apply Moves.next ?hm (lineRecord_moves ..) ?_; (case hm => decide))
    | (with_reducible apply Moves.next ?hm (poisonStored_moves ..) ?_; (case hm => decide))
    | (with_reducible apply Moves.next ?hm (logLedger_moves ..) ?_; (case hm => decide))
    | (with_reducible apply Moves.next ?hm (bumpLife_moves ..) ?_; (case hm => decide))

theorem classifyWord_moves (s pl permanent) : Moves 0x808400000000038 s (classifyWord s pl permanent) := by
  unfold classifyWord
  repeat' first
    | (extract_lets +onlyGivenNames x; clear_value x; revert x; intro _)
    | with_reducible exact Moves.refl _ _
    | (with_reducible apply Moves.next ?hm (logLedger_moves ..) ?_; (case hm => decide))
    | (with_reducible apply Moves.next ?hm (raiseMgc_moves ..) ?_; (case hm => decide))
    | (with_reducible apply Moves.next ?hm (bumpLife_moves ..) ?_; (case hm => decide))

theorem sweepWord_moves (s pl e again) : Moves 0xa184000000000b8 s (sweepWord s pl e again).1 := by
  unfold sweepWord
  repeat' first
    | (extract_lets +onlyGivenNames t; refine Moves.cut (t := t) ?_ (fun ht => ?_); (on_goal 2 => (clear_value t; revert t; intro _ _)); (on_goal 1 => (unfold t; clear t)))
    | (extract_lets +onlyGivenNames x; clear_value x; revert x; intro _)
    | with_reducible apply Moves.ite
    | with_reducible exact Moves.refl _ _
    | with_reducible assumption
    | (with_reducible apply Moves.next ?hm (writeNat_moves ..) ?_; (case hm => decide))
    | (with_reducible apply Moves.next ?hm (lostWord_moves ..) ?_; (case hm => decide))
    | (with_reducible apply Moves.next ?hm (classifyWord_moves ..) ?_; (case hm => decide))
    | (with_reducible apply Moves.next ?hm (logCorrected_moves ..) ?_; (case hm => decide))
    | (with_reducible apply Moves.next ?hm (addWear_moves ..) ?_; (case hm => decide))
    | split

theorem accessWord_moves (s pl e) : Moves 0xa084000000000b8 s (accessWord s pl e).1 := by
  unfold accessWord
  repeat' first
    | (extract_lets +onlyGivenNames x; clear_value x; revert x; intro _)
    | with_reducible exact Moves.refl _ _
    | (with_reducible apply Moves.next ?hm (lostWord_moves ..) ?_; (case hm => decide))
    | split

theorem parityFault_moves (s e) : Moves 0x8000000009003f8 s (parityFault s e) := by
  unfold parityFault
  repeat' first
    | (extract_lets +onlyGivenNames x; clear_value x; revert x; intro _)
    | with_reducible apply Moves.ite
    | with_reducible exact Moves.refl _ _
    | (with_reducible apply Moves.next ?hm (faultEngine_moves ..) ?_; (case hm => decide))
    | split

theorem engineFetch_moves (s e errs parity) : Moves 0xa084000009003f8 s (engineFetch s e errs parity) := by
  unfold engineFetch
  repeat' first
    | (extract_lets +onlyGivenNames t; refine Moves.cut (t := t) ?_ (fun ht => ?_); (on_goal 2 => (clear_value t; revert t; intro _ _)); (on_goal 1 => (unfold t; clear t)))
    | (extract_lets +onlyGivenNames x; clear_value x; revert x; intro _)
    | with_reducible apply Moves.ite
    | with_reducible exact Moves.refl _ _
    | with_reducible assumption
    | (with_reducible apply Moves.next ?hm (accessWord_moves ..) ?_; (case hm => decide))
    | (with_reducible apply Moves.next ?hm (fetch_moves ..) ?_; (case hm => decide))
    | (with_reducible apply Moves.next ?hm (parityFault_moves ..) ?_; (case hm => decide))
    | (with_reducible apply Moves.next ?hm (fetchAs_moves ..) ?_; (case hm => decide))
    | split

theorem ashWr_moves (s off n v) : Moves 0x30 s (ashWr s off n v) := by
  unfold ashWr
  repeat' first
    | with_reducible exact Moves.refl _ _
    | (with_reducible apply Moves.next ?hm (writeNat_moves ..) ?_; (case hm => decide))

theorem setGen_moves (s d g) : Moves 0x4000000030 s (setGen s d g) := by
  unfold setGen
  repeat' first
    | (extract_lets +onlyGivenNames x; clear_value x; revert x; intro _)
    | with_reducible exact Moves.refl _ _
    | (with_reducible apply Moves.next ?hm (setDom_moves ..) ?_; (case hm => decide))
    | (with_reducible apply Moves.next ?hm (ashWr_moves ..) ?_; (case hm => decide))

theorem nextGen_moves (s d) : Moves 0x4000000030 s (nextGen s d) := by
  unfold nextGen
  repeat' first
    | with_reducible exact Moves.refl _ _
    | (with_reducible apply Moves.next ?hm (setGen_moves ..) ?_; (case hm => decide))

theorem ashFresh_moves (s) : Moves 0x30 s (ashFresh s) := by
  unfold ashFresh
  repeat' first
    | (extract_lets +onlyGivenNames t; refine Moves.cut (t := t) ?_ (fun ht => ?_); (on_goal 2 => (clear_value t; revert t; intro _ _)); (on_goal 1 => (unfold t; clear t)))
    | with_reducible exact Moves.refl _ _
    | with_reducible assumption
    | (with_reducible apply Moves.next ?hm (writeBytes_moves ..) ?_; (case hm => decide))
    | (with_reducible apply Moves.next ?hm (zeroRange_moves ..) ?_; (case hm => decide))

theorem beginDump_moves (s d cause) : Moves 0x4000000030 s (beginDump s d cause) := by
  unfold beginDump
  repeat' first
    | (extract_lets +onlyGivenNames t; refine Moves.cut (t := t) ?_ (fun ht => ?_); (on_goal 2 => (clear_value t; revert t; intro _ _)); (on_goal 1 => (unfold t; clear t)))
    | (extract_lets +onlyGivenNames x; clear_value x; revert x; intro _)
    | with_reducible exact Moves.refl _ _
    | with_reducible assumption
    | (with_reducible apply Moves.next ?hm (writeBytes_moves ..) ?_; (case hm => decide))
    | (with_reducible apply Moves.next ?hm (setDom_moves ..) ?_; (case hm => decide))
    | (with_reducible apply Moves.next ?hm (ashWr_moves ..) ?_; (case hm => decide))

theorem setFlag_moves (s d i) : Moves 0x30 s (setFlag s d i) := by
  unfold setFlag
  repeat' first
    | with_reducible exact Moves.refl _ _
    | (with_reducible apply Moves.next ?hm (ashWr_moves ..) ?_; (case hm => decide))
    | split

theorem queueReset_moves (s d coll) : Moves 0x8000000000 s (queueReset s d coll) := by
  unfold queueReset
  repeat' first
    | with_reducible exact Moves.refl _ _
    | split
    | refine Moves.upd rfl (fun h => by cases h; constructor <;> first | assumption | (try dsimp only; first | exact mapSet_wf _ _ _ _ (by assumption) | exact mapMod_wf _ _ _ _ (by assumption) | exact mapDrop_wf _ _ _ (by assumption) | exact mapFilter_wf _ _ _ (by assumption) | exact pokeBytes_wf _ _ _ (by assumption) | exact foldl_wf _ _ (fun _ _ h => mapSet_wf _ _ _ _ h) _ (by assumption) | exact foldl_wf _ _ (fun _ _ h => mapMod_wf _ _ _ _ h) _ (by assumption) | exact rfl)) ?_

theorem isolateDomain_moves (s d cause coll) : Moves 0xa0000c0009003f8 s (isolateDomain s d cause coll) := by
  unfold isolateDomain
  repeat' first
    | (extract_lets +onlyGivenNames t; refine Moves.cut (t := t) ?_ (fun ht => ?_); (on_goal 2 => (clear_value t; revert t; intro _ _)); (on_goal 1 => (unfold t; clear t)))
    | (extract_lets +onlyGivenNames x; clear_value x; revert x; intro _)
    | with_reducible apply Moves.ite
    | with_reducible exact Moves.refl _ _
    | with_reducible assumption
    | (with_reducible apply Moves.next ?hm (setTimer_moves ..) ?_; (case hm => decide))
    | (with_reducible apply Moves.next ?hm (beginDump_moves ..) ?_; (case hm => decide))
    | (with_reducible apply Moves.next ?hm (queueReset_moves ..) ?_; (case hm => decide))
    | (with_reducible apply Moves.next ?hm (setF_moves ..) ?_; (case hm => decide))
    | (with_reducible apply Moves.next ?hm (orphanMembers_moves ..) ?_; (case hm => decide))
    | (with_reducible apply Moves.next ?hm (orphanTorus_moves ..) ?_; (case hm => decide))
    | (with_reducible apply Moves.next ?hm (setDom_moves ..) ?_; (case hm => decide))
    | split

theorem chipPoisonRec_moves (s addr detail cause) : Moves 0x800000000000038 s (chipPoisonRec s addr detail cause) := by
  unfold chipPoisonRec
  repeat' first
    | (extract_lets +onlyGivenNames x; clear_value x; revert x; intro _)
    | with_reducible exact Moves.refl _ _
    | (with_reducible apply Moves.next ?hm (raise_moves ..) ?_; (case hm => decide))

theorem chipPoison_moves (s addr detail) : Moves 0xa0000c0009003f8 s (chipPoison s addr detail) := by
  unfold chipPoison
  repeat' first
    | with_reducible apply Moves.ite
    | with_reducible exact Moves.refl _ _
    | (with_reducible apply Moves.next ?hm (chipPoisonRec_moves ..) ?_; (case hm => decide))
    | (with_reducible apply Moves.next ?hm (isolateDomain_moves ..) ?_; (case hm => decide))

theorem noteOld_moves (s) : Moves 0x8 s (noteOld s) := by
  unfold noteOld
  repeat' first
    | with_reducible apply Moves.ite
    | with_reducible exact Moves.refl _ _
    | (with_reducible apply Moves.next ?hm (setF_moves ..) ?_; (case hm => decide))

end Sys2Proof.Laws
end

