-- ==== Sys2Proof/Laws/MovesMemory.lean ====
section
/-! SUPPORT. What each operation may change: HBM, folios, the router, the tile store, the data movers and packets at their endpoints. One lemma for each, of the form of Laws/Moves.lean. -/
set_option linter.unusedVariables false
set_option linter.unusedTactic false
set_option linter.unreachableTactic false
set_option linter.tactic.unusedName false
namespace Sys2Proof.Laws
open Sys2Proof.Machine

theorem stackBytes_moves (s st n) : Moves 0x8 s (stackBytes s st n) := by
  unfold stackBytes
  repeat' first
    | with_reducible exact Moves.refl _ _
    | (with_reducible apply Moves.next ?hm (addStat_moves ..) ?_; (case hm => decide))

theorem writeBack_moves (s st l) : Moves 0x8 s (writeBack s st l) := by
  unfold writeBack
  repeat' first
    | with_reducible apply Moves.ite
    | with_reducible exact Moves.refl _ _
    | (with_reducible apply Moves.next ?hm (addStat_moves ..) ?_; (case hm => decide))
    | (with_reducible apply Moves.next ?hm (stackBytes_moves ..) ?_; (case hm => decide))

theorem allocLine_moves (s st line wr keep) : Moves 0x8008 s (allocLine s st line wr keep) := by
  unfold allocLine
  repeat' first
    | (extract_lets +onlyGivenNames x; clear_value x; revert x; intro _)
    | with_reducible apply Moves.ite
    | with_reducible exact Moves.refl _ _
    | (with_reducible apply Moves.next ?hm (setStack_moves ..) ?_; (case hm => decide))
    | (with_reducible apply Moves.next ?hm (writeBack_moves ..) ?_; (case hm => decide))
    | split

theorem hitLine_moves (s st l wr hint) : Moves 0x8008 s (hitLine s st l wr hint) := by
  unfold hitLine
  repeat' first
    | (extract_lets +onlyGivenNames x; clear_value x; revert x; intro _)
    | with_reducible exact Moves.refl _ _
    | (with_reducible apply Moves.next ?hm (setStack_moves ..) ?_; (case hm => decide))
    | (with_reducible apply Moves.next ?hm (writeBack_moves ..) ?_; (case hm => decide))
    | split

theorem lineAccess_moves (s line wr hint) : Moves 0x8008 s (lineAccess s line wr hint).1 := by
  unfold lineAccess
  repeat' first
    | (extract_lets +onlyGivenNames t; refine Moves.cut (t := t) ?_ (fun ht => ?_); (on_goal 2 => (clear_value t; revert t; intro _ _)); (on_goal 1 => (unfold t; clear t)))
    | (extract_lets +onlyGivenNames x; clear_value x; revert x; intro _)
    | with_reducible apply Moves.ite
    | with_reducible exact Moves.refl _ _
    | with_reducible assumption
    | (with_reducible apply Moves.next ?hm (allocLine_moves ..) ?_; (case hm => decide))
    | (with_reducible apply Moves.next ?hm (addStat_moves ..) ?_; (case hm => decide))
    | (with_reducible apply Moves.next ?hm (stackBytes_moves ..) ?_; (case hm => decide))
    | (with_reducible apply Moves.next ?hm (hitLine_moves ..) ?_; (case hm => decide))
    | split

theorem startRetire_moves (s st pc) : Moves 0x8400000008008 s (startRetire s st pc) := by
  unfold startRetire
  repeat' first
    | (extract_lets +onlyGivenNames t; refine Moves.cut (t := t) ?_ (fun ht => ?_); (on_goal 2 => (clear_value t; revert t; intro _ _)); (on_goal 1 => (unfold t; clear t)))
    | (extract_lets +onlyGivenNames x; clear_value x; revert x; intro _)
    | with_reducible apply Moves.ite
    | with_reducible exact Moves.refl _ _
    | with_reducible assumption
    | (with_reducible apply Moves.next ?hm (setStack_moves ..) ?_; (case hm => decide))
    | (with_reducible apply Moves.next ?hm (logLedger_moves ..) ?_; (case hm => decide))
    | (with_reducible apply Moves.next ?hm (setF_moves ..) ?_; (case hm => decide))
    | (with_reducible apply Moves.next ?hm (setFi_moves ..) ?_; (case hm => decide))
    | (with_reducible apply Moves.next ?hm (bumpLife_moves ..) ?_; (case hm => decide))

theorem retireCmd_moves (s st pc) : Moves 0x8400000008008 s (retireCmd s st pc) := by
  unfold retireCmd
  repeat' first
    | (extract_lets +onlyGivenNames x; clear_value x; revert x; intro _)
    | with_reducible apply Moves.ite
    | with_reducible exact Moves.refl _ _
    | (with_reducible apply Moves.next ?hm (startRetire_moves ..) ?_; (case hm => decide))
    | (with_reducible apply Moves.next ?hm (setF_moves ..) ?_; (case hm => decide))

theorem checkLimits_moves (s st pc was) : Moves 0x808400000008038 s (checkLimits s st pc was) := by
  unfold checkLimits
  repeat' first
    | (extract_lets +onlyGivenNames x; clear_value x; revert x; intro _)
    | with_reducible apply Moves.ite
    | with_reducible exact Moves.refl _ _
    | (with_reducible apply Moves.next ?hm (startRetire_moves ..) ?_; (case hm => decide))
    | (with_reducible apply Moves.next ?hm (setF_moves ..) ?_; (case hm => decide))
    | (with_reducible apply Moves.next ?hm (raise_moves ..) ?_; (case hm => decide))

theorem countHbmErr_moves (s a v) : Moves 0x808400000008038 s (countHbmErr s a v) := by
  unfold countHbmErr
  repeat' first
    | (extract_lets +onlyGivenNames t; refine Moves.cut (t := t) ?_ (fun ht => ?_); (on_goal 2 => (clear_value t; revert t; intro _ _)); (on_goal 1 => (unfold t; clear t)))
    | (extract_lets +onlyGivenNames x; clear_value x; revert x; intro _)
    | with_reducible apply Moves.ite
    | with_reducible exact Moves.refl _ _
    | with_reducible assumption
    | (with_reducible apply Moves.next ?hm (checkLimits_moves ..) ?_; (case hm => decide))
    | (with_reducible apply Moves.next ?hm (addF_moves ..) ?_; (case hm => decide))
    | (with_reducible apply Moves.next ?hm (setFi_moves ..) ?_; (case hm => decide))

theorem countHcErr_moves (s a v) : Moves 0x8 s (countHcErr s a v) := by
  unfold countHcErr
  repeat' first
    | (extract_lets +onlyGivenNames t; refine Moves.cut (t := t) ?_ (fun ht => ?_); (on_goal 2 => (clear_value t; revert t; intro _ _)); (on_goal 1 => (unfold t; clear t)))
    | with_reducible apply Moves.ite
    | with_reducible exact Moves.refl _ _
    | with_reducible assumption
    | (with_reducible apply Moves.next ?hm (addF_moves ..) ?_; (case hm => decide))

theorem accessErr_moves (hit line s e) : Moves 0xa084000000080b8 s (accessErr hit line s e) := by
  unfold accessErr
  repeat' first
    | (extract_lets +onlyGivenNames x; clear_value x; revert x; intro _)
    | with_reducible apply Moves.ite
    | with_reducible exact Moves.refl _ _
    | (with_reducible apply Moves.next ?hm (accessWord_moves ..) ?_; (case hm => decide))
    | (with_reducible apply Moves.next ?hm (countHcErr_moves ..) ?_; (case hm => decide))
    | (with_reducible apply Moves.next ?hm (countHbmErr_moves ..) ?_; (case hm => decide))

theorem catalogueErr_moves (s e) : Moves 0xa0040c0009003f8 s (catalogueErr s e) := by
  unfold catalogueErr
  dsimp only
  repeat' first
    | with_reducible apply Moves.ite
    | with_reducible exact Moves.refl _ _
    | (with_reducible apply Moves.next ?hm (chipPoisonRec_moves ..) ?_; (case hm => decide))
    | (with_reducible apply Moves.next ?hm (chipPoison_moves ..) ?_; (case hm => decide))
    | (with_reducible apply Moves.next ?hm (poisonWord_moves ..) ?_; (case hm => decide))
    | (with_reducible apply Moves.next ?hm (logLedger_moves ..) ?_; (case hm => decide))
    | split

theorem ownedErr_moves (s e) : Moves 0xa0040c0009003f8 s (ownedErr s e) := by
  unfold ownedErr
  repeat' first
    | with_reducible exact Moves.refl _ _
    | (with_reducible apply Moves.next ?hm (chipPoison_moves ..) ?_; (case hm => decide))
    | (with_reducible apply Moves.next ?hm (logLedger_moves ..) ?_; (case hm => decide))

theorem staleWrite_moves {s gen segs t} (h : staleWrite s gen segs = some t) : Moves 0x8 s t := by
  unfold staleWrite at h
  split at h
  · cases h
  · injection h with h
    subst h
    exact Moves.foldl _ (fun s x => Moves.foldl _ (fun s i => addF_moves ..) _ (Moves.refl _ _)) _ (Moves.refl _ _)

theorem lineReqsFor_moves (own s a n wr hint) : Moves 0x10000 s (lineReqsFor own s a n wr hint) := by
  unfold lineReqsFor
  repeat' first
    | with_reducible exact Moves.refl _ _
    | refine Moves.upd rfl (fun h => by cases h; constructor <;> first | assumption | (try dsimp only; first | exact mapSet_wf _ _ _ _ (by assumption) | exact mapMod_wf _ _ _ _ (by assumption) | exact mapDrop_wf _ _ _ (by assumption) | exact mapFilter_wf _ _ _ (by assumption) | exact pokeBytes_wf _ _ _ (by assumption) | exact foldl_wf _ _ (fun _ _ h => mapSet_wf _ _ _ _ h) _ (by assumption) | exact foldl_wf _ _ (fun _ _ h => mapMod_wf _ _ _ _ h) _ (by assumption) | exact rfl)) ?_

theorem lineReqs_moves (s a n wr hint) : Moves 0x10000 s (lineReqs s a n wr hint) := by
  unfold lineReqs
  repeat' first
    | with_reducible exact Moves.refl _ _
    | (with_reducible apply Moves.next ?hm (lineReqsFor_moves ..) ?_; (case hm => decide))

theorem flushWb_moves (s st) : Moves 0x8008 s (flushWb s st) := by
  unfold flushWb
  repeat' first
    | (extract_lets +onlyGivenNames t; refine Moves.cut (t := t) ?_ (fun ht => ?_); (on_goal 2 => (clear_value t; revert t; intro _ _)); (on_goal 1 => (unfold t; clear t)))
    | (extract_lets +onlyGivenNames x; clear_value x; revert x; intro _)
    | with_reducible exact Moves.refl _ _
    | with_reducible assumption
    | (with_reducible apply Moves.next ?hm (setStack_moves ..) ?_; (case hm => decide))
    | (with_reducible apply Moves.next ?hm (writeBack_moves ..) ?_; (case hm => decide))
    | with_reducible apply Moves.foldl _ (fun s x => ?_) _ ?_

theorem hcFlushWb_moves (s st) : Moves 0x8008 s (hcFlushWb s st) := by
  unfold hcFlushWb
  repeat' first
    | with_reducible exact Moves.refl _ _
    | (with_reducible apply Moves.next ?hm (setF_moves ..) ?_; (case hm => decide))
    | (with_reducible apply Moves.next ?hm (flushWb_moves ..) ?_; (case hm => decide))

theorem hcFlushInv_moves (s st) : Moves 0x8008 s (hcFlushInv s st) := by
  unfold hcFlushInv
  repeat' first
    | (extract_lets +onlyGivenNames t; refine Moves.cut (t := t) ?_ (fun ht => ?_); (on_goal 2 => (clear_value t; revert t; intro _ _)); (on_goal 1 => (unfold t; clear t)))
    | (extract_lets +onlyGivenNames x; clear_value x; revert x; intro _)
    | with_reducible exact Moves.refl _ _
    | with_reducible assumption
    | (with_reducible apply Moves.next ?hm (setStack_moves ..) ?_; (case hm => decide))
    | (with_reducible apply Moves.next ?hm (setF_moves ..) ?_; (case hm => decide))
    | (with_reducible apply Moves.next ?hm (flushWb_moves ..) ?_; (case hm => decide))

theorem hcFlushDone_moves (s st) : Moves 0x8 s (hcFlushDone s st) := by
  unfold hcFlushDone
  repeat' first
    | with_reducible exact Moves.refl _ _
    | (with_reducible apply Moves.next ?hm (setF_moves ..) ?_; (case hm => decide))

theorem hcSweep_moves (s st errs) : Moves 0xa184000000000b8 s (hcSweep s st errs) := by
  unfold hcSweep
  repeat' first
    | (extract_lets +onlyGivenNames t; refine Moves.cut (t := t) ?_ (fun ht => ?_); (on_goal 2 => (clear_value t; revert t; intro _ _)); (on_goal 1 => (unfold t; clear t)))
    | (extract_lets +onlyGivenNames x; clear_value x; revert x; intro _)
    | with_reducible apply Moves.ite
    | with_reducible exact Moves.refl _ _
    | with_reducible assumption
    | (with_reducible apply Moves.next ?hm (setTimer_moves ..) ?_; (case hm => decide))
    | (with_reducible apply Moves.next ?hm (sweepWord_moves ..) ?_; (case hm => decide))
    | (with_reducible apply Moves.next ?hm (countHcErr_moves ..) ?_; (case hm => decide))
    | with_reducible apply Moves.foldl _ (fun s x => ?_) _ ?_

theorem odeccReports_moves (s st pc n) : Moves 0x400000000008 s (odeccReports s st pc n) := by
  unfold odeccReports
  repeat' first
    | with_reducible apply Moves.ite
    | with_reducible exact Moves.refl _ _
    | (with_reducible apply Moves.next ?hm (addF_moves ..) ?_; (case hm => decide))
    | (with_reducible apply Moves.next ?hm (logLedger_moves ..) ?_; (case hm => decide))

theorem sweepHbmWord_moves (line st s e) : Moves 0xa184000000080b8 s (sweepHbmWord line st s e) := by
  unfold sweepHbmWord
  repeat' first
    | (extract_lets +onlyGivenNames x; clear_value x; revert x; intro _)
    | with_reducible apply Moves.ite
    | with_reducible exact Moves.refl _ _
    | (with_reducible apply Moves.next ?hm (sweepWord_moves ..) ?_; (case hm => decide))
    | (with_reducible apply Moves.next ?hm (stackBytes_moves ..) ?_; (case hm => decide))
    | (with_reducible apply Moves.next ?hm (countHbmErr_moves ..) ?_; (case hm => decide))

theorem mcSweepLine_moves (s st errs odecc) : Moves 0xa184000000080b8 s (mcSweepLine s st errs odecc) := by
  unfold mcSweepLine
  repeat' first
    | (extract_lets +onlyGivenNames t; refine Moves.cut (t := t) ?_ (fun ht => ?_); (on_goal 2 => (clear_value t; revert t; intro _ _)); (on_goal 1 => (unfold t; clear t)))
    | (extract_lets +onlyGivenNames x; clear_value x; revert x; intro _)
    | with_reducible apply Moves.ite
    | with_reducible exact Moves.refl _ _
    | with_reducible assumption
    | (with_reducible apply Moves.next ?hm (setTimer_moves ..) ?_; (case hm => decide))
    | (with_reducible apply Moves.next ?hm (stackBytes_moves ..) ?_; (case hm => decide))
    | (with_reducible apply Moves.next ?hm (sweepHbmWord_moves ..) ?_; (case hm => decide))
    | (with_reducible apply Moves.next ?hm (setF_moves ..) ?_; (case hm => decide))
    | (with_reducible apply Moves.next ?hm (setFi_moves ..) ?_; (case hm => decide))
    | (with_reducible apply Moves.next ?hm (odeccReports_moves ..) ?_; (case hm => decide))
    | with_reducible apply Moves.foldl _ (fun s x => ?_) _ ?_
    | split

theorem migrateWord_moves (st j k s e) : Moves 0xa084000000080b8 s (migrateWord st j k s e) := by
  unfold migrateWord
  repeat' first
    | (extract_lets +onlyGivenNames x; clear_value x; revert x; intro _)
    | with_reducible apply Moves.ite
    | with_reducible exact Moves.refl _ _
    | (with_reducible apply Moves.next ?hm (accessWord_moves ..) ?_; (case hm => decide))
    | (with_reducible apply Moves.next ?hm (countHbmErr_moves ..) ?_; (case hm => decide))

theorem migrationDone_moves (s st upto errs) : Moves 0xa084000000080b8 s (migrationDone s st upto errs) := by
  unfold migrationDone
  repeat' first
    | (extract_lets +onlyGivenNames t; refine Moves.cut (t := t) ?_ (fun ht => ?_); (on_goal 2 => (clear_value t; revert t; intro _ _)); (on_goal 1 => (unfold t; clear t)))
    | (extract_lets +onlyGivenNames x; clear_value x; revert x; intro _)
    | with_reducible apply Moves.ite
    | with_reducible exact Moves.refl _ _
    | with_reducible assumption
    | (with_reducible apply Moves.next ?hm (checkLimits_moves ..) ?_; (case hm => decide))
    | (with_reducible apply Moves.next ?hm (stackBytes_moves ..) ?_; (case hm => decide))
    | (with_reducible apply Moves.next ?hm (migrateWord_moves ..) ?_; (case hm => decide))
    | (with_reducible apply Moves.next ?hm (setStack_moves ..) ?_; (case hm => decide))
    | (with_reducible apply Moves.next ?hm (setF_moves ..) ?_; (case hm => decide))
    | with_reducible apply Moves.foldl _ (fun s x => ?_) _ ?_
    | split

theorem narrowTouch_moves (s a wr hint) : Moves 0x8008 s (narrowTouch s a wr hint).1 := by
  unfold narrowTouch
  repeat' first
    | (extract_lets +onlyGivenNames x; clear_value x; revert x; intro _)
    | with_reducible exact Moves.refl _ _
    | (with_reducible apply Moves.next ?hm (hitLine_moves ..) ?_; (case hm => decide))
    | split

theorem narrowRead_moves (s a hint) : Moves 0x8008 s (narrowRead s a hint).1 := by
  unfold narrowRead
  repeat' first
    | (extract_lets +onlyGivenNames x; clear_value x; revert x; intro _)
    | with_reducible apply Moves.ite
    | with_reducible exact Moves.refl _ _
    | (with_reducible apply Moves.next ?hm (allocLine_moves ..) ?_; (case hm => decide))
    | (with_reducible apply Moves.next ?hm (addStat_moves ..) ?_; (case hm => decide))
    | (with_reducible apply Moves.next ?hm (stackBytes_moves ..) ?_; (case hm => decide))
    | (with_reducible apply Moves.next ?hm (narrowTouch_moves ..) ?_; (case hm => decide))

theorem atomicAdd_moves (s a hint int add) : Moves 0x8038 s (atomicAdd s a hint int add).1 := by
  unfold atomicAdd
  repeat' first
    | (extract_lets +onlyGivenNames x; clear_value x; revert x; intro _)
    | with_reducible apply Moves.ite
    | with_reducible apply Moves.ite_fst
    | with_reducible exact Moves.refl _ _
    | (with_reducible apply Moves.next ?hm (addStat_moves ..) ?_; (case hm => decide))
    | (with_reducible apply Moves.next ?hm (stackBytes_moves ..) ?_; (case hm => decide))
    | (with_reducible apply Moves.next ?hm (poisonWord_moves ..) ?_; (case hm => decide))
    | (with_reducible apply Moves.next ?hm (addF_moves ..) ?_; (case hm => decide))
    | (with_reducible apply Moves.next ?hm (narrowTouch_moves ..) ?_; (case hm => decide))
    | (with_reducible apply Moves.next ?hm (writeBytes_moves ..) ?_; (case hm => decide))

theorem rsvAccess_moves (s a n) : Moves 0x8 s (rsvAccess s a n) := by
  unfold rsvAccess
  repeat' first
    | with_reducible exact Moves.refl _ _
    | (with_reducible apply Moves.next ?hm (addF_moves ..) ?_; (case hm => decide))
    | with_reducible apply Moves.foldl _ (fun s x => ?_) _ ?_

theorem requestRestore_moves (s pfn) : Moves 0x800000000020008 s (requestRestore s pfn) := by
  unfold requestRestore
  repeat' first
    | (extract_lets +onlyGivenNames t; refine Moves.cut (t := t) ?_ (fun ht => ?_); (on_goal 2 => (clear_value t; revert t; intro _ _)); (on_goal 1 => (unfold t; clear t)))
    | (extract_lets +onlyGivenNames x; revert x; intro _)
    | with_reducible apply Moves.ite
    | with_reducible exact Moves.refl _ _
    | with_reducible assumption
    | (with_reducible apply Moves.next ?hm (setFrame_moves ..) ?_; (case hm => decide))
    | (with_reducible apply Moves.next ?hm (pushEvent_moves ..) ?_; (case hm => decide))
    | refine Moves.upd rfl (fun h => by cases h; constructor <;> first | assumption | (try dsimp only; first | exact mapSet_wf _ _ _ _ (by assumption) | exact mapMod_wf _ _ _ _ (by assumption) | exact mapDrop_wf _ _ _ (by assumption) | exact mapFilter_wf _ _ _ (by assumption) | exact pokeBytes_wf _ _ _ (by assumption) | exact foldl_wf _ _ (fun _ _ h => mapSet_wf _ _ _ _ h) _ (by assumption) | exact foldl_wf _ _ (fun _ _ h => mapMod_wf _ _ _ _ h) _ (by assumption) | exact rfl)) ?_

theorem setXlat_moves (s who c) : Moves 0x20080 s (setXlat s who c) := by
  unfold setXlat
  repeat' first
    | (extract_lets +onlyGivenNames x; revert x; intro _)
    | with_reducible exact Moves.refl _ _
    | (with_reducible apply Moves.next ?hm (modTile_moves ..) ?_; (case hm => decide))
    | split
    | refine Moves.upd rfl (fun h => by cases h; constructor <;> first | assumption | (try dsimp only; first | exact mapSet_wf _ _ _ _ (by assumption) | exact mapMod_wf _ _ _ _ (by assumption) | exact mapDrop_wf _ _ _ (by assumption) | exact mapFilter_wf _ _ _ (by assumption) | exact pokeBytes_wf _ _ _ (by assumption) | exact foldl_wf _ _ (fun _ _ h => mapSet_wf _ _ _ _ h) _ (by assumption) | exact foldl_wf _ _ (fun _ _ h => mapMod_wf _ _ _ _ h) _ (by assumption) | exact rfl)) ?_

theorem translate_moves (s who vpn) : Moves 0x30088 s (Machine.translate s who vpn).1 := by
  unfold Machine.translate
  repeat' first
    | (extract_lets +onlyGivenNames t; refine Moves.cut (t := t) ?_ (fun ht => ?_); (on_goal 2 => (clear_value t; revert t; intro _ _)); (on_goal 1 => (unfold t; clear t)))
    | (extract_lets +onlyGivenNames x; clear_value x; revert x; intro _)
    | with_reducible apply Moves.ite_fst
    | with_reducible exact Moves.refl _ _
    | with_reducible assumption
    | (with_reducible apply Moves.next ?hm (addStat_moves ..) ?_; (case hm => decide))
    | (with_reducible apply Moves.next ?hm (lineReqs_moves ..) ?_; (case hm => decide))
    | (with_reducible apply Moves.next ?hm (setXlat_moves ..) ?_; (case hm => decide))
    | split

theorem jobCheck_moves (s who a n wr) : Moves 0x800000000030088 s (jobCheck s who a n wr).1 := by
  unfold jobCheck
  repeat' first
    | (extract_lets +onlyGivenNames x; clear_value x; revert x; intro _)
    | with_reducible exact Moves.refl _ _
    | (with_reducible apply Moves.next ?hm (requestRestore_moves ..) ?_; (case hm => decide))
    | (with_reducible apply Moves.next ?hm (translate_moves ..) ?_; (case hm => decide))
    | with_reducible apply Moves.foldl_fst _ (fun s x => ?_) _ ?_
    | split
    | (with_reducible apply Moves.fst_of ?he ?_; (case he => with_reducible assumption))

theorem segLines_moves (s segs wr hint) : Moves 0x10000 s (segLines s segs wr hint) := by
  unfold segLines
  repeat' first
    | with_reducible exact Moves.refl _ _
    | (with_reducible apply Moves.next ?hm (lineReqs_moves ..) ?_; (case hm => decide))
    | with_reducible apply Moves.foldl _ (fun s x => ?_) _ ?_

theorem sendDup_moves (s line target) : Moves 0x110000 s (sendDup s line target) := by
  unfold sendDup
  repeat' first
    | (extract_lets +onlyGivenNames t; refine Moves.cut (t := t) ?_ (fun ht => ?_); (on_goal 2 => (clear_value t; revert t; intro _ _)); (on_goal 1 => (unfold t; clear t)))
    | (extract_lets +onlyGivenNames x; clear_value x; revert x; intro _)
    | with_reducible exact Moves.refl _ _
    | with_reducible assumption
    | (with_reducible apply Moves.next ?hm (sendPkt_moves ..) ?_; (case hm => decide))
    | (with_reducible apply Moves.next ?hm (lineReqs_moves ..) ?_; (case hm => decide))

theorem dupLine_moves (s line target) : Moves 0x130000 s (dupLine s line target) := by
  unfold dupLine
  repeat' first
    | (extract_lets +onlyGivenNames x; revert x; intro _)
    | with_reducible apply Moves.ite
    | with_reducible exact Moves.refl _ _
    | (with_reducible apply Moves.next ?hm (sendDup_moves ..) ?_; (case hm => decide))
    | refine Moves.upd rfl (fun h => by cases h; constructor <;> first | assumption | (try dsimp only; first | exact mapSet_wf _ _ _ _ (by assumption) | exact mapMod_wf _ _ _ _ (by assumption) | exact mapDrop_wf _ _ _ (by assumption) | exact mapFilter_wf _ _ _ (by assumption) | exact pokeBytes_wf _ _ _ (by assumption) | exact foldl_wf _ _ (fun _ _ h => mapSet_wf _ _ _ _ h) _ (by assumption) | exact foldl_wf _ _ (fun _ _ h => mapMod_wf _ _ _ _ h) _ (by assumption) | exact rfl)) ?_

theorem pumpDups_moves (s) : Moves 0x130000 s (pumpDups s) := by
  unfold pumpDups
  repeat' first
    | (extract_lets +onlyGivenNames x; revert x; intro _)
    | with_reducible apply Moves.ite
    | with_reducible exact Moves.refl _ _
    | (with_reducible apply Moves.next ?hm (dupLine_moves ..) ?_; (case hm => decide))
    | split
    | refine Moves.upd rfl (fun h => by cases h; constructor <;> first | assumption | (try dsimp only; first | exact mapSet_wf _ _ _ _ (by assumption) | exact mapMod_wf _ _ _ _ (by assumption) | exact mapDrop_wf _ _ _ (by assumption) | exact mapFilter_wf _ _ _ (by assumption) | exact pokeBytes_wf _ _ _ (by assumption) | exact foldl_wf _ _ (fun _ _ h => mapSet_wf _ _ _ _ h) _ (by assumption) | exact foldl_wf _ _ (fun _ _ h => mapMod_wf _ _ _ _ h) _ (by assumption) | exact rfl)) ?_

theorem dupAcked_moves (s target) : Moves 0x130208 s (dupAcked s target) := by
  unfold dupAcked
  repeat' first
    | (extract_lets +onlyGivenNames t; refine Moves.cut (t := t) ?_ (fun ht => ?_); (on_goal 2 => (clear_value t; revert t; intro _ _)); (on_goal 1 => (unfold t; clear t)))
    | (extract_lets +onlyGivenNames x; revert x; intro _)
    | with_reducible apply Moves.ite
    | with_reducible exact Moves.refl _ _
    | with_reducible assumption
    | (with_reducible apply Moves.next ?hm (sendDup_moves ..) ?_; (case hm => decide))
    | (with_reducible apply Moves.next ?hm (addStat_moves ..) ?_; (case hm => decide))
    | (with_reducible apply Moves.next ?hm (pumpDups_moves ..) ?_; (case hm => decide))
    | split
    | refine Moves.upd rfl (fun h => by cases h; constructor <;> first | assumption | (try dsimp only; first | exact mapSet_wf _ _ _ _ (by assumption) | exact mapMod_wf _ _ _ _ (by assumption) | exact mapDrop_wf _ _ _ (by assumption) | exact mapFilter_wf _ _ _ (by assumption) | exact pokeBytes_wf _ _ _ (by assumption) | exact foldl_wf _ _ (fun _ _ h => mapSet_wf _ _ _ _ h) _ (by assumption) | exact foldl_wf _ _ (fun _ _ h => mapMod_wf _ _ _ _ h) _ (by assumption) | exact rfl)) ?_

theorem mirrorLost_moves (s) : Moves 0x800000000020238 s (mirrorLost s) := by
  unfold mirrorLost
  repeat' first
    | (extract_lets +onlyGivenNames t; refine Moves.cut (t := t) ?_ (fun ht => ?_); (on_goal 2 => (clear_value t; revert t; intro _ _)); (on_goal 1 => (unfold t; clear t)))
    | (extract_lets +onlyGivenNames x; revert x; intro _)
    | with_reducible exact Moves.refl _ _
    | with_reducible assumption
    | (with_reducible apply Moves.next ?hm (setF_moves ..) ?_; (case hm => decide))
    | (with_reducible apply Moves.next ?hm (raise_moves ..) ?_; (case hm => decide))
    | refine Moves.upd rfl (fun h => by cases h; constructor <;> first | assumption | (try dsimp only; first | exact mapSet_wf _ _ _ _ (by assumption) | exact mapMod_wf _ _ _ _ (by assumption) | exact mapDrop_wf _ _ _ (by assumption) | exact mapFilter_wf _ _ _ (by assumption) | exact pokeBytes_wf _ _ _ (by assumption) | exact foldl_wf _ _ (fun _ _ h => mapSet_wf _ _ _ _ h) _ (by assumption) | exact foldl_wf _ _ (fun _ _ h => mapMod_wf _ _ _ _ h) _ (by assumption) | exact rfl)) ?_

theorem mirrorFenceTimeout_moves (s) : Moves 0x800000000020238 s (mirrorFenceTimeout s) := by
  unfold mirrorFenceTimeout
  repeat' first
    | with_reducible apply Moves.ite
    | with_reducible exact Moves.refl _ _
    | (with_reducible apply Moves.next ?hm (mirrorLost_moves ..) ?_; (case hm => decide))

theorem mirrorResync_moves (s) : Moves 0x130008 s (mirrorResync s) := by
  unfold mirrorResync
  repeat' first
    | (extract_lets +onlyGivenNames t; refine Moves.cut (t := t) ?_ (fun ht => ?_); (on_goal 2 => (clear_value t; revert t; intro _ _)); (on_goal 1 => (unfold t; clear t)))
    | (extract_lets +onlyGivenNames x; revert x; intro _)
    | with_reducible apply Moves.ite
    | with_reducible exact Moves.refl _ _
    | with_reducible assumption
    | (with_reducible apply Moves.next ?hm (pumpDups_moves ..) ?_; (case hm => decide))
    | (with_reducible apply Moves.next ?hm (setF_moves ..) ?_; (case hm => decide))
    | with_reducible apply Moves.foldl _ (fun s x => ?_) _ ?_
    | refine Moves.upd rfl (fun h => by cases h; constructor <;> first | assumption | (try dsimp only; first | exact mapSet_wf _ _ _ _ (by assumption) | exact mapMod_wf _ _ _ _ (by assumption) | exact mapDrop_wf _ _ _ (by assumption) | exact mapFilter_wf _ _ _ (by assumption) | exact pokeBytes_wf _ _ _ (by assumption) | exact foldl_wf _ _ (fun _ _ h => mapSet_wf _ _ _ _ h) _ (by assumption) | exact foldl_wf _ _ (fun _ _ h => mapMod_wf _ _ _ _ h) _ (by assumption) | exact rfl)) ?_

theorem mirrorResyncDone_moves (s) : Moves 0x8 s (mirrorResyncDone s) := by
  unfold mirrorResyncDone
  repeat' first
    | with_reducible apply Moves.ite
    | with_reducible exact Moves.refl _ _
    | (with_reducible apply Moves.next ?hm (setF_moves ..) ?_; (case hm => decide))

theorem noteWrite_moves (s pa) : Moves 0x20030 s (noteWrite s pa) := by
  unfold noteWrite
  repeat' first
    | (extract_lets +onlyGivenNames t; refine Moves.cut (t := t) ?_ (fun ht => ?_); (on_goal 2 => (clear_value t; revert t; intro _ _)); (on_goal 1 => (unfold t; clear t)))
    | (extract_lets +onlyGivenNames x; revert x; intro _)
    | with_reducible apply Moves.ite
    | with_reducible exact Moves.refl _ _
    | with_reducible assumption
    | (with_reducible apply Moves.next ?hm (setFrame_moves ..) ?_; (case hm => decide))
    | (with_reducible apply Moves.next ?hm (zeroRange_moves ..) ?_; (case hm => decide))
    | split
    | refine Moves.upd rfl (fun h => by cases h; constructor <;> first | assumption | (try dsimp only; first | exact mapSet_wf _ _ _ _ (by assumption) | exact mapMod_wf _ _ _ _ (by assumption) | exact mapDrop_wf _ _ _ (by assumption) | exact mapFilter_wf _ _ _ (by assumption) | exact pokeBytes_wf _ _ _ (by assumption) | exact foldl_wf _ _ (fun _ _ h => mapSet_wf _ _ _ _ h) _ (by assumption) | exact foldl_wf _ _ (fun _ _ h => mapMod_wf _ _ _ _ h) _ (by assumption) | exact rfl)) ?_

theorem mirrorWrite_moves (s pa n) : Moves 0x130000 s (mirrorWrite s pa n) := by
  unfold mirrorWrite
  repeat' first
    | (extract_lets +onlyGivenNames x; clear_value x; revert x; intro _)
    | with_reducible apply Moves.ite
    | with_reducible exact Moves.refl _ _
    | (with_reducible apply Moves.next ?hm (dupLine_moves ..) ?_; (case hm => decide))
    | with_reducible apply Moves.foldl _ (fun s x => ?_) _ ?_

theorem landWrite_moves (s pa bs) : Moves 0x130030 s (landWrite s pa bs) := by
  unfold landWrite
  repeat' first
    | with_reducible exact Moves.refl _ _
    | (with_reducible apply Moves.next ?hm (mirrorWrite_moves ..) ?_; (case hm => decide))
    | (with_reducible apply Moves.next ?hm (noteWrite_moves ..) ?_; (case hm => decide))
    | (with_reducible apply Moves.next ?hm (writeBytes_moves ..) ?_; (case hm => decide))

theorem segStore_moves (x0 x1 x2) : Moves 0x130030 x0 (segStore x0 x1 x2) := by
  induction x1 generalizing x0 x2 with
    | nil => ?_
    | cons y r ih => ?_
  all_goals unfold segStore
  repeat' first
    | with_reducible exact Moves.refl _ _
    | (with_reducible apply Moves.next ?hm (landWrite_moves ..) ?_; (case hm => decide))
    | with_reducible apply Moves.trans (ih ..) ?_

theorem landAtomic_moves (s pa hint int add) : Moves 0x138038 s (landAtomic s pa hint int add) := by
  unfold landAtomic
  repeat' first
    | with_reducible exact Moves.refl _ _
    | (with_reducible apply Moves.next ?hm (atomicAdd_moves ..) ?_; (case hm => decide))
    | (with_reducible apply Moves.next ?hm (mirrorWrite_moves ..) ?_; (case hm => decide))
    | (with_reducible apply Moves.next ?hm (noteWrite_moves ..) ?_; (case hm => decide))

theorem flushXlat_moves (s) : Moves 0x20080 s (flushXlat s) := by
  unfold flushXlat
  repeat' first
    | (extract_lets +onlyGivenNames t; refine Moves.cut (t := t) ?_ (fun ht => ?_); (on_goal 2 => (clear_value t; revert t; intro _ _)); (on_goal 1 => (unfold t; clear t)))
    | (extract_lets +onlyGivenNames x; revert x; intro _)
    | with_reducible apply Moves.ite
    | with_reducible exact Moves.refl _ _
    | with_reducible assumption
    | (with_reducible apply Moves.next ?hm (setXlat_moves ..) ?_; (case hm => decide))
    | with_reducible apply Moves.foldl _ (fun s x => ?_) _ ?_
    | refine Moves.upd rfl (fun h => by cases h; constructor <;> first | assumption | (try dsimp only; first | exact mapSet_wf _ _ _ _ (by assumption) | exact mapMod_wf _ _ _ _ (by assumption) | exact mapDrop_wf _ _ _ (by assumption) | exact mapFilter_wf _ _ _ (by assumption) | exact pokeBytes_wf _ _ _ (by assumption) | exact foldl_wf _ _ (fun _ _ h => mapSet_wf _ _ _ _ h) _ (by assumption) | exact foldl_wf _ _ (fun _ _ h => mapMod_wf _ _ _ _ h) _ (by assumption) | exact rfl)) ?_

theorem touchFrames_moves (s ps) : Moves 0x40000 s (touchFrames s ps) := by
  unfold touchFrames
  repeat' first
    | with_reducible apply Moves.ite
    | with_reducible exact Moves.refl _ _
    | refine Moves.upd rfl (fun h => by cases h; constructor <;> first | assumption | (try dsimp only; first | exact mapSet_wf _ _ _ _ (by assumption) | exact mapMod_wf _ _ _ _ (by assumption) | exact mapDrop_wf _ _ _ (by assumption) | exact mapFilter_wf _ _ _ (by assumption) | exact pokeBytes_wf _ _ _ (by assumption) | exact foldl_wf _ _ (fun _ _ h => mapSet_wf _ _ _ _ h) _ (by assumption) | exact foldl_wf _ _ (fun _ _ h => mapMod_wf _ _ _ _ h) _ (by assumption) | exact rfl)) ?_

theorem tableFrames_wf (s base es) : mapWf (fun _ => Frame.reset) (tableFrames s base es) = true :=
  mapSet_wf _ _ _ _ (mapSet_wf _ _ _ _ (foldl_wf _ _ (fun _ _ h => mapSet_wf _ _ _ _ h) _ rfl))

theorem applyTable_moves (s base) : Moves 0x60080 s (applyTable s base) := by
  unfold applyTable
  repeat' first
    | (extract_lets +onlyGivenNames t; refine Moves.cut (t := t) ?_ (fun ht => ?_); (on_goal 2 => (clear_value t; revert t; intro _ _)); (on_goal 1 => (unfold t; clear t)))
    | (extract_lets +onlyGivenNames x; revert x; intro _)
    | with_reducible exact Moves.refl _ _
    | with_reducible assumption
    | (with_reducible apply Moves.next ?hm (touchFrames_moves ..) ?_; (case hm => decide))
    | (with_reducible apply Moves.next ?hm (flushXlat_moves ..) ?_; (case hm => decide))
    | refine Moves.upd rfl (fun h => by cases h; constructor <;> first | assumption | exact tableFrames_wf _ _ _ | (try dsimp only; first | exact mapSet_wf _ _ _ _ (by assumption) | exact mapMod_wf _ _ _ _ (by assumption) | exact mapDrop_wf _ _ _ (by assumption) | exact mapFilter_wf _ _ _ (by assumption) | exact pokeBytes_wf _ _ _ (by assumption) | exact foldl_wf _ _ (fun _ _ h => mapSet_wf _ _ _ _ h) _ (by assumption) | exact foldl_wf _ _ (fun _ _ h => mapMod_wf _ _ _ _ h) _ (by assumption) | exact rfl)) ?_

theorem pumpWaiting_moves (s) : Moves 0x800000000020008 s (pumpWaiting s) := by
  unfold pumpWaiting
  repeat' first
    | with_reducible exact Moves.refl _ _
    | (with_reducible apply Moves.next ?hm (requestRestore_moves ..) ?_; (case hm => decide))
    | with_reducible apply Moves.foldl _ (fun s x => ?_) _ ?_

theorem dropWaiting_moves (s) : Moves 0x20000 s (dropWaiting s) := by
  unfold dropWaiting
  repeat' first
    | (extract_lets +onlyGivenNames x; revert x; intro _)
    | with_reducible exact Moves.refl _ _
    | refine Moves.upd rfl (fun h => by cases h; constructor <;> first | assumption | (try dsimp only; first | exact mapSet_wf _ _ _ _ (by assumption) | exact mapMod_wf _ _ _ _ (by assumption) | exact mapDrop_wf _ _ _ (by assumption) | exact mapFilter_wf _ _ _ (by assumption) | exact pokeBytes_wf _ _ _ (by assumption) | exact foldl_wf _ _ (fun _ _ h => mapSet_wf _ _ _ _ h) _ (by assumption) | exact foldl_wf _ _ (fun _ _ h => mapMod_wf _ _ _ _ h) _ (by assumption) | exact rfl)) ?_

theorem releaseHeld_moves (s) : Moves 0x800000000120008 s (releaseHeld s) := by
  unfold releaseHeld
  repeat' first
    | (extract_lets +onlyGivenNames x; revert x; intro _)
    | with_reducible exact Moves.refl _ _
    | (with_reducible apply Moves.next ?hm (requestRestore_moves ..) ?_; (case hm => decide))
    | (with_reducible apply Moves.next ?hm (pumpWaiting_moves ..) ?_; (case hm => decide))
    | with_reducible apply Moves.foldl _ (fun s x => ?_) _ ?_
    | refine Moves.upd rfl (fun h => by cases h; constructor <;> first | assumption | (try dsimp only; first | exact mapSet_wf _ _ _ _ (by assumption) | exact mapMod_wf _ _ _ _ (by assumption) | exact mapDrop_wf _ _ _ (by assumption) | exact mapFilter_wf _ _ _ (by assumption) | exact pokeBytes_wf _ _ _ (by assumption) | exact foldl_wf _ _ (fun _ _ h => mapSet_wf _ _ _ _ h) _ (by assumption) | exact foldl_wf _ _ (fun _ _ h => mapMod_wf _ _ _ _ h) _ (by assumption) | exact rfl)) ?_

theorem ftLoad_moves (s) : Moves 0x20008 s (ftLoad s) := by
  unfold ftLoad
  repeat' first
    | (extract_lets +onlyGivenNames x; revert x; intro _)
    | with_reducible apply Moves.ite
    | with_reducible exact Moves.refl _ _
    | (with_reducible apply Moves.next ?hm (setF_moves ..) ?_; (case hm => decide))
    | refine Moves.upd rfl (fun h => by cases h; constructor <;> first | assumption | (try dsimp only; first | exact mapSet_wf _ _ _ _ (by assumption) | exact mapMod_wf _ _ _ _ (by assumption) | exact mapDrop_wf _ _ _ (by assumption) | exact mapFilter_wf _ _ _ (by assumption) | exact pokeBytes_wf _ _ _ (by assumption) | exact foldl_wf _ _ (fun _ _ h => mapSet_wf _ _ _ _ h) _ (by assumption) | exact foldl_wf _ _ (fun _ _ h => mapMod_wf _ _ _ _ h) _ (by assumption) | exact rfl)) ?_

theorem ftRefuse_moves (s vpn cause) : Moves 0x8 s (ftRefuse s vpn cause) := by
  unfold ftRefuse
  repeat' first
    | with_reducible exact Moves.refl _ _
    | (with_reducible apply Moves.next ?hm (setF_moves ..) ?_; (case hm => decide))

theorem ftIdle_moves (s) : Moves 0x20008 s (ftIdle s) := by
  unfold ftIdle
  repeat' first
    | (extract_lets +onlyGivenNames x; revert x; intro _)
    | with_reducible exact Moves.refl _ _
    | (with_reducible apply Moves.next ?hm (setF_moves ..) ?_; (case hm => decide))
    | refine Moves.upd rfl (fun h => by cases h; constructor <;> first | assumption | (try dsimp only; first | exact mapSet_wf _ _ _ _ (by assumption) | exact mapMod_wf _ _ _ _ (by assumption) | exact mapDrop_wf _ _ _ (by assumption) | exact mapFilter_wf _ _ _ (by assumption) | exact pokeBytes_wf _ _ _ (by assumption) | exact foldl_wf _ _ (fun _ _ h => mapSet_wf _ _ _ _ h) _ (by assumption) | exact foldl_wf _ _ (fun _ _ h => mapMod_wf _ _ _ _ h) _ (by assumption) | exact rfl)) ?_

theorem ftLoadComplete_moves (s) : Moves 0x800000000170088 s (ftLoadComplete s) := by
  unfold ftLoadComplete
  repeat' first
    | (extract_lets +onlyGivenNames t; refine Moves.cut (t := t) ?_ (fun ht => ?_); (on_goal 2 => (clear_value t; revert t; intro _ _)); (on_goal 1 => (unfold t; clear t)))
    | (extract_lets +onlyGivenNames x; clear_value x; revert x; intro _)
    | with_reducible apply Moves.ite
    | with_reducible exact Moves.refl _ _
    | with_reducible assumption
    | (with_reducible apply Moves.next ?hm (ftIdle_moves ..) ?_; (case hm => decide))
    | (with_reducible apply Moves.next ?hm (applyTable_moves ..) ?_; (case hm => decide))
    | (with_reducible apply Moves.next ?hm (releaseHeld_moves ..) ?_; (case hm => decide))
    | (with_reducible apply Moves.next ?hm (lineReqs_moves ..) ?_; (case hm => decide))
    | (with_reducible apply Moves.next ?hm (ftRefuse_moves ..) ?_; (case hm => decide))
    | split

theorem ftUpdate_moves (s) : Moves 0x20008 s (ftUpdate s) := by
  unfold ftUpdate
  repeat' first
    | (extract_lets +onlyGivenNames x; revert x; intro _)
    | with_reducible apply Moves.ite
    | with_reducible exact Moves.refl _ _
    | (with_reducible apply Moves.next ?hm (setF_moves ..) ?_; (case hm => decide))
    | split
    | refine Moves.upd rfl (fun h => by cases h; constructor <;> first | assumption | (try dsimp only; first | exact mapSet_wf _ _ _ _ (by assumption) | exact mapMod_wf _ _ _ _ (by assumption) | exact mapDrop_wf _ _ _ (by assumption) | exact mapFilter_wf _ _ _ (by assumption) | exact pokeBytes_wf _ _ _ (by assumption) | exact foldl_wf _ _ (fun _ _ h => mapSet_wf _ _ _ _ h) _ (by assumption) | exact foldl_wf _ _ (fun _ _ h => mapMod_wf _ _ _ _ h) _ (by assumption) | exact rfl)) ?_

theorem ftUpdateComplete_moves (s) : Moves 0x800000000170088 s (ftUpdateComplete s) := by
  unfold ftUpdateComplete
  repeat' first
    | (extract_lets +onlyGivenNames t; refine Moves.cut (t := t) ?_ (fun ht => ?_); (on_goal 2 => (clear_value t; revert t; intro _ _)); (on_goal 1 => (unfold t; clear t)))
    | (extract_lets +onlyGivenNames x; clear_value x; revert x; intro _)
    | with_reducible apply Moves.ite
    | with_reducible exact Moves.refl _ _
    | with_reducible assumption
    | (with_reducible apply Moves.next ?hm (setFrame_moves ..) ?_; (case hm => decide))
    | (with_reducible apply Moves.next ?hm (touchFrames_moves ..) ?_; (case hm => decide))
    | (with_reducible apply Moves.next ?hm (ftIdle_moves ..) ?_; (case hm => decide))
    | (with_reducible apply Moves.next ?hm (flushXlat_moves ..) ?_; (case hm => decide))
    | (with_reducible apply Moves.next ?hm (dropWaiting_moves ..) ?_; (case hm => decide))
    | (with_reducible apply Moves.next ?hm (releaseHeld_moves ..) ?_; (case hm => decide))
    | (with_reducible apply Moves.next ?hm (lineReqs_moves ..) ?_; (case hm => decide))
    | (with_reducible apply Moves.next ?hm (ftRefuse_moves ..) ?_; (case hm => decide))
    | split

theorem mcRestore_moves (s vpn) : Moves 0x800000000120008 s (mcRestore s vpn) := by
  unfold mcRestore
  repeat' first
    | (extract_lets +onlyGivenNames t; refine Moves.cut (t := t) ?_ (fun ht => ?_); (on_goal 2 => (clear_value t; revert t; intro _ _)); (on_goal 1 => (unfold t; clear t)))
    | (extract_lets +onlyGivenNames x; clear_value x; revert x; intro _)
    | with_reducible apply Moves.ite
    | with_reducible exact Moves.refl _ _
    | with_reducible assumption
    | (with_reducible apply Moves.next ?hm (addStat_moves ..) ?_; (case hm => decide))
    | (with_reducible apply Moves.next ?hm (setFrame_moves ..) ?_; (case hm => decide))
    | (with_reducible apply Moves.next ?hm (dropWaiting_moves ..) ?_; (case hm => decide))
    | (with_reducible apply Moves.next ?hm (setF_moves ..) ?_; (case hm => decide))
    | (with_reducible apply Moves.next ?hm (releaseHeld_moves ..) ?_; (case hm => decide))
    | split

theorem restoreResend_moves (s pfn) : Moves 0x800000000020008 s (restoreResend s pfn) := by
  unfold restoreResend
  repeat' first
    | (extract_lets +onlyGivenNames x; clear_value x; revert x; intro _)
    | with_reducible apply Moves.ite
    | with_reducible exact Moves.refl _ _
    | (with_reducible apply Moves.next ?hm (setFrame_moves ..) ?_; (case hm => decide))
    | (with_reducible apply Moves.next ?hm (pushEvent_moves ..) ?_; (case hm => decide))

theorem holdReplies_moves (s) : Moves 0x200000000100000 s (holdReplies s) := by
  unfold holdReplies
  repeat' first
    | with_reducible apply Moves.ite
    | with_reducible exact Moves.refl _ _
    | (with_reducible apply Moves.next ?hm (sendPkt_moves ..) ?_; (case hm => decide))
    | (with_reducible apply Moves.next ?hm (setTimer_moves ..) ?_; (case hm => decide))
    | with_reducible apply Moves.foldl _ (fun s x => ?_) _ ?_

theorem holdTimeout_moves (s k) : Moves 0x120000 s (holdTimeout s k) := by
  unfold holdTimeout
  repeat' first
    | (extract_lets +onlyGivenNames x; revert x; intro _)
    | with_reducible apply Moves.ite
    | with_reducible exact Moves.refl _ _
    | (with_reducible apply Moves.next ?hm (sendNack_moves ..) ?_; (case hm => decide))
    | split
    | refine Moves.upd rfl (fun h => by cases h; constructor <;> first | assumption | (try dsimp only; first | exact mapSet_wf _ _ _ _ (by assumption) | exact mapMod_wf _ _ _ _ (by assumption) | exact mapDrop_wf _ _ _ (by assumption) | exact mapFilter_wf _ _ _ (by assumption) | exact pokeBytes_wf _ _ _ (by assumption) | exact foldl_wf _ _ (fun _ _ h => mapSet_wf _ _ _ _ h) _ (by assumption) | exact foldl_wf _ _ (fun _ _ h => mapMod_wf _ _ _ _ h) _ (by assumption) | exact rfl)) ?_

theorem releaseFrame_moves (mark s kv) : Moves 0x20000 s (releaseFrame mark s kv) := by
  unfold releaseFrame
  repeat' first
    | (extract_lets +onlyGivenNames t; refine Moves.cut (t := t) ?_ (fun ht => ?_); (on_goal 2 => (clear_value t; revert t; intro _ _)); (on_goal 1 => (unfold t; clear t)))
    | (extract_lets +onlyGivenNames x; revert x; intro _)
    | with_reducible apply Moves.ite
    | with_reducible exact Moves.refl _ _
    | with_reducible assumption
    | (with_reducible apply Moves.next ?hm (setFrame_moves ..) ?_; (case hm => decide))
    | with_reducible apply Moves.foldl _ (fun s x => ?_) _ ?_
    | split
    | refine Moves.upd rfl (fun h => by cases h; constructor <;> first | assumption | (try dsimp only; first | exact mapSet_wf _ _ _ _ (by assumption) | exact mapMod_wf _ _ _ _ (by assumption) | exact mapDrop_wf _ _ _ (by assumption) | exact mapFilter_wf _ _ _ (by assumption) | exact pokeBytes_wf _ _ _ (by assumption) | exact foldl_wf _ _ (fun _ _ h => mapSet_wf _ _ _ _ h) _ (by assumption) | exact foldl_wf _ _ (fun _ _ h => mapMod_wf _ _ _ _ h) _ (by assumption) | exact rfl)) ?_

theorem releaseDirty_moves (s mark) : Moves 0x20000 s (releaseDirty s mark) := by
  unfold releaseDirty
  repeat' first
    | with_reducible exact Moves.refl _ _
    | (with_reducible apply Moves.next ?hm (releaseFrame_moves ..) ?_; (case hm => decide))
    | with_reducible apply Moves.foldl _ (fun s x => ?_) _ ?_

theorem granuleEnd_moves (s x) : Moves 0x800000000030008 s (granuleEnd s x) := by
  unfold granuleEnd
  repeat' first
    | (extract_lets +onlyGivenNames t; refine Moves.cut (t := t) ?_ (fun ht => ?_); (on_goal 2 => (clear_value t; revert t; intro _ _)); (on_goal 1 => (unfold t; clear t)))
    | (extract_lets +onlyGivenNames x; revert x; intro _)
    | with_reducible exact Moves.refl _ _
    | with_reducible assumption
    | (with_reducible apply Moves.next ?hm (ebOut_moves ..) ?_; (case hm => decide))
    | (with_reducible apply Moves.next ?hm (addStat_moves ..) ?_; (case hm => decide))
    | (with_reducible apply Moves.next ?hm (lineReqs_moves ..) ?_; (case hm => decide))
    | with_reducible apply Moves.foldl _ (fun s x => ?_) _ ?_
    | refine Moves.upd rfl (fun h => by cases h; constructor <;> first | assumption | (try dsimp only; first | exact mapSet_wf _ _ _ _ (by assumption) | exact mapMod_wf _ _ _ _ (by assumption) | exact mapDrop_wf _ _ _ (by assumption) | exact mapFilter_wf _ _ _ (by assumption) | exact pokeBytes_wf _ _ _ (by assumption) | exact foldl_wf _ _ (fun _ _ h => mapSet_wf _ _ _ _ h) _ (by assumption) | exact foldl_wf _ _ (fun _ _ h => mapMod_wf _ _ _ _ h) _ (by assumption) | exact rfl)) ?_

theorem trickleStep_moves (s) : Moves 0x800000000030008 s (trickleStep s) := by
  unfold trickleStep
  repeat' first
    | (extract_lets +onlyGivenNames x; revert x; intro _)
    | with_reducible apply Moves.ite
    | with_reducible exact Moves.refl _ _
    | (with_reducible apply Moves.next ?hm (granuleEnd_moves ..) ?_; (case hm => decide))
    | split
    | refine Moves.upd rfl (fun h => by cases h; constructor <;> first | assumption | (try dsimp only; first | exact mapSet_wf _ _ _ _ (by assumption) | exact mapMod_wf _ _ _ _ (by assumption) | exact mapDrop_wf _ _ _ (by assumption) | exact mapFilter_wf _ _ _ (by assumption) | exact pokeBytes_wf _ _ _ (by assumption) | exact foldl_wf _ _ (fun _ _ h => mapSet_wf _ _ _ _ h) _ (by assumption) | exact foldl_wf _ _ (fun _ _ h => mapMod_wf _ _ _ _ h) _ (by assumption) | exact rfl)) ?_

theorem granuleAck_moves (s vpn gran) : Moves 0x20000 s (granuleAck s vpn gran) := by
  unfold granuleAck
  repeat' first
    | (extract_lets +onlyGivenNames t; refine Moves.cut (t := t) ?_ (fun ht => ?_); (on_goal 2 => (clear_value t; revert t; intro _ _)); (on_goal 1 => (unfold t; clear t)))
    | (extract_lets +onlyGivenNames x; revert x; intro _)
    | with_reducible apply Moves.ite
    | with_reducible exact Moves.refl _ _
    | with_reducible assumption
    | (with_reducible apply Moves.next ?hm (setFrame_moves ..) ?_; (case hm => decide))
    | split
    | refine Moves.upd rfl (fun h => by cases h; constructor <;> first | assumption | (try dsimp only; first | exact mapSet_wf _ _ _ _ (by assumption) | exact mapMod_wf _ _ _ _ (by assumption) | exact mapDrop_wf _ _ _ (by assumption) | exact mapFilter_wf _ _ _ (by assumption) | exact pokeBytes_wf _ _ _ (by assumption) | exact foldl_wf _ _ (fun _ _ h => mapSet_wf _ _ _ _ h) _ (by assumption) | exact foldl_wf _ _ (fun _ _ h => mapMod_wf _ _ _ _ h) _ (by assumption) | exact rfl)) ?_

theorem countPort_moves (s i p) : Moves 0x8 s (countPort s i p) := by
  unfold countPort
  repeat' first
    | with_reducible exact Moves.refl _ _
    | (with_reducible apply Moves.next ?hm (addStat_moves ..) ?_; (case hm => decide))

theorem deliver_moves (s p) : Moves 0x100008 s (deliver s p) := by
  unfold deliver
  repeat' first
    | (extract_lets +onlyGivenNames t; refine Moves.cut (t := t) ?_ (fun ht => ?_); (on_goal 2 => (clear_value t; revert t; intro _ _)); (on_goal 1 => (unfold t; clear t)))
    | (extract_lets +onlyGivenNames x; clear_value x; revert x; intro _)
    | with_reducible apply Moves.ite
    | with_reducible exact Moves.refl _ _
    | with_reducible assumption
    | (with_reducible apply Moves.next ?hm (countPort_moves ..) ?_; (case hm => decide))
    | (with_reducible apply Moves.next ?hm (sendAck_moves ..) ?_; (case hm => decide))
    | (with_reducible apply Moves.next ?hm (sendNack_moves ..) ?_; (case hm => decide))
    | refine Moves.upd rfl (fun h => by cases h; constructor <;> first | assumption | (try dsimp only; first | exact mapSet_wf _ _ _ _ (by assumption) | exact mapMod_wf _ _ _ _ (by assumption) | exact mapDrop_wf _ _ _ (by assumption) | exact mapFilter_wf _ _ _ (by assumption) | exact pokeBytes_wf _ _ _ (by assumption) | exact foldl_wf _ _ (fun _ _ h => mapSet_wf _ _ _ _ h) _ (by assumption) | exact foldl_wf _ _ (fun _ _ h => mapMod_wf _ _ _ _ h) _ (by assumption) | exact rfl)) ?_

theorem hold_moves (s p via slot) : Moves 0x100000 s (hold s p via slot) := by
  unfold hold
  repeat' first
    | (extract_lets +onlyGivenNames x; clear_value x; revert x; intro _)
    | with_reducible exact Moves.refl _ _
    | refine Moves.upd rfl (fun h => by cases h; constructor <;> first | assumption | (try dsimp only; first | exact mapSet_wf _ _ _ _ (by assumption) | exact mapMod_wf _ _ _ _ (by assumption) | exact mapDrop_wf _ _ _ (by assumption) | exact mapFilter_wf _ _ _ (by assumption) | exact pokeBytes_wf _ _ _ (by assumption) | exact foldl_wf _ _ (fun _ _ h => mapSet_wf _ _ _ _ h) _ (by assumption) | exact foldl_wf _ _ (fun _ _ h => mapMod_wf _ _ _ _ h) _ (by assumption) | exact rfl)) ?_

theorem branch_moves (s p sl via) : Moves 0x100008 s (branch s p sl via) := by
  unfold branch
  repeat' first
    | with_reducible apply Moves.ite
    | with_reducible exact Moves.refl _ _
    | (with_reducible apply Moves.next ?hm (addF_moves ..) ?_; (case hm => decide))
    | (with_reducible apply Moves.next ?hm (hold_moves ..) ?_; (case hm => decide))

theorem splitMc_moves (s p via) : Moves 0x100008 s (splitMc s p via) := by
  unfold splitMc
  repeat' first
    | (extract_lets +onlyGivenNames t; refine Moves.cut (t := t) ?_ (fun ht => ?_); (on_goal 2 => (clear_value t; revert t; intro _ _)); (on_goal 1 => (unfold t; clear t)))
    | (extract_lets +onlyGivenNames x; clear_value x; revert x; intro _)
    | with_reducible apply Moves.ite
    | with_reducible exact Moves.refl _ _
    | with_reducible assumption
    | (with_reducible apply Moves.next ?hm (addF_moves ..) ?_; (case hm => decide))
    | (with_reducible apply Moves.next ?hm (branch_moves ..) ?_; (case hm => decide))

theorem lookUp_moves (s p via) : Moves 0xa0000c0009003f8 s (lookUp s p via) := by
  unfold lookUp
  repeat' first
    | with_reducible apply Moves.ite
    | with_reducible exact Moves.refl _ _
    | (with_reducible apply Moves.next ?hm (chipPoison_moves ..) ?_; (case hm => decide))
    | (with_reducible apply Moves.next ?hm (addF_moves ..) ?_; (case hm => decide))
    | (with_reducible apply Moves.next ?hm (hold_moves ..) ?_; (case hm => decide))

theorem routerArrive_moves (s p via lost) : Moves 0xa0000c0009003f8 s (routerArrive s p via lost) := by
  unfold routerArrive
  repeat' first
    | (extract_lets +onlyGivenNames t; refine Moves.cut (t := t) ?_ (fun ht => ?_); (on_goal 2 => (clear_value t; revert t; intro _ _)); (on_goal 1 => (unfold t; clear t)))
    | (extract_lets +onlyGivenNames x; clear_value x; revert x; intro _)
    | with_reducible apply Moves.ite
    | with_reducible exact Moves.refl _ _
    | with_reducible assumption
    | (with_reducible apply Moves.next ?hm (splitMc_moves ..) ?_; (case hm => decide))
    | (with_reducible apply Moves.next ?hm (lookUp_moves ..) ?_; (case hm => decide))
    | (with_reducible apply Moves.next ?hm (addF_moves ..) ?_; (case hm => decide))
    | (with_reducible apply Moves.next ?hm (noteOld_moves ..) ?_; (case hm => decide))
    | (with_reducible apply Moves.next ?hm (deliver_moves ..) ?_; (case hm => decide))
    | refine Moves.upd rfl (fun h => by cases h; constructor <;> first | assumption | (try dsimp only; first | exact mapSet_wf _ _ _ _ (by assumption) | exact mapMod_wf _ _ _ _ (by assumption) | exact mapDrop_wf _ _ _ (by assumption) | exact mapFilter_wf _ _ _ (by assumption) | exact pokeBytes_wf _ _ _ (by assumption) | exact foldl_wf _ _ (fun _ _ h => mapSet_wf _ _ _ _ h) _ (by assumption) | exact foldl_wf _ _ (fun _ _ h => mapMod_wf _ _ _ _ h) _ (by assumption) | exact rfl)) ?_

theorem sendOn_moves (s h f) : Moves 0x80000 s (sendOn s h f) := by
  unfold sendOn
  repeat' first
    | (extract_lets +onlyGivenNames x; clear_value x; revert x; intro _)
    | with_reducible exact Moves.refl _ _
    | (with_reducible apply Moves.next ?hm (setFlue_moves ..) ?_; (case hm => decide))

theorem dropHeld_moves (s k) : Moves 0x100000 s (dropHeld s k) := by
  unfold dropHeld
  repeat' first
    | (extract_lets +onlyGivenNames x; clear_value x; revert x; intro _)
    | with_reducible exact Moves.refl _ _
    | refine Moves.upd rfl (fun h => by cases h; constructor <;> first | assumption | (try dsimp only; first | exact mapSet_wf _ _ _ _ (by assumption) | exact mapMod_wf _ _ _ _ (by assumption) | exact mapDrop_wf _ _ _ (by assumption) | exact mapFilter_wf _ _ _ (by assumption) | exact pokeBytes_wf _ _ _ (by assumption) | exact foldl_wf _ _ (fun _ _ h => mapSet_wf _ _ _ _ h) _ (by assumption) | exact foldl_wf _ _ (fun _ _ h => mapMod_wf _ _ _ _ h) _ (by assumption) | exact rfl)) ?_

theorem routerForward_moves (s k) : Moves 0x180008 s (routerForward s k) := by
  unfold routerForward
  repeat' first
    | (extract_lets +onlyGivenNames x; clear_value x; revert x; intro _)
    | with_reducible apply Moves.ite
    | with_reducible exact Moves.refl _ _
    | (with_reducible apply Moves.next ?hm (dropHeld_moves ..) ?_; (case hm => decide))
    | (with_reducible apply Moves.next ?hm (addF_moves ..) ?_; (case hm => decide))
    | (with_reducible apply Moves.next ?hm (noteOld_moves ..) ?_; (case hm => decide))
    | (with_reducible apply Moves.next ?hm (sendOn_moves ..) ?_; (case hm => decide))
    | split

theorem stallDrop_moves (s k) : Moves 0x180008 s (stallDrop s k) := by
  unfold stallDrop
  repeat' first
    | (extract_lets +onlyGivenNames x; clear_value x; revert x; intro _)
    | with_reducible apply Moves.ite
    | with_reducible exact Moves.refl _ _
    | (with_reducible apply Moves.next ?hm (dropHeld_moves ..) ?_; (case hm => decide))
    | (with_reducible apply Moves.next ?hm (addF_moves ..) ?_; (case hm => decide))
    | (with_reducible apply Moves.next ?hm (setFlue_moves ..) ?_; (case hm => decide))
    | split

theorem catRej_moves (s) : Moves 0x8 s (catRej s) := by
  unfold catRej
  repeat' first
    | with_reducible exact Moves.refl _ _
    | (with_reducible apply Moves.next ?hm (setF_moves ..) ?_; (case hm => decide))

theorem editionArm_moves (s) : Moves 0x8 s (editionArm s) := by
  unfold editionArm
  repeat' first
    | with_reducible apply Moves.ite
    | with_reducible exact Moves.refl _ _
    | (with_reducible apply Moves.next ?hm (setF_moves ..) ?_; (case hm => decide))
    | (with_reducible apply Moves.next ?hm (catRej_moves ..) ?_; (case hm => decide))

theorem editionSwitch_moves (s) : Moves 0x8 s (editionSwitch s) := by
  unfold editionSwitch
  repeat' first
    | with_reducible apply Moves.ite
    | with_reducible exact Moves.refl _ _
    | (with_reducible apply Moves.next ?hm (noteOld_moves ..) ?_; (case hm => decide))
    | (with_reducible apply Moves.next ?hm (setF_moves ..) ?_; (case hm => decide))

theorem editionAtWrite_moves (s v) : Moves 0x8 s (editionAtWrite s v) := by
  unfold editionAtWrite
  repeat' first
    | with_reducible apply Moves.ite
    | with_reducible exact Moves.refl _ _
    | (with_reducible apply Moves.next ?hm (setF_moves ..) ?_; (case hm => decide))
    | (with_reducible apply Moves.next ?hm (catRej_moves ..) ?_; (case hm => decide))

theorem ednCfgWrite_moves (s e v) : Moves 0x8 s (ednCfgWrite s e v) := by
  unfold ednCfgWrite
  repeat' first
    | with_reducible apply Moves.ite
    | with_reducible exact Moves.refl _ _
    | (with_reducible apply Moves.next ?hm (setFi_moves ..) ?_; (case hm => decide))
    | (with_reducible apply Moves.next ?hm (catRej_moves ..) ?_; (case hm => decide))

theorem catalogueWrite_moves (s a bs) : Moves 0x100038 s (catalogueWrite s a bs) := by
  unfold catalogueWrite
  repeat' first
    | (extract_lets +onlyGivenNames t; refine Moves.cut (t := t) ?_ (fun ht => ?_); (on_goal 2 => (clear_value t; revert t; intro _ _)); (on_goal 1 => (unfold t; clear t)))
    | (extract_lets +onlyGivenNames x; clear_value x; revert x; intro _)
    | with_reducible apply Moves.ite
    | with_reducible exact Moves.refl _ _
    | with_reducible assumption
    | (with_reducible apply Moves.next ?hm (writeBytes_moves ..) ?_; (case hm => decide))
    | (with_reducible apply Moves.next ?hm (catRej_moves ..) ?_; (case hm => decide))
    | split
    | refine Moves.upd rfl (fun h => by cases h; constructor <;> first | assumption | (try dsimp only; first | exact mapSet_wf _ _ _ _ (by assumption) | exact mapMod_wf _ _ _ _ (by assumption) | exact mapDrop_wf _ _ _ (by assumption) | exact mapFilter_wf _ _ _ (by assumption) | exact pokeBytes_wf _ _ _ (by assumption) | exact foldl_wf _ _ (fun _ _ h => mapSet_wf _ _ _ _ h) _ (by assumption) | exact foldl_wf _ _ (fun _ _ h => mapMod_wf _ _ _ _ h) _ (by assumption) | exact rfl)) ?_

theorem nodeWrite_moves (s v) : Moves 0x8 s (nodeWrite s v) := by
  unfold nodeWrite
  repeat' first
    | with_reducible apply Moves.ite
    | with_reducible exact Moves.refl _ _
    | (with_reducible apply Moves.next ?hm (setF_moves ..) ?_; (case hm => decide))
    | (with_reducible apply Moves.next ?hm (catRej_moves ..) ?_; (case hm => decide))

theorem tearDigest_moves (s p a n) : Moves 0x4000008 s (tearDigest s p a n) := by
  unfold tearDigest
  repeat' first
    | (extract_lets +onlyGivenNames t; refine Moves.cut (t := t) ?_ (fun ht => ?_); (on_goal 2 => (clear_value t; revert t; intro _ _)); (on_goal 1 => (unfold t; clear t)))
    | (extract_lets +onlyGivenNames x; clear_value x; revert x; intro _)
    | with_reducible apply Moves.ite
    | with_reducible exact Moves.refl _ _
    | with_reducible assumption
    | (with_reducible apply Moves.next ?hm (setF_moves ..) ?_; (case hm => decide))
    | refine Moves.upd rfl (fun h => by cases h; constructor <;> first | assumption | (try dsimp only; first | exact mapSet_wf _ _ _ _ (by assumption) | exact mapMod_wf _ _ _ _ (by assumption) | exact mapDrop_wf _ _ _ (by assumption) | exact mapFilter_wf _ _ _ (by assumption) | exact pokeBytes_wf _ _ _ (by assumption) | exact foldl_wf _ _ (fun _ _ h => mapSet_wf _ _ _ _ h) _ (by assumption) | exact foldl_wf _ _ (fun _ _ h => mapMod_wf _ _ _ _ h) _ (by assumption) | exact rfl)) ?_

theorem cvShadow_moves (s p u a n) : Moves 0x80 s (cvShadow s p u a n) := by
  unfold cvShadow
  repeat' first
    | (extract_lets +onlyGivenNames x; clear_value x; revert x; intro _)
    | with_reducible apply Moves.ite
    | with_reducible exact Moves.refl _ _
    | (with_reducible apply Moves.next ?hm (modTile_moves ..) ?_; (case hm => decide))

theorem tileWrite_moves (s p a bs) : Moves 0x40000b8 s (tileWrite s p a bs) := by
  unfold tileWrite
  repeat' first
    | with_reducible exact Moves.refl _ _
    | (with_reducible apply Moves.next ?hm (cvShadow_moves ..) ?_; (case hm => decide))
    | (with_reducible apply Moves.next ?hm (tearDigest_moves ..) ?_; (case hm => decide))
    | (with_reducible apply Moves.next ?hm (writeBytes_moves ..) ?_; (case hm => decide))

theorem bufErr_moves (s p e) : Moves 0xa084000000000b8 s (bufErr s p e) := by
  unfold bufErr
  repeat' first
    | with_reducible apply Moves.ite
    | with_reducible exact Moves.refl _ _
    | (with_reducible apply Moves.next ?hm (accessWord_moves ..) ?_; (case hm => decide))
    | (with_reducible apply Moves.next ?hm (addF_moves ..) ?_; (case hm => decide))

theorem tileSweep_moves (s p bank line errs) : Moves 0xa184000000000b8 s (tileSweep s p bank line errs) := by
  unfold tileSweep
  repeat' first
    | (extract_lets +onlyGivenNames x; clear_value x; revert x; intro _)
    | with_reducible apply Moves.ite
    | with_reducible exact Moves.refl _ _
    | (with_reducible apply Moves.next ?hm (bufErr_moves ..) ?_; (case hm => decide))
    | (with_reducible apply Moves.next ?hm (sweepWord_moves ..) ?_; (case hm => decide))
    | (with_reducible apply Moves.next ?hm (addF_moves ..) ?_; (case hm => decide))
    | with_reducible apply Moves.foldl _ (fun s x => ?_) _ ?_

theorem modDm_moves (s p f) : Moves 0x80 s (modDm s p f) := by
  unfold modDm
  repeat' first
    | with_reducible exact Moves.refl _ _
    | (with_reducible apply Moves.next ?hm (modTile_moves ..) ?_; (case hm => decide))

theorem joinDescs_moves (s p d) : Moves 0x80 s (joinDescs s p d) := by
  unfold joinDescs
  repeat' first
    | (extract_lets +onlyGivenNames x; clear_value x; revert x; intro _)
    | with_reducible exact Moves.refl _ _
    | (with_reducible apply Moves.next ?hm (modDm_moves ..) ?_; (case hm => decide))

theorem dmProg_moves (s p next tid tag) : Moves 0x8 s (dmProg s p next tid tag) := by
  unfold dmProg
  repeat' first
    | (extract_lets +onlyGivenNames t; refine Moves.cut (t := t) ?_ (fun ht => ?_); (on_goal 2 => (clear_value t; revert t; intro _ _)); (on_goal 1 => (unfold t; clear t)))
    | with_reducible exact Moves.refl _ _
    | with_reducible assumption
    | (with_reducible apply Moves.next ?hm (setF_moves ..) ?_; (case hm => decide))

theorem startDesc_moves (s p q d shape) : Moves 0x8000000009003f8 s (startDesc s p q d shape) := by
  unfold startDesc
  repeat' first
    | (extract_lets +onlyGivenNames x; clear_value x; revert x; intro _)
    | with_reducible apply Moves.ite
    | with_reducible exact Moves.refl _ _
    | (with_reducible apply Moves.next ?hm (popFront_moves ..) ?_; (case hm => decide))
    | (with_reducible apply Moves.next ?hm (dmProg_moves ..) ?_; (case hm => decide))
    | (with_reducible apply Moves.next ?hm (faultQ_moves ..) ?_; (case hm => decide))
    | (with_reducible apply Moves.next ?hm (traceEv_moves ..) ?_; (case hm => decide))
    | (with_reducible apply Moves.next ?hm (joinDescs_moves ..) ?_; (case hm => decide))
    | split

theorem runDm_moves (s p op bad mk) : Moves 0x8000000009003f8 s (runDm s p op bad mk) := by
  unfold runDm
  repeat' first
    | (extract_lets +onlyGivenNames x; clear_value x; revert x; intro _)
    | with_reducible apply Moves.ite
    | with_reducible exact Moves.refl _ _
    | (with_reducible apply Moves.next ?hm (takeW_moves ..) ?_; (case hm => decide))
    | (with_reducible apply Moves.next ?hm (startDesc_moves ..) ?_; (case hm => decide))
    | (with_reducible apply Moves.next ?hm (faultQ_moves ..) ?_; (case hm => decide))
    | split
    | (with_reducible apply Moves.fst_of ?he ?_; (case he => with_reducible assumption))

theorem doDmCopy_moves (s p) : Moves 0x8000000009003f8 s (doDmCopy s p) := by
  unfold doDmCopy
  repeat' first
    | with_reducible exact Moves.refl _ _
    | (with_reducible apply Moves.next ?hm (runDm_moves ..) ?_; (case hm => decide))

theorem doDmFill_moves (s p) : Moves 0x8000000009003f8 s (doDmFill s p) := by
  unfold doDmFill
  repeat' first
    | with_reducible exact Moves.refl _ _
    | (with_reducible apply Moves.next ?hm (runDm_moves ..) ?_; (case hm => decide))

theorem doDmWarm_moves (s p) : Moves 0x8000000009003f8 s (doDmWarm s p) := by
  unfold doDmWarm
  repeat' first
    | with_reducible exact Moves.refl _ _
    | (with_reducible apply Moves.next ?hm (runDm_moves ..) ?_; (case hm => decide))

theorem doDmGather_moves (s p) : Moves 0x8000000009003f8 s (doDmGather s p) := by
  unfold doDmGather
  repeat' first
    | with_reducible exact Moves.refl _ _
    | (with_reducible apply Moves.next ?hm (runDm_moves ..) ?_; (case hm => decide))

theorem doDmAtomadd_moves (s p) : Moves 0x8000000009003f8 s (doDmAtomadd s p) := by
  unfold doDmAtomadd
  repeat' first
    | with_reducible exact Moves.refl _ _
    | (with_reducible apply Moves.next ?hm (runDm_moves ..) ?_; (case hm => decide))

theorem faultDesc_moves (s p d code addr space detail) : Moves 0x8000000009003f8 s (faultDesc s p d code addr space detail) := by
  unfold faultDesc
  repeat' first
    | with_reducible exact Moves.refl _ _
    | (with_reducible apply Moves.next ?hm (dmProg_moves ..) ?_; (case hm => decide))
    | (with_reducible apply Moves.next ?hm (faultEngine_moves ..) ?_; (case hm => decide))

theorem faultPiece_moves (s p tid code addr space detail) : Moves 0x8000000009003f8 s (faultPiece s p tid code addr space detail) := by
  unfold faultPiece
  repeat' first
    | with_reducible exact Moves.refl _ _
    | (with_reducible apply Moves.next ?hm (faultDesc_moves ..) ?_; (case hm => decide))
    | split

theorem setDesc_moves (s p d) : Moves 0x80 s (setDesc s p d) := by
  unfold setDesc
  repeat' first
    | with_reducible exact Moves.refl _ _
    | (with_reducible apply Moves.next ?hm (modDm_moves ..) ?_; (case hm => decide))

theorem orphanLines_moves (s gone) : Moves 0x10000 s (orphanLines s gone) := by
  unfold orphanLines
  repeat' first
    | with_reducible exact Moves.refl _ _
    | refine Moves.upd rfl (fun h => by cases h; constructor <;> first | assumption | (try dsimp only; first | exact mapSet_wf _ _ _ _ (by assumption) | exact mapMod_wf _ _ _ _ (by assumption) | exact mapDrop_wf _ _ _ (by assumption) | exact mapFilter_wf _ _ _ (by assumption) | exact pokeBytes_wf _ _ _ (by assumption) | exact foldl_wf _ _ (fun _ _ h => mapSet_wf _ _ _ _ h) _ (by assumption) | exact foldl_wf _ _ (fun _ _ h => mapMod_wf _ _ _ _ h) _ (by assumption) | exact rfl)) ?_

theorem dropPiece_moves (s p x) : Moves 0x10080 s (dropPiece s p x) := by
  unfold dropPiece
  repeat' first
    | with_reducible exact Moves.refl _ _
    | (with_reducible apply Moves.next ?hm (modDm_moves ..) ?_; (case hm => decide))
    | (with_reducible apply Moves.next ?hm (orphanLines_moves ..) ?_; (case hm => decide))

theorem putPiece_moves (s p x) : Moves 0x80 s (putPiece s p x) := by
  unfold putPiece
  repeat' first
    | with_reducible exact Moves.refl _ _
    | (with_reducible apply Moves.next ?hm (modDm_moves ..) ?_; (case hm => decide))

theorem noteRead_moves (s p tid) : Moves 0x80 s (noteRead s p tid) := by
  unfold noteRead
  repeat' first
    | with_reducible apply Moves.ite
    | with_reducible exact Moves.refl _ _
    | (with_reducible apply Moves.next ?hm (setDesc_moves ..) ?_; (case hm => decide))
    | (with_reducible apply Moves.next ?hm (signalUnit_moves ..) ?_; (case hm => decide))
    | split

theorem finishPiece_moves (s p x) : Moves 0x10088 s (finishPiece s p x) := by
  unfold finishPiece
  repeat' first
    | (extract_lets +onlyGivenNames t; refine Moves.cut (t := t) ?_ (fun ht => ?_); (on_goal 2 => (clear_value t; revert t; intro _ _)); (on_goal 1 => (unfold t; clear t)))
    | (extract_lets +onlyGivenNames x; clear_value x; revert x; intro _)
    | with_reducible apply Moves.ite
    | with_reducible exact Moves.refl _ _
    | with_reducible assumption
    | (with_reducible apply Moves.next ?hm (dropPiece_moves ..) ?_; (case hm => decide))
    | (with_reducible apply Moves.next ?hm (addStat_moves ..) ?_; (case hm => decide))
    | (with_reducible apply Moves.next ?hm (setDesc_moves ..) ?_; (case hm => decide))
    | (with_reducible apply Moves.next ?hm (modDm_moves ..) ?_; (case hm => decide))
    | (with_reducible apply Moves.next ?hm (signalUnit_moves ..) ?_; (case hm => decide))
    | (with_reducible apply Moves.next ?hm (completeDone_moves ..) ?_; (case hm => decide))
    | split

theorem landing_moves (s x bs) : Moves 0x4 s (landing s x bs).2 := by
  unfold landing
  repeat' first
    | with_reducible exact Moves.refl _ _
    | (with_reducible apply Moves.next ?hm (freshBytes_moves ..) ?_; (case hm => decide))
    | split

theorem askLines_moves (s p x segs wr hint) : Moves 0x10080 s (askLines s p x segs wr hint) := by
  unfold askLines
  repeat' first
    | with_reducible exact Moves.refl _ _
    | (with_reducible apply Moves.next ?hm (lineReqsFor_moves ..) ?_; (case hm => decide))
    | (with_reducible apply Moves.next ?hm (putPiece_moves ..) ?_; (case hm => decide))
    | with_reducible apply Moves.foldl _ (fun s x => ?_) _ ?_

theorem pieceToDest_moves (s p x data) : Moves 0x110084 s (pieceToDest s p x data) := by
  unfold pieceToDest
  repeat' first
    | (extract_lets +onlyGivenNames x; clear_value x; revert x; intro _)
    | with_reducible exact Moves.refl _ _
    | (with_reducible apply Moves.next ?hm (sendPkt_moves ..) ?_; (case hm => decide))
    | (with_reducible apply Moves.next ?hm (askLines_moves ..) ?_; (case hm => decide))
    | (with_reducible apply Moves.next ?hm (landing_moves ..) ?_; (case hm => decide))
    | (with_reducible apply Moves.next ?hm (putPiece_moves ..) ?_; (case hm => decide))
    | split

theorem stallDesc_moves (s p d vpn) : Moves 0x80 s (stallDesc s p d vpn) := by
  unfold stallDesc
  repeat' first
    | with_reducible exact Moves.refl _ _
    | (with_reducible apply Moves.next ?hm (setDesc_moves ..) ?_; (case hm => decide))

theorem issueShape_moves (s p d) : Moves 0x8000000009303fc s (issueShape s p d) := by
  unfold issueShape
  repeat' first
    | (extract_lets +onlyGivenNames t; refine Moves.cut (t := t) ?_ (fun ht => ?_); (on_goal 2 => (clear_value t; revert t; intro _ _)); (on_goal 1 => (unfold t; clear t)))
    | (extract_lets +onlyGivenNames x; clear_value x; revert x; intro _)
    | with_reducible apply Moves.ite
    | with_reducible exact Moves.refl _ _
    | with_reducible assumption
    | (with_reducible apply Moves.next ?hm (sendPkt_moves ..) ?_; (case hm => decide))
    | (with_reducible apply Moves.next ?hm (faultDesc_moves ..) ?_; (case hm => decide))
    | (with_reducible apply Moves.next ?hm (setDesc_moves ..) ?_; (case hm => decide))
    | (with_reducible apply Moves.next ?hm (stallDesc_moves ..) ?_; (case hm => decide))
    | (with_reducible apply Moves.next ?hm (noteRead_moves ..) ?_; (case hm => decide))
    | (with_reducible apply Moves.next ?hm (askLines_moves ..) ?_; (case hm => decide))
    | (with_reducible apply Moves.next ?hm (pieceToDest_moves ..) ?_; (case hm => decide))
    | (with_reducible apply Moves.next ?hm (jobCheck_moves ..) ?_; (case hm => decide))
    | (with_reducible apply Moves.next ?hm (putPiece_moves ..) ?_; (case hm => decide))
    | split
    | (with_reducible apply Moves.fst_of ?he ?_; (case he => with_reducible assumption))

theorem issueNarrow_moves (s p d) : Moves 0x8000000009303fc s (issueNarrow s p d) := by
  unfold issueNarrow
  repeat' first
    | (extract_lets +onlyGivenNames t; refine Moves.cut (t := t) ?_ (fun ht => ?_); (on_goal 2 => (clear_value t; revert t; intro _ _)); (on_goal 1 => (unfold t; clear t)))
    | (extract_lets +onlyGivenNames x; clear_value x; revert x; intro _)
    | with_reducible apply Moves.ite
    | with_reducible exact Moves.refl _ _
    | with_reducible assumption
    | (with_reducible apply Moves.next ?hm (sendPkt_moves ..) ?_; (case hm => decide))
    | (with_reducible apply Moves.next ?hm (faultDesc_moves ..) ?_; (case hm => decide))
    | (with_reducible apply Moves.next ?hm (setDesc_moves ..) ?_; (case hm => decide))
    | (with_reducible apply Moves.next ?hm (stallDesc_moves ..) ?_; (case hm => decide))
    | (with_reducible apply Moves.next ?hm (jobCheck_moves ..) ?_; (case hm => decide))
    | (with_reducible apply Moves.next ?hm (landing_moves ..) ?_; (case hm => decide))
    | (with_reducible apply Moves.next ?hm (putPiece_moves ..) ?_; (case hm => decide))
    | split
    | (with_reducible apply Moves.fst_of ?he ?_; (case he => with_reducible assumption))

theorem issuePiece_moves (s p tid) : Moves 0x8000000009303fc s (issuePiece s p tid) := by
  unfold issuePiece
  repeat' first
    | with_reducible apply Moves.ite
    | with_reducible exact Moves.refl _ _
    | (with_reducible apply Moves.next ?hm (issueShape_moves ..) ?_; (case hm => decide))
    | (with_reducible apply Moves.next ?hm (issueNarrow_moves ..) ?_; (case hm => decide))
    | split

theorem pieceLine_moves (s p x line) : Moves 0x1300bc s (pieceLine s p x line) := by
  unfold pieceLine
  repeat' first
    | (extract_lets +onlyGivenNames x; clear_value x; revert x; intro _)
    | with_reducible exact Moves.refl _ _
    | (with_reducible apply Moves.next ?hm (staleWrite_moves ?he) ?_; (case he => with_reducible assumption); (case hm => decide))
    | (with_reducible apply Moves.next ?hm (landWrite_moves ..) ?_; (case hm => decide))
    | (with_reducible apply Moves.next ?hm (landing_moves ..) ?_; (case hm => decide))
    | (with_reducible apply Moves.next ?hm (putPiece_moves ..) ?_; (case hm => decide))
    | with_reducible apply Moves.foldl _ (fun s x => ?_) _ ?_
    | split

theorem serveLine_moves (s q errs odecc) : Moves 0xa084000001380bc s (serveLine s q errs odecc) := by
  unfold serveLine
  repeat' first
    | (extract_lets +onlyGivenNames t; refine Moves.cut (t := t) ?_ (fun ht => ?_); (on_goal 2 => (clear_value t; revert t; intro _ _)); (on_goal 1 => (unfold t; clear t)))
    | (extract_lets +onlyGivenNames x; clear_value x; revert x; intro _)
    | with_reducible apply Moves.ite
    | with_reducible exact Moves.refl _ _
    | with_reducible assumption
    | (with_reducible apply Moves.next ?hm (lineAccess_moves ..) ?_; (case hm => decide))
    | (with_reducible apply Moves.next ?hm (accessErr_moves ..) ?_; (case hm => decide))
    | (with_reducible apply Moves.next ?hm (pieceLine_moves ..) ?_; (case hm => decide))
    | (with_reducible apply Moves.next ?hm (odeccReports_moves ..) ?_; (case hm => decide))
    | with_reducible apply Moves.foldl _ (fun s x => ?_) _ ?_
    | split
    | (with_reducible apply Moves.fst_of ?he ?_; (case he => with_reducible assumption))
    | refine Moves.upd rfl (fun h => by cases h; constructor <;> first | assumption | (try dsimp only; first | exact mapSet_wf _ _ _ _ (by assumption) | exact mapMod_wf _ _ _ _ (by assumption) | exact mapDrop_wf _ _ _ (by assumption) | exact mapFilter_wf _ _ _ (by assumption) | exact pokeBytes_wf _ _ _ (by assumption) | exact foldl_wf _ _ (fun _ _ h => mapSet_wf _ _ _ _ h) _ (by assumption) | exact foldl_wf _ _ (fun _ _ h => mapMod_wf _ _ _ _ h) _ (by assumption) | exact rfl)) ?_

theorem hcAccess_moves (s addr wr hint errs odecc owned) : Moves 0xa0840c0009383fc s (hcAccess s addr wr hint errs odecc owned) := by
  unfold hcAccess
  repeat' first
    | (extract_lets +onlyGivenNames t; refine Moves.cut (t := t) ?_ (fun ht => ?_); (on_goal 2 => (clear_value t; revert t; intro _ _)); (on_goal 1 => (unfold t; clear t)))
    | (extract_lets +onlyGivenNames x; clear_value x; revert x; intro _)
    | with_reducible apply Moves.ite
    | with_reducible exact Moves.refl _ _
    | with_reducible assumption
    | (with_reducible apply Moves.next ?hm (catalogueErr_moves ..) ?_; (case hm => decide))
    | (with_reducible apply Moves.next ?hm (accessErr_moves ..) ?_; (case hm => decide))
    | (with_reducible apply Moves.next ?hm (serveLine_moves ..) ?_; (case hm => decide))
    | (with_reducible apply Moves.next ?hm (ownedErr_moves ..) ?_; (case hm => decide))
    | with_reducible apply Moves.foldl _ (fun s x => ?_) _ ?_
    | split

theorem completePiece_moves (s p tid pseq) : Moves 0x8000000049383fc s (completePiece s p tid pseq) := by
  unfold completePiece
  repeat' first
    | with_reducible apply Moves.ite
    | with_reducible exact Moves.refl _ _
    | (with_reducible apply Moves.next ?hm (staleWrite_moves ?he) ?_; (case he => with_reducible assumption); (case hm => decide))
    | (with_reducible apply Moves.next ?hm (finishPiece_moves ..) ?_; (case hm => decide))
    | (with_reducible apply Moves.next ?hm (dropPiece_moves ..) ?_; (case hm => decide))
    | (with_reducible apply Moves.next ?hm (faultPiece_moves ..) ?_; (case hm => decide))
    | (with_reducible apply Moves.next ?hm (landAtomic_moves ..) ?_; (case hm => decide))
    | (with_reducible apply Moves.next ?hm (tileWrite_moves ..) ?_; (case hm => decide))
    | (with_reducible apply Moves.next ?hm (narrowRead_moves ..) ?_; (case hm => decide))
    | (with_reducible apply Moves.next ?hm (noteRead_moves ..) ?_; (case hm => decide))
    | (with_reducible apply Moves.next ?hm (pieceToDest_moves ..) ?_; (case hm => decide))
    | (with_reducible apply Moves.next ?hm (landing_moves ..) ?_; (case hm => decide))
    | split

theorem resumeDesc_moves (s p tid) : Moves 0x80 s (resumeDesc s p tid) := by
  unfold resumeDesc
  repeat' first
    | with_reducible apply Moves.ite
    | with_reducible exact Moves.refl _ _
    | (with_reducible apply Moves.next ?hm (setDesc_moves ..) ?_; (case hm => decide))
    | split

theorem raTouch_moves (p hint acc part) : Moves 0x800000000030088 acc.1 (raTouch p hint acc part).1 := by
  unfold raTouch
  repeat' first
    | (extract_lets +onlyGivenNames t; refine Moves.cut (t := t) ?_ (fun ht => ?_); (on_goal 2 => (clear_value t; revert t; intro _ _)); (on_goal 1 => (unfold t; clear t)))
    | with_reducible apply Moves.ite_fst
    | with_reducible exact Moves.refl _ _
    | with_reducible assumption
    | (with_reducible apply Moves.next ?hm (addStat_moves ..) ?_; (case hm => decide))
    | (with_reducible apply Moves.next ?hm (segLines_moves ..) ?_; (case hm => decide))
    | (with_reducible apply Moves.next ?hm (jobCheck_moves ..) ?_; (case hm => decide))
    | split
    | (with_reducible apply Moves.fst_of ?he ?_; (case he => with_reducible assumption))

theorem readAhead_moves (s p k) : Moves 0x8000000000300c8 s (readAhead s p k) := by
  unfold readAhead
  repeat' first
    | (extract_lets +onlyGivenNames t; refine Moves.cut (t := t) ?_ (fun ht => ?_); (on_goal 2 => (clear_value t; revert t; intro _ _)); (on_goal 1 => (unfold t; clear t)))
    | with_reducible apply Moves.ite
    | with_reducible exact Moves.refl _ _
    | with_reducible assumption
    | (with_reducible apply Moves.next ?hm (modEng_moves ..) ?_; (case hm => decide))
    | (with_reducible apply Moves.next ?hm (raTouch_moves ..) ?_; (case hm => decide))
    | with_reducible apply Moves.foldl_fst _ (fun s x => ?_) _ ?_
    | split

theorem stallTimeout_moves (s p tid) : Moves 0x8000000009003f8 s (stallTimeout s p tid) := by
  unfold stallTimeout
  repeat' first
    | with_reducible apply Moves.ite
    | with_reducible exact Moves.refl _ _
    | (with_reducible apply Moves.next ?hm (faultDesc_moves ..) ?_; (case hm => decide))
    | split

theorem requestTimeout_moves (s p tid pseq) : Moves 0x8000000009103f8 s (requestTimeout s p tid pseq) := by
  unfold requestTimeout
  repeat' first
    | (extract_lets +onlyGivenNames x; clear_value x; revert x; intro _)
    | with_reducible apply Moves.ite
    | with_reducible exact Moves.refl _ _
    | (with_reducible apply Moves.next ?hm (dropPiece_moves ..) ?_; (case hm => decide))
    | (with_reducible apply Moves.next ?hm (faultPiece_moves ..) ?_; (case hm => decide))
    | split

theorem descTimeout_moves (s p tid) : Moves 0x8000000009003f8 s (descTimeout s p tid) := by
  unfold descTimeout
  repeat' first
    | (extract_lets +onlyGivenNames x; clear_value x; revert x; intro _)
    | with_reducible apply Moves.ite
    | with_reducible exact Moves.refl _ _
    | (with_reducible apply Moves.next ?hm (faultDesc_moves ..) ?_; (case hm => decide))
    | split

theorem resend_moves (s p x) : Moves 0x100080 s (resend s p x) := by
  unfold resend
  repeat' first
    | (extract_lets +onlyGivenNames x; clear_value x; revert x; intro _)
    | with_reducible exact Moves.refl _ _
    | (with_reducible apply Moves.next ?hm (sendPkt_moves ..) ?_; (case hm => decide))
    | (with_reducible apply Moves.next ?hm (putPiece_moves ..) ?_; (case hm => decide))
    | split

theorem xferRetry_moves (s p tid pseq) : Moves 0x100088 s (xferRetry s p tid pseq) := by
  unfold xferRetry
  repeat' first
    | with_reducible apply Moves.ite
    | with_reducible exact Moves.refl _ _
    | (with_reducible apply Moves.next ?hm (resend_moves ..) ?_; (case hm => decide))
    | (with_reducible apply Moves.next ?hm (addF_moves ..) ?_; (case hm => decide))
    | split

theorem reissue_moves (s p x) : Moves 0x8000000009303fc s (reissue s p x) := by
  unfold reissue
  repeat' first
    | (extract_lets +onlyGivenNames t; refine Moves.cut (t := t) ?_ (fun ht => ?_); (on_goal 2 => (clear_value t; revert t; intro _ _)); (on_goal 1 => (unfold t; clear t)))
    | (extract_lets +onlyGivenNames x; clear_value x; revert x; intro _)
    | with_reducible apply Moves.ite
    | with_reducible exact Moves.refl _ _
    | with_reducible assumption
    | (with_reducible apply Moves.next ?hm (dropPiece_moves ..) ?_; (case hm => decide))
    | (with_reducible apply Moves.next ?hm (setDesc_moves ..) ?_; (case hm => decide))
    | (with_reducible apply Moves.next ?hm (modDm_moves ..) ?_; (case hm => decide))
    | (with_reducible apply Moves.next ?hm (issueShape_moves ..) ?_; (case hm => decide))
    | (with_reducible apply Moves.next ?hm (putPiece_moves ..) ?_; (case hm => decide))
    | (with_reducible apply Moves.next ?hm (issueNarrow_moves ..) ?_; (case hm => decide))
    | split

theorem heldResend_moves (s p tid pseq) : Moves 0x8000000009303fc s (heldResend s p tid pseq) := by
  unfold heldResend
  repeat' first
    | (extract_lets +onlyGivenNames x; clear_value x; revert x; intro _)
    | with_reducible apply Moves.ite
    | with_reducible exact Moves.refl _ _
    | (with_reducible apply Moves.next ?hm (reissue_moves ..) ?_; (case hm => decide))
    | (with_reducible apply Moves.next ?hm (resend_moves ..) ?_; (case hm => decide))
    | split

theorem dmAcked_moves (s p tid pseq) : Moves 0x10088 s (dmAcked s p tid pseq) := by
  unfold dmAcked
  repeat' first
    | with_reducible apply Moves.ite
    | with_reducible exact Moves.refl _ _
    | (with_reducible apply Moves.next ?hm (finishPiece_moves ..) ?_; (case hm => decide))
    | split

theorem dmData_moves (s p tid pseq bs) : Moves 0x110084 s (dmData s p tid pseq bs) := by
  unfold dmData
  repeat' first
    | with_reducible apply Moves.ite
    | with_reducible exact Moves.refl _ _
    | (with_reducible apply Moves.next ?hm (noteRead_moves ..) ?_; (case hm => decide))
    | (with_reducible apply Moves.next ?hm (pieceToDest_moves ..) ?_; (case hm => decide))
    | split

theorem dmNacked_moves (s p tid pseq code) : Moves 0x8000000009103f8 s (dmNacked s p tid pseq code) := by
  unfold dmNacked
  repeat' first
    | with_reducible apply Moves.ite
    | with_reducible exact Moves.refl _ _
    | (with_reducible apply Moves.next ?hm (dropPiece_moves ..) ?_; (case hm => decide))
    | (with_reducible apply Moves.next ?hm (faultPiece_moves ..) ?_; (case hm => decide))
    | (with_reducible apply Moves.next ?hm (putPiece_moves ..) ?_; (case hm => decide))
    | split

theorem dmHeld_moves (s p tid pseq) : Moves 0x80 s (dmHeld s p tid pseq) := by
  unfold dmHeld
  repeat' first
    | (extract_lets +onlyGivenNames t; refine Moves.cut (t := t) ?_ (fun ht => ?_); (on_goal 2 => (clear_value t; revert t; intro _ _)); (on_goal 1 => (unfold t; clear t)))
    | with_reducible exact Moves.refl _ _
    | with_reducible assumption
    | (with_reducible apply Moves.next ?hm (modDm_moves ..) ?_; (case hm => decide))
    | (with_reducible apply Moves.next ?hm (putPiece_moves ..) ?_; (case hm => decide))
    | split

theorem countStale_moves (s d) : Moves 0x8 s (countStale s d) := by
  unfold countStale
  repeat' first
    | with_reducible exact Moves.refl _ _
    | (with_reducible apply Moves.next ?hm (setFi_moves ..) ?_; (case hm => decide))

theorem atEndpoint_moves {m : Nat} {k} (hm : 0x100008 ||| m = m) (hf : ∀ s, Moves m s (k s)) (s p typ) :
    Moves m s (atEndpoint s p typ k) := by
  unfold atEndpoint
  repeat' first
    | (extract_lets +onlyGivenNames t; refine Moves.cut (t := t) ?_ (fun ht => ?_); (on_goal 2 => (clear_value t; revert t; intro _ _)); (on_goal 1 => (unfold t; clear t)))
    | with_reducible apply Moves.ite
    | with_reducible exact Moves.refl _ _
    | with_reducible assumption
    | with_reducible apply Moves.trans (hf ..) ?_
    | (with_reducible apply Moves.next ?hm (takeArrived_moves ..) ?_; (case hm => exact le_of hm (by decide)))
    | (with_reducible apply Moves.next ?hm (addF_moves ..) ?_; (case hm => exact le_of hm (by decide)))

theorem waitArrived_moves (s pkt) : Moves 0x100000 s (waitArrived s pkt) := by
  unfold waitArrived
  repeat' first
    | (extract_lets +onlyGivenNames x; clear_value x; revert x; intro _)
    | with_reducible exact Moves.refl _ _
    | refine Moves.upd rfl (fun h => by cases h; constructor <;> first | assumption | (try dsimp only; first | exact mapSet_wf _ _ _ _ (by assumption) | exact mapMod_wf _ _ _ _ (by assumption) | exact mapDrop_wf _ _ _ (by assumption) | exact mapFilter_wf _ _ _ (by assumption) | exact pokeBytes_wf _ _ _ (by assumption) | exact foldl_wf _ _ (fun _ _ h => mapSet_wf _ _ _ _ h) _ (by assumption) | exact foldl_wf _ _ (fun _ _ h => mapMod_wf _ _ _ _ h) _ (by assumption) | exact rfl)) ?_

theorem atTile_moves {m : Nat} {k} (hm : 0x100080 ||| m = m) (hf : ∀ n s, Moves m s (k n s)) (s pkt) :
    Moves m s (atTile s pkt k) := by
  unfold atTile
  repeat' first
    | with_reducible apply Moves.ite
    | with_reducible exact Moves.refl _ _
    | with_reducible apply Moves.trans (hf ..) ?_
    | (with_reducible apply Moves.next ?hm (waitArrived_moves ..) ?_; (case hm => exact le_of hm (by decide)))
    | (with_reducible apply Moves.next ?hm (sendNack_moves ..) ?_; (case hm => exact le_of hm (by decide)))
    | (with_reducible apply Moves.next ?hm (modTile_moves ..) ?_; (case hm => exact le_of hm (by decide)))
    | split

theorem xferLand_moves (s p pkt) : Moves 0x80 s (xferLand s p pkt) := by
  unfold xferLand
  repeat' first
    | (extract_lets +onlyGivenNames x; clear_value x; revert x; intro _)
    | with_reducible apply Moves.ite
    | with_reducible exact Moves.refl _ _
    | (with_reducible apply Moves.next ?hm (signalUnit_moves ..) ?_; (case hm => decide))
    | (with_reducible apply Moves.next ?hm (modTile_moves ..) ?_; (case hm => decide))

theorem tileWritePkt_moves (s p pkt) : Moves 0x41000b8 s (tileWritePkt s p pkt) := by
  unfold tileWritePkt
  repeat' first
    | (extract_lets +onlyGivenNames t; refine Moves.cut (t := t) ?_ (fun ht => ?_); (on_goal 2 => (clear_value t; revert t; intro _ _)); (on_goal 1 => (unfold t; clear t)))
    | (extract_lets +onlyGivenNames x; clear_value x; revert x; intro _)
    | with_reducible apply Moves.ite
    | with_reducible exact Moves.refl _ _
    | with_reducible assumption
    | (with_reducible apply Moves.next ?hm (sendAck_moves ..) ?_; (case hm => decide))
    | (with_reducible apply Moves.next ?hm (tileWrite_moves ..) ?_; (case hm => decide))
    | (with_reducible apply Moves.next ?hm (sendNack_moves ..) ?_; (case hm => decide))
    | (with_reducible apply Moves.next ?hm (xferLand_moves ..) ?_; (case hm => decide))

theorem xferExpire_moves (s p k) : Moves 0x88 s (xferExpire s p k) := by
  unfold xferExpire
  repeat' first
    | with_reducible apply Moves.ite
    | with_reducible exact Moves.refl _ _
    | (with_reducible apply Moves.next ?hm (addF_moves ..) ?_; (case hm => decide))
    | (with_reducible apply Moves.next ?hm (modTile_moves ..) ?_; (case hm => decide))
    | split

theorem holdAtMemory_moves (s pkt) : Moves 0x20000 s (holdAtMemory s pkt) := by
  unfold holdAtMemory
  repeat' first
    | (extract_lets +onlyGivenNames x; revert x; intro _)
    | with_reducible exact Moves.refl _ _
    | refine Moves.upd rfl (fun h => by cases h; constructor <;> first | assumption | (try dsimp only; first | exact mapSet_wf _ _ _ _ (by assumption) | exact mapMod_wf _ _ _ _ (by assumption) | exact mapDrop_wf _ _ _ (by assumption) | exact mapFilter_wf _ _ _ (by assumption) | exact pokeBytes_wf _ _ _ (by assumption) | exact foldl_wf _ _ (fun _ _ h => mapSet_wf _ _ _ _ h) _ (by assumption) | exact foldl_wf _ _ (fun _ _ h => mapMod_wf _ _ _ _ h) _ (by assumption) | exact rfl)) ?_

theorem atMemory_moves {m : Nat} {k} (hm : 0x800000000130088 ||| m = m) (hf : ∀ n s, Moves m s (k n s)) (s pkt a n wr) :
    Moves m s (atMemory s pkt a n wr k) := by
  unfold atMemory
  repeat' first
    | with_reducible apply Moves.ite
    | with_reducible exact Moves.refl _ _
    | with_reducible apply Moves.trans (hf ..) ?_
    | (with_reducible apply Moves.next ?hm (jobCheck_moves ..) ?_; (case hm => exact le_of hm (by decide)))
    | (with_reducible apply Moves.next ?hm (holdAtMemory_moves ..) ?_; (case hm => exact le_of hm (by decide)))
    | (with_reducible apply Moves.next ?hm (waitArrived_moves ..) ?_; (case hm => exact le_of hm (by decide)))
    | (with_reducible apply Moves.next ?hm (sendNack_moves ..) ?_; (case hm => exact le_of hm (by decide)))
    | split
    | (with_reducible apply Moves.fst_of ?he ?_; (case he => with_reducible assumption))

theorem memWritePkt_moves (s pkt) : Moves 0x8000000001300b8 s (memWritePkt s pkt) := by
  unfold memWritePkt
  repeat' first
    | with_reducible exact Moves.refl _ _
    | (with_reducible apply Moves.next ?hm (staleWrite_moves ?he) ?_; (case he => with_reducible assumption); (case hm => decide))
    | (with_reducible apply Moves.next ?hm (segStore_moves ..) ?_; (case hm => decide))
    | (with_reducible apply Moves.next ?hm (sendAck_moves ..) ?_; (case hm => decide))
    | (with_reducible apply Moves.next ?hm (segLines_moves ..) ?_; (case hm => decide))
    | (with_reducible apply Moves.trans (atMemory_moves ?hm (fun n s => ?_) ..) ?_; (case hm => decide))
    | split

theorem sendData_moves (s pkt bs) : Moves 0x100000 s (sendData s pkt bs) := by
  unfold sendData
  repeat' first
    | with_reducible exact Moves.refl _ _
    | (with_reducible apply Moves.next ?hm (sendPkt_moves ..) ?_; (case hm => decide))

theorem readReqPkt_moves (s pkt) : Moves 0x800000000130088 s (readReqPkt s pkt) := by
  unfold readReqPkt
  repeat' first
    | (extract_lets +onlyGivenNames x; clear_value x; revert x; intro _)
    | with_reducible apply Moves.ite
    | with_reducible exact Moves.refl _ _
    | (with_reducible apply Moves.next ?hm (sendData_moves ..) ?_; (case hm => decide))
    | (with_reducible apply Moves.trans (atTile_moves ?hm (fun n s => ?_) ..) ?_; (case hm => decide))
    | (with_reducible apply Moves.next ?hm (segLines_moves ..) ?_; (case hm => decide))
    | (with_reducible apply Moves.next ?hm (sendNack_moves ..) ?_; (case hm => decide))
    | (with_reducible apply Moves.trans (atMemory_moves ?hm (fun n s => ?_) ..) ?_; (case hm => decide))

theorem writePkt_moves (s pkt) : Moves 0x8000000041300b8 s (writePkt s pkt) := by
  unfold writePkt
  repeat' first
    | with_reducible apply Moves.ite
    | with_reducible exact Moves.refl _ _
    | (with_reducible apply Moves.trans (atTile_moves ?hm (fun n s => ?_) ..) ?_; (case hm => decide))
    | (with_reducible apply Moves.next ?hm (tileWritePkt_moves ..) ?_; (case hm => decide))
    | (with_reducible apply Moves.next ?hm (sendNack_moves ..) ?_; (case hm => decide))
    | (with_reducible apply Moves.next ?hm (memWritePkt_moves ..) ?_; (case hm => decide))

theorem narrowPkt_moves (s pkt) : Moves 0x800000000138088 s (narrowPkt s pkt) := by
  unfold narrowPkt
  repeat' first
    | with_reducible apply Moves.ite
    | with_reducible exact Moves.refl _ _
    | (with_reducible apply Moves.next ?hm (sendData_moves ..) ?_; (case hm => decide))
    | (with_reducible apply Moves.next ?hm (narrowRead_moves ..) ?_; (case hm => decide))
    | (with_reducible apply Moves.next ?hm (sendNack_moves ..) ?_; (case hm => decide))
    | (with_reducible apply Moves.trans (atMemory_moves ?hm (fun n s => ?_) ..) ?_; (case hm => decide))

theorem atomicPkt_moves (s pkt) : Moves 0x8000000001380b8 s (atomicPkt s pkt) := by
  unfold atomicPkt
  repeat' first
    | with_reducible apply Moves.ite
    | with_reducible exact Moves.refl _ _
    | (with_reducible apply Moves.next ?hm (staleWrite_moves ?he) ?_; (case he => with_reducible assumption); (case hm => decide))
    | (with_reducible apply Moves.next ?hm (sendAck_moves ..) ?_; (case hm => decide))
    | (with_reducible apply Moves.next ?hm (landAtomic_moves ..) ?_; (case hm => decide))
    | (with_reducible apply Moves.next ?hm (sendNack_moves ..) ?_; (case hm => decide))
    | (with_reducible apply Moves.trans (atMemory_moves ?hm (fun n s => ?_) ..) ?_; (case hm => decide))
    | split

theorem signalPkt_moves (s pkt) : Moves 0x100080 s (signalPkt s pkt) := by
  unfold signalPkt
  repeat' first
    | with_reducible apply Moves.ite
    | with_reducible exact Moves.refl _ _
    | (with_reducible apply Moves.trans (atTile_moves ?hm (fun n s => ?_) ..) ?_; (case hm => decide))
    | (with_reducible apply Moves.next ?hm (addIncr_moves ..) ?_; (case hm => decide))
    | (with_reducible apply Moves.next ?hm (sendNack_moves ..) ?_; (case hm => decide))

theorem mirrorPkt_moves (s pkt) : Moves 0x110038 s (mirrorPkt s pkt) := by
  unfold mirrorPkt
  repeat' first
    | (extract_lets +onlyGivenNames x; clear_value x; revert x; intro _)
    | with_reducible apply Moves.ite
    | with_reducible exact Moves.refl _ _
    | (with_reducible apply Moves.next ?hm (sendAck_moves ..) ?_; (case hm => decide))
    | (with_reducible apply Moves.next ?hm (waitArrived_moves ..) ?_; (case hm => decide))
    | (with_reducible apply Moves.next ?hm (sendNack_moves ..) ?_; (case hm => decide))
    | (with_reducible apply Moves.next ?hm (rsvAccess_moves ..) ?_; (case hm => decide))
    | (with_reducible apply Moves.next ?hm (writeBytes_moves ..) ?_; (case hm => decide))
    | (with_reducible apply Moves.next ?hm (lineReqs_moves ..) ?_; (case hm => decide))

theorem tileReply_moves (s p pkt) : Moves 0x8000000009103fc s (tileReply s p pkt) := by
  unfold tileReply
  repeat' first
    | (extract_lets +onlyGivenNames x; clear_value x; revert x; intro _)
    | with_reducible apply Moves.ite
    | with_reducible exact Moves.refl _ _
    | (with_reducible apply Moves.next ?hm (countStale_moves ..) ?_; (case hm => decide))
    | (with_reducible apply Moves.next ?hm (dmNacked_moves ..) ?_; (case hm => decide))
    | (with_reducible apply Moves.next ?hm (dmData_moves ..) ?_; (case hm => decide))
    | (with_reducible apply Moves.next ?hm (sigFailed_moves ..) ?_; (case hm => decide))
    | (with_reducible apply Moves.next ?hm (dmAcked_moves ..) ?_; (case hm => decide))
    | (with_reducible apply Moves.next ?hm (dmHeld_moves ..) ?_; (case hm => decide))
    | (with_reducible apply Moves.next ?hm (sigAcked_moves ..) ?_; (case hm => decide))
    | split

theorem orMxFlags_moves (s p f iovf) : Moves 0x8 s (orMxFlags s p f iovf) := by
  unfold orMxFlags
  repeat' first
    | (extract_lets +onlyGivenNames t; refine Moves.cut (t := t) ?_ (fun ht => ?_); (on_goal 2 => (clear_value t; revert t; intro _ _)); (on_goal 1 => (unfold t; clear t)))
    | with_reducible apply Moves.ite
    | with_reducible exact Moves.refl _ _
    | with_reducible assumption
    | (with_reducible apply Moves.next ?hm (setF_moves ..) ?_; (case hm => decide))

theorem orVxFlags_moves (s p f) : Moves 0x8 s (orVxFlags s p f) := by
  unfold orVxFlags
  repeat' first
    | (extract_lets +onlyGivenNames t; refine Moves.cut (t := t) ?_ (fun ht => ?_); (on_goal 2 => (clear_value t; revert t; intro _ _)); (on_goal 1 => (unfold t; clear t)))
    | with_reducible apply Moves.ite
    | with_reducible exact Moves.refl _ _
    | with_reducible assumption
    | (with_reducible apply Moves.next ?hm (setF_moves ..) ?_; (case hm => decide))

theorem clearMxFlags_moves (s p) : Moves 0x8 s (clearMxFlags s p) := by
  unfold clearMxFlags
  repeat' first
    | with_reducible exact Moves.refl _ _
    | (with_reducible apply Moves.next ?hm (setF_moves ..) ?_; (case hm => decide))

end Sys2Proof.Laws
end

