-- ==== Sys2Proof/Laws/MovesTile.lean ====
section
/-! SUPPORT. What each operation may change: the matrix and vector engines, measurements, check values, sparing and collections. One lemma for each, of the form of Laws/Moves.lean. -/
set_option linter.unusedVariables false
set_option linter.unusedTactic false
set_option linter.unreachableTactic false
set_option linter.tactic.unusedName false
namespace Sys2Proof.Laws
open Sys2Proof.Machine

theorem modMx_moves (s p f) : Moves 0x80 s (modMx s p f) := by
  unfold modMx
  repeat' first
    | with_reducible exact Moves.refl _ _
    | (with_reducible apply Moves.next ?hm (modTile_moves ..) ?_; (case hm => decide))

theorem setAcc_moves (s p e v bad) : Moves 0x80 s (setAcc s p e v bad) := by
  unfold setAcc
  repeat' first
    | with_reducible exact Moves.refl _ _
    | (with_reducible apply Moves.next ?hm (modMx_moves ..) ?_; (case hm => decide))

theorem setWide_moves (s p e v) : Moves 0x80 s (setWide s p e v) := by
  unfold setWide
  repeat' first
    | with_reducible exact Moves.refl _ _
    | (with_reducible apply Moves.next ?hm (modMx_moves ..) ?_; (case hm => decide))

theorem setEntry_moves (s p k q) : Moves 0x40 s (setEntry s p k q) := by
  unfold setEntry
  repeat' first
    | with_reducible exact Moves.refl _ _
    | (with_reducible apply Moves.next ?hm (modEng_moves ..) ?_; (case hm => decide))

theorem fillWait_moves (s p k q) : Moves 0xc8 s (fillWait s p k q).1 := by
  unfold fillWait
  repeat' first
    | (extract_lets +onlyGivenNames x; clear_value x; revert x; intro _)
    | with_reducible apply Moves.ite_fst
    | with_reducible exact Moves.refl _ _
    | (with_reducible apply Moves.next ?hm (modEng_moves ..) ?_; (case hm => decide))
    | (with_reducible apply Moves.next ?hm (setEntry_moves ..) ?_; (case hm => decide))
    | (with_reducible apply Moves.next ?hm (traceEv_moves ..) ?_; (case hm => decide))
    | (with_reducible apply Moves.next ?hm (takeCtr_moves ..) ?_; (case hm => decide))

theorem fillFaultAt_moves (s p q first code addr) : Moves 0x8000000009003f8 s (fillFaultAt s p q first code addr) := by
  unfold fillFaultAt
  repeat' first
    | with_reducible apply Moves.ite
    | with_reducible exact Moves.refl _ _
    | (with_reducible apply Moves.next ?hm (faultQ_moves ..) ?_; (case hm => decide))

theorem mxFill_moves (s p) : Moves 0x8000000009003f8 s (mxFill s p) := by
  unfold mxFill
  repeat' first
    | (extract_lets +onlyGivenNames x; clear_value x; revert x; intro _)
    | with_reducible apply Moves.ite
    | with_reducible exact Moves.refl _ _
    | (with_reducible apply Moves.next ?hm (fillWait_moves ..) ?_; (case hm => decide))
    | (with_reducible apply Moves.next ?hm (setEntry_moves ..) ?_; (case hm => decide))
    | (with_reducible apply Moves.next ?hm (fillFaultAt_moves ..) ?_; (case hm => decide))
    | split
    | (with_reducible apply Moves.fst_of ?he ?_; (case he => with_reducible assumption))

theorem mxIssued_moves (s p q f) : Moves 0xc8 s (mxIssued s p q f) := by
  unfold mxIssued
  repeat' first
    | (extract_lets +onlyGivenNames t; refine Moves.cut (t := t) ?_ (fun ht => ?_); (on_goal 2 => (clear_value t; revert t; intro _ _)); (on_goal 1 => (unfold t; clear t)))
    | with_reducible exact Moves.refl _ _
    | with_reducible assumption
    | (with_reducible apply Moves.next ?hm (popFront_moves ..) ?_; (case hm => decide))
    | (with_reducible apply Moves.next ?hm (traceEv_moves ..) ?_; (case hm => decide))
    | (with_reducible apply Moves.next ?hm (modMx_moves ..) ?_; (case hm => decide))

theorem doLds_moves (s p) : Moves 0xc8 s (doLds s p) := by
  unfold doLds
  repeat' first
    | (extract_lets +onlyGivenNames x; clear_value x; revert x; intro _)
    | with_reducible apply Moves.ite
    | with_reducible exact Moves.refl _ _
    | (with_reducible apply Moves.next ?hm (mxIssued_moves ..) ?_; (case hm => decide))
    | (with_reducible apply Moves.next ?hm (modMx_moves ..) ?_; (case hm => decide))
    | split

theorem doLdsp_moves (s p) : Moves 0x8000000009003f8 s (doLdsp s p) := by
  unfold doLdsp
  repeat' first
    | (extract_lets +onlyGivenNames t; refine Moves.cut (t := t) ?_ (fun ht => ?_); (on_goal 2 => (clear_value t; revert t; intro _ _)); (on_goal 1 => (unfold t; clear t)))
    | (extract_lets +onlyGivenNames x; clear_value x; revert x; intro _)
    | with_reducible apply Moves.ite
    | with_reducible exact Moves.refl _ _
    | with_reducible assumption
    | (with_reducible apply Moves.next ?hm (mxIssued_moves ..) ?_; (case hm => decide))
    | (with_reducible apply Moves.next ?hm (faultQ_moves ..) ?_; (case hm => decide))
    | (with_reducible apply Moves.next ?hm (modMx_moves ..) ?_; (case hm => decide))
    | split

theorem loadComplete_moves (s p k) : Moves 0x88 s (loadComplete s p k) := by
  unfold loadComplete
  repeat' first
    | (extract_lets +onlyGivenNames t; refine Moves.cut (t := t) ?_ (fun ht => ?_); (on_goal 2 => (clear_value t; revert t; intro _ _)); (on_goal 1 => (unfold t; clear t)))
    | (extract_lets +onlyGivenNames x; clear_value x; revert x; intro _)
    | with_reducible apply Moves.ite
    | with_reducible exact Moves.refl _ _
    | with_reducible assumption
    | (with_reducible apply Moves.next ?hm (completeDone_moves ..) ?_; (case hm => decide))
    | (with_reducible apply Moves.next ?hm (modMx_moves ..) ?_; (case hm => decide))
    | split

theorem endRun_moves (s p r) : Moves 0x80 s (endRun s p r) := by
  unfold endRun
  repeat' first
    | (extract_lets +onlyGivenNames t; refine Moves.cut (t := t) ?_ (fun ht => ?_); (on_goal 2 => (clear_value t; revert t; intro _ _)); (on_goal 1 => (unfold t; clear t)))
    | (extract_lets +onlyGivenNames x; clear_value x; revert x; intro _)
    | with_reducible apply Moves.ite
    | with_reducible exact Moves.refl _ _
    | with_reducible assumption
    | (with_reducible apply Moves.next ?hm (setAcc_moves ..) ?_; (case hm => decide))
    | (with_reducible apply Moves.next ?hm (setWide_moves ..) ?_; (case hm => decide))
    | (with_reducible apply Moves.next ?hm (modMx_moves ..) ?_; (case hm => decide))
    | with_reducible apply Moves.foldl _ (fun s x => ?_) _ ?_
    | split

theorem abandonRun_moves (s p r) : Moves 0x80 s (abandonRun s p r) := by
  unfold abandonRun
  repeat' first
    | (extract_lets +onlyGivenNames t; refine Moves.cut (t := t) ?_ (fun ht => ?_); (on_goal 2 => (clear_value t; revert t; intro _ _)); (on_goal 1 => (unfold t; clear t)))
    | with_reducible apply Moves.ite
    | with_reducible exact Moves.refl _ _
    | with_reducible assumption
    | (with_reducible apply Moves.next ?hm (setWide_moves ..) ?_; (case hm => decide))
    | (with_reducible apply Moves.next ?hm (modMx_moves ..) ?_; (case hm => decide))
    | with_reducible apply Moves.foldl _ (fun s x => ?_) _ ?_

theorem mmCompute_moves (s p w st b spill start ends) : Moves 0x88 s (mmCompute s p w st b spill start ends).1 := by
  unfold mmCompute
  repeat' first
    | (extract_lets +onlyGivenNames t; refine Moves.cut (t := t) ?_ (fun ht => ?_); (on_goal 2 => (clear_value t; revert t; intro _ _)); (on_goal 1 => (unfold t; clear t)))
    | (extract_lets +onlyGivenNames x; clear_value x; revert x; intro _)
    | with_reducible apply Moves.ite_fst
    | with_reducible exact Moves.refl _ _
    | with_reducible assumption
    | (with_reducible apply Moves.next ?hm (orMxFlags_moves ..) ?_; (case hm => decide))
    | (with_reducible apply Moves.next ?hm (setAcc_moves ..) ?_; (case hm => decide))
    | (with_reducible apply Moves.next ?hm (setWide_moves ..) ?_; (case hm => decide))
    | with_reducible apply Moves.foldl_fst _ (fun s x => ?_) _ ?_

theorem swapSets_moves (s p as) : Moves 0x80 s (swapSets s p as) := by
  unfold swapSets
  repeat' first
    | with_reducible exact Moves.refl _ _
    | (with_reducible apply Moves.next ?hm (modMx_moves ..) ?_; (case hm => decide))

theorem countMm_moves (s p slots macs) : Moves 0x8 s (countMm s p slots macs) := by
  unfold countMm
  repeat' first
    | with_reducible exact Moves.refl _ _
    | (with_reducible apply Moves.next ?hm (addStat_moves ..) ?_; (case hm => decide))

theorem doMm_moves (s p) : Moves 0x8000000009003f8 s (doMm s p) := by
  unfold doMm
  repeat' first
    | (extract_lets +onlyGivenNames t; refine Moves.cut (t := t) ?_ (fun ht => ?_); (on_goal 2 => (clear_value t; revert t; intro _ _)); (on_goal 1 => (unfold t; clear t)))
    | (extract_lets +onlyGivenNames x; clear_value x; revert x; intro _)
    | with_reducible apply Moves.ite
    | with_reducible exact Moves.refl _ _
    | with_reducible assumption
    | (with_reducible apply Moves.next ?hm (mxIssued_moves ..) ?_; (case hm => decide))
    | (with_reducible apply Moves.next ?hm (abandonRun_moves ..) ?_; (case hm => decide))
    | (with_reducible apply Moves.next ?hm (faultQ_moves ..) ?_; (case hm => decide))
    | (with_reducible apply Moves.next ?hm (mmCompute_moves ..) ?_; (case hm => decide))
    | (with_reducible apply Moves.next ?hm (swapSets_moves ..) ?_; (case hm => decide))
    | (with_reducible apply Moves.next ?hm (countMm_moves ..) ?_; (case hm => decide))
    | (with_reducible apply Moves.next ?hm (modMx_moves ..) ?_; (case hm => decide))
    | split

theorem packCompute_moves (p w b acc a) : Moves 0x88 acc.1 (packCompute p w b acc a).1 := by
  unfold packCompute
  repeat' first
    | (extract_lets +onlyGivenNames t; refine Moves.cut (t := t) ?_ (fun ht => ?_); (on_goal 2 => (clear_value t; revert t; intro _ _)); (on_goal 1 => (unfold t; clear t)))
    | (extract_lets +onlyGivenNames x; clear_value x; revert x; intro _)
    | with_reducible apply Moves.ite_fst
    | with_reducible exact Moves.refl _ _
    | with_reducible assumption
    | (with_reducible apply Moves.next ?hm (orMxFlags_moves ..) ?_; (case hm => decide))
    | (with_reducible apply Moves.next ?hm (setAcc_moves ..) ?_; (case hm => decide))
    | with_reducible apply Moves.foldl_fst _ (fun s x => ?_) _ ?_
    | split

theorem doMmp_moves (s p) : Moves 0x8000000009003f8 s (doMmp s p) := by
  unfold doMmp
  repeat' first
    | (extract_lets +onlyGivenNames t; refine Moves.cut (t := t) ?_ (fun ht => ?_); (on_goal 2 => (clear_value t; revert t; intro _ _)); (on_goal 1 => (unfold t; clear t)))
    | (extract_lets +onlyGivenNames x; clear_value x; revert x; intro _)
    | with_reducible apply Moves.ite
    | with_reducible exact Moves.refl _ _
    | with_reducible assumption
    | (with_reducible apply Moves.next ?hm (mxIssued_moves ..) ?_; (case hm => decide))
    | (with_reducible apply Moves.next ?hm (packCompute_moves ..) ?_; (case hm => decide))
    | (with_reducible apply Moves.next ?hm (faultQ_moves ..) ?_; (case hm => decide))
    | (with_reducible apply Moves.next ?hm (swapSets_moves ..) ?_; (case hm => decide))
    | (with_reducible apply Moves.next ?hm (countMm_moves ..) ?_; (case hm => decide))
    | with_reducible apply Moves.foldl_fst _ (fun s x => ?_) _ ?_
    | split

theorem doSt_moves (s p) : Moves 0x8000000049003f8 s (doSt s p) := by
  unfold doSt
  repeat' first
    | (extract_lets +onlyGivenNames t; refine Moves.cut (t := t) ?_ (fun ht => ?_); (on_goal 2 => (clear_value t; revert t; intro _ _)); (on_goal 1 => (unfold t; clear t)))
    | (extract_lets +onlyGivenNames x; clear_value x; revert x; intro _)
    | with_reducible apply Moves.ite
    | with_reducible exact Moves.refl _ _
    | with_reducible assumption
    | (with_reducible apply Moves.next ?hm (mxIssued_moves ..) ?_; (case hm => decide))
    | (with_reducible apply Moves.next ?hm (orMxFlags_moves ..) ?_; (case hm => decide))
    | (with_reducible apply Moves.next ?hm (tileWrite_moves ..) ?_; (case hm => decide))
    | (with_reducible apply Moves.next ?hm (setAcc_moves ..) ?_; (case hm => decide))
    | (with_reducible apply Moves.next ?hm (faultQ_moves ..) ?_; (case hm => decide))
    | with_reducible apply Moves.foldl _ (fun s x => ?_) _ ?_
    | split

theorem doLdacc_moves (s p) : Moves 0xc8 s (doLdacc s p) := by
  unfold doLdacc
  repeat' first
    | (extract_lets +onlyGivenNames t; refine Moves.cut (t := t) ?_ (fun ht => ?_); (on_goal 2 => (clear_value t; revert t; intro _ _)); (on_goal 1 => (unfold t; clear t)))
    | (extract_lets +onlyGivenNames x; clear_value x; revert x; intro _)
    | with_reducible apply Moves.ite
    | with_reducible exact Moves.refl _ _
    | with_reducible assumption
    | (with_reducible apply Moves.next ?hm (mxIssued_moves ..) ?_; (case hm => decide))
    | (with_reducible apply Moves.next ?hm (setAcc_moves ..) ?_; (case hm => decide))
    | with_reducible apply Moves.foldl _ (fun s x => ?_) _ ?_
    | split

theorem doDrain_moves (s p) : Moves 0x8000000009003f8 s (doDrain s p) := by
  unfold doDrain
  repeat' first
    | (extract_lets +onlyGivenNames x; clear_value x; revert x; intro _)
    | with_reducible apply Moves.ite
    | with_reducible exact Moves.refl _ _
    | (with_reducible apply Moves.next ?hm (mxIssued_moves ..) ?_; (case hm => decide))
    | (with_reducible apply Moves.next ?hm (endRun_moves ..) ?_; (case hm => decide))
    | (with_reducible apply Moves.next ?hm (faultQ_moves ..) ?_; (case hm => decide))
    | with_reducible apply Moves.foldl _ (fun s x => ?_) _ ?_
    | split

theorem doFlag_moves (s p) : Moves 0xc8 s (doFlag s p) := by
  unfold doFlag
  repeat' first
    | (extract_lets +onlyGivenNames t; refine Moves.cut (t := t) ?_ (fun ht => ?_); (on_goal 2 => (clear_value t; revert t; intro _ _)); (on_goal 1 => (unfold t; clear t)))
    | with_reducible apply Moves.ite
    | with_reducible exact Moves.refl _ _
    | with_reducible assumption
    | (with_reducible apply Moves.next ?hm (clearMxFlags_moves ..) ?_; (case hm => decide))
    | (with_reducible apply Moves.next ?hm (finishFront_moves ..) ?_; (case hm => decide))
    | (with_reducible apply Moves.next ?hm (setG_moves ..) ?_; (case hm => decide))
    | split

theorem issueTimeout_moves (s p) : Moves 0x8000000009003f8 s (issueTimeout s p) := by
  unfold issueTimeout
  repeat' first
    | (extract_lets +onlyGivenNames x; clear_value x; revert x; intro _)
    | with_reducible apply Moves.ite
    | with_reducible exact Moves.refl _ _
    | (with_reducible apply Moves.next ?hm (faultQ_moves ..) ?_; (case hm => decide))
    | split

theorem modVx_moves (s p f) : Moves 0x80 s (modVx s p f) := by
  unfold modVx
  repeat' first
    | with_reducible exact Moves.refl _ _
    | (with_reducible apply Moves.next ?hm (modTile_moves ..) ?_; (case hm => decide))

theorem setPred_moves (s p n v) : Moves 0x80 s (setPred s p n v) := by
  unfold setPred
  repeat' first
    | with_reducible apply Moves.ite
    | with_reducible exact Moves.refl _ _
    | (with_reducible apply Moves.next ?hm (modVx_moves ..) ?_; (case hm => decide))

theorem setLanes_moves (s p r act f) : Moves 0x80 s (setLanes s p r act f) := by
  unfold setLanes
  repeat' first
    | with_reducible exact Moves.refl _ _
    | (with_reducible apply Moves.next ?hm (modVx_moves ..) ?_; (case hm => decide))

theorem vxRun_moves {m : Nat} {body} (hm : 0x8000000009003f8 ||| m = m) (hf : ∀ s q, Moves m s (body s q).1) (s p op bad reads writes) :
    Moves m s (vxRun s p op bad reads writes body) := by
  unfold vxRun
  repeat' first
    | (extract_lets +onlyGivenNames t; refine Moves.cut (t := t) ?_ (fun ht => ?_); (on_goal 2 => (clear_value t; revert t; intro _ _)); (on_goal 1 => (unfold t; clear t)))
    | (extract_lets +onlyGivenNames x; clear_value x; revert x; intro _)
    | with_reducible apply Moves.ite
    | with_reducible exact Moves.refl _ _
    | with_reducible assumption
    | with_reducible apply Moves.trans (hf ..) ?_
    | (with_reducible apply Moves.next ?hm (takeW_moves ..) ?_; (case hm => exact le_of hm (by decide)))
    | (with_reducible apply Moves.next ?hm (popFront_moves ..) ?_; (case hm => exact le_of hm (by decide)))
    | (with_reducible apply Moves.next ?hm (modVx_moves ..) ?_; (case hm => exact le_of hm (by decide)))
    | (with_reducible apply Moves.next ?hm (faultQ_moves ..) ?_; (case hm => exact le_of hm (by decide)))
    | (with_reducible apply Moves.next ?hm (traceEv_moves ..) ?_; (case hm => exact le_of hm (by decide)))
    | split
    | (with_reducible apply Moves.fst_of ?he ?_; (case he => with_reducible assumption))

theorem vxComplete_moves (s p k) : Moves 0x88 s (vxComplete s p k) := by
  unfold vxComplete
  repeat' first
    | with_reducible exact Moves.refl _ _
    | (with_reducible apply Moves.next ?hm (modVx_moves ..) ?_; (case hm => decide))
    | (with_reducible apply Moves.next ?hm (completeDone_moves ..) ?_; (case hm => decide))
    | split

theorem countLanes_moves (s p act) : Moves 0x8 s (countLanes s p act) := by
  unfold countLanes
  repeat' first
    | with_reducible exact Moves.refl _ _
    | (with_reducible apply Moves.next ?hm (addStat_moves ..) ?_; (case hm => decide))

theorem countSfu_moves (s p n) : Moves 0x8 s (countSfu s p n) := by
  unfold countSfu
  repeat' first
    | with_reducible exact Moves.refl _ _
    | (with_reducible apply Moves.next ?hm (addStat_moves ..) ?_; (case hm => decide))

theorem doVxFop_moves (s p) : Moves 0x8000000009003f8 s (doVxFop s p) := by
  unfold doVxFop
  repeat' first
    | (extract_lets +onlyGivenNames t; refine Moves.cut (t := t) ?_ (fun ht => ?_); (on_goal 2 => (clear_value t; revert t; intro _ _)); (on_goal 1 => (unfold t; clear t)))
    | (extract_lets +onlyGivenNames x; clear_value x; revert x; intro _)
    | with_reducible apply Moves.ite
    | with_reducible exact Moves.refl _ _
    | with_reducible assumption
    | (with_reducible apply Moves.trans (vxRun_moves ?hm (fun s q => ?_) ..) ?_; (case hm => decide))
    | (with_reducible apply Moves.next ?hm (countLanes_moves ..) ?_; (case hm => decide))
    | (with_reducible apply Moves.next ?hm (setLanes_moves ..) ?_; (case hm => decide))

theorem doVxIop_moves (s p) : Moves 0x8000000009003f8 s (doVxIop s p) := by
  unfold doVxIop
  repeat' first
    | (extract_lets +onlyGivenNames t; refine Moves.cut (t := t) ?_ (fun ht => ?_); (on_goal 2 => (clear_value t; revert t; intro _ _)); (on_goal 1 => (unfold t; clear t)))
    | (extract_lets +onlyGivenNames x; clear_value x; revert x; intro _)
    | with_reducible apply Moves.ite
    | with_reducible exact Moves.refl _ _
    | with_reducible assumption
    | (with_reducible apply Moves.next ?hm (orVxFlags_moves ..) ?_; (case hm => decide))
    | (with_reducible apply Moves.trans (vxRun_moves ?hm (fun s q => ?_) ..) ?_; (case hm => decide))
    | (with_reducible apply Moves.next ?hm (countLanes_moves ..) ?_; (case hm => decide))
    | (with_reducible apply Moves.next ?hm (setLanes_moves ..) ?_; (case hm => decide))

theorem doVxCmp_moves (s p) : Moves 0x8000000009003f8 s (doVxCmp s p) := by
  unfold doVxCmp
  repeat' first
    | (extract_lets +onlyGivenNames x; clear_value x; revert x; intro _)
    | with_reducible exact Moves.refl _ _
    | (with_reducible apply Moves.trans (vxRun_moves ?hm (fun s q => ?_) ..) ?_; (case hm => decide))
    | (with_reducible apply Moves.next ?hm (countLanes_moves ..) ?_; (case hm => decide))
    | (with_reducible apply Moves.next ?hm (setPred_moves ..) ?_; (case hm => decide))

theorem doVxPop_moves (s p) : Moves 0x8000000009003f8 s (doVxPop s p) := by
  unfold doVxPop
  repeat' first
    | with_reducible exact Moves.refl _ _
    | (with_reducible apply Moves.trans (vxRun_moves ?hm (fun s q => ?_) ..) ?_; (case hm => decide))
    | (with_reducible apply Moves.next ?hm (setPred_moves ..) ?_; (case hm => decide))

theorem doVxSfu_moves (s p) : Moves 0x8000000009003f8 s (doVxSfu s p) := by
  unfold doVxSfu
  repeat' first
    | (extract_lets +onlyGivenNames t; refine Moves.cut (t := t) ?_ (fun ht => ?_); (on_goal 2 => (clear_value t; revert t; intro _ _)); (on_goal 1 => (unfold t; clear t)))
    | (extract_lets +onlyGivenNames x; clear_value x; revert x; intro _)
    | with_reducible exact Moves.refl _ _
    | with_reducible assumption
    | (with_reducible apply Moves.trans (vxRun_moves ?hm (fun s q => ?_) ..) ?_; (case hm => decide))
    | (with_reducible apply Moves.next ?hm (countLanes_moves ..) ?_; (case hm => decide))
    | (with_reducible apply Moves.next ?hm (setLanes_moves ..) ?_; (case hm => decide))
    | (with_reducible apply Moves.next ?hm (countSfu_moves ..) ?_; (case hm => decide))

theorem doVxRed_moves (s p) : Moves 0x8000000009003f8 s (doVxRed s p) := by
  unfold doVxRed
  repeat' first
    | (extract_lets +onlyGivenNames x; clear_value x; revert x; intro _)
    | with_reducible exact Moves.refl _ _
    | (with_reducible apply Moves.trans (vxRun_moves ?hm (fun s q => ?_) ..) ?_; (case hm => decide))
    | (with_reducible apply Moves.next ?hm (countLanes_moves ..) ?_; (case hm => decide))
    | (with_reducible apply Moves.next ?hm (setLanes_moves ..) ?_; (case hm => decide))

theorem bumpG_moves (s p on r n) : Moves 0x8 s (bumpG s p on r n) := by
  unfold bumpG
  repeat' first
    | with_reducible apply Moves.ite
    | with_reducible exact Moves.refl _ _
    | (with_reducible apply Moves.next ?hm (setG_moves ..) ?_; (case hm => decide))

theorem doVxLd_moves (s p) : Moves 0x8000000009003f8 s (doVxLd s p) := by
  unfold doVxLd
  repeat' first
    | (extract_lets +onlyGivenNames t; refine Moves.cut (t := t) ?_ (fun ht => ?_); (on_goal 2 => (clear_value t; revert t; intro _ _)); (on_goal 1 => (unfold t; clear t)))
    | (extract_lets +onlyGivenNames x; clear_value x; revert x; intro _)
    | with_reducible exact Moves.refl _ _
    | with_reducible assumption
    | (with_reducible apply Moves.trans (vxRun_moves ?hm (fun s q => ?_) ..) ?_; (case hm => decide))
    | (with_reducible apply Moves.next ?hm (bumpG_moves ..) ?_; (case hm => decide))
    | (with_reducible apply Moves.next ?hm (setLanes_moves ..) ?_; (case hm => decide))
    | split

theorem writeRow_moves (s p a bs sel) : Moves 0x40000b8 s (writeRow s p a bs sel) := by
  unfold writeRow
  repeat' first
    | with_reducible exact Moves.refl _ _
    | (with_reducible apply Moves.next ?hm (tileWrite_moves ..) ?_; (case hm => decide))
    | with_reducible apply Moves.foldl _ (fun s x => ?_) _ ?_

theorem doVxSt_moves (s p) : Moves 0x8000000049003f8 s (doVxSt s p) := by
  unfold doVxSt
  repeat' first
    | (extract_lets +onlyGivenNames t; refine Moves.cut (t := t) ?_ (fun ht => ?_); (on_goal 2 => (clear_value t; revert t; intro _ _)); (on_goal 1 => (unfold t; clear t)))
    | (extract_lets +onlyGivenNames x; clear_value x; revert x; intro _)
    | with_reducible apply Moves.ite
    | with_reducible exact Moves.refl _ _
    | with_reducible assumption
    | (with_reducible apply Moves.next ?hm (orVxFlags_moves ..) ?_; (case hm => decide))
    | (with_reducible apply Moves.next ?hm (addStat_moves ..) ?_; (case hm => decide))
    | (with_reducible apply Moves.trans (vxRun_moves ?hm (fun s q => ?_) ..) ?_; (case hm => decide))
    | (with_reducible apply Moves.next ?hm (bumpG_moves ..) ?_; (case hm => decide))
    | (with_reducible apply Moves.next ?hm (writeRow_moves ..) ?_; (case hm => decide))
    | split

theorem doVxLda_moves (s p) : Moves 0x8000000009003f8 s (doVxLda s p) := by
  unfold doVxLda
  repeat' first
    | (extract_lets +onlyGivenNames t; refine Moves.cut (t := t) ?_ (fun ht => ?_); (on_goal 2 => (clear_value t; revert t; intro _ _)); (on_goal 1 => (unfold t; clear t)))
    | (extract_lets +onlyGivenNames x; clear_value x; revert x; intro _)
    | with_reducible apply Moves.ite
    | with_reducible exact Moves.refl _ _
    | with_reducible assumption
    | (with_reducible apply Moves.trans (vxRun_moves ?hm (fun s q => ?_) ..) ?_; (case hm => decide))
    | (with_reducible apply Moves.next ?hm (bumpG_moves ..) ?_; (case hm => decide))
    | (with_reducible apply Moves.next ?hm (setAcc_moves ..) ?_; (case hm => decide))
    | (with_reducible apply Moves.next ?hm (setLanes_moves ..) ?_; (case hm => decide))
    | with_reducible apply Moves.foldl _ (fun s x => ?_) _ ?_
    | split

theorem doVxSta_moves (s p) : Moves 0x8000000009003fc s (doVxSta s p) := by
  unfold doVxSta
  repeat' first
    | (extract_lets +onlyGivenNames t; refine Moves.cut (t := t) ?_ (fun ht => ?_); (on_goal 2 => (clear_value t; revert t; intro _ _)); (on_goal 1 => (unfold t; clear t)))
    | (extract_lets +onlyGivenNames x; clear_value x; revert x; intro _)
    | with_reducible exact Moves.refl _ _
    | with_reducible assumption
    | (with_reducible apply Moves.trans (vxRun_moves ?hm (fun s q => ?_) ..) ?_; (case hm => decide))
    | (with_reducible apply Moves.next ?hm (bumpG_moves ..) ?_; (case hm => decide))
    | (with_reducible apply Moves.next ?hm (setAcc_moves ..) ?_; (case hm => decide))
    | with_reducible apply Moves.foldl _ (fun s x => ?_) _ ?_
    | split
    | refine Moves.upd rfl (fun h => by cases h; constructor <;> first | assumption | (try dsimp only; first | exact mapSet_wf _ _ _ _ (by assumption) | exact mapMod_wf _ _ _ _ (by assumption) | exact mapDrop_wf _ _ _ (by assumption) | exact mapFilter_wf _ _ _ (by assumption) | exact pokeBytes_wf _ _ _ (by assumption) | exact foldl_wf _ _ (fun _ _ h => mapSet_wf _ _ _ _ h) _ (by assumption) | exact foldl_wf _ _ (fun _ _ h => mapMod_wf _ _ _ _ h) _ (by assumption) | exact rfl)) ?_

theorem doVxRmax_moves (s p) : Moves 0x8000000009003f8 s (doVxRmax s p) := by
  unfold doVxRmax
  repeat' first
    | (extract_lets +onlyGivenNames t; refine Moves.cut (t := t) ?_ (fun ht => ?_); (on_goal 2 => (clear_value t; revert t; intro _ _)); (on_goal 1 => (unfold t; clear t)))
    | (extract_lets +onlyGivenNames x; clear_value x; revert x; intro _)
    | with_reducible exact Moves.refl _ _
    | with_reducible assumption
    | (with_reducible apply Moves.trans (vxRun_moves ?hm (fun s q => ?_) ..) ?_; (case hm => decide))
    | (with_reducible apply Moves.next ?hm (countLanes_moves ..) ?_; (case hm => decide))
    | (with_reducible apply Moves.next ?hm (setLanes_moves ..) ?_; (case hm => decide))
    | (with_reducible apply Moves.next ?hm (countSfu_moves ..) ?_; (case hm => decide))

theorem doVxRsum_moves (s p) : Moves 0x8000000009003f8 s (doVxRsum s p) := by
  unfold doVxRsum
  repeat' first
    | (extract_lets +onlyGivenNames x; clear_value x; revert x; intro _)
    | with_reducible exact Moves.refl _ _
    | (with_reducible apply Moves.trans (vxRun_moves ?hm (fun s q => ?_) ..) ?_; (case hm => decide))
    | (with_reducible apply Moves.next ?hm (countLanes_moves ..) ?_; (case hm => decide))
    | (with_reducible apply Moves.next ?hm (setLanes_moves ..) ?_; (case hm => decide))

theorem doVxDrop_moves (s p) : Moves 0x8000000009003f8 s (doVxDrop s p) := by
  unfold doVxDrop
  repeat' first
    | (extract_lets +onlyGivenNames t; refine Moves.cut (t := t) ?_ (fun ht => ?_); (on_goal 2 => (clear_value t; revert t; intro _ _)); (on_goal 1 => (unfold t; clear t)))
    | (extract_lets +onlyGivenNames x; clear_value x; revert x; intro _)
    | with_reducible exact Moves.refl _ _
    | with_reducible assumption
    | (with_reducible apply Moves.next ?hm (addStat_moves ..) ?_; (case hm => decide))
    | (with_reducible apply Moves.trans (vxRun_moves ?hm (fun s q => ?_) ..) ?_; (case hm => decide))
    | (with_reducible apply Moves.next ?hm (countLanes_moves ..) ?_; (case hm => decide))
    | (with_reducible apply Moves.next ?hm (setLanes_moves ..) ?_; (case hm => decide))

theorem doVxRng_moves (s p) : Moves 0x8000000009003f8 s (doVxRng s p) := by
  unfold doVxRng
  repeat' first
    | (extract_lets +onlyGivenNames t; refine Moves.cut (t := t) ?_ (fun ht => ?_); (on_goal 2 => (clear_value t; revert t; intro _ _)); (on_goal 1 => (unfold t; clear t)))
    | (extract_lets +onlyGivenNames x; clear_value x; revert x; intro _)
    | with_reducible exact Moves.refl _ _
    | with_reducible assumption
    | (with_reducible apply Moves.next ?hm (addStat_moves ..) ?_; (case hm => decide))
    | (with_reducible apply Moves.trans (vxRun_moves ?hm (fun s q => ?_) ..) ?_; (case hm => decide))
    | (with_reducible apply Moves.next ?hm (countLanes_moves ..) ?_; (case hm => decide))
    | (with_reducible apply Moves.next ?hm (setLanes_moves ..) ?_; (case hm => decide))

theorem doVxPos_moves (s p) : Moves 0x8000000009003f8 s (doVxPos s p) := by
  unfold doVxPos
  repeat' first
    | (extract_lets +onlyGivenNames t; refine Moves.cut (t := t) ?_ (fun ht => ?_); (on_goal 2 => (clear_value t; revert t; intro _ _)); (on_goal 1 => (unfold t; clear t)))
    | (extract_lets +onlyGivenNames x; clear_value x; revert x; intro _)
    | with_reducible exact Moves.refl _ _
    | with_reducible assumption
    | (with_reducible apply Moves.trans (vxRun_moves ?hm (fun s q => ?_) ..) ?_; (case hm => decide))
    | (with_reducible apply Moves.next ?hm (countLanes_moves ..) ?_; (case hm => decide))
    | (with_reducible apply Moves.next ?hm (setLanes_moves ..) ?_; (case hm => decide))

theorem doVxCmask_moves (s p) : Moves 0x8000000009003f8 s (doVxCmask s p) := by
  unfold doVxCmask
  repeat' first
    | (extract_lets +onlyGivenNames t; refine Moves.cut (t := t) ?_ (fun ht => ?_); (on_goal 2 => (clear_value t; revert t; intro _ _)); (on_goal 1 => (unfold t; clear t)))
    | (extract_lets +onlyGivenNames x; clear_value x; revert x; intro _)
    | with_reducible apply Moves.ite
    | with_reducible exact Moves.refl _ _
    | with_reducible assumption
    | (with_reducible apply Moves.trans (vxRun_moves ?hm (fun s q => ?_) ..) ?_; (case hm => decide))
    | (with_reducible apply Moves.next ?hm (countLanes_moves ..) ?_; (case hm => decide))
    | (with_reducible apply Moves.next ?hm (setPred_moves ..) ?_; (case hm => decide))
    | (with_reducible apply Moves.next ?hm (setLanes_moves ..) ?_; (case hm => decide))

theorem optOne_moves (p w blk acc i) : Moves 0x40000b8 acc.1 (optOne p w blk acc i).1 := by
  unfold optOne
  dsimp only
  repeat' first
    | with_reducible apply Moves.ite
    | with_reducible exact Moves.refl _ _
    | (with_reducible apply Moves.next ?hm (tileWrite_moves ..) ?_; (case hm => decide))
    | (with_reducible apply Moves.next ?hm (setF_moves ..) ?_; (case hm => decide))

theorem optUnit_moves (p w blk s i0 n) : Moves 0x40000b8 s (optUnit p w blk s i0 n) := by
  unfold optUnit
  repeat' first
    | (extract_lets +onlyGivenNames x; clear_value x; revert x; intro _)
    | with_reducible apply Moves.ite
    | with_reducible exact Moves.refl _ _
    | (with_reducible apply Moves.next ?hm (orVxFlags_moves ..) ?_; (case hm => decide))
    | (with_reducible apply Moves.next ?hm (optOne_moves ..) ?_; (case hm => decide))
    | (with_reducible apply Moves.next ?hm (tileWrite_moves ..) ?_; (case hm => decide))
    | with_reducible apply Moves.foldl_fst _ (fun s x => ?_) _ ?_

theorem optGroup_moves (s p w blk i0 n) : Moves 0x40000b8 s (optGroup s p w blk i0 n).1 := by
  unfold optGroup
  repeat' first
    | (extract_lets +onlyGivenNames t; refine Moves.cut (t := t) ?_ (fun ht => ?_); (on_goal 2 => (clear_value t; revert t; intro _ _)); (on_goal 1 => (unfold t; clear t)))
    | (extract_lets +onlyGivenNames x; clear_value x; revert x; intro _)
    | with_reducible apply Moves.ite
    | with_reducible exact Moves.refl _ _
    | with_reducible assumption
    | (with_reducible apply Moves.next ?hm (addStat_moves ..) ?_; (case hm => decide))
    | (with_reducible apply Moves.next ?hm (optUnit_moves ..) ?_; (case hm => decide))
    | (with_reducible apply Moves.next ?hm (countSfu_moves ..) ?_; (case hm => decide))
    | with_reducible apply Moves.foldl _ (fun s x => ?_) _ ?_
    | split

theorem optGroups_moves (p w blk n x4 x5) : Moves 0x40000b8 x5 (optGroups p w blk n x4 x5).1 := by
  induction x4 generalizing x5 with
    | zero => ?_
    | succ n ih => ?_
  all_goals unfold optGroups
  repeat' first
    | (extract_lets +onlyGivenNames x; clear_value x; revert x; intro _)
    | with_reducible exact Moves.refl _ _
    | (with_reducible apply Moves.next ?hm (optGroup_moves ..) ?_; (case hm => decide))
    | with_reducible apply Moves.trans (ih ..) ?_
    | split
    | (with_reducible apply Moves.fst_of ?he ?_; (case he => with_reducible assumption))

theorem doVxOpt_moves (s p) : Moves 0x8000000049003f8 s (doVxOpt s p) := by
  unfold doVxOpt
  repeat' first
    | (extract_lets +onlyGivenNames x; clear_value x; revert x; intro _)
    | with_reducible exact Moves.refl _ _
    | (with_reducible apply Moves.trans (vxRun_moves ?hm (fun s q => ?_) ..) ?_; (case hm => decide))
    | (with_reducible apply Moves.next ?hm (optGroups_moves ..) ?_; (case hm => decide))
    | split

theorem writeRngKey_moves (s p v) : Moves 0x8 s (writeRngKey s p v) := by
  unfold writeRngKey
  repeat' first
    | with_reducible exact Moves.refl _ _
    | (with_reducible apply Moves.next ?hm (setF_moves ..) ?_; (case hm => decide))
    | split

theorem putWords_moves (s f base n v) : Moves 0x8 s (putWords s f base n v) := by
  unfold putWords
  repeat' first
    | with_reducible exact Moves.refl _ _
    | (with_reducible apply Moves.next ?hm (setFi_moves ..) ?_; (case hm => decide))
    | with_reducible apply Moves.foldl _ (fun s x => ?_) _ ?_

theorem mrLog_moves (s e) : Moves 0x2000000000008 s (mrLog s e) := by
  unfold mrLog
  repeat' first
    | (extract_lets +onlyGivenNames t; refine Moves.cut (t := t) ?_ (fun ht => ?_); (on_goal 2 => (clear_value t; revert t; intro _ _)); (on_goal 1 => (unfold t; clear t)))
    | with_reducible apply Moves.ite
    | with_reducible exact Moves.refl _ _
    | with_reducible assumption
    | (with_reducible apply Moves.next ?hm (setF_moves ..) ?_; (case hm => decide))
    | refine Moves.upd rfl (fun h => by cases h; constructor <;> first | assumption | (try dsimp only; first | exact mapSet_wf _ _ _ _ (by assumption) | exact mapMod_wf _ _ _ _ (by assumption) | exact mapDrop_wf _ _ _ (by assumption) | exact mapFilter_wf _ _ _ (by assumption) | exact pokeBytes_wf _ _ _ (by assumption) | exact foldl_wf _ _ (fun _ _ h => mapSet_wf _ _ _ _ h) _ (by assumption) | exact foldl_wf _ _ (fun _ _ h => mapMod_wf _ _ _ _ h) _ (by assumption) | exact rfl)) ?_

theorem mrExtend_moves (s i block version d) : Moves 0x2000000000008 s (mrExtend s i block version d) := by
  unfold mrExtend
  repeat' first
    | (extract_lets +onlyGivenNames x; clear_value x; revert x; intro _)
    | with_reducible exact Moves.refl _ _
    | (with_reducible apply Moves.next ?hm (putWords_moves ..) ?_; (case hm => decide))
    | (with_reducible apply Moves.next ?hm (mrLog_moves ..) ?_; (case hm => decide))

theorem setKey_moves (s k) : Moves 0x8 s (setKey s k) := by
  unfold setKey
  repeat' first
    | with_reducible exact Moves.refl _ _
    | (with_reducible apply Moves.next ?hm (setFi_moves ..) ?_; (case hm => decide))
    | with_reducible apply Moves.foldl _ (fun s x => ?_) _ ?_

theorem noteMixed_moves (s) : Moves 0x8 s (noteMixed s) := by
  unfold noteMixed
  repeat' first
    | with_reducible exact Moves.refl _ _
    | (with_reducible apply Moves.next ?hm (setF_moves ..) ?_; (case hm => decide))

theorem changeKey_moves (s old cause) : Moves 0x808400000000038 s (changeKey s old cause) := by
  unfold changeKey
  repeat' first
    | (extract_lets +onlyGivenNames t; refine Moves.cut (t := t) ?_ (fun ht => ?_); (on_goal 2 => (clear_value t; revert t; intro _ _)); (on_goal 1 => (unfold t; clear t)))
    | (extract_lets +onlyGivenNames x; clear_value x; revert x; intro _)
    | with_reducible apply Moves.ite
    | with_reducible exact Moves.refl _ _
    | with_reducible assumption
    | (with_reducible apply Moves.next ?hm (setKey_moves ..) ?_; (case hm => decide))
    | (with_reducible apply Moves.next ?hm (addF_moves ..) ?_; (case hm => decide))
    | (with_reducible apply Moves.next ?hm (logLedger_moves ..) ?_; (case hm => decide))
    | (with_reducible apply Moves.next ?hm (setF_moves ..) ?_; (case hm => decide))
    | (with_reducible apply Moves.next ?hm (raiseMgc_moves ..) ?_; (case hm => decide))
    | (with_reducible apply Moves.next ?hm (noteMixed_moves ..) ?_; (case hm => decide))
    | (with_reducible apply Moves.next ?hm (bumpLife_moves ..) ?_; (case hm => decide))

theorem setCv_moves (s p u v) : Moves 0x80 s (setCv s p u v) := by
  unfold setCv
  repeat' first
    | with_reducible exact Moves.refl _ _
    | (with_reducible apply Moves.next ?hm (modTile_moves ..) ?_; (case hm => decide))

theorem cvErr_moves (s p u) : Moves 0x8 s (cvErr s p u) := by
  unfold cvErr
  repeat' first
    | with_reducible exact Moves.refl _ _
    | (with_reducible apply Moves.next ?hm (setFi_moves ..) ?_; (case hm => decide))

theorem cvBegin_moves (s p u) : Moves 0x88 s (cvBegin s p u) := by
  unfold cvBegin
  repeat' first
    | with_reducible apply Moves.ite
    | with_reducible exact Moves.refl _ _
    | (with_reducible apply Moves.next ?hm (setCv_moves ..) ?_; (case hm => decide))
    | (with_reducible apply Moves.next ?hm (setFi_moves ..) ?_; (case hm => decide))

theorem cvStart_moves (s p u) : Moves 0x88 s (cvStart s p u) := by
  unfold cvStart
  repeat' first
    | with_reducible apply Moves.ite
    | with_reducible exact Moves.refl _ _
    | (with_reducible apply Moves.next ?hm (cvErr_moves ..) ?_; (case hm => decide))
    | (with_reducible apply Moves.next ?hm (cvBegin_moves ..) ?_; (case hm => decide))

theorem cvArm_moves (s p u) : Moves 0x88 s (cvArm s p u) := by
  unfold cvArm
  repeat' first
    | with_reducible apply Moves.ite
    | with_reducible exact Moves.refl _ _
    | (with_reducible apply Moves.next ?hm (cvErr_moves ..) ?_; (case hm => decide))
    | (with_reducible apply Moves.next ?hm (satisfyCv_moves ..) ?_; (case hm => decide))
    | (with_reducible apply Moves.next ?hm (setCv_moves ..) ?_; (case hm => decide))

theorem cvDisarm_moves (s p u) : Moves 0x88 s (cvDisarm s p u) := by
  unfold cvDisarm
  repeat' first
    | with_reducible apply Moves.ite
    | with_reducible exact Moves.refl _ _
    | (with_reducible apply Moves.next ?hm (cvErr_moves ..) ?_; (case hm => decide))
    | (with_reducible apply Moves.next ?hm (setCv_moves ..) ?_; (case hm => decide))

theorem cvCombine_moves (s p u) : Moves 0x88 s (cvCombine s p u) := by
  unfold cvCombine
  repeat' first
    | with_reducible apply Moves.ite
    | with_reducible exact Moves.refl _ _
    | (with_reducible apply Moves.next ?hm (cvErr_moves ..) ?_; (case hm => decide))
    | (with_reducible apply Moves.next ?hm (setCv_moves ..) ?_; (case hm => decide))

theorem cvRecord_moves (s p u code detail) : Moves 0x800000000000038 s (cvRecord s p u code detail) := by
  unfold cvRecord
  repeat' first
    | with_reducible exact Moves.refl _ _
    | (with_reducible apply Moves.next ?hm (raise_moves ..) ?_; (case hm => decide))

theorem cvSignal_moves (s p u on ctr) : Moves 0x80 s (cvSignal s p u on ctr) := by
  unfold cvSignal
  repeat' first
    | with_reducible apply Moves.ite
    | with_reducible exact Moves.refl _ _
    | (with_reducible apply Moves.next ?hm (signalUnit_moves ..) ?_; (case hm => decide))

theorem cvFinish_moves (s p u raw) : Moves 0x8000000000000b8 s (cvFinish s p u raw) := by
  unfold cvFinish
  repeat' first
    | (extract_lets +onlyGivenNames t; refine Moves.cut (t := t) ?_ (fun ht => ?_); (on_goal 2 => (clear_value t; revert t; intro _ _)); (on_goal 1 => (unfold t; clear t)))
    | (extract_lets +onlyGivenNames x; clear_value x; revert x; intro _)
    | with_reducible apply Moves.ite
    | with_reducible exact Moves.refl _ _
    | with_reducible assumption
    | (with_reducible apply Moves.next ?hm (cvSignal_moves ..) ?_; (case hm => decide))
    | (with_reducible apply Moves.next ?hm (regSet_moves ..) ?_; (case hm => decide))
    | (with_reducible apply Moves.next ?hm (setCv_moves ..) ?_; (case hm => decide))
    | (with_reducible apply Moves.next ?hm (setFi_moves ..) ?_; (case hm => decide))
    | (with_reducible apply Moves.next ?hm (cvRecord_moves ..) ?_; (case hm => decide))

theorem cvWord_moves (s p u w) : Moves 0x4 s (cvWord s p u w).1 := by
  unfold cvWord
  repeat' first
    | (extract_lets +onlyGivenNames x; clear_value x; revert x; intro _)
    | with_reducible exact Moves.refl _ _
    | (with_reducible apply Moves.next ?hm (freshWord_moves ..) ?_; (case hm => decide))
    | split

theorem cvRead_moves (s p u) : Moves 0x4 s (cvRead s p u).1 := by
  unfold cvRead
  dsimp only
  refine Moves.foldl_fst _ (fun r w => ?_) _ (Moves.refl _ _)
  exact cvWord_moves ..

theorem cvTriggered_moves (s p u) : Moves 0x88 s (cvTriggered s p u) := by
  unfold cvTriggered
  repeat' first
    | with_reducible apply Moves.ite
    | with_reducible exact Moves.refl _ _
    | (with_reducible apply Moves.next ?hm (cvBegin_moves ..) ?_; (case hm => decide))

theorem cvStop_moves (s p u off) : Moves 0x8000000000000bc s (cvStop s p u off) := by
  unfold cvStop
  repeat' first
    | with_reducible exact Moves.refl _ _
    | (with_reducible apply Moves.next ?hm (cvSignal_moves ..) ?_; (case hm => decide))
    | (with_reducible apply Moves.next ?hm (freshWord_moves ..) ?_; (case hm => decide))
    | (with_reducible apply Moves.next ?hm (setCv_moves ..) ?_; (case hm => decide))
    | (with_reducible apply Moves.next ?hm (setFi_moves ..) ?_; (case hm => decide))
    | (with_reducible apply Moves.next ?hm (cvRecord_moves ..) ?_; (case hm => decide))

theorem cvRun_moves (s p u) : Moves 0x8000000000000bc s (cvRun s p u) := by
  unfold cvRun
  repeat' first
    | (extract_lets +onlyGivenNames t; refine Moves.cut (t := t) ?_ (fun ht => ?_); (on_goal 2 => (clear_value t; revert t; intro _ _)); (on_goal 1 => (unfold t; clear t)))
    | (extract_lets +onlyGivenNames x; clear_value x; revert x; intro _)
    | with_reducible apply Moves.ite
    | with_reducible exact Moves.refl _ _
    | with_reducible assumption
    | (with_reducible apply Moves.next ?hm (cvStop_moves ..) ?_; (case hm => decide))
    | (with_reducible apply Moves.next ?hm (cvTriggered_moves ..) ?_; (case hm => decide))
    | (with_reducible apply Moves.next ?hm (cvFinish_moves ..) ?_; (case hm => decide))
    | (with_reducible apply Moves.next ?hm (cvRead_moves ..) ?_; (case hm => decide))
    | split
    | (with_reducible apply Moves.fst_of ?he ?_; (case he => with_reducible assumption))

theorem cvPoisonStop_moves (s p u) : Moves 0x8000000000000bc s (cvPoisonStop s p u) := by
  unfold cvPoisonStop
  repeat' first
    | (extract_lets +onlyGivenNames t; refine Moves.cut (t := t) ?_ (fun ht => ?_); (on_goal 2 => (clear_value t; revert t; intro _ _)); (on_goal 1 => (unfold t; clear t)))
    | with_reducible apply Moves.ite
    | with_reducible exact Moves.refl _ _
    | with_reducible assumption
    | (with_reducible apply Moves.next ?hm (cvStop_moves ..) ?_; (case hm => decide))
    | (with_reducible apply Moves.next ?hm (cvTriggered_moves ..) ?_; (case hm => decide))
    | (with_reducible apply Moves.next ?hm (cvRead_moves ..) ?_; (case hm => decide))
    | split
    | (with_reducible apply Moves.fst_of ?he ?_; (case he => with_reducible assumption))

theorem cvCombined_moves (s p u) : Moves 0x8000000000000b8 s (cvCombined s p u) := by
  unfold cvCombined
  repeat' first
    | (extract_lets +onlyGivenNames x; clear_value x; revert x; intro _)
    | with_reducible apply Moves.ite
    | with_reducible exact Moves.refl _ _
    | (with_reducible apply Moves.next ?hm (cvFinish_moves ..) ?_; (case hm => decide))

theorem cvConfig_moves (s p u off v) : Moves 0x8 s (cvConfig s p u off v) := by
  unfold cvConfig
  repeat' first
    | (extract_lets +onlyGivenNames x; clear_value x; revert x; intro _)
    | with_reducible apply Moves.ite
    | with_reducible exact Moves.refl _ _
    | (with_reducible apply Moves.next ?hm (cvErr_moves ..) ?_; (case hm => decide))
    | (with_reducible apply Moves.next ?hm (regSet_moves ..) ?_; (case hm => decide))

theorem cvDisarmAll_moves (s p) : Moves 0x80 s (cvDisarmAll s p) := by
  unfold cvDisarmAll
  repeat' first
    | with_reducible apply Moves.ite
    | with_reducible exact Moves.refl _ _
    | (with_reducible apply Moves.next ?hm (setCv_moves ..) ?_; (case hm => decide))
    | with_reducible apply Moves.foldl _ (fun s x => ?_) _ ?_

theorem setPtile_moves (s p v) : Moves 0x2000 s (setPtile s p v) := by
  unfold setPtile
  repeat' first
    | with_reducible exact Moves.refl _ _
    | refine Moves.upd rfl (fun h => by cases h; constructor <;> first | assumption | (try dsimp only; first | exact mapSet_wf _ _ _ _ (by assumption) | exact mapMod_wf _ _ _ _ (by assumption) | exact mapDrop_wf _ _ _ (by assumption) | exact mapFilter_wf _ _ _ (by assumption) | exact pokeBytes_wf _ _ _ (by assumption) | exact foldl_wf _ _ (fun _ _ h => mapSet_wf _ _ _ _ h) _ (by assumption) | exact foldl_wf _ _ (fun _ _ h => mapMod_wf _ _ _ _ h) _ (by assumption) | exact rfl)) ?_

theorem setTmap_moves (s l v) : Moves 0x1000 s (setTmap s l v) := by
  unfold setTmap
  repeat' first
    | with_reducible exact Moves.refl _ _
    | refine Moves.upd rfl (fun h => by cases h; constructor <;> first | assumption | (try dsimp only; first | exact mapSet_wf _ _ _ _ (by assumption) | exact mapMod_wf _ _ _ _ (by assumption) | exact mapDrop_wf _ _ _ (by assumption) | exact mapFilter_wf _ _ _ (by assumption) | exact pokeBytes_wf _ _ _ (by assumption) | exact foldl_wf _ _ (fun _ _ h => mapSet_wf _ _ _ _ h) _ (by assumption) | exact foldl_wf _ _ (fun _ _ h => mapMod_wf _ _ _ _ h) _ (by assumption) | exact rfl)) ?_

theorem zeroTile_moves (s p) : Moves 0x100f8 s (zeroTile s p) := by
  unfold zeroTile
  repeat' first
    | (extract_lets +onlyGivenNames t; refine Moves.cut (t := t) ?_ (fun ht => ?_); (on_goal 2 => (clear_value t; revert t; intro _ _)); (on_goal 1 => (unfold t; clear t)))
    | with_reducible exact Moves.refl _ _
    | with_reducible assumption
    | (with_reducible apply Moves.next ?hm (setEng_moves ..) ?_; (case hm => decide))
    | (with_reducible apply Moves.next ?hm (orphanLines_moves ..) ?_; (case hm => decide))
    | (with_reducible apply Moves.next ?hm (setTile_moves ..) ?_; (case hm => decide))
    | (with_reducible apply Moves.next ?hm (zeroRange_moves ..) ?_; (case hm => decide))
    | with_reducible apply Moves.foldl _ (fun s x => ?_) _ ?_
    | refine Moves.upd rfl (fun h => by cases h; constructor <;> first | assumption | (try dsimp only; first | exact mapSet_wf _ _ _ _ (by assumption) | exact mapMod_wf _ _ _ _ (by assumption) | exact mapDrop_wf _ _ _ (by assumption) | exact mapFilter_wf _ _ _ (by assumption) | exact pokeBytes_wf _ _ _ (by assumption) | exact foldl_wf _ _ (fun _ _ h => mapSet_wf _ _ _ _ h) _ (by assumption) | exact foldl_wf _ _ (fun _ _ h => mapMod_wf _ _ _ _ h) _ (by assumption) | exact rfl)) ?_

theorem copyRange_moves (s a n b) : Moves 0x30 s (copyRange s a n b) := by
  unfold copyRange
  repeat' first
    | (extract_lets +onlyGivenNames t; refine Moves.cut (t := t) ?_ (fun ht => ?_); (on_goal 2 => (clear_value t; revert t; intro _ _)); (on_goal 1 => (unfold t; clear t)))
    | (extract_lets +onlyGivenNames x; clear_value x; revert x; intro _)
    | with_reducible exact Moves.refl _ _
    | with_reducible assumption
    | (with_reducible apply Moves.next ?hm (zeroRange_moves ..) ?_; (case hm => decide))
    | refine Moves.upd rfl (fun h => by cases h; constructor <;> first | assumption | (try dsimp only; first | exact mapSet_wf _ _ _ _ (by assumption) | exact mapMod_wf _ _ _ _ (by assumption) | exact mapDrop_wf _ _ _ (by assumption) | exact mapFilter_wf _ _ _ (by assumption) | exact pokeBytes_wf _ _ _ (by assumption) | exact foldl_wf _ _ (fun _ _ h => mapSet_wf _ _ _ _ h) _ (by assumption) | exact foldl_wf _ _ (fun _ _ h => mapMod_wf _ _ _ _ h) _ (by assumption) | exact rfl)) ?_

theorem moveTile_moves (s src dst) : Moves 0xaf8 s (moveTile s src dst) := by
  unfold moveTile
  repeat' first
    | (extract_lets +onlyGivenNames t; refine Moves.cut (t := t) ?_ (fun ht => ?_); (on_goal 2 => (clear_value t; revert t; intro _ _)); (on_goal 1 => (unfold t; clear t)))
    | (extract_lets +onlyGivenNames x; clear_value x; revert x; intro _)
    | with_reducible exact Moves.refl _ _
    | with_reducible assumption
    | (with_reducible apply Moves.next ?hm (setEng_moves ..) ?_; (case hm => decide))
    | (with_reducible apply Moves.next ?hm (copyRange_moves ..) ?_; (case hm => decide))
    | (with_reducible apply Moves.next ?hm (regSet_moves ..) ?_; (case hm => decide))
    | (with_reducible apply Moves.next ?hm (setTile_moves ..) ?_; (case hm => decide))
    | with_reducible apply Moves.foldl _ (fun s x => ?_) _ ?_
    | refine Moves.upd rfl (fun h => by cases h; constructor <;> first | assumption | (try dsimp only; first | exact mapSet_wf _ _ _ _ (by assumption) | exact mapMod_wf _ _ _ _ (by assumption) | exact mapDrop_wf _ _ _ (by assumption) | exact mapFilter_wf _ _ _ (by assumption) | exact pokeBytes_wf _ _ _ (by assumption) | exact foldl_wf _ _ (fun _ _ h => mapSet_wf _ _ _ _ h) _ (by assumption) | exact foldl_wf _ _ (fun _ _ h => mapMod_wf _ _ _ _ h) _ (by assumption) | exact rfl)) ?_

theorem askQuiesce_moves (s e) : Moves 0x40 s (askQuiesce s e).1 := by
  unfold askQuiesce
  repeat' first
    | with_reducible exact Moves.refl _ _
    | (with_reducible apply Moves.next ?hm (modEng_moves ..) ?_; (case hm => decide))
    | split

theorem startMove_moves (s lt src dst repl rot upd) : Moves 0x40002040 s (startMove s lt src dst repl rot upd) := by
  unfold startMove
  repeat' first
    | (extract_lets +onlyGivenNames t; refine Moves.cut (t := t) ?_ (fun ht => ?_); (on_goal 2 => (clear_value t; revert t; intro _ _)); (on_goal 1 => (unfold t; clear t)))
    | (extract_lets +onlyGivenNames x; clear_value x; revert x; intro _)
    | with_reducible exact Moves.refl _ _
    | with_reducible assumption
    | (with_reducible apply Moves.next ?hm (askQuiesce_moves ..) ?_; (case hm => decide))
    | (with_reducible apply Moves.next ?hm (setPtile_moves ..) ?_; (case hm => decide))
    | with_reducible apply Moves.foldl _ (fun s x => ?_) _ ?_
    | refine Moves.upd rfl (fun h => by cases h; constructor <;> first | assumption | (try dsimp only; first | exact mapSet_wf _ _ _ _ (by assumption) | exact mapMod_wf _ _ _ _ (by assumption) | exact mapDrop_wf _ _ _ (by assumption) | exact mapFilter_wf _ _ _ (by assumption) | exact pokeBytes_wf _ _ _ (by assumption) | exact foldl_wf _ _ (fun _ _ h => mapSet_wf _ _ _ _ h) _ (by assumption) | exact foldl_wf _ _ (fun _ _ h => mapMod_wf _ _ _ _ h) _ (by assumption) | exact rfl)) ?_

theorem spareErr_moves (s) : Moves 0x8 s (spareErr s) := by
  unfold spareErr
  repeat' first
    | with_reducible exact Moves.refl _ _
    | (with_reducible apply Moves.next ?hm (setF_moves ..) ?_; (case hm => decide))

theorem spareCmd_moves (s lt phys repl) : Moves 0x800000040002078 s (spareCmd s lt phys repl) := by
  unfold spareCmd
  repeat' first
    | with_reducible apply Moves.ite
    | with_reducible exact Moves.refl _ _
    | (with_reducible apply Moves.next ?hm (absentCmd_moves ..) ?_; (case hm => decide))
    | (with_reducible apply Moves.next ?hm (spareErr_moves ..) ?_; (case hm => decide))
    | (with_reducible apply Moves.next ?hm (startMove_moves ..) ?_; (case hm => decide))
    | split

theorem sparedRec_moves (s m') : Moves 0x800000000000038 s (sparedRec s m') := by
  unfold sparedRec
  repeat' first
    | with_reducible exact Moves.refl _ _
    | (with_reducible apply Moves.next ?hm (raiseMgcTile_moves ..) ?_; (case hm => decide))

theorem retireTile_moves (s p) : Moves 0x8000000002000 s (retireTile s p) := by
  unfold retireTile
  repeat' first
    | with_reducible exact Moves.refl _ _
    | (with_reducible apply Moves.next ?hm (setPtile_moves ..) ?_; (case hm => decide))
    | (with_reducible apply Moves.next ?hm (bumpLife_moves ..) ?_; (case hm => decide))

theorem sparesGone_moves (s l p) : Moves 0x800000000000038 s (sparesGone s l p) := by
  unfold sparesGone
  repeat' first
    | with_reducible exact Moves.refl _ _
    | (with_reducible apply Moves.next ?hm (raiseMgcTile_moves ..) ?_; (case hm => decide))
    | (with_reducible apply Moves.next ?hm (setF_moves ..) ?_; (case hm => decide))

theorem pumpPerm_moves (s) : Moves 0x800000060002078 s (pumpPerm s) := by
  unfold pumpPerm
  repeat' first
    | (extract_lets +onlyGivenNames t; refine Moves.cut (t := t) ?_ (fun ht => ?_); (on_goal 2 => (clear_value t; revert t; intro _ _)); (on_goal 1 => (unfold t; clear t)))
    | (extract_lets +onlyGivenNames x; clear_value x; revert x; intro _)
    | with_reducible apply Moves.ite
    | with_reducible exact Moves.refl _ _
    | with_reducible assumption
    | (with_reducible apply Moves.next ?hm (startMove_moves ..) ?_; (case hm => decide))
    | (with_reducible apply Moves.next ?hm (sparesGone_moves ..) ?_; (case hm => decide))
    | with_reducible apply Moves.foldl _ (fun s x => ?_) _ ?_
    | split
    | refine Moves.upd rfl (fun h => by cases h; constructor <;> first | assumption | (try dsimp only; first | exact mapSet_wf _ _ _ _ (by assumption) | exact mapMod_wf _ _ _ _ (by assumption) | exact mapDrop_wf _ _ _ (by assumption) | exact mapFilter_wf _ _ _ (by assumption) | exact pokeBytes_wf _ _ _ (by assumption) | exact foldl_wf _ _ (fun _ _ h => mapSet_wf _ _ _ _ h) _ (by assumption) | exact foldl_wf _ _ (fun _ _ h => mapMod_wf _ _ _ _ h) _ (by assumption) | exact rfl)) ?_

theorem condemn_moves (s p repl) : Moves 0x808000060002078 s (condemn s p repl) := by
  unfold condemn
  repeat' first
    | with_reducible apply Moves.ite
    | with_reducible exact Moves.refl _ _
    | (with_reducible apply Moves.next ?hm (retireTile_moves ..) ?_; (case hm => decide))
    | (with_reducible apply Moves.next ?hm (pumpPerm_moves ..) ?_; (case hm => decide))
    | split
    | refine Moves.upd rfl (fun h => by cases h; constructor <;> first | assumption | (try dsimp only; first | exact mapSet_wf _ _ _ _ (by assumption) | exact mapMod_wf _ _ _ _ (by assumption) | exact mapDrop_wf _ _ _ (by assumption) | exact mapFilter_wf _ _ _ (by assumption) | exact pokeBytes_wf _ _ _ (by assumption) | exact foldl_wf _ _ (fun _ _ h => mapSet_wf _ _ _ _ h) _ (by assumption) | exact foldl_wf _ _ (fun _ _ h => mapMod_wf _ _ _ _ h) _ (by assumption) | exact rfl)) ?_

theorem dropPerm_moves (s) : Moves 0x808400020003038 s (dropPerm s) := by
  unfold dropPerm
  repeat' first
    | (extract_lets +onlyGivenNames t; refine Moves.cut (t := t) ?_ (fun ht => ?_); (on_goal 2 => (clear_value t; revert t; intro _ _)); (on_goal 1 => (unfold t; clear t)))
    | (extract_lets +onlyGivenNames x; clear_value x; revert x; intro _)
    | with_reducible apply Moves.ite
    | with_reducible exact Moves.refl _ _
    | with_reducible assumption
    | (with_reducible apply Moves.next ?hm (setTmap_moves ..) ?_; (case hm => decide))
    | (with_reducible apply Moves.next ?hm (changeKey_moves ..) ?_; (case hm => decide))
    | (with_reducible apply Moves.next ?hm (retireTile_moves ..) ?_; (case hm => decide))
    | with_reducible apply Moves.foldl _ (fun s x => ?_) _ ?_
    | split
    | refine Moves.upd rfl (fun h => by cases h; constructor <;> first | assumption | (try dsimp only; first | exact mapSet_wf _ _ _ _ (by assumption) | exact mapMod_wf _ _ _ _ (by assumption) | exact mapDrop_wf _ _ _ (by assumption) | exact mapFilter_wf _ _ _ (by assumption) | exact pokeBytes_wf _ _ _ (by assumption) | exact foldl_wf _ _ (fun _ _ h => mapSet_wf _ _ _ _ h) _ (by assumption) | exact foldl_wf _ _ (fun _ _ h => mapMod_wf _ _ _ _ h) _ (by assumption) | exact rfl)) ?_

theorem startTest_moves (s p) : Moves 0x80002008 s (startTest s p) := by
  unfold startTest
  repeat' first
    | (extract_lets +onlyGivenNames t; refine Moves.cut (t := t) ?_ (fun ht => ?_); (on_goal 2 => (clear_value t; revert t; intro _ _)); (on_goal 1 => (unfold t; clear t)))
    | with_reducible exact Moves.refl _ _
    | with_reducible assumption
    | (with_reducible apply Moves.next ?hm (setF_moves ..) ?_; (case hm => decide))
    | (with_reducible apply Moves.next ?hm (setPtile_moves ..) ?_; (case hm => decide))
    | refine Moves.upd rfl (fun h => by cases h; constructor <;> first | assumption | (try dsimp only; first | exact mapSet_wf _ _ _ _ (by assumption) | exact mapMod_wf _ _ _ _ (by assumption) | exact mapDrop_wf _ _ _ (by assumption) | exact mapFilter_wf _ _ _ (by assumption) | exact pokeBytes_wf _ _ _ (by assumption) | exact foldl_wf _ _ (fun _ _ h => mapSet_wf _ _ _ _ h) _ (by assumption) | exact foldl_wf _ _ (fun _ _ h => mapMod_wf _ _ _ _ h) _ (by assumption) | exact rfl)) ?_

theorem resumeMoved_moves (s m') : Moves 0x8000000009003f8 s (resumeMoved s m') := by
  unfold resumeMoved
  repeat' first
    | with_reducible apply Moves.ite
    | with_reducible exact Moves.refl _ _
    | (with_reducible apply Moves.next ?hm (resumeEngine_moves ..) ?_; (case hm => decide))
    | with_reducible apply Moves.foldl _ (fun s x => ?_) _ ?_

theorem finishMigrate_moves (s m') : Moves 0x8080000c0913bf8 s (finishMigrate s m') := by
  unfold finishMigrate
  repeat' first
    | (extract_lets +onlyGivenNames t; refine Moves.cut (t := t) ?_ (fun ht => ?_); (on_goal 2 => (clear_value t; revert t; intro _ _)); (on_goal 1 => (unfold t; clear t)))
    | (extract_lets +onlyGivenNames x; clear_value x; revert x; intro _)
    | with_reducible apply Moves.ite
    | with_reducible exact Moves.refl _ _
    | with_reducible assumption
    | (with_reducible apply Moves.next ?hm (startTest_moves ..) ?_; (case hm => decide))
    | (with_reducible apply Moves.next ?hm (sparedRec_moves ..) ?_; (case hm => decide))
    | (with_reducible apply Moves.next ?hm (resumeMoved_moves ..) ?_; (case hm => decide))
    | (with_reducible apply Moves.next ?hm (zeroTile_moves ..) ?_; (case hm => decide))
    | (with_reducible apply Moves.next ?hm (moveTile_moves ..) ?_; (case hm => decide))
    | (with_reducible apply Moves.next ?hm (setTmap_moves ..) ?_; (case hm => decide))
    | (with_reducible apply Moves.next ?hm (setPtile_moves ..) ?_; (case hm => decide))
    | (with_reducible apply Moves.next ?hm (retireTile_moves ..) ?_; (case hm => decide))
    | refine Moves.upd rfl (fun h => by cases h; constructor <;> first | assumption | (try dsimp only; first | exact mapSet_wf _ _ _ _ (by assumption) | exact mapMod_wf _ _ _ _ (by assumption) | exact mapDrop_wf _ _ _ (by assumption) | exact mapFilter_wf _ _ _ (by assumption) | exact pokeBytes_wf _ _ _ (by assumption) | exact foldl_wf _ _ (fun _ _ h => mapSet_wf _ _ _ _ h) _ (by assumption) | exact foldl_wf _ _ (fun _ _ h => mapMod_wf _ _ _ _ h) _ (by assumption) | exact rfl)) ?_

theorem finishReplace_moves (s m') : Moves 0x8080040409133f8 s (finishReplace s m') := by
  unfold finishReplace
  repeat' first
    | (extract_lets +onlyGivenNames t; refine Moves.cut (t := t) ?_ (fun ht => ?_); (on_goal 2 => (clear_value t; revert t; intro _ _)); (on_goal 1 => (unfold t; clear t)))
    | (extract_lets +onlyGivenNames x; clear_value x; revert x; intro _)
    | with_reducible exact Moves.refl _ _
    | with_reducible assumption
    | (with_reducible apply Moves.next ?hm (sparedRec_moves ..) ?_; (case hm => decide))
    | (with_reducible apply Moves.next ?hm (zeroTile_moves ..) ?_; (case hm => decide))
    | (with_reducible apply Moves.next ?hm (setTmap_moves ..) ?_; (case hm => decide))
    | (with_reducible apply Moves.next ?hm (orphanMembers_moves ..) ?_; (case hm => decide))
    | (with_reducible apply Moves.next ?hm (setPtile_moves ..) ?_; (case hm => decide))
    | (with_reducible apply Moves.next ?hm (nextGen_moves ..) ?_; (case hm => decide))
    | (with_reducible apply Moves.next ?hm (retireTile_moves ..) ?_; (case hm => decide))
    | refine Moves.upd rfl (fun h => by cases h; constructor <;> first | assumption | (try dsimp only; first | exact mapSet_wf _ _ _ _ (by assumption) | exact mapMod_wf _ _ _ _ (by assumption) | exact mapDrop_wf _ _ _ (by assumption) | exact mapFilter_wf _ _ _ (by assumption) | exact pokeBytes_wf _ _ _ (by assumption) | exact foldl_wf _ _ (fun _ _ h => mapSet_wf _ _ _ _ h) _ (by assumption) | exact foldl_wf _ _ (fun _ _ h => mapMod_wf _ _ _ _ h) _ (by assumption) | exact rfl)) ?_

theorem copyTimeout_moves (s d) : Moves 0x40000000 s (copyTimeout s d) := by
  unfold copyTimeout
  repeat' first
    | with_reducible apply Moves.ite
    | with_reducible exact Moves.refl _ _
    | split
    | refine Moves.upd rfl (fun h => by cases h; constructor <;> first | assumption | (try dsimp only; first | exact mapSet_wf _ _ _ _ (by assumption) | exact mapMod_wf _ _ _ _ (by assumption) | exact mapDrop_wf _ _ _ (by assumption) | exact mapFilter_wf _ _ _ (by assumption) | exact pokeBytes_wf _ _ _ (by assumption) | exact foldl_wf _ _ (fun _ _ h => mapSet_wf _ _ _ _ h) _ (by assumption) | exact foldl_wf _ _ (fun _ _ h => mapMod_wf _ _ _ _ h) _ (by assumption) | exact rfl)) ?_

theorem moveComplete_moves (s) : Moves 0x8080040e0913bf8 s (moveComplete s) := by
  unfold moveComplete
  repeat' first
    | with_reducible apply Moves.ite
    | with_reducible exact Moves.refl _ _
    | (with_reducible apply Moves.next ?hm (finishReplace_moves ..) ?_; (case hm => decide))
    | (with_reducible apply Moves.next ?hm (finishMigrate_moves ..) ?_; (case hm => decide))
    | (with_reducible apply Moves.next ?hm (pumpPerm_moves ..) ?_; (case hm => decide))
    | split

theorem abandonMove_moves (s d) : Moves 0x8000000409123f8 s (abandonMove s d) := by
  unfold abandonMove
  repeat' first
    | (extract_lets +onlyGivenNames t; refine Moves.cut (t := t) ?_ (fun ht => ?_); (on_goal 2 => (clear_value t; revert t; intro _ _)); (on_goal 1 => (unfold t; clear t)))
    | (extract_lets +onlyGivenNames x; clear_value x; revert x; intro _)
    | with_reducible apply Moves.ite
    | with_reducible exact Moves.refl _ _
    | with_reducible assumption
    | (with_reducible apply Moves.next ?hm (zeroTile_moves ..) ?_; (case hm => decide))
    | (with_reducible apply Moves.next ?hm (modEng_moves ..) ?_; (case hm => decide))
    | (with_reducible apply Moves.next ?hm (resumeEngine_moves ..) ?_; (case hm => decide))
    | (with_reducible apply Moves.next ?hm (setPtile_moves ..) ?_; (case hm => decide))
    | (with_reducible apply Moves.next ?hm (modTile_moves ..) ?_; (case hm => decide))
    | with_reducible apply Moves.foldl _ (fun s x => ?_) _ ?_
    | split
    | refine Moves.upd rfl (fun h => by cases h; constructor <;> first | assumption | (try dsimp only; first | exact mapSet_wf _ _ _ _ (by assumption) | exact mapMod_wf _ _ _ _ (by assumption) | exact mapDrop_wf _ _ _ (by assumption) | exact mapFilter_wf _ _ _ (by assumption) | exact pokeBytes_wf _ _ _ (by assumption) | exact foldl_wf _ _ (fun _ _ h => mapSet_wf _ _ _ _ h) _ (by assumption) | exact foldl_wf _ _ (fun _ _ h => mapMod_wf _ _ _ _ h) _ (by assumption) | exact rfl)) ?_

theorem tileRotation_moves (s) : Moves 0x200000340002040 s (tileRotation s) := by
  unfold tileRotation
  repeat' first
    | (extract_lets +onlyGivenNames x; clear_value x; revert x; intro _)
    | with_reducible apply Moves.ite
    | with_reducible exact Moves.refl _ _
    | (with_reducible apply Moves.next ?hm (setTimer_moves ..) ?_; (case hm => decide))
    | (with_reducible apply Moves.next ?hm (startMove_moves ..) ?_; (case hm => decide))
    | split
    | refine Moves.upd rfl (fun h => by cases h; constructor <;> first | assumption | (try dsimp only; first | exact mapSet_wf _ _ _ _ (by assumption) | exact mapMod_wf _ _ _ _ (by assumption) | exact mapDrop_wf _ _ _ (by assumption) | exact mapFilter_wf _ _ _ (by assumption) | exact pokeBytes_wf _ _ _ (by assumption) | exact foldl_wf _ _ (fun _ _ h => mapSet_wf _ _ _ _ h) _ (by assumption) | exact foldl_wf _ _ (fun _ _ h => mapMod_wf _ _ _ _ h) _ (by assumption) | exact rfl)) ?_

theorem testState_moves (s v) : Moves 0x8 s (testState s v) := by
  unfold testState
  repeat' first
    | with_reducible exact Moves.refl _ _
    | (with_reducible apply Moves.next ?hm (setF_moves ..) ?_; (case hm => decide))

theorem testFailed_moves (s p run) : Moves 0x80000000000003c s (testFailed s p run) := by
  unfold testFailed
  repeat' first
    | with_reducible exact Moves.refl _ _
    | (with_reducible apply Moves.next ?hm (freshWord_moves ..) ?_; (case hm => decide))
    | (with_reducible apply Moves.next ?hm (raiseMgcTile_moves ..) ?_; (case hm => decide))

theorem tileTestComplete_moves (s pass) : Moves 0x8084000e00120fc s (tileTestComplete s pass) := by
  unfold tileTestComplete
  repeat' first
    | (extract_lets +onlyGivenNames t; refine Moves.cut (t := t) ?_ (fun ht => ?_); (on_goal 2 => (clear_value t; revert t; intro _ _)); (on_goal 1 => (unfold t; clear t)))
    | with_reducible apply Moves.ite
    | with_reducible exact Moves.refl _ _
    | with_reducible assumption
    | (with_reducible apply Moves.next ?hm (testState_moves ..) ?_; (case hm => decide))
    | (with_reducible apply Moves.next ?hm (zeroTile_moves ..) ?_; (case hm => decide))
    | (with_reducible apply Moves.next ?hm (logLedger_moves ..) ?_; (case hm => decide))
    | (with_reducible apply Moves.next ?hm (testFailed_moves ..) ?_; (case hm => decide))
    | (with_reducible apply Moves.next ?hm (setPtile_moves ..) ?_; (case hm => decide))
    | (with_reducible apply Moves.next ?hm (retireTile_moves ..) ?_; (case hm => decide))
    | (with_reducible apply Moves.next ?hm (bumpLife_moves ..) ?_; (case hm => decide))
    | (with_reducible apply Moves.next ?hm (pumpPerm_moves ..) ?_; (case hm => decide))
    | split
    | refine Moves.upd rfl (fun h => by cases h; constructor <;> first | assumption | (try dsimp only; first | exact mapSet_wf _ _ _ _ (by assumption) | exact mapMod_wf _ _ _ _ (by assumption) | exact mapDrop_wf _ _ _ (by assumption) | exact mapFilter_wf _ _ _ (by assumption) | exact pokeBytes_wf _ _ _ (by assumption) | exact foldl_wf _ _ (fun _ _ h => mapSet_wf _ _ _ _ h) _ (by assumption) | exact foldl_wf _ _ (fun _ _ h => mapMod_wf _ _ _ _ h) _ (by assumption) | exact rfl)) ?_

theorem testRotation_moves (s) : Moves 0x200000008 s (testRotation s) := by
  unfold testRotation
  repeat' first
    | (extract_lets +onlyGivenNames t; refine Moves.cut (t := t) ?_ (fun ht => ?_); (on_goal 2 => (clear_value t; revert t; intro _ _)); (on_goal 1 => (unfold t; clear t)))
    | with_reducible apply Moves.ite
    | with_reducible exact Moves.refl _ _
    | with_reducible assumption
    | (with_reducible apply Moves.next ?hm (testState_moves ..) ?_; (case hm => decide))
    | refine Moves.upd rfl (fun h => by cases h; constructor <;> first | assumption | (try dsimp only; first | exact mapSet_wf _ _ _ _ (by assumption) | exact mapMod_wf _ _ _ _ (by assumption) | exact mapDrop_wf _ _ _ (by assumption) | exact mapFilter_wf _ _ _ (by assumption) | exact pokeBytes_wf _ _ _ (by assumption) | exact foldl_wf _ _ (fun _ _ h => mapSet_wf _ _ _ _ h) _ (by assumption) | exact foldl_wf _ _ (fun _ _ h => mapMod_wf _ _ _ _ h) _ (by assumption) | exact rfl)) ?_

theorem startBist_moves (s) : Moves 0x480000008 s (startBist s) := by
  unfold startBist
  repeat' first
    | with_reducible exact Moves.refl _ _
    | (with_reducible apply Moves.next ?hm (testState_moves ..) ?_; (case hm => decide))
    | refine Moves.upd rfl (fun h => by cases h; constructor <;> first | assumption | (try dsimp only; first | exact mapSet_wf _ _ _ _ (by assumption) | exact mapMod_wf _ _ _ _ (by assumption) | exact mapDrop_wf _ _ _ (by assumption) | exact mapFilter_wf _ _ _ (by assumption) | exact pokeBytes_wf _ _ _ (by assumption) | exact foldl_wf _ _ (fun _ _ h => mapSet_wf _ _ _ _ h) _ (by assumption) | exact foldl_wf _ _ (fun _ _ h => mapMod_wf _ _ _ _ h) _ (by assumption) | exact rfl)) ?_

theorem testBist_moves (s) : Moves 0x480000008 s (testBist s) := by
  unfold testBist
  repeat' first
    | with_reducible apply Moves.ite
    | with_reducible exact Moves.refl _ _
    | (with_reducible apply Moves.next ?hm (testState_moves ..) ?_; (case hm => decide))
    | (with_reducible apply Moves.next ?hm (startBist_moves ..) ?_; (case hm => decide))
    | refine Moves.upd rfl (fun h => by cases h; constructor <;> first | assumption | (try dsimp only; first | exact mapSet_wf _ _ _ _ (by assumption) | exact mapMod_wf _ _ _ _ (by assumption) | exact mapDrop_wf _ _ _ (by assumption) | exact mapFilter_wf _ _ _ (by assumption) | exact pokeBytes_wf _ _ _ (by assumption) | exact foldl_wf _ _ (fun _ _ h => mapSet_wf _ _ _ _ h) _ (by assumption) | exact foldl_wf _ _ (fun _ _ h => mapMod_wf _ _ _ _ h) _ (by assumption) | exact rfl)) ?_

theorem bistComplete_moves (s failed) : Moves 0x8084000e0002078 s (bistComplete s failed) := by
  unfold bistComplete
  repeat' first
    | (extract_lets +onlyGivenNames t; refine Moves.cut (t := t) ?_ (fun ht => ?_); (on_goal 2 => (clear_value t; revert t; intro _ _)); (on_goal 1 => (unfold t; clear t)))
    | with_reducible apply Moves.ite
    | with_reducible exact Moves.refl _ _
    | with_reducible assumption
    | (with_reducible apply Moves.next ?hm (testState_moves ..) ?_; (case hm => decide))
    | (with_reducible apply Moves.next ?hm (logLedger_moves ..) ?_; (case hm => decide))
    | (with_reducible apply Moves.next ?hm (condemn_moves ..) ?_; (case hm => decide))
    | (with_reducible apply Moves.next ?hm (bumpLife_moves ..) ?_; (case hm => decide))
    | with_reducible apply Moves.foldl _ (fun s x => ?_) _ ?_
    | split
    | refine Moves.upd rfl (fun h => by cases h; constructor <;> first | assumption | (try dsimp only; first | exact mapSet_wf _ _ _ _ (by assumption) | exact mapMod_wf _ _ _ _ (by assumption) | exact mapDrop_wf _ _ _ (by assumption) | exact mapFilter_wf _ _ _ (by assumption) | exact pokeBytes_wf _ _ _ (by assumption) | exact foldl_wf _ _ (fun _ _ h => mapSet_wf _ _ _ _ h) _ (by assumption) | exact foldl_wf _ _ (fun _ _ h => mapMod_wf _ _ _ _ h) _ (by assumption) | exact rfl)) ?_

theorem enterIdle_moves (s) : Moves 0x8084004a0003038 s (enterIdle s) := by
  unfold enterIdle
  repeat' first
    | (extract_lets +onlyGivenNames t; refine Moves.cut (t := t) ?_ (fun ht => ?_); (on_goal 2 => (clear_value t; revert t; intro _ _)); (on_goal 1 => (unfold t; clear t)))
    | with_reducible apply Moves.ite
    | with_reducible exact Moves.refl _ _
    | with_reducible assumption
    | (with_reducible apply Moves.next ?hm (dropPerm_moves ..) ?_; (case hm => decide))
    | (with_reducible apply Moves.next ?hm (startBist_moves ..) ?_; (case hm => decide))

theorem sendPush_moves (s a) : Moves 0x110000 s (sendPush s a) := by
  unfold sendPush
  repeat' first
    | (extract_lets +onlyGivenNames t; refine Moves.cut (t := t) ?_ (fun ht => ?_); (on_goal 2 => (clear_value t; revert t; intro _ _)); (on_goal 1 => (unfold t; clear t)))
    | (extract_lets +onlyGivenNames x; clear_value x; revert x; intro _)
    | with_reducible exact Moves.refl _ _
    | with_reducible assumption
    | (with_reducible apply Moves.next ?hm (sendPkt_moves ..) ?_; (case hm => decide))
    | (with_reducible apply Moves.next ?hm (lineReqs_moves ..) ?_; (case hm => decide))

theorem pushDone_moves (s) : Moves 0x800000000000038 s (pushDone s) := by
  unfold pushDone
  repeat' first
    | with_reducible exact Moves.refl _ _
    | (with_reducible apply Moves.next ?hm (raiseMgc_moves ..) ?_; (case hm => decide))

theorem mirrorPush_moves (s node) : Moves 0x800003800110038 s (mirrorPush s node) := by
  unfold mirrorPush
  repeat' first
    | (extract_lets +onlyGivenNames t; refine Moves.cut (t := t) ?_ (fun ht => ?_); (on_goal 2 => (clear_value t; revert t; intro _ _)); (on_goal 1 => (unfold t; clear t)))
    | (extract_lets +onlyGivenNames x; clear_value x; revert x; intro _)
    | with_reducible apply Moves.ite
    | with_reducible exact Moves.refl _ _
    | with_reducible assumption
    | (with_reducible apply Moves.next ?hm (sendPush_moves ..) ?_; (case hm => decide))
    | (with_reducible apply Moves.next ?hm (pushDone_moves ..) ?_; (case hm => decide))
    | (with_reducible apply Moves.next ?hm (setF_moves ..) ?_; (case hm => decide))
    | with_reducible apply Moves.foldl _ (fun s x => ?_) _ ?_
    | refine Moves.upd rfl (fun h => by cases h; constructor <;> first | assumption | (try dsimp only; first | exact mapSet_wf _ _ _ _ (by assumption) | exact mapMod_wf _ _ _ _ (by assumption) | exact mapDrop_wf _ _ _ (by assumption) | exact mapFilter_wf _ _ _ (by assumption) | exact pokeBytes_wf _ _ _ (by assumption) | exact foldl_wf _ _ (fun _ _ h => mapSet_wf _ _ _ _ h) _ (by assumption) | exact foldl_wf _ _ (fun _ _ h => mapMod_wf _ _ _ _ h) _ (by assumption) | exact rfl)) ?_

theorem pushAnswered_moves (s a ok) : Moves 0x800002800110038 s (pushAnswered s a ok) := by
  unfold pushAnswered
  repeat' first
    | (extract_lets +onlyGivenNames t; refine Moves.cut (t := t) ?_ (fun ht => ?_); (on_goal 2 => (clear_value t; revert t; intro _ _)); (on_goal 1 => (unfold t; clear t)))
    | (extract_lets +onlyGivenNames x; clear_value x; revert x; intro _)
    | with_reducible apply Moves.ite
    | with_reducible exact Moves.refl _ _
    | with_reducible assumption
    | (with_reducible apply Moves.next ?hm (sendPush_moves ..) ?_; (case hm => decide))
    | (with_reducible apply Moves.next ?hm (pushDone_moves ..) ?_; (case hm => decide))
    | (with_reducible apply Moves.next ?hm (setF_moves ..) ?_; (case hm => decide))
    | split
    | refine Moves.upd rfl (fun h => by cases h; constructor <;> first | assumption | (try dsimp only; first | exact mapSet_wf _ _ _ _ (by assumption) | exact mapMod_wf _ _ _ _ (by assumption) | exact mapDrop_wf _ _ _ (by assumption) | exact mapFilter_wf _ _ _ (by assumption) | exact pokeBytes_wf _ _ _ (by assumption) | exact foldl_wf _ _ (fun _ _ h => mapSet_wf _ _ _ _ h) _ (by assumption) | exact foldl_wf _ _ (fun _ _ h => mapMod_wf _ _ _ _ h) _ (by assumption) | exact rfl)) ?_

theorem fenceRecord_moves (s node mark) : Moves 0x8 s (fenceRecord s node mark) := by
  unfold fenceRecord
  repeat' first
    | with_reducible apply Moves.ite
    | with_reducible exact Moves.refl _ _
    | (with_reducible apply Moves.next ?hm (setF_moves ..) ?_; (case hm => decide))

theorem sweptTile_moves (s p errs) : Moves 0x808000060002078 s (sweptTile s p errs) := by
  unfold sweptTile
  repeat' first
    | (extract_lets +onlyGivenNames x; clear_value x; revert x; intro _)
    | with_reducible apply Moves.ite
    | with_reducible exact Moves.refl _ _
    | (with_reducible apply Moves.next ?hm (condemn_moves ..) ?_; (case hm => decide))

theorem takePage_moves (skip s x) : Moves 0x30 s (takePage skip s x) := by
  unfold takePage
  repeat' first
    | (extract_lets +onlyGivenNames t; refine Moves.cut (t := t) ?_ (fun ht => ?_); (on_goal 2 => (clear_value t; revert t; intro _ _)); (on_goal 1 => (unfold t; clear t)))
    | (extract_lets +onlyGivenNames x; clear_value x; revert x; intro _)
    | with_reducible exact Moves.refl _ _
    | with_reducible assumption
    | (with_reducible apply Moves.next ?hm (writeBytes_moves ..) ?_; (case hm => decide))
    | (with_reducible apply Moves.next ?hm (ashWr_moves ..) ?_; (case hm => decide))

theorem takeTile_moves (num s p) : Moves 0x30 s (takeTile num s p) := by
  unfold takeTile
  repeat' first
    | (extract_lets +onlyGivenNames t; refine Moves.cut (t := t) ?_ (fun ht => ?_); (on_goal 2 => (clear_value t; revert t; intro _ _)); (on_goal 1 => (unfold t; clear t)))
    | (extract_lets +onlyGivenNames x; clear_value x; revert x; intro _)
    | with_reducible exact Moves.refl _ _
    | with_reducible assumption
    | (with_reducible apply Moves.next ?hm (writeBytes_moves ..) ?_; (case hm => decide))
    | (with_reducible apply Moves.next ?hm (ashWr_moves ..) ?_; (case hm => decide))

theorem collect_moves (s d) : Moves 0x30 s (collect s d) := by
  unfold collect
  repeat' first
    | (extract_lets +onlyGivenNames x; clear_value x; revert x; intro _)
    | with_reducible apply Moves.ite
    | with_reducible exact Moves.refl _ _
    | (with_reducible apply Moves.next ?hm (setFlag_moves ..) ?_; (case hm => decide))
    | (with_reducible apply Moves.next ?hm (takeTile_moves ..) ?_; (case hm => decide))
    | (with_reducible apply Moves.next ?hm (takePage_moves ..) ?_; (case hm => decide))
    | (with_reducible apply Moves.next ?hm (writeBytes_moves ..) ?_; (case hm => decide))
    | (with_reducible apply Moves.next ?hm (ashWr_moves ..) ?_; (case hm => decide))
    | with_reducible apply Moves.foldl _ (fun s x => ?_) _ ?_
    | split

theorem resetPages_moves (s d) : Moves 0x400000000000008 s (resetPages s d) := by
  unfold resetPages
  repeat' first
    | with_reducible exact Moves.refl _ _
    | refine Moves.upd rfl (fun h => by cases h; constructor <;> first | assumption | (try dsimp only; first | exact mapSet_wf _ _ _ _ (by assumption) | exact mapMod_wf _ _ _ _ (by assumption) | exact mapDrop_wf _ _ _ (by assumption) | exact mapFilter_wf _ _ _ (by assumption) | exact pokeBytes_wf _ _ _ (by assumption) | exact foldl_wf _ _ (fun _ _ h => mapSet_wf _ _ _ _ h) _ (by assumption) | exact foldl_wf _ _ (fun _ _ h => mapMod_wf _ _ _ _ h) _ (by assumption) | exact rfl)) ?_

theorem setReady_moves (s d) : Moves 0x8 s (setReady s d) := by
  unfold setReady
  repeat' first
    | with_reducible exact Moves.refl _ _
    | (with_reducible apply Moves.next ?hm (wrF_moves ..) ?_; (case hm => decide))
    | with_reducible apply Moves.foldl _ (fun s x => ?_) _ ?_

theorem admitDomain_moves (s d) : Moves 0x800004000000038 s (admitDomain s d) := by
  unfold admitDomain
  repeat' first
    | (extract_lets +onlyGivenNames t; refine Moves.cut (t := t) ?_ (fun ht => ?_); (on_goal 2 => (clear_value t; revert t; intro _ _)); (on_goal 1 => (unfold t; clear t)))
    | (extract_lets +onlyGivenNames x; clear_value x; revert x; intro _)
    | with_reducible apply Moves.ite
    | with_reducible exact Moves.refl _ _
    | with_reducible assumption
    | (with_reducible apply Moves.next ?hm (setFlag_moves ..) ?_; (case hm => decide))
    | (with_reducible apply Moves.next ?hm (raiseMgcTile_moves ..) ?_; (case hm => decide))
    | (with_reducible apply Moves.next ?hm (setF_moves ..) ?_; (case hm => decide))
    | (with_reducible apply Moves.next ?hm (setReady_moves ..) ?_; (case hm => decide))
    | (with_reducible apply Moves.next ?hm (setDom_moves ..) ?_; (case hm => decide))

end Sys2Proof.Laws
end

