-- ==== Sys2Proof/Laws/MovesFabric.lean ====
section
/-! SUPPORT. What each operation may change: the flues, digests, the step mark, the collective engines and the clock. One lemma for each, of the form of Laws/Moves.lean. -/
set_option linter.unusedVariables false
set_option linter.unusedTactic false
set_option linter.unreachableTactic false
set_option linter.tactic.unusedName false
namespace Sys2Proof.Laws
open Sys2Proof.Machine

theorem setFlueState_moves (s f v) : Moves 0x8 s (setFlueState s f v) := by
  unfold setFlueState
  repeat' first
    | with_reducible exact Moves.refl _ _
    | (with_reducible apply Moves.next ?hm (setF_moves ..) ?_; (case hm => decide))

theorem modFlue_moves (s f g) : Moves 0x80000 s (modFlue s f g) := by
  unfold modFlue
  repeat' first
    | with_reducible exact Moves.refl _ _
    | (with_reducible apply Moves.next ?hm (setFlue_moves ..) ?_; (case hm => decide))

theorem setLogLane_moves (s f n v) : Moves 0x8 s (setLogLane s f n v) := by
  unfold setLogLane
  repeat' first
    | with_reducible exact Moves.refl _ _
    | (with_reducible apply Moves.next ?hm (regSet_moves ..) ?_; (case hm => decide))

theorem setLState_moves (s f l v) : Moves 0x8 s (setLState s f l v) := by
  unfold setLState
  repeat' first
    | with_reducible exact Moves.refl _ _
    | (with_reducible apply Moves.next ?hm (setFi_moves ..) ?_; (case hm => decide))

theorem flueRec_moves (s f code lane cause) : Moves 0x800000000000038 s (flueRec s f code lane cause) := by
  unfold flueRec
  repeat' first
    | with_reducible exact Moves.refl _ _
    | (with_reducible apply Moves.next ?hm (raise_moves ..) ?_; (case hm => decide))

theorem flueClear_moves (s f) : Moves 0x400004000180038 s (flueClear s f) := by
  unfold flueClear
  repeat' first
    | (extract_lets +onlyGivenNames t; refine Moves.cut (t := t) ?_ (fun ht => ?_); (on_goal 2 => (clear_value t; revert t; intro _ _)); (on_goal 1 => (unfold t; clear t)))
    | (extract_lets +onlyGivenNames x; clear_value x; revert x; intro _)
    | with_reducible apply Moves.ite
    | with_reducible exact Moves.refl _ _
    | with_reducible assumption
    | (with_reducible apply Moves.next ?hm (resetPages_moves ..) ?_; (case hm => decide))
    | (with_reducible apply Moves.next ?hm (addF_moves ..) ?_; (case hm => decide))
    | (with_reducible apply Moves.next ?hm (setF_moves ..) ?_; (case hm => decide))
    | (with_reducible apply Moves.next ?hm (setFlueState_moves ..) ?_; (case hm => decide))
    | (with_reducible apply Moves.next ?hm (setFlue_moves ..) ?_; (case hm => decide))
    | (with_reducible apply Moves.next ?hm (nextGen_moves ..) ?_; (case hm => decide))
    | refine Moves.upd rfl (fun h => by cases h; constructor <;> first | assumption | (try dsimp only; first | exact mapSet_wf _ _ _ _ (by assumption) | exact mapMod_wf _ _ _ _ (by assumption) | exact mapDrop_wf _ _ _ (by assumption) | exact mapFilter_wf _ _ _ (by assumption) | exact pokeBytes_wf _ _ _ (by assumption) | exact foldl_wf _ _ (fun _ _ h => mapSet_wf _ _ _ _ h) _ (by assumption) | exact foldl_wf _ _ (fun _ _ h => mapMod_wf _ _ _ _ h) _ (by assumption) | exact rfl)) ?_

theorem flueDown_moves (s f lane cause) : Moves 0xc00004000180038 s (flueDown s f lane cause) := by
  unfold flueDown
  repeat' first
    | (extract_lets +onlyGivenNames t; refine Moves.cut (t := t) ?_ (fun ht => ?_); (on_goal 2 => (clear_value t; revert t; intro _ _)); (on_goal 1 => (unfold t; clear t)))
    | with_reducible exact Moves.refl _ _
    | with_reducible assumption
    | (with_reducible apply Moves.next ?hm (collect_moves ..) ?_; (case hm => decide))
    | (with_reducible apply Moves.next ?hm (beginDump_moves ..) ?_; (case hm => decide))
    | (with_reducible apply Moves.next ?hm (setF_moves ..) ?_; (case hm => decide))
    | (with_reducible apply Moves.next ?hm (flueClear_moves ..) ?_; (case hm => decide))
    | (with_reducible apply Moves.next ?hm (flueRec_moves ..) ?_; (case hm => decide))

theorem frameLockLost_moves (s f) : Moves 0xc00004000180038 s (frameLockLost s f) := by
  unfold frameLockLost
  repeat' first
    | with_reducible apply Moves.ite
    | with_reducible exact Moves.refl _ _
    | (with_reducible apply Moves.next ?hm (flueDown_moves ..) ?_; (case hm => decide))

theorem flReset_moves (s f) : Moves 0xc00004000180038 s (flReset s f) := by
  unfold flReset
  repeat' first
    | with_reducible exact Moves.refl _ _
    | (with_reducible apply Moves.next ?hm (flueDown_moves ..) ?_; (case hm => decide))
    | (with_reducible apply Moves.next ?hm (modFlue_moves ..) ?_; (case hm => decide))

theorem flEnWrite_moves (s f v) : Moves 0xc00004000180038 s (flEnWrite s f v) := by
  unfold flEnWrite
  repeat' first
    | (extract_lets +onlyGivenNames t; refine Moves.cut (t := t) ?_ (fun ht => ?_); (on_goal 2 => (clear_value t; revert t; intro _ _)); (on_goal 1 => (unfold t; clear t)))
    | with_reducible apply Moves.ite
    | with_reducible exact Moves.refl _ _
    | with_reducible assumption
    | (with_reducible apply Moves.next ?hm (flueDown_moves ..) ?_; (case hm => decide))
    | (with_reducible apply Moves.next ?hm (modFlue_moves ..) ?_; (case hm => decide))
    | (with_reducible apply Moves.next ?hm (setF_moves ..) ?_; (case hm => decide))
    | (with_reducible apply Moves.next ?hm (setFlueState_moves ..) ?_; (case hm => decide))

theorem putFrame_moves (s f x fr) : Moves 0x80000 s (putFrame s f x fr) := by
  unfold putFrame
  repeat' first
    | (extract_lets +onlyGivenNames x; clear_value x; revert x; intro _)
    | with_reducible exact Moves.refl _ _
    | (with_reducible apply Moves.next ?hm (setFlue_moves ..) ?_; (case hm => decide))

theorem noteDepart_moves (s f) : Moves 0x1000000 s (noteDepart s f) := by
  unfold noteDepart
  repeat' first
    | (extract_lets +onlyGivenNames x; clear_value x; revert x; intro _)
    | with_reducible apply Moves.ite
    | with_reducible exact Moves.refl _ _
    | refine Moves.upd rfl (fun h => by cases h; constructor <;> first | assumption | (try dsimp only; first | exact mapSet_wf _ _ _ _ (by assumption) | exact mapMod_wf _ _ _ _ (by assumption) | exact mapDrop_wf _ _ _ (by assumption) | exact mapFilter_wf _ _ _ (by assumption) | exact pokeBytes_wf _ _ _ (by assumption) | exact foldl_wf _ _ (fun _ _ h => mapSet_wf _ _ _ _ h) _ (by assumption) | exact foldl_wf _ _ (fun _ _ h => mapMod_wf _ _ _ _ h) _ (by assumption) | exact rfl)) ?_

theorem flueTransmit_moves (s f) : Moves 0x1080008 s (flueTransmit s f) := by
  unfold flueTransmit
  repeat' first
    | (extract_lets +onlyGivenNames t; refine Moves.cut (t := t) ?_ (fun ht => ?_); (on_goal 2 => (clear_value t; revert t; intro _ _)); (on_goal 1 => (unfold t; clear t)))
    | (extract_lets +onlyGivenNames x; clear_value x; revert x; intro _)
    | with_reducible apply Moves.ite
    | with_reducible exact Moves.refl _ _
    | with_reducible assumption
    | (with_reducible apply Moves.next ?hm (countPort_moves ..) ?_; (case hm => decide))
    | (with_reducible apply Moves.next ?hm (noteDepart_moves ..) ?_; (case hm => decide))
    | (with_reducible apply Moves.next ?hm (addStat_moves ..) ?_; (case hm => decide))
    | (with_reducible apply Moves.next ?hm (putFrame_moves ..) ?_; (case hm => decide))
    | (with_reducible apply Moves.next ?hm (noteOld_moves ..) ?_; (case hm => decide))
    | with_reducible apply Moves.foldl _ (fun s x => ?_) _ ?_
    | split

theorem takeAck_moves (s f fr) : Moves 0xc00004000180038 s (takeAck s f fr) := by
  unfold takeAck
  repeat' first
    | (extract_lets +onlyGivenNames t; refine Moves.cut (t := t) ?_ (fun ht => ?_); (on_goal 2 => (clear_value t; revert t; intro _ _)); (on_goal 1 => (unfold t; clear t)))
    | (extract_lets +onlyGivenNames x; clear_value x; revert x; intro _)
    | with_reducible apply Moves.ite
    | with_reducible exact Moves.refl _ _
    | with_reducible assumption
    | (with_reducible apply Moves.next ?hm (flueDown_moves ..) ?_; (case hm => decide))
    | (with_reducible apply Moves.next ?hm (modFlue_moves ..) ?_; (case hm => decide))
    | (with_reducible apply Moves.next ?hm (setFlue_moves ..) ?_; (case hm => decide))

theorem rejectFrame_moves (s f) : Moves 0x80008 s (rejectFrame s f) := by
  unfold rejectFrame
  repeat' first
    | with_reducible exact Moves.refl _ _
    | (with_reducible apply Moves.next ?hm (modFlue_moves ..) ?_; (case hm => decide))
    | (with_reducible apply Moves.next ?hm (addF_moves ..) ?_; (case hm => decide))

theorem beginRot_moves (s f lane test rx) : Moves 0x80008 s (beginRot s f lane test rx) := by
  unfold beginRot
  repeat' first
    | (extract_lets +onlyGivenNames t; refine Moves.cut (t := t) ?_ (fun ht => ?_); (on_goal 2 => (clear_value t; revert t; intro _ _)); (on_goal 1 => (unfold t; clear t)))
    | (extract_lets +onlyGivenNames x; clear_value x; revert x; intro _)
    | with_reducible exact Moves.refl _ _
    | with_reducible assumption
    | (with_reducible apply Moves.next ?hm (modFlue_moves ..) ?_; (case hm => decide))
    | (with_reducible apply Moves.next ?hm (setF_moves ..) ?_; (case hm => decide))

theorem takeRot_moves (s f fr) : Moves 0x80008 s (takeRot s f fr) := by
  unfold takeRot
  repeat' first
    | (extract_lets +onlyGivenNames x; clear_value x; revert x; intro _)
    | with_reducible apply Moves.ite
    | with_reducible exact Moves.refl _ _
    | (with_reducible apply Moves.next ?hm (beginRot_moves ..) ?_; (case hm => decide))
    | (with_reducible apply Moves.next ?hm (modFlue_moves ..) ?_; (case hm => decide))
    | split

theorem flueMessage_moves (s f bs) : Moves 0x80000 s (flueMessage s f bs) := by
  unfold flueMessage
  repeat' first
    | (extract_lets +onlyGivenNames x; clear_value x; revert x; intro _)
    | with_reducible exact Moves.refl _ _
    | (with_reducible apply Moves.next ?hm (modFlue_moves ..) ?_; (case hm => decide))
    | with_reducible apply Moves.foldl _ (fun s x => ?_) _ ?_

theorem timeAnswer_moves (s f) : Moves 0x80004 s (timeAnswer s f) := by
  unfold timeAnswer
  repeat' first
    | with_reducible exact Moves.refl _ _
    | (with_reducible apply Moves.next ?hm (freshWord_moves ..) ?_; (case hm => decide))
    | (with_reducible apply Moves.next ?hm (flueMessage_moves ..) ?_; (case hm => decide))

theorem fromFlue_moves (s f p) : Moves 0xa0000c0009803fc s (fromFlue s f p) := by
  unfold fromFlue
  repeat' first
    | with_reducible apply Moves.ite
    | with_reducible exact Moves.refl _ _
    | (with_reducible apply Moves.next ?hm (timeAnswer_moves ..) ?_; (case hm => decide))
    | (with_reducible apply Moves.next ?hm (routerArrive_moves ..) ?_; (case hm => decide))

theorem noteArrive_moves (s f fr) : Moves 0x1000000 s (noteArrive s f fr) := by
  unfold noteArrive
  repeat' first
    | (extract_lets +onlyGivenNames x; clear_value x; revert x; intro _)
    | with_reducible apply Moves.ite
    | with_reducible exact Moves.refl _ _
    | refine Moves.upd rfl (fun h => by cases h; constructor <;> first | assumption | (try dsimp only; first | exact mapSet_wf _ _ _ _ (by assumption) | exact mapMod_wf _ _ _ _ (by assumption) | exact mapDrop_wf _ _ _ (by assumption) | exact mapFilter_wf _ _ _ (by assumption) | exact pokeBytes_wf _ _ _ (by assumption) | exact foldl_wf _ _ (fun _ _ h => mapSet_wf _ _ _ _ h) _ (by assumption) | exact foldl_wf _ _ (fun _ _ h => mapMod_wf _ _ _ _ h) _ (by assumption) | exact rfl)) ?_

theorem flueReceive_moves (s f fr ucw corrected) : Moves 0xe0000c0019803fc s (flueReceive s f fr ucw corrected) := by
  unfold flueReceive
  repeat' first
    | (extract_lets +onlyGivenNames t; refine Moves.cut (t := t) ?_ (fun ht => ?_); (on_goal 2 => (clear_value t; revert t; intro _ _)); (on_goal 1 => (unfold t; clear t)))
    | (extract_lets +onlyGivenNames x; clear_value x; revert x; intro _)
    | with_reducible apply Moves.ite
    | with_reducible exact Moves.refl _ _
    | with_reducible assumption
    | (with_reducible apply Moves.next ?hm (noteArrive_moves ..) ?_; (case hm => decide))
    | (with_reducible apply Moves.next ?hm (modFlue_moves ..) ?_; (case hm => decide))
    | (with_reducible apply Moves.next ?hm (addStat_moves ..) ?_; (case hm => decide))
    | (with_reducible apply Moves.next ?hm (takeRot_moves ..) ?_; (case hm => decide))
    | (with_reducible apply Moves.next ?hm (rejectFrame_moves ..) ?_; (case hm => decide))
    | (with_reducible apply Moves.next ?hm (addF_moves ..) ?_; (case hm => decide))
    | (with_reducible apply Moves.next ?hm (fromFlue_moves ..) ?_; (case hm => decide))
    | (with_reducible apply Moves.next ?hm (takeAck_moves ..) ?_; (case hm => decide))
    | with_reducible apply Moves.foldl _ (fun s x => ?_) _ ?_

theorem laneTrained_moves (s f lanes) : Moves 0x80008 s (laneTrained s f lanes) := by
  unfold laneTrained
  repeat' first
    | (extract_lets +onlyGivenNames t; refine Moves.cut (t := t) ?_ (fun ht => ?_); (on_goal 2 => (clear_value t; revert t; intro _ _)); (on_goal 1 => (unfold t; clear t)))
    | (extract_lets +onlyGivenNames x; clear_value x; revert x; intro _)
    | with_reducible apply Moves.ite
    | with_reducible exact Moves.refl _ _
    | with_reducible assumption
    | (with_reducible apply Moves.next ?hm (modFlue_moves ..) ?_; (case hm => decide))
    | (with_reducible apply Moves.next ?hm (setF_moves ..) ?_; (case hm => decide))

theorem fecLock_moves (s f lanes spare peerGen) : Moves 0x800000000080038 s (fecLock s f lanes spare peerGen) := by
  unfold fecLock
  repeat' first
    | (extract_lets +onlyGivenNames t; refine Moves.cut (t := t) ?_ (fun ht => ?_); (on_goal 2 => (clear_value t; revert t; intro _ _)); (on_goal 1 => (unfold t; clear t)))
    | (extract_lets +onlyGivenNames x; clear_value x; revert x; intro _)
    | with_reducible apply Moves.ite
    | with_reducible exact Moves.refl _ _
    | with_reducible assumption
    | (with_reducible apply Moves.next ?hm (modFlue_moves ..) ?_; (case hm => decide))
    | (with_reducible apply Moves.next ?hm (setF_moves ..) ?_; (case hm => decide))
    | (with_reducible apply Moves.next ?hm (setLogLane_moves ..) ?_; (case hm => decide))
    | (with_reducible apply Moves.next ?hm (flueRec_moves ..) ?_; (case hm => decide))
    | (with_reducible apply Moves.next ?hm (setLState_moves ..) ?_; (case hm => decide))
    | with_reducible apply Moves.foldl _ (fun s x => ?_) _ ?_
    | split

theorem frameLock_moves (s f) : Moves 0x80000 s (frameLock s f) := by
  unfold frameLock
  repeat' first
    | with_reducible apply Moves.ite
    | with_reducible exact Moves.refl _ _
    | (with_reducible apply Moves.next ?hm (modFlue_moves ..) ?_; (case hm => decide))

theorem trainFail_moves (s f) : Moves 0x800000000080038 s (trainFail s f) := by
  unfold trainFail
  repeat' first
    | (extract_lets +onlyGivenNames t; refine Moves.cut (t := t) ?_ (fun ht => ?_); (on_goal 2 => (clear_value t; revert t; intro _ _)); (on_goal 1 => (unfold t; clear t)))
    | (extract_lets +onlyGivenNames x; clear_value x; revert x; intro _)
    | with_reducible apply Moves.ite
    | with_reducible exact Moves.refl _ _
    | with_reducible assumption
    | (with_reducible apply Moves.next ?hm (modFlue_moves ..) ?_; (case hm => decide))
    | (with_reducible apply Moves.next ?hm (setFlueState_moves ..) ?_; (case hm => decide))
    | (with_reducible apply Moves.next ?hm (flueRec_moves ..) ?_; (case hm => decide))

theorem judgeWiring_moves (s sl) : Moves 0x800000000000038 s (judgeWiring s sl) := by
  unfold judgeWiring
  repeat' first
    | (extract_lets +onlyGivenNames x; clear_value x; revert x; intro _)
    | with_reducible apply Moves.ite
    | with_reducible exact Moves.refl _ _
    | (with_reducible apply Moves.next ?hm (setF_moves ..) ?_; (case hm => decide))
    | (with_reducible apply Moves.next ?hm (flueRec_moves ..) ?_; (case hm => decide))
    | with_reducible apply Moves.foldl _ (fun s x => ?_) _ ?_

theorem sendHello_moves (s f) : Moves 0x80004 s (sendHello s f) := by
  unfold sendHello
  repeat' first
    | with_reducible exact Moves.refl _ _
    | (with_reducible apply Moves.next ?hm (freshWord_moves ..) ?_; (case hm => decide))
    | (with_reducible apply Moves.next ?hm (modFlue_moves ..) ?_; (case hm => decide))
    | (with_reducible apply Moves.next ?hm (flueMessage_moves ..) ?_; (case hm => decide))

theorem sendProof_moves (s f peer) : Moves 0x80000 s (sendProof s f peer) := by
  unfold sendProof
  repeat' first
    | (extract_lets +onlyGivenNames x; clear_value x; revert x; intro _)
    | with_reducible exact Moves.refl _ _
    | (with_reducible apply Moves.next ?hm (flueMessage_moves ..) ?_; (case hm => decide))

theorem discovery_moves (s f p) : Moves 0x80000000008003c s (discovery s f p) := by
  unfold discovery
  repeat' first
    | (extract_lets +onlyGivenNames t; refine Moves.cut (t := t) ?_ (fun ht => ?_); (on_goal 2 => (clear_value t; revert t; intro _ _)); (on_goal 1 => (unfold t; clear t)))
    | with_reducible apply Moves.ite
    | with_reducible exact Moves.refl _ _
    | with_reducible assumption
    | (with_reducible apply Moves.next ?hm (modFlue_moves ..) ?_; (case hm => decide))
    | (with_reducible apply Moves.next ?hm (judgeWiring_moves ..) ?_; (case hm => decide))
    | (with_reducible apply Moves.next ?hm (setF_moves ..) ?_; (case hm => decide))
    | (with_reducible apply Moves.next ?hm (sendHello_moves ..) ?_; (case hm => decide))
    | (with_reducible apply Moves.next ?hm (setFlueState_moves ..) ?_; (case hm => decide))

theorem checkSlot_moves (s sl) : Moves 0x800000000200038 s (checkSlot s sl) := by
  unfold checkSlot
  repeat' first
    | (extract_lets +onlyGivenNames x; clear_value x; revert x; intro _)
    | with_reducible apply Moves.ite
    | with_reducible exact Moves.refl _ _
    | (with_reducible apply Moves.next ?hm (setF_moves ..) ?_; (case hm => decide))
    | (with_reducible apply Moves.next ?hm (flueRec_moves ..) ?_; (case hm => decide))
    | (with_reducible apply Moves.next ?hm (setSlot_moves ..) ?_; (case hm => decide))
    | with_reducible apply Moves.foldl _ (fun s x => ?_) _ ?_
    | split

theorem noteDegraded_moves (s) : Moves 0x8 s (noteDegraded s) := by
  unfold noteDegraded
  repeat' first
    | with_reducible apply Moves.ite
    | with_reducible exact Moves.refl _ _
    | (with_reducible apply Moves.next ?hm (setF_moves ..) ?_; (case hm => decide))

theorem slotCheck_moves (s) : Moves 0x800000000200038 s (slotCheck s) := by
  unfold slotCheck
  repeat' first
    | with_reducible apply Moves.ite
    | with_reducible exact Moves.refl _ _
    | (with_reducible apply Moves.next ?hm (checkSlot_moves ..) ?_; (case hm => decide))
    | (with_reducible apply Moves.next ?hm (noteDegraded_moves ..) ?_; (case hm => decide))
    | with_reducible apply Moves.foldl _ (fun s x => ?_) _ ?_

theorem slotCheckOne_moves (s sl) : Moves 0x800000000200038 s (slotCheckOne s sl) := by
  unfold slotCheckOne
  repeat' first
    | with_reducible apply Moves.ite
    | with_reducible exact Moves.refl _ _
    | (with_reducible apply Moves.next ?hm (checkSlot_moves ..) ?_; (case hm => decide))
    | (with_reducible apply Moves.next ?hm (noteDegraded_moves ..) ?_; (case hm => decide))

theorem attestFail_moves (s f cause) : Moves 0x800000000080038 s (attestFail s f cause) := by
  unfold attestFail
  repeat' first
    | (extract_lets +onlyGivenNames t; refine Moves.cut (t := t) ?_ (fun ht => ?_); (on_goal 2 => (clear_value t; revert t; intro _ _)); (on_goal 1 => (unfold t; clear t)))
    | with_reducible exact Moves.refl _ _
    | with_reducible assumption
    | (with_reducible apply Moves.next ?hm (modFlue_moves ..) ?_; (case hm => decide))
    | (with_reducible apply Moves.next ?hm (setFlueState_moves ..) ?_; (case hm => decide))
    | (with_reducible apply Moves.next ?hm (raise_moves ..) ?_; (case hm => decide))

theorem hello_moves (s f p nonce chainOk) : Moves 0x800000000080038 s (hello s f p nonce chainOk) := by
  unfold hello
  repeat' first
    | (extract_lets +onlyGivenNames x; clear_value x; revert x; intro _)
    | with_reducible apply Moves.ite
    | with_reducible exact Moves.refl _ _
    | (with_reducible apply Moves.next ?hm (sendProof_moves ..) ?_; (case hm => decide))
    | (with_reducible apply Moves.next ?hm (attestFail_moves ..) ?_; (case hm => decide))
    | (with_reducible apply Moves.next ?hm (setFlue_moves ..) ?_; (case hm => decide))
    | split

theorem proofTimeout_moves (s f) : Moves 0x800000000080038 s (proofTimeout s f) := by
  unfold proofTimeout
  repeat' first
    | (extract_lets +onlyGivenNames x; clear_value x; revert x; intro _)
    | with_reducible apply Moves.ite
    | with_reducible exact Moves.refl _ _
    | (with_reducible apply Moves.next ?hm (attestFail_moves ..) ?_; (case hm => decide))

theorem rotationStart_moves (s f same) : Moves 0x80008 s (rotationStart s f same) := by
  unfold rotationStart
  repeat' first
    | (extract_lets +onlyGivenNames x; clear_value x; revert x; intro _)
    | with_reducible apply Moves.ite
    | with_reducible exact Moves.refl _ _
    | (with_reducible apply Moves.next ?hm (beginRot_moves ..) ?_; (case hm => decide))
    | (with_reducible apply Moves.next ?hm (modFlue_moves ..) ?_; (case hm => decide))
    | split

theorem selftest_moves (s f) : Moves 0x80008 s (selftest s f) := by
  unfold selftest
  repeat' first
    | with_reducible apply Moves.ite
    | with_reducible exact Moves.refl _ _
    | (with_reducible apply Moves.next ?hm (beginRot_moves ..) ?_; (case hm => decide))
    | (with_reducible apply Moves.next ?hm (setF_moves ..) ?_; (case hm => decide))
    | split

theorem deferredTest_moves (s f) : Moves 0x80008 s (deferredTest s f) := by
  unfold deferredTest
  repeat' first
    | with_reducible apply Moves.ite
    | with_reducible exact Moves.refl _ _
    | (with_reducible apply Moves.next ?hm (selftest_moves ..) ?_; (case hm => decide))

theorem proof_moves (s f sigOk) : Moves 0x800000000280038 s (proof s f sigOk) := by
  unfold proof
  repeat' first
    | (extract_lets +onlyGivenNames t; refine Moves.cut (t := t) ?_ (fun ht => ?_); (on_goal 2 => (clear_value t; revert t; intro _ _)); (on_goal 1 => (unfold t; clear t)))
    | (extract_lets +onlyGivenNames x; clear_value x; revert x; intro _)
    | with_reducible apply Moves.ite
    | with_reducible exact Moves.refl _ _
    | with_reducible assumption
    | (with_reducible apply Moves.next ?hm (deferredTest_moves ..) ?_; (case hm => decide))
    | (with_reducible apply Moves.next ?hm (attestFail_moves ..) ?_; (case hm => decide))
    | (with_reducible apply Moves.next ?hm (setFlueState_moves ..) ?_; (case hm => decide))
    | (with_reducible apply Moves.next ?hm (setFlue_moves ..) ?_; (case hm => decide))
    | (with_reducible apply Moves.next ?hm (slotCheckOne_moves ..) ?_; (case hm => decide))

theorem moveTx_moves (s f r) : Moves 0x8 s (moveTx s f r) := by
  unfold moveTx
  repeat' first
    | (extract_lets +onlyGivenNames t; refine Moves.cut (t := t) ?_ (fun ht => ?_); (on_goal 2 => (clear_value t; revert t; intro _ _)); (on_goal 1 => (unfold t; clear t)))
    | with_reducible exact Moves.refl _ _
    | with_reducible assumption
    | (with_reducible apply Moves.next ?hm (setF_moves ..) ?_; (case hm => decide))
    | (with_reducible apply Moves.next ?hm (setLogLane_moves ..) ?_; (case hm => decide))
    | (with_reducible apply Moves.next ?hm (setLState_moves ..) ?_; (case hm => decide))
    | split

theorem laneSwap_moves (s f) : Moves 0x80008 s (laneSwap s f) := by
  unfold laneSwap
  repeat' first
    | (extract_lets +onlyGivenNames t; refine Moves.cut (t := t) ?_ (fun ht => ?_); (on_goal 2 => (clear_value t; revert t; intro _ _)); (on_goal 1 => (unfold t; clear t)))
    | (extract_lets +onlyGivenNames x; clear_value x; revert x; intro _)
    | with_reducible apply Moves.ite
    | with_reducible exact Moves.refl _ _
    | with_reducible assumption
    | (with_reducible apply Moves.next ?hm (modFlue_moves ..) ?_; (case hm => decide))
    | (with_reducible apply Moves.next ?hm (moveTx_moves ..) ?_; (case hm => decide))
    | (with_reducible apply Moves.next ?hm (setF_moves ..) ?_; (case hm => decide))
    | (with_reducible apply Moves.next ?hm (setLState_moves ..) ?_; (case hm => decide))
    | split

theorem endRot_moves (s f eyeV eyeH) : Moves 0x10000000080008 s (endRot s f eyeV eyeH) := by
  unfold endRot
  repeat' first
    | (extract_lets +onlyGivenNames t; refine Moves.cut (t := t) ?_ (fun ht => ?_); (on_goal 2 => (clear_value t; revert t; intro _ _)); (on_goal 1 => (unfold t; clear t)))
    | with_reducible exact Moves.refl _ _
    | with_reducible assumption
    | (with_reducible apply Moves.next ?hm (modFlue_moves ..) ?_; (case hm => decide))
    | (with_reducible apply Moves.next ?hm (setF_moves ..) ?_; (case hm => decide))
    | (with_reducible apply Moves.next ?hm (setFi_moves ..) ?_; (case hm => decide))
    | (with_reducible apply Moves.next ?hm (setLState_moves ..) ?_; (case hm => decide))
    | (with_reducible apply Moves.next ?hm (addWear_moves ..) ?_; (case hm => decide))
    | split

theorem recalComplete_moves (s f eyeV eyeH) : Moves 0x10000000080008 s (recalComplete s f eyeV eyeH) := by
  unfold recalComplete
  repeat' first
    | with_reducible apply Moves.ite
    | with_reducible exact Moves.refl _ _
    | (with_reducible apply Moves.next ?hm (endRot_moves ..) ?_; (case hm => decide))
    | (with_reducible apply Moves.next ?hm (deferredTest_moves ..) ?_; (case hm => decide))
    | split

theorem failLane_moves (s f l) : Moves 0x8400000000008 s (failLane s f l) := by
  unfold failLane
  repeat' first
    | (extract_lets +onlyGivenNames t; refine Moves.cut (t := t) ?_ (fun ht => ?_); (on_goal 2 => (clear_value t; revert t; intro _ _)); (on_goal 1 => (unfold t; clear t)))
    | with_reducible exact Moves.refl _ _
    | with_reducible assumption
    | (with_reducible apply Moves.next ?hm (logLedger_moves ..) ?_; (case hm => decide))
    | (with_reducible apply Moves.next ?hm (setF_moves ..) ?_; (case hm => decide))
    | (with_reducible apply Moves.next ?hm (setLState_moves ..) ?_; (case hm => decide))
    | (with_reducible apply Moves.next ?hm (bumpLife_moves ..) ?_; (case hm => decide))

theorem selftestComplete_moves (s f pass eyeV eyeH) : Moves 0x18400000080008 s (selftestComplete s f pass eyeV eyeH) := by
  unfold selftestComplete
  repeat' first
    | (extract_lets +onlyGivenNames t; refine Moves.cut (t := t) ?_ (fun ht => ?_); (on_goal 2 => (clear_value t; revert t; intro _ _)); (on_goal 1 => (unfold t; clear t)))
    | with_reducible apply Moves.ite
    | with_reducible exact Moves.refl _ _
    | with_reducible assumption
    | (with_reducible apply Moves.next ?hm (endRot_moves ..) ?_; (case hm => decide))
    | (with_reducible apply Moves.next ?hm (failLane_moves ..) ?_; (case hm => decide))
    | (with_reducible apply Moves.next ?hm (setF_moves ..) ?_; (case hm => decide))
    | split

theorem dropRot_moves (s f) : Moves 0x80008 s (dropRot s f) := by
  unfold dropRot
  repeat' first
    | (extract_lets +onlyGivenNames t; refine Moves.cut (t := t) ?_ (fun ht => ?_); (on_goal 2 => (clear_value t; revert t; intro _ _)); (on_goal 1 => (unfold t; clear t)))
    | with_reducible apply Moves.ite
    | with_reducible exact Moves.refl _ _
    | with_reducible assumption
    | (with_reducible apply Moves.next ?hm (modFlue_moves ..) ?_; (case hm => decide))
    | (with_reducible apply Moves.next ?hm (setF_moves ..) ?_; (case hm => decide))
    | split

theorem narrow_moves (s f) : Moves 0x80008 s (narrow s f) := by
  unfold narrow
  repeat' first
    | (extract_lets +onlyGivenNames t; refine Moves.cut (t := t) ?_ (fun ht => ?_); (on_goal 2 => (clear_value t; revert t; intro _ _)); (on_goal 1 => (unfold t; clear t)))
    | (extract_lets +onlyGivenNames x; clear_value x; revert x; intro _)
    | with_reducible exact Moves.refl _ _
    | with_reducible assumption
    | (with_reducible apply Moves.next ?hm (modFlue_moves ..) ?_; (case hm => decide))
    | (with_reducible apply Moves.next ?hm (setLogLane_moves ..) ?_; (case hm => decide))
    | (with_reducible apply Moves.next ?hm (setFlueState_moves ..) ?_; (case hm => decide))
    | with_reducible apply Moves.foldl _ (fun s x => ?_) _ ?_

theorem laneFail_moves (s f l ucw) : Moves 0xc08404000180038 s (laneFail s f l ucw) := by
  unfold laneFail
  repeat' first
    | (extract_lets +onlyGivenNames t; refine Moves.cut (t := t) ?_ (fun ht => ?_); (on_goal 2 => (clear_value t; revert t; intro _ _)); (on_goal 1 => (unfold t; clear t)))
    | (extract_lets +onlyGivenNames x; clear_value x; revert x; intro _)
    | with_reducible apply Moves.ite
    | with_reducible exact Moves.refl _ _
    | with_reducible assumption
    | (with_reducible apply Moves.next ?hm (flueDown_moves ..) ?_; (case hm => decide))
    | (with_reducible apply Moves.next ?hm (modFlue_moves ..) ?_; (case hm => decide))
    | (with_reducible apply Moves.next ?hm (narrow_moves ..) ?_; (case hm => decide))
    | (with_reducible apply Moves.next ?hm (failLane_moves ..) ?_; (case hm => decide))
    | (with_reducible apply Moves.next ?hm (dropRot_moves ..) ?_; (case hm => decide))
    | (with_reducible apply Moves.next ?hm (setF_moves ..) ?_; (case hm => decide))
    | (with_reducible apply Moves.next ?hm (setLogLane_moves ..) ?_; (case hm => decide))
    | (with_reducible apply Moves.next ?hm (flueRec_moves ..) ?_; (case hm => decide))
    | (with_reducible apply Moves.next ?hm (setLState_moves ..) ?_; (case hm => decide))
    | split

theorem laneRejoin_moves (s f) : Moves 0x80008 s (laneRejoin s f) := by
  unfold laneRejoin
  repeat' first
    | (extract_lets +onlyGivenNames t; refine Moves.cut (t := t) ?_ (fun ht => ?_); (on_goal 2 => (clear_value t; revert t; intro _ _)); (on_goal 1 => (unfold t; clear t)))
    | with_reducible apply Moves.ite
    | with_reducible exact Moves.refl _ _
    | with_reducible assumption
    | (with_reducible apply Moves.next ?hm (modFlue_moves ..) ?_; (case hm => decide))
    | (with_reducible apply Moves.next ?hm (dropRot_moves ..) ?_; (case hm => decide))
    | (with_reducible apply Moves.next ?hm (setF_moves ..) ?_; (case hm => decide))
    | (with_reducible apply Moves.next ?hm (setLogLane_moves ..) ?_; (case hm => decide))
    | (with_reducible apply Moves.next ?hm (setFlueState_moves ..) ?_; (case hm => decide))
    | (with_reducible apply Moves.next ?hm (setLState_moves ..) ?_; (case hm => decide))
    | with_reducible apply Moves.foldl _ (fun s x => ?_) _ ?_
    | split

theorem digestShow_moves (s) : Moves 0x8 s (digestShow s) := by
  unfold digestShow
  repeat' first
    | with_reducible exact Moves.refl _ _
    | (with_reducible apply Moves.next ?hm (setF_moves ..) ?_; (case hm => decide))

theorem digestBegin_moves (s n) : Moves 0x4000088 s (digestBegin s n) := by
  unfold digestBegin
  repeat' first
    | (extract_lets +onlyGivenNames t; refine Moves.cut (t := t) ?_ (fun ht => ?_); (on_goal 2 => (clear_value t; revert t; intro _ _)); (on_goal 1 => (unfold t; clear t)))
    | (extract_lets +onlyGivenNames x; clear_value x; revert x; intro _)
    | with_reducible exact Moves.refl _ _
    | with_reducible assumption
    | (with_reducible apply Moves.next ?hm (digestShow_moves ..) ?_; (case hm => decide))
    | (with_reducible apply Moves.next ?hm (setF_moves ..) ?_; (case hm => decide))
    | (with_reducible apply Moves.next ?hm (modTile_moves ..) ?_; (case hm => decide))
    | with_reducible apply Moves.foldl _ (fun s x => ?_) _ ?_
    | refine Moves.upd rfl (fun h => by cases h; constructor <;> first | assumption | (try dsimp only; first | exact mapSet_wf _ _ _ _ (by assumption) | exact mapMod_wf _ _ _ _ (by assumption) | exact mapDrop_wf _ _ _ (by assumption) | exact mapFilter_wf _ _ _ (by assumption) | exact pokeBytes_wf _ _ _ (by assumption) | exact foldl_wf _ _ (fun _ _ h => mapSet_wf _ _ _ _ h) _ (by assumption) | exact foldl_wf _ _ (fun _ _ h => mapMod_wf _ _ _ _ h) _ (by assumption) | exact rfl)) ?_

theorem mgcMessage_moves (s node bs) : Moves 0x100000 s (mgcMessage s node bs) := by
  unfold mgcMessage
  repeat' first
    | (extract_lets +onlyGivenNames x; clear_value x; revert x; intro _)
    | with_reducible exact Moves.refl _ _
    | (with_reducible apply Moves.next ?hm (sendPkt_moves ..) ?_; (case hm => decide))
    | with_reducible apply Moves.foldl _ (fun s x => ?_) _ ?_

theorem digestCompare_moves (s r node chip tiles) : Moves 0x808000000000038 s (digestCompare s r node chip tiles) := by
  unfold digestCompare
  repeat' first
    | (extract_lets +onlyGivenNames t; refine Moves.cut (t := t) ?_ (fun ht => ?_); (on_goal 2 => (clear_value t; revert t; intro _ _)); (on_goal 1 => (unfold t; clear t)))
    | (extract_lets +onlyGivenNames x; clear_value x; revert x; intro _)
    | with_reducible apply Moves.ite
    | with_reducible exact Moves.refl _ _
    | with_reducible assumption
    | (with_reducible apply Moves.next ?hm (setF_moves ..) ?_; (case hm => decide))
    | (with_reducible apply Moves.next ?hm (raiseMgc_moves ..) ?_; (case hm => decide))
    | (with_reducible apply Moves.next ?hm (bumpLife_moves ..) ?_; (case hm => decide))

theorem digestMeet_moves (s r node chip tiles) : Moves 0x808000004000038 s (digestMeet s r node chip tiles) := by
  unfold digestMeet
  repeat' first
    | (extract_lets +onlyGivenNames t; refine Moves.cut (t := t) ?_ (fun ht => ?_); (on_goal 2 => (clear_value t; revert t; intro _ _)); (on_goal 1 => (unfold t; clear t)))
    | (extract_lets +onlyGivenNames x; clear_value x; revert x; intro _)
    | with_reducible apply Moves.ite
    | with_reducible exact Moves.refl _ _
    | with_reducible assumption
    | (with_reducible apply Moves.next ?hm (digestCompare_moves ..) ?_; (case hm => decide))
    | (with_reducible apply Moves.next ?hm (digestShow_moves ..) ?_; (case hm => decide))
    | refine Moves.upd rfl (fun h => by cases h; constructor <;> first | assumption | (try dsimp only; first | exact mapSet_wf _ _ _ _ (by assumption) | exact mapMod_wf _ _ _ _ (by assumption) | exact mapDrop_wf _ _ _ (by assumption) | exact mapFilter_wf _ _ _ (by assumption) | exact pokeBytes_wf _ _ _ (by assumption) | exact foldl_wf _ _ (fun _ _ h => mapSet_wf _ _ _ _ h) _ (by assumption) | exact foldl_wf _ _ (fun _ _ h => mapMod_wf _ _ _ _ h) _ (by assumption) | exact rfl)) ?_

theorem digestEnd_moves (s) : Moves 0x808000004100038 s (digestEnd s) := by
  unfold digestEnd
  repeat' first
    | (extract_lets +onlyGivenNames t; refine Moves.cut (t := t) ?_ (fun ht => ?_); (on_goal 2 => (clear_value t; revert t; intro _ _)); (on_goal 1 => (unfold t; clear t)))
    | (extract_lets +onlyGivenNames x; clear_value x; revert x; intro _)
    | with_reducible apply Moves.ite
    | with_reducible exact Moves.refl _ _
    | with_reducible assumption
    | (with_reducible apply Moves.next ?hm (digestMeet_moves ..) ?_; (case hm => decide))
    | (with_reducible apply Moves.next ?hm (digestShow_moves ..) ?_; (case hm => decide))
    | (with_reducible apply Moves.next ?hm (setF_moves ..) ?_; (case hm => decide))
    | (with_reducible apply Moves.next ?hm (mgcMessage_moves ..) ?_; (case hm => decide))
    | split
    | refine Moves.upd rfl (fun h => by cases h; constructor <;> first | assumption | (try dsimp only; first | exact mapSet_wf _ _ _ _ (by assumption) | exact mapMod_wf _ _ _ _ (by assumption) | exact mapDrop_wf _ _ _ (by assumption) | exact mapFilter_wf _ _ _ (by assumption) | exact pokeBytes_wf _ _ _ (by assumption) | exact foldl_wf _ _ (fun _ _ h => mapSet_wf _ _ _ _ h) _ (by assumption) | exact foldl_wf _ _ (fun _ _ h => mapMod_wf _ _ _ _ h) _ (by assumption) | exact rfl)) ?_

theorem digestTile_moves (s p) : Moves 0x8080000041000b8 s (digestTile s p) := by
  unfold digestTile
  repeat' first
    | (extract_lets +onlyGivenNames t; refine Moves.cut (t := t) ?_ (fun ht => ?_); (on_goal 2 => (clear_value t; revert t; intro _ _)); (on_goal 1 => (unfold t; clear t)))
    | (extract_lets +onlyGivenNames x; clear_value x; revert x; intro _)
    | with_reducible apply Moves.ite
    | with_reducible exact Moves.refl _ _
    | with_reducible assumption
    | (with_reducible apply Moves.next ?hm (signalUnit_moves ..) ?_; (case hm => decide))
    | (with_reducible apply Moves.next ?hm (setF_moves ..) ?_; (case hm => decide))
    | (with_reducible apply Moves.next ?hm (digestEnd_moves ..) ?_; (case hm => decide))
    | (with_reducible apply Moves.next ?hm (modTile_moves ..) ?_; (case hm => decide))
    | (with_reducible apply Moves.next ?hm (setFi_moves ..) ?_; (case hm => decide))
    | split
    | refine Moves.upd rfl (fun h => by cases h; constructor <;> first | assumption | (try dsimp only; first | exact mapSet_wf _ _ _ _ (by assumption) | exact mapMod_wf _ _ _ _ (by assumption) | exact mapDrop_wf _ _ _ (by assumption) | exact mapFilter_wf _ _ _ (by assumption) | exact pokeBytes_wf _ _ _ (by assumption) | exact foldl_wf _ _ (fun _ _ h => mapSet_wf _ _ _ _ h) _ (by assumption) | exact foldl_wf _ _ (fun _ _ h => mapMod_wf _ _ _ _ h) _ (by assumption) | exact rfl)) ?_

theorem digestMessage_moves (s node mark chip tiles) : Moves 0x808000004000038 s (digestMessage s node mark chip tiles) := by
  unfold digestMessage
  repeat' first
    | (extract_lets +onlyGivenNames x; clear_value x; revert x; intro _)
    | with_reducible apply Moves.ite
    | with_reducible exact Moves.refl _ _
    | (with_reducible apply Moves.next ?hm (digestMeet_moves ..) ?_; (case hm => decide))
    | split
    | refine Moves.upd rfl (fun h => by cases h; constructor <;> first | assumption | (try dsimp only; first | exact mapSet_wf _ _ _ _ (by assumption) | exact mapMod_wf _ _ _ _ (by assumption) | exact mapDrop_wf _ _ _ (by assumption) | exact mapFilter_wf _ _ _ (by assumption) | exact pokeBytes_wf _ _ _ (by assumption) | exact foldl_wf _ _ (fun _ _ h => mapSet_wf _ _ _ _ h) _ (by assumption) | exact foldl_wf _ _ (fun _ _ h => mapMod_wf _ _ _ _ h) _ (by assumption) | exact rfl)) ?_

theorem digestLate_moves (s) : Moves 0x800000004000038 s (digestLate s) := by
  unfold digestLate
  repeat' first
    | (extract_lets +onlyGivenNames x; clear_value x; revert x; intro _)
    | with_reducible apply Moves.ite
    | with_reducible exact Moves.refl _ _
    | (with_reducible apply Moves.next ?hm (digestShow_moves ..) ?_; (case hm => decide))
    | (with_reducible apply Moves.next ?hm (setF_moves ..) ?_; (case hm => decide))
    | (with_reducible apply Moves.next ?hm (raiseMgc_moves ..) ?_; (case hm => decide))
    | split
    | refine Moves.upd rfl (fun h => by cases h; constructor <;> first | assumption | (try dsimp only; first | exact mapSet_wf _ _ _ _ (by assumption) | exact mapMod_wf _ _ _ _ (by assumption) | exact mapDrop_wf _ _ _ (by assumption) | exact mapFilter_wf _ _ _ (by assumption) | exact pokeBytes_wf _ _ _ (by assumption) | exact foldl_wf _ _ (fun _ _ h => mapSet_wf _ _ _ _ h) _ (by assumption) | exact foldl_wf _ _ (fun _ _ h => mapMod_wf _ _ _ _ h) _ (by assumption) | exact rfl)) ?_

theorem digestRegion_moves (s p i v) : Moves 0x8 s (digestRegion s p i v) := by
  unfold digestRegion
  repeat' first
    | with_reducible apply Moves.ite
    | with_reducible exact Moves.refl _ _
    | (with_reducible apply Moves.next ?hm (regSet_moves ..) ?_; (case hm => decide))
    | (with_reducible apply Moves.next ?hm (setF_moves ..) ?_; (case hm => decide))

theorem markSignals_moves (s) : Moves 0xc8 s (markSignals s) := by
  unfold markSignals
  repeat' first
    | with_reducible exact Moves.refl _ _
    | (with_reducible apply Moves.next ?hm (lateSig_moves ..) ?_; (case hm => decide))
    | with_reducible apply Moves.foldl _ (fun s x => ?_) _ ?_

theorem markComplete_moves (s) : Moves 0x6000000041202c8 s (markComplete s) := by
  unfold markComplete
  repeat' first
    | (extract_lets +onlyGivenNames t; refine Moves.cut (t := t) ?_ (fun ht => ?_); (on_goal 2 => (clear_value t; revert t; intro _ _)); (on_goal 1 => (unfold t; clear t)))
    | (extract_lets +onlyGivenNames x; clear_value x; revert x; intro _)
    | with_reducible apply Moves.ite
    | with_reducible exact Moves.refl _ _
    | with_reducible assumption
    | (with_reducible apply Moves.next ?hm (setTimer_moves ..) ?_; (case hm => decide))
    | (with_reducible apply Moves.next ?hm (releaseDirty_moves ..) ?_; (case hm => decide))
    | (with_reducible apply Moves.next ?hm (markSignals_moves ..) ?_; (case hm => decide))
    | (with_reducible apply Moves.next ?hm (digestBegin_moves ..) ?_; (case hm => decide))
    | (with_reducible apply Moves.next ?hm (beginMark_moves ..) ?_; (case hm => decide))
    | (with_reducible apply Moves.next ?hm (mgcMessage_moves ..) ?_; (case hm => decide))
    | refine Moves.upd rfl (fun h => by cases h; constructor <;> first | assumption | (try dsimp only; first | exact mapSet_wf _ _ _ _ (by assumption) | exact mapMod_wf _ _ _ _ (by assumption) | exact mapDrop_wf _ _ _ (by assumption) | exact mapFilter_wf _ _ _ (by assumption) | exact pokeBytes_wf _ _ _ (by assumption) | exact foldl_wf _ _ (fun _ _ h => mapSet_wf _ _ _ _ h) _ (by assumption) | exact foldl_wf _ _ (fun _ _ h => mapMod_wf _ _ _ _ h) _ (by assumption) | exact rfl)) ?_

theorem classCommand_moves (s rec lt) : Moves 0x800000010000038 s (classCommand s rec lt) := by
  unfold classCommand
  repeat' first
    | with_reducible apply Moves.ite
    | with_reducible exact Moves.refl _ _
    | (with_reducible apply Moves.next ?hm (absentCmd_moves ..) ?_; (case hm => decide))
    | (with_reducible apply Moves.next ?hm (setF_moves ..) ?_; (case hm => decide))
    | refine Moves.upd rfl (fun h => by cases h; constructor <;> first | assumption | (try dsimp only; first | exact mapSet_wf _ _ _ _ (by assumption) | exact mapMod_wf _ _ _ _ (by assumption) | exact mapDrop_wf _ _ _ (by assumption) | exact mapFilter_wf _ _ _ (by assumption) | exact pokeBytes_wf _ _ _ (by assumption) | exact foldl_wf _ _ (fun _ _ h => mapSet_wf _ _ _ _ h) _ (by assumption) | exact foldl_wf _ _ (fun _ _ h => mapMod_wf _ _ _ _ h) _ (by assumption) | exact rfl)) ?_

theorem classVerdict_moves (s p v sub) : Moves 0x808400060002078 s (classVerdict s p v sub) := by
  unfold classVerdict
  repeat' first
    | (extract_lets +onlyGivenNames t; refine Moves.cut (t := t) ?_ (fun ht => ?_); (on_goal 2 => (clear_value t; revert t; intro _ _)); (on_goal 1 => (unfold t; clear t)))
    | with_reducible apply Moves.ite
    | with_reducible exact Moves.refl _ _
    | with_reducible assumption
    | (with_reducible apply Moves.next ?hm (logLedger_moves ..) ?_; (case hm => decide))
    | (with_reducible apply Moves.next ?hm (setF_moves ..) ?_; (case hm => decide))
    | (with_reducible apply Moves.next ?hm (raiseMgc_moves ..) ?_; (case hm => decide))
    | (with_reducible apply Moves.next ?hm (condemn_moves ..) ?_; (case hm => decide))
    | (with_reducible apply Moves.next ?hm (bumpLife_moves ..) ?_; (case hm => decide))

theorem classAnswer_moves (s lt) : Moves 0x808400068002078 s (classAnswer s lt) := by
  unfold classAnswer
  repeat' first
    | (extract_lets +onlyGivenNames t; refine Moves.cut (t := t) ?_ (fun ht => ?_); (on_goal 2 => (clear_value t; revert t; intro _ _)); (on_goal 1 => (unfold t; clear t)))
    | (extract_lets +onlyGivenNames x; clear_value x; revert x; intro _)
    | with_reducible apply Moves.ite
    | with_reducible exact Moves.refl _ _
    | with_reducible assumption
    | (with_reducible apply Moves.next ?hm (absentCmd_moves ..) ?_; (case hm => decide))
    | (with_reducible apply Moves.next ?hm (logLedger_moves ..) ?_; (case hm => decide))
    | (with_reducible apply Moves.next ?hm (setF_moves ..) ?_; (case hm => decide))
    | (with_reducible apply Moves.next ?hm (classVerdict_moves ..) ?_; (case hm => decide))
    | split
    | refine Moves.upd rfl (fun h => by cases h; constructor <;> first | assumption | (try dsimp only; first | exact mapSet_wf _ _ _ _ (by assumption) | exact mapMod_wf _ _ _ _ (by assumption) | exact mapDrop_wf _ _ _ (by assumption) | exact mapFilter_wf _ _ _ (by assumption) | exact pokeBytes_wf _ _ _ (by assumption) | exact foldl_wf _ _ (fun _ _ h => mapSet_wf _ _ _ _ h) _ (by assumption) | exact foldl_wf _ _ (fun _ _ h => mapMod_wf _ _ _ _ h) _ (by assumption) | exact rfl)) ?_

theorem classComplete_moves (s) : Moves 0x808400078002078 s (classComplete s) := by
  unfold classComplete
  dsimp only
  repeat' first
    | with_reducible exact Moves.refl _ _
    | (with_reducible apply Moves.next ?hm (classAnswer_moves ..) ?_; (case hm => decide))
    | (with_reducible apply Moves.next ?hm (logLedger_moves ..) ?_; (case hm => decide))
    | (with_reducible apply Moves.next ?hm (setF_moves ..) ?_; (case hm => decide))
    | (with_reducible apply Moves.next ?hm (classVerdict_moves ..) ?_; (case hm => decide))
    | (with_reducible apply Moves.next ?hm (bumpLife_moves ..) ?_; (case hm => decide))
    | split
    | refine Moves.upd rfl (fun h => by cases h; constructor <;> first | assumption | (try dsimp only; first | exact mapSet_wf _ _ _ _ (by assumption) | exact mapMod_wf _ _ _ _ (by assumption) | exact mapDrop_wf _ _ _ (by assumption) | exact mapFilter_wf _ _ _ (by assumption) | exact pokeBytes_wf _ _ _ (by assumption) | exact foldl_wf _ _ (fun _ _ h => mapSet_wf _ _ _ _ h) _ (by assumption) | exact foldl_wf _ _ (fun _ _ h => mapMod_wf _ _ _ _ h) _ (by assumption) | exact rfl)) ?_

theorem modCe_moves (s c f) : Moves 0x800000 s (modCe s c f) := by
  unfold modCe
  repeat' first
    | with_reducible exact Moves.refl _ _
    | (with_reducible apply Moves.next ?hm (setCe_moves ..) ?_; (case hm => decide))

theorem setOp_moves (s c o) : Moves 0x800000 s (setOp s c o) := by
  unfold setOp
  repeat' first
    | with_reducible exact Moves.refl _ _
    | (with_reducible apply Moves.next ?hm (modCe_moves ..) ?_; (case hm => decide))

theorem modOp_moves (s c f) : Moves 0x800000 s (modOp s c f) := by
  unfold modOp
  repeat' first
    | with_reducible exact Moves.refl _ _
    | (with_reducible apply Moves.next ?hm (modCe_moves ..) ?_; (case hm => decide))

theorem addFlags_moves (s c o acc x) : Moves 0x8 s (addFlags s c o acc x) := by
  unfold addFlags
  repeat' first
    | (extract_lets +onlyGivenNames t; refine Moves.cut (t := t) ?_ (fun ht => ?_); (on_goal 2 => (clear_value t; revert t; intro _ _)); (on_goal 1 => (unfold t; clear t)))
    | (extract_lets +onlyGivenNames x; clear_value x; revert x; intro _)
    | with_reducible apply Moves.ite
    | with_reducible exact Moves.refl _ _
    | with_reducible assumption
    | (with_reducible apply Moves.next ?hm (setF_moves ..) ?_; (case hm => decide))

theorem finalFlags_moves (s c o acc) : Moves 0x8 s (finalFlags s c o acc) := by
  unfold finalFlags
  repeat' first
    | (extract_lets +onlyGivenNames t; refine Moves.cut (t := t) ?_ (fun ht => ?_); (on_goal 2 => (clear_value t; revert t; intro _ _)); (on_goal 1 => (unfold t; clear t)))
    | (extract_lets +onlyGivenNames x; clear_value x; revert x; intro _)
    | with_reducible apply Moves.ite
    | with_reducible exact Moves.refl _ _
    | with_reducible assumption
    | (with_reducible apply Moves.next ?hm (setF_moves ..) ?_; (case hm => decide))

theorem ceRead_moves (s sp base off n hint) : Moves 0x800000000030088 s (ceRead s sp base off n hint).1 := by
  unfold ceRead
  repeat' first
    | (extract_lets +onlyGivenNames x; clear_value x; revert x; intro _)
    | with_reducible apply Moves.ite_fst
    | with_reducible exact Moves.refl _ _
    | (with_reducible apply Moves.next ?hm (segLines_moves ..) ?_; (case hm => decide))
    | (with_reducible apply Moves.next ?hm (jobCheck_moves ..) ?_; (case hm => decide))
    | split
    | (with_reducible apply Moves.fst_of ?he ?_; (case he => with_reducible assumption))

theorem ceWrite_moves (s sp base off hint bs) : Moves 0x8000000041300b8 s (ceWrite s sp base off hint bs).1 := by
  unfold ceWrite
  repeat' first
    | (extract_lets +onlyGivenNames x; clear_value x; revert x; intro _)
    | with_reducible apply Moves.ite_fst
    | with_reducible exact Moves.refl _ _
    | (with_reducible apply Moves.next ?hm (segStore_moves ..) ?_; (case hm => decide))
    | (with_reducible apply Moves.next ?hm (tileWrite_moves ..) ?_; (case hm => decide))
    | (with_reducible apply Moves.next ?hm (segLines_moves ..) ?_; (case hm => decide))
    | (with_reducible apply Moves.next ?hm (jobCheck_moves ..) ?_; (case hm => decide))
    | split
    | (with_reducible apply Moves.fst_of ?he ?_; (case he => with_reducible assumption))

theorem ceReadAll_moves (sp base hint x3 x4 x5 x6) : Moves 0x800000000030088 x6 (ceReadAll sp base hint x3 x4 x5 x6).1 := by
  induction x3 generalizing x4 x5 x6 with
    | zero => ?_
    | succ n ih => ?_
  all_goals unfold ceReadAll
  repeat' first
    | with_reducible apply Moves.ite_fst
    | with_reducible exact Moves.refl _ _
    | (with_reducible apply Moves.next ?hm (ceRead_moves ..) ?_; (case hm => decide))
    | with_reducible apply Moves.trans (ih ..) ?_
    | split
    | (with_reducible apply Moves.fst_of ?he ?_; (case he => with_reducible assumption))

theorem ceFault_moves (s c code addr space peer) : Moves 0x8000000009003f8 s (ceFault s c code addr space peer) := by
  unfold ceFault
  repeat' first
    | with_reducible exact Moves.refl _ _
    | (with_reducible apply Moves.next ?hm (faultEngine_moves ..) ?_; (case hm => decide))
    | split

theorem ceTrouble_moves (s c a) : Moves 0x8000000009003f8 s (ceTrouble s c a) := by
  unfold ceTrouble
  repeat' first
    | with_reducible exact Moves.refl _ _
    | (with_reducible apply Moves.next ?hm (ceFault_moves ..) ?_; (case hm => decide))
    | (with_reducible apply Moves.next ?hm (modOp_moves ..) ?_; (case hm => decide))
    | split

theorem ceGrant_moves (s c) : Moves 0x800000 s (ceGrant s c) := by
  unfold ceGrant
  repeat' first
    | with_reducible apply Moves.ite
    | with_reducible exact Moves.refl _ _
    | (with_reducible apply Moves.next ?hm (modCe_moves ..) ?_; (case hm => decide))

theorem ceNoteRead_moves (s c n) : Moves 0x800080 s (ceNoteRead s c n) := by
  unfold ceNoteRead
  repeat' first
    | (extract_lets +onlyGivenNames x; clear_value x; revert x; intro _)
    | with_reducible apply Moves.ite
    | with_reducible exact Moves.refl _ _
    | (with_reducible apply Moves.next ?hm (setOp_moves ..) ?_; (case hm => decide))
    | (with_reducible apply Moves.next ?hm (signalUnit_moves ..) ?_; (case hm => decide))
    | split

theorem ceLoc_moves (s c) : Moves 0x8000000009303f8 s (ceLoc s c) := by
  unfold ceLoc
  repeat' first
    | (extract_lets +onlyGivenNames x; clear_value x; revert x; intro _)
    | with_reducible apply Moves.ite
    | with_reducible exact Moves.refl _ _
    | (with_reducible apply Moves.next ?hm (ceTrouble_moves ..) ?_; (case hm => decide))
    | (with_reducible apply Moves.next ?hm (ceReadAll_moves ..) ?_; (case hm => decide))
    | (with_reducible apply Moves.next ?hm (modOp_moves ..) ?_; (case hm => decide))
    | split
    | (with_reducible apply Moves.fst_of ?he ?_; (case he => with_reducible assumption))

theorem ceTail_moves (s c h) : Moves 0x8000000009303f8 s (ceTail s c h) := by
  unfold ceTail
  repeat' first
    | (extract_lets +onlyGivenNames x; clear_value x; revert x; intro _)
    | with_reducible apply Moves.ite
    | with_reducible exact Moves.refl _ _
    | (with_reducible apply Moves.next ?hm (ceTrouble_moves ..) ?_; (case hm => decide))
    | (with_reducible apply Moves.next ?hm (ceReadAll_moves ..) ?_; (case hm => decide))
    | (with_reducible apply Moves.next ?hm (modOp_moves ..) ?_; (case hm => decide))
    | split
    | (with_reducible apply Moves.fst_of ?he ?_; (case he => with_reducible assumption))

theorem ceTails_moves (s c) : Moves 0x8000000009303f8 s (ceTails s c) := by
  unfold ceTails
  repeat' first
    | with_reducible apply Moves.ite
    | with_reducible exact Moves.refl _ _
    | (with_reducible apply Moves.next ?hm (ceTail_moves ..) ?_; (case hm => decide))
    | with_reducible apply Moves.foldl _ (fun s x => ?_) _ ?_
    | split

theorem ceApplied_moves (s c pkt forwarded) : Moves 0x900008 s (ceApplied s c pkt forwarded) := by
  unfold ceApplied
  repeat' first
    | (extract_lets +onlyGivenNames t; refine Moves.cut (t := t) ?_ (fun ht => ?_); (on_goal 2 => (clear_value t; revert t; intro _ _)); (on_goal 1 => (unfold t; clear t)))
    | (extract_lets +onlyGivenNames x; clear_value x; revert x; intro _)
    | with_reducible apply Moves.ite
    | with_reducible exact Moves.refl _ _
    | with_reducible assumption
    | (with_reducible apply Moves.next ?hm (sendPkt_moves ..) ?_; (case hm => decide))
    | (with_reducible apply Moves.next ?hm (addStat_moves ..) ?_; (case hm => decide))
    | (with_reducible apply Moves.next ?hm (ceFree_moves ..) ?_; (case hm => decide))
    | (with_reducible apply Moves.next ?hm (modOp_moves ..) ?_; (case hm => decide))
    | split

theorem ceQueue_moves (s c x) : Moves 0x800000 s (ceQueue s c x) := by
  unfold ceQueue
  repeat' first
    | with_reducible exact Moves.refl _ _
    | (with_reducible apply Moves.next ?hm (modOp_moves ..) ?_; (case hm => decide))

theorem ceHold_moves (s c pkt) : Moves 0x800000 s (ceHold s c pkt) := by
  unfold ceHold
  repeat' first
    | with_reducible exact Moves.refl _ _
    | (with_reducible apply Moves.next ?hm (modOp_moves ..) ?_; (case hm => decide))

theorem ceLand_moves (s c o plus base st pseq acc pkt) : Moves 0x8000000049303f8 s (ceLand s c o plus base st pseq acc pkt) := by
  unfold ceLand
  repeat' first
    | (extract_lets +onlyGivenNames t; refine Moves.cut (t := t) ?_ (fun ht => ?_); (on_goal 2 => (clear_value t; revert t; intro _ _)); (on_goal 1 => (unfold t; clear t)))
    | (extract_lets +onlyGivenNames x; clear_value x; revert x; intro _)
    | with_reducible apply Moves.ite
    | with_reducible exact Moves.refl _ _
    | with_reducible assumption
    | (with_reducible apply Moves.next ?hm (ceHold_moves ..) ?_; (case hm => decide))
    | (with_reducible apply Moves.next ?hm (ceApplied_moves ..) ?_; (case hm => decide))
    | (with_reducible apply Moves.next ?hm (ceWrite_moves ..) ?_; (case hm => decide))
    | (with_reducible apply Moves.next ?hm (ceTrouble_moves ..) ?_; (case hm => decide))
    | (with_reducible apply Moves.next ?hm (finalFlags_moves ..) ?_; (case hm => decide))
    | (with_reducible apply Moves.next ?hm (ceQueue_moves ..) ?_; (case hm => decide))
    | split
    | (with_reducible apply Moves.fst_of ?he ?_; (case he => with_reducible assumption))

theorem ceRingReduce_moves (s c o pkt) : Moves 0x8000000049303f8 s (ceRingReduce s c o pkt) := by
  unfold ceRingReduce
  repeat' first
    | (extract_lets +onlyGivenNames t; refine Moves.cut (t := t) ?_ (fun ht => ?_); (on_goal 2 => (clear_value t; revert t; intro _ _)); (on_goal 1 => (unfold t; clear t)))
    | (extract_lets +onlyGivenNames x; clear_value x; revert x; intro _)
    | with_reducible apply Moves.ite
    | with_reducible exact Moves.refl _ _
    | with_reducible assumption
    | (with_reducible apply Moves.next ?hm (ceLand_moves ..) ?_; (case hm => decide))
    | (with_reducible apply Moves.next ?hm (ceNoteRead_moves ..) ?_; (case hm => decide))
    | (with_reducible apply Moves.next ?hm (ceHold_moves ..) ?_; (case hm => decide))
    | (with_reducible apply Moves.next ?hm (ceApplied_moves ..) ?_; (case hm => decide))
    | (with_reducible apply Moves.next ?hm (ceTrouble_moves ..) ?_; (case hm => decide))
    | (with_reducible apply Moves.next ?hm (addFlags_moves ..) ?_; (case hm => decide))
    | (with_reducible apply Moves.next ?hm (ceQueue_moves ..) ?_; (case hm => decide))
    | (with_reducible apply Moves.next ?hm (ceRead_moves ..) ?_; (case hm => decide))
    | split
    | (with_reducible apply Moves.fst_of ?he ?_; (case he => with_reducible assumption))

theorem ceDirectReduce_moves (s c o pkt) : Moves 0x8000000049303f8 s (ceDirectReduce s c o pkt) := by
  unfold ceDirectReduce
  repeat' first
    | (extract_lets +onlyGivenNames t; refine Moves.cut (t := t) ?_ (fun ht => ?_); (on_goal 2 => (clear_value t; revert t; intro _ _)); (on_goal 1 => (unfold t; clear t)))
    | (extract_lets +onlyGivenNames x; clear_value x; revert x; intro _)
    | with_reducible apply Moves.ite
    | with_reducible exact Moves.refl _ _
    | with_reducible assumption
    | (with_reducible apply Moves.next ?hm (ceLand_moves ..) ?_; (case hm => decide))
    | (with_reducible apply Moves.next ?hm (ceNoteRead_moves ..) ?_; (case hm => decide))
    | (with_reducible apply Moves.next ?hm (ceHold_moves ..) ?_; (case hm => decide))
    | (with_reducible apply Moves.next ?hm (ceApplied_moves ..) ?_; (case hm => decide))
    | (with_reducible apply Moves.next ?hm (ceTrouble_moves ..) ?_; (case hm => decide))
    | (with_reducible apply Moves.next ?hm (addFlags_moves ..) ?_; (case hm => decide))
    | (with_reducible apply Moves.next ?hm (modOp_moves ..) ?_; (case hm => decide))
    | (with_reducible apply Moves.next ?hm (ceRead_moves ..) ?_; (case hm => decide))
    | split
    | (with_reducible apply Moves.fst_of ?he ?_; (case he => with_reducible assumption))

theorem ceCopyReduce_moves (s c o pkt) : Moves 0x8000000049303f8 s (ceCopyReduce s c o pkt) := by
  unfold ceCopyReduce
  dsimp only
  repeat' first
    | with_reducible apply Moves.ite
    | with_reducible exact Moves.refl _ _
    | (with_reducible apply Moves.next ?hm (ceHold_moves ..) ?_; (case hm => decide))
    | (with_reducible apply Moves.next ?hm (ceApplied_moves ..) ?_; (case hm => decide))
    | (with_reducible apply Moves.next ?hm (ceWrite_moves ..) ?_; (case hm => decide))
    | (with_reducible apply Moves.next ?hm (ceTrouble_moves ..) ?_; (case hm => decide))
    | (with_reducible apply Moves.next ?hm (ceQueue_moves ..) ?_; (case hm => decide))
    | (with_reducible apply Moves.next ?hm (modOp_moves ..) ?_; (case hm => decide))
    | split
    | (with_reducible apply Moves.fst_of ?he ?_; (case he => with_reducible assumption))

theorem ceRctr_moves (s c o step) : Moves 0x80 s (ceRctr s c o step) := by
  unfold ceRctr
  repeat' first
    | with_reducible apply Moves.ite
    | with_reducible exact Moves.refl _ _
    | (with_reducible apply Moves.next ?hm (signalUnit_moves ..) ?_; (case hm => decide))
    | split

theorem ceCopyBytes_moves (s c o pkt) : Moves 0x8000000049303f8 s (ceCopyBytes s c o pkt) := by
  unfold ceCopyBytes
  repeat' first
    | (extract_lets +onlyGivenNames t; refine Moves.cut (t := t) ?_ (fun ht => ?_); (on_goal 2 => (clear_value t; revert t; intro _ _)); (on_goal 1 => (unfold t; clear t)))
    | (extract_lets +onlyGivenNames x; clear_value x; revert x; intro _)
    | with_reducible apply Moves.ite
    | with_reducible exact Moves.refl _ _
    | with_reducible assumption
    | (with_reducible apply Moves.next ?hm (ceHold_moves ..) ?_; (case hm => decide))
    | (with_reducible apply Moves.next ?hm (ceApplied_moves ..) ?_; (case hm => decide))
    | (with_reducible apply Moves.next ?hm (ceWrite_moves ..) ?_; (case hm => decide))
    | (with_reducible apply Moves.next ?hm (ceTrouble_moves ..) ?_; (case hm => decide))
    | (with_reducible apply Moves.next ?hm (ceQueue_moves ..) ?_; (case hm => decide))
    | (with_reducible apply Moves.next ?hm (ceRctr_moves ..) ?_; (case hm => decide))
    | split
    | (with_reducible apply Moves.fst_of ?he ?_; (case he => with_reducible assumption))

theorem ceMismatch_moves (s c pkt) : Moves 0x8000000009003f8 s (ceMismatch s c pkt) := by
  unfold ceMismatch
  repeat' first
    | with_reducible exact Moves.refl _ _
    | (with_reducible apply Moves.next ?hm (sendNack_moves ..) ?_; (case hm => decide))
    | (with_reducible apply Moves.next ?hm (ceFault_moves ..) ?_; (case hm => decide))

theorem ceApply_moves (s c pkt) : Moves 0x8000000049303f8 s (ceApply s c pkt) := by
  unfold ceApply
  repeat' first
    | (extract_lets +onlyGivenNames x; clear_value x; revert x; intro _)
    | with_reducible apply Moves.ite
    | with_reducible exact Moves.refl _ _
    | (with_reducible apply Moves.next ?hm (ceMismatch_moves ..) ?_; (case hm => decide))
    | (with_reducible apply Moves.next ?hm (ceHold_moves ..) ?_; (case hm => decide))
    | (with_reducible apply Moves.next ?hm (ceRingReduce_moves ..) ?_; (case hm => decide))
    | (with_reducible apply Moves.next ?hm (ceFree_moves ..) ?_; (case hm => decide))
    | (with_reducible apply Moves.next ?hm (ceCopyBytes_moves ..) ?_; (case hm => decide))
    | (with_reducible apply Moves.next ?hm (ceDirectReduce_moves ..) ?_; (case hm => decide))
    | (with_reducible apply Moves.next ?hm (ceCopyReduce_moves ..) ?_; (case hm => decide))
    | split

theorem ceRetry_moves (c x1 x2) : Moves 0x8000000049303f8 x2 (ceRetry c x1 x2) := by
  induction x1 generalizing x2 with
    | zero => ?_
    | succ n ih => ?_
  all_goals unfold ceRetry
  repeat' first
    | (extract_lets +onlyGivenNames t; refine Moves.cut (t := t) ?_ (fun ht => ?_); (on_goal 2 => (clear_value t; revert t; intro _ _)); (on_goal 1 => (unfold t; clear t)))
    | with_reducible apply Moves.ite
    | with_reducible exact Moves.refl _ _
    | with_reducible assumption
    | (with_reducible apply Moves.next ?hm (ceApply_moves ..) ?_; (case hm => decide))
    | (with_reducible apply Moves.next ?hm (modOp_moves ..) ?_; (case hm => decide))
    | with_reducible apply Moves.trans (ih ..) ?_
    | with_reducible apply Moves.foldl _ (fun s x => ?_) _ ?_
    | split

theorem ceSendReady_moves (s c o far step bs) : Moves 0x100000 s (ceSendReady s c o far step bs) := by
  unfold ceSendReady
  repeat' first
    | with_reducible exact Moves.refl _ _
    | (with_reducible apply Moves.next ?hm (sendPkt_moves ..) ?_; (case hm => decide))

theorem cePassOne_moves (s c o) : Moves 0x900000 s (cePassOne s c o) := by
  unfold cePassOne
  repeat' first
    | with_reducible exact Moves.refl _ _
    | (with_reducible apply Moves.next ?hm (ceSendReady_moves ..) ?_; (case hm => decide))
    | (with_reducible apply Moves.next ?hm (setOp_moves ..) ?_; (case hm => decide))

theorem cePassReady_moves (c x1 x2) : Moves 0x8000000009003f8 x2 (cePassReady c x1 x2) := by
  induction x1 generalizing x2 with
    | zero => ?_
    | succ n ih => ?_
  all_goals unfold cePassReady
  repeat' first
    | (extract_lets +onlyGivenNames x; clear_value x; revert x; intro _)
    | with_reducible apply Moves.ite
    | with_reducible exact Moves.refl _ _
    | (with_reducible apply Moves.next ?hm (cePassOne_moves ..) ?_; (case hm => decide))
    | (with_reducible apply Moves.next ?hm (modEng_moves ..) ?_; (case hm => decide))
    | (with_reducible apply Moves.next ?hm (ceFault_moves ..) ?_; (case hm => decide))
    | (with_reducible apply Moves.next ?hm (takeCtr_moves ..) ?_; (case hm => decide))
    | with_reducible apply Moves.trans (ih ..) ?_
    | split

theorem ceTakeReady_moves (s c o pkt) : Moves 0x8000000009003f8 s (ceTakeReady s c o pkt) := by
  unfold ceTakeReady
  repeat' first
    | with_reducible apply Moves.ite
    | with_reducible exact Moves.refl _ _
    | (with_reducible apply Moves.next ?hm (ceMismatch_moves ..) ?_; (case hm => decide))
    | (with_reducible apply Moves.next ?hm (setOp_moves ..) ?_; (case hm => decide))

theorem ceTakeEarly_moves (s c) : Moves 0x8000000049303f8 s (ceTakeEarly s c) := by
  unfold ceTakeEarly
  repeat' first
    | with_reducible apply Moves.ite
    | with_reducible exact Moves.refl _ _
    | (with_reducible apply Moves.next ?hm (ceApply_moves ..) ?_; (case hm => decide))
    | (with_reducible apply Moves.next ?hm (ceTakeReady_moves ..) ?_; (case hm => decide))
    | (with_reducible apply Moves.next ?hm (modCe_moves ..) ?_; (case hm => decide))
    | with_reducible apply Moves.foldl _ (fun s x => ?_) _ ?_
    | split

theorem cePump_moves (s c) : Moves 0x8000000049303f8 s (cePump s c) := by
  unfold cePump
  repeat' first
    | (extract_lets +onlyGivenNames t; refine Moves.cut (t := t) ?_ (fun ht => ?_); (on_goal 2 => (clear_value t; revert t; intro _ _)); (on_goal 1 => (unfold t; clear t)))
    | (extract_lets +onlyGivenNames x; clear_value x; revert x; intro _)
    | with_reducible apply Moves.ite
    | with_reducible exact Moves.refl _ _
    | with_reducible assumption
    | (with_reducible apply Moves.next ?hm (ceLoc_moves ..) ?_; (case hm => decide))
    | (with_reducible apply Moves.next ?hm (ceTails_moves ..) ?_; (case hm => decide))
    | (with_reducible apply Moves.next ?hm (cePassReady_moves ..) ?_; (case hm => decide))
    | (with_reducible apply Moves.next ?hm (setOp_moves ..) ?_; (case hm => decide))
    | (with_reducible apply Moves.next ?hm (ceRetry_moves ..) ?_; (case hm => decide))
    | (with_reducible apply Moves.next ?hm (ceTakeEarly_moves ..) ?_; (case hm => decide))
    | split

theorem ceStart_moves (s c q o) : Moves 0x8000000049303f8 s (ceStart s c q o) := by
  unfold ceStart
  repeat' first
    | (extract_lets +onlyGivenNames t; refine Moves.cut (t := t) ?_ (fun ht => ?_); (on_goal 2 => (clear_value t; revert t; intro _ _)); (on_goal 1 => (unfold t; clear t)))
    | (extract_lets +onlyGivenNames x; clear_value x; revert x; intro _)
    | with_reducible apply Moves.ite
    | with_reducible exact Moves.refl _ _
    | with_reducible assumption
    | (with_reducible apply Moves.next ?hm (ceGrant_moves ..) ?_; (case hm => decide))
    | (with_reducible apply Moves.next ?hm (ceSendReady_moves ..) ?_; (case hm => decide))
    | (with_reducible apply Moves.next ?hm (ceNoteRead_moves ..) ?_; (case hm => decide))
    | (with_reducible apply Moves.next ?hm (popFront_moves ..) ?_; (case hm => decide))
    | (with_reducible apply Moves.next ?hm (ceFlush_moves ..) ?_; (case hm => decide))
    | (with_reducible apply Moves.next ?hm (cePump_moves ..) ?_; (case hm => decide))
    | (with_reducible apply Moves.next ?hm (modCe_moves ..) ?_; (case hm => decide))

theorem runCe_moves (s c op bad mk) : Moves 0x8000000049303f8 s (runCe s c op bad mk) := by
  unfold runCe
  repeat' first
    | (extract_lets +onlyGivenNames x; clear_value x; revert x; intro _)
    | with_reducible apply Moves.ite
    | with_reducible exact Moves.refl _ _
    | (with_reducible apply Moves.next ?hm (takeW_moves ..) ?_; (case hm => decide))
    | (with_reducible apply Moves.next ?hm (faultQ_moves ..) ?_; (case hm => decide))
    | (with_reducible apply Moves.next ?hm (ceStart_moves ..) ?_; (case hm => decide))
    | split
    | (with_reducible apply Moves.fst_of ?he ?_; (case he => with_reducible assumption))

theorem doCeAllreduce_moves (s c) : Moves 0x8000000049303f8 s (doCeAllreduce s c) := by
  unfold doCeAllreduce
  repeat' first
    | with_reducible exact Moves.refl _ _
    | (with_reducible apply Moves.next ?hm (runCe_moves ..) ?_; (case hm => decide))

theorem doCeReducescatter_moves (s c) : Moves 0x8000000049303f8 s (doCeReducescatter s c) := by
  unfold doCeReducescatter
  repeat' first
    | with_reducible exact Moves.refl _ _
    | (with_reducible apply Moves.next ?hm (runCe_moves ..) ?_; (case hm => decide))

theorem doCeAllgather_moves (s c) : Moves 0x8000000049303f8 s (doCeAllgather s c) := by
  unfold doCeAllgather
  repeat' first
    | with_reducible exact Moves.refl _ _
    | (with_reducible apply Moves.next ?hm (runCe_moves ..) ?_; (case hm => decide))

theorem doCeBcast_moves (s c) : Moves 0x8000000049303f8 s (doCeBcast s c) := by
  unfold doCeBcast
  repeat' first
    | with_reducible exact Moves.refl _ _
    | (with_reducible apply Moves.next ?hm (runCe_moves ..) ?_; (case hm => decide))

theorem doCeSend_moves (s c) : Moves 0x8000000049303f8 s (doCeSend s c) := by
  unfold doCeSend
  repeat' first
    | with_reducible exact Moves.refl _ _
    | (with_reducible apply Moves.next ?hm (runCe_moves ..) ?_; (case hm => decide))

theorem doCeRecv_moves (s c) : Moves 0x8000000049303f8 s (doCeRecv s c) := by
  unfold doCeRecv
  repeat' first
    | with_reducible exact Moves.refl _ _
    | (with_reducible apply Moves.next ?hm (runCe_moves ..) ?_; (case hm => decide))

theorem doCeRingpass_moves (s c) : Moves 0x8000000049303f8 s (doCeRingpass s c) := by
  unfold doCeRingpass
  repeat' first
    | with_reducible exact Moves.refl _ _
    | (with_reducible apply Moves.next ?hm (runCe_moves ..) ?_; (case hm => decide))

theorem ceUse_moves (s c k plus loc) : Moves 0x800000 s (ceUse s c k plus loc) := by
  unfold ceUse
  repeat' first
    | with_reducible apply Moves.ite
    | with_reducible exact Moves.refl _ _
    | (with_reducible apply Moves.next ?hm (modCe_moves ..) ?_; (case hm => decide))

theorem ceHeard_moves (s c k) : Moves 0x800000 s (ceHeard s c k) := by
  unfold ceHeard
  repeat' first
    | with_reducible exact Moves.refl _ _
    | (with_reducible apply Moves.next ?hm (modOp_moves ..) ?_; (case hm => decide))

theorem ceEmit_moves (s c o x d) : Moves 0x900008 s (ceEmit s c o x d) := by
  unfold ceEmit
  repeat' first
    | (extract_lets +onlyGivenNames t; refine Moves.cut (t := t) ?_ (fun ht => ?_); (on_goal 2 => (clear_value t; revert t; intro _ _)); (on_goal 1 => (unfold t; clear t)))
    | (extract_lets +onlyGivenNames x; clear_value x; revert x; intro _)
    | with_reducible exact Moves.refl _ _
    | with_reducible assumption
    | (with_reducible apply Moves.next ?hm (sendPkt_moves ..) ?_; (case hm => decide))
    | (with_reducible apply Moves.next ?hm (ceUse_moves ..) ?_; (case hm => decide))
    | (with_reducible apply Moves.next ?hm (ceHeard_moves ..) ?_; (case hm => decide))
    | (with_reducible apply Moves.next ?hm (addStat_moves ..) ?_; (case hm => decide))
    | (with_reducible apply Moves.next ?hm (sendMulticast_moves ..) ?_; (case hm => decide))
    | with_reducible apply Moves.foldl _ (fun s x => ?_) _ ?_
    | split

theorem ceAdvance_moves (s c k x) : Moves 0x800000 s (ceAdvance s c k x) := by
  unfold ceAdvance
  repeat' first
    | with_reducible exact Moves.refl _ _
    | (with_reducible apply Moves.next ?hm (modOp_moves ..) ?_; (case hm => decide))

theorem ceLocal_moves (s c k o x d) : Moves 0x8000000049303f8 s (ceLocal s c k o x d) := by
  unfold ceLocal
  repeat' first
    | (extract_lets +onlyGivenNames t; refine Moves.cut (t := t) ?_ (fun ht => ?_); (on_goal 2 => (clear_value t; revert t; intro _ _)); (on_goal 1 => (unfold t; clear t)))
    | (extract_lets +onlyGivenNames x; clear_value x; revert x; intro _)
    | with_reducible apply Moves.ite
    | with_reducible exact Moves.refl _ _
    | with_reducible assumption
    | (with_reducible apply Moves.next ?hm (ceNoteRead_moves ..) ?_; (case hm => decide))
    | (with_reducible apply Moves.next ?hm (ceWrite_moves ..) ?_; (case hm => decide))
    | (with_reducible apply Moves.next ?hm (ceTrouble_moves ..) ?_; (case hm => decide))
    | (with_reducible apply Moves.next ?hm (finalFlags_moves ..) ?_; (case hm => decide))
    | (with_reducible apply Moves.next ?hm (ceAdvance_moves ..) ?_; (case hm => decide))
    | split
    | (with_reducible apply Moves.fst_of ?he ?_; (case he => with_reducible assumption))

theorem cePieceSend_moves (s c k) : Moves 0x8000000049303f8 s (cePieceSend s c k) := by
  unfold cePieceSend
  repeat' first
    | (extract_lets +onlyGivenNames t; refine Moves.cut (t := t) ?_ (fun ht => ?_); (on_goal 2 => (clear_value t; revert t; intro _ _)); (on_goal 1 => (unfold t; clear t)))
    | (extract_lets +onlyGivenNames x; clear_value x; revert x; intro _)
    | with_reducible apply Moves.ite
    | with_reducible exact Moves.refl _ _
    | with_reducible assumption
    | (with_reducible apply Moves.next ?hm (ceNoteRead_moves ..) ?_; (case hm => decide))
    | (with_reducible apply Moves.next ?hm (ceTrouble_moves ..) ?_; (case hm => decide))
    | (with_reducible apply Moves.next ?hm (ceEmit_moves ..) ?_; (case hm => decide))
    | (with_reducible apply Moves.next ?hm (ceFreeSlot_moves ..) ?_; (case hm => decide))
    | (with_reducible apply Moves.next ?hm (ceFlush_moves ..) ?_; (case hm => decide))
    | (with_reducible apply Moves.next ?hm (ceAdvance_moves ..) ?_; (case hm => decide))
    | (with_reducible apply Moves.next ?hm (ceLocal_moves ..) ?_; (case hm => decide))
    | (with_reducible apply Moves.next ?hm (setF_moves ..) ?_; (case hm => decide))
    | (with_reducible apply Moves.next ?hm (cePump_moves ..) ?_; (case hm => decide))
    | (with_reducible apply Moves.next ?hm (ceRead_moves ..) ?_; (case hm => decide))
    | split
    | (with_reducible apply Moves.fst_of ?he ?_; (case he => with_reducible assumption))

theorem ceBadKind_moves (s c k) : Moves 0x8000000009003f8 s (ceBadKind s c k) := by
  unfold ceBadKind
  repeat' first
    | (extract_lets +onlyGivenNames x; clear_value x; revert x; intro _)
    | with_reducible apply Moves.ite
    | with_reducible exact Moves.refl _ _
    | (with_reducible apply Moves.next ?hm (faultQ_moves ..) ?_; (case hm => decide))
    | (with_reducible apply Moves.next ?hm (ceFault_moves ..) ?_; (case hm => decide))
    | (with_reducible apply Moves.next ?hm (faultEngine_moves ..) ?_; (case hm => decide))
    | split

theorem atCe_moves {m : Nat} {k} (hm : 0x8000000009003f8 ||| m = m) (hf : ∀ n s, Moves m s (k n s)) (s pkt kinds) :
    Moves m s (atCe s pkt kinds k) := by
  unfold atCe
  repeat' first
    | (extract_lets +onlyGivenNames x; clear_value x; revert x; intro _)
    | with_reducible apply Moves.ite
    | with_reducible exact Moves.refl _ _
    | with_reducible apply Moves.trans (hf ..) ?_
    | (with_reducible apply Moves.next ?hm (sendNack_moves ..) ?_; (case hm => exact le_of hm (by decide)))
    | (with_reducible apply Moves.next ?hm (ceBadKind_moves ..) ?_; (case hm => exact le_of hm (by decide)))
    | (with_reducible apply Moves.trans (atEndpoint_moves ?hm (fun s => ?_) ..) ?_; (case hm => exact le_of hm (by decide)))

theorem cePiece_moves (s c pkt) : Moves 0x8000000049303f8 s (cePiece s c pkt) := by
  unfold cePiece
  dsimp only
  repeat' first
    | with_reducible apply Moves.ite
    | with_reducible exact Moves.refl _ _
    | (with_reducible apply Moves.next ?hm (ceHeard_moves ..) ?_; (case hm => decide))
    | (with_reducible apply Moves.next ?hm (ceApply_moves ..) ?_; (case hm => decide))
    | (with_reducible apply Moves.next ?hm (ceFlush_moves ..) ?_; (case hm => decide))
    | (with_reducible apply Moves.next ?hm (ceTakeReady_moves ..) ?_; (case hm => decide))
    | (with_reducible apply Moves.next ?hm (ceFree_moves ..) ?_; (case hm => decide))
    | (with_reducible apply Moves.next ?hm (cePump_moves ..) ?_; (case hm => decide))
    | (with_reducible apply Moves.next ?hm (modCe_moves ..) ?_; (case hm => decide))
    | split

theorem ceReducePkt_moves (s pkt) : Moves 0x8000000049303f8 s (ceReducePkt s pkt) := by
  unfold ceReducePkt
  repeat' first
    | with_reducible exact Moves.refl _ _
    | (with_reducible apply Moves.trans (atCe_moves ?hm (fun n s => ?_) ..) ?_; (case hm => decide))
    | (with_reducible apply Moves.next ?hm (cePiece_moves ..) ?_; (case hm => decide))

theorem ceCopyPkt_moves (s pkt) : Moves 0x8000000049303f8 s (ceCopyPkt s pkt) := by
  unfold ceCopyPkt
  repeat' first
    | with_reducible exact Moves.refl _ _
    | (with_reducible apply Moves.trans (atCe_moves ?hm (fun n s => ?_) ..) ?_; (case hm => decide))
    | (with_reducible apply Moves.next ?hm (cePiece_moves ..) ?_; (case hm => decide))

theorem ceReadyPkt_moves (s pkt) : Moves 0x8000000049303f8 s (ceReadyPkt s pkt) := by
  unfold ceReadyPkt
  repeat' first
    | with_reducible exact Moves.refl _ _
    | (with_reducible apply Moves.trans (atCe_moves ?hm (fun n s => ?_) ..) ?_; (case hm => decide))
    | (with_reducible apply Moves.next ?hm (cePiece_moves ..) ?_; (case hm => decide))

theorem ceCreditPkt_moves (s pkt) : Moves 0x8000000009003f8 s (ceCreditPkt s pkt) := by
  unfold ceCreditPkt
  repeat' first
    | (extract_lets +onlyGivenNames t; refine Moves.cut (t := t) ?_ (fun ht => ?_); (on_goal 2 => (clear_value t; revert t; intro _ _)); (on_goal 1 => (unfold t; clear t)))
    | (extract_lets +onlyGivenNames x; clear_value x; revert x; intro _)
    | with_reducible apply Moves.ite
    | with_reducible exact Moves.refl _ _
    | with_reducible assumption
    | (with_reducible apply Moves.next ?hm (ceHeard_moves ..) ?_; (case hm => decide))
    | (with_reducible apply Moves.trans (atCe_moves ?hm (fun n s => ?_) ..) ?_; (case hm => decide))
    | (with_reducible apply Moves.next ?hm (modCe_moves ..) ?_; (case hm => decide))

theorem ceDonePkt_moves (s pkt) : Moves 0x8000000009003f8 s (ceDonePkt s pkt) := by
  unfold ceDonePkt
  repeat' first
    | (extract_lets +onlyGivenNames x; clear_value x; revert x; intro _)
    | with_reducible apply Moves.ite
    | with_reducible exact Moves.refl _ _
    | (with_reducible apply Moves.next ?hm (ceHeard_moves ..) ?_; (case hm => decide))
    | (with_reducible apply Moves.trans (atCe_moves ?hm (fun n s => ?_) ..) ?_; (case hm => decide))
    | (with_reducible apply Moves.next ?hm (modOp_moves ..) ?_; (case hm => decide))
    | split

theorem ceArrivePkt_moves (s pkt) : Moves 0x8000000009003f8 s (ceArrivePkt s pkt) := by
  unfold ceArrivePkt
  repeat' first
    | with_reducible exact Moves.refl _ _
    | (with_reducible apply Moves.trans (atCe_moves ?hm (fun n s => ?_) ..) ?_; (case hm => decide))
    | (with_reducible apply Moves.next ?hm (torusCount_moves ..) ?_; (case hm => decide))

theorem ceReleasePkt_moves (s pkt) : Moves 0x8000000009003f8 s (ceReleasePkt s pkt) := by
  unfold ceReleasePkt
  repeat' first
    | with_reducible exact Moves.refl _ _
    | (with_reducible apply Moves.next ?hm (torusReleaseIn_moves ..) ?_; (case hm => decide))
    | (with_reducible apply Moves.trans (atCe_moves ?hm (fun n s => ?_) ..) ?_; (case hm => decide))

theorem ceNacked_moves (s c pkt) : Moves 0x8000000009003f8 s (ceNacked s c pkt) := by
  unfold ceNacked
  repeat' first
    | (extract_lets +onlyGivenNames x; clear_value x; revert x; intro _)
    | with_reducible apply Moves.ite
    | with_reducible exact Moves.refl _ _
    | (with_reducible apply Moves.next ?hm (overrunCtx_moves ..) ?_; (case hm => decide))
    | (with_reducible apply Moves.next ?hm (orphanCtx_moves ..) ?_; (case hm => decide))
    | (with_reducible apply Moves.next ?hm (ceFault_moves ..) ?_; (case hm => decide))
    | split

theorem ceStats_moves (s c o) : Moves 0x8 s (ceStats s c o) := by
  unfold ceStats
  dsimp only
  repeat' first
    | with_reducible apply Moves.ite
    | with_reducible exact Moves.refl _ _
    | (with_reducible apply Moves.next ?hm (addStat_moves ..) ?_; (case hm => decide))
    | (with_reducible apply Moves.next ?hm (setF_moves ..) ?_; (case hm => decide))

theorem ceOwnStats_moves (s c) : Moves 0x8000000009303f8 s (ceOwnStats s c) := by
  unfold ceOwnStats
  repeat' first
    | (extract_lets +onlyGivenNames x; clear_value x; revert x; intro _)
    | with_reducible apply Moves.ite
    | with_reducible exact Moves.refl _ _
    | (with_reducible apply Moves.next ?hm (ceTrouble_moves ..) ?_; (case hm => decide))
    | (with_reducible apply Moves.next ?hm (ceReadAll_moves ..) ?_; (case hm => decide))
    | (with_reducible apply Moves.next ?hm (modOp_moves ..) ?_; (case hm => decide))
    | split
    | (with_reducible apply Moves.fst_of ?he ?_; (case he => with_reducible assumption))

theorem ceComplete_moves (s c) : Moves 0x8000000049303f8 s (ceComplete s c) := by
  unfold ceComplete
  repeat' first
    | (extract_lets +onlyGivenNames t; refine Moves.cut (t := t) ?_ (fun ht => ?_); (on_goal 2 => (clear_value t; revert t; intro _ _)); (on_goal 1 => (unfold t; clear t)))
    | with_reducible apply Moves.ite
    | with_reducible exact Moves.refl _ _
    | with_reducible assumption
    | (with_reducible apply Moves.next ?hm (ceStats_moves ..) ?_; (case hm => decide))
    | (with_reducible apply Moves.next ?hm (completeDone_moves ..) ?_; (case hm => decide))
    | (with_reducible apply Moves.next ?hm (cePump_moves ..) ?_; (case hm => decide))
    | (with_reducible apply Moves.next ?hm (ceOwnStats_moves ..) ?_; (case hm => decide))
    | (with_reducible apply Moves.next ?hm (modCe_moves ..) ?_; (case hm => decide))
    | split

theorem cePeerTimeout_moves (s c) : Moves 0x8000000009003f8 s (cePeerTimeout s c) := by
  unfold cePeerTimeout
  repeat' first
    | (extract_lets +onlyGivenNames x; clear_value x; revert x; intro _)
    | with_reducible apply Moves.ite
    | with_reducible exact Moves.refl _ _
    | (with_reducible apply Moves.next ?hm (ceFault_moves ..) ?_; (case hm => decide))
    | split

theorem ceConfigWrite_moves (s c off v) : Moves 0x8 s (ceConfigWrite s c off v) := by
  unfold ceConfigWrite
  repeat' first
    | (extract_lets +onlyGivenNames x; clear_value x; revert x; intro _)
    | with_reducible apply Moves.ite
    | with_reducible exact Moves.refl _ _
    | (with_reducible apply Moves.next ?hm (cmdErr_moves ..) ?_; (case hm => decide))
    | (with_reducible apply Moves.next ?hm (regSet_moves ..) ?_; (case hm => decide))
    | split

theorem setTimeState_moves (s v) : Moves 0x8 s (setTimeState s v) := by
  unfold setTimeState
  repeat' first
    | with_reducible exact Moves.refl _ _
    | (with_reducible apply Moves.next ?hm (setF_moves ..) ?_; (case hm => decide))

theorem slewTo_moves (s off) : Moves 0x1000004 s (slewTo s off) := by
  unfold slewTo
  repeat' first
    | (extract_lets +onlyGivenNames x; clear_value x; revert x; intro _)
    | with_reducible exact Moves.refl _ _
    | (with_reducible apply Moves.next ?hm (freshWord_moves ..) ?_; (case hm => decide))
    | split
    | (with_reducible apply Moves.snd_of ?he ?_; (case he => with_reducible assumption))
    | refine Moves.upd rfl (fun h => by cases h; constructor <;> first | assumption | (try dsimp only; first | exact mapSet_wf _ _ _ _ (by assumption) | exact mapMod_wf _ _ _ _ (by assumption) | exact mapDrop_wf _ _ _ (by assumption) | exact mapFilter_wf _ _ _ (by assumption) | exact pokeBytes_wf _ _ _ (by assumption) | exact foldl_wf _ _ (fun _ _ h => mapSet_wf _ _ _ _ h) _ (by assumption) | exact foldl_wf _ _ (fun _ _ h => mapMod_wf _ _ _ _ h) _ (by assumption) | exact rfl)) ?_

theorem stepGsc_moves (s off) : Moves 0x100000a s (stepGsc s off) := by
  unfold stepGsc
  repeat' first
    | (extract_lets +onlyGivenNames x; clear_value x; revert x; intro _)
    | with_reducible exact Moves.refl _ _
    | (with_reducible apply Moves.next ?hm (setF_moves ..) ?_; (case hm => decide))
    | refine Moves.upd rfl (fun h => by cases h; constructor <;> first | assumption | (try dsimp only; first | exact mapSet_wf _ _ _ _ (by assumption) | exact mapMod_wf _ _ _ _ (by assumption) | exact mapDrop_wf _ _ _ (by assumption) | exact mapFilter_wf _ _ _ (by assumption) | exact pokeBytes_wf _ _ _ (by assumption) | exact foldl_wf _ _ (fun _ _ h => mapSet_wf _ _ _ _ h) _ (by assumption) | exact foldl_wf _ _ (fun _ _ h => mapMod_wf _ _ _ _ h) _ (by assumption) | exact rfl)) ?_

theorem correct_moves (s off) : Moves 0x100000e s (correct s off) := by
  unfold correct
  repeat' first
    | (extract_lets +onlyGivenNames t; refine Moves.cut (t := t) ?_ (fun ht => ?_); (on_goal 2 => (clear_value t; revert t; intro _ _)); (on_goal 1 => (unfold t; clear t)))
    | (extract_lets +onlyGivenNames x; clear_value x; revert x; intro _)
    | with_reducible apply Moves.ite
    | with_reducible exact Moves.refl _ _
    | with_reducible assumption
    | (with_reducible apply Moves.next ?hm (slewTo_moves ..) ?_; (case hm => decide))
    | (with_reducible apply Moves.next ?hm (stepGsc_moves ..) ?_; (case hm => decide))
    | refine Moves.upd rfl (fun h => by cases h; constructor <;> first | assumption | (try dsimp only; first | exact mapSet_wf _ _ _ _ (by assumption) | exact mapMod_wf _ _ _ _ (by assumption) | exact mapDrop_wf _ _ _ (by assumption) | exact mapFilter_wf _ _ _ (by assumption) | exact pokeBytes_wf _ _ _ (by assumption) | exact foldl_wf _ _ (fun _ _ h => mapSet_wf _ _ _ _ h) _ (by assumption) | exact foldl_wf _ _ (fun _ _ h => mapMod_wf _ _ _ _ h) _ (by assumption) | exact rfl)) ?_

theorem countGood_moves (s off) : Moves 0x1000008 s (countGood s off) := by
  unfold countGood
  repeat' first
    | (extract_lets +onlyGivenNames t; refine Moves.cut (t := t) ?_ (fun ht => ?_); (on_goal 2 => (clear_value t; revert t; intro _ _)); (on_goal 1 => (unfold t; clear t)))
    | (extract_lets +onlyGivenNames x; clear_value x; revert x; intro _)
    | with_reducible apply Moves.ite
    | with_reducible exact Moves.refl _ _
    | with_reducible assumption
    | (with_reducible apply Moves.next ?hm (setTimeState_moves ..) ?_; (case hm => decide))
    | refine Moves.upd rfl (fun h => by cases h; constructor <;> first | assumption | (try dsimp only; first | exact mapSet_wf _ _ _ _ (by assumption) | exact mapMod_wf _ _ _ _ (by assumption) | exact mapDrop_wf _ _ _ (by assumption) | exact mapFilter_wf _ _ _ (by assumption) | exact pokeBytes_wf _ _ _ (by assumption) | exact foldl_wf _ _ (fun _ _ h => mapSet_wf _ _ _ _ h) _ (by assumption) | exact foldl_wf _ _ (fun _ _ h => mapMod_wf _ _ _ _ h) _ (by assumption) | exact rfl)) ?_

theorem gscExchange_moves (s) : Moves 0x200000001080000 s (gscExchange s) := by
  unfold gscExchange
  repeat' first
    | (extract_lets +onlyGivenNames t; refine Moves.cut (t := t) ?_ (fun ht => ?_); (on_goal 2 => (clear_value t; revert t; intro _ _)); (on_goal 1 => (unfold t; clear t)))
    | (extract_lets +onlyGivenNames x; clear_value x; revert x; intro _)
    | with_reducible apply Moves.ite
    | with_reducible exact Moves.refl _ _
    | with_reducible assumption
    | (with_reducible apply Moves.next ?hm (setTimer_moves ..) ?_; (case hm => decide))
    | (with_reducible apply Moves.next ?hm (flueMessage_moves ..) ?_; (case hm => decide))
    | split
    | refine Moves.upd rfl (fun h => by cases h; constructor <;> first | assumption | (try dsimp only; first | exact mapSet_wf _ _ _ _ (by assumption) | exact mapMod_wf _ _ _ _ (by assumption) | exact mapDrop_wf _ _ _ (by assumption) | exact mapFilter_wf _ _ _ (by assumption) | exact pokeBytes_wf _ _ _ (by assumption) | exact foldl_wf _ _ (fun _ _ h => mapSet_wf _ _ _ _ h) _ (by assumption) | exact foldl_wf _ _ (fun _ _ h => mapMod_wf _ _ _ _ h) _ (by assumption) | exact rfl)) ?_

theorem parentCheck_moves (s) : Moves 0x1000008 s (parentCheck s) := by
  unfold parentCheck
  repeat' first
    | (extract_lets +onlyGivenNames t; refine Moves.cut (t := t) ?_ (fun ht => ?_); (on_goal 2 => (clear_value t; revert t; intro _ _)); (on_goal 1 => (unfold t; clear t)))
    | (extract_lets +onlyGivenNames x; clear_value x; revert x; intro _)
    | with_reducible apply Moves.ite
    | with_reducible exact Moves.refl _ _
    | with_reducible assumption
    | (with_reducible apply Moves.next ?hm (setTimeState_moves ..) ?_; (case hm => decide))
    | refine Moves.upd rfl (fun h => by cases h; constructor <;> first | assumption | (try dsimp only; first | exact mapSet_wf _ _ _ _ (by assumption) | exact mapMod_wf _ _ _ _ (by assumption) | exact mapDrop_wf _ _ _ (by assumption) | exact mapFilter_wf _ _ _ (by assumption) | exact pokeBytes_wf _ _ _ (by assumption) | exact foldl_wf _ _ (fun _ _ h => mapSet_wf _ _ _ _ h) _ (by assumption) | exact foldl_wf _ _ (fun _ _ h => mapMod_wf _ _ _ _ h) _ (by assumption) | exact rfl)) ?_

theorem meetParent_moves (s) : Moves 0x1000008 s (meetParent s) := by
  unfold meetParent
  repeat' first
    | (extract_lets +onlyGivenNames t; refine Moves.cut (t := t) ?_ (fun ht => ?_); (on_goal 2 => (clear_value t; revert t; intro _ _)); (on_goal 1 => (unfold t; clear t)))
    | (extract_lets +onlyGivenNames x; clear_value x; revert x; intro _)
    | with_reducible exact Moves.refl _ _
    | with_reducible assumption
    | (with_reducible apply Moves.next ?hm (setTimeState_moves ..) ?_; (case hm => decide))
    | (with_reducible apply Moves.next ?hm (parentCheck_moves ..) ?_; (case hm => decide))
    | split
    | refine Moves.upd rfl (fun h => by cases h; constructor <;> first | assumption | (try dsimp only; first | exact mapSet_wf _ _ _ _ (by assumption) | exact mapMod_wf _ _ _ _ (by assumption) | exact mapDrop_wf _ _ _ (by assumption) | exact mapFilter_wf _ _ _ (by assumption) | exact pokeBytes_wf _ _ _ (by assumption) | exact foldl_wf _ _ (fun _ _ h => mapSet_wf _ _ _ _ h) _ (by assumption) | exact foldl_wf _ _ (fun _ _ h => mapMod_wf _ _ _ _ h) _ (by assumption) | exact rfl)) ?_

theorem gscTimeReply_moves (s t2 t3 frac parent) : Moves 0x100000e s (gscTimeReply s t2 t3 frac parent) := by
  unfold gscTimeReply
  repeat' first
    | (extract_lets +onlyGivenNames t; refine Moves.cut (t := t) ?_ (fun ht => ?_); (on_goal 2 => (clear_value t; revert t; intro _ _)); (on_goal 1 => (unfold t; clear t)))
    | (extract_lets +onlyGivenNames x; clear_value x; revert x; intro _)
    | with_reducible apply Moves.ite
    | with_reducible exact Moves.refl _ _
    | with_reducible assumption
    | (with_reducible apply Moves.next ?hm (meetParent_moves ..) ?_; (case hm => decide))
    | (with_reducible apply Moves.next ?hm (setTimeState_moves ..) ?_; (case hm => decide))
    | (with_reducible apply Moves.next ?hm (countGood_moves ..) ?_; (case hm => decide))
    | (with_reducible apply Moves.next ?hm (setF_moves ..) ?_; (case hm => decide))
    | (with_reducible apply Moves.next ?hm (correct_moves ..) ?_; (case hm => decide))
    | split
    | refine Moves.upd rfl (fun h => by cases h; constructor <;> first | assumption | (try dsimp only; first | exact mapSet_wf _ _ _ _ (by assumption) | exact mapMod_wf _ _ _ _ (by assumption) | exact mapDrop_wf _ _ _ (by assumption) | exact mapFilter_wf _ _ _ (by assumption) | exact pokeBytes_wf _ _ _ (by assumption) | exact foldl_wf _ _ (fun _ _ h => mapSet_wf _ _ _ _ h) _ (by assumption) | exact foldl_wf _ _ (fun _ _ h => mapMod_wf _ _ _ _ h) _ (by assumption) | exact rfl)) ?_

theorem gscHoldover_moves (s) : Moves 0x8 s (gscHoldover s) := by
  unfold gscHoldover
  repeat' first
    | with_reducible apply Moves.ite
    | with_reducible exact Moves.refl _ _
    | (with_reducible apply Moves.next ?hm (setTimeState_moves ..) ?_; (case hm => decide))

theorem ppsEdge_moves (s) : Moves 0x100000e s (ppsEdge s) := by
  unfold ppsEdge
  repeat' first
    | (extract_lets +onlyGivenNames t; refine Moves.cut (t := t) ?_ (fun ht => ?_); (on_goal 2 => (clear_value t; revert t; intro _ _)); (on_goal 1 => (unfold t; clear t)))
    | (extract_lets +onlyGivenNames x; clear_value x; revert x; intro _)
    | with_reducible apply Moves.ite
    | with_reducible exact Moves.refl _ _
    | with_reducible assumption
    | (with_reducible apply Moves.next ?hm (countGood_moves ..) ?_; (case hm => decide))
    | (with_reducible apply Moves.next ?hm (slewTo_moves ..) ?_; (case hm => decide))
    | (with_reducible apply Moves.next ?hm (stepGsc_moves ..) ?_; (case hm => decide))
    | (with_reducible apply Moves.next ?hm (setF_moves ..) ?_; (case hm => decide))
    | refine Moves.upd rfl (fun h => by cases h; constructor <;> first | assumption | (try dsimp only; first | exact mapSet_wf _ _ _ _ (by assumption) | exact mapMod_wf _ _ _ _ (by assumption) | exact mapDrop_wf _ _ _ (by assumption) | exact mapFilter_wf _ _ _ (by assumption) | exact pokeBytes_wf _ _ _ (by assumption) | exact foldl_wf _ _ (fun _ _ h => mapSet_wf _ _ _ _ h) _ (by assumption) | exact foldl_wf _ _ (fun _ _ h => mapMod_wf _ _ _ _ h) _ (by assumption) | exact rfl)) ?_

theorem ppsLost_moves (s) : Moves 0x1000008 s (ppsLost s) := by
  unfold ppsLost
  repeat' first
    | (extract_lets +onlyGivenNames x; clear_value x; revert x; intro _)
    | with_reducible apply Moves.ite
    | with_reducible exact Moves.refl _ _
    | (with_reducible apply Moves.next ?hm (setF_moves ..) ?_; (case hm => decide))
    | refine Moves.upd rfl (fun h => by cases h; constructor <;> first | assumption | (try dsimp only; first | exact mapSet_wf _ _ _ _ (by assumption) | exact mapMod_wf _ _ _ _ (by assumption) | exact mapDrop_wf _ _ _ (by assumption) | exact mapFilter_wf _ _ _ (by assumption) | exact pokeBytes_wf _ _ _ (by assumption) | exact foldl_wf _ _ (fun _ _ h => mapSet_wf _ _ _ _ h) _ (by assumption) | exact foldl_wf _ _ (fun _ _ h => mapMod_wf _ _ _ _ h) _ (by assumption) | exact rfl)) ?_

theorem ckCfgWrite_moves (s v) : Moves 0x1000008 s (ckCfgWrite s v) := by
  unfold ckCfgWrite
  repeat' first
    | (extract_lets +onlyGivenNames t; refine Moves.cut (t := t) ?_ (fun ht => ?_); (on_goal 2 => (clear_value t; revert t; intro _ _)); (on_goal 1 => (unfold t; clear t)))
    | (extract_lets +onlyGivenNames x; clear_value x; revert x; intro _)
    | with_reducible apply Moves.ite
    | with_reducible exact Moves.refl _ _
    | with_reducible assumption
    | (with_reducible apply Moves.next ?hm (setTimeState_moves ..) ?_; (case hm => decide))
    | (with_reducible apply Moves.next ?hm (setF_moves ..) ?_; (case hm => decide))
    | refine Moves.upd rfl (fun h => by cases h; constructor <;> first | assumption | (try dsimp only; first | exact mapSet_wf _ _ _ _ (by assumption) | exact mapMod_wf _ _ _ _ (by assumption) | exact mapDrop_wf _ _ _ (by assumption) | exact mapFilter_wf _ _ _ (by assumption) | exact pokeBytes_wf _ _ _ (by assumption) | exact foldl_wf _ _ (fun _ _ h => mapSet_wf _ _ _ _ h) _ (by assumption) | exact foldl_wf _ _ (fun _ _ h => mapMod_wf _ _ _ _ h) _ (by assumption) | exact rfl)) ?_

end Sys2Proof.Laws
end

