-- ==== Sys2Proof/Laws/MovesService.lean ====
section
/-! SUPPORT. What each operation may change: resets, replies, telemetry, kindling, the recall image and lending. One lemma for each, of the form of Laws/Moves.lean. -/
set_option linter.unusedVariables false
set_option linter.unusedTactic false
set_option linter.unreachableTactic false
set_option linter.tactic.unusedName false
namespace Sys2Proof.Laws
open Sys2Proof.Machine

theorem resetErr_moves (s) : Moves 0x8 s (resetErr s) := by
  unfold resetErr
  repeat' first
    | with_reducible exact Moves.refl _ _
    | (with_reducible apply Moves.next ?hm (setF_moves ..) ?_; (case hm => decide))

theorem acceptSigs_moves (s p) : Moves 0x8000000009003f8 s (acceptSigs s p) := by
  unfold acceptSigs
  repeat' first
    | with_reducible exact Moves.refl _ _
    | (with_reducible apply Moves.next ?hm (flushIncrs_moves ..) ?_; (case hm => decide))
    | (with_reducible apply Moves.next ?hm (modTile_moves ..) ?_; (case hm => decide))

theorem dropPend_moves (s p) : Moves 0x80 s (dropPend s p) := by
  unfold dropPend
  repeat' first
    | with_reducible exact Moves.refl _ _
    | (with_reducible apply Moves.next ?hm (modTile_moves ..) ?_; (case hm => decide))

theorem selfRefresh_moves (s st) : Moves 0x8 s (selfRefresh s st) := by
  unfold selfRefresh
  repeat' first
    | with_reducible exact Moves.refl _ _
    | (with_reducible apply Moves.next ?hm (setF_moves ..) ?_; (case hm => decide))

theorem stackIsolated_moves (s) : Moves 0x120000 s (stackIsolated s) := by
  unfold stackIsolated
  repeat' first
    | (extract_lets +onlyGivenNames t; refine Moves.cut (t := t) ?_ (fun ht => ?_); (on_goal 2 => (clear_value t; revert t; intro _ _)); (on_goal 1 => (unfold t; clear t)))
    | (extract_lets +onlyGivenNames x; revert x; intro _)
    | with_reducible apply Moves.ite
    | with_reducible exact Moves.refl _ _
    | with_reducible assumption
    | (with_reducible apply Moves.next ?hm (sendNack_moves ..) ?_; (case hm => decide))
    | with_reducible apply Moves.foldl _ (fun s x => ?_) _ ?_
    | split
    | refine Moves.upd rfl (fun h => by cases h; constructor <;> first | assumption | (try dsimp only; first | exact mapSet_wf _ _ _ _ (by assumption) | exact mapMod_wf _ _ _ _ (by assumption) | exact mapDrop_wf _ _ _ (by assumption) | exact mapFilter_wf _ _ _ (by assumption) | exact pokeBytes_wf _ _ _ (by assumption) | exact foldl_wf _ _ (fun _ _ h => mapSet_wf _ _ _ _ h) _ (by assumption) | exact foldl_wf _ _ (fun _ _ h => mapMod_wf _ _ _ _ h) _ (by assumption) | exact rfl)) ?_

theorem abandonFor_moves (s d) : Moves 0x8000100409123f8 s (abandonFor s d) := by
  unfold abandonFor
  repeat' first
    | (extract_lets +onlyGivenNames t; refine Moves.cut (t := t) ?_ (fun ht => ?_); (on_goal 2 => (clear_value t; revert t; intro _ _)); (on_goal 1 => (unfold t; clear t)))
    | with_reducible apply Moves.ite
    | with_reducible exact Moves.refl _ _
    | with_reducible assumption
    | (with_reducible apply Moves.next ?hm (abandonMove_moves ..) ?_; (case hm => decide))
    | (with_reducible apply Moves.next ?hm (setF_moves ..) ?_; (case hm => decide))
    | split
    | refine Moves.upd rfl (fun h => by cases h; constructor <;> first | assumption | (try dsimp only; first | exact mapSet_wf _ _ _ _ (by assumption) | exact mapMod_wf _ _ _ _ (by assumption) | exact mapDrop_wf _ _ _ (by assumption) | exact mapFilter_wf _ _ _ (by assumption) | exact pokeBytes_wf _ _ _ (by assumption) | exact foldl_wf _ _ (fun _ _ h => mapSet_wf _ _ _ _ h) _ (by assumption) | exact foldl_wf _ _ (fun _ _ h => mapMod_wf _ _ _ _ h) _ (by assumption) | exact rfl)) ?_

theorem acceptFor_moves (s d) : Moves 0x8000000009003f8 s (acceptFor s d) := by
  unfold acceptFor
  repeat' first
    | with_reducible apply Moves.ite
    | with_reducible exact Moves.refl _ _
    | (with_reducible apply Moves.next ?hm (acceptSigs_moves ..) ?_; (case hm => decide))

theorem beginReset_moves (s d cause coll) : Moves 0xa0001c0409b23f8 s (beginReset s d cause coll) := by
  unfold beginReset
  repeat' first
    | (extract_lets +onlyGivenNames t; refine Moves.cut (t := t) ?_ (fun ht => ?_); (on_goal 2 => (clear_value t; revert t; intro _ _)); (on_goal 1 => (unfold t; clear t)))
    | with_reducible apply Moves.ite
    | with_reducible exact Moves.refl _ _
    | with_reducible assumption
    | (with_reducible apply Moves.next ?hm (modFlue_moves ..) ?_; (case hm => decide))
    | (with_reducible apply Moves.next ?hm (selfRefresh_moves ..) ?_; (case hm => decide))
    | (with_reducible apply Moves.next ?hm (abandonFor_moves ..) ?_; (case hm => decide))
    | (with_reducible apply Moves.next ?hm (acceptFor_moves ..) ?_; (case hm => decide))
    | (with_reducible apply Moves.next ?hm (dropPend_moves ..) ?_; (case hm => decide))
    | (with_reducible apply Moves.next ?hm (isolateDomain_moves ..) ?_; (case hm => decide))
    | (with_reducible apply Moves.next ?hm (setFlueState_moves ..) ?_; (case hm => decide))
    | (with_reducible apply Moves.next ?hm (stackIsolated_moves ..) ?_; (case hm => decide))

theorem requestReset_moves (s d coll cause) : Moves 0xa0001c0409b23f8 s (requestReset s d coll cause) := by
  unfold requestReset
  repeat' first
    | (extract_lets +onlyGivenNames x; clear_value x; revert x; intro _)
    | with_reducible apply Moves.ite
    | with_reducible exact Moves.refl _ _
    | (with_reducible apply Moves.next ?hm (beginReset_moves ..) ?_; (case hm => decide))
    | (with_reducible apply Moves.next ?hm (resetErr_moves ..) ?_; (case hm => decide))
    | (with_reducible apply Moves.next ?hm (setDom_moves ..) ?_; (case hm => decide))
    | split

theorem resetHoldExpire_moves (s d) : Moves 0xa0001c0409b23f8 s (resetHoldExpire s d) := by
  unfold resetHoldExpire
  repeat' first
    | (extract_lets +onlyGivenNames x; clear_value x; revert x; intro _)
    | with_reducible apply Moves.ite
    | with_reducible exact Moves.refl _ _
    | (with_reducible apply Moves.next ?hm (beginReset_moves ..) ?_; (case hm => decide))
    | split

theorem debugTimeout_moves (s d) : Moves 0x200004040000000 s (debugTimeout s d) := by
  unfold debugTimeout
  repeat' first
    | (extract_lets +onlyGivenNames t; refine Moves.cut (t := t) ?_ (fun ht => ?_); (on_goal 2 => (clear_value t; revert t; intro _ _)); (on_goal 1 => (unfold t; clear t)))
    | (extract_lets +onlyGivenNames x; clear_value x; revert x; intro _)
    | with_reducible apply Moves.ite
    | with_reducible exact Moves.refl _ _
    | with_reducible assumption
    | (with_reducible apply Moves.next ?hm (setTimer_moves ..) ?_; (case hm => decide))
    | (with_reducible apply Moves.next ?hm (copyTimeout_moves ..) ?_; (case hm => decide))
    | (with_reducible apply Moves.next ?hm (setDom_moves ..) ?_; (case hm => decide))

theorem dropKeys_moves (s p) : Moves 0x8 s (dropKeys s p) := by
  unfold dropKeys
  repeat' first
    | with_reducible exact Moves.refl _ _
    | refine Moves.upd rfl (fun h => by cases h; constructor <;> first | assumption | (try dsimp only; first | exact mapSet_wf _ _ _ _ (by assumption) | exact mapMod_wf _ _ _ _ (by assumption) | exact mapDrop_wf _ _ _ (by assumption) | exact mapFilter_wf _ _ _ (by assumption) | exact pokeBytes_wf _ _ _ (by assumption) | exact foldl_wf _ _ (fun _ _ h => mapSet_wf _ _ _ _ h) _ (by assumption) | exact foldl_wf _ _ (fun _ _ h => mapMod_wf _ _ _ _ h) _ (by assumption) | exact rfl)) ?_

theorem clearTile_moves (s p) : Moves 0x40102f8 s (clearTile s p) := by
  unfold clearTile
  repeat' first
    | (extract_lets +onlyGivenNames t; refine Moves.cut (t := t) ?_ (fun ht => ?_); (on_goal 2 => (clear_value t; revert t; intro _ _)); (on_goal 1 => (unfold t; clear t)))
    | (extract_lets +onlyGivenNames x; clear_value x; revert x; intro _)
    | with_reducible exact Moves.refl _ _
    | with_reducible assumption
    | (with_reducible apply Moves.next ?hm (dropKeys_moves ..) ?_; (case hm => decide))
    | (with_reducible apply Moves.next ?hm (setEng_moves ..) ?_; (case hm => decide))
    | (with_reducible apply Moves.next ?hm (tearDigest_moves ..) ?_; (case hm => decide))
    | (with_reducible apply Moves.next ?hm (orphanLines_moves ..) ?_; (case hm => decide))
    | (with_reducible apply Moves.next ?hm (setTile_moves ..) ?_; (case hm => decide))
    | (with_reducible apply Moves.next ?hm (zeroRange_moves ..) ?_; (case hm => decide))
    | with_reducible apply Moves.foldl _ (fun s x => ?_) _ ?_
    | refine Moves.upd rfl (fun h => by cases h; constructor <;> first | assumption | (try dsimp only; first | exact mapSet_wf _ _ _ _ (by assumption) | exact mapMod_wf _ _ _ _ (by assumption) | exact mapDrop_wf _ _ _ (by assumption) | exact mapFilter_wf _ _ _ (by assumption) | exact pokeBytes_wf _ _ _ (by assumption) | exact foldl_wf _ _ (fun _ _ h => mapSet_wf _ _ _ _ h) _ (by assumption) | exact foldl_wf _ _ (fun _ _ h => mapMod_wf _ _ _ _ h) _ (by assumption) | exact rfl)) ?_

theorem clearCe_moves (s c) : Moves 0x800278 s (clearCe s c) := by
  unfold clearCe
  repeat' first
    | (extract_lets +onlyGivenNames t; refine Moves.cut (t := t) ?_ (fun ht => ?_); (on_goal 2 => (clear_value t; revert t; intro _ _)); (on_goal 1 => (unfold t; clear t)))
    | (extract_lets +onlyGivenNames x; clear_value x; revert x; intro _)
    | with_reducible exact Moves.refl _ _
    | with_reducible assumption
    | (with_reducible apply Moves.next ?hm (dropKeys_moves ..) ?_; (case hm => decide))
    | (with_reducible apply Moves.next ?hm (setEng_moves ..) ?_; (case hm => decide))
    | (with_reducible apply Moves.next ?hm (takeBackMark_moves ..) ?_; (case hm => decide))
    | (with_reducible apply Moves.next ?hm (setCe_moves ..) ?_; (case hm => decide))
    | (with_reducible apply Moves.next ?hm (zeroRange_moves ..) ?_; (case hm => decide))

theorem flushWord_moves (s e) : Moves 0xa084000000000b8 s (flushWord s e) := by
  unfold flushWord
  repeat' first
    | (extract_lets +onlyGivenNames x; clear_value x; revert x; intro _)
    | with_reducible apply Moves.ite
    | with_reducible exact Moves.refl _ _
    | (with_reducible apply Moves.next ?hm (accessWord_moves ..) ?_; (case hm => decide))
    | (with_reducible apply Moves.next ?hm (poisonWord_moves ..) ?_; (case hm => decide))
    | (with_reducible apply Moves.next ?hm (countHcErr_moves ..) ?_; (case hm => decide))
    | with_reducible apply Moves.foldl _ (fun s x => ?_) _ ?_

theorem clearHc_moves (s errs) : Moves 0xa084000000180b8 s (clearHc s errs) := by
  unfold clearHc
  repeat' first
    | (extract_lets +onlyGivenNames t; refine Moves.cut (t := t) ?_ (fun ht => ?_); (on_goal 2 => (clear_value t; revert t; intro _ _)); (on_goal 1 => (unfold t; clear t)))
    | (extract_lets +onlyGivenNames x; clear_value x; revert x; intro _)
    | with_reducible exact Moves.refl _ _
    | with_reducible assumption
    | (with_reducible apply Moves.next ?hm (flushWord_moves ..) ?_; (case hm => decide))
    | (with_reducible apply Moves.next ?hm (setStack_moves ..) ?_; (case hm => decide))
    | (with_reducible apply Moves.next ?hm (flushWb_moves ..) ?_; (case hm => decide))
    | with_reducible apply Moves.foldl _ (fun s x => ?_) _ ?_
    | refine Moves.upd rfl (fun h => by cases h; constructor <;> first | assumption | (try dsimp only; first | exact mapSet_wf _ _ _ _ (by assumption) | exact mapMod_wf _ _ _ _ (by assumption) | exact mapDrop_wf _ _ _ (by assumption) | exact mapFilter_wf _ _ _ (by assumption) | exact pokeBytes_wf _ _ _ (by assumption) | exact foldl_wf _ _ (fun _ _ h => mapSet_wf _ _ _ _ h) _ (by assumption) | exact foldl_wf _ _ (fun _ _ h => mapMod_wf _ _ _ _ h) _ (by assumption) | exact rfl)) ?_

theorem clearMgc_moves (s) : Moves 0x806040014000008 s (clearMgc s) := by
  unfold clearMgc
  repeat' first
    | (extract_lets +onlyGivenNames t; refine Moves.cut (t := t) ?_ (fun ht => ?_); (on_goal 2 => (clear_value t; revert t; intro _ _)); (on_goal 1 => (unfold t; clear t)))
    | (extract_lets +onlyGivenNames x; clear_value x; revert x; intro _)
    | with_reducible exact Moves.refl _ _
    | with_reducible assumption
    | (with_reducible apply Moves.next ?hm (mrExtend_moves ..) ?_; (case hm => decide))
    | (with_reducible apply Moves.next ?hm (setF_moves ..) ?_; (case hm => decide))
    | refine Moves.upd rfl (fun h => by cases h; constructor <;> first | assumption | (try dsimp only; first | exact mapSet_wf _ _ _ _ (by assumption) | exact mapMod_wf _ _ _ _ (by assumption) | exact mapDrop_wf _ _ _ (by assumption) | exact mapFilter_wf _ _ _ (by assumption) | exact pokeBytes_wf _ _ _ (by assumption) | exact foldl_wf _ _ (fun _ _ h => mapSet_wf _ _ _ _ h) _ (by assumption) | exact foldl_wf _ _ (fun _ _ h => mapMod_wf _ _ _ _ h) _ (by assumption) | exact rfl)) ?_

theorem chipKept_moves (s) : Moves 0x1fe71ffffffffffa s (chipKept s) :=
  ⟨rfl, fun h => by
    constructor <;> first
      | exact h.lifetime
      | exact h.fuses
      | exact h.wear
      | (dsimp only [chipKept]; exact mapDrop_wf _ _ _ h.ptile)
      | (dsimp only [chipKept]; exact mapDrop_wf _ _ _ h.mem)
      | (dsimp only [chipKept]; exact mapDrop_wf _ _ _ h.poison)
      | exact rfl⟩

theorem chipClear_moves (s) : Moves 0x1fef1ffffffffffa s (chipClear s) := by
  unfold chipClear
  repeat' first
    | (extract_lets +onlyGivenNames t; refine Moves.cut (t := t) ?_ (fun ht => ?_); (on_goal 2 => (clear_value t; revert t; intro _ _)); (on_goal 1 => (unfold t; clear t)))
    | (extract_lets +onlyGivenNames x; clear_value x; revert x; intro _)
    | with_reducible apply Moves.ite
    | with_reducible exact Moves.refl _ _
    | with_reducible assumption
    | (with_reducible apply Moves.next ?hm (chipKept_moves ..) ?_; (case hm => decide))
    | (with_reducible apply Moves.next ?hm (setGen_moves ..) ?_; (case hm => decide))
    | (with_reducible apply Moves.next ?hm (applyStraps_moves ..) ?_; (case hm => decide))
    | (with_reducible apply Moves.next ?hm (setF_moves ..) ?_; (case hm => decide))
    | (with_reducible apply Moves.next ?hm (setDom_moves ..) ?_; (case hm => decide))
    | (with_reducible apply Moves.next ?hm (ashWr_moves ..) ?_; (case hm => decide))
    | (with_reducible apply Moves.next ?hm (bumpLife_moves ..) ?_; (case hm => decide))
    | with_reducible apply Moves.foldl _ (fun s x => ?_) _ ?_

theorem clearDomain_moves (s d errs) : Moves 0x1fef5ffffffffffa s (clearDomain s d errs) := by
  unfold clearDomain
  repeat' first
    | (extract_lets +onlyGivenNames t; refine Moves.cut (t := t) ?_ (fun ht => ?_); (on_goal 2 => (clear_value t; revert t; intro _ _)); (on_goal 1 => (unfold t; clear t)))
    | with_reducible apply Moves.ite
    | with_reducible exact Moves.refl _ _
    | with_reducible assumption
    | (with_reducible apply Moves.next ?hm (clearHc_moves ..) ?_; (case hm => decide))
    | (with_reducible apply Moves.next ?hm (clearCe_moves ..) ?_; (case hm => decide))
    | (with_reducible apply Moves.next ?hm (clearMgc_moves ..) ?_; (case hm => decide))
    | (with_reducible apply Moves.next ?hm (orphanCtx_moves ..) ?_; (case hm => decide))
    | (with_reducible apply Moves.next ?hm (resetPages_moves ..) ?_; (case hm => decide))
    | (with_reducible apply Moves.next ?hm (chipClear_moves ..) ?_; (case hm => decide))
    | (with_reducible apply Moves.next ?hm (clearTile_moves ..) ?_; (case hm => decide))
    | (with_reducible apply Moves.next ?hm (flueClear_moves ..) ?_; (case hm => decide))
    | (with_reducible apply Moves.next ?hm (nextGen_moves ..) ?_; (case hm => decide))
    | (with_reducible apply Moves.next ?hm (flueRec_moves ..) ?_; (case hm => decide))
    | with_reducible apply Moves.foldl _ (fun s x => ?_) _ ?_

theorem collectionComplete_moves (s d errs) : Moves 0x1fef5ffffffffffa s (collectionComplete s d errs) := by
  unfold collectionComplete
  repeat' first
    | (extract_lets +onlyGivenNames t; refine Moves.cut (t := t) ?_ (fun ht => ?_); (on_goal 2 => (clear_value t; revert t; intro _ _)); (on_goal 1 => (unfold t; clear t)))
    | (extract_lets +onlyGivenNames x; clear_value x; revert x; intro _)
    | with_reducible apply Moves.ite
    | with_reducible exact Moves.refl _ _
    | with_reducible assumption
    | (with_reducible apply Moves.next ?hm (collect_moves ..) ?_; (case hm => decide))
    | (with_reducible apply Moves.next ?hm (setTimer_moves ..) ?_; (case hm => decide))
    | (with_reducible apply Moves.next ?hm (clearDomain_moves ..) ?_; (case hm => decide))
    | (with_reducible apply Moves.next ?hm (setDom_moves ..) ?_; (case hm => decide))
    | split
    | refine Moves.upd rfl (fun h => by cases h; constructor <;> first | assumption | (try dsimp only; first | exact mapSet_wf _ _ _ _ (by assumption) | exact mapMod_wf _ _ _ _ (by assumption) | exact mapDrop_wf _ _ _ (by assumption) | exact mapFilter_wf _ _ _ (by assumption) | exact pokeBytes_wf _ _ _ (by assumption) | exact foldl_wf _ _ (fun _ _ h => mapSet_wf _ _ _ _ h) _ (by assumption) | exact foldl_wf _ _ (fun _ _ h => mapMod_wf _ _ _ _ h) _ (by assumption) | exact rfl)) ?_

theorem bistFailed_moves (s p) : Moves 0x808400060002078 s (bistFailed s p) := by
  unfold bistFailed
  repeat' first
    | with_reducible exact Moves.refl _ _
    | (with_reducible apply Moves.next ?hm (logLedger_moves ..) ?_; (case hm => decide))
    | (with_reducible apply Moves.next ?hm (condemn_moves ..) ?_; (case hm => decide))
    | (with_reducible apply Moves.next ?hm (bumpLife_moves ..) ?_; (case hm => decide))

theorem watchdogRec_moves (s n) : Moves 0x800000000000038 s (watchdogRec s n) := by
  unfold watchdogRec
  repeat' first
    | with_reducible exact Moves.refl _ _
    | (with_reducible apply Moves.next ?hm (raiseMgc_moves ..) ?_; (case hm => decide))

theorem updErr_moves (s) : Moves 0x8 s (updErr s) := by
  unfold updErr
  repeat' first
    | with_reducible exact Moves.refl _ _
    | (with_reducible apply Moves.next ?hm (setF_moves ..) ?_; (case hm => decide))

theorem updState_moves (s v) : Moves 0x8 s (updState s v) := by
  unfold updState
  repeat' first
    | with_reducible exact Moves.refl _ _
    | (with_reducible apply Moves.next ?hm (setF_moves ..) ?_; (case hm => decide))

theorem updateStage_moves (s b i) : Moves 0x40000000008 s (updateStage s b i) := by
  unfold updateStage
  repeat' first
    | with_reducible apply Moves.ite
    | with_reducible exact Moves.refl _ _
    | (with_reducible apply Moves.next ?hm (updErr_moves ..) ?_; (case hm => decide))
    | refine Moves.upd rfl (fun h => by cases h; constructor <;> first | assumption | (try dsimp only; first | exact mapSet_wf _ _ _ _ (by assumption) | exact mapMod_wf _ _ _ _ (by assumption) | exact mapDrop_wf _ _ _ (by assumption) | exact mapFilter_wf _ _ _ (by assumption) | exact pokeBytes_wf _ _ _ (by assumption) | exact foldl_wf _ _ (fun _ _ h => mapSet_wf _ _ _ _ h) _ (by assumption) | exact foldl_wf _ _ (fun _ _ h => mapMod_wf _ _ _ _ h) _ (by assumption) | exact rfl)) ?_

theorem updateStaged_moves (s) : Moves 0x60000000008 s (updateStaged s) := by
  unfold updateStaged
  repeat' first
    | (extract_lets +onlyGivenNames t; refine Moves.cut (t := t) ?_ (fun ht => ?_); (on_goal 2 => (clear_value t; revert t; intro _ _)); (on_goal 1 => (unfold t; clear t)))
    | with_reducible apply Moves.ite
    | with_reducible exact Moves.refl _ _
    | with_reducible assumption
    | (with_reducible apply Moves.next ?hm (updState_moves ..) ?_; (case hm => decide))
    | split
    | refine Moves.upd rfl (fun h => by cases h; constructor <;> first | assumption | (try dsimp only; first | exact mapSet_wf _ _ _ _ (by assumption) | exact mapMod_wf _ _ _ _ (by assumption) | exact mapDrop_wf _ _ _ (by assumption) | exact mapFilter_wf _ _ _ (by assumption) | exact pokeBytes_wf _ _ _ (by assumption) | exact foldl_wf _ _ (fun _ _ h => mapSet_wf _ _ _ _ h) _ (by assumption) | exact foldl_wf _ _ (fun _ _ h => mapMod_wf _ _ _ _ h) _ (by assumption) | exact rfl)) ?_

theorem updateDrop_moves (s) : Moves 0x20000000008 s (updateDrop s) := by
  unfold updateDrop
  repeat' first
    | with_reducible apply Moves.ite
    | with_reducible exact Moves.refl _ _
    | (with_reducible apply Moves.next ?hm (updErr_moves ..) ?_; (case hm => decide))
    | (with_reducible apply Moves.next ?hm (updState_moves ..) ?_; (case hm => decide))
    | refine Moves.upd rfl (fun h => by cases h; constructor <;> first | assumption | (try dsimp only; first | exact mapSet_wf _ _ _ _ (by assumption) | exact mapMod_wf _ _ _ _ (by assumption) | exact mapDrop_wf _ _ _ (by assumption) | exact mapFilter_wf _ _ _ (by assumption) | exact pokeBytes_wf _ _ _ (by assumption) | exact foldl_wf _ _ (fun _ _ h => mapSet_wf _ _ _ _ h) _ (by assumption) | exact foldl_wf _ _ (fun _ _ h => mapMod_wf _ _ _ _ h) _ (by assumption) | exact rfl)) ?_

theorem updReset_moves (s d) : Moves 0xa0001c0409b23f8 s (updReset s d) := by
  unfold updReset
  repeat' first
    | with_reducible exact Moves.refl _ _
    | (with_reducible apply Moves.next ?hm (updState_moves ..) ?_; (case hm => decide))
    | (with_reducible apply Moves.next ?hm (requestReset_moves ..) ?_; (case hm => decide))

theorem updateApply_moves (s b i) : Moves 0xa0001c0409b23f8 s (updateApply s b i) := by
  unfold updateApply
  repeat' first
    | (extract_lets +onlyGivenNames t; refine Moves.cut (t := t) ?_ (fun ht => ?_); (on_goal 2 => (clear_value t; revert t; intro _ _)); (on_goal 1 => (unfold t; clear t)))
    | (extract_lets +onlyGivenNames x; clear_value x; revert x; intro _)
    | with_reducible apply Moves.ite
    | with_reducible exact Moves.refl _ _
    | with_reducible assumption
    | (with_reducible apply Moves.next ?hm (updErr_moves ..) ?_; (case hm => decide))
    | (with_reducible apply Moves.next ?hm (updReset_moves ..) ?_; (case hm => decide))
    | (with_reducible apply Moves.next ?hm (updState_moves ..) ?_; (case hm => decide))
    | (with_reducible apply Moves.next ?hm (startMove_moves ..) ?_; (case hm => decide))
    | split
    | refine Moves.upd rfl (fun h => by cases h; constructor <;> first | assumption | (try dsimp only; first | exact mapSet_wf _ _ _ _ (by assumption) | exact mapMod_wf _ _ _ _ (by assumption) | exact mapDrop_wf _ _ _ (by assumption) | exact mapFilter_wf _ _ _ (by assumption) | exact pokeBytes_wf _ _ _ (by assumption) | exact foldl_wf _ _ (fun _ _ h => mapSet_wf _ _ _ _ h) _ (by assumption) | exact foldl_wf _ _ (fun _ _ h => mapMod_wf _ _ _ _ h) _ (by assumption) | exact rfl)) ?_

theorem updFreed_moves (s) : Moves 0xa0001c0409b23f8 s (updFreed s) := by
  unfold updFreed
  repeat' first
    | with_reducible apply Moves.ite
    | with_reducible exact Moves.refl _ _
    | (with_reducible apply Moves.next ?hm (updReset_moves ..) ?_; (case hm => decide))
    | split

theorem runImage_moves (s b u i) : Moves 0x180000000008 s (runImage s b u i) := by
  unfold runImage
  repeat' first
    | (extract_lets +onlyGivenNames t; refine Moves.cut (t := t) ?_ (fun ht => ?_); (on_goal 2 => (clear_value t; revert t; intro _ _)); (on_goal 1 => (unfold t; clear t)))
    | with_reducible apply Moves.ite
    | with_reducible exact Moves.refl _ _
    | with_reducible assumption
    | (with_reducible apply Moves.next ?hm (setF_moves ..) ?_; (case hm => decide))
    | split
    | refine Moves.upd rfl (fun h => by cases h; constructor <;> first | assumption | (try dsimp only; first | exact mapSet_wf _ _ _ _ (by assumption) | exact mapMod_wf _ _ _ _ (by assumption) | exact mapDrop_wf _ _ _ (by assumption) | exact mapFilter_wf _ _ _ (by assumption) | exact pokeBytes_wf _ _ _ (by assumption) | exact foldl_wf _ _ (fun _ _ h => mapSet_wf _ _ _ _ h) _ (by assumption) | exact foldl_wf _ _ (fun _ _ h => mapMod_wf _ _ _ _ h) _ (by assumption) | exact rfl)) ?_

theorem finishUpdate_moves (s b i g) : Moves 0x80a590000000038 s (finishUpdate s b i g) := by
  unfold finishUpdate
  repeat' first
    | (extract_lets +onlyGivenNames t; refine Moves.cut (t := t) ?_ (fun ht => ?_); (on_goal 2 => (clear_value t; revert t; intro _ _)); (on_goal 1 => (unfold t; clear t)))
    | (extract_lets +onlyGivenNames x; clear_value x; revert x; intro _)
    | with_reducible apply Moves.ite
    | with_reducible exact Moves.refl _ _
    | with_reducible assumption
    | (with_reducible apply Moves.next ?hm (mrExtend_moves ..) ?_; (case hm => decide))
    | (with_reducible apply Moves.next ?hm (raiseMgcTile_moves ..) ?_; (case hm => decide))
    | (with_reducible apply Moves.next ?hm (updState_moves ..) ?_; (case hm => decide))
    | (with_reducible apply Moves.next ?hm (runImage_moves ..) ?_; (case hm => decide))
    | (with_reducible apply Moves.next ?hm (changeKey_moves ..) ?_; (case hm => decide))
    | refine Moves.upd rfl (fun h => by cases h; constructor <;> first | assumption | (try dsimp only; first | exact mapSet_wf _ _ _ _ (by assumption) | exact mapMod_wf _ _ _ _ (by assumption) | exact mapDrop_wf _ _ _ (by assumption) | exact mapFilter_wf _ _ _ (by assumption) | exact pokeBytes_wf _ _ _ (by assumption) | exact foldl_wf _ _ (fun _ _ h => mapSet_wf _ _ _ _ h) _ (by assumption) | exact foldl_wf _ _ (fun _ _ h => mapMod_wf _ _ _ _ h) _ (by assumption) | exact rfl)) ?_

theorem updSpare_moves (s d) : Moves 0x8000000e0002078 s (updSpare s d) := by
  unfold updSpare
  repeat' first
    | (extract_lets +onlyGivenNames t; refine Moves.cut (t := t) ?_ (fun ht => ?_); (on_goal 2 => (clear_value t; revert t; intro _ _)); (on_goal 1 => (unfold t; clear t)))
    | with_reducible apply Moves.ite
    | with_reducible exact Moves.refl _ _
    | with_reducible assumption
    | (with_reducible apply Moves.next ?hm (setF_moves ..) ?_; (case hm => decide))
    | (with_reducible apply Moves.next ?hm (setPtile_moves ..) ?_; (case hm => decide))
    | (with_reducible apply Moves.next ?hm (pumpPerm_moves ..) ?_; (case hm => decide))
    | refine Moves.upd rfl (fun h => by cases h; constructor <;> first | assumption | (try dsimp only; first | exact mapSet_wf _ _ _ _ (by assumption) | exact mapMod_wf _ _ _ _ (by assumption) | exact mapDrop_wf _ _ _ (by assumption) | exact mapFilter_wf _ _ _ (by assumption) | exact pokeBytes_wf _ _ _ (by assumption) | exact foldl_wf _ _ (fun _ _ h => mapSet_wf _ _ _ _ h) _ (by assumption) | exact foldl_wf _ _ (fun _ _ h => mapMod_wf _ _ _ _ h) _ (by assumption) | exact rfl)) ?_

theorem updateDone_moves (s) : Moves 0x80a5940e0002078 s (updateDone s) := by
  unfold updateDone
  repeat' first
    | with_reducible apply Moves.ite
    | with_reducible exact Moves.refl _ _
    | (with_reducible apply Moves.next ?hm (finishUpdate_moves ..) ?_; (case hm => decide))
    | (with_reducible apply Moves.next ?hm (updSpare_moves ..) ?_; (case hm => decide))
    | (with_reducible apply Moves.next ?hm (admitDomain_moves ..) ?_; (case hm => decide))
    | split

theorem domainReady_moves (s d bistOk) : Moves 0x808404060002078 s (domainReady s d bistOk) := by
  unfold domainReady
  repeat' first
    | (extract_lets +onlyGivenNames t; refine Moves.cut (t := t) ?_ (fun ht => ?_); (on_goal 2 => (clear_value t; revert t; intro _ _)); (on_goal 1 => (unfold t; clear t)))
    | (extract_lets +onlyGivenNames x; clear_value x; revert x; intro _)
    | with_reducible apply Moves.ite
    | with_reducible exact Moves.refl _ _
    | with_reducible assumption
    | (with_reducible apply Moves.next ?hm (watchdogRec_moves ..) ?_; (case hm => decide))
    | (with_reducible apply Moves.next ?hm (bistFailed_moves ..) ?_; (case hm => decide))
    | (with_reducible apply Moves.next ?hm (admitDomain_moves ..) ?_; (case hm => decide))

theorem wdogKick_moves (s) : Moves 0x200000000000000 s (wdogKick s) := by
  unfold wdogKick
  repeat' first
    | with_reducible exact Moves.refl _ _
    | (with_reducible apply Moves.next ?hm (setTimer_moves ..) ?_; (case hm => decide))

theorem mgcWatchdog_moves (s) : Moves 0xa0801c0409b23f8 s (mgcWatchdog s) := by
  unfold mgcWatchdog
  repeat' first
    | (extract_lets +onlyGivenNames t; refine Moves.cut (t := t) ?_ (fun ht => ?_); (on_goal 2 => (clear_value t; revert t; intro _ _)); (on_goal 1 => (unfold t; clear t)))
    | (extract_lets +onlyGivenNames x; clear_value x; revert x; intro _)
    | with_reducible apply Moves.ite
    | with_reducible exact Moves.refl _ _
    | with_reducible assumption
    | (with_reducible apply Moves.next ?hm (setTimer_moves ..) ?_; (case hm => decide))
    | (with_reducible apply Moves.next ?hm (requestReset_moves ..) ?_; (case hm => decide))
    | (with_reducible apply Moves.next ?hm (addF_moves ..) ?_; (case hm => decide))
    | (with_reducible apply Moves.next ?hm (setF_moves ..) ?_; (case hm => decide))
    | (with_reducible apply Moves.next ?hm (bumpLife_moves ..) ?_; (case hm => decide))

theorem staleGeneration_moves (s d) : Moves 0xa00004000000038 s (staleGeneration s d) := by
  unfold staleGeneration
  repeat' first
    | (extract_lets +onlyGivenNames x; clear_value x; revert x; intro _)
    | with_reducible apply Moves.ite
    | with_reducible exact Moves.refl _ _
    | (with_reducible apply Moves.next ?hm (setTimer_moves ..) ?_; (case hm => decide))
    | (with_reducible apply Moves.next ?hm (raiseMgcTile_moves ..) ?_; (case hm => decide))
    | (with_reducible apply Moves.next ?hm (setDom_moves ..) ?_; (case hm => decide))

theorem ceReply_moves (s c p) : Moves 0x8000000009003f8 s (ceReply s c p) := by
  unfold ceReply
  repeat' first
    | with_reducible apply Moves.ite
    | with_reducible exact Moves.refl _ _
    | (with_reducible apply Moves.next ?hm (sigFailed_moves ..) ?_; (case hm => decide))
    | (with_reducible apply Moves.next ?hm (sigAcked_moves ..) ?_; (case hm => decide))
    | (with_reducible apply Moves.next ?hm (ceNacked_moves ..) ?_; (case hm => decide))

theorem memReply_moves (s p) : Moves 0x800002800130238 s (memReply s p) := by
  unfold memReply
  repeat' first
    | (extract_lets +onlyGivenNames x; clear_value x; revert x; intro _)
    | with_reducible apply Moves.ite
    | with_reducible exact Moves.refl _ _
    | (with_reducible apply Moves.next ?hm (pushAnswered_moves ..) ?_; (case hm => decide))
    | (with_reducible apply Moves.next ?hm (countStale_moves ..) ?_; (case hm => decide))
    | (with_reducible apply Moves.next ?hm (dupAcked_moves ..) ?_; (case hm => decide))
    | (with_reducible apply Moves.next ?hm (mirrorLost_moves ..) ?_; (case hm => decide))

theorem replyAt_moves (s p) : Moves 0x8000028009303fc s (replyAt s p) := by
  unfold replyAt
  repeat' first
    | (extract_lets +onlyGivenNames x; clear_value x; revert x; intro _)
    | with_reducible apply Moves.ite
    | with_reducible exact Moves.refl _ _
    | (with_reducible apply Moves.next ?hm (tileReply_moves ..) ?_; (case hm => decide))
    | (with_reducible apply Moves.next ?hm (memReply_moves ..) ?_; (case hm => decide))
    | (with_reducible apply Moves.next ?hm (ceReply_moves ..) ?_; (case hm => decide))
    | split

theorem replyPkt_moves (s p typ) : Moves 0x8000028009303fc s (replyPkt s p typ) := by
  unfold replyPkt
  repeat' first
    | with_reducible exact Moves.refl _ _
    | (with_reducible apply Moves.next ?hm (replyAt_moves ..) ?_; (case hm => decide))
    | (with_reducible apply Moves.trans (atEndpoint_moves ?hm (fun s => ?_) ..) ?_; (case hm => decide))

theorem loadPlan_moves (s plan) : Moves 0x200000 s (loadPlan s plan) := by
  unfold loadPlan
  repeat' first
    | with_reducible exact Moves.refl _ _
    | (with_reducible apply Moves.next ?hm (setSlot_moves ..) ?_; (case hm => decide))
    | with_reducible apply Moves.foldl _ (fun s x => ?_) _ ?_
    | split

theorem switchEdition_moves (s plan) : Moves 0x802000001200038 s (switchEdition s plan) := by
  unfold switchEdition
  repeat' first
    | (extract_lets +onlyGivenNames t; refine Moves.cut (t := t) ?_ (fun ht => ?_); (on_goal 2 => (clear_value t; revert t; intro _ _)); (on_goal 1 => (unfold t; clear t)))
    | with_reducible apply Moves.ite
    | with_reducible exact Moves.refl _ _
    | with_reducible assumption
    | (with_reducible apply Moves.next ?hm (slotCheck_moves ..) ?_; (case hm => decide))
    | (with_reducible apply Moves.next ?hm (mrExtend_moves ..) ?_; (case hm => decide))
    | (with_reducible apply Moves.next ?hm (editionSwitch_moves ..) ?_; (case hm => decide))
    | (with_reducible apply Moves.next ?hm (parentCheck_moves ..) ?_; (case hm => decide))
    | (with_reducible apply Moves.next ?hm (loadPlan_moves ..) ?_; (case hm => decide))
    | split

theorem measureEditions_moves (s) : Moves 0x2000000000008 s (measureEditions s) := by
  unfold measureEditions
  repeat' first
    | with_reducible exact Moves.refl _ _
    | (with_reducible apply Moves.next ?hm (mrExtend_moves ..) ?_; (case hm => decide))

theorem catalogueLive_moves (s) : Moves 0x802000001200038 s (catalogueLive s) := by
  unfold catalogueLive
  repeat' first
    | (extract_lets +onlyGivenNames t; refine Moves.cut (t := t) ?_ (fun ht => ?_); (on_goal 2 => (clear_value t; revert t; intro _ _)); (on_goal 1 => (unfold t; clear t)))
    | with_reducible apply Moves.ite
    | with_reducible exact Moves.refl _ _
    | with_reducible assumption
    | (with_reducible apply Moves.next ?hm (slotCheck_moves ..) ?_; (case hm => decide))
    | (with_reducible apply Moves.next ?hm (measureEditions_moves ..) ?_; (case hm => decide))
    | (with_reducible apply Moves.next ?hm (setF_moves ..) ?_; (case hm => decide))
    | (with_reducible apply Moves.next ?hm (parentCheck_moves ..) ?_; (case hm => decide))

theorem railFault_moves (s i mv) : Moves 0xa0001c0409b23f8 s (railFault s i mv) := by
  unfold railFault
  repeat' first
    | with_reducible exact Moves.refl _ _
    | (with_reducible apply Moves.next ?hm (requestReset_moves ..) ?_; (case hm => decide))
    | (with_reducible apply Moves.next ?hm (raiseMgc_moves ..) ?_; (case hm => decide))

theorem railWear_moves (s i ma) : Moves 0x10000000000008 s (railWear s i ma) := by
  unfold railWear
  repeat' first
    | (extract_lets +onlyGivenNames t; refine Moves.cut (t := t) ?_ (fun ht => ?_); (on_goal 2 => (clear_value t; revert t; intro _ _)); (on_goal 1 => (unfold t; clear t)))
    | (extract_lets +onlyGivenNames x; clear_value x; revert x; intro _)
    | with_reducible exact Moves.refl _ _
    | with_reducible assumption
    | (with_reducible apply Moves.next ?hm (setFi_moves ..) ?_; (case hm => decide))
    | (with_reducible apply Moves.next ?hm (addWear_moves ..) ?_; (case hm => decide))

theorem railSample_moves (s xs) : Moves 0xaf001c0409b23f8 s (railSample s xs) := by
  unfold railSample
  repeat' first
    | (extract_lets +onlyGivenNames t; refine Moves.cut (t := t) ?_ (fun ht => ?_); (on_goal 2 => (clear_value t; revert t; intro _ _)); (on_goal 1 => (unfold t; clear t)))
    | (extract_lets +onlyGivenNames x; clear_value x; revert x; intro _)
    | with_reducible apply Moves.ite
    | with_reducible exact Moves.refl _ _
    | with_reducible assumption
    | (with_reducible apply Moves.next ?hm (setTimer_moves ..) ?_; (case hm => decide))
    | (with_reducible apply Moves.next ?hm (railWear_moves ..) ?_; (case hm => decide))
    | (with_reducible apply Moves.next ?hm (addStat_moves ..) ?_; (case hm => decide))
    | (with_reducible apply Moves.next ?hm (railFault_moves ..) ?_; (case hm => decide))
    | (with_reducible apply Moves.next ?hm (setFi_moves ..) ?_; (case hm => decide))
    | with_reducible apply Moves.foldl _ (fun s x => ?_) _ ?_
    | split
    | refine Moves.upd rfl (fun h => by cases h; constructor <;> first | assumption | (try dsimp only; first | exact mapSet_wf _ _ _ _ (by assumption) | exact mapMod_wf _ _ _ _ (by assumption) | exact mapDrop_wf _ _ _ (by assumption) | exact mapFilter_wf _ _ _ (by assumption) | exact pokeBytes_wf _ _ _ (by assumption) | exact foldl_wf _ _ (fun _ _ h => mapSet_wf _ _ _ _ h) _ (by assumption) | exact foldl_wf _ _ (fun _ _ h => mapMod_wf _ _ _ _ h) _ (by assumption) | exact rfl)) ?_

theorem thermRec_moves (s code) : Moves 0x800000000000038 s (thermRec s code) := by
  unfold thermRec
  repeat' first
    | with_reducible exact Moves.refl _ _
    | (with_reducible apply Moves.next ?hm (raiseMgc_moves ..) ?_; (case hm => decide))

theorem thermAlert_moves (s) : Moves 0x800000000000038 s (thermAlert s) := by
  unfold thermAlert
  repeat' first
    | (extract_lets +onlyGivenNames x; clear_value x; revert x; intro _)
    | with_reducible apply Moves.ite
    | with_reducible exact Moves.refl _ _
    | (with_reducible apply Moves.next ?hm (setF_moves ..) ?_; (case hm => decide))
    | (with_reducible apply Moves.next ?hm (thermRec_moves ..) ?_; (case hm => decide))

theorem thermCrit_moves (s) : Moves 0x1a0001c0409b23f8 s (thermCrit s) := by
  unfold thermCrit
  repeat' first
    | (extract_lets +onlyGivenNames t; refine Moves.cut (t := t) ?_ (fun ht => ?_); (on_goal 2 => (clear_value t; revert t; intro _ _)); (on_goal 1 => (unfold t; clear t)))
    | (extract_lets +onlyGivenNames x; clear_value x; revert x; intro _)
    | with_reducible apply Moves.ite
    | with_reducible exact Moves.refl _ _
    | with_reducible assumption
    | (with_reducible apply Moves.next ?hm (requestReset_moves ..) ?_; (case hm => decide))
    | (with_reducible apply Moves.next ?hm (setF_moves ..) ?_; (case hm => decide))
    | (with_reducible apply Moves.next ?hm (thermRec_moves ..) ?_; (case hm => decide))
    | refine Moves.upd rfl (fun h => by cases h; constructor <;> first | assumption | (try dsimp only; first | exact mapSet_wf _ _ _ _ (by assumption) | exact mapMod_wf _ _ _ _ (by assumption) | exact mapDrop_wf _ _ _ (by assumption) | exact mapFilter_wf _ _ _ (by assumption) | exact pokeBytes_wf _ _ _ (by assumption) | exact foldl_wf _ _ (fun _ _ h => mapSet_wf _ _ _ _ h) _ (by assumption) | exact foldl_wf _ _ (fun _ _ h => mapMod_wf _ _ _ _ h) _ (by assumption) | exact rfl)) ?_

theorem temperatureSample_moves (s ts) : Moves 0x1a0001c0409b23f8 s (temperatureSample s ts) := by
  unfold temperatureSample
  repeat' first
    | (extract_lets +onlyGivenNames t; refine Moves.cut (t := t) ?_ (fun ht => ?_); (on_goal 2 => (clear_value t; revert t; intro _ _)); (on_goal 1 => (unfold t; clear t)))
    | with_reducible apply Moves.ite
    | with_reducible exact Moves.refl _ _
    | with_reducible assumption
    | (with_reducible apply Moves.next ?hm (setTimer_moves ..) ?_; (case hm => decide))
    | (with_reducible apply Moves.next ?hm (thermAlert_moves ..) ?_; (case hm => decide))
    | (with_reducible apply Moves.next ?hm (setFi_moves ..) ?_; (case hm => decide))
    | (with_reducible apply Moves.next ?hm (thermCrit_moves ..) ?_; (case hm => decide))
    | with_reducible apply Moves.foldl _ (fun s x => ?_) _ ?_

theorem levelStep_moves (s f rise fall tUp tDn up) : Moves 0x200000000000008 s (levelStep s f rise fall tUp tDn up) := by
  unfold levelStep
  repeat' first
    | (extract_lets +onlyGivenNames x; clear_value x; revert x; intro _)
    | with_reducible apply Moves.ite
    | with_reducible exact Moves.refl _ _
    | (with_reducible apply Moves.next ?hm (setTimer_moves ..) ?_; (case hm => decide))
    | (with_reducible apply Moves.next ?hm (setF_moves ..) ?_; (case hm => decide))

theorem pacingStep_moves (s) : Moves 0x200000000000008 s (pacingStep s) := by
  unfold pacingStep
  repeat' first
    | (extract_lets +onlyGivenNames t; refine Moves.cut (t := t) ?_ (fun ht => ?_); (on_goal 2 => (clear_value t; revert t; intro _ _)); (on_goal 1 => (unfold t; clear t)))
    | (extract_lets +onlyGivenNames x; clear_value x; revert x; intro _)
    | with_reducible apply Moves.ite
    | with_reducible exact Moves.refl _ _
    | with_reducible assumption
    | (with_reducible apply Moves.next ?hm (setTimer_moves ..) ?_; (case hm => decide))
    | (with_reducible apply Moves.next ?hm (setF_moves ..) ?_; (case hm => decide))
    | (with_reducible apply Moves.next ?hm (levelStep_moves ..) ?_; (case hm => decide))

theorem pathDelay_moves (s xs) : Moves 0x210000000000008 s (pathDelay s xs) := by
  unfold pathDelay
  repeat' first
    | (extract_lets +onlyGivenNames t; refine Moves.cut (t := t) ?_ (fun ht => ?_); (on_goal 2 => (clear_value t; revert t; intro _ _)); (on_goal 1 => (unfold t; clear t)))
    | (extract_lets +onlyGivenNames x; clear_value x; revert x; intro _)
    | with_reducible apply Moves.ite
    | with_reducible exact Moves.refl _ _
    | with_reducible assumption
    | (with_reducible apply Moves.next ?hm (setTimer_moves ..) ?_; (case hm => decide))
    | (with_reducible apply Moves.next ?hm (setFi_moves ..) ?_; (case hm => decide))
    | (with_reducible apply Moves.next ?hm (addWear_moves ..) ?_; (case hm => decide))
    | with_reducible apply Moves.foldl _ (fun s x => ?_) _ ?_

theorem ageWarn_moves (s x) : Moves 0x900000000000038 s (ageWarn s x) := by
  unfold ageWarn
  repeat' first
    | (extract_lets +onlyGivenNames x; clear_value x; revert x; intro _)
    | with_reducible apply Moves.ite
    | with_reducible exact Moves.refl _ _
    | (with_reducible apply Moves.next ?hm (raiseMgc_moves ..) ?_; (case hm => decide))
    | refine Moves.upd rfl (fun h => by cases h; constructor <;> first | assumption | (try dsimp only; first | exact mapSet_wf _ _ _ _ (by assumption) | exact mapMod_wf _ _ _ _ (by assumption) | exact mapDrop_wf _ _ _ (by assumption) | exact mapFilter_wf _ _ _ (by assumption) | exact pokeBytes_wf _ _ _ (by assumption) | exact foldl_wf _ _ (fun _ _ h => mapSet_wf _ _ _ _ h) _ (by assumption) | exact foldl_wf _ _ (fun _ _ h => mapMod_wf _ _ _ _ h) _ (by assumption) | exact rfl)) ?_

theorem agePredict_moves (s) : Moves 0x900000000000038 s (agePredict s) := by
  unfold agePredict
  repeat' first
    | (extract_lets +onlyGivenNames t; refine Moves.cut (t := t) ?_ (fun ht => ?_); (on_goal 2 => (clear_value t; revert t; intro _ _)); (on_goal 1 => (unfold t; clear t)))
    | (extract_lets +onlyGivenNames x; clear_value x; revert x; intro _)
    | with_reducible exact Moves.refl _ _
    | with_reducible assumption
    | (with_reducible apply Moves.next ?hm (ageWarn_moves ..) ?_; (case hm => decide))
    | (with_reducible apply Moves.next ?hm (setFi_moves ..) ?_; (case hm => decide))
    | with_reducible apply Moves.foldl _ (fun s x => ?_) _ ?_

theorem dayErrors_moves (s) : Moves 0x10000000000000 s (dayErrors s) := by
  unfold dayErrors
  generalize List.range 384 = l
  exact ⟨rfl, fun h => { h with wear := foldl_wf _ _ (fun _ _ h => mapMod_wf _ _ _ _ h) _ h.wear }⟩

theorem endDay_ne (w : Wear) : endDay w ≠ Wear.reset := fun e => by simp [endDay, Wear.reset] at e

theorem endDays_moves (s) : Moves 0x10000000000000 s (endDays s) := by
  refine ⟨rfl, fun h => { h with wear := mapVals_wf _ _ (fun kv => ?_) (fun kv hv => ?_) _ h.wear }⟩
  · split <;> rfl
  · split
    · exact endDay_ne _
    · exact hv

theorem ageing_moves (s) : Moves 0xb10000000000038 s (ageing s) := by
  unfold ageing
  repeat' first
    | (extract_lets +onlyGivenNames t; refine Moves.cut (t := t) ?_ (fun ht => ?_); (on_goal 2 => (clear_value t; revert t; intro _ _)); (on_goal 1 => (unfold t; clear t)))
    | with_reducible apply Moves.ite
    | with_reducible exact Moves.refl _ _
    | with_reducible assumption
    | (with_reducible apply Moves.next ?hm (agePredict_moves ..) ?_; (case hm => decide))
    | (with_reducible apply Moves.next ?hm (setTimer_moves ..) ?_; (case hm => decide))
    | (with_reducible apply Moves.next ?hm (dayErrors_moves ..) ?_; (case hm => decide))
    | (with_reducible apply Moves.next ?hm (endDays_moves ..) ?_; (case hm => decide))

theorem unpackEng_moves (s e bs) : Moves 0x48 s (unpackEng s e bs) := by
  unfold unpackEng
  repeat' first
    | (extract_lets +onlyGivenNames t; refine Moves.cut (t := t) ?_ (fun ht => ?_); (on_goal 2 => (clear_value t; revert t; intro _ _)); (on_goal 1 => (unfold t; clear t)))
    | (extract_lets +onlyGivenNames x; clear_value x; revert x; intro _)
    | with_reducible exact Moves.refl _ _
    | with_reducible assumption
    | (with_reducible apply Moves.next ?hm (setEng_moves ..) ?_; (case hm => decide))
    | (with_reducible apply Moves.next ?hm (setP_moves ..) ?_; (case hm => decide))
    | (with_reducible apply Moves.next ?hm (regSet_moves ..) ?_; (case hm => decide))

theorem unpackGs_moves (s e bs) : Moves 0x8 s (unpackGs s e bs) := by
  unfold unpackGs
  repeat' first
    | with_reducible exact Moves.refl _ _
    | (with_reducible apply Moves.next ?hm (setG_moves ..) ?_; (case hm => decide))
    | with_reducible apply Moves.foldl _ (fun s x => ?_) _ ?_

theorem setStage_moves (s v) : Moves 0x8 s (setStage s v) := by
  unfold setStage
  repeat' first
    | with_reducible exact Moves.refl _ _
    | (with_reducible apply Moves.next ?hm (setF_moves ..) ?_; (case hm => decide))

theorem powerLost_moves (s) : Moves 0x1fe71ffffffffffa s (powerLost s) :=
  ⟨rfl, fun h => by
    constructor <;> first
      | exact h.lifetime
      | exact h.fuses
      | exact h.wear
      | (dsimp only [powerLost]; exact mapDrop_wf _ _ _ h.ptile)
      | (dsimp only [powerLost]; exact mapDrop_wf _ _ _ h.mem)
      | (dsimp only [powerLost]; exact mapDrop_wf _ _ _ h.poison)
      | exact rfl⟩

theorem powerRise_moves (s straps rails) : Moves 0x1000000000000008 s (powerRise s straps rails) := by
  unfold powerRise
  repeat' first
    | (extract_lets +onlyGivenNames t; refine Moves.cut (t := t) ?_ (fun ht => ?_); (on_goal 2 => (clear_value t; revert t; intro _ _)); (on_goal 1 => (unfold t; clear t)))
    | (extract_lets +onlyGivenNames x; clear_value x; revert x; intro _)
    | with_reducible apply Moves.ite
    | with_reducible exact Moves.refl _ _
    | with_reducible assumption
    | (with_reducible apply Moves.next ?hm (setF_moves ..) ?_; (case hm => decide))
    | with_reducible apply Moves.foldl _ (fun s x => ?_) _ ?_
    | refine Moves.upd rfl (fun h => by cases h; constructor <;> first | assumption | (try dsimp only; first | exact mapSet_wf _ _ _ _ (by assumption) | exact mapMod_wf _ _ _ _ (by assumption) | exact mapDrop_wf _ _ _ (by assumption) | exact mapFilter_wf _ _ _ (by assumption) | exact pokeBytes_wf _ _ _ (by assumption) | exact foldl_wf _ _ (fun _ _ h => mapSet_wf _ _ _ _ h) _ (by assumption) | exact foldl_wf _ _ (fun _ _ h => mapMod_wf _ _ _ _ h) _ (by assumption) | exact rfl)) ?_

theorem resetBall_moves (s lowUs) : Moves 0x1a0001c0409b23f8 s (resetBall s lowUs) := by
  unfold resetBall
  repeat' first
    | (extract_lets +onlyGivenNames x; clear_value x; revert x; intro _)
    | with_reducible apply Moves.ite
    | with_reducible exact Moves.refl _ _
    | (with_reducible apply Moves.next ?hm (requestReset_moves ..) ?_; (case hm => decide))
    | refine Moves.upd rfl (fun h => by cases h; constructor <;> first | assumption | (try dsimp only; first | exact mapSet_wf _ _ _ _ (by assumption) | exact mapMod_wf _ _ _ _ (by assumption) | exact mapDrop_wf _ _ _ (by assumption) | exact mapFilter_wf _ _ _ (by assumption) | exact pokeBytes_wf _ _ _ (by assumption) | exact foldl_wf _ _ (fun _ _ h => mapSet_wf _ _ _ _ h) _ (by assumption) | exact foldl_wf _ _ (fun _ _ h => mapMod_wf _ _ _ _ h) _ (by assumption) | exact rfl)) ?_

theorem ashStart_moves (s) : Moves 0x4000000030 s (ashStart s) := by
  unfold ashStart
  repeat' first
    | with_reducible apply Moves.ite
    | with_reducible exact Moves.refl _ _
    | (with_reducible apply Moves.next ?hm (setGen_moves ..) ?_; (case hm => decide))
    | (with_reducible apply Moves.next ?hm (ashFresh_moves ..) ?_; (case hm => decide))
    | with_reducible apply Moves.foldl _ (fun s x => ?_) _ ?_

theorem kindleK0_moves (s pll fused small id digest) : Moves 0x1002004000002038 s (kindleK0 s pll fused small id digest) := by
  unfold kindleK0
  repeat' first
    | (extract_lets +onlyGivenNames t; refine Moves.cut (t := t) ?_ (fun ht => ?_); (on_goal 2 => (clear_value t; revert t; intro _ _)); (on_goal 1 => (unfold t; clear t)))
    | (extract_lets +onlyGivenNames x; clear_value x; revert x; intro _)
    | with_reducible apply Moves.ite
    | with_reducible exact Moves.refl _ _
    | with_reducible assumption
    | (with_reducible apply Moves.next ?hm (mrExtend_moves ..) ?_; (case hm => decide))
    | (with_reducible apply Moves.next ?hm (ashStart_moves ..) ?_; (case hm => decide))
    | (with_reducible apply Moves.next ?hm (setStage_moves ..) ?_; (case hm => decide))
    | (with_reducible apply Moves.next ?hm (applyStraps_moves ..) ?_; (case hm => decide))
    | (with_reducible apply Moves.next ?hm (setF_moves ..) ?_; (case hm => decide))
    | (with_reducible apply Moves.next ?hm (setPtile_moves ..) ?_; (case hm => decide))
    | (with_reducible apply Moves.next ?hm (ashWr_moves ..) ?_; (case hm => decide))
    | with_reducible apply Moves.foldl _ (fun s x => ?_) _ ?_
    | refine Moves.upd rfl (fun h => by cases h; constructor <;> first | assumption | (try dsimp only; first | exact mapSet_wf _ _ _ _ (by assumption) | exact mapMod_wf _ _ _ _ (by assumption) | exact mapDrop_wf _ _ _ (by assumption) | exact mapFilter_wf _ _ _ (by assumption) | exact pokeBytes_wf _ _ _ (by assumption) | exact foldl_wf _ _ (fun _ _ h => mapSet_wf _ _ _ _ h) _ (by assumption) | exact foldl_wf _ _ (fun _ _ h => mapMod_wf _ _ _ _ h) _ (by assumption) | exact rfl)) ?_

theorem fwReject_moves (s b slot cause) : Moves 0x800000000000038 s (fwReject s b slot cause) := by
  unfold fwReject
  repeat' first
    | with_reducible exact Moves.refl _ _
    | (with_reducible apply Moves.next ?hm (raiseMgc_moves ..) ?_; (case hm => decide))

theorem chooseImage_moves (s b x) : Moves 0x800000000000038 s (chooseImage s b x).1 := by
  unfold chooseImage
  repeat' first
    | (extract_lets +onlyGivenNames x; clear_value x; revert x; intro _)
    | with_reducible apply Moves.ite_fst
    | with_reducible exact Moves.refl _ _
    | (with_reducible apply Moves.next ?hm (fwReject_moves ..) ?_; (case hm => decide))
    | (with_reducible apply Moves.next ?hm (setF_moves ..) ?_; (case hm => decide))

theorem ebStart_moves (s) : Moves 0x800000000000008 s (ebStart s) := by
  unfold ebStart
  repeat' first
    | (extract_lets +onlyGivenNames x; clear_value x; revert x; intro _)
    | with_reducible exact Moves.refl _ _
    | (with_reducible apply Moves.next ?hm (setF_moves ..) ?_; (case hm => decide))
    | refine Moves.upd rfl (fun h => by cases h; constructor <;> first | assumption | (try dsimp only; first | exact mapSet_wf _ _ _ _ (by assumption) | exact mapMod_wf _ _ _ _ (by assumption) | exact mapDrop_wf _ _ _ (by assumption) | exact mapFilter_wf _ _ _ (by assumption) | exact pokeBytes_wf _ _ _ (by assumption) | exact foldl_wf _ _ (fun _ _ h => mapSet_wf _ _ _ _ h) _ (by assumption) | exact foldl_wf _ _ (fun _ _ h => mapMod_wf _ _ _ _ h) _ (by assumption) | exact rfl)) ?_

theorem kindleK1_moves (s a b) : Moves 0x1a02180000000038 s (kindleK1 s a b) := by
  unfold kindleK1
  repeat' first
    | (extract_lets +onlyGivenNames x; clear_value x; revert x; intro _)
    | with_reducible apply Moves.ite
    | with_reducible exact Moves.refl _ _
    | (with_reducible apply Moves.next ?hm (setTimer_moves ..) ?_; (case hm => decide))
    | (with_reducible apply Moves.next ?hm (mrExtend_moves ..) ?_; (case hm => decide))
    | (with_reducible apply Moves.next ?hm (setStage_moves ..) ?_; (case hm => decide))
    | (with_reducible apply Moves.next ?hm (runImage_moves ..) ?_; (case hm => decide))
    | (with_reducible apply Moves.next ?hm (ebStart_moves ..) ?_; (case hm => decide))
    | (with_reducible apply Moves.next ?hm (chooseImage_moves ..) ?_; (case hm => decide))
    | split
    | (with_reducible apply Moves.fst_of ?he ?_; (case he => with_reducible assumption))
    | refine Moves.upd rfl (fun h => by cases h; constructor <;> first | assumption | (try dsimp only; first | exact mapSet_wf _ _ _ _ (by assumption) | exact mapMod_wf _ _ _ _ (by assumption) | exact mapDrop_wf _ _ _ (by assumption) | exact mapFilter_wf _ _ _ (by assumption) | exact pokeBytes_wf _ _ _ (by assumption) | exact foldl_wf _ _ (fun _ _ h => mapSet_wf _ _ _ _ h) _ (by assumption) | exact foldl_wf _ _ (fun _ _ h => mapMod_wf _ _ _ _ h) _ (by assumption) | exact rfl)) ?_

theorem loadBlock_moves (s x) : Moves 0x802180000000038 s (loadBlock s x) := by
  unfold loadBlock
  dsimp only
  repeat' first
    | with_reducible exact Moves.refl _ _
    | (with_reducible apply Moves.next ?hm (mrExtend_moves ..) ?_; (case hm => decide))
    | (with_reducible apply Moves.next ?hm (runImage_moves ..) ?_; (case hm => decide))
    | (with_reducible apply Moves.next ?hm (chooseImage_moves ..) ?_; (case hm => decide))
    | with_reducible apply Moves.foldl _ (fun s x => ?_) _ ?_
    | split
    | (with_reducible apply Moves.fst_of ?he ?_; (case he => with_reducible assumption))
    | refine Moves.upd rfl (fun h => by cases h; constructor <;> first | assumption | (try dsimp only; first | exact mapSet_wf _ _ _ _ (by assumption) | exact mapMod_wf _ _ _ _ (by assumption) | exact mapDrop_wf _ _ _ (by assumption) | exact mapFilter_wf _ _ _ (by assumption) | exact pokeBytes_wf _ _ _ (by assumption) | exact foldl_wf _ _ (fun _ _ h => mapSet_wf _ _ _ _ h) _ (by assumption) | exact foldl_wf _ _ (fun _ _ h => mapMod_wf _ _ _ _ h) _ (by assumption) | exact rfl)) ?_

theorem assignTiles_moves (s) : Moves 0x3000 s (assignTiles s) := by
  unfold assignTiles
  repeat' first
    | (extract_lets +onlyGivenNames x; clear_value x; revert x; intro _)
    | with_reducible apply Moves.ite
    | with_reducible exact Moves.refl _ _
    | (with_reducible apply Moves.next ?hm (setTmap_moves ..) ?_; (case hm => decide))
    | (with_reducible apply Moves.next ?hm (setPtile_moves ..) ?_; (case hm => decide))
    | with_reducible apply Moves.foldl _ (fun s x => ?_) _ ?_
    | refine Moves.upd rfl (fun h => by cases h; constructor <;> first | assumption | (try dsimp only; first | exact mapSet_wf _ _ _ _ (by assumption) | exact mapMod_wf _ _ _ _ (by assumption) | exact mapDrop_wf _ _ _ (by assumption) | exact mapFilter_wf _ _ _ (by assumption) | exact pokeBytes_wf _ _ _ (by assumption) | exact foldl_wf _ _ (fun _ _ h => mapSet_wf _ _ _ _ h) _ (by assumption) | exact foldl_wf _ _ (fun _ _ h => mapMod_wf _ _ _ _ h) _ (by assumption) | exact rfl)) ?_

theorem reapplyRetire_moves (s r) : Moves 0x8 s (reapplyRetire s r) := by
  unfold reapplyRetire
  repeat' first
    | (extract_lets +onlyGivenNames t; refine Moves.cut (t := t) ?_ (fun ht => ?_); (on_goal 2 => (clear_value t; revert t; intro _ _)); (on_goal 1 => (unfold t; clear t)))
    | (extract_lets +onlyGivenNames x; clear_value x; revert x; intro _)
    | with_reducible apply Moves.ite
    | with_reducible exact Moves.refl _ _
    | with_reducible assumption
    | (with_reducible apply Moves.next ?hm (setF_moves ..) ?_; (case hm => decide))
    | split

theorem zeroAllFrames_moves (s) : Moves 0x30 s (zeroAllFrames s) := by
  unfold zeroAllFrames
  repeat' first
    | with_reducible exact Moves.refl _ _
    | (with_reducible apply Moves.next ?hm (zeroRange_moves ..) ?_; (case hm => decide))

theorem bistRetire_moves (s p) : Moves 0x8400000002000 s (bistRetire s p) := by
  unfold bistRetire
  repeat' first
    | with_reducible apply Moves.ite
    | with_reducible exact Moves.refl _ _
    | (with_reducible apply Moves.next ?hm (logLedger_moves ..) ?_; (case hm => decide))
    | (with_reducible apply Moves.next ?hm (retireTile_moves ..) ?_; (case hm => decide))
    | (with_reducible apply Moves.next ?hm (bumpLife_moves ..) ?_; (case hm => decide))

theorem firstKey_moves (s) : Moves 0x8 s (firstKey s) := by
  unfold firstKey
  repeat' first
    | with_reducible exact Moves.refl _ _
    | (with_reducible apply Moves.next ?hm (setKey_moves ..) ?_; (case hm => decide))
    | (with_reducible apply Moves.next ?hm (noteMixed_moves ..) ?_; (case hm => decide))

theorem startFlues_moves (s) : Moves 0x8 s (startFlues s) := by
  unfold startFlues
  repeat' first
    | with_reducible exact Moves.refl _ _
    | (with_reducible apply Moves.next ?hm (setFlueState_moves ..) ?_; (case hm => decide))
    | with_reducible apply Moves.foldl _ (fun s x => ?_) _ ?_

theorem kindleK2_moves (s images bistFailed untrained) : Moves 0x90a580000003038 s (kindleK2 s images bistFailed untrained) := by
  unfold kindleK2
  repeat' first
    | (extract_lets +onlyGivenNames t; refine Moves.cut (t := t) ?_ (fun ht => ?_); (on_goal 2 => (clear_value t; revert t; intro _ _)); (on_goal 1 => (unfold t; clear t)))
    | with_reducible apply Moves.ite
    | with_reducible exact Moves.refl _ _
    | with_reducible assumption
    | (with_reducible apply Moves.next ?hm (agePredict_moves ..) ?_; (case hm => decide))
    | (with_reducible apply Moves.next ?hm (bistRetire_moves ..) ?_; (case hm => decide))
    | (with_reducible apply Moves.next ?hm (setStage_moves ..) ?_; (case hm => decide))
    | (with_reducible apply Moves.next ?hm (loadBlock_moves ..) ?_; (case hm => decide))
    | (with_reducible apply Moves.next ?hm (assignTiles_moves ..) ?_; (case hm => decide))
    | (with_reducible apply Moves.next ?hm (setF_moves ..) ?_; (case hm => decide))
    | (with_reducible apply Moves.next ?hm (startFlues_moves ..) ?_; (case hm => decide))
    | (with_reducible apply Moves.next ?hm (zeroAllFrames_moves ..) ?_; (case hm => decide))
    | (with_reducible apply Moves.next ?hm (firstKey_moves ..) ?_; (case hm => decide))
    | (with_reducible apply Moves.next ?hm (reapplyRetire_moves ..) ?_; (case hm => decide))
    | with_reducible apply Moves.foldl _ (fun s x => ?_) _ ?_

theorem kindleK3_moves (s) : Moves 0x8 s (kindleK3 s) := by
  unfold kindleK3
  repeat' first
    | with_reducible apply Moves.ite
    | with_reducible exact Moves.refl _ _
    | (with_reducible apply Moves.next ?hm (setStage_moves ..) ?_; (case hm => decide))

theorem kindleK4_moves (s node plan hash) : Moves 0x802000001600038 s (kindleK4 s node plan hash) := by
  unfold kindleK4
  repeat' first
    | (extract_lets +onlyGivenNames t; refine Moves.cut (t := t) ?_ (fun ht => ?_); (on_goal 2 => (clear_value t; revert t; intro _ _)); (on_goal 1 => (unfold t; clear t)))
    | with_reducible apply Moves.ite
    | with_reducible exact Moves.refl _ _
    | with_reducible assumption
    | (with_reducible apply Moves.next ?hm (slotCheck_moves ..) ?_; (case hm => decide))
    | (with_reducible apply Moves.next ?hm (mrExtend_moves ..) ?_; (case hm => decide))
    | (with_reducible apply Moves.next ?hm (measureEditions_moves ..) ?_; (case hm => decide))
    | (with_reducible apply Moves.next ?hm (setF_moves ..) ?_; (case hm => decide))
    | (with_reducible apply Moves.next ?hm (parentCheck_moves ..) ?_; (case hm => decide))
    | (with_reducible apply Moves.next ?hm (loadPlan_moves ..) ?_; (case hm => decide))
    | refine Moves.upd rfl (fun h => by cases h; constructor <;> first | assumption | (try dsimp only; first | exact mapSet_wf _ _ _ _ (by assumption) | exact mapMod_wf _ _ _ _ (by assumption) | exact mapDrop_wf _ _ _ (by assumption) | exact mapFilter_wf _ _ _ (by assumption) | exact pokeBytes_wf _ _ _ (by assumption) | exact foldl_wf _ _ (fun _ _ h => mapSet_wf _ _ _ _ h) _ (by assumption) | exact foldl_wf _ _ (fun _ _ h => mapMod_wf _ _ _ _ h) _ (by assumption) | exact rfl)) ?_

theorem kindled_moves (s) : Moves 0x800004000000038 s (kindled s) := by
  unfold kindled
  repeat' first
    | (extract_lets +onlyGivenNames t; refine Moves.cut (t := t) ?_ (fun ht => ?_); (on_goal 2 => (clear_value t; revert t; intro _ _)); (on_goal 1 => (unfold t; clear t)))
    | (extract_lets +onlyGivenNames x; clear_value x; revert x; intro _)
    | with_reducible apply Moves.ite
    | with_reducible exact Moves.refl _ _
    | with_reducible assumption
    | (with_reducible apply Moves.next ?hm (setStage_moves ..) ?_; (case hm => decide))
    | (with_reducible apply Moves.next ?hm (watchdogRec_moves ..) ?_; (case hm => decide))
    | (with_reducible apply Moves.next ?hm (setF_moves ..) ?_; (case hm => decide))
    | (with_reducible apply Moves.next ?hm (admitDomain_moves ..) ?_; (case hm => decide))
    | (with_reducible apply Moves.next ?hm (pushEvent_moves ..) ?_; (case hm => decide))

theorem commitFw_moves (s b) : Moves 0x200000000008 s (commitFw s b) := by
  unfold commitFw
  repeat' first
    | (extract_lets +onlyGivenNames x; clear_value x; revert x; intro _)
    | with_reducible apply Moves.ite
    | with_reducible exact Moves.refl _ _
    | (with_reducible apply Moves.next ?hm (setF_moves ..) ?_; (case hm => decide))
    | refine Moves.upd rfl (fun h => by cases h; constructor <;> first | assumption | (try dsimp only; first | exact mapSet_wf _ _ _ _ (by assumption) | exact mapMod_wf _ _ _ _ (by assumption) | exact mapDrop_wf _ _ _ (by assumption) | exact mapFilter_wf _ _ _ (by assumption) | exact pokeBytes_wf _ _ _ (by assumption) | exact foldl_wf _ _ (fun _ _ h => mapSet_wf _ _ _ _ h) _ (by assumption) | exact foldl_wf _ _ (fun _ _ h => mapMod_wf _ _ _ _ h) _ (by assumption) | exact rfl)) ?_

theorem mr7Go_moves (s) : Moves 0x4000000000008 s (mr7Go s) := by
  unfold mr7Go
  repeat' first
    | with_reducible apply Moves.ite
    | with_reducible exact Moves.refl _ _
    | (with_reducible apply Moves.next ?hm (setF_moves ..) ?_; (case hm => decide))
    | refine Moves.upd rfl (fun h => by cases h; constructor <;> first | assumption | (try dsimp only; first | exact mapSet_wf _ _ _ _ (by assumption) | exact mapMod_wf _ _ _ _ (by assumption) | exact mapDrop_wf _ _ _ (by assumption) | exact mapFilter_wf _ _ _ (by assumption) | exact pokeBytes_wf _ _ _ (by assumption) | exact foldl_wf _ _ (fun _ _ h => mapSet_wf _ _ _ _ h) _ (by assumption) | exact foldl_wf _ _ (fun _ _ h => mapMod_wf _ _ _ _ h) _ (by assumption) | exact rfl)) ?_

theorem mr7Done_moves (s) : Moves 0x6000000000008 s (mr7Done s) := by
  unfold mr7Done
  repeat' first
    | with_reducible exact Moves.refl _ _
    | (with_reducible apply Moves.next ?hm (mrExtend_moves ..) ?_; (case hm => decide))
    | (with_reducible apply Moves.next ?hm (setF_moves ..) ?_; (case hm => decide))
    | split
    | refine Moves.upd rfl (fun h => by cases h; constructor <;> first | assumption | (try dsimp only; first | exact mapSet_wf _ _ _ _ (by assumption) | exact mapMod_wf _ _ _ _ (by assumption) | exact mapDrop_wf _ _ _ (by assumption) | exact mapFilter_wf _ _ _ (by assumption) | exact pokeBytes_wf _ _ _ (by assumption) | exact foldl_wf _ _ (fun _ _ h => mapSet_wf _ _ _ _ h) _ (by assumption) | exact foldl_wf _ _ (fun _ _ h => mapMod_wf _ _ _ _ h) _ (by assumption) | exact rfl)) ?_

theorem colophon_moves (s flue nonce) : Moves 0x800000000000000 s (colophon s flue nonce).1 := by
  unfold colophon
  repeat' first
    | (extract_lets +onlyGivenNames x; clear_value x; revert x; intro _)
    | with_reducible exact Moves.refl _ _
    | refine Moves.upd rfl (fun h => by cases h; constructor <;> first | assumption | (try dsimp only; first | exact mapSet_wf _ _ _ _ (by assumption) | exact mapMod_wf _ _ _ _ (by assumption) | exact mapDrop_wf _ _ _ (by assumption) | exact mapFilter_wf _ _ _ (by assumption) | exact pokeBytes_wf _ _ _ (by assumption) | exact foldl_wf _ _ (fun _ _ h => mapSet_wf _ _ _ _ h) _ (by assumption) | exact foldl_wf _ _ (fun _ _ h => mapMod_wf _ _ _ _ h) _ (by assumption) | exact rfl)) ?_

theorem coloQueue_moves (s flue tag nonce) : Moves 0x800000000000000 s (coloQueue s flue tag nonce).1 := by
  unfold coloQueue
  repeat' first
    | (extract_lets +onlyGivenNames x; clear_value x; revert x; intro _)
    | with_reducible apply Moves.ite_fst
    | with_reducible exact Moves.refl _ _
    | refine Moves.upd rfl (fun h => by cases h; constructor <;> first | assumption | (try dsimp only; first | exact mapSet_wf _ _ _ _ (by assumption) | exact mapMod_wf _ _ _ _ (by assumption) | exact mapDrop_wf _ _ _ (by assumption) | exact mapFilter_wf _ _ _ (by assumption) | exact pokeBytes_wf _ _ _ (by assumption) | exact foldl_wf _ _ (fun _ _ h => mapSet_wf _ _ _ _ h) _ (by assumption) | exact foldl_wf _ _ (fun _ _ h => mapMod_wf _ _ _ _ h) _ (by assumption) | exact rfl)) ?_

theorem neighbourColophon_moves (s f nonce) : Moves 0x800000000080000 s (neighbourColophon s f nonce) := by
  unfold neighbourColophon
  repeat' first
    | with_reducible apply Moves.ite
    | with_reducible exact Moves.refl _ _
    | (with_reducible apply Moves.next ?hm (coloQueue_moves ..) ?_; (case hm => decide))
    | (with_reducible apply Moves.next ?hm (flueMessage_moves ..) ?_; (case hm => decide))
    | split
    | (with_reducible apply Moves.fst_of ?he ?_; (case he => with_reducible assumption))

theorem answerNeighbour_moves (s f) : Moves 0x800000000080000 s (answerNeighbour s f) := by
  unfold answerNeighbour
  repeat' first
    | (extract_lets +onlyGivenNames t; refine Moves.cut (t := t) ?_ (fun ht => ?_); (on_goal 2 => (clear_value t; revert t; intro _ _)); (on_goal 1 => (unfold t; clear t)))
    | (extract_lets +onlyGivenNames x; clear_value x; revert x; intro _)
    | with_reducible apply Moves.ite
    | with_reducible exact Moves.refl _ _
    | with_reducible assumption
    | (with_reducible apply Moves.next ?hm (colophon_moves ..) ?_; (case hm => decide))
    | (with_reducible apply Moves.next ?hm (flueMessage_moves ..) ?_; (case hm => decide))
    | split
    | refine Moves.upd rfl (fun h => by cases h; constructor <;> first | assumption | (try dsimp only; first | exact mapSet_wf _ _ _ _ (by assumption) | exact mapMod_wf _ _ _ _ (by assumption) | exact mapDrop_wf _ _ _ (by assumption) | exact mapFilter_wf _ _ _ (by assumption) | exact pokeBytes_wf _ _ _ (by assumption) | exact foldl_wf _ _ (fun _ _ h => mapSet_wf _ _ _ _ h) _ (by assumption) | exact foldl_wf _ _ (fun _ _ h => mapMod_wf _ _ _ _ h) _ (by assumption) | exact rfl)) ?_

theorem unpackCe_moves (s c bs) : Moves 0x800048 s (unpackCe s c bs) := by
  unfold unpackCe
  repeat' first
    | (extract_lets +onlyGivenNames t; refine Moves.cut (t := t) ?_ (fun ht => ?_); (on_goal 2 => (clear_value t; revert t; intro _ _)); (on_goal 1 => (unfold t; clear t)))
    | (extract_lets +onlyGivenNames x; clear_value x; revert x; intro _)
    | with_reducible apply Moves.ite
    | with_reducible exact Moves.refl _ _
    | with_reducible assumption
    | (with_reducible apply Moves.next ?hm (unpackEng_moves ..) ?_; (case hm => decide))
    | (with_reducible apply Moves.next ?hm (regSet_moves ..) ?_; (case hm => decide))
    | (with_reducible apply Moves.next ?hm (setCe_moves ..) ?_; (case hm => decide))
    | (with_reducible apply Moves.next ?hm (unpackGs_moves ..) ?_; (case hm => decide))
    | with_reducible apply Moves.foldl _ (fun s x => ?_) _ ?_

theorem applyGlobal_moves (s b) : Moves 0x208 s (applyGlobal s b) := by
  unfold applyGlobal
  repeat' first
    | (extract_lets +onlyGivenNames t; refine Moves.cut (t := t) ?_ (fun ht => ?_); (on_goal 2 => (clear_value t; revert t; intro _ _)); (on_goal 1 => (unfold t; clear t)))
    | (extract_lets +onlyGivenNames x; clear_value x; revert x; intro _)
    | with_reducible exact Moves.refl _ _
    | with_reducible assumption
    | (with_reducible apply Moves.next ?hm (wrF_moves ..) ?_; (case hm => decide))
    | (with_reducible apply Moves.next ?hm (regSet_moves ..) ?_; (case hm => decide))
    | (with_reducible apply Moves.next ?hm (setF_moves ..) ?_; (case hm => decide))
    | refine Moves.upd rfl (fun h => by cases h; constructor <;> first | assumption | (try dsimp only; first | exact mapSet_wf _ _ _ _ (by assumption) | exact mapMod_wf _ _ _ _ (by assumption) | exact mapDrop_wf _ _ _ (by assumption) | exact mapFilter_wf _ _ _ (by assumption) | exact pokeBytes_wf _ _ _ (by assumption) | exact foldl_wf _ _ (fun _ _ h => mapSet_wf _ _ _ _ h) _ (by assumption) | exact foldl_wf _ _ (fun _ _ h => mapMod_wf _ _ _ _ h) _ (by assumption) | exact rfl)) ?_

theorem applyTile_moves (s p b) : Moves 0xf8 s (applyTile s p b) := by
  unfold applyTile
  repeat' first
    | (extract_lets +onlyGivenNames t; refine Moves.cut (t := t) ?_ (fun ht => ?_); (on_goal 2 => (clear_value t; revert t; intro _ _)); (on_goal 1 => (unfold t; clear t)))
    | (extract_lets +onlyGivenNames x; clear_value x; revert x; intro _)
    | with_reducible exact Moves.refl _ _
    | with_reducible assumption
    | (with_reducible apply Moves.next ?hm (unpackEng_moves ..) ?_; (case hm => decide))
    | (with_reducible apply Moves.next ?hm (regSet_moves ..) ?_; (case hm => decide))
    | (with_reducible apply Moves.next ?hm (setCtr_moves ..) ?_; (case hm => decide))
    | (with_reducible apply Moves.next ?hm (modTile_moves ..) ?_; (case hm => decide))
    | (with_reducible apply Moves.next ?hm (writeBytes_moves ..) ?_; (case hm => decide))
    | (with_reducible apply Moves.next ?hm (unpackGs_moves ..) ?_; (case hm => decide))
    | with_reducible apply Moves.foldl _ (fun s x => ?_) _ ?_

theorem applyBarrier_moves (s b) : Moves 0x108 s (applyBarrier s b) := by
  unfold applyBarrier
  repeat' first
    | (extract_lets +onlyGivenNames t; refine Moves.cut (t := t) ?_ (fun ht => ?_); (on_goal 2 => (clear_value t; revert t; intro _ _)); (on_goal 1 => (unfold t; clear t)))
    | (extract_lets +onlyGivenNames x; clear_value x; revert x; intro _)
    | with_reducible exact Moves.refl _ _
    | with_reducible assumption
    | (with_reducible apply Moves.next ?hm (regSet_moves ..) ?_; (case hm => decide))
    | (with_reducible apply Moves.next ?hm (setFi_moves ..) ?_; (case hm => decide))
    | (with_reducible apply Moves.next ?hm (setCtx_moves ..) ?_; (case hm => decide))
    | with_reducible apply Moves.foldl _ (fun s x => ?_) _ ?_

theorem sendImage_moves (s ss status) : Moves 0x800000000000000 s (sendImage s ss status).1 := by
  unfold sendImage
  repeat' first
    | (extract_lets +onlyGivenNames x; clear_value x; revert x; intro _)
    | with_reducible exact Moves.refl _ _
    | (with_reducible apply Moves.next ?hm (ebOut_moves ..) ?_; (case hm => decide))
    | with_reducible apply Moves.foldl _ (fun s x => ?_) _ ?_

theorem setRestore_moves (s on) : Moves 0x2000000 s (setRestore s on) := by
  unfold setRestore
  repeat' first
    | (extract_lets +onlyGivenNames x; clear_value x; revert x; intro _)
    | with_reducible exact Moves.refl _ _
    | refine Moves.upd rfl (fun h => by cases h; constructor <;> first | assumption | (try dsimp only; first | exact mapSet_wf _ _ _ _ (by assumption) | exact mapMod_wf _ _ _ _ (by assumption) | exact mapDrop_wf _ _ _ (by assumption) | exact mapFilter_wf _ _ _ (by assumption) | exact pokeBytes_wf _ _ _ (by assumption) | exact foldl_wf _ _ (fun _ _ h => mapSet_wf _ _ _ _ h) _ (by assumption) | exact foldl_wf _ _ (fun _ _ h => mapMod_wf _ _ _ _ h) _ (by assumption) | exact rfl)) ?_

theorem writeTable_moves (s base b) : Moves 0x30 s (writeTable s base b) := by
  unfold writeTable
  repeat' first
    | with_reducible exact Moves.refl _ _
    | (with_reducible apply Moves.next ?hm (writeBytes_moves ..) ?_; (case hm => decide))

theorem loadTable_moves (s base) : Moves 0x800000002160088 s (loadTable s base).1 := by
  unfold loadTable
  repeat' first
    | with_reducible exact Moves.refl _ _
    | (with_reducible apply Moves.next ?hm (applyTable_moves ..) ?_; (case hm => decide))
    | (with_reducible apply Moves.next ?hm (setRestore_moves ..) ?_; (case hm => decide))
    | (with_reducible apply Moves.next ?hm (releaseHeld_moves ..) ?_; (case hm => decide))
    | (with_reducible apply Moves.next ?hm (ftRefuse_moves ..) ?_; (case hm => decide))
    | split

theorem applyFolioTable_moves (s b) : Moves 0x8000000021600b8 s (applyFolioTable s b).1 := by
  unfold applyFolioTable
  repeat' first
    | (extract_lets +onlyGivenNames x; clear_value x; revert x; intro _)
    | with_reducible apply Moves.ite_fst
    | with_reducible exact Moves.refl _ _
    | (with_reducible apply Moves.next ?hm (loadTable_moves ..) ?_; (case hm => decide))
    | (with_reducible apply Moves.next ?hm (writeTable_moves ..) ?_; (case hm => decide))
    | (with_reducible apply Moves.next ?hm (ftRefuse_moves ..) ?_; (case hm => decide))

theorem poisonAt_moves (s o) : Moves 0xa0 s (poisonAt s o) := by
  unfold poisonAt
  repeat' first
    | (extract_lets +onlyGivenNames x; clear_value x; revert x; intro _)
    | with_reducible apply Moves.ite
    | with_reducible exact Moves.refl _ _
    | (with_reducible apply Moves.next ?hm (poisonWord_moves ..) ?_; (case hm => decide))
    | (with_reducible apply Moves.next ?hm (modMx_moves ..) ?_; (case hm => decide))
    | with_reducible apply Moves.foldl _ (fun s x => ?_) _ ?_
    | split

theorem applySection_moves (s typ unit b) : Moves 0x8000000029603f8 s (applySection s typ unit b).1 := by
  unfold applySection
  repeat' first
    | with_reducible exact Moves.refl _ _
    | (with_reducible apply Moves.next ?hm (unpackCe_moves ..) ?_; (case hm => decide))
    | (with_reducible apply Moves.next ?hm (applyTile_moves ..) ?_; (case hm => decide))
    | (with_reducible apply Moves.next ?hm (applyGlobal_moves ..) ?_; (case hm => decide))
    | (with_reducible apply Moves.next ?hm (applyBarrier_moves ..) ?_; (case hm => decide))
    | (with_reducible apply Moves.next ?hm (poisonAt_moves ..) ?_; (case hm => decide))
    | (with_reducible apply Moves.next ?hm (applyFolioTable_moves ..) ?_; (case hm => decide))
    | with_reducible apply Moves.foldl _ (fun s x => ?_) _ ?_
    | split

theorem lendErr_moves (s) : Moves 0x8 s (lendErr s) := by
  unfold lendErr
  repeat' first
    | with_reducible exact Moves.refl _ _
    | (with_reducible apply Moves.next ?hm (setF_moves ..) ?_; (case hm => decide))

theorem setLend_moves (s v) : Moves 0x8 s (setLend s v) := by
  unfold setLend
  repeat' first
    | with_reducible exact Moves.refl _ _
    | (with_reducible apply Moves.next ?hm (setF_moves ..) ?_; (case hm => decide))

theorem modLend_moves (s f) : Moves 0x2000000 s (modLend s f) := by
  unfold modLend
  repeat' first
    | with_reducible exact Moves.refl _ _
    | refine Moves.upd rfl (fun h => by cases h; constructor <;> first | assumption | (try dsimp only; first | exact mapSet_wf _ _ _ _ (by assumption) | exact mapMod_wf _ _ _ _ (by assumption) | exact mapDrop_wf _ _ _ (by assumption) | exact mapFilter_wf _ _ _ (by assumption) | exact pokeBytes_wf _ _ _ (by assumption) | exact foldl_wf _ _ (fun _ _ h => mapSet_wf _ _ _ _ h) _ (by assumption) | exact foldl_wf _ _ (fun _ _ h => mapMod_wf _ _ _ _ h) _ (by assumption) | exact rfl)) ?_

theorem lendRec_moves (s code cause) : Moves 0x800000000000038 s (lendRec s code cause) := by
  unfold lendRec
  repeat' first
    | with_reducible exact Moves.refl _ _
    | (with_reducible apply Moves.next ?hm (raiseMgc_moves ..) ?_; (case hm => decide))

theorem lendEvent_moves (s code) : Moves 0x800000000000008 s (lendEvent s code) := by
  unfold lendEvent
  repeat' first
    | with_reducible exact Moves.refl _ _
    | (with_reducible apply Moves.next ?hm (pushEvent_moves ..) ?_; (case hm => decide))

theorem lendStep_moves {m : Nat} {f} (hm : 0x0 ||| m = m) (hf : ∀ s, Moves m s (f s)) (s) :
    Moves m s (lendStep s f) := by
  unfold lendStep
  repeat' first
    | with_reducible apply Moves.ite
    | with_reducible exact Moves.refl _ _
    | with_reducible apply Moves.trans (hf ..) ?_

theorem touchRegion_moves (s) : Moves 0x40000 s (touchRegion s) := by
  unfold touchRegion
  repeat' first
    | with_reducible exact Moves.refl _ _
    | (with_reducible apply Moves.next ?hm (touchFrames_moves ..) ?_; (case hm => decide))

theorem beginTeardown_moves (s g after) : Moves 0x2020208 s (beginTeardown s g after) := by
  unfold beginTeardown
  repeat' first
    | (extract_lets +onlyGivenNames t; refine Moves.cut (t := t) ?_ (fun ht => ?_); (on_goal 2 => (clear_value t; revert t; intro _ _)); (on_goal 1 => (unfold t; clear t)))
    | (extract_lets +onlyGivenNames x; revert x; intro _)
    | with_reducible exact Moves.refl _ _
    | with_reducible assumption
    | (with_reducible apply Moves.next ?hm (modLend_moves ..) ?_; (case hm => decide))
    | (with_reducible apply Moves.next ?hm (setF_moves ..) ?_; (case hm => decide))
    | with_reducible apply Moves.foldl _ (fun s x => ?_) _ ?_
    | refine Moves.upd rfl (fun h => by cases h; constructor <;> first | assumption | (try dsimp only; first | exact mapSet_wf _ _ _ _ (by assumption) | exact mapMod_wf _ _ _ _ (by assumption) | exact mapDrop_wf _ _ _ (by assumption) | exact mapFilter_wf _ _ _ (by assumption) | exact pokeBytes_wf _ _ _ (by assumption) | exact foldl_wf _ _ (fun _ _ h => mapSet_wf _ _ _ _ h) _ (by assumption) | exact foldl_wf _ _ (fun _ _ h => mapMod_wf _ _ _ _ h) _ (by assumption) | exact rfl)) ?_

theorem drainEnd_moves (s) : Moves 0x2000000 s (drainEnd s) := by
  unfold drainEnd
  repeat' first
    | with_reducible apply Moves.ite
    | with_reducible exact Moves.refl _ _
    | (with_reducible apply Moves.next ?hm (modLend_moves ..) ?_; (case hm => decide))

theorem drainLate_moves (s) : Moves 0x2000008 s (drainLate s) := by
  unfold drainLate
  repeat' first
    | with_reducible apply Moves.ite
    | with_reducible exact Moves.refl _ _
    | (with_reducible apply Moves.next ?hm (modLend_moves ..) ?_; (case hm => decide))
    | (with_reducible apply Moves.next ?hm (setF_moves ..) ?_; (case hm => decide))

theorem quiesceAll_moves (s) : Moves 0x40 s (quiesceAll s) := by
  unfold quiesceAll
  repeat' first
    | with_reducible exact Moves.refl _ _
    | (with_reducible apply Moves.next ?hm (askQuiesce_moves ..) ?_; (case hm => decide))
    | with_reducible apply Moves.foldl _ (fun s x => ?_) _ ?_

theorem dropResync_moves (s) : Moves 0x20008 s (dropResync s) := by
  unfold dropResync
  repeat' first
    | (extract_lets +onlyGivenNames x; revert x; intro _)
    | with_reducible apply Moves.ite
    | with_reducible exact Moves.refl _ _
    | (with_reducible apply Moves.next ?hm (setF_moves ..) ?_; (case hm => decide))
    | refine Moves.upd rfl (fun h => by cases h; constructor <;> first | assumption | (try dsimp only; first | exact mapSet_wf _ _ _ _ (by assumption) | exact mapMod_wf _ _ _ _ (by assumption) | exact mapDrop_wf _ _ _ (by assumption) | exact mapFilter_wf _ _ _ (by assumption) | exact pokeBytes_wf _ _ _ (by assumption) | exact foldl_wf _ _ (fun _ _ h => mapSet_wf _ _ _ _ h) _ (by assumption) | exact foldl_wf _ _ (fun _ _ h => mapMod_wf _ _ _ _ h) _ (by assumption) | exact rfl)) ?_

theorem refuseHeld_moves (s) : Moves 0x120000 s (refuseHeld s) := by
  unfold refuseHeld
  repeat' first
    | (extract_lets +onlyGivenNames x; revert x; intro _)
    | with_reducible exact Moves.refl _ _
    | (with_reducible apply Moves.next ?hm (sendNack_moves ..) ?_; (case hm => decide))
    | with_reducible apply Moves.foldl _ (fun s x => ?_) _ ?_
    | refine Moves.upd rfl (fun h => by cases h; constructor <;> first | assumption | (try dsimp only; first | exact mapSet_wf _ _ _ _ (by assumption) | exact mapMod_wf _ _ _ _ (by assumption) | exact mapDrop_wf _ _ _ (by assumption) | exact mapFilter_wf _ _ _ (by assumption) | exact pokeBytes_wf _ _ _ (by assumption) | exact foldl_wf _ _ (fun _ _ h => mapSet_wf _ _ _ _ h) _ (by assumption) | exact foldl_wf _ _ (fun _ _ h => mapMod_wf _ _ _ _ h) _ (by assumption) | exact rfl)) ?_

theorem beginQuiesce_moves (s target release) : Moves 0x2000048 s (beginQuiesce s target release) := by
  unfold beginQuiesce
  repeat' first
    | (extract_lets +onlyGivenNames t; refine Moves.cut (t := t) ?_ (fun ht => ?_); (on_goal 2 => (clear_value t; revert t; intro _ _)); (on_goal 1 => (unfold t; clear t)))
    | with_reducible exact Moves.refl _ _
    | with_reducible assumption
    | (with_reducible apply Moves.next ?hm (modLend_moves ..) ?_; (case hm => decide))
    | (with_reducible apply Moves.next ?hm (setF_moves ..) ?_; (case hm => decide))
    | (with_reducible apply Moves.next ?hm (quiesceAll_moves ..) ?_; (case hm => decide))

theorem holdWaits_moves (s) : Moves 0x40 s (holdWaits s) := by
  unfold holdWaits
  repeat' first
    | with_reducible exact Moves.refl _ _
    | (with_reducible apply Moves.next ?hm (modEng_moves ..) ?_; (case hm => decide))
    | with_reducible apply Moves.foldl _ (fun s x => ?_) _ ?_

theorem enterRecall_moves (s at0 target) : Moves 0x2120048 s (enterRecall s at0 target) := by
  unfold enterRecall
  repeat' first
    | (extract_lets +onlyGivenNames t; refine Moves.cut (t := t) ?_ (fun ht => ?_); (on_goal 2 => (clear_value t; revert t; intro _ _)); (on_goal 1 => (unfold t; clear t)))
    | with_reducible exact Moves.refl _ _
    | with_reducible assumption
    | (with_reducible apply Moves.next ?hm (setLend_moves ..) ?_; (case hm => decide))
    | (with_reducible apply Moves.next ?hm (holdWaits_moves ..) ?_; (case hm => decide))
    | (with_reducible apply Moves.next ?hm (dropResync_moves ..) ?_; (case hm => decide))
    | (with_reducible apply Moves.next ?hm (beginQuiesce_moves ..) ?_; (case hm => decide))
    | (with_reducible apply Moves.next ?hm (setF_moves ..) ?_; (case hm => decide))
    | (with_reducible apply Moves.next ?hm (refuseHeld_moves ..) ?_; (case hm => decide))

theorem recallAt_moves (s at0 target) : Moves 0x2120048 s (recallAt s at0 target) := by
  unfold recallAt
  repeat' first
    | with_reducible apply Moves.ite
    | with_reducible exact Moves.refl _ _
    | (with_reducible apply Moves.next ?hm (modLend_moves ..) ?_; (case hm => decide))
    | (with_reducible apply Moves.next ?hm (lendErr_moves ..) ?_; (case hm => decide))
    | (with_reducible apply Moves.next ?hm (enterRecall_moves ..) ?_; (case hm => decide))

theorem recallNotice_moves (s target) : Moves 0x2120048 s (recallNotice s target) := by
  unfold recallNotice
  repeat' first
    | with_reducible exact Moves.refl _ _
    | (with_reducible apply Moves.next ?hm (recallAt_moves ..) ?_; (case hm => decide))

theorem enterLending_moves (s) : Moves 0x29602c8 s (enterLending s) := by
  unfold enterLending
  repeat' first
    | (extract_lets +onlyGivenNames t; refine Moves.cut (t := t) ?_ (fun ht => ?_); (on_goal 2 => (clear_value t; revert t; intro _ _)); (on_goal 1 => (unfold t; clear t)))
    | (extract_lets +onlyGivenNames x; clear_value x; revert x; intro _)
    | with_reducible apply Moves.ite
    | with_reducible exact Moves.refl _ _
    | with_reducible assumption
    | (with_reducible apply Moves.next ?hm (touchRegion_moves ..) ?_; (case hm => decide))
    | (with_reducible apply Moves.next ?hm (modLend_moves ..) ?_; (case hm => decide))
    | (with_reducible apply Moves.next ?hm (setLend_moves ..) ?_; (case hm => decide))
    | (with_reducible apply Moves.next ?hm (haltEngine_moves ..) ?_; (case hm => decide))
    | (with_reducible apply Moves.next ?hm (enterRecall_moves ..) ?_; (case hm => decide))
    | with_reducible apply Moves.foldl _ (fun s x => ?_) _ ?_
    | split

theorem teardownFence_moves (s) : Moves 0x29602c8 s (teardownFence s) := by
  unfold teardownFence
  repeat' first
    | (extract_lets +onlyGivenNames t; refine Moves.cut (t := t) ?_ (fun ht => ?_); (on_goal 2 => (clear_value t; revert t; intro _ _)); (on_goal 1 => (unfold t; clear t)))
    | (extract_lets +onlyGivenNames x; revert x; intro _)
    | with_reducible apply Moves.ite
    | with_reducible exact Moves.refl _ _
    | with_reducible assumption
    | (with_reducible apply Moves.next ?hm (modLend_moves ..) ?_; (case hm => decide))
    | (with_reducible apply Moves.next ?hm (enterLending_moves ..) ?_; (case hm => decide))
    | (with_reducible apply Moves.next ?hm (setF_moves ..) ?_; (case hm => decide))
    | refine Moves.upd rfl (fun h => by cases h; constructor <;> first | assumption | (try dsimp only; first | exact mapSet_wf _ _ _ _ (by assumption) | exact mapMod_wf _ _ _ _ (by assumption) | exact mapDrop_wf _ _ _ (by assumption) | exact mapFilter_wf _ _ _ (by assumption) | exact pokeBytes_wf _ _ _ (by assumption) | exact foldl_wf _ _ (fun _ _ h => mapSet_wf _ _ _ _ h) _ (by assumption) | exact foldl_wf _ _ (fun _ _ h => mapMod_wf _ _ _ _ h) _ (by assumption) | exact rfl)) ?_

theorem serve_moves (s) : Moves 0x8 s (serve s) := by
  unfold serve
  repeat' first
    | with_reducible apply Moves.ite
    | with_reducible exact Moves.refl _ _
    | (with_reducible apply Moves.next ?hm (setLend_moves ..) ?_; (case hm => decide))
    | (with_reducible apply Moves.next ?hm (lendErr_moves ..) ?_; (case hm => decide))

theorem idleCmd_moves (s) : Moves 0x8084004a0003038 s (idleCmd s) := by
  unfold idleCmd
  repeat' first
    | with_reducible apply Moves.ite
    | with_reducible exact Moves.refl _ _
    | (with_reducible apply Moves.next ?hm (setLend_moves ..) ?_; (case hm => decide))
    | (with_reducible apply Moves.next ?hm (lendErr_moves ..) ?_; (case hm => decide))
    | (with_reducible apply Moves.next ?hm (enterIdle_moves ..) ?_; (case hm => decide))

theorem lendCmd_moves (s g restore) : Moves 0x2020208 s (lendCmd s g restore) := by
  unfold lendCmd
  repeat' first
    | with_reducible apply Moves.ite
    | with_reducible exact Moves.refl _ _
    | (with_reducible apply Moves.next ?hm (modLend_moves ..) ?_; (case hm => decide))
    | (with_reducible apply Moves.next ?hm (beginTeardown_moves ..) ?_; (case hm => decide))
    | (with_reducible apply Moves.next ?hm (lendErr_moves ..) ?_; (case hm => decide))
    | (with_reducible apply Moves.next ?hm (setF_moves ..) ?_; (case hm => decide))

theorem handover_moves (s) : Moves 0x29202c8 s (handover s) := by
  unfold handover
  repeat' first
    | (extract_lets +onlyGivenNames t; refine Moves.cut (t := t) ?_ (fun ht => ?_); (on_goal 2 => (clear_value t; revert t; intro _ _)); (on_goal 1 => (unfold t; clear t)))
    | with_reducible exact Moves.refl _ _
    | with_reducible assumption
    | (with_reducible apply Moves.next ?hm (modLend_moves ..) ?_; (case hm => decide))
    | (with_reducible apply Moves.next ?hm (setLend_moves ..) ?_; (case hm => decide))
    | (with_reducible apply Moves.next ?hm (beginTeardown_moves ..) ?_; (case hm => decide))
    | (with_reducible apply Moves.next ?hm (haltEngine_moves ..) ?_; (case hm => decide))
    | with_reducible apply Moves.foldl _ (fun s x => ?_) _ ?_

theorem releaseJob_moves (s target) : Moves 0x2000048 s (releaseJob s target) := by
  unfold releaseJob
  repeat' first
    | with_reducible exact Moves.refl _ _
    | (with_reducible apply Moves.next ?hm (setLend_moves ..) ?_; (case hm => decide))
    | (with_reducible apply Moves.next ?hm (beginQuiesce_moves ..) ?_; (case hm => decide))

theorem releaseCmd_moves (s target) : Moves 0x2000048 s (releaseCmd s target) := by
  unfold releaseCmd
  repeat' first
    | with_reducible apply Moves.ite
    | with_reducible exact Moves.refl _ _
    | (with_reducible apply Moves.next ?hm (lendErr_moves ..) ?_; (case hm => decide))
    | (with_reducible apply Moves.next ?hm (releaseJob_moves ..) ?_; (case hm => decide))

theorem resumeJob_moves (s) : Moves 0x8000000029003f8 s (resumeJob s) := by
  unfold resumeJob
  repeat' first
    | (extract_lets +onlyGivenNames t; refine Moves.cut (t := t) ?_ (fun ht => ?_); (on_goal 2 => (clear_value t; revert t; intro _ _)); (on_goal 1 => (unfold t; clear t)))
    | with_reducible apply Moves.ite
    | with_reducible exact Moves.refl _ _
    | with_reducible assumption
    | (with_reducible apply Moves.next ?hm (modLend_moves ..) ?_; (case hm => decide))
    | (with_reducible apply Moves.next ?hm (lendErr_moves ..) ?_; (case hm => decide))
    | (with_reducible apply Moves.next ?hm (resumeEngine_moves ..) ?_; (case hm => decide))
    | with_reducible apply Moves.foldl _ (fun s x => ?_) _ ?_

theorem startImage_moves (s) : Moves 0x200000002000008 s (startImage s) := by
  unfold startImage
  repeat' first
    | with_reducible exact Moves.refl _ _
    | (with_reducible apply Moves.next ?hm (setTimer_moves ..) ?_; (case hm => decide))
    | (with_reducible apply Moves.next ?hm (modLend_moves ..) ?_; (case hm => decide))
    | (with_reducible apply Moves.next ?hm (setF_moves ..) ?_; (case hm => decide))

theorem restartImage_moves (s) : Moves 0x200000000000000 s (restartImage s) := by
  unfold restartImage
  repeat' first
    | with_reducible apply Moves.ite
    | with_reducible exact Moves.refl _ _
    | (with_reducible apply Moves.next ?hm (setTimer_moves ..) ?_; (case hm => decide))

theorem imageCmd_moves (s) : Moves 0x200000002000008 s (imageCmd s) := by
  unfold imageCmd
  repeat' first
    | with_reducible apply Moves.ite
    | with_reducible exact Moves.refl _ _
    | (with_reducible apply Moves.next ?hm (modLend_moves ..) ?_; (case hm => decide))
    | (with_reducible apply Moves.next ?hm (lendErr_moves ..) ?_; (case hm => decide))
    | (with_reducible apply Moves.next ?hm (startImage_moves ..) ?_; (case hm => decide))

theorem nowQuiesced_moves (s) : Moves 0xa000000029202c8 s (nowQuiesced s) := by
  unfold nowQuiesced
  repeat' first
    | (extract_lets +onlyGivenNames t; refine Moves.cut (t := t) ?_ (fun ht => ?_); (on_goal 2 => (clear_value t; revert t; intro _ _)); (on_goal 1 => (unfold t; clear t)))
    | with_reducible apply Moves.ite
    | with_reducible exact Moves.refl _ _
    | with_reducible assumption
    | (with_reducible apply Moves.next ?hm (modLend_moves ..) ?_; (case hm => decide))
    | (with_reducible apply Moves.next ?hm (lendEvent_moves ..) ?_; (case hm => decide))
    | (with_reducible apply Moves.next ?hm (cvDisarmAll_moves ..) ?_; (case hm => decide))
    | (with_reducible apply Moves.next ?hm (startImage_moves ..) ?_; (case hm => decide))
    | (with_reducible apply Moves.next ?hm (handover_moves ..) ?_; (case hm => decide))
    | (with_reducible apply Moves.next ?hm (setF_moves ..) ?_; (case hm => decide))
    | with_reducible apply Moves.foldl _ (fun s x => ?_) _ ?_

theorem allQuiescedEv_moves (s) : Moves 0xa000000029202c8 s (allQuiescedEv s) := by
  unfold allQuiescedEv
  repeat' first
    | with_reducible apply Moves.ite
    | with_reducible exact Moves.refl _ _
    | (with_reducible apply Moves.next ?hm (nowQuiesced_moves ..) ?_; (case hm => decide))

theorem stopEngine_moves (s i) : Moves 0x9000c0 s (stopEngine s i) := by
  unfold stopEngine
  repeat' first
    | (extract_lets +onlyGivenNames x; clear_value x; revert x; intro _)
    | with_reducible exact Moves.refl _ _
    | (with_reducible apply Moves.next ?hm (setEng_moves ..) ?_; (case hm => decide))
    | (with_reducible apply Moves.next ?hm (stopWork_moves ..) ?_; (case hm => decide))

theorem quiesceDeadline_moves (s) : Moves 0x8000000009000f8 s (quiesceDeadline s) := by
  unfold quiesceDeadline
  repeat' first
    | with_reducible apply Moves.ite
    | with_reducible exact Moves.refl _ _
    | (with_reducible apply Moves.next ?hm (stopEngine_moves ..) ?_; (case hm => decide))
    | (with_reducible apply Moves.next ?hm (lendRec_moves ..) ?_; (case hm => decide))
    | with_reducible apply Moves.foldl _ (fun s x => ?_) _ ?_
    | split

theorem settleSync_moves (s) : Moves 0x8000000009003f8 s (settleSync s) := by
  unfold settleSync
  repeat' first
    | with_reducible exact Moves.refl _ _
    | (with_reducible apply Moves.next ?hm (flushIncrs_moves ..) ?_; (case hm => decide))
    | (with_reducible apply Moves.next ?hm (barrierDelivered_moves ..) ?_; (case hm => decide))
    | with_reducible apply Moves.foldl _ (fun s x => ?_) _ ?_

theorem imageComplete_moves (s) : Moves 0x8000000029203f8 s (imageComplete s) := by
  unfold imageComplete
  repeat' first
    | (extract_lets +onlyGivenNames t; refine Moves.cut (t := t) ?_ (fun ht => ?_); (on_goal 2 => (clear_value t; revert t; intro _ _)); (on_goal 1 => (unfold t; clear t)))
    | with_reducible apply Moves.ite
    | with_reducible exact Moves.refl _ _
    | with_reducible assumption
    | (with_reducible apply Moves.next ?hm (lendEvent_moves ..) ?_; (case hm => decide))
    | (with_reducible apply Moves.next ?hm (settleSync_moves ..) ?_; (case hm => decide))
    | (with_reducible apply Moves.next ?hm (handover_moves ..) ?_; (case hm => decide))
    | (with_reducible apply Moves.next ?hm (setF_moves ..) ?_; (case hm => decide))
    | (with_reducible apply Moves.next ?hm (sendImage_moves ..) ?_; (case hm => decide))

theorem recallCutoff_moves (s) : Moves 0x8000000029203f8 s (recallCutoff s) := by
  unfold recallCutoff
  repeat' first
    | (extract_lets +onlyGivenNames t; refine Moves.cut (t := t) ?_ (fun ht => ?_); (on_goal 2 => (clear_value t; revert t; intro _ _)); (on_goal 1 => (unfold t; clear t)))
    | with_reducible apply Moves.ite
    | with_reducible exact Moves.refl _ _
    | with_reducible assumption
    | (with_reducible apply Moves.next ?hm (settleSync_moves ..) ?_; (case hm => decide))
    | (with_reducible apply Moves.next ?hm (handover_moves ..) ?_; (case hm => decide))
    | (with_reducible apply Moves.next ?hm (setF_moves ..) ?_; (case hm => decide))
    | (with_reducible apply Moves.next ?hm (sendImage_moves ..) ?_; (case hm => decide))
    | (with_reducible apply Moves.next ?hm (lendRec_moves ..) ?_; (case hm => decide))

theorem riskCheck_moves (s) : Moves 0xa00000002000038 s (riskCheck s) := by
  unfold riskCheck
  repeat' first
    | (extract_lets +onlyGivenNames t; refine Moves.cut (t := t) ?_ (fun ht => ?_); (on_goal 2 => (clear_value t; revert t; intro _ _)); (on_goal 1 => (unfold t; clear t)))
    | (extract_lets +onlyGivenNames x; clear_value x; revert x; intro _)
    | with_reducible apply Moves.ite
    | with_reducible exact Moves.refl _ _
    | with_reducible assumption
    | (with_reducible apply Moves.next ?hm (setTimer_moves ..) ?_; (case hm => decide))
    | (with_reducible apply Moves.next ?hm (modLend_moves ..) ?_; (case hm => decide))
    | (with_reducible apply Moves.next ?hm (setF_moves ..) ?_; (case hm => decide))
    | (with_reducible apply Moves.next ?hm (lendRec_moves ..) ?_; (case hm => decide))

theorem lendCfg_moves (s v) : Moves 0x8 s (lendCfg s v) := by
  unfold lendCfg
  repeat' first
    | (extract_lets +onlyGivenNames t; refine Moves.cut (t := t) ?_ (fun ht => ?_); (on_goal 2 => (clear_value t; revert t; intro _ _)); (on_goal 1 => (unfold t; clear t)))
    | (extract_lets +onlyGivenNames x; clear_value x; revert x; intro _)
    | with_reducible apply Moves.ite
    | with_reducible exact Moves.refl _ _
    | with_reducible assumption
    | (with_reducible apply Moves.next ?hm (lendErr_moves ..) ?_; (case hm => decide))
    | (with_reducible apply Moves.next ?hm (regSet_moves ..) ?_; (case hm => decide))
    | (with_reducible apply Moves.next ?hm (setF_moves ..) ?_; (case hm => decide))

theorem zeroCv_moves (s p) : Moves 0x8 s (zeroCv s p) := by
  unfold zeroCv
  repeat' first
    | with_reducible exact Moves.refl _ _
    | (with_reducible apply Moves.next ?hm (regSet_moves ..) ?_; (case hm => decide))
    | with_reducible apply Moves.foldl _ (fun s x => ?_) _ ?_

theorem zeroTileJob_moves (s p) : Moves 0x4010088 s (zeroTileJob s p) := by
  unfold zeroTileJob
  repeat' first
    | (extract_lets +onlyGivenNames t; refine Moves.cut (t := t) ?_ (fun ht => ?_); (on_goal 2 => (clear_value t; revert t; intro _ _)); (on_goal 1 => (unfold t; clear t)))
    | (extract_lets +onlyGivenNames x; clear_value x; revert x; intro _)
    | with_reducible exact Moves.refl _ _
    | with_reducible assumption
    | (with_reducible apply Moves.next ?hm (zeroCv_moves ..) ?_; (case hm => decide))
    | (with_reducible apply Moves.next ?hm (tearDigest_moves ..) ?_; (case hm => decide))
    | (with_reducible apply Moves.next ?hm (orphanLines_moves ..) ?_; (case hm => decide))
    | (with_reducible apply Moves.next ?hm (modTile_moves ..) ?_; (case hm => decide))

theorem zeroAsh_moves (s g) : Moves 0x30 s (zeroAsh s g) := by
  unfold zeroAsh
  repeat' first
    | (extract_lets +onlyGivenNames t; refine Moves.cut (t := t) ?_ (fun ht => ?_); (on_goal 2 => (clear_value t; revert t; intro _ _)); (on_goal 1 => (unfold t; clear t)))
    | (extract_lets +onlyGivenNames x; clear_value x; revert x; intro _)
    | with_reducible exact Moves.refl _ _
    | with_reducible assumption
    | (with_reducible apply Moves.next ?hm (zeroRange_moves ..) ?_; (case hm => decide))
    | with_reducible apply Moves.foldl _ (fun s x => ?_) _ ?_

theorem zeroHc_moves (s) : Moves 0x8008 s (zeroHc s) := by
  unfold zeroHc
  repeat' first
    | (extract_lets +onlyGivenNames t; refine Moves.cut (t := t) ?_ (fun ht => ?_); (on_goal 2 => (clear_value t; revert t; intro _ _)); (on_goal 1 => (unfold t; clear t)))
    | (extract_lets +onlyGivenNames x; clear_value x; revert x; intro _)
    | with_reducible apply Moves.ite
    | with_reducible exact Moves.refl _ _
    | with_reducible assumption
    | (with_reducible apply Moves.next ?hm (setStack_moves ..) ?_; (case hm => decide))
    | (with_reducible apply Moves.next ?hm (writeBack_moves ..) ?_; (case hm => decide))
    | with_reducible apply Moves.foldl _ (fun s x => ?_) _ ?_

theorem zeroise_moves (s old) : Moves 0x48383f8 s (zeroise s old) := by
  unfold zeroise
  repeat' first
    | (extract_lets +onlyGivenNames t; refine Moves.cut (t := t) ?_ (fun ht => ?_); (on_goal 2 => (clear_value t; revert t; intro _ _)); (on_goal 1 => (unfold t; clear t)))
    | (extract_lets +onlyGivenNames x; revert x; intro _)
    | with_reducible exact Moves.refl _ _
    | with_reducible assumption
    | (with_reducible apply Moves.next ?hm (zeroAsh_moves ..) ?_; (case hm => decide))
    | (with_reducible apply Moves.next ?hm (zeroHc_moves ..) ?_; (case hm => decide))
    | (with_reducible apply Moves.next ?hm (zeroTileJob_moves ..) ?_; (case hm => decide))
    | with_reducible apply Moves.foldl _ (fun s x => ?_) _ ?_
    | refine Moves.upd rfl (fun h => by cases h; constructor <;> first | assumption | exact foldl_wf _ _ (fun _ _ h => mapSet_wf _ _ _ _ h) _ rfl | (try dsimp only; first | exact mapSet_wf _ _ _ _ (by assumption) | exact mapMod_wf _ _ _ _ (by assumption) | exact mapDrop_wf _ _ _ (by assumption) | exact mapFilter_wf _ _ _ (by assumption) | exact pokeBytes_wf _ _ _ (by assumption) | exact foldl_wf _ _ (fun _ _ h => mapSet_wf _ _ _ _ h) _ (by assumption) | exact foldl_wf _ _ (fun _ _ h => mapMod_wf _ _ _ _ h) _ (by assumption) | exact rfl)) ?_

theorem zeroised_moves (s) : Moves 0x8084004a687b3f8 s (zeroised s) := by
  unfold zeroised
  repeat' first
    | (extract_lets +onlyGivenNames t; refine Moves.cut (t := t) ?_ (fun ht => ?_); (on_goal 2 => (clear_value t; revert t; intro _ _)); (on_goal 1 => (unfold t; clear t)))
    | (extract_lets +onlyGivenNames x; clear_value x; revert x; intro _)
    | with_reducible apply Moves.ite
    | with_reducible exact Moves.refl _ _
    | with_reducible assumption
    | (with_reducible apply Moves.next ?hm (modLend_moves ..) ?_; (case hm => decide))
    | (with_reducible apply Moves.next ?hm (setLend_moves ..) ?_; (case hm => decide))
    | (with_reducible apply Moves.next ?hm (lendEvent_moves ..) ?_; (case hm => decide))
    | (with_reducible apply Moves.next ?hm (logLedger_moves ..) ?_; (case hm => decide))
    | (with_reducible apply Moves.next ?hm (enterIdle_moves ..) ?_; (case hm => decide))
    | (with_reducible apply Moves.next ?hm (setF_moves ..) ?_; (case hm => decide))
    | (with_reducible apply Moves.next ?hm (zeroise_moves ..) ?_; (case hm => decide))
    | (with_reducible apply Moves.next ?hm (bumpLife_moves ..) ?_; (case hm => decide))
    | (with_reducible apply Moves.next ?hm (lendRec_moves ..) ?_; (case hm => decide))
    | refine Moves.upd rfl (fun h => by cases h; constructor <;> first | assumption | (try dsimp only; first | exact mapSet_wf _ _ _ _ (by assumption) | exact mapMod_wf _ _ _ _ (by assumption) | exact mapDrop_wf _ _ _ (by assumption) | exact mapFilter_wf _ _ _ (by assumption) | exact pokeBytes_wf _ _ _ (by assumption) | exact foldl_wf _ _ (fun _ _ h => mapSet_wf _ _ _ _ h) _ (by assumption) | exact foldl_wf _ _ (fun _ _ h => mapMod_wf _ _ _ _ h) _ (by assumption) | exact rfl)) ?_

theorem rejectImage_moves (s cause) : Moves 0x8000000029202f8 s (rejectImage s cause) := by
  unfold rejectImage
  repeat' first
    | (extract_lets +onlyGivenNames t; refine Moves.cut (t := t) ?_ (fun ht => ?_); (on_goal 2 => (clear_value t; revert t; intro _ _)); (on_goal 1 => (unfold t; clear t)))
    | with_reducible exact Moves.refl _ _
    | with_reducible assumption
    | (with_reducible apply Moves.next ?hm (modLend_moves ..) ?_; (case hm => decide))
    | (with_reducible apply Moves.next ?hm (handover_moves ..) ?_; (case hm => decide))
    | (with_reducible apply Moves.next ?hm (setF_moves ..) ?_; (case hm => decide))
    | (with_reducible apply Moves.next ?hm (lendRec_moves ..) ?_; (case hm => decide))

theorem zeroLive_moves (s) : Moves 0x8 s (zeroLive s) := by
  unfold zeroLive
  repeat' first
    | with_reducible exact Moves.refl _ _
    | refine Moves.upd rfl (fun h => by cases h; constructor <;> first | assumption | (try dsimp only; first | exact mapSet_wf _ _ _ _ (by assumption) | exact mapMod_wf _ _ _ _ (by assumption) | exact mapDrop_wf _ _ _ (by assumption) | exact mapFilter_wf _ _ _ (by assumption) | exact pokeBytes_wf _ _ _ (by assumption) | exact foldl_wf _ _ (fun _ _ h => mapSet_wf _ _ _ _ h) _ (by assumption) | exact foldl_wf _ _ (fun _ _ h => mapMod_wf _ _ _ _ h) _ (by assumption) | exact rfl)) ?_

theorem markRestored_moves (s) : Moves 0x40 s (markRestored s) := by
  unfold markRestored
  repeat' first
    | with_reducible exact Moves.refl _ _
    | (with_reducible apply Moves.next ?hm (modEng_moves ..) ?_; (case hm => decide))
    | with_reducible apply Moves.foldl _ (fun s x => ?_) _ ?_

theorem sinkPump_moves (x0 x1) : Moves 0x8000000029603f8 x1 (sinkPump x0 x1) := by
  induction x0 generalizing x1 with
    | zero => ?_
    | succ n ih => ?_
  all_goals unfold sinkPump
  repeat' first
    | (extract_lets +onlyGivenNames t; refine Moves.cut (t := t) ?_ (fun ht => ?_); (on_goal 2 => (clear_value t; revert t; intro _ _)); (on_goal 1 => (unfold t; clear t)))
    | (extract_lets +onlyGivenNames x; clear_value x; revert x; intro _)
    | with_reducible apply Moves.ite
    | with_reducible exact Moves.refl _ _
    | with_reducible assumption
    | (with_reducible apply Moves.next ?hm (touchRegion_moves ..) ?_; (case hm => decide))
    | (with_reducible apply Moves.next ?hm (modLend_moves ..) ?_; (case hm => decide))
    | (with_reducible apply Moves.next ?hm (applySection_moves ..) ?_; (case hm => decide))
    | (with_reducible apply Moves.next ?hm (lendEvent_moves ..) ?_; (case hm => decide))
    | (with_reducible apply Moves.next ?hm (zeroLive_moves ..) ?_; (case hm => decide))
    | (with_reducible apply Moves.next ?hm (markRestored_moves ..) ?_; (case hm => decide))
    | (with_reducible apply Moves.next ?hm (rejectImage_moves ..) ?_; (case hm => decide))
    | with_reducible apply Moves.trans (ih ..) ?_

theorem sinkBytes_moves (s off bs) : Moves 0x8000000029603f8 s (sinkBytes s off bs).1 := by
  unfold sinkBytes
  repeat' first
    | (extract_lets +onlyGivenNames t; refine Moves.cut (t := t) ?_ (fun ht => ?_); (on_goal 2 => (clear_value t; revert t; intro _ _)); (on_goal 1 => (unfold t; clear t)))
    | with_reducible apply Moves.ite_fst
    | with_reducible exact Moves.refl _ _
    | with_reducible assumption
    | (with_reducible apply Moves.next ?hm (modLend_moves ..) ?_; (case hm => decide))
    | (with_reducible apply Moves.next ?hm (sinkPump_moves ..) ?_; (case hm => decide))

end Sys2Proof.Laws
end

