-- ==== Sys2Proof/Laws/MovesPort.lean ====
section
/-! SUPPORT. What each operation may change: the Eboth port, the register pages, the windows and the pins. One lemma for each, of the form of Laws/Moves.lean. -/
set_option linter.unusedVariables false
set_option linter.unusedTactic false
set_option linter.unreachableTactic false
set_option linter.tactic.unusedName false
namespace Sys2Proof.Laws
open Sys2Proof.Machine

theorem modEb_moves (s f) : Moves 0x800000000000000 s (modEb s f) := by
  unfold modEb
  repeat' first
    | with_reducible exact Moves.refl _ _
    | refine Moves.upd rfl (fun h => by cases h; constructor <;> first | assumption | (try dsimp only; first | exact mapSet_wf _ _ _ _ (by assumption) | exact mapMod_wf _ _ _ _ (by assumption) | exact mapDrop_wf _ _ _ (by assumption) | exact mapFilter_wf _ _ _ (by assumption) | exact pokeBytes_wf _ _ _ (by assumption) | exact foldl_wf _ _ (fun _ _ h => mapSet_wf _ _ _ _ h) _ (by assumption) | exact foldl_wf _ _ (fun _ _ h => mapMod_wf _ _ _ _ h) _ (by assumption) | exact rfl)) ?_

theorem setEbState_moves (s v) : Moves 0x8 s (setEbState s v) := by
  unfold setEbState
  repeat' first
    | with_reducible exact Moves.refl _ _
    | (with_reducible apply Moves.next ?hm (setF_moves ..) ?_; (case hm => decide))

theorem ebPut_moves (s fr new) : Moves 0x800000000000008 s (ebPut s fr new) := by
  unfold ebPut
  repeat' first
    | (extract_lets +onlyGivenNames t; refine Moves.cut (t := t) ?_ (fun ht => ?_); (on_goal 2 => (clear_value t; revert t; intro _ _)); (on_goal 1 => (unfold t; clear t)))
    | (extract_lets +onlyGivenNames x; clear_value x; revert x; intro _)
    | with_reducible exact Moves.refl _ _
    | with_reducible assumption
    | (with_reducible apply Moves.next ?hm (modEb_moves ..) ?_; (case hm => decide))
    | (with_reducible apply Moves.next ?hm (addStat_moves ..) ?_; (case hm => decide))

theorem remember_moves (s tag m') : Moves 0x800000000000000 s (remember s tag m') := by
  unfold remember
  repeat' first
    | with_reducible exact Moves.refl _ _
    | (with_reducible apply Moves.next ?hm (modEb_moves ..) ?_; (case hm => decide))

theorem formColophon_moves (s) : Moves 0x800000000000000 s (formColophon s) := by
  unfold formColophon
  repeat' first
    | with_reducible apply Moves.ite
    | with_reducible exact Moves.refl _ _
    | (with_reducible apply Moves.next ?hm (remember_moves ..) ?_; (case hm => decide))
    | (with_reducible apply Moves.next ?hm (modEb_moves ..) ?_; (case hm => decide))
    | (with_reducible apply Moves.next ?hm (ebOut_moves ..) ?_; (case hm => decide))
    | (with_reducible apply Moves.next ?hm (colophon_moves ..) ?_; (case hm => decide))
    | split

theorem ebTransmit_moves (s) : Moves 0x800000000000008 s (ebTransmit s) := by
  unfold ebTransmit
  repeat' first
    | (extract_lets +onlyGivenNames t; refine Moves.cut (t := t) ?_ (fun ht => ?_); (on_goal 2 => (clear_value t; revert t; intro _ _)); (on_goal 1 => (unfold t; clear t)))
    | with_reducible apply Moves.ite
    | with_reducible exact Moves.refl _ _
    | with_reducible assumption
    | (with_reducible apply Moves.next ?hm (modEb_moves ..) ?_; (case hm => decide))
    | (with_reducible apply Moves.next ?hm (addStat_moves ..) ?_; (case hm => decide))
    | (with_reducible apply Moves.next ?hm (ebPut_moves ..) ?_; (case hm => decide))
    | (with_reducible apply Moves.next ?hm (formColophon_moves ..) ?_; (case hm => decide))
    | split

theorem ebRetrain_moves (s) : Moves 0x800000000000008 s (ebRetrain s) := by
  unfold ebRetrain
  repeat' first
    | (extract_lets +onlyGivenNames t; refine Moves.cut (t := t) ?_ (fun ht => ?_); (on_goal 2 => (clear_value t; revert t; intro _ _)); (on_goal 1 => (unfold t; clear t)))
    | with_reducible exact Moves.refl _ _
    | with_reducible assumption
    | (with_reducible apply Moves.next ?hm (modEb_moves ..) ?_; (case hm => decide))
    | (with_reducible apply Moves.next ?hm (setF_moves ..) ?_; (case hm => decide))
    | (with_reducible apply Moves.next ?hm (setEbState_moves ..) ?_; (case hm => decide))

theorem ebDown_moves (s cause lane) : Moves 0x800000000000038 s (ebDown s cause lane) := by
  unfold ebDown
  repeat' first
    | with_reducible apply Moves.ite
    | with_reducible exact Moves.refl _ _
    | (with_reducible apply Moves.next ?hm (ebRetrain_moves ..) ?_; (case hm => decide))
    | (with_reducible apply Moves.next ?hm (raise_moves ..) ?_; (case hm => decide))

theorem ebLoss_moves (s lane) : Moves 0x800000000000038 s (ebLoss s lane) := by
  unfold ebLoss
  repeat' first
    | with_reducible exact Moves.refl _ _
    | (with_reducible apply Moves.next ?hm (ebDown_moves ..) ?_; (case hm => decide))
    | split

theorem ebReset_moves (s) : Moves 0x800000000000038 s (ebReset s) := by
  unfold ebReset
  repeat' first
    | (extract_lets +onlyGivenNames t; refine Moves.cut (t := t) ?_ (fun ht => ?_); (on_goal 2 => (clear_value t; revert t; intro _ _)); (on_goal 1 => (unfold t; clear t)))
    | with_reducible apply Moves.ite
    | with_reducible exact Moves.refl _ _
    | with_reducible assumption
    | (with_reducible apply Moves.next ?hm (modEb_moves ..) ?_; (case hm => decide))
    | (with_reducible apply Moves.next ?hm (setEbState_moves ..) ?_; (case hm => decide))
    | (with_reducible apply Moves.next ?hm (ebDown_moves ..) ?_; (case hm => decide))

theorem ebEnWrite_moves (s v) : Moves 0x800000000000038 s (ebEnWrite s v) := by
  unfold ebEnWrite
  repeat' first
    | (extract_lets +onlyGivenNames t; refine Moves.cut (t := t) ?_ (fun ht => ?_); (on_goal 2 => (clear_value t; revert t; intro _ _)); (on_goal 1 => (unfold t; clear t)))
    | with_reducible apply Moves.ite
    | with_reducible exact Moves.refl _ _
    | with_reducible assumption
    | (with_reducible apply Moves.next ?hm (setF_moves ..) ?_; (case hm => decide))
    | (with_reducible apply Moves.next ?hm (setEbState_moves ..) ?_; (case hm => decide))
    | (with_reducible apply Moves.next ?hm (ebDown_moves ..) ?_; (case hm => decide))

theorem ebTrainFail_moves (s) : Moves 0x800000000000008 s (ebTrainFail s) := by
  unfold ebTrainFail
  repeat' first
    | (extract_lets +onlyGivenNames t; refine Moves.cut (t := t) ?_ (fun ht => ?_); (on_goal 2 => (clear_value t; revert t; intro _ _)); (on_goal 1 => (unfold t; clear t)))
    | (extract_lets +onlyGivenNames x; clear_value x; revert x; intro _)
    | with_reducible apply Moves.ite
    | with_reducible exact Moves.refl _ _
    | with_reducible assumption
    | (with_reducible apply Moves.next ?hm (modEb_moves ..) ?_; (case hm => decide))
    | (with_reducible apply Moves.next ?hm (setEbState_moves ..) ?_; (case hm => decide))

theorem ebHoldExpire_moves (s) : Moves 0xa00000000020038 s (ebHoldExpire s) := by
  unfold ebHoldExpire
  repeat' first
    | (extract_lets +onlyGivenNames t; refine Moves.cut (t := t) ?_ (fun ht => ?_); (on_goal 2 => (clear_value t; revert t; intro _ _)); (on_goal 1 => (unfold t; clear t)))
    | (extract_lets +onlyGivenNames x; revert x; intro _)
    | with_reducible apply Moves.ite
    | with_reducible exact Moves.refl _ _
    | with_reducible assumption
    | (with_reducible apply Moves.next ?hm (restartImage_moves ..) ?_; (case hm => decide))
    | (with_reducible apply Moves.next ?hm (modEb_moves ..) ?_; (case hm => decide))
    | (with_reducible apply Moves.next ?hm (raise_moves ..) ?_; (case hm => decide))
    | refine Moves.upd rfl (fun h => by cases h; constructor <;> first | assumption | (try dsimp only; first | exact mapSet_wf _ _ _ _ (by assumption) | exact mapMod_wf _ _ _ _ (by assumption) | exact mapDrop_wf _ _ _ (by assumption) | exact mapFilter_wf _ _ _ (by assumption) | exact pokeBytes_wf _ _ _ (by assumption) | exact foldl_wf _ _ (fun _ _ h => mapSet_wf _ _ _ _ h) _ (by assumption) | exact foldl_wf _ _ (fun _ _ h => mapMod_wf _ _ _ _ h) _ (by assumption) | exact rfl)) ?_

theorem ebHello_moves (s lack credits) : Moves 0xa00000000020038 s (ebHello s lack credits) := by
  unfold ebHello
  repeat' first
    | (extract_lets +onlyGivenNames t; refine Moves.cut (t := t) ?_ (fun ht => ?_); (on_goal 2 => (clear_value t; revert t; intro _ _)); (on_goal 1 => (unfold t; clear t)))
    | (extract_lets +onlyGivenNames x; clear_value x; revert x; intro _)
    | with_reducible apply Moves.ite
    | with_reducible exact Moves.refl _ _
    | with_reducible assumption
    | (with_reducible apply Moves.next ?hm (modEb_moves ..) ?_; (case hm => decide))
    | (with_reducible apply Moves.next ?hm (setF_moves ..) ?_; (case hm => decide))
    | (with_reducible apply Moves.next ?hm (ebHoldExpire_moves ..) ?_; (case hm => decide))
    | (with_reducible apply Moves.next ?hm (setEbState_moves ..) ?_; (case hm => decide))

theorem ebLostRelease_moves (s) : Moves 0x2000048 s (ebLostRelease s) := by
  unfold ebLostRelease
  repeat' first
    | (extract_lets +onlyGivenNames x; clear_value x; revert x; intro _)
    | with_reducible apply Moves.ite
    | with_reducible exact Moves.refl _ _
    | (with_reducible apply Moves.next ?hm (releaseJob_moves ..) ?_; (case hm => decide))

theorem ebReject_moves (s) : Moves 0x800000000000008 s (ebReject s) := by
  unfold ebReject
  repeat' first
    | with_reducible exact Moves.refl _ _
    | (with_reducible apply Moves.next ?hm (modEb_moves ..) ?_; (case hm => decide))
    | (with_reducible apply Moves.next ?hm (addF_moves ..) ?_; (case hm => decide))

theorem ebAck_moves (s fr) : Moves 0x800000000000038 s (ebAck s fr) := by
  unfold ebAck
  repeat' first
    | (extract_lets +onlyGivenNames t; refine Moves.cut (t := t) ?_ (fun ht => ?_); (on_goal 2 => (clear_value t; revert t; intro _ _)); (on_goal 1 => (unfold t; clear t)))
    | (extract_lets +onlyGivenNames x; clear_value x; revert x; intro _)
    | with_reducible apply Moves.ite
    | with_reducible exact Moves.refl _ _
    | with_reducible assumption
    | (with_reducible apply Moves.next ?hm (modEb_moves ..) ?_; (case hm => decide))
    | (with_reducible apply Moves.next ?hm (ebDown_moves ..) ?_; (case hm => decide))

theorem ebReceive_moves (s fr ucw) : Moves 0x800000000000038 s (ebReceive s fr ucw) := by
  unfold ebReceive
  repeat' first
    | (extract_lets +onlyGivenNames t; refine Moves.cut (t := t) ?_ (fun ht => ?_); (on_goal 2 => (clear_value t; revert t; intro _ _)); (on_goal 1 => (unfold t; clear t)))
    | with_reducible apply Moves.ite
    | with_reducible exact Moves.refl _ _
    | with_reducible assumption
    | (with_reducible apply Moves.next ?hm (modEb_moves ..) ?_; (case hm => decide))
    | (with_reducible apply Moves.next ?hm (ebReject_moves ..) ?_; (case hm => decide))
    | (with_reducible apply Moves.next ?hm (addStat_moves ..) ?_; (case hm => decide))
    | (with_reducible apply Moves.next ?hm (ebAck_moves ..) ?_; (case hm => decide))

theorem plainWrite_moves (s b inst base v) : Moves 0x8 s (plainWrite s b inst base v) := by
  unfold plainWrite
  repeat' first
    | (extract_lets +onlyGivenNames x; clear_value x; revert x; intro _)
    | with_reducible exact Moves.refl _ _
    | (with_reducible apply Moves.next ?hm (regSet_moves ..) ?_; (case hm => decide))
    | split

theorem errLogClear_moves (s b inst) : Moves 0x8 s (errLogClear s b inst) := by
  unfold errLogClear
  repeat' first
    | with_reducible exact Moves.refl _ _
    | (with_reducible apply Moves.next ?hm (wrF_moves ..) ?_; (case hm => decide))

theorem irqForce_moves (s b inst v) : Moves 0x8 s (irqForce s b inst v) := by
  unfold irqForce
  repeat' first
    | (extract_lets +onlyGivenNames x; clear_value x; revert x; intro _)
    | with_reducible exact Moves.refl _ _
    | (with_reducible apply Moves.next ?hm (regSet_moves ..) ?_; (case hm => decide))

theorem ctrlDrain_moves (s b inst on) : Moves 0x8 s (ctrlDrain s b inst on) := by
  unfold ctrlDrain
  repeat' first
    | with_reducible apply Moves.ite
    | with_reducible exact Moves.refl _ _
    | (with_reducible apply Moves.next ?hm (wrF_moves ..) ?_; (case hm => decide))

theorem ctrlReset_moves (s b inst) : Moves 0xa0001c0409b23f8 s (ctrlReset s b inst) := by
  unfold ctrlReset
  repeat' first
    | with_reducible apply Moves.ite
    | with_reducible exact Moves.refl _ _
    | (with_reducible apply Moves.next ?hm (requestReset_moves ..) ?_; (case hm => decide))

theorem ctrlWrite_moves (s b inst v) : Moves 0xe0001c0409b23f8 s (ctrlWrite s b inst v) := by
  unfold ctrlWrite
  repeat' first
    | (extract_lets +onlyGivenNames t; refine Moves.cut (t := t) ?_ (fun ht => ?_); (on_goal 2 => (clear_value t; revert t; intro _ _)); (on_goal 1 => (unfold t; clear t)))
    | with_reducible apply Moves.ite
    | with_reducible exact Moves.refl _ _
    | with_reducible assumption
    | (with_reducible apply Moves.next ?hm (ebEnWrite_moves ..) ?_; (case hm => decide))
    | (with_reducible apply Moves.next ?hm (flEnWrite_moves ..) ?_; (case hm => decide))
    | (with_reducible apply Moves.next ?hm (ctrlDrain_moves ..) ?_; (case hm => decide))
    | (with_reducible apply Moves.next ?hm (ctrlReset_moves ..) ?_; (case hm => decide))

theorem headerWrite_moves (s b inst off v) : Moves 0xe0001c0409b23f8 s (headerWrite s b inst off v) := by
  unfold headerWrite
  repeat' first
    | with_reducible apply Moves.ite
    | with_reducible exact Moves.refl _ _
    | (with_reducible apply Moves.next ?hm (irqForce_moves ..) ?_; (case hm => decide))
    | (with_reducible apply Moves.next ?hm (errLogClear_moves ..) ?_; (case hm => decide))
    | (with_reducible apply Moves.next ?hm (plainWrite_moves ..) ?_; (case hm => decide))
    | (with_reducible apply Moves.next ?hm (ctrlWrite_moves ..) ?_; (case hm => decide))
    | split

theorem engineWrite_moves (s b inst off v) : Moves 0x8000000009003f8 s (engineWrite s b inst off v) := by
  unfold engineWrite
  repeat' first
    | (extract_lets +onlyGivenNames x; clear_value x; revert x; intro _)
    | with_reducible apply Moves.ite
    | with_reducible exact Moves.refl _ _
    | (with_reducible apply Moves.next ?hm (doPctl_moves ..) ?_; (case hm => decide))
    | (with_reducible apply Moves.next ?hm (doMarkEn_moves ..) ?_; (case hm => decide))
    | (with_reducible apply Moves.next ?hm (doGWrite_moves ..) ?_; (case hm => decide))
    | (with_reducible apply Moves.next ?hm (plainWrite_moves ..) ?_; (case hm => decide))

theorem norImage_moves (s b) : Moves 0x4 s (norImage s b).1 := by
  unfold norImage
  repeat' first
    | with_reducible exact Moves.refl _ _
    | (with_reducible apply Moves.next ?hm (freshWord_moves ..) ?_; (case hm => decide))

theorem lendWrite_moves (s v) : Moves 0xa084004a29233f8 s (lendWrite s v) := by
  unfold lendWrite
  repeat' first
    | with_reducible exact Moves.refl _ _
    | (with_reducible apply Moves.next ?hm (lendCmd_moves ..) ?_; (case hm => decide))
    | (with_reducible apply Moves.next ?hm (releaseCmd_moves ..) ?_; (case hm => decide))
    | (with_reducible apply Moves.next ?hm (lendErr_moves ..) ?_; (case hm => decide))
    | (with_reducible apply Moves.next ?hm (idleCmd_moves ..) ?_; (case hm => decide))
    | (with_reducible apply Moves.next ?hm (imageCmd_moves ..) ?_; (case hm => decide))
    | (with_reducible apply Moves.next ?hm (resumeJob_moves ..) ?_; (case hm => decide))
    | (with_reducible apply Moves.next ?hm (serve_moves ..) ?_; (case hm => decide))
    | (with_reducible apply Moves.next ?hm (recallNotice_moves ..) ?_; (case hm => decide))
    | split

theorem updateWrite_moves (s v) : Moves 0xa0007c0409b23fc s (updateWrite s v) := by
  unfold updateWrite
  repeat' first
    | with_reducible apply Moves.ite
    | with_reducible exact Moves.refl _ _
    | (with_reducible apply Moves.next ?hm (updateStage_moves ..) ?_; (case hm => decide))
    | (with_reducible apply Moves.next ?hm (updateDrop_moves ..) ?_; (case hm => decide))
    | (with_reducible apply Moves.next ?hm (updErr_moves ..) ?_; (case hm => decide))
    | (with_reducible apply Moves.next ?hm (updateApply_moves ..) ?_; (case hm => decide))
    | (with_reducible apply Moves.next ?hm (norImage_moves ..) ?_; (case hm => decide))
    | split

theorem spareWrite_moves (s v) : Moves 0x800000040002078 s (spareWrite s v) := by
  unfold spareWrite
  repeat' first
    | with_reducible apply Moves.ite
    | with_reducible exact Moves.refl _ _
    | (with_reducible apply Moves.next ?hm (spareErr_moves ..) ?_; (case hm => decide))
    | (with_reducible apply Moves.next ?hm (spareCmd_moves ..) ?_; (case hm => decide))
    | split

theorem fwWrite_moves (s v) : Moves 0x200000000008 s (fwWrite s v) := by
  unfold fwWrite
  repeat' first
    | (extract_lets +onlyGivenNames t; refine Moves.cut (t := t) ?_ (fun ht => ?_); (on_goal 2 => (clear_value t; revert t; intro _ _)); (on_goal 1 => (unfold t; clear t)))
    | with_reducible apply Moves.ite
    | with_reducible exact Moves.refl _ _
    | with_reducible assumption
    | (with_reducible apply Moves.next ?hm (commitFw_moves ..) ?_; (case hm => decide))
    | (with_reducible apply Moves.next ?hm (setF_moves ..) ?_; (case hm => decide))
    | (with_reducible apply Moves.next ?hm (plainWrite_moves ..) ?_; (case hm => decide))

theorem mgWrite_moves (s off v) : Moves 0xa0c67fef29b33fc s (mgWrite s off v) := by
  unfold mgWrite
  repeat' first
    | (extract_lets +onlyGivenNames t; refine Moves.cut (t := t) ?_ (fun ht => ?_); (on_goal 2 => (clear_value t; revert t; intro _ _)); (on_goal 1 => (unfold t; clear t)))
    | with_reducible apply Moves.ite
    | with_reducible exact Moves.refl _ _
    | with_reducible assumption
    | (with_reducible apply Moves.next ?hm (fwWrite_moves ..) ?_; (case hm => decide))
    | (with_reducible apply Moves.next ?hm (spareWrite_moves ..) ?_; (case hm => decide))
    | (with_reducible apply Moves.next ?hm (lendCfg_moves ..) ?_; (case hm => decide))
    | (with_reducible apply Moves.next ?hm (lendWrite_moves ..) ?_; (case hm => decide))
    | (with_reducible apply Moves.next ?hm (mr7Go_moves ..) ?_; (case hm => decide))
    | (with_reducible apply Moves.next ?hm (mirrorPush_moves ..) ?_; (case hm => decide))
    | (with_reducible apply Moves.next ?hm (testRotation_moves ..) ?_; (case hm => decide))
    | (with_reducible apply Moves.next ?hm (requestReset_moves ..) ?_; (case hm => decide))
    | (with_reducible apply Moves.next ?hm (wdogKick_moves ..) ?_; (case hm => decide))
    | (with_reducible apply Moves.next ?hm (classCommand_moves ..) ?_; (case hm => decide))
    | (with_reducible apply Moves.next ?hm (testBist_moves ..) ?_; (case hm => decide))
    | (with_reducible apply Moves.next ?hm (plainWrite_moves ..) ?_; (case hm => decide))
    | (with_reducible apply Moves.next ?hm (updateWrite_moves ..) ?_; (case hm => decide))
    | split

theorem cvWrite_moves (s p u cmd) : Moves 0x88 s (cvWrite s p u cmd) := by
  unfold cvWrite
  repeat' first
    | with_reducible exact Moves.refl _ _
    | (with_reducible apply Moves.next ?hm (cvErr_moves ..) ?_; (case hm => decide))
    | (with_reducible apply Moves.next ?hm (cvStart_moves ..) ?_; (case hm => decide))
    | (with_reducible apply Moves.next ?hm (cvDisarm_moves ..) ?_; (case hm => decide))
    | (with_reducible apply Moves.next ?hm (cvArm_moves ..) ?_; (case hm => decide))
    | (with_reducible apply Moves.next ?hm (cvCombine_moves ..) ?_; (case hm => decide))
    | split

theorem tlWrite_moves (s p off v) : Moves 0x88 s (tlWrite s p off v) := by
  unfold tlWrite
  repeat' first
    | (extract_lets +onlyGivenNames x; clear_value x; revert x; intro _)
    | with_reducible apply Moves.ite
    | with_reducible exact Moves.refl _ _
    | (with_reducible apply Moves.next ?hm (cvWrite_moves ..) ?_; (case hm => decide))
    | (with_reducible apply Moves.next ?hm (cvConfig_moves ..) ?_; (case hm => decide))
    | (with_reducible apply Moves.next ?hm (plainWrite_moves ..) ?_; (case hm => decide))
    | (with_reducible apply Moves.next ?hm (digestRegion_moves ..) ?_; (case hm => decide))

theorem baWrite_moves (s inst off v) : Moves 0x900148 s (baWrite s inst off v) := by
  unfold baWrite
  repeat' first
    | with_reducible apply Moves.ite
    | with_reducible exact Moves.refl _ _
    | (with_reducible apply Moves.next ?hm (writeBaCfg_moves ..) ?_; (case hm => decide))
    | (with_reducible apply Moves.next ?hm (plainWrite_moves ..) ?_; (case hm => decide))

theorem cePageWrite_moves (s c off v) : Moves 0x8 s (cePageWrite s c off v) := by
  unfold cePageWrite
  repeat' first
    | with_reducible apply Moves.ite
    | with_reducible exact Moves.refl _ _
    | (with_reducible apply Moves.next ?hm (ceConfigWrite_moves ..) ?_; (case hm => decide))
    | (with_reducible apply Moves.next ?hm (plainWrite_moves ..) ?_; (case hm => decide))

theorem rtWrite_moves (s inst off v) : Moves 0x8 s (rtWrite s inst off v) := by
  unfold rtWrite
  repeat' first
    | with_reducible apply Moves.ite
    | with_reducible exact Moves.refl _ _
    | (with_reducible apply Moves.next ?hm (nodeWrite_moves ..) ?_; (case hm => decide))
    | (with_reducible apply Moves.next ?hm (editionArm_moves ..) ?_; (case hm => decide))
    | (with_reducible apply Moves.next ?hm (ednCfgWrite_moves ..) ?_; (case hm => decide))
    | (with_reducible apply Moves.next ?hm (editionAtWrite_moves ..) ?_; (case hm => decide))
    | (with_reducible apply Moves.next ?hm (plainWrite_moves ..) ?_; (case hm => decide))
    | split

theorem flWrite_moves (s f off v) : Moves 0xc00004000180038 s (flWrite s f off v) := by
  unfold flWrite
  repeat' first
    | (extract_lets +onlyGivenNames t; refine Moves.cut (t := t) ?_ (fun ht => ?_); (on_goal 2 => (clear_value t; revert t; intro _ _)); (on_goal 1 => (unfold t; clear t)))
    | with_reducible apply Moves.ite
    | with_reducible exact Moves.refl _ _
    | with_reducible assumption
    | (with_reducible apply Moves.next ?hm (flEnWrite_moves ..) ?_; (case hm => decide))
    | (with_reducible apply Moves.next ?hm (flReset_moves ..) ?_; (case hm => decide))
    | (with_reducible apply Moves.next ?hm (selftest_moves ..) ?_; (case hm => decide))
    | (with_reducible apply Moves.next ?hm (plainWrite_moves ..) ?_; (case hm => decide))

theorem mcWrite_moves (s inst off v) : Moves 0x808400000178008 s (mcWrite s inst off v) := by
  unfold mcWrite
  repeat' first
    | (extract_lets +onlyGivenNames t; refine Moves.cut (t := t) ?_ (fun ht => ?_); (on_goal 2 => (clear_value t; revert t; intro _ _)); (on_goal 1 => (unfold t; clear t)))
    | with_reducible apply Moves.ite
    | with_reducible exact Moves.refl _ _
    | with_reducible assumption
    | (with_reducible apply Moves.next ?hm (touchRegion_moves ..) ?_; (case hm => decide))
    | (with_reducible apply Moves.next ?hm (ftLoad_moves ..) ?_; (case hm => decide))
    | (with_reducible apply Moves.next ?hm (ftUpdate_moves ..) ?_; (case hm => decide))
    | (with_reducible apply Moves.next ?hm (mirrorResync_moves ..) ?_; (case hm => decide))
    | (with_reducible apply Moves.next ?hm (plainWrite_moves ..) ?_; (case hm => decide))
    | (with_reducible apply Moves.next ?hm (retireCmd_moves ..) ?_; (case hm => decide))
    | (with_reducible apply Moves.next ?hm (mcRestore_moves ..) ?_; (case hm => decide))
    | split

theorem hcWrite_moves (s i off v) : Moves 0x8008 s (hcWrite s i off v) := by
  unfold hcWrite
  repeat' first
    | with_reducible apply Moves.ite
    | with_reducible exact Moves.refl _ _
    | (with_reducible apply Moves.next ?hm (hcFlushWb_moves ..) ?_; (case hm => decide))
    | (with_reducible apply Moves.next ?hm (hcFlushInv_moves ..) ?_; (case hm => decide))
    | (with_reducible apply Moves.next ?hm (plainWrite_moves ..) ?_; (case hm => decide))

theorem ebWrite_moves (s off v) : Moves 0x800000000000038 s (ebWrite s off v) := by
  unfold ebWrite
  repeat' first
    | (extract_lets +onlyGivenNames t; refine Moves.cut (t := t) ?_ (fun ht => ?_); (on_goal 2 => (clear_value t; revert t; intro _ _)); (on_goal 1 => (unfold t; clear t)))
    | with_reducible apply Moves.ite
    | with_reducible exact Moves.refl _ _
    | with_reducible assumption
    | (with_reducible apply Moves.next ?hm (ebEnWrite_moves ..) ?_; (case hm => decide))
    | (with_reducible apply Moves.next ?hm (setF_moves ..) ?_; (case hm => decide))
    | (with_reducible apply Moves.next ?hm (ebReset_moves ..) ?_; (case hm => decide))
    | (with_reducible apply Moves.next ?hm (plainWrite_moves ..) ?_; (case hm => decide))

theorem writeReg_moves (s b inst off v) : Moves 0xe0c67fef39fb3fc s (writeReg s b inst off v) := by
  unfold writeReg
  repeat' first
    | with_reducible apply Moves.ite
    | with_reducible exact Moves.refl _ _
    | (with_reducible apply Moves.next ?hm (flWrite_moves ..) ?_; (case hm => decide))
    | (with_reducible apply Moves.next ?hm (ebWrite_moves ..) ?_; (case hm => decide))
    | (with_reducible apply Moves.next ?hm (engineWrite_moves ..) ?_; (case hm => decide))
    | (with_reducible apply Moves.next ?hm (cePageWrite_moves ..) ?_; (case hm => decide))
    | (with_reducible apply Moves.next ?hm (rtWrite_moves ..) ?_; (case hm => decide))
    | (with_reducible apply Moves.next ?hm (tlWrite_moves ..) ?_; (case hm => decide))
    | (with_reducible apply Moves.next ?hm (hcWrite_moves ..) ?_; (case hm => decide))
    | (with_reducible apply Moves.next ?hm (headerWrite_moves ..) ?_; (case hm => decide))
    | (with_reducible apply Moves.next ?hm (ckCfgWrite_moves ..) ?_; (case hm => decide))
    | (with_reducible apply Moves.next ?hm (mgWrite_moves ..) ?_; (case hm => decide))
    | (with_reducible apply Moves.next ?hm (writeRngKey_moves ..) ?_; (case hm => decide))
    | (with_reducible apply Moves.next ?hm (baWrite_moves ..) ?_; (case hm => decide))
    | (with_reducible apply Moves.next ?hm (writeCtr_moves ..) ?_; (case hm => decide))
    | (with_reducible apply Moves.next ?hm (plainWrite_moves ..) ?_; (case hm => decide))
    | (with_reducible apply Moves.next ?hm (mcWrite_moves ..) ?_; (case hm => decide))
    | split

theorem write4_moves (s b inst off v) : Moves 0xe0c67fef39fb3fc s (write4 s b inst off v) := by
  unfold write4
  repeat' first
    | with_reducible apply Moves.ite
    | with_reducible exact Moves.refl _ _
    | (with_reducible apply Moves.next ?hm (writeReg_moves ..) ?_; (case hm => decide))
    | split

theorem writeAt_moves (s addr n v) : Moves 0xe0c67fef39fb3fc s (writeAt s addr n v).1 := by
  unfold writeAt
  repeat' first
    | (extract_lets +onlyGivenNames x; clear_value x; revert x; intro _)
    | with_reducible apply Moves.ite_fst
    | with_reducible exact Moves.refl _ _
    | (with_reducible apply Moves.next ?hm (writeReg_moves ..) ?_; (case hm => decide))
    | (with_reducible apply Moves.next ?hm (write4_moves ..) ?_; (case hm => decide))
    | split

theorem readClear_moves (s b inst off) : Moves 0x4000000008 s (readClear s b inst off) := by
  unfold readClear
  repeat' first
    | (extract_lets +onlyGivenNames t; refine Moves.cut (t := t) ?_ (fun ht => ?_); (on_goal 2 => (clear_value t; revert t; intro _ _)); (on_goal 1 => (unfold t; clear t)))
    | (extract_lets +onlyGivenNames x; clear_value x; revert x; intro _)
    | with_reducible apply Moves.ite
    | with_reducible exact Moves.refl _ _
    | with_reducible assumption
    | (with_reducible apply Moves.next ?hm (regSet_moves ..) ?_; (case hm => decide))
    | (with_reducible apply Moves.next ?hm (noteOld_moves ..) ?_; (case hm => decide))
    | (with_reducible apply Moves.next ?hm (setDom_moves ..) ?_; (case hm => decide))
    | split

theorem readAt_moves (s addr n) : Moves 0x4000000008 s (readAt s addr n).1 := by
  unfold readAt
  repeat' first
    | (extract_lets +onlyGivenNames x; clear_value x; revert x; intro _)
    | with_reducible apply Moves.ite_fst
    | with_reducible exact Moves.refl _ _
    | (with_reducible apply Moves.next ?hm (readClear_moves ..) ?_; (case hm => decide))
    | split

theorem onPageOf_moves {m : Nat} {f} (hm : 0x0 ||| m = m) (hf : ∀ s, Moves m s (f s)) (s b inst) :
    Moves m s (onPageOf s b inst f) := by
  unfold onPageOf
  repeat' first
    | with_reducible apply Moves.ite
    | with_reducible exact Moves.refl _ _
    | with_reducible apply Moves.trans (hf ..) ?_
    | (with_reducible apply Moves.trans (onPage_moves ?hm (fun s => ?_) ..) ?_; (case hm => exact le_of hm (by decide)))

theorem hbmPut_moves (s a bs) : Moves 0x130038 s (hbmPut s a bs) := by
  unfold hbmPut
  repeat' first
    | (extract_lets +onlyGivenNames t; refine Moves.cut (t := t) ?_ (fun ht => ?_); (on_goal 2 => (clear_value t; revert t; intro _ _)); (on_goal 1 => (unfold t; clear t)))
    | (extract_lets +onlyGivenNames x; clear_value x; revert x; intro _)
    | with_reducible apply Moves.ite
    | with_reducible exact Moves.refl _ _
    | with_reducible assumption
    | (with_reducible apply Moves.next ?hm (segStore_moves ..) ?_; (case hm => decide))
    | (with_reducible apply Moves.next ?hm (segLines_moves ..) ?_; (case hm => decide))
    | (with_reducible apply Moves.next ?hm (rsvAccess_moves ..) ?_; (case hm => decide))

theorem imemPut_moves (s e a bs) : Moves 0x38 s (imemPut s e a bs) := by
  unfold imemPut
  repeat' first
    | with_reducible apply Moves.ite
    | with_reducible exact Moves.refl _ _
    | (with_reducible apply Moves.next ?hm (setP_moves ..) ?_; (case hm => decide))
    | (with_reducible apply Moves.next ?hm (writeBytes_moves ..) ?_; (case hm => decide))

theorem cataloguePut_moves (s a bs) : Moves 0x100038 s (cataloguePut s a bs) := by
  unfold cataloguePut
  repeat' first
    | (extract_lets +onlyGivenNames t; refine Moves.cut (t := t) ?_ (fun ht => ?_); (on_goal 2 => (clear_value t; revert t; intro _ _)); (on_goal 1 => (unfold t; clear t)))
    | (extract_lets +onlyGivenNames x; clear_value x; revert x; intro _)
    | with_reducible apply Moves.ite
    | with_reducible exact Moves.refl _ _
    | with_reducible assumption
    | (with_reducible apply Moves.next ?hm (catalogueWrite_moves ..) ?_; (case hm => decide))

theorem putAt_moves (s a bs) : Moves 0x41300b8 s (putAt s a bs).1 := by
  unfold putAt
  repeat' first
    | (extract_lets +onlyGivenNames x; clear_value x; revert x; intro _)
    | with_reducible apply Moves.ite_fst
    | with_reducible exact Moves.refl _ _
    | (with_reducible apply Moves.next ?hm (cataloguePut_moves ..) ?_; (case hm => decide))
    | (with_reducible apply Moves.next ?hm (tileWrite_moves ..) ?_; (case hm => decide))
    | (with_reducible apply Moves.next ?hm (hbmPut_moves ..) ?_; (case hm => decide))
    | (with_reducible apply Moves.next ?hm (imemPut_moves ..) ?_; (case hm => decide))
    | split

theorem getAt_moves (s a n) : Moves 0x10008 s (getAt s a n).1 := by
  unfold getAt
  repeat' first
    | (extract_lets +onlyGivenNames t; refine Moves.cut (t := t) ?_ (fun ht => ?_); (on_goal 2 => (clear_value t; revert t; intro _ _)); (on_goal 1 => (unfold t; clear t)))
    | (extract_lets +onlyGivenNames x; clear_value x; revert x; intro _)
    | with_reducible apply Moves.ite
    | with_reducible apply Moves.ite_fst
    | with_reducible exact Moves.refl _ _
    | with_reducible assumption
    | (with_reducible apply Moves.next ?hm (segLines_moves ..) ?_; (case hm => decide))
    | (with_reducible apply Moves.next ?hm (rsvAccess_moves ..) ?_; (case hm => decide))
    | split

theorem ebSend_moves (s m') : Moves 0x800000000000008 s (ebSend s m') := by
  unfold ebSend
  repeat' first
    | with_reducible apply Moves.ite
    | with_reducible exact Moves.refl _ _
    | (with_reducible apply Moves.next ?hm (ebOut_moves ..) ?_; (case hm => decide))
    | (with_reducible apply Moves.next ?hm (addF_moves ..) ?_; (case hm => decide))

theorem ebAnswer_moves (s m' mtype status a b body) : Moves 0x800000000000008 s (ebAnswer s m' mtype status a b body) := by
  unfold ebAnswer
  repeat' first
    | (extract_lets +onlyGivenNames x; clear_value x; revert x; intro _)
    | with_reducible apply Moves.ite
    | with_reducible exact Moves.refl _ _
    | (with_reducible apply Moves.next ?hm (remember_moves ..) ?_; (case hm => decide))
    | (with_reducible apply Moves.next ?hm (ebSend_moves ..) ?_; (case hm => decide))

theorem wrAck_moves (s m' status) : Moves 0x800000000000008 s (wrAck s m' status) := by
  unfold wrAck
  repeat' first
    | with_reducible exact Moves.refl _ _
    | (with_reducible apply Moves.next ?hm (ebAnswer_moves ..) ?_; (case hm => decide))

theorem ebTake_moves (s m') : Moves 0x800000000000000 s (ebTake s m') := by
  unfold ebTake
  repeat' first
    | with_reducible apply Moves.ite
    | with_reducible exact Moves.refl _ _
    | (with_reducible apply Moves.next ?hm (modEb_moves ..) ?_; (case hm => decide))

theorem holdForMgc_moves (s m' mtype) : Moves 0x800000000000008 s (holdForMgc s m' mtype) := by
  unfold holdForMgc
  repeat' first
    | with_reducible apply Moves.ite
    | with_reducible exact Moves.refl _ _
    | (with_reducible apply Moves.next ?hm (ebTake_moves ..) ?_; (case hm => decide))
    | (with_reducible apply Moves.next ?hm (modEb_moves ..) ?_; (case hm => decide))
    | (with_reducible apply Moves.next ?hm (ebAnswer_moves ..) ?_; (case hm => decide))
    | (with_reducible apply Moves.next ?hm (wrAck_moves ..) ?_; (case hm => decide))

theorem onRequest_moves {m : Nat} {f} (hm : 0x800000000000008 ||| m = m) (hf : ∀ n s, Moves m s (f n s)) (s m' mtype) :
    Moves m s (onRequest s m' mtype f) := by
  unfold onRequest
  repeat' first
    | with_reducible apply Moves.ite
    | with_reducible exact Moves.refl _ _
    | with_reducible apply Moves.trans (hf ..) ?_
    | (with_reducible apply Moves.next ?hm (ebTake_moves ..) ?_; (case hm => exact le_of hm (by decide)))
    | (with_reducible apply Moves.next ?hm (holdForMgc_moves ..) ?_; (case hm => exact le_of hm (by decide)))
    | (with_reducible apply Moves.next ?hm (ebSend_moves ..) ?_; (case hm => exact le_of hm (by decide)))
    | (with_reducible apply Moves.next ?hm (wrAck_moves ..) ?_; (case hm => exact le_of hm (by decide)))
    | split

theorem regRead_moves (s m') : Moves 0x800004000000008 s (regRead s m') := by
  unfold regRead
  repeat' first
    | (extract_lets +onlyGivenNames x; clear_value x; revert x; intro _)
    | with_reducible exact Moves.refl _ _
    | (with_reducible apply Moves.next ?hm (ebAnswer_moves ..) ?_; (case hm => decide))
    | (with_reducible apply Moves.next ?hm (readAt_moves ..) ?_; (case hm => decide))

theorem regWrite_moves (s m') : Moves 0xe0c67fef39fb3fc s (regWrite s m') := by
  unfold regWrite
  repeat' first
    | with_reducible exact Moves.refl _ _
    | (with_reducible apply Moves.next ?hm (writeAt_moves ..) ?_; (case hm => decide))
    | (with_reducible apply Moves.next ?hm (wrAck_moves ..) ?_; (case hm => decide))

theorem putMsg_moves (s m') : Moves 0x8000000041300b8 s (putMsg s m') := by
  unfold putMsg
  repeat' first
    | with_reducible exact Moves.refl _ _
    | (with_reducible apply Moves.next ?hm (wrAck_moves ..) ?_; (case hm => decide))
    | (with_reducible apply Moves.next ?hm (putAt_moves ..) ?_; (case hm => decide))

theorem getMsg_moves (s m') : Moves 0x800000000010008 s (getMsg s m') := by
  unfold getMsg
  repeat' first
    | (extract_lets +onlyGivenNames x; clear_value x; revert x; intro _)
    | with_reducible apply Moves.ite
    | with_reducible exact Moves.refl _ _
    | (with_reducible apply Moves.next ?hm (ebAnswer_moves ..) ?_; (case hm => decide))
    | (with_reducible apply Moves.next ?hm (getAt_moves ..) ?_; (case hm => decide))

theorem recallMsg_moves (s m' at0) : Moves 0x800000002120048 s (recallMsg s m' at0) := by
  unfold recallMsg
  repeat' first
    | (extract_lets +onlyGivenNames t; refine Moves.cut (t := t) ?_ (fun ht => ?_); (on_goal 2 => (clear_value t; revert t; intro _ _)); (on_goal 1 => (unfold t; clear t)))
    | with_reducible exact Moves.refl _ _
    | with_reducible assumption
    | (with_reducible apply Moves.next ?hm (ebAnswer_moves ..) ?_; (case hm => decide))
    | (with_reducible apply Moves.next ?hm (recallAt_moves ..) ?_; (case hm => decide))

theorem coloMsg_moves (s m') : Moves 0x800000000000008 s (coloMsg s m') := by
  unfold coloMsg
  repeat' first
    | with_reducible apply Moves.ite
    | with_reducible exact Moves.refl _ _
    | (with_reducible apply Moves.next ?hm (ebAnswer_moves ..) ?_; (case hm => decide))
    | (with_reducible apply Moves.next ?hm (coloQueue_moves ..) ?_; (case hm => decide))
    | split
    | (with_reducible apply Moves.fst_of ?he ?_; (case he => with_reducible assumption))

theorem sinkMsg_moves (s m') : Moves 0x8000000029603f8 s (sinkMsg s m') := by
  unfold sinkMsg
  repeat' first
    | with_reducible exact Moves.refl _ _
    | (with_reducible apply Moves.next ?hm (sinkBytes_moves ..) ?_; (case hm => decide))
    | (with_reducible apply Moves.next ?hm (wrAck_moves ..) ?_; (case hm => decide))

theorem testsetEnd_moves (s) : Moves 0x801800000000038 s (testsetEnd s) := by
  unfold testsetEnd
  repeat' first
    | (extract_lets +onlyGivenNames t; refine Moves.cut (t := t) ?_ (fun ht => ?_); (on_goal 2 => (clear_value t; revert t; intro _ _)); (on_goal 1 => (unfold t; clear t)))
    | (extract_lets +onlyGivenNames x; clear_value x; revert x; intro _)
    | with_reducible apply Moves.ite
    | with_reducible exact Moves.refl _ _
    | with_reducible assumption
    | (with_reducible apply Moves.next ?hm (raiseMgc_moves ..) ?_; (case hm => decide))
    | refine Moves.upd rfl (fun h => by cases h; constructor <;> first | assumption | (try dsimp only; first | exact mapSet_wf _ _ _ _ (by assumption) | exact mapMod_wf _ _ _ _ (by assumption) | exact mapDrop_wf _ _ _ (by assumption) | exact mapFilter_wf _ _ _ (by assumption) | exact pokeBytes_wf _ _ _ (by assumption) | exact foldl_wf _ _ (fun _ _ h => mapSet_wf _ _ _ _ h) _ (by assumption) | exact foldl_wf _ _ (fun _ _ h => mapMod_wf _ _ _ _ h) _ (by assumption) | exact rfl)) ?_

theorem testsetMsg_moves (s m') : Moves 0x801800000000038 s (testsetMsg s m') := by
  unfold testsetMsg
  repeat' first
    | (extract_lets +onlyGivenNames t; refine Moves.cut (t := t) ?_ (fun ht => ?_); (on_goal 2 => (clear_value t; revert t; intro _ _)); (on_goal 1 => (unfold t; clear t)))
    | (extract_lets +onlyGivenNames x; clear_value x; revert x; intro _)
    | with_reducible apply Moves.ite
    | with_reducible exact Moves.refl _ _
    | with_reducible assumption
    | (with_reducible apply Moves.next ?hm (testsetEnd_moves ..) ?_; (case hm => decide))
    | (with_reducible apply Moves.next ?hm (wrAck_moves ..) ?_; (case hm => decide))
    | refine Moves.upd rfl (fun h => by cases h; constructor <;> first | assumption | (try dsimp only; first | exact mapSet_wf _ _ _ _ (by assumption) | exact mapMod_wf _ _ _ _ (by assumption) | exact mapDrop_wf _ _ _ (by assumption) | exact mapFilter_wf _ _ _ (by assumption) | exact pokeBytes_wf _ _ _ (by assumption) | exact foldl_wf _ _ (fun _ _ h => mapSet_wf _ _ _ _ h) _ (by assumption) | exact foldl_wf _ _ (fun _ _ h => mapMod_wf _ _ _ _ h) _ (by assumption) | exact rfl)) ?_

theorem eventAckMsg_moves (s m') : Moves 0x800000000000000 s (eventAckMsg s m') := by
  unfold eventAckMsg
  repeat' first
    | (extract_lets +onlyGivenNames x; clear_value x; revert x; intro _)
    | with_reducible exact Moves.refl _ _
    | (with_reducible apply Moves.next ?hm (modEb_moves ..) ?_; (case hm => decide))

theorem granuleAckMsg_moves (s m') : Moves 0x20000 s (granuleAckMsg s m') := by
  unfold granuleAckMsg
  repeat' first
    | with_reducible exact Moves.refl _ _
    | (with_reducible apply Moves.next ?hm (granuleAck_moves ..) ?_; (case hm => decide))

theorem mgcRequest_moves (s m' at0) : Moves 0x8018000029603f8 s (mgcRequest s m' at0) := by
  unfold mgcRequest
  repeat' first
    | with_reducible exact Moves.refl _ _
    | (with_reducible apply Moves.next ?hm (recallMsg_moves ..) ?_; (case hm => decide))
    | (with_reducible apply Moves.next ?hm (testsetMsg_moves ..) ?_; (case hm => decide))
    | (with_reducible apply Moves.next ?hm (coloMsg_moves ..) ?_; (case hm => decide))
    | (with_reducible apply Moves.next ?hm (eventAckMsg_moves ..) ?_; (case hm => decide))
    | (with_reducible apply Moves.next ?hm (sinkMsg_moves ..) ?_; (case hm => decide))
    | split

theorem mgcReturn_moves (was s) : Moves 0xa018000029603f8 s (mgcReturn was s) := by
  unfold mgcReturn
  repeat' first
    | (extract_lets +onlyGivenNames x; clear_value x; revert x; intro _)
    | with_reducible apply Moves.ite
    | with_reducible exact Moves.refl _ _
    | (with_reducible apply Moves.next ?hm (restartImage_moves ..) ?_; (case hm => decide))
    | (with_reducible apply Moves.next ?hm (modEb_moves ..) ?_; (case hm => decide))
    | (with_reducible apply Moves.next ?hm (mgcRequest_moves ..) ?_; (case hm => decide))
    | with_reducible apply Moves.foldl _ (fun s x => ?_) _ ?_

theorem requestExpired_moves (s tag) : Moves 0x800000000000008 s (requestExpired s tag) := by
  unfold requestExpired
  repeat' first
    | with_reducible exact Moves.refl _ _
    | (with_reducible apply Moves.next ?hm (ebTake_moves ..) ?_; (case hm => decide))
    | (with_reducible apply Moves.next ?hm (ebAnswer_moves ..) ?_; (case hm => decide))
    | split

theorem ebAnswerUnknown_moves (s) : Moves 0x800000000000008 s (ebAnswerUnknown s) := by
  unfold ebAnswerUnknown
  repeat' first
    | with_reducible exact Moves.refl _ _
    | (with_reducible apply Moves.next ?hm (ebTake_moves ..) ?_; (case hm => decide))
    | (with_reducible apply Moves.next ?hm (wrAck_moves ..) ?_; (case hm => decide))
    | with_reducible apply Moves.foldl _ (fun s x => ?_) _ ?_

theorem smbAnswer_moves (s out) : Moves 0x1000000000000000 s (smbAnswer s out) := by
  unfold smbAnswer
  repeat' first
    | (extract_lets +onlyGivenNames x; clear_value x; revert x; intro _)
    | with_reducible exact Moves.refl _ _
    | refine Moves.upd rfl (fun h => by cases h; constructor <;> first | assumption | (try dsimp only; first | exact mapSet_wf _ _ _ _ (by assumption) | exact mapMod_wf _ _ _ _ (by assumption) | exact mapDrop_wf _ _ _ (by assumption) | exact mapFilter_wf _ _ _ (by assumption) | exact pokeBytes_wf _ _ _ (by assumption) | exact foldl_wf _ _ (fun _ _ h => mapSet_wf _ _ _ _ h) _ (by assumption) | exact foldl_wf _ _ (fun _ _ h => mapMod_wf _ _ _ _ h) _ (by assumption) | exact rfl)) ?_

theorem smbAddress_moves (s a) : Moves 0x1000000000000000 s (smbAddress s a) := by
  unfold smbAddress
  repeat' first
    | (extract_lets +onlyGivenNames x; clear_value x; revert x; intro _)
    | with_reducible apply Moves.ite
    | with_reducible exact Moves.refl _ _
    | refine Moves.upd rfl (fun h => by cases h; constructor <;> first | assumption | (try dsimp only; first | exact mapSet_wf _ _ _ _ (by assumption) | exact mapMod_wf _ _ _ _ (by assumption) | exact mapDrop_wf _ _ _ (by assumption) | exact mapFilter_wf _ _ _ (by assumption) | exact pokeBytes_wf _ _ _ (by assumption) | exact foldl_wf _ _ (fun _ _ h => mapSet_wf _ _ _ _ h) _ (by assumption) | exact foldl_wf _ _ (fun _ _ h => mapMod_wf _ _ _ _ h) _ (by assumption) | exact rfl)) ?_

theorem smbStatus_moves (s) : Moves 0x1000000000000000 s (smbStatus s) := by
  unfold smbStatus
  repeat' first
    | with_reducible exact Moves.refl _ _
    | (with_reducible apply Moves.next ?hm (smbAnswer_moves ..) ?_; (case hm => decide))

theorem smbTemp_moves (s) : Moves 0x1000000000000000 s (smbTemp s) := by
  unfold smbTemp
  repeat' first
    | with_reducible exact Moves.refl _ _
    | (with_reducible apply Moves.next ?hm (smbAnswer_moves ..) ?_; (case hm => decide))

theorem smbPower_moves (s) : Moves 0x1000000000000000 s (smbPower s) := by
  unfold smbPower
  repeat' first
    | with_reducible exact Moves.refl _ _
    | (with_reducible apply Moves.next ?hm (smbAnswer_moves ..) ?_; (case hm => decide))

theorem smbRegRead_moves (s) : Moves 0x1000004000000008 s (smbRegRead s) := by
  unfold smbRegRead
  repeat' first
    | with_reducible apply Moves.ite
    | with_reducible exact Moves.refl _ _
    | (with_reducible apply Moves.next ?hm (smbAnswer_moves ..) ?_; (case hm => decide))
    | (with_reducible apply Moves.next ?hm (readAt_moves ..) ?_; (case hm => decide))
    | split

theorem setIr_moves (s v) : Moves 0x1000000000000000 s (setIr s v) := by
  unfold setIr
  repeat' first
    | (extract_lets +onlyGivenNames x; clear_value x; revert x; intro _)
    | with_reducible exact Moves.refl _ _
    | refine Moves.upd rfl (fun h => by cases h; constructor <;> first | assumption | (try dsimp only; first | exact mapSet_wf _ _ _ _ (by assumption) | exact mapMod_wf _ _ _ _ (by assumption) | exact mapDrop_wf _ _ _ (by assumption) | exact mapFilter_wf _ _ _ (by assumption) | exact pokeBytes_wf _ _ _ (by assumption) | exact foldl_wf _ _ (fun _ _ h => mapSet_wf _ _ _ _ h) _ (by assumption) | exact foldl_wf _ _ (fun _ _ h => mapMod_wf _ _ _ _ h) _ (by assumption) | exact rfl)) ?_

theorem boundary_moves (s op) : Moves 0x1000000000000000 s (boundary s op) := by
  unfold boundary
  repeat' first
    | with_reducible exact Moves.refl _ _
    | (with_reducible apply Moves.next ?hm (setIr_moves ..) ?_; (case hm => decide))

theorem jtagId_moves (s) : Moves 0x1000000000000000 s (jtagId s) := by
  unfold jtagId
  repeat' first
    | (extract_lets +onlyGivenNames t; refine Moves.cut (t := t) ?_ (fun ht => ?_); (on_goal 2 => (clear_value t; revert t; intro _ _)); (on_goal 1 => (unfold t; clear t)))
    | (extract_lets +onlyGivenNames x; clear_value x; revert x; intro _)
    | with_reducible exact Moves.refl _ _
    | with_reducible assumption
    | (with_reducible apply Moves.next ?hm (setIr_moves ..) ?_; (case hm => decide))
    | split
    | refine Moves.upd rfl (fun h => by cases h; constructor <;> first | assumption | (try dsimp only; first | exact mapSet_wf _ _ _ _ (by assumption) | exact mapMod_wf _ _ _ _ (by assumption) | exact mapDrop_wf _ _ _ (by assumption) | exact mapFilter_wf _ _ _ (by assumption) | exact pokeBytes_wf _ _ _ (by assumption) | exact foldl_wf _ _ (fun _ _ h => mapSet_wf _ _ _ _ h) _ (by assumption) | exact foldl_wf _ _ (fun _ _ h => mapMod_wf _ _ _ _ h) _ (by assumption) | exact rfl)) ?_

theorem preload_moves (s cells) : Moves 0x1000000000000000 s (preload s cells) := by
  unfold preload
  repeat' first
    | (extract_lets +onlyGivenNames t; refine Moves.cut (t := t) ?_ (fun ht => ?_); (on_goal 2 => (clear_value t; revert t; intro _ _)); (on_goal 1 => (unfold t; clear t)))
    | (extract_lets +onlyGivenNames x; clear_value x; revert x; intro _)
    | with_reducible exact Moves.refl _ _
    | with_reducible assumption
    | (with_reducible apply Moves.next ?hm (setIr_moves ..) ?_; (case hm => decide))
    | refine Moves.upd rfl (fun h => by cases h; constructor <;> first | assumption | (try dsimp only; first | exact mapSet_wf _ _ _ _ (by assumption) | exact mapMod_wf _ _ _ _ (by assumption) | exact mapDrop_wf _ _ _ (by assumption) | exact mapFilter_wf _ _ _ (by assumption) | exact pokeBytes_wf _ _ _ (by assumption) | exact foldl_wf _ _ (fun _ _ h => mapSet_wf _ _ _ _ h) _ (by assumption) | exact foldl_wf _ _ (fun _ _ h => mapMod_wf _ _ _ _ h) _ (by assumption) | exact rfl)) ?_

end Sys2Proof.Laws
end

