-- ==== Sys2Proof/Laws/Ops.lean ====
section
/-! SUPPORT. The laws of the named operations of Machine/Ops.lean: what a read gives after a write to the same place, and that a write
to one kind of state is not seen by a read of another. -/
namespace Sys2Proof.Laws
open Sys2Proof.Machine

@[simp] theorem getEng_regSet (s k v e') : getEng (regSet s k v) e' = getEng s e' := rfl
@[simp] theorem getTile_regSet (s k v p') : getTile (regSet s k v) p' = getTile s p' := rfl
@[simp] theorem getCtx_regSet (s k v c') : getCtx (regSet s k v) c' = getCtx s c' := rfl
@[simp] theorem getStack_regSet (s k v i') : getStack (regSet s k v) i' = getStack s i' := rfl
@[simp] theorem getFlue_regSet (s k v f') : getFlue (regSet s k v) f' = getFlue s f' := rfl
@[simp] theorem getCe_regSet (s k v c') : getCe (regSet s k v) c' = getCe s c' := rfl
@[simp] theorem getDom_regSet (s k v d') : getDom (regSet s k v) d' = getDom s d' := rfl
@[simp] theorem getFrame_regSet (s k v n') : getFrame (regSet s k v) n' = getFrame s n' := rfl
@[simp] theorem getTimer_regSet (s k v k') : getTimer (regSet s k v) k' = getTimer s k' := rfl
@[simp] theorem getSlot_regSet (s k v i') : getSlot (regSet s k v) i' = getSlot s i' := rfl
@[simp] theorem memByte_regSet (s k v a') : memByte (regSet s k v) a' = memByte s a' := rfl
@[simp] theorem isBad_regSet (s k v a') : isBad (regSet s k v) a' = isBad s a' := rfl
@[simp] theorem physOf_regSet (s k v l') : physOf (regSet s k v) l' = physOf s l' := rfl
@[simp] theorem logOf_regSet (s k v p') : logOf (regSet s k v) p' = logOf s p' := rfl
@[simp] theorem ptileOf_regSet (s k v p') : ptileOf (regSet s k v) p' = ptileOf s p' := rfl
@[simp] theorem isolated_regSet (s k v d') : isolated (regSet s k v) d' = isolated s d' := rfl

@[simp] theorem getEng_wrF (s b f i j v e') : getEng (wrF s b f i j v) e' = getEng s e' := rfl
@[simp] theorem getTile_wrF (s b f i j v p') : getTile (wrF s b f i j v) p' = getTile s p' := rfl
@[simp] theorem getCtx_wrF (s b f i j v c') : getCtx (wrF s b f i j v) c' = getCtx s c' := rfl
@[simp] theorem getStack_wrF (s b f i j v i') : getStack (wrF s b f i j v) i' = getStack s i' := rfl
@[simp] theorem getFlue_wrF (s b f i j v f') : getFlue (wrF s b f i j v) f' = getFlue s f' := rfl
@[simp] theorem getCe_wrF (s b f i j v c') : getCe (wrF s b f i j v) c' = getCe s c' := rfl
@[simp] theorem getDom_wrF (s b f i j v d') : getDom (wrF s b f i j v) d' = getDom s d' := rfl
@[simp] theorem getFrame_wrF (s b f i j v n') : getFrame (wrF s b f i j v) n' = getFrame s n' := rfl
@[simp] theorem getTimer_wrF (s b f i j v k') : getTimer (wrF s b f i j v) k' = getTimer s k' := rfl
@[simp] theorem getSlot_wrF (s b f i j v i') : getSlot (wrF s b f i j v) i' = getSlot s i' := rfl
@[simp] theorem memByte_wrF (s b f i j v a') : memByte (wrF s b f i j v) a' = memByte s a' := rfl
@[simp] theorem isBad_wrF (s b f i j v a') : isBad (wrF s b f i j v) a' = isBad s a' := rfl
@[simp] theorem physOf_wrF (s b f i j v l') : physOf (wrF s b f i j v) l' = physOf s l' := rfl
@[simp] theorem logOf_wrF (s b f i j v p') : logOf (wrF s b f i j v) p' = logOf s p' := rfl
@[simp] theorem ptileOf_wrF (s b f i j v p') : ptileOf (wrF s b f i j v) p' = ptileOf s p' := rfl
@[simp] theorem isolated_wrF (s b f i j v d') : isolated (wrF s b f i j v) d' = isolated s d' := rfl

@[simp] theorem getEng_setF (s f i v e') : getEng (setF s f i v) e' = getEng s e' := rfl
@[simp] theorem getTile_setF (s f i v p') : getTile (setF s f i v) p' = getTile s p' := rfl
@[simp] theorem getCtx_setF (s f i v c') : getCtx (setF s f i v) c' = getCtx s c' := rfl
@[simp] theorem getStack_setF (s f i v i') : getStack (setF s f i v) i' = getStack s i' := rfl
@[simp] theorem getFlue_setF (s f i v f') : getFlue (setF s f i v) f' = getFlue s f' := rfl
@[simp] theorem getCe_setF (s f i v c') : getCe (setF s f i v) c' = getCe s c' := rfl
@[simp] theorem getDom_setF (s f i v d') : getDom (setF s f i v) d' = getDom s d' := rfl
@[simp] theorem getFrame_setF (s f i v n') : getFrame (setF s f i v) n' = getFrame s n' := rfl
@[simp] theorem getTimer_setF (s f i v k') : getTimer (setF s f i v) k' = getTimer s k' := rfl
@[simp] theorem getSlot_setF (s f i v i') : getSlot (setF s f i v) i' = getSlot s i' := rfl
@[simp] theorem memByte_setF (s f i v a') : memByte (setF s f i v) a' = memByte s a' := rfl
@[simp] theorem isBad_setF (s f i v a') : isBad (setF s f i v) a' = isBad s a' := rfl
@[simp] theorem physOf_setF (s f i v l') : physOf (setF s f i v) l' = physOf s l' := rfl
@[simp] theorem logOf_setF (s f i v p') : logOf (setF s f i v) p' = logOf s p' := rfl
@[simp] theorem ptileOf_setF (s f i v p') : ptileOf (setF s f i v) p' = ptileOf s p' := rfl
@[simp] theorem isolated_setF (s f i v d') : isolated (setF s f i v) d' = isolated s d' := rfl

@[simp] theorem getEng_setFi (s f i j v e') : getEng (setFi s f i j v) e' = getEng s e' := rfl
@[simp] theorem getTile_setFi (s f i j v p') : getTile (setFi s f i j v) p' = getTile s p' := rfl
@[simp] theorem getCtx_setFi (s f i j v c') : getCtx (setFi s f i j v) c' = getCtx s c' := rfl
@[simp] theorem getStack_setFi (s f i j v i') : getStack (setFi s f i j v) i' = getStack s i' := rfl
@[simp] theorem getFlue_setFi (s f i j v f') : getFlue (setFi s f i j v) f' = getFlue s f' := rfl
@[simp] theorem getCe_setFi (s f i j v c') : getCe (setFi s f i j v) c' = getCe s c' := rfl
@[simp] theorem getDom_setFi (s f i j v d') : getDom (setFi s f i j v) d' = getDom s d' := rfl
@[simp] theorem getFrame_setFi (s f i j v n') : getFrame (setFi s f i j v) n' = getFrame s n' := rfl
@[simp] theorem getTimer_setFi (s f i j v k') : getTimer (setFi s f i j v) k' = getTimer s k' := rfl
@[simp] theorem getSlot_setFi (s f i j v i') : getSlot (setFi s f i j v) i' = getSlot s i' := rfl
@[simp] theorem memByte_setFi (s f i j v a') : memByte (setFi s f i j v) a' = memByte s a' := rfl
@[simp] theorem isBad_setFi (s f i j v a') : isBad (setFi s f i j v) a' = isBad s a' := rfl
@[simp] theorem physOf_setFi (s f i j v l') : physOf (setFi s f i j v) l' = physOf s l' := rfl
@[simp] theorem logOf_setFi (s f i j v p') : logOf (setFi s f i j v) p' = logOf s p' := rfl
@[simp] theorem ptileOf_setFi (s f i j v p') : ptileOf (setFi s f i j v) p' = ptileOf s p' := rfl
@[simp] theorem isolated_setFi (s f i j v d') : isolated (setFi s f i j v) d' = isolated s d' := rfl

@[simp] theorem getEng_addF (s f i n e') : getEng (addF s f i n) e' = getEng s e' := rfl
@[simp] theorem getTile_addF (s f i n p') : getTile (addF s f i n) p' = getTile s p' := rfl
@[simp] theorem getCtx_addF (s f i n c') : getCtx (addF s f i n) c' = getCtx s c' := rfl
@[simp] theorem getStack_addF (s f i n i') : getStack (addF s f i n) i' = getStack s i' := rfl
@[simp] theorem getFlue_addF (s f i n f') : getFlue (addF s f i n) f' = getFlue s f' := rfl
@[simp] theorem getCe_addF (s f i n c') : getCe (addF s f i n) c' = getCe s c' := rfl
@[simp] theorem getDom_addF (s f i n d') : getDom (addF s f i n) d' = getDom s d' := rfl
@[simp] theorem getFrame_addF (s f i n n') : getFrame (addF s f i n) n' = getFrame s n' := rfl
@[simp] theorem getTimer_addF (s f i n k') : getTimer (addF s f i n) k' = getTimer s k' := rfl
@[simp] theorem getSlot_addF (s f i n i') : getSlot (addF s f i n) i' = getSlot s i' := rfl
@[simp] theorem memByte_addF (s f i n a') : memByte (addF s f i n) a' = memByte s a' := rfl
@[simp] theorem isBad_addF (s f i n a') : isBad (addF s f i n) a' = isBad s a' := rfl
@[simp] theorem physOf_addF (s f i n l') : physOf (addF s f i n) l' = physOf s l' := rfl
@[simp] theorem logOf_addF (s f i n p') : logOf (addF s f i n) p' = logOf s p' := rfl
@[simp] theorem ptileOf_addF (s f i n p') : ptileOf (addF s f i n) p' = ptileOf s p' := rfl
@[simp] theorem isolated_addF (s f i n d') : isolated (addF s f i n) d' = isolated s d' := rfl

@[simp] theorem getEng_addStat (s f i n e') : getEng (addStat s f i n) e' = getEng s e' := rfl
@[simp] theorem getTile_addStat (s f i n p') : getTile (addStat s f i n) p' = getTile s p' := rfl
@[simp] theorem getCtx_addStat (s f i n c') : getCtx (addStat s f i n) c' = getCtx s c' := rfl
@[simp] theorem getStack_addStat (s f i n i') : getStack (addStat s f i n) i' = getStack s i' := rfl
@[simp] theorem getFlue_addStat (s f i n f') : getFlue (addStat s f i n) f' = getFlue s f' := rfl
@[simp] theorem getCe_addStat (s f i n c') : getCe (addStat s f i n) c' = getCe s c' := rfl
@[simp] theorem getDom_addStat (s f i n d') : getDom (addStat s f i n) d' = getDom s d' := rfl
@[simp] theorem getFrame_addStat (s f i n n') : getFrame (addStat s f i n) n' = getFrame s n' := rfl
@[simp] theorem getTimer_addStat (s f i n k') : getTimer (addStat s f i n) k' = getTimer s k' := rfl
@[simp] theorem getSlot_addStat (s f i n i') : getSlot (addStat s f i n) i' = getSlot s i' := rfl
@[simp] theorem memByte_addStat (s f i n a') : memByte (addStat s f i n) a' = memByte s a' := rfl
@[simp] theorem isBad_addStat (s f i n a') : isBad (addStat s f i n) a' = isBad s a' := rfl
@[simp] theorem physOf_addStat (s f i n l') : physOf (addStat s f i n) l' = physOf s l' := rfl
@[simp] theorem logOf_addStat (s f i n p') : logOf (addStat s f i n) p' = logOf s p' := rfl
@[simp] theorem ptileOf_addStat (s f i n p') : ptileOf (addStat s f i n) p' = ptileOf s p' := rfl
@[simp] theorem isolated_addStat (s f i n d') : isolated (addStat s f i n) d' = isolated s d' := rfl

@[simp] theorem getEng_setP (s e f v e') : getEng (setP s e f v) e' = getEng s e' := rfl
@[simp] theorem getTile_setP (s e f v p') : getTile (setP s e f v) p' = getTile s p' := rfl
@[simp] theorem getCtx_setP (s e f v c') : getCtx (setP s e f v) c' = getCtx s c' := rfl
@[simp] theorem getStack_setP (s e f v i') : getStack (setP s e f v) i' = getStack s i' := rfl
@[simp] theorem getFlue_setP (s e f v f') : getFlue (setP s e f v) f' = getFlue s f' := rfl
@[simp] theorem getCe_setP (s e f v c') : getCe (setP s e f v) c' = getCe s c' := rfl
@[simp] theorem getDom_setP (s e f v d') : getDom (setP s e f v) d' = getDom s d' := rfl
@[simp] theorem getFrame_setP (s e f v n') : getFrame (setP s e f v) n' = getFrame s n' := rfl
@[simp] theorem getTimer_setP (s e f v k') : getTimer (setP s e f v) k' = getTimer s k' := rfl
@[simp] theorem getSlot_setP (s e f v i') : getSlot (setP s e f v) i' = getSlot s i' := rfl
@[simp] theorem memByte_setP (s e f v a') : memByte (setP s e f v) a' = memByte s a' := rfl
@[simp] theorem isBad_setP (s e f v a') : isBad (setP s e f v) a' = isBad s a' := rfl
@[simp] theorem physOf_setP (s e f v l') : physOf (setP s e f v) l' = physOf s l' := rfl
@[simp] theorem logOf_setP (s e f v p') : logOf (setP s e f v) p' = logOf s p' := rfl
@[simp] theorem ptileOf_setP (s e f v p') : ptileOf (setP s e f v) p' = ptileOf s p' := rfl
@[simp] theorem isolated_setP (s e f v d') : isolated (setP s e f v) d' = isolated s d' := rfl

@[simp] theorem getEng_setG (s e n v e') : getEng (setG s e n v) e' = getEng s e' := rfl
@[simp] theorem getTile_setG (s e n v p') : getTile (setG s e n v) p' = getTile s p' := rfl
@[simp] theorem getCtx_setG (s e n v c') : getCtx (setG s e n v) c' = getCtx s c' := rfl
@[simp] theorem getStack_setG (s e n v i') : getStack (setG s e n v) i' = getStack s i' := rfl
@[simp] theorem getFlue_setG (s e n v f') : getFlue (setG s e n v) f' = getFlue s f' := rfl
@[simp] theorem getCe_setG (s e n v c') : getCe (setG s e n v) c' = getCe s c' := rfl
@[simp] theorem getDom_setG (s e n v d') : getDom (setG s e n v) d' = getDom s d' := rfl
@[simp] theorem getFrame_setG (s e n v n') : getFrame (setG s e n v) n' = getFrame s n' := rfl
@[simp] theorem getTimer_setG (s e n v k') : getTimer (setG s e n v) k' = getTimer s k' := rfl
@[simp] theorem getSlot_setG (s e n v i') : getSlot (setG s e n v) i' = getSlot s i' := rfl
@[simp] theorem memByte_setG (s e n v a') : memByte (setG s e n v) a' = memByte s a' := rfl
@[simp] theorem isBad_setG (s e n v a') : isBad (setG s e n v) a' = isBad s a' := rfl
@[simp] theorem physOf_setG (s e n v l') : physOf (setG s e n v) l' = physOf s l' := rfl
@[simp] theorem logOf_setG (s e n v p') : logOf (setG s e n v) p' = logOf s p' := rfl
@[simp] theorem ptileOf_setG (s e n v p') : ptileOf (setG s e n v) p' = ptileOf s p' := rfl
@[simp] theorem isolated_setG (s e n v d') : isolated (setG s e n v) d' = isolated s d' := rfl

@[simp] theorem regGet_setEng (s e x k') : regGet (setEng s e x) k' = regGet s k' := rfl
@[simp] theorem rdF_setEng (s e x b' f' i' j') : rdF (setEng s e x) b' f' i' j' = rdF s b' f' i' j' := rfl
@[simp] theorem getF_setEng (s e x f' i') : getF (setEng s e x) f' i' = getF s f' i' := rfl
@[simp] theorem getFi_setEng (s e x f' i' j') : getFi (setEng s e x) f' i' j' = getFi s f' i' j' := rfl
@[simp] theorem flagF_setEng (s e x f' i') : flagF (setEng s e x) f' i' = flagF s f' i' := rfl
@[simp] theorem getP_setEng (s e x e' f') : getP (setEng s e x) e' f' = getP s e' f' := rfl
@[simp] theorem getG_setEng (s e x e' n') : getG (setEng s e x) e' n' = getG s e' n' := rfl
@[simp] theorem getTile_setEng (s e x p') : getTile (setEng s e x) p' = getTile s p' := rfl
@[simp] theorem getCtx_setEng (s e x c') : getCtx (setEng s e x) c' = getCtx s c' := rfl
@[simp] theorem getStack_setEng (s e x i') : getStack (setEng s e x) i' = getStack s i' := rfl
@[simp] theorem getFlue_setEng (s e x f') : getFlue (setEng s e x) f' = getFlue s f' := rfl
@[simp] theorem getCe_setEng (s e x c') : getCe (setEng s e x) c' = getCe s c' := rfl
@[simp] theorem getDom_setEng (s e x d') : getDom (setEng s e x) d' = getDom s d' := rfl
@[simp] theorem getFrame_setEng (s e x n') : getFrame (setEng s e x) n' = getFrame s n' := rfl
@[simp] theorem getTimer_setEng (s e x k') : getTimer (setEng s e x) k' = getTimer s k' := rfl
@[simp] theorem getSlot_setEng (s e x i') : getSlot (setEng s e x) i' = getSlot s i' := rfl
@[simp] theorem memByte_setEng (s e x a') : memByte (setEng s e x) a' = memByte s a' := rfl
@[simp] theorem isBad_setEng (s e x a') : isBad (setEng s e x) a' = isBad s a' := rfl
@[simp] theorem physOf_setEng (s e x l') : physOf (setEng s e x) l' = physOf s l' := rfl
@[simp] theorem logOf_setEng (s e x p') : logOf (setEng s e x) p' = logOf s p' := rfl
@[simp] theorem ptileOf_setEng (s e x p') : ptileOf (setEng s e x) p' = ptileOf s p' := rfl
@[simp] theorem isolated_setEng (s e x d') : isolated (setEng s e x) d' = isolated s d' := rfl

@[simp] theorem regGet_modEng (s e f k') : regGet (modEng s e f) k' = regGet s k' := rfl
@[simp] theorem rdF_modEng (s e f b' f' i' j') : rdF (modEng s e f) b' f' i' j' = rdF s b' f' i' j' := rfl
@[simp] theorem getF_modEng (s e f f' i') : getF (modEng s e f) f' i' = getF s f' i' := rfl
@[simp] theorem getFi_modEng (s e f f' i' j') : getFi (modEng s e f) f' i' j' = getFi s f' i' j' := rfl
@[simp] theorem flagF_modEng (s e f f' i') : flagF (modEng s e f) f' i' = flagF s f' i' := rfl
@[simp] theorem getP_modEng (s e f e' f') : getP (modEng s e f) e' f' = getP s e' f' := rfl
@[simp] theorem getG_modEng (s e f e' n') : getG (modEng s e f) e' n' = getG s e' n' := rfl
@[simp] theorem getTile_modEng (s e f p') : getTile (modEng s e f) p' = getTile s p' := rfl
@[simp] theorem getCtx_modEng (s e f c') : getCtx (modEng s e f) c' = getCtx s c' := rfl
@[simp] theorem getStack_modEng (s e f i') : getStack (modEng s e f) i' = getStack s i' := rfl
@[simp] theorem getFlue_modEng (s e f f') : getFlue (modEng s e f) f' = getFlue s f' := rfl
@[simp] theorem getCe_modEng (s e f c') : getCe (modEng s e f) c' = getCe s c' := rfl
@[simp] theorem getDom_modEng (s e f d') : getDom (modEng s e f) d' = getDom s d' := rfl
@[simp] theorem getFrame_modEng (s e f n') : getFrame (modEng s e f) n' = getFrame s n' := rfl
@[simp] theorem getTimer_modEng (s e f k') : getTimer (modEng s e f) k' = getTimer s k' := rfl
@[simp] theorem getSlot_modEng (s e f i') : getSlot (modEng s e f) i' = getSlot s i' := rfl
@[simp] theorem memByte_modEng (s e f a') : memByte (modEng s e f) a' = memByte s a' := rfl
@[simp] theorem isBad_modEng (s e f a') : isBad (modEng s e f) a' = isBad s a' := rfl
@[simp] theorem physOf_modEng (s e f l') : physOf (modEng s e f) l' = physOf s l' := rfl
@[simp] theorem logOf_modEng (s e f p') : logOf (modEng s e f) p' = logOf s p' := rfl
@[simp] theorem ptileOf_modEng (s e f p') : ptileOf (modEng s e f) p' = ptileOf s p' := rfl
@[simp] theorem isolated_modEng (s e f d') : isolated (modEng s e f) d' = isolated s d' := rfl

@[simp] theorem regGet_setTile (s p x k') : regGet (setTile s p x) k' = regGet s k' := rfl
@[simp] theorem rdF_setTile (s p x b' f' i' j') : rdF (setTile s p x) b' f' i' j' = rdF s b' f' i' j' := rfl
@[simp] theorem getF_setTile (s p x f' i') : getF (setTile s p x) f' i' = getF s f' i' := rfl
@[simp] theorem getFi_setTile (s p x f' i' j') : getFi (setTile s p x) f' i' j' = getFi s f' i' j' := rfl
@[simp] theorem flagF_setTile (s p x f' i') : flagF (setTile s p x) f' i' = flagF s f' i' := rfl
@[simp] theorem getP_setTile (s p x e' f') : getP (setTile s p x) e' f' = getP s e' f' := rfl
@[simp] theorem getG_setTile (s p x e' n') : getG (setTile s p x) e' n' = getG s e' n' := rfl
@[simp] theorem getEng_setTile (s p x e') : getEng (setTile s p x) e' = getEng s e' := rfl
@[simp] theorem getCtx_setTile (s p x c') : getCtx (setTile s p x) c' = getCtx s c' := rfl
@[simp] theorem getStack_setTile (s p x i') : getStack (setTile s p x) i' = getStack s i' := rfl
@[simp] theorem getFlue_setTile (s p x f') : getFlue (setTile s p x) f' = getFlue s f' := rfl
@[simp] theorem getCe_setTile (s p x c') : getCe (setTile s p x) c' = getCe s c' := rfl
@[simp] theorem getDom_setTile (s p x d') : getDom (setTile s p x) d' = getDom s d' := rfl
@[simp] theorem getFrame_setTile (s p x n') : getFrame (setTile s p x) n' = getFrame s n' := rfl
@[simp] theorem getTimer_setTile (s p x k') : getTimer (setTile s p x) k' = getTimer s k' := rfl
@[simp] theorem getSlot_setTile (s p x i') : getSlot (setTile s p x) i' = getSlot s i' := rfl
@[simp] theorem memByte_setTile (s p x a') : memByte (setTile s p x) a' = memByte s a' := rfl
@[simp] theorem isBad_setTile (s p x a') : isBad (setTile s p x) a' = isBad s a' := rfl
@[simp] theorem physOf_setTile (s p x l') : physOf (setTile s p x) l' = physOf s l' := rfl
@[simp] theorem logOf_setTile (s p x p') : logOf (setTile s p x) p' = logOf s p' := rfl
@[simp] theorem ptileOf_setTile (s p x p') : ptileOf (setTile s p x) p' = ptileOf s p' := rfl
@[simp] theorem isolated_setTile (s p x d') : isolated (setTile s p x) d' = isolated s d' := rfl

@[simp] theorem regGet_modTile (s p f k') : regGet (modTile s p f) k' = regGet s k' := rfl
@[simp] theorem rdF_modTile (s p f b' f' i' j') : rdF (modTile s p f) b' f' i' j' = rdF s b' f' i' j' := rfl
@[simp] theorem getF_modTile (s p f f' i') : getF (modTile s p f) f' i' = getF s f' i' := rfl
@[simp] theorem getFi_modTile (s p f f' i' j') : getFi (modTile s p f) f' i' j' = getFi s f' i' j' := rfl
@[simp] theorem flagF_modTile (s p f f' i') : flagF (modTile s p f) f' i' = flagF s f' i' := rfl
@[simp] theorem getP_modTile (s p f e' f') : getP (modTile s p f) e' f' = getP s e' f' := rfl
@[simp] theorem getG_modTile (s p f e' n') : getG (modTile s p f) e' n' = getG s e' n' := rfl
@[simp] theorem getEng_modTile (s p f e') : getEng (modTile s p f) e' = getEng s e' := rfl
@[simp] theorem getCtx_modTile (s p f c') : getCtx (modTile s p f) c' = getCtx s c' := rfl
@[simp] theorem getStack_modTile (s p f i') : getStack (modTile s p f) i' = getStack s i' := rfl
@[simp] theorem getFlue_modTile (s p f f') : getFlue (modTile s p f) f' = getFlue s f' := rfl
@[simp] theorem getCe_modTile (s p f c') : getCe (modTile s p f) c' = getCe s c' := rfl
@[simp] theorem getDom_modTile (s p f d') : getDom (modTile s p f) d' = getDom s d' := rfl
@[simp] theorem getFrame_modTile (s p f n') : getFrame (modTile s p f) n' = getFrame s n' := rfl
@[simp] theorem getTimer_modTile (s p f k') : getTimer (modTile s p f) k' = getTimer s k' := rfl
@[simp] theorem getSlot_modTile (s p f i') : getSlot (modTile s p f) i' = getSlot s i' := rfl
@[simp] theorem memByte_modTile (s p f a') : memByte (modTile s p f) a' = memByte s a' := rfl
@[simp] theorem isBad_modTile (s p f a') : isBad (modTile s p f) a' = isBad s a' := rfl
@[simp] theorem physOf_modTile (s p f l') : physOf (modTile s p f) l' = physOf s l' := rfl
@[simp] theorem logOf_modTile (s p f p') : logOf (modTile s p f) p' = logOf s p' := rfl
@[simp] theorem ptileOf_modTile (s p f p') : ptileOf (modTile s p f) p' = ptileOf s p' := rfl
@[simp] theorem isolated_modTile (s p f d') : isolated (modTile s p f) d' = isolated s d' := rfl

@[simp] theorem regGet_setCtx (s c x k') : regGet (setCtx s c x) k' = regGet s k' := rfl
@[simp] theorem rdF_setCtx (s c x b' f' i' j') : rdF (setCtx s c x) b' f' i' j' = rdF s b' f' i' j' := rfl
@[simp] theorem getF_setCtx (s c x f' i') : getF (setCtx s c x) f' i' = getF s f' i' := rfl
@[simp] theorem getFi_setCtx (s c x f' i' j') : getFi (setCtx s c x) f' i' j' = getFi s f' i' j' := rfl
@[simp] theorem flagF_setCtx (s c x f' i') : flagF (setCtx s c x) f' i' = flagF s f' i' := rfl
@[simp] theorem getP_setCtx (s c x e' f') : getP (setCtx s c x) e' f' = getP s e' f' := rfl
@[simp] theorem getG_setCtx (s c x e' n') : getG (setCtx s c x) e' n' = getG s e' n' := rfl
@[simp] theorem getEng_setCtx (s c x e') : getEng (setCtx s c x) e' = getEng s e' := rfl
@[simp] theorem getTile_setCtx (s c x p') : getTile (setCtx s c x) p' = getTile s p' := rfl
@[simp] theorem getStack_setCtx (s c x i') : getStack (setCtx s c x) i' = getStack s i' := rfl
@[simp] theorem getFlue_setCtx (s c x f') : getFlue (setCtx s c x) f' = getFlue s f' := rfl
@[simp] theorem getCe_setCtx (s c x c') : getCe (setCtx s c x) c' = getCe s c' := rfl
@[simp] theorem getDom_setCtx (s c x d') : getDom (setCtx s c x) d' = getDom s d' := rfl
@[simp] theorem getFrame_setCtx (s c x n') : getFrame (setCtx s c x) n' = getFrame s n' := rfl
@[simp] theorem getTimer_setCtx (s c x k') : getTimer (setCtx s c x) k' = getTimer s k' := rfl
@[simp] theorem getSlot_setCtx (s c x i') : getSlot (setCtx s c x) i' = getSlot s i' := rfl
@[simp] theorem memByte_setCtx (s c x a') : memByte (setCtx s c x) a' = memByte s a' := rfl
@[simp] theorem isBad_setCtx (s c x a') : isBad (setCtx s c x) a' = isBad s a' := rfl
@[simp] theorem physOf_setCtx (s c x l') : physOf (setCtx s c x) l' = physOf s l' := rfl
@[simp] theorem logOf_setCtx (s c x p') : logOf (setCtx s c x) p' = logOf s p' := rfl
@[simp] theorem ptileOf_setCtx (s c x p') : ptileOf (setCtx s c x) p' = ptileOf s p' := rfl
@[simp] theorem isolated_setCtx (s c x d') : isolated (setCtx s c x) d' = isolated s d' := rfl

@[simp] theorem regGet_setStack (s i x k') : regGet (setStack s i x) k' = regGet s k' := rfl
@[simp] theorem rdF_setStack (s i x b' f' i' j') : rdF (setStack s i x) b' f' i' j' = rdF s b' f' i' j' := rfl
@[simp] theorem getF_setStack (s i x f' i') : getF (setStack s i x) f' i' = getF s f' i' := rfl
@[simp] theorem getFi_setStack (s i x f' i' j') : getFi (setStack s i x) f' i' j' = getFi s f' i' j' := rfl
@[simp] theorem flagF_setStack (s i x f' i') : flagF (setStack s i x) f' i' = flagF s f' i' := rfl
@[simp] theorem getP_setStack (s i x e' f') : getP (setStack s i x) e' f' = getP s e' f' := rfl
@[simp] theorem getG_setStack (s i x e' n') : getG (setStack s i x) e' n' = getG s e' n' := rfl
@[simp] theorem getEng_setStack (s i x e') : getEng (setStack s i x) e' = getEng s e' := rfl
@[simp] theorem getTile_setStack (s i x p') : getTile (setStack s i x) p' = getTile s p' := rfl
@[simp] theorem getCtx_setStack (s i x c') : getCtx (setStack s i x) c' = getCtx s c' := rfl
@[simp] theorem getFlue_setStack (s i x f') : getFlue (setStack s i x) f' = getFlue s f' := rfl
@[simp] theorem getCe_setStack (s i x c') : getCe (setStack s i x) c' = getCe s c' := rfl
@[simp] theorem getDom_setStack (s i x d') : getDom (setStack s i x) d' = getDom s d' := rfl
@[simp] theorem getFrame_setStack (s i x n') : getFrame (setStack s i x) n' = getFrame s n' := rfl
@[simp] theorem getTimer_setStack (s i x k') : getTimer (setStack s i x) k' = getTimer s k' := rfl
@[simp] theorem getSlot_setStack (s i x i') : getSlot (setStack s i x) i' = getSlot s i' := rfl
@[simp] theorem memByte_setStack (s i x a') : memByte (setStack s i x) a' = memByte s a' := rfl
@[simp] theorem isBad_setStack (s i x a') : isBad (setStack s i x) a' = isBad s a' := rfl
@[simp] theorem physOf_setStack (s i x l') : physOf (setStack s i x) l' = physOf s l' := rfl
@[simp] theorem logOf_setStack (s i x p') : logOf (setStack s i x) p' = logOf s p' := rfl
@[simp] theorem ptileOf_setStack (s i x p') : ptileOf (setStack s i x) p' = ptileOf s p' := rfl
@[simp] theorem isolated_setStack (s i x d') : isolated (setStack s i x) d' = isolated s d' := rfl

@[simp] theorem regGet_setFlue (s f x k') : regGet (setFlue s f x) k' = regGet s k' := rfl
@[simp] theorem rdF_setFlue (s f x b' f' i' j') : rdF (setFlue s f x) b' f' i' j' = rdF s b' f' i' j' := rfl
@[simp] theorem getF_setFlue (s f x f' i') : getF (setFlue s f x) f' i' = getF s f' i' := rfl
@[simp] theorem getFi_setFlue (s f x f' i' j') : getFi (setFlue s f x) f' i' j' = getFi s f' i' j' := rfl
@[simp] theorem flagF_setFlue (s f x f' i') : flagF (setFlue s f x) f' i' = flagF s f' i' := rfl
@[simp] theorem getP_setFlue (s f x e' f') : getP (setFlue s f x) e' f' = getP s e' f' := rfl
@[simp] theorem getG_setFlue (s f x e' n') : getG (setFlue s f x) e' n' = getG s e' n' := rfl
@[simp] theorem getEng_setFlue (s f x e') : getEng (setFlue s f x) e' = getEng s e' := rfl
@[simp] theorem getTile_setFlue (s f x p') : getTile (setFlue s f x) p' = getTile s p' := rfl
@[simp] theorem getCtx_setFlue (s f x c') : getCtx (setFlue s f x) c' = getCtx s c' := rfl
@[simp] theorem getStack_setFlue (s f x i') : getStack (setFlue s f x) i' = getStack s i' := rfl
@[simp] theorem getCe_setFlue (s f x c') : getCe (setFlue s f x) c' = getCe s c' := rfl
@[simp] theorem getDom_setFlue (s f x d') : getDom (setFlue s f x) d' = getDom s d' := rfl
@[simp] theorem getFrame_setFlue (s f x n') : getFrame (setFlue s f x) n' = getFrame s n' := rfl
@[simp] theorem getTimer_setFlue (s f x k') : getTimer (setFlue s f x) k' = getTimer s k' := rfl
@[simp] theorem getSlot_setFlue (s f x i') : getSlot (setFlue s f x) i' = getSlot s i' := rfl
@[simp] theorem memByte_setFlue (s f x a') : memByte (setFlue s f x) a' = memByte s a' := rfl
@[simp] theorem isBad_setFlue (s f x a') : isBad (setFlue s f x) a' = isBad s a' := rfl
@[simp] theorem physOf_setFlue (s f x l') : physOf (setFlue s f x) l' = physOf s l' := rfl
@[simp] theorem logOf_setFlue (s f x p') : logOf (setFlue s f x) p' = logOf s p' := rfl
@[simp] theorem ptileOf_setFlue (s f x p') : ptileOf (setFlue s f x) p' = ptileOf s p' := rfl
@[simp] theorem isolated_setFlue (s f x d') : isolated (setFlue s f x) d' = isolated s d' := rfl

@[simp] theorem regGet_setCe (s c x k') : regGet (setCe s c x) k' = regGet s k' := rfl
@[simp] theorem rdF_setCe (s c x b' f' i' j') : rdF (setCe s c x) b' f' i' j' = rdF s b' f' i' j' := rfl
@[simp] theorem getF_setCe (s c x f' i') : getF (setCe s c x) f' i' = getF s f' i' := rfl
@[simp] theorem getFi_setCe (s c x f' i' j') : getFi (setCe s c x) f' i' j' = getFi s f' i' j' := rfl
@[simp] theorem flagF_setCe (s c x f' i') : flagF (setCe s c x) f' i' = flagF s f' i' := rfl
@[simp] theorem getP_setCe (s c x e' f') : getP (setCe s c x) e' f' = getP s e' f' := rfl
@[simp] theorem getG_setCe (s c x e' n') : getG (setCe s c x) e' n' = getG s e' n' := rfl
@[simp] theorem getEng_setCe (s c x e') : getEng (setCe s c x) e' = getEng s e' := rfl
@[simp] theorem getTile_setCe (s c x p') : getTile (setCe s c x) p' = getTile s p' := rfl
@[simp] theorem getCtx_setCe (s c x c') : getCtx (setCe s c x) c' = getCtx s c' := rfl
@[simp] theorem getStack_setCe (s c x i') : getStack (setCe s c x) i' = getStack s i' := rfl
@[simp] theorem getFlue_setCe (s c x f') : getFlue (setCe s c x) f' = getFlue s f' := rfl
@[simp] theorem getDom_setCe (s c x d') : getDom (setCe s c x) d' = getDom s d' := rfl
@[simp] theorem getFrame_setCe (s c x n') : getFrame (setCe s c x) n' = getFrame s n' := rfl
@[simp] theorem getTimer_setCe (s c x k') : getTimer (setCe s c x) k' = getTimer s k' := rfl
@[simp] theorem getSlot_setCe (s c x i') : getSlot (setCe s c x) i' = getSlot s i' := rfl
@[simp] theorem memByte_setCe (s c x a') : memByte (setCe s c x) a' = memByte s a' := rfl
@[simp] theorem isBad_setCe (s c x a') : isBad (setCe s c x) a' = isBad s a' := rfl
@[simp] theorem physOf_setCe (s c x l') : physOf (setCe s c x) l' = physOf s l' := rfl
@[simp] theorem logOf_setCe (s c x p') : logOf (setCe s c x) p' = logOf s p' := rfl
@[simp] theorem ptileOf_setCe (s c x p') : ptileOf (setCe s c x) p' = ptileOf s p' := rfl
@[simp] theorem isolated_setCe (s c x d') : isolated (setCe s c x) d' = isolated s d' := rfl

@[simp] theorem regGet_setDom (s d x k') : regGet (setDom s d x) k' = regGet s k' := rfl
@[simp] theorem rdF_setDom (s d x b' f' i' j') : rdF (setDom s d x) b' f' i' j' = rdF s b' f' i' j' := rfl
@[simp] theorem getF_setDom (s d x f' i') : getF (setDom s d x) f' i' = getF s f' i' := rfl
@[simp] theorem getFi_setDom (s d x f' i' j') : getFi (setDom s d x) f' i' j' = getFi s f' i' j' := rfl
@[simp] theorem flagF_setDom (s d x f' i') : flagF (setDom s d x) f' i' = flagF s f' i' := rfl
@[simp] theorem getP_setDom (s d x e' f') : getP (setDom s d x) e' f' = getP s e' f' := rfl
@[simp] theorem getG_setDom (s d x e' n') : getG (setDom s d x) e' n' = getG s e' n' := rfl
@[simp] theorem getEng_setDom (s d x e') : getEng (setDom s d x) e' = getEng s e' := rfl
@[simp] theorem getTile_setDom (s d x p') : getTile (setDom s d x) p' = getTile s p' := rfl
@[simp] theorem getCtx_setDom (s d x c') : getCtx (setDom s d x) c' = getCtx s c' := rfl
@[simp] theorem getStack_setDom (s d x i') : getStack (setDom s d x) i' = getStack s i' := rfl
@[simp] theorem getFlue_setDom (s d x f') : getFlue (setDom s d x) f' = getFlue s f' := rfl
@[simp] theorem getCe_setDom (s d x c') : getCe (setDom s d x) c' = getCe s c' := rfl
@[simp] theorem getFrame_setDom (s d x n') : getFrame (setDom s d x) n' = getFrame s n' := rfl
@[simp] theorem getTimer_setDom (s d x k') : getTimer (setDom s d x) k' = getTimer s k' := rfl
@[simp] theorem getSlot_setDom (s d x i') : getSlot (setDom s d x) i' = getSlot s i' := rfl
@[simp] theorem memByte_setDom (s d x a') : memByte (setDom s d x) a' = memByte s a' := rfl
@[simp] theorem isBad_setDom (s d x a') : isBad (setDom s d x) a' = isBad s a' := rfl
@[simp] theorem physOf_setDom (s d x l') : physOf (setDom s d x) l' = physOf s l' := rfl
@[simp] theorem logOf_setDom (s d x p') : logOf (setDom s d x) p' = logOf s p' := rfl
@[simp] theorem ptileOf_setDom (s d x p') : ptileOf (setDom s d x) p' = ptileOf s p' := rfl

@[simp] theorem regGet_setFrame (s n x k') : regGet (setFrame s n x) k' = regGet s k' := rfl
@[simp] theorem rdF_setFrame (s n x b' f' i' j') : rdF (setFrame s n x) b' f' i' j' = rdF s b' f' i' j' := rfl
@[simp] theorem getF_setFrame (s n x f' i') : getF (setFrame s n x) f' i' = getF s f' i' := rfl
@[simp] theorem getFi_setFrame (s n x f' i' j') : getFi (setFrame s n x) f' i' j' = getFi s f' i' j' := rfl
@[simp] theorem flagF_setFrame (s n x f' i') : flagF (setFrame s n x) f' i' = flagF s f' i' := rfl
@[simp] theorem getP_setFrame (s n x e' f') : getP (setFrame s n x) e' f' = getP s e' f' := rfl
@[simp] theorem getG_setFrame (s n x e' n') : getG (setFrame s n x) e' n' = getG s e' n' := rfl
@[simp] theorem getEng_setFrame (s n x e') : getEng (setFrame s n x) e' = getEng s e' := rfl
@[simp] theorem getTile_setFrame (s n x p') : getTile (setFrame s n x) p' = getTile s p' := rfl
@[simp] theorem getCtx_setFrame (s n x c') : getCtx (setFrame s n x) c' = getCtx s c' := rfl
@[simp] theorem getStack_setFrame (s n x i') : getStack (setFrame s n x) i' = getStack s i' := rfl
@[simp] theorem getFlue_setFrame (s n x f') : getFlue (setFrame s n x) f' = getFlue s f' := rfl
@[simp] theorem getCe_setFrame (s n x c') : getCe (setFrame s n x) c' = getCe s c' := rfl
@[simp] theorem getDom_setFrame (s n x d') : getDom (setFrame s n x) d' = getDom s d' := rfl
@[simp] theorem getTimer_setFrame (s n x k') : getTimer (setFrame s n x) k' = getTimer s k' := rfl
@[simp] theorem getSlot_setFrame (s n x i') : getSlot (setFrame s n x) i' = getSlot s i' := rfl
@[simp] theorem memByte_setFrame (s n x a') : memByte (setFrame s n x) a' = memByte s a' := rfl
@[simp] theorem isBad_setFrame (s n x a') : isBad (setFrame s n x) a' = isBad s a' := rfl
@[simp] theorem physOf_setFrame (s n x l') : physOf (setFrame s n x) l' = physOf s l' := rfl
@[simp] theorem logOf_setFrame (s n x p') : logOf (setFrame s n x) p' = logOf s p' := rfl
@[simp] theorem ptileOf_setFrame (s n x p') : ptileOf (setFrame s n x) p' = ptileOf s p' := rfl
@[simp] theorem isolated_setFrame (s n x d') : isolated (setFrame s n x) d' = isolated s d' := rfl

@[simp] theorem regGet_setTimer (s k v k') : regGet (setTimer s k v) k' = regGet s k' := rfl
@[simp] theorem rdF_setTimer (s k v b' f' i' j') : rdF (setTimer s k v) b' f' i' j' = rdF s b' f' i' j' := rfl
@[simp] theorem getF_setTimer (s k v f' i') : getF (setTimer s k v) f' i' = getF s f' i' := rfl
@[simp] theorem getFi_setTimer (s k v f' i' j') : getFi (setTimer s k v) f' i' j' = getFi s f' i' j' := rfl
@[simp] theorem flagF_setTimer (s k v f' i') : flagF (setTimer s k v) f' i' = flagF s f' i' := rfl
@[simp] theorem getP_setTimer (s k v e' f') : getP (setTimer s k v) e' f' = getP s e' f' := rfl
@[simp] theorem getG_setTimer (s k v e' n') : getG (setTimer s k v) e' n' = getG s e' n' := rfl
@[simp] theorem getEng_setTimer (s k v e') : getEng (setTimer s k v) e' = getEng s e' := rfl
@[simp] theorem getTile_setTimer (s k v p') : getTile (setTimer s k v) p' = getTile s p' := rfl
@[simp] theorem getCtx_setTimer (s k v c') : getCtx (setTimer s k v) c' = getCtx s c' := rfl
@[simp] theorem getStack_setTimer (s k v i') : getStack (setTimer s k v) i' = getStack s i' := rfl
@[simp] theorem getFlue_setTimer (s k v f') : getFlue (setTimer s k v) f' = getFlue s f' := rfl
@[simp] theorem getCe_setTimer (s k v c') : getCe (setTimer s k v) c' = getCe s c' := rfl
@[simp] theorem getDom_setTimer (s k v d') : getDom (setTimer s k v) d' = getDom s d' := rfl
@[simp] theorem getFrame_setTimer (s k v n') : getFrame (setTimer s k v) n' = getFrame s n' := rfl
@[simp] theorem getSlot_setTimer (s k v i') : getSlot (setTimer s k v) i' = getSlot s i' := rfl
@[simp] theorem memByte_setTimer (s k v a') : memByte (setTimer s k v) a' = memByte s a' := rfl
@[simp] theorem isBad_setTimer (s k v a') : isBad (setTimer s k v) a' = isBad s a' := rfl
@[simp] theorem physOf_setTimer (s k v l') : physOf (setTimer s k v) l' = physOf s l' := rfl
@[simp] theorem logOf_setTimer (s k v p') : logOf (setTimer s k v) p' = logOf s p' := rfl
@[simp] theorem ptileOf_setTimer (s k v p') : ptileOf (setTimer s k v) p' = ptileOf s p' := rfl
@[simp] theorem isolated_setTimer (s k v d') : isolated (setTimer s k v) d' = isolated s d' := rfl

@[simp] theorem regGet_setSlot (s i x k') : regGet (setSlot s i x) k' = regGet s k' := rfl
@[simp] theorem rdF_setSlot (s i x b' f' i' j') : rdF (setSlot s i x) b' f' i' j' = rdF s b' f' i' j' := rfl
@[simp] theorem getF_setSlot (s i x f' i') : getF (setSlot s i x) f' i' = getF s f' i' := rfl
@[simp] theorem getFi_setSlot (s i x f' i' j') : getFi (setSlot s i x) f' i' j' = getFi s f' i' j' := rfl
@[simp] theorem flagF_setSlot (s i x f' i') : flagF (setSlot s i x) f' i' = flagF s f' i' := rfl
@[simp] theorem getP_setSlot (s i x e' f') : getP (setSlot s i x) e' f' = getP s e' f' := rfl
@[simp] theorem getG_setSlot (s i x e' n') : getG (setSlot s i x) e' n' = getG s e' n' := rfl
@[simp] theorem getEng_setSlot (s i x e') : getEng (setSlot s i x) e' = getEng s e' := rfl
@[simp] theorem getTile_setSlot (s i x p') : getTile (setSlot s i x) p' = getTile s p' := rfl
@[simp] theorem getCtx_setSlot (s i x c') : getCtx (setSlot s i x) c' = getCtx s c' := rfl
@[simp] theorem getStack_setSlot (s i x i') : getStack (setSlot s i x) i' = getStack s i' := rfl
@[simp] theorem getFlue_setSlot (s i x f') : getFlue (setSlot s i x) f' = getFlue s f' := rfl
@[simp] theorem getCe_setSlot (s i x c') : getCe (setSlot s i x) c' = getCe s c' := rfl
@[simp] theorem getDom_setSlot (s i x d') : getDom (setSlot s i x) d' = getDom s d' := rfl
@[simp] theorem getFrame_setSlot (s i x n') : getFrame (setSlot s i x) n' = getFrame s n' := rfl
@[simp] theorem getTimer_setSlot (s i x k') : getTimer (setSlot s i x) k' = getTimer s k' := rfl
@[simp] theorem memByte_setSlot (s i x a') : memByte (setSlot s i x) a' = memByte s a' := rfl
@[simp] theorem isBad_setSlot (s i x a') : isBad (setSlot s i x) a' = isBad s a' := rfl
@[simp] theorem physOf_setSlot (s i x l') : physOf (setSlot s i x) l' = physOf s l' := rfl
@[simp] theorem logOf_setSlot (s i x p') : logOf (setSlot s i x) p' = logOf s p' := rfl
@[simp] theorem ptileOf_setSlot (s i x p') : ptileOf (setSlot s i x) p' = ptileOf s p' := rfl
@[simp] theorem isolated_setSlot (s i x d') : isolated (setSlot s i x) d' = isolated s d' := rfl

@[simp] theorem regGet_advance (s dt k') : regGet (advance s dt) k' = regGet s k' := rfl
@[simp] theorem rdF_advance (s dt b' f' i' j') : rdF (advance s dt) b' f' i' j' = rdF s b' f' i' j' := rfl
@[simp] theorem getF_advance (s dt f' i') : getF (advance s dt) f' i' = getF s f' i' := rfl
@[simp] theorem getFi_advance (s dt f' i' j') : getFi (advance s dt) f' i' j' = getFi s f' i' j' := rfl
@[simp] theorem flagF_advance (s dt f' i') : flagF (advance s dt) f' i' = flagF s f' i' := rfl
@[simp] theorem getP_advance (s dt e' f') : getP (advance s dt) e' f' = getP s e' f' := rfl
@[simp] theorem getG_advance (s dt e' n') : getG (advance s dt) e' n' = getG s e' n' := rfl
@[simp] theorem getEng_advance (s dt e') : getEng (advance s dt) e' = getEng s e' := rfl
@[simp] theorem getTile_advance (s dt p') : getTile (advance s dt) p' = getTile s p' := rfl
@[simp] theorem getCtx_advance (s dt c') : getCtx (advance s dt) c' = getCtx s c' := rfl
@[simp] theorem getStack_advance (s dt i') : getStack (advance s dt) i' = getStack s i' := rfl
@[simp] theorem getFlue_advance (s dt f') : getFlue (advance s dt) f' = getFlue s f' := rfl
@[simp] theorem getCe_advance (s dt c') : getCe (advance s dt) c' = getCe s c' := rfl
@[simp] theorem getDom_advance (s dt d') : getDom (advance s dt) d' = getDom s d' := rfl
@[simp] theorem getFrame_advance (s dt n') : getFrame (advance s dt) n' = getFrame s n' := rfl
@[simp] theorem getTimer_advance (s dt k') : getTimer (advance s dt) k' = getTimer s k' := rfl
@[simp] theorem getSlot_advance (s dt i') : getSlot (advance s dt) i' = getSlot s i' := rfl
@[simp] theorem memByte_advance (s dt a') : memByte (advance s dt) a' = memByte s a' := rfl
@[simp] theorem isBad_advance (s dt a') : isBad (advance s dt) a' = isBad s a' := rfl
@[simp] theorem physOf_advance (s dt l') : physOf (advance s dt) l' = physOf s l' := rfl
@[simp] theorem logOf_advance (s dt p') : logOf (advance s dt) p' = logOf s p' := rfl
@[simp] theorem ptileOf_advance (s dt p') : ptileOf (advance s dt) p' = ptileOf s p' := rfl
@[simp] theorem isolated_advance (s dt d') : isolated (advance s dt) d' = isolated s d' := rfl

@[simp] theorem regGet_ebOut (s m k') : regGet (ebOut s m) k' = regGet s k' := rfl
@[simp] theorem rdF_ebOut (s m b' f' i' j') : rdF (ebOut s m) b' f' i' j' = rdF s b' f' i' j' := rfl
@[simp] theorem getF_ebOut (s m f' i') : getF (ebOut s m) f' i' = getF s f' i' := rfl
@[simp] theorem getFi_ebOut (s m f' i' j') : getFi (ebOut s m) f' i' j' = getFi s f' i' j' := rfl
@[simp] theorem flagF_ebOut (s m f' i') : flagF (ebOut s m) f' i' = flagF s f' i' := rfl
@[simp] theorem getP_ebOut (s m e' f') : getP (ebOut s m) e' f' = getP s e' f' := rfl
@[simp] theorem getG_ebOut (s m e' n') : getG (ebOut s m) e' n' = getG s e' n' := rfl
@[simp] theorem getEng_ebOut (s m e') : getEng (ebOut s m) e' = getEng s e' := rfl
@[simp] theorem getTile_ebOut (s m p') : getTile (ebOut s m) p' = getTile s p' := rfl
@[simp] theorem getCtx_ebOut (s m c') : getCtx (ebOut s m) c' = getCtx s c' := rfl
@[simp] theorem getStack_ebOut (s m i') : getStack (ebOut s m) i' = getStack s i' := rfl
@[simp] theorem getFlue_ebOut (s m f') : getFlue (ebOut s m) f' = getFlue s f' := rfl
@[simp] theorem getCe_ebOut (s m c') : getCe (ebOut s m) c' = getCe s c' := rfl
@[simp] theorem getDom_ebOut (s m d') : getDom (ebOut s m) d' = getDom s d' := rfl
@[simp] theorem getFrame_ebOut (s m n') : getFrame (ebOut s m) n' = getFrame s n' := rfl
@[simp] theorem getTimer_ebOut (s m k') : getTimer (ebOut s m) k' = getTimer s k' := rfl
@[simp] theorem getSlot_ebOut (s m i') : getSlot (ebOut s m) i' = getSlot s i' := rfl
@[simp] theorem memByte_ebOut (s m a') : memByte (ebOut s m) a' = memByte s a' := rfl
@[simp] theorem isBad_ebOut (s m a') : isBad (ebOut s m) a' = isBad s a' := rfl
@[simp] theorem physOf_ebOut (s m l') : physOf (ebOut s m) l' = physOf s l' := rfl
@[simp] theorem logOf_ebOut (s m p') : logOf (ebOut s m) p' = logOf s p' := rfl
@[simp] theorem ptileOf_ebOut (s m p') : ptileOf (ebOut s m) p' = ptileOf s p' := rfl
@[simp] theorem isolated_ebOut (s m d') : isolated (ebOut s m) d' = isolated s d' := rfl

@[simp] theorem regGet_sendPkt (s p k') : regGet (sendPkt s p) k' = regGet s k' := rfl
@[simp] theorem rdF_sendPkt (s p b' f' i' j') : rdF (sendPkt s p) b' f' i' j' = rdF s b' f' i' j' := rfl
@[simp] theorem getF_sendPkt (s p f' i') : getF (sendPkt s p) f' i' = getF s f' i' := rfl
@[simp] theorem getFi_sendPkt (s p f' i' j') : getFi (sendPkt s p) f' i' j' = getFi s f' i' j' := rfl
@[simp] theorem flagF_sendPkt (s p f' i') : flagF (sendPkt s p) f' i' = flagF s f' i' := rfl
@[simp] theorem getP_sendPkt (s p e' f') : getP (sendPkt s p) e' f' = getP s e' f' := rfl
@[simp] theorem getG_sendPkt (s p e' n') : getG (sendPkt s p) e' n' = getG s e' n' := rfl
@[simp] theorem getEng_sendPkt (s p e') : getEng (sendPkt s p) e' = getEng s e' := rfl
@[simp] theorem getTile_sendPkt (s p p') : getTile (sendPkt s p) p' = getTile s p' := rfl
@[simp] theorem getCtx_sendPkt (s p c') : getCtx (sendPkt s p) c' = getCtx s c' := rfl
@[simp] theorem getStack_sendPkt (s p i') : getStack (sendPkt s p) i' = getStack s i' := rfl
@[simp] theorem getFlue_sendPkt (s p f') : getFlue (sendPkt s p) f' = getFlue s f' := rfl
@[simp] theorem getCe_sendPkt (s p c') : getCe (sendPkt s p) c' = getCe s c' := rfl
@[simp] theorem getDom_sendPkt (s p d') : getDom (sendPkt s p) d' = getDom s d' := rfl
@[simp] theorem getFrame_sendPkt (s p n') : getFrame (sendPkt s p) n' = getFrame s n' := rfl
@[simp] theorem getTimer_sendPkt (s p k') : getTimer (sendPkt s p) k' = getTimer s k' := rfl
@[simp] theorem getSlot_sendPkt (s p i') : getSlot (sendPkt s p) i' = getSlot s i' := rfl
@[simp] theorem memByte_sendPkt (s p a') : memByte (sendPkt s p) a' = memByte s a' := rfl
@[simp] theorem isBad_sendPkt (s p a') : isBad (sendPkt s p) a' = isBad s a' := rfl
@[simp] theorem physOf_sendPkt (s p l') : physOf (sendPkt s p) l' = physOf s l' := rfl
@[simp] theorem logOf_sendPkt (s p p') : logOf (sendPkt s p) p' = logOf s p' := rfl
@[simp] theorem ptileOf_sendPkt (s p p') : ptileOf (sendPkt s p) p' = ptileOf s p' := rfl
@[simp] theorem isolated_sendPkt (s p d') : isolated (sendPkt s p) d' = isolated s d' := rfl

@[simp] theorem regGet_takeArrived (s p k') : regGet (takeArrived s p) k' = regGet s k' := rfl
@[simp] theorem rdF_takeArrived (s p b' f' i' j') : rdF (takeArrived s p) b' f' i' j' = rdF s b' f' i' j' := rfl
@[simp] theorem getF_takeArrived (s p f' i') : getF (takeArrived s p) f' i' = getF s f' i' := rfl
@[simp] theorem getFi_takeArrived (s p f' i' j') : getFi (takeArrived s p) f' i' j' = getFi s f' i' j' := rfl
@[simp] theorem flagF_takeArrived (s p f' i') : flagF (takeArrived s p) f' i' = flagF s f' i' := rfl
@[simp] theorem getP_takeArrived (s p e' f') : getP (takeArrived s p) e' f' = getP s e' f' := rfl
@[simp] theorem getG_takeArrived (s p e' n') : getG (takeArrived s p) e' n' = getG s e' n' := rfl
@[simp] theorem getEng_takeArrived (s p e') : getEng (takeArrived s p) e' = getEng s e' := rfl
@[simp] theorem getTile_takeArrived (s p p') : getTile (takeArrived s p) p' = getTile s p' := rfl
@[simp] theorem getCtx_takeArrived (s p c') : getCtx (takeArrived s p) c' = getCtx s c' := rfl
@[simp] theorem getStack_takeArrived (s p i') : getStack (takeArrived s p) i' = getStack s i' := rfl
@[simp] theorem getFlue_takeArrived (s p f') : getFlue (takeArrived s p) f' = getFlue s f' := rfl
@[simp] theorem getCe_takeArrived (s p c') : getCe (takeArrived s p) c' = getCe s c' := rfl
@[simp] theorem getDom_takeArrived (s p d') : getDom (takeArrived s p) d' = getDom s d' := rfl
@[simp] theorem getFrame_takeArrived (s p n') : getFrame (takeArrived s p) n' = getFrame s n' := rfl
@[simp] theorem getTimer_takeArrived (s p k') : getTimer (takeArrived s p) k' = getTimer s k' := rfl
@[simp] theorem getSlot_takeArrived (s p i') : getSlot (takeArrived s p) i' = getSlot s i' := rfl
@[simp] theorem memByte_takeArrived (s p a') : memByte (takeArrived s p) a' = memByte s a' := rfl
@[simp] theorem isBad_takeArrived (s p a') : isBad (takeArrived s p) a' = isBad s a' := rfl
@[simp] theorem physOf_takeArrived (s p l') : physOf (takeArrived s p) l' = physOf s l' := rfl
@[simp] theorem logOf_takeArrived (s p p') : logOf (takeArrived s p) p' = logOf s p' := rfl
@[simp] theorem ptileOf_takeArrived (s p p') : ptileOf (takeArrived s p) p' = ptileOf s p' := rfl
@[simp] theorem isolated_takeArrived (s p d') : isolated (takeArrived s p) d' = isolated s d' := rfl

/-! Reads after writes. Maps must be in canonical form, which every action keeps. -/

theorem regGet_regSet_same (s : State) (k : Nat) (v : DWord) : regGet (regSet s k v) k = v :=
  mapGet_mapSet_same _ _ _ _

theorem regGet_regSet_other (s : State) {k k' : Nat} (v : DWord) (h : k' ≠ k) : regGet (regSet s k v) k' = regGet s k' :=
  mapGet_mapSet_other _ _ _ _ _ h

theorem engIdx_inj {a b : Eng} (h : engIdx a = engIdx b) : a = b := by
  rcases a with ⟨p, k⟩ | c <;> rcases b with ⟨q, l⟩ | d
  · cases k <;> cases l <;> simp only [engIdx] at h <;>
      first
        | omega
        | (have : p = q := Fin.ext (by omega)
           rw [this])
  · have := p.isLt
    cases k <;> simp only [engIdx] at h <;> omega
  · have := q.isLt
    cases l <;> simp only [engIdx] at h <;> omega
  · simp only [engIdx] at h
    rw [Fin.ext (by omega : c.val = d.val)]

theorem getEng_setEng_same (s : State) (e : Eng) (x : Engine) : getEng (setEng s e x) e = x :=
  mapGet_mapSet_same _ _ _ _

theorem getEng_setEng_other (s : State) {e e' : Eng} (x : Engine) (h : e' ≠ e) : getEng (setEng s e x) e' = getEng s e' :=
  mapGet_mapSet_other _ _ _ _ _ (fun hi => h (engIdx_inj hi))

theorem getTile_setTile_same (s : State) (p : Nat) (x : Tile) : getTile (setTile s p x) p = x :=
  mapGet_mapSet_same _ _ _ _

theorem getTile_setTile_other (s : State) {p q : Nat} (x : Tile) (h : q ≠ p) : getTile (setTile s p x) q = getTile s q :=
  mapGet_mapSet_other _ _ _ _ _ h

theorem getCtx_setCtx_same (s : State) (c : Nat) (x : BaCtx) : getCtx (setCtx s c x) c = x :=
  mapGet_mapSet_same _ _ _ _

theorem getCtx_setCtx_other (s : State) {c d : Nat} (x : BaCtx) (h : d ≠ c) : getCtx (setCtx s c x) d = getCtx s d :=
  mapGet_mapSet_other _ _ _ _ _ h

theorem getStack_setStack_same (s : State) (i : Nat) (x : Stack) : getStack (setStack s i x) i = x :=
  mapGet_mapSet_same _ _ _ _

theorem getStack_setStack_other (s : State) {i j : Nat} (x : Stack) (h : j ≠ i) : getStack (setStack s i x) j = getStack s j :=
  mapGet_mapSet_other _ _ _ _ _ h

theorem getFlue_setFlue_same (s : State) (f : Nat) (x : Flue) : getFlue (setFlue s f x) f = x :=
  mapGet_mapSet_same _ _ _ _

theorem getFlue_setFlue_other (s : State) {f g : Nat} (x : Flue) (h : g ≠ f) : getFlue (setFlue s f x) g = getFlue s g :=
  mapGet_mapSet_other _ _ _ _ _ h

theorem getCe_setCe_same (s : State) (c : Nat) (x : Ce) : getCe (setCe s c x) c = x :=
  mapGet_mapSet_same _ _ _ _

theorem getCe_setCe_other (s : State) {c d : Nat} (x : Ce) (h : d ≠ c) : getCe (setCe s c x) d = getCe s d :=
  mapGet_mapSet_other _ _ _ _ _ h

theorem getDom_setDom_same (s : State) (d : Nat) (x : Dom) : getDom (setDom s d x) d = x :=
  mapGet_mapSet_same _ _ _ _

theorem getDom_setDom_other (s : State) {d e : Nat} (x : Dom) (h : e ≠ d) : getDom (setDom s d x) e = getDom s e :=
  mapGet_mapSet_other _ _ _ _ _ h

theorem getFrame_setFrame_same (s : State) (n : Nat) (x : Frame) : getFrame (setFrame s n x) n = x :=
  mapGet_mapSet_same _ _ _ _

theorem getFrame_setFrame_other (s : State) {n m : Nat} (x : Frame) (h : m ≠ n) : getFrame (setFrame s n x) m = getFrame s m :=
  mapGet_mapSet_other _ _ _ _ _ h

theorem getTimer_setTimer_same (s : State) (k v : Nat) : getTimer (setTimer s k v) k = v :=
  mapGet_mapSet_same _ _ _ _

theorem getTimer_setTimer_other (s : State) {k j : Nat} (v : Nat) (h : j ≠ k) : getTimer (setTimer s k v) j = getTimer s j :=
  mapGet_mapSet_other _ _ _ _ _ h

/-! Fields of registers. -/

/-- A field read back holds what was written, cut to its width. -/
theorem rdF_wrF_same (s : State) (b : Nat) (f : Fld) (i j v : Nat) (hw : f.lo + f.len ≤ 64) :
    rdF (wrF s b f i j v) b f i j = v % 2 ^ f.len := by
  unfold rdF wrF
  rw [regGet_regSet_same, BitVec.toNat_ofNat, Nat.mod_eq_of_lt (putBits_lt _ _ _ _ _ (BitVec.isLt _) hw), bits_putBits_same]

/-- A field of another register is left alone. -/
theorem rdF_wrF_key (s : State) (b : Nat) (f : Fld) (i j v : Nat) (b' : Nat) (f' : Fld) (i' j' : Nat)
    (h : fldKey b' f' i' j' ≠ fldKey b f i j) : rdF (wrF s b f i j v) b' f' i' j' = rdF s b' f' i' j' := by
  unfold rdF wrF
  rw [regGet_regSet_other _ _ h]

/-- A field apart from the one written is left alone. -/
theorem rdF_wrF_apart (s : State) (b : Nat) (f : Fld) (i j v : Nat) (b' : Nat) (f' : Fld) (i' j' : Nat)
    (hw : f.lo + f.len ≤ 64) (h : f'.lo + f'.len ≤ f.lo ∨ f.lo + f.len ≤ f'.lo) :
    rdF (wrF s b f i j v) b' f' i' j' = rdF s b' f' i' j' := by
  by_cases hk : fldKey b' f' i' j' = fldKey b f i j
  · unfold rdF wrF
    rw [hk, regGet_regSet_same, BitVec.toNat_ofNat, Nat.mod_eq_of_lt (putBits_lt _ _ _ _ _ (BitVec.isLt _) hw)]
    rcases h with h | h
    · exact bits_putBits_below _ _ _ _ _ _ h
    · exact bits_putBits_above _ _ _ _ _ _ h
  · exact rdF_wrF_key s b f i j v b' f' i' j' hk

theorem getF_setF_same (s : State) (f : Fld) (i v : Nat) (hw : f.lo + f.len ≤ 64) :
    getF (setF s f i v) f i = v % 2 ^ f.len := rdF_wrF_same s _ f i 0 v hw

theorem getFi_setFi_same (s : State) (f : Fld) (i j v : Nat) (hw : f.lo + f.len ≤ 64) :
    getFi (setFi s f i j v) f i j = v % 2 ^ f.len := rdF_wrF_same s _ f i j v hw

theorem getF_setF_key (s : State) (f : Fld) (i v : Nat) (f' : Fld) (i' : Nat)
    (h : fldKey f'.blk f' i' 0 ≠ fldKey f.blk f i 0) : getF (setF s f i v) f' i' = getF s f' i' :=
  rdF_wrF_key s _ f i 0 v _ f' i' 0 h

theorem getF_setF_apart (s : State) (f : Fld) (i v : Nat) (f' : Fld) (i' : Nat)
    (hw : f.lo + f.len ≤ 64) (h : f'.lo + f'.len ≤ f.lo ∨ f.lo + f.len ≤ f'.lo) : getF (setF s f i v) f' i' = getF s f' i' :=
  rdF_wrF_apart s _ f i 0 v _ f' i' 0 hw h

theorem getP_setP_same (s : State) (e : Eng) (f : Fld) (v : Nat) (hw : f.lo + f.len ≤ 64) :
    getP (setP s e f v) e f = v % 2 ^ f.len := rdF_wrF_same s _ f _ 0 v hw

theorem getG_setG_same (s : State) (e : Eng) (n : Nat) (v : DWord) : getG (setG s e n v) e n = v :=
  regGet_regSet_same s _ _

theorem getG_setG_other (s : State) (e : Eng) {n m : Nat} (v : DWord) (h : m ≠ n) : getG (setG s e n v) e m = getG s e m :=
  regGet_regSet_other _ _ (by unfold regKey; omega)

/-! Memory. -/

/-- A byte outside the bytes stored keeps its value. -/
theorem pokeBytes_other (bs : List PByte) : ∀ (m : SMap Byte) (a b : Nat), b < a ∨ a + bs.length ≤ b →
    mapGet (fun _ => 0) (pokeBytes m a bs) b = mapGet (fun _ => 0) m b := by
  induction bs with
  | nil => intros; rfl
  | cons x r ih =>
    intro m a b h
    rw [List.length_cons] at h
    rw [pokeBytes, ih _ _ _ (by omega), mapGet_mapSet_other _ _ _ _ _ (by omega)]

/-- The bytes stored are read back. -/
theorem pokeBytes_same (bs : List PByte) : ∀ (m : SMap Byte) (a i : Nat) (hi : i < bs.length),
    mapGet (fun _ => 0) (pokeBytes m a bs) (a + i) = bs[i].b := by
  induction bs with
  | nil => intro m a i hi; exact absurd hi (Nat.not_lt_zero _)
  | cons x r ih =>
    intro m a i hi
    rw [pokeBytes]
    cases i with
    | zero =>
      have e := pokeBytes_other r (mapSet (fun _ => 0) m a x.b) (a + 1) a (Or.inl (Nat.lt_succ_self a))
      rw [mapGet_mapSet_same] at e
      simpa using e
    | succ n =>
      have := ih (mapSet (fun _ => 0) m a x.b) (a + 1) n (by simpa using hi)
      rw [show a + (n + 1) = a + 1 + n by ring]
      exact this

/-- R127: a write stores its bytes, each at its address. -/
theorem memByte_writeBytes_same (s : State) (a : Nat) (bs : List PByte) (i : Nat) (hi : i < bs.length) :
    memByte (writeBytes s a bs) (a + i) = bs[i].b := by
  unfold writeBytes
  rw [if_neg (by cases bs with | nil => exact absurd hi (Nat.not_lt_zero _) | cons x r => simp)]
  exact pokeBytes_same bs _ _ _ hi

/-- R127: every other byte keeps its value. -/
theorem memByte_writeBytes_other (s : State) (a : Nat) (bs : List PByte) (b : Nat) (h : b < a ∨ a + bs.length ≤ b) :
    memByte (writeBytes s a bs) b = memByte s b := by
  unfold writeBytes
  split
  · rfl
  · exact pokeBytes_other bs _ _ _ h

/-- Zeroing gives 0 within its range and leaves the rest alone. -/
theorem memByte_zeroRange (s : State) (lo hi a : Nat) :
    memByte (zeroRange s lo hi) a = if lo ≤ a ∧ a < hi then 0 else memByte s a := by
  unfold memByte zeroRange
  rw [mapGet_mapDrop]
  by_cases hc : lo ≤ a ∧ a < hi <;> simp [hc]

end Sys2Proof.Laws
end

