-- ==== Sys2Proof/Laws/Program.lean ====
section
/-! SUPPORT. What the shared operations of engine programs do: frames from masks, the completion of an instruction, a fault. -/
namespace Sys2Proof.Laws
open Sys2Proof.Machine

/-- The frame that a mask gives. -/
theorem Moves.only {m : Nat} {s t : State} (h : Moves m s t) (ps : List Part)
    (hm : ∀ p, p ∉ ps → m.testBit (partBit p) = false) : Only ps s t := fun p hp => h.same p (hm p hp)

theorem only_of {m : Nat} {s t : State} (ps : List Part) (h : Moves m s t)
    (hm : ([.pending, .gsc, .freeCtr, .regs, .mem, .poison, .engines, .tiles, .ctxs, .mark, .snapNum, .snapWaits, .tmap, .ptile, .ramp,
      .hbmStacks, .lineQ, .folio, .touched, .flues, .router, .slots, .planned, .ces, .clock, .lend, .digest, .classRep, .classCmd, .perm,
      .migr, .test, .rotNext, .testDue, .bistDue, .push, .pushNode, .pushBad, .doms, .resetQ, .update, .staged, .checking, .fw, .images,
      .fuses, .ledger, .testset, .testbuf, .mrlog, .mrPend, .lifetime, .wear, .rails, .railBad, .energyRem, .warned, .timers,
      .statReset, .eb, .pins] : List Part).all (fun p => ps.contains p || !m.testBit (partBit p)) = true) : Only ps s t := by
  refine h.only ps fun p hp => ?_
  have := List.all_eq_true.mp hm p (by cases p <;> simp)
  simpa [List.contains_iff_mem, hp] using this

theorem only_refl (ps : List Part) (s : State) : Only ps s s := fun p _ => by cases p <;> rfl
theorem only_trans {ps : List Part} {s t u : State} (h : Only ps s t) (k : Only ps t u) : Only ps s u :=
  fun p hp => same_trans (h p hp) (k p hp)
theorem only_mono {ps qs : List Part} {s t : State} (h : Only ps s t) (hq : ∀ p ∈ ps, p ∈ qs) : Only qs s t :=
  fun p hp => h p (fun hx => hp (hq p hx))

theorem regs_trans {ks : List Nat} {s t u : State} (h : RegsBut ks s t) (k : RegsBut ks t u) : RegsBut ks s u :=
  fun x hx => (k x hx).trans (h x hx)
theorem regs_mono {ks ls : List Nat} {s t : State} (h : RegsBut ks s t) (hl : ∀ k ∈ ks, k ∈ ls) : RegsBut ls s t :=
  fun x hx => h x (fun hk => hx (hl x hk))
theorem regsBut_regSet (s : State) (k : Nat) (v : DWord) : RegsBut [k] s (regSet s k v) :=
  fun _ h => regGet_regSet_other s v (fun e => h (by simp [e]))
theorem regsBut_wrF (s : State) (b : Nat) (f : Fld) (i j v : Nat) : RegsBut [fldKey b f i j] s (wrF s b f i j v) := regsBut_regSet s _ _
theorem regsBut_of_regs {s t : State} (ks : List Nat) (h : t.regs = s.regs) : RegsBut ks s t := fun k _ => by simp only [regGet, h]

theorem canon_setEng {s : State} (h : Canon s) (e : Eng) (x : Engine) : Canon (setEng s e x) := (setEng_moves s e x).canon h
theorem canon_setTile {s : State} (h : Canon s) (p : Nat) (x : Tile) : Canon (setTile s p x) := (setTile_moves s p x).canon h
theorem canon_regSet {s : State} (h : Canon s) (k : Nat) (v : DWord) : Canon (regSet s k v) := (regSet_moves s k v).canon h
theorem canon_wrF {s : State} (h : Canon s) (b : Nat) (f : Fld) (i j v : Nat) : Canon (wrF s b f i j v) := canon_regSet h _ _

/-! Traces (R229, R230): the trace of the engine's tile and its head register, nothing else. -/

theorem traceEv_engines (s : State) (e : Eng) (t tag pc ev d) : (traceEv s e t tag pc ev d).engines = s.engines := by
  unfold traceEv
  cases e with
  | ce c => rfl
  | tile p k =>
    simp only
    split
    · split <;> rfl
    · rfl

@[simp] theorem getEng_traceEv (s : State) (e e' : Eng) (t tag pc ev d) : getEng (traceEv s e t tag pc ev d) e' = getEng s e' := by
  unfold getEng; rw [traceEv_engines]

theorem traceEv_regs (s : State) (e : Eng) (t tag pc ev d) : RegsBut (traceKeys e) s (traceEv s e t tag pc ev d) := by
  unfold traceEv
  cases e with
  | ce c => exact fun _ _ => rfl
  | tile p k =>
    simp only
    split
    · have h1 : ∀ (f : Tile → Tile) v, RegsBut (traceKeys (.tile p k)) s (setF (modTile s p.val f) TL_TRACE_HEAD_NEXT p.val v) :=
        fun f v => regs_trans (t := modTile s p.val f) (regsBut_of_regs _ rfl) (regsBut_wrF _ _ _ _ _ _)
      split
      · exact regs_trans (h1 _ _) (regsBut_wrF _ 2 TL_TRACE_HEAD_WRAP _ _ _)
      · exact h1 _ _
    · exact fun _ _ => rfl

theorem getTile_traceEv {s : State} (h : Canon s) (e : Eng) (t tag pc ev d) (p : Nat) :
    ∃ x, getTile (traceEv s e t tag pc ev d) p = { getTile s p with trace := x } := by
  unfold traceEv
  cases e with
  | ce c => exact ⟨_, rfl⟩
  | tile q k =>
    simp only
    split
    · have h1 : ∀ f : Tile → SMap (BitVec 128), ∃ x, getTile (modTile s q.val (fun y => { y with trace := f y })) p = { getTile s p with trace := x } := by
        intro f
        unfold modTile
        by_cases hp : p = q.val
        · subst hp; exact ⟨_, getTile_setTile_same _ _ _⟩
        · exact ⟨_, getTile_setTile_other s _ hp⟩
      split
      · simpa only [getTile_setF] using h1 _
      · simpa only [getTile_setF] using h1 _
    · exact ⟨_, rfl⟩

theorem canon_traceEv {s : State} (h : Canon s) (e : Eng) (t tag pc ev d) : Canon (traceEv s e t tag pc ev d) := (traceEv_moves ..).canon h

theorem only_traceEv (s : State) (e : Eng) (t tag pc ev d) : Only [.regs, .tiles] s (traceEv s e t tag pc ev d) :=
  only_of _ (traceEv_moves ..) (by decide)

@[simp] theorem isolated_traceEv (s : State) (e : Eng) (t tag pc ev d x) : isolated (traceEv s e t tag pc ev d) x = isolated s x := by
  have := only_traceEv s e t tag pc ev d .doms (by decide)
  simp only [Same] at this
  unfold isolated getDom; rw [this]

/-- The home of an engine reads one register and the tile map. -/
theorem homeOf_same {s t : State} (e : Eng) (hr : ∀ c : Fin 4, regGet t (fldKey 8 CE_CFG_HOME c 0) = regGet s (fldKey 8 CE_CFG_HOME c 0))
    (hm : t.tmap = s.tmap) : homeOf t e = homeOf s e := by
  cases e with
  | tile p k => rfl
  | ce c =>
    have : getF t CE_CFG_HOME c.val = getF s CE_CFG_HOME c.val := by
      simp only [getF, rdF, show CE_CFG_HOME.blk = 8 from rfl, hr c]
    simp only [homeOf, physOf, hm, this]

theorem home_not_trace (c : Fin 4) (e : Eng) : fldKey 8 CE_CFG_HOME c 0 ∉ traceKeys e := by
  cases e with
  | ce _ => simp [traceKeys]
  | tile p k =>
    have := p.isLt; have := c.isLt
    simp only [traceKeys, List.mem_singleton, fldKey, regKey, CE_CFG_HOME, TL_TRACE_HEAD_NEXT]
    omega

theorem home_not_g (c : Fin 4) (e : Eng) (n : Nat) (hn : n < 32) : fldKey 8 CE_CFG_HOME c 0 ≠ gKey e n := by
  have := c.isLt
  rcases e with ⟨p, k⟩ | d
  · have := p.isLt
    cases k <;> simp only [gKey, fldKey, regKey, CE_CFG_HOME, engBlk, engInst] <;> omega
  · have := d.isLt
    simp only [gKey, fldKey, regKey, CE_CFG_HOME, engBlk, engInst]; omega

/-! Signals and completions. -/

theorem signalDone_tile {s : State} (h : Canon s) (e : Eng) (w : IWord) (tag pc : Nat) :
    (∀ c p, iSig w = some c → homeOf s e = some p → isolated s p = false →
      getTile (signalDone s e (iSig w) tag pc) p = { getTile s p with pend := (getTile s p).pend ++ [⟨c, 1, .instr e tag pc⟩] })
    ∧ (∀ p, iSig w = none ∨ homeOf s e ≠ some p → getTile (signalDone s e (iSig w) tag pc) p = getTile s p)
    ∧ (∀ p, ∃ x, getTile (signalDone s e (iSig w) tag pc) p = { getTile s p with pend := x }) := by
  unfold signalDone
  refine ⟨?_, ?_, ?_⟩
  · intro c p hc hp hi
    rw [hc, hp]
    simp only [addIncr, hi, Bool.false_eq_true, if_false]
    exact getTile_setTile_same _ _ _
  · rintro p (hc | hp)
    · rw [hc]
    · split
      · rename_i c q hq h1
        unfold addIncr
        split
        · rfl
        · exact getTile_setTile_other s _ (by rintro rfl; exact hp h1)
      · rfl
  · intro p
    split
    · rename_i c q hq h1
      unfold addIncr
      split
      · exact ⟨_, rfl⟩
      · by_cases hp : p = q
        · subst hp; exact ⟨_, getTile_setTile_same _ _ _⟩
        · exact ⟨_, getTile_setTile_other s _ hp⟩
    · exact ⟨_, rfl⟩

theorem signalDone_engines (s : State) (e : Eng) (c tag pc) : (signalDone s e c tag pc).engines = s.engines := by
  unfold signalDone; split
  · unfold addIncr; split <;> rfl
  · rfl

theorem signalDone_regs (s : State) (e : Eng) (c tag pc) : (signalDone s e c tag pc).regs = s.regs := by
  unfold signalDone; split
  · unfold addIncr; split <;> rfl
  · rfl

/-- R201, R208: the front instruction of an engine leaves its queue, and completes. -/
theorem finishFront_retires {s : State} (h : Canon s) (e : Eng) (q : QEntry) (hv : iV q.word = false) :
    Retires s (finishFront s e q) e q [] := by
  have h0 : Canon (popFront s e) := canon_setEng h e _
  obtain ⟨a1, ha1⟩ : ∃ a, traceEv (popFront s e) e (iT q.word) (iTag q.word) q.idx 2 0 = a := ⟨_, rfl⟩
  obtain ⟨a2, ha2⟩ : ∃ a, traceEv a1 e (iT q.word) (iTag q.word) q.idx 3 0 = a := ⟨_, rfl⟩
  have h1 : Canon a1 := ha1 ▸ canon_traceEv h0 ..
  have h2 : Canon a2 := ha2 ▸ canon_traceEv h1 ..
  have e12 : ∀ e', getEng a2 e' = getEng (popFront s e) e' := fun e' => by rw [← ha2, getEng_traceEv, ← ha1, getEng_traceEv]
  have r12 : RegsBut (traceKeys e) s a2 := by
    refine regs_trans (t := a1) (regs_trans (regsBut_of_regs (t := popFront s e) _ rfl) ?_) ?_
    · rw [← ha1]; exact traceEv_regs _ _ _ _ _ _ _
    · rw [← ha2]; exact traceEv_regs _ _ _ _ _ _ _
  have t12 : ∀ p, ∃ x, getTile a2 p = { getTile s p with trace := x } := by
    intro p
    obtain ⟨x, hx⟩ := getTile_traceEv h0 e (iT q.word) (iTag q.word) q.idx 2 0 p
    obtain ⟨y, hy⟩ := getTile_traceEv h1 e (iT q.word) (iTag q.word) q.idx 3 0 p
    rw [ha1] at hx; rw [ha2, hx] at hy
    exact ⟨y, by rw [hy]; rfl⟩
  have o12 : Only [.regs, .engines, .tiles] s a2 := by
    refine only_trans (t := popFront s e) (only_of _ (popFront_moves ..) (by decide)) (only_trans (t := a1) ?_ ?_)
    · rw [← ha1]; exact only_mono (only_traceEv _ _ _ _ _ _ _) (by decide)
    · rw [← ha2]; exact only_mono (only_traceEv _ _ _ _ _ _ _) (by decide)
  have hm : homeOf a2 e = homeOf s e := homeOf_same e (fun c => r12 _ (home_not_trace c e)) (o12 .tmap (by decide)).symm
  have hd : ∀ p, isolated a2 p = isolated s p := fun p => by
    have := o12 .doms (by decide); simp only [Same] at this; unfold isolated getDom; rw [this]
  have ef : finishFront s e q = signalDone a2 e (iSig q.word) (iTag q.word) q.idx := by
    unfold finishFront completeDone doneOf; simp only [hv, Bool.false_eq_true, if_false, ha1, ha2]
  obtain ⟨s1, s2, s3⟩ := signalDone_tile h2 e q.word (iTag q.word) q.idx
  rw [ef]
  have ge : ∀ e', getEng (signalDone a2 e (iSig q.word) (iTag q.word) q.idx) e' = getEng (popFront s e) e' := fun e' => by
    rw [← e12 e']; unfold getEng; rw [signalDone_engines]
  have gs : getEng (popFront s e) e = { getEng s e with queue := (getEng s e).queue.drop 1, since := s.gsc } := getEng_setEng_same _ e _
  refine ⟨by rw [ge, gs], by rw [ge, gs], ⟨?_, ?_⟩, ?_, ?_, ?_, ?_⟩
  · intro c p hc hp hi
    obtain ⟨x, hx⟩ := t12 p
    rw [s1 c p hc (hm.trans hp) ((hd p).trans hi), hx]
  · intro p hp
    obtain ⟨x, hx⟩ := t12 p
    rw [s2 p (by rw [hm]; exact hp), hx]
  · rw [List.nil_append]
    exact regs_trans r12 (regsBut_of_regs _ (signalDone_regs ..))
  · intro e' he
    rw [ge]; exact getEng_setEng_other s _ (by simpa using he)
  · intro p
    obtain ⟨x, hx⟩ := t12 p
    obtain ⟨y, hy⟩ := s3 p
    rw [hy, hx]
  · exact only_trans o12 (only_mono (only_of [.tiles] (signalDone_moves ..) (by decide)) (by decide))

/-- A register written just before the completion. -/
theorem retires_regSet {s : State} (h : Canon s) (e : Eng) (q : QEntry) (hv : iV q.word = false) (k : Nat) (v : DWord)
    (hk : ∀ c : Fin 4, fldKey 8 CE_CFG_HOME c 0 ≠ k) : Retires s (finishFront (regSet s k v) e q) e q [k] := by
  have r := finishFront_retires (canon_regSet h k v) e q hv
  have hm : homeOf (regSet s k v) e = homeOf s e := homeOf_same e (fun c => regGet_regSet_other s v (hk c)) rfl
  refine ⟨r.queue, r.going, ⟨fun c p hc hp hi => r.signal.1 c p hc (hm.trans hp) hi, fun p hp => r.signal.2 p (by rw [hm]; exact hp)⟩, ?_,
    fun e' he => r.others e' he, r.tiles, only_trans (only_mono (only_of [.regs] (regSet_moves s k v) (by decide)) (by decide)) r.frame⟩
  exact regs_trans (regs_mono (regsBut_regSet s k v) (by simp)) (regs_mono r.regs (fun x hx => List.mem_append_right _ (by simpa using hx)))

/-- An instruction that is ready runs its body. -/
theorem runCtl_ready {s : State} {e : Eng} {cls op : Nat} {rsv} {q : QEntry} (h : ReadyCtl s e cls op rsv q) (body) :
    runCtl s e cls op rsv body = body s q := by
  obtain ⟨⟨hf, hg, hz, hw⟩, hv⟩ := h
  unfold runCtl
  rw [hf]
  simp only [hv, hg, hz, Bool.or_false, Bool.false_eq_true, if_false]
  have : takeW s e q = (s, true) := by
    unfold takeW
    rcases hw with h | h <;> simp [h]
  rw [this]

end Sys2Proof.Laws
end

