-- ==== Sys2Proof/Laws/State.lean ====
section
/-! SUPPORT. What each named update of the state leaves alone: one lemma for each field and each update of Machine/Ops.lean, true by
rfl, so that no later proof unfolds an update. The laws of what an update does write stand in Laws/Ops.lean. -/
namespace Sys2Proof.Laws
open Sys2Proof.Machine

@[simp] theorem regSet_pending (s k v) : (regSet s k v).pending = s.pending := rfl
@[simp] theorem regSet_gsc (s k v) : (regSet s k v).gsc = s.gsc := rfl
@[simp] theorem regSet_freeCtr (s k v) : (regSet s k v).freeCtr = s.freeCtr := rfl
@[simp] theorem regSet_mem (s k v) : (regSet s k v).mem = s.mem := rfl
@[simp] theorem regSet_poison (s k v) : (regSet s k v).poison = s.poison := rfl
@[simp] theorem regSet_engines (s k v) : (regSet s k v).engines = s.engines := rfl
@[simp] theorem regSet_tiles (s k v) : (regSet s k v).tiles = s.tiles := rfl
@[simp] theorem regSet_ctxs (s k v) : (regSet s k v).ctxs = s.ctxs := rfl
@[simp] theorem regSet_mark (s k v) : (regSet s k v).mark = s.mark := rfl
@[simp] theorem regSet_snapNum (s k v) : (regSet s k v).snapNum = s.snapNum := rfl
@[simp] theorem regSet_snapWaits (s k v) : (regSet s k v).snapWaits = s.snapWaits := rfl
@[simp] theorem regSet_tmap (s k v) : (regSet s k v).tmap = s.tmap := rfl
@[simp] theorem regSet_ptile (s k v) : (regSet s k v).ptile = s.ptile := rfl
@[simp] theorem regSet_ramp (s k v) : (regSet s k v).ramp = s.ramp := rfl
@[simp] theorem regSet_hbmStacks (s k v) : (regSet s k v).hbmStacks = s.hbmStacks := rfl
@[simp] theorem regSet_lineQ (s k v) : (regSet s k v).lineQ = s.lineQ := rfl
@[simp] theorem regSet_folio (s k v) : (regSet s k v).folio = s.folio := rfl
@[simp] theorem regSet_touched (s k v) : (regSet s k v).touched = s.touched := rfl
@[simp] theorem regSet_flues (s k v) : (regSet s k v).flues = s.flues := rfl
@[simp] theorem regSet_router (s k v) : (regSet s k v).router = s.router := rfl
@[simp] theorem regSet_slots (s k v) : (regSet s k v).slots = s.slots := rfl
@[simp] theorem regSet_planned (s k v) : (regSet s k v).planned = s.planned := rfl
@[simp] theorem regSet_ces (s k v) : (regSet s k v).ces = s.ces := rfl
@[simp] theorem regSet_clock (s k v) : (regSet s k v).clock = s.clock := rfl
@[simp] theorem regSet_lend (s k v) : (regSet s k v).lend = s.lend := rfl
@[simp] theorem regSet_digest (s k v) : (regSet s k v).digest = s.digest := rfl
@[simp] theorem regSet_classRep (s k v) : (regSet s k v).classRep = s.classRep := rfl
@[simp] theorem regSet_classCmd (s k v) : (regSet s k v).classCmd = s.classCmd := rfl
@[simp] theorem regSet_perm (s k v) : (regSet s k v).perm = s.perm := rfl
@[simp] theorem regSet_migr (s k v) : (regSet s k v).migr = s.migr := rfl
@[simp] theorem regSet_test (s k v) : (regSet s k v).test = s.test := rfl
@[simp] theorem regSet_rotNext (s k v) : (regSet s k v).rotNext = s.rotNext := rfl
@[simp] theorem regSet_testDue (s k v) : (regSet s k v).testDue = s.testDue := rfl
@[simp] theorem regSet_bistDue (s k v) : (regSet s k v).bistDue = s.bistDue := rfl
@[simp] theorem regSet_push (s k v) : (regSet s k v).push = s.push := rfl
@[simp] theorem regSet_pushNode (s k v) : (regSet s k v).pushNode = s.pushNode := rfl
@[simp] theorem regSet_pushBad (s k v) : (regSet s k v).pushBad = s.pushBad := rfl
@[simp] theorem regSet_doms (s k v) : (regSet s k v).doms = s.doms := rfl
@[simp] theorem regSet_resetQ (s k v) : (regSet s k v).resetQ = s.resetQ := rfl
@[simp] theorem regSet_update (s k v) : (regSet s k v).update = s.update := rfl
@[simp] theorem regSet_staged (s k v) : (regSet s k v).staged = s.staged := rfl
@[simp] theorem regSet_checking (s k v) : (regSet s k v).checking = s.checking := rfl
@[simp] theorem regSet_fw (s k v) : (regSet s k v).fw = s.fw := rfl
@[simp] theorem regSet_images (s k v) : (regSet s k v).images = s.images := rfl
@[simp] theorem regSet_fuses (s k v) : (regSet s k v).fuses = s.fuses := rfl
@[simp] theorem regSet_ledger (s k v) : (regSet s k v).ledger = s.ledger := rfl
@[simp] theorem regSet_testset (s k v) : (regSet s k v).testset = s.testset := rfl
@[simp] theorem regSet_testbuf (s k v) : (regSet s k v).testbuf = s.testbuf := rfl
@[simp] theorem regSet_mrlog (s k v) : (regSet s k v).mrlog = s.mrlog := rfl
@[simp] theorem regSet_mrPend (s k v) : (regSet s k v).mrPend = s.mrPend := rfl
@[simp] theorem regSet_lifetime (s k v) : (regSet s k v).lifetime = s.lifetime := rfl
@[simp] theorem regSet_wear (s k v) : (regSet s k v).wear = s.wear := rfl
@[simp] theorem regSet_rails (s k v) : (regSet s k v).rails = s.rails := rfl
@[simp] theorem regSet_railBad (s k v) : (regSet s k v).railBad = s.railBad := rfl
@[simp] theorem regSet_energyRem (s k v) : (regSet s k v).energyRem = s.energyRem := rfl
@[simp] theorem regSet_warned (s k v) : (regSet s k v).warned = s.warned := rfl
@[simp] theorem regSet_timers (s k v) : (regSet s k v).timers = s.timers := rfl
@[simp] theorem regSet_statReset (s k v) : (regSet s k v).statReset = s.statReset := rfl
@[simp] theorem regSet_eb (s k v) : (regSet s k v).eb = s.eb := rfl
@[simp] theorem regSet_pins (s k v) : (regSet s k v).pins = s.pins := rfl

@[simp] theorem wrF_pending (s b f i j v) : (wrF s b f i j v).pending = s.pending := rfl
@[simp] theorem wrF_gsc (s b f i j v) : (wrF s b f i j v).gsc = s.gsc := rfl
@[simp] theorem wrF_freeCtr (s b f i j v) : (wrF s b f i j v).freeCtr = s.freeCtr := rfl
@[simp] theorem wrF_mem (s b f i j v) : (wrF s b f i j v).mem = s.mem := rfl
@[simp] theorem wrF_poison (s b f i j v) : (wrF s b f i j v).poison = s.poison := rfl
@[simp] theorem wrF_engines (s b f i j v) : (wrF s b f i j v).engines = s.engines := rfl
@[simp] theorem wrF_tiles (s b f i j v) : (wrF s b f i j v).tiles = s.tiles := rfl
@[simp] theorem wrF_ctxs (s b f i j v) : (wrF s b f i j v).ctxs = s.ctxs := rfl
@[simp] theorem wrF_mark (s b f i j v) : (wrF s b f i j v).mark = s.mark := rfl
@[simp] theorem wrF_snapNum (s b f i j v) : (wrF s b f i j v).snapNum = s.snapNum := rfl
@[simp] theorem wrF_snapWaits (s b f i j v) : (wrF s b f i j v).snapWaits = s.snapWaits := rfl
@[simp] theorem wrF_tmap (s b f i j v) : (wrF s b f i j v).tmap = s.tmap := rfl
@[simp] theorem wrF_ptile (s b f i j v) : (wrF s b f i j v).ptile = s.ptile := rfl
@[simp] theorem wrF_ramp (s b f i j v) : (wrF s b f i j v).ramp = s.ramp := rfl
@[simp] theorem wrF_hbmStacks (s b f i j v) : (wrF s b f i j v).hbmStacks = s.hbmStacks := rfl
@[simp] theorem wrF_lineQ (s b f i j v) : (wrF s b f i j v).lineQ = s.lineQ := rfl
@[simp] theorem wrF_folio (s b f i j v) : (wrF s b f i j v).folio = s.folio := rfl
@[simp] theorem wrF_touched (s b f i j v) : (wrF s b f i j v).touched = s.touched := rfl
@[simp] theorem wrF_flues (s b f i j v) : (wrF s b f i j v).flues = s.flues := rfl
@[simp] theorem wrF_router (s b f i j v) : (wrF s b f i j v).router = s.router := rfl
@[simp] theorem wrF_slots (s b f i j v) : (wrF s b f i j v).slots = s.slots := rfl
@[simp] theorem wrF_planned (s b f i j v) : (wrF s b f i j v).planned = s.planned := rfl
@[simp] theorem wrF_ces (s b f i j v) : (wrF s b f i j v).ces = s.ces := rfl
@[simp] theorem wrF_clock (s b f i j v) : (wrF s b f i j v).clock = s.clock := rfl
@[simp] theorem wrF_lend (s b f i j v) : (wrF s b f i j v).lend = s.lend := rfl
@[simp] theorem wrF_digest (s b f i j v) : (wrF s b f i j v).digest = s.digest := rfl
@[simp] theorem wrF_classRep (s b f i j v) : (wrF s b f i j v).classRep = s.classRep := rfl
@[simp] theorem wrF_classCmd (s b f i j v) : (wrF s b f i j v).classCmd = s.classCmd := rfl
@[simp] theorem wrF_perm (s b f i j v) : (wrF s b f i j v).perm = s.perm := rfl
@[simp] theorem wrF_migr (s b f i j v) : (wrF s b f i j v).migr = s.migr := rfl
@[simp] theorem wrF_test (s b f i j v) : (wrF s b f i j v).test = s.test := rfl
@[simp] theorem wrF_rotNext (s b f i j v) : (wrF s b f i j v).rotNext = s.rotNext := rfl
@[simp] theorem wrF_testDue (s b f i j v) : (wrF s b f i j v).testDue = s.testDue := rfl
@[simp] theorem wrF_bistDue (s b f i j v) : (wrF s b f i j v).bistDue = s.bistDue := rfl
@[simp] theorem wrF_push (s b f i j v) : (wrF s b f i j v).push = s.push := rfl
@[simp] theorem wrF_pushNode (s b f i j v) : (wrF s b f i j v).pushNode = s.pushNode := rfl
@[simp] theorem wrF_pushBad (s b f i j v) : (wrF s b f i j v).pushBad = s.pushBad := rfl
@[simp] theorem wrF_doms (s b f i j v) : (wrF s b f i j v).doms = s.doms := rfl
@[simp] theorem wrF_resetQ (s b f i j v) : (wrF s b f i j v).resetQ = s.resetQ := rfl
@[simp] theorem wrF_update (s b f i j v) : (wrF s b f i j v).update = s.update := rfl
@[simp] theorem wrF_staged (s b f i j v) : (wrF s b f i j v).staged = s.staged := rfl
@[simp] theorem wrF_checking (s b f i j v) : (wrF s b f i j v).checking = s.checking := rfl
@[simp] theorem wrF_fw (s b f i j v) : (wrF s b f i j v).fw = s.fw := rfl
@[simp] theorem wrF_images (s b f i j v) : (wrF s b f i j v).images = s.images := rfl
@[simp] theorem wrF_fuses (s b f i j v) : (wrF s b f i j v).fuses = s.fuses := rfl
@[simp] theorem wrF_ledger (s b f i j v) : (wrF s b f i j v).ledger = s.ledger := rfl
@[simp] theorem wrF_testset (s b f i j v) : (wrF s b f i j v).testset = s.testset := rfl
@[simp] theorem wrF_testbuf (s b f i j v) : (wrF s b f i j v).testbuf = s.testbuf := rfl
@[simp] theorem wrF_mrlog (s b f i j v) : (wrF s b f i j v).mrlog = s.mrlog := rfl
@[simp] theorem wrF_mrPend (s b f i j v) : (wrF s b f i j v).mrPend = s.mrPend := rfl
@[simp] theorem wrF_lifetime (s b f i j v) : (wrF s b f i j v).lifetime = s.lifetime := rfl
@[simp] theorem wrF_wear (s b f i j v) : (wrF s b f i j v).wear = s.wear := rfl
@[simp] theorem wrF_rails (s b f i j v) : (wrF s b f i j v).rails = s.rails := rfl
@[simp] theorem wrF_railBad (s b f i j v) : (wrF s b f i j v).railBad = s.railBad := rfl
@[simp] theorem wrF_energyRem (s b f i j v) : (wrF s b f i j v).energyRem = s.energyRem := rfl
@[simp] theorem wrF_warned (s b f i j v) : (wrF s b f i j v).warned = s.warned := rfl
@[simp] theorem wrF_timers (s b f i j v) : (wrF s b f i j v).timers = s.timers := rfl
@[simp] theorem wrF_statReset (s b f i j v) : (wrF s b f i j v).statReset = s.statReset := rfl
@[simp] theorem wrF_eb (s b f i j v) : (wrF s b f i j v).eb = s.eb := rfl
@[simp] theorem wrF_pins (s b f i j v) : (wrF s b f i j v).pins = s.pins := rfl

@[simp] theorem setF_pending (s f i v) : (setF s f i v).pending = s.pending := rfl
@[simp] theorem setF_gsc (s f i v) : (setF s f i v).gsc = s.gsc := rfl
@[simp] theorem setF_freeCtr (s f i v) : (setF s f i v).freeCtr = s.freeCtr := rfl
@[simp] theorem setF_mem (s f i v) : (setF s f i v).mem = s.mem := rfl
@[simp] theorem setF_poison (s f i v) : (setF s f i v).poison = s.poison := rfl
@[simp] theorem setF_engines (s f i v) : (setF s f i v).engines = s.engines := rfl
@[simp] theorem setF_tiles (s f i v) : (setF s f i v).tiles = s.tiles := rfl
@[simp] theorem setF_ctxs (s f i v) : (setF s f i v).ctxs = s.ctxs := rfl
@[simp] theorem setF_mark (s f i v) : (setF s f i v).mark = s.mark := rfl
@[simp] theorem setF_snapNum (s f i v) : (setF s f i v).snapNum = s.snapNum := rfl
@[simp] theorem setF_snapWaits (s f i v) : (setF s f i v).snapWaits = s.snapWaits := rfl
@[simp] theorem setF_tmap (s f i v) : (setF s f i v).tmap = s.tmap := rfl
@[simp] theorem setF_ptile (s f i v) : (setF s f i v).ptile = s.ptile := rfl
@[simp] theorem setF_ramp (s f i v) : (setF s f i v).ramp = s.ramp := rfl
@[simp] theorem setF_hbmStacks (s f i v) : (setF s f i v).hbmStacks = s.hbmStacks := rfl
@[simp] theorem setF_lineQ (s f i v) : (setF s f i v).lineQ = s.lineQ := rfl
@[simp] theorem setF_folio (s f i v) : (setF s f i v).folio = s.folio := rfl
@[simp] theorem setF_touched (s f i v) : (setF s f i v).touched = s.touched := rfl
@[simp] theorem setF_flues (s f i v) : (setF s f i v).flues = s.flues := rfl
@[simp] theorem setF_router (s f i v) : (setF s f i v).router = s.router := rfl
@[simp] theorem setF_slots (s f i v) : (setF s f i v).slots = s.slots := rfl
@[simp] theorem setF_planned (s f i v) : (setF s f i v).planned = s.planned := rfl
@[simp] theorem setF_ces (s f i v) : (setF s f i v).ces = s.ces := rfl
@[simp] theorem setF_clock (s f i v) : (setF s f i v).clock = s.clock := rfl
@[simp] theorem setF_lend (s f i v) : (setF s f i v).lend = s.lend := rfl
@[simp] theorem setF_digest (s f i v) : (setF s f i v).digest = s.digest := rfl
@[simp] theorem setF_classRep (s f i v) : (setF s f i v).classRep = s.classRep := rfl
@[simp] theorem setF_classCmd (s f i v) : (setF s f i v).classCmd = s.classCmd := rfl
@[simp] theorem setF_perm (s f i v) : (setF s f i v).perm = s.perm := rfl
@[simp] theorem setF_migr (s f i v) : (setF s f i v).migr = s.migr := rfl
@[simp] theorem setF_test (s f i v) : (setF s f i v).test = s.test := rfl
@[simp] theorem setF_rotNext (s f i v) : (setF s f i v).rotNext = s.rotNext := rfl
@[simp] theorem setF_testDue (s f i v) : (setF s f i v).testDue = s.testDue := rfl
@[simp] theorem setF_bistDue (s f i v) : (setF s f i v).bistDue = s.bistDue := rfl
@[simp] theorem setF_push (s f i v) : (setF s f i v).push = s.push := rfl
@[simp] theorem setF_pushNode (s f i v) : (setF s f i v).pushNode = s.pushNode := rfl
@[simp] theorem setF_pushBad (s f i v) : (setF s f i v).pushBad = s.pushBad := rfl
@[simp] theorem setF_doms (s f i v) : (setF s f i v).doms = s.doms := rfl
@[simp] theorem setF_resetQ (s f i v) : (setF s f i v).resetQ = s.resetQ := rfl
@[simp] theorem setF_update (s f i v) : (setF s f i v).update = s.update := rfl
@[simp] theorem setF_staged (s f i v) : (setF s f i v).staged = s.staged := rfl
@[simp] theorem setF_checking (s f i v) : (setF s f i v).checking = s.checking := rfl
@[simp] theorem setF_fw (s f i v) : (setF s f i v).fw = s.fw := rfl
@[simp] theorem setF_images (s f i v) : (setF s f i v).images = s.images := rfl
@[simp] theorem setF_fuses (s f i v) : (setF s f i v).fuses = s.fuses := rfl
@[simp] theorem setF_ledger (s f i v) : (setF s f i v).ledger = s.ledger := rfl
@[simp] theorem setF_testset (s f i v) : (setF s f i v).testset = s.testset := rfl
@[simp] theorem setF_testbuf (s f i v) : (setF s f i v).testbuf = s.testbuf := rfl
@[simp] theorem setF_mrlog (s f i v) : (setF s f i v).mrlog = s.mrlog := rfl
@[simp] theorem setF_mrPend (s f i v) : (setF s f i v).mrPend = s.mrPend := rfl
@[simp] theorem setF_lifetime (s f i v) : (setF s f i v).lifetime = s.lifetime := rfl
@[simp] theorem setF_wear (s f i v) : (setF s f i v).wear = s.wear := rfl
@[simp] theorem setF_rails (s f i v) : (setF s f i v).rails = s.rails := rfl
@[simp] theorem setF_railBad (s f i v) : (setF s f i v).railBad = s.railBad := rfl
@[simp] theorem setF_energyRem (s f i v) : (setF s f i v).energyRem = s.energyRem := rfl
@[simp] theorem setF_warned (s f i v) : (setF s f i v).warned = s.warned := rfl
@[simp] theorem setF_timers (s f i v) : (setF s f i v).timers = s.timers := rfl
@[simp] theorem setF_statReset (s f i v) : (setF s f i v).statReset = s.statReset := rfl
@[simp] theorem setF_eb (s f i v) : (setF s f i v).eb = s.eb := rfl
@[simp] theorem setF_pins (s f i v) : (setF s f i v).pins = s.pins := rfl

@[simp] theorem setFi_pending (s f i j v) : (setFi s f i j v).pending = s.pending := rfl
@[simp] theorem setFi_gsc (s f i j v) : (setFi s f i j v).gsc = s.gsc := rfl
@[simp] theorem setFi_freeCtr (s f i j v) : (setFi s f i j v).freeCtr = s.freeCtr := rfl
@[simp] theorem setFi_mem (s f i j v) : (setFi s f i j v).mem = s.mem := rfl
@[simp] theorem setFi_poison (s f i j v) : (setFi s f i j v).poison = s.poison := rfl
@[simp] theorem setFi_engines (s f i j v) : (setFi s f i j v).engines = s.engines := rfl
@[simp] theorem setFi_tiles (s f i j v) : (setFi s f i j v).tiles = s.tiles := rfl
@[simp] theorem setFi_ctxs (s f i j v) : (setFi s f i j v).ctxs = s.ctxs := rfl
@[simp] theorem setFi_mark (s f i j v) : (setFi s f i j v).mark = s.mark := rfl
@[simp] theorem setFi_snapNum (s f i j v) : (setFi s f i j v).snapNum = s.snapNum := rfl
@[simp] theorem setFi_snapWaits (s f i j v) : (setFi s f i j v).snapWaits = s.snapWaits := rfl
@[simp] theorem setFi_tmap (s f i j v) : (setFi s f i j v).tmap = s.tmap := rfl
@[simp] theorem setFi_ptile (s f i j v) : (setFi s f i j v).ptile = s.ptile := rfl
@[simp] theorem setFi_ramp (s f i j v) : (setFi s f i j v).ramp = s.ramp := rfl
@[simp] theorem setFi_hbmStacks (s f i j v) : (setFi s f i j v).hbmStacks = s.hbmStacks := rfl
@[simp] theorem setFi_lineQ (s f i j v) : (setFi s f i j v).lineQ = s.lineQ := rfl
@[simp] theorem setFi_folio (s f i j v) : (setFi s f i j v).folio = s.folio := rfl
@[simp] theorem setFi_touched (s f i j v) : (setFi s f i j v).touched = s.touched := rfl
@[simp] theorem setFi_flues (s f i j v) : (setFi s f i j v).flues = s.flues := rfl
@[simp] theorem setFi_router (s f i j v) : (setFi s f i j v).router = s.router := rfl
@[simp] theorem setFi_slots (s f i j v) : (setFi s f i j v).slots = s.slots := rfl
@[simp] theorem setFi_planned (s f i j v) : (setFi s f i j v).planned = s.planned := rfl
@[simp] theorem setFi_ces (s f i j v) : (setFi s f i j v).ces = s.ces := rfl
@[simp] theorem setFi_clock (s f i j v) : (setFi s f i j v).clock = s.clock := rfl
@[simp] theorem setFi_lend (s f i j v) : (setFi s f i j v).lend = s.lend := rfl
@[simp] theorem setFi_digest (s f i j v) : (setFi s f i j v).digest = s.digest := rfl
@[simp] theorem setFi_classRep (s f i j v) : (setFi s f i j v).classRep = s.classRep := rfl
@[simp] theorem setFi_classCmd (s f i j v) : (setFi s f i j v).classCmd = s.classCmd := rfl
@[simp] theorem setFi_perm (s f i j v) : (setFi s f i j v).perm = s.perm := rfl
@[simp] theorem setFi_migr (s f i j v) : (setFi s f i j v).migr = s.migr := rfl
@[simp] theorem setFi_test (s f i j v) : (setFi s f i j v).test = s.test := rfl
@[simp] theorem setFi_rotNext (s f i j v) : (setFi s f i j v).rotNext = s.rotNext := rfl
@[simp] theorem setFi_testDue (s f i j v) : (setFi s f i j v).testDue = s.testDue := rfl
@[simp] theorem setFi_bistDue (s f i j v) : (setFi s f i j v).bistDue = s.bistDue := rfl
@[simp] theorem setFi_push (s f i j v) : (setFi s f i j v).push = s.push := rfl
@[simp] theorem setFi_pushNode (s f i j v) : (setFi s f i j v).pushNode = s.pushNode := rfl
@[simp] theorem setFi_pushBad (s f i j v) : (setFi s f i j v).pushBad = s.pushBad := rfl
@[simp] theorem setFi_doms (s f i j v) : (setFi s f i j v).doms = s.doms := rfl
@[simp] theorem setFi_resetQ (s f i j v) : (setFi s f i j v).resetQ = s.resetQ := rfl
@[simp] theorem setFi_update (s f i j v) : (setFi s f i j v).update = s.update := rfl
@[simp] theorem setFi_staged (s f i j v) : (setFi s f i j v).staged = s.staged := rfl
@[simp] theorem setFi_checking (s f i j v) : (setFi s f i j v).checking = s.checking := rfl
@[simp] theorem setFi_fw (s f i j v) : (setFi s f i j v).fw = s.fw := rfl
@[simp] theorem setFi_images (s f i j v) : (setFi s f i j v).images = s.images := rfl
@[simp] theorem setFi_fuses (s f i j v) : (setFi s f i j v).fuses = s.fuses := rfl
@[simp] theorem setFi_ledger (s f i j v) : (setFi s f i j v).ledger = s.ledger := rfl
@[simp] theorem setFi_testset (s f i j v) : (setFi s f i j v).testset = s.testset := rfl
@[simp] theorem setFi_testbuf (s f i j v) : (setFi s f i j v).testbuf = s.testbuf := rfl
@[simp] theorem setFi_mrlog (s f i j v) : (setFi s f i j v).mrlog = s.mrlog := rfl
@[simp] theorem setFi_mrPend (s f i j v) : (setFi s f i j v).mrPend = s.mrPend := rfl
@[simp] theorem setFi_lifetime (s f i j v) : (setFi s f i j v).lifetime = s.lifetime := rfl
@[simp] theorem setFi_wear (s f i j v) : (setFi s f i j v).wear = s.wear := rfl
@[simp] theorem setFi_rails (s f i j v) : (setFi s f i j v).rails = s.rails := rfl
@[simp] theorem setFi_railBad (s f i j v) : (setFi s f i j v).railBad = s.railBad := rfl
@[simp] theorem setFi_energyRem (s f i j v) : (setFi s f i j v).energyRem = s.energyRem := rfl
@[simp] theorem setFi_warned (s f i j v) : (setFi s f i j v).warned = s.warned := rfl
@[simp] theorem setFi_timers (s f i j v) : (setFi s f i j v).timers = s.timers := rfl
@[simp] theorem setFi_statReset (s f i j v) : (setFi s f i j v).statReset = s.statReset := rfl
@[simp] theorem setFi_eb (s f i j v) : (setFi s f i j v).eb = s.eb := rfl
@[simp] theorem setFi_pins (s f i j v) : (setFi s f i j v).pins = s.pins := rfl

@[simp] theorem addF_pending (s f i n) : (addF s f i n).pending = s.pending := rfl
@[simp] theorem addF_gsc (s f i n) : (addF s f i n).gsc = s.gsc := rfl
@[simp] theorem addF_freeCtr (s f i n) : (addF s f i n).freeCtr = s.freeCtr := rfl
@[simp] theorem addF_mem (s f i n) : (addF s f i n).mem = s.mem := rfl
@[simp] theorem addF_poison (s f i n) : (addF s f i n).poison = s.poison := rfl
@[simp] theorem addF_engines (s f i n) : (addF s f i n).engines = s.engines := rfl
@[simp] theorem addF_tiles (s f i n) : (addF s f i n).tiles = s.tiles := rfl
@[simp] theorem addF_ctxs (s f i n) : (addF s f i n).ctxs = s.ctxs := rfl
@[simp] theorem addF_mark (s f i n) : (addF s f i n).mark = s.mark := rfl
@[simp] theorem addF_snapNum (s f i n) : (addF s f i n).snapNum = s.snapNum := rfl
@[simp] theorem addF_snapWaits (s f i n) : (addF s f i n).snapWaits = s.snapWaits := rfl
@[simp] theorem addF_tmap (s f i n) : (addF s f i n).tmap = s.tmap := rfl
@[simp] theorem addF_ptile (s f i n) : (addF s f i n).ptile = s.ptile := rfl
@[simp] theorem addF_ramp (s f i n) : (addF s f i n).ramp = s.ramp := rfl
@[simp] theorem addF_hbmStacks (s f i n) : (addF s f i n).hbmStacks = s.hbmStacks := rfl
@[simp] theorem addF_lineQ (s f i n) : (addF s f i n).lineQ = s.lineQ := rfl
@[simp] theorem addF_folio (s f i n) : (addF s f i n).folio = s.folio := rfl
@[simp] theorem addF_touched (s f i n) : (addF s f i n).touched = s.touched := rfl
@[simp] theorem addF_flues (s f i n) : (addF s f i n).flues = s.flues := rfl
@[simp] theorem addF_router (s f i n) : (addF s f i n).router = s.router := rfl
@[simp] theorem addF_slots (s f i n) : (addF s f i n).slots = s.slots := rfl
@[simp] theorem addF_planned (s f i n) : (addF s f i n).planned = s.planned := rfl
@[simp] theorem addF_ces (s f i n) : (addF s f i n).ces = s.ces := rfl
@[simp] theorem addF_clock (s f i n) : (addF s f i n).clock = s.clock := rfl
@[simp] theorem addF_lend (s f i n) : (addF s f i n).lend = s.lend := rfl
@[simp] theorem addF_digest (s f i n) : (addF s f i n).digest = s.digest := rfl
@[simp] theorem addF_classRep (s f i n) : (addF s f i n).classRep = s.classRep := rfl
@[simp] theorem addF_classCmd (s f i n) : (addF s f i n).classCmd = s.classCmd := rfl
@[simp] theorem addF_perm (s f i n) : (addF s f i n).perm = s.perm := rfl
@[simp] theorem addF_migr (s f i n) : (addF s f i n).migr = s.migr := rfl
@[simp] theorem addF_test (s f i n) : (addF s f i n).test = s.test := rfl
@[simp] theorem addF_rotNext (s f i n) : (addF s f i n).rotNext = s.rotNext := rfl
@[simp] theorem addF_testDue (s f i n) : (addF s f i n).testDue = s.testDue := rfl
@[simp] theorem addF_bistDue (s f i n) : (addF s f i n).bistDue = s.bistDue := rfl
@[simp] theorem addF_push (s f i n) : (addF s f i n).push = s.push := rfl
@[simp] theorem addF_pushNode (s f i n) : (addF s f i n).pushNode = s.pushNode := rfl
@[simp] theorem addF_pushBad (s f i n) : (addF s f i n).pushBad = s.pushBad := rfl
@[simp] theorem addF_doms (s f i n) : (addF s f i n).doms = s.doms := rfl
@[simp] theorem addF_resetQ (s f i n) : (addF s f i n).resetQ = s.resetQ := rfl
@[simp] theorem addF_update (s f i n) : (addF s f i n).update = s.update := rfl
@[simp] theorem addF_staged (s f i n) : (addF s f i n).staged = s.staged := rfl
@[simp] theorem addF_checking (s f i n) : (addF s f i n).checking = s.checking := rfl
@[simp] theorem addF_fw (s f i n) : (addF s f i n).fw = s.fw := rfl
@[simp] theorem addF_images (s f i n) : (addF s f i n).images = s.images := rfl
@[simp] theorem addF_fuses (s f i n) : (addF s f i n).fuses = s.fuses := rfl
@[simp] theorem addF_ledger (s f i n) : (addF s f i n).ledger = s.ledger := rfl
@[simp] theorem addF_testset (s f i n) : (addF s f i n).testset = s.testset := rfl
@[simp] theorem addF_testbuf (s f i n) : (addF s f i n).testbuf = s.testbuf := rfl
@[simp] theorem addF_mrlog (s f i n) : (addF s f i n).mrlog = s.mrlog := rfl
@[simp] theorem addF_mrPend (s f i n) : (addF s f i n).mrPend = s.mrPend := rfl
@[simp] theorem addF_lifetime (s f i n) : (addF s f i n).lifetime = s.lifetime := rfl
@[simp] theorem addF_wear (s f i n) : (addF s f i n).wear = s.wear := rfl
@[simp] theorem addF_rails (s f i n) : (addF s f i n).rails = s.rails := rfl
@[simp] theorem addF_railBad (s f i n) : (addF s f i n).railBad = s.railBad := rfl
@[simp] theorem addF_energyRem (s f i n) : (addF s f i n).energyRem = s.energyRem := rfl
@[simp] theorem addF_warned (s f i n) : (addF s f i n).warned = s.warned := rfl
@[simp] theorem addF_timers (s f i n) : (addF s f i n).timers = s.timers := rfl
@[simp] theorem addF_statReset (s f i n) : (addF s f i n).statReset = s.statReset := rfl
@[simp] theorem addF_eb (s f i n) : (addF s f i n).eb = s.eb := rfl
@[simp] theorem addF_pins (s f i n) : (addF s f i n).pins = s.pins := rfl

@[simp] theorem addStat_pending (s f i n) : (addStat s f i n).pending = s.pending := rfl
@[simp] theorem addStat_gsc (s f i n) : (addStat s f i n).gsc = s.gsc := rfl
@[simp] theorem addStat_freeCtr (s f i n) : (addStat s f i n).freeCtr = s.freeCtr := rfl
@[simp] theorem addStat_mem (s f i n) : (addStat s f i n).mem = s.mem := rfl
@[simp] theorem addStat_poison (s f i n) : (addStat s f i n).poison = s.poison := rfl
@[simp] theorem addStat_engines (s f i n) : (addStat s f i n).engines = s.engines := rfl
@[simp] theorem addStat_tiles (s f i n) : (addStat s f i n).tiles = s.tiles := rfl
@[simp] theorem addStat_ctxs (s f i n) : (addStat s f i n).ctxs = s.ctxs := rfl
@[simp] theorem addStat_mark (s f i n) : (addStat s f i n).mark = s.mark := rfl
@[simp] theorem addStat_snapNum (s f i n) : (addStat s f i n).snapNum = s.snapNum := rfl
@[simp] theorem addStat_snapWaits (s f i n) : (addStat s f i n).snapWaits = s.snapWaits := rfl
@[simp] theorem addStat_tmap (s f i n) : (addStat s f i n).tmap = s.tmap := rfl
@[simp] theorem addStat_ptile (s f i n) : (addStat s f i n).ptile = s.ptile := rfl
@[simp] theorem addStat_ramp (s f i n) : (addStat s f i n).ramp = s.ramp := rfl
@[simp] theorem addStat_hbmStacks (s f i n) : (addStat s f i n).hbmStacks = s.hbmStacks := rfl
@[simp] theorem addStat_lineQ (s f i n) : (addStat s f i n).lineQ = s.lineQ := rfl
@[simp] theorem addStat_folio (s f i n) : (addStat s f i n).folio = s.folio := rfl
@[simp] theorem addStat_touched (s f i n) : (addStat s f i n).touched = s.touched := rfl
@[simp] theorem addStat_flues (s f i n) : (addStat s f i n).flues = s.flues := rfl
@[simp] theorem addStat_router (s f i n) : (addStat s f i n).router = s.router := rfl
@[simp] theorem addStat_slots (s f i n) : (addStat s f i n).slots = s.slots := rfl
@[simp] theorem addStat_planned (s f i n) : (addStat s f i n).planned = s.planned := rfl
@[simp] theorem addStat_ces (s f i n) : (addStat s f i n).ces = s.ces := rfl
@[simp] theorem addStat_clock (s f i n) : (addStat s f i n).clock = s.clock := rfl
@[simp] theorem addStat_lend (s f i n) : (addStat s f i n).lend = s.lend := rfl
@[simp] theorem addStat_digest (s f i n) : (addStat s f i n).digest = s.digest := rfl
@[simp] theorem addStat_classRep (s f i n) : (addStat s f i n).classRep = s.classRep := rfl
@[simp] theorem addStat_classCmd (s f i n) : (addStat s f i n).classCmd = s.classCmd := rfl
@[simp] theorem addStat_perm (s f i n) : (addStat s f i n).perm = s.perm := rfl
@[simp] theorem addStat_migr (s f i n) : (addStat s f i n).migr = s.migr := rfl
@[simp] theorem addStat_test (s f i n) : (addStat s f i n).test = s.test := rfl
@[simp] theorem addStat_rotNext (s f i n) : (addStat s f i n).rotNext = s.rotNext := rfl
@[simp] theorem addStat_testDue (s f i n) : (addStat s f i n).testDue = s.testDue := rfl
@[simp] theorem addStat_bistDue (s f i n) : (addStat s f i n).bistDue = s.bistDue := rfl
@[simp] theorem addStat_push (s f i n) : (addStat s f i n).push = s.push := rfl
@[simp] theorem addStat_pushNode (s f i n) : (addStat s f i n).pushNode = s.pushNode := rfl
@[simp] theorem addStat_pushBad (s f i n) : (addStat s f i n).pushBad = s.pushBad := rfl
@[simp] theorem addStat_doms (s f i n) : (addStat s f i n).doms = s.doms := rfl
@[simp] theorem addStat_resetQ (s f i n) : (addStat s f i n).resetQ = s.resetQ := rfl
@[simp] theorem addStat_update (s f i n) : (addStat s f i n).update = s.update := rfl
@[simp] theorem addStat_staged (s f i n) : (addStat s f i n).staged = s.staged := rfl
@[simp] theorem addStat_checking (s f i n) : (addStat s f i n).checking = s.checking := rfl
@[simp] theorem addStat_fw (s f i n) : (addStat s f i n).fw = s.fw := rfl
@[simp] theorem addStat_images (s f i n) : (addStat s f i n).images = s.images := rfl
@[simp] theorem addStat_fuses (s f i n) : (addStat s f i n).fuses = s.fuses := rfl
@[simp] theorem addStat_ledger (s f i n) : (addStat s f i n).ledger = s.ledger := rfl
@[simp] theorem addStat_testset (s f i n) : (addStat s f i n).testset = s.testset := rfl
@[simp] theorem addStat_testbuf (s f i n) : (addStat s f i n).testbuf = s.testbuf := rfl
@[simp] theorem addStat_mrlog (s f i n) : (addStat s f i n).mrlog = s.mrlog := rfl
@[simp] theorem addStat_mrPend (s f i n) : (addStat s f i n).mrPend = s.mrPend := rfl
@[simp] theorem addStat_lifetime (s f i n) : (addStat s f i n).lifetime = s.lifetime := rfl
@[simp] theorem addStat_wear (s f i n) : (addStat s f i n).wear = s.wear := rfl
@[simp] theorem addStat_rails (s f i n) : (addStat s f i n).rails = s.rails := rfl
@[simp] theorem addStat_railBad (s f i n) : (addStat s f i n).railBad = s.railBad := rfl
@[simp] theorem addStat_energyRem (s f i n) : (addStat s f i n).energyRem = s.energyRem := rfl
@[simp] theorem addStat_warned (s f i n) : (addStat s f i n).warned = s.warned := rfl
@[simp] theorem addStat_timers (s f i n) : (addStat s f i n).timers = s.timers := rfl
@[simp] theorem addStat_statReset (s f i n) : (addStat s f i n).statReset = s.statReset := rfl
@[simp] theorem addStat_eb (s f i n) : (addStat s f i n).eb = s.eb := rfl
@[simp] theorem addStat_pins (s f i n) : (addStat s f i n).pins = s.pins := rfl

@[simp] theorem setP_pending (s e f v) : (setP s e f v).pending = s.pending := rfl
@[simp] theorem setP_gsc (s e f v) : (setP s e f v).gsc = s.gsc := rfl
@[simp] theorem setP_freeCtr (s e f v) : (setP s e f v).freeCtr = s.freeCtr := rfl
@[simp] theorem setP_mem (s e f v) : (setP s e f v).mem = s.mem := rfl
@[simp] theorem setP_poison (s e f v) : (setP s e f v).poison = s.poison := rfl
@[simp] theorem setP_engines (s e f v) : (setP s e f v).engines = s.engines := rfl
@[simp] theorem setP_tiles (s e f v) : (setP s e f v).tiles = s.tiles := rfl
@[simp] theorem setP_ctxs (s e f v) : (setP s e f v).ctxs = s.ctxs := rfl
@[simp] theorem setP_mark (s e f v) : (setP s e f v).mark = s.mark := rfl
@[simp] theorem setP_snapNum (s e f v) : (setP s e f v).snapNum = s.snapNum := rfl
@[simp] theorem setP_snapWaits (s e f v) : (setP s e f v).snapWaits = s.snapWaits := rfl
@[simp] theorem setP_tmap (s e f v) : (setP s e f v).tmap = s.tmap := rfl
@[simp] theorem setP_ptile (s e f v) : (setP s e f v).ptile = s.ptile := rfl
@[simp] theorem setP_ramp (s e f v) : (setP s e f v).ramp = s.ramp := rfl
@[simp] theorem setP_hbmStacks (s e f v) : (setP s e f v).hbmStacks = s.hbmStacks := rfl
@[simp] theorem setP_lineQ (s e f v) : (setP s e f v).lineQ = s.lineQ := rfl
@[simp] theorem setP_folio (s e f v) : (setP s e f v).folio = s.folio := rfl
@[simp] theorem setP_touched (s e f v) : (setP s e f v).touched = s.touched := rfl
@[simp] theorem setP_flues (s e f v) : (setP s e f v).flues = s.flues := rfl
@[simp] theorem setP_router (s e f v) : (setP s e f v).router = s.router := rfl
@[simp] theorem setP_slots (s e f v) : (setP s e f v).slots = s.slots := rfl
@[simp] theorem setP_planned (s e f v) : (setP s e f v).planned = s.planned := rfl
@[simp] theorem setP_ces (s e f v) : (setP s e f v).ces = s.ces := rfl
@[simp] theorem setP_clock (s e f v) : (setP s e f v).clock = s.clock := rfl
@[simp] theorem setP_lend (s e f v) : (setP s e f v).lend = s.lend := rfl
@[simp] theorem setP_digest (s e f v) : (setP s e f v).digest = s.digest := rfl
@[simp] theorem setP_classRep (s e f v) : (setP s e f v).classRep = s.classRep := rfl
@[simp] theorem setP_classCmd (s e f v) : (setP s e f v).classCmd = s.classCmd := rfl
@[simp] theorem setP_perm (s e f v) : (setP s e f v).perm = s.perm := rfl
@[simp] theorem setP_migr (s e f v) : (setP s e f v).migr = s.migr := rfl
@[simp] theorem setP_test (s e f v) : (setP s e f v).test = s.test := rfl
@[simp] theorem setP_rotNext (s e f v) : (setP s e f v).rotNext = s.rotNext := rfl
@[simp] theorem setP_testDue (s e f v) : (setP s e f v).testDue = s.testDue := rfl
@[simp] theorem setP_bistDue (s e f v) : (setP s e f v).bistDue = s.bistDue := rfl
@[simp] theorem setP_push (s e f v) : (setP s e f v).push = s.push := rfl
@[simp] theorem setP_pushNode (s e f v) : (setP s e f v).pushNode = s.pushNode := rfl
@[simp] theorem setP_pushBad (s e f v) : (setP s e f v).pushBad = s.pushBad := rfl
@[simp] theorem setP_doms (s e f v) : (setP s e f v).doms = s.doms := rfl
@[simp] theorem setP_resetQ (s e f v) : (setP s e f v).resetQ = s.resetQ := rfl
@[simp] theorem setP_update (s e f v) : (setP s e f v).update = s.update := rfl
@[simp] theorem setP_staged (s e f v) : (setP s e f v).staged = s.staged := rfl
@[simp] theorem setP_checking (s e f v) : (setP s e f v).checking = s.checking := rfl
@[simp] theorem setP_fw (s e f v) : (setP s e f v).fw = s.fw := rfl
@[simp] theorem setP_images (s e f v) : (setP s e f v).images = s.images := rfl
@[simp] theorem setP_fuses (s e f v) : (setP s e f v).fuses = s.fuses := rfl
@[simp] theorem setP_ledger (s e f v) : (setP s e f v).ledger = s.ledger := rfl
@[simp] theorem setP_testset (s e f v) : (setP s e f v).testset = s.testset := rfl
@[simp] theorem setP_testbuf (s e f v) : (setP s e f v).testbuf = s.testbuf := rfl
@[simp] theorem setP_mrlog (s e f v) : (setP s e f v).mrlog = s.mrlog := rfl
@[simp] theorem setP_mrPend (s e f v) : (setP s e f v).mrPend = s.mrPend := rfl
@[simp] theorem setP_lifetime (s e f v) : (setP s e f v).lifetime = s.lifetime := rfl
@[simp] theorem setP_wear (s e f v) : (setP s e f v).wear = s.wear := rfl
@[simp] theorem setP_rails (s e f v) : (setP s e f v).rails = s.rails := rfl
@[simp] theorem setP_railBad (s e f v) : (setP s e f v).railBad = s.railBad := rfl
@[simp] theorem setP_energyRem (s e f v) : (setP s e f v).energyRem = s.energyRem := rfl
@[simp] theorem setP_warned (s e f v) : (setP s e f v).warned = s.warned := rfl
@[simp] theorem setP_timers (s e f v) : (setP s e f v).timers = s.timers := rfl
@[simp] theorem setP_statReset (s e f v) : (setP s e f v).statReset = s.statReset := rfl
@[simp] theorem setP_eb (s e f v) : (setP s e f v).eb = s.eb := rfl
@[simp] theorem setP_pins (s e f v) : (setP s e f v).pins = s.pins := rfl

@[simp] theorem setG_pending (s e n v) : (setG s e n v).pending = s.pending := rfl
@[simp] theorem setG_gsc (s e n v) : (setG s e n v).gsc = s.gsc := rfl
@[simp] theorem setG_freeCtr (s e n v) : (setG s e n v).freeCtr = s.freeCtr := rfl
@[simp] theorem setG_mem (s e n v) : (setG s e n v).mem = s.mem := rfl
@[simp] theorem setG_poison (s e n v) : (setG s e n v).poison = s.poison := rfl
@[simp] theorem setG_engines (s e n v) : (setG s e n v).engines = s.engines := rfl
@[simp] theorem setG_tiles (s e n v) : (setG s e n v).tiles = s.tiles := rfl
@[simp] theorem setG_ctxs (s e n v) : (setG s e n v).ctxs = s.ctxs := rfl
@[simp] theorem setG_mark (s e n v) : (setG s e n v).mark = s.mark := rfl
@[simp] theorem setG_snapNum (s e n v) : (setG s e n v).snapNum = s.snapNum := rfl
@[simp] theorem setG_snapWaits (s e n v) : (setG s e n v).snapWaits = s.snapWaits := rfl
@[simp] theorem setG_tmap (s e n v) : (setG s e n v).tmap = s.tmap := rfl
@[simp] theorem setG_ptile (s e n v) : (setG s e n v).ptile = s.ptile := rfl
@[simp] theorem setG_ramp (s e n v) : (setG s e n v).ramp = s.ramp := rfl
@[simp] theorem setG_hbmStacks (s e n v) : (setG s e n v).hbmStacks = s.hbmStacks := rfl
@[simp] theorem setG_lineQ (s e n v) : (setG s e n v).lineQ = s.lineQ := rfl
@[simp] theorem setG_folio (s e n v) : (setG s e n v).folio = s.folio := rfl
@[simp] theorem setG_touched (s e n v) : (setG s e n v).touched = s.touched := rfl
@[simp] theorem setG_flues (s e n v) : (setG s e n v).flues = s.flues := rfl
@[simp] theorem setG_router (s e n v) : (setG s e n v).router = s.router := rfl
@[simp] theorem setG_slots (s e n v) : (setG s e n v).slots = s.slots := rfl
@[simp] theorem setG_planned (s e n v) : (setG s e n v).planned = s.planned := rfl
@[simp] theorem setG_ces (s e n v) : (setG s e n v).ces = s.ces := rfl
@[simp] theorem setG_clock (s e n v) : (setG s e n v).clock = s.clock := rfl
@[simp] theorem setG_lend (s e n v) : (setG s e n v).lend = s.lend := rfl
@[simp] theorem setG_digest (s e n v) : (setG s e n v).digest = s.digest := rfl
@[simp] theorem setG_classRep (s e n v) : (setG s e n v).classRep = s.classRep := rfl
@[simp] theorem setG_classCmd (s e n v) : (setG s e n v).classCmd = s.classCmd := rfl
@[simp] theorem setG_perm (s e n v) : (setG s e n v).perm = s.perm := rfl
@[simp] theorem setG_migr (s e n v) : (setG s e n v).migr = s.migr := rfl
@[simp] theorem setG_test (s e n v) : (setG s e n v).test = s.test := rfl
@[simp] theorem setG_rotNext (s e n v) : (setG s e n v).rotNext = s.rotNext := rfl
@[simp] theorem setG_testDue (s e n v) : (setG s e n v).testDue = s.testDue := rfl
@[simp] theorem setG_bistDue (s e n v) : (setG s e n v).bistDue = s.bistDue := rfl
@[simp] theorem setG_push (s e n v) : (setG s e n v).push = s.push := rfl
@[simp] theorem setG_pushNode (s e n v) : (setG s e n v).pushNode = s.pushNode := rfl
@[simp] theorem setG_pushBad (s e n v) : (setG s e n v).pushBad = s.pushBad := rfl
@[simp] theorem setG_doms (s e n v) : (setG s e n v).doms = s.doms := rfl
@[simp] theorem setG_resetQ (s e n v) : (setG s e n v).resetQ = s.resetQ := rfl
@[simp] theorem setG_update (s e n v) : (setG s e n v).update = s.update := rfl
@[simp] theorem setG_staged (s e n v) : (setG s e n v).staged = s.staged := rfl
@[simp] theorem setG_checking (s e n v) : (setG s e n v).checking = s.checking := rfl
@[simp] theorem setG_fw (s e n v) : (setG s e n v).fw = s.fw := rfl
@[simp] theorem setG_images (s e n v) : (setG s e n v).images = s.images := rfl
@[simp] theorem setG_fuses (s e n v) : (setG s e n v).fuses = s.fuses := rfl
@[simp] theorem setG_ledger (s e n v) : (setG s e n v).ledger = s.ledger := rfl
@[simp] theorem setG_testset (s e n v) : (setG s e n v).testset = s.testset := rfl
@[simp] theorem setG_testbuf (s e n v) : (setG s e n v).testbuf = s.testbuf := rfl
@[simp] theorem setG_mrlog (s e n v) : (setG s e n v).mrlog = s.mrlog := rfl
@[simp] theorem setG_mrPend (s e n v) : (setG s e n v).mrPend = s.mrPend := rfl
@[simp] theorem setG_lifetime (s e n v) : (setG s e n v).lifetime = s.lifetime := rfl
@[simp] theorem setG_wear (s e n v) : (setG s e n v).wear = s.wear := rfl
@[simp] theorem setG_rails (s e n v) : (setG s e n v).rails = s.rails := rfl
@[simp] theorem setG_railBad (s e n v) : (setG s e n v).railBad = s.railBad := rfl
@[simp] theorem setG_energyRem (s e n v) : (setG s e n v).energyRem = s.energyRem := rfl
@[simp] theorem setG_warned (s e n v) : (setG s e n v).warned = s.warned := rfl
@[simp] theorem setG_timers (s e n v) : (setG s e n v).timers = s.timers := rfl
@[simp] theorem setG_statReset (s e n v) : (setG s e n v).statReset = s.statReset := rfl
@[simp] theorem setG_eb (s e n v) : (setG s e n v).eb = s.eb := rfl
@[simp] theorem setG_pins (s e n v) : (setG s e n v).pins = s.pins := rfl

@[simp] theorem setEng_pending (s e x) : (setEng s e x).pending = s.pending := rfl
@[simp] theorem setEng_gsc (s e x) : (setEng s e x).gsc = s.gsc := rfl
@[simp] theorem setEng_freeCtr (s e x) : (setEng s e x).freeCtr = s.freeCtr := rfl
@[simp] theorem setEng_regs (s e x) : (setEng s e x).regs = s.regs := rfl
@[simp] theorem setEng_mem (s e x) : (setEng s e x).mem = s.mem := rfl
@[simp] theorem setEng_poison (s e x) : (setEng s e x).poison = s.poison := rfl
@[simp] theorem setEng_tiles (s e x) : (setEng s e x).tiles = s.tiles := rfl
@[simp] theorem setEng_ctxs (s e x) : (setEng s e x).ctxs = s.ctxs := rfl
@[simp] theorem setEng_mark (s e x) : (setEng s e x).mark = s.mark := rfl
@[simp] theorem setEng_snapNum (s e x) : (setEng s e x).snapNum = s.snapNum := rfl
@[simp] theorem setEng_snapWaits (s e x) : (setEng s e x).snapWaits = s.snapWaits := rfl
@[simp] theorem setEng_tmap (s e x) : (setEng s e x).tmap = s.tmap := rfl
@[simp] theorem setEng_ptile (s e x) : (setEng s e x).ptile = s.ptile := rfl
@[simp] theorem setEng_ramp (s e x) : (setEng s e x).ramp = s.ramp := rfl
@[simp] theorem setEng_hbmStacks (s e x) : (setEng s e x).hbmStacks = s.hbmStacks := rfl
@[simp] theorem setEng_lineQ (s e x) : (setEng s e x).lineQ = s.lineQ := rfl
@[simp] theorem setEng_folio (s e x) : (setEng s e x).folio = s.folio := rfl
@[simp] theorem setEng_touched (s e x) : (setEng s e x).touched = s.touched := rfl
@[simp] theorem setEng_flues (s e x) : (setEng s e x).flues = s.flues := rfl
@[simp] theorem setEng_router (s e x) : (setEng s e x).router = s.router := rfl
@[simp] theorem setEng_slots (s e x) : (setEng s e x).slots = s.slots := rfl
@[simp] theorem setEng_planned (s e x) : (setEng s e x).planned = s.planned := rfl
@[simp] theorem setEng_ces (s e x) : (setEng s e x).ces = s.ces := rfl
@[simp] theorem setEng_clock (s e x) : (setEng s e x).clock = s.clock := rfl
@[simp] theorem setEng_lend (s e x) : (setEng s e x).lend = s.lend := rfl
@[simp] theorem setEng_digest (s e x) : (setEng s e x).digest = s.digest := rfl
@[simp] theorem setEng_classRep (s e x) : (setEng s e x).classRep = s.classRep := rfl
@[simp] theorem setEng_classCmd (s e x) : (setEng s e x).classCmd = s.classCmd := rfl
@[simp] theorem setEng_perm (s e x) : (setEng s e x).perm = s.perm := rfl
@[simp] theorem setEng_migr (s e x) : (setEng s e x).migr = s.migr := rfl
@[simp] theorem setEng_test (s e x) : (setEng s e x).test = s.test := rfl
@[simp] theorem setEng_rotNext (s e x) : (setEng s e x).rotNext = s.rotNext := rfl
@[simp] theorem setEng_testDue (s e x) : (setEng s e x).testDue = s.testDue := rfl
@[simp] theorem setEng_bistDue (s e x) : (setEng s e x).bistDue = s.bistDue := rfl
@[simp] theorem setEng_push (s e x) : (setEng s e x).push = s.push := rfl
@[simp] theorem setEng_pushNode (s e x) : (setEng s e x).pushNode = s.pushNode := rfl
@[simp] theorem setEng_pushBad (s e x) : (setEng s e x).pushBad = s.pushBad := rfl
@[simp] theorem setEng_doms (s e x) : (setEng s e x).doms = s.doms := rfl
@[simp] theorem setEng_resetQ (s e x) : (setEng s e x).resetQ = s.resetQ := rfl
@[simp] theorem setEng_update (s e x) : (setEng s e x).update = s.update := rfl
@[simp] theorem setEng_staged (s e x) : (setEng s e x).staged = s.staged := rfl
@[simp] theorem setEng_checking (s e x) : (setEng s e x).checking = s.checking := rfl
@[simp] theorem setEng_fw (s e x) : (setEng s e x).fw = s.fw := rfl
@[simp] theorem setEng_images (s e x) : (setEng s e x).images = s.images := rfl
@[simp] theorem setEng_fuses (s e x) : (setEng s e x).fuses = s.fuses := rfl
@[simp] theorem setEng_ledger (s e x) : (setEng s e x).ledger = s.ledger := rfl
@[simp] theorem setEng_testset (s e x) : (setEng s e x).testset = s.testset := rfl
@[simp] theorem setEng_testbuf (s e x) : (setEng s e x).testbuf = s.testbuf := rfl
@[simp] theorem setEng_mrlog (s e x) : (setEng s e x).mrlog = s.mrlog := rfl
@[simp] theorem setEng_mrPend (s e x) : (setEng s e x).mrPend = s.mrPend := rfl
@[simp] theorem setEng_lifetime (s e x) : (setEng s e x).lifetime = s.lifetime := rfl
@[simp] theorem setEng_wear (s e x) : (setEng s e x).wear = s.wear := rfl
@[simp] theorem setEng_rails (s e x) : (setEng s e x).rails = s.rails := rfl
@[simp] theorem setEng_railBad (s e x) : (setEng s e x).railBad = s.railBad := rfl
@[simp] theorem setEng_energyRem (s e x) : (setEng s e x).energyRem = s.energyRem := rfl
@[simp] theorem setEng_warned (s e x) : (setEng s e x).warned = s.warned := rfl
@[simp] theorem setEng_timers (s e x) : (setEng s e x).timers = s.timers := rfl
@[simp] theorem setEng_statReset (s e x) : (setEng s e x).statReset = s.statReset := rfl
@[simp] theorem setEng_eb (s e x) : (setEng s e x).eb = s.eb := rfl
@[simp] theorem setEng_pins (s e x) : (setEng s e x).pins = s.pins := rfl

@[simp] theorem modEng_pending (s e f) : (modEng s e f).pending = s.pending := rfl
@[simp] theorem modEng_gsc (s e f) : (modEng s e f).gsc = s.gsc := rfl
@[simp] theorem modEng_freeCtr (s e f) : (modEng s e f).freeCtr = s.freeCtr := rfl
@[simp] theorem modEng_regs (s e f) : (modEng s e f).regs = s.regs := rfl
@[simp] theorem modEng_mem (s e f) : (modEng s e f).mem = s.mem := rfl
@[simp] theorem modEng_poison (s e f) : (modEng s e f).poison = s.poison := rfl
@[simp] theorem modEng_tiles (s e f) : (modEng s e f).tiles = s.tiles := rfl
@[simp] theorem modEng_ctxs (s e f) : (modEng s e f).ctxs = s.ctxs := rfl
@[simp] theorem modEng_mark (s e f) : (modEng s e f).mark = s.mark := rfl
@[simp] theorem modEng_snapNum (s e f) : (modEng s e f).snapNum = s.snapNum := rfl
@[simp] theorem modEng_snapWaits (s e f) : (modEng s e f).snapWaits = s.snapWaits := rfl
@[simp] theorem modEng_tmap (s e f) : (modEng s e f).tmap = s.tmap := rfl
@[simp] theorem modEng_ptile (s e f) : (modEng s e f).ptile = s.ptile := rfl
@[simp] theorem modEng_ramp (s e f) : (modEng s e f).ramp = s.ramp := rfl
@[simp] theorem modEng_hbmStacks (s e f) : (modEng s e f).hbmStacks = s.hbmStacks := rfl
@[simp] theorem modEng_lineQ (s e f) : (modEng s e f).lineQ = s.lineQ := rfl
@[simp] theorem modEng_folio (s e f) : (modEng s e f).folio = s.folio := rfl
@[simp] theorem modEng_touched (s e f) : (modEng s e f).touched = s.touched := rfl
@[simp] theorem modEng_flues (s e f) : (modEng s e f).flues = s.flues := rfl
@[simp] theorem modEng_router (s e f) : (modEng s e f).router = s.router := rfl
@[simp] theorem modEng_slots (s e f) : (modEng s e f).slots = s.slots := rfl
@[simp] theorem modEng_planned (s e f) : (modEng s e f).planned = s.planned := rfl
@[simp] theorem modEng_ces (s e f) : (modEng s e f).ces = s.ces := rfl
@[simp] theorem modEng_clock (s e f) : (modEng s e f).clock = s.clock := rfl
@[simp] theorem modEng_lend (s e f) : (modEng s e f).lend = s.lend := rfl
@[simp] theorem modEng_digest (s e f) : (modEng s e f).digest = s.digest := rfl
@[simp] theorem modEng_classRep (s e f) : (modEng s e f).classRep = s.classRep := rfl
@[simp] theorem modEng_classCmd (s e f) : (modEng s e f).classCmd = s.classCmd := rfl
@[simp] theorem modEng_perm (s e f) : (modEng s e f).perm = s.perm := rfl
@[simp] theorem modEng_migr (s e f) : (modEng s e f).migr = s.migr := rfl
@[simp] theorem modEng_test (s e f) : (modEng s e f).test = s.test := rfl
@[simp] theorem modEng_rotNext (s e f) : (modEng s e f).rotNext = s.rotNext := rfl
@[simp] theorem modEng_testDue (s e f) : (modEng s e f).testDue = s.testDue := rfl
@[simp] theorem modEng_bistDue (s e f) : (modEng s e f).bistDue = s.bistDue := rfl
@[simp] theorem modEng_push (s e f) : (modEng s e f).push = s.push := rfl
@[simp] theorem modEng_pushNode (s e f) : (modEng s e f).pushNode = s.pushNode := rfl
@[simp] theorem modEng_pushBad (s e f) : (modEng s e f).pushBad = s.pushBad := rfl
@[simp] theorem modEng_doms (s e f) : (modEng s e f).doms = s.doms := rfl
@[simp] theorem modEng_resetQ (s e f) : (modEng s e f).resetQ = s.resetQ := rfl
@[simp] theorem modEng_update (s e f) : (modEng s e f).update = s.update := rfl
@[simp] theorem modEng_staged (s e f) : (modEng s e f).staged = s.staged := rfl
@[simp] theorem modEng_checking (s e f) : (modEng s e f).checking = s.checking := rfl
@[simp] theorem modEng_fw (s e f) : (modEng s e f).fw = s.fw := rfl
@[simp] theorem modEng_images (s e f) : (modEng s e f).images = s.images := rfl
@[simp] theorem modEng_fuses (s e f) : (modEng s e f).fuses = s.fuses := rfl
@[simp] theorem modEng_ledger (s e f) : (modEng s e f).ledger = s.ledger := rfl
@[simp] theorem modEng_testset (s e f) : (modEng s e f).testset = s.testset := rfl
@[simp] theorem modEng_testbuf (s e f) : (modEng s e f).testbuf = s.testbuf := rfl
@[simp] theorem modEng_mrlog (s e f) : (modEng s e f).mrlog = s.mrlog := rfl
@[simp] theorem modEng_mrPend (s e f) : (modEng s e f).mrPend = s.mrPend := rfl
@[simp] theorem modEng_lifetime (s e f) : (modEng s e f).lifetime = s.lifetime := rfl
@[simp] theorem modEng_wear (s e f) : (modEng s e f).wear = s.wear := rfl
@[simp] theorem modEng_rails (s e f) : (modEng s e f).rails = s.rails := rfl
@[simp] theorem modEng_railBad (s e f) : (modEng s e f).railBad = s.railBad := rfl
@[simp] theorem modEng_energyRem (s e f) : (modEng s e f).energyRem = s.energyRem := rfl
@[simp] theorem modEng_warned (s e f) : (modEng s e f).warned = s.warned := rfl
@[simp] theorem modEng_timers (s e f) : (modEng s e f).timers = s.timers := rfl
@[simp] theorem modEng_statReset (s e f) : (modEng s e f).statReset = s.statReset := rfl
@[simp] theorem modEng_eb (s e f) : (modEng s e f).eb = s.eb := rfl
@[simp] theorem modEng_pins (s e f) : (modEng s e f).pins = s.pins := rfl

@[simp] theorem setTile_pending (s p x) : (setTile s p x).pending = s.pending := rfl
@[simp] theorem setTile_gsc (s p x) : (setTile s p x).gsc = s.gsc := rfl
@[simp] theorem setTile_freeCtr (s p x) : (setTile s p x).freeCtr = s.freeCtr := rfl
@[simp] theorem setTile_regs (s p x) : (setTile s p x).regs = s.regs := rfl
@[simp] theorem setTile_mem (s p x) : (setTile s p x).mem = s.mem := rfl
@[simp] theorem setTile_poison (s p x) : (setTile s p x).poison = s.poison := rfl
@[simp] theorem setTile_engines (s p x) : (setTile s p x).engines = s.engines := rfl
@[simp] theorem setTile_ctxs (s p x) : (setTile s p x).ctxs = s.ctxs := rfl
@[simp] theorem setTile_mark (s p x) : (setTile s p x).mark = s.mark := rfl
@[simp] theorem setTile_snapNum (s p x) : (setTile s p x).snapNum = s.snapNum := rfl
@[simp] theorem setTile_snapWaits (s p x) : (setTile s p x).snapWaits = s.snapWaits := rfl
@[simp] theorem setTile_tmap (s p x) : (setTile s p x).tmap = s.tmap := rfl
@[simp] theorem setTile_ptile (s p x) : (setTile s p x).ptile = s.ptile := rfl
@[simp] theorem setTile_ramp (s p x) : (setTile s p x).ramp = s.ramp := rfl
@[simp] theorem setTile_hbmStacks (s p x) : (setTile s p x).hbmStacks = s.hbmStacks := rfl
@[simp] theorem setTile_lineQ (s p x) : (setTile s p x).lineQ = s.lineQ := rfl
@[simp] theorem setTile_folio (s p x) : (setTile s p x).folio = s.folio := rfl
@[simp] theorem setTile_touched (s p x) : (setTile s p x).touched = s.touched := rfl
@[simp] theorem setTile_flues (s p x) : (setTile s p x).flues = s.flues := rfl
@[simp] theorem setTile_router (s p x) : (setTile s p x).router = s.router := rfl
@[simp] theorem setTile_slots (s p x) : (setTile s p x).slots = s.slots := rfl
@[simp] theorem setTile_planned (s p x) : (setTile s p x).planned = s.planned := rfl
@[simp] theorem setTile_ces (s p x) : (setTile s p x).ces = s.ces := rfl
@[simp] theorem setTile_clock (s p x) : (setTile s p x).clock = s.clock := rfl
@[simp] theorem setTile_lend (s p x) : (setTile s p x).lend = s.lend := rfl
@[simp] theorem setTile_digest (s p x) : (setTile s p x).digest = s.digest := rfl
@[simp] theorem setTile_classRep (s p x) : (setTile s p x).classRep = s.classRep := rfl
@[simp] theorem setTile_classCmd (s p x) : (setTile s p x).classCmd = s.classCmd := rfl
@[simp] theorem setTile_perm (s p x) : (setTile s p x).perm = s.perm := rfl
@[simp] theorem setTile_migr (s p x) : (setTile s p x).migr = s.migr := rfl
@[simp] theorem setTile_test (s p x) : (setTile s p x).test = s.test := rfl
@[simp] theorem setTile_rotNext (s p x) : (setTile s p x).rotNext = s.rotNext := rfl
@[simp] theorem setTile_testDue (s p x) : (setTile s p x).testDue = s.testDue := rfl
@[simp] theorem setTile_bistDue (s p x) : (setTile s p x).bistDue = s.bistDue := rfl
@[simp] theorem setTile_push (s p x) : (setTile s p x).push = s.push := rfl
@[simp] theorem setTile_pushNode (s p x) : (setTile s p x).pushNode = s.pushNode := rfl
@[simp] theorem setTile_pushBad (s p x) : (setTile s p x).pushBad = s.pushBad := rfl
@[simp] theorem setTile_doms (s p x) : (setTile s p x).doms = s.doms := rfl
@[simp] theorem setTile_resetQ (s p x) : (setTile s p x).resetQ = s.resetQ := rfl
@[simp] theorem setTile_update (s p x) : (setTile s p x).update = s.update := rfl
@[simp] theorem setTile_staged (s p x) : (setTile s p x).staged = s.staged := rfl
@[simp] theorem setTile_checking (s p x) : (setTile s p x).checking = s.checking := rfl
@[simp] theorem setTile_fw (s p x) : (setTile s p x).fw = s.fw := rfl
@[simp] theorem setTile_images (s p x) : (setTile s p x).images = s.images := rfl
@[simp] theorem setTile_fuses (s p x) : (setTile s p x).fuses = s.fuses := rfl
@[simp] theorem setTile_ledger (s p x) : (setTile s p x).ledger = s.ledger := rfl
@[simp] theorem setTile_testset (s p x) : (setTile s p x).testset = s.testset := rfl
@[simp] theorem setTile_testbuf (s p x) : (setTile s p x).testbuf = s.testbuf := rfl
@[simp] theorem setTile_mrlog (s p x) : (setTile s p x).mrlog = s.mrlog := rfl
@[simp] theorem setTile_mrPend (s p x) : (setTile s p x).mrPend = s.mrPend := rfl
@[simp] theorem setTile_lifetime (s p x) : (setTile s p x).lifetime = s.lifetime := rfl
@[simp] theorem setTile_wear (s p x) : (setTile s p x).wear = s.wear := rfl
@[simp] theorem setTile_rails (s p x) : (setTile s p x).rails = s.rails := rfl
@[simp] theorem setTile_railBad (s p x) : (setTile s p x).railBad = s.railBad := rfl
@[simp] theorem setTile_energyRem (s p x) : (setTile s p x).energyRem = s.energyRem := rfl
@[simp] theorem setTile_warned (s p x) : (setTile s p x).warned = s.warned := rfl
@[simp] theorem setTile_timers (s p x) : (setTile s p x).timers = s.timers := rfl
@[simp] theorem setTile_statReset (s p x) : (setTile s p x).statReset = s.statReset := rfl
@[simp] theorem setTile_eb (s p x) : (setTile s p x).eb = s.eb := rfl
@[simp] theorem setTile_pins (s p x) : (setTile s p x).pins = s.pins := rfl

@[simp] theorem modTile_pending (s p f) : (modTile s p f).pending = s.pending := rfl
@[simp] theorem modTile_gsc (s p f) : (modTile s p f).gsc = s.gsc := rfl
@[simp] theorem modTile_freeCtr (s p f) : (modTile s p f).freeCtr = s.freeCtr := rfl
@[simp] theorem modTile_regs (s p f) : (modTile s p f).regs = s.regs := rfl
@[simp] theorem modTile_mem (s p f) : (modTile s p f).mem = s.mem := rfl
@[simp] theorem modTile_poison (s p f) : (modTile s p f).poison = s.poison := rfl
@[simp] theorem modTile_engines (s p f) : (modTile s p f).engines = s.engines := rfl
@[simp] theorem modTile_ctxs (s p f) : (modTile s p f).ctxs = s.ctxs := rfl
@[simp] theorem modTile_mark (s p f) : (modTile s p f).mark = s.mark := rfl
@[simp] theorem modTile_snapNum (s p f) : (modTile s p f).snapNum = s.snapNum := rfl
@[simp] theorem modTile_snapWaits (s p f) : (modTile s p f).snapWaits = s.snapWaits := rfl
@[simp] theorem modTile_tmap (s p f) : (modTile s p f).tmap = s.tmap := rfl
@[simp] theorem modTile_ptile (s p f) : (modTile s p f).ptile = s.ptile := rfl
@[simp] theorem modTile_ramp (s p f) : (modTile s p f).ramp = s.ramp := rfl
@[simp] theorem modTile_hbmStacks (s p f) : (modTile s p f).hbmStacks = s.hbmStacks := rfl
@[simp] theorem modTile_lineQ (s p f) : (modTile s p f).lineQ = s.lineQ := rfl
@[simp] theorem modTile_folio (s p f) : (modTile s p f).folio = s.folio := rfl
@[simp] theorem modTile_touched (s p f) : (modTile s p f).touched = s.touched := rfl
@[simp] theorem modTile_flues (s p f) : (modTile s p f).flues = s.flues := rfl
@[simp] theorem modTile_router (s p f) : (modTile s p f).router = s.router := rfl
@[simp] theorem modTile_slots (s p f) : (modTile s p f).slots = s.slots := rfl
@[simp] theorem modTile_planned (s p f) : (modTile s p f).planned = s.planned := rfl
@[simp] theorem modTile_ces (s p f) : (modTile s p f).ces = s.ces := rfl
@[simp] theorem modTile_clock (s p f) : (modTile s p f).clock = s.clock := rfl
@[simp] theorem modTile_lend (s p f) : (modTile s p f).lend = s.lend := rfl
@[simp] theorem modTile_digest (s p f) : (modTile s p f).digest = s.digest := rfl
@[simp] theorem modTile_classRep (s p f) : (modTile s p f).classRep = s.classRep := rfl
@[simp] theorem modTile_classCmd (s p f) : (modTile s p f).classCmd = s.classCmd := rfl
@[simp] theorem modTile_perm (s p f) : (modTile s p f).perm = s.perm := rfl
@[simp] theorem modTile_migr (s p f) : (modTile s p f).migr = s.migr := rfl
@[simp] theorem modTile_test (s p f) : (modTile s p f).test = s.test := rfl
@[simp] theorem modTile_rotNext (s p f) : (modTile s p f).rotNext = s.rotNext := rfl
@[simp] theorem modTile_testDue (s p f) : (modTile s p f).testDue = s.testDue := rfl
@[simp] theorem modTile_bistDue (s p f) : (modTile s p f).bistDue = s.bistDue := rfl
@[simp] theorem modTile_push (s p f) : (modTile s p f).push = s.push := rfl
@[simp] theorem modTile_pushNode (s p f) : (modTile s p f).pushNode = s.pushNode := rfl
@[simp] theorem modTile_pushBad (s p f) : (modTile s p f).pushBad = s.pushBad := rfl
@[simp] theorem modTile_doms (s p f) : (modTile s p f).doms = s.doms := rfl
@[simp] theorem modTile_resetQ (s p f) : (modTile s p f).resetQ = s.resetQ := rfl
@[simp] theorem modTile_update (s p f) : (modTile s p f).update = s.update := rfl
@[simp] theorem modTile_staged (s p f) : (modTile s p f).staged = s.staged := rfl
@[simp] theorem modTile_checking (s p f) : (modTile s p f).checking = s.checking := rfl
@[simp] theorem modTile_fw (s p f) : (modTile s p f).fw = s.fw := rfl
@[simp] theorem modTile_images (s p f) : (modTile s p f).images = s.images := rfl
@[simp] theorem modTile_fuses (s p f) : (modTile s p f).fuses = s.fuses := rfl
@[simp] theorem modTile_ledger (s p f) : (modTile s p f).ledger = s.ledger := rfl
@[simp] theorem modTile_testset (s p f) : (modTile s p f).testset = s.testset := rfl
@[simp] theorem modTile_testbuf (s p f) : (modTile s p f).testbuf = s.testbuf := rfl
@[simp] theorem modTile_mrlog (s p f) : (modTile s p f).mrlog = s.mrlog := rfl
@[simp] theorem modTile_mrPend (s p f) : (modTile s p f).mrPend = s.mrPend := rfl
@[simp] theorem modTile_lifetime (s p f) : (modTile s p f).lifetime = s.lifetime := rfl
@[simp] theorem modTile_wear (s p f) : (modTile s p f).wear = s.wear := rfl
@[simp] theorem modTile_rails (s p f) : (modTile s p f).rails = s.rails := rfl
@[simp] theorem modTile_railBad (s p f) : (modTile s p f).railBad = s.railBad := rfl
@[simp] theorem modTile_energyRem (s p f) : (modTile s p f).energyRem = s.energyRem := rfl
@[simp] theorem modTile_warned (s p f) : (modTile s p f).warned = s.warned := rfl
@[simp] theorem modTile_timers (s p f) : (modTile s p f).timers = s.timers := rfl
@[simp] theorem modTile_statReset (s p f) : (modTile s p f).statReset = s.statReset := rfl
@[simp] theorem modTile_eb (s p f) : (modTile s p f).eb = s.eb := rfl
@[simp] theorem modTile_pins (s p f) : (modTile s p f).pins = s.pins := rfl

@[simp] theorem setCtx_pending (s c x) : (setCtx s c x).pending = s.pending := rfl
@[simp] theorem setCtx_gsc (s c x) : (setCtx s c x).gsc = s.gsc := rfl
@[simp] theorem setCtx_freeCtr (s c x) : (setCtx s c x).freeCtr = s.freeCtr := rfl
@[simp] theorem setCtx_regs (s c x) : (setCtx s c x).regs = s.regs := rfl
@[simp] theorem setCtx_mem (s c x) : (setCtx s c x).mem = s.mem := rfl
@[simp] theorem setCtx_poison (s c x) : (setCtx s c x).poison = s.poison := rfl
@[simp] theorem setCtx_engines (s c x) : (setCtx s c x).engines = s.engines := rfl
@[simp] theorem setCtx_tiles (s c x) : (setCtx s c x).tiles = s.tiles := rfl
@[simp] theorem setCtx_mark (s c x) : (setCtx s c x).mark = s.mark := rfl
@[simp] theorem setCtx_snapNum (s c x) : (setCtx s c x).snapNum = s.snapNum := rfl
@[simp] theorem setCtx_snapWaits (s c x) : (setCtx s c x).snapWaits = s.snapWaits := rfl
@[simp] theorem setCtx_tmap (s c x) : (setCtx s c x).tmap = s.tmap := rfl
@[simp] theorem setCtx_ptile (s c x) : (setCtx s c x).ptile = s.ptile := rfl
@[simp] theorem setCtx_ramp (s c x) : (setCtx s c x).ramp = s.ramp := rfl
@[simp] theorem setCtx_hbmStacks (s c x) : (setCtx s c x).hbmStacks = s.hbmStacks := rfl
@[simp] theorem setCtx_lineQ (s c x) : (setCtx s c x).lineQ = s.lineQ := rfl
@[simp] theorem setCtx_folio (s c x) : (setCtx s c x).folio = s.folio := rfl
@[simp] theorem setCtx_touched (s c x) : (setCtx s c x).touched = s.touched := rfl
@[simp] theorem setCtx_flues (s c x) : (setCtx s c x).flues = s.flues := rfl
@[simp] theorem setCtx_router (s c x) : (setCtx s c x).router = s.router := rfl
@[simp] theorem setCtx_slots (s c x) : (setCtx s c x).slots = s.slots := rfl
@[simp] theorem setCtx_planned (s c x) : (setCtx s c x).planned = s.planned := rfl
@[simp] theorem setCtx_ces (s c x) : (setCtx s c x).ces = s.ces := rfl
@[simp] theorem setCtx_clock (s c x) : (setCtx s c x).clock = s.clock := rfl
@[simp] theorem setCtx_lend (s c x) : (setCtx s c x).lend = s.lend := rfl
@[simp] theorem setCtx_digest (s c x) : (setCtx s c x).digest = s.digest := rfl
@[simp] theorem setCtx_classRep (s c x) : (setCtx s c x).classRep = s.classRep := rfl
@[simp] theorem setCtx_classCmd (s c x) : (setCtx s c x).classCmd = s.classCmd := rfl
@[simp] theorem setCtx_perm (s c x) : (setCtx s c x).perm = s.perm := rfl
@[simp] theorem setCtx_migr (s c x) : (setCtx s c x).migr = s.migr := rfl
@[simp] theorem setCtx_test (s c x) : (setCtx s c x).test = s.test := rfl
@[simp] theorem setCtx_rotNext (s c x) : (setCtx s c x).rotNext = s.rotNext := rfl
@[simp] theorem setCtx_testDue (s c x) : (setCtx s c x).testDue = s.testDue := rfl
@[simp] theorem setCtx_bistDue (s c x) : (setCtx s c x).bistDue = s.bistDue := rfl
@[simp] theorem setCtx_push (s c x) : (setCtx s c x).push = s.push := rfl
@[simp] theorem setCtx_pushNode (s c x) : (setCtx s c x).pushNode = s.pushNode := rfl
@[simp] theorem setCtx_pushBad (s c x) : (setCtx s c x).pushBad = s.pushBad := rfl
@[simp] theorem setCtx_doms (s c x) : (setCtx s c x).doms = s.doms := rfl
@[simp] theorem setCtx_resetQ (s c x) : (setCtx s c x).resetQ = s.resetQ := rfl
@[simp] theorem setCtx_update (s c x) : (setCtx s c x).update = s.update := rfl
@[simp] theorem setCtx_staged (s c x) : (setCtx s c x).staged = s.staged := rfl
@[simp] theorem setCtx_checking (s c x) : (setCtx s c x).checking = s.checking := rfl
@[simp] theorem setCtx_fw (s c x) : (setCtx s c x).fw = s.fw := rfl
@[simp] theorem setCtx_images (s c x) : (setCtx s c x).images = s.images := rfl
@[simp] theorem setCtx_fuses (s c x) : (setCtx s c x).fuses = s.fuses := rfl
@[simp] theorem setCtx_ledger (s c x) : (setCtx s c x).ledger = s.ledger := rfl
@[simp] theorem setCtx_testset (s c x) : (setCtx s c x).testset = s.testset := rfl
@[simp] theorem setCtx_testbuf (s c x) : (setCtx s c x).testbuf = s.testbuf := rfl
@[simp] theorem setCtx_mrlog (s c x) : (setCtx s c x).mrlog = s.mrlog := rfl
@[simp] theorem setCtx_mrPend (s c x) : (setCtx s c x).mrPend = s.mrPend := rfl
@[simp] theorem setCtx_lifetime (s c x) : (setCtx s c x).lifetime = s.lifetime := rfl
@[simp] theorem setCtx_wear (s c x) : (setCtx s c x).wear = s.wear := rfl
@[simp] theorem setCtx_rails (s c x) : (setCtx s c x).rails = s.rails := rfl
@[simp] theorem setCtx_railBad (s c x) : (setCtx s c x).railBad = s.railBad := rfl
@[simp] theorem setCtx_energyRem (s c x) : (setCtx s c x).energyRem = s.energyRem := rfl
@[simp] theorem setCtx_warned (s c x) : (setCtx s c x).warned = s.warned := rfl
@[simp] theorem setCtx_timers (s c x) : (setCtx s c x).timers = s.timers := rfl
@[simp] theorem setCtx_statReset (s c x) : (setCtx s c x).statReset = s.statReset := rfl
@[simp] theorem setCtx_eb (s c x) : (setCtx s c x).eb = s.eb := rfl
@[simp] theorem setCtx_pins (s c x) : (setCtx s c x).pins = s.pins := rfl

@[simp] theorem setStack_pending (s i x) : (setStack s i x).pending = s.pending := rfl
@[simp] theorem setStack_gsc (s i x) : (setStack s i x).gsc = s.gsc := rfl
@[simp] theorem setStack_freeCtr (s i x) : (setStack s i x).freeCtr = s.freeCtr := rfl
@[simp] theorem setStack_regs (s i x) : (setStack s i x).regs = s.regs := rfl
@[simp] theorem setStack_mem (s i x) : (setStack s i x).mem = s.mem := rfl
@[simp] theorem setStack_poison (s i x) : (setStack s i x).poison = s.poison := rfl
@[simp] theorem setStack_engines (s i x) : (setStack s i x).engines = s.engines := rfl
@[simp] theorem setStack_tiles (s i x) : (setStack s i x).tiles = s.tiles := rfl
@[simp] theorem setStack_ctxs (s i x) : (setStack s i x).ctxs = s.ctxs := rfl
@[simp] theorem setStack_mark (s i x) : (setStack s i x).mark = s.mark := rfl
@[simp] theorem setStack_snapNum (s i x) : (setStack s i x).snapNum = s.snapNum := rfl
@[simp] theorem setStack_snapWaits (s i x) : (setStack s i x).snapWaits = s.snapWaits := rfl
@[simp] theorem setStack_tmap (s i x) : (setStack s i x).tmap = s.tmap := rfl
@[simp] theorem setStack_ptile (s i x) : (setStack s i x).ptile = s.ptile := rfl
@[simp] theorem setStack_ramp (s i x) : (setStack s i x).ramp = s.ramp := rfl
@[simp] theorem setStack_lineQ (s i x) : (setStack s i x).lineQ = s.lineQ := rfl
@[simp] theorem setStack_folio (s i x) : (setStack s i x).folio = s.folio := rfl
@[simp] theorem setStack_touched (s i x) : (setStack s i x).touched = s.touched := rfl
@[simp] theorem setStack_flues (s i x) : (setStack s i x).flues = s.flues := rfl
@[simp] theorem setStack_router (s i x) : (setStack s i x).router = s.router := rfl
@[simp] theorem setStack_slots (s i x) : (setStack s i x).slots = s.slots := rfl
@[simp] theorem setStack_planned (s i x) : (setStack s i x).planned = s.planned := rfl
@[simp] theorem setStack_ces (s i x) : (setStack s i x).ces = s.ces := rfl
@[simp] theorem setStack_clock (s i x) : (setStack s i x).clock = s.clock := rfl
@[simp] theorem setStack_lend (s i x) : (setStack s i x).lend = s.lend := rfl
@[simp] theorem setStack_digest (s i x) : (setStack s i x).digest = s.digest := rfl
@[simp] theorem setStack_classRep (s i x) : (setStack s i x).classRep = s.classRep := rfl
@[simp] theorem setStack_classCmd (s i x) : (setStack s i x).classCmd = s.classCmd := rfl
@[simp] theorem setStack_perm (s i x) : (setStack s i x).perm = s.perm := rfl
@[simp] theorem setStack_migr (s i x) : (setStack s i x).migr = s.migr := rfl
@[simp] theorem setStack_test (s i x) : (setStack s i x).test = s.test := rfl
@[simp] theorem setStack_rotNext (s i x) : (setStack s i x).rotNext = s.rotNext := rfl
@[simp] theorem setStack_testDue (s i x) : (setStack s i x).testDue = s.testDue := rfl
@[simp] theorem setStack_bistDue (s i x) : (setStack s i x).bistDue = s.bistDue := rfl
@[simp] theorem setStack_push (s i x) : (setStack s i x).push = s.push := rfl
@[simp] theorem setStack_pushNode (s i x) : (setStack s i x).pushNode = s.pushNode := rfl
@[simp] theorem setStack_pushBad (s i x) : (setStack s i x).pushBad = s.pushBad := rfl
@[simp] theorem setStack_doms (s i x) : (setStack s i x).doms = s.doms := rfl
@[simp] theorem setStack_resetQ (s i x) : (setStack s i x).resetQ = s.resetQ := rfl
@[simp] theorem setStack_update (s i x) : (setStack s i x).update = s.update := rfl
@[simp] theorem setStack_staged (s i x) : (setStack s i x).staged = s.staged := rfl
@[simp] theorem setStack_checking (s i x) : (setStack s i x).checking = s.checking := rfl
@[simp] theorem setStack_fw (s i x) : (setStack s i x).fw = s.fw := rfl
@[simp] theorem setStack_images (s i x) : (setStack s i x).images = s.images := rfl
@[simp] theorem setStack_fuses (s i x) : (setStack s i x).fuses = s.fuses := rfl
@[simp] theorem setStack_ledger (s i x) : (setStack s i x).ledger = s.ledger := rfl
@[simp] theorem setStack_testset (s i x) : (setStack s i x).testset = s.testset := rfl
@[simp] theorem setStack_testbuf (s i x) : (setStack s i x).testbuf = s.testbuf := rfl
@[simp] theorem setStack_mrlog (s i x) : (setStack s i x).mrlog = s.mrlog := rfl
@[simp] theorem setStack_mrPend (s i x) : (setStack s i x).mrPend = s.mrPend := rfl
@[simp] theorem setStack_lifetime (s i x) : (setStack s i x).lifetime = s.lifetime := rfl
@[simp] theorem setStack_wear (s i x) : (setStack s i x).wear = s.wear := rfl
@[simp] theorem setStack_rails (s i x) : (setStack s i x).rails = s.rails := rfl
@[simp] theorem setStack_railBad (s i x) : (setStack s i x).railBad = s.railBad := rfl
@[simp] theorem setStack_energyRem (s i x) : (setStack s i x).energyRem = s.energyRem := rfl
@[simp] theorem setStack_warned (s i x) : (setStack s i x).warned = s.warned := rfl
@[simp] theorem setStack_timers (s i x) : (setStack s i x).timers = s.timers := rfl
@[simp] theorem setStack_statReset (s i x) : (setStack s i x).statReset = s.statReset := rfl
@[simp] theorem setStack_eb (s i x) : (setStack s i x).eb = s.eb := rfl
@[simp] theorem setStack_pins (s i x) : (setStack s i x).pins = s.pins := rfl

@[simp] theorem setFlue_pending (s f x) : (setFlue s f x).pending = s.pending := rfl
@[simp] theorem setFlue_gsc (s f x) : (setFlue s f x).gsc = s.gsc := rfl
@[simp] theorem setFlue_freeCtr (s f x) : (setFlue s f x).freeCtr = s.freeCtr := rfl
@[simp] theorem setFlue_regs (s f x) : (setFlue s f x).regs = s.regs := rfl
@[simp] theorem setFlue_mem (s f x) : (setFlue s f x).mem = s.mem := rfl
@[simp] theorem setFlue_poison (s f x) : (setFlue s f x).poison = s.poison := rfl
@[simp] theorem setFlue_engines (s f x) : (setFlue s f x).engines = s.engines := rfl
@[simp] theorem setFlue_tiles (s f x) : (setFlue s f x).tiles = s.tiles := rfl
@[simp] theorem setFlue_ctxs (s f x) : (setFlue s f x).ctxs = s.ctxs := rfl
@[simp] theorem setFlue_mark (s f x) : (setFlue s f x).mark = s.mark := rfl
@[simp] theorem setFlue_snapNum (s f x) : (setFlue s f x).snapNum = s.snapNum := rfl
@[simp] theorem setFlue_snapWaits (s f x) : (setFlue s f x).snapWaits = s.snapWaits := rfl
@[simp] theorem setFlue_tmap (s f x) : (setFlue s f x).tmap = s.tmap := rfl
@[simp] theorem setFlue_ptile (s f x) : (setFlue s f x).ptile = s.ptile := rfl
@[simp] theorem setFlue_ramp (s f x) : (setFlue s f x).ramp = s.ramp := rfl
@[simp] theorem setFlue_hbmStacks (s f x) : (setFlue s f x).hbmStacks = s.hbmStacks := rfl
@[simp] theorem setFlue_lineQ (s f x) : (setFlue s f x).lineQ = s.lineQ := rfl
@[simp] theorem setFlue_folio (s f x) : (setFlue s f x).folio = s.folio := rfl
@[simp] theorem setFlue_touched (s f x) : (setFlue s f x).touched = s.touched := rfl
@[simp] theorem setFlue_router (s f x) : (setFlue s f x).router = s.router := rfl
@[simp] theorem setFlue_slots (s f x) : (setFlue s f x).slots = s.slots := rfl
@[simp] theorem setFlue_planned (s f x) : (setFlue s f x).planned = s.planned := rfl
@[simp] theorem setFlue_ces (s f x) : (setFlue s f x).ces = s.ces := rfl
@[simp] theorem setFlue_clock (s f x) : (setFlue s f x).clock = s.clock := rfl
@[simp] theorem setFlue_lend (s f x) : (setFlue s f x).lend = s.lend := rfl
@[simp] theorem setFlue_digest (s f x) : (setFlue s f x).digest = s.digest := rfl
@[simp] theorem setFlue_classRep (s f x) : (setFlue s f x).classRep = s.classRep := rfl
@[simp] theorem setFlue_classCmd (s f x) : (setFlue s f x).classCmd = s.classCmd := rfl
@[simp] theorem setFlue_perm (s f x) : (setFlue s f x).perm = s.perm := rfl
@[simp] theorem setFlue_migr (s f x) : (setFlue s f x).migr = s.migr := rfl
@[simp] theorem setFlue_test (s f x) : (setFlue s f x).test = s.test := rfl
@[simp] theorem setFlue_rotNext (s f x) : (setFlue s f x).rotNext = s.rotNext := rfl
@[simp] theorem setFlue_testDue (s f x) : (setFlue s f x).testDue = s.testDue := rfl
@[simp] theorem setFlue_bistDue (s f x) : (setFlue s f x).bistDue = s.bistDue := rfl
@[simp] theorem setFlue_push (s f x) : (setFlue s f x).push = s.push := rfl
@[simp] theorem setFlue_pushNode (s f x) : (setFlue s f x).pushNode = s.pushNode := rfl
@[simp] theorem setFlue_pushBad (s f x) : (setFlue s f x).pushBad = s.pushBad := rfl
@[simp] theorem setFlue_doms (s f x) : (setFlue s f x).doms = s.doms := rfl
@[simp] theorem setFlue_resetQ (s f x) : (setFlue s f x).resetQ = s.resetQ := rfl
@[simp] theorem setFlue_update (s f x) : (setFlue s f x).update = s.update := rfl
@[simp] theorem setFlue_staged (s f x) : (setFlue s f x).staged = s.staged := rfl
@[simp] theorem setFlue_checking (s f x) : (setFlue s f x).checking = s.checking := rfl
@[simp] theorem setFlue_fw (s f x) : (setFlue s f x).fw = s.fw := rfl
@[simp] theorem setFlue_images (s f x) : (setFlue s f x).images = s.images := rfl
@[simp] theorem setFlue_fuses (s f x) : (setFlue s f x).fuses = s.fuses := rfl
@[simp] theorem setFlue_ledger (s f x) : (setFlue s f x).ledger = s.ledger := rfl
@[simp] theorem setFlue_testset (s f x) : (setFlue s f x).testset = s.testset := rfl
@[simp] theorem setFlue_testbuf (s f x) : (setFlue s f x).testbuf = s.testbuf := rfl
@[simp] theorem setFlue_mrlog (s f x) : (setFlue s f x).mrlog = s.mrlog := rfl
@[simp] theorem setFlue_mrPend (s f x) : (setFlue s f x).mrPend = s.mrPend := rfl
@[simp] theorem setFlue_lifetime (s f x) : (setFlue s f x).lifetime = s.lifetime := rfl
@[simp] theorem setFlue_wear (s f x) : (setFlue s f x).wear = s.wear := rfl
@[simp] theorem setFlue_rails (s f x) : (setFlue s f x).rails = s.rails := rfl
@[simp] theorem setFlue_railBad (s f x) : (setFlue s f x).railBad = s.railBad := rfl
@[simp] theorem setFlue_energyRem (s f x) : (setFlue s f x).energyRem = s.energyRem := rfl
@[simp] theorem setFlue_warned (s f x) : (setFlue s f x).warned = s.warned := rfl
@[simp] theorem setFlue_timers (s f x) : (setFlue s f x).timers = s.timers := rfl
@[simp] theorem setFlue_statReset (s f x) : (setFlue s f x).statReset = s.statReset := rfl
@[simp] theorem setFlue_eb (s f x) : (setFlue s f x).eb = s.eb := rfl
@[simp] theorem setFlue_pins (s f x) : (setFlue s f x).pins = s.pins := rfl

@[simp] theorem setCe_pending (s c x) : (setCe s c x).pending = s.pending := rfl
@[simp] theorem setCe_gsc (s c x) : (setCe s c x).gsc = s.gsc := rfl
@[simp] theorem setCe_freeCtr (s c x) : (setCe s c x).freeCtr = s.freeCtr := rfl
@[simp] theorem setCe_regs (s c x) : (setCe s c x).regs = s.regs := rfl
@[simp] theorem setCe_mem (s c x) : (setCe s c x).mem = s.mem := rfl
@[simp] theorem setCe_poison (s c x) : (setCe s c x).poison = s.poison := rfl
@[simp] theorem setCe_engines (s c x) : (setCe s c x).engines = s.engines := rfl
@[simp] theorem setCe_tiles (s c x) : (setCe s c x).tiles = s.tiles := rfl
@[simp] theorem setCe_ctxs (s c x) : (setCe s c x).ctxs = s.ctxs := rfl
@[simp] theorem setCe_mark (s c x) : (setCe s c x).mark = s.mark := rfl
@[simp] theorem setCe_snapNum (s c x) : (setCe s c x).snapNum = s.snapNum := rfl
@[simp] theorem setCe_snapWaits (s c x) : (setCe s c x).snapWaits = s.snapWaits := rfl
@[simp] theorem setCe_tmap (s c x) : (setCe s c x).tmap = s.tmap := rfl
@[simp] theorem setCe_ptile (s c x) : (setCe s c x).ptile = s.ptile := rfl
@[simp] theorem setCe_ramp (s c x) : (setCe s c x).ramp = s.ramp := rfl
@[simp] theorem setCe_hbmStacks (s c x) : (setCe s c x).hbmStacks = s.hbmStacks := rfl
@[simp] theorem setCe_lineQ (s c x) : (setCe s c x).lineQ = s.lineQ := rfl
@[simp] theorem setCe_folio (s c x) : (setCe s c x).folio = s.folio := rfl
@[simp] theorem setCe_touched (s c x) : (setCe s c x).touched = s.touched := rfl
@[simp] theorem setCe_flues (s c x) : (setCe s c x).flues = s.flues := rfl
@[simp] theorem setCe_router (s c x) : (setCe s c x).router = s.router := rfl
@[simp] theorem setCe_slots (s c x) : (setCe s c x).slots = s.slots := rfl
@[simp] theorem setCe_planned (s c x) : (setCe s c x).planned = s.planned := rfl
@[simp] theorem setCe_clock (s c x) : (setCe s c x).clock = s.clock := rfl
@[simp] theorem setCe_lend (s c x) : (setCe s c x).lend = s.lend := rfl
@[simp] theorem setCe_digest (s c x) : (setCe s c x).digest = s.digest := rfl
@[simp] theorem setCe_classRep (s c x) : (setCe s c x).classRep = s.classRep := rfl
@[simp] theorem setCe_classCmd (s c x) : (setCe s c x).classCmd = s.classCmd := rfl
@[simp] theorem setCe_perm (s c x) : (setCe s c x).perm = s.perm := rfl
@[simp] theorem setCe_migr (s c x) : (setCe s c x).migr = s.migr := rfl
@[simp] theorem setCe_test (s c x) : (setCe s c x).test = s.test := rfl
@[simp] theorem setCe_rotNext (s c x) : (setCe s c x).rotNext = s.rotNext := rfl
@[simp] theorem setCe_testDue (s c x) : (setCe s c x).testDue = s.testDue := rfl
@[simp] theorem setCe_bistDue (s c x) : (setCe s c x).bistDue = s.bistDue := rfl
@[simp] theorem setCe_push (s c x) : (setCe s c x).push = s.push := rfl
@[simp] theorem setCe_pushNode (s c x) : (setCe s c x).pushNode = s.pushNode := rfl
@[simp] theorem setCe_pushBad (s c x) : (setCe s c x).pushBad = s.pushBad := rfl
@[simp] theorem setCe_doms (s c x) : (setCe s c x).doms = s.doms := rfl
@[simp] theorem setCe_resetQ (s c x) : (setCe s c x).resetQ = s.resetQ := rfl
@[simp] theorem setCe_update (s c x) : (setCe s c x).update = s.update := rfl
@[simp] theorem setCe_staged (s c x) : (setCe s c x).staged = s.staged := rfl
@[simp] theorem setCe_checking (s c x) : (setCe s c x).checking = s.checking := rfl
@[simp] theorem setCe_fw (s c x) : (setCe s c x).fw = s.fw := rfl
@[simp] theorem setCe_images (s c x) : (setCe s c x).images = s.images := rfl
@[simp] theorem setCe_fuses (s c x) : (setCe s c x).fuses = s.fuses := rfl
@[simp] theorem setCe_ledger (s c x) : (setCe s c x).ledger = s.ledger := rfl
@[simp] theorem setCe_testset (s c x) : (setCe s c x).testset = s.testset := rfl
@[simp] theorem setCe_testbuf (s c x) : (setCe s c x).testbuf = s.testbuf := rfl
@[simp] theorem setCe_mrlog (s c x) : (setCe s c x).mrlog = s.mrlog := rfl
@[simp] theorem setCe_mrPend (s c x) : (setCe s c x).mrPend = s.mrPend := rfl
@[simp] theorem setCe_lifetime (s c x) : (setCe s c x).lifetime = s.lifetime := rfl
@[simp] theorem setCe_wear (s c x) : (setCe s c x).wear = s.wear := rfl
@[simp] theorem setCe_rails (s c x) : (setCe s c x).rails = s.rails := rfl
@[simp] theorem setCe_railBad (s c x) : (setCe s c x).railBad = s.railBad := rfl
@[simp] theorem setCe_energyRem (s c x) : (setCe s c x).energyRem = s.energyRem := rfl
@[simp] theorem setCe_warned (s c x) : (setCe s c x).warned = s.warned := rfl
@[simp] theorem setCe_timers (s c x) : (setCe s c x).timers = s.timers := rfl
@[simp] theorem setCe_statReset (s c x) : (setCe s c x).statReset = s.statReset := rfl
@[simp] theorem setCe_eb (s c x) : (setCe s c x).eb = s.eb := rfl
@[simp] theorem setCe_pins (s c x) : (setCe s c x).pins = s.pins := rfl

@[simp] theorem setDom_pending (s d x) : (setDom s d x).pending = s.pending := rfl
@[simp] theorem setDom_gsc (s d x) : (setDom s d x).gsc = s.gsc := rfl
@[simp] theorem setDom_freeCtr (s d x) : (setDom s d x).freeCtr = s.freeCtr := rfl
@[simp] theorem setDom_regs (s d x) : (setDom s d x).regs = s.regs := rfl
@[simp] theorem setDom_mem (s d x) : (setDom s d x).mem = s.mem := rfl
@[simp] theorem setDom_poison (s d x) : (setDom s d x).poison = s.poison := rfl
@[simp] theorem setDom_engines (s d x) : (setDom s d x).engines = s.engines := rfl
@[simp] theorem setDom_tiles (s d x) : (setDom s d x).tiles = s.tiles := rfl
@[simp] theorem setDom_ctxs (s d x) : (setDom s d x).ctxs = s.ctxs := rfl
@[simp] theorem setDom_mark (s d x) : (setDom s d x).mark = s.mark := rfl
@[simp] theorem setDom_snapNum (s d x) : (setDom s d x).snapNum = s.snapNum := rfl
@[simp] theorem setDom_snapWaits (s d x) : (setDom s d x).snapWaits = s.snapWaits := rfl
@[simp] theorem setDom_tmap (s d x) : (setDom s d x).tmap = s.tmap := rfl
@[simp] theorem setDom_ptile (s d x) : (setDom s d x).ptile = s.ptile := rfl
@[simp] theorem setDom_ramp (s d x) : (setDom s d x).ramp = s.ramp := rfl
@[simp] theorem setDom_hbmStacks (s d x) : (setDom s d x).hbmStacks = s.hbmStacks := rfl
@[simp] theorem setDom_lineQ (s d x) : (setDom s d x).lineQ = s.lineQ := rfl
@[simp] theorem setDom_folio (s d x) : (setDom s d x).folio = s.folio := rfl
@[simp] theorem setDom_touched (s d x) : (setDom s d x).touched = s.touched := rfl
@[simp] theorem setDom_flues (s d x) : (setDom s d x).flues = s.flues := rfl
@[simp] theorem setDom_router (s d x) : (setDom s d x).router = s.router := rfl
@[simp] theorem setDom_slots (s d x) : (setDom s d x).slots = s.slots := rfl
@[simp] theorem setDom_planned (s d x) : (setDom s d x).planned = s.planned := rfl
@[simp] theorem setDom_ces (s d x) : (setDom s d x).ces = s.ces := rfl
@[simp] theorem setDom_clock (s d x) : (setDom s d x).clock = s.clock := rfl
@[simp] theorem setDom_lend (s d x) : (setDom s d x).lend = s.lend := rfl
@[simp] theorem setDom_digest (s d x) : (setDom s d x).digest = s.digest := rfl
@[simp] theorem setDom_classRep (s d x) : (setDom s d x).classRep = s.classRep := rfl
@[simp] theorem setDom_classCmd (s d x) : (setDom s d x).classCmd = s.classCmd := rfl
@[simp] theorem setDom_perm (s d x) : (setDom s d x).perm = s.perm := rfl
@[simp] theorem setDom_migr (s d x) : (setDom s d x).migr = s.migr := rfl
@[simp] theorem setDom_test (s d x) : (setDom s d x).test = s.test := rfl
@[simp] theorem setDom_rotNext (s d x) : (setDom s d x).rotNext = s.rotNext := rfl
@[simp] theorem setDom_testDue (s d x) : (setDom s d x).testDue = s.testDue := rfl
@[simp] theorem setDom_bistDue (s d x) : (setDom s d x).bistDue = s.bistDue := rfl
@[simp] theorem setDom_push (s d x) : (setDom s d x).push = s.push := rfl
@[simp] theorem setDom_pushNode (s d x) : (setDom s d x).pushNode = s.pushNode := rfl
@[simp] theorem setDom_pushBad (s d x) : (setDom s d x).pushBad = s.pushBad := rfl
@[simp] theorem setDom_resetQ (s d x) : (setDom s d x).resetQ = s.resetQ := rfl
@[simp] theorem setDom_update (s d x) : (setDom s d x).update = s.update := rfl
@[simp] theorem setDom_staged (s d x) : (setDom s d x).staged = s.staged := rfl
@[simp] theorem setDom_checking (s d x) : (setDom s d x).checking = s.checking := rfl
@[simp] theorem setDom_fw (s d x) : (setDom s d x).fw = s.fw := rfl
@[simp] theorem setDom_images (s d x) : (setDom s d x).images = s.images := rfl
@[simp] theorem setDom_fuses (s d x) : (setDom s d x).fuses = s.fuses := rfl
@[simp] theorem setDom_ledger (s d x) : (setDom s d x).ledger = s.ledger := rfl
@[simp] theorem setDom_testset (s d x) : (setDom s d x).testset = s.testset := rfl
@[simp] theorem setDom_testbuf (s d x) : (setDom s d x).testbuf = s.testbuf := rfl
@[simp] theorem setDom_mrlog (s d x) : (setDom s d x).mrlog = s.mrlog := rfl
@[simp] theorem setDom_mrPend (s d x) : (setDom s d x).mrPend = s.mrPend := rfl
@[simp] theorem setDom_lifetime (s d x) : (setDom s d x).lifetime = s.lifetime := rfl
@[simp] theorem setDom_wear (s d x) : (setDom s d x).wear = s.wear := rfl
@[simp] theorem setDom_rails (s d x) : (setDom s d x).rails = s.rails := rfl
@[simp] theorem setDom_railBad (s d x) : (setDom s d x).railBad = s.railBad := rfl
@[simp] theorem setDom_energyRem (s d x) : (setDom s d x).energyRem = s.energyRem := rfl
@[simp] theorem setDom_warned (s d x) : (setDom s d x).warned = s.warned := rfl
@[simp] theorem setDom_timers (s d x) : (setDom s d x).timers = s.timers := rfl
@[simp] theorem setDom_statReset (s d x) : (setDom s d x).statReset = s.statReset := rfl
@[simp] theorem setDom_eb (s d x) : (setDom s d x).eb = s.eb := rfl
@[simp] theorem setDom_pins (s d x) : (setDom s d x).pins = s.pins := rfl

@[simp] theorem setFrame_pending (s n x) : (setFrame s n x).pending = s.pending := rfl
@[simp] theorem setFrame_gsc (s n x) : (setFrame s n x).gsc = s.gsc := rfl
@[simp] theorem setFrame_freeCtr (s n x) : (setFrame s n x).freeCtr = s.freeCtr := rfl
@[simp] theorem setFrame_regs (s n x) : (setFrame s n x).regs = s.regs := rfl
@[simp] theorem setFrame_mem (s n x) : (setFrame s n x).mem = s.mem := rfl
@[simp] theorem setFrame_poison (s n x) : (setFrame s n x).poison = s.poison := rfl
@[simp] theorem setFrame_engines (s n x) : (setFrame s n x).engines = s.engines := rfl
@[simp] theorem setFrame_tiles (s n x) : (setFrame s n x).tiles = s.tiles := rfl
@[simp] theorem setFrame_ctxs (s n x) : (setFrame s n x).ctxs = s.ctxs := rfl
@[simp] theorem setFrame_mark (s n x) : (setFrame s n x).mark = s.mark := rfl
@[simp] theorem setFrame_snapNum (s n x) : (setFrame s n x).snapNum = s.snapNum := rfl
@[simp] theorem setFrame_snapWaits (s n x) : (setFrame s n x).snapWaits = s.snapWaits := rfl
@[simp] theorem setFrame_tmap (s n x) : (setFrame s n x).tmap = s.tmap := rfl
@[simp] theorem setFrame_ptile (s n x) : (setFrame s n x).ptile = s.ptile := rfl
@[simp] theorem setFrame_ramp (s n x) : (setFrame s n x).ramp = s.ramp := rfl
@[simp] theorem setFrame_hbmStacks (s n x) : (setFrame s n x).hbmStacks = s.hbmStacks := rfl
@[simp] theorem setFrame_lineQ (s n x) : (setFrame s n x).lineQ = s.lineQ := rfl
@[simp] theorem setFrame_touched (s n x) : (setFrame s n x).touched = s.touched := rfl
@[simp] theorem setFrame_flues (s n x) : (setFrame s n x).flues = s.flues := rfl
@[simp] theorem setFrame_router (s n x) : (setFrame s n x).router = s.router := rfl
@[simp] theorem setFrame_slots (s n x) : (setFrame s n x).slots = s.slots := rfl
@[simp] theorem setFrame_planned (s n x) : (setFrame s n x).planned = s.planned := rfl
@[simp] theorem setFrame_ces (s n x) : (setFrame s n x).ces = s.ces := rfl
@[simp] theorem setFrame_clock (s n x) : (setFrame s n x).clock = s.clock := rfl
@[simp] theorem setFrame_lend (s n x) : (setFrame s n x).lend = s.lend := rfl
@[simp] theorem setFrame_digest (s n x) : (setFrame s n x).digest = s.digest := rfl
@[simp] theorem setFrame_classRep (s n x) : (setFrame s n x).classRep = s.classRep := rfl
@[simp] theorem setFrame_classCmd (s n x) : (setFrame s n x).classCmd = s.classCmd := rfl
@[simp] theorem setFrame_perm (s n x) : (setFrame s n x).perm = s.perm := rfl
@[simp] theorem setFrame_migr (s n x) : (setFrame s n x).migr = s.migr := rfl
@[simp] theorem setFrame_test (s n x) : (setFrame s n x).test = s.test := rfl
@[simp] theorem setFrame_rotNext (s n x) : (setFrame s n x).rotNext = s.rotNext := rfl
@[simp] theorem setFrame_testDue (s n x) : (setFrame s n x).testDue = s.testDue := rfl
@[simp] theorem setFrame_bistDue (s n x) : (setFrame s n x).bistDue = s.bistDue := rfl
@[simp] theorem setFrame_push (s n x) : (setFrame s n x).push = s.push := rfl
@[simp] theorem setFrame_pushNode (s n x) : (setFrame s n x).pushNode = s.pushNode := rfl
@[simp] theorem setFrame_pushBad (s n x) : (setFrame s n x).pushBad = s.pushBad := rfl
@[simp] theorem setFrame_doms (s n x) : (setFrame s n x).doms = s.doms := rfl
@[simp] theorem setFrame_resetQ (s n x) : (setFrame s n x).resetQ = s.resetQ := rfl
@[simp] theorem setFrame_update (s n x) : (setFrame s n x).update = s.update := rfl
@[simp] theorem setFrame_staged (s n x) : (setFrame s n x).staged = s.staged := rfl
@[simp] theorem setFrame_checking (s n x) : (setFrame s n x).checking = s.checking := rfl
@[simp] theorem setFrame_fw (s n x) : (setFrame s n x).fw = s.fw := rfl
@[simp] theorem setFrame_images (s n x) : (setFrame s n x).images = s.images := rfl
@[simp] theorem setFrame_fuses (s n x) : (setFrame s n x).fuses = s.fuses := rfl
@[simp] theorem setFrame_ledger (s n x) : (setFrame s n x).ledger = s.ledger := rfl
@[simp] theorem setFrame_testset (s n x) : (setFrame s n x).testset = s.testset := rfl
@[simp] theorem setFrame_testbuf (s n x) : (setFrame s n x).testbuf = s.testbuf := rfl
@[simp] theorem setFrame_mrlog (s n x) : (setFrame s n x).mrlog = s.mrlog := rfl
@[simp] theorem setFrame_mrPend (s n x) : (setFrame s n x).mrPend = s.mrPend := rfl
@[simp] theorem setFrame_lifetime (s n x) : (setFrame s n x).lifetime = s.lifetime := rfl
@[simp] theorem setFrame_wear (s n x) : (setFrame s n x).wear = s.wear := rfl
@[simp] theorem setFrame_rails (s n x) : (setFrame s n x).rails = s.rails := rfl
@[simp] theorem setFrame_railBad (s n x) : (setFrame s n x).railBad = s.railBad := rfl
@[simp] theorem setFrame_energyRem (s n x) : (setFrame s n x).energyRem = s.energyRem := rfl
@[simp] theorem setFrame_warned (s n x) : (setFrame s n x).warned = s.warned := rfl
@[simp] theorem setFrame_timers (s n x) : (setFrame s n x).timers = s.timers := rfl
@[simp] theorem setFrame_statReset (s n x) : (setFrame s n x).statReset = s.statReset := rfl
@[simp] theorem setFrame_eb (s n x) : (setFrame s n x).eb = s.eb := rfl
@[simp] theorem setFrame_pins (s n x) : (setFrame s n x).pins = s.pins := rfl

@[simp] theorem setTimer_pending (s k v) : (setTimer s k v).pending = s.pending := rfl
@[simp] theorem setTimer_gsc (s k v) : (setTimer s k v).gsc = s.gsc := rfl
@[simp] theorem setTimer_freeCtr (s k v) : (setTimer s k v).freeCtr = s.freeCtr := rfl
@[simp] theorem setTimer_regs (s k v) : (setTimer s k v).regs = s.regs := rfl
@[simp] theorem setTimer_mem (s k v) : (setTimer s k v).mem = s.mem := rfl
@[simp] theorem setTimer_poison (s k v) : (setTimer s k v).poison = s.poison := rfl
@[simp] theorem setTimer_engines (s k v) : (setTimer s k v).engines = s.engines := rfl
@[simp] theorem setTimer_tiles (s k v) : (setTimer s k v).tiles = s.tiles := rfl
@[simp] theorem setTimer_ctxs (s k v) : (setTimer s k v).ctxs = s.ctxs := rfl
@[simp] theorem setTimer_mark (s k v) : (setTimer s k v).mark = s.mark := rfl
@[simp] theorem setTimer_snapNum (s k v) : (setTimer s k v).snapNum = s.snapNum := rfl
@[simp] theorem setTimer_snapWaits (s k v) : (setTimer s k v).snapWaits = s.snapWaits := rfl
@[simp] theorem setTimer_tmap (s k v) : (setTimer s k v).tmap = s.tmap := rfl
@[simp] theorem setTimer_ptile (s k v) : (setTimer s k v).ptile = s.ptile := rfl
@[simp] theorem setTimer_ramp (s k v) : (setTimer s k v).ramp = s.ramp := rfl
@[simp] theorem setTimer_hbmStacks (s k v) : (setTimer s k v).hbmStacks = s.hbmStacks := rfl
@[simp] theorem setTimer_lineQ (s k v) : (setTimer s k v).lineQ = s.lineQ := rfl
@[simp] theorem setTimer_folio (s k v) : (setTimer s k v).folio = s.folio := rfl
@[simp] theorem setTimer_touched (s k v) : (setTimer s k v).touched = s.touched := rfl
@[simp] theorem setTimer_flues (s k v) : (setTimer s k v).flues = s.flues := rfl
@[simp] theorem setTimer_router (s k v) : (setTimer s k v).router = s.router := rfl
@[simp] theorem setTimer_slots (s k v) : (setTimer s k v).slots = s.slots := rfl
@[simp] theorem setTimer_planned (s k v) : (setTimer s k v).planned = s.planned := rfl
@[simp] theorem setTimer_ces (s k v) : (setTimer s k v).ces = s.ces := rfl
@[simp] theorem setTimer_clock (s k v) : (setTimer s k v).clock = s.clock := rfl
@[simp] theorem setTimer_lend (s k v) : (setTimer s k v).lend = s.lend := rfl
@[simp] theorem setTimer_digest (s k v) : (setTimer s k v).digest = s.digest := rfl
@[simp] theorem setTimer_classRep (s k v) : (setTimer s k v).classRep = s.classRep := rfl
@[simp] theorem setTimer_classCmd (s k v) : (setTimer s k v).classCmd = s.classCmd := rfl
@[simp] theorem setTimer_perm (s k v) : (setTimer s k v).perm = s.perm := rfl
@[simp] theorem setTimer_migr (s k v) : (setTimer s k v).migr = s.migr := rfl
@[simp] theorem setTimer_test (s k v) : (setTimer s k v).test = s.test := rfl
@[simp] theorem setTimer_rotNext (s k v) : (setTimer s k v).rotNext = s.rotNext := rfl
@[simp] theorem setTimer_testDue (s k v) : (setTimer s k v).testDue = s.testDue := rfl
@[simp] theorem setTimer_bistDue (s k v) : (setTimer s k v).bistDue = s.bistDue := rfl
@[simp] theorem setTimer_push (s k v) : (setTimer s k v).push = s.push := rfl
@[simp] theorem setTimer_pushNode (s k v) : (setTimer s k v).pushNode = s.pushNode := rfl
@[simp] theorem setTimer_pushBad (s k v) : (setTimer s k v).pushBad = s.pushBad := rfl
@[simp] theorem setTimer_doms (s k v) : (setTimer s k v).doms = s.doms := rfl
@[simp] theorem setTimer_resetQ (s k v) : (setTimer s k v).resetQ = s.resetQ := rfl
@[simp] theorem setTimer_update (s k v) : (setTimer s k v).update = s.update := rfl
@[simp] theorem setTimer_staged (s k v) : (setTimer s k v).staged = s.staged := rfl
@[simp] theorem setTimer_checking (s k v) : (setTimer s k v).checking = s.checking := rfl
@[simp] theorem setTimer_fw (s k v) : (setTimer s k v).fw = s.fw := rfl
@[simp] theorem setTimer_images (s k v) : (setTimer s k v).images = s.images := rfl
@[simp] theorem setTimer_fuses (s k v) : (setTimer s k v).fuses = s.fuses := rfl
@[simp] theorem setTimer_ledger (s k v) : (setTimer s k v).ledger = s.ledger := rfl
@[simp] theorem setTimer_testset (s k v) : (setTimer s k v).testset = s.testset := rfl
@[simp] theorem setTimer_testbuf (s k v) : (setTimer s k v).testbuf = s.testbuf := rfl
@[simp] theorem setTimer_mrlog (s k v) : (setTimer s k v).mrlog = s.mrlog := rfl
@[simp] theorem setTimer_mrPend (s k v) : (setTimer s k v).mrPend = s.mrPend := rfl
@[simp] theorem setTimer_lifetime (s k v) : (setTimer s k v).lifetime = s.lifetime := rfl
@[simp] theorem setTimer_wear (s k v) : (setTimer s k v).wear = s.wear := rfl
@[simp] theorem setTimer_rails (s k v) : (setTimer s k v).rails = s.rails := rfl
@[simp] theorem setTimer_railBad (s k v) : (setTimer s k v).railBad = s.railBad := rfl
@[simp] theorem setTimer_energyRem (s k v) : (setTimer s k v).energyRem = s.energyRem := rfl
@[simp] theorem setTimer_warned (s k v) : (setTimer s k v).warned = s.warned := rfl
@[simp] theorem setTimer_statReset (s k v) : (setTimer s k v).statReset = s.statReset := rfl
@[simp] theorem setTimer_eb (s k v) : (setTimer s k v).eb = s.eb := rfl
@[simp] theorem setTimer_pins (s k v) : (setTimer s k v).pins = s.pins := rfl

@[simp] theorem setSlot_pending (s i x) : (setSlot s i x).pending = s.pending := rfl
@[simp] theorem setSlot_gsc (s i x) : (setSlot s i x).gsc = s.gsc := rfl
@[simp] theorem setSlot_freeCtr (s i x) : (setSlot s i x).freeCtr = s.freeCtr := rfl
@[simp] theorem setSlot_regs (s i x) : (setSlot s i x).regs = s.regs := rfl
@[simp] theorem setSlot_mem (s i x) : (setSlot s i x).mem = s.mem := rfl
@[simp] theorem setSlot_poison (s i x) : (setSlot s i x).poison = s.poison := rfl
@[simp] theorem setSlot_engines (s i x) : (setSlot s i x).engines = s.engines := rfl
@[simp] theorem setSlot_tiles (s i x) : (setSlot s i x).tiles = s.tiles := rfl
@[simp] theorem setSlot_ctxs (s i x) : (setSlot s i x).ctxs = s.ctxs := rfl
@[simp] theorem setSlot_mark (s i x) : (setSlot s i x).mark = s.mark := rfl
@[simp] theorem setSlot_snapNum (s i x) : (setSlot s i x).snapNum = s.snapNum := rfl
@[simp] theorem setSlot_snapWaits (s i x) : (setSlot s i x).snapWaits = s.snapWaits := rfl
@[simp] theorem setSlot_tmap (s i x) : (setSlot s i x).tmap = s.tmap := rfl
@[simp] theorem setSlot_ptile (s i x) : (setSlot s i x).ptile = s.ptile := rfl
@[simp] theorem setSlot_ramp (s i x) : (setSlot s i x).ramp = s.ramp := rfl
@[simp] theorem setSlot_hbmStacks (s i x) : (setSlot s i x).hbmStacks = s.hbmStacks := rfl
@[simp] theorem setSlot_lineQ (s i x) : (setSlot s i x).lineQ = s.lineQ := rfl
@[simp] theorem setSlot_folio (s i x) : (setSlot s i x).folio = s.folio := rfl
@[simp] theorem setSlot_touched (s i x) : (setSlot s i x).touched = s.touched := rfl
@[simp] theorem setSlot_flues (s i x) : (setSlot s i x).flues = s.flues := rfl
@[simp] theorem setSlot_router (s i x) : (setSlot s i x).router = s.router := rfl
@[simp] theorem setSlot_planned (s i x) : (setSlot s i x).planned = s.planned := rfl
@[simp] theorem setSlot_ces (s i x) : (setSlot s i x).ces = s.ces := rfl
@[simp] theorem setSlot_clock (s i x) : (setSlot s i x).clock = s.clock := rfl
@[simp] theorem setSlot_lend (s i x) : (setSlot s i x).lend = s.lend := rfl
@[simp] theorem setSlot_digest (s i x) : (setSlot s i x).digest = s.digest := rfl
@[simp] theorem setSlot_classRep (s i x) : (setSlot s i x).classRep = s.classRep := rfl
@[simp] theorem setSlot_classCmd (s i x) : (setSlot s i x).classCmd = s.classCmd := rfl
@[simp] theorem setSlot_perm (s i x) : (setSlot s i x).perm = s.perm := rfl
@[simp] theorem setSlot_migr (s i x) : (setSlot s i x).migr = s.migr := rfl
@[simp] theorem setSlot_test (s i x) : (setSlot s i x).test = s.test := rfl
@[simp] theorem setSlot_rotNext (s i x) : (setSlot s i x).rotNext = s.rotNext := rfl
@[simp] theorem setSlot_testDue (s i x) : (setSlot s i x).testDue = s.testDue := rfl
@[simp] theorem setSlot_bistDue (s i x) : (setSlot s i x).bistDue = s.bistDue := rfl
@[simp] theorem setSlot_push (s i x) : (setSlot s i x).push = s.push := rfl
@[simp] theorem setSlot_pushNode (s i x) : (setSlot s i x).pushNode = s.pushNode := rfl
@[simp] theorem setSlot_pushBad (s i x) : (setSlot s i x).pushBad = s.pushBad := rfl
@[simp] theorem setSlot_doms (s i x) : (setSlot s i x).doms = s.doms := rfl
@[simp] theorem setSlot_resetQ (s i x) : (setSlot s i x).resetQ = s.resetQ := rfl
@[simp] theorem setSlot_update (s i x) : (setSlot s i x).update = s.update := rfl
@[simp] theorem setSlot_staged (s i x) : (setSlot s i x).staged = s.staged := rfl
@[simp] theorem setSlot_checking (s i x) : (setSlot s i x).checking = s.checking := rfl
@[simp] theorem setSlot_fw (s i x) : (setSlot s i x).fw = s.fw := rfl
@[simp] theorem setSlot_images (s i x) : (setSlot s i x).images = s.images := rfl
@[simp] theorem setSlot_fuses (s i x) : (setSlot s i x).fuses = s.fuses := rfl
@[simp] theorem setSlot_ledger (s i x) : (setSlot s i x).ledger = s.ledger := rfl
@[simp] theorem setSlot_testset (s i x) : (setSlot s i x).testset = s.testset := rfl
@[simp] theorem setSlot_testbuf (s i x) : (setSlot s i x).testbuf = s.testbuf := rfl
@[simp] theorem setSlot_mrlog (s i x) : (setSlot s i x).mrlog = s.mrlog := rfl
@[simp] theorem setSlot_mrPend (s i x) : (setSlot s i x).mrPend = s.mrPend := rfl
@[simp] theorem setSlot_lifetime (s i x) : (setSlot s i x).lifetime = s.lifetime := rfl
@[simp] theorem setSlot_wear (s i x) : (setSlot s i x).wear = s.wear := rfl
@[simp] theorem setSlot_rails (s i x) : (setSlot s i x).rails = s.rails := rfl
@[simp] theorem setSlot_railBad (s i x) : (setSlot s i x).railBad = s.railBad := rfl
@[simp] theorem setSlot_energyRem (s i x) : (setSlot s i x).energyRem = s.energyRem := rfl
@[simp] theorem setSlot_warned (s i x) : (setSlot s i x).warned = s.warned := rfl
@[simp] theorem setSlot_timers (s i x) : (setSlot s i x).timers = s.timers := rfl
@[simp] theorem setSlot_statReset (s i x) : (setSlot s i x).statReset = s.statReset := rfl
@[simp] theorem setSlot_eb (s i x) : (setSlot s i x).eb = s.eb := rfl
@[simp] theorem setSlot_pins (s i x) : (setSlot s i x).pins = s.pins := rfl

@[simp] theorem advance_pending (s dt) : (advance s dt).pending = s.pending := rfl
@[simp] theorem advance_freeCtr (s dt) : (advance s dt).freeCtr = s.freeCtr := rfl
@[simp] theorem advance_regs (s dt) : (advance s dt).regs = s.regs := rfl
@[simp] theorem advance_mem (s dt) : (advance s dt).mem = s.mem := rfl
@[simp] theorem advance_poison (s dt) : (advance s dt).poison = s.poison := rfl
@[simp] theorem advance_engines (s dt) : (advance s dt).engines = s.engines := rfl
@[simp] theorem advance_tiles (s dt) : (advance s dt).tiles = s.tiles := rfl
@[simp] theorem advance_ctxs (s dt) : (advance s dt).ctxs = s.ctxs := rfl
@[simp] theorem advance_mark (s dt) : (advance s dt).mark = s.mark := rfl
@[simp] theorem advance_snapNum (s dt) : (advance s dt).snapNum = s.snapNum := rfl
@[simp] theorem advance_snapWaits (s dt) : (advance s dt).snapWaits = s.snapWaits := rfl
@[simp] theorem advance_tmap (s dt) : (advance s dt).tmap = s.tmap := rfl
@[simp] theorem advance_ptile (s dt) : (advance s dt).ptile = s.ptile := rfl
@[simp] theorem advance_ramp (s dt) : (advance s dt).ramp = s.ramp := rfl
@[simp] theorem advance_hbmStacks (s dt) : (advance s dt).hbmStacks = s.hbmStacks := rfl
@[simp] theorem advance_lineQ (s dt) : (advance s dt).lineQ = s.lineQ := rfl
@[simp] theorem advance_folio (s dt) : (advance s dt).folio = s.folio := rfl
@[simp] theorem advance_touched (s dt) : (advance s dt).touched = s.touched := rfl
@[simp] theorem advance_flues (s dt) : (advance s dt).flues = s.flues := rfl
@[simp] theorem advance_router (s dt) : (advance s dt).router = s.router := rfl
@[simp] theorem advance_slots (s dt) : (advance s dt).slots = s.slots := rfl
@[simp] theorem advance_planned (s dt) : (advance s dt).planned = s.planned := rfl
@[simp] theorem advance_ces (s dt) : (advance s dt).ces = s.ces := rfl
@[simp] theorem advance_clock (s dt) : (advance s dt).clock = s.clock := rfl
@[simp] theorem advance_lend (s dt) : (advance s dt).lend = s.lend := rfl
@[simp] theorem advance_digest (s dt) : (advance s dt).digest = s.digest := rfl
@[simp] theorem advance_classRep (s dt) : (advance s dt).classRep = s.classRep := rfl
@[simp] theorem advance_classCmd (s dt) : (advance s dt).classCmd = s.classCmd := rfl
@[simp] theorem advance_perm (s dt) : (advance s dt).perm = s.perm := rfl
@[simp] theorem advance_migr (s dt) : (advance s dt).migr = s.migr := rfl
@[simp] theorem advance_test (s dt) : (advance s dt).test = s.test := rfl
@[simp] theorem advance_rotNext (s dt) : (advance s dt).rotNext = s.rotNext := rfl
@[simp] theorem advance_testDue (s dt) : (advance s dt).testDue = s.testDue := rfl
@[simp] theorem advance_bistDue (s dt) : (advance s dt).bistDue = s.bistDue := rfl
@[simp] theorem advance_push (s dt) : (advance s dt).push = s.push := rfl
@[simp] theorem advance_pushNode (s dt) : (advance s dt).pushNode = s.pushNode := rfl
@[simp] theorem advance_pushBad (s dt) : (advance s dt).pushBad = s.pushBad := rfl
@[simp] theorem advance_doms (s dt) : (advance s dt).doms = s.doms := rfl
@[simp] theorem advance_resetQ (s dt) : (advance s dt).resetQ = s.resetQ := rfl
@[simp] theorem advance_update (s dt) : (advance s dt).update = s.update := rfl
@[simp] theorem advance_staged (s dt) : (advance s dt).staged = s.staged := rfl
@[simp] theorem advance_checking (s dt) : (advance s dt).checking = s.checking := rfl
@[simp] theorem advance_fw (s dt) : (advance s dt).fw = s.fw := rfl
@[simp] theorem advance_images (s dt) : (advance s dt).images = s.images := rfl
@[simp] theorem advance_fuses (s dt) : (advance s dt).fuses = s.fuses := rfl
@[simp] theorem advance_ledger (s dt) : (advance s dt).ledger = s.ledger := rfl
@[simp] theorem advance_testset (s dt) : (advance s dt).testset = s.testset := rfl
@[simp] theorem advance_testbuf (s dt) : (advance s dt).testbuf = s.testbuf := rfl
@[simp] theorem advance_mrlog (s dt) : (advance s dt).mrlog = s.mrlog := rfl
@[simp] theorem advance_mrPend (s dt) : (advance s dt).mrPend = s.mrPend := rfl
@[simp] theorem advance_lifetime (s dt) : (advance s dt).lifetime = s.lifetime := rfl
@[simp] theorem advance_wear (s dt) : (advance s dt).wear = s.wear := rfl
@[simp] theorem advance_rails (s dt) : (advance s dt).rails = s.rails := rfl
@[simp] theorem advance_railBad (s dt) : (advance s dt).railBad = s.railBad := rfl
@[simp] theorem advance_energyRem (s dt) : (advance s dt).energyRem = s.energyRem := rfl
@[simp] theorem advance_warned (s dt) : (advance s dt).warned = s.warned := rfl
@[simp] theorem advance_timers (s dt) : (advance s dt).timers = s.timers := rfl
@[simp] theorem advance_statReset (s dt) : (advance s dt).statReset = s.statReset := rfl
@[simp] theorem advance_eb (s dt) : (advance s dt).eb = s.eb := rfl
@[simp] theorem advance_pins (s dt) : (advance s dt).pins = s.pins := rfl

@[simp] theorem ebOut_pending (s m) : (ebOut s m).pending = s.pending := rfl
@[simp] theorem ebOut_gsc (s m) : (ebOut s m).gsc = s.gsc := rfl
@[simp] theorem ebOut_freeCtr (s m) : (ebOut s m).freeCtr = s.freeCtr := rfl
@[simp] theorem ebOut_regs (s m) : (ebOut s m).regs = s.regs := rfl
@[simp] theorem ebOut_mem (s m) : (ebOut s m).mem = s.mem := rfl
@[simp] theorem ebOut_poison (s m) : (ebOut s m).poison = s.poison := rfl
@[simp] theorem ebOut_engines (s m) : (ebOut s m).engines = s.engines := rfl
@[simp] theorem ebOut_tiles (s m) : (ebOut s m).tiles = s.tiles := rfl
@[simp] theorem ebOut_ctxs (s m) : (ebOut s m).ctxs = s.ctxs := rfl
@[simp] theorem ebOut_mark (s m) : (ebOut s m).mark = s.mark := rfl
@[simp] theorem ebOut_snapNum (s m) : (ebOut s m).snapNum = s.snapNum := rfl
@[simp] theorem ebOut_snapWaits (s m) : (ebOut s m).snapWaits = s.snapWaits := rfl
@[simp] theorem ebOut_tmap (s m) : (ebOut s m).tmap = s.tmap := rfl
@[simp] theorem ebOut_ptile (s m) : (ebOut s m).ptile = s.ptile := rfl
@[simp] theorem ebOut_ramp (s m) : (ebOut s m).ramp = s.ramp := rfl
@[simp] theorem ebOut_hbmStacks (s m) : (ebOut s m).hbmStacks = s.hbmStacks := rfl
@[simp] theorem ebOut_lineQ (s m) : (ebOut s m).lineQ = s.lineQ := rfl
@[simp] theorem ebOut_folio (s m) : (ebOut s m).folio = s.folio := rfl
@[simp] theorem ebOut_touched (s m) : (ebOut s m).touched = s.touched := rfl
@[simp] theorem ebOut_flues (s m) : (ebOut s m).flues = s.flues := rfl
@[simp] theorem ebOut_router (s m) : (ebOut s m).router = s.router := rfl
@[simp] theorem ebOut_slots (s m) : (ebOut s m).slots = s.slots := rfl
@[simp] theorem ebOut_planned (s m) : (ebOut s m).planned = s.planned := rfl
@[simp] theorem ebOut_ces (s m) : (ebOut s m).ces = s.ces := rfl
@[simp] theorem ebOut_clock (s m) : (ebOut s m).clock = s.clock := rfl
@[simp] theorem ebOut_lend (s m) : (ebOut s m).lend = s.lend := rfl
@[simp] theorem ebOut_digest (s m) : (ebOut s m).digest = s.digest := rfl
@[simp] theorem ebOut_classRep (s m) : (ebOut s m).classRep = s.classRep := rfl
@[simp] theorem ebOut_classCmd (s m) : (ebOut s m).classCmd = s.classCmd := rfl
@[simp] theorem ebOut_perm (s m) : (ebOut s m).perm = s.perm := rfl
@[simp] theorem ebOut_migr (s m) : (ebOut s m).migr = s.migr := rfl
@[simp] theorem ebOut_test (s m) : (ebOut s m).test = s.test := rfl
@[simp] theorem ebOut_rotNext (s m) : (ebOut s m).rotNext = s.rotNext := rfl
@[simp] theorem ebOut_testDue (s m) : (ebOut s m).testDue = s.testDue := rfl
@[simp] theorem ebOut_bistDue (s m) : (ebOut s m).bistDue = s.bistDue := rfl
@[simp] theorem ebOut_push (s m) : (ebOut s m).push = s.push := rfl
@[simp] theorem ebOut_pushNode (s m) : (ebOut s m).pushNode = s.pushNode := rfl
@[simp] theorem ebOut_pushBad (s m) : (ebOut s m).pushBad = s.pushBad := rfl
@[simp] theorem ebOut_doms (s m) : (ebOut s m).doms = s.doms := rfl
@[simp] theorem ebOut_resetQ (s m) : (ebOut s m).resetQ = s.resetQ := rfl
@[simp] theorem ebOut_update (s m) : (ebOut s m).update = s.update := rfl
@[simp] theorem ebOut_staged (s m) : (ebOut s m).staged = s.staged := rfl
@[simp] theorem ebOut_checking (s m) : (ebOut s m).checking = s.checking := rfl
@[simp] theorem ebOut_fw (s m) : (ebOut s m).fw = s.fw := rfl
@[simp] theorem ebOut_images (s m) : (ebOut s m).images = s.images := rfl
@[simp] theorem ebOut_fuses (s m) : (ebOut s m).fuses = s.fuses := rfl
@[simp] theorem ebOut_ledger (s m) : (ebOut s m).ledger = s.ledger := rfl
@[simp] theorem ebOut_testset (s m) : (ebOut s m).testset = s.testset := rfl
@[simp] theorem ebOut_testbuf (s m) : (ebOut s m).testbuf = s.testbuf := rfl
@[simp] theorem ebOut_mrlog (s m) : (ebOut s m).mrlog = s.mrlog := rfl
@[simp] theorem ebOut_mrPend (s m) : (ebOut s m).mrPend = s.mrPend := rfl
@[simp] theorem ebOut_lifetime (s m) : (ebOut s m).lifetime = s.lifetime := rfl
@[simp] theorem ebOut_wear (s m) : (ebOut s m).wear = s.wear := rfl
@[simp] theorem ebOut_rails (s m) : (ebOut s m).rails = s.rails := rfl
@[simp] theorem ebOut_railBad (s m) : (ebOut s m).railBad = s.railBad := rfl
@[simp] theorem ebOut_energyRem (s m) : (ebOut s m).energyRem = s.energyRem := rfl
@[simp] theorem ebOut_warned (s m) : (ebOut s m).warned = s.warned := rfl
@[simp] theorem ebOut_timers (s m) : (ebOut s m).timers = s.timers := rfl
@[simp] theorem ebOut_statReset (s m) : (ebOut s m).statReset = s.statReset := rfl
@[simp] theorem ebOut_pins (s m) : (ebOut s m).pins = s.pins := rfl

@[simp] theorem sendPkt_pending (s p) : (sendPkt s p).pending = s.pending := rfl
@[simp] theorem sendPkt_gsc (s p) : (sendPkt s p).gsc = s.gsc := rfl
@[simp] theorem sendPkt_freeCtr (s p) : (sendPkt s p).freeCtr = s.freeCtr := rfl
@[simp] theorem sendPkt_regs (s p) : (sendPkt s p).regs = s.regs := rfl
@[simp] theorem sendPkt_mem (s p) : (sendPkt s p).mem = s.mem := rfl
@[simp] theorem sendPkt_poison (s p) : (sendPkt s p).poison = s.poison := rfl
@[simp] theorem sendPkt_engines (s p) : (sendPkt s p).engines = s.engines := rfl
@[simp] theorem sendPkt_tiles (s p) : (sendPkt s p).tiles = s.tiles := rfl
@[simp] theorem sendPkt_ctxs (s p) : (sendPkt s p).ctxs = s.ctxs := rfl
@[simp] theorem sendPkt_mark (s p) : (sendPkt s p).mark = s.mark := rfl
@[simp] theorem sendPkt_snapNum (s p) : (sendPkt s p).snapNum = s.snapNum := rfl
@[simp] theorem sendPkt_snapWaits (s p) : (sendPkt s p).snapWaits = s.snapWaits := rfl
@[simp] theorem sendPkt_tmap (s p) : (sendPkt s p).tmap = s.tmap := rfl
@[simp] theorem sendPkt_ptile (s p) : (sendPkt s p).ptile = s.ptile := rfl
@[simp] theorem sendPkt_ramp (s p) : (sendPkt s p).ramp = s.ramp := rfl
@[simp] theorem sendPkt_hbmStacks (s p) : (sendPkt s p).hbmStacks = s.hbmStacks := rfl
@[simp] theorem sendPkt_lineQ (s p) : (sendPkt s p).lineQ = s.lineQ := rfl
@[simp] theorem sendPkt_folio (s p) : (sendPkt s p).folio = s.folio := rfl
@[simp] theorem sendPkt_touched (s p) : (sendPkt s p).touched = s.touched := rfl
@[simp] theorem sendPkt_flues (s p) : (sendPkt s p).flues = s.flues := rfl
@[simp] theorem sendPkt_slots (s p) : (sendPkt s p).slots = s.slots := rfl
@[simp] theorem sendPkt_planned (s p) : (sendPkt s p).planned = s.planned := rfl
@[simp] theorem sendPkt_ces (s p) : (sendPkt s p).ces = s.ces := rfl
@[simp] theorem sendPkt_clock (s p) : (sendPkt s p).clock = s.clock := rfl
@[simp] theorem sendPkt_lend (s p) : (sendPkt s p).lend = s.lend := rfl
@[simp] theorem sendPkt_digest (s p) : (sendPkt s p).digest = s.digest := rfl
@[simp] theorem sendPkt_classRep (s p) : (sendPkt s p).classRep = s.classRep := rfl
@[simp] theorem sendPkt_classCmd (s p) : (sendPkt s p).classCmd = s.classCmd := rfl
@[simp] theorem sendPkt_perm (s p) : (sendPkt s p).perm = s.perm := rfl
@[simp] theorem sendPkt_migr (s p) : (sendPkt s p).migr = s.migr := rfl
@[simp] theorem sendPkt_test (s p) : (sendPkt s p).test = s.test := rfl
@[simp] theorem sendPkt_rotNext (s p) : (sendPkt s p).rotNext = s.rotNext := rfl
@[simp] theorem sendPkt_testDue (s p) : (sendPkt s p).testDue = s.testDue := rfl
@[simp] theorem sendPkt_bistDue (s p) : (sendPkt s p).bistDue = s.bistDue := rfl
@[simp] theorem sendPkt_push (s p) : (sendPkt s p).push = s.push := rfl
@[simp] theorem sendPkt_pushNode (s p) : (sendPkt s p).pushNode = s.pushNode := rfl
@[simp] theorem sendPkt_pushBad (s p) : (sendPkt s p).pushBad = s.pushBad := rfl
@[simp] theorem sendPkt_doms (s p) : (sendPkt s p).doms = s.doms := rfl
@[simp] theorem sendPkt_resetQ (s p) : (sendPkt s p).resetQ = s.resetQ := rfl
@[simp] theorem sendPkt_update (s p) : (sendPkt s p).update = s.update := rfl
@[simp] theorem sendPkt_staged (s p) : (sendPkt s p).staged = s.staged := rfl
@[simp] theorem sendPkt_checking (s p) : (sendPkt s p).checking = s.checking := rfl
@[simp] theorem sendPkt_fw (s p) : (sendPkt s p).fw = s.fw := rfl
@[simp] theorem sendPkt_images (s p) : (sendPkt s p).images = s.images := rfl
@[simp] theorem sendPkt_fuses (s p) : (sendPkt s p).fuses = s.fuses := rfl
@[simp] theorem sendPkt_ledger (s p) : (sendPkt s p).ledger = s.ledger := rfl
@[simp] theorem sendPkt_testset (s p) : (sendPkt s p).testset = s.testset := rfl
@[simp] theorem sendPkt_testbuf (s p) : (sendPkt s p).testbuf = s.testbuf := rfl
@[simp] theorem sendPkt_mrlog (s p) : (sendPkt s p).mrlog = s.mrlog := rfl
@[simp] theorem sendPkt_mrPend (s p) : (sendPkt s p).mrPend = s.mrPend := rfl
@[simp] theorem sendPkt_lifetime (s p) : (sendPkt s p).lifetime = s.lifetime := rfl
@[simp] theorem sendPkt_wear (s p) : (sendPkt s p).wear = s.wear := rfl
@[simp] theorem sendPkt_rails (s p) : (sendPkt s p).rails = s.rails := rfl
@[simp] theorem sendPkt_railBad (s p) : (sendPkt s p).railBad = s.railBad := rfl
@[simp] theorem sendPkt_energyRem (s p) : (sendPkt s p).energyRem = s.energyRem := rfl
@[simp] theorem sendPkt_warned (s p) : (sendPkt s p).warned = s.warned := rfl
@[simp] theorem sendPkt_timers (s p) : (sendPkt s p).timers = s.timers := rfl
@[simp] theorem sendPkt_statReset (s p) : (sendPkt s p).statReset = s.statReset := rfl
@[simp] theorem sendPkt_eb (s p) : (sendPkt s p).eb = s.eb := rfl
@[simp] theorem sendPkt_pins (s p) : (sendPkt s p).pins = s.pins := rfl

@[simp] theorem takeArrived_pending (s p) : (takeArrived s p).pending = s.pending := rfl
@[simp] theorem takeArrived_gsc (s p) : (takeArrived s p).gsc = s.gsc := rfl
@[simp] theorem takeArrived_freeCtr (s p) : (takeArrived s p).freeCtr = s.freeCtr := rfl
@[simp] theorem takeArrived_regs (s p) : (takeArrived s p).regs = s.regs := rfl
@[simp] theorem takeArrived_mem (s p) : (takeArrived s p).mem = s.mem := rfl
@[simp] theorem takeArrived_poison (s p) : (takeArrived s p).poison = s.poison := rfl
@[simp] theorem takeArrived_engines (s p) : (takeArrived s p).engines = s.engines := rfl
@[simp] theorem takeArrived_tiles (s p) : (takeArrived s p).tiles = s.tiles := rfl
@[simp] theorem takeArrived_ctxs (s p) : (takeArrived s p).ctxs = s.ctxs := rfl
@[simp] theorem takeArrived_mark (s p) : (takeArrived s p).mark = s.mark := rfl
@[simp] theorem takeArrived_snapNum (s p) : (takeArrived s p).snapNum = s.snapNum := rfl
@[simp] theorem takeArrived_snapWaits (s p) : (takeArrived s p).snapWaits = s.snapWaits := rfl
@[simp] theorem takeArrived_tmap (s p) : (takeArrived s p).tmap = s.tmap := rfl
@[simp] theorem takeArrived_ptile (s p) : (takeArrived s p).ptile = s.ptile := rfl
@[simp] theorem takeArrived_ramp (s p) : (takeArrived s p).ramp = s.ramp := rfl
@[simp] theorem takeArrived_hbmStacks (s p) : (takeArrived s p).hbmStacks = s.hbmStacks := rfl
@[simp] theorem takeArrived_lineQ (s p) : (takeArrived s p).lineQ = s.lineQ := rfl
@[simp] theorem takeArrived_folio (s p) : (takeArrived s p).folio = s.folio := rfl
@[simp] theorem takeArrived_touched (s p) : (takeArrived s p).touched = s.touched := rfl
@[simp] theorem takeArrived_flues (s p) : (takeArrived s p).flues = s.flues := rfl
@[simp] theorem takeArrived_slots (s p) : (takeArrived s p).slots = s.slots := rfl
@[simp] theorem takeArrived_planned (s p) : (takeArrived s p).planned = s.planned := rfl
@[simp] theorem takeArrived_ces (s p) : (takeArrived s p).ces = s.ces := rfl
@[simp] theorem takeArrived_clock (s p) : (takeArrived s p).clock = s.clock := rfl
@[simp] theorem takeArrived_lend (s p) : (takeArrived s p).lend = s.lend := rfl
@[simp] theorem takeArrived_digest (s p) : (takeArrived s p).digest = s.digest := rfl
@[simp] theorem takeArrived_classRep (s p) : (takeArrived s p).classRep = s.classRep := rfl
@[simp] theorem takeArrived_classCmd (s p) : (takeArrived s p).classCmd = s.classCmd := rfl
@[simp] theorem takeArrived_perm (s p) : (takeArrived s p).perm = s.perm := rfl
@[simp] theorem takeArrived_migr (s p) : (takeArrived s p).migr = s.migr := rfl
@[simp] theorem takeArrived_test (s p) : (takeArrived s p).test = s.test := rfl
@[simp] theorem takeArrived_rotNext (s p) : (takeArrived s p).rotNext = s.rotNext := rfl
@[simp] theorem takeArrived_testDue (s p) : (takeArrived s p).testDue = s.testDue := rfl
@[simp] theorem takeArrived_bistDue (s p) : (takeArrived s p).bistDue = s.bistDue := rfl
@[simp] theorem takeArrived_push (s p) : (takeArrived s p).push = s.push := rfl
@[simp] theorem takeArrived_pushNode (s p) : (takeArrived s p).pushNode = s.pushNode := rfl
@[simp] theorem takeArrived_pushBad (s p) : (takeArrived s p).pushBad = s.pushBad := rfl
@[simp] theorem takeArrived_doms (s p) : (takeArrived s p).doms = s.doms := rfl
@[simp] theorem takeArrived_resetQ (s p) : (takeArrived s p).resetQ = s.resetQ := rfl
@[simp] theorem takeArrived_update (s p) : (takeArrived s p).update = s.update := rfl
@[simp] theorem takeArrived_staged (s p) : (takeArrived s p).staged = s.staged := rfl
@[simp] theorem takeArrived_checking (s p) : (takeArrived s p).checking = s.checking := rfl
@[simp] theorem takeArrived_fw (s p) : (takeArrived s p).fw = s.fw := rfl
@[simp] theorem takeArrived_images (s p) : (takeArrived s p).images = s.images := rfl
@[simp] theorem takeArrived_fuses (s p) : (takeArrived s p).fuses = s.fuses := rfl
@[simp] theorem takeArrived_ledger (s p) : (takeArrived s p).ledger = s.ledger := rfl
@[simp] theorem takeArrived_testset (s p) : (takeArrived s p).testset = s.testset := rfl
@[simp] theorem takeArrived_testbuf (s p) : (takeArrived s p).testbuf = s.testbuf := rfl
@[simp] theorem takeArrived_mrlog (s p) : (takeArrived s p).mrlog = s.mrlog := rfl
@[simp] theorem takeArrived_mrPend (s p) : (takeArrived s p).mrPend = s.mrPend := rfl
@[simp] theorem takeArrived_lifetime (s p) : (takeArrived s p).lifetime = s.lifetime := rfl
@[simp] theorem takeArrived_wear (s p) : (takeArrived s p).wear = s.wear := rfl
@[simp] theorem takeArrived_rails (s p) : (takeArrived s p).rails = s.rails := rfl
@[simp] theorem takeArrived_railBad (s p) : (takeArrived s p).railBad = s.railBad := rfl
@[simp] theorem takeArrived_energyRem (s p) : (takeArrived s p).energyRem = s.energyRem := rfl
@[simp] theorem takeArrived_warned (s p) : (takeArrived s p).warned = s.warned := rfl
@[simp] theorem takeArrived_timers (s p) : (takeArrived s p).timers = s.timers := rfl
@[simp] theorem takeArrived_statReset (s p) : (takeArrived s p).statReset = s.statReset := rfl
@[simp] theorem takeArrived_eb (s p) : (takeArrived s p).eb = s.eb := rfl
@[simp] theorem takeArrived_pins (s p) : (takeArrived s p).pins = s.pins := rfl

end Sys2Proof.Laws
end

