-- ==== Sys2Proof/Tests/Slice0.lean ====
section
/-! SUPPORT. Tests: ill-formed commands are refused, the spec's worked examples, one step of some commands on small states, and for each
statement with hypotheses a concrete state that meets them. Expected values are the spec's; each test names its rule. -/
namespace Sys2Proof.Tests
open Sys2Proof.Machine

/-! Helpers: a kindled GW7 with logical tile 0 on physical tile 0, and an engine that has one instruction at issue. -/

/-- The next state of an outcome. -/
def nxt (o : Out) : State := match o with | .next t => t | _ => State.reset
/-- Kindled (K5), IDLE, power good, logical tile 0 on physical tile 0. -/
def live : State := { setF State.reset MG_KIND_STATUS_STAGE 0 5 with tmap := [(0, 1)], pins := { Pins.reset with powerGood := true } }
/-- The same in a lending state. -/
def inState (st : Nat) : State := setF (setF live MG_LEND_STATUS_STATE 0 st) MG_LEND_STATUS_GEN 0 1
/-- An instruction word (R198): class, opcode, and the bits below. -/
def ins (cls op low : Nat) : IWord := BitVec.ofNat 128 (op * 2 ^ 120 + cls * 2 ^ 116 + low)
def entry (w : IWord) : QEntry := ⟨0, w, false, false, none⟩
/-- An engine of `s` RUNNING with one instruction at issue. -/
def atIssue (s : State) (e : Eng) (w : IWord) : State :=
  setEng s e { Engine.reset with st := .running, queue := [entry w], fetchPc := 1 }
def mx0 : Eng := .tile 0 .mx
def vx0 : Eng := .tile 0 .vx
def dm0 : Eng := .tile 0 .dm
def sy0 : Eng := .tile 0 .sy
/-- A packet of a type to a local endpoint of the own node (node 0). -/
def pkt (typ dst len : Nat) (bs : List Byte) : Packet :=
  { dst := BitVec.ofNat 24 dst, src := 0x000148, gen := 0, edn := 0, vc := 0, last := true, poison := false, rsig := false, rsvA := false,
    tid := 0x0100, pseq := 0, typ := BitVec.ofNat 4 typ, mc := false, maxis := 0, rsvB := false, spanp := 0, spann := 0, dl := 0, rctr := 0,
    addr := 0, len := BitVec.ofNat 9 len, hops := 0, rsvC := 0, payload := good bs }
/-- A message frame of the Eboth port. -/
def msg (ty len tag a b : Nat) (body : List Byte) : EbFrame :=
  ⟨0, 1, 0, false, 0, 0, BitVec.ofNat 8 ty, 0, BitVec.ofNat 15 len, false, BitVec.ofNat 16 tag, 0, 0, BitVec.ofNat 64 a, BitVec.ofNat 64 b, body, 0⟩
def frame0 : FlFrame := ⟨0, 1, 0, false, true, false, false, 0, 0, false, 0, 0, 0, 0, 0, 0, 0, 0, 0, [], 0⟩

/-! Well-formedness: an ill-formed command for each check, refused; and a well-formed one. -/

theorem wf_register_outside : (Instr.registerWrite 0xE000000000 false 0).wf = false := by decide
theorem wf_register_misaligned : (Instr.registerReadClear 0xF000100004 true).wf = false := by decide
theorem wf_register_good : (Instr.registerWrite 0xF000100004 false 0).wf = true := by decide
theorem wf_packet_length : (Instr.write (pkt 0 0 2 [1])).wf = false := by decide
theorem wf_packet_type : (Instr.signal (pkt 0 0 0 [])).wf = false := by decide
theorem wf_packet_reserved : (Instr.signal { pkt 4 0 0 [] with rsvC := 1 }).wf = false := by decide
theorem wf_packet_good : (Instr.write (pkt 0 0 1 [1])).wf = true := by decide
theorem wf_flue_frame : FlFrame.wf { frame0 with typ := 3 } = false ∧ FlFrame.wf frame0 = true := by decide
theorem wf_eboth_type : (Instr.regRd (msg 2 4 0 0 0 [])).wf = false := by decide
theorem wf_eboth_body : (Instr.put (msg 3 2 0 0 0 [1])).wf = false ∧ (Instr.regRd (msg 1 4 0 0 0 [])).wf = true := by decide
theorem wf_line_error : LineErr.wf ⟨8, 0, 0⟩ = false ∧ LineErr.wf ⟨16, 0, 0⟩ = true := by decide
/-- The opcode table gives no row bits. -/
theorem decode_none (n w : Nat) : decodeTableWord n w = none := rfl

/-! The spec's worked examples. -/

/-- 02 after R39: 61,440 overflows in E5M2 ; 464 rounds to 448 in E4M3. -/
theorem example_overflow_ties : encodeNum .e4m3 (.fin false 464 0) none false = (0x7E, noFlags)
    ∧ (encodeNum .e4m3 (.fin false 465 0) none false).2.ovf = true ∧ (encodeNum .e5m2 (.fin false 61440 0) none false).2.ovf = true := by decide
/-- 02, "truncation below the window": the chunk sum is 0x3410_0000. -/
theorem example_window : rneCode .fp32 (groupSum [.fin false 1 16, .fin false 9 (-26), .fin false 1025 (-38), .fin true 1 16]) = 0x34100000 := by decide
/-- 02, "block scales and the fixed group order": chunk sum 0x4B80_0002, accumulator 0x4080_0000. -/
theorem example_group_order : rneCode .fp32 (chunkSum [f32 0x4B800000, f32 0x3F800000, f32 0x3F800000, f32 0x40000000]) = 0x4B800002
    ∧ fadd 0xCB800000 0x4B800002 = 0x40800000 := by decide
/-- 05, "the mask of one lane": the counter words. -/
theorem example_dropout_counter : rngCounter 1 (coordOf 0x000F424000001180 0x0000303901050023) 4517 = ⟨0x20000234, 0x050F4240, 0x3039, 0x00010023⟩ := by decide
/-- 08, "one line through the interleave". -/
theorem example_interleave : ilStack 0x1234567800 = 0 ∧ ilQ 0x1234567800 = 50903316 ∧ ilOff 0x1234567800 = 795364
    ∧ pcOfQ (ilQ 0x1234567800) = 58 := by decide
/-- 08, after R277: with pseudo-channel 58 retired the line moves to pseudo-channel 52, slot A line 12,624. -/
theorem example_retired_line : slotPlace (livePcs [58]) 0 795364 = (52, mainLines + 12624) := by decide
/-- 11, "the last piece lands second": the header of piece 2. -/
theorem example_header :
    let p := pkt 0 0x04562A 88 []
    bytesOf 24 (headerNat { p with src := 0x012305, gen := 3, edn := 1, rsig := true, tid := 0x0107, pseq := 2, rctr := 9, addr := 0x080200 })
    = [0x2A, 0x56, 0x04, 0x05, 0x23, 0x01, 0x03, 0x51, 0x07, 0x01, 0x02, 0x00, 0, 0, 0, 0x09, 0x00, 0x02, 0x08, 0x00, 0x00, 0x58, 0x00, 0x00] := by decide
/-- 15, "one HBM word": the check field, the stuck cell in symbol 17, the misread address. -/
theorem example_line_code : lineCheck 0x300000 0x10 false = 0x2F6F ∧ lineSyn (0x300000 ^^^ 4 * 16 ^ 17) 0x2F6F 0x10 = ⟨4, 4, 0xC, 5⟩
    ∧ judge ⟨4, 4, 0xC, 5⟩ = .corrected 17 4 ∧ lineSyn 0x300000 0x2F6F 0x20 = ⟨3, 0, 0xC, 0xE⟩ ∧ judge ⟨3, 0, 0xC, 0xE⟩ = .misdirected 36 := by decide
/-- 16, "two halves joined". -/
theorem example_crc_halves : cvRaw 8 7 false 0 [1] = 7 ∧ cvRaw 8 7 false 0 [2] = 0x0E ∧ cvRaw 8 7 false 0 [1, 2] = 0x1B
 := by decide
/-- The product of the combination: 0x07 by x^8 modulo P, and the sum. -/
theorem example_crc_combine : cvMul 8 7 7 7 = 0x15 ∧ 0x15 ^^^ 0x0E = 0x1B := by decide
/-- 22, "reaching logical tile 5": the pages of physical tile 6. -/
theorem example_pages : regPage 0xF000606424 = some (6, 6, 0x424) ∧ regPage 0xF000406050 = some (4, 6, 0x50) ∧ tsAddr 6 0 = 0xF101800000 := by decide

/-! Witnesses: for each statement with hypotheses, a concrete state and operands that meet them. -/

theorem canon_reset : Canon State.reset := by constructor <;> decide
theorem canon_live : Canon live := by constructor <;> decide
theorem witness_StepRunsFrontCommand : ({ live with pending := [.serve] } : State).pending = .serve :: [] := rfl
theorem witness_StepKeepsCanon : Canon { live with pending := [.serve] } := by constructor <;> decide
theorem witness_RegisterWriteByType : Canon live ∧ Reaches live 0xF000F00048 15 0 0x48 ∧ (regAt 15 0 0x48).map (fun r => r.1.words) = some 1
    ∧ PlainReg 15 0 0x48 := ⟨canon_live, ⟨by decide, by decide, by decide⟩, by decide, fun _ _ => rfl⟩
theorem witness_RegisterReadClearsCounts : Canon live ∧ Reaches live 0xF000900070 9 0 0x70 ∧ (regAt 9 0 0x70).isSome = true :=
  ⟨canon_live, ⟨by decide, by decide, by decide⟩, by decide⟩
theorem witness_HeaderCommands : pageUp live 2 0 = true ∧ capReset 2 0 = true ∧ capDrain 2 0 = true ∧ isolated live (pageDomain 2 0) = false
    ∧ mayReset live (pageDomain 2 0) := ⟨by decide, by decide, by decide, by decide, ⟨by decide, by decide⟩⟩

/-! Engine programs. -/

def g5 : State := setG live mx0 1 (BitVec.allOnes 64)
/-- ct.addi g2, g1, 1 (RD [79:75], RA [74:70], IMM [69:22]). -/
def addi : IWord := ins 0 0x09 (2 * 2 ^ 75 + 1 * 2 ^ 70 + 1 * 2 ^ 22)
def sub5 : IWord := ins 4 0x82 (9 * 2 ^ 72 + 5 * 2 ^ 48)

theorem witness_EngineCommands : pageUp live (engBlk mx0) (engInst mx0) = true ∧ (getEng live mx0).st = .halted
    ∧ LaunchDue { setEng live mx0 { Engine.reset with st := .armed } with ramp := 9 } mx0 := ⟨by decide, by decide, by decide, by decide, by decide, by decide⟩
theorem witness_EngineRegisterWrites : b2n true ≠ getP live mx0 P_PCTL_MARK_EN ∧ (getEng live mx0).st = .halted := by decide
theorem witness_FetchLaunchQuiesce : let s := setEng live mx0 { Engine.reset with st := .running }
    (imemWord s mx0 0).2 = false ∧ isolated s (engDom mx0) = false ∧ 0 < imemSize mx0 := by decide
theorem witness_ControlOnRegisters : ReadyCtl (atIssue g5 mx0 addi) mx0 0 0x09 [(0, 22)] (entry addi) :=
  ⟨⟨by decide, by decide, by decide, .inl (by decide)⟩, by decide, by decide⟩
/-- R218: the sum wraps modulo 2^64. -/
theorem test_addi_wraps : getG (nxt (exec (.ctAddi mx0) (atIssue g5 mx0 addi))) mx0 2 = 0 := by decide
def bnz : IWord := ins 0 0x0D (1 * 2 ^ 75 + 3 * 2 ^ 63)
theorem witness_ControlFlow : ReadyCtl (atIssue g5 mx0 bnz) mx0 0 0x0D [(0, 63)] (entry bnz) ∧ 3 < imemSize mx0 :=
  ⟨⟨⟨by decide, by decide, by decide, .inl (by decide)⟩, by decide, by decide⟩, by decide⟩
/-- R218: a register that is not zero after the decrement sends the fetch to TGT. -/
theorem test_bnz_taken : (getEng (nxt (exec (.ctBnz mx0) (atIssue g5 mx0 bnz))) mx0).fetchPc = 3 := by decide
theorem witness_EncodingAndWaitComeFirst : let w := ins 0 0x01 (2 ^ 114 + 7 * 2 ^ 88)
    let s := atIssue live mx0 w
    canIssue s mx0 = true ∧ iW w = true ∧ flagBad w = false ∧ rsvBad w [(0, 80)] = false ∧ gPending s mx0 w = false ∧ getCtr s 0 7 = 0 := by decide
theorem witness_UnderflowFaults : let s := atIssue live sy0 sub5
    homeOf s sy0 = some 0 ∧ ReadyCtl s sy0 4 0x82 [(0, 48)] (entry sub5) ∧ getCtr s 0 (ifld sub5 72 8) < ifld sub5 48 24 :=
  ⟨by decide, ⟨⟨by decide, by decide, by decide, .inl (by decide)⟩, by decide, by decide⟩, by decide⟩
/-- R244: the subtraction that would pass 0 faults and leaves the counter. -/
theorem test_sub_underflow : (getEng (nxt (exec (.sySub sy0) (atIssue live sy0 sub5))) sy0).st = .faulted := by decide
theorem witness_CounterInstructions : let s := atIssue (setCtr live 0 9 7) sy0 sub5
    ReadyCtl s sy0 4 0x82 [(0, 48)] (entry sub5) ∧ ifld sub5 48 24 ≤ getCtr s 0 9 :=
  ⟨⟨⟨by decide, by decide, by decide, .inl (by decide)⟩, by decide, by decide⟩, by decide⟩
theorem test_sub : getCtr (nxt (exec (.sySub sy0) (atIssue (setCtr live 0 9 7) sy0 sub5))) 0 9 = 2 := by decide
/-- sy.sig of 5 to counter 3 of the endpoint in g0 (the own tile 0). -/
def sig5 : IWord := ins 4 0x83 (3 * 2 ^ 67 + 5 * 2 ^ 43)
theorem witness_SignalsSent : let s := atIssue live sy0 sig5
    ReadyCtl s sy0 4 0x83 [(0, 43)] (entry sig5) ∧ (physOf s ((getG s sy0 0).toNat % 256)).isSome = true ∧ ptileOf s 0 ≠ 2 ∧ (getEng s sy0).sigs.length < 16 :=
  ⟨⟨⟨by decide, by decide, by decide, .inl (by decide)⟩, by decide, by decide⟩, by decide⟩
/-- R248: the SIGNAL packet carries counter and value. -/
theorem test_sig_packet : ((nxt (exec (.sySig sy0) (atIssue live sy0 sig5))).router.inject.map (fun k => (k.typ.toNat, k.dst.toNat, k.rctr.toNat, k.addr.toNat)))
    = [(4, 0, 3, 5)] := by decide
def pend1 : State := modTile live 0 (fun t => { t with pend := [⟨9, 4, .unit 0⟩] })
theorem witness_IncrementsReachCounters : (takeIncr 9 1 (getTile pend1 0).pend).1 ≠ [] ∧ tileStopped pend1 0 = true
    ∧ (getTile pend1 0).cv0 ≠ 1 ∧ (getTile pend1 0).cv1 ≠ 1 := by decide
theorem test_increment : getCtr (nxt (exec (.counterIncrement 0 9 1) pend1)) 0 9 = 4 := by decide
/-- A LOCAL barrier context of the sync unit and the MXE of tile 0 (members 0 and 3). -/
def barState : State := setCtx (setF (setFi (setF live BA_CFG_MODE 1 1) BA_MASK_MEMBERS 1 0 9) BA_CFG_TILE 1 0) 0 { BaCtx.reset with cstate := 1 }
def atBar : State := setEng barState mx0 { Engine.reset with st := .waiting, wait := some ⟨.sybar, 0, 1, 0, 0⟩, queue := [entry (ins 4 0x85 0)] }
theorem witness_Barriers : memberOf atBar mx0 = some 0 ∧ inMask atBar 0 0 = true ∧ (getCtx atBar 0).cstate = 1 ∧ ctxMode atBar 0 ≠ 3 ∧ drainOn atBar 7 0 = false := by decide
theorem test_barrier_counts : (getCtx (nxt (exec (.barrierArrival mx0) atBar)) 0).cur = 1 := by decide
theorem witness_BarrierConfiguration : pageUp live 7 1 = true ∧ (getCtx live 0).cstate ≠ 1 ∧ members live 0 = [] ∧ ctxMode live 0 ≠ 1 := by decide
theorem witness_WaitTimeouts : openWaits atBar (engIdx mx0) ≠ [] ∧ flagF (setF live BA_STATUS_SNAP_BUSY 0 1) BA_STATUS_SNAP_BUSY 0 = true := by decide
def mark1 : State := setG (setP live mx0 P_PCTL_MARK_EN 1) mx0 0 1
theorem witness_StepMarks : let w := ins 0 0x04 0
    let s := atIssue mark1 mx0 w
    ReadyCtl s mx0 0 0x04 [(0, 75)] (entry w) ∧ getP s mx0 P_PCTL_MARK_EN = 1 ∧ s.mark.phase = 0 ∧ (∀ i ∈ participants s, i = engIdx mx0) :=
  ⟨⟨⟨by decide, by decide, by decide, .inl (by decide)⟩, by decide, by decide⟩, by decide, by decide, by decide⟩

/-! Matrix and vector engines. -/

/-- mx.lds of a 64 by 64 BF16 set into array 0. -/
def lds0 : IWord := ins 1 0x20 (1 * 2 ^ 72 + 63 * 2 ^ 61 + 63 * 2 ^ 53)
def filled (s : State) (w : IWord) : State := setEng s mx0 { Engine.reset with st := .running, queue := [{ entry w with filled := true, wDone := true }], fetchPc := 1 }
theorem witness_MatrixFill : let s := atIssue live mx0 lds0
    (getEng s mx0).queue = entry lds0 :: [] ∧ iCls lds0 = 1 ∧ iW lds0 = false ∧ fillFault s 0 lds0 0 = none := by decide
theorem witness_MatrixLoads : mxFront (filled live lds0) 0 0x20 = some { entry lds0 with filled := true, wDone := true }
    ∧ ldHeld (getMx (filled live lds0) 0) (shapeArrays 0 0) (ldsSpans (filled live lds0) 0 lds0) = false := ⟨by decide, by decide⟩
def drain0 : IWord := ins 1 0x26 0
theorem witness_MatrixRunsAndFlags : mxFront (filled live drain0) 0 0x26 = some { entry drain0 with filled := true, wDone := true }
    ∧ stHeld (getMx (filled live drain0) 0) [(0, 4)] = false := ⟨by decide, by decide⟩
def st0 : IWord := ins 1 0x24 0
theorem witness_MatrixStores : mxFront (filled live st0) 0 0x24 = some { entry st0 with filled := true, wDone := true }
    ∧ stHeld (getMx (filled live st0) 0) [stQuarters st0] = false ∧ (∀ i < 16 * (stQuarters st0).2, accBad (filled live st0) 0 (16 * (stQuarters st0).1 + i) = false) :=
  ⟨by decide, by decide, by decide⟩
/-- mx.mm of one row of BF16 by the active set of array 0, which one load of one row and one column has filled. -/
def mm0 : IWord := ins 1 0x22 (1 * 2 ^ 71 + 1 * 2 ^ 66 + 1 * 2 ^ 63)
def oneSet : MxSet := { MxSet.reset with loaded := true, fmt := 1, kv := 1, nv := 1, cells := [[0x3F80]] }
def mmState : State := modTile live 0 (fun t => { t with mx := { t.mx with sets := [(0, oneSet)] } })
def mmReady : State := setEng mmState mx0 { Engine.reset with
  st := .running, fetchPc := 1, queue := [{ entry mm0 with filled := true, wDone := true, staged := some (stageMm mmState 0 mm0 1) }] }
theorem witness_MatrixProducts : mxFront mmReady 0 0x22 = some { entry mm0 with filled := true, wDone := true, staged := some (stageMm mmState 0 mm0 1) }
    ∧ mmHeld mmReady (getMx mmReady 0) (mxArrays mm0) false [(4 * (mmRows mm0).1, 4 * (mmRows mm0).2)] = false
    ∧ mmFault (getMx mmReady 0) (mxArrays mm0) false 0 1 1 0 (stageMm mmState 0 mm0 1).bad = none
    ∧ (∃ run start, planRun (getMx mmReady 0) mm0 = .go run start) :=
  ⟨by decide, by decide, by decide, ⟨none, 0, by decide⟩⟩

def fop0 : IWord := ins 2 0x64 (1 * 2 ^ 75)
theorem witness_VectorIssue : let s := atIssue live vx0 fop0
    (getEng s vx0).queue.head? = some (entry fop0) ∧ iCls fop0 = 2 ∧ draining s 0 = false := by decide
theorem witness_LaneArithmetic : rFn fop0 ≤ 8 ∧ rsvBad fop0 [(0, 9)] = false ∧ ifld fop0 54 5 = 0
    ∧ VxReady (atIssue live vx0 fop0) 0 0x64 (rReads fop0 ++ [] ++ [rVd fop0]) (entry fop0) :=
  ⟨by decide, by decide, by decide, ⟨by decide, by decide, by decide, by decide, .inl (by decide), by decide⟩⟩
def cmp0 : IWord := ins 2 0x66 (1 * 2 ^ 69)
theorem witness_PredicatesAndMasks : rFn cmp0 ≤ 7 ∧ rsvBad cmp0 [(0, 9), (54, 5), (72, 2)] = false
    ∧ VxReady (atIssue live vx0 cmp0) 0 0x66 (rReads cmp0 ++ [32 + ifld cmp0 69 3]) (entry cmp0) :=
  ⟨by decide, by decide, ⟨by decide, by decide, by decide, by decide, .inl (by decide), by decide⟩⟩
def red0 : IWord := ins 2 0x69 (1 * 2 ^ 75)
theorem witness_ReductionsAndAttention : rFn red0 ≤ 2 ∧ rsvBad red0 [(0, 9), (54, 5)] = false
    ∧ VxReady (atIssue live vx0 red0) 0 0x69 (rReads red0 ++ [rVd red0]) (entry red0) :=
  ⟨by decide, by decide, ⟨by decide, by decide, by decide, by decide, .inl (by decide), by decide⟩⟩
def rng0 : IWord := ins 2 0x6D (1 * 2 ^ 75)
theorem witness_RandomLanes : rsvBad rng0 [(0, 38), (44, 5), (49, 16), (70, 5)] = false ∧ ifld rng0 65 5 % 2 = 0 ∧ ifld rng0 42 2 ≤ 1
    ∧ VxReady (atIssue live vx0 rng0) 0 0x6D [32 + ifld rng0 39 3, ifld rng0 75 5] (entry rng0) :=
  ⟨by decide, by decide, by decide, ⟨by decide, by decide, by decide, by decide, .inl (by decide), by decide⟩⟩
def vld0 : IWord := ins 2 0x60 (1 * 2 ^ 75)
theorem witness_VectorLoadsAndStores : lsBad vld0 = false ∧ rsvBad vld0 [(34, 2)] = false
    ∧ VxReady (atIssue live vx0 vld0) 0 0x60 [32 + ifld vld0 26 3, ifld vld0 75 5] (entry vld0) :=
  ⟨by decide, by decide, ⟨by decide, by decide, by decide, by decide, .inl (by decide), by decide⟩⟩
def opt0 : IWord := ins 2 0x70 0
theorem witness_OptimiserStep : ifld opt0 73 2 ≤ 1 ∧ (fmtOfCode (ifld opt0 69 4)).isSome = true ∧ ifld opt0 0 64 = 0
    ∧ VxReady (atIssue live vx0 opt0) 0 0x70 [] (entry opt0) :=
  ⟨by decide, by decide, by decide, ⟨by decide, by decide, by decide, by decide, .inl (by decide), by decide⟩⟩
/-- R163: FN 6 shifts by B modulo 32; FN 0 wraps. -/
theorem test_iop : iopLane 6 1 33 = 2 ∧ iopLane 0 0xFFFFFFFF 1 = 0 := by decide

/-! The data mover. -/

/-- dm.fill of one row of 8 bytes in the own tile store: shape in g1, pattern in g2, destination in g3. -/
def fillW : IWord := ins 3 0x41 0
theorem witness_DescriptorsStart : frontIs (atIssue live dm0 fillW) dm0 3 0x41 = some (entry fillW) ∧ draining live 0 = false
    ∧ (getDm live 0).descs = [] := by decide
def fillG : State := setG (setG (setG live dm0 1 8) dm0 2 0x0807060504030201) dm0 3 0x100
def fill3 : IWord := ins 3 0x41 (3 * 2 ^ 64 + 1 * 2 ^ 59 + 2 * 2 ^ 69)
def started : State := nxt (exec (.dmFill 0) (atIssue fillG dm0 fill3))
def issued : State := nxt (exec (.dmPieceIssue 0 0) started)
theorem witness_PiecesIssue : dmIssues started 0 = true ∧ (((getDm started 0).descs.find? (fun y => y.tid == 0)).map (fun d => (d.op, d.next, d.total, d.stall.isNone && d.ectr.isNone, d.unsup || d.dsp != 0)))
    = some (0x41, 0, 1, true, false) := by decide
theorem witness_PiecesComplete : (getPiece issued 0 0 0).map (·.kind) = some 2 ∧ ((getDm issued 0).descs.find? (fun y => y.tid == 0)).isSome = true := by decide
/-- R131, R142: the fill has landed and its descriptor is gone. -/
theorem test_fill : let t := nxt (exec (.dmPieceComplete 0 0 0) issued)
    memByte t (tsAddr 0 0x100) = 1 ∧ memByte t (tsAddr 0 0x107) = 8 ∧ memByte t (tsAddr 0 0x108) = 0 ∧ (getDm t 0).descs = [] := by decide
theorem witness_MoverTimers : ((getDm issued 0).descs.find? (fun y => y.tid == 0)).map (·.stall) = some none
    ∧ (∀ y ∈ (getDm issued 0).out, y.held = none) ∧ (getEng issued dm0).st = .running
    ∧ ∃ d, (getDm issued 0).descs.find? (fun y => y.tid == 0) = some d ∧ 10000000 ≤ d.acc + ((advance issued 10000000).gsc - d.since) :=
  ⟨by decide, by decide, by decide, ⟨_, rfl, by decide⟩⟩

/-! The router, packets and flues. -/

theorem witness_RouterForwardsPackets : badPacket (pkt 4 0 0 []) = false ∧ isJob (pkt 4 0 0 []) = true ∧ (pkt 4 0 0 []).gen.toNat = jobGen live
    ∧ epNode (pkt 4 0 0 []).dst = nodeId live ∧ (pkt 4 0 0 []).mc = false ∧ takes (epLocal (pkt 4 0 0 []).dst) 4 = true := by decide
/-- R462, R366: an uncorrectable header is dropped and counted. -/
theorem test_lost_header : getF (nxt (exec (.routerPacketArrival (pkt 4 0 0 []) ⟨some 0, true⟩) live)) RT_UNROUTABLE 0 = 1 := by decide
theorem witness_EndpointRequests : AtStation live (pkt 4 0 0 []) 0 := ⟨by decide, by decide, by decide, by decide, by decide, by decide, by decide⟩
/-- R251: a SIGNAL lands as an increment of its counter by its value. -/
theorem test_signal : let q := { pkt 4 0 0 [] with rctr := 3, addr := 5 }
    ((getTile (nxt (exec (.signal q) live)) 0).pend.map (fun i => (i.ctr, i.val))) = [(3, 5)] := by decide
theorem witness_RepliesAtTiles : let q := pkt 8 0 0 []
    epNode q.dst = nodeId live ∧ epLocal q.dst < 0x40 ∧ physOf live (epLocal q.dst) = some 0 ∧ q.tid.toNat / 256 = (getDom live 0).gen := by decide
theorem witness_CatalogueEditions : pageUp live 9 0 = true ∧ getF live RT_EDITION_ARMED 0 = 0 := by decide

/-- A flue that has trained. -/
def flueOn : State := setFlue (setF (setF live FL_CFG_EN 0 1) FL_STATUS_STATE 0 4) 0 { Flue.reset with step := 4 }
theorem witness_FlueFrames : 3 ≤ (getFlue flueOn 0).step ∧ flagF flueOn FL_CFG_EN 0 = true ∧ flueOn.eb.colo.find? (fun y => y.1 == some 0) = none := by decide
theorem witness_FlueTraining : let s := setF live FL_STATUS_STATE 0 1
    flueState s 0 = 1 ∧ (getFlue s 0).step = 0 ∧ 4 ≤ (goodLanes 0x1FF).length := by decide
/-- R342: nine good lanes. -/
theorem test_lanes_trained : getF (nxt (exec (.flueLaneTrained 0 0x1FF) (setF live FL_STATUS_STATE 0 1))) FL_STATUS_LANES_GOOD 0 = 9 := by decide
theorem witness_FlueLanes : (nextRotLane flueOn 0).isSome = true := by decide

/-! Collective engines. -/

def send0 : IWord := ins 5 0xA4 0
theorem witness_CollectivesStart : frontIs (atIssue live (.ce 0) send0) (.ce 0) 5 0xA4 = some (entry send0) ∧ (getCe live 0).op = none ∧ drainOn live 8 0 = false := by decide
theorem witness_CollectivePiecesLeave : (getCe (cePump live 0) 0).op = none := by decide
theorem witness_CollectivesEnd : (getCe live 0).op = none ∧ (getCe live 0).early = [] := by decide
theorem witness_CollectivePackets : AtCe live { pkt 11 0x40 0 [] with tid := 2 } 0 ∧ (getCe live 0).nack = false ∧ (getCe live 0).op = none := by
  refine ⟨?_, by decide, by decide⟩; constructor <;> decide

/-! Memory, time, lending, services and the port. -/

def lineWait : State := { live with lineQ := [⟨0x1000, true, 0, none⟩] }
theorem witness_LinesSweepsRetirements : memReset lineWait [(0x1000, 256)] = false ∧ lineWaits lineWait 16 = false
    ∧ lineWait.lineQ.find? (fun q => q.addr / 256 == 16) = some ⟨0x1000, true, 0, none⟩ ∧ pieceWaits lineWait ⟨0x1000, true, 0, none⟩ = false := by decide
/-- R283, R285: the access misses, is counted and brings a dirty line in. -/
theorem test_hc_miss : let t := nxt (exec (.hcAccess 0x1000 true 0 ⟨[], 0, none⟩) lineWait)
    getF t HC_MISSES 4 = 1 ∧ (getStack t 4).lines.map (fun l => (l.line, l.dirty)) = [(16, true)] ∧ t.lineQ = [] := by decide
theorem witness_FolioUnit : pageUp live 11 6 = true ∧ live.folio.busy = 0 ∧ jobStopped live = true := by decide
theorem witness_TimeStatisticsPower : live.pins.powerGood = true ∧ getTimer live tmRail + 10000 ≤ (advance live 10000).gsc ∧ pageUp live 13 0 = true := by decide
/-- R422: time passes by the counts given, here with no slew. -/
theorem test_advance : (advance live 7).gsc = 7 := by decide
theorem witness_LendingCommands : pageUp (inState 0) 1 0 = true ∧ lendOpen (inState 0) = true ∧ lendState (inState 0) = 0 := by decide
/-- R432: SERVE takes IDLE to SERVING; LEND with the generation in force is refused. -/
theorem test_serve : lendState (nxt (exec .serve (inState 0))) = 1 := by decide
theorem witness_TeardownRecallZeroisation : let s := { inState 0 with lend := { Lend.reset with tear := 1 } }
    isolated s 103 = false ∧ s.lend.tear = 1 ∧ drainedAll s = true := by decide
theorem test_teardown_drains : (nxt (exec .teardownDrainEnd { inState 0 with lend := { Lend.reset with tear := 1 } })).lend.tear = 2 := by decide
def digesting : State := { live with digest := { live.digest with reading := [0] } }
theorem witness_DigestsCheckValues : 0 ∈ digesting.digest.reading ∧ isolated digesting 0 = false ∧ pageUp digesting 2 0 = true ∧ cvState digesting 0 0 = 0 := by decide
def classing : State := { inState 1 with classCmd := some (1, 0) }
theorem witness_ClassificationSparing : pageUp live 1 0 = true ∧ flagF live MG_CLASS_STATUS_BUSY 0 = false ∧ physOf classing 0 = some 0 ∧ classing.classCmd = some (1, 0) := by decide
/-- R495: a recorded transient verdict. -/
theorem test_class_transient : let t := nxt (exec .classCommandComplete classing)
    getF t MG_CLASS_STATUS_VERDICT 0 = 1 ∧ t.ledger = [⟨3, 0, 0, [1]⟩] := by decide
theorem witness_ResetsUpdates : pageUp live 1 0 = true ∧ isolated live 5 = false ∧ (getDom live 5).phase = 0 ∧ (getDom live 5).last = none := by decide
/-- R523: the request isolates the domain at once. -/
theorem test_reset_isolates : isolated (nxt (exec (.domainResetRequest 5 false) live)) 5 = true := by decide
theorem witness_KindlingPins : Boots { State.reset with pins := { Pins.reset with powerGood := true } } ∧ getF State.reset MG_KIND_STATUS_STAGE 0 = 0 :=
  ⟨⟨by decide, by decide, by decide, by decide⟩, by decide⟩
/-- R616: the IDCODE of each part. -/
theorem test_idcode : (nxt (exec .idcode live)).pins.dr = 0x107645A7 := by decide
/-- The Eboth link UP. -/
def linkUp : State := setF (setF live EB_STATUS_STATE 0 2) EB_CFG_EN 0 1
theorem witness_EbothLink : getF linkUp EB_STATUS_STATE 0 = 2 ∧ linkUp.eb.replay = [] ∧ linkUp.eb.colo.find? (fun x => x.1 == none) = none
    ∧ (∀ k ∈ [1, 2, 3, 4], linkUp.eb.out.find? (fun m => m.cls == k) = none) ∧ (∀ r ∈ linkUp.eb.reqs, 1 ≤ r.msg.mtype.toNat ∧ r.msg.mtype.toNat ≤ 10) := by decide
/-- R586: a lost lane takes the link down; it trains again. -/
theorem test_link_loss : getF (nxt (exec (.ebothLossOfSignal (some 2)) linkUp)) EB_STATUS_STATE 0 = 1 := by decide
def rd0 : EbFrame := msg 1 4 7 0xF000F00048 0 []
theorem witness_EbothMessages : Acts linkUp rd0 1 :=
  ⟨⟨by decide, by decide, fun h => absurd h (by decide), fun h => absurd h (by decide)⟩, ⟨.inl (by decide), rfl⟩, .inr (by decide), by decide⟩
/-- R579, R580: REG_RD of a register answers REG_DATA with status OK; one outside the pages answers BAD_ADDR. -/
theorem test_reg_rd : ((nxt (exec (.regRd rd0) linkUp)).eb.out.map (fun m => (m.mtype, m.status, m.tag, m.body.length))) = [(0x41, 0, 7, 4)]
    ∧ ((nxt (exec (.regRd { rd0 with a := 0xF100000000 }) linkUp)).eb.out.map (fun m => (m.mtype, m.status))) = [(0x41, 2)] := by decide
/-- R580: PUT of two bytes lands in HBM and is acknowledged. -/
theorem test_put : let t := nxt (exec (.put (msg 3 2 8 0x2000 0 [0xAB, 0xCD])) linkUp)
    memByte t 0x2000 = 0xAB ∧ memByte t 0x2001 = 0xCD ∧ t.eb.out.map (fun m => (m.mtype, m.status)) = [(0x42, 0)] := by decide

/-! One step takes the front command; an empty queue lets one GSC count pass (log entry 2). -/

theorem test_step_front : let t := nxt (step { inState 0 with pending := [.serve, .idle] })
    t.pending = [.idle] ∧ lendState t = 1 := by decide
theorem test_step_idle : (nxt (step live)).gsc = 1 := by decide

end Sys2Proof.Tests
end

/-! PROOFS. Register accesses by address (chapter 22): what a write and a clearing read do to the fields of a register (R10), where an
access by address lands (R592 to R599), and the statements about REGISTER_WRITE and REGISTER_READ_CLEAR. -/
namespace Sys2Proof.Proofs
open Sys2Proof Sys2Proof.Machine Sys2Proof.Laws

/-! Fields of a register word. -/

/-- Two fields share no bit. -/
def Apart (f g : FSpec) : Prop := f.lo + f.len ≤ g.lo ∨ g.lo + g.len ≤ f.lo

theorem Apart.symm {f g : FSpec} (h : Apart f g) : Apart g f := Or.symm h

/-- A row of a register table: its fields lie apart and within its words. -/
def RowOk (r : RegSpec) : Prop := r.fields.Pairwise Apart ∧ ∀ f ∈ r.fields, f.lo + f.len ≤ 32 * r.words

theorem bits_putBits_apart (v x : Nat) {f g : FSpec} (h : Apart f g) :
    bits (putBits v f.lo f.len x) g.lo g.len = bits v g.lo g.len := by
  rcases h with h | h
  · exact bits_putBits_above v f.lo f.len x g.lo g.len h
  · exact bits_putBits_below v f.lo f.len x g.lo g.len h

/-- Bits past the end of a field do not show in it. -/
theorem bits_mod (v : Nat) {lo len w : Nat} (h : lo + len ≤ w) : bits (v % 2 ^ w) lo len = bits v lo len := by
  refine Nat.eq_of_testBit_eq fun i => ?_
  simp only [bits, Nat.testBit_mod_two_pow, Nat.testBit_div_two_pow]
  by_cases hi : i < len
  · have : lo + i < w := by omega
    simp [hi, this, Nat.add_comm]
  · simp [hi]

/-- An operation `g` on the fields of a register word one after the other: each field takes the value that `φ` gives from its old one,
the fields apart from it stay, and a word of 64 bits stays one. -/
structure FieldWise (g : Nat → FSpec → Nat) (φ : FSpec → Nat → Nat) : Prop where
  own : ∀ v f, bits (g v f) f.lo f.len = φ f (bits v f.lo f.len)
  apart : ∀ v {f f'}, Apart f f' → bits (g v f) f'.lo f'.len = bits v f'.lo f'.len
  lt : ∀ v f, f.lo + f.len ≤ 64 → v < 2 ^ 64 → g v f < 2 ^ 64

section
variable {g : Nat → FSpec → Nat} {φ : FSpec → Nat → Nat}

theorem FieldWise.foldl_apart (h : FieldWise g φ) {f : FSpec} : ∀ (fs : List FSpec) (v : Nat), (∀ x ∈ fs, Apart x f) →
    bits (fs.foldl g v) f.lo f.len = bits v f.lo f.len
  | [], _, _ => rfl
  | x :: fs, v, ha => by
    rw [List.foldl_cons, h.foldl_apart fs _ fun y hy => ha y (List.mem_cons_of_mem x hy), h.apart v (ha x List.mem_cons_self)]

/-- Every field of a row whose fields lie apart takes the value that `φ` gives. -/
theorem FieldWise.foldl_own (h : FieldWise g φ) {f : FSpec} : ∀ (fs : List FSpec) (v : Nat), fs.Pairwise Apart → f ∈ fs →
    bits (fs.foldl g v) f.lo f.len = φ f (bits v f.lo f.len)
  | x :: fs, v, hp, hf => by
    obtain ⟨hx, hp⟩ := List.pairwise_cons.1 hp
    rw [List.foldl_cons]
    rcases List.mem_cons.1 hf with rfl | hf
    · rw [h.foldl_apart fs _ fun y hy => (hx y hy).symm, h.own]
    · rw [h.foldl_own fs _ hp hf, h.apart v (hx f hf)]

theorem FieldWise.foldl_lt (h : FieldWise g φ) : ∀ (fs : List FSpec) (v : Nat), (∀ f ∈ fs, f.lo + f.len ≤ 64) → v < 2 ^ 64 →
    fs.foldl g v < 2 ^ 64
  | [], _, _, hv => hv
  | x :: fs, v, hf, hv =>
    h.foldl_lt fs _ (fun y hy => hf y (List.mem_cons_of_mem x hy)) (h.lt v x (hf x List.mem_cons_self) hv)

end

/-- R10: what a field that holds `o` holds after `n` is written to it. -/
def written (t : RTyp) (o n : Nat) : Nat := match t with | .rw => n | .w1c => o - (o &&& n) | .w1s => o ||| n | _ => o

theorem written_lt (t : RTyp) {o n len : Nat} (ho : o < 2 ^ len) (hn : n < 2 ^ len) : written t o n < 2 ^ len := by
  cases t <;> simp only [written]
  case rw => exact hn
  case w1c => omega
  case w1s => exact Nat.or_lt_two_pow ho hn
  all_goals exact ho

/-- A write puts the new value into a field, or leaves the word alone. -/
theorem writeField_eq (f : FSpec) (old v : Nat) :
    writeField f old v = putBits old f.lo f.len (written f.typ (bits old f.lo f.len) (bits v f.lo f.len)) ∨
      writeField f old v = old ∧ written f.typ (bits old f.lo f.len) (bits v f.lo f.len) = bits old f.lo f.len := by
  unfold writeField
  cases f.typ <;> simp [written]

/-- R10: a write acts on the fields of a register one by one. -/
theorem fieldWise_write (v : Nat) :
    FieldWise (fun old f => writeField f old v) (fun f o => written f.typ o (bits v f.lo f.len)) where
  own old f := by
    rcases writeField_eq f old v with h | ⟨h, hw⟩
    · rw [h, bits_putBits_same, Nat.mod_eq_of_lt (written_lt _ (bits_lt ..) (bits_lt ..))]
    · rw [h, hw]
  apart old f f' ha := by
    rcases writeField_eq f old v with h | ⟨h, -⟩
    · rw [h, bits_putBits_apart _ _ ha]
    · rw [h]
  lt old f hf hold := by
    rcases writeField_eq f old v with h | ⟨h, -⟩
    · rw [h]
      exact putBits_lt _ _ _ _ _ hold hf
    · rw [h]
      exact hold

/-- R10: a read clears the RC fields of a register one by one. -/
theorem fieldWise_clear :
    FieldWise (fun v f => if f.typ = .rc then putBits v f.lo f.len 0 else v) (fun f o => if f.typ = .rc then 0 else o) where
  own v f := by
    split
    · rw [bits_putBits_same, Nat.zero_mod]
    · rfl
  apart v f f' ha := by
    split
    · exact bits_putBits_apart _ _ ha
    · rfl
  lt v f hf hv := by
    split
    · exact putBits_lt _ _ _ _ _ hv hf
    · exact hv

/-! Rows of the register tables. -/

theorem mem_of_findSpec {inst off : Nat} {r : RegSpec} {i : Nat} : ∀ {l : List RegSpec}, findSpec inst off l = some (r, i) →
    r ∈ l ∧ specIndex r inst off = some i
  | x :: l, h => by
    rw [findSpec] at h
    split at h
    · next hx =>
      cases h
      exact ⟨List.mem_cons_self, hx⟩
    · obtain ⟨hm, hi⟩ := mem_of_findSpec h
      exact ⟨List.mem_cons_of_mem x hm, hi⟩

theorem mem_of_regAt {b inst off : Nat} {r : RegSpec} {i : Nat} (h : regAt b inst off = some (r, i)) :
    r ∈ regsHeader ∨ r ∈ regsOwn b := by
  unfold regAt at h
  split at h
  · exact .inl (mem_of_findSpec h).1
  · exact .inr (mem_of_findSpec h).1

theorem rowOk_header : ∀ r ∈ regsHeader, RowOk r := by
  unfold RowOk Apart
  decide

theorem rowOk_own : ∀ b < 17, ∀ r ∈ regsOwn b, RowOk r := by
  unfold RowOk Apart
  decide

theorem words_le_two : (∀ r ∈ regsHeader, r.words ≤ 2) ∧ ∀ b < 17, ∀ r ∈ regsOwn b, r.words ≤ 2 := by decide

/-- Every register of a page of the machine has fields that lie apart, within its one or two words. -/
theorem rowOk_of_regAt {b inst off : Nat} {r : RegSpec} {i : Nat} (hb : b < 17) (h : regAt b inst off = some (r, i)) :
    RowOk r ∧ r.words ≤ 2 := by
  rcases mem_of_regAt h with h | h
  · exact ⟨rowOk_header r h, words_le_two.1 r h⟩
  · exact ⟨rowOk_own b hb r h, words_le_two.2 b hb r h⟩

/-! Where an access by address lands. -/

theorem regPage_eq_some {a b inst off : Nat} : regPage a = some (b, inst, off) ↔
    (0xF000000000 ≤ a ∧ a < 0xF100000000 ∧ 1 ≤ b ∧ b ≤ 16 ∧ inst < blkInstances b) ∧ (a - 0xF000000000) / 2 ^ 20 = b ∧
      (a - 0xF000000000) / 2 ^ 12 % 256 = inst ∧ (a - 0xF000000000) % 2 ^ 12 = off := by
  unfold regPage
  simp only [Option.ite_none_right_eq_some, Option.some.injEq, Prod.mk.injEq]
  constructor
  · rintro ⟨h, rfl, rfl, rfl⟩
    exact ⟨h, rfl, rfl, rfl⟩
  · rintro ⟨h, rfl, rfl, rfl⟩
    exact ⟨h, rfl, rfl, rfl⟩

/-- What `Reaches` gives of the address. -/
theorem reaches_bounds {s : State} {a b inst off : Nat} (h : Reaches s a b inst off) :
    0xF000000000 ≤ a ∧ a < 0xF100000000 ∧ b < 17 := by
  obtain ⟨⟨ha, ha', -, hb, -⟩, -⟩ := regPage_eq_some.1 h.1
  exact ⟨ha, ha', by omega⟩

/-- The upper word of an aligned 8-byte access is on the same page. -/
theorem regPage_add_four {a b inst off : Nat} (ha : a % 8 = 0) (h : regPage a = some (b, inst, off)) :
    regPage (a + 4) = some (b, inst, off + 4) := by
  rw [regPage_eq_some] at h ⊢
  omega

/-- What tells whether an access reaches a page: the units present and the domains that are isolated. -/
def SameUnits (s t : State) : Prop := (∀ b inst, blkAbsent t b inst = blkAbsent s b inst) ∧ ∀ d, isolated t d = isolated s d

theorem reaches_add_four {s t : State} {a b inst off : Nat} (ha : a % 8 = 0) (h : Reaches s a b inst off) (hu : SameUnits s t) :
    Reaches t (a + 4) b inst (off + 4) :=
  ⟨regPage_add_four ha h.1, (hu.1 b inst).trans h.2.1, (hu.2 _).trans h.2.2⟩

theorem toNat_add_four {s : State} {a : BitVec 40} {b inst off : Nat} (h : Reaches s a.toNat b inst off) :
    (a + 4).toNat = a.toNat + 4 := by
  have := reaches_bounds h
  rw [BitVec.toNat_add]
  exact Nat.mod_eq_of_lt (by simp; omega)

section
variable {s : State} {a b inst off v : Nat} {r : RegSpec} {i : Nat}

theorem write4_eq (s : State) (v : Nat) (hr : regAt b inst off = some (r, i)) (hw : r.words = 1) :
    write4 s b inst off v = writeReg s b inst off (v % 2 ^ 32) := by
  simp [write4, hr, hw]

/-- R595: a 4-byte write of a 32-bit register. -/
theorem writeAt_narrow (h : Reaches s a b inst off) (ha : a % 4 = 0) (hr : regAt b inst off = some (r, i)) (hw : r.words = 1) (v : Nat) :
    (writeAt s a 4 v).1 = write4 s b inst off v := by
  obtain ⟨hlo, hhi, -⟩ := reaches_bounds h
  obtain ⟨hp, hu, hi⟩ := h
  simp [writeAt, Nat.not_lt.2 hlo, Nat.not_le.2 hhi, ha, hp, hu, hi, hr, hw]

/-- R595: an 8-byte write of two 32-bit registers. -/
theorem writeAt_wide_pair (h : Reaches s a b inst off) (ha : a % 8 = 0) (hr : regAt b inst off = some (r, i)) (hw : r.words = 1) (v : Nat) :
    (writeAt s a 8 v).1 = write4 (write4 s b inst off v) b inst (off + 4) (v / 2 ^ 32) := by
  obtain ⟨hlo, hhi, -⟩ := reaches_bounds h
  obtain ⟨hp, hu, hi⟩ := h
  simp [writeAt, Nat.not_lt.2 hlo, Nat.not_le.2 hhi, ha, hp, hu, hi, hr, hw]

/-- R595: an 8-byte write of a 64-bit register. -/
theorem writeAt_wide_one (h : Reaches s a b inst off) (ha : a % 8 = 0) (hr : regAt b inst off = some (r, i)) (hw : r.words = 2) (v : Nat) :
    (writeAt s a 8 v).1 = writeReg s b inst off (v % 2 ^ 64) := by
  obtain ⟨hlo, hhi, -⟩ := reaches_bounds h
  obtain ⟨hp, hu, hi⟩ := h
  simp [writeAt, Nat.not_lt.2 hlo, Nat.not_le.2 hhi, ha, hp, hu, hi, hr, hw]

/-- R595: an access of the whole of a register writes the register, cut to its width. -/
theorem writeAt_whole (h : Reaches s a b inst off) (w : Bool) (ha : a % (if w then 8 else 4) = 0) (hr : regAt b inst off = some (r, i))
    (hw : r.words = if w then 2 else 1) (v : Nat) :
    (writeAt s a (if w then 8 else 4) v).1 = writeReg s b inst off (v % 2 ^ (32 * r.words)) := by
  cases w
  · rw [hw]
    exact (writeAt_narrow h ha hr hw v).trans (write4_eq s v hr hw)
  · rw [hw]
    exact writeAt_wide_one h ha hr hw v

/-- R592: a write of an absent unit's page is ignored. -/
theorem writeAt_absent (hp : regPage a = some (b, inst, off)) (hu : blkAbsent s b inst = true) (n v : Nat) : (writeAt s a n v).1 = s := by
  simp only [writeAt, hp, hu]
  split
  · rfl
  · split <;> rfl

/-- R595: a 4-byte read clears at its word. -/
theorem readAt_narrow (h : Reaches s a b inst off) (ha : a % 4 = 0) : (readAt s a 4).1 = readClear s b inst off := by
  obtain ⟨hlo, hhi, -⟩ := reaches_bounds h
  obtain ⟨hp, hu, hi⟩ := h
  simp [readAt, Nat.not_lt.2 hlo, Nat.not_le.2 hhi, ha, hp, hu, hi]

/-- R595: an 8-byte read clears at both of its words. -/
theorem readAt_wide (h : Reaches s a b inst off) (ha : a % 8 = 0) :
    (readAt s a 8).1 = readClear (readClear s b inst off) b inst (off + 4) := by
  obtain ⟨hlo, hhi, -⟩ := reaches_bounds h
  obtain ⟨hp, hu, hi⟩ := h
  simp [readAt, Nat.not_lt.2 hlo, Nat.not_le.2 hhi, ha, hp, hu, hi]

end

/-! A write by the access types alone. -/

theorem plainWrite_eq (s : State) {b inst off : Nat} {r : RegSpec} {i : Nat} (hr : regAt b inst off = some (r, i)) (v : Nat) :
    plainWrite s b inst off v = regSet s (regKey b inst off)
      (BitVec.ofNat 64 (r.fields.foldl (fun old f => writeField f old v) (regGet s (regKey b inst off)).toNat)) := by
  simp [plainWrite, hr]

theorem sameUnits_regSet (s : State) (k : Nat) (v : DWord) : SameUnits s (regSet s k v) := ⟨fun _ _ => rfl, fun _ => rfl⟩

/-- A register whose fields an operation has gone through shows in each of them what the operation gives. -/
theorem bits_regSet_fieldWise {g : Nat → FSpec → Nat} {φ : FSpec → Nat → Nat} (h : FieldWise g φ) (s : State) (k : Nat) {r : RegSpec}
    (hr : RowOk r) (hw : r.words ≤ 2) {f : FSpec} (hf : f ∈ r.fields) :
    bits (regGet (regSet s k (BitVec.ofNat 64 (r.fields.foldl g (regGet s k).toNat))) k).toNat f.lo f.len
      = φ f (bits (regGet s k).toNat f.lo f.len) := by
  have hlt := h.foldl_lt r.fields (regGet s k).toNat (fun x hx => by have := hr.2 x hx; omega) (regGet s k).isLt
  rw [regGet_regSet_same, BitVec.toNat_ofNat, Nat.mod_eq_of_lt hlt, h.foldl_own r.fields _ hr.1 hf]

/-- Settles O4: each field of a row is written on its own, since the fields of every row lie apart. -/
theorem registerWriteByType : Obligations.RegisterWriteByType := by
  unfold Obligations.RegisterWriteByType
  refine ⟨?whole, ?pair, ?absent⟩
  case whole =>
    intro a v s b inst off r i w _ hs ha hr hw _ hplain
    obtain ⟨hok, hw2⟩ := rowOk_of_regAt (reaches_bounds hs).2.2 hr
    refine ⟨_, congrArg Host.Outcome.next ((writeAt_whole hs w ha hr hw v.toNat).trans ((hplain s _).trans (plainWrite_eq s hr _))),
      fun f hf => ?_, regsBut_regSet s _ _, only_of _ (regSet_moves s _ _) (by decide)⟩
    rw [bits_regSet_fieldWise (fieldWise_write _) s _ hok hw2 hf, bits_mod _ (hok.2 f hf)]
    cases f.typ <;> rfl
  case pair =>
    intro a v s b inst off r i r' i' _ hs ha hr hw hr' hw' hplain hplain'
    have hu : SameUnits s (write4 s b inst off v.toNat) := by
      rw [write4_eq s _ hr hw, hplain, plainWrite_eq s hr]
      exact sameUnits_regSet s _ _
    have hs' : Reaches (write4 s b inst off v.toNat) (a + 4).toNat b inst (off + 4) :=
      toNat_add_four hs ▸ reaches_add_four ha hs hu
    have ha' : (a + 4).toNat % 4 = 0 := by
      rw [toNat_add_four hs]
      omega
    have hv : (v >>> 32).toNat = v.toNat / 2 ^ 32 := by simp [Nat.shiftRight_eq_div_pow]
    refine ⟨_, congrArg Host.Outcome.next (writeAt_narrow hs (by omega) hr hw v.toNat), ?_⟩
    calc exec (.registerWrite a true v) s
        = .next (write4 (write4 s b inst off v.toNat) b inst (off + 4) (v.toNat / 2 ^ 32)) :=
          congrArg Host.Outcome.next (writeAt_wide_pair hs ha hr hw v.toNat)
      _ = exec (.registerWrite (a + 4) false (v >>> 32)) (write4 s b inst off v.toNat) :=
          (congrArg Host.Outcome.next ((writeAt_narrow hs' ha' hr' hw' _).trans (by rw [hv]))).symm
  case absent =>
    intro a w v s b inst off hp hu
    exact congrArg Host.Outcome.next (writeAt_absent hp hu _ _)

/-! A read that clears. -/

/-- The register word after a read has cleared its RC fields. -/
def cleared (s : State) (k : Nat) (r : RegSpec) : State :=
  regSet s k (BitVec.ofNat 64 (r.fields.foldl (fun v f => if f.typ = .rc then putBits v f.lo f.len 0 else v) (regGet s k).toNat))

/-- R380, R521: what follows the clearing of the register at `base`: the stale count of a domain starts again, RT_OLD.SEEN is set again. -/
def afterClear (s : State) (b inst base : Nat) : State :=
  if b = 1 ∧ 0xA00 ≤ base ∧ base < 0xBA0 then setDom s ((base - 0xA00) / 4) { getDom s ((base - 0xA00) / 4) with reported := 0 }
  else if b = 9 ∧ inst = 0 ∧ base = 0x54 then noteOld s
  else s

theorem readClear_none {s : State} {b inst off : Nat} (hr : regAt b inst off = none) : readClear s b inst off = s := by
  simp only [readClear, hr]

theorem readClear_some {s : State} {b inst off : Nat} {r : RegSpec} {i : Nat} (hr : regAt b inst off = some (r, i)) :
    readClear s b inst off = afterClear (cleared s (regKey b inst (r.off + i * r.stride)) r) b inst (r.off + i * r.stride) := by
  simp only [readClear, hr]
  rfl

/-- What follows a clearing leaves every register but RT_OLD, and that one too unless packets of the old edition are held. -/
theorem afterClear_cases (s : State) (b inst base : Nat) :
    ((b = 9 ∧ inst = 0 ∧ base = 0x54 ∧ oldCount s ≠ 0) ∧ afterClear s b inst base = setF s RT_OLD_SEEN 0 1) ∨
      (¬(b = 9 ∧ inst = 0 ∧ base = 0x54 ∧ oldCount s ≠ 0) ∧ (afterClear s b inst base).regs = s.regs) := by
  unfold afterClear
  split
  · exact .inr ⟨by omega, rfl⟩
  · split
    · next h =>
      obtain ⟨rfl, rfl, rfl⟩ := h
      unfold noteOld
      split
      · next h0 => exact .inr ⟨by simp [h0], rfl⟩
      · next h0 => exact .inl ⟨⟨rfl, rfl, rfl, h0⟩, rfl⟩
    · next h => exact .inr ⟨by tauto, rfl⟩

theorem only_afterClear (s : State) (b inst base : Nat) : Only [.regs, .doms] s (afterClear s b inst base) := by
  unfold afterClear
  split
  · exact only_of _ (setDom_moves ..) (by decide)
  · split
    · exact only_of _ (noteOld_moves _) (by decide)
    · exact only_refl _ _

/-- A stale count that starts again leaves the phase of its domain. -/
theorem isolated_afterClear (s : State) (b inst base d : Nat) : isolated (afterClear s b inst base) d = isolated s d := by
  have hdom : ∀ e d, (getDom (setDom s e { getDom s e with reported := 0 }) d).phase = (getDom s d).phase := by
    intro e d
    by_cases h : d = e
    · rw [h, getDom_setDom_same]
    · rw [getDom_setDom_other _ _ h]
  unfold afterClear
  split
  · simp only [isolated, hdom]
  · split
    · unfold noteOld
      split <;> rfl
    · rfl

theorem blkAbsent_of_only {s t : State} (h : Only [.regs, .doms] s t) (b inst : Nat) : blkAbsent t b inst = blkAbsent s b inst := by
  have hfw : s.fw = t.fw := h .fw (by decide)
  have hpt : s.ptile = t.ptile := h .ptile (by decide)
  simp only [blkAbsent, ptileOf, hfw, hpt]

theorem only_readClear (s : State) (b inst off : Nat) : Only [.regs, .doms] s (readClear s b inst off) := by
  cases hr : regAt b inst off with
  | none => rw [readClear_none hr]; exact only_refl _ _
  | some x =>
    rw [readClear_some hr]
    exact only_trans (t := cleared s _ _) (only_of _ (regSet_moves ..) (by decide)) (only_afterClear _ _ _ _)

theorem sameUnits_readClear (s : State) (b inst off : Nat) : SameUnits s (readClear s b inst off) := by
  refine ⟨blkAbsent_of_only (only_readClear s b inst off), fun d => ?_⟩
  cases hr : regAt b inst off with
  | none => rw [readClear_none hr]
  | some x => rw [readClear_some hr, isolated_afterClear]; rfl

/-- R380: RT_OLD of the router's first page is the row of RT_OLD.COUNT and RT_OLD.SEEN. -/
theorem fields_of_rtOld {off : Nat} {r : RegSpec} {i : Nat} (h : regAt 9 0 off = some (r, i)) (hb : r.off + i * r.stride = 0x54) :
    r.fields = [⟨0, 16, .ro, 0⟩, ⟨16, 1, .rc, 0⟩] := by
  have header : ∀ r ∈ regsHeader, r.stride = 0 ∧ r.off < 0x54 := by decide
  have own : ∀ r ∈ regsRT, r.lo = 0 → r.off ≤ 0x54 → r.stride = 0 ∧ (r.off = 0x54 → r.fields = [⟨0, 16, .ro, 0⟩, ⟨16, 1, .rc, 0⟩]) := by
    decide
  unfold regAt at h
  split at h
  · obtain ⟨hs, ho⟩ := header r (mem_of_findSpec h).1
    simp [hs] at hb
    omega
  · obtain ⟨hm, hi⟩ := mem_of_findSpec h
    have hlo : r.lo = 0 := by
      have hc := (Option.ite_none_right_eq_some.1 hi).1.1
      simpa [isEngineBlk] using hc
    obtain ⟨hs, hf⟩ := own r hm hlo (by omega)
    exact hf (by simpa [hs] using hb)

/-- The count of packets of the old edition reads no register but RT_EDITION. -/
theorem oldCount_regSet (s : State) {k : Nat} (v : DWord) (hk : fldKey 9 RT_EDITION_INJECT 0 0 ≠ k) : oldCount (regSet s k v) = oldCount s := by
  have : getF (regSet s k v) RT_EDITION_INJECT 0 = getF s RT_EDITION_INJECT 0 := by
    simp only [getF, rdF, show RT_EDITION_INJECT.blk = 9 from rfl, regGet_regSet_other s v hk]
  simp only [oldCount, this, regSet_router, getFlue_regSet]

/-- R10: the register that a clearing read leaves, and no other, is changed. -/
theorem regsBut_readClear (s : State) {b inst off : Nat} {r : RegSpec} {i : Nat} (hr : regAt b inst off = some (r, i)) :
    RegsBut [regKey b inst (r.off + i * r.stride)] s (readClear s b inst off) := by
  rw [readClear_some hr]
  refine regs_trans (t := cleared s _ r) (regsBut_regSet s _ _) ?_
  rcases afterClear_cases (cleared s (regKey b inst (r.off + i * r.stride)) r) b inst (r.off + i * r.stride)
    with ⟨⟨rfl, rfl, hb, -⟩, ht⟩ | ⟨-, ht⟩
  · rw [ht, hb]
    exact regsBut_wrF _ 9 RT_OLD_SEEN 0 0 1
  · exact regsBut_of_regs _ ht

/-- R10, R380: the fields of the register that a read clears. -/
theorem bits_readClear (s : State) {b inst off : Nat} {r : RegSpec} {i : Nat} (hb : b < 17) (hr : regAt b inst off = some (r, i))
    {f : FSpec} (hf : f ∈ r.fields) : let k := regKey b inst (r.off + i * r.stride)
    bits (regGet (readClear s b inst off) k).toNat f.lo f.len =
      if f.typ = .rc then b2n (b == 9 && inst == 0 && r.off + i * r.stride == 0x54 && oldCount s != 0)
      else bits (regGet s k).toNat f.lo f.len := by
  intro k
  obtain ⟨hok, hw⟩ := rowOk_of_regAt hb hr
  have hc : bits (regGet (cleared s k r) k).toNat f.lo f.len = if f.typ = .rc then 0 else bits (regGet s k).toNat f.lo f.len :=
    bits_regSet_fieldWise fieldWise_clear s k hok hw hf
  have hold : b = 9 ∧ inst = 0 ∧ r.off + i * r.stride = 0x54 → oldCount (cleared s k r) = oldCount s := by
    rintro ⟨rfl, rfl, hb⟩
    exact oldCount_regSet s _ (by simp only [k, hb]; decide)
  rw [readClear_some hr]
  rcases afterClear_cases (cleared s k r) b inst (r.off + i * r.stride) with ⟨⟨rfl, rfl, hb, h0⟩, ht⟩ | ⟨hn, ht⟩
  · have hk : k = fldKey 9 RT_OLD_SEEN 0 0 := by simp only [k, hb]; decide
    rw [hold ⟨rfl, rfl, hb⟩] at h0
    have hseen : (9 == 9 && 0 == 0 && r.off + i * r.stride == 0x54 && oldCount s != 0) = true := by simp [hb, h0]
    rw [ht, hseen]
    rw [fields_of_rtOld hr hb] at hf
    rcases List.mem_cons.1 hf with rfl | hf
    · rw [hk] at hc ⊢
      exact (rdF_wrF_apart (cleared s _ r) 9 RT_OLD_SEEN 0 0 1 9 RT_OLD_COUNT 0 0 (by decide) (by decide)).trans hc
    · obtain rfl := List.mem_singleton.1 hf
      rw [hk]
      exact rdF_wrF_same (cleared s _ r) 9 RT_OLD_SEEN 0 0 1 (by decide)
  · rw [show regGet (afterClear (cleared s k r) b inst (r.off + i * r.stride)) k = regGet (cleared s k r) k by simp only [regGet, ht], hc]
    have hseen : (b == 9 && inst == 0 && r.off + i * r.stride == 0x54 && oldCount s != 0) = false := by
      rw [← Bool.not_eq_true]
      intro h
      simp only [Bool.and_eq_true, beq_iff_eq, bne_iff_ne] at h
      obtain ⟨⟨⟨h1, h2⟩, h3⟩, h4⟩ := h
      exact hn ⟨h1, h2, h3, hold ⟨h1, h2, h3⟩ ▸ h4⟩
    rw [hseen]
    rfl

/-- Settles O5: a clearing read takes the fields one by one, and only RT_OLD.SEEN is set again afterwards. -/
theorem registerReadClearsCounts : Obligations.RegisterReadClearsCounts := by
  unfold Obligations.RegisterReadClearsCounts
  intro a s b inst off r i _ hs hr k
  refine ⟨fun ha => ?narrow, fun ha => ?wide⟩
  case narrow =>
    exact ⟨_, congrArg Host.Outcome.next (readAt_narrow hs ha), fun f hf => bits_readClear s (reaches_bounds hs).2.2 hr hf,
      regsBut_readClear s hr, only_readClear s b inst off⟩
  case wide =>
    have hs' : Reaches (readClear s b inst off) (a + 4).toNat b inst (off + 4) :=
      toNat_add_four hs ▸ reaches_add_four ha hs (sameUnits_readClear s b inst off)
    have ha' : (a + 4).toNat % 4 = 0 := by
      rw [toNat_add_four hs]
      omega
    exact ⟨_, _, congrArg Host.Outcome.next (readAt_narrow hs (by omega)), congrArg Host.Outcome.next (readAt_narrow hs' ha'),
      congrArg Host.Outcome.next (readAt_wide hs ha)⟩

end Sys2Proof.Proofs

/-! PROOFS. A program fault of an engine (R213, R228): what `faultEngine` leaves in the state, for every engine that runs, waits or is
armed. -/
namespace Sys2Proof.Proofs
open Sys2Proof Sys2Proof.Machine Sys2Proof.Laws

/-! What an operation leaves that does not move a part. -/

theorem getEng_of_moves {m : Nat} {s t : State} (h : Moves m s t) (hm : m.testBit 6 = false) (e : Eng) : getEng t e = getEng s e := by
  have : s.engines = t.engines := h.same .engines hm
  rw [getEng, getEng, this]

theorem getTile_of_moves {m : Nat} {s t : State} (h : Moves m s t) (hm : m.testBit 7 = false) (p : Nat) : getTile t p = getTile s p := by
  have : s.tiles = t.tiles := h.same .tiles hm
  rw [getTile, getTile, this]

theorem isolated_of_moves {m : Nat} {s t : State} (h : Moves m s t) (hm : m.testBit 38 = false) (d : Nat) : isolated t d = isolated s d := by
  have : s.doms = t.doms := h.same .doms hm
  unfold isolated getDom
  rw [this]

theorem engUnit_of_moves {m : Nat} {s t : State} (h : Moves m s t) (hm : m.testBit 12 = false) (e : Eng) : engUnit t e = engUnit s e := by
  have : s.tmap = t.tmap := h.same .tmap hm
  cases e <;> simp only [engUnit, logOf, this]

theorem jobGen_of_regsBut {ks : List Nat} {s t : State} (h : RegsBut ks s t) (hk : fldKey 9 RT_JOB_GEN_GEN 0 0 ∉ ks) : jobGen t = jobGen s := by
  simp only [jobGen, getF, rdF, show RT_JOB_GEN_GEN.blk = 9 from rfl, h _ hk]

/-! The registers of the last fault. -/

/-- R117, R156, R195, R268, R269, R415: the registers that show the last fault of an engine: its page's, its tile's sync unit's and the
barrier unit's. -/
def lastFaultKeys : Eng → List Nat
  | .tile p .mx => [fldKey 3 MX_LAST_FAULT_CODE p 0, fldKey 6 SY_LAST_FAULT_CODE p 0, fldKey 7 BA_LAST_FAULT_CODE 0 0]
  | .tile p .vx => [fldKey 4 VX_LAST_FAULT_CODE p 0, fldKey 6 SY_LAST_FAULT_CODE p 0, fldKey 7 BA_LAST_FAULT_CODE 0 0]
  | .tile p .dm => [fldKey 5 DM_LAST_FAULT_CODE p 0, fldKey 6 SY_LAST_FAULT_CODE p 0, fldKey 7 BA_LAST_FAULT_CODE 0 0]
  | .tile p .sy => [fldKey 6 SY_LAST_FAULT_CODE p 0, fldKey 7 BA_LAST_FAULT_CODE 0 0]
  | .ce c => [fldKey 8 CE_LAST_FAULT_CODE c 0, fldKey 7 BA_LAST_FAULT_CODE 0 0]

/-- Two fields of listed registers, written one after the other. -/
theorem regs_setF_setF {ks : List Nat} {s u : State} (h : RegsBut ks s u) (f g : Fld) (i v w : Nat) (hf : fldKey f.blk f i 0 ∈ ks)
    (hg : fldKey g.blk g i 0 ∈ ks) : RegsBut ks s (setF (setF u f i v) g i w) :=
  regs_trans (regs_trans h (regs_mono (regsBut_wrF u f.blk f i 0 v) (by simpa using hf)))
    (regs_mono (regsBut_wrF _ g.blk g i 0 w) (by simpa using hg))

/-- The same, where the writes depend on a condition. -/
theorem regs_ite_setF_setF {ks : List Nat} {s u : State} (c : Prop) [Decidable c] (h : RegsBut ks s u) (f g : Fld) (i v w : Nat)
    (hf : fldKey f.blk f i 0 ∈ ks) (hg : fldKey g.blk g i 0 ∈ ks) :
    RegsBut ks s (if c then setF (setF u f i v) g i w else u) := by
  split
  · exact regs_setF_setF h f g i v w hf hg
  · exact h

theorem regs_refl (ks : List Nat) (s : State) : RegsBut ks s s := fun _ _ => rfl

/-- The sync unit's register, where a condition asks for it, and the barrier unit's for its codes. -/
theorem regs_syncBarrier {ks : List Nat} {s u : State} (c : Prop) [Decidable c] (h : RegsBut ks s u) (p code tag : Nat)
    (hs : fldKey 6 SY_LAST_FAULT_CODE p 0 ∈ ks) (hb : fldKey 7 BA_LAST_FAULT_CODE 0 0 ∈ ks) :
    let w := if c then setF (setF u SY_LAST_FAULT_CODE p code) SY_LAST_FAULT_TAG p tag else u
    RegsBut ks s (if code = 0x0202 ∨ code = 0x0205 ∨ code = 0x0208 then setF (setF w BA_LAST_FAULT_CODE 0 code) BA_LAST_FAULT_TAG 0 tag else w) :=
  regs_ite_setF_setF _ (regs_ite_setF_setF c h SY_LAST_FAULT_CODE SY_LAST_FAULT_TAG p code tag hs hs)
    BA_LAST_FAULT_CODE BA_LAST_FAULT_TAG 0 code tag hb hb

theorem regsBut_setLastFault (s : State) (e : Eng) (code tag : Nat) : RegsBut (lastFaultKeys e) s (setLastFault s e code tag) := by
  rcases e with ⟨p, _ | _ | _ | _⟩ | c
  case tile.mx =>
    exact regs_syncBarrier (EngKind.mx = .sy ∨ code / 256 = 2) (regs_setF_setF (regs_refl (lastFaultKeys (.tile p .mx)) s)
      MX_LAST_FAULT_CODE MX_LAST_FAULT_TAG p.val code tag (.head _) (.head _)) p.val code tag (.tail _ (.head _)) (.tail _ (.tail _ (.head _)))
  case tile.vx =>
    exact regs_syncBarrier (EngKind.vx = .sy ∨ code / 256 = 2) (regs_setF_setF (regs_refl (lastFaultKeys (.tile p .vx)) s)
      VX_LAST_FAULT_CODE VX_LAST_FAULT_TAG p.val code tag (.head _) (.head _)) p.val code tag (.tail _ (.head _)) (.tail _ (.tail _ (.head _)))
  case tile.dm =>
    exact regs_syncBarrier (EngKind.dm = .sy ∨ code / 256 = 2) (regs_setF_setF (regs_refl (lastFaultKeys (.tile p .dm)) s)
      DM_LAST_FAULT_CODE DM_LAST_FAULT_TAG p.val code tag (.head _) (.head _)) p.val code tag (.tail _ (.head _)) (.tail _ (.tail _ (.head _)))
  case tile.sy =>
    exact regs_syncBarrier (EngKind.sy = .sy ∨ code / 256 = 2) (regs_refl (lastFaultKeys (.tile p .sy)) s) p.val code tag
      (.head _) (.tail _ (.head _))
  case ce =>
    have own := regs_setF_setF (regs_refl (lastFaultKeys (.ce c)) s) CE_LAST_FAULT_CODE CE_LAST_FAULT_TAG c.val code tag (.head _) (.head _)
    exact regs_ite_setF_setF _ own BA_LAST_FAULT_CODE BA_LAST_FAULT_TAG 0 code tag (.tail _ (.head _)) (.tail _ (.head _))

theorem jobGen_not_trace (e : Eng) : fldKey 9 RT_JOB_GEN_GEN 0 0 ∉ traceKeys e := by
  rcases e with ⟨p, k⟩ | c
  · have := p.isLt
    simp only [traceKeys, List.mem_singleton, fldKey, regKey, RT_JOB_GEN_GEN, TL_TRACE_HEAD_NEXT]
    omega
  · simp [traceKeys]

theorem jobGen_not_lastFault (e : Eng) : fldKey 9 RT_JOB_GEN_GEN 0 0 ∉ lastFaultKeys e := by
  rcases e with ⟨p, _ | _ | _ | _⟩ | c
  case ce =>
    have := c.isLt
    simp only [lastFaultKeys, List.mem_cons, List.not_mem_nil, or_false, fldKey, regKey, RT_JOB_GEN_GEN, CE_LAST_FAULT_CODE, BA_LAST_FAULT_CODE]
    omega
  all_goals
    have := p.isLt
    simp only [lastFaultKeys, List.mem_cons, List.not_mem_nil, or_false, fldKey, regKey, RT_JOB_GEN_GEN, MX_LAST_FAULT_CODE, VX_LAST_FAULT_CODE,
      DM_LAST_FAULT_CODE, SY_LAST_FAULT_CODE, BA_LAST_FAULT_CODE]
    omega

/-! The record of a fault and the state it leaves. -/

/-- R581: a record that finds room in the queue of events stands in it under the next sequence number. -/
theorem raise_event (s : State) (b inst : Nat) (r : FaultRec) (h : s.eb.events.length < 3840) :
    (s.eb.evSeq, EbEvent.fault r) ∈ (raise s b inst r).eb.events := by
  have hlog : (ashFault (pushEvent s (.fault r)) r).eb = (raise s b inst r).eb := (logErr_moves _ b inst r.code).same .eb (by decide)
  have hash : (pushEvent s (.fault r)).eb = (ashFault (pushEvent s (.fault r)) r).eb := (ashFault_moves _ r).same .eb (by decide)
  rw [← hlog, ← hash, pushEvent, if_pos h]
  simp [putEvent, ebOut]

/-- R228: the record of an engine's fault. -/
def faultRec (s : State) (e : Eng) (code tag pc addr space detail : Nat) : FaultRec :=
  ⟨code, engUnit s e, engClass e, tag, pc, s.gsc, jobGen s, engPhys e, addr, space, detail⟩

/-- The state in which a fault's record has been raised, before the program stops. -/
def faultRaised (s : State) (e : Eng) (code tag pc : Nat) (t : Bool) (addr space detail : Nat) : State :=
  raise (setLastFault (traceEv s e t tag pc 4 code) e code tag) (engBlk e) (engInst e) (faultRec s e code tag pc addr space detail)

/-- R213: an engine whose program may fault. -/
def Faultable (s : State) (e : Eng) : Prop := (getEng s e).st = .running ∨ (getEng s e).st = .waiting ∨ (getEng s e).st = .armed

/-- The engine of a program that has faulted. -/
def faultedEngine (g : Engine) : Engine :=
  { g with st := .faulted, queue := [], fetchPc := enginePc g, fetchStop := false, wait := none, fwait := none, marks := [], quiesceReq := false }

/-- The trace record and the last-fault registers of a fault change no unit, time or generation that its record names. -/
theorem faultRec_traced (s : State) (e : Eng) (code tag pc : Nat) (t : Bool) (addr space detail : Nat) :
    let u := setLastFault (traceEv s e t tag pc 4 code) e code tag
    faultRec u e code tag pc addr space detail = faultRec s e code tag pc addr space detail ∧ u.eb = s.eb := by
  intro u
  have hm : Moves 0x88 s u := (setLastFault_moves _ e code tag).next (by decide) (traceEv_moves s e t tag pc 4 code)
  have hgsc : s.gsc = u.gsc := hm.same .gsc (by decide)
  have hgen : jobGen u = jobGen s :=
    (jobGen_of_regsBut (regsBut_setLastFault _ e code tag) (jobGen_not_lastFault e)).trans
      (jobGen_of_regsBut (traceEv_regs s e t tag pc 4 code) (jobGen_not_trace e))
  exact ⟨by simp only [faultRec, engUnit_of_moves hm (by decide), hgsc, hgen], (hm.same .eb (by decide)).symm⟩

theorem getEng_faultRaised (s : State) (e : Eng) (code tag pc : Nat) (t : Bool) (addr space detail : Nat) (e' : Eng) :
    getEng (faultRaised s e code tag pc t addr space detail) e' = getEng s e' := by
  rw [faultRaised, getEng_of_moves (raise_moves ..) (by decide), getEng_of_moves (setLastFault_moves ..) (by decide), getEng_traceEv]

/-- R213, R228: the program of an engine that may fault stops with its record raised. -/
theorem faultEngine_eq {s : State} {e : Eng} (h : Faultable s e) (code tag pc : Nat) (t : Bool) (addr space detail : Nat) :
    faultEngine s e code tag pc t addr space detail =
      let u := faultRaised s e code tag pc t addr space detail
      stopWork (setEng (takeBackMark (takeBackBar u e) e) e (faultedEngine (getEng s e))) e := by
  have hrec := (faultRec_traced s e code tag pc t addr space detail).1
  have hg := getEng_faultRaised s e code tag pc t addr space detail e
  unfold faultRaised at hg ⊢
  rw [← hrec] at hg ⊢
  have h' : (getEng s e).st = .running ∨ (getEng s e).st = .waiting ∨ (getEng s e).st = .armed := h
  rw [← hg] at h' ⊢
  exact if_pos h'

/-- R213, R228, R581: what a fault of an engine's program shows. -/
theorem faultEngine_faultsWith {s : State} {e : Eng} (h : Faultable s e) (code tag pc : Nat) (t : Bool) (addr space detail : Nat) :
    FaultsWith s (faultEngine s e code tag pc t addr space detail) e code tag pc := by
  rw [faultEngine_eq h]
  obtain ⟨u, hu⟩ : ∃ u, faultRaised s e code tag pc t addr space detail = u := ⟨_, rfl⟩
  simp only [hu]
  have back : Moves 0x300 u (takeBackMark (takeBackBar u e) e) :=
    (takeBackMark_moves ..).next (by decide) ((takeBackBar_moves u e).le (by decide))
  have stop := stopWork_moves (setEng (takeBackMark (takeBackBar u e) e) e (faultedEngine (getEng s e))) e
  refine ⟨?st, fun hroom => ⟨faultRec s e code tag pc addr space detail, ?event, rfl, rfl, rfl, rfl, rfl, rfl, rfl, rfl⟩,
    fun e' he => ?others⟩
  case st => rw [getEng_of_moves stop (by decide), getEng_setEng_same]; rfl
  case event =>
    have heb : (setEng (takeBackMark (takeBackBar u e) e) e (faultedEngine (getEng s e))).eb = _ := stop.same .eb (by decide)
    have hback : u.eb = (takeBackMark (takeBackBar u e) e).eb := back.same .eb (by decide)
    obtain ⟨-, htr⟩ := faultRec_traced s e code tag pc t addr space detail
    rw [← heb, setEng_eb, ← hback, ← hu, ← htr]
    exact raise_event _ _ _ _ (by rw [htr]; exact hroom)
  case others =>
    rw [getEng_of_moves stop (by decide), getEng_setEng_other _ _ (by simpa using he), getEng_of_moves back (by decide), ← hu,
      getEng_faultRaised]

end Sys2Proof.Proofs

/-! PROOFS. The start of a descriptor of the data mover (R131 to R136, R155): issue, the W wait, the checks, and the descriptor that joins
those in flight. -/
namespace Sys2Proof.Proofs
open Sys2Proof Sys2Proof.Machine Sys2Proof.Laws

/-! Issue. -/

/-- The instruction that stands at issue: the front of the queue of an engine that may issue, of the class and opcode named. -/
theorem frontIs_eq_some {s : State} {e : Eng} {cls op : Nat} {q : QEntry} : frontIs s e cls op = some q ↔
    (∃ r, (getEng s e).queue = q :: r) ∧ canIssue s e = true ∧ iCls q.word = cls ∧ iOp q.word = op := by
  unfold frontIs
  cases (getEng s e).queue with
  | nil => simp
  | cons x r =>
    simp only [Option.ite_none_right_eq_some, Option.some.injEq, Bool.and_eq_true, beq_iff_eq, List.cons.injEq, exists_and_left,
      exists_eq', and_true]
    constructor
    · rintro ⟨⟨⟨h1, h2⟩, h3⟩, rfl⟩
      exact ⟨rfl, h1, h2, h3⟩
    · rintro ⟨rfl, h1, h2, h3⟩
      exact ⟨⟨⟨h1, h2⟩, h3⟩, rfl⟩

/-- R213: an engine that may issue is one whose program may fault. -/
theorem faultable_of_canIssue {s : State} {e : Eng} (h : canIssue s e = true) : Faultable s e := by
  simp only [canIssue, Bool.and_eq_true, Bool.or_eq_true, decide_eq_true_eq] at h
  obtain ⟨⟨⟨h | ⟨⟨h, -⟩, -⟩, -⟩, -⟩, -⟩ := h
  · exact .inl h
  · exact .inr (.inl h)

/-- R200: no W wait is open. -/
theorem takeW_passed (s : State) (e : Eng) {q : QEntry} (h : iW q.word = false ∨ q.wDone = true) : takeW s e q = (s, true) := by
  unfold takeW
  rcases h with h | h <;> simp [h]

/-- R200, R245: the W wait is satisfied at issue. -/
theorem takeW_taken {s : State} {e : Eng} {q : QEntry} {p : Nat} (hw : iW q.word = true) (hd : q.wDone = false) (hp : homeOf s e = some p)
    (hc : 1 ≤ getCtr s p (iWctr q.word)) : takeW s e q =
      (modEng (takeCtr s p (iWctr q.word) 1 e) e (fun g => { g with queue := g.queue.set 0 { q with wDone := true } }), true) := by
  simp only [takeW, hw, hd, hp, Bool.not_true, Bool.or_false, Bool.false_eq_true, if_false, if_pos hc]

/-- R200: the W wait begins. -/
theorem takeW_waits {s : State} {e : Eng} {q : QEntry} {p : Nat} (hw : iW q.word = true) (hd : q.wDone = false) (hp : homeOf s e = some p)
    (hc : getCtr s p (iWctr q.word) = 0) : takeW s e q = (beginWait s e q .wflag (iWctr q.word) 1, false) := by
  simp [takeW, hw, hd, hp, hc]

/-- R200, R213, R230: a wait that begins at issue leaves the queue, the engine WAITING, a trace record and nothing else. -/
theorem beginWait_shows (s : State) (e : Eng) (q : QEntry) (k : WaitKind) (c v : Nat) :
    let t := beginWait s e q k c v
    getEng t e = { getEng s e with st := .waiting, wait := some ⟨k, c, v, s.gsc, 0⟩ } ∧ RegsBut (traceKeys e) s t ∧ EngsBut [e] s t
      ∧ Only [.regs, .engines, .tiles] s t := by
  intro t
  obtain ⟨u, hu⟩ : ∃ u, traceEv s e (iT q.word) (iTag q.word) q.idx 0 c = u := ⟨_, rfl⟩
  have ht : t = setEng u e { getEng u e with st := .waiting, wait := some ⟨k, c, v, u.gsc, 0⟩ } := by rw [← hu]; rfl
  have hreg : RegsBut (traceKeys e) s u := hu ▸ traceEv_regs _ _ _ _ _ _ _
  have hge : ∀ e', getEng u e' = getEng s e' := fun e' => hu ▸ getEng_traceEv ..
  have hgsc : s.gsc = u.gsc := hu ▸ (traceEv_moves ..).same .gsc (by decide)
  rw [ht]
  refine ⟨?_, regs_trans hreg (regsBut_of_regs _ rfl), fun e' he => ?_, ?_⟩
  · rw [getEng_setEng_same, hge, hgsc]
  · rw [getEng_setEng_other _ _ (by simpa using he), hge]
  · exact only_trans (t := u) (hu ▸ only_mono (only_traceEv _ _ _ _ _ _ _) (by decide)) (only_of _ (setEng_moves ..) (by decide))

/-- R245, R246: a satisfied wait changes its counter's register, and of a tile only the order of its next waits. -/
theorem regsBut_takeCtr (s : State) (p c v : Nat) (e : Eng) : RegsBut [fldKey 6 SY_CTR p c] s (takeCtr s p c v e) := by
  refine regs_trans (t := setCtr s p c (getCtr s p c - v)) (regsBut_wrF s 6 SY_CTR p c _) (regsBut_of_regs _ ?_)
  cases e <;> rfl

theorem getDm_takeCtr (s : State) (p c v : Nat) (e : Eng) (q : Nat) : getDm (takeCtr s p c v e) q = getDm s q := by
  cases e with
  | ce _ => rfl
  | tile p' k =>
    simp only [getDm, takeCtr, noteServed, modTile]
    by_cases h : q = p
    · subst h
      rw [getTile_setTile_same]
      rfl
    · rw [getTile_setTile_other _ _ h]
      rfl

/-! The rows of the data mover. -/

/-- R200: the state in which the instruction at issue in a mover has its W wait behind it. -/
def waited (s : State) (p : Fin 72) (q : QEntry) : State :=
  modEng (takeCtr s p (iWctr q.word) 1 (.tile p .dm)) (.tile p .dm) (fun g => { g with queue := { q with wDone := true } :: g.queue.drop 1 })

theorem getEng_waited (s : State) (p : Fin 72) (q : QEntry) : getEng (waited s p q) (.tile p .dm) =
    { getEng s (.tile p .dm) with queue := { q with wDone := true } :: (getEng s (.tile p .dm)).queue.drop 1 } := by
  rw [waited, modEng, getEng_setEng_same, getEng_of_moves (takeCtr_moves ..) (by decide)]

/-- The instruction still stands at issue, under the same conditions. -/
theorem atIssue_waited {s : State} {p : Fin 72} {cls op : Nat} {q : QEntry} (hf : frontIs s (.tile p .dm) cls op = some q) :
    frontIs (waited s p q) (.tile p .dm) cls op = some { q with wDone := true } ∧ draining (waited s p q) p.val = draining s p.val
      ∧ getDm (waited s p q) p.val = getDm s p.val := by
  obtain ⟨-, hissue, hcls, hop⟩ := frontIs_eq_some.1 hf
  have hiso : isolated (waited s p q) p.val = isolated s p.val := isolated_of_moves (takeCtr_moves s p (iWctr q.word) 1 (.tile p .dm)) (by decide) _
  refine ⟨frontIs_eq_some.2 ⟨⟨_, congrArg Engine.queue (getEng_waited s p q)⟩, ?_, hcls, hop⟩, ?_, getDm_takeCtr ..⟩
  · rw [← hissue]
    simp only [canIssue, getEng_waited, engDom, hiso, optBusy]
  · have hk : fldKey 2 H_CTRL_DRAIN p 0 ∉ [fldKey 6 SY_CTR p (iWctr q.word)] := by
      have := bits_lt q.word.toNat 88 8
      have := p.isLt
      simp only [List.mem_singleton, fldKey, regKey, H_CTRL_DRAIN, SY_CTR, iWctr, ifld]
      omega
    simp only [draining, rdF, show regGet (waited s p q) (fldKey 2 H_CTRL_DRAIN p 0) = _ from
      regsBut_takeCtr s p (iWctr q.word) 1 (.tile p .dm) _ hk]

/-- R200, R245: the W wait of a mover's instruction at issue is satisfied. -/
theorem takeW_waited {s : State} {p : Fin 72} {cls op : Nat} {q : QEntry} (hf : frontIs s (.tile p .dm) cls op = some q)
    (hw : iW q.word = true) (hd : q.wDone = false) (hc : 1 ≤ getCtr s p (iWctr q.word)) : takeW s (.tile p .dm) q = (waited s p q, true) := by
  obtain ⟨⟨r, hq⟩, -⟩ := frontIs_eq_some.1 hf
  rw [takeW_taken hw hd rfl hc, waited, modEng, modEng, getEng_of_moves (takeCtr_moves ..) (by decide), hq]
  rfl

@[simp] theorem dmEng_val (p : Fin 72) : dmEng p.val = .tile p .dm := by
  simp [dmEng]

/-- R151: what breaks the encoding of a dm. instruction besides its flags: a reserved bit, and a space of dm.warm that is not job memory. -/
def dmBad (op : Nat) (rsv : List (Nat × Nat)) (w : IWord) : Bool := rsvBad w rsv || (op == 0x42 && ifld w 77 3 != 1)

/-- What the five rows that start a descriptor have in common. -/
structure MoverRow (p : Fin 72) (c : Instr) (op : Nat) (rsv : List (Nat × Nat)) (mk : State → IWord → Desc × Nat) : Prop where
  runs : ∀ s, exec c s = .next (runDm s p.val op (dmBad op rsv) mk)
  fresh : ∀ s w, (mk s w).1.next = 0 ∧ (mk s w).1.doneCnt = 0 ∧ (mk s w).1.stall = none
  shape : op ≤ 0x42 → mk = shapeDesc p.val op

theorem moverRow_of_mem {p : Fin 72} {c : Instr} {op : Nat} {rsv : List (Nat × Nat)} {mk : State → IWord → Desc × Nat}
    (h : (c, op, rsv, mk) ∈ [(Instr.dmCopy p, 0x40, [(0, 27)], shapeDesc p.val 0x40),
      (.dmFill p, 0x41, [(0, 36), (77, 3), (54, 5), (47, 2)], shapeDesc p.val 0x41),
      (.dmWarm p, 0x42, [(0, 47), (74, 3), (64, 5), (49, 5)], shapeDesc p.val 0x42),
      (.dmGather p, 0x43, [(0, 32), (74, 3)], narrowDesc p.val), (.dmAtomadd p, 0x44, [(0, 41), (74, 2)], narrowDesc p.val)]) :
    MoverRow p c op rsv mk := by
  have own : ∀ {op rsv}, op ≠ 0x42 → dmBad op rsv = fun w => rsvBad w rsv := fun ho => funext fun w => by simp [dmBad, ho]
  simp only [List.mem_cons, List.not_mem_nil, or_false, Prod.mk.injEq] at h
  rcases h with ⟨rfl, rfl, rfl, rfl⟩ | ⟨rfl, rfl, rfl, rfl⟩ | ⟨rfl, rfl, rfl, rfl⟩ | ⟨rfl, rfl, rfl, rfl⟩ | ⟨rfl, rfl, rfl, rfl⟩
  · exact ⟨fun s => by rw [own (by decide)]; rfl, fun _ _ => ⟨rfl, rfl, rfl⟩, fun _ => rfl⟩
  · exact ⟨fun s => by rw [own (by decide)]; rfl, fun _ _ => ⟨rfl, rfl, rfl⟩, fun _ => rfl⟩
  · have warm : dmBad 0x42 [(0, 47), (74, 3), (64, 5), (49, 5)] =
        fun w => ifld w 77 3 != 1 || rsvBad w [(0, 47), (74, 3), (64, 5), (49, 5)] := funext fun w => Bool.or_comm _ _
    exact ⟨fun s => by rw [warm]; rfl, fun _ _ => ⟨rfl, rfl, rfl⟩, fun _ => rfl⟩
  · exact ⟨fun s => by rw [own (by decide)]; rfl, fun _ _ => ⟨rfl, rfl, rfl⟩, fun h => absurd h (by decide)⟩
  · exact ⟨fun s => by rw [own (by decide)]; rfl, fun _ _ => ⟨rfl, rfl, rfl⟩, fun h => absurd h (by decide)⟩

/-- R155: a descriptor with what the instruction at issue gives it. -/
def issuedDesc (op : Nat) (q : QEntry) (d : Desc) : Desc :=
  { d with op := op, pc := q.idx, tag := iTag q.word, v := iV q.word, t := iT q.word, sctr := iSig q.word }

section
variable {s : State} {p : Fin 72} {op : Nat} {bad : IWord → Bool} {mk : State → IWord → Desc × Nat} {q : QEntry}

/-- R135, R603: a dm. instruction waits at issue. -/
theorem runDm_held (hf : frontIs s (.tile p .dm) 3 op = some q) (hh : draining s p.val = true ∨ 8 ≤ (getDm s p.val).descs.length) :
    runDm s p.val op bad mk = s := by
  simp only [runDm, dmEng_val, hf]
  exact if_pos (by simpa using hh)

/-- R151, R202: a dm. instruction of a bad encoding faults. -/
theorem runDm_bad (hf : frontIs s (.tile p .dm) 3 op = some q) (hd : draining s p.val = false) (hl : (getDm s p.val).descs.length < 8)
    (hb : (flagBad q.word || (iV q.word != (op == 0x44)) || bad q.word) = true) :
    runDm s p.val op bad mk = faultQ s (.tile p .dm) q 0x0C01 0 0 0 := by
  simp only [runDm, dmEng_val, hf]
  rw [if_neg (by simp [hd, hl]), if_pos hb]

/-- R135, R200: a dm. instruction of a good encoding takes its W wait and starts its descriptor. -/
theorem runDm_good (hf : frontIs s (.tile p .dm) 3 op = some q) (hd : draining s p.val = false) (hl : (getDm s p.val).descs.length < 8)
    (hb : (flagBad q.word || (iV q.word != (op == 0x44)) || bad q.word) = false) :
    runDm s p.val op bad mk = if (takeW s (.tile p .dm) q).2
      then startDesc (takeW s (.tile p .dm) q).1 p.val q (issuedDesc op q (mk (takeW s (.tile p .dm) q).1 q.word).1)
        (mk (takeW s (.tile p .dm) q).1 q.word).2
      else (takeW s (.tile p .dm) q).1 := by
  simp only [runDm, dmEng_val, hf]
  rw [if_neg (by simp [hd, hl]), if_neg (by simp [hb])]
  rcases takeW s (.tile p .dm) q with ⟨u, _ | _⟩ <;> rfl

end

/-! Faults of the mover. -/

/-- R149: a fault of the mover's program leaves the pieces that are out. -/
theorem getDm_faultEngine_out {s : State} (hs : Canon s) (p : Fin 72) (h : Faultable s (.tile p .dm)) (code tag pc : Nat) (t : Bool)
    (addr space detail : Nat) : (getDm (faultEngine s (.tile p .dm) code tag pc t addr space detail) p.val).out = (getDm s p.val).out := by
  rw [faultEngine_eq h]
  obtain ⟨u, hu⟩ : ∃ u, faultRaised s (.tile p .dm) code tag pc t addr space detail = u := ⟨_, rfl⟩
  have raised : (getDm u p.val).out = (getDm s p.val).out := by
    obtain ⟨x, hx⟩ := getTile_traceEv hs (.tile p .dm) t tag pc 4 code p.val
    rw [← hu, faultRaised, getDm, getTile_of_moves (raise_moves ..) (by decide), getTile_of_moves (setLastFault_moves ..) (by decide), hx]
    rfl
  have back : getTile (takeBackMark (takeBackBar u (.tile p .dm)) (.tile p .dm)) p.val = getTile u p.val := by
    rw [getTile_of_moves (takeBackMark_moves ..) (by decide), getTile_of_moves (takeBackBar_moves ..) (by decide)]
  simp only [hu, stopWork, getDm, modTile, getTile_setTile_same, getTile_setEng, back]
  exact raised

/-- R149: DM_PROG shows a piece, its transfer and its tag; nothing else changes. -/
theorem regsBut_dmProg (s : State) (p next tid tag : Nat) : RegsBut [fldKey 5 DM_PROG_NEXT_PIECE p 0] s (dmProg s p next tid tag) :=
  regs_trans (regs_setF_setF (regs_refl _ s) DM_PROG_NEXT_PIECE DM_PROG_TRANSFER_ID p _ _ (.head _) (.head _)) (regsBut_wrF _ 5 DM_PROG_TAG p 0 tag)

/-- What a fault shows of a state it shows of the state before DM_PROG was written. -/
theorem faultsWith_dmProg {s t : State} {p next tid tag : Nat} {e : Eng} {code tag' pc : Nat}
    (h : FaultsWith (dmProg s p next tid tag) t e code tag' pc) : FaultsWith s t e code tag' pc := by
  have hgen : jobGen (dmProg s p next tid tag) = jobGen s := jobGen_of_regsBut (regsBut_dmProg s p next tid tag) (by
    simp only [List.mem_singleton, fldKey, regKey, RT_JOB_GEN_GEN, DM_PROG_NEXT_PIECE]
    omega)
  exact ⟨h.st, fun hroom => by
    obtain ⟨r, hr⟩ := h.event hroom
    rw [hgen] at hr
    exact ⟨r, hr⟩, h.others⟩

/-- R149, R213: the fault of an instruction of the mover at issue, with or without DM_PROG. -/
theorem faultQ_shows {s : State} (hs : Canon s) (p : Fin 72) (h : Faultable s (.tile p .dm)) (q : QEntry) (code addr space detail : Nat) :
    let t := faultQ s (.tile p .dm) q code addr space detail
    FaultsWith s t (.tile p .dm) code (iTag q.word) q.idx ∧ (getDm t p.val).out = (getDm s p.val).out :=
  ⟨faultEngine_faultsWith h .., getDm_faultEngine_out hs p h ..⟩

theorem faultQ_dmProg_shows {s : State} (hs : Canon s) (p : Fin 72) (h : Faultable s (.tile p .dm)) (q : QEntry)
    (next tid tag code addr space detail : Nat) :
    let t := faultQ (dmProg s p.val next tid tag) (.tile p .dm) q code addr space detail
    FaultsWith s t (.tile p .dm) code (iTag q.word) q.idx ∧ (getDm t p.val).out = (getDm s p.val).out := by
  obtain ⟨hf, ho⟩ := faultQ_shows ((dmProg_moves s p.val next tid tag).canon hs) p h q code addr space detail
  exact ⟨faultsWith_dmProg hf, ho⟩

/-! The checks of a start. -/

section
variable {s : State} {p : Fin 72} {q : QEntry} {d : Desc} {shape : Nat}

/-- R149, R151: a descriptor that breaks a check of its start faults with that check's code. -/
theorem startDesc_checked (hs : Canon s) (h : Faultable s (.tile p .dm)) {c : Nat} (hc : descFault d shape = some c) :
    FaultsWith s (startDesc s p.val q d shape) (.tile p .dm) c (iTag q.word) q.idx
      ∧ (getDm (startDesc s p.val q d shape) p.val).out = (getDm s p.val).out := by
  unfold startDesc
  simp only [hc, dmEng_val]
  split
  · next hx =>
    cases hx
    exact faultQ_dmProg_shows hs p h ..
  · next hx =>
    cases hx
    exact faultQ_shows hs p h ..
  · next hx _ => cases hx
  · next hx _ => cases hx

/-- R4, R149, R502: a descriptor that names an absent tile, or of a tile under test another's memory, faults with ABSENT_UNIT. -/
theorem startDesc_absent (hs : Canon s) (h : Faultable s (.tile p .dm)) (hc : descFault d shape = none)
    (ha : (absentSide s d).isSome ∨ ptileOf s p.val = 2 ∧ namesOther d = true) :
    FaultsWith s (startDesc s p.val q d shape) (.tile p .dm) 0x0101 (iTag q.word) q.idx
      ∧ (getDm (startDesc s p.val q d shape) p.val).out = (getDm s p.val).out := by
  unfold startDesc
  cases hx : absentSide s d with
  | some a =>
    simp only [hc, dmEng_val]
    exact faultQ_dmProg_shows hs p h ..
  | none =>
    have ht : ptileOf s p.val = 2 ∧ namesOther d = true := ha.resolve_left (by simp [hx])
    simp only [hc, dmEng_val, if_pos ht]
    exact faultQ_shows hs p h ..

/-- R135: a descriptor that meets every check joins those in flight, its instruction gone from the queue. -/
theorem startDesc_joins (hc : descFault d shape = none) (ha : absentSide s d = none) (ht : ptileOf s p.val ≠ 2 ∨ namesOther d = false) :
    startDesc s p.val q d shape =
      joinDescs (traceEv (popFront s (.tile p .dm)) (.tile p .dm) (iT q.word) (iTag q.word) q.idx 2 0) p.val
        { d with tid := freeTid (getDm s p.val), total := pieceTotal d, since := s.gsc } := by
  unfold startDesc
  simp only [hc, ha, dmEng_val]
  exact if_neg fun hn => ht.elim (fun h => h hn.1) (fun h => by rw [h] at hn; exact Bool.noConfusion hn.2)

end

/-! The descriptor that joins those in flight. -/

/-- R521: where a transfer number below 128 is unused, the mover takes such a one. -/
theorem freeTid_unused {x : DmState} (h : ∃ n < 128, (∀ y ∈ x.descs, y.tid ≠ n) ∧ ∀ y ∈ x.out, y.tid ≠ n) :
    freeTid x < 128 ∧ (∀ y ∈ x.descs, y.tid ≠ freeTid x) ∧ ∀ y ∈ x.out, y.tid ≠ freeTid x := by
  obtain ⟨n, hn, hd, ho⟩ := h
  unfold freeTid
  cases hf : ((List.range 128).map (fun i => (x.nextTid + i) % 128)).find?
      (fun n => !x.descs.any (fun d => d.tid == n) && !x.out.any (fun o => o.tid == n)) with
  | none =>
    have hm : n ∈ (List.range 128).map (fun i => (x.nextTid + i) % 128) :=
      List.mem_map.2 ⟨(n + 128 - x.nextTid % 128) % 128, List.mem_range.2 (Nat.mod_lt _ (by decide)), by omega⟩
    have := List.find?_eq_none.1 hf n hm
    simp_all
  | some k =>
    obtain ⟨i, -, rfl⟩ := List.mem_map.1 (List.mem_of_find?_eq_some hf)
    have := List.find?_some hf
    simp only [Bool.and_eq_true, Bool.not_eq_true', List.any_eq_false, beq_iff_eq] at this
    exact ⟨Nat.mod_lt _ (by decide), this⟩

/-- What the places that a descriptor touches depend on: the node, the map of tiles, and memory. -/
structure SamePlaces (s t : State) : Prop where
  node : nodeId t = nodeId s
  tmap : t.tmap = s.tmap
  mem : t.mem = s.mem

section
variable {s t : State} (h : SamePlaces s t)
include h

theorem sideOf_same (p sp word : Nat) : sideOf t p sp word = sideOf s p sp word := by
  simp only [sideOf, pieceDst, logOf, h.node, h.tmap]

theorem elemsAt_same (p : Nat) (d : Desc) : elemsAt t p d = elemsAt s p d := by
  simp only [elemsAt, tileRead, readBytes, memByte, List.map_map, Function.comp_def, h.mem]

theorem descWrites_same (p : Nat) (d : Desc) : descWrites t p d = descWrites s p d := by
  simp only [descWrites, sideOf_same h, elemsAt_same h]

theorem descReads_same (p : Nat) (d : Desc) : descReads t p d = descReads s p d := by
  simp only [descReads, sideOf_same h, elemsAt_same h]

theorem overlapsSelf_same (p : Nat) (d : Desc) : overlapsSelf t p d = overlapsSelf s p d := by
  simp only [overlapsSelf, descWrites_same h, descReads_same h]

theorem overlapsOther_same (p : Nat) (a b : Desc) : overlapsOther t p a b = overlapsOther s p a b := by
  simp only [overlapsOther, descWrites_same h, descReads_same h]

end

/-- The state at which a descriptor joins: its instruction has left the queue and is traced. -/
def popped (s : State) (p : Fin 72) (q : QEntry) : State :=
  traceEv (popFront s (.tile p .dm)) (.tile p .dm) (iT q.word) (iTag q.word) q.idx 2 0

theorem popped_moves (s : State) (p : Fin 72) (q : QEntry) : Moves 0xc8 s (popped s p q) :=
  (traceEv_moves ..).next (by decide) ((popFront_moves s (.tile p .dm)).le (by decide))

theorem regsBut_popped (s : State) (p : Fin 72) (q : QEntry) : RegsBut (traceKeys (.tile p .dm)) s (popped s p q) :=
  regs_trans (t := popFront s (.tile p .dm)) (regsBut_of_regs _ rfl) (traceEv_regs _ _ _ _ _ _ _)

theorem getEng_popped (s : State) (p : Fin 72) (q : QEntry) (e : Eng) : getEng (popped s p q) e = getEng (popFront s (.tile p .dm)) e :=
  getEng_traceEv ..

theorem getTile_popped {s : State} (hs : Canon s) (p : Fin 72) (q : QEntry) (r : Nat) :
    ∃ x, getTile (popped s p q) r = { getTile s r with trace := x } :=
  getTile_traceEv ((popFront_moves s (.tile p .dm)).canon hs) ..

/-- R229: a trace record of a tile's engine touches that tile alone. -/
theorem tilesBut_traceEv (s : State) (p : Fin 72) (k : EngKind) (t : Bool) (tag pc ev detail : Nat) :
    TilesBut [p.val] s (traceEv s (.tile p k) t tag pc ev detail) := by
  intro r hr
  have hr : r ≠ p.val := by simpa using hr
  unfold traceEv
  simp only
  split
  · split
    · exact getTile_setTile_other s _ hr
    · exact getTile_setTile_other s _ hr
  · rfl

theorem samePlaces_popped (s : State) (p : Fin 72) (q : QEntry) : SamePlaces s (popped s p q) where
  node := by
    have hk : fldKey 9 RT_NODE_NODE 0 0 ∉ traceKeys (.tile p .dm) := by
      have := p.isLt
      simp only [traceKeys, List.mem_singleton, fldKey, regKey, RT_NODE_NODE, TL_TRACE_HEAD_NEXT]
      omega
    simp only [nodeId, getF, rdF, show RT_NODE_NODE.blk = 9 from rfl, regsBut_popped s p q _ hk]
  tmap := ((popped_moves s p q).same .tmap (by decide)).symm
  mem := ((popped_moves s p q).same .mem (by decide)).symm

/-- R132, R136: the descriptors in flight after one has joined them, but for their marks, and the new one's mark. -/
theorem getDm_joinDescs (s : State) (p : Nat) (d : Desc) :
    let plain := fun (y : Desc) => { y with unsup := false }
    let x := getDm s p
    let t := joinDescs s p d
    ∃ y, (getDm t p).descs.map plain = x.descs.map plain ++ [plain y] ∧ (getDm t p).descs.getLast? = some y ∧ plain y = plain d
      ∧ y.unsup = (overlapsSelf s p d || x.descs.any (overlapsOther s p d))
      ∧ (getDm t p).out.map (fun o => { o with unsup := false }) = x.out.map (fun o => { o with unsup := false }) := by
  intro plain x t
  have hx : getDm t p = _ := congrArg Tile.dm (getTile_setTile_same s p _)
  rw [hx]
  refine ⟨{ d with unsup := overlapsSelf s p d || !((x.descs.filter (overlapsOther s p d)).map (·.tid)).isEmpty }, ?_, ?_, rfl, ?_, ?_⟩
  · simp only [List.map_append, List.map_map]
    rfl
  · exact List.getLast?_concat
  · have hany : ∀ l : List Desc, (!(l.filter (overlapsOther s p d)).isEmpty) = l.any (overlapsOther s p d) := fun l => by
      rw [Bool.eq_iff_iff]
      simp [List.filter_eq_nil_iff]
    rw [List.isEmpty_map, hany]
  · simp only [List.map_map]
    rfl

/-- What joining leaves: registers, engines and the other tiles. -/
theorem joinDescs_frame (s : State) (p : Nat) (d : Desc) :
    (joinDescs s p d).regs = s.regs ∧ (∀ e, getEng (joinDescs s p d) e = getEng s e) ∧ TilesBut [p] s (joinDescs s p d) :=
  ⟨rfl, fun _ => rfl, fun _ hr => getTile_setTile_other s _ (by simpa using hr)⟩

/-- R131 to R136: what a start shows that meets every check. -/
theorem startDesc_shows {s : State} (hs : Canon s) {p : Fin 72} {q : QEntry} {d : Desc} {shape : Nat} (hc : descFault d shape = none)
    (ha : absentSide s d = none) (ht : ptileOf s p.val ≠ 2 ∨ namesOther d = false) :
    let e := Eng.tile p .dm
    let t := startDesc s p.val q d shape
    let plain := fun (y : Desc) => { y with unsup := false }
    let x := getDm s p.val
    (∃ y, (getDm t p.val).descs.map plain = x.descs.map plain ++ [plain y] ∧ (getDm t p.val).descs.getLast? = some y
        ∧ plain y = { plain d with tid := freeTid x, total := pieceTotal d, since := s.gsc }
        ∧ y.unsup = (overlapsSelf s p d || x.descs.any (overlapsOther s p d)))
      ∧ (getDm t p.val).out.map (fun o => { o with unsup := false }) = x.out.map (fun o => { o with unsup := false })
      ∧ (getEng t e).queue = (getEng s e).queue.drop 1 ∧ (getEng t e).st = (getEng s e).st
      ∧ EngsBut [e] s t ∧ TilesBut [p.val] s t ∧ RegsBut (traceKeys e) s t ∧ Only [.regs, .engines, .tiles] s t := by
  intro e t plain x
  obtain ⟨d', hd'⟩ : ∃ d', { d with tid := freeTid x, total := pieceTotal d, since := s.gsc } = d' := ⟨_, rfl⟩
  have hjoin : t = joinDescs (popped s p q) p.val d' := hd' ▸ startDesc_joins hc ha ht
  have hx : getDm (popped s p q) p.val = x := by
    obtain ⟨z, hz⟩ := getTile_popped hs p q p.val
    rw [getDm, hz]
    rfl
  have hself : overlapsSelf (popped s p q) p.val d' = overlapsSelf s p d := by
    rw [overlapsSelf_same (samePlaces_popped s p q), ← hd']
    rfl
  have hother : overlapsOther (popped s p q) p.val d' = overlapsOther s p d := funext fun y => by
    rw [overlapsOther_same (samePlaces_popped s p q), ← hd']
    rfl
  have hpop : getEng (popFront s e) e = { getEng s e with queue := (getEng s e).queue.drop 1, since := s.gsc } := getEng_setEng_same s e _
  obtain ⟨y, hdescs, hlast, hplain, hmark, hout⟩ := getDm_joinDescs (popped s p q) p.val d'
  obtain ⟨hregs, heng, htiles⟩ := joinDescs_frame (popped s p q) p.val d'
  rw [hx] at hdescs hmark hout
  rw [hself, hother] at hmark
  rw [hjoin]
  refine ⟨⟨y, hdescs, hlast, hplain.trans (by rw [← hd']), hmark⟩, hout, ?queue, ?st, ?engs, ?tiles, ?regs, ?only⟩
  case queue => rw [heng, getEng_popped, hpop]
  case st => rw [heng, getEng_popped, hpop]
  case engs =>
    intro e' he
    rw [heng, getEng_popped]
    exact getEng_setEng_other s _ (by simpa using he)
  case tiles =>
    intro r hr
    rw [htiles r hr]
    exact tilesBut_traceEv (popFront s (.tile p .dm)) p .dm _ _ _ _ _ r hr
  case regs => exact regs_trans (regsBut_popped s p q) (regsBut_of_regs _ hregs)
  case only =>
    exact only_of _ ((joinDescs_moves ..).next (by decide) (popped_moves s p q)) (by decide)

/-- Settles O35: issue is judged by `runDm`'s equations, the W wait by `takeW`'s, and the start by the three cases of `startDesc`. -/
theorem descriptorsStart : Obligations.DescriptorsStart := by
  unfold Obligations.DescriptorsStart
  intro p s q c op rsv mk e w hrow hs hf d x bad unused plain
  obtain ⟨hruns, hfresh, hshape⟩ := moverRow_of_mem hrow
  obtain ⟨-, hissue, -⟩ := frontIs_eq_some.1 hf
  have hfault : Faultable s e := faultable_of_canIssue hissue
  have hbad : (flagBad q.word || (iV q.word != (op == 0x44)) || dmBad op rsv q.word) = bad := (Bool.or_assoc ..).symm
  refine ⟨fun hh => ?held, fun hd hl => ⟨fun hb => ?bad, fun hb hw hwd => ⟨fun hc => ?taken, fun hc => ?waits⟩, fun hb hw => ?start⟩⟩
  case held => rw [hruns, runDm_held hf hh]
  case bad =>
    rw [← hbad] at hb
    exact ⟨_, (hruns s).trans (congrArg _ (runDm_bad hf hd hl hb)), faultQ_shows hs p hfault ..⟩
  case taken =>
    rw [← hbad] at hb
    obtain ⟨hf', hd', hdm⟩ := atIssue_waited hf
    rw [hruns, runDm_good hf hd hl hb, takeW_waited hf hw hwd hc]
    refine (Eq.trans (hruns (waited s p q)) ?_).symm
    rw [runDm_good hf' (hd'.trans hd) (by rw [hdm]; exact hl) hb, takeW_passed _ _ (.inr rfl)]
    rfl
  case waits =>
    rw [← hbad] at hb
    obtain ⟨heng, hregs, hengs, honly⟩ := beginWait_shows s e q .wflag (iWctr q.word) 1
    refine ⟨beginWait s e q .wflag (iWctr q.word) 1, ?_, by rw [heng], by rw [heng], ⟨_, by rw [heng], rfl, rfl, rfl⟩, hregs, hengs, honly⟩
    rw [hruns, runDm_good hf hd hl hb, takeW_waits hw hwd rfl hc]
    rfl
  case start =>
    rw [← hbad] at hb
    have hstart : exec c s = .next (startDesc s p.val q d (mk s w).2) := by
      rw [hruns, runDm_good hf hd hl hb, takeW_passed s _ hw]
      rfl
    refine ⟨fun c hc => ⟨_, hstart, startDesc_checked hs hfault hc⟩, fun hc ha => ⟨_, hstart, startDesc_absent hs hfault hc ha⟩,
      fun hc ha ht hn => ⟨_, hstart, ?_⟩⟩
    obtain ⟨hn, hun⟩ := freeTid_unused hn
    obtain ⟨hy, hout, hrest⟩ := startDesc_shows hs (q := q) hc ha ht
    obtain ⟨h1, h2, h3⟩ := hfresh s w
    refine ⟨⟨_, hn, hun, hy⟩, h1, h2, h3, fun ho => ?_, hout, hrest⟩
    simp only [d, hshape ho, shapeDesc, dmEng_val]
    exact ⟨rfl, rfl, rfl, rfl⟩

end Sys2Proof.Proofs

/-! PROOFS. Step marks (R22, R221 to R224): the arrival of a ct.mark, the beginning of the mark, which lets its engines go on, and its
completion once the mirror fence is done. -/
namespace Sys2Proof.Proofs
open Sys2Proof Sys2Proof.Machine Sys2Proof.Laws

/-! The participants. -/

theorem engIdx_lt (e : Eng) : engIdx e < 292 := by
  rcases e with ⟨p, _ | _ | _ | _⟩ | c <;> simp only [engIdx] <;> omega

theorem engIdx_engOf {i : Nat} (h : i < 292) : engIdx (engOf i) = i := by
  unfold engOf
  split
  · obtain hk | hk | hk | hk : i % 4 = 0 ∨ i % 4 = 1 ∨ i % 4 = 2 ∨ i % 4 = 3 := by omega
    all_goals
      simp only [hk, engIdx, Fin.val_ofNat]
      omega
  · simp only [engIdx, Fin.val_ofNat]
    omega

theorem engOf_engIdx (e : Eng) : engOf (engIdx e) = e := engIdx_inj (engIdx_engOf (engIdx_lt e))

theorem markEn_not_trace (e e' : Eng) : pKey e' P_PCTL_MARK_EN ∉ traceKeys e := by
  rcases e with ⟨p, k⟩ | c
  · have := p.isLt
    rcases e' with ⟨q, _ | _ | _ | _⟩ | c
    all_goals
      simp only [traceKeys, List.mem_singleton, pKey, fldKey, regKey, engBlk, engInst, P_PCTL_MARK_EN, TL_TRACE_HEAD_NEXT]
      omega
  · simp [traceKeys]

/-- R221: who takes part is read from registers that no trace record writes. -/
theorem participants_of_regsBut {s t : State} {e : Eng} (h : RegsBut (traceKeys e) s t) : participants t = participants s := by
  have hp : ∀ e', getP t e' P_PCTL_MARK_EN = getP s e' P_PCTL_MARK_EN := fun e' =>
    congrArg (fun v : DWord => bits v.toNat P_PCTL_MARK_EN.lo P_PCTL_MARK_EN.len) (h _ (markEn_not_trace e e'))
  simp only [participants, hp]

/-! The arrival of an engine. -/

/-- R222: the state in which an engine has issued its ct.mark: WAITING, among those that have arrived. -/
def markArrived (s : State) (e : Eng) (q : QEntry) : State :=
  let u := beginWait (traceEv s e (iT q.word) (iTag q.word) q.idx 2 0) e q .ctmark 0 0
  { u with mark := { u.mark with arrived := u.mark.arrived ++ [engIdx e] } }

/-- R222: the arrival holds its engine, is counted, and moves nothing else but the trace. -/
theorem markArrived_shows (s : State) (e : Eng) (q : QEntry) :
    let t := markArrived s e q
    getEng t e = { getEng s e with st := .waiting, wait := some ⟨.ctmark, 0, 0, s.gsc, 0⟩ }
      ∧ t.mark = { s.mark with arrived := s.mark.arrived ++ [engIdx e] } ∧ RegsBut (traceKeys e) s t ∧ EngsBut [e] s t
      ∧ Only [.regs, .engines, .tiles, .mark] s t := by
  intro t
  obtain ⟨u, hu⟩ : ∃ u, traceEv s e (iT q.word) (iTag q.word) q.idx 2 0 = u := ⟨_, rfl⟩
  obtain ⟨v, hv⟩ : ∃ v, beginWait u e q .ctmark 0 0 = v := ⟨_, rfl⟩
  have ht : t = { v with mark := { v.mark with arrived := v.mark.arrived ++ [engIdx e] } } := by rw [← hv, ← hu]; rfl
  have htrace : Moves 0x88 s u := hu ▸ traceEv_moves ..
  have hge : ∀ e', getEng u e' = getEng s e' := getEng_of_moves htrace (by decide)
  have hgsc : s.gsc = u.gsc := htrace.same .gsc (by decide)
  obtain ⟨heng, hregs, hengs, honly⟩ := beginWait_shows u e q .ctmark 0 0
  rw [hv] at heng hregs hengs honly
  have hsv : Only [.regs, .engines, .tiles] s v := only_trans (only_of _ htrace (by decide)) honly
  have hmark : s.mark = v.mark := hsv .mark (by decide)
  rw [ht]
  refine ⟨?eng, by rw [hmark], ?regs, fun e' he => (hengs e' he).trans (hge e'), fun p hp => ?only⟩
  case eng => rw [hgsc, ← hge e]; exact heng
  case regs => exact regs_trans (hu ▸ traceEv_regs _ _ _ _ _ _ _) (regs_trans hregs (regsBut_of_regs _ rfl))
  case only =>
    have hsame : Same p s v := hsv p (by simp only [List.mem_cons] at hp ⊢; tauto)
    cases p
    case mark => exact absurd hp (by decide)
    all_goals exact hsame

section
variable {s : State} {e : Eng} {q : QEntry}

/-- R224: a ct.mark of an engine that takes no part completes at issue. -/
theorem doCtMark_off (h : ReadyCtl s e 0 0x04 [(0, 75)] q) (hen : getP s e P_PCTL_MARK_EN ≠ 1) : doCtMark s e = finishFront s e q := by
  rw [doCtMark, runCtl_ready h]
  exact if_pos hen

/-- R223: a ct.mark with another number than the next faults. -/
theorem doCtMark_mismatch (h : ReadyCtl s e 0 0x04 [(0, 75)] q) (hen : getP s e P_PCTL_MARK_EN = 1) (hph : s.mark.phase = 0)
    (hn : (BitVec.ofNat 32 (getG s e (ifld q.word 75 5)).toNat : Word) ≠ s.mark.last + 1) : doCtMark s e = faultQ s e q 0x0D04 0 0 0 := by
  rw [doCtMark, runCtl_ready h]
  exact (if_neg (not_not.2 hen)).trans ((if_neg (by simp [hph])).trans (if_pos hn))

/-- R222: a ct.mark with the next number arrives, and the last participant's begins the mark. -/
theorem doCtMark_arrives (h : ReadyCtl s e 0 0x04 [(0, 75)] q) (hen : getP s e P_PCTL_MARK_EN = 1) (hph : s.mark.phase = 0)
    (hn : (BitVec.ofNat 32 (getG s e (ifld q.word 75 5)).toNat : Word) = s.mark.last + 1) :
    doCtMark s e = if ∀ i ∈ participants s, i ∈ s.mark.arrived ∨ i = engIdx e
      then traceCaps (markArrived s e q) (beginMark (markArrived s e q)) else markArrived s e q := by
  obtain ⟨-, hmark, hregs, -⟩ := markArrived_shows s e q
  have hall : ((markArrived s e q).mark.phase = 0 ∧
      (participants (markArrived s e q)).all (fun i => (markArrived s e q).mark.arrived.contains i) = true) ↔
      ∀ i ∈ participants s, i ∈ s.mark.arrived ∨ i = engIdx e := by
    rw [participants_of_regsBut hregs, hmark]
    simp [hph]
  rw [doCtMark, runCtl_ready h]
  exact (if_neg (not_not.2 hen)).trans ((if_neg (by simp [hph])).trans ((if_neg (not_not.2 hn)).trans (if_congr hall rfl rfl)))

end

/-! The engines that wait in a mark go on. -/

/-- R222: an engine that waits in the mark alone, its ct.mark at the front. -/
def HeldInMark (g : Engine) : Prop := g.st = .waiting ∧ g.queue ≠ [] ∧ g.fwait = none

theorem passWait_other (s : State) {e e' : Eng} (h : e' ≠ e) : getEng (passWait s e).1 e' = getEng s e' := by
  unfold passWait
  dsimp only
  split
  · exact (getEng_traceEv ..).trans ((getEng_setEng_other _ _ h).trans (getEng_setEng_other _ _ h))
  · exact (getEng_traceEv ..).trans (getEng_setEng_other _ _ h)
  · rfl

theorem passWait_running {s : State} {e : Eng} (h : (getEng s e).st = .running) : passWait s e = (s, none) := by
  simp only [passWait, h]

theorem passWait_held {s : State} {e : Eng} (h : HeldInMark (getEng s e)) : (getEng (passWait s e).1 e).st = .running := by
  obtain ⟨hst, hq, hf⟩ := h
  obtain ⟨q, r, hqr⟩ := List.exists_cons_of_ne_nil hq
  simp only [passWait, hst, hqr, hf, getEng_traceEv, popFront, modEng, getEng_setEng_same]
  rfl

/-- R220: a release keeps the ct.mark that completes with the mark, and moves nothing of the mark besides. -/
theorem releaseMark_eq (s : State) (i : Nat) :
    ∃ sigs, releaseMark s i = { (passWait s (engOf i)).1 with mark := { s.mark with sigs := sigs } } := by
  have hmark : s.mark = (passWait s (engOf i)).1.mark := (passWait_moves s (engOf i)).same .mark (by decide)
  unfold releaseMark
  rcases hp : passWait s (engOf i) with ⟨u, _ | d⟩
  · exact ⟨u.mark.sigs, by rw [hp] at hmark; rw [hmark]⟩
  · exact ⟨_, by rw [hp] at hmark; rw [hmark]⟩

theorem getEng_releaseMark (s : State) (i : Nat) (e : Eng) : getEng (releaseMark s i) e = getEng (passWait s (engOf i)).1 e := by
  obtain ⟨sigs, h⟩ := releaseMark_eq s i
  rw [h]
  rfl

theorem releaseMark_running {s : State} {e : Eng} (h : (getEng s e).st = .running) (i : Nat) :
    (getEng (releaseMark s i) e).st = .running := by
  rw [getEng_releaseMark]
  by_cases hi : e = engOf i
  · rw [← hi, passWait_running h, h]
  · rw [passWait_other s hi, h]

theorem releaseMarks_running {e : Eng} : ∀ (who : List Nat) {s : State}, (getEng s e).st = .running →
    (getEng (who.foldl releaseMark s) e).st = .running
  | [], _, h => h
  | i :: who, _, h => releaseMarks_running who (releaseMark_running h i)

/-- R222: an engine held in the mark runs once every arrival has been released. -/
theorem releaseMarks_held {e : Eng} (who : List Nat) {s : State} (hmem : ∃ i ∈ who, engOf i = e) (h : HeldInMark (getEng s e)) :
    (getEng (who.foldl releaseMark s) e).st = .running := by
  induction who generalizing s with
  | nil => simp at hmem
  | cons i who ih =>
    by_cases hi : e = engOf i
    · refine releaseMarks_running who ?_
      rw [getEng_releaseMark, ← hi]
      exact passWait_held h
    · have hrest : ∃ j ∈ who, engOf j = e := by
        obtain ⟨j, hj, hje⟩ := hmem
        rcases List.mem_cons.1 hj with rfl | hj
        · exact absurd hje.symm hi
        · exact ⟨j, hj, hje⟩
      refine ih hrest ?_
      rw [getEng_releaseMark, passWait_other s hi]
      exact h

theorem releaseMarks_mark : ∀ (who : List Nat) (s : State), ∃ sigs, (who.foldl releaseMark s).mark = { s.mark with sigs := sigs }
  | [], s => ⟨s.mark.sigs, rfl⟩
  | i :: who, s => by
    obtain ⟨_, h⟩ := releaseMark_eq s i
    obtain ⟨sigs, hrest⟩ := releaseMarks_mark who (releaseMark s i)
    exact ⟨sigs, hrest.trans (by rw [h])⟩

/-- R22, R222: a mark that begins opens its fence with its number still to come, and every engine held in it goes on. -/
theorem beginMark_shows (s : State) :
    (beginMark s).mark.phase = 1 ∧ (beginMark s).mark.arrived = [] ∧ (beginMark s).mark.last = s.mark.last
      ∧ ∀ i ∈ s.mark.arrived, HeldInMark (getEng s (engOf i)) → (getEng (beginMark s) (engOf i)).st = .running := by
  obtain ⟨u, hu⟩ : ∃ u, (if markLatches s then periodEnd s s.gsc else s) = u := ⟨_, rfl⟩
  have latch : Moves 0x600000000000008 s u := by
    rw [← hu]
    split
    · exact periodEnd_moves ..
    · exact Moves.refl _ _
  have hmark : s.mark = u.mark := latch.same .mark (by decide)
  have heng : ∀ e, getEng u e = getEng s e := getEng_of_moves latch (by decide)
  unfold beginMark
  simp only [hu]
  obtain ⟨v, hv⟩ : ∃ v : State, { u with mark := { u.mark with
    phase := 1, arrived := [], since := u.gsc, fence := u.folio.dups.flatMap (fun d => if d.again then [d.line, d.line] else [d.line]) } } = v :=
    ⟨_, rfl⟩
  rw [hv, hmark]
  obtain ⟨sigs, hm⟩ := releaseMarks_mark u.mark.arrived v
  refine ⟨?_, ?_, ?_, fun i hi hheld => releaseMarks_held _ ⟨i, hi, rfl⟩ ?_⟩
  · rw [hm, ← hv]
  · rw [hm, ← hv]
  · rw [hm, ← hv]
  · rw [← hv]
    exact (heng _).symm ▸ hheld

/-! The completion of a mark. -/

/-- R220, R262: a signal of a completed ct.mark leaves its engine's program state. -/
theorem lateSig_st (s : State) (e : Eng) (d : Done) (e' : Eng) : (getEng (lateSig s e d) e').st = (getEng s e').st := by
  unfold lateSig
  dsimp only
  split
  · rw [getEng_traceEv]
  · split
    · by_cases he : e' = e
      · rw [he, modEng, getEng_setEng_same, getEng_traceEv]
      · rw [modEng, getEng_setEng_other _ _ he, getEng_traceEv]
    · rw [getEng_of_moves (signalDone_moves ..) (by decide), getEng_traceEv]

theorem lateSigs_st (e : Eng) : ∀ (sigs : List (Nat × Done)) (s : State),
    (getEng (sigs.foldl (fun s x => lateSig s (engOf x.1) x.2) s) e).st = (getEng s e).st
  | [], _ => rfl
  | _ :: sigs, _ => (lateSigs_st e sigs _).trans (lateSig_st ..)

theorem markSignals_st (s : State) (e : Eng) : (getEng (markSignals s) e).st = (getEng s e).st := lateSigs_st e _ s

/-- R22, R223: the S signals of a mark have fallen and MARK.LAST holds its number. -/
def markNumbered (s : State) : State :=
  let u := markSignals s
  { u with mark := { u.mark with last := s.mark.last + 1, phase := 0, sigs := [], since := u.gsc } }

/-- R22, R317, R469, R507: what follows the number: the folios' release, the message to the mirror partner, the digest round. -/
def markPublished (s : State) (n : Word) : State :=
  let s := setTimer (releaseDirty s n) tmMark s.gsc
  let s := if mirrorOn s then mgcMessage s (getF s MC_MIRROR_PARTNER_NODE 6) (bytesOf 4 n.toNat) else s
  let every := if getF s MG_DIGEST_CFG_EVERY 0 = 0 then 1 else getF s MG_DIGEST_CFG_EVERY 0
  if flagF s MG_DIGEST_CFG_EN 0 ∧ n.toNat % every = 0 then digestBegin s n.toNat else s

theorem markPublished_moves (s : State) (n : Word) : Moves 0x200000004120088 s (markPublished s n) := by
  unfold markPublished
  extract_lets t u every
  have timer : Moves 0x200000000020000 s t := (setTimer_moves ..).next (by decide) ((releaseDirty_moves s n).le (by decide))
  have message : Moves 0x200000000120000 s u := by
    unfold u
    split
    · exact (mgcMessage_moves ..).next (by decide) (timer.le (by decide))
    · exact timer.le (by decide)
  split
  · exact (digestBegin_moves ..).next (by decide) (message.le (by decide))
  · exact message.le (by decide)

/-- R22, R223: a mark whose fence waits for nothing completes; with no next arrival, no other begins. -/
theorem markComplete_eq {s : State} (hph : s.mark.phase = 1) (hf : s.mark.fence = []) (ha : s.mark.arrived = []) :
    markComplete s = markPublished (markNumbered s) (s.mark.last + 1) := by
  have harr : (markPublished (markNumbered s) (s.mark.last + 1)).mark.arrived = [] := by
    have h1 : (markNumbered s).mark = _ := (markPublished_moves (markNumbered s) (s.mark.last + 1)).same .mark (by decide)
    have h2 : s.mark = (markSignals s).mark := (markSignals_moves s).same .mark (by decide)
    rw [← h1, markNumbered, ← h2, ha]
  unfold markComplete
  rw [if_neg (by simp [hph, hf])]
  exact if_neg fun h => h.1 harr

theorem markComplete_fenced {s : State} (hf : s.mark.fence ≠ []) : markComplete s = s := if_pos (.inr hf)

/-- Settles O20: a ct.mark is one of `doCtMark`'s cases, a mark that begins releases its arrivals one by one, and what follows a
completed mark's number moves neither the mark nor an engine. -/
theorem stepMarks : Obligations.StepMarks := by
  unfold Obligations.StepMarks
  refine ⟨fun e s q hs h => ?ctMark, fun s _ hph => ?complete⟩
  case ctMark =>
    intro n
    have ⟨hready, hv, _⟩ := h
    obtain ⟨⟨r, hq⟩, hissue, -⟩ := frontIs_eq_some.1 hready.front
    have hrow : exec (.ctMark e) s = .next (doCtMark s e) := rfl
    obtain ⟨heng, hmark, hregs, hengs, honly⟩ := markArrived_shows s e q
    refine ⟨fun hen => ?off, fun hen hph hn hmore => ?waits, fun hen hph hn hall hfw => ?begins, fun hen hph hn => ?mismatch⟩
    case off => exact ⟨_, hrow, doCtMark_off h hen ▸ finishFront_retires hs e q hv⟩
    case mismatch =>
      exact ⟨_, hrow, doCtMark_mismatch h hen hph hn ▸ faultEngine_faultsWith (faultable_of_canIssue hissue) ..⟩
    case waits =>
      have hnot : ¬ ∀ i ∈ participants s, i ∈ s.mark.arrived ∨ i = engIdx e := by
        obtain ⟨i, hi, harr, hie⟩ := hmore
        exact fun hall => (hall i hi).elim harr hie
      rw [Does, hrow, doCtMark_arrives h hen hph hn, if_neg hnot]
      exact ⟨_, rfl, by rw [heng], hmark, hregs, hengs, honly⟩
    case begins =>
      obtain ⟨hphase, harr, hlast, hgo⟩ := beginMark_shows (markArrived s e q)
      have caps := traceCaps_moves (markArrived s e q) (beginMark (markArrived s e q))
      have hsame : (beginMark (markArrived s e q)).mark = _ := caps.same .mark (by decide)
      have hown : HeldInMark (getEng (markArrived s e q) e) := by
        rw [heng]
        exact ⟨rfl, by simp [hq], hfw⟩
      rw [hmark] at hgo hlast
      rw [Does, hrow, doCtMark_arrives h hen hph hn, if_pos hall]
      refine ⟨_, rfl, hsame ▸ hphase, hsame ▸ harr, hsame ▸ hlast, ?own, fun i hi hst hqi hfi => ?others⟩
      case own =>
        have := hgo (engIdx e) (by simp) (by rwa [engOf_engIdx])
        rwa [engOf_engIdx, ← getEng_of_moves caps (by decide)] at this
      case others =>
        rw [getEng_of_moves caps (by decide)]
        refine hgo i (List.mem_append_left _ hi) ?_
        by_cases hie : engOf i = e
        · rwa [hie]
        · rw [hengs _ (by simpa using hie)]
          exact ⟨hst, hqi, hfi⟩
  case complete =>
    refine ⟨fun hf ha => ⟨_, rfl, ?_⟩, fun hf => congrArg Host.Outcome.next (markComplete_fenced hf)⟩
    have publish := markPublished_moves (markNumbered s) (s.mark.last + 1)
    have hmark : (markNumbered s).mark = _ := publish.same .mark (by decide)
    rw [markComplete_eq hph hf ha]
    refine ⟨hmark ▸ rfl, hmark ▸ rfl, hmark ▸ rfl, fun e => ?_⟩
    rw [getEng_of_moves publish (by decide)]
    exact markSignals_st s e

end Sys2Proof.Proofs

/-! PROOFS. The issue of a vx. instruction (R160, R184, R188, R190): how an instruction of a tile leaves its queue, and what a vx. one that is
ready does to the state, given its own effects. -/
namespace Sys2Proof.Proofs
open Sys2Proof Sys2Proof.Machine Sys2Proof.Laws

@[simp] theorem vxEng_val (p : Fin 72) : vxEng p.val = .tile p .vx := by simp [vxEng]

/-! Updates of a tile's vector engine. -/

theorem getVx_modVx_same (s : State) (p : Nat) (f : VxState → VxState) : getVx (modVx s p f) p = f (getVx s p) :=
  congrArg Tile.vx (getTile_setTile_same s p _)

theorem tilesBut_modVx (s : State) (p : Nat) (f : VxState → VxState) : TilesBut [p] s (modVx s p f) := fun _ hr =>
  getTile_setTile_other s _ (by simpa using hr)

theorem getMx_modVx (s : State) (p : Nat) (f : VxState → VxState) (r : Nat) : getMx (modVx s p f) r = getMx s r := by
  by_cases h : r = p
  · rw [h]
    exact (congrArg Tile.mx (getTile_setTile_same s p _)).trans rfl
  · exact congrArg Tile.mx (getTile_setTile_other s _ h)

theorem tilesBut_trans {ps : List Nat} {s t u : State} (h : TilesBut ps s t) (k : TilesBut ps t u) : TilesBut ps s u :=
  fun r hr => (k r hr).trans (h r hr)

theorem tilesBut_of_tiles {s t : State} (ps : List Nat) (h : t.tiles = s.tiles) : TilesBut ps s t := fun r _ => by simp only [getTile, h]

theorem engsBut_of_moves {m : Nat} {s t : State} (h : Moves m s t) (hm : m.testBit 6 = false) (es : List Eng) : EngsBut es s t :=
  fun e _ => getEng_of_moves h hm e

/-- A lane or a predicate reads the vector engine's registers alone. -/
theorem getLane_of_getVx {s t : State} {p : Nat} (h : (getVx t p).v = (getVx s p).v) (r l : Nat) : getLane t p r l = getLane s p r l := by
  rw [getLane, getLane, h]

theorem getPred_of_getVx {s t : State} {p : Nat} (h : (getVx t p).p = (getVx s p).p) (n : Nat) : getPred t p n = getPred s p n := by
  rw [getPred, getPred, h]

/-- A field of a page of the compute engines is none that a trace record writes. -/
theorem regKey_not_trace {b : Nat} (hb : 3 ≤ b) (i off : Nat) (e : Eng) : regKey b i off ∉ traceKeys e := by
  rcases e with ⟨p, k⟩ | c
  · have := p.isLt
    simp only [traceKeys, List.mem_singleton, fldKey, regKey, TL_TRACE_HEAD_NEXT]
    omega
  · simp [traceKeys]

/-! An instruction that leaves the queue. -/

section
variable (s : State) (p : Fin 72) (k : EngKind) (q : QEntry)

/-- R208, R230: an instruction at issue in an engine of a tile has left the queue and is traced. -/
def leftQueue : State := traceEv (popFront s (.tile p k)) (.tile p k) (iT q.word) (iTag q.word) q.idx 2 0

theorem leftQueue_moves : Moves 0xc8 s (leftQueue s p k q) :=
  (traceEv_moves ..).next (by decide) ((popFront_moves s (.tile p k)).le (by decide))

theorem regsBut_leftQueue : RegsBut (traceKeys (.tile p k)) s (leftQueue s p k q) :=
  regs_trans (t := popFront s (.tile p k)) (regsBut_of_regs _ rfl) (traceEv_regs _ _ _ _ _ _ _)

theorem getEng_leftQueue : getEng (leftQueue s p k q) (.tile p k)
    = { getEng s (.tile p k) with queue := (getEng s (.tile p k)).queue.drop 1, since := s.gsc } :=
  (getEng_traceEv ..).trans (getEng_setEng_same s _ _)

theorem engsBut_leftQueue : EngsBut [.tile p k] s (leftQueue s p k q) := fun e he =>
  (getEng_traceEv ..).trans (getEng_setEng_other s _ (by simpa using he))

theorem tilesBut_leftQueue : TilesBut [p.val] s (leftQueue s p k q) := tilesBut_traceEv (popFront s (.tile p k)) p k _ _ _ _ _

theorem getTile_leftQueue {s : State} (hs : Canon s) (p : Fin 72) (k : EngKind) (q : QEntry) (r : Nat) :
    ∃ x, getTile (leftQueue s p k q) r = { getTile s r with trace := x } :=
  getTile_traceEv ((popFront_moves s (.tile p k)).canon hs) ..

end

/-! The instruction that has issued. -/

/-- R188: the state in which an instruction at issue has left the queue and is in flight with the writes `ws` pending. -/
def vxIssued (s : State) (p : Fin 72) (q : QEntry) (ws : List Nat) : State :=
  modVx (leftQueue s p .vx q) p
    (fun x => { x with fly := x.fly ++ [⟨ws ++ (vxGWrites q.word).map (40 + ·), iOp q.word == 0x70, doneOf q.word q.idx⟩] })

section
variable {s u : State} {p : Fin 72} {op : Nat} {rs : List Nat} {q : QEntry}

/-- R188: a vx. instruction whose effects meet no fault issues. -/
theorem vxRun_issues (h : VxReady s p op rs q) {bad : IWord → Bool} {reads writes : IWord → List Nat} {body : State → IWord → VxRes}
    (hbad : bad q.word = false) (hrs : rs = reads q.word ++ writes q.word) (hbody : body s q.word = (u, none)) :
    vxRun s p op bad reads writes body = vxIssued u p q (writes q.word) := by
  obtain ⟨hfront, hdrain, hv, hflag, hwait, hpend⟩ := h
  obtain ⟨-, -, -, hop⟩ := frontIs_eq_some.1 hfront
  rw [hrs, vxNamed] at hpend
  rw [vxIssued, leftQueue, hop]
  simp only [vxRun, vxEng_val, hfront, hdrain, hv, hflag, hbad, hpend, Bool.or_self, Bool.false_eq_true, if_false, takeW_passed s _ hwait,
    hbody]

/-- R190: one that meets a fault faults. -/
theorem vxRun_faults (h : VxReady s p op rs q) {bad : IWord → Bool} {reads writes : IWord → List Nat} {body : State → IWord → VxRes}
    (hbad : bad q.word = false) (hrs : rs = reads q.word ++ writes q.word) {c a : Nat} (hbody : body s q.word = (u, some (c, a))) :
    vxRun s p op bad reads writes body = faultQ u (.tile p .vx) q c a 0 0 := by
  obtain ⟨hfront, hdrain, hv, hflag, hwait, hpend⟩ := h
  rw [hrs, vxNamed] at hpend
  simp only [vxRun, vxEng_val, hfront, hdrain, hv, hflag, hbad, hpend, Bool.or_self, Bool.false_eq_true, if_false, takeW_passed s _ hwait,
    hbody]

end

section
variable (s : State) (p : Fin 72) (q : QEntry) (ws : List Nat)

theorem vxIssued_moves : Moves 0xc8 s (vxIssued s p q ws) := (modVx_moves ..).next (by decide) (leftQueue_moves s p .vx q)

theorem regsBut_vxIssued : RegsBut (traceKeys (.tile p .vx)) s (vxIssued s p q ws) :=
  regs_trans (regsBut_leftQueue s p .vx q) (regsBut_of_regs _ rfl)

theorem memByte_vxIssued (a : Nat) : memByte (vxIssued s p q ws) a = memByte s a := by
  have h : s.mem = (vxIssued s p q ws).mem := (vxIssued_moves s p q ws).same .mem (by decide)
  rw [memByte, memByte, h]

theorem tilesBut_vxIssued : TilesBut [p.val] s (vxIssued s p q ws) :=
  tilesBut_trans (tilesBut_leftQueue s p .vx q) (tilesBut_modVx _ _ _)

end

section
variable {s : State} (hs : Canon s) (p : Fin 72) (q : QEntry) (ws : List Nat)
include hs

theorem getMx_vxIssued (r : Nat) : getMx (vxIssued s p q ws) r = getMx s r := by
  obtain ⟨x, hx⟩ := getTile_leftQueue hs p .vx q r
  refine (getMx_modVx (leftQueue s p .vx q) p _ r).trans ?_
  rw [getMx, hx]
  rfl

theorem getVx_vxIssued : getVx (vxIssued s p q ws) p = { getVx s p with
    fly := (getVx s p).fly ++ [⟨ws ++ (vxGWrites q.word).map (40 + ·), iOp q.word == 0x70, doneOf q.word q.idx⟩] } := by
  obtain ⟨x, hx⟩ := getTile_leftQueue hs p .vx q p
  have hvx : getVx (leftQueue s p .vx q) p = getVx s p := by
    rw [getVx, hx]
    rfl
  refine (getVx_modVx_same (leftQueue s p .vx q) p _).trans ?_
  rw [hvx]

theorem getLane_vxIssued (r l : Nat) : getLane (vxIssued s p q ws) p r l = getLane s p r l :=
  getLane_of_getVx (by rw [getVx_vxIssued hs]) r l

theorem getPred_vxIssued (n : Nat) : getPred (vxIssued s p q ws) p n = getPred s p n :=
  getPred_of_getVx (by rw [getVx_vxIssued hs]) n

end

/-- What an instruction's effects leave of its tile's vector engine, the other tiles and the engines until it issues. -/
structure VxEffect (s u : State) (p : Nat) : Prop where
  canon : Canon u
  fly : (getVx u p).fly = (getVx s p).fly
  tiles : TilesBut [p] s u
  engines : EngsBut [] s u

/-- R188: an instruction has issued once its effects stand and it has left the queue. -/
theorem vxIssued_issues {s u : State} {p : Fin 72} (h : VxEffect s u p) (q : QEntry) (ws : List Nat) :
    VxIssues s (vxIssued u p q ws) p q ws := by
  have heng : ∀ e, getEng u e = getEng s e := fun e => h.engines e (by simp)
  have hown : getEng (vxIssued u p q ws) (.tile p .vx) = _ := getEng_leftQueue u p .vx q
  refine ⟨by rw [hown, heng], by rw [hown, heng], by rw [getVx_vxIssued h.canon, h.fly], fun e he => ?_,
    tilesBut_trans h.tiles (tilesBut_vxIssued u p q ws)⟩
  exact (engsBut_leftQueue u p .vx q e he).trans (heng e)

end Sys2Proof.Proofs

/-! PROOFS. Lane arithmetic (R159, R160, R162, R163, R165, R166): what a write of lanes shows, what the conversions' flags show, and the
statement about vx.fop, vx.iop and vx.sfu. -/
namespace Sys2Proof.Proofs
open Sys2Proof Sys2Proof.Machine Sys2Proof.Laws

/-! The lanes of a register. -/

/-- A map after values have been put at the keys b + l, for the l of a list. -/
theorem mapGet_foldl_mapSet {α : Type} [DecidableEq α] (d : Nat → α) (b : Nat) (f : Nat → α) (k : Nat) : ∀ (ls : List Nat) (m : SMap α),
    mapGet d (ls.foldl (fun m l => mapSet d m (b + l) (f l)) m) k = if b ≤ k ∧ k - b ∈ ls then f (k - b) else mapGet d m k
  | [], m => by simp
  | l :: ls, m => by
    rw [List.foldl_cons, mapGet_foldl_mapSet d b f k ls]
    by_cases hk : k = b + l
    · simp [hk]
    · have hl : k - b = l → ¬ b ≤ k := by omega
      have hmem : (b ≤ k ∧ k - b ∈ l :: ls) ↔ (b ≤ k ∧ k - b ∈ ls) := by
        rw [List.mem_cons]
        tauto
      rw [mapGet_mapSet_other _ _ _ _ _ hk]
      simp only [hmem]

@[simp] theorem mem_lanesOf {act : BitVec 128} {l : Nat} : l ∈ lanesOf act ↔ l < 128 ∧ act.getLsbD l = true := by simp [lanesOf]

section
variable (s : State) (p r : Nat) (act : BitVec 128) (f : Nat → Word)

/-- R159: a write of lanes shows in the active lanes of its register. -/
theorem getLane_setLanes {r' l : Nat} (hl : l < 128) :
    getLane (setLanes s p r act f) p r' l = if r' = r ∧ act.getLsbD l = true then f l else getLane s p r' l := by
  rw [getLane, setLanes, getVx_modVx_same, mapGet_foldl_mapSet]
  by_cases hr : r' = r
  · simp [hr, hl, getLane]
  · have hout : ¬ (128 * r ≤ 128 * r' + l ∧ 128 * r' + l - 128 * r ∈ lanesOf act) := by
      rw [mem_lanesOf]
      omega
    rw [if_neg hout, if_neg (by simp [hr]), getLane]

theorem lanesSet_setLanes : LanesSet s (setLanes s p r act f) p r act f :=
  ⟨fun l hl => by simp [getLane_setLanes s p r act f hl], fun r' l hr hl => by simp [getLane_setLanes s p r act f hl, hr]⟩

theorem getPred_setLanes (n : Nat) : getPred (setLanes s p r act f) p n = getPred s p n :=
  getPred_of_getVx (by rw [setLanes, getVx_modVx_same]) n

theorem vxEffect_setLanes (hs : Canon s) : VxEffect s (setLanes s p r act f) p where
  canon := (setLanes_moves s p r act f).canon hs
  fly := by rw [setLanes, getVx_modVx_same]
  tiles := tilesBut_modVx _ _ _
  engines := engsBut_of_moves (setLanes_moves s p r act f) (by decide) _

end

/-! Registers written besides. -/

theorem getF_of_regsBut {ks : List Nat} {s t : State} (h : RegsBut ks s t) {f : Fld} {i : Nat} (hk : fldKey f.blk f i 0 ∉ ks) :
    getF t f i = getF s f i := by
  simp only [getF, rdF, h _ hk]

theorem getF_vxIssued (s : State) (p : Fin 72) (q : QEntry) (ws : List Nat) {f : Fld} (hf : f.blk = 4) (i : Nat) :
    getF (vxIssued s p q ws) f i = getF s f i :=
  getF_of_regsBut (regsBut_vxIssued s p q ws) (regKey_not_trace (by omega) _ _ _)

/-- R160, R188: an instruction that has written lanes and counted in registers of its engine alone has issued. -/
theorem lanes_issued {s u : State} (hs : Canon s) (p : Fin 72) (q : QEntry) {vd : Nat} {act : BitVec 128} {f : Nat → Word}
    (hm : Moves 0x8 (setLanes s p vd act f) u) (hr : RegsBut (vxCountKeys p) (setLanes s p vd act f) u) :
    let t := vxIssued u p q [vd]
    LanesSet s t p vd act f ∧ PredsBut [] s t p ∧ VxIssues s t p q [vd] ∧ VxLeaves s t p [] := by
  intro t
  have hset := vxEffect_setLanes s p vd act f hs
  have htile : ∀ r, getTile u r = getTile (setLanes s p vd act f) r := getTile_of_moves hm (by decide)
  have hvx : getVx u p = getVx (setLanes s p vd act f) p := congrArg Tile.vx (htile p)
  have hu : VxEffect s u p :=
    ⟨hm.canon hset.canon, by rw [hvx, hset.fly], tilesBut_trans hset.tiles fun r _ => htile r,
      fun e he => (getEng_of_moves hm (by decide) e).trans (hset.engines e he)⟩
  have hlane : ∀ r l, getLane t p r l = getLane (setLanes s p vd act f) p r l := fun r l =>
    (getLane_vxIssued hu.canon p q [vd] r l).trans (getLane_of_getVx (by rw [hvx]) r l)
  obtain ⟨hown, hother⟩ := lanesSet_setLanes s p vd act f
  refine ⟨⟨fun l hl => (hlane vd l).trans (hown l hl), fun r l hr hl => (hlane r l).trans (hother r l hr hl)⟩, fun n _ => ?preds,
    vxIssued_issues hu q [vd], ⟨?regs, fun r => ?mx, ?only⟩⟩
  case preds =>
    exact (getPred_vxIssued hu.canon p q [vd] n).trans ((getPred_of_getVx (by rw [hvx]) n).trans (getPred_setLanes s p vd act f n))
  case regs =>
    have hset : RegsBut (vxCountKeys p) s (setLanes s p vd act f) := regsBut_of_regs _ rfl
    exact regs_trans (regs_mono (regs_trans hset hr) (by simp +contextual)) (regs_mono (regsBut_vxIssued u p q [vd]) (by simp +contextual))
  case mx => rw [getMx_vxIssued hu.canon, getMx, htile r]; exact getMx_modVx s p _ r
  case only =>
    exact only_of _ ((vxIssued_moves u p q [vd]).trans (hm.next (by decide) ((setLanes_moves s p vd act f).le (by decide)))) (by decide)

theorem regsBut_countLanes (s : State) (p : Nat) (act : BitVec 128) : RegsBut (vxCountKeys p) s (countLanes s p act) :=
  regs_mono (regsBut_wrF s 4 VX_LANE_OPS p 0 _) (by simp [vxCountKeys])

theorem regsBut_countSfu (s : State) (p n : Nat) : RegsBut (vxCountKeys p) s (countSfu s p n) :=
  regs_mono (regsBut_wrF s 4 VX_SFU_RESULTS p 0 _) (by simp [vxCountKeys])

theorem getF_countLanes (s : State) (p : Nat) (act : BitVec 128) {f : Fld} (hf : f.off ≠ VX_LANE_OPS.off) (hb : f.blk = 4) :
    getF (countLanes s p act) f p = getF s f p :=
  getF_setF_key _ _ _ _ _ _ (by simp only [fldKey, regKey, hb, VX_LANE_OPS] at hf ⊢; omega)

theorem getF_countSfu (s : State) (p n : Nat) :
    getF (countSfu s p n) VX_SFU_RESULTS p = (getF s VX_SFU_RESULTS p + n) % 2 ^ 64 := by
  rw [countSfu, addStat, getF_setF_same _ _ _ _ (by decide), show VX_SFU_RESULTS.len = 64 from rfl, Nat.mod_mod]

/-! The flags of a conversion (R40). -/

/-- A flag that is set when its condition holds, and stays otherwise. -/
theorem getF_ite_setF (s : State) (c : Bool) (f : Fld) (p : Nat) (hw : f.lo + f.len ≤ 64) (hl : 1 ≤ f.len) :
    getF (if c then setF s f p 1 else s) f p = if c then 1 else getF s f p := by
  cases c
  · rfl
  · exact (getF_setF_same s f p 1 hw).trans (Nat.mod_eq_of_lt (Nat.one_lt_two_pow (by omega)))

theorem getF_ite_setF_apart (s : State) (c : Bool) (f f' : Fld) (p v : Nat) (hw : f.lo + f.len ≤ 64)
    (h : f'.lo + f'.len ≤ f.lo ∨ f.lo + f.len ≤ f'.lo) : getF (if c then setF s f p v else s) f' p = getF s f' p := by
  cases c
  · rfl
  · exact getF_setF_apart s f p v f' p hw h

theorem getF_orVxFlags (s : State) (p : Nat) (f : CFlags) :
    getF (orVxFlags s p f) VX_FLAGS_OVF p = (if f.ovf then 1 else getF s VX_FLAGS_OVF p)
      ∧ getF (orVxFlags s p f) VX_FLAGS_UNF p = (if f.unf then 1 else getF s VX_FLAGS_UNF p)
      ∧ getF (orVxFlags s p f) VX_FLAGS_NANL p = (if f.nanl then 1 else getF s VX_FLAGS_NANL p) := by
  unfold orVxFlags
  refine ⟨?_, ?_, ?_⟩
  · rw [getF_ite_setF_apart _ _ _ _ _ _ (by decide) (by decide), getF_ite_setF_apart _ _ _ _ _ _ (by decide) (by decide),
      getF_ite_setF _ _ _ _ (by decide) (by decide)]
  · rw [getF_ite_setF_apart _ _ _ _ _ _ (by decide) (by decide), getF_ite_setF _ _ _ _ (by decide) (by decide),
      getF_ite_setF_apart _ _ _ _ _ _ (by decide) (by decide)]
  · rw [getF_ite_setF _ _ _ _ (by decide) (by decide), getF_ite_setF_apart _ _ _ _ _ _ (by decide) (by decide),
      getF_ite_setF_apart _ _ _ _ _ _ (by decide) (by decide)]

theorem regsBut_orVxFlags (s : State) (p : Nat) (f : CFlags) : RegsBut [fldKey 4 VX_FLAGS_OVF p 0] s (orVxFlags s p f) := by
  have step : ∀ (c : Bool) (g : Fld) (u : State), fldKey g.blk g p 0 = fldKey 4 VX_FLAGS_OVF p 0 →
      RegsBut [fldKey 4 VX_FLAGS_OVF p 0] u (if c then setF u g p 1 else u) := fun c g u hg => by
    cases c
    · exact regs_refl _ u
    · exact hg ▸ regsBut_wrF u g.blk g p 0 1
  exact regs_trans (regs_trans (step _ VX_FLAGS_OVF s rfl) (step _ VX_FLAGS_UNF _ rfl)) (step _ VX_FLAGS_NANL _ rfl)

/-- The flags of a list of results are those that one of them raises. -/
theorem foldl_orFlags (g : Nat → CFlags) : ∀ (ls : List Nat) (f : CFlags), ls.foldl (fun f l => orFlags f (g l)) f =
    ⟨f.ovf || ls.any (fun l => (g l).ovf), f.unf || ls.any (fun l => (g l).unf), f.nanl || ls.any (fun l => (g l).nanl)⟩
  | [], f => by simp
  | l :: ls, f => by
    rw [List.foldl_cons, foldl_orFlags g ls]
    simp [orFlags, Bool.or_assoc]

/-! The three rows. -/

section
variable {s : State} {p : Fin 72} {q : QEntry} (hrsv : rsvBad q.word [(0, 9)] = false) (hrsv' : rsvBad q.word [(0, 9), (54, 5)] = false)

include hrsv in
/-- R162: vx.fop, but for sel. -/
theorem exec_vxFop_issues (hfn : rFn q.word ≤ 8) (hc : rFn q.word ≠ 3 → ifld q.word 54 5 = 0)
    (h : VxReady s p 0x64 (rReads q.word ++ (if rFn q.word = 3 then [ifld q.word 54 5] else []) ++ [rVd q.word]) q) :
    exec (.vxFop p) s = .next (vxIssued (countLanes (setLanes s p (rVd q.word) (rAct s p q.word) (fun l => fopLane (rFn q.word)
      (getLane s p (rVa q.word) l) (rB s p q.word l) (getLane s p (ifld q.word 54 5) l))) p (rAct s p q.word)) p q [rVd q.word]) := by
  have hbad : (decide (9 < rFn q.word) || rsvBad q.word [(0, 9)] || (rFn q.word != 3 && ifld q.word 54 5 != 0)) = false := by
    have : rFn q.word ≤ 9 := by omega
    by_cases h3 : rFn q.word = 3 <;> simp [hrsv, h3, this, hc]
  have hsel : rFn q.word ≠ 9 := by omega
  exact congrArg Host.Outcome.next (vxRun_issues h hbad rfl (by simp only [if_neg hsel]))

include hrsv in
/-- R162: vx.fop's sel. -/
theorem exec_vxFop_selects (hfn : rFn q.word = 9) (hc : ifld q.word 54 5 = 0) (h : VxReady s p 0x64 (rReads q.word ++ [rVd q.word]) q) :
    exec (.vxFop p) s = .next (vxIssued (countLanes (setLanes s p (rVd q.word) (BitVec.allOnes 128) (fun l =>
      if (rAct s p q.word).getLsbD l then getLane s p (rVa q.word) l else rB s p q.word l)) p (rAct s p q.word)) p q [rVd q.word]) := by
  have hbad : (decide (9 < rFn q.word) || rsvBad q.word [(0, 9)] || (rFn q.word != 3 && ifld q.word 54 5 != 0)) = false := by
    simp [hfn, hrsv, hc]
  exact congrArg Host.Outcome.next (vxRun_issues h hbad (by simp [hfn]) (by simp only [if_pos hfn]))

include hrsv' in
/-- R163: vx.iop, but for the conversion to INT32. -/
theorem exec_vxIop_issues (hfn : rFn q.word ≤ 13) (hcv : rFn q.word ≠ 12) (h : VxReady s p 0x65 (rReads q.word ++ [rVd q.word]) q) :
    exec (.vxIop p) s = .next (vxIssued (countLanes (setLanes s p (rVd q.word) (rAct s p q.word) (fun l => iopLane (rFn q.word)
      (getLane s p (rVa q.word) l) (rB s p q.word l))) p (rAct s p q.word)) p q [rVd q.word]) := by
  have hbad : (decide (13 < rFn q.word) || rsvBad q.word [(0, 9), (54, 5)]) = false := by simp [hfn, hrsv']
  exact congrArg Host.Outcome.next (vxRun_issues h hbad rfl (by simp only [if_neg hcv]))

/-- R40: the flags that the conversion of the active lanes raises. -/
def laneFlags (s : State) (p : Nat) (w : IWord) : CFlags :=
  (lanesOf (rAct s p w)).foldl (fun f l => orFlags f (toInt32 (getLane s p (rVa w) l)).2) noFlags

include hrsv' in
/-- R40, R163: vx.iop's conversion to INT32. -/
theorem exec_vxIop_converts (hfn : rFn q.word = 12) (h : VxReady s p 0x65 (rReads q.word ++ [rVd q.word]) q) :
    exec (.vxIop p) s = .next (vxIssued (countLanes (orVxFlags (setLanes s p (rVd q.word) (rAct s p q.word) (fun l =>
      (toInt32 (getLane s p (rVa q.word) l)).1)) p (laneFlags s p q.word)) p (rAct s p q.word)) p q [rVd q.word]) := by
  have hbad : (decide (13 < rFn q.word) || rsvBad q.word [(0, 9), (54, 5)]) = false := by simp [hfn, hrsv']
  exact congrArg Host.Outcome.next (vxRun_issues h hbad rfl (by simp only [if_pos hfn]; rfl))

include hrsv' in
/-- R165: vx.sfu. -/
theorem exec_vxSfu_issues (hfn : rFn q.word ≤ 3) (h : VxReady s p 0x68 (rReads q.word ++ [rVd q.word]) q) :
    exec (.vxSfu p) s = .next (vxIssued (countSfu (countLanes (setLanes s p (rVd q.word) (rAct s p q.word) (fun l =>
      sfu (getF s VX_SFU_REV_REV p) (rFn q.word) (getLane s p (rVa q.word) l))) p (rAct s p q.word)) p
        (lanesOf (rAct s p q.word)).length) p q [rVd q.word]) := by
  have hbad : (decide (3 < rFn q.word) || rsvBad q.word [(0, 9), (54, 5)]) = false := by simp [hfn, hrsv']
  exact congrArg Host.Outcome.next (vxRun_issues h hbad rfl rfl)

end

/-- Settles O27: each row writes its lanes and counts in its engine's registers, and issues; the flags of a conversion are those that an
active lane raises. -/
theorem laneArithmetic : Obligations.LaneArithmetic := by
  unfold Obligations.LaneArithmetic
  intro p s q w act a b rs flag hs
  refine ⟨fun hfn hrsv hc h => ?fop, fun hfn hrsv hc h => ?sel, fun hfn hcv hrsv h => ?iop, fun hfn hrsv h => ?convert, fun hfn hrsv h => ?sfu⟩
  case fop =>
    exact ⟨_, exec_vxFop_issues hrsv hfn hc h, lanes_issued hs p q (countLanes_moves ..) (regsBut_countLanes _ _ _)⟩
  case sel =>
    exact ⟨_, exec_vxFop_selects hrsv hfn hc h, lanes_issued hs p q (countLanes_moves ..) (regsBut_countLanes _ _ _)⟩
  case iop =>
    exact ⟨_, exec_vxIop_issues hrsv hfn hcv h, lanes_issued hs p q (countLanes_moves ..) (regsBut_countLanes _ _ _)⟩
  case convert =>
    obtain ⟨hlanes, hpreds, hissues, hleaves⟩ := lanes_issued hs p q (vd := rVd w) (act := act) (f := fun l => (toInt32 (a l)).1)
      ((countLanes_moves _ p act).trans (orVxFlags_moves _ p (laneFlags s p w)))
      (regs_trans (regs_mono (regsBut_orVxFlags _ _ _) (by simp [vxCountKeys])) (regsBut_countLanes _ _ _))
    refine ⟨_, exec_vxIop_converts hrsv hfn h, hlanes, hpreds, ?ovf, ?unf, ?nanl, hissues, hleaves⟩
    all_goals
      show getF _ _ _ = _
      rw [getF_vxIssued _ _ _ _ rfl, getF_countLanes _ _ _ (by decide) rfl]
    case ovf => rw [(getF_orVxFlags _ p _).1, laneFlags, foldl_orFlags]; rfl
    case unf => rw [(getF_orVxFlags _ p _).2.1, laneFlags, foldl_orFlags]; rfl
    case nanl => rw [(getF_orVxFlags _ p _).2.2, laneFlags, foldl_orFlags]; rfl
  case sfu =>
    obtain ⟨hlanes, hpreds, hissues, hleaves⟩ := lanes_issued hs p q (vd := rVd w) (act := act)
      (f := fun l => sfu (getF s VX_SFU_REV_REV p) (rFn w) (a l))
      ((countSfu_moves _ p (lanesOf act).length).trans (countLanes_moves _ p act))
      (regs_trans (regsBut_countLanes _ _ _) (regsBut_countSfu _ _ _))
    refine ⟨_, exec_vxSfu_issues hrsv hfn h, hlanes, hpreds, ?results, hissues, hleaves⟩
    rw [getF_vxIssued _ _ _ _ rfl, getF_countSfu, getF_countLanes _ _ _ (by decide) rfl]
    rfl

end Sys2Proof.Proofs

/-! PROOFS. How an instruction of a tile's engine ends: its completion (R201, R234), its fault (R213, R228), and what they leave alone. -/
namespace Sys2Proof.Proofs
open Sys2Proof Sys2Proof.Machine Sys2Proof.Laws

/-! Completions. -/

/-- R201: the increments that a completion adds to those on their way to the counters of tile p. -/
def signalOf (s : State) (e : Eng) (sctr : Option Nat) (tag pc p : Nat) : List Incr :=
  match sctr with
  | some c => if homeOf s e = some p ∧ isolated s p = false then [⟨c, 1, .instr e tag pc⟩] else []
  | none => []

theorem getTile_addIncr (s : State) (p : Nat) (i : Incr) (r : Nat) : getTile (addIncr s p i) r =
    { getTile s r with pend := (getTile s r).pend ++ if p = r ∧ isolated s r = false then [i] else [] } := by
  unfold addIncr
  by_cases hr : r = p
  · subst hr
    cases hi : isolated s r
    · simp [modTile, getTile_setTile_same]
    · simp
  · have hstays : getTile (if isolated s p = true then s else modTile s p (fun t => { t with pend := t.pend ++ [i] })) r = getTile s r := by
      split
      · rfl
      · exact getTile_setTile_other s _ hr
    rw [hstays, if_neg (by tauto), List.append_nil]

theorem getTile_signalDone (s : State) (e : Eng) (sctr : Option Nat) (tag pc r : Nat) : getTile (signalDone s e sctr tag pc) r =
    { getTile s r with pend := (getTile s r).pend ++ signalOf s e sctr tag pc r } := by
  unfold signalDone signalOf
  rcases sctr with _ | c
  · simp
  · cases hh : homeOf s e with
    | none => simp
    | some p => simp only [getTile_addIncr, Option.some.injEq]

/-- R201, R234: a completion of a tile's engine adds its increment and its trace record to its tile, and shows V. -/
theorem completeDone_shows {s : State} (hs : Canon s) (p : Fin 72) (k : EngKind) (d : Done) :
    let e := Eng.tile p k
    let t := completeDone s e d
    (∃ x, getTile t p = { getTile s p with trace := x, pend := (getTile s p).pend ++ signalOf s e d.sctr d.tag d.pc p })
      ∧ TilesBut [p.val] s t ∧ RegsBut (pKey e P_PSTATE_VSEEN :: traceKeys e) s t ∧ Only [.regs, .tiles] s t := by
  intro e t
  obtain ⟨u, hu⟩ : ∃ u, traceEv s e d.t d.tag d.pc 3 0 = u := ⟨_, rfl⟩
  obtain ⟨v, hv⟩ : ∃ v, signalDone u e d.sctr d.tag d.pc = v := ⟨_, rfl⟩
  have ht : t = if d.v then setP v e P_PSTATE_VSEEN 1 else v := by rw [← hv, ← hu]; rfl
  have htv : t.tiles = v.tiles := by
    rw [ht]
    split <;> rfl
  have hiso : isolated u p = isolated s p := hu ▸ isolated_traceEv ..
  have htile : ∀ r, getTile t r = { getTile u r with pend := (getTile u r).pend ++ signalOf u e d.sctr d.tag d.pc r } := fun r => by
    rw [← getTile_signalDone, hv, getTile, htv, getTile]
  refine ⟨?tile, fun r hr => ?others, ?regs, only_of _ (completeDone_moves s e d) (by decide)⟩
  case tile =>
    obtain ⟨x, hx⟩ := getTile_traceEv hs e d.t d.tag d.pc 3 0 p
    refine ⟨x, ?_⟩
    rw [htile, ← hu, hx, hu]
    simp only [signalOf, hiso, homeOf, e]
  case others =>
    have hother : getTile u r = getTile s r := hu ▸ tilesBut_traceEv s p k d.t d.tag d.pc 3 0 r hr
    have hsig : signalOf u e d.sctr d.tag d.pc r = [] := by
      have : p.val ≠ r := fun h => hr (by simp [h])
      unfold signalOf
      split
      · simp [homeOf, e, this]
      · rfl
    rw [htile, hsig, List.append_nil, hother]
  case regs =>
    have hsv : RegsBut (traceKeys e) s v :=
      regs_trans (hu ▸ traceEv_regs s e d.t d.tag d.pc 3 0) (regsBut_of_regs _ (by rw [← hv, signalDone_regs]))
    have hvt : RegsBut [pKey e P_PSTATE_VSEEN] v t := by
      rw [ht]
      split
      · exact regsBut_wrF v _ P_PSTATE_VSEEN _ 0 1
      · exact regs_refl _ v
    exact regs_trans (regs_mono hsv (by simp +contextual)) (regs_mono hvt (by simp))

/-- R201: a completion of a tile's engine notifies its own tile. -/
theorem notifies_of_tile {s t : State} {p : Fin 72} {k : EngKind} {sctr : Option Nat} {tag pc : Nat}
    (hown : (getTile t p).pend = (getTile s p).pend ++ signalOf s (.tile p k) sctr tag pc p)
    (hpend : ∀ r, r ≠ p.val → (getTile t r).pend = (getTile s r).pend) : Notifies s t (.tile p k) sctr tag pc := by
  refine ⟨fun c r hc hr hi => ?_, fun r hr => ?_⟩
  · obtain rfl : p.val = r := by simpa [homeOf] using hr
    rw [hown, hc]
    simp [signalOf, homeOf, hi]
  · by_cases hp : r = p.val
    · have hnone : sctr = none := hr.resolve_right (by simp [hp, homeOf])
      rw [hp, hown, hnone]
      exact List.append_nil _
    · exact hpend r hp

/-- R107, R188, R201: what a completion shows whose instruction has left those in flight in its tile. -/
theorem completed_shows {s u : State} (hs : Canon s) {p : Fin 72} (hm : Moves 0x80 s u) (htiles : TilesBut [p.val] s u)
    (hpend : (getTile u p).pend = (getTile s p).pend) (k : EngKind) (d : Done) :
    let e := Eng.tile p k
    let t := completeDone u e d
    Notifies s t e d.sctr d.tag d.pc ∧ RegsBut (pKey e P_PSTATE_VSEEN :: traceKeys e) s t ∧ TilesBut [p.val] s t ∧ Only [.regs, .tiles] s t := by
  intro e t
  obtain ⟨⟨x, hown⟩, hothers, hregs, honly⟩ := completeDone_shows (hm.canon hs) p k d
  have hsig : signalOf u e d.sctr d.tag d.pc p = signalOf s e d.sctr d.tag d.pc p := by
    simp only [signalOf, isolated_of_moves hm (by decide), homeOf, e]
  have hall : TilesBut [p.val] s t := tilesBut_trans htiles hothers
  refine ⟨notifies_of_tile ?_ fun r hr => congrArg Tile.pend (hall r (by simpa using hr)),
    regs_trans (regsBut_of_regs _ (hm.same .regs (by decide)).symm) hregs, hall, only_trans (only_of _ hm (by decide)) honly⟩
  rw [← hsig, ← hpend]
  exact (congrArg Tile.pend hown).trans rfl

/-! Faults. -/

theorem stopWork_tile (s : State) (p : Fin 72) : ∀ {k : EngKind}, k ≠ .dm → stopWork s (.tile p k) = s
  | .mx, _ | .vx, _ | .sy, _ => rfl
  | .dm, h => absurd rfl h

theorem memByte_of_moves {m : Nat} {s t : State} (h : Moves m s t) (hm : m.testBit 4 = false) (a : Nat) : memByte t a = memByte s a := by
  have hs : s.mem = t.mem := h.same .mem hm
  rw [memByte, memByte, hs]

/-- R529: the fault ring lies in the ash record. -/
theorem memByte_ashFault (s : State) (r : FaultRec) {a : Nat} (ha : a < ashBase) : memByte (ashFault s r) a = memByte s a := by
  unfold ashBase at ha
  simp only [ashFault, writeNat]
  rw [memByte_writeBytes_other _ _ _ _ (.inl (by omega)), memByte_writeBytes_other _ _ _ _ (.inl (by omega))]

theorem memByte_raise (s : State) (b inst : Nat) (r : FaultRec) {a : Nat} (ha : a < ashBase) : memByte (raise s b inst r) a = memByte s a := by
  rw [raise, memByte_of_moves (logErr_moves ..) (by decide), memByte_ashFault _ _ ha, memByte_of_moves (pushEvent_moves ..) (by decide)]

section
variable {s : State} {p : Fin 72} {k : EngKind} (hk : k ≠ .dm) (h : Faultable s (.tile p k)) (code tag pc : Nat) (t : Bool)
  (addr space detail : Nat)
include hk h

/-- R213: a fault of an engine but the mover leaves its tile, but for the trace. -/
theorem getTile_faultEngine (hs : Canon s) (r : Nat) :
    ∃ x, getTile (faultEngine s (.tile p k) code tag pc t addr space detail) r = { getTile s r with trace := x } := by
  obtain ⟨x, hx⟩ := getTile_traceEv hs (.tile p k) t tag pc 4 code r
  refine ⟨x, ?_⟩
  rw [faultEngine_eq h]
  simp only [stopWork_tile _ _ hk, getTile_setEng]
  rw [getTile_of_moves (takeBackMark_moves ..) (by decide), getTile_of_moves (takeBackBar_moves ..) (by decide), faultRaised,
    getTile_of_moves (raise_moves ..) (by decide), getTile_of_moves (setLastFault_moves ..) (by decide), hx]

theorem getMx_faultEngine (hs : Canon s) (r : Nat) :
    getMx (faultEngine s (.tile p k) code tag pc t addr space detail) r = getMx s r := by
  obtain ⟨x, hx⟩ := getTile_faultEngine hk h code tag pc t addr space detail hs r
  rw [getMx, hx, getMx]

theorem getVx_faultEngine (hs : Canon s) (r : Nat) :
    getVx (faultEngine s (.tile p k) code tag pc t addr space detail) r = getVx s r := by
  obtain ⟨x, hx⟩ := getTile_faultEngine hk h code tag pc t addr space detail hs r
  rw [getVx, hx, getVx]

/-- R213, R529: a fault writes memory in the ash record alone. -/
theorem memByte_faultEngine {a : Nat} (ha : a < ashBase) :
    memByte (faultEngine s (.tile p k) code tag pc t addr space detail) a = memByte s a := by
  rw [faultEngine_eq h]
  simp only [stopWork_tile _ _ hk, memByte_setEng]
  rw [memByte_of_moves (takeBackMark_moves ..) (by decide), memByte_of_moves (takeBackBar_moves ..) (by decide), faultRaised,
    memByte_raise _ _ _ _ ha, memByte_of_moves (setLastFault_moves ..) (by decide), memByte_of_moves (traceEv_moves ..) (by decide)]

end

/-- R190: a vx. instruction that faults has no effect. -/
theorem faultQ_vxFaults {s : State} (hs : Canon s) {p : Fin 72} (h : Faultable s (.tile p .vx)) (q : QEntry) (code addr space detail : Nat) :
    VxFaults s (faultQ s (.tile p .vx) q code addr space detail) p q code := by
  have hk : EngKind.vx ≠ .dm := by decide
  have hvx : getVx (faultQ s (.tile p .vx) q code addr space detail) p = getVx s p := getVx_faultEngine hk h _ _ _ _ _ _ _ hs p
  have hmx : getMx (faultQ s (.tile p .vx) q code addr space detail) p = getMx s p := getMx_faultEngine hk h _ _ _ _ _ _ _ hs p
  exact ⟨faultEngine_faultsWith h .., fun r l => getLane_of_getVx (by rw [hvx]) r l, fun n => getPred_of_getVx (by rw [hvx]) n,
    fun i => by simp only [getAcc, accBad, hmx, and_self], fun a ha => memByte_faultEngine hk h _ _ _ _ _ _ _ ha⟩

/-- What a fault shows of a state it shows of one that differs in its tiles alone. -/
theorem faultsWith_of_tiles {s u t : State} {e : Eng} {code tag pc : Nat} (hm : Moves 0x80 s u) (h : FaultsWith u t e code tag pc) :
    FaultsWith s t e code tag pc := by
  have heb : s.eb = u.eb := hm.same .eb (by decide)
  have hgsc : s.gsc = u.gsc := hm.same .gsc (by decide)
  have hregs : s.regs = u.regs := hm.same .regs (by decide)
  have hgen : jobGen u = jobGen s := jobGen_of_regsBut (regsBut_of_regs [] hregs.symm) (by simp)
  refine ⟨h.st, fun hroom => ?_, fun e' he => (h.others e' he).trans (getEng_of_moves hm (by decide) e')⟩
  rw [heb] at hroom ⊢
  obtain ⟨r, hev, hcode, hunit, heng, htag, hpc, ht, hg, hphys⟩ := h.event hroom
  exact ⟨r, hev, hcode, hunit.trans (engUnit_of_moves hm (by decide) e), heng, htag, hpc, ht.trans hgsc.symm, hg.trans hgen, hphys⟩

end Sys2Proof.Proofs

/-! PROOFS. Runs, flags and completions of the matrix engine (R51, R100, R103, R106, R107, R113, R114): what the end of a run does to the
accumulation buffer, and the statement about mx.drain, mx.flag and MX_INSTR_COMPLETE. -/
namespace Sys2Proof.Proofs
open Sys2Proof Sys2Proof.Machine Sys2Proof.Laws

@[simp] theorem mxEng_val (p : Fin 72) : mxEng p.val = .tile p .mx := by simp [mxEng]

/-! Updates of a tile's matrix engine. -/

theorem getMx_modMx_same (s : State) (p : Nat) (f : MxState → MxState) : getMx (modMx s p f) p = f (getMx s p) :=
  congrArg Tile.mx (getTile_setTile_same s p _)

theorem tilesBut_modMx (s : State) (p : Nat) (f : MxState → MxState) : TilesBut [p] s (modMx s p f) := fun _ hr =>
  getTile_setTile_other s _ (by simpa using hr)

theorem mxFront_eq_some {s : State} {p : Fin 72} {op : Nat} {q : QEntry} (h : mxFront s p op = some q) :
    frontIs s (.tile p .mx) 1 op = some q := by
  rw [mxFront, mxEng_val] at h
  split at h
  · next x hx =>
    exact hx.trans (Option.ite_none_right_eq_some.1 h).2
  · exact absurd h (by simp)

/-- R213: an engine with an mx. instruction at issue is one whose program may fault. -/
theorem faultable_of_mxReady {s : State} {p : Fin 72} {op : Nat} {q : QEntry} (h : MxReady s p op q) : Faultable s (.tile p .mx) :=
  faultable_of_canIssue (frontIs_eq_some.1 (mxFront_eq_some h)).2.1

/-- R107: an instruction that issues leaves the queue and joins those in flight. -/
theorem mxIssued_eq (s : State) (p : Fin 72) (q : QEntry) (f : MxFly) : mxIssued s p q f = modMx (leftQueue s p .mx q) p (fun x =>
    { x with fly := x.fly ++ [{ f with since := (leftQueue s p .mx q).gsc }] }) := by
  rw [mxIssued, mxEng_val]
  rfl

theorem getMx_mxIssued {s : State} (hs : Canon s) (p : Fin 72) (q : QEntry) (f : MxFly) :
    ∃ fly, getMx (mxIssued s p q f) p = { getMx s p with fly := fly } := by
  obtain ⟨x, hx⟩ := getTile_leftQueue hs p .mx q p
  refine ⟨(getMx s p).fly ++ [{ f with since := (leftQueue s p .mx q).gsc }], ?_⟩
  have hmx : getMx (leftQueue s p .mx q) p = getMx s p := (congrArg Tile.mx hx).trans rfl
  rw [mxIssued_eq, getMx_modMx_same, hmx]

theorem getEng_mxIssued (s : State) (p : Fin 72) (q : QEntry) (f : MxFly) (e : Eng) :
    getEng (mxIssued s p q f) e = getEng (leftQueue s p .mx q) e := by
  rw [mxIssued_eq]
  rfl

theorem regsBut_mxIssued (s : State) (p : Fin 72) (q : QEntry) (f : MxFly) : RegsBut (traceKeys (.tile p .mx)) s (mxIssued s p q f) := by
  rw [mxIssued_eq]
  exact regs_trans (regsBut_leftQueue s p .mx q) (regsBut_of_regs _ rfl)

/-! The end of a run (R51). -/

/-- R51: what an entry holds once it has taken its wide partial in. -/
def drainedAcc (s : State) (p k : Nat) : Word := match getWide s p k with
  | some v => drainAdd v (getAcc s p k)
  | none => getAcc s p k

/-- The entries that meet P have taken their wide partials in; the others are as they were. -/
structure Drains (P : Nat → Prop) (s u : State) (p : Nat) : Prop where
  acc : ∀ k, P k → getAcc u p k = drainedAcc s p k
  wide : ∀ k, P k → getWide u p k = none
  stays : ∀ k, ¬ P k → getAcc u p k = getAcc s p k ∧ getWide u p k = getWide s p k

theorem Drains.refl (s : State) (p : Nat) : Drains (fun _ => False) s s p :=
  ⟨fun _ h => h.elim, fun _ h => h.elim, fun _ _ => ⟨rfl, rfl⟩⟩

theorem Drains.iff {P Q : Nat → Prop} {s u : State} {p : Nat} (h : Drains P s u p) (hpq : ∀ k, Q k ↔ P k) : Drains Q s u p :=
  ⟨fun k hk => h.acc k ((hpq k).1 hk), fun k hk => h.wide k ((hpq k).1 hk), fun k hk => h.stays k (fun hp => hk ((hpq k).2 hp))⟩

/-- It is the accumulation buffer and the spill buffer alone that show it. -/
theorem Drains.of_getMx {P : Nat → Prop} {s u t : State} {p : Nat} (h : Drains P s u p) (hacc : (getMx t p).acc = (getMx u p).acc)
    (hwide : (getMx t p).wide = (getMx u p).wide) : Drains P s t p := by
  have ha : ∀ k, getAcc t p k = getAcc u p k := fun k => by rw [getAcc, hacc, getAcc]
  have hw : ∀ k, getWide t p k = getWide u p k := fun k => by rw [getWide, hwide, getWide]
  exact ⟨fun k hk => (ha k).trans (h.acc k hk), fun k hk => (hw k).trans (h.wide k hk),
    fun k hk => ⟨(ha k).trans (h.stays k hk).1, (hw k).trans (h.stays k hk).2⟩⟩

/-- An entry that has taken its wide partial in has none left for a second run. -/
theorem Drains.trans {P Q : Nat → Prop} {s u v : State} {p : Nat} (h : Drains P s u p) (k : Drains Q u v p) :
    Drains (fun e => P e ∨ Q e) s v p := by
  have hu : ∀ e, P e → drainedAcc u p e = drainedAcc s p e := fun e he => by rw [drainedAcc, h.wide e he, h.acc e he]
  have hu' : ∀ e, ¬ P e → drainedAcc u p e = drainedAcc s p e := fun e he => by
    rw [drainedAcc, (h.stays e he).1, (h.stays e he).2, drainedAcc]
  refine ⟨fun e he => ?acc, fun e he => ?wide, fun e he => ?stays⟩
  case acc =>
    by_cases hq : Q e
    · rw [k.acc e hq]
      exact (em (P e)).elim (hu e) (hu' e)
    · rw [(k.stays e hq).1, h.acc e (he.resolve_right hq)]
  case wide =>
    by_cases hq : Q e
    · exact k.wide e hq
    · rw [(k.stays e hq).2, h.wide e (he.resolve_right hq)]
  case stays =>
    obtain ⟨hp, hq⟩ := not_or.1 he
    obtain ⟨ha, hw⟩ := h.stays e hp
    obtain ⟨ha', hw'⟩ := k.stays e hq
    exact ⟨ha'.trans ha, hw'.trans hw⟩

/-- R51: an entry that has spilled takes its wide partial in. -/
def drainEntry (p : Nat) (s : State) (e : Nat) : State := match getWide s p e with
  | some w => setWide (setAcc s p e (drainAdd w (getAcc s p e)) (accBad s p e)) p e none
  | none => s

theorem drains_drainEntry (s : State) (p e : Nat) : Drains (· = e) s (drainEntry p s e) p := by
  unfold drainEntry
  split
  · next w hw =>
    have hmx : getMx (setWide (setAcc s p e (drainAdd w (getAcc s p e)) (accBad s p e)) p e none) p = { getMx s p with
        acc := mapSet (fun _ => 0) (getMx s p).acc e (drainAdd w (getAcc s p e))
        accBad := mapSet (fun _ => false) (getMx s p).accBad e (accBad s p e), wide := mapSet (fun _ => none) (getMx s p).wide e none } := by
      rw [setWide, getMx_modMx_same, setAcc, getMx_modMx_same]
    refine ⟨fun k hk => ?_, fun k hk => ?_, fun k hk => ⟨?_, ?_⟩⟩
    · rw [getAcc, hmx, hk, mapGet_mapSet_same, drainedAcc, hw]
    · rw [getWide, hmx, hk, mapGet_mapSet_same]
    · rw [getAcc, hmx, mapGet_mapSet_other _ _ _ _ _ hk, getAcc]
    · rw [getWide, hmx, mapGet_mapSet_other _ _ _ _ _ hk, getWide]
  · next hw => exact ⟨fun k hk => by rw [drainedAcc, hk, hw], fun k hk => by rw [hk, hw], fun _ _ => ⟨rfl, rfl⟩⟩

theorem drainEntry_runs (s : State) (p e : Nat) : (getMx (drainEntry p s e) p).runs = (getMx s p).runs := by
  unfold drainEntry
  split
  · rw [setWide, getMx_modMx_same, setAcc, getMx_modMx_same]
  · rfl

theorem drains_foldl {α : Type} {p : Nat} {g : State → α → State} {P : α → Nat → Prop} (hg : ∀ s x, Drains (P x) s (g s x) p) :
    ∀ (xs : List α) (s : State), Drains (fun k => ∃ x ∈ xs, P x k) s (xs.foldl g s) p
  | [], s => (Drains.refl s p).iff fun k => by simp
  | x :: xs, s => ((hg s x).trans (drains_foldl hg xs (g s x))).iff fun k => by simp

/-- The entries that the end of a run drains. -/
def RunEntries (r : MxRun) (k : Nat) : Prop := r.spilled = true ∧ 64 * r.base ≤ k ∧ k < 64 * (r.base + r.rows)

/-- R51: the end of a run drains its entries, if it has spilled, and drops it. -/
theorem endRun_eq (s : State) (p : Nat) (r : MxRun) : endRun s p r =
    modMx ((if r.spilled then (List.range (64 * r.rows)).map (64 * r.base + ·) else []).foldl (drainEntry p) s) p
      (fun x => { x with runs := x.runs.filter (fun y => y.base != r.base) }) := by
  unfold endRun
  cases r.spilled
  · rfl
  · simp only [if_true, List.foldl_map]
    rfl

theorem drains_endRun (s : State) (p : Nat) (r : MxRun) : Drains (RunEntries r) s (endRun s p r) p := by
  have h := (drains_foldl (fun s e => drains_drainEntry s p e)
    (if r.spilled then (List.range (64 * r.rows)).map (64 * r.base + ·) else []) s).iff (Q := RunEntries r) fun k => by
      unfold RunEntries
      cases r.spilled
      · simp
      · simp only [true_and, if_true, List.mem_map, List.mem_range, exists_eq_right']
        exact ⟨fun hk => ⟨k - 64 * r.base, by omega, by omega⟩, by rintro ⟨i, hi, rfl⟩; omega⟩
  rw [endRun_eq]
  exact h.of_getMx (by rw [getMx_modMx_same]) (by rw [getMx_modMx_same])

theorem endRun_runs (s : State) (p : Nat) (r : MxRun) :
    (getMx (endRun s p r) p).runs = (getMx s p).runs.filter (fun y => y.base != r.base) := by
  have hfold : ∀ (es : List Nat) (u : State), (getMx (es.foldl (drainEntry p) u) p).runs = (getMx u p).runs := fun es => by
    induction es with
    | nil => exact fun _ => rfl
    | cons e es ih => exact fun u => (ih _).trans (drainEntry_runs u p e)
  rw [endRun_eq, getMx_modMx_same, hfold]

/-- A run that has ended is gone. -/
theorem endRuns_gone (p : Nat) : ∀ (rs : List MxRun) (s : State) {y : MxRun},
    y ∈ (getMx (rs.foldl (fun s r => endRun s p r) s) p).runs → y ∈ (getMx s p).runs ∧ y ∉ rs
  | [], _, _, h => ⟨h, by simp⟩
  | r :: rs, s, y, h => by
    obtain ⟨hr, hrs⟩ := endRuns_gone p rs (endRun s p r) h
    rw [endRun_runs, List.mem_filter, bne_iff_ne] at hr
    exact ⟨hr.1, fun hy => (List.mem_cons.1 hy).elim (fun e => hr.2 (by rw [e])) hrs⟩

theorem endRuns_moves (s : State) (p : Nat) (rs : List MxRun) : Moves 0x80 s (rs.foldl (fun s r => endRun s p r) s) :=
  Moves.foldl rs (fun s r => endRun_moves s p r) s (Moves.refl _ s)

/-! mx.drain. -/

section
variable {s : State} {p : Fin 72} {q : QEntry}

/-- R114: the rows of an mx.drain, and the runs that it meets. -/
def drainRows (w : IWord) : Nat × Nat := (ifld w 68 12, ifld w 56 12 + 1)
def drainMeets (s : State) (p : Nat) (w : IWord) : List MxRun := (getMx s p).runs.filter (fun r => rangesMeet (runRows r) (drainRows w))
def drainQuarters (w : IWord) : Nat × Nat := (4 * (drainRows w).1, 4 * (drainRows w).2)

theorem doDrain_held (h : MxReady s p 0x26 q) (hh : stHeld (getMx s p) [drainQuarters q.word] = true) : doDrain s p = s := by
  rw [doDrain, show mxFront s p 0x26 = some q from h]
  exact if_pos hh

theorem doDrain_cuts (h : MxReady s p 0x26 q) (hh : stHeld (getMx s p) [drainQuarters q.word] = false) {r : MxRun}
    (hr : r ∈ drainMeets s p q.word) (hcut : r.base < (drainRows q.word).1 ∨ (drainRows q.word).1 + (drainRows q.word).2 < r.base + r.rows) :
    doDrain s p = faultQ s (.tile p .mx) q 0x0A04 0 0 0 := by
  rw [doDrain, show mxFront s p 0x26 = some q from h, mxEng_val]
  exact (if_neg (Bool.eq_false_iff.1 hh)).trans (if_pos (List.any_eq_true.2 ⟨r, hr, by simpa [drainRows] using hcut⟩))

theorem doDrain_ends (h : MxReady s p 0x26 q) (hh : stHeld (getMx s p) [drainQuarters q.word] = false)
    (hin : ∀ r ∈ drainMeets s p q.word, (drainRows q.word).1 ≤ r.base ∧ r.base + r.rows ≤ (drainRows q.word).1 + (drainRows q.word).2) :
    doDrain s p = mxIssued ((drainMeets s p q.word).foldl (fun s r => endRun s p r) s) p q
      { fly0 q with kind := 4, quarters := [drainQuarters q.word], badEntry := (drainMeets s p q.word).findSome? (runBad s p) } := by
  rw [doDrain, show mxFront s p 0x26 = some q from h]
  have hnone : ¬ (drainMeets s p q.word).any (fun r => r.base < (drainRows q.word).1
      || (drainRows q.word).1 + (drainRows q.word).2 < r.base + r.rows) = true := by
    rw [List.any_eq_true]
    rintro ⟨r, hr, hcut⟩
    have := hin r hr
    simp only [Bool.or_eq_true, decide_eq_true_eq] at hcut
    omega
  exact (if_neg (Bool.eq_false_iff.1 hh)).trans (if_neg hnone)

/-- R114: what an mx.drain shows that cuts no run. -/
theorem drain_shows (hs : Canon s) (f : MxFly) :
    let met := drainMeets s p q.word
    let t := mxIssued (met.foldl (fun s r => endRun s p r) s) p q f
    (∀ r ∈ met, r ∉ (getMx t p).runs) ∧ Drains (fun k => ∃ r ∈ met, RunEntries r k) s t p
      ∧ (getEng t (.tile p .mx)).queue = (getEng s (.tile p .mx)).queue.drop 1 ∧ EngsBut [.tile p .mx] s t
      ∧ RegsBut (traceKeys (.tile p .mx)) s t ∧ Only [.regs, .engines, .tiles] s t := by
  intro met t
  obtain ⟨u, hu⟩ : ∃ u, met.foldl (fun s r => endRun s p r) s = u := ⟨_, rfl⟩
  have hm : Moves 0x80 s u := hu ▸ endRuns_moves s p met
  have ht : t = mxIssued u p q f := by rw [← hu]
  obtain ⟨fly, hmx⟩ := getMx_mxIssued (hm.canon hs) p q f
  rw [← ht] at hmx
  have hd : Drains (fun k => ∃ r ∈ met, RunEntries r k) s u p := hu ▸ drains_foldl (fun s r => drains_endRun s p r) met s
  have heng : ∀ e, getEng t e = getEng (leftQueue u p .mx q) e := fun e => ht ▸ getEng_mxIssued u p q f e
  have hsu : ∀ e, getEng u e = getEng s e := getEng_of_moves hm (by decide)
  refine ⟨fun r hr hin => ?gone, hd.of_getMx (by rw [hmx]) (by rw [hmx]), ?queue, fun e he => ?others, ?regs, ?only⟩
  case gone =>
    rw [hmx, ← hu] at hin
    exact (endRuns_gone p met s hin).2 hr
  case queue => rw [heng, getEng_leftQueue, hsu]
  case others => rw [heng, engsBut_leftQueue u p .mx q e he, hsu]
  case regs => exact ht ▸ regs_trans (regsBut_of_regs _ (hm.same .regs (by decide)).symm) (regsBut_mxIssued u p q f)
  case only => exact ht ▸ only_of _ ((mxIssued_moves u p q f).trans (hm.le (by decide))) (by decide)

end

/-! mx.flag. -/

/-- Registers written just before the completion. -/
theorem retires_of_regs {s u : State} (hs : Canon s) {ks : List Nat} (hm : Moves 0x8 s u) (hr : RegsBut ks s u)
    (hk : ∀ c : Fin 4, fldKey 8 CE_CFG_HOME c 0 ∉ ks) (e : Eng) (q : QEntry) (hv : iV q.word = false) :
    Retires s (finishFront u e q) e q ks := by
  obtain ⟨hqueue, hgoing, ⟨hsig, hnone⟩, hregs, hothers, htiles, hframe⟩ := finishFront_retires (hm.canon hs) e q hv
  have hhome : homeOf u e = homeOf s e := homeOf_same e (fun c => hr _ (hk c)) (hm.same .tmap (by decide)).symm
  have heng : ∀ e', getEng u e' = getEng s e' := getEng_of_moves hm (by decide)
  have htile : ∀ p, getTile u p = getTile s p := getTile_of_moves hm (by decide)
  refine ⟨by rw [hqueue, heng], by rw [hgoing, heng], ⟨fun c p hc hp hi => ?_, fun p hp => ?_⟩, ?_, fun e' he => ?_, fun p => ?_, ?_⟩
  · rw [hsig c p hc (hhome.trans hp) ((isolated_of_moves hm (by decide) p).trans hi), htile]
  · rw [hnone p (by rwa [hhome]), htile]
  · exact regs_trans (regs_mono hr (by simp +contextual)) (regs_mono hregs (by simp +contextual))
  · rw [hothers e' he, heng]
  · rw [← htile p]
    exact htiles p
  · exact only_trans (only_of _ hm (by decide)) hframe

/-- R116: the flags of a matrix engine. -/
def mxFlagFields : List Fld := [MX_FLAGS_OVF, MX_FLAGS_UNF, MX_FLAGS_NANL, MX_FLAGS_IOVF]

theorem getF_clearMxFlags (s : State) (p : Nat) : ∀ f ∈ mxFlagFields, getF (clearMxFlags s p) f p = 0 := by
  have clear : ∀ (u : State) (f : Fld), f.lo + f.len ≤ 64 → getF (setF u f p 0) f p = 0 := fun u f hf => by
    rw [getF_setF_same u f p 0 hf, Nat.zero_mod]
  simp only [mxFlagFields, List.forall_mem_cons, clearMxFlags]
  refine ⟨?_, ?_, ?_, ?_, by simp⟩
  · rw [getF_setF_apart _ _ _ _ _ _ (by decide) (by decide), getF_setF_apart _ _ _ _ _ _ (by decide) (by decide),
      getF_setF_apart _ _ _ _ _ _ (by decide) (by decide), clear _ _ (by decide)]
  · rw [getF_setF_apart _ _ _ _ _ _ (by decide) (by decide), getF_setF_apart _ _ _ _ _ _ (by decide) (by decide), clear _ _ (by decide)]
  · rw [getF_setF_apart _ _ _ _ _ _ (by decide) (by decide), clear _ _ (by decide)]
  · exact clear _ _ (by decide)

theorem regsBut_clearMxFlags (s : State) (p : Nat) : RegsBut [fldKey 3 MX_FLAGS_OVF p 0] s (clearMxFlags s p) :=
  regs_trans (regs_trans (regs_trans (regsBut_wrF s 3 MX_FLAGS_OVF p 0 0) (regsBut_wrF _ 3 MX_FLAGS_UNF p 0 0))
    (regsBut_wrF _ 3 MX_FLAGS_NANL p 0 0)) (regsBut_wrF _ 3 MX_FLAGS_IOVF p 0 0)

/-- R113: the state in which mx.flag has read the flags, and cleared them with C. -/
def flagsRead (s : State) (p : Fin 72) (w : IWord) : State :=
  let u := setG s (.tile p .mx) (ifld w 75 5) (BitVec.ofNat 64 (mxFlagBits s p))
  if ibit w 74 then clearMxFlags u p else u

section
variable (s : State) (p : Fin 72) (w : IWord)

theorem flagsRead_moves : Moves 0x8 s (flagsRead s p w) := by
  unfold flagsRead
  extract_lets u
  split
  · exact (clearMxFlags_moves u p).trans (setG_moves ..)
  · exact setG_moves ..

theorem regsBut_flagsRead : RegsBut [gKey (.tile p .mx) (ifld w 75 5), fldKey 3 MX_FLAGS_OVF p 0] s (flagsRead s p w) := by
  have hg : RegsBut [gKey (.tile p .mx) (ifld w 75 5)] s (setG s (.tile p .mx) (ifld w 75 5) (BitVec.ofNat 64 (mxFlagBits s p))) :=
    regsBut_regSet s _ _
  unfold flagsRead
  extract_lets u
  split
  · exact regs_trans (regs_mono hg (by simp)) (regs_mono (regsBut_clearMxFlags u p) (by simp))
  · exact regs_mono hg (by simp)

theorem gKey_ne_mxFlags : gKey (.tile p .mx) (ifld w 75 5) ≠ fldKey 3 MX_FLAGS_OVF p 0 := by
  simp only [gKey, fldKey, regKey, engBlk, engInst, MX_FLAGS_OVF]
  omega

theorem getG_flagsRead : getG (flagsRead s p w) (.tile p .mx) (ifld w 75 5) = BitVec.ofNat 64 (mxFlagBits s p) := by
  unfold flagsRead
  extract_lets u
  have hu : getG u (.tile p .mx) (ifld w 75 5) = BitVec.ofNat 64 (mxFlagBits s p) := getG_setG_same ..
  split
  · exact (regsBut_clearMxFlags u p _ (fun h => gKey_ne_mxFlags p w (List.mem_singleton.1 h))).trans hu
  · exact hu

theorem getF_flagsRead : ∀ f ∈ mxFlagFields, getF (flagsRead s p w) f p = if ibit w 74 then 0 else getF s f p := by
  intro f hf
  unfold flagsRead
  extract_lets u
  split
  · exact getF_clearMxFlags u p f hf
  · refine getF_of_regsBut (regsBut_regSet s (gKey (.tile p .mx) (ifld w 75 5)) _) ?_
    have hkey : fldKey f.blk f p 0 = fldKey 3 MX_FLAGS_OVF p 0 := by
      simp only [mxFlagFields, List.mem_cons, List.not_mem_nil, or_false] at hf
      rcases hf with rfl | rfl | rfl | rfl <;> rfl
    rw [hkey]
    exact fun h => gKey_ne_mxFlags p w (List.mem_singleton.1 h).symm

theorem mxFlag_not_home (c : Fin 4) : fldKey 8 CE_CFG_HOME c 0 ∉ [gKey (.tile p .mx) (ifld w 75 5), fldKey 3 MX_FLAGS_OVF p 0] := by
  intro h
  rcases List.mem_cons.1 h with h | h
  · exact home_not_g c (.tile p .mx) (ifld w 75 5) (bits_lt w.toNat 75 5) h
  · have := p.isLt
    have h := List.mem_singleton.1 h
    simp only [fldKey, regKey, CE_CFG_HOME, MX_FLAGS_OVF] at h
    omega

theorem mxFlag_not_trace (e : Eng) {f : Fld} (hf : f ∈ mxFlagFields) (i : Nat) : fldKey f.blk f i 0 ∉ traceKeys e := by
  have hb : f.blk = 3 := by
    simp only [mxFlagFields, List.mem_cons, List.not_mem_nil, or_false] at hf
    rcases hf with rfl | rfl | rfl | rfl <;> rfl
  exact regKey_not_trace (by omega) _ _ e

theorem doFlag_waits {s : State} {p : Fin 72} {q : QEntry} (h : MxReady s p 0x27 q) (hf : (getMx s p).fly ≠ []) : doFlag s p = s := by
  rw [doFlag, show mxFront s p 0x27 = some q from h]
  exact if_pos (by simpa using hf)

theorem doFlag_reads {s : State} {p : Fin 72} {q : QEntry} (h : MxReady s p 0x27 q) (hf : (getMx s p).fly = []) :
    doFlag s p = finishFront (flagsRead s p q.word) (.tile p .mx) q := by
  rw [doFlag, show mxFront s p 0x27 = some q from h, mxEng_val]
  exact if_neg (by simp [hf])

end

/-! MX_INSTR_COMPLETE. -/

/-- R100: the run that an instruction in flight ends has ended. -/
def runEnded (s : State) (p : Nat) (f : MxFly) : State := match endsRun (getMx s p) f with
  | some r => endRun s p r
  | none => s

/-- R107: the k-th instruction is in flight no more. -/
def flownMx (s : State) (p k : Nat) (f : MxFly) : State := modMx (runEnded s p f) p (fun x => { x with fly := x.fly.eraseIdx k })

theorem flownMx_moves (s : State) (p k : Nat) (f : MxFly) : Moves 0x80 s (flownMx s p k f) := by
  have hrun : Moves 0x80 s (runEnded s p f) := by
    unfold runEnded
    split
    · exact endRun_moves ..
    · exact Moves.refl _ _
  exact (modMx_moves ..).trans hrun

section
variable {s : State} {p : Fin 72} {k : Nat} {f : MxFly} (hf : (getMx s p).fly[k]? = some f) (hk : f.kind ≠ 0)
include hf

theorem instrComplete_waits (hport : (usesPort f && ((getMx s p).fly.take k).any usesPort) = true) : instrComplete s p k = s := by
  rw [instrComplete, hf]
  exact if_pos (.inr (by simpa using hport))

include hk

theorem instrComplete_eq (hport : (usesPort f && ((getMx s p).fly.take k).any usesPort) = false) :
    instrComplete s p k = match f.badEntry.orElse (fun _ => (endsRun (getMx s p) f).bind (runBad s p)) with
      | some e => faultEngine (flownMx s p k f) (.tile p .mx) 0x0303 f.done.tag f.done.pc f.done.t e 0 0
      | none => completeDone (flownMx s p k f) (.tile p .mx) f.done := by
  have hgo : ¬ (f.kind = 0 ∨ (usesPort f = true ∧ ((getMx s p).fly.take k).any usesPort = true)) := by
    simpa [hk] using hport
  rw [instrComplete, hf, mxEng_val]
  exact (if_neg hgo).trans rfl

/-- R107: an instruction completes. -/
theorem instrComplete_done (hport : (usesPort f && ((getMx s p).fly.take k).any usesPort) = false) (hbad : f.badEntry = none)
    (hrun : (endsRun (getMx s p) f).bind (runBad s p) = none) :
    instrComplete s p k = completeDone (flownMx s p k f) (.tile p .mx) f.done := by
  rw [instrComplete_eq hf hk hport, hbad, hrun]
  rfl

/-- R103: an instruction whose adder has read a poisoned entry faults. -/
theorem instrComplete_faults (hport : (usesPort f && ((getMx s p).fly.take k).any usesPort) = false)
    (hbad : (∃ i, f.badEntry = some i) ∨ ∃ r i, endsRun (getMx s p) f = some r ∧ runBad s p r = some i) :
    ∃ i, instrComplete s p k = faultEngine (flownMx s p k f) (.tile p .mx) 0x0303 f.done.tag f.done.pc f.done.t i 0 0 := by
  obtain ⟨i, hi⟩ : ∃ i, f.badEntry.orElse (fun _ => (endsRun (getMx s p) f).bind (runBad s p)) = some i := by
    rcases hbad with ⟨i, hi⟩ | ⟨r, i, hr, hi⟩
    · exact ⟨i, by rw [hi]; rfl⟩
    · cases hb : f.badEntry with
      | some j => exact ⟨j, rfl⟩
      | none => exact ⟨i, by rw [hr]; exact hi⟩
  exact ⟨i, by rw [instrComplete_eq hf hk hport, hi]⟩

end

/-- R107: a completion leaves the matrix engine as it was when its run had ended and the instruction was in flight no more. -/
theorem getMx_completeDone {s : State} (hs : Canon s) (p : Fin 72) (d : Done) :
    getMx (completeDone s (.tile p .mx) d) p = getMx s p := by
  obtain ⟨x, hx⟩ := (completeDone_shows hs p .mx d).1
  exact (congrArg Tile.mx hx).trans rfl

theorem getMx_flownMx (s : State) (p k : Nat) (f : MxFly) :
    getMx (flownMx s p k f) p = { getMx (runEnded s p f) p with fly := (getMx (runEnded s p f) p).fly.eraseIdx k } := getMx_modMx_same ..

/-- Settles O25: mx.drain ends its runs one after the other, and an entry has no wide partial left for a second; mx.flag writes registers
and completes; an instruction in flight is dropped, and completes or faults. -/
theorem matrixRunsAndFlags : Obligations.MatrixRunsAndFlags := by
  unfold Obligations.MatrixRunsAndFlags
  refine ⟨fun p s q => ?drain, fun p s q => ?flag, fun p k s f => ?complete⟩
  case drain =>
    intro w x rows met hs h
    refine ⟨fun hh => congrArg Host.Outcome.next (doDrain_held h hh), fun hh => ⟨fun hin => ?ends, fun r hr hcut => ?cuts⟩⟩
    case ends =>
      obtain ⟨hgone, hd, hrest⟩ := drain_shows (q := q) hs _
      refine ⟨_, congrArg Host.Outcome.next (doDrain_ends h hh hin), hgone, fun r hr hsp i hi v hv => ?_, fun k hk => hd.stays k ?_, hrest⟩
      · have hk : ∃ r' ∈ met, RunEntries r' (64 * r.base + i) := ⟨r, hr, hsp, by omega, by omega⟩
        exact ⟨by rw [hd.acc _ hk, drainedAcc, hv], hd.wide _ hk⟩
      · rintro ⟨r, hr, -, hlo, hhi⟩
        have := hk r hr
        omega
    case cuts =>
      have hfault := faultable_of_mxReady h
      refine ⟨_, congrArg Host.Outcome.next (doDrain_cuts h hh hr hcut), faultEngine_faultsWith hfault .., ?_⟩
      exact congrArg MxState.runs (getMx_faultEngine (by decide) hfault _ _ _ _ _ _ _ hs p)
  case flag =>
    intro w e hs h hv
    refine ⟨fun hf => congrArg Host.Outcome.next (doFlag_waits h hf), fun hf => ⟨_, congrArg Host.Outcome.next (doFlag_reads h hf), ?_⟩⟩
    have hret := retires_of_regs hs (flagsRead_moves s p w) (regsBut_flagsRead s p w) (fun c => ?home) e q hv
    have htrace : RegsBut (traceKeys e) (flagsRead s p w) (finishFront (flagsRead s p w) e q) :=
      (finishFront_retires ((flagsRead_moves s p w).canon hs) e q hv).regs
    · refine ⟨(htrace _ (regKey_not_trace (Nat.le_refl 3) _ _ e)).trans (getG_flagsRead s p w), fun f hf => ?_, hret⟩
      exact (getF_of_regsBut htrace (mxFlag_not_trace e hf p)).trans (getF_flagsRead s p w f hf)
    case home => exact mxFlag_not_home p w c
  case complete =>
    intro x e port hs hf hk
    refine ⟨fun hport => congrArg Host.Outcome.next (instrComplete_waits hf hport),
      fun hport => ⟨fun hrun hbad => ?plain, fun r hlast hfind hsp hbad hgood => ?run, fun hbad hst => ?faults⟩⟩
    case plain =>
      have hend : endsRun x f = none := by rw [endsRun, hrun]; rfl
      have hended : runEnded s p f = s := by rw [runEnded, show endsRun (getMx s p) f = none from hend]
      have hflown : flownMx s p k f = modMx s p (fun x => { x with fly := x.fly.eraseIdx k }) := by rw [flownMx, hended]
      have hm := flownMx_moves s p k f
      have hmx : getMx (completeDone (flownMx s p k f) e f.done) p = { x with fly := x.fly.eraseIdx k } := by
        rw [getMx_completeDone (hm.canon hs), hflown, getMx_modMx_same]
      have hpend : (getTile (flownMx s p k f) p).pend = (getTile s p).pend := by
        rw [hflown]
        exact (congrArg Tile.pend (getTile_setTile_same s p _)).trans rfl
      refine ⟨_, congrArg Host.Outcome.next (instrComplete_done hf hk hport hbad (by rw [hend]; rfl)), by rw [hmx], by rw [hmx], by rw [hmx],
        fun i => by rw [getAcc, hmx, getAcc], completed_shows hs hm ?_ hpend .mx f.done⟩
      rw [hflown]
      exact tilesBut_modMx s p _
    case run =>
      have hend : endsRun x f = some r := by rw [endsRun, hlast]; exact hfind
      have hended : runEnded s p f = endRun s p r := by rw [runEnded, show endsRun (getMx s p) f = some r from hend]
      have hmx := (getMx_completeDone ((flownMx_moves s p k f).canon hs) p f.done).trans (getMx_flownMx s p k f)
      rw [hended] at hmx
      have hd : Drains (RunEntries r) s (completeDone (flownMx s p k f) e f.done) p :=
        (drains_endRun s p r).of_getMx (by rw [hmx]) (by rw [hmx])
      refine ⟨_, congrArg Host.Outcome.next (instrComplete_done hf hk hport hbad (by rw [hend]; exact hgood)), fun hin => ?_,
        fun i hi v hv => ?_, fun i hi => (hd.stays i ?_).1⟩
      · rw [hmx, endRun_runs] at hin
        simpa using (List.mem_filter.1 hin).2
      · have hi : RunEntries r (64 * r.base + i) := ⟨hsp, by omega, by omega⟩
        exact ⟨by rw [hd.acc _ hi, drainedAcc, hv], hd.wide _ hi⟩
      · rintro ⟨-, hlo, hhi⟩
        omega
    case faults =>
      obtain ⟨i, hi⟩ := instrComplete_faults hf hk hport hbad
      have hm := flownMx_moves s p k f
      have hfault : Faultable (flownMx s p k f) e := by
        rw [Faultable, getEng_of_moves hm (by decide)]
        exact hst.elim .inl fun h => .inr (.inl h)
      exact ⟨_, congrArg Host.Outcome.next hi, faultsWith_of_tiles hm (faultEngine_faultsWith hfault ..)⟩

end Sys2Proof.Proofs

/-! PROOFS. Packed elements (R24, R28): bytes and bits of a number, an element read back from its row, a row cut at whole bytes, and the
range of the codes that a conversion gives (R35 to R39). -/
namespace Sys2Proof.Proofs
open Sys2Proof Sys2Proof.Machine Sys2Proof.Laws

/-! Bytes of a number. -/

@[simp] theorem length_bytesOf : ∀ (n v : Nat), (bytesOf n v).length = n
  | 0, _ => rfl
  | n + 1, v => by rw [bytesOf, List.length_cons, length_bytesOf n]

theorem getElem?_bytesOf : ∀ (n v j : Nat), j < n → (bytesOf n v)[j]? = some (BitVec.ofNat 8 (v / 256 ^ j))
  | n + 1, v, 0, _ => by simp [bytesOf]
  | n + 1, v, j + 1, h => by
    rw [bytesOf, List.getElem?_cons_succ, getElem?_bytesOf n _ j (by omega), Nat.div_div_eq_div_mul, Nat.pow_succ, Nat.mul_comm]

/-- A bit of a number is one of the byte that holds it. -/
theorem getLsbD_bytesOf (n v : Nat) {j b : Nat} (hj : j < n) (hb : b < 8) :
    (((bytesOf n v)[j]?).getD 0).getLsbD b = v.testBit (8 * j + b) := by
  rw [getElem?_bytesOf n v j hj, Option.getD_some, BitVec.getLsbD_ofNat, show (256 : Nat) = 2 ^ 8 from rfl, ← Nat.pow_mul,
    Nat.testBit_div_two_pow]
  simp [hb, Nat.add_comm]

theorem testBit_ofBytes : ∀ (bs : List Byte) (i : Nat), (ofBytes bs).testBit i = ((bs[i / 8]?).getD 0).getLsbD (i % 8)
  | [], i => by simp [ofBytes]
  | c :: bs, i => by
    rw [ofBytes, Nat.add_comm, show (256 : Nat) = 2 ^ 8 from rfl, Nat.testBit_two_pow_mul_add _ c.isLt]
    split
    · next h => rw [Nat.div_eq_of_lt h, Nat.mod_eq_of_lt h]; rfl
    · next h =>
      obtain ⟨j, rfl⟩ := Nat.exists_eq_add_of_le' (Nat.le_of_not_lt h)
      rw [testBit_ofBytes bs, Nat.add_sub_cancel, Nat.add_div_right _ (by decide), Nat.add_mod_right, List.getElem?_cons_succ]

theorem ofBytes_bytesOf (n v : Nat) : ofBytes (bytesOf n v) = v % 2 ^ (8 * n) := by
  refine Nat.eq_of_testBit_eq fun i => ?_
  rw [testBit_ofBytes, Nat.testBit_mod_two_pow]
  by_cases hi : i / 8 < n
  · rw [getLsbD_bytesOf n v hi (Nat.mod_lt _ (by decide)), Nat.div_add_mod]
    simp [show i < 8 * n by omega]
  · rw [List.getElem?_eq_none (by simpa using hi)]
    simp [show ¬ i < 8 * n by omega]

/-! Rows of packed elements. -/

theorem fmtWidth_cases (f : Fmt) : fmtWidth f = 4 ∨ fmtWidth f = 6 ∨ fmtWidth f = 8 ∨ fmtWidth f = 16 ∨ fmtWidth f = 32 ∨ fmtWidth f = 64 := by
  cases f <;> simp [fmtWidth]

theorem fmtWidth_pos (f : Fmt) : 0 < fmtWidth f := by
  have := fmtWidth_cases f
  omega

theorem length_packElems (f : Fmt) (xs : List Nat) : (packElems f xs).length = elemBytes f xs.length := length_bytesOf ..

/-- Elements of w bits one after the other. -/
theorem testBit_packed {w : Nat} (hw : 0 < w) : ∀ (xs : List Nat) (i : Nat),
    (xs.foldr (fun x acc => x % 2 ^ w + 2 ^ w * acc) 0).testBit i = ((xs[i / w]?).getD 0).testBit (i % w)
  | [], i => by simp
  | x :: xs, i => by
    rw [List.foldr_cons, Nat.add_comm, Nat.testBit_two_pow_mul_add _ (Nat.mod_lt _ (Nat.two_pow_pos w))]
    split
    · next h =>
      rw [Nat.div_eq_of_lt h, Nat.mod_eq_of_lt h, Nat.testBit_mod_two_pow]
      simp [h]
    · next h =>
      obtain ⟨j, rfl⟩ := Nat.exists_eq_add_of_le' (Nat.le_of_not_lt h)
      rw [testBit_packed hw xs, Nat.add_sub_cancel, Nat.add_div_right _ hw, Nat.add_mod_right, List.getElem?_cons_succ]

/-- R28: a bit of a row is one of the element that holds it. -/
theorem getLsbD_packElems (f : Fmt) (xs : List Nat) {j b : Nat} (hj : j < elemBytes f xs.length) (hb : b < 8) :
    (((packElems f xs)[j]?).getD 0).getLsbD b = ((xs[(8 * j + b) / fmtWidth f]?).getD 0).testBit ((8 * j + b) % fmtWidth f) := by
  rw [packElems, getLsbD_bytesOf _ _ hj hb, testBit_packed (fmtWidth_pos f)]

/-- R28: a bit of an element is one of the byte that holds it. -/
theorem testBit_elemAt (f : Fmt) (bs : List Byte) (i b : Nat) : (elemAt f bs i).testBit b =
    (decide (b < fmtWidth f) && ((bs[(fmtWidth f * i + b) / 8]?).getD 0).getLsbD ((fmtWidth f * i + b) % 8)) := by
  unfold elemAt
  extract_lets w
  have hw : w = 4 ∨ w = 6 ∨ w = 8 ∨ w = 16 ∨ w = 32 ∨ w = 64 := fmtWidth_cases f
  show _ = (decide (b < w) && ((bs[(w * i + b) / 8]?).getD 0).getLsbD ((w * i + b) % 8))
  split
  · next h6 =>
    rw [bits, Nat.testBit_mod_two_pow, Nat.testBit_div_two_pow, testBit_ofBytes, h6]
    by_cases hb : b < 6
    · rw [List.getElem?_take_of_lt (by omega), List.getElem?_drop, show 3 * (i / 4) + (b + 6 * (i % 4)) / 8 = (6 * i + b) / 8 by omega,
        show (b + 6 * (i % 4)) % 8 = (6 * i + b) % 8 by omega]
    · simp [hb]
  · split
    · next h4 =>
      rw [bits, Nat.testBit_mod_two_pow, Nat.testBit_div_two_pow, testBit_ofBytes, h4]
      by_cases hb : b < 4
      · rw [List.getElem?_take_of_lt (by omega), List.getElem?_drop, show i / 2 + (b + 4 * (i % 2)) / 8 = (4 * i + b) / 8 by omega,
          show (b + 4 * (i % 2)) % 8 = (4 * i + b) % 8 by omega]
      · simp [hb]
    · next h6 h4 =>
      obtain ⟨v, hv⟩ : ∃ v, w = 8 * v := ⟨w / 8, by omega⟩
      rw [testBit_ofBytes, hv, Nat.mul_div_cancel_left _ (by decide), Nat.mul_assoc, Nat.mul_add_div (by decide), Nat.mul_add_mod]
      by_cases hb : b < 8 * v
      · rw [List.getElem?_take_of_lt (by omega), List.getElem?_drop, Nat.mul_comm i v]
        simp [hb]
      · rw [List.getElem?_eq_none (by rw [List.length_take]; omega)]
        simp [hb]

theorem le_elemBytes (f : Fmt) (n : Nat) : n * fmtWidth f ≤ 8 * elemBytes f n := by
  unfold elemBytes
  omega

/-- R28: an element that is packed is read back, cut to its width. -/
theorem elemAt_packElems (f : Fmt) (xs : List Nat) {i : Nat} (hi : i < xs.length) :
    elemAt f (packElems f xs) i = xs[i] % 2 ^ fmtWidth f := by
  refine Nat.eq_of_testBit_eq fun b => ?_
  rw [testBit_elemAt, Nat.testBit_mod_two_pow]
  by_cases hb : b < fmtWidth f
  · have hin : fmtWidth f * i + b < xs.length * fmtWidth f :=
      calc fmtWidth f * i + b < fmtWidth f * (i + 1) := by rw [Nat.mul_add]; omega
        _ ≤ fmtWidth f * xs.length := Nat.mul_le_mul_left _ hi
        _ = xs.length * fmtWidth f := Nat.mul_comm _ _
    have hlt : (fmtWidth f * i + b) / 8 < elemBytes f xs.length := by
      have := le_elemBytes f xs.length
      omega
    rw [getLsbD_packElems f xs hlt (Nat.mod_lt _ (by decide)), Nat.div_add_mod, Nat.mul_add_div (fmtWidth_pos f), Nat.mul_add_mod,
      Nat.div_eq_of_lt hb, Nat.mod_eq_of_lt hb, Nat.add_zero, List.getElem?_eq_getElem hi, Option.getD_some]
  · simp [hb]

/-- R28: elements that begin on a whole byte and end on one, or end the row, are packed as the row's bytes from there on. -/
theorem getElem?_packElems_slice (f : Fmt) (xs : List Nat) {m c : Nat} (hm : m * fmtWidth f % 8 = 0)
    (hc : c * fmtWidth f % 8 = 0 ∨ m + c = xs.length) (hle : m + c ≤ xs.length) {j : Nat} (hj : j < elemBytes f c) :
    ((packElems f xs)[elemBytes f m + j]?).getD 0 = ((packElems f ((xs.drop m).take c))[j]?).getD 0 := by
  have hlen : ((xs.drop m).take c).length = c := by
    rw [List.length_take, List.length_drop]
    omega
  have hbm : 8 * elemBytes f m = m * fmtWidth f := by
    unfold elemBytes
    omega
  have hsum : elemBytes f m + j < elemBytes f xs.length := by
    have hmul : (m + c) * fmtWidth f ≤ xs.length * fmtWidth f := Nat.mul_le_mul_right _ hle
    rw [Nat.add_mul] at hmul
    unfold elemBytes at hj ⊢
    omega
  refine BitVec.eq_of_getLsbD_eq fun b hb => ?_
  rw [getLsbD_packElems f xs hsum hb, getLsbD_packElems f _ (by rwa [hlen]) hb, Nat.mul_add, hbm, Nat.add_assoc,
    Nat.mul_add_mod', Nat.add_comm (m * _), Nat.add_mul_div_right _ _ (fmtWidth_pos f), Nat.add_comm _ m]
  by_cases hin : (8 * j + b) / fmtWidth f < c
  · rw [List.getElem?_take_of_lt hin, List.getElem?_drop]
  · have hend : m + c = xs.length := by
      refine hc.resolve_left fun hw => hin ?_
      rw [Nat.div_lt_iff_lt_mul (fmtWidth_pos f)]
      unfold elemBytes at hj
      omega
    rw [List.getElem?_eq_none (by omega), List.getElem?_eq_none (by rw [hlen]; omega)]

/-! The range of a code. -/

theorem overflowCode_lt (f : Fmt) (neg sat : Bool) : overflowCode f neg sat < 2 ^ fmtWidth f := by
  cases f <;> cases neg <;> cases sat <;> decide

theorem encodeInt_lt (f : Fmt) (v : FV) (r : Option Nat) : (encodeInt f v r).1 < 2 ^ fmtWidth f := by
  unfold encodeInt
  split
  · exact Nat.two_pow_pos _
  · exact overflowCode_lt ..
  · extract_lets n w lim
    split
    · exact overflowCode_lt ..
    · show (_ % ((2 ^ w : Nat) : Int)).toNat < 2 ^ w
      have hpos : (0 : Int) < ((2 ^ w : Nat) : Int) := Int.ofNat_lt.2 (Nat.two_pow_pos w)
      exact (Int.toNat_lt' (Nat.two_pow_pos w)).2 (Int.emod_lt_of_pos _ hpos)

theorem encodeE8M0_lt (v : FV) : (encodeE8M0 v).1 < 2 ^ 8 := by
  unfold encodeE8M0
  split
  · decide
  · decide
  · decide
  · extract_lets k
    split
    · decide
    · split
      · decide
      · show k.toNat < 2 ^ 8
        omega

/-- A format with a sign, an exponent and a mantissa. -/
def HasSign (f : Fmt) : Prop := fmtIsInt f = false ∧ f ≠ .e8m0

theorem HasSign.layout {f : Fmt} (h : HasSign f) : fmtWidth f = (fmtEMB f).1 + (fmtEMB f).2.1 + 1
    ∧ fmtMaxCode f < 2 ^ ((fmtEMB f).1 + (fmtEMB f).2.1) ∧ ∀ n, fmtNan f = some n → n < 2 ^ fmtWidth f := by
  obtain ⟨hint, he⟩ := h
  cases f <;> simp_all [fmtIsInt, fmtWidth, fmtEMB, fmtMaxCode, fmtNan]

/-- R39, R40: the code of a NaN and of an infinity. -/
theorem encodeNum_nan (f : Fmt) (r : Option Nat) (sat : Bool) : (encodeNum f .nan r sat).1 = (fmtNan f).getD 0 := by
  cases f <;> rfl

theorem encodeNum_inf {f : Fmt} (h : HasSign f) (neg : Bool) (r : Option Nat) (sat : Bool) :
    (encodeNum f (.inf neg) r sat).1 = overflowCode f neg sat := by
  obtain ⟨hint, he⟩ := h
  unfold encodeNum
  rw [if_neg (by simp [hint])]
  split <;> simp_all

/-- R35: without flushing, the mantissa of a value below the smallest normal one fits its field. -/
theorem lt_two_pow_of_subnormal {f : Fmt} {ew mw bias : Nat} (hemb : fmtEMB f = (ew, mw, bias)) (hflush : ¬ fmtFlushes f = true) {l : Int} {n : Nat}
    (hn : n ≠ 0) (h : flog2 n (spacingExp f l) < 1 - bias) : n < 2 ^ mw := by
  rw [← Nat.log2_lt hn]
  simp only [flog2, spacingExp, hemb, if_neg hflush] at h
  omega

/-- R35 to R38: the code of a finite value is an overflow's, or its sign and a magnitude within the exponent and the mantissa. -/
theorem encodeNum_fin {f : Fmt} (h : HasSign f) (neg : Bool) (m : Nat) (e : Int) (r : Option Nat) (sat : Bool) :
    (encodeNum f (.fin neg m e) r sat).1 = overflowCode f neg sat ∨ ∃ k, k < 2 ^ ((fmtEMB f).1 + (fmtEMB f).2.1)
      ∧ (encodeNum f (.fin neg m e) r sat).1 = (if neg then 2 ^ ((fmtEMB f).1 + (fmtEMB f).2.1) else 0) + k := by
  obtain ⟨-, hmax, -⟩ := h.layout
  obtain ⟨hint, he⟩ := h
  obtain ⟨⟨ew, mw, bias⟩, hemb⟩ : ∃ x, fmtEMB f = x := ⟨_, rfl⟩
  have hzero : 0 < 2 ^ (ew + mw) := Nat.two_pow_pos _
  simp only [hemb] at hmax ⊢
  unfold encodeNum
  rw [if_neg (by simp [hint])]
  split
  · exact absurd rfl he
  · contradiction
  · contradiction
  next hv =>
    cases hv
    rw [hemb]
    dsimp only
    split
    · exact .inr ⟨0, hzero, rfl⟩
    next hm =>
      split
      · exact .inr ⟨0, hzero, rfl⟩
      next hn =>
        split
        next hsub =>
          split
          · exact .inr ⟨0, hzero, rfl⟩
          next hflush =>
            have hlt := lt_two_pow_of_subnormal hemb hflush hn hsub
            exact .inr ⟨_, hlt.trans_le (Nat.pow_le_pow_right (by decide) (Nat.le_add_left ..)), rfl⟩
        next hnormal =>
          split
          · exact .inl rfl
          next hle => exact .inr ⟨_, (Nat.le_of_not_lt hle).trans_lt hmax, rfl⟩

/-- R24, R35 to R40: the code of a converted number fits its format. -/
theorem encodeNum_lt (f : Fmt) (v : FV) (r : Option Nat) (sat : Bool) : (encodeNum f v r sat).1 < 2 ^ fmtWidth f := by
  by_cases hint : fmtIsInt f = true
  · unfold encodeNum
    rw [if_pos hint]
    exact encodeInt_lt f v r
  · by_cases he : f = .e8m0
    · subst he
      exact encodeE8M0_lt v
    · have h : HasSign f := ⟨by simpa using hint, he⟩
      obtain ⟨hw, -, hnan⟩ := h.layout
      cases v with
      | nan =>
        rw [encodeNum_nan]
        cases hn : fmtNan f with
        | none => exact Nat.two_pow_pos _
        | some n => exact hnan n hn
      | inf neg =>
        rw [encodeNum_inf h]
        exact overflowCode_lt ..
      | fin neg m e =>
        obtain hover | ⟨k, hk, hcode⟩ := encodeNum_fin h neg m e r sat
        · rw [hover]
          exact overflowCode_lt ..
        · rw [hcode, hw, Nat.pow_succ]
          split <;> omega

end Sys2Proof.Proofs

/-! PROOFS. A write of good bytes to a tile store (R122, R127, R470): the bytes it stores, the poison it leaves, and what it keeps of the tile. -/
namespace Sys2Proof.Proofs
open Sys2Proof Sys2Proof.Machine Sys2Proof.Laws

theorem tsAddr_add (p a i : Nat) : tsAddr p (a + i) = tsAddr p a + i := (Nat.add_assoc ..).symm

/-! What a write reads back. -/

@[simp] theorem length_good (bs : List Byte) : (good bs).length = bs.length := List.length_map ..

/-- Before its bytes are stored, a write tears digests and shadows regions. -/
def storeNoted (s : State) (p a n : Nat) : State := tearDigest (cvShadow (cvShadow s p 0 a n) p 1 a n) p a n

theorem storeNoted_moves (s : State) (p a n : Nat) : Moves 0x4000088 s (storeNoted s p a n) :=
  ((tearDigest_moves ..).le (by decide)).trans ((cvShadow_moves ..).next (by decide) ((cvShadow_moves s p 0 a n).le (by decide)))

theorem isBad_of_moves {m : Nat} {s t : State} (h : Moves m s t) (hm : m.testBit 5 = false) (a : Nat) : isBad t a = isBad s a := by
  have hs : s.poison = t.poison := h.same .poison hm
  rw [isBad, isBad, hs]

/-- R127: good bytes bring no poison. -/
theorem wordPoison_good {s : State} {a : Nat} {bs : List Byte} {w : Nat} (h : wordPoison s a (good bs) w = true) :
    mapGet (fun _ => false) s.poison w = true := by
  have hnew : ∀ n m, (((good bs).drop n).take m).any (·.bad) = false := fun n m => by
    rw [List.any_eq_false]
    intro x hx
    obtain ⟨b, -, rfl⟩ := List.mem_map.1 (List.mem_of_mem_drop (List.mem_of_mem_take hx))
    exact Bool.false_ne_true
  unfold wordPoison at h
  simp only [hnew, Bool.false_or] at h
  split at h
  · cases h
  · exact h

/-- R127: a write of good bytes poisons no word. -/
theorem isBad_writeBytes_good {s : State} {a : Nat} {bs : List Byte} {x : Nat} (h : isBad (writeBytes s a (good bs)) x = true) :
    isBad s x = true := by
  have hfold := mapGet_foldl_mapSet (fun _ => false) 0 (wordPoison s a (good bs)) (x / 16) (wordsOf a (good bs).length) s.poison
  simp only [Nat.zero_add, Nat.zero_le, true_and, Nat.sub_zero] at hfold
  unfold writeBytes at h
  split at h
  · exact h
  · rw [isBad] at h
    replace h := hfold.symm.trans h
    split at h
    · exact wordPoison_good h
    · exact h

section
variable (s : State) (p a : Nat) (bs : List Byte)

/-- R127: a write stores its bytes, each at its address. -/
theorem memByte_tileWrite_in {i : Nat} (hi : i < bs.length) : memByte (tileWrite s p a (good bs)) (tsAddr p (a + i)) = bs[i] := by
  rw [tsAddr_add, tileWrite, memByte_writeBytes_same _ _ _ i (by simpa using hi)]
  simp [good]

theorem memByte_tileWrite_out {x : Nat} (h : x < tsAddr p a ∨ tsAddr p a + bs.length ≤ x) :
    memByte (tileWrite s p a (good bs)) x = memByte s x := by
  rw [tileWrite, memByte_writeBytes_other _ _ _ _ (by simpa using h)]
  exact memByte_of_moves (storeNoted_moves s p a (good bs).length) (by decide) x

theorem isBad_tileWrite {x : Nat} (h : isBad (tileWrite s p a (good bs)) x = true) : isBad s x = true := by
  rw [← isBad_of_moves (storeNoted_moves s p a (good bs).length) (by decide)]
  exact isBad_writeBytes_good h

/-! What a write keeps of its tile. -/

theorem getTile_cvShadow (u n : Nat) : (getVx (cvShadow s p u a n) p = getVx s p) ∧ TilesBut [p] s (cvShadow s p u a n) := by
  unfold cvShadow
  extract_lets t st lo ws
  split
  · exact ⟨(congrArg Tile.vx (getTile_setTile_same s p _)).trans rfl, fun r hr => getTile_setTile_other s _ (by simpa using hr)⟩
  · exact ⟨rfl, fun _ _ => rfl⟩

theorem regsBut_tearDigest (n : Nat) :
    RegsBut [fldKey 2 TL_DIGEST_ST_TORN p 0, fldKey 1 MG_DIGEST_STATUS_TORN 0 0] s (tearDigest s p a n) := by
  unfold tearDigest
  split
  · exact regs_trans (t := setF s TL_DIGEST_ST_TORN p 1) (regs_mono (regsBut_wrF s 2 TL_DIGEST_ST_TORN p 0 1) (by simp))
      (regs_mono (regsBut_wrF _ 1 MG_DIGEST_STATUS_TORN 0 0 1) (by simp))
  · exact regs_refl _ s

theorem tiles_tileWrite (bs : List PByte) : (tileWrite s p a bs).tiles = (cvShadow (cvShadow s p 0 a bs.length) p 1 a bs.length).tiles :=
  ((writeBytes_moves ..).same .tiles (by decide)).symm.trans ((tearDigest_moves ..).same .tiles (by decide)).symm

/-- R470, R484: a write changes nothing of its tile's vector engine and nothing of another tile. -/
theorem getVx_tileWrite (bs : List PByte) : getVx (tileWrite s p a bs) p = getVx s p := by
  rw [getVx, getTile, tiles_tileWrite, ← getTile, ← getVx, (getTile_cvShadow _ p a 1 _).1, (getTile_cvShadow s p a 0 _).1]

theorem tilesBut_tileWrite (bs : List PByte) : TilesBut [p] s (tileWrite s p a bs) :=
  tilesBut_trans (tilesBut_trans (getTile_cvShadow s p a 0 _).2 (getTile_cvShadow _ p a 1 _).2) (tilesBut_of_tiles _ (tiles_tileWrite s p a bs))

end

/-- R470: a write to a tile store writes no register of a vector engine's page. -/
theorem getF_tileWrite (s : State) (p : Fin 72) (a : Nat) (bs : List PByte) {f : Fld} (hf : f.blk = 4) (i : Nat) :
    getF (tileWrite s p a bs) f i = getF s f i := by
  have hregs : (tileWrite s p a bs).regs = (tearDigest (cvShadow (cvShadow s p 0 a bs.length) p 1 a bs.length) p a bs.length).regs :=
    ((writeBytes_moves ..).same .regs (by decide)).symm
  have hshadow : (cvShadow (cvShadow s p 0 a bs.length) p 1 a bs.length).regs = s.regs :=
    ((cvShadow_moves ..).same .regs (by decide)).symm.trans ((cvShadow_moves ..).same .regs (by decide)).symm
  refine getF_of_regsBut (regs_trans (regsBut_of_regs _ hshadow) (regs_trans (regsBut_tearDigest _ p a bs.length) (regsBut_of_regs _ hregs))) ?_
  have := p.isLt
  simp only [List.mem_cons, List.not_mem_nil, or_false, hf, fldKey, regKey, TL_DIGEST_ST_TORN, MG_DIGEST_STATUS_TORN]
  omega

end Sys2Proof.Proofs

/-! PROOFS. What vx.opt is to leave behind (R182, R183), byte by byte, and how far a run of it has come: a write that continues one of its
arrays brings it on. -/
namespace Sys2Proof.Proofs
open Sys2Proof Sys2Proof.Machine Sys2Proof.Laws

/-! The values of R183 from a state before the instruction. -/

section
variable (s : State) (p : Fin 72) (w : IWord) (rp : Nat)

/-- Where an array starts: the copy begins with a row of its format. -/
def optStart (k : Nat) : Nat := if k = 4 then rowStart (fmtC (ifld w 69 4)) (optWord s p rp k) else optWord s p rp k

/-- The arrays of the instruction. -/
def optSpans : List (Nat × Nat × Nat) := optArrays w (optWord s p rp 6)

def optOld (k i : Nat) : Word := BitVec.ofNat 32 (readNat s (tsAddr p (optWord s p rp k + 4 * i)) 4)

def optGrad (i : Nat) : Word :=
  if ibit w 64 then widenElem .bf16 (readNat s (tsAddr p (optWord s p rp 3 + 2 * i)) 2) none else optOld s p rp 3 i

/-- The new values of element i, and its gradient as scaled. -/
def optNew (i : Nat) : Word × Word × Word × Word :=
  optElem (getF s VX_SFU_REV_REV p) (ifld w 73 2) (optF s p rp) (optOld s p rp 0 i) (optOld s p rp 1 i) (optOld s p rp 2 i) (optGrad s p w rp i)

/-- The elements of a scale block. -/
def optScaleLen : Nat := if ibit w 65 then 32 else 16

/-- The scale of block b of the copy. -/
def optScale (b : Nat) : Nat × Int :=
  if ibit w 66 then deriveScale (fmtC (ifld w 69 4)) ((List.range (min (optScaleLen w) (optWord s p rp 6 - optScaleLen w * b))).map
    (fun j => f32 (optNew s p w rp (optScaleLen w * b + j)).1)) else (0, 0)

/-- The random bits by which element i of the copy is rounded. -/
def optRound (i : Nat) : Option Nat :=
  if ibit w 68 then some (rng16 (BitVec.ofNat 64 (getF s VX_RNG_KEY_KEY p)) 2
    ⟨optWord s p rp 7, 0, optWord s p rp 18 % 65536, optWord s p rp 18 / 65536, optWord s p rp 19⟩ i) else none

/-- The code of element i of the copy. -/
def optCode (i : Nat) : Nat :=
  if fmtC (ifld w 69 4) = .fp32 then (optNew s p w rp i).1.toNat
  else (encodeNum (fmtC (ifld w 69 4)) (fvScale (optScale s p w rp (i / optScaleLen w)).2 (f32 (optNew s p w rp i).1)) (optRound s p w rp i)
    (ibit w 67)).1

def optCodes : List Nat := (List.range (optWord s p rp 6)).map (optCode s p w rp)

/-- The new word of element i of array W, M or V. -/
def optValue (k i : Nat) : Word :=
  if k = 0 then (optNew s p w rp i).1 else if k = 1 then (optNew s p w rp i).2.1 else (optNew s p w rp i).2.2.1

/-- Byte o of array k, once the instruction has written it; it only reads the gradient. -/
def optByte (k o : Nat) : Byte :=
  if k = 3 then memByte s (tsAddr p (optStart s p w rp k + o))
  else if k = 4 then ((packElems (fmtC (ifld w 69 4)) (optCodes s p w rp))[o]?).getD 0
  else if k = 5 then BitVec.ofNat 8 (optScale s p w rp o).1
  else ((bytesOf 4 (optValue s p w rp k (o / 4)).toNat)[o % 4]?).getD 0

end

/-! What is kept while it runs. -/

/-- From s to u, vx.opt has kept the vector engine of its tile, the other tiles, what its values come from, and NANG where it was set,
and has poisoned no word. -/
structure OptKept (p : Fin 72) (s u : State) : Prop where
  moves : Moves 0x40000b8 s u
  tiles : TilesBut [p.val] s u
  vx : getVx u p = getVx s p
  rev : getF u VX_SFU_REV_REV p = getF s VX_SFU_REV_REV p
  key : getF u VX_RNG_KEY_KEY p = getF s VX_RNG_KEY_KEY p
  nang : getF s VX_FLAGS_NANG p = 1 → getF u VX_FLAGS_NANG p = 1
  bad : ∀ a, isBad u a = true → isBad s a = true

section
variable {p : Fin 72} {s u v : State}

theorem OptKept.refl (p : Fin 72) (s : State) : OptKept p s s :=
  ⟨Moves.refl _ _, fun _ _ => rfl, rfl, rfl, rfl, id, fun _ => id⟩

theorem OptKept.trans (h : OptKept p s u) (k : OptKept p u v) : OptKept p s v :=
  ⟨k.moves.trans h.moves, tilesBut_trans h.tiles k.tiles, k.vx.trans h.vx, k.rev.trans h.rev, k.key.trans h.key, k.nang ∘ h.nang,
    fun a => h.bad a ∘ k.bad a⟩

theorem optKept_tileWrite (p : Fin 72) (u : State) (a : Nat) (bs : List Byte) : OptKept p u (tileWrite u p a (good bs)) where
  moves := tileWrite_moves ..
  tiles := tilesBut_tileWrite u p a _
  vx := getVx_tileWrite u p a _
  rev := getF_tileWrite u p a _ rfl p
  key := getF_tileWrite u p a _ rfl p
  nang := (getF_tileWrite u p a _ rfl p).trans
  bad := fun _ => isBad_tileWrite u p a bs

/-- A write of registers that leaves the unit's revision and its key. -/
theorem optKept_of_regs (hm : Moves 0x8 u v) (hrev : getF v VX_SFU_REV_REV p = getF u VX_SFU_REV_REV p)
    (hkey : getF v VX_RNG_KEY_KEY p = getF u VX_RNG_KEY_KEY p) (hnang : getF u VX_FLAGS_NANG p = 1 → getF v VX_FLAGS_NANG p = 1) :
    OptKept p u v where
  moves := hm.le (by decide)
  tiles := tilesBut_of_tiles _ (hm.same .tiles (by decide)).symm
  vx := congrArg Tile.vx (getTile_of_moves hm (by decide) p)
  rev := hrev
  key := hkey
  nang := hnang
  bad := fun a h => (isBad_of_moves hm (by decide) a).symm.trans h

end

/-! How far its arrays are written. -/

/-- Array k of the instruction is new up to byte `e k` and old from there on, and no byte outside the arrays has changed. -/
structure OptBytes (s : State) (p : Fin 72) (w : IWord) (rp : Nat) (e : Nat → Nat) (u : State) : Prop where
  inside : ∀ x ∈ optSpans s p w rp, ∀ o < x.2.1, memByte u (tsAddr p (optStart s p w rp x.1 + o))
    = if o < e x.1 then optByte s p w rp x.1 o else memByte s (tsAddr p (optStart s p w rp x.1 + o))
  outside : BytesBut ((optSpans s p w rp).map (fun x => (tsAddr p (optStart s p w rp x.1), x.2.1))) s u

/-- The arrays lie apart. -/
def OptApart (s : State) (p : Fin 72) (w : IWord) (rp : Nat) : Prop :=
  (optSpans s p w rp).Pairwise (fun x y => optStart s p w rp x.1 + x.2.1 ≤ optStart s p w rp y.1 ∨ optStart s p w rp y.1 + y.2.1 ≤ optStart s p w rp x.1)

section
variable {s : State} {p : Fin 72} {w : IWord} {rp : Nat}

theorem OptApart.apart (h : OptApart s p w rp) {x y : Nat × Nat × Nat} (hx : x ∈ optSpans s p w rp) (hy : y ∈ optSpans s p w rp) (hne : x.1 ≠ y.1) :
    optStart s p w rp x.1 + x.2.1 ≤ optStart s p w rp y.1 ∨ optStart s p w rp y.1 + y.2.1 ≤ optStart s p w rp x.1 :=
  @List.Pairwise.forall _ _ _ ⟨fun _ _ => Or.symm⟩ h _ hx _ hy fun h => hne (by rw [h])

section
variable {u : State} {e : Nat → Nat} (h : OptBytes s p w rp e u)
include h

theorem OptBytes.congr {e' : Nat → Nat} (he : ∀ x ∈ optSpans s p w rp, e x.1 = e' x.1) : OptBytes s p w rp e' u :=
  ⟨fun x hx o ho => by rw [h.inside x hx o ho, he x hx], h.outside⟩

theorem OptBytes.of_mem {v : State} (hm : ∀ a, memByte v a = memByte u a) : OptBytes s p w rp e v :=
  ⟨fun x hx o ho => (hm _).trans (h.inside x hx o ho), fun a ha => (hm a).trans (h.outside a ha)⟩

/-- What the instruction has not reached it reads as it was. -/
theorem OptBytes.readNat_old {x : Nat × Nat × Nat} (hx : x ∈ optSpans s p w rp) {o c : Nat} (ho : e x.1 ≤ o) (hc : o + c ≤ x.2.1) :
    readNat u (tsAddr p (optStart s p w rp x.1 + o)) c = readNat s (tsAddr p (optStart s p w rp x.1 + o)) c := by
  refine congrArg ofBytes ?_
  simp only [readBytes, List.map_map]
  refine List.map_congr_left fun i hi => ?_
  have hi : i < c := List.mem_range.1 hi
  show memByte u (_ + i) = memByte s (_ + i)
  rw [← tsAddr_add, Nat.add_assoc, h.inside x hx (o + i) (by omega), if_neg (by omega)]

/-- A write of new bytes that continues an array. -/
theorem OptBytes.append (hapart : OptApart s p w rp) {x : Nat × Nat × Nat} (hx : x ∈ optSpans s p w rp) {bs : List Byte}
    (hfit : e x.1 + bs.length ≤ x.2.1) (hbs : ∀ j (hj : j < bs.length), bs[j] = optByte s p w rp x.1 (e x.1 + j)) :
    OptBytes s p w rp (Function.update e x.1 (e x.1 + bs.length)) (tileWrite u p (optStart s p w rp x.1 + e x.1) (good bs)) := by
  refine ⟨fun y hy o ho => ?_, fun a ha => ?_⟩
  · have hout (hlt : o < e x.1 ∨ e x.1 + bs.length ≤ o ∨ y.1 ≠ x.1) :
        memByte (tileWrite u p (optStart s p w rp x.1 + e x.1) (good bs)) (tsAddr p (optStart s p w rp y.1 + o))
          = memByte u (tsAddr p (optStart s p w rp y.1 + o)) := by
      refine memByte_tileWrite_out u p _ bs ?_
      unfold tsAddr
      by_cases hk : y.1 = x.1
      · rw [hk]
        omega
      · have := hapart.apart hy hx hk
        omega
    by_cases hk : y.1 = x.1
    · rw [hk, Function.update_self]
      rw [hk] at hout
      have hold := h.inside y hy o ho
      rw [hk] at hold
      by_cases hlt : o < e x.1
      · rw [hout (.inl hlt), hold, if_pos hlt, if_pos (by omega)]
      · obtain ⟨j, rfl⟩ := Nat.exists_eq_add_of_le (Nat.le_of_not_lt hlt)
        by_cases hj : j < bs.length
        · rw [if_pos (by omega), ← hbs j hj, ← memByte_tileWrite_in u p _ bs hj, Nat.add_assoc]
        · rw [hout (.inr (.inl (by omega))), hold, if_neg (by omega), if_neg (by omega)]
    · rw [Function.update_of_ne hk, hout (.inr (.inr hk))]
      exact h.inside y hy o ho
  · refine (memByte_tileWrite_out u p _ bs ?_).trans (h.outside a ha)
    have := ha _ (List.mem_map_of_mem hx)
    unfold tsAddr at this ⊢
    dsimp only at this
    omega

end

/-! The arrays by number. -/

theorem mem_optSpans_master : (0, 4 * optWord s p rp 6, 4) ∈ optSpans s p w rp := by simp [optSpans, optArrays]
theorem mem_optSpans_first : (1, 4 * optWord s p rp 6, 4) ∈ optSpans s p w rp := by simp [optSpans, optArrays]
theorem mem_optSpans_second (h : ifld w 73 2 = 0) : (2, 4 * optWord s p rp 6, 4) ∈ optSpans s p w rp := by simp [optSpans, optArrays, h]

theorem mem_optSpans_gradient : (3, (if ibit w 64 then 2 else 4) * optWord s p rp 6, if ibit w 64 then 2 else 4) ∈ optSpans s p w rp := by
  simp [optSpans, optArrays]

theorem mem_optSpans_copy : ∃ a, (4, elemBytes (fmtC (ifld w 69 4)) (optWord s p rp 6), a) ∈ optSpans s p w rp := by
  simp [optSpans, optArrays]

theorem mem_optSpans_scales (h : ibit w 66 = true) :
    (5, (optWord s p rp 6 + optScaleLen w - 1) / optScaleLen w, 1) ∈ optSpans s p w rp := by
  cases h5 : ibit w 65 <;> simp [optSpans, optArrays, optScaleLen, h, h5]

/-- Only mode 0 has a second moment, and only a scaled copy has scales. -/
theorem of_mem_optSpans {x : Nat × Nat × Nat} (hx : x ∈ optSpans s p w rp) :
    x.1 ≤ 5 ∧ (x.1 = 2 → ifld w 73 2 = 0) ∧ (x.1 = 5 → ibit w 66 = true) := by
  simp only [optSpans, optArrays, List.mem_append, List.mem_cons, List.not_mem_nil, or_false] at hx
  obtain (((rfl | rfl) | hv) | (rfl | rfl)) | hsc := hx
  · simp
  · simp
  · split at hv
    next hmode => simp_all
    next => cases hv
  · simp
  · simp
  · split at hsc
    next hscaled => simp_all
    next => cases hsc

end

end Sys2Proof.Proofs

/-! PROOFS. A run of vx.opt (R183, R190): each element, each unit of the copy and each group brings the arrays on, from the first element
to the last. -/
namespace Sys2Proof.Proofs
open Sys2Proof Sys2Proof.Machine Sys2Proof.Laws

/-- The bytes of array k that are new after `a` elements of W, M and V and `b` of the copy. -/
def optEnd (w : IWord) (a b k : Nat) : Nat :=
  if k = 3 then 0
  else if k = 4 then elemBytes (fmtC (ifld w 69 4)) b
  else if k = 5 then (b + optScaleLen w - 1) / optScaleLen w
  else 4 * a

/-- Whether the gradient of element i, as scaled, is not finite. -/
def optNang (s : State) (p : Fin 72) (w : IWord) (rp i : Nat) : Bool :=
  fvIsNan (f32 (optNew s p w rp i).2.2.2) || fvIsInf (f32 (optNew s p w rp i).2.2.2)

/-- u is reached from s after `a` elements of W, M and V and `b` of the copy. -/
structure OptAt (s : State) (p : Fin 72) (w : IWord) (rp a b : Nat) (u : State) : Prop where
  kept : OptKept p s u
  nang : ∀ i < a, optNang s p w rp i = true → getF u VX_FLAGS_NANG p = 1
  bytes : OptBytes s p w rp (optEnd w a b) u

theorem optScaleLen_pos (w : IWord) : 0 < optScaleLen w := by
  unfold optScaleLen
  split <;> decide

theorem optEnd_zero (w : IWord) (k : Nat) : optEnd w 0 0 k = 0 := by
  simp [optEnd, elemBytes, optScaleLen_pos w]

section
variable {s : State} {p : Fin 72} {w : IWord} {rp : Nat}

theorem optAt_start : OptAt s p w rp 0 0 s :=
  ⟨OptKept.refl p s, fun _ hi => absurd hi (Nat.not_lt_zero _), fun x _ o _ => by rw [optEnd_zero, if_neg (Nat.not_lt_zero _)], fun _ _ => rfl⟩

theorem OptAt.of_kept {a b : Nat} {u v : State} (h : OptAt s p w rp a b u) (hk : OptKept p u v) (hm : ∀ x, memByte v x = memByte u x) :
    OptAt s p w rp a b v :=
  ⟨h.kept.trans hk, fun i hi hn => hk.nang (h.nang i hi hn), h.bytes.of_mem hm⟩

/-! One element. -/

theorem blkWord_optBlock {k : Nat} (hk : k < 20) : blkWord (optBlock s p rp) k = optWord s p rp k := by
  rw [blkWord, optBlock, List.getElem?_map, List.getElem?_range hk]
  rfl

/-- The values of an element come from words 8 to 17 of the block, and from V in mode 0 alone. -/
theorem optElem_congr {rev mode : Nat} {h h' : Nat → Word} {v v' : Word} (hh : ∀ k < 20, h k = h' k) (hv : mode = 0 → v = v')
    (m g x : Word) : let a := optElem rev mode h x m v g
    let b := optElem rev mode h' x m v' g
    a.1 = b.1 ∧ a.2.1 = b.2.1 ∧ (mode = 0 → a.2.2.1 = b.2.2.1) ∧ a.2.2.2 = b.2.2.2 := by
  have hword : h 8 = h' 8 ∧ h 9 = h' 9 ∧ h 10 = h' 10 ∧ h 11 = h' 11 ∧ h 12 = h' 12 ∧ h 13 = h' 13 ∧ h 14 = h' 14 ∧ h 15 = h' 15
      ∧ h 16 = h' 16 ∧ h 17 = h' 17 := ⟨hh _ (by decide), hh _ (by decide), hh _ (by decide), hh _ (by decide), hh _ (by decide),
    hh _ (by decide), hh _ (by decide), hh _ (by decide), hh _ (by decide), hh _ (by decide)⟩
  obtain ⟨h8, h9, h10, h11, h12, h13, h14, h15, h16, h17⟩ := hword
  unfold optElem
  by_cases hmode : mode = 0
  · simp only [if_pos hmode, hv hmode, h8, h9, h10, h11, h12, h13, h14, h15, h16, h17]
    exact ⟨trivial, trivial, fun _ => trivial, trivial⟩
  · simp only [if_neg hmode, h8, h9, h14, h15]
    exact ⟨trivial, trivial, fun h => absurd h hmode, trivial⟩

/-- The new word of element i of array k is written. -/
def optPut (s : State) (p : Fin 72) (w : IWord) (rp i : Nat) (u : State) (k : Nat) : State :=
  tileWrite u p (optWord s p rp k + 4 * i) (good (bytesOf 4 (optValue s p w rp k i).toNat))

/-- R183: V, W and M of element i are written. -/
def optPuts (s : State) (p : Fin 72) (w : IWord) (rp i : Nat) (u : State) : State :=
  optPut s p w rp i (optPut s p w rp i (if ifld w 73 2 = 0 then optPut s p w rp i u 2 else u) 0) 1

theorem optStart_word {k : Nat} (hk : k ≠ 4) : optStart s p w rp k = optWord s p rp k := if_neg hk

theorem OptBytes.put {e : Nat → Nat} {u : State} (h : OptBytes s p w rp e u) (hapart : OptApart s p w rp) {k i : Nat} (hk : k ≤ 2)
    (hx : (k, 4 * optWord s p rp 6, 4) ∈ optSpans s p w rp) (hi : i < optWord s p rp 6) (he : e k = 4 * i) :
    OptBytes s p w rp (Function.update e k (4 * (i + 1))) (optPut s p w rp i u k) := by
  have happ := h.append hapart hx (bs := bytesOf 4 (optValue s p w rp k i).toNat) (by simp only [length_bytesOf, he]; omega) fun j hj => ?_
  · rw [length_bytesOf, he, optStart_word (by omega)] at happ
    exact happ
  · have hj4 : j < 4 := by simpa using hj
    rw [he, optByte, if_neg (by omega), if_neg (by omega), if_neg (by omega), show (4 * i + j) / 4 = i by omega,
      show (4 * i + j) % 4 = j by omega, List.getElem?_eq_getElem hj, Option.getD_some]

section
variable (hapart : OptApart s p w rp) {a b : Nat} {u : State} (h : OptAt s p w rp a b u) (ha : a < optWord s p rp 6)
include hapart h ha

theorem OptAt.puts : OptKept p u (optPuts s p w rp a u) ∧ OptBytes s p w rp (optEnd w (a + 1) b) (optPuts s p w rp a u) := by
  have hput := fun v k => optKept_tileWrite p v (optWord s p rp k + 4 * a) (bytesOf 4 (optValue s p w rp k a).toNat)
  unfold optPuts
  by_cases hmode : ifld w 73 2 = 0
  · rw [if_pos hmode]
    refine ⟨((hput _ 2).trans (hput _ 0)).trans (hput _ 1), ?_⟩
    have h2 := h.bytes.put hapart (Nat.le_refl 2) (mem_optSpans_second hmode) ha rfl
    have h0 := h2.put hapart (by decide) mem_optSpans_master ha rfl
    refine (h0.put hapart (by decide) mem_optSpans_first ha rfl).congr fun x hx => ?_
    obtain ⟨k, c, al⟩ := x
    obtain ⟨hle, -, -⟩ := of_mem_optSpans hx
    dsimp only at hle ⊢
    interval_cases k <;> simp [optEnd]
  · rw [if_neg hmode]
    refine ⟨(hput _ 0).trans (hput _ 1), ?_⟩
    have h0 := h.bytes.put hapart (by decide) mem_optSpans_master ha rfl
    refine (h0.put hapart (by decide) mem_optSpans_first ha rfl).congr fun x hx => ?_
    obtain ⟨k, c, al⟩ := x
    obtain ⟨hle, hno, -⟩ := of_mem_optSpans hx
    dsimp only at hle hno ⊢
    have h2 : k ≠ 2 := fun hk => hmode (hno hk)
    interval_cases k <;> simp [optEnd] at h2 ⊢

omit hapart in
/-- R183: an element's words are read as they were, and its new values are written. -/
theorem OptAt.optOne_eq (ws : List Word) : optOne p w (optBlock s p rp) (u, ws) a =
    (if optNang s p w rp a then setF (optPuts s p w rp a u) VX_FLAGS_NANG p 1 else optPuts s p w rp a u, ws ++ [(optNew s p w rp a).1]) := by
  have hread : ∀ k, (k, 4 * optWord s p rp 6, 4) ∈ optSpans s p w rp → k ≤ 3 →
      BitVec.ofNat 32 (readNat u (tsAddr p (optWord s p rp k + 4 * a)) 4) = optOld s p rp k a := fun k hx hk => by
    have := h.bytes.readNat_old hx (o := 4 * a) (c := 4) ?_ (by simp only; omega)
    · rw [optStart_word (by omega)] at this
      rw [this, optOld]
    · unfold optEnd
      split
      · omega
      · rw [if_neg (by omega), if_neg (by omega)]
  unfold optOne
  extract_lets s0 mode rd grad e wr s1 s2 g
  have hrd : ∀ k, (k, 4 * optWord s p rp 6, 4) ∈ optSpans s p w rp → k ≤ 3 → rd k = optOld s p rp k a := fun k hx hk => by
    rw [← hread k hx hk, ← blkWord_optBlock (by omega)]
  have hgrad : grad = optGrad s p w rp a := by
    unfold grad optGrad
    have h3 := mem_optSpans_gradient (s := s) (p := p) (w := w) (rp := rp)
    by_cases hg : ibit w 64 = true
    · rw [if_pos hg] at h3
      have := h.bytes.readNat_old h3 (o := 2 * a) (c := 2) (Nat.zero_le _) (by simp only; omega)
      rw [optStart_word (by simp)] at this
      rw [if_pos hg, if_pos hg, blkWord_optBlock (by decide), this]
    · rw [if_neg hg] at h3
      rw [if_neg hg, if_neg hg, hrd 3 h3 (by decide)]
  obtain ⟨hw, hm, hv, hg⟩ : e.1 = (optNew s p w rp a).1 ∧ e.2.1 = (optNew s p w rp a).2.1 ∧ (mode = 0 → e.2.2.1 = (optNew s p w rp a).2.2.1)
      ∧ e.2.2.2 = (optNew s p w rp a).2.2.2 := by
    unfold e optNew
    rw [hgrad, hrd 0 mem_optSpans_master (by decide), hrd 1 mem_optSpans_first (by decide), sfuRev, h.kept.rev]
    exact optElem_congr (fun k hk => congrArg _ (blkWord_optBlock hk)) (fun hmode => hrd 2 (mem_optSpans_second hmode) (by decide)) _ _ _
  have hwr : ∀ v k, k ≤ 2 → wr v k (optValue s p w rp k a) = optPut s p w rp a v k := fun v k hk => by
    unfold wr optPut
    rw [blkWord_optBlock (by omega)]
  have hs1 : s1 = if mode = 0 then optPut s p w rp a u 2 else u := by
    unfold s1
    split
    next hmode => rw [hv hmode]; exact hwr u 2 (by decide)
    next => rfl
  have hs2 : s2 = optPuts s p w rp a u := by
    unfold s2
    rw [hw, hm, hs1]
    exact (congrArg (fun x => wr x 1 _) (hwr _ 0 (by decide))).trans (hwr _ 1 (by decide))
  rw [hs2, hw, show g = f32 (optNew s p w rp a).2.2.2 from congrArg f32 hg]
  rfl

/-- R183: element `a` has run. -/
theorem OptAt.optOne (ws : List Word) : OptAt s p w rp (a + 1) b (optOne p w (optBlock s p rp) (u, ws) a).1
    ∧ (Machine.optOne p w (optBlock s p rp) (u, ws) a).2 = ws ++ [(optNew s p w rp a).1] := by
  obtain ⟨hk, hb⟩ := h.puts hapart ha
  rw [h.optOne_eq ha]
  have hnang : ∀ i < a, optNang s p w rp i = true → getF (optPuts s p w rp a u) VX_FLAGS_NANG p = 1 :=
    fun i hi hn => hk.nang (h.nang i hi hn)
  refine ⟨?_, rfl⟩
  dsimp only
  split
  next hn =>
    have hset : getF (setF (optPuts s p w rp a u) VX_FLAGS_NANG p 1) VX_FLAGS_NANG p = 1 := getF_setF_same _ _ _ _ (by decide)
    have hsame : OptKept p (optPuts s p w rp a u) (setF (optPuts s p w rp a u) VX_FLAGS_NANG p 1) :=
      optKept_of_regs (setF_moves ..) (getF_setF_key _ _ _ _ _ _ (by simp [fldKey, regKey, VX_FLAGS_NANG, VX_SFU_REV_REV]))
        (getF_setF_key _ _ _ _ _ _ (by simp [fldKey, regKey, VX_FLAGS_NANG, VX_RNG_KEY_KEY])) fun _ => hset
    exact ⟨(h.kept.trans hk).trans hsame, fun _ _ _ => hset, hb.of_mem (memByte_setF _ _ _ _)⟩
  next hn =>
    refine ⟨h.kept.trans hk, fun i hi hni => ?_, hb⟩
    obtain hlt | rfl := Nat.lt_succ_iff_lt_or_eq.1 hi
    · exact hnang i hlt hni
    · exact absurd hni hn

end

/-- R183: elements one after the other. -/
theorem OptAt.optOnes (hapart : OptApart s p w rp) {a b : Nat} {u : State} (h : OptAt s p w rp a b u) : ∀ c, a + c ≤ optWord s p rp 6 →
    OptAt s p w rp (a + c) b ((List.range c).foldl (fun acc i => Machine.optOne p w (optBlock s p rp) acc (a + i)) (u, [])).1
      ∧ ((List.range c).foldl (fun acc i => Machine.optOne p w (optBlock s p rp) acc (a + i)) (u, [])).2
        = (List.range c).map (fun i => (optNew s p w rp (a + i)).1)
  | 0, _ => ⟨h, rfl⟩
  | c + 1, hc => by
    obtain ⟨hat, hws⟩ := OptAt.optOnes hapart h c (by omega)
    rw [List.range_succ, List.foldl_append, List.map_append, ← hws]
    exact hat.optOne hapart (by omega) _

end

end Sys2Proof.Proofs

/-! PROOFS. A unit of vx.opt's copy (R183, log entry 124): its elements, their codes with the scale of their block, and the write of both. -/
namespace Sys2Proof.Proofs
open Sys2Proof Sys2Proof.Machine Sys2Proof.Laws

/-! The elements of a unit. -/

theorem optUnitLen_scaled {w : IWord} (h : ibit w 66 = true) : optUnitLen w = optScaleLen w := if_pos h

/-- A unit fills whole bytes, and a group of 128 elements is a number of units. -/
theorem optUnitLen_fills (w : IWord) : optUnitLen w ∣ 128 ∧ optUnitLen w * fmtWidth (fmtC (ifld w 69 4)) % 8 = 0 := by
  unfold optUnitLen
  split
  · split <;> exact ⟨by decide, by omega⟩
  · obtain h | h | h | h | h | h := fmtWidth_cases (fmtC (ifld w 69 4)) <;> simp [h]

theorem optUnitLen_pos (w : IWord) : 0 < optUnitLen w := Nat.pos_of_dvd_of_pos (optUnitLen_fills w).1 (by decide)

theorem elemBytes_add {f : Fmt} {m : Nat} (hm : m * fmtWidth f % 8 = 0) (c : Nat) : elemBytes f (m + c) = elemBytes f m + elemBytes f c := by
  unfold elemBytes
  rw [Nat.add_mul]
  omega

theorem elemBytes_le (f : Fmt) {m n : Nat} (h : m ≤ n) : elemBytes f m ≤ elemBytes f n :=
  Nat.div_le_div_right (Nat.add_le_add_right (Nat.mul_le_mul_right _ h) _)

theorem zipIdx_map_range {α β : Type} (g : Nat → α) (F : α × Nat → β) (c : Nat) :
    ((List.range c).map g).zipIdx.map F = (List.range c).map (fun i => F (g i, i)) :=
  List.ext_getElem (by simp) fun i _ _ => by simp

theorem take_drop_map_range {α : Type} (g : Nat → α) {m c n : Nat} (h : m + c ≤ n) :
    (((List.range n).map g).drop m).take c = (List.range c).map (fun i => g (m + i)) :=
  List.ext_getElem (by simp; omega) fun i _ _ => by simp

section
variable {s : State} {p : Fin 72} {w : IWord} {rp : Nat}

/-! Its copy. -/

/-- The codes of `c` elements are written behind those of `b`. -/
theorem OptBytes.copy {e : Nat → Nat} {u : State} (h : OptBytes s p w rp e u) (hapart : OptApart s p w rp) {b c : Nat}
    (hb : b * fmtWidth (fmtC (ifld w 69 4)) % 8 = 0) (hc : c * fmtWidth (fmtC (ifld w 69 4)) % 8 = 0 ∨ b + c = optWord s p rp 6)
    (hle : b + c ≤ optWord s p rp 6) (he : e 4 = elemBytes (fmtC (ifld w 69 4)) b) :
    OptBytes s p w rp (Function.update e 4 (elemBytes (fmtC (ifld w 69 4)) (b + c)))
      (tileWrite u p (rowStart (fmtC (ifld w 69 4)) (optWord s p rp 4) + elemBytes (fmtC (ifld w 69 4)) b)
        (good (packElems (fmtC (ifld w 69 4)) ((List.range c).map (fun j => optCode s p w rp (b + j)))))) := by
  obtain ⟨al, hx⟩ := mem_optSpans_copy (s := s) (p := p) (w := w) (rp := rp)
  have hlen : (packElems (fmtC (ifld w 69 4)) ((List.range c).map (fun j => optCode s p w rp (b + j)))).length
      = elemBytes (fmtC (ifld w 69 4)) c := by simp [length_packElems]
  have happ := h.append hapart hx (bs := packElems (fmtC (ifld w 69 4)) ((List.range c).map (fun j => optCode s p w rp (b + j)))) ?fit ?bytes
  · rw [he, hlen, ← elemBytes_add hb] at happ
    exact happ
  case fit =>
    rw [hlen]
    dsimp only
    rw [he, ← elemBytes_add hb]
    exact elemBytes_le _ hle
  case bytes =>
    intro j hj
    dsimp only
    rw [he, optByte, if_neg (by decide), if_pos rfl, getElem?_packElems_slice _ _ hb (by simpa [optCodes] using hc) (by simpa [optCodes] using hle)
      (hlen ▸ hj), optCodes, take_drop_map_range _ hle, List.getElem?_eq_getElem hj, Option.getD_some]

/-- The scale of block b is written behind those before it. -/
theorem OptBytes.scale {e : Nat → Nat} {u : State} (h : OptBytes s p w rp e u) (hapart : OptApart s p w rp) (hscaled : ibit w 66 = true) {b : Nat}
    (hb : b < (optWord s p rp 6 + optScaleLen w - 1) / optScaleLen w) (he : e 5 = b) :
    OptBytes s p w rp (Function.update e 5 (b + 1)) (tileWrite u p (optWord s p rp 5 + b) (good [BitVec.ofNat 8 (optScale s p w rp b).1])) := by
  have happ := h.append hapart (mem_optSpans_scales hscaled) (bs := [BitVec.ofNat 8 (optScale s p w rp b).1]) (by simp only [he]; exact hb) fun j hj => ?_
  · simp only [he] at happ
    exact happ
  · obtain rfl : j = 0 := by simpa using hj
    simp only [he]
    rfl

/-! A unit. -/

section
variable {m q c : Nat} (hm : m = optUnitLen w * q) (hc : c = min (optUnitLen w) (optWord s p rp 6 - m))
include hm hc

/-- The elements of a unit share the scale of its block. -/
theorem optScale_unit : (if ibit w 66 then deriveScale (fmtC (ifld w 69 4)) (((List.range c).map (fun i => (optNew s p w rp (m + i)).1)).map f32)
    else (0, 0)) = optScale s p w rp q := by
  unfold optScale
  split
  next h => rw [List.map_map, ← optUnitLen_scaled h, ← hm, ← hc]; rfl
  next => rfl

theorem optScale_of_unit {j : Nat} (hj : j < c) : optScale s p w rp ((m + j) / optScaleLen w) = optScale s p w rp q := by
  by_cases h : ibit w 66 = true
  · rw [← optUnitLen_scaled h, hm, Nat.mul_add_div (optUnitLen_pos w), Nat.div_eq_of_lt (by omega), Nat.add_zero]
  · rw [optScale, optScale, if_neg h, if_neg h]

end

/-- The flags of the conversions leave NANG and the unit's revision and key. -/
theorem optKept_orVxFlags (p : Fin 72) (u : State) (f : CFlags) : OptKept p u (orVxFlags u p f) := by
  have hreg : ∀ g : Fld, fldKey g.blk g p 0 ≠ fldKey 4 VX_FLAGS_OVF p 0 → getF (orVxFlags u p f) g p = getF u g p :=
    fun g hg => getF_of_regsBut (regsBut_orVxFlags u p f) (by simpa using hg)
  refine optKept_of_regs (orVxFlags_moves ..) (hreg _ (by simp [fldKey, regKey, VX_FLAGS_OVF, VX_SFU_REV_REV]))
    (hreg _ (by simp [fldKey, regKey, VX_FLAGS_OVF, VX_RNG_KEY_KEY])) fun h => ?_
  unfold orVxFlags
  rw [getF_ite_setF_apart _ _ _ _ _ _ (by decide) (by decide), getF_ite_setF_apart _ _ _ _ _ _ (by decide) (by decide),
    getF_ite_setF_apart _ _ _ _ _ _ (by decide) (by decide), h]

theorem OptAt.optUnit (hapart : OptApart s p w rp) {m q c : Nat} (hm : m = optUnitLen w * q) (hc : c = min (optUnitLen w) (optWord s p rp 6 - m))
    (hlt : m < optWord s p rp 6) {u : State} (h : OptAt s p w rp m m u) :
    OptAt s p w rp (m + c) (m + c) (optUnit p w (optBlock s p rp) u m c) := by
  have hle : m + c ≤ optWord s p rp 6 := by omega
  have hmul : ∀ x, x = optUnitLen w ∨ x = m → x * fmtWidth (fmtC (ifld w 69 4)) % 8 = 0 := by
    rintro x (rfl | rfl)
    · exact (optUnitLen_fills w).2
    · rw [hm, Nat.mul_right_comm, Nat.mul_mod, (optUnitLen_fills w).2, Nat.zero_mul, Nat.zero_mod]
  have hunit : c * fmtWidth (fmtC (ifld w 69 4)) % 8 = 0 ∨ m + c = optWord s p rp 6 := by
    by_cases hk : c = optUnitLen w
    · exact .inl (hmul c (.inl hk))
    · exact .inr (by omega)
  unfold Machine.optUnit
  obtain ⟨⟨u1, ws⟩, hfold⟩ : ∃ x, (List.range c).foldl (fun acc i => Machine.optOne p w (optBlock s p rp) acc (m + i)) (u, []) = x := ⟨_, rfl⟩
  obtain ⟨hat, hws⟩ := h.optOnes hapart c hle
  rw [hfold] at hat hws ⊢
  dsimp -zeta only at hat hws ⊢
  extract_lets f sc co conv u2 u3
  obtain rfl : ws = _ := hws
  have hsc : sc = optScale s p w rp q := optScale_unit hm hc
  have hround : ∀ i, (if ibit w 68 then some (rng16 (vxKey u1 p) 2 co i) else none) = optRound s p w rp i := fun i => by
    unfold optRound co
    rw [vxKey, hat.kept.key, blkWord_optBlock (by decide), blkWord_optBlock (by decide), blkWord_optBlock (by decide)]
  have hcodes : conv.map (·.1) = (List.range c).map (fun j => optCode s p w rp (m + j)) := by
    unfold conv
    rw [zipIdx_map_range, List.map_map]
    refine List.map_congr_left fun j hj => ?_
    have hj : j < c := List.mem_range.1 hj
    rw [optCode, optScale_of_unit hm hc hj, ← hsc, ← hround]
    exact apply_ite Prod.fst ..
  have hu2 : OptBytes s p w rp (Function.update (optEnd w (m + c) m) 4 (elemBytes f (m + c))) u2 := by
    unfold u2
    rw [hcodes, blkWord_optBlock (by decide)]
    exact hat.bytes.copy hapart (hmul m (.inr rfl)) hunit hle rfl
  have hkept : OptKept p u1 u3 := by
    unfold u3
    split
    · exact (optKept_tileWrite p u1 _ _).trans (optKept_tileWrite p u2 _ _)
    · exact optKept_tileWrite p u1 _ _
  have hu3 : OptBytes s p w rp (optEnd w (m + c) (m + c)) u3 := by
    unfold u3
    split
    next hscaled =>
      have hk := optUnitLen_scaled hscaled
      have hpos := optScaleLen_pos w
      have hdiv : ∀ x, (m + x + optScaleLen w - 1) / optScaleLen w = q + (x + optScaleLen w - 1) / optScaleLen w := fun x => by
        rw [hm, hk, Nat.add_assoc, Nat.add_sub_assoc (by omega), Nat.mul_add_div hpos]
      have hone : (c + optScaleLen w - 1) / optScaleLen w = 1 := by
        rw [Nat.div_eq_iff hpos]
        omega
      have hnone : (0 + optScaleLen w - 1) / optScaleLen w = 0 := Nat.div_eq_of_lt (by omega)
      have hb : q < (optWord s p rp 6 + optScaleLen w - 1) / optScaleLen w := by
        rw [Nat.lt_iff_add_one_le, Nat.le_div_iff_mul_le hpos, Nat.succ_mul, Nat.mul_comm, ← hk, ← hm]
        omega
      have hsc5 := hu2.scale hapart hscaled hb ((hdiv 0).trans (by rw [hnone, Nat.add_zero]))
      rw [blkWord_optBlock (by decide), show m / optUnitLen w = q by rw [hm, Nat.mul_div_cancel_left _ (optUnitLen_pos w)], hsc]
      refine hsc5.congr fun x hx => ?_
      obtain ⟨k, c', al⟩ := x
      obtain ⟨hle5, -, -⟩ := of_mem_optSpans hx
      dsimp only at hle5 ⊢
      interval_cases k <;> simp [optEnd, hdiv, hone, f]
    next hscaled =>
      refine hu2.congr fun x hx => ?_
      obtain ⟨k, c', al⟩ := x
      obtain ⟨hle5, -, hno⟩ := of_mem_optSpans hx
      dsimp only at hle5 hno ⊢
      have h5 : k ≠ 5 := fun hk => hscaled (hno hk)
      interval_cases k <;> simp [optEnd, f] at h5 ⊢
  exact (OptAt.of_kept ⟨hat.kept.trans hkept, fun i hi hn => hkept.nang (hat.nang i hi hn), hu3⟩ (optKept_orVxFlags p u3 _)
    (memByte_of_moves (orVxFlags_moves ..) (by decide)))

end

end Sys2Proof.Proofs

/-! PROOFS. vx.opt (R182 to R185, R188, R190): its groups up to the last element, what a state shows in which every array is new, and the
completion of a vector instruction. -/
namespace Sys2Proof.Proofs
open Sys2Proof Sys2Proof.Machine Sys2Proof.Laws

/-! A group. -/

/-- R190: bytes without poison fault nothing. -/
theorem firstBad_tileRead {u : State} {p : Fin 72} {a n : Nat} (h : ∀ i < n, isBad u (tsAddr p (a + i)) = false) :
    firstBad a (tileRead u p a n) = none := by
  have hnone : (tileRead u p a n).findIdx? (·.bad) = none := by
    rw [List.findIdx?_eq_none_iff]
    intro x hx
    obtain ⟨i, hi, rfl⟩ := List.mem_map.1 hx
    show isBad u (tsAddr p a + i) = false
    rw [← tsAddr_add]
    exact h i (List.mem_range.1 hi)
  rw [firstBad, hnone]
  rfl

/-- R193: a count leaves NANG and the unit's revision and key. -/
theorem optKept_addStat (p : Fin 72) (u : State) {f : Fld} (hb : f.blk = 4) (hoff : 88 ≤ f.off) (n : Nat) : OptKept p u (addStat u f p n) := by
  have hreg : ∀ g : Fld, g.blk = 4 → g.off < 88 → getF (addStat u f p n) g p = getF u g p := fun g hg ho =>
    getF_setF_key _ _ _ _ _ _ (by simp only [fldKey, regKey, hg, hb]; omega)
  exact optKept_of_regs (addStat_moves ..) (hreg _ rfl (by decide)) (hreg _ rfl (by decide)) (hreg _ rfl (by decide)).trans

section
variable {s : State} {p : Fin 72} {w : IWord} {rp : Nat}

/-- No array holds poison. -/
def OptGood (s : State) (p : Fin 72) (w : IWord) (rp : Nat) : Prop :=
  ∀ x ∈ optSpans s p w rp, ∀ i < x.2.1, isBad s (tsAddr p (optStart s p w rp x.1 + i)) = false

/-- A part of an array that is read meets no poison. -/
theorem OptAt.firstBad_none {a b : Nat} {u : State} (h : OptAt s p w rp a b u) (hgood : OptGood s p w rp) {x : Nat × Nat × Nat}
    (hx : x ∈ optSpans s p w rp) (h4 : x.1 ≠ 4) {o c : Nat} (hc : o + c ≤ x.2.1) :
    firstBad (optWord s p rp x.1 + o) (tileRead u p (optWord s p rp x.1 + o) c) = none := by
  refine firstBad_tileRead fun i hi => ?_
  have hold := hgood x hx (o + i) (by omega)
  rw [optStart_word h4, ← Nat.add_assoc] at hold
  exact Bool.eq_false_iff.2 fun hbad => Bool.eq_false_iff.1 hold (h.kept.bad _ hbad)

/-- R183: the units of a group one after the other. -/
theorem OptAt.optUnits (hapart : OptApart s p w rp) {g n : Nat} (hn : n = min 128 (optWord s p rp 6 - 128 * g)) {u : State}
    (h : OptAt s p w rp (128 * g) (128 * g) u) : ∀ j, j ≤ (n + optUnitLen w - 1) / optUnitLen w →
    OptAt s p w rp (128 * g + min n (optUnitLen w * j)) (128 * g + min n (optUnitLen w * j))
      ((List.range j).foldl (fun v i => Machine.optUnit p w (optBlock s p rp) v (128 * g + optUnitLen w * i)
        (min (optUnitLen w) (n - optUnitLen w * i))) u)
  | 0, _ => by simpa using h
  | j + 1, hj => by
    have hpos := optUnitLen_pos w
    obtain ⟨d, hd⟩ := (optUnitLen_fills w).1
    have hin : optUnitLen w * j < n := by
      rw [Nat.le_div_iff_mul_le hpos, Nat.succ_mul, Nat.mul_comm] at hj
      omega
    have hjd : j < d := Nat.lt_of_mul_lt_mul_left (a := optUnitLen w) (by omega)
    have hnext : optUnitLen w * (j + 1) ≤ optUnitLen w * d := Nat.mul_le_mul_left _ hjd
    rw [Nat.mul_succ] at hnext ⊢
    have hat := OptAt.optUnits hapart hn h j (by omega)
    rw [Nat.min_eq_right hin.le] at hat
    have hm : 128 * g + optUnitLen w * j = optUnitLen w * (d * g + j) := by rw [Nat.mul_add, ← Nat.mul_assoc, ← hd]
    have hc : min (optUnitLen w) (n - optUnitLen w * j) = min (optUnitLen w) (optWord s p rp 6 - (128 * g + optUnitLen w * j)) := by omega
    have := hat.optUnit hapart hm hc (by omega)
    rw [List.range_succ, List.foldl_append]
    rwa [show 128 * g + min n (optUnitLen w * j + optUnitLen w) = 128 * g + optUnitLen w * j + min (optUnitLen w) (n - optUnitLen w * j) by omega]

/-- R183, R190: a group of elements without poison. -/
theorem OptAt.optGroup (hapart : OptApart s p w rp) (hgood : OptGood s p w rp) {g n : Nat} (hg : 128 * g ≤ optWord s p rp 6)
    (hn : n = min 128 (optWord s p rp 6 - 128 * g)) {u : State} (h : OptAt s p w rp (128 * g) (128 * g) u) :
    ∃ v, optGroup u p w (optBlock s p rp) (128 * g) n = (v, none) ∧ OptAt s p w rp (128 * g + n) (128 * g + n) v := by
  have hblk : ∀ k, k < 20 → blkWord (optBlock s p rp) k = optWord s p rp k := fun _ => blkWord_optBlock
  have hunits := h.optUnits hapart hn _ (Nat.le_refl _)
  unfold Machine.optGroup
  extract_lets mode gw a spans k v1 v2
  have hspans : spans.findSome? (fun x => firstBad x.1 (tileRead u p x.1 x.2)) = none := by
    have hword : ∀ k < 4, (k, 4 * optWord s p rp 6, 4) ∈ optSpans s p w rp →
        firstBad (a k + 4 * (128 * g)) (tileRead u p (a k + 4 * (128 * g)) (4 * n)) = none := fun k hk hx => by
      rw [show a k = optWord s p rp k from hblk k (by omega)]
      exact h.firstBad_none hgood hx (show k ≠ 4 by omega) (by simp only; omega)
    have hgrad : firstBad (a 3 + gw * (128 * g)) (tileRead u p (a 3 + gw * (128 * g)) (gw * n)) = none := by
      rw [show a 3 = optWord s p rp 3 from hblk 3 (by decide)]
      exact h.firstBad_none hgood mem_optSpans_gradient (by simp) (by rw [← Nat.mul_add]; exact Nat.mul_le_mul_left _ (by omega))
    rw [List.findSome?_eq_none_iff]
    intro x hx
    simp only [spans, List.mem_append, List.mem_cons, List.not_mem_nil, or_false] at hx
    obtain (rfl | rfl | rfl) | hx := hx
    · exact hword 0 (by decide) mem_optSpans_master
    · exact hword 1 (by decide) mem_optSpans_first
    · exact hgrad
    · split at hx
      next hmode =>
        obtain rfl := List.mem_singleton.1 hx
        exact hword 2 (by decide) (mem_optSpans_second hmode)
      next => cases hx
  rw [hspans]
  have hall : min n (optUnitLen w * ((n + optUnitLen w - 1) / optUnitLen w)) = n := by
    have := Nat.lt_mul_div_succ (n + optUnitLen w - 1) (optUnitLen_pos w)
    rw [Nat.mul_succ] at this
    omega
  rw [hall] at hunits
  have hstat : ∀ {v : State} (f : Fld) (c : Nat), f.blk = 4 → 88 ≤ f.off → OptAt s p w rp (128 * g + n) (128 * g + n) v →
      OptAt s p w rp (128 * g + n) (128 * g + n) (addStat v f p c) := fun f c hb ho hv =>
    hv.of_kept (optKept_addStat p _ hb ho c) (memByte_addStat _ _ _ _)
  have hv2 : OptAt s p w rp (128 * g + n) (128 * g + n) v2 := by
    unfold v2
    split
    · exact hstat VX_SFU_RESULTS _ rfl (by decide) hunits
    · exact hunits
  refine ⟨_, rfl, ?_⟩
  split
  · exact hstat VX_RNG_CALLS _ rfl (by decide) hv2
  · exact hv2

/-- R183, R190: the groups up to the last element. -/
theorem OptAt.optGroups (hapart : OptApart s p w rp) (hgood : OptGood s p w rp) : ∀ k, k ≤ (optWord s p rp 6 + 127) / 128 → ∀ u,
    OptAt s p w rp (min (optWord s p rp 6) (128 * ((optWord s p rp 6 + 127) / 128 - k)))
      (min (optWord s p rp 6) (128 * ((optWord s p rp 6 + 127) / 128 - k))) u →
    ∃ v, optGroups p w (optBlock s p rp) (optWord s p rp 6) k u = (v, none) ∧ OptAt s p w rp (optWord s p rp 6) (optWord s p rp 6) v
  | 0, _, u, h => by
    rw [Nat.sub_zero, Nat.min_eq_left (by omega)] at h
    exact ⟨u, rfl, h⟩
  | k + 1, hk, u, h => by
    rw [Nat.min_eq_right (by omega)] at h
    obtain ⟨v, hv, hat⟩ := h.optGroup hapart hgood (by omega) rfl
    rw [show 128 * ((optWord s p rp 6 + 127) / 128 - (k + 1)) + min 128 (optWord s p rp 6 - 128 * ((optWord s p rp 6 + 127) / 128 - (k + 1)))
      = min (optWord s p rp 6) (128 * ((optWord s p rp 6 + 127) / 128 - k)) by omega] at hat
    obtain ⟨t, ht, hend⟩ := OptAt.optGroups hapart hgood k (by omega) v hat
    refine ⟨t, ?_, hend⟩
    rw [Machine.optGroups]
    simp only [hv, ht]

end

end Sys2Proof.Proofs

/-! PROOFS. vx.opt as an instruction (R182, R185, R188, R189): what its arrays hold once they are new, its faults, and the completion of a
vector instruction. -/
namespace Sys2Proof.Proofs
open Sys2Proof Sys2Proof.Machine Sys2Proof.Laws

/-! Arrays that are new. -/

section
variable {s : State} {p : Fin 72} {w : IWord} {rp : Nat} {e : Nat → Nat} {u : State}

theorem OptBytes.readBytes_new (h : OptBytes s p w rp e u) {x : Nat × Nat × Nat} (hx : x ∈ optSpans s p w rp) {o c : Nat}
    (hc : o + c ≤ x.2.1) (he : o + c ≤ e x.1) : (readBytes u (tsAddr p (optStart s p w rp x.1 + o)) c).map (·.b)
      = (List.range c).map (fun j => optByte s p w rp x.1 (o + j)) := by
  rw [readBytes, List.map_map]
  refine List.map_congr_left fun j hj => ?_
  have hj : j < c := List.mem_range.1 hj
  show memByte u (_ + j) = _
  rw [← tsAddr_add, Nat.add_assoc, h.inside x hx (o + j) (by omega), if_pos (by omega)]

theorem map_range_getElem? {α : Type} (xs : List α) (d : α) : (List.range xs.length).map (fun j => (xs[j]?).getD d) = xs :=
  List.ext_getElem (by simp) fun i _ hi => by simp [hi]

/-- A word of W, M or V that is new. -/
theorem OptBytes.word_new (h : OptBytes s p w rp e u) {k i : Nat} (hk : k ≤ 2) (hx : (k, 4 * optWord s p rp 6, 4) ∈ optSpans s p w rp)
    (hi : i < optWord s p rp 6) (he : 4 * (i + 1) ≤ e k) :
    BitVec.ofNat 32 (readNat u (tsAddr p (optWord s p rp k + 4 * i)) 4) = optValue s p w rp k i := by
  have hbytes := h.readBytes_new hx (o := 4 * i) (c := 4) (by simp only; omega) (by simp only; omega)
  have hnew : (List.range 4).map (fun j => optByte s p w rp k (4 * i + j)) = bytesOf 4 (optValue s p w rp k i).toNat := by
    refine Eq.trans (List.map_congr_left fun j hj => ?_) (map_range_getElem? (bytesOf 4 (optValue s p w rp k i).toNat) 0)
    have hj : j < 4 := List.mem_range.1 hj
    rw [optByte, if_neg (by omega), if_neg (by omega), if_neg (by omega), show (4 * i + j) / 4 = i by omega,
      show (4 * i + j) % 4 = j by omega]
  rw [optStart_word (by simp only; omega)] at hbytes
  rw [readNat, hbytes, hnew, ofBytes_bytesOf]
  exact BitVec.eq_of_toNat_eq (by simp [(optValue s p w rp k i).isLt])

theorem optCode_lt (i : Nat) : optCode s p w rp i < 2 ^ fmtWidth (fmtC (ifld w 69 4)) := by
  unfold optCode
  split
  next h => rw [h]; exact BitVec.isLt _
  next => exact encodeNum_lt ..

/-- An element of a copy that is new. -/
theorem OptBytes.copy_new (h : OptBytes s p w rp e u) {i : Nat} (hi : i < optWord s p rp 6)
    (he : e 4 = elemBytes (fmtC (ifld w 69 4)) (optWord s p rp 6)) :
    elemAt (fmtC (ifld w 69 4)) ((tileRead u p (optStart s p w rp 4) (elemBytes (fmtC (ifld w 69 4)) (optWord s p rp 6))).map (·.b)) i
      = optCode s p w rp i := by
  obtain ⟨al, hx⟩ := mem_optSpans_copy (s := s) (p := p) (w := w) (rp := rp)
  have hlen : (packElems (fmtC (ifld w 69 4)) (optCodes s p w rp)).length = elemBytes (fmtC (ifld w 69 4)) (optWord s p rp 6) := by
    simp [length_packElems, optCodes]
  have hbytes : (tileRead u p (optStart s p w rp 4) (elemBytes (fmtC (ifld w 69 4)) (optWord s p rp 6))).map (·.b)
      = packElems (fmtC (ifld w 69 4)) (optCodes s p w rp) := by
    have := h.readBytes_new hx (o := 0) (c := elemBytes (fmtC (ifld w 69 4)) (optWord s p rp 6)) (by simp) (by simp [he])
    rw [tileRead]
    refine this.trans (Eq.trans (List.map_congr_left fun j _ => ?_) (hlen ▸ map_range_getElem? _ 0))
    rw [Nat.zero_add, optByte, if_neg (by simp), if_pos rfl]
  rw [hbytes, elemAt_packElems _ _ (by simpa [optCodes] using hi)]
  simp [optCodes, Nat.mod_eq_of_lt (optCode_lt i)]

/-- A scale that is new. -/
theorem OptBytes.scale_new (h : OptBytes s p w rp e u) (hscaled : ibit w 66 = true) {b : Nat}
    (hb : b < (optWord s p rp 6 + optScaleLen w - 1) / optScaleLen w) (he : b < e 5) :
    memByte u (tsAddr p (optWord s p rp 5 + b)) = BitVec.ofNat 8 (optScale s p w rp b).1 := by
  have := h.inside _ (mem_optSpans_scales hscaled) b hb
  rw [optStart_word (by simp), if_pos he] at this
  exact this

end

/-! The instruction. -/

section
variable {s : State} {p : Fin 72} {q : QEntry}

theorem faultable_of_vxReady {op : Nat} {rs : List Nat} (h : VxReady s p op rs q) : Faultable s (.tile p .vx) :=
  faultable_of_canIssue (frontIs_eq_some.1 h.front).2.1

/-- The parameter block that an instruction names. -/
def optRp (s : State) (p : Fin 72) (w : IWord) : Nat := bits (vxG s p w 75).toNat 0 22

section
variable (hmode : ifld q.word 73 2 ≤ 1) (hf : (fmtOfCode (ifld q.word 69 4)).isSome = true)
  (hsc : ibit q.word 66 = true → mayScale (ifld q.word 69 4) = true) (hrsv : ifld q.word 0 64 = 0)
include hmode hf hsc hrsv

theorem vxOpt_encoded : (decide (1 < ifld q.word 73 2) || (fmtOfCode (ifld q.word 69 4)).isNone || (ibit q.word 66 && !mayScale (ifld q.word 69 4))
    || ifld q.word 0 64 != 0) = false := by
  cases h : ibit q.word 66
  · simp [hmode, hrsv, hf]
  · simp [hmode, hrsv, hf, hsc h]

/-- R185, R189: what the parameter block breaks faults. -/
theorem vxOpt_faults (hs : Canon s) (h : VxReady s p 0x70 [] q) {c a : Nat} (hfault : optFault s p q.word (optRp s p q.word) = some (c, a)) :
    Does (.vxOpt p) s (fun t => VxFaults s t p q c) :=
  ⟨_, congrArg Host.Outcome.next (vxRun_faults h (vxOpt_encoded hmode hf hsc hrsv) rfl (by rw [optRp] at hfault; simp only [hfault])),
    faultQ_vxFaults hs (faultable_of_vxReady h) q c a 0 0⟩

/-- R182 to R184: with a sound block and arrays that lie apart and hold no poison, every array becomes new. -/
theorem vxOpt_issues (h : VxReady s p 0x70 [] q) (hfault : optFault s p q.word (optRp s p q.word) = none)
    (hapart : OptApart s p q.word (optRp s p q.word)) (hgood : OptGood s p q.word (optRp s p q.word)) :
    ∃ u, exec (.vxOpt p) s = .next (vxIssued u p q []) ∧ OptAt s p q.word (optRp s p q.word) (optWord s p (optRp s p q.word) 6)
      (optWord s p (optRp s p q.word) 6) u := by
  obtain ⟨u, hu, hat⟩ := OptAt.optGroups hapart hgood _ (Nat.le_refl _) s (by simpa using optAt_start)
  refine ⟨u, congrArg Host.Outcome.next (vxRun_issues h (vxOpt_encoded hmode hf hsc hrsv) rfl ?_), hat⟩
  rw [optRp] at hfault hu
  simp only [hfault, hu]

end

end

/-! Completion. -/

/-- R188: an instruction of the vector engine has left those in flight. -/
def flownVx (s : State) (p k : Nat) : State := modVx s p (fun x => { x with fly := x.fly.eraseIdx k })

theorem vxComplete_eq {s : State} {p : Fin 72} {k : Nat} {f : VxFly} (h : (getVx s p).fly[k]? = some f) :
    vxComplete s p k = completeDone (flownVx s p k) (.tile p .vx) f.done := by
  simp only [vxComplete, h, vxEng_val, flownVx]

/-- Settles O34: a run of the instruction makes its arrays new from their first byte to their last, each from the words and the gradient
that stood there before. -/
theorem optimiserStep : Obligations.OptimiserStep := by
  unfold Obligations.OptimiserStep
  refine ⟨fun p s q => ?run, fun p s q => ?block, fun p k s f hs hfly => ?completes⟩
  case run =>
    intro w rp n f lo rd grad r bl sc co rnd hs hmode hfmt hsc hrsv h
    refine ⟨fun c a hfault => vxOpt_faults hmode hfmt hsc hrsv hs h hfault, fun hfault hgood hapart _ => ?_⟩
    obtain ⟨u, hexec, hat⟩ := vxOpt_issues hmode hfmt hsc hrsv h hfault hapart hgood
    have hbytes : OptBytes s p w rp (optEnd w n n) (vxIssued u p q []) := hat.bytes.of_mem (memByte_vxIssued u p q [])
    have hcanon : Canon u := hat.kept.moves.canon hs
    have hdone : ∀ i < n, 4 * (i + 1) ≤ 4 * n := fun i hi => Nat.mul_le_mul_left 4 hi
    refine ⟨_, hexec, fun i hi => ⟨?master, ?first, fun hm => ?second, fun hn => ?nang, ?copy⟩, fun hscaled b hb => ?scales, hbytes.outside,
      ?lanes, ?preds, vxIssued_issues ?effect q [], ?only⟩
    case master => exact hbytes.word_new (by decide) mem_optSpans_master hi (hdone i hi)
    case first => exact hbytes.word_new (by decide) mem_optSpans_first hi (hdone i hi)
    case second => exact hbytes.word_new (by decide) (mem_optSpans_second hm) hi (hdone i hi)
    case nang => exact (getF_vxIssued u p q [] rfl p).trans (hat.nang i hi hn)
    case copy => exact hbytes.copy_new hi rfl
    case scales => exact hbytes.scale_new hscaled hb hb
    case lanes => exact fun r l => (getLane_vxIssued hcanon p q [] r l).trans (getLane_of_getVx (by rw [hat.kept.vx]) r l)
    case preds => exact fun k _ => (getPred_vxIssued hcanon p q [] k).trans (getPred_of_getVx (by rw [hat.kept.vx]) k)
    case effect => exact ⟨hcanon, by rw [hat.kept.vx], hat.kept.tiles, engsBut_of_moves hat.kept.moves (by decide) _⟩
    case only => exact only_trans (only_of _ hat.kept.moves (by decide)) (only_of _ (vxIssued_moves u p q []) (by decide))
  case block =>
    intro w rp hs hmode hfmt hsc hrsv h hrp
    exact vxOpt_faults hmode hfmt hsc hrsv hs h (a := rp) (by rw [optFault]; exact if_pos hrp)
  case completes =>
    have hm : Moves 0x80 s (flownVx s p k) := modVx_moves ..
    have hpend : (getTile (flownVx s p k) p).pend = (getTile s p).pend :=
      (congrArg Tile.pend (getTile_setTile_same s p _)).trans rfl
    have hvx : getVx (completeDone (flownVx s p k) (.tile p .vx) f.done) p = { getVx s p with fly := (getVx s p).fly.eraseIdx k } := by
      obtain ⟨x, hx⟩ := (completeDone_shows (hm.canon hs) p .vx f.done).1
      exact ((congrArg Tile.vx hx).trans rfl).trans (getVx_modVx_same s p _)
    refine ⟨_, congrArg Host.Outcome.next (vxComplete_eq hfly), by rw [hvx], getLane_of_getVx (by rw [hvx]),
      fun n _ => getPred_of_getVx (by rw [hvx]) n, completed_shows hs hm (tilesBut_modVx s p _) hpend .vx f.done⟩

end Sys2Proof.Proofs

/-! PROOFS. The issue of an mx. instruction (R86, R107): what a state shows in which it has issued and its effects stand. -/
namespace Sys2Proof.Proofs
open Sys2Proof Sys2Proof.Machine Sys2Proof.Laws

/-! An instruction that has issued. -/

/-- R107: what an instruction leaves of the matrix engine that issues, besides its effects. -/
theorem getMx_mxIssued_fly {u : State} (hu : Canon u) (p : Fin 72) (q : QEntry) (f : MxFly) :
    getMx (mxIssued u p q f) p = { getMx u p with fly := (getMx u p).fly ++ [{ f with since := u.gsc }] } := by
  obtain ⟨x, hx⟩ := getTile_leftQueue hu p .mx q p
  have hmx : getMx (leftQueue u p .mx q) p = getMx u p := (congrArg Tile.mx hx).trans rfl
  have hgsc : u.gsc = (leftQueue u p .mx q).gsc := (leftQueue_moves u p .mx q).same .gsc (by decide)
  rw [mxIssued_eq, getMx_modMx_same, hmx, ← hgsc]

theorem tilesBut_mxIssued (s : State) (p : Fin 72) (q : QEntry) (f : MxFly) : TilesBut [p.val] s (mxIssued s p q f) := by
  rw [mxIssued_eq]
  exact tilesBut_trans (tilesBut_leftQueue s p .mx q) (tilesBut_modMx _ _ _)

/-- R107: an instruction has issued once its effects stand and it has left the queue. -/
theorem mxIssued_issues {m : Nat} {s u : State} {p : Fin 72} (hs : Canon s) (hm : Moves m s u) (hb : m.testBit 1 = false ∧ m.testBit 6 = false)
    (htiles : TilesBut [p.val] s u) (hfly : (getMx u p).fly.length = (getMx s p).fly.length) {q : QEntry} {f : MxFly}
    (hdone : f.done = doneOf q.word q.idx) : MxIssues s (mxIssued u p q f) p q f := by
  have heng : ∀ e, getEng u e = getEng s e := getEng_of_moves hm hb.2
  have hown : getEng (mxIssued u p q f) (.tile p .mx) = _ := (getEng_mxIssued u p q f _).trans (getEng_leftQueue u p .mx q)
  have hgsc : s.gsc = u.gsc := hm.same .gsc hb.1
  refine ⟨by rw [hown, heng], by rw [hown, heng], hdone, ⟨(getMx u p).fly, ?_, hfly⟩, fun e he => ?_,
    tilesBut_trans htiles (tilesBut_mxIssued u p q f)⟩
  · rw [getMx_mxIssued_fly (hm.canon hs), hgsc]
  · rw [getEng_mxIssued, engsBut_leftQueue u p .mx q e he, heng]

end Sys2Proof.Proofs

/-! PROOFS. The sets of the matrix engine's arrays (R62, R66) and the matrices that it reads from a tile store (R70, R71). -/
namespace Sys2Proof.Proofs
open Sys2Proof Sys2Proof.Machine Sys2Proof.Laws

/-! Maps after a write for each place of a list. -/

section
variable {α β : Type} [DecidableEq α] (d : Nat → α) (key : β → Nat) (v : β → α → α)

/-- Keys that no place of the list has keep their values. -/
theorem mapGet_foldl_mapMod_other {k : Nat} : ∀ (bs : List β) (m : SMap α), (∀ b ∈ bs, k ≠ key b) →
    mapGet d (bs.foldl (fun m b => mapMod d m (key b) (v b)) m) k = mapGet d m k
  | [], _, _ => rfl
  | b :: bs, m, h => by
    rw [List.foldl_cons, mapGet_foldl_mapMod_other bs _ (fun c hc => h c (.tail _ hc)), mapMod,
      mapGet_mapSet_other _ _ _ _ _ (h b (.head _))]

/-- Places that lie apart each take their own value. -/
theorem mapGet_foldl_mapMod_mem {b : β} : ∀ (bs : List β) (m : SMap α), bs.Pairwise (fun x y => key x ≠ key y) → b ∈ bs →
    mapGet d (bs.foldl (fun m b => mapMod d m (key b) (v b)) m) (key b) = v b (mapGet d m (key b))
  | c :: bs, m, h, hb => by
    obtain ⟨hc, hbs⟩ := List.pairwise_cons.1 h
    rw [List.foldl_cons]
    rcases List.mem_cons.1 hb with rfl | hb
    · rw [mapGet_foldl_mapMod_other d key v bs _ hc, mapMod, mapGet_mapSet_same]
    · rw [mapGet_foldl_mapMod_mem bs _ hbs hb, mapMod, mapGet_mapSet_other _ _ _ _ _ (hc b hb).symm]

end

/-! The sets of the arrays. -/

theorem idleSet_inj {x : MxState} {a b : Nat} (h : idleSet x a = idleSet x b) : a = b := by
  have hb : ∀ c : Bool, b2n c ≤ 1 := fun c => by cases c <;> decide
  have := hb (!bit x.act a)
  have := hb (!bit x.act b)
  unfold idleSet at h
  omega

theorem idleSets_apart (x : MxState) {as : List Nat} (h : as.Nodup) : as.Pairwise (fun a b => idleSet x a ≠ idleSet x b) :=
  h.imp fun hab he => hab (idleSet_inj he)

theorem nodup_shapeArrays (sh a : Nat) : (shapeArrays sh a).Nodup := by
  unfold shapeArrays
  split
  · exact List.nodup_singleton a
  · decide

/-- The sets of a tile after each of some arrays has changed its idle one. -/
def withIdle (x : MxState) (as : List Nat) (v : Nat → MxSet → MxSet) : MxState :=
  { x with sets := as.foldl (fun m a => mapMod (fun _ => MxSet.reset) m (idleSet x a) (v a)) x.sets }

section
variable (x : MxState) {as : List Nat} (v : Nat → MxSet → MxSet)

theorem getSet_withIdle_mem (h : as.Nodup) {a : Nat} (ha : a ∈ as) :
    getSet (withIdle x as v) (idleSet x a) = v a (getSet x (idleSet x a)) :=
  mapGet_foldl_mapMod_mem _ (idleSet x) v as x.sets (idleSets_apart x h) ha

theorem getSet_withIdle_other {k : Nat} (h : ∀ a ∈ as, k ≠ idleSet x a) : getSet (withIdle x as v) k = getSet x k :=
  mapGet_foldl_mapMod_other _ (idleSet x) v as x.sets h

end

/-! Matrices read from a tile store. -/

/-- A block of a matrix that is cut out by rows and columns. -/
theorem getElem?_block {α : Type} (m : List (List α)) (a b h w : Nat) {i j : Nat} (hi : i < h) (hj : j < w) :
    (((((m.drop a).take h).map (fun r => (r.drop b).take w))[i]?).getD [])[j]? = ((m[a + i]?).getD [])[b + j]? := by
  rw [List.getElem?_map, List.getElem?_take_of_lt hi, List.getElem?_drop]
  cases m[a + i]? with
  | none => simp
  | some r => rw [Option.map_some, Option.getD_some, Option.getD_some, List.getElem?_take_of_lt hj, List.getElem?_drop]

theorem cellAt_transpose (m : List (List Word)) {rows i : Nat} (hi : i < rows) (j : Nat) : cellAt (transpose m rows) i j = cellAt m j i := by
  unfold cellAt transpose
  rw [List.getElem?_map, List.getElem?_range hi, Option.map_some, Option.getD_some, List.getElem?_map]
  cases m[j]? <;> rfl

section
variable (s : State) (p a stride rows n : Nat) {r i : Nat}

theorem cellAt_readRows (f : Fmt) (hr : r < rows) (hi : i < n) : cellAt (readRows s p f a stride rows n).1 r i
    = BitVec.ofNat 32 (elemAt f ((tileRead s p (rowStart f (a + r * stride)) (elemBytes f n)).map (·.b)) i) := by
  simp [cellAt, readRows, readRow, hr, hi]

theorem byteAt_readByteRows (hr : r < rows) (hi : i < n) :
    byteAt (readByteRows s p a stride rows n).1 r i = memByte s (tsAddr p (a + r * stride + i)) := by
  simp [byteAt, readByteRows, tileRead, readBytes, hr, hi, tsAddr_add]

end
end Sys2Proof.Proofs

/-! PROOFS. Loads into the idle sets (R62, R86): what a load shows that has issued, and mx.lds. -/
namespace Sys2Proof.Proofs
open Sys2Proof Sys2Proof.Machine Sys2Proof.Laws

/-! A load. -/

/-- R86: the state in which a load has issued that puts `v a` into the idle set of each array `a`. -/
def loadIssued (s : State) (p : Fin 72) (q : QEntry) (as : List Nat) (v : Nat → MxSet) (arrays : Nat) : State :=
  mxIssued (modMx s p (fun x => withIdle x as (fun a _ => v a))) p q { fly0 q with arrays := arrays }

/-- R62, R86: what a load shows: the idle sets of its arrays, and nothing else of the matrix engine but that it is in flight. -/
theorem loadIssued_shows {s : State} (hs : Canon s) (p : Fin 72) (q : QEntry) {as : List Nat} (has : as.Nodup) (v : Nat → MxSet) (arrays : Nat) :
    let x := getMx s p
    let t := loadIssued s p q as v arrays
    MxIssues s t p q { fly0 q with arrays := arrays } ∧ (∀ a ∈ as, getSet (getMx t p) (idleSet x a) = v a)
      ∧ (∀ k, (∀ a ∈ as, k ≠ idleSet x a) → getSet (getMx t p) k = getSet x k) ∧ (getMx t p).act = x.act
      ∧ (∀ i, getAcc t p i = getAcc s p i) ∧ RegsBut (traceKeys (.tile p .mx)) s t ∧ Only [.regs, .engines, .tiles] s t := by
  intro x t
  obtain ⟨u, hu⟩ : ∃ u, modMx s p (fun x => withIdle x as (fun a _ => v a)) = u := ⟨_, rfl⟩
  have ht : t = mxIssued u p q { fly0 q with arrays := arrays } := by rw [← hu]; rfl
  have hm : Moves 0x80 s u := hu ▸ modMx_moves ..
  have hux : getMx u p = withIdle x as (fun a _ => v a) := hu ▸ getMx_modMx_same ..
  have hmx : getMx t p = { withIdle x as (fun a _ => v a) with
      fly := x.fly ++ [{ fly0 q with arrays := arrays, since := u.gsc }] } := by
    rw [ht, getMx_mxIssued_fly (hm.canon hs), hux]
    rfl
  refine ⟨ht ▸ mxIssued_issues hs hm (by decide) (hu ▸ tilesBut_modMx s p _) (by rw [hux]; rfl) rfl, fun a ha => ?_, fun k hk => ?_,
    by rw [hmx]; rfl, fun i => by rw [getAcc, hmx]; rfl, ?_, ?_⟩
  · rw [hmx]
    exact getSet_withIdle_mem x (fun a _ => v a) has ha
  · rw [hmx]
    exact getSet_withIdle_other x (fun a _ => v a) hk
  · exact ht ▸ regs_trans (regsBut_of_regs _ (hm.same .regs (by decide)).symm) (regsBut_mxIssued u p q _)
  · exact ht ▸ only_of _ ((mxIssued_moves u p q _).trans (hm.le (by decide))) (by decide)

/-! mx.lds. -/

section
variable (s : State) (p : Nat) (w : IWord)

/-- R70, R71: the operand of an mx.lds as a matrix of K rows, with the first poisoned word read. -/
def ldsMatrix : List (List Word) × Option Nat :=
  let f := fmtC (ifld w 72 4)
  let rb := mxG s p w 48
  if ibit w 69 then
    (transpose (readRows s p f (refAddr rb) (refStride rb) (ifld w 53 8 + 1) (ifld w 61 8 + 1)).1 (ifld w 61 8 + 1),
      (readRows s p f (refAddr rb) (refStride rb) (ifld w 53 8 + 1) (ifld w 61 8 + 1)).2)
  else readRows s p f (refAddr rb) (refStride rb) (ifld w 61 8 + 1) (ifld w 53 8 + 1)

/-- R70: its scale bytes, one row for each column. -/
def ldsScales : List (List Byte) × Option Nat :=
  let rs := mxG s p w 43
  if ibit w 71 then readByteRows s p (refAddr rs) (refStride rs) (ifld w 53 8 + 1) (scaleBlocks (ifld w 61 8 + 1) (ibit w 70)) else ([], none)

/-- R62, R66: what an mx.lds puts into the idle set of array `a`. -/
def ldsSet (a : Nat) : MxSet :=
  let sh := ifld w 78 2
  { loaded := false, shape := sh, fmt := ifld w 72 4, scaled := ibit w 71, bs32 := ibit w 70, kv := ifld w 61 8 + 1, nv := ifld w 53 8 + 1
    mask := 0, probs := [], cells := (((ldsMatrix s p w).1.drop (arrayK sh a)).take 64).map (fun r => (r.drop (arrayN sh a)).take 64)
    scales := ownScales sh a (if ibit w 70 then 32 else 16) (ldsScales s p w).1
    bad := (ldsMatrix s p w).2.orElse (fun _ => (ldsScales s p w).2) }

/-- R71: an element of the operand, from storage row k, or from row n of a transposed one. -/
theorem cellAt_ldsMatrix {k n : Nat} (hk : k < ifld w 61 8 + 1) (hn : n < ifld w 53 8 + 1) :
    let f := fmtC (ifld w 72 4)
    let rb := mxG s p w 48
    let row := fun r n => (tileRead s p (rowStart f (refAddr rb + r * refStride rb)) (elemBytes f n)).map (·.b)
    cellAt (ldsMatrix s p w).1 k n = BitVec.ofNat 32
      (if ibit w 69 then elemAt f (row n (ifld w 61 8 + 1)) k else elemAt f (row k (ifld w 53 8 + 1)) n) := by
  intro f rb row
  unfold ldsMatrix
  cases ibit w 69
  · exact cellAt_readRows s p _ _ _ _ f hk hn
  · exact (cellAt_transpose _ hk n).trans (cellAt_readRows s p _ _ _ _ f hn hk)

theorem cellAt_ldsSet {a i j : Nat} (hi : i < 64) (hj : j < 64) :
    cellAt (ldsSet s p w a).cells i j = cellAt (ldsMatrix s p w).1 (arrayK (ifld w 78 2) a + i) (arrayN (ifld w 78 2) a + j) := by
  exact congrArg (·.getD 0) (getElem?_block (ldsMatrix s p w).1 (arrayK (ifld w 78 2) a) (arrayN (ifld w 78 2) a) 64 64 hi hj)

/-- R105: a scale byte of the set, of its column and its block of K rows. -/
theorem byteAt_ldsSet (hscaled : ibit w 71 = true) {a j b : Nat} (hj : j < 64) (hb : b < 64 / (if ibit w 70 then 32 else 16))
    (hn : arrayN (ifld w 78 2) a + j < ifld w 53 8 + 1)
    (hk : arrayK (ifld w 78 2) a / (if ibit w 70 then 32 else 16) + b < scaleBlocks (ifld w 61 8 + 1) (ibit w 70)) :
    byteAt (ldsSet s p w a).scales j b = memByte s (tsAddr p (refAddr (mxG s p w 43)
      + (arrayN (ifld w 78 2) a + j) * refStride (mxG s p w 43) + arrayK (ifld w 78 2) a / (if ibit w 70 then 32 else 16) + b)) := by
  have hown : byteAt (ldsSet s p w a).scales j b = byteAt (ldsScales s p w).1 (arrayN (ifld w 78 2) a + j)
      (arrayK (ifld w 78 2) a / (if ibit w 70 then 32 else 16) + b) :=
    congrArg (·.getD 0) (getElem?_block (ldsScales s p w).1 (arrayN (ifld w 78 2) a) _ 64 _ hj hb)
  rw [hown, ldsScales]
  simp only [hscaled, if_true]
  rw [byteAt_readByteRows s p _ _ _ _ hn hk, Nat.add_assoc _ _ b]

end

section
variable {s : State} {p : Fin 72} {q : QEntry}

theorem doLds_held (h : MxReady s p 0x20 q) (hh : ldHeld (getMx s p) (mxArrays q.word) (ldsSpans s p q.word) = true) : doLds s p = s := by
  rw [doLds, show mxFront s p 0x20 = some q from h]
  exact if_pos hh

theorem doLds_loads (h : MxReady s p 0x20 q) (hh : ldHeld (getMx s p) (mxArrays q.word) (ldsSpans s p q.word) = false) :
    doLds s p = loadIssued s p q (mxArrays q.word) (ldsSet s p q.word) (arrayMask (mxArrays q.word)) := by
  rw [doLds, show mxFront s p 0x20 = some q from h]
  exact (if_neg (Bool.eq_false_iff.1 hh)).trans rfl

end
end Sys2Proof.Proofs

/-! PROOFS. mx.ldsp (R77, R112), the completion of a load (R105), and the statement about loads. -/
namespace Sys2Proof.Proofs
open Sys2Proof Sys2Proof.Machine Sys2Proof.Laws

/-! mx.ldsp. -/

/-- Results that show the place they are of are found by it. -/
theorem find?_filterMap_key {β : Type} {g : Nat → Option β} {key : β → Nat} (hkey : ∀ k y, g k = some y → key y = k) (k : Nat) :
    ∀ ks : List Nat, (ks.filterMap g).find? (fun y => key y == k) = if k ∈ ks then g k else none
  | [] => rfl
  | c :: ks => by
    have ih := find?_filterMap_key hkey k ks
    cases hg : g c with
    | none =>
      rw [List.filterMap_cons_none hg, ih]
      by_cases hk : k = c
      · simp [hk, hg]
      · simp [hk]
    | some y =>
      rw [List.filterMap_cons_some hg, List.find?_cons, hkey c y hg, ih]
      by_cases hk : c = k
      · simp [← hk, hg]
      · simp [beq_false_of_ne hk, Ne.symm hk]

/-- R112: one problem as an mx.ldsp reads it: its number and extents, cells, scale bytes, and the first poisoned word. -/
abbrev ProblemB := (Nat × Nat × Nat) × List (List Word) × List Byte × Option Nat

section
variable (s : State) (p : Nat) (w : IWord)

theorem readProblem_index {k : Nat} {y : ProblemB} (h : readProblem s p w k = .ok y) :
    y.1.1 = k := by
  unfold readProblem at h
  extract_lets f tb e a str kv nv sc at h
  split at h
  · cases h
  · split at h
    split at h
    · cases h
    · split at h
      · cases h
      · rw [← Except.ok.inj h]

/-- R112: the problems of an mx.ldsp that read well. -/
def ldspProblems : List ProblemB :=
  ((problems (ifld w 48 16)).map (readProblem s p w)).filterMap (fun r => match r with | .ok y => some y | .error _ => none)

/-- R77: what an mx.ldsp puts into the idle set of its array. -/
def ldspSet : MxSet :=
  let find (k : Nat) := (ldspProblems s p w).find? (fun y => y.1.1 == k)
  { loaded := false, shape := packedShape, fmt := ifld w 72 4, scaled := ibit w 71, bs32 := ibit w 70, kv := 16, nv := 16
    mask := ifld w 48 16, probs := (ldspProblems s p w).map (·.1)
    cells := (List.range 64).map (fun i => (List.range 64).map (fun j => match find (packAt i j) with
      | some y => cellAt y.2.1 (i % 16) (j % 16)
      | none => 0))
    scales := (List.range 64).map (fun j => (List.range 4).map (fun b => match find (packAt (16 * b) j) with
      | some y => (y.2.2.1[j % 16]?).getD 0
      | none => 0))
    bad := (ldspProblems s p w).findSome? (·.2.2.2) }

theorem find?_ldspProblems {k : Nat} (hk : k ∈ problems (ifld w 48 16))
    {y : ProblemB} (hy : readProblem s p w k = .ok y) :
    (ldspProblems s p w).find? (fun z => z.1.1 == k) = some y := by
  rw [ldspProblems, List.filterMap_map]
  refine (find?_filterMap_key (key := fun z : ProblemB => z.1.1) (fun c z hz => ?index) k _).trans ?found
  case index =>
    rw [Function.comp_apply] at hz
    split at hz
    · next z' hr =>
      obtain rfl := Option.some.inj hz
      exact readProblem_index s p w hr
    · cases hz
  case found => rw [if_pos hk, Function.comp_apply, hy]

/-- R77: problem k holds rows 16 (k / 4) and columns 16 (k mod 4) on. -/
theorem cellAt_ldspSet {k : Nat} (hk : k ∈ problems (ifld w 48 16))
    {y : ProblemB} (hy : readProblem s p w k = .ok y) {i j : Nat} (hi : i < 16)
    (hj : j < 16) : cellAt (ldspSet s p w).cells (16 * (k / 4) + i) (16 * (k % 4) + j) = cellAt y.2.1 i j := by
  have hk16 : k < 16 := List.mem_range.1 (List.mem_filter.1 hk).1
  have hrow : 16 * (k / 4) + i < 64 := by omega
  have hcol : 16 * (k % 4) + j < 64 := by omega
  have hpack : packAt (16 * (k / 4) + i) (16 * (k % 4) + j) = k := by
    unfold packAt
    omega
  have hi' : (16 * (k / 4) + i) % 16 = i := by omega
  have hj' : (16 * (k % 4) + j) % 16 = j := by omega
  simp only [cellAt, ldspSet, List.getElem?_map, List.getElem?_range hrow, List.getElem?_range hcol, Option.map_some, Option.getD_some,
    hpack, find?_ldspProblems s p w hk hy, hi', hj']

end

section
variable {s : State} {p : Fin 72} {q : QEntry}

theorem doLdsp_held (h : MxReady s p 0x21 q) (hh : ldHeld (getMx s p) [ifld q.word 76 2] (ldspSpans s p q.word) = true) : doLdsp s p = s := by
  rw [doLdsp, show mxFront s p 0x21 = some q from h]
  exact if_pos hh

/-- R112: an mx.ldsp whose pack table is good loads its problems. -/
theorem doLdsp_loads (h : MxReady s p 0x21 q) (hh : ldHeld (getMx s p) [ifld q.word 76 2] (ldspSpans s p q.word) = false)
    (hok : ∀ k ∈ problems (ifld q.word 48 16), ∃ y, readProblem s p q.word k = .ok y) :
    doLdsp s p = loadIssued s p q [ifld q.word 76 2] (fun _ => ldspSet s p q.word) (2 ^ ifld q.word 76 2) := by
  rw [doLdsp, show mxFront s p 0x21 = some q from h]
  refine (if_neg (Bool.eq_false_iff.1 hh)).trans ?_
  split
  · next c hc =>
    obtain ⟨r, hr, hrc⟩ := List.exists_of_findSome?_eq_some hc
    obtain ⟨k, hk, rfl⟩ := List.mem_map.1 hr
    obtain ⟨y, hy⟩ := hok k hk
    rw [hy] at hrc
    cases hrc
  · rfl

end

/-! MX_LOAD_COMPLETE. -/

/-- R105: the k-th instruction in flight, a load, is in flight no more, and the idle sets of its arrays are loaded. -/
def loadLanded (s : State) (p k : Nat) (f : MxFly) : State :=
  modMx s p (fun x => { withIdle x ((List.range 4).filter (fun a => bit f.arrays a)) (fun _ t => { t with loaded := true }) with
    fly := x.fly.eraseIdx k })

theorem loadComplete_eq {s : State} {p : Fin 72} {k : Nat} {f : MxFly} (hf : (getMx s p).fly[k]? = some f) (hk : f.kind = 0) :
    loadComplete s p k = completeDone (loadLanded s p k f) (.tile p .mx) f.done := by
  rw [loadComplete, hf, mxEng_val]
  exact (if_neg (not_not.2 hk)).trans rfl

/-- Settles O22: a load puts each array's part of the operand into its idle set and touches no other one; the parts lie in sets of their
own, so each stands. -/
theorem matrixLoads : Obligations.MatrixLoads := by
  unfold Obligations.MatrixLoads
  refine ⟨fun p s q => ?lds, fun p s q => ?ldsp, fun p k s f => ?complete⟩
  case lds =>
    intro w x sh as f kv nv rb row bs hs h
    refine ⟨fun hh => congrArg Host.Outcome.next (doLds_held h hh), fun hh => ?_⟩
    have has : as.Nodup := nodup_shapeArrays sh _
    obtain ⟨hissues, hsets, hrest⟩ := loadIssued_shows hs p q has (ldsSet s p w) (arrayMask as)
    refine ⟨_, congrArg Host.Outcome.next (doLds_loads h hh), hissues, fun a ha => ?set, fun hscaled a ha j hj b hb hn hk => ?scales, hrest⟩
    case set =>
      intro d
      have hd : d = ldsSet s p w a := hsets a ha
      rw [hd]
      exact ⟨rfl, rfl, rfl, rfl, rfl, rfl, rfl, fun i hi j hj hk hn => (cellAt_ldsSet s p w hi hj).trans (cellAt_ldsMatrix s p w hk hn)⟩
    case scales =>
      exact (congrArg (fun t => byteAt t.scales j b) (hsets a ha)).trans (byteAt_ldsSet s p w hscaled hj hb hn hk)
  case ldsp =>
    intro w x a hs h
    refine ⟨fun hh => congrArg Host.Outcome.next (doLdsp_held h hh), fun hh hok => ?_⟩
    obtain ⟨hissues, hsets, hothers, hrest⟩ := loadIssued_shows hs p q (List.nodup_singleton a) (fun _ => ldspSet s p w) (2 ^ a)
    refine ⟨_, congrArg Host.Outcome.next (doLdsp_loads h hh hok), hissues, ?set, fun k hk => hothers k (by simpa using hk), hrest⟩
    case set =>
      intro d
      have hd : d = ldspSet s p w := hsets a (List.mem_singleton.2 rfl)
      rw [hd]
      refine ⟨rfl, rfl, rfl, rfl, fun k hk y hy => ⟨?_, fun i hi j hj => cellAt_ldspSet s p w hk hy hi hj⟩⟩
      exact (List.find?_map ..).trans (congrArg (Option.map (·.1)) (find?_ldspProblems s p w hk hy))
  case complete =>
    intro hs x hf hk
    have hm : Moves 0x80 s (loadLanded s p k f) := modMx_moves ..
    have hland : getMx (loadLanded s p k f) p = _ := getMx_modMx_same s p _
    have hmx := (getMx_completeDone (hm.canon hs) p f.done).trans hland
    have has : ((List.range 4).filter (fun a => bit f.arrays a)).Nodup := List.nodup_range.filter _
    have hpend : (getTile (loadLanded s p k f) p).pend = (getTile s p).pend :=
      (congrArg Tile.pend (getTile_setTile_same s p _)).trans rfl
    obtain ⟨hnotifies, hregs, htiles, honly⟩ := completed_shows hs hm (tilesBut_modMx s p _) hpend .mx f.done
    refine ⟨_, congrArg Host.Outcome.next (loadComplete_eq hf hk), by rw [hmx], fun a ha hbit => ?_, fun i hi => ?_, hnotifies,
      fun i => by rw [getAcc, hmx]; rfl, hregs, htiles, honly⟩
    · rw [hmx]
      exact getSet_withIdle_mem x _ has (List.mem_filter.2 ⟨List.mem_range.2 ha, hbit⟩)
    · rw [hmx]
      refine getSet_withIdle_other x _ fun a ha => ?_
      obtain ⟨ha4, hbit⟩ := List.mem_filter.1 ha
      exact hi a (List.mem_range.1 ha4) hbit

end Sys2Proof.Proofs

/-! PROOFS. The accumulation buffer entry by entry (R93, R96, R103): what an entry shows, writes of one entry, and passes over many that lie
apart. -/
namespace Sys2Proof.Proofs
open Sys2Proof Sys2Proof.Machine Sys2Proof.Laws

/-! An entry. -/

/-- What an entry of an accumulation buffer shows: its value, its poison and its wide partial. -/
structure AccEntry where
  acc : Word
  bad : Bool
  wide : Option DWord

def accEntry (s : State) (p k : Nat) : AccEntry := ⟨getAcc s p k, accBad s p k, getWide s p k⟩

theorem accEntry_of_getMx {s u : State} {p : Nat} (h : getMx u p = getMx s p) (k : Nat) : accEntry u p k = accEntry s p k := by
  simp only [accEntry, getAcc, accBad, getWide, h]

section
variable (s : State) (p e : Nat)

theorem accEntry_setAcc_same (v : Word) (bad : Bool) : accEntry (setAcc s p e v bad) p e = ⟨v, bad, getWide s p e⟩ := by
  simp only [accEntry, getAcc, accBad, getWide, setAcc, getMx_modMx_same, mapGet_mapSet_same]

theorem accEntry_setAcc_other (v : Word) (bad : Bool) {k : Nat} (h : k ≠ e) : accEntry (setAcc s p e v bad) p k = accEntry s p k := by
  simp only [accEntry, getAcc, accBad, getWide, setAcc, getMx_modMx_same, mapGet_mapSet_other _ _ _ _ _ h]

theorem accEntry_setWide_same (v : Option DWord) : accEntry (setWide s p e v) p e = ⟨getAcc s p e, accBad s p e, v⟩ := by
  simp only [accEntry, getAcc, accBad, getWide, setWide, getMx_modMx_same, mapGet_mapSet_same]

theorem accEntry_setWide_other (v : Option DWord) {k : Nat} (h : k ≠ e) : accEntry (setWide s p e v) p k = accEntry s p k := by
  simp only [accEntry, getAcc, accBad, getWide, setWide, getMx_modMx_same, mapGet_mapSet_other _ _ _ _ _ h]

/-- R116: flags stand in registers. -/
theorem getMx_orMxFlags (f : CFlags) (iovf : Bool) (r : Nat) : getMx (orMxFlags s p f iovf) r = getMx s r :=
  congrArg Tile.mx (getTile_of_moves (orMxFlags_moves s p f iovf) (by decide) r)

end

/-! What writes of entries leave alone. -/

/-- Of the state only registers, and the accumulation and spill buffers of the tile, have changed. -/
structure BufferOnly (p : Nat) (s u : State) : Prop where
  moves : Moves 0x88 s u
  tiles : TilesBut [p] s u
  sets : (getMx u p).sets = (getMx s p).sets
  act : (getMx u p).act = (getMx s p).act
  runs : (getMx u p).runs = (getMx s p).runs
  fly : (getMx u p).fly = (getMx s p).fly

section
variable {p : Nat} {s u v : State}

theorem BufferOnly.refl (p : Nat) (s : State) : BufferOnly p s s := ⟨Moves.refl _ s, fun _ _ => rfl, rfl, rfl, rfl, rfl⟩

theorem BufferOnly.trans (h : BufferOnly p s u) (k : BufferOnly p u v) : BufferOnly p s v :=
  ⟨k.moves.trans h.moves, tilesBut_trans h.tiles k.tiles, k.sets.trans h.sets, k.act.trans h.act, k.runs.trans h.runs, k.fly.trans h.fly⟩

/-- Another value of the buffers alone. -/
theorem bufferOnly_modMx (s : State) (p : Nat) (acc : MxState → SMap Word) (bad : MxState → SMap Bool) (wide : MxState → SMap (Option DWord)) :
    BufferOnly p s (modMx s p (fun x => { x with acc := acc x, accBad := bad x, wide := wide x })) := by
  have hmx := getMx_modMx_same s p (fun x => { x with acc := acc x, accBad := bad x, wide := wide x })
  exact ⟨(modMx_moves ..).le (by decide), tilesBut_modMx s p _, by rw [hmx], by rw [hmx], by rw [hmx], by rw [hmx]⟩

theorem bufferOnly_setAcc (s : State) (p e : Nat) (v : Word) (bad : Bool) : BufferOnly p s (setAcc s p e v bad) := bufferOnly_modMx s p _ _ _

theorem bufferOnly_setWide (s : State) (p e : Nat) (v : Option DWord) : BufferOnly p s (setWide s p e v) := bufferOnly_modMx s p _ _ _

/-- Registers written besides. -/
theorem bufferOnly_of_regs (p : Nat) (h : Moves 0x8 s u) : BufferOnly p s u := by
  have htile : ∀ r, getTile u r = getTile s r := getTile_of_moves h (by decide)
  have hmx : getMx u p = getMx s p := congrArg Tile.mx (htile p)
  exact ⟨h.le (by decide), fun r _ => htile r, by rw [hmx], by rw [hmx], by rw [hmx], by rw [hmx]⟩

theorem BufferOnly.foldl {α S : Type} {f : S → α → S} {st : S → State} (h : ∀ a x, BufferOnly p (st a) (st (f a x))) :
    ∀ (xs : List α) (a : S), BufferOnly p (st a) (st (xs.foldl f a))
  | [], a => .refl p (st a)
  | x :: xs, a => (h a x).trans (BufferOnly.foldl h xs (f a x))

end

/-! Passes over entries. -/

/-- A pass whose step at x brings the entry `key x` from e to `val x e` and leaves every other one. -/
structure EntrySteps {S α : Type} (view : S → Nat → AccEntry) (step : S → α → S) (key : α → Nat)
    (val : α → AccEntry → AccEntry) : Prop where
  own : ∀ a x, view (step a x) (key x) = val x (view a (key x))
  other : ∀ a x k, k ≠ key x → view (step a x) k = view a k

section
variable {S α : Type} {view : S → Nat → AccEntry} {step : S → α → S} {key : α → Nat} {val : α → AccEntry → AccEntry}
  (h : EntrySteps view step key val)
include h

theorem EntrySteps.foldl_other {k : Nat} : ∀ (xs : List α) (a : S), (∀ x ∈ xs, k ≠ key x) → view (xs.foldl step a) k = view a k
  | [], _, _ => rfl
  | x :: xs, a, hk => (EntrySteps.foldl_other xs (step a x) fun y hy => hk y (.tail _ hy)).trans (h.other a x k (hk x (.head _)))

/-- Entries that lie apart are each brought on once. -/
theorem EntrySteps.foldl_mem {x : α} : ∀ (xs : List α) (a : S), xs.Pairwise (fun x y => key x ≠ key y) → x ∈ xs →
    view (xs.foldl step a) (key x) = val x (view a (key x))
  | y :: xs, a, hxs, hx => by
    obtain ⟨hy, hxs⟩ := List.pairwise_cons.1 hxs
    rw [List.foldl_cons]
    rcases List.mem_cons.1 hx with rfl | hx
    · rw [h.foldl_other xs _ hy, h.own]
    · rw [EntrySteps.foldl_mem xs _ hxs hx, h.other a y _ (hy x hx).symm]

end

/-- A pass may be read with its steps replaced by others that agree with them wherever it comes. -/
theorem foldl_congr_of_inv {S α : Type} {f g : S → α → S} {Inv : S → Prop} (h : ∀ a x, Inv a → f a x = g a x ∧ Inv (g a x)) :
    ∀ (xs : List α) (a : S), Inv a → xs.foldl f a = xs.foldl g a
  | [], _, _ => rfl
  | x :: xs, a, ha => by
    obtain ⟨hfg, hg⟩ := h a x ha
    rw [List.foldl_cons, List.foldl_cons, hfg, foldl_congr_of_inv h xs (g a x) hg]

/-- A pass by rows and columns is one over their pairs. -/
theorem foldl_product {S : Type} (f : S → Nat × Nat → S) (m n : Nat) (a : S) :
    (List.range m ×ˢ List.range n).foldl f a = (List.range m).foldl (fun a i => (List.range n).foldl (fun a j => f a (i, j)) a) a := by
  show ((List.range m).flatMap fun i => (List.range n).map (Prod.mk i)).foldl f a = _
  simp only [List.foldl_flatMap, List.foldl_map]

/-- Pairs whose keys tell them apart. -/
theorem product_apart {key : Nat × Nat → Nat} {m n : Nat}
    (hinj : ∀ i j i' j', j < n → j' < n → key (i, j) = key (i', j') → i = i' ∧ j = j') :
    (List.range m ×ˢ List.range n).Pairwise (fun x y => key x ≠ key y) := by
  refine (List.Nodup.product List.nodup_range List.nodup_range).imp_of_mem fun {x y} hx hy hne hkey => hne ?_
  obtain ⟨hi, hj⟩ := hinj x.1 x.2 y.1 y.2 (List.mem_range.1 (List.mem_product.1 hx).2) (List.mem_range.1 (List.mem_product.1 hy).2) hkey
  exact Prod.ext hi hj

theorem mem_ranges {m n i j : Nat} : (i, j) ∈ List.range m ×ˢ List.range n ↔ i < m ∧ j < n := by
  exact List.pair_mem_product.trans (and_congr List.mem_range List.mem_range)

/-! The adder (R96, R103). -/

section
variable {α : Type} (p : Nat) (start : α → Bool) (key : α → Nat) (write : α → State → State)

/-- R103: the adder at an entry: one that is poisoned stays, and the first such is kept, unless it starts from +0. -/
def addStep (a : State × Option Nat) (x : α) : State × Option Nat :=
  if !start x && accBad a.1 p (key x) then (a.1, some (a.2.getD (key x))) else (write x a.1, a.2)

/-- What a write at entry k may do. -/
structure EntryWrite (p k : Nat) (g : State → State) (f : AccEntry → AccEntry) : Prop where
  own : ∀ s, accEntry (g s) p k = f (accEntry s p k)
  other : ∀ s j, j ≠ k → accEntry (g s) p j = accEntry s p j
  only : ∀ s, BufferOnly p s (g s)

variable {p start key write} {f : α → AccEntry → AccEntry} (h : ∀ x, EntryWrite p (key x) (write x) (f x))
include h

theorem entrySteps_addStep : EntrySteps (fun a : State × Option Nat => accEntry a.1 p) (addStep p start key write) key
    (fun x e => if !start x && e.bad then e else f x e) where
  own a x := by
    simp only [addStep]
    split
    · next hb => exact (if_pos hb).symm
    · next hb => exact ((h x).own a.1).trans (if_neg hb).symm
  other a x k hk := by
    simp only [addStep]
    split
    · rfl
    · exact (h x).other a.1 k hk

theorem bufferOnly_addSteps (xs : List α) (a : State × Option Nat) : BufferOnly p a.1 (xs.foldl (addStep p start key write) a).1 :=
  BufferOnly.foldl (st := Prod.fst) (fun a x => by
    simp only [addStep]
    split
    · exact .refl p a.1
    · exact (h x).only a.1) xs a

/-- R103: no entry that the adder read was poisoned. -/
theorem addSteps_clean : ∀ (xs : List α) (a : State × Option Nat), xs.Pairwise (fun x y => key x ≠ key y) →
    ((xs.foldl (addStep p start key write) a).2 = none ↔ a.2 = none ∧ ∀ x ∈ xs, start x = true ∨ accBad a.1 p (key x) = false)
  | [], a, _ => by simp
  | x :: xs, a, hxs => by
    obtain ⟨hx, hxs⟩ := List.pairwise_cons.1 hxs
    have hstays : ∀ y ∈ xs, accBad (addStep p start key write a x).1 p (key y) = accBad a.1 p (key y) := fun y hy =>
      congrArg AccEntry.bad ((entrySteps_addStep h).other a x (key y) (hx y hy).symm)
    have hstep : (addStep p start key write a x).2 = none ↔ a.2 = none ∧ (start x = true ∨ accBad a.1 p (key x) = false) := by
      unfold addStep
      cases start x <;> cases accBad a.1 p (key x) <;> simp
    rw [List.foldl_cons, addSteps_clean xs _ hxs, hstep, and_assoc, List.forall_mem_cons]
    exact and_congr_right fun _ => and_congr_right fun _ => forall₂_congr fun y hy => by rw [hstays y hy]

end

end Sys2Proof.Proofs

/-! PROOFS. mx.mm (R63, R74, R85, R93, R96 to R100, R103): its elements, the state from which it computes, and what it shows. -/
namespace Sys2Proof.Proofs
open Sys2Proof Sys2Proof.Machine Sys2Proof.Laws

/-! The elements of an mx.mm. -/

/-- R93: the entry of output element (m, n). -/
def mmKey (w : IWord) (i : Nat × Nat) : Nat := 64 * (ifld w 12 12 + i.1 * (shapeN (ifld w 78 2) / 64) + i.2 / 64) + i.2 % 64

theorem shapeN_cases (sh : Nat) : shapeN sh = 64 ∨ shapeN sh = 128 ∨ shapeN sh = 256 := by
  unfold shapeN
  split <;> simp

theorem mmKey_inj (w : IWord) (m n m' n' : Nat) (hn : n < shapeN (ifld w 78 2)) (hn' : n' < shapeN (ifld w 78 2))
    (h : mmKey w (m, n) = mmKey w (m', n')) : m = m' ∧ n = n' := by
  unfold mmKey at h
  rcases shapeN_cases (ifld w 78 2) with hN | hN | hN <;> rw [hN] at hn hn' h <;> omega

theorem mmKeys_apart (w : IWord) (m : Nat) {nv : Nat} (h : nv ≤ shapeN (ifld w 78 2)) :
    (List.range m ×ˢ List.range nv).Pairwise (fun i j => mmKey w i ≠ mmKey w j) :=
  product_apart fun m n m' n' hn hn' => mmKey_inj w m n m' n' (by omega) (by omega)

section
variable (p : Nat) (x : MxState) (w : IWord) (st : Staged) (b : MxSet) (spill start : Nat) (ends : Bool)

/-- R96: the running element of an output from what its entry shows. -/
def mmRun (i : Nat × Nat) (e : AccEntry) : AccRun :=
  let init := ifld w 66 2 == 1
  mmElem x w st (fmtC b.fmt) b i.1 i.2 spill start ends ⟨if init then 0 else e.acc, if init then none else e.wide, false⟩

/-- R93: an element is computed. -/
def mmWrite (i : Nat × Nat) (u : State) : State :=
  let r := mmRun x w st b spill start ends i (accEntry u p (mmKey w i))
  orMxFlags (setWide (setAcc u p (mmKey w i) r.acc false) p (mmKey w i) r.w) p noFlags r.iovf

theorem entryWrite_mmWrite (i : Nat × Nat) : EntryWrite p (mmKey w i) (mmWrite p x w st b spill start ends i) (fun e =>
    ⟨(mmRun x w st b spill start ends i e).acc, false, (mmRun x w st b spill start ends i e).w⟩) where
  own u := by
    rw [mmWrite, accEntry_of_getMx (getMx_orMxFlags ..), accEntry_setWide_same]
    have hset := accEntry_setAcc_same u p (mmKey w i) (mmRun x w st b spill start ends i (accEntry u p (mmKey w i))).acc false
    rw [show getAcc (setAcc u p _ _ _) p _ = _ from congrArg AccEntry.acc hset,
      show accBad (setAcc u p _ _ _) p _ = _ from congrArg AccEntry.bad hset]
  other u j hj := by
    rw [mmWrite, accEntry_of_getMx (getMx_orMxFlags ..), accEntry_setWide_other _ _ _ _ hj, accEntry_setAcc_other _ _ _ _ _ hj]
  only u := ((bufferOnly_setAcc ..).trans (bufferOnly_setWide ..)).trans (bufferOnly_of_regs p (orMxFlags_moves ..))

/-- R74: an mx.mm computes its elements row by row, and each as the adder does. -/
theorem mmCompute_eq (s : State) : mmCompute s p w st b spill start ends =
    (List.range (ifld w 55 8 + 1) ×ˢ List.range b.nv).foldl
      (addStep p (fun _ => ifld w 66 2 == 1) (mmKey w) (mmWrite p (getMx s p) w st b spill start ends)) (s, none) := by
  rw [foldl_product]
  rfl

/-- R67: an element reads the sets that are active, and nothing else of the engine. -/
theorem mmElem_congr {y : MxState} (hsets : y.sets = x.sets) (hact : y.act = x.act) (fb : Fmt) (m n : Nat) (r : AccRun) :
    mmElem y w st fb b m n spill start ends r = mmElem x w st fb b m n spill start ends r := by
  have hset : ∀ a, getSet y (actSet y a) = getSet x (actSet x a) := fun a => by rw [getSet, actSet, hsets, hact, getSet, actSet]
  simp only [mmElem, mmPairs, hset]

end

/-! The state from which it computes. -/

/-- R63: the matrix engine with the sets of some arrays exchanged where SWAP asks for it. -/
def swappedMx (x : MxState) (w : IWord) : MxState := if ibit w 75 then { x with act := x.act ^^^ arrayMask (mxArrays w) } else x

section
variable (s : State) (p : Nat) (w : IWord)

def mmSwapped : State := if ibit w 75 then swapSets s p (mxArrays w) else s

theorem mmSwapped_moves : Moves 0x80 s (mmSwapped s p w) := Moves.ite (swapSets_moves ..) (Moves.refl _ s)

theorem getMx_mmSwapped : getMx (mmSwapped s p w) p = swappedMx (getMx s p) w := by
  unfold mmSwapped swappedMx
  split
  · exact getMx_modMx_same s p _
  · rfl

theorem tilesBut_mmSwapped : TilesBut [p] s (mmSwapped s p w) := by
  unfold mmSwapped
  split
  · exact tilesBut_modMx s p _
  · exact fun _ _ => rfl

theorem swappedMx_rest (x : MxState) : (swappedMx x w).sets = x.sets ∧ (swappedMx x w).fly = x.fly ∧ (swappedMx x w).acc = x.acc
    ∧ (swappedMx x w).accBad = x.accBad ∧ (swappedMx x w).wide = x.wide ∧ (swappedMx x w).runs = x.runs := by
  unfold swappedMx
  split <;> exact ⟨rfl, rfl, rfl, rfl, rfl, rfl⟩

/-- R98: the spill rows of a run are free. -/
def spillFreed (r : MxRun) : State :=
  if r.spilled then (List.range (64 * r.rows)).foldl (fun s i => setWide s p (64 * r.base + i) none) s else s

/-- R98: a run is gone, and no instruction in flight ends it. -/
def dropRun (r : MxRun) (x : MxState) : MxState :=
  { x with
    runs := x.runs.filter (fun y => y.base != r.base)
    fly := x.fly.map (fun f => if f.lastRun = some (runRows r) then { f with lastRun := none } else f) }

theorem abandonRun_eq (r : MxRun) : abandonRun s p r = modMx (spillFreed s p r) p (dropRun r) := rfl

theorem spillFreed_shows (r : MxRun) : BufferOnly p s (spillFreed s p r) ∧ (getMx (spillFreed s p r) p).acc = (getMx s p).acc
    ∧ (getMx (spillFreed s p r) p).accBad = (getMx s p).accBad := by
  have hwide : ∀ (es : List Nat) (u : State), let v := es.foldl (fun s i => setWide s p (64 * r.base + i) none) u
      BufferOnly p u v ∧ (getMx v p).acc = (getMx u p).acc ∧ (getMx v p).accBad = (getMx u p).accBad := fun es => by
    induction es with
    | nil => exact fun u => ⟨.refl p u, rfl, rfl⟩
    | cons e es ih =>
      intro u
      obtain ⟨hb, hacc, hbad⟩ := ih (setWide u p (64 * r.base + e) none)
      refine ⟨(bufferOnly_setWide ..).trans hb, hacc.trans ?_, hbad.trans ?_⟩ <;> rw [setWide, getMx_modMx_same]
  unfold spillFreed
  split
  · exact hwide _ s
  · exact ⟨.refl p s, rfl, rfl⟩

/-- R98: a run that a start abandons gives up its spill rows alone. -/
theorem abandonRun_shows (r : MxRun) : let x := getMx s p
    let y := getMx (abandonRun s p r) p
    TilesBut [p] s (abandonRun s p r) ∧ y.act = x.act ∧ y.sets = x.sets ∧ y.fly.length = x.fly.length
      ∧ y.acc = x.acc ∧ y.accBad = x.accBad := by
  intro x y
  obtain ⟨hb, hacc, hbad⟩ := spillFreed_shows s p r
  have hy : y = dropRun r (getMx (spillFreed s p r) p) := getMx_modMx_same (spillFreed s p r) p (dropRun r)
  refine ⟨tilesBut_trans hb.tiles (tilesBut_modMx _ p _), ?_, ?_, ?_, ?_, ?_⟩ <;> rw [hy]
  · exact hb.act
  · exact hb.sets
  · exact (List.length_map _).trans (congrArg List.length hb.fly)
  · exact hacc
  · exact hbad

/-- R97, R98: the sets are exchanged, and a run on the rows of a start is abandoned. -/
def mmStarted : State :=
  let u := mmSwapped s p w
  if ifld w 66 2 = 1 then (match (getMx u p).runs.find? (fun r => runRows r == mmRows w) with | some r => abandonRun u p r | none => u) else u

/-- What the computation of an mx.mm starts from. -/
structure MmStarts (s u : State) (p : Nat) (w : IWord) : Prop where
  moves : Moves 0x80 s u
  tiles : TilesBut [p] s u
  act : (getMx u p).act = (swappedMx (getMx s p) w).act
  sets : (getMx u p).sets = (getMx s p).sets
  fly : (getMx u p).fly.length = (getMx s p).fly.length
  acc : ∀ k, getAcc u p k = getAcc s p k
  bad : ∀ k, accBad u p k = accBad s p k
  wide : ifld w 66 2 ≠ 1 → ∀ k, getWide u p k = getWide s p k

theorem mmStarts_mmSwapped : MmStarts s (mmSwapped s p w) p w := by
  have hmx := getMx_mmSwapped s p w
  obtain ⟨hsets, hfly, hacc, hbad, hwide, -⟩ := swappedMx_rest w (getMx s p)
  exact ⟨mmSwapped_moves s p w, tilesBut_mmSwapped s p w, by rw [hmx], by rw [hmx, hsets], by rw [hmx, hfly],
    fun k => by rw [getAcc, hmx, hacc, getAcc],
    fun k => by rw [accBad, hmx, hbad, accBad], fun _ k => by rw [getWide, hmx, hwide, getWide]⟩

theorem mmStarts_mmStarted : MmStarts s (mmStarted s p w) p w := by
  have h := mmStarts_mmSwapped s p w
  unfold mmStarted
  extract_lets u
  split
  · next hinit =>
    split
    · next r hr =>
      obtain ⟨htiles, hact, hsets, hfly, hacc, hbad⟩ := abandonRun_shows u p r
      exact ⟨(abandonRun_moves ..).trans h.moves, tilesBut_trans h.tiles htiles, hact.trans h.act, hsets.trans h.sets, hfly.trans h.fly,
        fun k => by rw [getAcc, hacc, ← getAcc, h.acc], fun k => by rw [accBad, hbad, ← accBad, h.bad], fun hn => absurd hinit hn⟩
    · exact h
  · exact h

end

/-! The instruction. -/

section
variable (s : State) (p : Fin 72) (q : QEntry) (st : Staged)

/-- R85, R109: what an mx.mm waits for, and what it finds wrong. -/
def MmHeld : Prop := mmHeld s (getMx s p) (mxArrays q.word) (ibit q.word 75) [(4 * (mmRows q.word).1, 4 * (mmRows q.word).2)] = true
  ∨ planRun (getMx s p) q.word = .hold

def mmFaultOf : Option (Nat × Nat) :=
  mmFault (getMx s p) (mxArrays q.word) (ibit q.word 75) (ifld q.word 78 2) (ifld q.word 71 4) (ifld q.word 63 2) 0 st.bad

/-- R62: the set whose extents and format an mx.mm or mx.mmp uses. -/
def mmSet : MxSet := nextSet (getMx s p) ((mxArrays q.word).head?.getD 0) (ibit q.word 75)

def mmResult (run : Option MxRun) (start : Nat) : State × Option Nat :=
  mmCompute (mmStarted s p q.word) p q.word st (mmSet s p q) (if run.isSome then ifld q.word 24 16 else 0) start (ibit q.word 65)

/-- R97, R118: the run that an mx.mm adds to is kept, and the instruction is counted. -/
def mmKept (run : Option MxRun) (start : Nat) : State :=
  let u := (mmResult s p q st run start).1
  let terms := if ifld q.word 63 2 = 1 then 1 else if ifld q.word 63 2 = 2 then 3 else 6
  countMm (match run with
    | some r => modMx u p (fun x => { x with runs := x.runs.filter (fun y => runRows y != mmRows q.word) ++ [r] })
    | none => u) p ((ifld q.word 55 8 + 1) * terms * (mxArrays q.word).length)
    ((ifld q.word 55 8 + 1) * (mmSet s p q).kv * (mmSet s p q).nv * terms)

/-- An mx.mm in flight. -/
def mmFly (run : Option MxRun) (be : Option Nat) : MxFly :=
  { fly0 q with
    kind := 1, arrays := arrayMask (mxArrays q.word), quarters := [(4 * (mmRows q.word).1, 4 * (mmRows q.word).2)], slots := st.slots
    rowSlots := (ifld q.word 55 8 + 1) * (if ifld q.word 63 2 = 1 then 1 else if ifld q.word 63 2 = 2 then 3 else 6)
    lastRun := if ibit q.word 65 && run.isSome then some (mmRows q.word) else none, badEntry := be }

variable {s p q st} (h : MxReady s p 0x22 q) (hst : q.staged = some st)
include h hst

theorem doMm_held (hh : MmHeld s p q) : doMm s p = s := by
  rw [doMm, show mxFront s p 0x22 = some q from h]
  simp only [hst]
  exact if_pos hh

theorem doMm_faults (hh : ¬ MmHeld s p q) {c a : Nat} (hf : mmFaultOf s p q st = some (c, a)) :
    doMm s p = faultQ s (.tile p .mx) q c a 0 0 := by
  rw [mmFaultOf] at hf
  rw [doMm, show mxFront s p 0x22 = some q from h, mxEng_val]
  simp only [hst, hf]
  exact if_neg hh

theorem doMm_overlaps (hh : ¬ MmHeld s p q) (hf : mmFaultOf s p q st = none) (hp : planRun (getMx s p) q.word = .overlap) :
    doMm s p = faultQ s (.tile p .mx) q 0x0A04 0 0 0 := by
  rw [mmFaultOf] at hf
  rw [doMm, show mxFront s p 0x22 = some q from h, mxEng_val]
  simp only [hst, hf]
  refine (if_neg hh).trans ?_
  rw [hp]

theorem doMm_goes (hh : ¬ MmHeld s p q) (hf : mmFaultOf s p q st = none) {run : Option MxRun} {start : Nat}
    (hp : planRun (getMx s p) q.word = .go run start) :
    doMm s p = mxIssued (mmKept s p q st run start) p q (mmFly q st run (mmResult s p q st run start).2) := by
  rw [mmFaultOf] at hf
  rw [doMm, show mxFront s p 0x22 = some q from h]
  simp only [hst, hf]
  refine (if_neg hh).trans ?_
  rw [hp]
  rfl

end
end Sys2Proof.Proofs

/-! PROOFS. What an mx.mm shows that issues (R63, R74, R93, R96, R103). -/
namespace Sys2Proof.Proofs
open Sys2Proof Sys2Proof.Machine Sys2Proof.Laws

section
variable (s : State) (p : Fin 72) (q : QEntry) (st : Staged) (run : Option MxRun) (start : Nat)

/-- R74, R96: output element (m, n) of an mx.mm, from what its entry shows before the instruction. -/
def mmOutput (i : Nat × Nat) : AccRun :=
  mmRun (swappedMx (getMx s p) q.word) q.word st (mmSet s p q) (if run.isSome then ifld q.word 24 16 else 0) start (ibit q.word 65) i
    (accEntry s p (mmKey q.word i))

/-- The same as it is computed, from what the entry shows then. -/
def mmComputed (i : Nat × Nat) (e : AccEntry) : AccRun :=
  mmRun (getMx (mmStarted s p q.word) p) q.word st (mmSet s p q) (if run.isSome then ifld q.word 24 16 else 0) start (ibit q.word 65) i e

/-- The exchange of sets and the abandoned run do not show in the elements. -/
theorem mmComputed_start (i : Nat × Nat) : mmComputed s p q st run start i (accEntry (mmStarted s p q.word) p (mmKey q.word i))
    = mmOutput s p q st run start i := by
  obtain ⟨u, hu⟩ : ∃ u, mmStarted s p q.word = u := ⟨_, rfl⟩
  have h := mmStarts_mmStarted s p q.word
  rw [hu] at h ⊢
  have hsets : (getMx u p).sets = (swappedMx (getMx s p) q.word).sets := h.sets.trans (swappedMx_rest q.word (getMx s p)).1.symm
  have hentry : (if ifld q.word 66 2 == 1 then (0 : Word) else getAcc u p (mmKey q.word i))
      = (if ifld q.word 66 2 == 1 then 0 else getAcc s p (mmKey q.word i))
      ∧ (if ifld q.word 66 2 == 1 then none else getWide u p (mmKey q.word i))
        = (if ifld q.word 66 2 == 1 then none else getWide s p (mmKey q.word i)) := by
    by_cases hi : ifld q.word 66 2 = 1
    · simp [hi]
    · simp [hi, h.acc, h.wide hi]
  rw [mmComputed, hu]
  unfold mmOutput mmRun
  rw [mmElem_congr _ q.word st (mmSet s p q) _ _ _ hsets h.act]
  simp only [accEntry, hentry.1, hentry.2]

/-- R93: an element of the instruction is computed. -/
def mmPut (i : Nat × Nat) : State → State :=
  mmWrite p (getMx (mmStarted s p q.word) p) q.word st (mmSet s p q) (if run.isSome then ifld q.word 24 16 else 0) start (ibit q.word 65) i

theorem mmResult_eq : mmResult s p q st run start = (List.range (ifld q.word 55 8 + 1) ×ˢ List.range (mmSet s p q).nv).foldl
    (addStep p (fun _ => ifld q.word 66 2 == 1) (mmKey q.word) (mmPut s p q st run start)) (mmStarted s p q.word, none) := mmCompute_eq ..

theorem entryWrite_mmPut (i : Nat × Nat) : EntryWrite p (mmKey q.word i) (mmPut s p q st run start i)
    (fun e => ⟨(mmComputed s p q st run start i e).acc, false, (mmComputed s p q st run start i e).w⟩) := entryWrite_mmWrite ..

section
variable (hnv : (mmSet s p q).nv ≤ shapeN (ifld q.word 78 2))
include hnv

/-- R103: the entry that an mx.mm keeps is one that its adder has read poisoned. -/
theorem mmResult_clean : (mmResult s p q st run start).2 = none ↔
    ((ifld q.word 66 2 == 1) = true ∨ ∀ m < ifld q.word 55 8 + 1, ∀ n < (mmSet s p q).nv, accBad s p (mmKey q.word (m, n)) = false) := by
  have h := mmStarts_mmStarted s p q.word
  rw [mmResult_eq, addSteps_clean (entryWrite_mmPut s p q st run start) _ _ (mmKeys_apart q.word _ hnv)]
  simp only [h.bad, true_and, Prod.forall, mem_ranges]
  by_cases hi : ifld q.word 66 2 = 1
  · simp [hi]
  · simp only [beq_false_of_ne hi, Bool.false_eq_true, false_or, and_imp]
    exact forall_congr' fun m => ⟨fun ha hm n hn => ha n hm hn, fun ha n hm hn => ha hm n hn⟩

/-- R93, R103: an entry of its rows and columns takes its element, unless it is poisoned and read. -/
theorem accEntry_mmResult {m n : Nat} (hm : m < ifld q.word 55 8 + 1) (hn : n < (mmSet s p q).nv) :
    let k := mmKey q.word (m, n)
    (((ifld q.word 66 2 == 1) = true ∨ accBad s p k = false) → accBad (mmResult s p q st run start).1 p k = false
      ∧ getAcc (mmResult s p q st run start).1 p k = (mmOutput s p q st run start (m, n)).acc)
    ∧ ((ifld q.word 66 2 == 1) = false → accBad s p k = true → accBad (mmResult s p q st run start).1 p k = true
      ∧ getAcc (mmResult s p q st run start).1 p k = getAcc s p k) := by
  intro k
  have h := mmStarts_mmStarted s p q.word
  have hstep := entrySteps_addStep (start := fun _ => ifld q.word 66 2 == 1) (entryWrite_mmPut s p q st run start)
  have hres := hstep.foldl_mem (x := (m, n)) _ (mmStarted s p q.word, none) (mmKeys_apart q.word (ifld q.word 55 8 + 1) hnv)
    (mem_ranges.2 ⟨hm, hn⟩)
  simp only [mmComputed_start] at hres
  rw [mmResult_eq]
  have hbad : (accEntry (mmStarted s p q.word) p k).bad = accBad s p k := h.bad k
  refine ⟨fun hgo => ?_, fun hi hb => ?_⟩
  · have hno : ¬ ((!(ifld q.word 66 2 == 1) && (accEntry (mmStarted s p q.word) p k).bad) = true) := by
      rw [hbad]
      rcases hgo with hgo | hgo <;> simp [hgo]
    have hval := hres.trans (if_neg hno)
    exact ⟨congrArg AccEntry.bad hval, congrArg AccEntry.acc hval⟩
  · have hval := hres.trans (if_pos (by rw [hbad, hi, hb]; rfl))
    exact ⟨(congrArg AccEntry.bad hval).trans ((h.bad k).trans hb), (congrArg AccEntry.acc hval).trans (h.acc k)⟩

end

theorem accEntry_mmResult_other {k : Nat} (hk : ∀ m < ifld q.word 55 8 + 1, ∀ n < (mmSet s p q).nv, k ≠ mmKey q.word (m, n)) :
    getAcc (mmResult s p q st run start).1 p k = getAcc s p k ∧ accBad (mmResult s p q st run start).1 p k = accBad s p k := by
  have h := mmStarts_mmStarted s p q.word
  have hstep := entrySteps_addStep (start := fun _ => ifld q.word 66 2 == 1) (entryWrite_mmPut s p q st run start)
  have hres := hstep.foldl_other (k := k) (List.range (ifld q.word 55 8 + 1) ×ˢ List.range (mmSet s p q).nv) (mmStarted s p q.word, none)
    fun i hi => hk i.1 (mem_ranges.1 hi).1 i.2 (mem_ranges.1 hi).2
  rw [mmResult_eq]
  exact ⟨(congrArg AccEntry.acc hres).trans (h.acc k), (congrArg AccEntry.bad hres).trans (h.bad k)⟩

theorem mmResult_only : BufferOnly p (mmStarted s p q.word) (mmResult s p q st run start).1 := by
  rw [mmResult_eq]
  exact bufferOnly_addSteps (entryWrite_mmPut s p q st run start) _ (mmStarted s p q.word, none)

/-- R97, R118: the run table and the counts change nothing else of the tile's matrix engine. -/
theorem mmKept_shows : let u := (mmResult s p q st run start).1
    let v := mmKept s p q st run start
    ∃ rs, getMx v p = { getMx u p with runs := rs } ∧ TilesBut [p.val] u v ∧ Moves 0x88 u v := by
  intro u v
  have hcount : ∀ (t : State) (a b : Nat), getMx (countMm t p a b) p = getMx t p ∧ TilesBut [p.val] t (countMm t p a b)
      ∧ Moves 0x88 t (countMm t p a b) :=
    fun t a b => ⟨congrArg Tile.mx (getTile_of_moves (countMm_moves t p a b) (by decide) p),
      fun r _ => getTile_of_moves (countMm_moves t p a b) (by decide) r, (countMm_moves t p a b).le (by decide)⟩
  cases run with
  | none => exact ⟨_, hcount ..⟩
  | some r =>
    obtain ⟨hmx, htiles, hmoves⟩ := hcount (modMx u p (fun x => { x with runs := x.runs.filter (fun y => runRows y != mmRows q.word) ++ [r] }))
      ((ifld q.word 55 8 + 1) * (if ifld q.word 63 2 = 1 then 1 else if ifld q.word 63 2 = 2 then 3 else 6) * (mxArrays q.word).length)
      ((ifld q.word 55 8 + 1) * (mmSet s p q).kv * (mmSet s p q).nv * (if ifld q.word 63 2 = 1 then 1 else if ifld q.word 63 2 = 2 then 3 else 6))
    exact ⟨_, hmx.trans (getMx_modMx_same u p _), tilesBut_trans (tilesBut_modMx u p _) htiles, hmoves.trans ((modMx_moves ..).le (by decide))⟩

/-- R63, R97, R107: what an mx.mm shows that issues, besides its entries. -/
theorem mm_issues (hs : Canon s) (be : Option Nat) : let u := (mmResult s p q st run start).1
    let t := mxIssued (mmKept s p q st run start) p q (mmFly q st run be)
    MxIssues s t p q (mmFly q st run be) ∧ (∀ k, getAcc t p k = getAcc u p k ∧ accBad t p k = accBad u p k)
      ∧ (getMx t p).act = (swappedMx (getMx s p) q.word).act ∧ (getMx t p).sets = (getMx s p).sets ∧ Only [.regs, .engines, .tiles] s t := by
  intro u t
  obtain ⟨rs, hmx, htiles, hmoves⟩ := mmKept_shows s p q st run start
  have h0 := mmStarts_mmStarted s p q.word
  have h1 := mmResult_only s p q st run start
  have hall : Moves 0x88 s (mmKept s p q st run start) := hmoves.trans (h1.moves.trans (h0.moves.le (by decide)))
  have ht : getMx t p = _ := getMx_mxIssued_fly (hall.canon hs) p q (mmFly q st run be)
  rw [hmx] at ht
  refine ⟨mxIssued_issues hs hall (by decide) (tilesBut_trans (tilesBut_trans h0.tiles h1.tiles) htiles) ?_ rfl,
    fun k => ⟨by rw [getAcc, ht]; rfl, by rw [accBad, ht]; rfl⟩, by rw [ht]; exact h1.act.trans h0.act, by rw [ht]; exact h1.sets.trans h0.sets,
    only_of _ ((mxIssued_moves ..).trans (hall.le (by decide))) (by decide)⟩
  rw [hmx]
  exact (congrArg List.length h1.fly).trans h0.fly

end
end Sys2Proof.Proofs

/-! PROOFS. mx.mmp (R77, R78, R81, R85, R94, R103): its packed problems, which write entries of their own, and the statement about matrix
products. -/
namespace Sys2Proof.Proofs
open Sys2Proof Sys2Proof.Machine Sys2Proof.Laws

/-! The elements of an mx.mmp. -/

/-- R78: an output element of a packed problem: its A side, its K_valid, its row and its column. -/
structure PackItem where
  a : PackA
  kv : Nat
  m : Nat
  n : Nat

/-- R94: the entry of an element. -/
def PackItem.key (i : PackItem) : Nat := 16 * (i.a.accq + i.m) + i.n

section
variable (p : Nat) (w : IWord) (b : MxSet)

/-- The elements of a packed problem, row by row; none of a problem that the set does not hold. -/
def packItems (a : PackA) : List PackItem := match b.probs.find? (fun x => x.1 == a.prob) with
  | none => []
  | some (_, kv, nv) => (List.range a.rows.length ×ˢ List.range nv).map (fun i => ⟨a, kv, i.1, i.2⟩)

theorem packItems_none {a : PackA} (h : b.probs.find? (fun x => x.1 == a.prob) = none) : packItems b a = [] := by
  rw [packItems, h]

theorem packItems_some {a : PackA} {k kv nv : Nat} (h : b.probs.find? (fun x => x.1 == a.prob) = some (k, kv, nv)) :
    packItems b a = (List.range a.rows.length ×ˢ List.range nv).map (fun i => ⟨a, kv, i.1, i.2⟩) := by
  rw [packItems, h]

theorem mem_packItems {a : PackA} {i : PackItem} : i ∈ packItems b a ↔
    ∃ k nv, b.probs.find? (fun x => x.1 == a.prob) = some (k, i.kv, nv) ∧ i.a = a ∧ i.m < a.rows.length ∧ i.n < nv := by
  unfold packItems
  split
  · next h => simp [h]
  · next k kv nv h =>
    rw [List.mem_map]
    constructor
    · rintro ⟨x, hx, rfl⟩
      exact ⟨k, nv, h, rfl, (mem_ranges.1 hx).1, (mem_ranges.1 hx).2⟩
    · rintro ⟨k', nv', h', rfl, hm, hn⟩
      obtain ⟨-, rfl, rfl⟩ : k = k' ∧ kv = i.kv ∧ nv = nv' := by simpa using h.symm.trans h'
      exact ⟨(i.m, i.n), mem_ranges.2 ⟨hm, hn⟩, rfl⟩

/-- R96: the value of an element from that of its entry, with the overflow of the integer adder. -/
def packValue (i : PackItem) (v : Word) : Word × Bool := packElem w b i.a i.kv i.m i.n (if i.a.start then 0 else v)

/-- R94: an element is computed. -/
def packWrite (i : PackItem) (u : State) : State :=
  orMxFlags (setAcc u p i.key (packValue w b i (getAcc u p i.key)).1 false) p noFlags (packValue w b i (getAcc u p i.key)).2

theorem entryWrite_packWrite (i : PackItem) :
    EntryWrite p i.key (packWrite p w b i) (fun e => ⟨(packValue w b i e.acc).1, false, e.wide⟩) where
  own u := by
    rw [packWrite, accEntry_of_getMx (getMx_orMxFlags ..), accEntry_setAcc_same]
    rfl
  other u j hj := by rw [packWrite, accEntry_of_getMx (getMx_orMxFlags ..), accEntry_setAcc_other _ _ _ _ _ hj]
  only u := (bufferOnly_setAcc ..).trans (bufferOnly_of_regs p (orMxFlags_moves ..))

/-- R78: a packed problem computes its elements as the adder does. -/
theorem packCompute_eq (acc : State × Option Nat) (a : PackA) :
    packCompute p w b acc a = (packItems b a).foldl (addStep p (·.a.start) PackItem.key (packWrite p w b)) acc := by
  unfold packCompute
  split
  · next h =>
    rw [packItems_none b h]
    rfl
  · next h =>
    rw [packItems_some b h, List.foldl_map, foldl_product]
    rfl

theorem packComputes_eq (packs : List PackA) (acc : State × Option Nat) : packs.foldl (packCompute p w b) acc =
    (packs.flatMap (packItems b)).foldl (addStep p (·.a.start) PackItem.key (packWrite p w b)) acc := by
  rw [List.foldl_flatMap]
  exact congrArg (fun f => packs.foldl f acc) (funext fun acc => funext fun a => packCompute_eq p w b acc a)

/-- R81: no two problems share an entry. -/
theorem packsMeet_eq_false : ∀ packs : List PackA, packsMeet packs = false ↔
    packs.Pairwise (fun a b => rangesMeet (a.accq, a.rows.length) (b.accq, b.rows.length) = false)
  | [] => by simp [packsMeet]
  | a :: r => by
    rw [packsMeet, Bool.or_eq_false_iff, packsMeet_eq_false r, List.pairwise_cons, List.any_eq_false]
    simp only [Bool.not_eq_true]

section
variable {b} (hnv : ∀ y ∈ b.probs, y.2.2 ≤ 16)
include hnv

theorem packItem_col {a : PackA} {i : PackItem} (hi : i ∈ packItems b a) : i.a = a ∧ i.m < a.rows.length ∧ i.n < 16 := by
  obtain ⟨k, nv, hfind, ha, hm, hn⟩ := (mem_packItems b).1 hi
  exact ⟨ha, hm, Nat.lt_of_lt_of_le hn (hnv _ (List.mem_of_find?_eq_some hfind))⟩

/-- R81, R94: the elements of problems that share no entry have entries of their own. -/
theorem packItems_apart {packs : List PackA} (hpacks : packsMeet packs = false) :
    (packs.flatMap (packItems b)).Pairwise (fun i j => i.key ≠ j.key) := by
  rw [List.pairwise_flatMap]
  refine ⟨fun a _ => ?own, ((packsMeet_eq_false packs).1 hpacks).imp fun {a a'} hmeet i hi j hj hkey => ?apart⟩
  case own =>
    unfold packItems
    split
    · exact List.Pairwise.nil
    · next k kv nv hfind =>
      have hle : nv ≤ 16 := hnv _ (List.mem_of_find?_eq_some hfind)
      rw [List.pairwise_map]
      refine product_apart (key := fun i => PackItem.key ⟨a, kv, i.1, i.2⟩) fun m n m' n' hn hn' h => ?_
      simp only [PackItem.key] at h
      omega
  case apart =>
    obtain ⟨rfl, him, hin⟩ := packItem_col hnv hi
    obtain ⟨rfl, hjm, hjn⟩ := packItem_col hnv hj
    simp only [rangesMeet, Bool.and_eq_false_iff, decide_eq_false_iff_not] at hmeet
    unfold PackItem.key at hkey
    omega

end

end

/-! The instruction. -/

section
variable (s : State) (p : Fin 72) (q : QEntry) (st : Staged)

/-- R78: what an mx.mmp makes of the accumulation buffer. -/
def mmpResult : State × Option Nat := st.packs.foldl (packCompute p q.word (mmSet s p q)) (mmSwapped s p q.word, none)

/-- R118: the instruction is counted. -/
def mmpKept : State :=
  let macs := sumNat (st.packs.map (fun a => match (mmSet s p q).probs.find? (fun x => x.1 == a.prob) with
    | some (_, kv, nv) => a.rows.length * kv * nv
    | none => 0))
  countMm (mmpResult s p q st).1 p ((st.packs.map (fun a => a.rows.length)).foldl max 0) macs

/-- An mx.mmp in flight. -/
def mmpFly : MxFly :=
  { fly0 q with
    kind := 1, arrays := arrayMask (mxArrays q.word), quarters := st.packs.map (fun a => (a.accq, a.rows.length)), slots := st.slots
    rowSlots := (st.packs.map (fun a => a.rows.length)).foldl max 0, badEntry := (mmpResult s p q st).2 }

/-- R85, R109: what an mx.mmp waits for, and what it finds wrong. -/
def mmpHeld : Bool := mmHeld s (getMx s p) (mxArrays q.word) (ibit q.word 75) (st.packs.map (fun a => (a.accq, a.rows.length)))
def mmpFaultOf : Option (Nat × Nat) :=
  mmFault (getMx s p) (mxArrays q.word) (ibit q.word 75) packedShape (ifld q.word 71 4) 1 (ifld q.word 47 16) st.bad

section
variable {s p q st} (h : MxReady s p 0x23 q) (hst : q.staged = some st)
include h hst

theorem doMmp_held (hh : mmpHeld s p q st = true) : doMmp s p = s := by
  rw [doMmp, show mxFront s p 0x23 = some q from h]
  simp only [hst]
  exact if_pos hh

theorem doMmp_faults (hh : mmpHeld s p q st = false) {c a : Nat} (hf : mmpFaultOf s p q st = some (c, a)) :
    doMmp s p = faultQ s (.tile p .mx) q c a 0 0 := by
  rw [mmpFaultOf] at hf
  rw [doMmp, show mxFront s p 0x23 = some q from h, mxEng_val]
  simp only [hst, hf]
  exact if_neg (Bool.eq_false_iff.1 hh)

theorem doMmp_overlaps (hh : mmpHeld s p q st = false) (hf : mmpFaultOf s p q st = none) (hm : packsMeet st.packs = true) :
    doMmp s p = faultQ s (.tile p .mx) q 0x0A05 0 0 0 := by
  rw [mmpFaultOf] at hf
  rw [doMmp, show mxFront s p 0x23 = some q from h, mxEng_val]
  simp only [hst, hf]
  exact (if_neg (Bool.eq_false_iff.1 hh)).trans (if_pos hm)

theorem doMmp_goes (hh : mmpHeld s p q st = false) (hf : mmpFaultOf s p q st = none) (hm : packsMeet st.packs = false) :
    doMmp s p = mxIssued (mmpKept s p q st) p q (mmpFly s p q st) := by
  rw [mmpFaultOf] at hf
  rw [doMmp, show mxFront s p 0x23 = some q from h]
  simp only [hst, hf]
  exact (if_neg (Bool.eq_false_iff.1 hh)).trans ((if_neg (Bool.eq_false_iff.1 hm)).trans rfl)

end

theorem entrySteps_pack : EntrySteps (fun a : State × Option Nat => accEntry a.1 p)
    (addStep p (·.a.start) PackItem.key (packWrite p q.word (mmSet s p q))) PackItem.key (fun i e =>
      if !i.a.start && e.bad then e else ⟨(packValue q.word (mmSet s p q) i e.acc).1, false, e.wide⟩) :=
  entrySteps_addStep (entryWrite_packWrite p q.word (mmSet s p q))

/-- R94, R103: an entry of a problem takes its element, unless it is poisoned and read. -/
theorem accEntry_mmpResult (hnv : ∀ y ∈ (mmSet s p q).probs, y.2.2 ≤ 16) (hpacks : packsMeet st.packs = false) {i : PackItem}
    (hi : i ∈ st.packs.flatMap (packItems (mmSet s p q))) : let u := (mmpResult s p q st).1
    ((i.a.start = true ∨ accBad s p i.key = false) → accBad u p i.key = false
      ∧ getAcc u p i.key = (packValue q.word (mmSet s p q) i (getAcc s p i.key)).1)
    ∧ (i.a.start = false → accBad s p i.key = true → accBad u p i.key = true ∧ getAcc u p i.key = getAcc s p i.key) := by
  intro u
  have h0 := mmStarts_mmSwapped s p q.word
  have hres := (entrySteps_pack s p q).foldl_mem _ (mmSwapped s p q.word, none) (packItems_apart hnv hpacks) hi
  rw [← packComputes_eq] at hres
  have hbad : (accEntry (mmSwapped s p q.word) p i.key).bad = accBad s p i.key := h0.bad _
  have hacc : (accEntry (mmSwapped s p q.word) p i.key).acc = getAcc s p i.key := h0.acc _
  refine ⟨fun hgo => ?_, fun hstart hb => ?_⟩
  · have hno : ¬ ((!i.a.start && (accEntry (mmSwapped s p q.word) p i.key).bad) = true) := by
      rw [hbad]
      rcases hgo with hgo | hgo <;> simp [hgo]
    have hval := hres.trans (if_neg hno)
    rw [hacc] at hval
    exact ⟨congrArg AccEntry.bad hval, congrArg AccEntry.acc hval⟩
  · have hval := hres.trans (if_pos (by rw [hbad, hstart, hb]; rfl))
    exact ⟨(congrArg AccEntry.bad hval).trans (hbad.trans hb), (congrArg AccEntry.acc hval).trans hacc⟩

theorem accEntry_mmpResult_other (hnv : ∀ y ∈ (mmSet s p q).probs, y.2.2 ≤ 16) {k : Nat}
    (hk : ∀ a ∈ st.packs, k / 16 < a.accq ∨ a.accq + a.rows.length ≤ k / 16) :
    getAcc (mmpResult s p q st).1 p k = getAcc s p k ∧ accBad (mmpResult s p q st).1 p k = accBad s p k := by
  have h0 := mmStarts_mmSwapped s p q.word
  have hres := (entrySteps_pack s p q).foldl_other (k := k) (st.packs.flatMap (packItems (mmSet s p q))) (mmSwapped s p q.word, none)
    fun i hi hkey => by
      obtain ⟨a, ha, hia⟩ := List.mem_flatMap.1 hi
      obtain ⟨rfl, hm, hn⟩ := packItem_col hnv hia
      have := hk _ ha
      unfold PackItem.key at hkey
      omega
  rw [← packComputes_eq] at hres
  exact ⟨(congrArg AccEntry.acc hres).trans (h0.acc k), (congrArg AccEntry.bad hres).trans (h0.bad k)⟩

/-- R63, R107: what an mx.mmp shows that issues, besides its entries. -/
theorem mmp_issues (hs : Canon s) : let u := (mmpResult s p q st).1
    let t := mxIssued (mmpKept s p q st) p q (mmpFly s p q st)
    MxIssues s t p q (mmpFly s p q st) ∧ (∀ k, getAcc t p k = getAcc u p k ∧ accBad t p k = accBad u p k)
      ∧ (getMx t p).act = (swappedMx (getMx s p) q.word).act ∧ (getMx t p).sets = (getMx s p).sets ∧ (getMx t p).runs = (getMx s p).runs
      ∧ Only [.regs, .engines, .tiles] s t := by
  intro u t
  have h0 := mmStarts_mmSwapped s p q.word
  have hruns : (getMx (mmSwapped s p q.word) p).runs = (getMx s p).runs := by
    rw [getMx_mmSwapped]
    exact (swappedMx_rest q.word (getMx s p)).2.2.2.2.2
  have h1 : BufferOnly p (mmSwapped s p q.word) u := by
    show BufferOnly p _ (mmpResult s p q st).1
    rw [mmpResult, packComputes_eq]
    exact bufferOnly_addSteps (entryWrite_packWrite p q.word (mmSet s p q)) _ (mmSwapped s p q.word, none)
  have hcount : Moves 0x8 u (mmpKept s p q st) := countMm_moves ..
  have h2 := h1.trans (bufferOnly_of_regs p hcount)
  have hmx : getMx (mmpKept s p q st) p = getMx u p := congrArg Tile.mx (getTile_of_moves hcount (by decide) p)
  have hall : Moves 0x88 s (mmpKept s p q st) := h2.moves.trans (h0.moves.le (by decide))
  have ht : getMx t p = _ := getMx_mxIssued_fly (hall.canon hs) p q (mmpFly s p q st)
  refine ⟨mxIssued_issues hs hall (by decide) (tilesBut_trans h0.tiles h2.tiles) ((congrArg List.length h2.fly).trans h0.fly) rfl,
    fun k => ⟨by rw [getAcc, ht, hmx]; rfl, by rw [accBad, ht, hmx]; rfl⟩, by rw [ht]; exact h2.act.trans h0.act,
    by rw [ht]; exact h2.sets.trans h0.sets, by rw [ht]; exact h2.runs.trans hruns,
    only_of _ ((mxIssued_moves ..).trans (hall.le (by decide))) (by decide)⟩

end

/-- Settles O23: the elements of an instruction have entries of their own, so each entry takes one element, from what it showed before. -/
theorem matrixProducts : Obligations.MatrixProducts := by
  unfold Obligations.MatrixProducts
  refine ⟨fun p s q st run start => ?mm, fun p s q st => ?mmp, fun p s q st => ?waits⟩
  case mm =>
    intro w x sh as sw rows b init x' key terms hs h hst hheld hfault hplan hnv
    have hgo : ¬ MmHeld s p q := by
      rintro (hh | hh)
      · exact Bool.false_ne_true (hheld.symm.trans hh)
      · exact RunPlan.noConfusion (hplan.symm.trans hh)
    obtain ⟨hissues, hentry, hact, hsets, honly⟩ := mm_issues s p q st run start hs (mmResult s p q st run start).2
    refine ⟨_, congrArg Host.Outcome.next (doMm_goes h hst hgo hfault hplan), ⟨_, hissues, mmResult_clean s p q st run start hnv⟩,
      fun m hm n hn => ?own, fun k hk => ?other, hact, hsets, honly⟩
    case own =>
      rw [(hentry _).1, (hentry _).2]
      exact accEntry_mmResult s p q st run start hnv hm hn
    case other =>
      rw [(hentry k).1, (hentry k).2]
      exact accEntry_mmResult_other s p q st run start hk
  case mmp =>
    intro w x as sw b held fault hs h hst
    have hfaultable := faultable_of_mxReady h
    refine ⟨fun hh => congrArg Host.Outcome.next (doMmp_held h hst hh), fun hh => ⟨fun c a hf => ?fault, fun hf hm => ?overlap⟩,
      fun hh hf hm hnv => ?goes⟩
    case fault => exact ⟨_, congrArg Host.Outcome.next (doMmp_faults h hst hh hf), faultEngine_faultsWith hfaultable ..⟩
    case overlap => exact ⟨_, congrArg Host.Outcome.next (doMmp_overlaps h hst hh hf hm), faultEngine_faultsWith hfaultable ..⟩
    case goes =>
      obtain ⟨hissues, hentry, hact, hsets, hruns, honly⟩ := mmp_issues s p q st hs
      refine ⟨_, congrArg Host.Outcome.next (doMmp_goes h hst hh hf hm), fun a ha k kv nv hfind m hrow n hn => ?own, fun i hi => ?other, ?act,
        hsets, hruns, hissues.queue, hissues.others, hissues.tiles, honly⟩
      case own =>
        have hitem : (⟨a, kv, m, n⟩ : PackItem) ∈ st.packs.flatMap (packItems (mmSet s p q)) :=
          List.mem_flatMap.2 ⟨a, ha, (mem_packItems _).2 ⟨k, nv, hfind, rfl, hrow, hn⟩⟩
        intro i
        rw [(hentry i).1, (hentry i).2]
        exact accEntry_mmpResult s p q st hnv hm hitem
      case other =>
        rw [(hentry i).1, (hentry i).2]
        exact accEntry_mmpResult_other s p q st hnv hi
      case act =>
        rw [hact, swappedMx]
        exact apply_ite MxState.act ..
  case waits =>
    intro w x held fault faults hs h hst
    have hfaultable := faultable_of_mxReady h
    have hacc : ∀ code, ∀ i, ∀ a, getAcc (faultQ s (.tile p .mx) q code a 0 0) p i = getAcc s p i := fun code i a => by
      rw [getAcc, show getMx (faultQ s (.tile p .mx) q code a 0 0) p = _ from getMx_faultEngine (by decide) hfaultable _ _ _ _ _ _ _ hs p, getAcc]
    refine ⟨fun hh => congrArg Host.Outcome.next (doMm_held h hst hh), fun hh => ⟨fun c a hf => ?fault, fun hf hp => ?overlap⟩⟩
    case fault =>
      exact ⟨_, congrArg Host.Outcome.next (doMm_faults h hst hh hf), faultEngine_faultsWith hfaultable .., fun i => hacc c i a⟩
    case overlap =>
      exact ⟨_, congrArg Host.Outcome.next (doMm_overlaps h hst hh hf hp), faultEngine_faultsWith hfaultable .., fun i => hacc _ i 0⟩

end Sys2Proof.Proofs

/-! PROOFS. The entries of an mx.st or mx.ldacc (R108), and mx.ldacc (R87): each element of its rows put into its entry. -/
namespace Sys2Proof.Proofs
open Sys2Proof Sys2Proof.Machine Sys2Proof.Laws

/-! The entries of an mx.st or mx.ldacc. -/

/-- R108: entries to a row. -/
def stLen (w : IWord) : Nat := 16 * (ifld w 54 4 + 1)

/-- R108: the entry of element i of row m. -/
def stKey (w : IWord) (i : Nat × Nat) : Nat := 16 * (stQuarters w).1 + i.1 * stLen w + i.2

theorem stLen_pos (w : IWord) : 0 < stLen w := Nat.mul_pos (by decide) (Nat.succ_pos _)

theorem stQuarters_entries (w : IWord) : 16 * (stQuarters w).2 = (ifld w 58 8 + 1) * stLen w := by
  simp only [stQuarters, stLen]
  ring

theorem stKeys_apart (w : IWord) (m : Nat) : (List.range m ×ˢ List.range (stLen w)).Pairwise (fun i j => stKey w i ≠ stKey w j) :=
  product_apart fun m n m' n' hn hn' h => by
    have h' : n + stLen w * m = n' + stLen w * m' := by
      unfold stKey at h
      simp only [Nat.mul_comm _ (stLen w)] at h
      omega
    have hm := congrArg (· / stLen w) h'
    have hmod := congrArg (· % stLen w) h'
    simp only [Nat.add_mul_div_left _ _ (stLen_pos w), Nat.div_eq_of_lt hn, Nat.div_eq_of_lt hn', Nat.zero_add] at hm
    simp only [Nat.add_mul_mod_self_left, Nat.mod_eq_of_lt hn, Nat.mod_eq_of_lt hn'] at hmod
    exact ⟨hm, hmod⟩

/-- An entry of the rows lies among those that the statement counts. -/
theorem stKey_lt (w : IWord) {m i : Nat} (hm : m ≤ ifld w 58 8) (hi : i < stLen w) :
    stKey w (m, i) < 16 * (stQuarters w).1 + 16 * (stQuarters w).2 := by
  rw [stQuarters_entries, stKey]
  have : (m + 1) * stLen w ≤ (ifld w 58 8 + 1) * stLen w := Nat.mul_le_mul_right _ (by omega)
  rw [Nat.add_mul, Nat.one_mul] at this
  simp only
  omega

/-! mx.ldacc. -/

section
variable (s : State) (p : Nat) (w : IWord)

/-- R108: the bytes of row m that an mx.ldacc reads. -/
def ldaccRow (m : Nat) : List PByte :=
  tileRead s p (refAddr (mxG s p w 49) + (if ibit w 48 then 0 else m * refStride (mxG s p w 49))) (4 * stLen w)

/-- The bytes of one of its elements. -/
def ldaccElem (i : Nat × Nat) : List PByte := ((ldaccRow s p w i.1).drop (4 * i.2)).take 4

/-- R108: an element is put into its entry. -/
def ldaccPut (u : State) (i : Nat × Nat) : State :=
  setAcc u p (stKey w i) (BitVec.ofNat 32 (ofBytes ((ldaccElem s p w i).map (·.b)))) ((ldaccElem s p w i).any (·.bad))

theorem entrySteps_ldaccPut : EntrySteps (fun u => accEntry u p) (ldaccPut s p w) (stKey w) (fun i e =>
    ⟨BitVec.ofNat 32 (ofBytes ((ldaccElem s p w i).map (·.b))), (ldaccElem s p w i).any (·.bad), e.wide⟩) where
  own _ _ := accEntry_setAcc_same ..
  other _ _ _ hk := accEntry_setAcc_other _ _ _ _ _ hk

/-- R108: the elements of all its rows stand in their entries. -/
def ldaccLoaded : State := (List.range (ifld w 58 8 + 1) ×ˢ List.range (stLen w)).foldl (ldaccPut s p w) s

theorem ldaccLoaded_only : BufferOnly p s (ldaccLoaded s p w) := BufferOnly.foldl (st := id) (fun _ _ => bufferOnly_setAcc ..) _ s

end

section
variable {s : State} {p : Fin 72} {q : QEntry}

theorem doLdacc_held (h : MxReady s p 0x25 q) (hh : stHeld (getMx s p) [stQuarters q.word] = true) : doLdacc s p = s := by
  rw [doLdacc, show mxFront s p 0x25 = some q from h]
  exact if_pos hh

/-- R108: a row that is read while entries are put in reads as before. -/
theorem tileRead_of_moves {m : Nat} {s u : State} (h : Moves m s u) (hm : m.testBit 4 = false ∧ m.testBit 5 = false) (p a n : Nat) :
    tileRead u p a n = tileRead s p a n := by
  have hmem : ∀ x, memByte u x = memByte s x := memByte_of_moves h hm.1
  have hbad : ∀ x, isBad u x = isBad s x := isBad_of_moves h hm.2
  simp only [tileRead, readBytes, hmem, hbad]

theorem doLdacc_loads (h : MxReady s p 0x25 q) (hh : stHeld (getMx s p) [stQuarters q.word] = false) :
    doLdacc s p = mxIssued (ldaccLoaded s p q.word) p q { fly0 q with kind := 3, quarters := [stQuarters q.word] } := by
  rw [doLdacc, show mxFront s p 0x25 = some q from h]
  refine (if_neg (Bool.eq_false_iff.1 hh)).trans ?_
  rw [ldaccLoaded, foldl_product]
  refine congrArg (mxIssued · p q _) (foldl_congr_of_inv (Inv := fun u => Moves 0x80 s u) (fun u m hu => ⟨?same, ?keeps⟩) _ s (Moves.refl _ s))
  case same =>
    simp only [ldaccPut, ldaccElem, ldaccRow, ← tileRead_of_moves hu (by decide)]
    rfl
  case keeps => exact Moves.foldl _ (fun u i => setAcc_moves ..) u hu

end

end Sys2Proof.Proofs

/-! PROOFS. The rows that an mx.st writes (R101, R113): each where it goes, the last that has a byte stands, and what the rows leave alone. -/
namespace Sys2Proof.Proofs
open Sys2Proof Sys2Proof.Machine Sys2Proof.Laws

/-! Bytes at an address. -/

/-- The byte that bytes from address a on have at address x. -/
def spanByte (a : Nat) (bs : List Byte) (x : Nat) : Option Byte := if a ≤ x then bs[x - a]? else none

theorem spanByte_in {a i : Nat} {bs : List Byte} (h : i < bs.length) : spanByte a bs (a + i) = some ((bs[i]?).getD 0) := by
  rw [spanByte, if_pos (Nat.le_add_right a i), Nat.add_sub_cancel_left, List.getElem?_eq_getElem h]
  rfl

theorem spanByte_out {a x : Nat} {bs : List Byte} (h : x < a ∨ a + bs.length ≤ x) : spanByte a bs x = none := by
  unfold spanByte
  split
  · exact List.getElem?_eq_none (by omega)
  · rfl

theorem spanByte_nil (a x : Nat) : spanByte a [] x = none := ite_self none

/-- R127: a byte of a tile store after a write. -/
theorem memByte_tileWrite (s : State) (p a : Nat) (bs : List Byte) (x : Nat) :
    memByte (tileWrite s p a (good bs)) x = (spanByte (tsAddr p a) bs x).getD (memByte s x) := by
  by_cases h : x < tsAddr p a ∨ tsAddr p a + bs.length ≤ x
  · rw [memByte_tileWrite_out s p a bs h, spanByte_out h]
    rfl
  · obtain ⟨i, rfl⟩ : ∃ i, x = tsAddr p a + i := ⟨x - tsAddr p a, by omega⟩
    have hi : i < bs.length := by omega
    rw [spanByte_in hi, ← tsAddr_add, memByte_tileWrite_in s p a bs hi, List.getElem?_eq_getElem hi]
    rfl

/-! What a row leaves alone. -/

/-- The registers that a row of an mx.st may write: digests torn, and the engine's flags. -/
def stKeys (p : Nat) : List Nat := [fldKey 2 TL_DIGEST_ST_TORN p 0, fldKey 1 MG_DIGEST_STATUS_TORN 0 0, fldKey 3 MX_FLAGS_OVF p 0]

/-- What rows written to a tile store keep of its tile and of the state. -/
structure RowKept (p : Nat) (s u : State) : Prop where
  moves : Moves 0x40000b8 s u
  tiles : TilesBut [p] s u
  mx : getMx u p = getMx s p
  regs : RegsBut (stKeys p) s u

theorem RowKept.refl (p : Nat) (s : State) : RowKept p s s := ⟨Moves.refl _ s, fun _ _ => rfl, rfl, regs_refl _ s⟩

theorem RowKept.trans {p : Nat} {s u v : State} (h : RowKept p s u) (k : RowKept p u v) : RowKept p s v :=
  ⟨k.moves.trans h.moves, tilesBut_trans h.tiles k.tiles, k.mx.trans h.mx, regs_trans h.regs k.regs⟩

section
variable (s : State) (p : Nat)

theorem getMx_cvShadow (u a n : Nat) : getMx (cvShadow s p u a n) p = getMx s p := by
  unfold cvShadow
  extract_lets t st lo ws
  split
  · exact (congrArg Tile.mx (getTile_setTile_same s p _)).trans rfl
  · rfl

theorem getMx_tileWrite (a : Nat) (bs : List PByte) : getMx (tileWrite s p a bs) p = getMx s p := by
  rw [getMx, getTile, tiles_tileWrite, ← getTile, ← getMx, getMx_cvShadow, getMx_cvShadow]

theorem regsBut_tileWrite (a : Nat) (bs : List PByte) :
    RegsBut [fldKey 2 TL_DIGEST_ST_TORN p 0, fldKey 1 MG_DIGEST_STATUS_TORN 0 0] s (tileWrite s p a bs) := by
  have hshadow : (cvShadow (cvShadow s p 0 a bs.length) p 1 a bs.length).regs = s.regs :=
    ((cvShadow_moves ..).same .regs (by decide)).symm.trans ((cvShadow_moves ..).same .regs (by decide)).symm
  exact regs_trans (regsBut_of_regs _ hshadow) (regs_trans (regsBut_tearDigest _ p a bs.length)
    (regsBut_of_regs _ ((writeBytes_moves ..).same .regs (by decide)).symm))

theorem regsBut_orMxFlags (f : CFlags) (iovf : Bool) : RegsBut [fldKey 3 MX_FLAGS_OVF p 0] s (orMxFlags s p f iovf) := by
  have step : ∀ (c : Bool) (g : Fld) (u : State), fldKey g.blk g p 0 = fldKey 3 MX_FLAGS_OVF p 0 →
      RegsBut [fldKey 3 MX_FLAGS_OVF p 0] u (if c then setF u g p 1 else u) := fun c g u hg => by
    cases c
    · exact regs_refl _ u
    · exact hg ▸ regsBut_wrF u g.blk g p 0 1
  exact regs_trans (regs_trans (regs_trans (step _ MX_FLAGS_OVF s rfl) (step _ MX_FLAGS_UNF _ rfl)) (step _ MX_FLAGS_NANL _ rfl))
    (step _ MX_FLAGS_IOVF _ rfl)

theorem rowKept_tileWrite (a : Nat) (bs : List PByte) : RowKept p s (tileWrite s p a bs) :=
  ⟨tileWrite_moves .., tilesBut_tileWrite s p a bs, getMx_tileWrite s p a bs, regs_mono (regsBut_tileWrite s p a bs) (by simp [stKeys])⟩

theorem rowKept_orMxFlags (f : CFlags) (iovf : Bool) : RowKept p s (orMxFlags s p f iovf) :=
  ⟨(orMxFlags_moves ..).le (by decide), fun r _ => getTile_of_moves (orMxFlags_moves ..) (by decide) r, getMx_orMxFlags ..,
    regs_mono (regsBut_orMxFlags s p f iovf) (by simp [stKeys])⟩

end

/-- A general register is none of those. -/
theorem mxG_of_rowKept {p : Fin 72} {s u : State} (h : RowKept p s u) (w : IWord) (lo : Nat) : mxG u p w lo = mxG s p w lo := by
  have hp := p.isLt
  have hn : ifld w lo 5 < 32 := bits_lt ..
  rw [mxG, mxG, mxEng_val]
  refine h.regs _ ?_
  simp only [stKeys, List.mem_cons, List.not_mem_nil, or_false, fldKey, regKey, engBlk, engInst, TL_DIGEST_ST_TORN, MG_DIGEST_STATUS_TORN,
    MX_FLAGS_OVF]
  omega

/-! The rows of an mx.st. -/

section
variable (s : State) (p : Nat) (w : IWord)

/-- R113: row m as bytes, scale bytes and flags. -/
def stOut (m : Nat) : List Byte × List Byte × CFlags :=
  stRow w ((List.range (16 * (ifld w 54 4 + 1))).map (fun i => getAcc s p (16 * (stQuarters w).1 + m * (16 * (ifld w 54 4 + 1)) + i)))

/-- R108: where row m and its scale bytes go in the tile store. -/
def stDataAt (m : Nat) : Nat := rowStart (stFmt w) (refAddr (mxG s p w 41) + m * refStride (mxG s p w 41))
def stScaleAt (m : Nat) : Nat := refAddr (mxG s p w 36) + m * refStride (mxG s p w 36)

/-- R101, R113: a row of given bytes, scale bytes and flags is written where row m goes. -/
def rowPut (u : State) (m : Nat) (r : List Byte × List Byte × CFlags) : State :=
  let v := tileWrite u p (stDataAt s p w m) (good r.1)
  orMxFlags (if r.2.1.isEmpty then v else tileWrite v p (stScaleAt s p w m) (good r.2.1)) p r.2.2 false

def stPut (u : State) (m : Nat) : State := rowPut s p w u m (stOut s p w m)

/-- R113: the byte that row m has at a device address: of its scale bytes, or else of its elements. -/
def stByte (m x : Nat) : Option Byte :=
  (spanByte (tsAddr p (stScaleAt s p w m)) (stOut s p w m).2.1 x).or (spanByte (tsAddr p (stDataAt s p w m)) (stOut s p w m).1 x)

theorem memByte_stPut (u : State) (m x : Nat) : memByte (stPut s p w u m) x = (stByte s p w m x).getD (memByte u x) := by
  rw [stPut, rowPut, memByte_of_moves (orMxFlags_moves ..) (by decide), stByte]
  split
  · next hempty =>
    rw [memByte_tileWrite, List.isEmpty_iff.1 hempty, spanByte_nil, Option.none_or]
  · rw [memByte_tileWrite, memByte_tileWrite, Option.getD_or]

theorem rowKept_stPut (u : State) (m : Nat) : RowKept p u (stPut s p w u m) := by
  have hrow := rowKept_tileWrite u p (stDataAt s p w m) (good (stOut s p w m).1)
  unfold stPut rowPut
  refine RowKept.trans ?_ (rowKept_orMxFlags ..)
  split
  · exact hrow
  · exact hrow.trans (rowKept_tileWrite ..)

/-- The rows before row n are written. -/
def stRows (n : Nat) : State := (List.range n).foldl (stPut s p w) s

theorem stRows_succ (n : Nat) : stRows s p w (n + 1) = stPut s p w (stRows s p w n) n := by
  rw [stRows, List.range_succ, List.foldl_append]
  rfl

theorem rowKept_stRows : ∀ n, RowKept p s (stRows s p w n)
  | 0 => .refl p s
  | n + 1 => by
    rw [stRows_succ]
    exact (rowKept_stRows n).trans (rowKept_stPut ..)

variable {x : Nat}

theorem memByte_stRows_none : ∀ n, (∀ m < n, stByte s p w m x = none) → memByte (stRows s p w n) x = memByte s x
  | 0, _ => rfl
  | n + 1, h => by
    rw [stRows_succ, memByte_stPut, h n (Nat.lt_succ_self n), Option.getD_none]
    exact memByte_stRows_none n fun m hm => h m (Nat.lt_succ_of_lt hm)

/-- R113: of the rows that have a byte the last one stands. -/
theorem memByte_stRows_last {m : Nat} {v : Byte} (hv : stByte s p w m x = some v) : ∀ n, m < n →
    (∀ m' < n, m < m' → stByte s p w m' x = none) → memByte (stRows s p w n) x = v
  | n + 1, hm, h => by
    rw [stRows_succ, memByte_stPut]
    rcases Nat.lt_succ_iff_lt_or_eq.1 hm with hm | rfl
    · rw [h n (Nat.lt_succ_self n) hm, Option.getD_none]
      exact memByte_stRows_last hv n hm fun m' hm' => h m' (Nat.lt_succ_of_lt hm')
    · rw [hv]
      rfl

end
end Sys2Proof.Proofs

/-! PROOFS. mx.st and mx.ldacc (R87, R101, R108, R113): what each does with its entries and rows, and the statement about both. -/
namespace Sys2Proof.Proofs
open Sys2Proof Sys2Proof.Machine Sys2Proof.Laws

/-- R107: an instruction that issues leaves the entries as its effects left them. -/
theorem accEntry_mxIssued {u : State} (hu : Canon u) (p : Fin 72) (q : QEntry) (f : MxFly) (k : Nat) :
    accEntry (mxIssued u p q f) p k = accEntry u p k := by
  simp only [accEntry, getAcc, accBad, getWide, getMx_mxIssued_fly hu]

/-! The bytes of a row. -/

section
variable {s : State} {p : Nat} {w : IWord} {m : Nat}

theorem stByte_none {x : Nat} (hd : x < tsAddr p (stDataAt s p w m) ∨ tsAddr p (stDataAt s p w m) + (stOut s p w m).1.length ≤ x)
    (hs : x < tsAddr p (stScaleAt s p w m) ∨ tsAddr p (stScaleAt s p w m) + (stOut s p w m).2.1.length ≤ x) : stByte s p w m x = none := by
  rw [stByte, spanByte_out hd, spanByte_out hs, Option.none_or]

theorem stByte_scale {i : Nat} (hi : i < (stOut s p w m).2.1.length) :
    stByte s p w m (tsAddr p (stScaleAt s p w m) + i) = some (((stOut s p w m).2.1[i]?).getD 0) := by
  rw [stByte, spanByte_in hi, Option.some_or]

/-- R113: an element's byte stands where no scale byte of its row does. -/
theorem stByte_data {i : Nat} (hi : i < (stOut s p w m).1.length) (hs : tsAddr p (stDataAt s p w m) + i < tsAddr p (stScaleAt s p w m)
      ∨ tsAddr p (stScaleAt s p w m) + (stOut s p w m).2.1.length ≤ tsAddr p (stDataAt s p w m) + i) :
    stByte s p w m (tsAddr p (stDataAt s p w m) + i) = some (((stOut s p w m).1[i]?).getD 0) := by
  rw [stByte, spanByte_in hi, spanByte_out hs, Option.none_or]

end

/-! ZERO. -/

section
variable (s : State) (p : Nat) (w : IWord)

/-- R101: the entries are zeroed. -/
def stZeroed : State := (List.range (16 * (stQuarters w).2)).foldl (fun u i => setAcc u p (16 * (stQuarters w).1 + i) 0 false) s

theorem stZeroed_moves : Moves 0x80 s (stZeroed s p w) := Moves.foldl _ (fun _ _ => setAcc_moves ..) s (.refl _ s)

theorem stZeroed_only : BufferOnly p s (stZeroed s p w) := BufferOnly.foldl (st := id) (fun _ _ => bufferOnly_setAcc ..) _ s

theorem entrySteps_zero (base : Nat) : EntrySteps (fun u => accEntry u p) (fun u i => setAcc u p (base + i) 0 false) (base + ·)
    (fun _ e => ⟨0, false, e.wide⟩) where
  own _ _ := accEntry_setAcc_same ..
  other _ _ _ hk := accEntry_setAcc_other _ _ _ _ _ hk

theorem getAcc_stZeroed {i : Nat} (hi : i < 16 * (stQuarters w).2) : getAcc (stZeroed s p w) p (16 * (stQuarters w).1 + i) = 0 :=
  congrArg AccEntry.acc ((entrySteps_zero p (16 * (stQuarters w).1)).foldl_mem _ s
    (List.nodup_range.imp fun hne heq => hne (Nat.add_left_cancel heq)) (List.mem_range.2 hi))

theorem getAcc_stZeroed_other {k : Nat} (hk : k < 16 * (stQuarters w).1 ∨ 16 * (stQuarters w).1 + 16 * (stQuarters w).2 ≤ k) :
    getAcc (stZeroed s p w) p k = getAcc s p k :=
  congrArg AccEntry.acc ((entrySteps_zero p (16 * (stQuarters w).1)).foldl_other _ s fun i hi => by
    have := List.mem_range.1 hi
    omega)

/-- R101: the rows are written, and with ZERO the entries zeroed. -/
def stDone : State :=
  let u := stRows s p w (ifld w 58 8 + 1)
  if ibit w 35 then stZeroed u p w else u

theorem stDone_moves : Moves 0x80 (stRows s p w (ifld w 58 8 + 1)) (stDone s p w) := by
  unfold stDone
  split
  · exact stZeroed_moves ..
  · exact .refl _ _

theorem stDone_only : BufferOnly p (stRows s p w (ifld w 58 8 + 1)) (stDone s p w) := by
  unfold stDone
  split
  · exact stZeroed_only ..
  · exact .refl ..

theorem getAcc_stRows (n k : Nat) : getAcc (stRows s p w n) p k = getAcc s p k := by
  rw [getAcc, (rowKept_stRows s p w n).mx, getAcc]

theorem getAcc_stDone {i : Nat} (hi : i < 16 * (stQuarters w).2) : getAcc (stDone s p w) p (16 * (stQuarters w).1 + i)
    = if ibit w 35 then 0 else getAcc s p (16 * (stQuarters w).1 + i) := by
  unfold stDone
  split
  · exact getAcc_stZeroed _ p w hi
  · exact getAcc_stRows ..

theorem getAcc_stDone_other {k : Nat} (hk : k < 16 * (stQuarters w).1 ∨ 16 * (stQuarters w).1 + 16 * (stQuarters w).2 ≤ k) :
    getAcc (stDone s p w) p k = getAcc s p k := by
  unfold stDone
  split
  · exact (getAcc_stZeroed_other _ p w hk).trans (getAcc_stRows ..)
  · exact getAcc_stRows ..

end

/-! mx.st. -/

section
variable {s : State} {p : Fin 72} {q : QEntry} (h : MxReady s p 0x24 q)
include h

theorem doSt_held (hh : stHeld (getMx s p) [stQuarters q.word] = true) : doSt s p = s := by
  rw [doSt, show mxFront s p 0x24 = some q from h]
  exact if_pos hh

variable (hh : stHeld (getMx s p) [stQuarters q.word] = false)
include hh

/-- R113: a poisoned entry is a fault. -/
theorem doSt_poisoned {i : Nat} (hi : i < 16 * (stQuarters q.word).2) (hbad : accBad s p (16 * (stQuarters q.word).1 + i) = true) :
    ∃ a, doSt s p = faultQ s (.tile p .mx) q 0x0303 a 0 0 := by
  have hsome : ((List.range (16 * (stQuarters q.word).2)).find? fun i => accBad s p (16 * (stQuarters q.word).1 + i)).isSome := 
    List.find?_isSome.2 ⟨i, List.mem_range.2 hi, hbad⟩
  obtain ⟨j, hj⟩ := Option.isSome_iff_exists.1 hsome
  rw [doSt, show mxFront s p 0x24 = some q from h, mxEng_val]
  exact ⟨16 * (stQuarters q.word).1 + j, (if_neg (Bool.eq_false_iff.1 hh)).trans (by rw [hj])⟩

end

section
variable {s u : State} {p : Fin 72} {w : IWord}

/-- R113: with rows before it written, a row is what it was. -/
theorem stOut_of_kept (hu : RowKept p s u) (m : Nat) : stOut u p w m = stOut s p w m := by
  simp only [stOut, getAcc, hu.mx]

theorem mxG_stDone (lo : Nat) : mxG (stDone s p w) p w lo = mxG s p w lo := by
  have hregs : (stRows s p w (ifld w 58 8 + 1)).regs = (stDone s p w).regs := (stDone_moves s p w).same .regs (by decide)
  rw [← mxG_of_rowKept (rowKept_stRows s p w (ifld w 58 8 + 1)), mxG, mxG, getG, getG, regGet, regGet, hregs]

/-- R84: its spans are what they were at issue. -/
theorem stSpans_stDone : stSpans (stDone s p w) p w = stSpans s p w := by
  simp only [stSpans, mxG_stDone]

end

/-- The instruction in flight that an mx.st leaves. -/
def stFly (s : State) (p : Nat) (q : QEntry) : MxFly :=
  { fly0 q with kind := if ibit q.word 35 then 6 else 2, quarters := [stQuarters q.word], dests := stSpans s p q.word }

section
variable {s : State} {p : Fin 72} {q : QEntry}

theorem doSt_stores (h : MxReady s p 0x24 q) (hh : stHeld (getMx s p) [stQuarters q.word] = false)
    (hgood : ∀ i < 16 * (stQuarters q.word).2, accBad s p (16 * (stQuarters q.word).1 + i) = false) :
    doSt s p = mxIssued (stDone s p q.word) p q (stFly s p q) := by
  have hnone : (List.range (16 * (stQuarters q.word).2)).find? (fun i => accBad s p (16 * (stQuarters q.word).1 + i)) = none :=
    List.find?_eq_none.2 fun i hi => Bool.eq_false_iff.1 (hgood i (List.mem_range.1 hi))
  have hrows : (List.range (ifld q.word 58 8 + 1)).foldl (fun u m => rowPut s p q.word u m (stOut u p q.word m)) s
      = stRows s p q.word (ifld q.word 58 8 + 1) :=
    foldl_congr_of_inv (Inv := RowKept p s) (fun u m hu => ⟨by rw [stOut_of_kept hu, stPut], hu.trans (rowKept_stPut ..)⟩) _ s (.refl p s)
  rw [doSt, show mxFront s p 0x24 = some q from h, stFly, ← stSpans_stDone, stDone, ← hrows]
  refine (if_neg (Bool.eq_false_iff.1 hh)).trans ?_
  simp only [hnone]
  rfl

/-- R87, R101, R113: what an mx.st leaves. -/
theorem doSt_issues (hs : Canon s) : let t := mxIssued (stDone s p q.word) p q (stFly s p q)
    MxIssues s t p q (stFly s p q) ∧ (∀ a, memByte t a = memByte (stRows s p q.word (ifld q.word 58 8 + 1)) a)
      ∧ (∀ k, getAcc t p k = getAcc (stDone s p q.word) p k) ∧ Only [.regs, .engines, .tiles, .mem, .poison, .digest] s t := by
  intro t
  have hrows := rowKept_stRows s p q.word (ifld q.word 58 8 + 1)
  have hzero := stDone_only s p q.word
  have hall : Moves 0x40000b8 s (stDone s p q.word) := ((stDone_moves s p q.word).le (by decide)).trans hrows.moves
  refine ⟨mxIssued_issues hs hall (by decide) (tilesBut_trans hrows.tiles hzero.tiles)
      (congrArg List.length (hzero.fly.trans (congrArg MxState.fly hrows.mx))) rfl,
    fun a => ?_, fun k => congrArg AccEntry.acc (accEntry_mxIssued (hall.canon hs) p q _ k),
    only_of _ (((mxIssued_moves ..).le (m := 0x40000f8) (by decide)).trans (hall.le (by decide))) (by decide)⟩
  rw [memByte_of_moves (mxIssued_moves ..) (by decide), memByte_of_moves (stDone_moves ..) (by decide)]

end

/-! mx.ldacc. -/

section
variable {s : State} {p : Fin 72} {q : QEntry}

/-- R108: an element of a row stands in its entry. -/
theorem accEntry_ldaccLoaded (s : State) (p : Nat) (w : IWord) {m i : Nat} (hm : m ≤ ifld w 58 8) (hi : i < stLen w) :
    accEntry (ldaccLoaded s p w) p (stKey w (m, i)) = ⟨BitVec.ofNat 32 (ofBytes ((ldaccElem s p w (m, i)).map (·.b))),
      (ldaccElem s p w (m, i)).any (·.bad), getWide s p (stKey w (m, i))⟩ :=
  (entrySteps_ldaccPut s p w).foldl_mem _ s (stKeys_apart w _) (mem_ranges.2 ⟨Nat.lt_succ_of_le hm, hi⟩)

theorem accEntry_ldaccLoaded_other (s : State) (p : Nat) (w : IWord) {k : Nat}
    (hk : k < 16 * (stQuarters w).1 ∨ 16 * (stQuarters w).1 + 16 * (stQuarters w).2 ≤ k) :
    accEntry (ldaccLoaded s p w) p k = accEntry s p k :=
  (entrySteps_ldaccPut s p w).foldl_other _ s fun (m, i) hx => by
    obtain ⟨hm, hi⟩ := mem_ranges.1 hx
    have hlt := stKey_lt w (Nat.le_of_lt_succ hm) hi
    have hle : 16 * (stQuarters w).1 ≤ stKey w (m, i) := by
      unfold stKey
      omega
    omega

/-- R87, R108: what an mx.ldacc leaves. -/
theorem doLdacc_issues (hs : Canon s) : let f := { fly0 q with kind := 3, quarters := [stQuarters q.word] }
    let t := mxIssued (ldaccLoaded s p q.word) p q f
    MxIssues s t p q f ∧ (∀ k, accEntry t p k = accEntry (ldaccLoaded s p q.word) p k)
      ∧ (getMx t p).sets = (getMx s p).sets ∧ (getMx t p).act = (getMx s p).act ∧ Only [.regs, .engines, .tiles] s t := by
  intro f t
  have hload := ldaccLoaded_only s p q.word
  have hcanon := hload.moves.canon hs
  have ht : getMx t p = _ := getMx_mxIssued_fly hcanon p q f
  exact ⟨mxIssued_issues hs hload.moves (by decide) hload.tiles (congrArg List.length hload.fly) rfl, accEntry_mxIssued hcanon p q f,
    (congrArg MxState.sets ht).trans hload.sets, (congrArg MxState.act ht).trans hload.act,
    only_of _ ((mxIssued_moves ..).trans (hload.moves.le (by decide))) (by decide)⟩

end

/-- Settles O24: the rows of an mx.st are written one after the other, and of those that have a byte the last stands; ZERO and mx.ldacc go
entry by entry. -/
theorem matrixStores : Obligations.MatrixStores := by
  unfold Obligations.MatrixStores
  refine ⟨fun p s q => ?store, fun p s q => ?load⟩
  case store =>
    intro w x qs n rd rs row da sa hs h
    refine ⟨fun hh => congrArg Host.Outcome.next (doSt_held h hh), fun hh => ⟨fun hgood => ?stores, fun i hi hbad => ?faults⟩⟩
    case faults =>
      obtain ⟨a, hfault⟩ := doSt_poisoned h hh hi hbad
      exact ⟨_, congrArg Host.Outcome.next hfault, faultEngine_faultsWith (faultable_of_mxReady h) .., fun a _ ha =>
        memByte_faultEngine (by decide) (faultable_of_mxReady h) _ _ _ _ _ _ _ (Nat.lt_trans ha (by decide))⟩
    case stores =>
      obtain ⟨hissues, hmem, hacc, honly⟩ := doSt_issues (s := s) (p := p) (q := q) hs
      have hbyte : ∀ {m a v}, m ≤ ifld w 58 8 → stByte s p w m a = some v → (∀ m' ≤ ifld w 58 8, m < m' → stByte s p w m' a = none) →
          memByte (mxIssued (stDone s p q.word) p q (stFly s p q)) a = v := fun hm hv hlater =>
        (hmem _).trans (memByte_stRows_last s p w hv _ (Nat.lt_succ_of_le hm) fun m' hm' => hlater m' (Nat.le_of_lt_succ hm'))
      refine ⟨_, congrArg Host.Outcome.next (doSt_stores h hh hgood), hissues, fun m hm i hi hlast => ?data, fun m hm i hi hlast => ?scale,
        fun a ha => ?others, fun i hi => (hacc _).trans (getAcc_stDone s p w hi), fun k hk => (hacc k).trans (getAcc_stDone_other s p w hk), honly⟩
      case data =>
        exact hbyte hm (stByte_data hi ((hlast m hm).2 (Nat.le_refl m))) fun m' hm' hlt =>
          stByte_none ((hlast m' hm').1 hlt) ((hlast m' hm').2 (Nat.le_of_lt hlt))
      case scale =>
        exact hbyte hm (stByte_scale hi) fun m' hm' hlt => stByte_none (hlast m' hm' hlt).1 (hlast m' hm' hlt).2
      case others =>
        refine (hmem a).trans (memByte_stRows_none s p w _ fun m hm => ?_)
        have hin := fun r hr => ha r (List.mem_flatMap.2 ⟨m, List.mem_range.2 hm, hr⟩)
        exact stByte_none (hin _ (.head _)) (hin _ (.tail _ (.head _)))
  case load =>
    intro w x qs n rs row hs h
    refine ⟨fun hh => congrArg Host.Outcome.next (doLdacc_held h hh), fun hh => ?_⟩
    obtain ⟨hissues, hentry, hsets, hact, honly⟩ := doLdacc_issues (s := s) (p := p) (q := q) hs
    refine ⟨_, congrArg Host.Outcome.next (doLdacc_loads h hh), hissues, fun m hm i hi => ?own, fun k hk => ?other, hsets, hact, honly⟩
    case own =>
      have he := (hentry _).trans (accEntry_ldaccLoaded s p w hm hi)
      exact ⟨congrArg AccEntry.acc he, congrArg AccEntry.bad he⟩
    case other =>
      have he := (hentry k).trans (accEntry_ldaccLoaded_other s p w hk)
      exact ⟨congrArg AccEntry.acc he, congrArg AccEntry.bad he⟩

end Sys2Proof.Proofs

/-! PROOFS. The fill stage of the matrix engine and its issue timeout (R83, R84, R89, R109, R200): what the stage does with the instruction
at the front of the queue, case by case, and the statement about both. -/
namespace Sys2Proof.Proofs
open Sys2Proof Sys2Proof.Machine Sys2Proof.Laws

/-! The instruction at the front of the queue. -/

/-- R83: the fill stage may take the instruction at the front of the queue. -/
structure FillReady (s : State) (p : Fin 72) (q : QEntry) (qs : List QEntry) : Prop where
  queue : (getEng s (.tile p .mx)).queue = q :: qs
  cls : iCls q.word = 1
  unfilled : q.filled = false
  iso : isolated s p.val = false
  st : (getEng s (.tile p .mx)).st = .running ∨ (getEng s (.tile p .mx)).st = .waiting
  wait : (getEng s (.tile p .mx)).wait = none
  fwait : (getEng s (.tile p .mx)).fwait = none
  quiesce : (getEng s (.tile p .mx)).quiesceReq = false

/-- R77, R84: the set that the instruction will use. -/
def fillSet (x : MxState) (w : IWord) : MxSet := nextSet x ((mxArrays w).head?.getD 0) ((iOp w == 0x22 || iOp w == 0x23) && ibit w 75)

/-- With no instruction before it, an instruction finds the sets as they are. -/
theorem willUse_nil (x : MxState) (a : Nat) (sw : Bool) : willUse x [] a sw = nextSet x a sw := by
  cases sw
  · exact congrArg (fun b => getSet x (2 * a + b2n b)) (Bool.xor_false _)
  · exact congrArg (fun b => getSet x (2 * a + b2n b)) (Bool.xor_true _)

section
variable (s : State) (p : Fin 72) (q : QEntry) (set : MxSet)

/-- R83, R84: what is filled once the W wait is behind the instruction. -/
def fillRest : State :=
  if iOp q.word = 0x22 then
    let st := stageMm s p q.word set.kv
    if storeMeets s p [] (mmSpans s p q.word set.kv) ∨ 8 < slotsUsed s p + st.slots then s
    else setEntry s p 0 { q with filled := true, staged := some st }
  else if iOp q.word = 0x23 then
    match stageMmp s p q.word set with
    | .error c => faultQ s (.tile p .mx) q c 0 0 0
    | .ok st =>
      if storeMeets s p [] (mmpSpans s p q.word (packKv set)) ∨ 8 < slotsUsed s p + st.slots then s
      else setEntry s p 0 { q with filled := true, staged := some st }
  else setEntry s p 0 { q with filled := true }

/-- R84, R109, R200: the stage checks encoding and range, takes the W wait, and fills. -/
def fillFront : State :=
  match fillFault s p q.word set.kv with
  | some c => faultQ s (.tile p .mx) q c 0 0 0
  | none => match fillWait s p 0 q with
    | (u, false) => u
    | (u, true) => fillRest u p { q with wDone := true } set

end

section
variable {s : State} {p : Fin 72} {q : QEntry} {qs : List QEntry}

theorem fillFaultAt_front (s : State) (p : Fin 72) (q : QEntry) (c : Nat) : fillFaultAt s p q true c 0 = faultQ s (.tile p .mx) q c 0 0 0 := by
  rw [fillFaultAt, if_pos rfl, mxEng_val]

theorem mxFill_eq (h : FillReady s p q qs) : mxFill s p = fillFront s p q (fillSet (getMx s p) q.word) := by
  obtain ⟨hqueue, hcls, hopen, hiso, hst, hwait, hfwait, hquiesce⟩ := h
  rw [mxFill, mxEng_val]
  simp only [hqueue, List.takeWhile_cons, hopen, Bool.and_false, Bool.false_eq_true, if_false, List.length_nil, List.drop_zero, List.head?_cons,
    List.any_nil, List.isEmpty_nil, willUse_nil, hwait, hfwait, hquiesce, hiso, fillFaultAt_front]
  rw [if_neg (by simp [hcls, hst]), fillFront, fillSet]
  generalize nextSet _ _ _ = set
  simp only [fillRest, hopen] <;> rfl

theorem fillFront_faults {set : MxSet} {c : Nat} (hf : fillFault s p q.word set.kv = some c) :
    fillFront s p q set = faultQ s (.tile p .mx) q c 0 0 0 := by
  rw [fillFront, hf]

/-! The W wait (R200). -/

/-- R200: no W wait is open. -/
theorem fillWait_passed (s : State) (p k : Nat) (h : iW q.word = false ∨ q.wDone = true) : fillWait s p k q = (s, true) := by
  unfold fillWait
  rcases h with h | h <;> simp [h]

theorem fillFront_goes {set : MxSet} (hf : fillFault s p q.word set.kv = none) (hw : iW q.word = false ∨ q.wDone = true) :
    fillFront s p q set = fillRest s p { q with wDone := true } set := by
  rw [fillFront, hf, fillWait_passed s p 0 hw]

/-- R200, R245: the state in which the instruction has its W wait behind it. -/
def fillWaited (s : State) (p : Fin 72) (q : QEntry) (qs : List QEntry) : State :=
  modEng (takeCtr s p (iWctr q.word) 1 (.tile p .mx)) (.tile p .mx) (fun g => { g with queue := { q with wDone := true } :: qs })

theorem fillWait_taken (hq : (getEng s (.tile p .mx)).queue = q :: qs) (hw : iW q.word = true) (hd : q.wDone = false)
    (hc : 1 ≤ getCtr s p (iWctr q.word)) : fillWait s p 0 q = (fillWaited s p q qs, true) := by
  rw [fillWait, mxEng_val]
  simp only [hw, hd, Bool.not_true, Bool.or_false, Bool.false_eq_true, if_false, if_pos hc]
  rw [setEntry, mxEng_val, fillWaited, modEng, modEng, getEng_of_moves (takeCtr_moves ..) (by decide), hq]
  rfl

theorem fillWaited_moves (s : State) (p : Fin 72) (q : QEntry) (qs : List QEntry) : Moves 0xc8 s (fillWaited s p q qs) :=
  ((modEng_moves ..).le (by decide)).trans ((takeCtr_moves ..).le (by decide))

theorem getEng_fillWaited (s : State) (p : Fin 72) (q : QEntry) (qs : List QEntry) : getEng (fillWaited s p q qs) (.tile p .mx)
    = { getEng s (.tile p .mx) with queue := { q with wDone := true } :: qs } := by
  rw [fillWaited, modEng, getEng_setEng_same, getEng_of_moves (takeCtr_moves ..) (by decide)]

/-- The instruction still stands at the front of the queue, under the same conditions. -/
theorem fillReady_fillWaited (h : FillReady s p q qs) : FillReady (fillWaited s p q qs) p { q with wDone := true } qs := by
  have hg := getEng_fillWaited s p q qs
  have hiso : isolated (fillWaited s p q qs) p.val = isolated s p.val := isolated_of_moves (fillWaited_moves ..) (by decide) _
  exact ⟨congrArg Engine.queue hg, h.cls, h.unfilled, hiso.trans h.iso, by rw [hg]; exact h.st, by rw [hg]; exact h.wait,
    by rw [hg]; exact h.fwait, by rw [hg]; exact h.quiesce⟩

theorem getMx_fillWaited (s : State) (p : Fin 72) (q : QEntry) (qs : List QEntry) : getMx (fillWaited s p q qs) p = getMx s p := by
  simp only [getMx, fillWaited, modEng, getTile_setEng, takeCtr, noteServed, modTile, getTile_setTile_same]
  rfl

/-- A general register is no counter. -/
theorem mxG_fillWaited (s : State) (p : Fin 72) (q : QEntry) (qs : List QEntry) (w : IWord) (lo : Nat) :
    mxG (fillWaited s p q qs) p w lo = mxG s p w lo := by
  have hp := p.isLt
  have hn : ifld w lo 5 < 32 := bits_lt ..
  have hc : iWctr q.word < 256 := bits_lt ..
  rw [mxG, mxG, mxEng_val]
  refine regsBut_takeCtr s p (iWctr q.word) 1 (.tile p .mx) _ ?_
  simp only [List.mem_singleton, fldKey, regKey, engBlk, engInst, SY_CTR]
  omega

/-- R109: what is found wrong rests on the general registers alone. -/
theorem fillFault_of_mxG {s u : State} {p : Nat} {w : IWord} (h : ∀ lo, mxG u p w lo = mxG s p w lo) (kv : Nat) :
    fillFault u p w kv = fillFault s p w kv := by
  simp only [fillFault, ldsBad, ldsSpans, ldspBad, mmBad, mmSpans, mmpBad, stBad, stSpans, ldaccBad, ldaccSpan, h] <;> rfl

/-- R84, R200: with its wait taken the instruction goes on as it would from there. -/
theorem mxFill_waited (h : FillReady s p q qs) (hf : fillFault s p q.word (fillSet (getMx s p) q.word).kv = none) (hw : iW q.word = true)
    (hd : q.wDone = false) (hc : 1 ≤ getCtr s p (iWctr q.word)) : mxFill s p = mxFill (fillWaited s p q qs) p := by
  rw [mxFill_eq h, mxFill_eq (fillReady_fillWaited h), getMx_fillWaited, fillFront_goes (q := { q with wDone := true })
    ((fillFault_of_mxG (mxG_fillWaited s p q qs q.word) _).trans hf) (.inr rfl), fillFront, hf, fillWait_taken h.queue hw hd hc]

/-- R200: the W wait begins. -/
theorem fillWait_waits (hw : iW q.word = true) (hd : q.wDone = false) (hc : getCtr s p (iWctr q.word) = 0) : fillWait s p 0 q =
    (modEng (traceEv s (.tile p .mx) (iT q.word) (iTag q.word) q.idx 0 (iWctr q.word)) (.tile p .mx)
      (fun g => { g with st := .waiting, fwait := some ⟨.wflag, iWctr q.word, 1, s.gsc, 0⟩ }), false) := by
  rw [fillWait, mxEng_val]
  simp [hw, hd, hc]

/-! What is filled (R83, R84). -/

/-- R83: an engine is changed besides a trace record. -/
theorem traced_modEng_shows (s : State) (e : Eng) (t : Bool) (tag pc ev detail : Nat) (f : Engine → Engine) :
    let v := modEng (traceEv s e t tag pc ev detail) e f
    getEng v e = f (getEng s e) ∧ RegsBut (traceKeys e) s v ∧ EngsBut [e] s v ∧ Only [.regs, .engines, .tiles] s v := by
  intro v
  have hge : ∀ e', getEng (traceEv s e t tag pc ev detail) e' = getEng s e' := fun e' => getEng_traceEv ..
  refine ⟨?_, regs_trans (traceEv_regs _ _ _ _ _ _ _) (regsBut_of_regs _ rfl), fun e' he => ?_,
    only_trans (only_mono (only_traceEv s e t tag pc ev detail) (by decide)) (only_of _ (modEng_moves ..) (by decide))⟩
  · exact (getEng_setEng_same ..).trans (congrArg f (hge e))
  · exact (getEng_setEng_other _ _ (by simpa using he)).trans (hge e')

theorem setEntry_shows (hq : (getEng s (.tile p .mx)).queue = q :: qs) (r : QEntry) :
    getEng (setEntry s p 0 r) (.tile p .mx) = { getEng s (.tile p .mx) with queue := r :: qs } ∧ EngsBut [.tile p .mx] s (setEntry s p 0 r)
      ∧ Only [.engines] s (setEntry s p 0 r) := by
  rw [setEntry, mxEng_val, modEng]
  refine ⟨?_, fun e he => getEng_setEng_other _ _ (by simpa using he), only_of _ (setEng_moves ..) (by decide)⟩
  rw [getEng_setEng_same, hq]
  rfl

section
variable {set : MxSet}

theorem fillRest_plain (hmm : iOp q.word ≠ 0x22) (hmmp : iOp q.word ≠ 0x23) : fillRest s p q set = setEntry s p 0 { q with filled := true } := by
  rw [fillRest, if_neg hmm, if_neg hmmp]

theorem fillRest_mm (hmm : iOp q.word = 0x22) (hmeets : storeMeets s p [] (mmSpans s p q.word set.kv) = false)
    (hroom : slotsUsed s p + (stageMm s p q.word set.kv).slots ≤ 8) :
    fillRest s p q set = setEntry s p 0 { q with filled := true, staged := some (stageMm s p q.word set.kv) } := by
  rw [fillRest, if_pos hmm]
  exact if_neg (by simpa [hmeets] using hroom)

theorem fillRest_mm_full (hmm : iOp q.word = 0x22) (hfull : 8 < slotsUsed s p + (stageMm s p q.word set.kv).slots) : fillRest s p q set = s := by
  rw [fillRest, if_pos hmm]
  exact if_pos (.inr hfull)

theorem fillRest_mmp (hmmp : iOp q.word = 0x23) {st : Staged} (hst : stageMmp s p q.word set = .ok st)
    (hmeets : storeMeets s p [] (mmpSpans s p q.word (packKv set)) = false) (hroom : slotsUsed s p + st.slots ≤ 8) :
    fillRest s p q set = setEntry s p 0 { q with filled := true, staged := some st } := by
  rw [fillRest, if_neg (by simp [hmmp]), if_pos hmmp, hst]
  exact if_neg (by simpa [hmeets] using hroom)

theorem fillRest_mmp_faults (hmmp : iOp q.word = 0x23) {c : Nat} (hst : stageMmp s p q.word set = .error c) :
    fillRest s p q set = faultQ s (.tile p .mx) q c 0 0 0 := by
  rw [fillRest, if_neg (by simp [hmmp]), if_pos hmmp, hst]

end

/-- R71: an mx.mm has as many rows staged as its field says. -/
theorem stageMm_rows (s : State) (p : Nat) (w : IWord) (kv : Nat) : (stageMm s p w kv).rows.length = ifld w 55 8 + 1 := by
  simp only [stageMm]
  cases ibit w 68
  · simp [readRows]
  · simp [transpose]

end

/-! The issue timeout (R89). -/

/-- R89: the count at which an instruction that has been held since the engine's last issue is given up. -/
def issueDue (s : State) (p : Fin 72) : Nat :=
  (getEng s (.tile p .mx)).since
    + (if getP s (.tile p .mx) P_WAIT_TMO_US = 0 then 1000000 else getP s (.tile p .mx) P_WAIT_TMO_US) * 1000

section
variable {s : State} {p : Fin 72} {q : QEntry} {qs : List QEntry} (hq : (getEng s (.tile p .mx)).queue = q :: qs)
include hq

theorem issueTimeout_faults (hissue : canIssue s (.tile p .mx) = true) (hcls : iCls q.word = 1) (hheld : heldAtIssue s p q = true)
    (hlend : lendState s ≠ 3) (hdue : issueDue s p ≤ s.gsc) : issueTimeout s p = faultQ s (.tile p .mx) q 0x0A06 0 0 0 := by
  rw [issueTimeout, mxEng_val]
  simp only [hq]
  exact if_pos ⟨hissue, hcls, hheld, hlend, hdue⟩

theorem issueTimeout_waits (h : heldAtIssue s p q = false ∨ lendState s = 3 ∨ s.gsc < issueDue s p) : issueTimeout s p = s := by
  rw [issueTimeout, mxEng_val]
  simp only [hq]
  refine if_neg fun ⟨_, _, hheld, hlend, hdue⟩ => ?_
  rcases h with h | h | h
  · exact Bool.false_ne_true (h.symm.trans hheld)
  · exact hlend h
  · exact Nat.not_le.2 h hdue

end

/-- Settles O21: with no instruction before it the fill stage does with the instruction at the front of the queue what the case says. -/
theorem matrixFill : Obligations.MatrixFill := by
  unfold Obligations.MatrixFill
  intro p s q qs hs e g w set waited hq hcls
  refine ⟨fun hun hiso hst hwait hfwait hquiesce => ?fill, fun dt => ?timeout⟩
  case fill =>
    have h : FillReady s p q qs := ⟨hq, hcls, hun, hiso, hst, hwait, hfwait, hquiesce⟩
    have hfaultable : Faultable s (.tile p .mx) := hst.imp_right .inl
    have heq : exec (.mxFill p) s = .next (fillFront s p q set) := congrArg Host.Outcome.next (mxFill_eq h)
    refine ⟨fun c hc => ⟨_, heq.trans (congrArg Host.Outcome.next (fillFront_faults hc)), faultEngine_faultsWith hfaultable ..⟩, fun hc => ?_⟩
    have hgo : waited → ∀ t, fillRest s p { q with wDone := true } set = t → exec (.mxFill p) s = .next t := fun hw t ht =>
      heq.trans (congrArg Host.Outcome.next ((fillFront_goes hc hw).trans ht))
    refine ⟨fun hw hd hctr => congrArg Host.Outcome.next (mxFill_waited h hc hw hd hctr), fun hw hd hctr => ?waits, fun hw hmm hmmp => ?plain,
      fun hw hmm hmeets => ⟨fun hroom => ?staged, fun hfull => hgo hw s (fillRest_mm_full hmm hfull)⟩,
      fun hw hmmp => ⟨fun st hok hmeets hroom => ?packs, fun c herr => ?packFault⟩⟩
    case waits =>
      obtain ⟨hg, hregs, hothers, honly⟩ := traced_modEng_shows s e (iT w) (iTag w) q.idx 0 (iWctr w)
        (fun g => { g with st := .waiting, fwait := some ⟨.wflag, iWctr w, 1, s.gsc, 0⟩ })
      refine ⟨_, heq.trans (congrArg Host.Outcome.next ?_), congrArg Engine.st hg, congrArg Engine.fwait hg,
        (congrArg Engine.queue hg :), hregs, hothers, honly⟩
      rw [fillFront, hc, fillWait_waits hw hd hctr]
    case plain =>
      obtain ⟨hg, hothers, honly⟩ := setEntry_shows hq { q with wDone := true, filled := true }
      exact ⟨_, hgo hw _ (fillRest_plain hmm hmmp), congrArg Engine.queue hg, (congrArg Engine.st hg :), hothers, honly⟩
    case staged =>
      obtain ⟨hg, hothers, honly⟩ := setEntry_shows hq { q with wDone := true, filled := true, staged := some (stageMm s p w set.kv) }
      exact ⟨_, hgo hw _ (fillRest_mm hmm hmeets hroom), congrArg Engine.queue hg, stageMm_rows .., hothers, honly⟩
    case packs =>
      obtain ⟨hg, hothers, honly⟩ := setEntry_shows hq { q with wDone := true, filled := true, staged := some st }
      exact ⟨_, hgo hw _ (fillRest_mmp (q := { q with wDone := true }) hmmp hok hmeets hroom), congrArg Engine.queue hg, hothers, honly⟩
    case packFault =>
      exact ⟨_, hgo hw _ (fillRest_mmp_faults (q := { q with wDone := true }) hmmp herr), faultEngine_faultsWith hfaultable ..⟩
  case timeout =>
    intro u due
    have hqu : (getEng u (.tile p .mx)).queue = q :: qs := hq
    refine ⟨fun hissue hheld hlend hdue => ?faults, fun h => congrArg Host.Outcome.next (issueTimeout_waits hqu h)⟩
    case faults =>
      exact ⟨_, congrArg Host.Outcome.next (issueTimeout_faults hqu hissue hcls hheld hlend hdue),
        faultEngine_faultsWith (faultable_of_canIssue (s := u) hissue) ..⟩

end Sys2Proof.Proofs

/-! PROOFS. Before a vx. instruction acts (R184, R186, R190, R200, R603): what holds it at issue, its encoding fault, its W wait, and the
statement about the issue of each of them. -/
namespace Sys2Proof.Proofs
open Sys2Proof Sys2Proof.Machine Sys2Proof.Laws

/-! The W wait of a vector engine's instruction. -/

/-- R245, R246: of a tile a satisfied wait changes the order of the next waits alone. -/
theorem getTile_takeCtr (s : State) (p c v : Nat) (e : Eng) (r : Nat) : ∃ x, getTile (takeCtr s p c v e) r = { getTile s r with rot := x } := by
  cases e with
  | ce _ => exact ⟨_, rfl⟩
  | tile p' k =>
    by_cases h : r = p
    · subst h
      exact ⟨_, getTile_setTile_same ..⟩
    · exact ⟨_, getTile_setTile_other _ _ h⟩

theorem getVx_takeCtr (s : State) (p c v : Nat) (e : Eng) (r : Nat) : getVx (takeCtr s p c v e) r = getVx s r := by
  obtain ⟨x, hx⟩ := getTile_takeCtr s p c v e r
  exact (congrArg Tile.vx hx).trans rfl

/-- R200: the state in which the instruction at issue in a vector engine has its W wait behind it. -/
def vxWaited (s : State) (p : Fin 72) (q : QEntry) : State :=
  modEng (takeCtr s p (iWctr q.word) 1 (.tile p .vx)) (.tile p .vx) (fun g => { g with queue := { q with wDone := true } :: g.queue.drop 1 })

theorem getEng_vxWaited (s : State) (p : Fin 72) (q : QEntry) : getEng (vxWaited s p q) (.tile p .vx) =
    { getEng s (.tile p .vx) with queue := { q with wDone := true } :: (getEng s (.tile p .vx)).queue.drop 1 } := by
  rw [vxWaited, modEng, getEng_setEng_same, getEng_of_moves (takeCtr_moves ..) (by decide)]

theorem getVx_vxWaited (s : State) (p : Fin 72) (q : QEntry) (r : Nat) : getVx (vxWaited s p q) r = getVx s r := getVx_takeCtr ..

/-- R603: a counter is not the register that drains a tile. -/
theorem draining_vxWaited (s : State) (p : Fin 72) (q : QEntry) : draining (vxWaited s p q) p = draining s p := by
  have hk : fldKey 2 H_CTRL_DRAIN p 0 ∉ [fldKey 6 SY_CTR p (iWctr q.word)] := by
    have := bits_lt q.word.toNat 88 8
    have := p.isLt
    simp only [List.mem_singleton, fldKey, regKey, H_CTRL_DRAIN, SY_CTR, iWctr, ifld]
    omega
  have hreg : regGet (vxWaited s p q) (fldKey 2 H_CTRL_DRAIN p 0) = _ := regsBut_takeCtr s p (iWctr q.word) 1 (.tile p .vx) _ hk
  simp only [draining, rdF, hreg]

section
variable {s : State} {p : Fin 72} {op : Nat} {q : QEntry}

/-- The instruction still stands at issue. -/
theorem frontIs_vxWaited (hf : frontIs s (.tile p .vx) 2 op = some q) :
    frontIs (vxWaited s p q) (.tile p .vx) 2 op = some { q with wDone := true } := by
  obtain ⟨-, hissue, hcls, hop⟩ := frontIs_eq_some.1 hf
  have hiso : isolated (vxWaited s p q) p.val = isolated s p.val :=
    isolated_of_moves (takeCtr_moves s p (iWctr q.word) 1 (.tile p .vx)) (by decide) _
  have hopt : optBusy (vxWaited s p q) (.tile p .vx) = optBusy s (.tile p .vx) :=
    congrArg (fun x => x.fly.any (·.opt)) (getVx_vxWaited s p q p)
  refine frontIs_eq_some.2 ⟨⟨_, congrArg Engine.queue (getEng_vxWaited s p q)⟩, ?_, hcls, hop⟩
  rw [← hissue]
  simp only [canIssue, getEng_vxWaited, engDom, hiso, hopt]

/-- R200, R245: its W wait is satisfied. -/
theorem takeW_vxWaited (hf : frontIs s (.tile p .vx) 2 op = some q) (hw : iW q.word = true) (hd : q.wDone = false)
    (hc : 1 ≤ getCtr s p (iWctr q.word)) : takeW s (.tile p .vx) q = (vxWaited s p q, true) := by
  obtain ⟨⟨r, hq⟩, -⟩ := frontIs_eq_some.1 hf
  rw [takeW_taken hw hd rfl hc, vxWaited, modEng, modEng, getEng_of_moves (takeCtr_moves ..) (by decide), hq]
  rfl

end

/-! What `vxRun` does at each stage of issue. -/

/-- R188, R190: an instruction that nothing holds acts: it faults with what its effects meet, or issues with them. -/
def vxAct (p : Fin 72) (q : QEntry) (op : Nat) (writes : IWord → List Nat) (body : State → IWord → VxRes) (s : State) : State :=
  match body s q.word with
  | (u, some (c, a)) => faultQ u (.tile p .vx) q c a 0 0
  | (u, none) => modVx (leftQueue u p .vx q) p
      (fun x => { x with fly := x.fly ++ [⟨writes q.word ++ (vxGWrites q.word).map (40 + ·), op == 0x70, doneOf q.word q.idx⟩] })

section
variable {s : State} {p : Fin 72} {op : Nat} {bad : IWord → Bool} {reads writes : IWord → List Nat} {body : State → IWord → VxRes}
  {q : QEntry}

/-- R184, R603: a draining tile and a vx.opt in flight hold every vx. instruction. -/
theorem vxRun_held (h : draining s p = true ∨ (getVx s p).fly.any (·.opt) = true) : vxRun s p op bad reads writes body = s := by
  cases hf : frontIs s (.tile p .vx) 2 op with
  | none => simp only [vxRun, vxEng_val, hf]
  | some q =>
    have hd : draining s p = true := h.resolve_right fun hopt => by
      obtain ⟨-, hissue, -⟩ := frontIs_eq_some.1 hf
      have : optBusy s (.tile p .vx) = true := hopt
      simp [canIssue, this] at hissue
    simp only [vxRun, vxEng_val, hf, hd, if_true]

variable (hf : frontIs s (.tile p .vx) 2 op = some q) (hd : draining s p = false)
include hf hd

/-- R186, R190: a word that its table reserves. -/
theorem vxRun_malformed (hbad : (iV q.word || flagBad q.word || bad q.word) = true) :
    vxRun s p op bad reads writes body = faultQ s (.tile p .vx) q 0x0B01 0 0 0 := by
  simp only [vxRun, vxEng_val, hf, hd, hbad, Bool.false_eq_true, if_false, if_true]

variable (hbad : (iV q.word || flagBad q.word || bad q.word) = false)
include hbad

/-- R160: a register that it names has a write pending. -/
theorem vxRun_pending (hp : vxPending (getVx s p) (vxNamed (reads q.word ++ writes q.word) q.word) = true) :
    vxRun s p op bad reads writes body = s := by
  rw [vxNamed] at hp
  simp only [vxRun, vxEng_val, hf, hd, hbad, hp, Bool.false_eq_true, if_false, if_true]

variable (hp : vxPending (getVx s p) (vxNamed (reads q.word ++ writes q.word) q.word) = false)
include hp

/-- R200: its W wait begins. -/
theorem vxRun_waits {u : State} (hw : takeW s (.tile p .vx) q = (u, false)) : vxRun s p op bad reads writes body = u := by
  rw [vxNamed] at hp
  simp only [vxRun, vxEng_val, hf, hd, hbad, hp, hw, Bool.false_eq_true, if_false]

/-- R200: its W wait, if it has one, is behind it. -/
theorem vxRun_acts {u : State} (hw : takeW s (.tile p .vx) q = (u, true)) : vxRun s p op bad reads writes body = vxAct p q op writes body u := by
  rw [vxNamed] at hp
  simp only [vxRun, vxEng_val, hf, hd, hbad, hp, hw, Bool.false_eq_true, if_false, vxAct] <;> rfl

/-- R200: an instruction whose W wait is satisfied acts as the same instruction with its wait behind it. -/
theorem vxRun_vxWaited (hw : iW q.word = true) (hwd : q.wDone = false) (hc : 1 ≤ getCtr s p (iWctr q.word)) :
    vxRun s p op bad reads writes body = vxRun (vxWaited s p q) p op bad reads writes body := by
  have hpw : vxPending (getVx (vxWaited s p q) p) (vxNamed (reads q.word ++ writes q.word) q.word) = false := by rwa [getVx_vxWaited]
  rw [vxRun_acts hf hd hbad hp (takeW_vxWaited hf hw hwd hc),
    vxRun_acts (frontIs_vxWaited hf) ((draining_vxWaited s p q).trans hd) hbad hpw (takeW_passed _ _ (.inr rfl))]
  rfl

end

/-! The rows of the vector engine. -/

/-- What the seventeen rows of the vector engine have in common: each runs at issue with an encoding check and lists of what it reads and
writes, here by their values for the word at issue. -/
structure VxRow (p : Fin 72) (c : Instr) (op : Nat) (w : IWord) (bad : Bool) (rs : List Nat) : Prop where
  runs : ∃ (check : IWord → Bool) (reads writes : IWord → List Nat) (body : State → IWord → VxRes),
    (∀ s, exec c s = .next (vxRun s p op check reads writes body)) ∧ check w = bad ∧ reads w ++ writes w = rs

theorem vxRow_of_mem {p : Fin 72} {w : IWord} {c : Instr} {op : Nat} {bad : Bool} {rs : List Nat} (h : (c, op, bad, rs) ∈
      [(Instr.vxLd p, 0x60, (lsBad w || rsvBad w [(34, 2)]), [32 + ifld w 26 3, ifld w 75 5]),
       (.vxSt p, 0x61, (lsBad w || (ibit w 34 && ifld w 44 4 != 3 && ifld w 44 4 != 4) || (ibit w 35 && ifld w 29 5 % 2 == 1)),
        [ifld w 75 5, 32 + ifld w 26 3]),
       (.vxLda p, 0x62, ifld w 0 50 != 0, [32 + ifld w 51 3, ifld w 75 5]),
       (.vxSta p, 0x63, (ifld w 0 50 != 0 || ibit w 55), [ifld w 75 5, 32 + ifld w 51 3]),
       (.vxFop p, 0x64, (decide (9 < rFn w) || rsvBad w [(0, 9)] || (rFn w != 3 && ifld w 54 5 != 0)),
        rReads w ++ (if rFn w = 3 then [ifld w 54 5] else []) ++ [rVd w]),
       (.vxIop p, 0x65, (decide (13 < rFn w) || rsvBad w [(0, 9), (54, 5)]), rReads w ++ [rVd w]),
       (.vxCmp p, 0x66, (decide (7 < rFn w) || rsvBad w [(0, 9), (54, 5), (72, 2)]), rReads w ++ [32 + ifld w 69 3]),
       (.vxPop p, 0x67, (decide (6 < rFn w) || rsvBad w [(0, 9), (54, 5), (72, 2), (42, 3)]),
        [32 + ifld w 64 3, 32 + ifld w 59 3, 32 + ifld w 69 3]),
       (.vxSfu p, 0x68, (decide (3 < rFn w) || rsvBad w [(0, 9), (54, 5)]), rReads w ++ [rVd w]),
       (.vxRed p, 0x69, (decide (2 < rFn w) || rsvBad w [(0, 9), (54, 5)]), rReads w ++ [rVd w]),
       (.vxRmax p, 0x6A, (ifld w 0 49 != 0 || ifld w 75 5 == ifld w 65 5 || ifld w 75 5 == ifld w 60 5 || ifld w 65 5 == ifld w 60 5),
        [ifld w 70 5, 32 + ifld w 50 3, ifld w 75 5, ifld w 65 5, ifld w 60 5]),
       (.vxRsum p, 0x6B, (ifld w 0 49 != 0 || ifld w 65 5 != 0 || ifld w 75 5 == ifld w 60 5),
        [ifld w 70 5, ifld w 60 5, 32 + ifld w 50 3, ifld w 75 5]),
       (.vxDrop p, 0x6C, (rsvBad w [(0, 38), (42, 2)] || ifld w 65 5 % 2 == 1), [ifld w 70 5, 32 + ifld w 39 3, ifld w 75 5]),
       (.vxRng p, 0x6D, (rsvBad w [(0, 38), (44, 5), (49, 16), (70, 5)] || ifld w 65 5 % 2 == 1 || decide (1 < ifld w 42 2)),
        [32 + ifld w 39 3, ifld w 75 5]),
       (.vxPos p, 0x6E, ifld w 0 57 != 0, [32 + ifld w 58 3, ifld w 75 5]),
       (.vxCmask p, 0x6F, rsvBad w [(0, 54), (70, 2)], [32 + ifld w 55 3] ++ ([32 + ifld w 72 3] ++ (if ibit w 58 then [ifld w 75 5] else []))),
       (.vxOpt p, 0x70, (decide (1 < ifld w 73 2) || (fmtOfCode (ifld w 69 4)).isNone || (ibit w 66 && !mayScale (ifld w 69 4)) || ifld w 0 64 != 0),
        [])]) : VxRow p c op w bad rs := by
  simp only [List.mem_cons, List.not_mem_nil, or_false, Prod.mk.injEq] at h
  rcases h with ⟨rfl, rfl, rfl, rfl⟩ | ⟨rfl, rfl, rfl, rfl⟩ | ⟨rfl, rfl, rfl, rfl⟩ | ⟨rfl, rfl, rfl, rfl⟩ | ⟨rfl, rfl, rfl, rfl⟩ |
    ⟨rfl, rfl, rfl, rfl⟩ | ⟨rfl, rfl, rfl, rfl⟩ | ⟨rfl, rfl, rfl, rfl⟩ | ⟨rfl, rfl, rfl, rfl⟩ | ⟨rfl, rfl, rfl, rfl⟩ |
    ⟨rfl, rfl, rfl, rfl⟩ | ⟨rfl, rfl, rfl, rfl⟩ | ⟨rfl, rfl, rfl, rfl⟩ | ⟨rfl, rfl, rfl, rfl⟩ | ⟨rfl, rfl, rfl, rfl⟩ |
    ⟨rfl, rfl, rfl, rfl⟩ | ⟨rfl, rfl, rfl, rfl⟩
  all_goals exact ⟨_, _, _, _, fun _ => rfl, rfl, rfl⟩

/-- Settles O26: each row runs at issue, and the stages of issue are those of `vxRun`. -/
theorem vectorIssue : Obligations.VectorIssue := by
  unfold Obligations.VectorIssue
  intro p s q w e hs hq hcls c op bad rs hmem hop
  obtain ⟨check, reads, writes, body, hruns, rfl, rfl⟩ := (vxRow_of_mem hmem).runs
  refine ⟨fun h => (hruns s).trans (congrArg Host.Outcome.next (vxRun_held h)), fun hissue hd => ?issues⟩
  have hf : frontIs s e 2 op = some q := frontIs_eq_some.2 ⟨List.head?_eq_some_iff.1 hq, hissue, hcls, hop⟩
  refine ⟨fun hbad => ⟨_, (hruns s).trans (congrArg Host.Outcome.next (vxRun_malformed hf hd hbad)),
      faultQ_vxFaults hs (faultable_of_canIssue hissue) ..⟩,
    fun hbad => ⟨fun hp => (hruns s).trans (congrArg Host.Outcome.next (vxRun_pending hf hd hbad hp)),
      fun hp hw hwd => ⟨fun hc => ?taken, fun hc => ?waits⟩⟩⟩
  case taken =>
    exact (hruns s).trans ((congrArg Host.Outcome.next (vxRun_vxWaited hf hd hbad hp hw hwd hc)).trans (hruns (vxWaited s p q)).symm)
  case waits =>
    obtain ⟨heng, hregs, hothers, honly⟩ := beginWait_shows s e q .wflag (iWctr w) 1
    exact ⟨_, (hruns s).trans (congrArg Host.Outcome.next (vxRun_waits hf hd hbad hp (takeW_waits hw hwd rfl hc))),
      congrArg Engine.st heng, (congrArg Engine.queue heng :), ⟨_, congrArg Engine.wait heng, rfl, rfl, rfl⟩, hregs, hothers, honly⟩

end Sys2Proof.Proofs

/-! PROOFS. Integer lane values and known random words (R163, R172). -/
namespace Sys2Proof.Proofs
open Sys2Proof Sys2Proof.Machine Sys2Proof.Laws

/-- R163: the arithmetic shift right rounds toward minus infinity. -/
theorem toInt_iopLane_sshiftRight (a b : Word) : (iopLane 8 a b).toInt = a.toInt / (2 : Int) ^ (b.toNat % 32) := by
  show (a.sshiftRight (b.toNat % 32)).toInt = _
  rw [BitVec.toInt_sshiftRight, Int.shiftRight_eq_div_pow]
  norm_cast

/-- R163: min and max take signed values. -/
theorem toInt_iopLane_min (a b : Word) : (iopLane 9 a b).toInt = min a.toInt b.toInt := by
  show (if a.slt b then a else b).toInt = _
  rw [BitVec.slt_eq_decide]
  by_cases h : a.toInt < b.toInt
  · simp [h, min_eq_left h.le]
  · simp [h, min_eq_right (not_lt.1 h)]

theorem toInt_iopLane_max (a b : Word) : (iopLane 10 a b).toInt = max a.toInt b.toInt := by
  show (if a.slt b then b else a).toInt = _
  rw [BitVec.slt_eq_decide]
  by_cases h : a.toInt < b.toInt
  · simp [h, max_eq_right h.le]
  · simp [h, max_eq_left (not_lt.1 h)]

/-- Settles O28: each operation is the one of bit vectors, whose value its library lemma gives. -/
theorem integerLaneValues : Obligations.IntegerLaneValues := by
  unfold Obligations.IntegerLaneValues
  intro a b
  refine ⟨BitVec.toNat_add a b, BitVec.toInt_sub, BitVec.toNat_mul a b, ?shl, ?shr, toInt_iopLane_sshiftRight a b,
    toInt_iopLane_min a b, toInt_iopLane_max a b⟩
  case shl =>
    show (a <<< (b.toNat % 32)).toNat = _
    rw [BitVec.toNat_shiftLeft, Nat.shiftLeft_eq]
  case shr =>
    show (a >>> (b.toNat % 32)).toNat = _
    rw [BitVec.toNat_ushiftRight, Nat.shiftRight_eq_div_pow]

/-- Settles O31: the ten rounds computed. -/
theorem philoxOfZeros : Obligations.PhiloxOfZeros := by
  unfold Obligations.PhiloxOfZeros
  decide

end Sys2Proof.Proofs

/-! PROOFS. Effects of a vx. instruction on the lanes, the predicates and the registers of its engine (R158, R159, R188): what each kind of
write shows, and what an instruction shows that has issued with them. -/
namespace Sys2Proof.Proofs
open Sys2Proof Sys2Proof.Machine Sys2Proof.Laws

/-! Predicates. -/

/-- The bits of a sum of powers of two, each taken or not. -/
theorem sumNat_powers (f : Nat → Bool) : ∀ n, sumNat ((List.range n).map (fun l => b2n (f l) * 2 ^ l)) < 2 ^ n
    ∧ ∀ i, (sumNat ((List.range n).map (fun l => b2n (f l) * 2 ^ l))).testBit i = (decide (i < n) && f i)
  | 0 => ⟨Nat.one_pos, fun i => by simp [sumNat]⟩
  | n + 1 => by
    obtain ⟨hlt, hbits⟩ := sumNat_powers f n
    have hsum : sumNat ((List.range (n + 1)).map (fun l => b2n (f l) * 2 ^ l))
        = 2 ^ n * b2n (f n) + sumNat ((List.range n).map (fun l => b2n (f l) * 2 ^ l)) := by
      simp only [sumNat, List.range_succ, List.map_append, List.map_cons, List.map_nil, List.foldl_append, List.foldl_cons, List.foldl_nil]
      rw [Nat.mul_comm, Nat.add_comm]
    have hb : b2n (f n) ≤ 1 := by cases f n <;> decide
    rw [hsum]
    refine ⟨by rw [Nat.pow_succ]; nlinarith, fun i => ?_⟩
    rw [Nat.testBit_two_pow_mul_add _ hlt]
    rcases Nat.lt_trichotomy i n with hi | rfl | hi
    · rw [if_pos hi, hbits]
      simp [hi, Nat.lt_succ_of_lt hi]
    · rw [if_neg (Nat.lt_irrefl _), Nat.sub_self]
      cases f i <;> simp [b2n]
    · rw [if_neg (Nat.lt_asymm hi), Nat.testBit_lt_two_pow (Nat.lt_of_le_of_lt hb (Nat.one_lt_two_pow (by omega)))]
      simp [show ¬ i < n + 1 by omega]

/-- R158: a predicate made from a test of each lane. -/
theorem getLsbD_predOf (f : Nat → Bool) {l : Nat} (hl : l < 128) : (predOf f).getLsbD l = f l := by
  rw [predOf, BitVec.getLsbD_ofNat, (sumNat_powers f 128).2]
  simp [hl]

/-- R158: p0 stays; another predicate takes what is written. -/
theorem getPred_setPred (s : State) (p n : Nat) (v : BitVec 128) (m : Nat) :
    getPred (setPred s p n v) p m = if m = n ∧ n ≠ 0 then v else getPred s p m := by
  unfold setPred
  by_cases hn : n = 0
  · simp [hn]
  · rw [if_neg hn, getPred, getVx_modVx_same, getPred]
    by_cases hm : m = n
    · simp [hm, hn, mapGet_mapSet_same]
    · rw [mapGet_mapSet_other _ _ _ _ _ hm, if_neg (show ¬ (m = n ∧ n ≠ 0) from fun h => hm h.1)]

theorem getLane_setPred (s : State) (p n : Nat) (v : BitVec 128) (r l : Nat) : getLane (setPred s p n v) p r l = getLane s p r l := by
  unfold setPred
  split
  · rfl
  · exact getLane_of_getVx (by rw [getVx_modVx_same]) r l

/-! One lane. -/

/-- R168, R169: lane ROW alone. -/
theorem getLsbD_oneLane {row l : Nat} (hl : l < 128) : (oneLane row).getLsbD l = decide (l = row) := by
  rw [oneLane, BitVec.getLsbD_ofNat, Nat.testBit_two_pow]
  simp [hl, eq_comm]

/-- A write of one lane. -/
theorem getLane_setLanes_oneLane (s : State) (p r row : Nat) (v : Word) {r' l : Nat} (hl : l < 128) :
    getLane (setLanes s p r (oneLane row) (fun _ => v)) p r' l = if r' = r ∧ l = row then v else getLane s p r' l := by
  simp only [getLane_setLanes _ _ _ _ _ hl, getLsbD_oneLane hl, decide_eq_true_eq]

/-! What an operation on tiles or registers alone leaves. -/

theorem getLane_of_moves {m : Nat} {s t : State} (h : Moves m s t) (hm : m.testBit 7 = false) (p r l : Nat) :
    getLane t p r l = getLane s p r l :=
  getLane_of_getVx (congrArg (fun x => x.vx.v) (getTile_of_moves h hm p)) r l

theorem getPred_of_moves {m : Nat} {s t : State} (h : Moves m s t) (hm : m.testBit 7 = false) (p n : Nat) : getPred t p n = getPred s p n :=
  getPred_of_getVx (congrArg (fun x => x.vx.p) (getTile_of_moves h hm p)) n

/-- From s to u, of the state only the lanes and predicates of tile p and registers have changed: those listed, and the counters and flags
of its engine. -/
structure VxOnly (p : Fin 72) (ks : List Nat) (s u : State) : Prop where
  moves : Moves 0x88 s u
  tiles : TilesBut [p.val] s u
  fly : (getVx u p).fly = (getVx s p).fly
  mx : ∀ r, getMx u r = getMx s r
  regs : RegsBut (ks ++ vxCountKeys p) s u

section
variable {p : Fin 72} {ks : List Nat} {s u v : State}

theorem VxOnly.trans (h : VxOnly p ks s u) (k : VxOnly p ks u v) : VxOnly p ks s v :=
  ⟨k.moves.trans h.moves, tilesBut_trans h.tiles k.tiles, k.fly.trans h.fly, fun r => (k.mx r).trans (h.mx r), regs_trans h.regs k.regs⟩

theorem vxOnly_setLanes (s : State) (p : Fin 72) (ks : List Nat) (r : Nat) (act : BitVec 128) (f : Nat → Word) :
    VxOnly p ks s (setLanes s p r act f) :=
  ⟨(setLanes_moves ..).le (by decide), tilesBut_modVx s p _, by rw [setLanes, getVx_modVx_same], getMx_modVx s p _, regsBut_of_regs _ rfl⟩

theorem vxOnly_of_regs (h : Moves 0x8 s u) (hr : RegsBut (ks ++ vxCountKeys p) s u) : VxOnly p ks s u := by
  have htile : ∀ r, getTile u r = getTile s r := getTile_of_moves h (by decide)
  exact ⟨h.le (by decide), fun r _ => htile r, congrArg (fun x => x.vx.fly) (htile p), fun r => congrArg Tile.mx (htile r), hr⟩

theorem vxOnly_refl (p : Fin 72) (ks : List Nat) (s : State) : VxOnly p ks s s := vxOnly_of_regs (.refl _ s) (regs_refl _ s)

theorem vxOnly_setPred (s : State) (p : Fin 72) (ks : List Nat) (n : Nat) (v : BitVec 128) : VxOnly p ks s (setPred s p n v) := by
  unfold setPred
  split
  · exact vxOnly_refl p ks s
  · exact ⟨(modVx_moves ..).le (by decide), tilesBut_modVx s p _, by rw [getVx_modVx_same], getMx_modVx s p _, regsBut_of_regs _ rfl⟩

theorem vxOnly_countLanes (s : State) (p : Fin 72) (ks : List Nat) (act : BitVec 128) : VxOnly p ks s (countLanes s p act) :=
  vxOnly_of_regs (countLanes_moves s p act) (regs_mono (regsBut_countLanes s p act) fun _ => List.mem_append_right _)

theorem vxOnly_countSfu (s : State) (p : Fin 72) (ks : List Nat) (n : Nat) : VxOnly p ks s (countSfu s p n) :=
  vxOnly_of_regs (countSfu_moves s p n) (regs_mono (regsBut_countSfu s p n) fun _ => List.mem_append_right _)

/-- R188: an instruction with such effects has issued: its lanes and predicates are those that its effects left. -/
theorem VxOnly.issued (h : VxOnly p ks s u) (hs : Canon s) (q : QEntry) (ws : List Nat) : let t := vxIssued u p q ws
    (∀ r l, getLane t p r l = getLane u p r l) ∧ (∀ n, getPred t p n = getPred u p n) ∧ VxIssues s t p q ws ∧ VxLeaves s t p ks := by
  intro t
  have hu : Canon u := h.moves.canon hs
  refine ⟨getLane_vxIssued hu p q ws, getPred_vxIssued hu p q ws,
    vxIssued_issues ⟨hu, h.fly, h.tiles, engsBut_of_moves h.moves (by decide) _⟩ q ws,
    ⟨?regs, fun r => (getMx_vxIssued hu p q ws r).trans (h.mx r),
      only_of _ ((vxIssued_moves u p q ws).trans (h.moves.le (by decide))) (by decide)⟩⟩
  exact regs_trans (regs_mono h.regs fun _ => List.mem_append_left _) (regs_mono (regsBut_vxIssued u p q ws) fun _ => List.mem_append_right _)

/-- R158, R160: an instruction that has written a predicate and counted has issued. -/
theorem pred_issued (hs : Canon s) (q : QEntry) {n : Nat} {x : BitVec 128} (h : VxOnly p [] (setPred s p n x) u)
    (hm : Moves 0x8 (setPred s p n x) u) (ws : List Nat) : let t := vxIssued u p q ws
    (n ≠ 0 → getPred t p n = x) ∧ PredsBut [n] s t p ∧ (∀ r l, getLane t p r l = getLane s p r l) ∧ VxIssues s t p q ws
      ∧ VxLeaves s t p [] := by
  intro t
  obtain ⟨hlane, hpred, hissues, hleaves⟩ := ((vxOnly_setPred s p [] n x).trans h).issued hs q ws
  have hshow : ∀ m, getPred t p m = if m = n ∧ n ≠ 0 then x else getPred s p m := fun m =>
    (hpred m).trans ((getPred_of_moves hm (by decide) p m).trans (getPred_setPred ..))
  refine ⟨fun hn => by rw [hshow, if_pos ⟨rfl, hn⟩], fun m hmn => ?_, fun r l => ?_, hissues, hleaves⟩
  · rw [hshow, if_neg fun h => hmn (List.mem_singleton.2 h.1)]
  · exact (hlane r l).trans ((getLane_of_moves hm (by decide) p r l).trans (getLane_setPred ..))

end

end Sys2Proof.Proofs

/-! PROOFS. Comparisons, predicates, positions and masks (R158, R159, R164, R180, R181): the statement about vx.cmp, vx.pop, vx.pos and
vx.cmask. -/
namespace Sys2Proof.Proofs
open Sys2Proof Sys2Proof.Machine Sys2Proof.Laws

/-- R159: a predicate whose active bits take a test, and whose other bits stay. -/
def maskedPred (act old : BitVec 128) (f : Nat → Bool) : BitVec 128 := predOf (fun l => if act.getLsbD l then f l else old.getLsbD l)

theorem getLsbD_maskedPred (act old : BitVec 128) (f : Nat → Bool) {l : Nat} (hl : l < 128) :
    (maskedPred act old f).getLsbD l = if act.getLsbD l then f l else old.getLsbD l := getLsbD_predOf _ hl

theorem getPred_zero (s : State) (p : Nat) : getPred s p 0 = BitVec.allOnes 128 := if_pos rfl

/-- R181: the test of vx.cmask in the terms of its rule. -/
theorem keepPos_eq (k klen qpos win : Nat) (causal : Bool) : keepPos k klen qpos win causal =
    decide (k ≤ 16777215 ∧ k < klen ∧ (causal = true → k ≤ qpos) ∧ (win ≠ 0 → (qpos : Int) - k < win)) := by
  rw [keepPos, Bool.eq_iff_iff]
  cases causal
  · by_cases hw : win = 0 <;> simp [hw, and_assoc]
  · by_cases hw : win = 0 <;> simp [hw, and_assoc]

section
variable (s : State) (p : Fin 72) (w : IWord)

/-- R164: the predicate that vx.cmp writes. -/
def cmpPred : BitVec 128 := maskedPred (rAct s p w) (getPred s p (ifld w 69 3)) (fun l => cmpLane (rFn w) (getLane s p (rVa w) l) (rB s p w l))

/-- R181: the active lanes of vx.cmask, and whether it keeps a lane's position. -/
def cmaskAct : BitVec 128 := guardOf s p (ifld w 55 3) (ibit w 54)

def cmaskKeep (l : Nat) : Bool :=
  keepPos (bits (vxG s p w 65).toNat 24 24 + l) (bits (vxG s p w 60).toNat 0 25) (bits (vxG s p w 65).toNat 0 24)
    (bits (vxG s p w 60).toNat 25 24) (ibit w 59)

/-- R181: its predicate is written. -/
def cmaskPred : State := setPred s p (ifld w 72 3) (maskedPred (cmaskAct s p w) (getPred s p (ifld w 72 3)) (cmaskKeep s p w))

/-- R181: with APPLY the active lanes not kept are minus infinity. -/
def cmaskDone : State :=
  if ibit w 58 then setLanes (cmaskPred s p w) p (ifld w 75 5) (cmaskAct s p w &&& predOf (fun l => !cmaskKeep s p w l)) (fun _ => ninf32)
  else cmaskPred s p w

theorem vxOnly_cmaskDone : VxOnly p [] s (cmaskDone s p w) := by
  have hpred : VxOnly p [] s (cmaskPred s p w) := vxOnly_setPred ..
  unfold cmaskDone
  split
  · exact hpred.trans (vxOnly_setLanes ..)
  · exact hpred

theorem getPred_cmaskDone (n : Nat) : getPred (cmaskDone s p w) p n = getPred (cmaskPred s p w) p n := by
  unfold cmaskDone
  split
  · exact getPred_setLanes ..
  · rfl

theorem getLane_cmaskDone {r l : Nat} (hl : l < 128) : getLane (cmaskDone s p w) p r l =
    if ibit w 58 = true ∧ r = ifld w 75 5 ∧ (cmaskAct s p w).getLsbD l = true ∧ cmaskKeep s p w l = false then ninf32 else getLane s p r l := by
  have hpred : getLane (cmaskPred s p w) p r l = getLane s p r l := getLane_setPred ..
  unfold cmaskDone
  split
  · next happly =>
    rw [getLane_setLanes _ _ _ _ _ hl, hpred, BitVec.getLsbD_and, getLsbD_predOf _ hl]
    simp [happly]
  · next happly => rw [hpred, if_neg fun h => happly h.1]

end

section
variable {s : State} {p : Fin 72} {q : QEntry}

theorem exec_vxCmp_issues (hfn : rFn q.word ≤ 7) (hrsv : rsvBad q.word [(0, 9), (54, 5), (72, 2)] = false)
    (h : VxReady s p 0x66 (rReads q.word ++ [32 + ifld q.word 69 3]) q) : exec (.vxCmp p) s =
      .next (vxIssued (countLanes (setPred s p (ifld q.word 69 3) (cmpPred s p q.word)) p (rAct s p q.word)) p q [32 + ifld q.word 69 3]) := by
  have hbad : (decide (7 < rFn q.word) || rsvBad q.word [(0, 9), (54, 5), (72, 2)]) = false := by simp [hfn, hrsv]
  exact congrArg Host.Outcome.next (vxRun_issues h hbad rfl rfl)

theorem exec_vxPop_issues (hfn : rFn q.word ≤ 6) (hrsv : rsvBad q.word [(0, 9), (54, 5), (72, 2), (42, 3)] = false)
    (h : VxReady s p 0x67 [32 + ifld q.word 64 3, 32 + ifld q.word 59 3, 32 + ifld q.word 69 3] q) : exec (.vxPop p) s =
      .next (vxIssued (setPred s p (ifld q.word 69 3) (popPred (rFn q.word) (getPred s p (ifld q.word 64 3)) (getPred s p (ifld q.word 59 3))))
        p q [32 + ifld q.word 69 3]) := by
  have hbad : (decide (6 < rFn q.word) || rsvBad q.word [(0, 9), (54, 5), (72, 2), (42, 3)]) = false := by simp [hfn, hrsv]
  exact congrArg Host.Outcome.next (vxRun_issues h hbad rfl rfl)

theorem exec_vxPos_issues (hrsv : ifld q.word 0 57 = 0) (h : VxReady s p 0x6E [32 + ifld q.word 58 3, ifld q.word 75 5] q) :
    exec (.vxPos p) s = .next (vxIssued (countLanes (setLanes s p (ifld q.word 75 5) (guardOf s p (ifld q.word 58 3) (ibit q.word 57)) (fun l =>
      let x := bits (vxG s p q.word 70).toNat 0 24 + l * ifld q.word 62 8
      if ibit q.word 61 then f32Bits (.fin false x 0) else BitVec.ofNat 32 x)) p (guardOf s p (ifld q.word 58 3) (ibit q.word 57)))
      p q [ifld q.word 75 5]) := by
  have hbad : (ifld q.word 0 57 != 0) = false := by simp [hrsv]
  exact congrArg Host.Outcome.next (vxRun_issues h hbad rfl rfl)

/-- The registers that vx.cmask writes. -/
def cmaskWrites (w : IWord) : List Nat := [32 + ifld w 72 3] ++ (if ibit w 58 then [ifld w 75 5] else [])

theorem exec_vxCmask_issues (hrsv : rsvBad q.word [(0, 54), (70, 2)] = false)
    (h : VxReady s p 0x6F ([32 + ifld q.word 55 3] ++ cmaskWrites q.word) q) : exec (.vxCmask p) s =
      .next (vxIssued (countLanes (cmaskDone s p q.word) p (cmaskAct s p q.word)) p q (cmaskWrites q.word)) :=
  congrArg Host.Outcome.next (vxRun_issues h hrsv rfl rfl)

end

/-- Settles O29: vx.cmp and vx.pop write a predicate, vx.pos lanes, and vx.cmask a predicate and then, with APPLY, lanes. -/
theorem predicatesAndMasks : Obligations.PredicatesAndMasks := by
  unfold Obligations.PredicatesAndMasks
  intro p s q w bits' lanes hs
  refine ⟨fun hfn hrsv h => ?cmp, fun hfn hrsv h => ?pop, fun hrsv h => ?pos, fun hrsv h => ?cmask⟩
  case cmp =>
    obtain ⟨hpd, hpreds, hlanes, hissues, hleaves⟩ := pred_issued hs q (vxOnly_countLanes _ p [] (rAct s p w)) (countLanes_moves ..)
      [32 + ifld w 69 3]
    exact ⟨_, exec_vxCmp_issues hfn hrsv h, ⟨fun hn l hl => by rw [hpd hn, cmpPred, getLsbD_maskedPred _ _ _ hl], hpreds, getPred_zero ..⟩,
      hlanes, hissues, hleaves⟩
  case pop =>
    obtain ⟨hpd, hpreds, hlanes, hissues, hleaves⟩ := pred_issued hs q (vxOnly_refl p [] _) (.refl _ _) [32 + ifld w 69 3]
    exact ⟨_, exec_vxPop_issues hfn hrsv h, hpd, hpreds, getPred_zero .., hlanes, hissues, hleaves⟩
  case pos => exact ⟨_, exec_vxPos_issues hrsv h, lanes_issued hs p q (countLanes_moves ..) (regsBut_countLanes _ _ _)⟩
  case cmask =>
    intro rq rl act keep
    have hkeep : ∀ l, cmaskKeep s p w l = keep l := fun l => keepPos_eq ..
    obtain ⟨hlane, hpred, hissues, hleaves⟩ := ((vxOnly_cmaskDone s p w).trans (vxOnly_countLanes _ p [] act)).issued hs q (cmaskWrites w)
    have hshow : ∀ n, getPred _ p n = _ := fun n => (hpred n).trans ((getPred_of_moves (countLanes_moves ..) (by decide) p n).trans
      ((getPred_cmaskDone s p w n).trans (getPred_setPred ..)))
    have hlane' : ∀ r l, getLane _ p r l = _ := fun r l => (hlane r l).trans (getLane_of_moves (countLanes_moves ..) (by decide) p r l)
    have hexec : exec (.vxCmask p) s = .next (vxIssued (countLanes (cmaskDone s p w) p act) p q (cmaskWrites w)) := exec_vxCmask_issues hrsv h
    refine ⟨_, hexec, ⟨fun hn l hl => ?bit, fun n hn => ?others, getPred_zero ..⟩, fun hoff r l => ?stay,
      fun hon => ⟨fun l hl => ?own, fun r l hr hl => ?other⟩, hissues, hleaves⟩
    case bit => rw [hshow, if_pos ⟨rfl, hn⟩, getLsbD_maskedPred _ _ _ hl, hkeep]; rfl
    case others => rw [hshow, if_neg fun h => hn (List.mem_singleton.2 h.1)]
    case stay =>
      rw [hlane', cmaskDone, if_neg (by rw [hoff]; exact Bool.false_ne_true)]
      exact getLane_setPred ..
    case own =>
      rw [hlane', getLane_cmaskDone s p w hl, hkeep]
      cases hk : keep l <;> simp [hon, hk, act, cmaskAct, ninf32]
    case other => rw [hlane', getLane_cmaskDone s p w hl, if_neg fun h => hr h.2.1]

end Sys2Proof.Proofs

/-! PROOFS. Reductions and attention rows (R167 to R170). -/
namespace Sys2Proof.Proofs
open Sys2Proof Sys2Proof.Machine Sys2Proof.Laws

/-! vx.rmax. -/

section
variable (s : State) (p : Fin 72) (w : IWord)

/-- R168: the new maximum of the row. -/
def rmaxNew : Word := fminmax true (getLane s p (ifld w 65 5) (ifld w 53 7)) (reduceLanes 1 (aAct s p w) (getLane s p (ifld w 70 5)))

/-- R168: the row's rescaling factor. -/
def rmaxScale : Word :=
  if fvEq (f32 (getLane s p (ifld w 65 5) (ifld w 53 7))) (f32 (rmaxNew s p w)) then 0x3F800000
  else sfu (getF s VX_SFU_REV_REV p) 0 (fsub (getLane s p (ifld w 65 5) (ifld w 53 7)) (rmaxNew s p w))

/-- R168: lane ROW of VA and then of VM is written. -/
def rmaxRow : State :=
  setLanes (setLanes s p (ifld w 60 5) (oneLane (ifld w 53 7)) (fun _ => rmaxScale s p w)) p (ifld w 65 5) (oneLane (ifld w 53 7))
    (fun _ => rmaxNew s p w)

/-- R168: the exponential of an active score, as its row stands now, less the new maximum. -/
def rmaxExp (l : Nat) : Word :=
  if (aAct s p w).getLsbD l && !fvEq (f32 (rmaxNew s p w)) (.inf true) then
    sfu (getF s VX_SFU_REV_REV p) 0 (fsub (getLane (rmaxRow s p w) p (ifld w 70 5) l) (rmaxNew s p w)) else 0

/-- R168: every effect of vx.rmax on lanes. -/
def rmaxDone : State := setLanes (rmaxRow s p w) p (ifld w 75 5) (BitVec.allOnes 128) (rmaxExp s p w)

/-- What vx.rmax counts: an exponential for the row, and one for each active score. -/
def rmaxCount : Nat :=
  b2n (!fvEq (f32 (getLane s p (ifld w 65 5) (ifld w 53 7))) (f32 (rmaxNew s p w)))
    + (if !fvEq (f32 (rmaxNew s p w)) (.inf true) then (lanesOf (aAct s p w)).length else 0)

theorem vxOnly_rmaxDone : VxOnly p [] s (rmaxDone s p w) :=
  ((vxOnly_setLanes ..).trans (vxOnly_setLanes ..)).trans (vxOnly_setLanes ..)

theorem getPred_rmaxDone (n : Nat) : getPred (rmaxDone s p w) p n = getPred s p n := by
  rw [rmaxDone, getPred_setLanes, rmaxRow, getPred_setLanes, getPred_setLanes]

theorem getLane_rmaxRow {r l : Nat} (hl : l < 128) : getLane (rmaxRow s p w) p r l =
    if r = ifld w 65 5 ∧ l = ifld w 53 7 then rmaxNew s p w else if r = ifld w 60 5 ∧ l = ifld w 53 7 then rmaxScale s p w
    else getLane s p r l := by
  rw [rmaxRow, getLane_setLanes_oneLane _ _ _ _ _ hl, getLane_setLanes_oneLane _ _ _ _ _ hl]

theorem getLane_rmaxDone {r l : Nat} (hl : l < 128) : getLane (rmaxDone s p w) p r l =
    if r = ifld w 75 5 then rmaxExp s p w l else getLane (rmaxRow s p w) p r l := by
  rw [rmaxDone, getLane_setLanes _ _ _ _ _ hl, BitVec.getLsbD_allOnes]
  simp only [hl, decide_true, and_true]

end

section
variable {s : State} {p : Fin 72} {q : QEntry}

theorem exec_vxRed_issues (hfn : rFn q.word ≤ 2) (hrsv : rsvBad q.word [(0, 9), (54, 5)] = false)
    (h : VxReady s p 0x69 (rReads q.word ++ [rVd q.word]) q) : exec (.vxRed p) s =
      .next (vxIssued (countLanes (setLanes s p (rVd q.word) (BitVec.allOnes 128) (fun _ =>
        reduceLanes (rFn q.word) (rAct s p q.word) (getLane s p (rVa q.word)))) p (rAct s p q.word)) p q [rVd q.word]) := by
  have hbad : (decide (2 < rFn q.word) || rsvBad q.word [(0, 9), (54, 5)]) = false := by simp [hfn, hrsv]
  exact congrArg Host.Outcome.next (vxRun_issues h hbad rfl rfl)

theorem exec_vxRmax_issues (hrsv : ifld q.word 0 49 = 0) (hdm : ifld q.word 75 5 ≠ ifld q.word 65 5) (hda : ifld q.word 75 5 ≠ ifld q.word 60 5)
    (hma : ifld q.word 65 5 ≠ ifld q.word 60 5)
    (h : VxReady s p 0x6A [ifld q.word 70 5, 32 + ifld q.word 50 3, ifld q.word 75 5, ifld q.word 65 5, ifld q.word 60 5] q) :
    exec (.vxRmax p) s = .next (vxIssued (countSfu (countLanes (rmaxDone s p q.word) p (aAct s p q.word)) p (rmaxCount s p q.word)) p q
      [ifld q.word 75 5, ifld q.word 65 5, ifld q.word 60 5]) := by
  have hbad : (ifld q.word 0 49 != 0 || ifld q.word 75 5 == ifld q.word 65 5 || ifld q.word 75 5 == ifld q.word 60 5
      || ifld q.word 65 5 == ifld q.word 60 5) = false := by simp [hrsv, hdm, hda, hma]
  exact congrArg Host.Outcome.next (vxRun_issues h hbad rfl rfl)

theorem exec_vxRsum_issues (hrsv : ifld q.word 0 49 = 0) (hrsv' : ifld q.word 65 5 = 0) (hda : ifld q.word 75 5 ≠ ifld q.word 60 5)
    (h : VxReady s p 0x6B [ifld q.word 70 5, ifld q.word 60 5, 32 + ifld q.word 50 3, ifld q.word 75 5] q) : exec (.vxRsum p) s =
      .next (vxIssued (countLanes (setLanes s p (ifld q.word 75 5) (oneLane (ifld q.word 53 7)) (fun _ =>
        fadd (fmul (getLane s p (ifld q.word 75 5) (ifld q.word 53 7)) (getLane s p (ifld q.word 60 5) (ifld q.word 53 7)))
          (reduceLanes 0 (aAct s p q.word) (getLane s p (ifld q.word 70 5))))) p (aAct s p q.word)) p q [ifld q.word 75 5]) := by
  have hbad : (ifld q.word 0 49 != 0 || ifld q.word 65 5 != 0 || ifld q.word 75 5 == ifld q.word 60 5) = false := by
    simp [hrsv, hrsv', hda]
  exact congrArg Host.Outcome.next (vxRun_issues h hbad rfl rfl)

end

/-- R186, R190: a row whose word its table reserves faults at issue, without effect. -/
theorem vxRun_vxFaults {s : State} (hs : Canon s) {p : Fin 72} {op : Nat} {bad : IWord → Bool} {reads writes : IWord → List Nat}
    {body : State → IWord → VxRes} {q : QEntry} (hf : frontIs s (.tile p .vx) 2 op = some q) (hd : draining s p = false)
    (hbad : bad q.word = true) :
    VxFaults s (vxRun s p op bad reads writes body) p q 0x0B01 := by
  rw [vxRun_malformed hf hd (by rw [hbad, Bool.or_true])]
  exact faultQ_vxFaults hs (faultable_of_canIssue (frontIs_eq_some.1 hf).2.1) q 0x0B01 0 0 0

/-- Settles O30: vx.red and vx.rsum write lanes of one register; vx.rmax writes VA's and VM's row, then VD from the scores as they then
stand. -/
theorem reductionsAndAttention : Obligations.ReductionsAndAttention := by
  unfold Obligations.ReductionsAndAttention
  intro p s q w rev row hs
  refine ⟨fun hfn hrsv h => ?red, fun hrsv hdm hda hma h => ?rmax, fun hrsv hrsv' hda h => ?rsum, fun heq hf hd => ?equal⟩
  case red => exact ⟨_, exec_vxRed_issues hfn hrsv h, lanes_issued hs p q (countLanes_moves ..) (regsBut_countLanes _ _ _)⟩
  case rsum => exact ⟨_, exec_vxRsum_issues hrsv hrsv' hda h, lanes_issued hs p q (countLanes_moves ..) (regsBut_countLanes _ _ _)⟩
  case equal =>
    have hbad : (ifld w 0 49 != 0 || ifld w 75 5 == ifld w 65 5 || ifld w 75 5 == ifld w 60 5 || ifld w 65 5 == ifld w 60 5) = true := by
      rcases heq with heq | heq | heq <;> simp [heq]
    exact ⟨_, rfl, vxRun_vxFaults hs hf hd hbad⟩
  case rmax =>
    intro act old mo mn al vs
    have hcount : Moves 0x8 (rmaxDone s p w) (countSfu (countLanes (rmaxDone s p w) p act) p (rmaxCount s p w)) :=
      (countSfu_moves ..).trans (countLanes_moves ..)
    obtain ⟨hlane, hpred, hissues, hleaves⟩ := ((vxOnly_rmaxDone s p w).trans ((vxOnly_countLanes _ p [] act).trans
      (vxOnly_countSfu _ p [] (rmaxCount s p w)))).issued hs q [ifld w 75 5, ifld w 65 5, ifld w 60 5]
    have hshow : ∀ r l, l < 128 → getLane _ p r l = _ := fun r l hl =>
      (hlane r l).trans ((getLane_of_moves hcount (by decide) p r l).trans (getLane_rmaxDone s p w hl))
    have hexec : exec (.vxRmax p) s = .next (vxIssued (countSfu (countLanes (rmaxDone s p w) p act) p (rmaxCount s p w)) p q
      [ifld w 75 5, ifld w 65 5, ifld w 60 5]) := exec_vxRmax_issues hrsv hdm hda hma h
    refine ⟨_, hexec, fun l hl => ?exps, fun l hl => ?maximum, fun l hl => ?factor, fun r l hd hm ha hl => ?others,
      fun n _ => (hpred n).trans ((getPred_of_moves hcount (by decide) p n).trans (getPred_rmaxDone s p w n)), hissues, hleaves⟩
    case exps =>
      have hvs : getLane (rmaxRow s p w) p (ifld w 70 5) l = vs l := by
        rw [getLane_rmaxRow s p w hl]
        simp only [vs, and_comm (a := l = row)]
        rfl
      rw [hshow _ _ hl, if_pos rfl, rmaxExp, hvs]
      simp only [Bool.and_eq_true, Bool.not_eq_true']
      rfl
    case maximum =>
      rw [hshow _ _ hl, if_neg hdm.symm, getLane_rmaxRow s p w hl]
      simp [hma]
      rfl
    case factor =>
      rw [hshow _ _ hl, if_neg hda.symm, getLane_rmaxRow s p w hl]
      simp [hma.symm]
      rfl
    case others =>
      rw [hshow _ _ hl, if_neg hd, getLane_rmaxRow s p w hl, if_neg fun h => hm h.1, if_neg fun h => ha h.1]

end Sys2Proof.Proofs

/-! PROOFS. Random lanes and dropout (R173, R175, R178, R179), and the write of the random key. -/
namespace Sys2Proof.Proofs
open Sys2Proof Sys2Proof.Machine Sys2Proof.Laws

theorem regsBut_rngCalls (s : State) (p n : Nat) : RegsBut (vxCountKeys p) s (addStat s VX_RNG_CALLS p n) :=
  regs_mono (regsBut_wrF s 4 VX_RNG_CALLS p 0 _) (by simp [vxCountKeys])

/-- R178, R193: lane operations and Philox calls counted. -/
theorem countRng_shows (s : State) (p : Nat) (act : BitVec 128) (n : Nat) :
    Moves 0x8 s (addStat (countLanes s p act) VX_RNG_CALLS p n)
      ∧ RegsBut (vxCountKeys p) s (addStat (countLanes s p act) VX_RNG_CALLS p n) :=
  ⟨(addStat_moves ..).trans (countLanes_moves ..), regs_trans (regsBut_countLanes s p act) (regsBut_rngCalls _ p n)⟩

section
variable {s : State} {p : Fin 72} {q : QEntry}

theorem exec_vxRng_issues (hrsv : rsvBad q.word [(0, 38), (44, 5), (49, 16), (70, 5)] = false) (heven : ifld q.word 65 5 % 2 = 0)
    (hfn : ifld q.word 42 2 ≤ 1) (h : VxReady s p 0x6D [32 + ifld q.word 39 3, ifld q.word 75 5] q) : exec (.vxRng p) s =
      .next (vxIssued (addStat (countLanes (setLanes s p (ifld q.word 75 5) (dAct s p q.word) (fun l =>
        if ifld q.word 42 2 = 0 then BitVec.ofNat 32 (rng16 (vxKey s p) 0 (vxCoord s p (ifld q.word 65 5)) l)
        else f32Bits (.fin false (rng16 (vxKey s p) 0 (vxCoord s p (ifld q.word 65 5)) l) (-16)))) p (dAct s p q.word)) VX_RNG_CALLS p
          (rngCalls (vxCoord s p (ifld q.word 65 5)).col 128)) p q [ifld q.word 75 5]) := by
  have hbad : (rsvBad q.word [(0, 38), (44, 5), (49, 16), (70, 5)] || ifld q.word 65 5 % 2 == 1 || decide (1 < ifld q.word 42 2)) = false := by
    simp [hrsv, heven, hfn]
  exact congrArg Host.Outcome.next (vxRun_issues h hbad rfl rfl)

theorem exec_vxDrop_issues (hrsv : rsvBad q.word [(0, 38), (42, 2)] = false) (heven : ifld q.word 65 5 % 2 = 0)
    (h : VxReady s p 0x6C [ifld q.word 70 5, 32 + ifld q.word 39 3, ifld q.word 75 5] q) : exec (.vxDrop p) s =
      .next (vxIssued (addStat (countLanes (setLanes s p (ifld q.word 75 5) (dAct s p q.word) (fun l =>
        if rng16 (vxKey s p) 1 (vxCoord s p (ifld q.word 65 5)) l < ifld q.word 49 16 then 0
        else fmul (getLane s p (ifld q.word 70 5) l) (BitVec.ofNat 32 (vxG s p q.word 44).toNat))) p (dAct s p q.word)) VX_RNG_CALLS p
          (rngCalls (vxCoord s p (ifld q.word 65 5)).col 128)) p q [ifld q.word 75 5]) := by
  have hbad : (rsvBad q.word [(0, 38), (42, 2)] || ifld q.word 65 5 % 2 == 1) = false := by simp [hrsv, heven]
  exact congrArg Host.Outcome.next (vxRun_issues h hbad rfl rfl)

theorem exec_vxRngKeyWrite (hup : pageUp s 4 p = true) (v : DWord) : exec (.vxRngKeyWrite p v) s = .next (writeRngKey s p v) :=
  congrArg Host.Outcome.next (if_pos hup)

/-- R173: the key takes effect only while its engine stands still. -/
theorem writeRngKey_takes (v : DWord) (h : (getEng s (.tile p .vx)).st = .halted ∨ (getEng s (.tile p .vx)).st = .loaded
    ∨ (getEng s (.tile p .vx)).st = .quiesced) : writeRngKey s p v = setF s VX_RNG_KEY_KEY p v.toNat := by
  rw [writeRngKey, vxEng_val]
  rcases h with h | h | h <;> rw [h]

theorem writeRngKey_ignored (v : DWord) (h : (getEng s (.tile p .vx)).st = .armed ∨ (getEng s (.tile p .vx)).st = .running
    ∨ (getEng s (.tile p .vx)).st = .waiting ∨ (getEng s (.tile p .vx)).st = .faulted) : writeRngKey s p v = s := by
  rw [writeRngKey, vxEng_val]
  rcases h with h | h | h | h <;> rw [h]

end

/-- Settles O32: vx.rng and vx.drop write lanes, an odd coordinate register is a bad encoding, and the key is written in three states. -/
theorem randomLanes : Obligations.RandomLanes := by
  unfold Obligations.RandomLanes
  refine ⟨fun p s q => ?lanes, fun p s v => ?key⟩
  case lanes =>
    intro w key act co hs
    refine ⟨fun hrsv heven hfn h => ?rng, fun hrsv heven h => ?drop, fun hodd hd => ⟨fun hf => ?dropOdd, fun hf => ?rngOdd⟩⟩
    case rng =>
      obtain ⟨hm, hr⟩ := countRng_shows _ p act (rngCalls co.col 128)
      exact ⟨_, exec_vxRng_issues hrsv heven hfn h, lanes_issued hs p q hm hr⟩
    case drop =>
      obtain ⟨hm, hr⟩ := countRng_shows _ p act (rngCalls co.col 128)
      exact ⟨_, exec_vxDrop_issues hrsv heven h, lanes_issued hs p q hm hr⟩
    case dropOdd =>
      have hbad : (rsvBad w [(0, 38), (42, 2)] || ifld w 65 5 % 2 == 1) = true := by simp [hodd]
      exact ⟨_, rfl, vxRun_vxFaults hs hf hd hbad⟩
    case rngOdd =>
      have hbad : (rsvBad w [(0, 38), (44, 5), (49, 16), (70, 5)] || ifld w 65 5 % 2 == 1 || decide (1 < ifld w 42 2)) = true := by
        simp [hodd]
      exact ⟨_, rfl, vxRun_vxFaults hs hf hd hbad⟩
  case key =>
    intro hs hup st
    refine ⟨fun h => ⟨_, (exec_vxRngKeyWrite hup v).trans (congrArg Host.Outcome.next (writeRngKey_takes v h)), ?shows,
      regsBut_wrF s 4 VX_RNG_KEY_KEY p 0 _, only_of _ (setF_moves ..) (by decide)⟩,
      fun h => (exec_vxRngKeyWrite hup v).trans (congrArg Host.Outcome.next (writeRngKey_ignored v h))⟩
    case shows => exact (getF_setF_same s VX_RNG_KEY_KEY p v.toNat (by decide)).trans (Nat.mod_eq_of_lt v.isLt)

end Sys2Proof.Proofs

/-! PROOFS. General registers and accumulation buffer entries that a vx. load or store moves (R161, R189): INC, and passes over the entries of
active lanes. -/
namespace Sys2Proof.Proofs
open Sys2Proof Sys2Proof.Machine Sys2Proof.Laws

/-! Faults of the effects. -/

/-- R190: an instruction that meets a fault before its effects faults without any. -/
theorem vxRun_meets {s : State} (hs : Canon s) {p : Fin 72} {op : Nat} {rs : List Nat} {q : QEntry} (h : VxReady s p op rs q)
    {bad : IWord → Bool} {reads writes : IWord → List Nat} {body : State → IWord → VxRes} (hbad : bad q.word = false)
    (hrs : rs = reads q.word ++ writes q.word) {c a : Nat} (hbody : body s q.word = (s, some (c, a))) :
    VxFaults s (vxRun s p op bad reads writes body) p q c := by
  rw [vxRun_faults h hbad hrs hbody]
  exact faultQ_vxFaults hs (faultable_of_vxReady h) q c a 0 0

/-! INC. -/

section
variable (s : State) (p : Fin 72) (on : Bool) (r n : Nat)

theorem getG_bumpG (h : on = true) : getG (bumpG s p on r n) (.tile p .vx) r = getG s (.tile p .vx) r + BitVec.ofNat 64 n := by
  rw [bumpG, if_pos h, vxEng_val, getG_setG_same]

theorem regsBut_bumpG : RegsBut (if on then [gKey (.tile p .vx) r] else []) s (bumpG s p on r n) := by
  unfold bumpG
  rw [vxEng_val]
  cases on
  · exact regs_refl _ s
  · exact regsBut_regSet s _ _

theorem getG_vxIssued (q : QEntry) (ws : List Nat) : getG (vxIssued s p q ws) (.tile p .vx) n = getG s (.tile p .vx) n :=
  regsBut_vxIssued s p q ws _ (regKey_not_trace (b := 4) (by decide) _ _ _)

end

/-! Entries. -/

theorem getVx_setAcc (s : State) (p e : Nat) (v : Word) (bad : Bool) : getVx (setAcc s p e v bad) p = getVx s p :=
  (congrArg Tile.vx (getTile_setTile_same s p _)).trans rfl

/-- A value, without poison, is put into the entry of each active lane, counted from an entry. -/
def putEntries (s : State) (p base : Nat) (act : BitVec 128) (v : Nat → Word) : State :=
  (lanesOf act).foldl (fun u l => setAcc u p (base + l) (v l) false) s

section
variable (s : State) (p base : Nat) (act : BitVec 128) (v : Nat → Word)

theorem putEntries_moves : Moves 0x80 s (putEntries s p base act v) := Moves.foldl _ (fun _ _ => setAcc_moves ..) s (.refl _ s)

theorem bufferOnly_putEntries : BufferOnly p s (putEntries s p base act v) := BufferOnly.foldl (st := id) (fun _ _ => bufferOnly_setAcc ..) _ s

theorem getVx_putEntries : getVx (putEntries s p base act v) p = getVx s p := by
  unfold putEntries
  induction lanesOf act generalizing s with
  | nil => rfl
  | cons l ls ih => exact (ih _).trans (getVx_setAcc ..)

theorem entrySteps_put : EntrySteps (fun u => accEntry u p) (fun u l => setAcc u p (base + l) (v l) false) (base + ·)
    (fun l e => ⟨v l, false, e.wide⟩) where
  own _ _ := accEntry_setAcc_same ..
  other _ _ _ hk := accEntry_setAcc_other _ _ _ _ _ hk

/-- The entries of the active lanes hold the values, and the others what they held. -/
theorem accEntry_putEntries (k : Nat) : accEntry (putEntries s p base act v) p k =
    if base ≤ k ∧ k < base + 128 ∧ act.getLsbD (k - base) = true then ⟨v (k - base), false, getWide s p k⟩ else accEntry s p k := by
  split
  · next h =>
    obtain ⟨l, rfl⟩ := Nat.exists_eq_add_of_le h.1
    rw [Nat.add_sub_cancel_left] at h ⊢
    exact (entrySteps_put p base v).foldl_mem _ s ((List.nodup_range.filter _).imp fun hne heq => hne (Nat.add_left_cancel heq))
      (mem_lanesOf.2 ⟨by omega, h.2.2⟩)
  · next h =>
    refine (entrySteps_put p base v).foldl_other _ s fun l hl heq => h ?_
    obtain ⟨hl, hon⟩ := mem_lanesOf.1 hl
    subst heq
    exact ⟨Nat.le_add_right .., Nat.add_lt_add_left hl _, by rwa [Nat.add_sub_cancel_left]⟩

end

/-- From s to u the tile's predicates and instructions in flight, and registers but those listed, have stayed, and so have other tiles. -/
structure EntriesOnly (p : Fin 72) (ks : List Nat) (s u : State) : Prop where
  tiles : TilesBut [p.val] s u
  fly : (getVx u p).fly = (getVx s p).fly
  preds : ∀ n, getPred u p n = getPred s p n
  regs : RegsBut ks s u

section
variable {p : Fin 72} {ks : List Nat} {s u v : State}

theorem EntriesOnly.trans (h : EntriesOnly p ks s u) (k : EntriesOnly p ks u v) : EntriesOnly p ks s v :=
  ⟨tilesBut_trans h.tiles k.tiles, k.fly.trans h.fly, fun n => (k.preds n).trans (h.preds n), regs_trans h.regs k.regs⟩

theorem entriesOnly_setLanes (s : State) (p : Fin 72) (ks : List Nat) (r : Nat) (act : BitVec 128) (f : Nat → Word) :
    EntriesOnly p ks s (setLanes s p r act f) :=
  ⟨tilesBut_modVx s p _, by rw [setLanes, getVx_modVx_same], getPred_setLanes s p r act f, regsBut_of_regs _ rfl⟩

theorem entriesOnly_putEntries (s : State) (p : Fin 72) (ks : List Nat) (base : Nat) (act : BitVec 128) (f : Nat → Word) :
    EntriesOnly p ks s (putEntries s p base act f) :=
  ⟨(bufferOnly_putEntries ..).tiles, by rw [getVx_putEntries], getPred_of_getVx (by rw [getVx_putEntries]),
    regsBut_of_regs _ ((putEntries_moves ..).same .regs (by decide)).symm⟩

/-- What moves no tile. -/
theorem entriesOnly_of_moves {m : Nat} (h : Moves m s u) (hm : m.testBit 7 = false) (hr : RegsBut ks s u) : EntriesOnly p ks s u :=
  ⟨fun r _ => getTile_of_moves h hm r, congrArg (fun x => x.vx.fly) (getTile_of_moves h hm p), getPred_of_moves h hm p, hr⟩

theorem entriesOnly_bumpG (s : State) (p : Fin 72) (on : Bool) (r n : Nat) :
    EntriesOnly p [gKey (.tile p .vx) r] s (bumpG s p on r n) :=
  entriesOnly_of_moves (bumpG_moves ..) (by decide) (regs_mono (regsBut_bumpG s p on r n) (by cases on <;> simp))

/-- R161, R188: an instruction with such effects has issued. -/
theorem EntriesOnly.issued (h : EntriesOnly p ks s u) (hs : Canon s) {m : Nat} (hm : Moves m s u) (h6 : m.testBit 6 = false) (q : QEntry)
    (ws : List Nat) : let t := vxIssued u p q ws
    (∀ r l, getLane t p r l = getLane u p r l) ∧ (∀ k, accEntry t p k = accEntry u p k) ∧ PredsBut [] s t p ∧ VxIssues s t p q ws
      ∧ RegsBut (ks ++ traceKeys (.tile p .vx)) s t := by
  intro t
  have hu : Canon u := hm.canon hs
  exact ⟨getLane_vxIssued hu p q ws, accEntry_of_getMx (getMx_vxIssued hu p q ws p), fun n _ => (getPred_vxIssued hu p q ws n).trans (h.preds n),
    vxIssued_issues ⟨hu, h.fly, h.tiles, engsBut_of_moves hm h6 _⟩ q ws,
    regs_trans (regs_mono h.regs fun _ => List.mem_append_left _) (regs_mono (regsBut_vxIssued u p q ws) fun _ => List.mem_append_right _)⟩

end

end Sys2Proof.Proofs

/-! PROOFS. vx.lda and vx.sta (R161, R189): lanes read from the entries of the accumulation buffer, and written to them. -/
namespace Sys2Proof.Proofs
open Sys2Proof Sys2Proof.Machine Sys2Proof.Laws

section
variable (s : State) (p : Fin 72) (w : IWord)

/-- R161: the lanes are read. -/
def ldaRead : State := setLanes s p (ifld w 75 5) (qAct s p w) (fun l => getAcc s p (16 * qAddr s p w + l))

/-- R161: with CLR the entries that were read are zeroed. -/
def ldaCleared : State := if ibit w 55 then putEntries (ldaRead s p w) p (16 * qAddr s p w) (qAct s p w) (fun _ => 0) else ldaRead s p w

/-- R161: every effect of vx.lda. -/
def ldaDone : State := bumpG (ldaCleared s p w) p (ibit w 54) (ifld w 70 5) 8

theorem ldaCleared_moves : Moves 0x80 (ldaRead s p w) (ldaCleared s p w) := by
  unfold ldaCleared
  split
  · exact putEntries_moves ..
  · exact .refl _ _

theorem ldaDone_moves : Moves 0x88 s (ldaDone s p w) :=
  (bumpG_moves ..).next (by decide) (((ldaCleared_moves s p w).trans (setLanes_moves ..)).le (by decide))

theorem entriesOnly_ldaCleared (ks : List Nat) : EntriesOnly p ks s (ldaCleared s p w) := by
  have hread : EntriesOnly p ks s (ldaRead s p w) := entriesOnly_setLanes ..
  unfold ldaCleared
  split
  · exact hread.trans (entriesOnly_putEntries ..)
  · exact hread

theorem entriesOnly_ldaDone : EntriesOnly p [gKey (.tile p .vx) (ifld w 70 5)] s (ldaDone s p w) :=
  (entriesOnly_ldaCleared s p w _).trans (entriesOnly_bumpG ..)

theorem getLane_ldaDone (r l : Nat) : getLane (ldaDone s p w) p r l = getLane (ldaRead s p w) p r l := by
  rw [ldaDone, getLane_of_moves (bumpG_moves ..) (by decide), ldaCleared]
  split
  · exact getLane_of_getVx (by rw [getVx_putEntries]) r l
  · rfl

theorem getAcc_ldaDone (k : Nat) : getAcc (ldaDone s p w) p k = if ibit w 55 = true ∧ 16 * qAddr s p w ≤ k ∧ k < 16 * qAddr s p w + 128
    ∧ (qAct s p w).getLsbD (k - 16 * qAddr s p w) = true then 0 else getAcc s p k := by
  have hread : accEntry (ldaRead s p w) p k = accEntry s p k := accEntry_of_getMx (getMx_modVx s p _ p) k
  have hbump : accEntry (ldaDone s p w) p k = accEntry (ldaCleared s p w) p k :=
    accEntry_of_getMx (congrArg Tile.mx (getTile_of_moves (bumpG_moves ..) (by decide) p)) k
  refine (congrArg AccEntry.acc hbump).trans ?_
  unfold ldaCleared
  split
  · next hclr =>
    rw [accEntry_putEntries, hread]
    simp only [hclr, true_and]
    exact apply_ite AccEntry.acc ..
  · next hclr => rw [hread, if_neg fun h => hclr h.1]; rfl

/-- R161: the entries of the active lanes are written, some of them with free values. -/
def staWritten : State :=
  { putEntries s p (16 * qAddr s p w) (qAct s p w) (fun l => staWord s p w (16 * qAddr s p w + l) l) with freeCtr := s.freeCtr + 128 }

/-- R161: every effect of vx.sta. -/
def staDone : State := bumpG (staWritten s p w) p (ibit w 54) (ifld w 70 5) 8

theorem freeCtr_moves (n : Nat) : Moves 0x4 s { s with freeCtr := n } :=
  ⟨rfl, fun h => by cases h; constructor <;> assumption⟩

/-- The counter of free values, and INC, move no tile. -/
theorem staDone_moves_put : Moves 0xc (putEntries s p (16 * qAddr s p w) (qAct s p w) (fun l => staWord s p w (16 * qAddr s p w + l) l))
    (staDone s p w) :=
  (bumpG_moves ..).next (by decide) ((freeCtr_moves _ (s.freeCtr + 128)).le (by decide))

theorem staDone_moves : Moves 0x8c s (staDone s p w) :=
  ((staDone_moves_put s p w).le (by decide)).trans ((putEntries_moves ..).le (by decide))

theorem entriesOnly_staDone : EntriesOnly p [gKey (.tile p .vx) (ifld w 70 5)] s (staDone s p w) := by
  have hput := entriesOnly_putEntries s p [gKey (.tile p .vx) (ifld w 70 5)] (16 * qAddr s p w) (qAct s p w)
    (fun l => staWord s p w (16 * qAddr s p w + l) l)
  have hfree : EntriesOnly p [gKey (.tile p .vx) (ifld w 70 5)] _ (staWritten s p w) :=
    entriesOnly_of_moves (freeCtr_moves _ (s.freeCtr + 128)) (by decide) (regsBut_of_regs _ rfl)
  exact (hput.trans hfree).trans (entriesOnly_bumpG ..)

theorem getLane_staDone (r l : Nat) : getLane (staDone s p w) p r l = getLane s p r l :=
  (getLane_of_moves (staDone_moves_put s p w) (by decide) p r l).trans (getLane_of_getVx (by rw [getVx_putEntries]) r l)

theorem accEntry_staDone (k : Nat) : accEntry (staDone s p w) p k =
    if 16 * qAddr s p w ≤ k ∧ k < 16 * qAddr s p w + 128 ∧ (qAct s p w).getLsbD (k - 16 * qAddr s p w) = true then
      ⟨staWord s p w (16 * qAddr s p w + (k - 16 * qAddr s p w)) (k - 16 * qAddr s p w), false, getWide s p k⟩ else accEntry s p k :=
  (accEntry_of_getMx (congrArg Tile.mx (getTile_of_moves (staDone_moves_put s p w) (by decide) p)) k).trans (accEntry_putEntries ..)

/-- R161: an entry that no MXE instruction in flight writes takes its lane. -/
theorem staWord_of_alone {k : Nat} (h : entryRaced s p k = false) (l : Nat) : staWord s p w k l = getLane s p (ifld w 75 5) l := by
  rw [staWord, h]
  exact if_neg Bool.false_ne_true

end

section
variable {s : State} {p : Fin 72} {q : QEntry} (hrsv : ifld q.word 0 50 = 0)
include hrsv

theorem vxLda_encoded : (ifld q.word 0 50 != 0) = false := by simp [hrsv]

theorem vxSta_encoded (hclr : ibit q.word 55 = false) : (ifld q.word 0 50 != 0 || ibit q.word 55) = false := by simp [hrsv, hclr]

section
variable (h : VxReady s p 0x62 [32 + ifld q.word 51 3, ifld q.word 75 5] q)
include h

/-- R189: entries past the end of the buffer. -/
theorem vxLda_range (hs : Canon s) (hout : 16383 < qAddr s p q.word + 7) : Does (.vxLda p) s (fun t => VxFaults s t p q 0x0B02) :=
  ⟨_, rfl, vxRun_meets hs h (a := 16 * qAddr s p q.word) (vxLda_encoded hrsv) rfl (by simp only [if_pos hout])⟩

variable (hin : qAddr s p q.word + 7 ≤ 16383)
include hin

/-- R190: an active entry that is poisoned. -/
theorem vxLda_poisoned (hs : Canon s) {l : Nat} (hl : l < 128) (hon : (qAct s p q.word).getLsbD l = true)
    (hbad : accBad s p (16 * qAddr s p q.word + l) = true) : Does (.vxLda p) s (fun t => VxFaults s t p q 0x0303) := by
  have hsome : ((lanesOf (qAct s p q.word)).find? (fun l => accBad s p (16 * qAddr s p q.word + l))).isSome :=
    List.find?_isSome.2 ⟨l, mem_lanesOf.2 ⟨hl, hon⟩, hbad⟩
  obtain ⟨j, hj⟩ := Option.isSome_iff_exists.1 hsome
  exact ⟨_, rfl, vxRun_meets hs h (a := 16 * qAddr s p q.word + j) (vxLda_encoded hrsv) rfl
    (by simp only [if_neg (Nat.not_lt.2 hin), hj])⟩

theorem exec_vxLda_issues (hgood : ∀ l < 128, (qAct s p q.word).getLsbD l = true → accBad s p (16 * qAddr s p q.word + l) = false) :
    exec (.vxLda p) s = .next (vxIssued (ldaDone s p q.word) p q [ifld q.word 75 5]) := by
  have hnone : (lanesOf (qAct s p q.word)).find? (fun l => accBad s p (16 * qAddr s p q.word + l)) = none :=
    List.find?_eq_none.2 fun l hl => by
      obtain ⟨hl, hon⟩ := mem_lanesOf.1 hl
      exact Bool.eq_false_iff.1 (hgood l hl hon)
  exact congrArg Host.Outcome.next (vxRun_issues h (vxLda_encoded hrsv) rfl (by simp only [if_neg (Nat.not_lt.2 hin), hnone]; rfl))

end

variable (h : VxReady s p 0x63 [ifld q.word 75 5, 32 + ifld q.word 51 3] q) (hclr : ibit q.word 55 = false)
include h hclr

theorem vxSta_range (hs : Canon s) (hout : 16383 < qAddr s p q.word + 7) : Does (.vxSta p) s (fun t => VxFaults s t p q 0x0B02) :=
  ⟨_, rfl, vxRun_meets hs h (a := 16 * qAddr s p q.word) (vxSta_encoded hrsv hclr) rfl (by simp only [if_pos hout])⟩

theorem exec_vxSta_issues (hin : qAddr s p q.word + 7 ≤ 16383) : exec (.vxSta p) s = .next (vxIssued (staDone s p q.word) p q []) :=
  congrArg Host.Outcome.next (vxRun_issues h (vxSta_encoded hrsv hclr) rfl (by simp only [if_neg (Nat.not_lt.2 hin)]; rfl))

end

end Sys2Proof.Proofs

/-! PROOFS. Bytes of a row that a test selects (R159): the runs of consecutive offsets cover the selected ones, and a write of the runs
writes those bytes alone. -/
namespace Sys2Proof.Proofs
open Sys2Proof Sys2Proof.Machine Sys2Proof.Laws

/-! Runs. -/

/-- An offset lies in a run of a list. -/
def inRuns (rs : List (Nat × Nat)) (i : Nat) : Bool := rs.any (fun r => decide (r.1 ≤ i ∧ i < r.1 + r.2))

theorem inRuns_cons (r : Nat × Nat) (rs : List (Nat × Nat)) (i : Nat) :
    inRuns (r :: rs) i = true ↔ (r.1 ≤ i ∧ i < r.1 + r.2) ∨ inRuns rs i = true := by
  simp only [inRuns, List.any_cons, Bool.or_eq_true, decide_eq_true_eq]

theorem inRuns_runsOf (i : Nat) : ∀ l, inRuns (runsOf l) i = true ↔ i ∈ l
  | [] => by simp [inRuns, runsOf]
  | x :: l => by
    have ih := inRuns_runsOf i l
    rw [List.mem_cons, ← ih, runsOf]
    cases runsOf l with
    | nil =>
      rw [inRuns_cons]
      exact or_congr_left (by dsimp only; omega)
    | cons r t =>
      dsimp only
      split
      · next hr =>
        rw [inRuns_cons, inRuns_cons, ← or_assoc]
        exact or_congr_left (by omega)
      · rw [inRuns_cons]
        exact or_congr_left (by dsimp only; omega)

/-! The bytes written. -/

/-- A part of bytes from address a on. -/
theorem spanByte_slice (a o n : Nat) (bs : List Byte) (x : Nat) :
    spanByte (a + o) ((bs.drop o).take n) x = if a + o ≤ x ∧ x < a + o + n then spanByte a bs x else none := by
  unfold spanByte
  by_cases hlo : a + o ≤ x
  · rw [if_pos hlo, List.getElem?_take, List.getElem?_drop, show o + (x - (a + o)) = x - a by omega, if_pos (show a ≤ x by omega)]
    exact if_congr (by omega) rfl rfl
  · rw [if_neg hlo, if_neg fun h => hlo h.1]

section
variable (p a : Nat) (bs : List Byte)

/-- A run of the bytes is written. -/
def writeRun (s : State) (r : Nat × Nat) : State := tileWrite s p (a + r.1) (good ((bs.drop r.1).take r.2))

theorem memByte_writeRun (s : State) (r : Nat × Nat) (x : Nat) : memByte (writeRun p a bs s r) x =
    if tsAddr p a + r.1 ≤ x ∧ x < tsAddr p a + r.1 + r.2 then (spanByte (tsAddr p a) bs x).getD (memByte s x) else memByte s x := by
  rw [writeRun, memByte_tileWrite, tsAddr_add, spanByte_slice]
  split <;> rfl

theorem memByte_writeRuns (x : Nat) : ∀ (rs : List (Nat × Nat)) (s : State), memByte (rs.foldl (writeRun p a bs) s) x =
    if tsAddr p a ≤ x ∧ inRuns rs (x - tsAddr p a) = true then (spanByte (tsAddr p a) bs x).getD (memByte s x) else memByte s x
  | [], s => by simp [inRuns]
  | r :: rs, s => by
    have hcover : (tsAddr p a ≤ x ∧ inRuns (r :: rs) (x - tsAddr p a) = true) ↔
        (tsAddr p a + r.1 ≤ x ∧ x < tsAddr p a + r.1 + r.2) ∨ (tsAddr p a ≤ x ∧ inRuns rs (x - tsAddr p a) = true) := by
      rw [inRuns_cons, and_or_left]
      exact or_congr_left (by omega)
    rw [List.foldl_cons, memByte_writeRuns x rs, memByte_writeRun]
    by_cases h1 : tsAddr p a + r.1 ≤ x ∧ x < tsAddr p a + r.1 + r.2
    · rw [if_pos (hcover.2 (.inl h1)), if_pos h1]
      cases spanByte (tsAddr p a) bs x <;> simp
    · rw [if_neg h1]
      exact if_congr (hcover.trans (or_iff_right h1)).symm rfl rfl

variable (s : State) (sel : Nat → Bool)

theorem writeRow_eq : writeRow s p a bs sel = (runsOf ((List.range bs.length).filter sel)).foldl (writeRun p a bs) s := rfl

/-- R159: of the row's bytes those selected are written. -/
theorem memByte_writeRow_at {i : Nat} (hi : i < bs.length) : memByte (writeRow s p a bs sel) (tsAddr p (a + i)) =
    if sel i then (bs[i]?).getD 0 else memByte s (tsAddr p (a + i)) := by
  have hin : (tsAddr p a ≤ tsAddr p a + i ∧ inRuns (runsOf ((List.range bs.length).filter sel)) (tsAddr p a + i - tsAddr p a) = true)
      ↔ sel i = true := by
    rw [Nat.add_sub_cancel_left, inRuns_runsOf]
    simp [hi]
  rw [writeRow_eq, tsAddr_add, memByte_writeRuns, spanByte_in hi]
  exact if_congr hin rfl rfl

theorem memByte_writeRow_out {x : Nat} (h : x < tsAddr p a ∨ tsAddr p a + bs.length ≤ x) : memByte (writeRow s p a bs sel) x = memByte s x := by
  rw [writeRow_eq, memByte_writeRuns, spanByte_out h]
  exact ite_self _

end

/-! What stores leave alone. -/

/-- From s to u, of tile p the vector engine and its general registers have stayed, and so have other tiles and all engines. -/
structure VxStored (p : Fin 72) (s u : State) : Prop where
  moves : Moves 0x40000b8 s u
  tiles : TilesBut [p.val] s u
  vx : getVx u p = getVx s p
  g : ∀ n, getG u (.tile p .vx) n = getG s (.tile p .vx) n

section
variable {p : Fin 72} {s u v : State}

theorem VxStored.refl (p : Fin 72) (s : State) : VxStored p s s := ⟨.refl _ s, fun _ _ => rfl, rfl, fun _ => rfl⟩

theorem VxStored.trans (h : VxStored p s u) (k : VxStored p u v) : VxStored p s v :=
  ⟨k.moves.trans h.moves, tilesBut_trans h.tiles k.tiles, k.vx.trans h.vx, fun n => (k.g n).trans (h.g n)⟩

theorem vxStored_tileWrite (s : State) (p : Fin 72) (a : Nat) (bs : List PByte) : VxStored p s (tileWrite s p a bs) := by
  refine ⟨tileWrite_moves .., tilesBut_tileWrite s p a bs, getVx_tileWrite .., fun n => regsBut_tileWrite s p a bs _ ?_⟩
  have := p.isLt
  simp only [List.mem_cons, List.not_mem_nil, or_false, fldKey, regKey, engBlk, engInst, TL_DIGEST_ST_TORN, MG_DIGEST_STATUS_TORN]
  omega

theorem vxStored_writeRow (s : State) (p : Fin 72) (a : Nat) (bs : List Byte) (sel : Nat → Bool) : VxStored p s (writeRow s p a bs sel) := by
  unfold writeRow
  induction runsOf ((List.range bs.length).filter sel) generalizing s with
  | nil => exact .refl p s
  | cons r rs ih => exact (vxStored_tileWrite s p _ _).trans (ih _)

/-- Counters and flags of the vector engine. -/
theorem vxStored_of_counts (h : Moves 0x8 s u) (hr : RegsBut (vxCountKeys p) s u) : VxStored p s u := by
  refine ⟨h.le (by decide), fun r _ => getTile_of_moves h (by decide) r, congrArg Tile.vx (getTile_of_moves h (by decide) p), fun n => hr _ ?_⟩
  simp only [vxCountKeys, List.mem_cons, List.not_mem_nil, or_false, fldKey, regKey, engBlk, engInst, VX_LANE_OPS, VX_SFU_RESULTS,
    VX_RNG_CALLS, VX_FLAGS_OVF]
  omega

end

end Sys2Proof.Proofs

/-! PROOFS. vx.ld and vx.st (R159, R161, R177, R189 to R191), and the statement about loads and stores. -/
namespace Sys2Proof.Proofs
open Sys2Proof Sys2Proof.Machine Sys2Proof.Laws

/-! What both rows name. -/

/-- The format of the row's elements. -/
def lsFmt (w : IWord) : Fmt := fmtC (ifld w 44 4)

section
variable (s : State) (p : Fin 72) (w : IWord) (a : Nat)

/-- R161: where the scales start, and how many there are. -/
def lsScaleAt : Nat := bits (vxG s p w 37).toNat 0 22

/-- R189: the scales lie within the store, where there are some. -/
def LsScalesFit : Prop := ibit w 43 = true → lsScaleAt s p w + 128 / lsBs w ≤ 0x400000

theorem lsScalesFit_iff : LsScalesFit s p w ↔ ¬ (ibit w 43 = true ∧ 0x400000 < lsScaleAt s p w + 128 / lsBs w) := by
  rw [LsScalesFit, not_and, Nat.not_lt]

/-- The bytes of the row at address a, and of its scales. -/
def lsRow : List PByte := tileRead s p a (elemBytes (lsFmt w) 128)
def ldScales : List PByte := if ibit w 43 then tileRead s p (lsScaleAt s p w) (128 / lsBs w) else []

/-! vx.ld. -/

/-- R190: the first poisoned word of an active element or scale. -/
def ldBad : Option Nat := (firstBadAt a (lsRow s p w a) (activeByte (lsFmt w) (lsAct s p w))).orElse
  (fun _ => firstBadAt (lsScaleAt s p w) (ldScales s p w) (activeBlock (lsAct s p w) (lsBs w)))

/-- R161: lane l of the row. -/
def ldLane (l : Nat) : Word :=
  widenElem (lsFmt w) (elemAt (lsFmt w) ((lsRow s p w a).map (·.b)) l) (((ldScales s p w)[l / lsBs w]?).map (·.b.toNat))

/-- R161: every effect of vx.ld. -/
def ldDone : State :=
  bumpG (setLanes s p (ifld w 75 5) (lsAct s p w) (ldLane s p w a)) p (ibit w 36) (ifld w 70 5) (elemBytes (lsFmt w) 128)

theorem vxOnly_ldDone : VxOnly p (if ibit w 36 then [gKey (.tile p .vx) (ifld w 70 5)] else []) s (ldDone s p w a) :=
  (vxOnly_setLanes ..).trans (vxOnly_of_regs (bumpG_moves ..)
    (regs_mono (regsBut_bumpG _ p (ibit w 36) (ifld w 70 5) _) fun _ => List.mem_append_left _))

end

section
variable {s : State} {p : Fin 72} {q : QEntry} (hbad : lsBad q.word = false) (hrsv : rsvBad q.word [(34, 2)] = false)
  (h : VxReady s p 0x60 [32 + ifld q.word 26 3, ifld q.word 75 5] q)
include hbad hrsv

theorem vxLd_encoded : (lsBad q.word || rsvBad q.word [(34, 2)]) = false := by rw [hbad, hrsv]; rfl

include h

/-- R189: a row that starts at a bad address. -/
theorem vxLd_rowFault (hs : Canon s) {c x : Nat} (hrow : rowAt (lsFmt q.word) (lsAddr s p q.word) = .error (c, x)) :
    Does (.vxLd p) s (fun t => VxFaults s t p q c) := by
  rw [lsFmt] at hrow
  exact ⟨_, rfl, vxRun_meets hs h (a := x) (vxLd_encoded hbad hrsv) rfl (by simp only [hrow])⟩

variable {a : Nat} (hrow : rowAt (lsFmt q.word) (lsAddr s p q.word) = .ok a)
include hrow

/-- R189: scales past the end of the store. -/
theorem vxLd_scaleFault (hs : Canon s) (hfit : ¬ LsScalesFit s p q.word) : Does (.vxLd p) s (fun t => VxFaults s t p q 0x0B02) := by
  rw [lsFmt] at hrow
  rw [lsScalesFit_iff, not_not] at hfit
  exact ⟨_, rfl, vxRun_meets hs h (a := lsScaleAt s p q.word) (vxLd_encoded hbad hrsv) rfl (by simp only [hrow]; exact if_pos hfit)⟩

variable (hfit : LsScalesFit s p q.word)
include hfit

/-- R190: an active element or scale that is poisoned. -/
theorem vxLd_poisoned (hs : Canon s) (hpoison : ldBad s p q.word a ≠ none) : Does (.vxLd p) s (fun t => VxFaults s t p q 0x0303) := by
  obtain ⟨x, hx⟩ := Option.ne_none_iff_exists'.1 hpoison
  rw [lsFmt] at hrow
  rw [ldBad, lsRow, ldScales, lsFmt] at hx
  rw [lsScalesFit_iff] at hfit
  exact ⟨_, rfl, vxRun_meets hs h (a := x) (vxLd_encoded hbad hrsv) rfl
    (by simp only [hrow]; exact (if_neg hfit).trans (by simp only [lsScaleAt] at hx; simp only [hx]))⟩

theorem exec_vxLd_issues (hgood : ldBad s p q.word a = none) :
    exec (.vxLd p) s = .next (vxIssued (ldDone s p q.word a) p q [ifld q.word 75 5]) := by
  rw [lsFmt] at hrow
  rw [ldBad, lsRow, ldScales, lsFmt] at hgood
  rw [lsScalesFit_iff] at hfit
  refine congrArg Host.Outcome.next (vxRun_issues h (vxLd_encoded hbad hrsv) rfl ?_)
  simp only [hrow]
  refine (if_neg hfit).trans ?_
  simp only [lsScaleAt] at hgood
  simp only [hgood]
  rfl

end

/-! vx.st. -/

section
variable (s : State) (p : Fin 72) (w : IWord) (a : Nat)

/-- R34: the scale byte and exponent of each block. -/
def vstScales : List (Nat × Int) := (List.range (128 / lsBs w)).map (fun b =>
  if ibit w 43 then blockScale (lsFmt w) (lsAct s p w) (lsBs w) b (fun l => f32 (getLane s p (ifld w 75 5) l)) else (0, 0))

/-- R161, R177: a lane converted, with its flags. -/
def vstConv (l : Nat) : Nat × CFlags :=
  if lsFmt w = .fp32 then ((getLane s p (ifld w 75 5) l).toNat, noFlags)
  else encodeNum (lsFmt w) (fvScale (((vstScales s p w)[l / lsBs w]?).getD (0, 0)).2 (f32 (getLane s p (ifld w 75 5) l)))
    (if ibit w 35 then some (rng16 (vxKey s p) 2 (vxCoord s p (ifld w 29 5)) l) else none) (ibit w 34)

/-- The row, with its inactive elements as they were. -/
def vstRow : List Byte := packElems (lsFmt w) ((List.range 128).map (fun l =>
  if (lsAct s p w).getLsbD l then (vstConv s p w l).1 else elemAt (lsFmt w) ((lsRow s p w a).map (·.b)) l))

def vstScaleBytes : List Byte := (vstScales s p w).map (fun c => BitVec.ofNat 8 c.1)

/-- R159: the row's bytes are written. -/
def vstData : State := writeRow s p a (vstRow s p w a) (activeByte (lsFmt w) (lsAct s p w))

/-- R159: with SC the scales are. -/
def vstStored : State :=
  if ibit w 43 then writeRow (vstData s p w a) p (lsScaleAt s p w) (vstScaleBytes s p w) (activeBlock (lsAct s p w) (lsBs w))
  else vstData s p w a

/-- R177, R193: what it counts. -/
def vstCounted : State :=
  if ibit w 35 ∧ lsFmt w ≠ .fp32 then addStat (vstStored s p w a) VX_RNG_CALLS p (rngCalls (vxCoord s p (ifld w 29 5)).col 128)
  else vstStored s p w a

/-- R40: the flags of its conversions. -/
def vstFlags : CFlags := (lanesOf (lsAct s p w)).foldl (fun t l => orFlags t (vstConv s p w l).2) noFlags

def vstFlagged : State := orVxFlags (vstCounted s p w a) p (vstFlags s p w)

/-- R161: every effect of vx.st. -/
def vstDone : State := bumpG (vstFlagged s p w a) p (ibit w 36) (ifld w 70 5) (elemBytes (lsFmt w) 128)

@[simp] theorem length_vstRow : (vstRow s p w a).length = elemBytes (lsFmt w) 128 := by
  rw [vstRow, length_packElems, List.length_map, List.length_range]

@[simp] theorem length_vstScaleBytes : (vstScaleBytes s p w).length = 128 / lsBs w := by
  rw [vstScaleBytes, vstScales, List.length_map, List.length_map, List.length_range]

/-- The counts and flags of a store are registers of its engine. -/
theorem vstFlagged_counts :
    Moves 0x8 (vstStored s p w a) (vstFlagged s p w a) ∧ RegsBut (vxCountKeys p) (vstStored s p w a) (vstFlagged s p w a) := by
  have hcount : Moves 0x8 (vstStored s p w a) (vstCounted s p w a) ∧ RegsBut (vxCountKeys p) (vstStored s p w a) (vstCounted s p w a) := by
    unfold vstCounted
    split
    · exact ⟨addStat_moves .., regsBut_rngCalls _ p _⟩
    · exact ⟨.refl _ _, regs_refl _ _⟩
  exact ⟨(orVxFlags_moves ..).trans hcount.1, regs_trans hcount.2 (regs_mono (regsBut_orVxFlags _ p _) (by simp [vxCountKeys]))⟩

theorem vxStored_vstFlagged : VxStored p s (vstFlagged s p w a) := by
  have hdata : VxStored p s (vstData s p w a) := vxStored_writeRow ..
  have hstored : VxStored p s (vstStored s p w a) := by
    unfold vstStored
    split
    · exact hdata.trans (vxStored_writeRow ..)
    · exact hdata
  obtain ⟨hm, hr⟩ := vstFlagged_counts s p w a
  exact hstored.trans (vxStored_of_counts hm hr)

theorem memByte_vstDone (q : QEntry) (x : Nat) : memByte (vxIssued (vstDone s p w a) p q []) x = memByte (vstStored s p w a) x :=
  (memByte_vxIssued ..).trans ((memByte_of_moves (bumpG_moves ..) (by decide) x).trans
    (memByte_of_moves (vstFlagged_counts s p w a).1 (by decide) x))

/-- A byte that is none of a scale. -/
theorem memByte_vstStored_apart {x : Nat} (h : ibit w 43 = true → x < tsAddr p (lsScaleAt s p w) ∨ tsAddr p (lsScaleAt s p w) + 128 / lsBs w ≤ x) :
    memByte (vstStored s p w a) x = memByte (vstData s p w a) x := by
  unfold vstStored
  split
  · next hsc => exact memByte_writeRow_out _ _ _ _ _ (by simpa using h hsc)
  · rfl

/-- R159: the bytes of active lanes. -/
theorem memByte_vstData {i : Nat} (hi : i < elemBytes (lsFmt w) 128) : memByte (vstData s p w a) (tsAddr p (a + i)) =
    if activeByte (lsFmt w) (lsAct s p w) i then ((vstRow s p w a)[i]?).getD 0 else memByte s (tsAddr p (a + i)) :=
  memByte_writeRow_at _ _ _ _ _ (by simpa using hi)

theorem memByte_vstData_out {x : Nat} (h : x < tsAddr p a ∨ tsAddr p a + elemBytes (lsFmt w) 128 ≤ x) :
    memByte (vstData s p w a) x = memByte s x :=
  memByte_writeRow_out _ _ _ _ _ (by simpa using h)

/-- R159: the scales of blocks that hold an active lane. -/
theorem memByte_vstStored_scale (hsc : ibit w 43 = true) {b : Nat} (hb : b < 128 / lsBs w) :
    memByte (vstStored s p w a) (tsAddr p (lsScaleAt s p w + b)) = if activeBlock (lsAct s p w) (lsBs w) b
      then BitVec.ofNat 8 (blockScale (lsFmt w) (lsAct s p w) (lsBs w) b (fun l => f32 (getLane s p (ifld w 75 5) l))).1
      else memByte (vstData s p w a) (tsAddr p (lsScaleAt s p w + b)) := by
  rw [vstStored, if_pos hsc, memByte_writeRow_at _ _ _ _ _ (by simpa using hb)]
  refine if_congr Iff.rfl ?_ rfl
  simp [vstScaleBytes, vstScales, hb, hsc]

/-- The scale of a lane's block. -/
theorem vstScales_getD {l : Nat} (hl : l < 128) : ((vstScales s p w)[l / lsBs w]?).getD (0, 0) = if ibit w 43 then
    blockScale (lsFmt w) (lsAct s p w) (lsBs w) (l / lsBs w) (fun l => f32 (getLane s p (ifld w 75 5) l)) else (0, 0) := by
  have hb : l / lsBs w < 128 / lsBs w := by
    unfold lsBs
    split <;> omega
  simp [vstScales, hb]

end

section
variable {s : State} {p : Fin 72} {q : QEntry} (hbad : lsBad q.word = false)
  (hsat : ibit q.word 34 = true → ifld q.word 44 4 = 3 ∨ ifld q.word 44 4 = 4) (heven : ibit q.word 35 = true → ifld q.word 29 5 % 2 = 0)
  (h : VxReady s p 0x61 [ifld q.word 75 5, 32 + ifld q.word 26 3] q)
include hbad hsat heven

theorem vxSt_encoded : (lsBad q.word || (ibit q.word 34 && ifld q.word 44 4 != 3 && ifld q.word 44 4 != 4)
    || (ibit q.word 35 && ifld q.word 29 5 % 2 == 1)) = false := by
  have hfmt : (ibit q.word 34 && ifld q.word 44 4 != 3 && ifld q.word 44 4 != 4) = false := by
    cases hs : ibit q.word 34
    · rfl
    · rcases hsat hs with hf | hf <;> simp [hf]
  have hcoord : (ibit q.word 35 && ifld q.word 29 5 % 2 == 1) = false := by
    cases hr : ibit q.word 35
    · rfl
    · simp [heven hr]
  rw [hbad, hfmt, hcoord]
  rfl

include h

theorem vxSt_rowFault (hs : Canon s) {c x : Nat} (hrow : rowAt (lsFmt q.word) (lsAddr s p q.word) = .error (c, x)) :
    Does (.vxSt p) s (fun t => VxFaults s t p q c) := by
  rw [lsFmt] at hrow
  exact ⟨_, rfl, vxRun_meets hs h (a := x) (vxSt_encoded hbad hsat heven) rfl (by simp only [hrow])⟩

variable {a : Nat} (hrow : rowAt (lsFmt q.word) (lsAddr s p q.word) = .ok a)
include hrow

theorem vxSt_scaleFault (hs : Canon s) (hfit : ¬ LsScalesFit s p q.word) : Does (.vxSt p) s (fun t => VxFaults s t p q 0x0B02) := by
  rw [lsFmt] at hrow
  rw [lsScalesFit_iff, not_not] at hfit
  exact ⟨_, rfl, vxRun_meets hs h (a := lsScaleAt s p q.word) (vxSt_encoded hbad hsat heven) rfl
    (by simp only [hrow]; exact if_pos hfit)⟩

theorem exec_vxSt_issues (hfit : LsScalesFit s p q.word) :
    exec (.vxSt p) s = .next (vxIssued (vstDone s p q.word a) p q []) := by
  rw [lsFmt] at hrow
  rw [lsScalesFit_iff] at hfit
  refine congrArg Host.Outcome.next (vxRun_issues h (vxSt_encoded hbad hsat heven) rfl ?_)
  simp only [hrow]
  exact (if_neg hfit).trans rfl

end

end Sys2Proof.Proofs

/-! PROOFS. The statement about loads and stores of vector registers (R159, R161, R177, R189 to R191). -/
namespace Sys2Proof.Proofs
open Sys2Proof Sys2Proof.Machine Sys2Proof.Laws

section
variable {s : State} (hs : Canon s) (p : Fin 72) (q : QEntry)
include hs

/-- R161: what a vx.ld leaves. -/
theorem vxLd_shows (a : Nat) : let w := q.word
    let t := vxIssued (ldDone s p w a) p q [ifld w 75 5]
    LanesSet s t p (ifld w 75 5) (lsAct s p w) (ldLane s p w a)
      ∧ (ibit w 36 = true → getG t (.tile p .vx) (ifld w 70 5) = getG s (.tile p .vx) (ifld w 70 5) + BitVec.ofNat 64 (elemBytes (lsFmt w) 128))
      ∧ PredsBut [] s t p ∧ VxIssues s t p q [ifld w 75 5] ∧ VxLeaves s t p (if ibit w 36 then [gKey (.tile p .vx) (ifld w 70 5)] else []) := by
  intro w t
  obtain ⟨hlane, hpred, hissues, hleaves⟩ := (vxOnly_ldDone s p w a).issued hs q [ifld w 75 5]
  obtain ⟨hown, hother⟩ := lanesSet_setLanes s p (ifld w 75 5) (lsAct s p w) (ldLane s p w a)
  have hshow : ∀ r l, getLane t p r l = getLane (setLanes s p (ifld w 75 5) (lsAct s p w) (ldLane s p w a)) p r l := fun r l =>
    (hlane r l).trans (getLane_of_moves (bumpG_moves ..) (by decide) p r l)
  refine ⟨⟨fun l hl => (hshow _ l).trans (hown l hl), fun r l hr hl => (hshow r l).trans (hother r l hr hl)⟩,
    fun hinc => (getG_vxIssued ..).trans (getG_bumpG _ p _ _ _ hinc), fun n _ => ?_, hissues, hleaves⟩
  exact (hpred n).trans ((getPred_of_moves (bumpG_moves ..) (by decide) p n).trans (getPred_setLanes ..))

/-- R161: what a vx.st leaves, but for memory. -/
theorem vxSt_shows (a : Nat) : let w := q.word
    let t := vxIssued (vstDone s p w a) p q []
    (ibit w 36 = true → getG t (.tile p .vx) (ifld w 70 5) = getG s (.tile p .vx) (ifld w 70 5) + BitVec.ofNat 64 (elemBytes (lsFmt w) 128))
      ∧ (∀ r l, getLane t p r l = getLane s p r l) ∧ PredsBut [] s t p ∧ VxIssues s t p q []
      ∧ Only [.regs, .engines, .tiles, .mem, .poison, .digest] s t := by
  intro w t
  have hstored := vxStored_vstFlagged s p w a
  have hbump : Moves 0x8 (vstFlagged s p w a) (vstDone s p w a) := bumpG_moves ..
  have hmoves : Moves 0x40000b8 s (vstDone s p w a) := hbump.next (by decide) hstored.moves
  have htile : ∀ r, getTile (vstDone s p w a) r = getTile (vstFlagged s p w a) r := getTile_of_moves hbump (by decide)
  have hvx : getVx (vstDone s p w a) p = getVx s p := (congrArg Tile.vx (htile p)).trans hstored.vx
  have hu : Canon (vstDone s p w a) := hmoves.canon hs
  refine ⟨fun hinc => (getG_vxIssued ..).trans ((getG_bumpG _ p _ _ _ hinc).trans (by rw [hstored.g])),
    fun r l => (getLane_vxIssued hu p q [] r l).trans (getLane_of_getVx (by rw [hvx]) r l),
    fun n _ => (getPred_vxIssued hu p q [] n).trans (getPred_of_getVx (by rw [hvx]) n),
    vxIssued_issues ⟨hu, by rw [hvx], fun r hr => (htile r).trans (hstored.tiles r hr), engsBut_of_moves hmoves (by decide) _⟩ q [],
    only_of _ ((vxIssued_moves ..).next (m := 0x40000f8) (by decide) (hmoves.le (by decide))) (by decide)⟩

/-- R161: what a vx.lda leaves. -/
theorem vxLda_shows : let w := q.word
    let e := Eng.tile p .vx
    let t := vxIssued (ldaDone s p w) p q [ifld w 75 5]
    LanesSet s t p (ifld w 75 5) (qAct s p w) (fun l => getAcc s p (16 * qAddr s p w + l))
      ∧ (∀ k, getAcc t p k = if ibit w 55 = true ∧ 16 * qAddr s p w ≤ k ∧ k < 16 * qAddr s p w + 128
        ∧ (qAct s p w).getLsbD (k - 16 * qAddr s p w) = true then 0 else getAcc s p k)
      ∧ (ibit w 54 = true → getG t e (ifld w 70 5) = getG s e (ifld w 70 5) + 8) ∧ PredsBut [] s t p ∧ VxIssues s t p q [ifld w 75 5]
      ∧ RegsBut (gKey e (ifld w 70 5) :: traceKeys e) s t ∧ Only [.regs, .engines, .tiles] s t := by
  intro w e t
  obtain ⟨hlane, hentry, hpreds, hissues, hregs⟩ := (entriesOnly_ldaDone s p w).issued hs (ldaDone_moves s p w) (by decide) q [ifld w 75 5]
  obtain ⟨hown, hother⟩ := lanesSet_setLanes s p (ifld w 75 5) (qAct s p w) (fun l => getAcc s p (16 * qAddr s p w + l))
  have hshow : ∀ r l, getLane t p r l = getLane (ldaRead s p w) p r l := fun r l => (hlane r l).trans (getLane_ldaDone s p w r l)
  have hclear : (ldaCleared s p w).regs = s.regs := ((ldaCleared_moves s p w).same .regs (by decide)).symm
  have hg : getG (ldaCleared s p w) e (ifld w 70 5) = getG s e (ifld w 70 5) := regsBut_of_regs [] hclear _ List.not_mem_nil
  exact ⟨⟨fun l hl => (hshow _ l).trans (hown l hl), fun r l hr hl => (hshow r l).trans (hother r l hr hl)⟩,
    fun k => (congrArg AccEntry.acc (hentry k)).trans (getAcc_ldaDone s p w k),
    fun hinc => (getG_vxIssued ..).trans ((getG_bumpG _ p _ _ _ hinc).trans (by rw [hg]; rfl)), hpreds, hissues, hregs,
    only_of _ ((vxIssued_moves ..).trans ((ldaDone_moves s p w).le (by decide))) (by decide)⟩

/-- R8, R161: what a vx.sta leaves. -/
theorem vxSta_shows : let w := q.word
    let e := Eng.tile p .vx
    let t := vxIssued (staDone s p w) p q []
    (∀ k, if 16 * qAddr s p w ≤ k ∧ k < 16 * qAddr s p w + 128 ∧ (qAct s p w).getLsbD (k - 16 * qAddr s p w) = true
        then entryRaced s p k = false → getAcc t p k = getLane s p (ifld w 75 5) (k - 16 * qAddr s p w) else getAcc t p k = getAcc s p k)
      ∧ (∀ l < 128, (qAct s p w).getLsbD l = true → accBad t p (16 * qAddr s p w + l) = false) ∧ (∀ r l, getLane t p r l = getLane s p r l)
      ∧ (ibit w 54 = true → getG t e (ifld w 70 5) = getG s e (ifld w 70 5) + 8) ∧ PredsBut [] s t p ∧ VxIssues s t p q []
      ∧ RegsBut (gKey e (ifld w 70 5) :: traceKeys e) s t ∧ Only [.freeCtr, .regs, .engines, .tiles] s t := by
  intro w e t
  obtain ⟨hlane, hentry, hpreds, hissues, hregs⟩ := (entriesOnly_staDone s p w).issued hs (staDone_moves s p w) (by decide) q []
  have hshow : ∀ k, accEntry t p k = _ := fun k => (hentry k).trans (accEntry_staDone s p w k)
  have hput : (staWritten s p w).regs = s.regs := ((putEntries_moves ..).same .regs (by decide)).symm
  have hg : getG (staWritten s p w) e (ifld w 70 5) = getG s e (ifld w 70 5) := regsBut_of_regs [] hput _ List.not_mem_nil
  refine ⟨fun k => ?entry, fun l hl hon => ?good, fun r l => (hlane r l).trans (getLane_staDone s p w r l),
    fun hinc => (getG_vxIssued ..).trans ((getG_bumpG _ p _ _ _ hinc).trans (by rw [hg]; rfl)), hpreds, hissues, hregs,
    only_of _ ((vxIssued_moves ..).next (m := 0xcc) (by decide) ((staDone_moves s p w).le (by decide))) (by decide)⟩
  case entry =>
    split
    · next hin =>
      intro halone
      refine (congrArg AccEntry.acc ((hshow k).trans (if_pos hin))).trans ?_
      exact staWord_of_alone s p w (by rwa [Nat.add_sub_cancel' hin.1]) _
    · next hout => exact congrArg AccEntry.acc ((hshow k).trans (if_neg hout))
  case good =>
    refine congrArg AccEntry.bad ((hshow _).trans (if_pos ⟨Nat.le_add_right .., Nat.add_lt_add_left hl _, ?_⟩))
    rwa [Nat.add_sub_cancel_left]

end

/-- Addresses of a tile store's bytes lie as their offsets do. -/
theorem tsAddr_apart {p a n x : Nat} (h : x < a ∨ a + n ≤ x) : tsAddr p x < tsAddr p a ∨ tsAddr p a + n ≤ tsAddr p x := by
  unfold tsAddr
  omega

/-- Settles O33: a load writes the lanes that it reads and a store the bytes of active lanes, then the scales of active blocks; the entries
of the accumulation buffer are taken lane by lane; each fault is met before any effect. -/
theorem vectorLoadsAndStores : Obligations.VectorLoadsAndStores := by
  unfold Obligations.VectorLoadsAndStores
  intro p s q w e f act bs sa ra scd hs
  have hnofit : scd → 0x400000 < sa + 128 / bs → ¬ LsScalesFit s p w := fun hsc hout hfit => Nat.not_le.2 hout (hfit hsc)
  refine ⟨fun hbad hrsv h => ⟨fun c x hrow => vxLd_rowFault hbad hrsv h hs hrow, fun a hrow => ⟨fun hsc hout =>
      vxLd_scaleFault hbad hrsv h hrow hs (hnofit hsc hout), fun hfit => ?ld⟩⟩,
    fun hbad hsat heven h => ⟨fun c x hrow => vxSt_rowFault hbad hsat heven h hs hrow, fun a hrow => ⟨fun hsc hout =>
      vxSt_scaleFault hbad hsat heven h hrow hs (hnofit hsc hout), fun hfit => ?st⟩⟩,
    fun hrsv => ⟨fun h => ⟨vxLda_range hrsv h hs, fun hin ⟨l, hl, hon, hpoison⟩ => vxLda_poisoned hrsv h hin hs hl hon hpoison,
        fun hin hgood => ?lda⟩,
      fun h hclr => ⟨vxSta_range hrsv h hclr hs, fun hin => ?sta⟩⟩⟩
  case ld =>
    intro row scs
    have hor : ldBad s p w a = none ↔ firstBadAt a row (activeByte f act) = none ∧ firstBadAt sa scs (activeBlock act bs) = none := by
      unfold ldBad
      exact Option.orElse_eq_none _ _
    refine ⟨fun hrow' hscs => ⟨_, exec_vxLd_issues hbad hrsv h hrow hfit (hor.2 ⟨hrow', hscs⟩), vxLd_shows hs p q a⟩, fun hpoison => ?_⟩
    exact vxLd_poisoned hbad hrsv h hrow hfit hs fun hnone => by
      obtain ⟨hrow', hscs⟩ := hor.1 hnone
      exact hpoison.elim (· hrow') (· hscs)
  case st =>
    intro v sc rnd code old new
    have hnew : vstRow s p w a = new := by
      refine congrArg (packElems f) (List.map_congr_left fun l hl => ?_)
      have hl : l < 128 := List.mem_range.1 hl
      simp only [vstConv, vstScales_getD s p w hl, apply_ite Prod.fst]
      rfl
    have hmem := memByte_vstDone s p w a q
    refine ⟨_, exec_vxSt_issues hbad hsat heven h hrow hfit, fun i hi hapart => ?data, fun hsc b hb hon => ?scale,
      fun hsc b hb hoff hapart => ?inactive, fun x hx => ?bytes, vxSt_shows hs p q a⟩
    case data =>
      rw [hmem, memByte_vstStored_apart s p w a fun hsc => tsAddr_apart (hapart hsc), memByte_vstData s p w a hi, hnew]
      rfl
    case scale =>
      refine (hmem _).trans ((memByte_vstStored_scale s p w a hsc hb).trans ((if_pos hon).trans ?_))
      simp only [sc, show ibit w 43 = true from hsc, if_true]
      rfl
    case inactive =>
      refine (hmem _).trans ((memByte_vstStored_scale s p w a hsc hb).trans ((if_neg (Bool.eq_false_iff.1 hoff)).trans ?_))
      exact memByte_vstData_out s p w a (tsAddr_apart hapart)
    case bytes =>
      refine (hmem x).trans ((memByte_vstStored_apart s p w a fun hsc => ?_).trans (memByte_vstData_out s p w a (hx _ (.head _))))
      exact hx (tsAddr p sa, 128 / bs) (by simp [show ibit w 43 = true from hsc])
  case lda => exact ⟨_, exec_vxLda_issues hrsv h hin hgood, vxLda_shows hs p q⟩
  case sta => exact ⟨_, exec_vxSta_issues hrsv h hclr hin, vxSta_shows hs p q⟩

end Sys2Proof.Proofs

/-! PROOFS. The issue of a ct. or sy. instruction (R200, R202, R218, R225, R245): its encoding fault, its W wait, and the statement about
both for each of them. -/
namespace Sys2Proof.Proofs
open Sys2Proof Sys2Proof.Machine Sys2Proof.Laws

/-! The state past a W wait. -/

/-- R200: the state in which the instruction at issue in an engine has its W wait, on a counter of tile p, behind it. -/
def ctlWaited (s : State) (e : Eng) (q : QEntry) (p : Nat) : State :=
  modEng (takeCtr s p (iWctr q.word) 1 e) e (fun g => { g with queue := { q with wDone := true } :: g.queue.drop 1 })

theorem getEng_ctlWaited (s : State) (e : Eng) (q : QEntry) (p : Nat) : getEng (ctlWaited s e q p) e =
    { getEng s e with queue := { q with wDone := true } :: (getEng s e).queue.drop 1 } := by
  rw [ctlWaited, modEng, getEng_setEng_same, getEng_of_moves (takeCtr_moves ..) (by decide)]

theorem getVx_ctlWaited (s : State) (e : Eng) (q : QEntry) (p r : Nat) : getVx (ctlWaited s e q p) r = getVx s r := getVx_takeCtr ..

/-- Whether a vx.opt is in flight is read from the vector engines alone. -/
theorem optBusy_of_getVx {s t : State} (h : ∀ r, getVx t r = getVx s r) : ∀ e, optBusy t e = optBusy s e
  | .tile p .vx => congrArg (fun x : VxState => x.fly.any (·.opt)) (h p)
  | .tile _ .mx | .tile _ .dm | .tile _ .sy | .ce _ => rfl

/-- Whether a general register has a write pending is read from the vector engines alone. -/
theorem gPending_of_getVx {s t : State} (h : ∀ r, getVx t r = getVx s r) (w : IWord) : ∀ e, gPending t e w = gPending s e w
  | .tile p .vx => congrArg (fun x : VxState => x.fly.any (fun f => (ctlRegs w).any (fun r => f.writes.contains (40 + r)))) (h p)
  | .tile _ .mx | .tile _ .dm | .tile _ .sy | .ce _ => rfl

section
variable {s : State} {e : Eng} {cls op : Nat} {q : QEntry} {p : Nat}

/-- The instruction still stands at issue. -/
theorem frontIs_ctlWaited (hf : frontIs s e cls op = some q) : frontIs (ctlWaited s e q p) e cls op = some { q with wDone := true } := by
  obtain ⟨-, hissue, hcls, hop⟩ := frontIs_eq_some.1 hf
  have hiso : isolated (ctlWaited s e q p) (engDom e) = isolated s (engDom e) :=
    isolated_of_moves (takeCtr_moves s p (iWctr q.word) 1 e) (by decide) _
  refine frontIs_eq_some.2 ⟨⟨_, congrArg Engine.queue (getEng_ctlWaited s e q p)⟩, ?_, hcls, hop⟩
  rw [← hissue]
  simp only [canIssue, getEng_ctlWaited, hiso, optBusy_of_getVx (getVx_ctlWaited s e q p)]

/-- R200, R245: its W wait is satisfied. -/
theorem takeW_ctlWaited (hf : frontIs s e cls op = some q) (hw : iW q.word = true) (hd : q.wDone = false) (hp : homeOf s e = some p)
    (hc : 1 ≤ getCtr s p (iWctr q.word)) : takeW s e q = (ctlWaited s e q p, true) := by
  obtain ⟨⟨r, hq⟩, -⟩ := frontIs_eq_some.1 hf
  rw [takeW_taken hw hd hp hc, ctlWaited, modEng, modEng, getEng_of_moves (takeCtr_moves ..) (by decide), hq]
  rfl

/-! What `runCtl` does at each stage of issue. -/

variable {rsv : List (Nat × Nat)} {body : State → QEntry → State}

/-- R202: a word that breaks its encoding. -/
theorem runCtl_malformed (hf : frontIs s e cls op = some q) (hbad : (iV q.word || flagBad q.word || rsvBad q.word rsv) = true) :
    runCtl s e cls op rsv body = faultQ s e q 0x0D01 0 0 0 := by
  simp only [runCtl, hf, hbad, if_true]

variable (hf : frontIs s e cls op = some q) (hgood : (iV q.word || flagBad q.word || rsvBad q.word rsv) = false)
  (hpend : gPending s e q.word = false)
include hf hgood hpend

/-- R200: its W wait begins. -/
theorem runCtl_waits {u : State} (hw : takeW s e q = (u, false)) : runCtl s e cls op rsv body = u := by
  simp only [runCtl, hf, hgood, hpend, hw, Bool.false_eq_true, if_false]

/-- R200: its W wait, if it has one, is behind it. -/
theorem runCtl_acts {u : State} (hw : takeW s e q = (u, true)) : runCtl s e cls op rsv body = body u q := by
  simp only [runCtl, hf, hgood, hpend, hw, Bool.false_eq_true, if_false]

/-- R200: an instruction whose W wait is satisfied acts as the same instruction with its wait behind it. -/
theorem runCtl_ctlWaited (hbody : ∀ u, body u { q with wDone := true } = body u q) (hw : iW q.word = true) (hd : q.wDone = false)
    (hp : homeOf s e = some p) (hc : 1 ≤ getCtr s p (iWctr q.word)) :
    runCtl s e cls op rsv body = runCtl (ctlWaited s e q p) e cls op rsv body := by
  have hpw : gPending (ctlWaited s e q p) e q.word = false := (gPending_of_getVx (getVx_ctlWaited s e q p) q.word e).trans hpend
  rw [runCtl_acts hf hgood hpend (takeW_ctlWaited hf hw hd hp hc),
    runCtl_acts (frontIs_ctlWaited hf) hgood hpw (takeW_passed _ _ (.inr rfl)), hbody]

end

/-! The rows of control and sync instructions. -/

/-- What the seventeen rows have in common: each runs at issue with its reserved fields, ct.halt and ct.launch once the instructions before
them have completed, and acts on the word and the index of its entry alone. -/
structure CtlRow (e : Eng) (c : Instr) (cls op : Nat) (rsv : List (Nat × Nat)) : Prop where
  runs : ∃ body : State → QEntry → State,
    (∀ s, (c = .ctHalt e ∨ c = .ctLaunch e → idleBehind s e = true) → exec c s = .next (runCtl s e cls op rsv body))
      ∧ ∀ s q, body s { q with wDone := true } = body s q

theorem ctlRow_of_mem {e : Eng} {c : Instr} {cls op : Nat} {rsv : List (Nat × Nat)} (h : (c, cls, op, rsv) ∈
      [(Instr.ctNop e, 0, 0x01, [(0, 80)]), (.ctLi e, 0, 0x08, [(0, 11)]), (.ctAddi e, 0, 0x09, [(0, 22)]),
        (.ctLd e, 0, 0x0A, [(0, 48)]), (.ctGsc e, 0, 0x0B, [(0, 75)]), (.ctJmp e, 0, 0x0C, [(0, 68)]), (.ctBnz e, 0, 0x0D, [(0, 63)]),
        (.ctTrap e, 0, 0x03, [(0, 64)]), (.ctMark e, 0, 0x04, [(0, 75)]), (.syWait e, 4, 0x80, [(0, 48)]), (.syAdd e, 4, 0x81, [(0, 48)]),
        (.sySub e, 4, 0x82, [(0, 48)]), (.sySig e, 4, 0x83, [(0, 43)]), (.syGet e, 4, 0x84, [(0, 67)]), (.syBar e, 4, 0x85, [(0, 74)]),
        (.ctHalt e, 0, 0x02, [(0, 80)]), (.ctLaunch e, 0, 0x05, [(0, 75)])]) : CtlRow e c cls op rsv := by
  simp only [List.mem_cons, List.not_mem_nil, or_false, Prod.mk.injEq] at h
  rcases h with ⟨rfl, rfl, rfl, rfl⟩ | ⟨rfl, rfl, rfl, rfl⟩ | ⟨rfl, rfl, rfl, rfl⟩ | ⟨rfl, rfl, rfl, rfl⟩ | ⟨rfl, rfl, rfl, rfl⟩ |
    ⟨rfl, rfl, rfl, rfl⟩ | ⟨rfl, rfl, rfl, rfl⟩ | ⟨rfl, rfl, rfl, rfl⟩ | ⟨rfl, rfl, rfl, rfl⟩ | ⟨rfl, rfl, rfl, rfl⟩ |
    ⟨rfl, rfl, rfl, rfl⟩ | ⟨rfl, rfl, rfl, rfl⟩ | ⟨rfl, rfl, rfl, rfl⟩ | ⟨rfl, rfl, rfl, rfl⟩ | ⟨rfl, rfl, rfl, rfl⟩ |
    ⟨rfl, rfl, rfl, rfl⟩ | ⟨rfl, rfl, rfl, rfl⟩
  rotate_left 15
  · exact ⟨_, fun s h => congrArg Host.Outcome.next (if_neg (by simp [h (.inl rfl)])), fun _ _ => rfl⟩
  · exact ⟨_, fun s h => congrArg Host.Outcome.next (if_neg (by simp [h (.inr rfl)])), fun _ _ => rfl⟩
  all_goals exact ⟨_, fun _ _ => rfl, fun _ _ => rfl⟩

/-- Settles O12: each row runs at issue, and the stages of issue are those of `runCtl`. -/
theorem encodingAndWaitComeFirst : Obligations.EncodingAndWaitComeFirst := by
  unfold Obligations.EncodingAndWaitComeFirst
  intro e s q _ hq hissue c cls op rsv hmem hcls hop
  obtain ⟨body, hruns, hbody⟩ := (ctlRow_of_mem hmem).runs
  have hf : frontIs s e cls op = some q := frontIs_eq_some.2 ⟨List.head?_eq_some_iff.1 hq, hissue, hcls, hop⟩
  refine ⟨fun hbad hidle => ⟨_, (hruns s hidle).trans (congrArg Host.Outcome.next (runCtl_malformed hf hbad)),
    faultEngine_faultsWith (faultable_of_canIssue hissue) ..⟩, fun p hp hgood hpend hw hd hhalt hlaunch => ?_⟩
  have hrow : ∀ u, exec c u = .next (runCtl u e cls op rsv body) := fun u => hruns u fun h => absurd h (not_or.2 ⟨hhalt, hlaunch⟩)
  refine ⟨fun hc => ?taken, fun hc => ?waits⟩
  case taken =>
    have hsame := runCtl_ctlWaited hf hgood hpend (hbody · q) hw hd hp hc
    exact (hrow s).trans ((congrArg Host.Outcome.next hsame).trans (hrow (ctlWaited s e q p)).symm)
  case waits =>
    obtain ⟨heng, hregs, hothers, honly⟩ := beginWait_shows s e q .wflag (iWctr q.word) 1
    exact ⟨_, (hrow s).trans (congrArg Host.Outcome.next (runCtl_waits hf hgood hpend (takeW_waits hw hd hp hc))),
      congrArg Engine.st heng, (congrArg Engine.queue heng :), ⟨_, congrArg Engine.wait heng, rfl, rfl, rfl⟩, hregs, hothers, honly⟩

end Sys2Proof.Proofs

/-! PROOFS. Control and sync instructions that retire or fault (R201, R213, R218 to R220): what a ct. or sy. instruction shows that leaves
its queue after registers, counters or increments have been written. -/
namespace Sys2Proof.Proofs
open Sys2Proof Sys2Proof.Machine Sys2Proof.Laws

/-! Instructions that are ready. -/

section
variable {s : State} {e : Eng} {cls op : Nat} {rsv : List (Nat × Nat)} {q : QEntry}

theorem faultable_of_readyCtl (h : ReadyCtl s e cls op rsv q) : Faultable s e :=
  faultable_of_canIssue (frontIs_eq_some.1 h.1.front).2.1

/-- R213, R228: an instruction that is ready and faults. -/
theorem faultQ_faultsWith (h : ReadyCtl s e cls op rsv q) (code addr space detail : Nat) :
    FaultsWith s (faultQ s e q code addr space detail) e code (iTag q.word) q.idx :=
  faultEngine_faultsWith (faultable_of_readyCtl h) ..

/-- A row that runs at issue does what its body does once its instruction is ready. -/
theorem does_of_ready {c : Instr} {body : State → QEntry → State} {P : State → Prop} (h : ReadyCtl s e cls op rsv q)
    (hrow : exec c s = .next (runCtl s e cls op rsv body)) (hP : P (body s q)) : Does c s P :=
  ⟨_, hrow.trans (congrArg Host.Outcome.next (runCtl_ready h body)), hP⟩

end

/-! Registers. -/

theorem engBlk_ge (e : Eng) : 3 ≤ engBlk e := by
  rcases e with ⟨p, _ | _ | _ | _⟩ | c <;> simp [engBlk]

/-- A general register is none that a trace record writes. -/
theorem gKey_not_trace (e e' : Eng) (n : Nat) : gKey e n ∉ traceKeys e' := regKey_not_trace (engBlk_ge e) _ _ e'

/-- R218: a general register written just before the completion. -/
theorem setG_retires {s : State} (hs : Canon s) (e : Eng) (q : QEntry) (hv : iV q.word = false) {n : Nat} (hn : n < 32) (v : DWord) :
    getG (finishFront (setG s e n v) e q) e n = v ∧ Retires s (finishFront (setG s e n v) e q) e q [gKey e n] := by
  have hregs := (finishFront_retires (canon_regSet hs (gKey e n) v) e q hv).regs
  exact ⟨(hregs (gKey e n) (gKey_not_trace e e n)).trans (getG_setG_same s e n v),
    retires_regSet hs e q hv (gKey e n) v fun c => home_not_g c e n hn⟩

/-! The engine after the completion. -/

/-- R218: what a ct. instruction does to its engine after it has left the queue. -/
theorem retired_modEng {s u : State} {e : Eng} {q : QEntry} {ks : List Nat} (r : Retires s u e q ks) (f : Engine → Engine) :
    let t := modEng u e f
    getEng t e = f (getEng u e) ∧ Signalled s t e q ∧ RegsBut (ks ++ traceKeys e) s t ∧ EngsBut [e] s t
      ∧ Only [.regs, .engines, .tiles] s t := by
  intro t
  exact ⟨getEng_setEng_same u e _, r.signal, r.regs, fun e' he => (getEng_setEng_other u _ (by simpa using he)).trans (r.others e' he),
    only_trans r.frame (only_of _ (modEng_moves u e f) (by decide))⟩

/-- The engine's queue and program state stay as the completion left them. -/
theorem retires_modEng {s u : State} {e : Eng} {q : QEntry} {ks : List Nat} (r : Retires s u e q ks) {f : Engine → Engine}
    (hqueue : ∀ g, (f g).queue = g.queue) (hst : ∀ g, (f g).st = g.st) : Retires s (modEng u e f) e q ks := by
  obtain ⟨heng, hsig, hregs, hothers, honly⟩ := retired_modEng r f
  exact ⟨by rw [heng, hqueue, r.queue], by rw [heng, hst, r.going], hsig, hregs, hothers, r.tiles, honly⟩

/-! The statement about control instructions on general registers. -/

/-- R218: the sum of ct.addi is taken modulo 2^64. -/
theorem addi_wraps (v : DWord) (x : Int) : BitVec.ofInt 64 (v.toNat + x) = v + BitVec.ofInt 64 x := by
  rw [BitVec.ofInt_add, BitVec.ofInt_natCast, BitVec.ofNat_toNat, BitVec.setWidth_eq]

section
variable {s : State} {e : Eng} {q : QEntry}

/-- R218, R219: the address of a ct.ld in its home tile's store. -/
def ctLdAddr (s : State) (e : Eng) (w : IWord) : Nat := ((getG s e (ifld w 70 5)).toNat + ifld w 48 22) % 2 ^ 22

/-- R218, R219: a ct.ld checks its address, then the word there, and reads it. -/
theorem doCtLd_eq (h : ReadyCtl s e 0 0x0A [(0, 48)] q) {p : Nat} (hp : homeOf s e = some p) : doCtLd s e =
    if ctLdAddr s e q.word % 8 ≠ 0 then faultQ s e q 0x0D01 0 0 0
    else if isBad s (tsAddr p (ctLdAddr s e q.word)) then faultQ s e q 0x0303 (ctLdAddr s e q.word) 0 0
    else finishFront (setG s e (ifld q.word 75 5) (BitVec.ofNat 64 (readNat s (tsAddr p (ctLdAddr s e q.word)) 8))) e q := by
  have haddr : (bits (getG s e (ifld q.word 70 5)).toNat 0 22 + ifld q.word 48 22) % 2 ^ 22 = ctLdAddr s e q.word := by
    rw [bits, pow_zero, Nat.div_one, Nat.mod_add_mod, ctLdAddr]
  rw [doCtLd, runCtl_ready h]
  simp only [hp, haddr]

theorem doCtLd_homeless (h : ReadyCtl s e 0 0x0A [(0, 48)] q) (hp : homeOf s e = none) : doCtLd s e = faultQ s e q 0x0101 0 0 0 := by
  rw [doCtLd, runCtl_ready h]
  simp only [hp]

end

/-- Settles O10: each row that is ready runs its body, which writes one general register and completes, or faults. -/
theorem controlOnRegisters : Obligations.ControlOnRegisters := by
  unfold Obligations.ControlOnRegisters
  intro e s q hs w rd ra
  have hrd : rd < 32 := bits_lt ..
  refine ⟨fun h => does_of_ready h rfl (finishFront_retires hs e q h.2.1), fun h => does_of_ready h rfl (setG_retires hs e q h.2.1 hrd _),
    fun h => ?addi, fun h => does_of_ready h rfl (setG_retires hs e q h.2.1 hrd _),
    fun h => ⟨fun p hp ha => ⟨fun hgood => ?load, fun hbad => ?poisoned⟩, fun p hp ha => ?unaligned, fun hp => ?homeless⟩⟩
  case addi =>
    refine does_of_ready h rfl ?_
    rw [← addi_wraps]
    exact setG_retires hs e q h.2.1 hrd _
  case load =>
    exact ⟨_, congrArg Host.Outcome.next ((doCtLd_eq h hp).trans ((if_neg (not_not.2 ha)).trans (if_neg (Bool.eq_false_iff.1 hgood)))),
      setG_retires hs e q h.2.1 hrd _⟩
  case poisoned =>
    exact ⟨_, congrArg Host.Outcome.next ((doCtLd_eq h hp).trans ((if_neg (not_not.2 ha)).trans (if_pos hbad))), faultQ_faultsWith h ..⟩
  case unaligned => exact ⟨_, congrArg Host.Outcome.next ((doCtLd_eq h hp).trans (if_pos ha)), faultQ_faultsWith h ..⟩
  case homeless => exact ⟨_, congrArg Host.Outcome.next (doCtLd_homeless h hp), faultQ_faultsWith h ..⟩

end Sys2Proof.Proofs

/-! PROOFS. The statement about control flow (R213, R218 to R220). -/
namespace Sys2Proof.Proofs
open Sys2Proof Sys2Proof.Machine Sys2Proof.Laws

section
variable {s : State} {e : Eng} {q : QEntry}

/-- R218, R219: where the fetch goes on after a ct.bnz. -/
def bnzFetch (s : State) (e : Eng) (q : QEntry) (g : Engine) : Engine :=
  { g with fetchPc := if getG s e (ifld q.word 75 5) - 1 ≠ 0 then ifld q.word 63 12 else q.idx + 1, fetchStop := false }

/-- R218, R219: the state in which a ct.bnz has decremented its register and the fetch goes on. -/
def bnzPassed (s : State) (e : Eng) (q : QEntry) : State :=
  modEng (finishFront (setG s e (ifld q.word 75 5) (getG s e (ifld q.word 75 5) - 1)) e q) e (bnzFetch s e q)

theorem bnzPassed_shows (hs : Canon s) (hv : iV q.word = false) :
    let v := getG s e (ifld q.word 75 5) - 1
    let t := bnzPassed s e q
    getG t e (ifld q.word 75 5) = v ∧ (getEng t e).fetchPc = (if v = 0 then q.idx + 1 else ifld q.word 63 12)
      ∧ (getEng t e).fetchStop = false ∧ Retires s t e q [gKey e (ifld q.word 75 5)] := by
  intro v t
  obtain ⟨hval, hret⟩ := setG_retires hs e q hv (show ifld q.word 75 5 < 32 from bits_lt ..) v
  have heng : getEng t e = bnzFetch s e q _ := (retired_modEng hret (bnzFetch s e q)).1
  exact ⟨hval, (congrArg Engine.fetchPc heng).trans (ite_not ..), congrArg Engine.fetchStop heng,
    retires_modEng hret (f := bnzFetch s e q) (fun _ => rfl) fun _ => rfl⟩

/-- R218, R219: a ct.bnz faults where it is taken past the last instruction, and passes otherwise. -/
theorem doCtBnz_eq (h : ReadyCtl s e 0 0x0D [(0, 63)] q) : doCtBnz s e =
    if getG s e (ifld q.word 75 5) - 1 ≠ 0 ∧ imemSize e ≤ ifld q.word 63 12 then faultQ s e q 0x0D03 0 0 0 else bnzPassed s e q := by
  rw [doCtBnz, runCtl_ready h]
  rfl

/-- R218, R220: a ct.halt that nothing before it holds leaves its engine HALTED at the next instruction. -/
theorem doCtHalt_eq (h : ReadyCtl s e 0 0x02 [(0, 80)] q) (hidle : idleBehind s e = true) : doCtHalt s e =
    modEng (finishFront s e q) e
      (fun g => { g with st := .halted, queue := [], fetchPc := q.idx + 1, fetchStop := false, fwait := none, marks := [] }) := by
  rw [doCtHalt, runCtl_ready h]
  exact if_neg (by simp [hidle])

/-- R218, R220: a ct.launch that nothing before it holds leaves its engine ARMED at the next instruction. -/
theorem doCtLaunch_eq (h : ReadyCtl s e 0 0x05 [(0, 75)] q) (hidle : idleBehind s e = true) : doCtLaunch s e =
    arm (modEng (regSet (finishFront s e q) (launchKey e) (getG s e (ifld q.word 75 5))) e
      (fun g => { g with queue := [], fetchPc := q.idx + 1, fetchStop := false, fwait := none, marks := [] })) e
      (getG s e (ifld q.word 75 5)) := by
  rw [doCtLaunch, runCtl_ready h]
  exact if_neg (by simp [hidle])

/-- R218, R220: both wait for the instructions before them. -/
theorem doCtHalt_waits (h : idleBehind s e = false) : doCtHalt s e = s := if_pos (by simp [h])

theorem doCtLaunch_waits (h : idleBehind s e = false) : doCtLaunch s e = s := if_pos (by simp [h])

end

/-- Settles O11: ct.jmp completes, ct.bnz completes and moves the fetch, ct.halt and ct.launch complete and move their engine's state. -/
theorem controlFlow : Obligations.ControlFlow := by
  unfold Obligations.ControlFlow
  intro e s q hs w
  refine ⟨fun h hin => does_of_ready h rfl ?jmp, fun h hout => does_of_ready h rfl ?jmpOut,
    fun h => ⟨fun hin => ?bnz, fun hv hout => ?bnzOut⟩, fun h hidle => ?halt, fun h hidle => ?launch,
    fun hidle => ⟨congrArg Host.Outcome.next (doCtHalt_waits hidle), congrArg Host.Outcome.next (doCtLaunch_waits hidle)⟩,
    fun h => does_of_ready h rfl (faultQ_faultsWith h ..)⟩
  case jmp =>
    rw [if_neg (Nat.not_le.2 hin)]
    exact finishFront_retires hs e q h.2.1
  case jmpOut =>
    rw [if_pos hout]
    exact faultQ_faultsWith h ..
  case bnz =>
    have hpass : ¬ (getG s e (ifld w 75 5) - 1 ≠ 0 ∧ imemSize e ≤ ifld w 63 12) := fun ⟨hv, hout⟩ => hin.elim hv (Nat.not_lt.2 hout)
    exact ⟨_, congrArg Host.Outcome.next ((doCtBnz_eq h).trans (if_neg hpass)), bnzPassed_shows hs h.2.1⟩
  case bnzOut => exact ⟨_, congrArg Host.Outcome.next ((doCtBnz_eq h).trans (if_pos ⟨hv, hout⟩)), faultQ_faultsWith h ..⟩
  case halt =>
    obtain ⟨heng, hrest⟩ := retired_modEng (finishFront_retires hs e q h.2.1) fun g =>
      { g with st := .halted, queue := [], fetchPc := q.idx + 1, fetchStop := false, fwait := none, marks := [] }
    exact ⟨_, congrArg Host.Outcome.next (doCtHalt_eq h hidle), congrArg Engine.st heng, congrArg Engine.fetchPc heng,
      congrArg Engine.queue heng, hrest⟩
  case launch =>
    have hret := finishFront_retires hs e q h.2.1
    have hgsc : s.gsc = (finishFront s e q).gsc := hret.frame .gsc (by decide)
    refine ⟨_, congrArg Host.Outcome.next (doCtLaunch_eq h hidle), ?_⟩
    obtain ⟨u, hu⟩ : ∃ u, finishFront s e q = u := ⟨_, rfl⟩
    rw [hu] at hret hgsc ⊢
    intro n
    have heng : getEng (arm (modEng (regSet u (launchKey e) n) e
        (fun g => { g with queue := [], fetchPc := q.idx + 1, fetchStop := false, fwait := none, marks := [] })) e n) e = _ :=
      getEng_setEng_same ..
    rw [modEng, getEng_setEng_same] at heng
    refine ⟨congrArg Engine.st heng, congrArg Engine.launch heng, (congrArg Engine.late heng).trans ?late, congrArg Engine.fetchPc heng,
      regGet_regSet_same u _ n, hret.signal, ?regs, fun e' he => ?others, ?only⟩
    case late => rw [hgsc]; rfl
    case regs => exact regs_trans (regs_mono hret.regs (by simp +contextual)) (regs_mono (regsBut_regSet u (launchKey e) n) (by simp))
    case others =>
      have hne : e' ≠ e := by simpa using he
      exact (getEng_setEng_other _ _ hne).trans ((getEng_setEng_other _ _ hne).trans (hret.others e' he))
    case only =>
      refine only_trans hret.frame (only_of _ (m := 0x48) ?_ (by decide))
      exact (arm_moves ..).next (by decide) ((modEng_moves ..).next (by decide) ((regSet_moves u (launchKey e) n).le (by decide)))

end Sys2Proof.Proofs

/-! PROOFS. The statement about counter instructions (R225, R241, R244, R245, R247, R387). -/
namespace Sys2Proof.Proofs
open Sys2Proof Sys2Proof.Machine Sys2Proof.Laws

/-! Counters. -/

theorem home_not_ctr (c : Fin 4) (p : Nat) {n : Nat} (hn : n < 256) : fldKey 8 CE_CFG_HOME c 0 ≠ ctrKey p n := by
  have := c.isLt
  simp only [ctrKey, fldKey, regKey, CE_CFG_HOME, SY_CTR]
  omega

/-- A counter is none of the registers that a trace record writes. -/
theorem ctrKey_not_trace (p n : Nat) (e : Eng) : ctrKey p n ∉ traceKeys e := regKey_not_trace (by decide) _ _ e

/-- A counter that has been lowered holds the difference. -/
theorem getCtr_setCtr_sub (s : State) (p c v : Nat) : getCtr (setCtr s p c (getCtr s p c - v)) p c = getCtr s p c - v := by
  have hlt : getCtr s p c < 2 ^ 24 := bits_lt ..
  rw [getCtr, setCtr, getFi_setFi_same _ _ _ _ _ (by decide)]
  exact Nat.mod_eq_of_lt (Nat.lt_of_le_of_lt (Nat.sub_le ..) hlt)

/-- A counter is read from its own register. -/
theorem getCtr_of_regsBut {ks : List Nat} {s t : State} (h : RegsBut ks s t) {p c : Nat} (hk : ctrKey p c ∉ ks) : getCtr t p c = getCtr s p c :=
  congrArg (fun v : DWord => bits v.toNat SY_CTR.lo SY_CTR.len) (h _ hk)

/-! Tiles. -/

/-- What a state signals it signals after one with the same homes, isolation and increments. -/
theorem signalled_of_pend {s u t : State} {e : Eng} {q : QEntry} (h : Signalled u t e q) (hhome : homeOf u e = homeOf s e)
    (hiso : ∀ p, isolated u p = isolated s p) (hpend : ∀ p, (getTile u p).pend = (getTile s p).pend) : Signalled s t e q := by
  obtain ⟨hadds, hstays⟩ := h
  exact ⟨fun c p hc hp hi => hpend p ▸ hadds c p hc (hhome.trans hp) ((hiso p).trans hi), fun p hp => hpend p ▸ hstays p (hhome ▸ hp)⟩

theorem tileCore_trans {s u t : State} (h : TileCore s u) (k : TileCore u t) : TileCore s t := fun p =>
  calc { getTile t p with pend := (getTile s p).pend, trace := (getTile s p).trace }
      = { { getTile t p with pend := (getTile u p).pend, trace := (getTile u p).trace } with
          pend := (getTile s p).pend, trace := (getTile s p).trace } := rfl
    _ = { getTile u p with pend := (getTile s p).pend, trace := (getTile s p).trace } := by rw [k p]
    _ = getTile s p := h p

theorem tileCore_addIncr (s : State) (p : Nat) (i : Incr) : TileCore s (addIncr s p i) := fun r => by rw [getTile_addIncr]

/-! The instructions. -/

section
variable {s : State} {e : Eng} {q : QEntry} {p : Nat}

theorem doSyWait_zero (h : ReadyCtl s e 4 0x80 [(0, 48)] q) (hv : ifld q.word 48 24 = 0) : doSyWait s e = finishFront s e q := by
  rw [doSyWait, runCtl_ready h]
  exact if_pos hv

/-- R245: an sy.wait takes what its counter holds enough of, and waits otherwise. -/
theorem doSyWait_eq (h : ReadyCtl s e 4 0x80 [(0, 48)] q) (hv : ifld q.word 48 24 ≠ 0) (hp : homeOf s e = some p) : doSyWait s e =
    if ifld q.word 48 24 ≤ getCtr s p (ifld q.word 72 8) then
      finishFront (takeCtr s p (ifld q.word 72 8) (ifld q.word 48 24) e) e q
    else beginWait s e q .sywait (ifld q.word 72 8) (ifld q.word 48 24) := by
  rw [doSyWait, runCtl_ready h]
  simp only [hv, hp, if_false]

/-- R244: an sy.sub takes what its counter holds enough of. -/
theorem doSySub_eq (h : ReadyCtl s e 4 0x82 [(0, 48)] q) (hp : homeOf s e = some p)
    (hc : ifld q.word 48 24 ≤ getCtr s p (ifld q.word 72 8)) : doSySub s e =
    finishFront (setCtr s p (ifld q.word 72 8) (getCtr s p (ifld q.word 72 8) - ifld q.word 48 24)) e q := by
  rw [doSySub, runCtl_ready h]
  simp only [hp, if_neg (Nat.not_lt.2 hc)]

/-- R241: the increment of an sy.add. -/
def syIncr (e : Eng) (q : QEntry) : Incr := ⟨ifld q.word 72 8, ifld q.word 48 24, .instr e (iTag q.word) q.idx⟩

theorem doSyAdd_eq (h : ReadyCtl s e 4 0x81 [(0, 48)] q) (hp : homeOf s e = some p) : doSyAdd s e =
    finishFront (addIncr s p (syIncr e q)) e q := by
  rw [doSyAdd, runCtl_ready h]
  simp only [hp, syIncr]

theorem doSyGet_eq (h : ReadyCtl s e 4 0x84 [(0, 67)] q) (hp : homeOf s e = some p) : doSyGet s e =
    finishFront (setG s e (ifld q.word 75 5) (BitVec.ofNat 64 (getCtr s p (ifld q.word 67 8)))) e q := by
  rw [doSyGet, runCtl_ready h]
  simp only [hp]

/-- R245: a counter that a wait takes just before the completion. -/
theorem takeCtr_retires (hs : Canon s) (e : Eng) (q : QEntry) (hv : iV q.word = false) {c : Nat} (hc : c < 256) (v : Nat) :
    let t := finishFront (takeCtr s p c v e) e q
    getCtr t p c = getCtr s p c - v ∧ (getEng t e).queue = (getEng s e).queue.drop 1 ∧ (getEng t e).st = (getEng s e).st
      ∧ Signalled s t e q ∧ RegsBut (ctrKey p c :: traceKeys e) s t ∧ EngsBut [e] s t ∧ Only [.regs, .engines, .tiles] s t := by
  have taken := takeCtr_moves s p c v e
  have hregs : RegsBut [ctrKey p c] s (takeCtr s p c v e) := regsBut_takeCtr s p c v e
  have heng : ∀ e', getEng (takeCtr s p c v e) e' = getEng s e' := getEng_of_moves taken (by decide)
  have hhome : homeOf (takeCtr s p c v e) e = homeOf s e :=
    homeOf_same e (fun d => hregs _ (by simpa using home_not_ctr d p hc)) (taken.same .tmap (by decide)).symm
  have hpend : ∀ r, (getTile (takeCtr s p c v e) r).pend = (getTile s r).pend := fun r => by
    obtain ⟨x, hx⟩ := getTile_takeCtr s p c v e r
    rw [hx]
  have hctr : getCtr (takeCtr s p c v e) p c = getCtr s p c - v := by
    rw [← getCtr_setCtr_sub s p c v]
    cases e <;> rfl
  have r := finishFront_retires (taken.canon hs) e q hv
  refine ⟨(getCtr_of_regsBut r.regs (ctrKey_not_trace p c e)).trans hctr, by rw [r.queue, heng], by rw [r.going, heng],
    signalled_of_pend r.signal hhome (isolated_of_moves taken (by decide)) hpend, ?regs, fun e' he => by rw [r.others e' he, heng],
    only_trans (only_of _ taken (by decide)) r.frame⟩
  exact regs_trans (regs_mono hregs (by simp)) (regs_mono r.regs (by simp +contextual))

/-- R244: a counter that an sy.sub takes just before the completion. -/
theorem setCtr_retires (hs : Canon s) (e : Eng) (q : QEntry) (hv : iV q.word = false) {c : Nat} (hc : c < 256) (v : Nat) :
    let t := finishFront (setCtr s p c (getCtr s p c - v)) e q
    getCtr t p c = getCtr s p c - v ∧ Retires s t e q [ctrKey p c] := by
  have hregs := (finishFront_retires (canon_wrF hs 6 SY_CTR p c (getCtr s p c - v)) e q hv).regs
  exact ⟨(getCtr_of_regsBut hregs (ctrKey_not_trace p c e)).trans (getCtr_setCtr_sub s p c v),
    retires_regSet hs e q hv (ctrKey p c) _ fun d => home_not_ctr d p hc⟩

/-- R201, R241: an increment put on its way just before the completion stands before the instruction's own signal. -/
theorem addIncr_retires (hs : Canon s) (e : Eng) (q : QEntry) (hv : iV q.word = false) (hp : homeOf s e = some p)
    (hiso : isolated s p = false) (i : Incr) :
    let t := finishFront (addIncr s p i) e q
    (getTile t p).pend = (getTile s p).pend ++ i :: (match iSig q.word with | some n => [⟨n, 1, .instr e (iTag q.word) q.idx⟩] | none => [])
      ∧ (getEng t e).queue = (getEng s e).queue.drop 1 ∧ (getEng t e).st = (getEng s e).st ∧ TileCore s t
      ∧ RegsBut (traceKeys e) s t ∧ EngsBut [e] s t ∧ Only [.regs, .engines, .tiles] s t := by
  intro t
  have added := addIncr_moves s p i
  have hregs : s.regs = (addIncr s p i).regs := added.same .regs (by decide)
  have heng : ∀ e', getEng (addIncr s p i) e' = getEng s e' := getEng_of_moves added (by decide)
  have hpu : homeOf (addIncr s p i) e = some p :=
    (homeOf_same e (fun c => by rw [regGet, ← hregs, regGet]) (added.same .tmap (by decide)).symm).trans hp
  have hpend : (getTile (addIncr s p i) p).pend = (getTile s p).pend ++ [i] := by
    rw [getTile_addIncr]
    simp [hiso]
  have r := finishFront_retires (added.canon hs) e q hv
  refine ⟨?pend, by rw [r.queue, heng], by rw [r.going, heng], tileCore_trans (tileCore_addIncr s p i) r.tiles,
    regs_trans (regsBut_of_regs _ hregs.symm) r.regs, fun e' he => by rw [r.others e' he, heng], only_trans (only_of _ added (by decide)) r.frame⟩
  obtain ⟨hadds, hstays⟩ := r.signal
  cases hsig : iSig q.word with
  | some n =>
    rw [hadds n p hsig hpu ((isolated_of_moves added (by decide) p).trans hiso), hpend, List.append_assoc]
    rfl
  | none => rw [hstays p (.inl hsig), hpend]

end

/-! Engines without a home. -/

/-- R387: an instruction that needs a counter of an engine without a home tile. -/
theorem counter_homeless {s : State} {e : Eng} {q : QEntry} (hp : homeOf s e = none) {c : Instr} {op : Nat} {rsv : List (Nat × Nat)}
    (hmem : (c, op, rsv) ∈ [(Instr.sySub e, 0x82, [(0, 48)]), (.syAdd e, 0x81, [(0, 48)]), (.syGet e, 0x84, [(0, 67)])])
    (h : ReadyCtl s e 4 op rsv q) : exec c s = .next (faultQ s e q 0x0101 0 0 0) := by
  simp only [List.mem_cons, List.not_mem_nil, or_false, Prod.mk.injEq] at hmem
  rcases hmem with ⟨rfl, rfl, rfl⟩ | ⟨rfl, rfl, rfl⟩ | ⟨rfl, rfl, rfl⟩
  all_goals exact congrArg Host.Outcome.next ((runCtl_ready h _).trans (by simp only [hp]))

/-- R245, R387: an sy.wait of more than 0. -/
theorem doSyWait_homeless {s : State} {e : Eng} {q : QEntry} (h : ReadyCtl s e 4 0x80 [(0, 48)] q) (hv : ifld q.word 48 24 ≠ 0)
    (hp : homeOf s e = none) : doSyWait s e = faultQ s e q 0x0101 0 0 0 := by
  rw [doSyWait, runCtl_ready h]
  simp only [hv, hp, if_false]

/-- Settles O14: each instruction that is ready takes, adds to, reads or waits for its counter, and completes; without a home it faults. -/
theorem counterInstructions : Obligations.CounterInstructions := by
  unfold Obligations.CounterInstructions
  refine ⟨fun e s q p hs hp _ => ?home, fun e s q _ hp => ⟨fun c op rsv hmem h => ⟨_, counter_homeless hp hmem h, faultQ_faultsWith h ..⟩,
    fun h hv => ⟨_, congrArg Host.Outcome.next (doSyWait_homeless h hv hp), faultQ_faultsWith h ..⟩⟩⟩
  intro w c v
  have hc : c < 256 := bits_lt ..
  refine ⟨fun h hv => ?none, fun h hv hle => ?takes, fun h hlt => ?waits, fun h hle => ?sub, fun h hiso => ?add, fun h => ?get⟩
  case none => exact ⟨_, congrArg Host.Outcome.next (doSyWait_zero h hv), finishFront_retires hs e q h.2.1⟩
  case takes =>
    exact ⟨_, congrArg Host.Outcome.next ((doSyWait_eq h hv hp).trans (if_pos hle)), takeCtr_retires hs e q h.2.1 hc v⟩
  case waits =>
    have hv : v ≠ 0 := Nat.ne_of_gt (Nat.zero_lt_of_lt hlt)
    obtain ⟨heng, hrest⟩ := beginWait_shows s e q .sywait c v
    exact ⟨_, congrArg Host.Outcome.next ((doSyWait_eq h hv hp).trans (if_neg (Nat.not_le.2 hlt))), congrArg Engine.st heng,
      congrArg Engine.wait heng, (congrArg Engine.queue heng :), hrest⟩
  case sub => exact ⟨_, congrArg Host.Outcome.next (doSySub_eq h hp hle), setCtr_retires hs e q h.2.1 hc v⟩
  case add => exact ⟨_, congrArg Host.Outcome.next (doSyAdd_eq h hp), addIncr_retires hs e q h.2.1 hp hiso (syIncr e q)⟩
  case get => exact ⟨_, congrArg Host.Outcome.next (doSyGet_eq h hp), setG_retires hs e q h.2.1 (show ifld w 75 5 < 32 from bits_lt ..) _⟩

end Sys2Proof.Proofs

/-! PROOFS. Driver commands to an engine's page (R213, R214, R221, R236, R237): what a command does to an engine whose page is up, and the
statement about writes of MARK_EN and of general registers. -/
namespace Sys2Proof.Proofs
open Sys2Proof Sys2Proof.Machine Sys2Proof.Laws

/-- R592, R599: a driver command acts on an engine whose page is up. -/
theorem onEng_up {s : State} {e : Eng} (h : pageUp s (engBlk e) (engInst e) = true) (f : State → State) : onEng s e f = f s := if_pos h

/-- A program control field that is written shows the value and leaves every other register. -/
theorem setP_shows (s : State) (e : Eng) (f : Fld) (v : Nat) (hw : f.lo + f.len ≤ 64) :
    getP (setP s e f v) e f = v % 2 ^ f.len ∧ RegsBut [pKey e f] s (setP s e f v) ∧ Only [.regs] s (setP s e f v) :=
  ⟨getP_setP_same s e f v hw, regsBut_wrF s _ f _ 0 v, only_of _ (setP_moves s e f v) (by decide)⟩

/-- R213: a command that an engine's program state refuses shows in CMD_ERR alone. -/
theorem cmdErr_shows (s : State) (e : Eng) :
    getP (cmdErr s e) e P_PSTATE_CMD_ERR = 1 ∧ RegsBut [pKey e P_PSTATE_CMD_ERR] s (cmdErr s e) ∧ Only [.regs] s (cmdErr s e) :=
  setP_shows s e P_PSTATE_CMD_ERR 1 (by decide)

/-! MARK_EN and the general registers. -/

/-- R221: a write of MARK_EN keeps its value exactly where the field shows the value written. -/
theorem markEn_same_iff (s : State) (e : Eng) (v : Bool) : (getP s e P_PCTL_MARK_EN == 1) = v ↔ b2n v = getP s e P_PCTL_MARK_EN := by
  have hlt : getP s e P_PCTL_MARK_EN < 2 := bits_lt _ 4 1
  cases v
  · simp only [beq_eq_false_iff_ne, b2n, Bool.false_eq_true, if_false]
    omega
  · simp only [beq_iff_eq, b2n, if_true]
    omega

section
variable {s : State} {e : Eng}

theorem doMarkEn_same {v : Bool} (h : b2n v = getP s e P_PCTL_MARK_EN) : doMarkEn s e v = s := if_pos ((markEn_same_iff s e v).2 h)

theorem doMarkEn_set {v : Bool} (h : b2n v ≠ getP s e P_PCTL_MARK_EN) (hst : (getEng s e).st = .halted ∨ (getEng s e).st = .loaded) :
    doMarkEn s e v = setP s e P_PCTL_MARK_EN (b2n v) := by
  rw [doMarkEn, if_neg (mt (markEn_same_iff s e v).1 h)]
  rcases hst with hst | hst <;> rw [hst]

theorem doMarkEn_refused {v : Bool} (h : b2n v ≠ getP s e P_PCTL_MARK_EN) (hh : (getEng s e).st ≠ .halted) (hl : (getEng s e).st ≠ .loaded) :
    doMarkEn s e v = cmdErr s e := by
  rw [doMarkEn, if_neg (mt (markEn_same_iff s e v).1 h)]
  split
  · exact absurd ‹_› hh
  · exact absurd ‹_› hl
  · rfl

theorem doGWrite_set (n : Nat) (v : DWord) (hst : (getEng s e).st = .halted ∨ (getEng s e).st = .loaded ∨ (getEng s e).st = .quiesced) :
    doGWrite s e n v = setG s e n v := by
  rcases hst with hst | hst | hst <;> rw [doGWrite, hst]

theorem doGWrite_refused (n : Nat) (v : DWord)
    (hst : (getEng s e).st = .armed ∨ (getEng s e).st = .running ∨ (getEng s e).st = .waiting ∨ (getEng s e).st = .faulted) :
    doGWrite s e n v = cmdErr s e := by
  rcases hst with hst | hst | hst | hst <;> rw [doGWrite, hst]

end

/-- Settles O8: a write that the program state allows sets its field or register, any other sets CMD_ERR. -/
theorem engineRegisterWrites : Obligations.EngineRegisterWrites := by
  unfold Obligations.EngineRegisterWrites
  intro e s _ hup st
  have hrow : ∀ v, exec (.markEnWrite e v) s = .next (doMarkEn s e v) := fun v => congrArg Host.Outcome.next (onEng_up hup _)
  have hrowG : ∀ n v, exec (.pGWrite e n v) s = .next (doGWrite s e n.val v) := fun n v => congrArg Host.Outcome.next (onEng_up hup _)
  refine ⟨fun v hv hst => ⟨_, (hrow v).trans (congrArg Host.Outcome.next (doMarkEn_set hv hst)), ?set⟩,
    fun v hv => (hrow v).trans (congrArg Host.Outcome.next (doMarkEn_same hv)),
    fun v hv hh hl => ⟨_, (hrow v).trans (congrArg Host.Outcome.next (doMarkEn_refused hv hh hl)), cmdErr_shows s e⟩,
    fun n v hst => ⟨_, (hrowG n v).trans (congrArg Host.Outcome.next (doGWrite_set n.val v hst)), getG_setG_same s e n.val v,
      regsBut_regSet s (gKey e n.val) v, only_of _ (setG_moves s e n.val v) (by decide)⟩,
    fun n v hst => ⟨_, (hrowG n v).trans (congrArg Host.Outcome.next (doGWrite_refused n.val v hst)), cmdErr_shows s e⟩⟩
  case set =>
    obtain ⟨hval, hrest⟩ := setP_shows s e P_PCTL_MARK_EN (b2n v) (by decide)
    exact ⟨hval.trans (by cases v <;> rfl), hrest⟩

end Sys2Proof.Proofs

/-! PROOFS. The launch, the halt and the quiesce request of an engine (R213 to R215): what each shows, by the program state it meets. -/
namespace Sys2Proof.Proofs
open Sys2Proof Sys2Proof.Machine Sys2Proof.Laws

/-! One engine changed. -/

theorem modEng_shows (s : State) (e : Eng) (f : Engine → Engine) :
    getEng (modEng s e f) e = f (getEng s e) ∧ EngsBut [e] s (modEng s e f) ∧ Only [.engines] s (modEng s e f) :=
  ⟨getEng_setEng_same s e _, fun _ he => getEng_setEng_other s _ (by simpa using he), only_of _ (modEng_moves s e f) (by decide)⟩

theorem engsBut_trans {es : List Eng} {s t u : State} (h : EngsBut es s t) (k : EngsBut es t u) : EngsBut es s u :=
  fun e he => (k e he).trans (h e he)

/-- R518, R593: an engine's domain is that of its page. -/
theorem pageDomain_eng : ∀ e, pageDomain (engBlk e) (engInst e) = engDom e
  | .tile _ .mx | .tile _ .vx | .tile _ .dm | .tile _ .sy | .ce _ => rfl

theorem not_isolated_of_pageUp {s : State} {e : Eng} (h : pageUp s (engBlk e) (engInst e) = true) : isolated s (engDom e) = false := by
  rw [← pageDomain_eng]
  simp only [pageUp, Bool.and_eq_true, Bool.not_eq_true'] at h
  exact h.2

/-! The launch (R213, R215, R21). -/

section
variable {s : State} {e : Eng}

/-- What lets an ARMED engine launch: its launch is due, and its domain is not isolated. -/
theorem launch_cond_iff : ((getEng s e).st = .armed ∧ (!(getEng s e).quiesceReq) = true ∧ (getEng s e).launch.toNat ≤ s.gsc
    ∧ (s.ramp = 9 ∨ (!rampUp s) = true) ∧ (!isolated s (engDom e)) = true) ↔ LaunchDue s e ∧ isolated s (engDom e) = false := by
  simp only [LaunchDue, Bool.not_eq_true', and_assoc]

/-- R215: before its launch an engine stays as it is. -/
theorem launch_early (h : ¬ LaunchDue s e) : launch s e = s := if_neg fun hc => h (launch_cond_iff.1 hc).1

/-- The engine that has launched. -/
def launchedEngine (s : State) (e : Eng) : Engine := { getEng s e with st := .running, since := s.gsc, late := false }

theorem launch_due (h : LaunchDue s e) (hiso : isolated s (engDom e) = false) : launch s e =
    if (getEng s e).late = true then setP (setEng s e (launchedEngine s e)) e P_PSTATE_LATE 1 else setEng s e (launchedEngine s e) :=
  if_pos (launch_cond_iff.2 ⟨h, hiso⟩)

/-- R213, R215: an engine that launches runs, and shows a launch that came late in LATE alone. -/
theorem launch_shows (h : LaunchDue s e) (hiso : isolated s (engDom e) = false) :
    getEng (launch s e) e = launchedEngine s e ∧ ((getEng s e).late = true → getP (launch s e) e P_PSTATE_LATE = 1)
      ∧ RegsBut (if (getEng s e).late then [pKey e P_PSTATE_LATE] else []) s (launch s e) ∧ EngsBut [e] s (launch s e)
      ∧ Only [.regs, .engines] s (launch s e) := by
  have honly : Only [.regs, .engines] s (launch s e) := only_of _ (launch_moves s e) (by decide)
  have hothers : EngsBut [e] s (setEng s e (launchedEngine s e)) := fun _ he => getEng_setEng_other s _ (by simpa using he)
  rw [launch_due h hiso] at honly ⊢
  cases hlate : (getEng s e).late with
  | true =>
    obtain ⟨hp, hregs, -⟩ := setP_shows (setEng s e (launchedEngine s e)) e P_PSTATE_LATE 1 (by decide)
    rw [hlate] at honly
    exact ⟨getEng_setEng_same s e _, fun _ => hp, hregs, hothers, honly⟩
  | false =>
    rw [hlate] at honly
    exact ⟨getEng_setEng_same s e _, fun hl => absurd hl (by decide), fun _ _ => rfl, hothers, honly⟩

/-! HALT and QUIESCE, judged after a launch that is due (R213, R214). -/

theorem doHalt_halts (h : (getEng (launch s e) e).st = .loaded ∨ (getEng (launch s e) e).st = .armed ∨ (getEng (launch s e) e).st = .quiesced
    ∨ (getEng (launch s e) e).st = .faulted) : doHalt s e = haltEngine (launch s e) e := by
  rcases h with h | h | h | h <;> simp only [doHalt, h]

theorem doHalt_refused (h : (getEng (launch s e) e).st = .halted ∨ (getEng (launch s e) e).st = .running
    ∨ (getEng (launch s e) e).st = .waiting) : doHalt s e = cmdErr (launch s e) e := by
  rcases h with h | h | h <;> simp only [doHalt, h]

theorem doQuiesce_asks (h : (getEng (launch s e) e).st = .running ∨ (getEng (launch s e) e).st = .waiting
    ∨ (getEng (launch s e) e).st = .armed) :
    doQuiesce s e = modEng (launch s e) e (fun g => { g with quiesceReq := true, quiesceAt := (launch s e).gsc }) := by
  rcases h with h | h | h <;> simp only [doQuiesce, h]

theorem doQuiesce_refused (h : (getEng (launch s e) e).st = .halted ∨ (getEng (launch s e) e).st = .loaded
    ∨ (getEng (launch s e) e).st = .quiesced ∨ (getEng (launch s e) e).st = .faulted) : doQuiesce s e = cmdErr (launch s e) e := by
  rcases h with h | h | h | h <;> simp only [doQuiesce, h]

end

/-- R213: what HALT leaves of an engine. -/
theorem haltEngine_shows (s : State) (e : Eng) :
    (getEng (haltEngine s e) e).st = .halted ∧ (getEng (haltEngine s e) e).queue = []
      ∧ (getEng (haltEngine s e) e).fetchPc = enginePc (getEng s e) ∧ EngsBut [e] s (haltEngine s e)
      ∧ Only [.engines, .tiles, .ces, .mark, .router] s (haltEngine s e) := by
  have hown : getEng (haltEngine s e) e = { getEng s e with
      st := .halted, queue := [], fetchPc := enginePc (getEng s e), fetchStop := false, marks := [], wait := none, fwait := none
      quiesceReq := false, restored := false, lateSigs := [] } := by
    rw [haltEngine, getEng_of_moves (stopWork_moves ..) (by decide), getEng_setEng_same]
  refine ⟨by rw [hown], by rw [hown], by rw [hown], fun e' he => ?others, only_of _ (haltEngine_moves s e) (by decide)⟩
  rw [haltEngine, getEng_of_moves (stopWork_moves ..) (by decide), getEng_setEng_other _ _ (by simpa using he),
    getEng_of_moves (takeBackMark_moves ..) (by decide)]

/-! LOAD, START and ARM (R213, R215). -/

section
variable {s : State} {e : Eng}

/-- R213: what LOAD shows of a HALTED engine. -/
theorem doLoad_shows (h : (getEng s e).st = .halted) :
    (getEng (doLoad s e) e).st = .loaded ∧ (getEng (doLoad s e) e).fetchPc = getP s e P_START_PC_PC ∧ (getEng (doLoad s e) e).queue = []
      ∧ EngsBut [e] s (doLoad s e) ∧ Only [.engines, .ces] s (doLoad s e) := by
  rw [doLoad, if_pos h]
  obtain ⟨heng, hothers, honly⟩ := modEng_shows (ceLoaded s e) e (fun g => { g with
    st := .loaded, queue := [], fetchPc := getP s e P_START_PC_PC, fetchStop := false, marks := [], wait := none, fwait := none
    quiesceReq := false, restored := false, lateSigs := [] })
  exact ⟨by rw [heng], by rw [heng], by rw [heng], engsBut_trans (engsBut_of_moves (ceLoaded_moves s e) (by decide) _) hothers,
    only_trans (only_of _ (ceLoaded_moves s e) (by decide)) (only_mono honly (by simp))⟩

end

end Sys2Proof.Proofs

/-! PROOFS. RESUME (R213, R216, R262): an engine that resumes is QUIESCED no more, whatever its fetch and its waits then meet. -/
namespace Sys2Proof.Proofs
open Sys2Proof Sys2Proof.Machine Sys2Proof.Laws

/-! What never brings an engine back to QUIESCED. -/

/-- An engine that is not QUIESCED. -/
structure Awake (s : State) (e : Eng) : Prop where
  ne : (getEng s e).st ≠ .quiesced

section
variable {s : State} {e : Eng}

theorem awake_of_getEng {t : State} (ht : getEng t e = getEng s e) (h : Awake s e) : Awake t e := ⟨ht ▸ h.ne⟩

theorem awake_of_moves {m : Nat} {t : State} (hm : Moves m s t) (h6 : m.testBit 6 = false) (h : Awake s e) : Awake t e :=
  awake_of_getEng (getEng_of_moves hm h6 e) h

theorem awake_setEng {e' : Eng} {x : Engine} (h : Awake s e) (hx : e' = e → x.st ≠ .quiesced) : Awake (setEng s e' x) e := by
  by_cases he : e' = e
  · subst he
    exact ⟨by rw [getEng_setEng_same]; exact hx rfl⟩
  · exact awake_of_getEng (getEng_setEng_other _ _ (Ne.symm he)) h

/-- An engine that keeps its program state stays awake. -/
theorem awake_keepSt {e' : Eng} {x : Engine} (h : Awake s e) (hx : x.st = (getEng s e').st) : Awake (setEng s e' x) e :=
  awake_setEng h fun he => by
    rw [hx, he]
    exact h.ne

theorem awake_traceEv (h : Awake s e) (e' : Eng) (t : Bool) (tag pc ev d : Nat) : Awake (traceEv s e' t tag pc ev d) e :=
  awake_of_moves (traceEv_moves ..) (by decide) h

theorem awake_finishFront (h : Awake s e) (e' : Eng) (q : QEntry) : Awake (finishFront s e' q) e :=
  have hpop : Awake (popFront s e') e := awake_keepSt h rfl
  awake_of_moves (completeDone_moves ..) (by decide) (awake_traceEv hpop ..)

/-- R213: a fault of a program that may not fault raises its record alone. -/
theorem faultEngine_idle {e' : Eng} (h : ¬ Faultable s e') (code tag pc : Nat) (t : Bool) (addr space detail : Nat) :
    faultEngine s e' code tag pc t addr space detail = faultRaised s e' code tag pc t addr space detail := by
  have hrec := (faultRec_traced s e' code tag pc t addr space detail).1
  have hg := getEng_faultRaised s e' code tag pc t addr space detail e'
  unfold faultRaised at hg ⊢
  rw [← hrec] at hg ⊢
  rw [Faultable, ← hg] at h
  exact if_neg h

theorem awake_faultEngine (h : Awake s e) (e' : Eng) (code tag pc : Nat) (t : Bool) (addr space detail : Nat) :
    Awake (faultEngine s e' code tag pc t addr space detail) e := by
  by_cases hf : Faultable s e'
  · obtain ⟨hst, -, hothers⟩ := faultEngine_faultsWith hf code tag pc t addr space detail
    by_cases he : e = e'
    · subst he
      exact ⟨by rw [hst]; decide⟩
    · exact awake_of_getEng (hothers e (by simpa using he)) h
  · rw [faultEngine_idle hf]
    exact awake_of_getEng (getEng_faultRaised ..) h

theorem awake_fetch (h : Awake s e) (e' : Eng) : Awake (fetch s e') e := by
  have keep : ∀ (c : Prop) [Decidable c] {code tag pc : Nat} {t : Bool} {addr space detail : Nat},
      Awake (if c then faultEngine s e' code tag pc t addr space detail else s) e := fun c _ _ _ _ _ _ _ _ => by
    split
    · exact awake_faultEngine h ..
    · exact h
  unfold fetch fetchAs
  dsimp only
  split
  · exact h
  · split
    · exact keep _
    · split
      · exact keep _
      · split
        · exact keep _
        · split
          · exact keep _
          · exact awake_keepSt h rfl

theorem awake_refetch (e' : Eng) : ∀ (n : Nat) {s : State}, Awake s e → Awake (refetch s e' n) e
  | 0, _, h => h
  | n + 1, _, h => awake_refetch e' n (awake_fetch h e')

/-- A fold of steps that each keep an engine awake. -/
theorem awake_foldl {α : Type} {f : State → α → State} (hf : ∀ s x, Awake s e → Awake (f s x) e) :
    ∀ (l : List α) {s : State}, Awake s e → Awake (l.foldl f s) e
  | [], _, h => h
  | x :: l, _, h => awake_foldl hf l (hf _ x h)

/-- R245: an engine whose wait is satisfied runs, or waits for another. -/
theorem awake_going {e' : Eng} {x : Engine} {b : Bool} (h : Awake s e) (hx : x.st = if b = true then .waiting else .running) :
    Awake (setEng s e' x) e :=
  awake_setEng h fun _ => by
    rw [hx]
    cases b <;> decide

theorem awake_takeCtr (h : Awake s e) (p c v : Nat) (e' : Eng) : Awake (takeCtr s p c v e') e :=
  awake_of_moves (takeCtr_moves ..) (by decide) h

theorem awake_satisfyIssue (h : Awake s e) (p c : Nat) (e' : Eng) : Awake (satisfyIssue s p c e') e := by
  unfold satisfyIssue
  dsimp only
  split
  · split
    · split
      · exact awake_traceEv (awake_going (awake_takeCtr h ..) rfl) ..
      · exact awake_going (awake_takeCtr h ..) rfl
      · exact awake_finishFront (awake_traceEv (awake_going (awake_takeCtr h ..) rfl) ..) ..
      · exact awake_of_moves (passFctr_moves ..) (by decide) (awake_going (awake_takeCtr h ..) rfl)
    · exact h
  · exact h

theorem awake_satisfyFill (h : Awake s e) (p c : Nat) (e' : Eng) : Awake (satisfyFill s p c e') e := by
  unfold satisfyFill
  dsimp only
  split
  · split
    · split
      · exact awake_traceEv (awake_going (awake_takeCtr h ..) rfl) ..
      · exact awake_going (awake_takeCtr h ..) rfl
    · exact h
  · exact h

theorem awake_testWaits (h : Awake s e) (p c : Nat) : Awake (testWaits s p c) e := by
  refine awake_of_moves (satisfyCv_moves ..) (by decide) (awake_of_moves (satisfyCv_moves ..) (by decide) ?_)
  refine awake_foldl (fun u c' hu => awake_satisfyIssue hu p c _) _ ?_
  exact awake_foldl (fun u k hu => awake_satisfyFill (awake_satisfyIssue hu p c _) p c _) _ h

/-! The resume. -/

/-- R216: the state in which a QUIESCED engine has gone back to its program state, its waits and its work running again. -/
def resumedState (s : State) (e : Eng) : State :=
  let g := getEng s e
  restartWork (setEng s e { g with
    st := g.resumeSt, restored := false, lateSigs := [], quiesceReq := false
    wait := g.wait.map (restartWait s), fwait := g.fwait.map (restartWait s) }) e

theorem getEng_resumedState (s : State) (e : Eng) : getEng (resumedState s e) e = { getEng s e with
    st := (getEng s e).resumeSt, restored := false, lateSigs := [], quiesceReq := false
    wait := (getEng s e).wait.map (restartWait s), fwait := (getEng s e).fwait.map (restartWait s) } :=
  (getEng_of_moves (restartWork_moves ..) (by decide) e).trans (getEng_setEng_same s e _)

theorem resumedState_moves (s : State) (e : Eng) : Moves 0x8000c0 s (resumedState s e) :=
  (restartWork_moves ..).next (by decide) ((setEng_moves s e _).le (by decide))

theorem engsBut_resumedState (s : State) (e : Eng) : EngsBut [e] s (resumedState s e) := fun e' he =>
  (getEng_of_moves (restartWork_moves ..) (by decide) e').trans (getEng_setEng_other s _ (by simpa using he))

/-- R213, R216: the state in which a resumed engine has fetched again what its queue held and its late signals have fallen, an ARMED one
with LAUNCH.COUNT. -/
def resumedOn (s : State) (e : Eng) : State :=
  let g := getEng s e
  let u := g.lateSigs.foldl (fun s x => signalDone s e (some x.1) x.2.1 x.2.2) (refetch (resumedState s e) e g.marks.length)
  if g.resumeSt = .armed then arm u e (regGet u (launchKey e)) else u

/-- R216, R245, R261: what the waits that an engine held meet once it has resumed: a fault at a context that is ORPHANED, or the values of
their counters. -/
def resumedWaits (s : State) (e : Eng) (g : Engine) : State :=
  if orphaned s g then
    let (w, _) := imemWord s e (enginePc g)
    faultEngine s e 0x0202 (iTag w) (enginePc g) (iT w) 0 0 0
  else match g.wait, g.fwait, homeOf s e with
    | some w, none, some p => testWaits s p w.ctr
    | none, some w, some p => testWaits s p w.ctr
    | some w, some w', some p => testWaits (testWaits s p w.ctr) p w'.ctr
    | _, _, _ => s

theorem resumeEngine_eq (s : State) (e : Eng) : resumeEngine s e = resumedWaits (resumedOn s e) e (getEng s e) := rfl

/-- An engine with no wait open meets nothing. -/
theorem resumedWaits_none {g : Engine} (hw : g.wait = none) (hf : g.fwait = none) : resumedWaits s e g = s := by
  have horph : orphaned s g = false := by rw [orphaned, hw]
  simp only [resumedWaits, horph, hw, hf, Bool.false_eq_true, if_false]

/-- R213, R216: an engine with no wait open, nothing to fetch again and no signal kept goes on at once. -/
theorem resumeEngine_plain (hm : (getEng s e).marks = []) (hsig : (getEng s e).lateSigs = []) (hw : (getEng s e).wait = none)
    (hf : (getEng s e).fwait = none) : resumeEngine s e =
    if (getEng s e).resumeSt = .armed then arm (resumedState s e) e (regGet (resumedState s e) (launchKey e)) else resumedState s e := by
  rw [resumeEngine_eq, resumedWaits_none hw hf, resumedOn, hm, hsig]
  rfl

theorem awake_resumedOn (h : (getEng s e).resumeSt ≠ .quiesced) : Awake (resumedOn s e) e := by
  have hon : Awake (resumedState s e) e := ⟨by rw [getEng_resumedState]; exact h⟩
  have hsigs := awake_foldl (f := fun s (x : Nat × Nat × Nat) => signalDone s e (some x.1) x.2.1 x.2.2)
    (fun _ _ hu => awake_of_moves (signalDone_moves ..) (by decide) hu) (getEng s e).lateSigs (awake_refetch e (getEng s e).marks.length hon)
  unfold resumedOn
  dsimp only
  split
  · exact awake_setEng hsigs fun _ => by simp
  · exact hsigs

theorem awake_resumedWaits (h : Awake s e) (g : Engine) : Awake (resumedWaits s e g) e := by
  unfold resumedWaits
  split
  · exact awake_faultEngine h ..
  · split
    · exact awake_testWaits h ..
    · exact awake_testWaits h ..
    · exact awake_testWaits (awake_testWaits h ..) ..
    · exact h

/-- R216: an engine that resumes is QUIESCED no more. -/
theorem awake_resumeEngine (h : (getEng s e).resumeSt ≠ .quiesced) : Awake (resumeEngine s e) e :=
  resumeEngine_eq s e ▸ awake_resumedWaits (awake_resumedOn h) _

end

end Sys2Proof.Proofs

/-! PROOFS. The statement about driver commands (R212 to R216). -/
namespace Sys2Proof.Proofs
open Sys2Proof Sys2Proof.Machine Sys2Proof.Laws

/-- R213: a refused command leaves its engine and sets CMD_ERR. -/
theorem refused_shows {s : State} {e : Eng} {c : Instr} (h : exec c s = .next (cmdErr s e)) :
    Does c s (fun t => getEng t e = getEng s e ∧ getP t e P_PSTATE_CMD_ERR = 1 ∧ RegsBut [pKey e P_PSTATE_CMD_ERR] s t ∧ Only [.regs] s t) :=
  ⟨_, h, rfl, cmdErr_shows s e⟩

/-- A driver command to a page that is up does what its meaning does. -/
theorem exec_of_onEng {s u : State} {e : Eng} {c : Instr} {f : State → State} (hrow : exec c s = .next (onEng s e f))
    (hup : pageUp s (engBlk e) (engInst e) = true) (hf : f s = u) : exec c s = .next u :=
  hrow.trans (congrArg Host.Outcome.next ((onEng_up hup _).trans hf))

section
variable {s : State} {e : Eng}

/-- R214: a HALT that meets an engine whose launch is due meets it RUNNING, and is refused. -/
theorem doHalt_due (h : LaunchDue s e) (hiso : isolated s (engDom e) = false) :
    (getEng (doHalt s e) e).st = .running ∧ getP (doHalt s e) e P_PSTATE_CMD_ERR = 1 ∧ EngsBut [e] s (doHalt s e)
      ∧ Only [.engines, .regs] s (doHalt s e) := by
  obtain ⟨heng, -, -, hothers, honly⟩ := launch_shows h hiso
  obtain ⟨herr, -, honly'⟩ := cmdErr_shows (launch s e) e
  rw [doHalt_refused (.inr (.inl (by rw [heng]; rfl)))]
  exact ⟨congrArg Engine.st heng, herr, hothers, only_trans (only_mono honly (by simp)) (only_mono honly' (by simp))⟩

/-- R214: a QUIESCE that meets an engine whose launch is due meets it RUNNING. -/
theorem doQuiesce_due (h : LaunchDue s e) (hiso : isolated s (engDom e) = false) :
    (getEng (doQuiesce s e) e).st = .running ∧ (getEng (doQuiesce s e) e).quiesceReq = true ∧ EngsBut [e] s (doQuiesce s e)
      ∧ Only [.engines, .regs] s (doQuiesce s e) := by
  obtain ⟨heng, -, -, hothers, honly⟩ := launch_shows h hiso
  rw [doQuiesce_asks (.inl (by rw [heng]; rfl))]
  obtain ⟨heng', hothers', honly'⟩ := modEng_shows (launch s e) e (fun g => { g with quiesceReq := true, quiesceAt := (launch s e).gsc })
  rw [heng] at heng'
  exact ⟨congrArg Engine.st heng', congrArg Engine.quiesceReq heng', engsBut_trans hothers hothers',
    only_trans (only_mono honly (by simp)) (only_mono honly' (by simp))⟩

/-- An engine whose fields a plain resume sets already hold its values. -/
theorem resumed_engine_eq {g : Engine} {st : EState} (hr : g.resumeSt = st) (hsig : g.lateSigs = []) (hw : g.wait = none)
    (hf : g.fwait = none) (k : Wait → Wait) :
    { g with st := g.resumeSt, restored := false, lateSigs := [], quiesceReq := false, wait := g.wait.map k, fwait := g.fwait.map k }
      = { g with st := st, restored := false, quiesceReq := false } := by
  rw [hr, hw, hf]
  cases g
  simp_all

end

/-- Settles O7: each command is one `if` or `match` on the program state, judged after a launch that is due. -/
theorem engineCommands : Obligations.EngineCommands := by
  unfold Obligations.EngineCommands
  intro e s _ hup st refuses
  have hiso := not_isolated_of_pageUp hup
  have early : (st = .armed → ¬ LaunchDue s e) → launch s e = s := fun h => launch_early fun hd => h hd.1 hd
  refine ⟨fun h => ⟨_, exec_of_onEng rfl hup rfl, doLoad_shows h⟩, fun h => refused_shows (exec_of_onEng rfl hup (if_neg h)),
    fun h => ⟨_, exec_of_onEng rfl hup (if_pos h), modEng_shows s e _⟩, fun h => refused_shows (exec_of_onEng rfl hup (if_neg h)),
    fun h => ⟨_, exec_of_onEng rfl hup (if_pos h), modEng_shows s e _⟩, fun h => refused_shows (exec_of_onEng rfl hup (if_neg h)),
    fun h => ?halt, fun h => ?haltRefused, fun h => ⟨_, exec_of_onEng rfl hup rfl, doHalt_due h hiso⟩,
    fun h => ?quiesce, fun h => ⟨_, exec_of_onEng rfl hup rfl, doQuiesce_due h hiso⟩, fun h => ?quiesceRefused,
    fun h hr hm hsig hw hf => ?resume, fun h hr hm hsig hw hf => ?resumeArmed,
    fun h hr => ⟨_, exec_of_onEng rfl hup (if_pos h), (awake_resumeEngine ?awake).ne⟩,
    fun h => refused_shows (exec_of_onEng rfl hup (if_neg h))⟩
  case halt =>
    have hl := early fun ha => by simpa [ha] using h
    have heq : doHalt s e = haltEngine (launch s e) e := doHalt_halts (hl.symm ▸ h.imp_right (Or.imp_left And.left))
    rw [hl] at heq
    exact ⟨_, exec_of_onEng rfl hup heq, haltEngine_shows s e⟩
  case haltRefused =>
    have hl := early fun ha => by simp [ha] at h
    have heq : doHalt s e = cmdErr (launch s e) e := doHalt_refused (hl.symm ▸ h)
    rw [hl] at heq
    exact refused_shows (exec_of_onEng rfl hup heq)
  case quiesce =>
    have hl := early fun ha => by simpa [ha] using h
    have heq : doQuiesce s e = modEng (launch s e) e (fun g => { g with quiesceReq := true, quiesceAt := (launch s e).gsc }) :=
      doQuiesce_asks (hl.symm ▸ h.imp_right (Or.imp_right And.left))
    rw [hl] at heq
    exact ⟨_, exec_of_onEng rfl hup heq, modEng_shows s e _⟩
  case quiesceRefused =>
    have hl := early fun ha => by simp [ha] at h
    have heq : doQuiesce s e = cmdErr (launch s e) e := doQuiesce_refused (hl.symm ▸ h)
    rw [hl] at heq
    exact refused_shows (exec_of_onEng rfl hup heq)
  case resume =>
    have heq := (resumeEngine_plain hm hsig hw hf).trans (if_neg (by simp [hr]))
    exact ⟨_, exec_of_onEng rfl hup ((if_pos h).trans heq), (getEng_resumedState s e).trans (resumed_engine_eq hr hsig hw hf _),
      engsBut_resumedState s e, only_of _ (resumedState_moves s e) (by decide)⟩
  case resumeArmed =>
    have heq := (resumeEngine_plain hm hsig hw hf).trans (if_pos hr)
    have hcount : regGet (resumedState s e) (launchKey e) = regGet s (launchKey e) :=
      regsBut_of_regs [] ((resumedState_moves s e).same .regs (by decide)).symm _ (by simp)
    have hgsc : s.gsc = (resumedState s e).gsc := (resumedState_moves s e).same .gsc (by decide)
    rw [hcount] at heq
    obtain ⟨u, hu⟩ : ∃ u, resumedState s e = u := ⟨_, rfl⟩
    rw [hu] at heq hgsc
    refine ⟨_, exec_of_onEng rfl hup ((if_pos h).trans heq), ?_⟩
    have heng : getEng (arm u e (regGet s (launchKey e))) e = _ := getEng_setEng_same ..
    exact ⟨by rw [heng], by rw [heng], by rw [heng, hgsc]⟩
  case awake => rcases hr with hr | hr | hr <;> simp [hr]

end Sys2Proof.Proofs

/-! PROOFS. The statement about fetch, launch, quiesce and the ramp (R20, R199, R206, R208, R209, R213, R215). -/
namespace Sys2Proof.Proofs
open Sys2Proof Sys2Proof.Machine Sys2Proof.Laws

/-! Fetch. -/

section
variable {s : State} {e : Eng}

/-- A fetch that meets no error of the line code and no parity error reads the word as it is stored. -/
theorem engineFetch_stored (s : State) (e : Eng) : engineFetch s e [] false = fetch s e := by
  unfold engineFetch
  dsimp only
  split
  · contradiction
  · split <;> rfl

/-- R208: when an engine fetches. -/
theorem canFetch_of (hst : (getEng s e).st = .running ∨ (getEng s e).st = .waiting) (hq : (getEng s e).quiesceReq = false)
    (hiso : isolated s (engDom e) = false) (hroom : (getEng s e).queue.length < 16) (hstop : (getEng s e).fetchStop = false) :
    canFetch s e = true := by
  simp [canFetch, hst, hq, hiso, hroom, hstop]

/-- R208: an engine that may issue and whose queue is empty fetches unless a branch holds its fetch. -/
theorem canFetch_of_canIssue (h : canIssue s e = true) (hempty : (getEng s e).queue = []) (hstop : (getEng s e).fetchStop = false) :
    canFetch s e = true := by
  simp only [canIssue, Bool.and_eq_true, Bool.or_eq_true, decide_eq_true_eq, Bool.not_eq_true'] at h
  obtain ⟨⟨⟨hst, hq⟩, hiso⟩, -⟩ := h
  exact canFetch_of (hst.imp_right fun hw => hw.1.1) hq hiso (by simp [hempty]) hstop

/-- R208: the engine that has fetched the word at its fetch address. -/
def fetchedEngine (s : State) (e : Eng) : Engine :=
  let g := getEng s e
  let w := (imemWord s e g.fetchPc).1
  { g with
    queue := g.queue ++ [{ idx := g.fetchPc, word := w, wDone := g.marks.head?.getD false, filled := false, staged := none }]
    marks := g.marks.drop 1
    since := if g.queue.isEmpty then s.gsc else g.since
    fetchPc := if iCls w == 0 && iOp w == 0x0C then ifld w 68 12 else g.fetchPc + 1
    fetchStop := iCls w == 0 && iOp w == 0x0D || (iCls w == 0 && iOp w == 0x0C && decide (imemSize e ≤ ifld w 68 12)) }

theorem fetch_good (hcan : canFetch s e = true) (hpc : (getEng s e).fetchPc < imemSize e) (hgood : (imemWord s e (getEng s e).fetchPc).2 = false)
    (hacc : accepts e (iCls (imemWord s e (getEng s e).fetchPc).1) = true)
    (hop : opExists (iCls (imemWord s e (getEng s e).fetchPc).1) (iOp (imemWord s e (getEng s e).fetchPc).1) = true) :
    fetch s e = setEng s e (fetchedEngine s e) := by
  simp only [fetch, fetchAs, hcan, Option.getD_none, hgood, hacc, hop, Bool.not_true, Bool.false_eq_true, if_false, if_neg (Nat.not_le.2 hpc)]
  rfl

/-- R206, R209: a poisoned word that nothing stands before. -/
theorem fetch_poisoned (hcan : canFetch s e = true) (hissue : canIssue s e = true) (hempty : (getEng s e).queue = [])
    (hpc : (getEng s e).fetchPc < imemSize e) (hbad : (imemWord s e (getEng s e).fetchPc).2 = true) :
    fetch s e = faultEngine s e 0x0303 0 (getEng s e).fetchPc false (getEng s e).fetchPc 0 0 := by
  simp [fetch, fetchAs, hcan, hissue, hempty, hbad, Nat.not_le.2 hpc]

/-- R209: a fetch past the last instruction that nothing stands before. -/
theorem fetch_pastEnd (hcan : canFetch s e = true) (hissue : canIssue s e = true) (hempty : (getEng s e).queue = [])
    (hpc : imemSize e ≤ (getEng s e).fetchPc) : fetch s e = faultEngine s e 0x0D03 0 (imemSize e - 1) false 0 0 0 := by
  simp [fetch, fetchAs, hcan, hissue, hempty, hpc]

/-- R208: what a fetch that meets no error shows. -/
theorem fetchedEngine_shows (s : State) (e : Eng) :
    let g := getEng s e
    let w := (imemWord s e g.fetchPc).1
    let t := setEng s e (fetchedEngine s e)
    (getEng t e).queue = g.queue ++ [⟨g.fetchPc, w, g.marks.head?.getD false, false, none⟩]
      ∧ (getEng t e).fetchPc = (if iCls w = 0 ∧ iOp w = 0x0C then ifld w 68 12 else g.fetchPc + 1)
      ∧ (getEng t e).st = g.st ∧ EngsBut [e] s t ∧ Only [.engines] s t := by
  intro g w t
  have heng : getEng t e = fetchedEngine s e := getEng_setEng_same s e _
  refine ⟨congrArg Engine.queue heng, (congrArg Engine.fetchPc heng).trans ?_, (congrArg Engine.st heng :),
    fun e' he => getEng_setEng_other s _ (by simpa using he), only_of _ (setEng_moves s e _) (by decide)⟩
  exact if_congr (by simp [w, g]) rfl rfl

/-! Quiesce. -/

/-- R213: the engine that has reached QUIESCED. -/
def quiescedEngine (s : State) (g : Engine) : Engine :=
  { g with
    st := .quiesced, resumeSt := g.st, quiesceReq := false, marks := g.queue.map (·.wDone) ++ g.marks, queue := []
    fetchPc := enginePc g, fetchStop := false, restored := false
    wait := if lendState s = 3 then g.wait else g.wait.map (holdWait s)
    fwait := if lendState s = 3 then g.fwait else g.fwait.map (holdWait s) }

theorem quiesced_ready (hreq : (getEng s e).quiesceReq = true)
    (hst : (getEng s e).st = .running ∨ (getEng s e).st = .waiting ∨ (getEng s e).st = .armed) (hready : quiesceReady s e = true)
    (hsigs : (getEng s e).sigs = []) : quiesced s e = setEng (holdWork s e) e (quiescedEngine s (getEng s e)) :=
  if_pos ⟨hreq, hst, hready, by rw [hsigs]; rfl⟩

/-- R213: what an engine that has reached QUIESCED shows, after any change of its tile besides. -/
theorem quiescedEngine_shows (s : State) (e : Eng) {t : State} (hm : Moves 0x80 (setEng (holdWork s e) e (quiescedEngine s (getEng s e))) t) :
    (getEng t e).st = .quiesced ∧ (getEng t e).resumeSt = (getEng s e).st ∧ (getEng t e).launch = (getEng s e).launch
      ∧ (getEng t e).fetchPc = enginePc (getEng s e) ∧ (getEng t e).queue = [] ∧ EngsBut [e] s t
      ∧ Only [.engines, .tiles, .ces, .regs] s t := by
  have heng : getEng t e = quiescedEngine s (getEng s e) := (getEng_of_moves hm (by decide) e).trans (getEng_setEng_same ..)
  refine ⟨congrArg Engine.st heng, congrArg Engine.resumeSt heng, (congrArg Engine.launch heng :), congrArg Engine.fetchPc heng,
    congrArg Engine.queue heng, fun e' he => ?others, ?only⟩
  case others =>
    rw [getEng_of_moves hm (by decide), getEng_setEng_other _ _ (by simpa using he), getEng_of_moves (holdWork_moves ..) (by decide)]
  case only =>
    exact only_of _ (m := 0x8000c0)
      (hm.next (by decide) ((setEng_moves ..).next (by decide) ((holdWork_moves s e).le (by decide)))) (by decide)

/-- R213, R490: ENGINE_QUIESCED of an engine whose tile has no check-value unit at work leaves it QUIESCED, and may disarm the units of its
tile. -/
theorem exec_engineQuiesced (hcv : ∀ p k, e = .tile p k → cvState s p 0 < 2 ∧ cvState s p 1 < 2) :
    ∃ t, exec (.engineQuiesced e) s = .next t ∧ Moves 0x80 (quiesced s e) t := by
  cases e with
  | ce c => exact ⟨_, rfl, Moves.refl _ _⟩
  | tile p k =>
    have hidle : (List.range 2).any (fun u => 2 ≤ cvState s p.val u) = false := by
      obtain ⟨h0, h1⟩ := hcv p k rfl
      simp [List.range_succ, h0, h1]
    refine ⟨_, congrArg Host.Outcome.next (if_neg (Bool.eq_false_iff.1 hidle)), ?_⟩
    dsimp only
    split
    · exact cvDisarmAll_moves ..
    · exact Moves.refl _ _

/-! The ramp (R20). -/

/-- R20: the last step of the ramp, if there was one, lies 10 µs back. -/
def RampPaced (s : State) : Prop := getTimer s tmRamp = 0 ∨ getTimer s tmRamp + 10000 ≤ s.gsc

theorem rampStep_up (hp : RampPaced s) (hup : rampUp s = true) (hlt : s.ramp < 9) :
    rampStep s = setTimer { s with ramp := s.ramp + 1 } tmRamp s.gsc := if_pos ⟨hup, hlt, hp⟩

/-- R20: with no engine active the tiles are not brought up. -/
theorem rampUp_idle (h : anyActive s = false) : rampUp s = false := by
  have hnone : ∀ kv ∈ s.engines, spins kv.2 = false := by simpa [anyActive, List.any_eq_false] using h
  simp only [rampUp, h, Bool.and_false, Bool.or_false, List.any_eq_false]
  intro kv hkv
  simp [hnone kv hkv]

theorem rampStep_down (hp : RampPaced s) (hidle : anyActive s = false) (hlt : 0 < s.ramp) :
    rampStep s = setTimer { s with ramp := s.ramp - 1 } tmRamp s.gsc :=
  (if_neg (by simp [rampUp_idle hidle])).trans (if_pos ⟨by simp [hidle], hlt, hp⟩)

theorem rampStep_early (hp : ¬ RampPaced s) : rampStep s = s := (if_neg fun h => hp h.2.2).trans (if_neg fun h => hp h.2.2)

end

/-- Settles O9: a fetch, a launch, a quiesce and a step of the ramp are each one of the cases of its function. -/
theorem fetchLaunchQuiesce : Obligations.FetchLaunchQuiesce := by
  unfold Obligations.FetchLaunchQuiesce
  have frow : ∀ {s u : State} {e : Eng}, fetch s e = u → exec (.engineFetch ⟨e, [], false⟩) s = .next u := fun h =>
    congrArg Host.Outcome.next ((engineFetch_stored _ _).trans h)
  refine ⟨fun e s _ => ?fetch, fun e s _ hissue hempty hstop hpc => ?pastEnd, fun e dt s _ => ?launch, fun e s _ => ?quiesce,
    fun dt s _ => ?ramp⟩
  case fetch =>
    intro g w hst hq hiso hroom hstop hpc
    have hcan := canFetch_of hst hq hiso hroom hstop
    exact ⟨fun hgood hacc hop => ⟨_, frow (fetch_good hcan hpc hgood hacc hop), fetchedEngine_shows s e⟩, fun hbad hempty hissue =>
      ⟨_, frow (fetch_poisoned hcan hissue hempty hpc hbad), faultEngine_faultsWith (faultable_of_canIssue hissue) ..⟩⟩
  case pastEnd =>
    exact ⟨_, frow (fetch_pastEnd (canFetch_of_canIssue hissue hempty hstop) hissue hempty hpc),
      faultEngine_faultsWith (faultable_of_canIssue hissue) ..⟩
  case launch =>
    intro u hiso
    refine ⟨fun hdue => ⟨_, rfl, ?_⟩, fun hdue => congrArg Host.Outcome.next (launch_early hdue)⟩
    obtain ⟨heng, hlate, hregs, hothers, honly⟩ := launch_shows hdue (show isolated u (engDom e) = false from hiso)
    exact ⟨congrArg Engine.st heng, hlate, hregs, hothers,
      only_trans (only_of _ (advance_moves s dt) (by decide)) (only_mono honly (by simp))⟩
  case quiesce =>
    intro g hreq hst hready hsigs hcv
    obtain ⟨t, ht, hm⟩ := exec_engineQuiesced hcv
    rw [quiesced_ready hreq hst hready hsigs] at hm
    exact ⟨t, ht, quiescedEngine_shows s e hm⟩
  case ramp =>
    intro u
    have honly : Only [.gsc, .ramp, .timers] s (rampStep u) :=
      only_trans (only_of _ (advance_moves s dt) (by decide)) (only_of _ (rampStep_moves u) (by decide))
    refine ⟨fun hp => ⟨fun hup hlt => ⟨_, rfl, ?up, honly⟩, fun hidle hlt => ⟨_, rfl, ?down, honly⟩⟩,
      fun hne hlt => congrArg Host.Outcome.next (rampStep_early (s := u) fun hp => hp.elim hne (Nat.not_le.2 hlt))⟩
    case up => exact congrArg State.ramp (rampStep_up (s := u) hp hup hlt)
    case down => exact congrArg State.ramp (rampStep_down (s := u) hp hidle hlt)

end Sys2Proof.Proofs

/-! PROOFS. What a fault of an engine's program leaves alone (R213, R228, R601): the registers outside the fault's own, the record it adds
to the events, and the engine it leaves; and the statement about sy.sub below zero (R244). -/
namespace Sys2Proof.Proofs
open Sys2Proof Sys2Proof.Machine Sys2Proof.Laws

/-! Registers. -/

theorem regsBut_of_moves {m : Nat} {s t : State} (h : Moves m s t) (hm : m.testBit 3 = false) (ks : List Nat) : RegsBut ks s t :=
  regsBut_of_regs ks (h.same .regs hm).symm

/-- R228, R581, R601: the registers that the fault of an engine writes: the count of lost events, the error log and the interrupt status of
its page, its trace head and the registers that show its last fault. -/
def faultKeys (e : Eng) : List Nat :=
  fldKey 14 EB_EV_LOST 0 0 :: pKey e H_ERR_LOG_CODE :: pKey e H_IRQ_STATUS_FAULT :: (traceKeys e ++ lastFaultKeys e)

/-- R581: an event that is delivered writes no register but the count of those lost. -/
theorem regsBut_pushEvent (s : State) (ev : EbEvent) : RegsBut [fldKey 14 EB_EV_LOST 0 0] s (pushEvent s ev) := by
  have lost : RegsBut [fldKey 14 EB_EV_LOST 0 0] s (addF s EB_EV_LOST 0 1) := regsBut_wrF s 14 EB_EV_LOST 0 0 _
  have put : ∀ u, RegsBut [fldKey 14 EB_EV_LOST 0 0] u (putEvent u ev) := fun _ _ _ => rfl
  unfold pushEvent
  dsimp only
  split
  · split
    · exact put s
    · split
      · exact regs_trans lost fun _ _ => rfl
      · exact regs_trans lost fun _ _ => rfl
  · exact put s

/-- R601: a record writes the error log and the interrupt status of its page. -/
theorem regsBut_logErr (s : State) (b inst code : Nat) :
    RegsBut [fldKey b H_ERR_LOG_CODE inst 0, fldKey b H_IRQ_STATUS_FAULT inst 0] s (logErr s b inst code) := by
  have log : ∀ (f : Fld) (u : State) (v : Nat), f ∈ [H_ERR_LOG_CODE, H_ERR_LOG_COUNT, H_ERR_LOG_VALID, H_ERR_LOG_GSC, H_IRQ_STATUS_FAULT] →
      RegsBut [fldKey b H_ERR_LOG_CODE inst 0, fldKey b H_IRQ_STATUS_FAULT inst 0] u (wrF u b f inst 0 v) := fun f u v hf => by
    have hkey : fldKey b f inst 0 = fldKey b H_ERR_LOG_CODE inst 0 ∨ fldKey b f inst 0 = fldKey b H_IRQ_STATUS_FAULT inst 0 := by
      simp only [List.mem_cons, List.not_mem_nil, or_false] at hf
      rcases hf with rfl | rfl | rfl | rfl | rfl <;> simp [fldKey, H_ERR_LOG_CODE, H_ERR_LOG_COUNT, H_ERR_LOG_VALID, H_ERR_LOG_GSC]
    exact regs_mono (regsBut_wrF u b f inst 0 v) (by simpa using hkey)
  exact regs_trans (regs_trans (regs_trans (regs_trans (log H_ERR_LOG_CODE s _ (by simp)) (log H_ERR_LOG_COUNT _ _ (by simp)))
    (log H_ERR_LOG_VALID _ _ (by simp))) (log H_ERR_LOG_GSC _ _ (by simp))) (log H_IRQ_STATUS_FAULT _ _ (by simp))

theorem regsBut_faultRaised (s : State) (e : Eng) (code tag pc : Nat) (t : Bool) (addr space detail : Nat) :
    RegsBut (faultKeys e) s (faultRaised s e code tag pc t addr space detail) := by
  obtain ⟨u, hu⟩ : ∃ u, traceEv s e t tag pc 4 code = u := ⟨_, rfl⟩
  have traced : RegsBut (faultKeys e) s u :=
    hu ▸ regs_mono (traceEv_regs s e t tag pc 4 code) (by simp +contextual [faultKeys])
  have shown := regs_trans traced (regs_mono (regsBut_setLastFault u e code tag) (by simp +contextual [faultKeys]))
  rw [faultRaised, raise, hu]
  have pushed := regs_trans shown (regs_mono (regsBut_pushEvent _ (.fault (faultRec s e code tag pc addr space detail))) (by simp [faultKeys]))
  exact regs_trans (regs_trans pushed (regsBut_of_moves (ashFault_moves _ _) (by decide) _))
    (regs_mono (regsBut_logErr _ _ _ _) (by simp [faultKeys, pKey]))

section
variable {s : State} {e : Eng} (code tag pc : Nat) (t : Bool) (addr space detail : Nat)

/-- What a fault does after its record has been raised, or nothing where the program may not fault. -/
theorem faultEngine_moves_raised : Moves 0x9003c0 (faultRaised s e code tag pc t addr space detail) (faultEngine s e code tag pc t addr space detail) := by
  by_cases h : Faultable s e
  · rw [faultEngine_eq h]
    exact (stopWork_moves ..).next (by decide) ((setEng_moves ..).next (by decide)
      ((takeBackMark_moves ..).next (by decide) ((takeBackBar_moves ..).le (by decide))))
  · rw [faultEngine_idle h]
    exact Moves.refl _ _

theorem regsBut_faultEngine : RegsBut (faultKeys e) s (faultEngine s e code tag pc t addr space detail) :=
  regs_trans (regsBut_faultRaised s e code tag pc t addr space detail)
    (regsBut_of_moves (faultEngine_moves_raised code tag pc t addr space detail) (by decide) _)

/-! Engines and events. -/

/-- R213: the engine of a program that may fault. -/
theorem getEng_faultEngine (h : Faultable s e) : getEng (faultEngine s e code tag pc t addr space detail) e = faultedEngine (getEng s e) := by
  rw [faultEngine_eq h, getEng_of_moves (stopWork_moves ..) (by decide), getEng_setEng_same]

/-- R213: a fault leaves every engine whose program it does not stop. -/
theorem getEng_faultEngine_other {e' : Eng} (h : e' ≠ e ∨ ¬ Faultable s e') :
    getEng (faultEngine s e code tag pc t addr space detail) e' = getEng s e' := by
  by_cases hf : Faultable s e
  · have hne : e' ≠ e := h.elim id fun hn he => hn (he ▸ hf)
    exact (faultEngine_faultsWith hf ..).others e' (by simpa using hne)
  · rw [faultEngine_idle hf, getEng_faultRaised]

/-- R581: a record that finds room is the last of the events. -/
theorem events_raise (s : State) (b inst : Nat) (r : FaultRec) (h : s.eb.events.length < 3840) :
    (raise s b inst r).eb.events = s.eb.events ++ [(s.eb.evSeq, .fault r)] := by
  have hlog : (ashFault (pushEvent s (.fault r)) r).eb = (raise s b inst r).eb := (logErr_moves _ b inst r.code).same .eb (by decide)
  have hash : (pushEvent s (.fault r)).eb = (ashFault (pushEvent s (.fault r)) r).eb := (ashFault_moves _ r).same .eb (by decide)
  rw [← hlog, ← hash, pushEvent, if_pos h]
  rfl

/-- R228, R581: a fault that finds room in the queue of events adds its record. -/
theorem events_faultEngine (h : s.eb.events.length < 3840) : (faultEngine s e code tag pc t addr space detail).eb.events =
    s.eb.events ++ [(s.eb.evSeq, .fault (faultRec s e code tag pc addr space detail))] := by
  obtain ⟨-, heb⟩ := faultRec_traced s e code tag pc t addr space detail
  have hsame : (faultRaised s e code tag pc t addr space detail).eb = (faultEngine s e code tag pc t addr space detail).eb :=
    (faultEngine_moves_raised ..).same .eb (by decide)
  rw [← hsame, faultRaised, events_raise _ _ _ _ (heb ▸ h), heb]

end

/-- R268, R269: of a sync or barrier page a fault writes the interrupt status, the error log and the last fault alone. -/
theorem regKey_not_fault (e : Eng) {b i off : Nat} (hb : b = 6 ∨ b = 7) (hi : i < 256) (hoff : off < 4096) (h : off ≠ 32 ∧ off ≠ 48 ∧ off ≠ 68) :
    regKey b i off ∉ faultKeys e := by
  rcases e with ⟨r, _ | _ | _ | _⟩ | r
  all_goals
    have := r.isLt
    simp only [faultKeys, List.mem_cons, List.mem_append, lastFaultKeys, traceKeys, List.not_mem_nil, or_false, false_or, pKey, fldKey,
      regKey, engBlk, engInst, TL_TRACE_HEAD_NEXT, EB_EV_LOST, H_ERR_LOG_CODE, H_IRQ_STATUS_FAULT, MX_LAST_FAULT_CODE, VX_LAST_FAULT_CODE, DM_LAST_FAULT_CODE,
      CE_LAST_FAULT_CODE, SY_LAST_FAULT_CODE, BA_LAST_FAULT_CODE]
    omega

/-- R244: the registers that a fault writes hold no counter. -/
theorem ctrKey_not_fault (e : Eng) {p c : Nat} (hp : p < 72) (hc : c < 256) : ctrKey p c ∉ faultKeys e :=
  regKey_not_fault e (.inl rfl) (by omega) (by simp only [SY_CTR]; omega) (by simp only [SY_CTR]; omega)

/-- R244: an sy.sub that would pass 0 faults. -/
theorem doSySub_underflow {s : State} {e : Eng} {q : QEntry} {p : Nat} (h : ReadyCtl s e 4 0x82 [(0, 48)] q) (hp : homeOf s e = some p)
    (hc : getCtr s p (ifld q.word 72 8) < ifld q.word 48 24) : doSySub s e = faultQ s e q 0x0201 0 0 0 := by
  rw [doSySub, runCtl_ready h]
  simp only [hp, if_pos hc]

/-- Settles O13: the subtraction is not made, and the registers of the fault hold no counter. -/
theorem underflowFaults : Obligations.UnderflowFaults := by
  unfold Obligations.UnderflowFaults
  intro e s q p _ hp hlt h hc
  exact ⟨_, congrArg Host.Outcome.next (doSySub_underflow h hp hc), faultQ_faultsWith h ..,
    getCtr_of_regsBut (regsBut_faultEngine _ _ _ _ _ _ _) (ctrKey_not_fault e hlt (bits_lt ..))⟩

end Sys2Proof.Proofs

/-! PROOFS. Signals to other tiles (R248 to R250): the cases of sy.sig, the SIGNAL packet and what is kept of it until it is acknowledged,
and its timeout. -/
namespace Sys2Proof.Proofs
open Sys2Proof Sys2Proof.Machine Sys2Proof.Laws

/-! The cases of sy.sig. -/

/-- R248: the endpoint that an sy.sig names. -/
def sigEp (s : State) (e : Eng) (w : IWord) : Nat := (getG s e (ifld w 75 5)).toNat % 2 ^ 24

/-- R502: the engine's tile is under test. -/
def underTest (s : State) : Eng → Bool
  | .tile p _ => ptileOf s p.val == 2
  | .ce _ => false

theorem underTest_iff (s : State) (e : Eng) : underTest s e = true ↔ ∃ p k, e = .tile p k ∧ ptileOf s p = 2 := by
  cases e <;> simp [underTest]

/-- R4, R248, R502: an sy.sig that cannot reach a tile: its engine's tile is under test, or the map lacks the tile of this GW7 named. -/
def sigAbsent (s : State) (e : Eng) (w : IWord) : Bool :=
  underTest s e || (sigEp s e w / 256 == nodeId s && (physOf s (sigEp s e w % 256)).isNone)

/-- R208, R230: the instruction at issue in an engine has left the queue and is traced. -/
def issuedFront (s : State) (e : Eng) (q : QEntry) : State := traceEv (popFront s e) e (iT q.word) (iTag q.word) q.idx 2 0

/-- R249: what an engine keeps of an sy.sig that it has sent. -/
def sigKept (s : State) (e : Eng) (q : QEntry) : SigOut :=
  let u := issuedFront s e q
  ⟨freeSig s e, iTag q.word, q.idx, iSig q.word, sigEp s e q.word / 256 = nodeId u, u.gsc, iT q.word, sigEp s e q.word, ifld q.word 67 8⟩

/-- R249: the state in which an sy.sig has left its queue and is kept as sent. -/
def sigNoted (s : State) (e : Eng) (q : QEntry) : State :=
  modEng (issuedFront s e q) e (fun g => { g with sigs := g.sigs ++ [sigKept s e q] })

/-- R248: its packet. -/
def sigPacket (s : State) (e : Eng) (q : QEntry) : Packet :=
  let u := sigNoted s e q
  { request u (engUnit u e) 4 (BitVec.ofNat 24 (sigEp s e q.word)) (domGenOf u e * 256 + freeSig s e) 0 with
    rctr := BitVec.ofNat 8 (ifld q.word 67 8), addr := BitVec.ofNat 40 (ifld q.word 43 24), last := true }

section
variable {s : State} {e : Eng} {q : QEntry}

/-- R248 to R250: an sy.sig that is ready names no tile, names an absent one, waits for a place, or is sent. -/
theorem doSySig_eq (h : ReadyCtl s e 4 0x83 [(0, 43)] q) : doSySig s e =
    if 0x40 ≤ sigEp s e q.word % 256 then faultQ s e q 0x0207 0 0 0
    else if sigAbsent s e q.word then faultQ s e q 0x0101 0 0 0
    else if 16 ≤ (getEng s e).sigs.length then beginWait s e q .sysig (ifld q.word 67 8) (ifld q.word 43 24)
    else sendPkt (sigNoted s e q) (sigPacket s e q) := by
  rw [doSySig, runCtl_ready h]
  rfl

/-! The signal that is sent. -/

theorem issuedFront_moves : Moves 0xc8 s (issuedFront s e q) :=
  (traceEv_moves ..).next (by decide) ((popFront_moves s e).le (by decide))

/-- R208: the engine that has issued its front instruction. -/
theorem getEng_issuedFront : getEng (issuedFront s e q) e = { getEng s e with queue := (getEng s e).queue.drop 1, since := s.gsc } :=
  (getEng_traceEv ..).trans (getEng_setEng_same s e _)

theorem engsBut_issuedFront : EngsBut [e] s (issuedFront s e q) := fun _ he =>
  (getEng_traceEv ..).trans (getEng_setEng_other s _ (by simpa using he))

theorem regsBut_issuedFront : RegsBut (traceKeys e) s (issuedFront s e q) :=
  regs_trans (t := popFront s e) (regsBut_of_regs _ rfl) (traceEv_regs _ _ _ _ _ _ _)

/-- R249: an engine that has noted its signal keeps it after those before it. -/
theorem getEng_sigNoted : getEng (sigNoted s e q) e = { getEng s e with
    queue := (getEng s e).queue.drop 1, since := s.gsc, sigs := (getEng s e).sigs ++ [sigKept s e q] } := by
  rw [sigNoted, modEng, getEng_setEng_same, getEng_issuedFront]

/-- R248: the packet names the endpoint, the counter and the value, and carries the job generation. -/
theorem sigPacket_shows : (sigPacket s e q).typ = 4 ∧ (sigPacket s e q).dst.toNat = sigEp s e q.word
    ∧ (sigPacket s e q).rctr.toNat = ifld q.word 67 8 ∧ (sigPacket s e q).addr.toNat = ifld q.word 43 24
    ∧ (sigPacket s e q).gen.toNat = jobGen s := by
  have hgen : jobGen (sigNoted s e q) = jobGen s := jobGen_of_regsBut (ks := traceKeys e) regsBut_issuedFront (jobGen_not_trace e)
  have hep : sigEp s e q.word < 2 ^ 24 := Nat.mod_lt _ (by decide)
  have hctr : ifld q.word 67 8 < 2 ^ 8 := bits_lt ..
  have hval : ifld q.word 43 24 < 2 ^ 24 := bits_lt ..
  have hjob : jobGen s < 2 ^ 8 := bits_lt ..
  refine ⟨rfl, ?_, ?_, ?_, ?_⟩
  · exact Nat.mod_eq_of_lt hep
  · exact Nat.mod_eq_of_lt hctr
  · exact Nat.mod_eq_of_lt (by omega)
  · exact (congrArg (· % 2 ^ 8) hgen).trans (Nat.mod_eq_of_lt hjob)

theorem sigSent_only : Only [.regs, .engines, .tiles, .router] s (sendPkt (sigNoted s e q) (sigPacket s e q)) :=
  only_of _ (m := 0x1000c8) ((sendPkt_moves ..).next (by decide) ((modEng_moves ..).next (by decide) (issuedFront_moves.le (by decide))))
    (by decide)

end

/-! The signal that is late. -/

/-- What a fault of an engine shows of a state it shows of the one before the engine's own data were changed. -/
theorem faultsWith_of_setEng {s t : State} {e : Eng} {x : Engine} {code tag pc : Nat} (h : FaultsWith (setEng s e x) t e code tag pc) :
    FaultsWith s t e code tag pc := by
  have hunit : engUnit (setEng s e x) e = engUnit s e := engUnit_of_moves (setEng_moves s e x) (by decide) e
  refine ⟨h.st, fun hroom => ?_, fun e' he => (h.others e' he).trans (getEng_setEng_other s x (by simpa using he))⟩
  obtain ⟨r, hev, hcode, hu, hrest⟩ := h.event hroom
  exact ⟨r, hev, hcode, hu.trans hunit, hrest⟩

/-- The first element of a list with a property, found where none before it has it. -/
theorem find?_of_getElem? {α : Type} {l : List α} {k : Nat} {x : α} {p : α → Bool} (hk : l[k]? = some x) (hx : p x = true)
    (h : ∀ y ∈ l.take k, p y = false) : l.find? p = some x := by
  obtain ⟨hlt, hget⟩ := List.getElem?_eq_some_iff.1 hk
  have hsplit : l = l.take k ++ x :: l.drop (k + 1) := by rw [← hget, ← List.drop_eq_getElem_cons hlt, List.take_append_drop]
  have hnone : (l.take k).find? p = none := List.find?_eq_none.2 fun y hy => by simp [h y hy]
  rw [hsplit, List.find?_append, hnone]
  simp [hx]

section
variable {s : State} {e : Eng} {k : Nat} {x : SigOut}

theorem sigTimeout_early (hk : (getEng s e).sigs[k]? = some x) (h : s.gsc < x.since + (if x.own then 100000 else 10000000)) :
    sigTimeout s e k = s := by
  simp only [sigTimeout, hk, if_neg (Nat.not_le.2 h)]

/-- R249: an sy.sig that has waited too long is kept no more, and its program faults. -/
theorem sigTimeout_late (hk : (getEng s e).sigs[k]? = some x) (hfirst : ∀ y ∈ (getEng s e).sigs.take k, y.num ≠ x.num)
    (h : x.since + (if x.own then 100000 else 10000000) ≤ s.gsc) : sigTimeout s e k =
    faultEngine (setEng s e { getEng s e with sigs := (getEng s e).sigs.filter (fun y => y.num != x.num) }) e 0x0403 x.tag x.pc x.t 0 0 0 := by
  have hfind : (getEng s e).sigs.find? (fun y => y.num == x.num) = some x :=
    find?_of_getElem? hk (beq_self_eq_true _) fun y hy => by simpa using hfirst y hy
  simp only [sigTimeout, hk, if_pos h, sigFailed, hfind, modEng]

/-- R213, R249: what the fault of a late sy.sig shows. -/
theorem sigTimeout_shows (hf : Faultable s e) (n tag pc : Nat) (tr : Bool) :
    let t := faultEngine (setEng s e { getEng s e with sigs := (getEng s e).sigs.filter (fun y => y.num != n) }) e 0x0403 tag pc tr 0 0 0
    FaultsWith s t e 0x0403 tag pc ∧ ∀ y ∈ (getEng t e).sigs, y.num ≠ n := by
  intro t
  obtain ⟨g, hg⟩ : ∃ g : Engine, { getEng s e with sigs := (getEng s e).sigs.filter (fun y => y.num != n) } = g := ⟨_, rfl⟩
  have hown : getEng (setEng s e g) e = g := getEng_setEng_same s e g
  have hfault : Faultable (setEng s e g) e := by
    rw [Faultable, hown, ← hg]
    exact hf
  have ht : t = faultEngine (setEng s e g) e 0x0403 tag pc tr 0 0 0 := by rw [← hg]
  rw [ht]
  refine ⟨faultsWith_of_setEng (faultEngine_faultsWith hfault ..), ?_⟩
  rw [getEng_faultEngine _ _ _ _ _ _ _ hfault, hown, ← hg]
  simp [faultedEngine]

end

/-- Settles O15: each case of an sy.sig shows the packet, the wait or the fault of its branch, and a signal times out at its own limit. -/
theorem signalsSent : Obligations.SignalsSent := by
  unfold Obligations.SignalsSent
  refine ⟨fun e s q _ => ?issue, fun e k dt s x _ hk => ⟨fun hfirst hst hlate => ?late, fun hearly => ?early⟩⟩
  case issue =>
    intro w ep h
    have hrow : exec (.sySig e) s = .next (doSySig s e) := rfl
    refine ⟨fun hlow htest hmap => ?reaches, fun hhigh => ?badTarget, fun hlow habs => ?absent⟩
    case reaches =>
      have hpresent : sigAbsent s e w = false := by
        have htest' : underTest s e = false := Bool.eq_false_iff.2 fun hu => by
          obtain ⟨p, k, he, hp⟩ := (underTest_iff s e).1 hu
          exact htest p k he hp
        simpa [sigAbsent, htest', ep, sigEp] using hmap
      have heq := (doSySig_eq h).trans ((if_neg (Nat.not_le.2 hlow)).trans (if_neg (Bool.eq_false_iff.1 hpresent)))
      refine ⟨fun hroom => ⟨_, hrow.trans (congrArg Host.Outcome.next (heq.trans (if_neg (Nat.not_le.2 hroom)))), ?sent⟩,
        fun hfull => ⟨_, hrow.trans (congrArg Host.Outcome.next (heq.trans (if_pos hfull))), ?waits⟩⟩
      case sent =>
        have hinject : s.router = (sigNoted s e q).router :=
          ((modEng_moves (issuedFront s e q) e _).next (by decide) (issuedFront_moves.le (m := 0xc8) (by decide))).same .router (by decide)
        have hgsc : s.gsc = (issuedFront s e q).gsc := issuedFront_moves.same .gsc (by decide)
        obtain ⟨htyp, hdst, hrctr, haddr, hgen⟩ := sigPacket_shows (s := s) (e := e) (q := q)
        have heng := getEng_sigNoted (s := s) (e := e) (q := q)
        refine ⟨⟨sigPacket s e q, sigKept s e q, ?_, htyp, hdst, hrctr, haddr, hgen, congrArg Engine.sigs heng, rfl, rfl, rfl, hgsc.symm⟩,
          congrArg Engine.queue heng, (congrArg Engine.st heng :), regsBut_issuedFront, fun e' he => ?_, sigSent_only⟩
        · rw [hinject]
          rfl
        · exact (getEng_setEng_other _ _ (by simpa using he)).trans (engsBut_issuedFront e' he)
      case waits =>
        obtain ⟨heng, -, -, honly⟩ := beginWait_shows s e q .sysig (ifld w 67 8) (ifld w 43 24)
        exact ⟨congrArg Engine.st heng, congrArg Engine.wait heng, (congrArg Engine.queue heng :), (honly .router (by decide)).symm, honly⟩
    case badTarget =>
      exact ⟨_, hrow.trans (congrArg Host.Outcome.next ((doSySig_eq h).trans (if_pos hhigh))), faultQ_faultsWith h ..⟩
    case absent =>
      have habsent : sigAbsent s e w = true := by
        rcases habs with ⟨hn, hp⟩ | htest
        · have hp' : physOf s (sigEp s e w % 256) = none := hp
          have hn' : sigEp s e w / 256 = nodeId s := hn
          simp [sigAbsent, hn', hp']
        · simp [sigAbsent, (underTest_iff s e).2 htest]
      exact ⟨_, hrow.trans (congrArg Host.Outcome.next ((doSySig_eq h).trans ((if_neg (Nat.not_le.2 hlow)).trans (if_pos habsent)))),
        faultQ_faultsWith h ..⟩
  case late =>
    have hfault : Faultable (advance s dt) e := hst.imp_right .inl
    exact ⟨_, congrArg Host.Outcome.next (sigTimeout_late (s := advance s dt) hk hfirst hlate), sigTimeout_shows hfault ..⟩
  case early => exact congrArg Host.Outcome.next (sigTimeout_early (s := advance s dt) hk hearly)

end Sys2Proof.Proofs

/-! PROOFS. Barrier contexts (R254 to R260): what the completion of a round leaves of a context, the registers of a context's page, and the
statement about their configuration. -/
namespace Sys2Proof.Proofs
open Sys2Proof Sys2Proof.Machine Sys2Proof.Laws

/-! The completion of a round. -/

theorem getCtx_of_moves {m : Nat} {s t : State} (h : Moves m s t) (hm : m.testBit 8 = false) (x : Nat) : getCtx t x = getCtx s x := by
  have hs : s.ctxs = t.ctxs := h.same .ctxs hm
  rw [getCtx, getCtx, hs]

/-- R257, R407: of the contexts, only context `x` may have changed, and of it only whether its releases are under way and whether its
share of a cross-chip round is out. -/
structure RoundKept (x : Nat) (s t : State) : Prop where
  own : ∃ l g, getCtx t x = { getCtx s x with leaving := l, globalPend := g }
  others : ∀ x', x' ≠ x → getCtx t x' = getCtx s x'

theorem RoundKept.trans {x : Nat} {s t u : State} (h : RoundKept x s t) (k : RoundKept x t u) : RoundKept x s u := by
  obtain ⟨l, g, hown⟩ := h.own
  obtain ⟨l', g', hown'⟩ := k.own
  exact ⟨⟨l', g', by rw [hown', hown]⟩, fun x' hx => (k.others x' hx).trans (h.others x' hx)⟩

theorem roundKept_of_getCtx {s t : State} (x : Nat) (h : ∀ x', getCtx t x' = getCtx s x') : RoundKept x s t :=
  ⟨⟨_, _, h x⟩, fun x' _ => h x'⟩

theorem roundKept_of_moves {m : Nat} {s t : State} (x : Nat) (h : Moves m s t) (hm : m.testBit 8 = false) : RoundKept x s t :=
  roundKept_of_getCtx x (getCtx_of_moves h hm)

theorem roundKept_setCtx (s : State) (x : Nat) (l g : Bool) : RoundKept x s (setCtx s x { getCtx s x with leaving := l, globalPend := g }) :=
  ⟨⟨l, g, getCtx_setCtx_same ..⟩, fun _ hx => getCtx_setCtx_other s _ hx⟩

theorem roundKept_torusReleased (s : State) (x : Nat) : RoundKept x s (torusReleased s x) := by
  unfold torusReleased
  dsimp only
  split
  · exact roundKept_setCtx s x true false
  · exact roundKept_of_getCtx x fun _ => rfl

theorem roundKept_torusRelease (s : State) (x : Nat) (upto : List Nat) : RoundKept x s (torusRelease s x upto) := by
  have sent : Moves 0x100000 s (upto.reverse.foldl (fun s a => sendMulticast s a (0x40 + ctxCe s x) (barPacket s x a 6 0)) s) :=
    Moves.foldl _ (fun u a => sendMulticast_moves ..) s (Moves.refl _ s)
  exact (roundKept_of_moves x sent (by decide)).trans (roundKept_torusReleased _ x)

/-- R407: the share of this GW7 arrives axis by axis. -/
theorem roundKept_torusArrive (x : Nat) (all : List Nat) : ∀ (axes : List Nat) (s : State), RoundKept x s (torusArrive x all axes s)
  | [], s => roundKept_torusRelease s x all
  | a :: axes, s => by
    unfold torusArrive
    dsimp only
    split
    · exact roundKept_of_moves x (sendPkt_moves ..) (by decide)
    · have counted := roundKept_of_moves x (setBar_moves s a x { getBar s a x with own := true }) (by decide)
      split
      · exact counted.trans (roundKept_torusArrive x all axes _)
      · exact counted

/-- R257: the completion of a round starts the releases, or sends out this GW7's share. -/
theorem roundKept_checkRound (s : State) (x : Nat) : RoundKept x s (checkRound s x) := by
  unfold checkRound
  dsimp only
  split
  · split
    · exact (roundKept_setCtx s x (getCtx s x).leaving true).trans (roundKept_torusArrive ..)
    · exact roundKept_setCtx s x true (getCtx s x).globalPend
  · exact roundKept_of_getCtx x fun _ => rfl

/-- R257: a round that is not complete goes on. -/
theorem checkRound_open {s : State} {x : Nat} (h : (getCtx s x).cur ≠ (members s x).length ∨ (getCtx s x).cur = 0 ∧ ctxMode s x ≠ 3) :
    checkRound s x = s :=
  if_neg fun ⟨_, _, _, hlen, hne⟩ => h.elim (fun hl => hl hlen) fun ⟨h0, h3⟩ => hne.elim (fun hn => hn h0) h3

/-- R257: the last arrival of a context that is not TORUS starts the releases. -/
theorem checkRound_complete {s : State} {x : Nat} (hst : (getCtx s x).cstate = 1) (hl : (getCtx s x).leaving = false)
    (hg : (getCtx s x).globalPend = false) (hlen : (getCtx s x).cur = (members s x).length) (h0 : (getCtx s x).cur ≠ 0)
    (hmode : ctxMode s x ≠ 3) : checkRound s x = setCtx s x { getCtx s x with leaving := true } :=
  (if_pos ⟨hst, by simp [hl], by simp [hg], hlen, .inl h0⟩).trans (if_neg hmode)

/-! The registers of a context. -/

/-- R259: the register that a BA_CFG_WRITE names. -/
def baKey (x reg : Nat) : Nat := if reg = 0 then regKey 7 (1 + x) 0x40 else regKey 7 (1 + x) (0x50 + 4 * (reg - 1))

/-- R269: one past the largest value of the register. -/
def baMask (reg : Nat) : Nat := if reg = 0 then 2 ^ 10 else if reg = 9 then 2 ^ 4 else 2 ^ 32

/-- R259: the state in which the register has been written. -/
def baSet (s : State) (x reg : Nat) (v : Word) : State := regSet s (baKey x reg) (BitVec.ofNat 64 (v.toNat % baMask reg))

/-- R260: a LOCAL mask names a member of another tile than TILE. -/
abbrev LocalBroken (s : State) (x : Nat) : Prop :=
  ctxMode s x = 1 ∧ (members s x).any (fun m => m / 4 != getF s BA_CFG_TILE (1 + x)) = true

/-- R259: some engine waits at the context. -/
def cfgWaited (s : State) (x : Nat) : Bool :=
  (members s x).any (fun m => match engOfMember s m with
    | none => false
    | some e => ((getEng s e).st == .waiting || (getEng s e).st == .quiesced) && waitsAt s e x)

/-- R259: a context that may not be written. -/
def CtxBusy (s : State) (x : Nat) : Prop := (getCtx s x).cstate = 1 ∨ cfgWaited s x = true

/-- R259, R260: a context that is made ACTIVE: its members' round bits and its cross-chip counts start afresh. -/
def cfgStarted (s : State) (x : Nat) : State :=
  let u := (members s x).foldl (fun s m => match engOfMember s m with
    | none => s
    | some e => modEng s e (fun g => { g with rbits := if bit g.rbits x then g.rbits - 2 ^ x else g.rbits })) s
  setCtx (dropBars u x) x { BaCtx.reset with cstate := 1 }

section
variable {s : State} {x : Nat}

/-! The cases of BA_CFG_WRITE. -/

theorem writeBaCfg_busy (h : CtxBusy s x) (reg : Nat) (v : Word) : writeBaCfg s x reg v = setF s BA_STATUS_CFG_ERR 0 1 := if_pos h

/-- R259, R260: a write that is not refused for its mask stands, and one of BA_CFG makes the context IDLE or ACTIVE. -/
theorem writeBaCfg_open (h : ¬ CtxBusy s x) (reg : Nat) (v : Word) : writeBaCfg s x reg v =
    if LocalBroken (baSet s x reg v) x then setF s BA_STATUS_CFG_ERR 0 1
    else if reg ≠ 0 then baSet s x reg v
    else if ctxMode (baSet s x reg v) x = 0 then setCtx (baSet s x reg v) x { getCtx s x with cstate := 0 }
    else checkRound (cfgStarted (baSet s x reg v) x) x := if_neg h

/-- R269: a refusal shows in CFG_ERR alone. -/
theorem cfgErr_shows (s : State) : getF (setF s BA_STATUS_CFG_ERR 0 1) BA_STATUS_CFG_ERR 0 = 1
    ∧ RegsBut [fldKey 7 BA_STATUS_CFG_ERR 0 0] s (setF s BA_STATUS_CFG_ERR 0 1) ∧ Only [.regs] s (setF s BA_STATUS_CFG_ERR 0 1) :=
  ⟨getF_setF_same s _ 0 1 (by decide), regsBut_wrF s 7 _ 0 0 1, only_of _ (setF_moves ..) (by decide)⟩

theorem not_cfgWaited (h : ∀ e, waitsAt s e x = false) : cfgWaited s x = false := by
  refine List.any_eq_false.2 fun m _ => ?_
  split <;> simp [h]

theorem cfgWaited_of {m : Nat} {e : Eng} (hm : m ∈ members s x) (he : engOfMember s m = some e)
    (hst : (getEng s e).st = .waiting ∨ (getEng s e).st = .quiesced) (hw : waitsAt s e x = true) : cfgWaited s x = true := by
  refine List.any_eq_true.2 ⟨m, hm, ?_⟩
  simp only [he, hw, Bool.and_true]
  simpa using hst

/-! The registers that are written. -/

theorem regsBut_baSet (s : State) (x reg : Nat) (v : Word) : RegsBut [baKey x reg] s (baSet s x reg v) := regsBut_regSet s _ _

theorem toNat_baSet (s : State) (x reg : Nat) (v : Word) : (regGet (baSet s x reg v) (baKey x reg)).toNat = v.toNat % baMask reg := by
  have hlt : v.toNat % baMask reg < 2 ^ 64 := Nat.lt_of_le_of_lt (Nat.mod_le ..) (by omega)
  rw [baSet, regGet_regSet_same, BitVec.toNat_ofNat, Nat.mod_eq_of_lt hlt]

/-- R269: a field of BA_CFG that has been written. -/
theorem getF_baSet_cfg (s : State) (x : Nat) (v : Word) {f : Fld} (hkey : fldKey f.blk f (1 + x) 0 = baKey x 0) (hf : f.lo + f.len ≤ 10) :
    getF (baSet s x 0 v) f (1 + x) = bits v.toNat f.lo f.len := by
  rw [getF, rdF, hkey, toNat_baSet]
  exact bits_mod _ hf

/-- R254: the members are read from the mask registers. -/
theorem members_of_getFi {t : State} (h : ∀ i < 9, getFi t BA_MASK_MEMBERS (1 + x) i = getFi s BA_MASK_MEMBERS (1 + x) i) :
    members t x = members s x := by
  refine List.filter_congr fun m hm => ?_
  have := List.mem_range.1 hm
  rw [inMask, inMask, h _ (by omega)]

theorem members_baSet_cfg (s : State) (x : Nat) (v : Word) : members (baSet s x 0 v) x = members s x := by
  refine members_of_getFi fun i _ => ?_
  have hkey : fldKey 7 BA_MASK_MEMBERS (1 + x) i ∉ [baKey x 0] := by
    simp only [List.mem_singleton, fldKey, baKey, regKey, BA_MASK_MEMBERS, if_true]
    omega
  rw [getFi, getFi, rdF, rdF]
  exact congrArg (fun v : DWord => bits v.toNat 0 32) (regsBut_baSet s x 0 v _ hkey)

/-- R269: the mask registers follow BA_CFG. -/
theorem baKey_mask (x i : Nat) : baKey x (1 + i) = fldKey 7 BA_MASK_MEMBERS (1 + x) i := by
  simp only [baKey, fldKey, regKey, BA_MASK_MEMBERS, show 1 + i ≠ 0 by omega, if_false]
  omega

theorem getFi_baSet_mask (s : State) (x : Nat) {i : Nat} (hi : i < 9) (v : Word) :
    getFi (baSet s x (1 + i) v) BA_MASK_MEMBERS (1 + x) i = if i = 8 then v.toNat % 16 else v.toNat := by
  have hread : getFi (baSet s x (1 + i) v) BA_MASK_MEMBERS (1 + x) i = bits (v.toNat % baMask (1 + i)) 0 32 := by
    rw [← toNat_baSet s x, baKey_mask]
    rfl
  have := v.isLt
  rw [hread, baMask, if_neg (by omega), bits]
  by_cases h8 : i = 8
  · rw [if_pos (by omega), if_pos h8]
    omega
  · rw [if_neg (by omega), if_neg h8]
    omega

/-- R254, R269: a set bit of the written mask is a member. -/
theorem mem_members_baSet (s : State) (x : Nat) {i : Nat} (hi : i < 9) (v : Word) {j : Nat} (hj : j < if i = 8 then 4 else 32)
    (hset : bit v.toNat j = true) : 32 * i + j ∈ members (baSet s x (1 + i) v) x := by
  have hj32 : j < 32 ∧ (i = 8 → j < 4) := by split at hj <;> omega
  refine List.mem_filter.2 ⟨List.mem_range.2 (by omega), ?_⟩
  rw [inMask, show (32 * i + j) / 32 = i by omega, show (32 * i + j) % 32 = j by omega, getFi_baSet_mask s x hi]
  split
  · rw [bit, show 16 = 2 ^ 4 from rfl, Nat.testBit_mod_two_pow]
    simpa [hj32.2 ‹_›, bit] using hset
  · exact hset

/-- R269: a mask that is written leaves BA_CFG. -/
theorem getF_baSet_mask (s : State) (x i : Nat) (v : Word) {f : Fld} (hkey : fldKey f.blk f (1 + x) 0 = baKey x 0) :
    getF (baSet s x (1 + i) v) f (1 + x) = getF s f (1 + x) := by
  refine getF_of_regsBut (regsBut_baSet s x (1 + i) v) ?_
  rw [hkey, baKey_mask]
  simp only [List.mem_singleton, fldKey, baKey, regKey, BA_MASK_MEMBERS, if_true]
  omega

/-! A context that starts. -/

theorem cfgStarted_moves (s : State) (x : Nat) : Moves 0x800140 s (cfgStarted s x) := by
  refine (setCtx_moves ..).next (by decide) ((dropBars_moves ..).next (by decide) ?_)
  refine Moves.foldl _ (fun u m => ?_) s (Moves.refl _ s)
  split
  · exact Moves.refl _ _
  · exact (modEng_moves ..).le (by decide)

theorem getCtx_cfgStarted (s : State) (x : Nat) : getCtx (cfgStarted s x) x = { BaCtx.reset with cstate := 1 } := getCtx_setCtx_same ..

theorem ctxMode_of_moves {m : Nat} {t : State} (h : Moves m s t) (hm : m.testBit 3 = false) (x : Nat) :
    ctxMode t x = ctxMode s x ∧ ctxCe t x = ctxCe s x := by
  have hregs := regsBut_of_moves h hm []
  exact ⟨getF_of_regsBut hregs (by simp), getF_of_regsBut hregs (by simp)⟩

end

/-- Settles O18: a write is refused while the context is busy or for its mask; otherwise it is one of `writeBaCfg`'s cases on MODE. -/
theorem barrierConfiguration : Obligations.BarrierConfiguration := by
  unfold Obligations.BarrierConfiguration
  intro x s v _ hup b tile errs
  have hrow : ∀ (r : Fin 10) {u : State}, writeBaCfg s x r v = u → exec (.baCfgWrite x r v) s = .next u := fun r u h =>
    congrArg Host.Outcome.next ((if_pos hup).trans h)
  have herr : ∀ (r : Fin 10), writeBaCfg s x r v = setF s BA_STATUS_CFG_ERR 0 1 → errs r := fun r h => ⟨_, hrow r h, cfgErr_shows s⟩
  refine ⟨fun hst hwait => ?idle, fun hst r => herr r (writeBaCfg_busy (.inl hst) r v),
    fun m hm e he hst hw r => herr r (writeBaCfg_busy (.inr (cfgWaited_of hm he hst hw)) r v)⟩
  have hopen : ¬ CtxBusy s x := fun h => h.elim hst (by simp [not_cfgWaited hwait])
  have hmode : ctxMode (baSet s x 0 v) x = v.toNat % 4 :=
    (getF_baSet_cfg s x v (f := BA_CFG_MODE) rfl (by decide)).trans (by simp [bits, BA_CFG_MODE])
  have htile : getF (baSet s x 0 v) BA_CFG_TILE (1 + x) = tile := getF_baSet_cfg s x v (f := BA_CFG_TILE) rfl (by decide)
  have hmem : members (baSet s x 0 v) x = members s x := members_baSet_cfg s x v
  have hbroken : LocalBroken (baSet s x 0 v) x ↔ v.toNat % 4 = 1 ∧ ∃ m ∈ members s x, m / 4 ≠ tile := by
    simp [LocalBroken, hmode, htile, hmem]
  have hcfg := writeBaCfg_open hopen 0 v
  refine ⟨fun hlocal i => ?mask, fun hm => ?starts, fun hm => ?torus, fun hm => ?idles,
    fun hm hex => herr 0 (hcfg.trans (if_pos (hbroken.2 ⟨hm, hex⟩))), fun hm i hbit => ?maskErr⟩
  case mask =>
    have hmode' : ctxMode (baSet s x (1 + i) v) x = ctxMode s x := getF_baSet_mask s x i v (f := BA_CFG_MODE) rfl
    have hset := writeBaCfg_open hopen (1 + i) v
    rw [if_neg (fun h => hlocal (hmode' ▸ h.1)), if_pos (by omega)] at hset
    exact ⟨_, hrow _ hset, getFi_baSet_mask s x i.isLt v, rfl, baKey_mask x i ▸ regsBut_baSet s x (1 + i) v,
      only_of _ (regSet_moves ..) (by decide)⟩
  case starts =>
    have hok : ¬ LocalBroken (baSet s x 0 v) x := fun h => by
      obtain ⟨h1, m, hmem, hne⟩ := hbroken.1 h
      exact hm.elim (by omega) fun hl => hne (hl.2 m hmem)
    have hmode' : ctxMode (cfgStarted (baSet s x 0 v) x) x = v.toNat % 4 := (ctxMode_of_moves (cfgStarted_moves ..) (by decide) x).1.trans hmode
    rw [if_neg hok, if_neg (by simp), if_neg (by omega),
      checkRound_open (.inr ⟨congrArg BaCtx.cur (getCtx_cfgStarted ..), by omega⟩)] at hcfg
    exact ⟨_, hrow 0 hcfg, getCtx_cfgStarted .., hmode', regs_trans (regsBut_baSet s x 0 v) (regsBut_of_moves (cfgStarted_moves ..) (by decide) _),
      only_trans (only_of _ (regSet_moves ..) (by decide)) (only_of _ (cfgStarted_moves ..) (by decide))⟩
  case torus =>
    rw [if_neg (fun h => by have := (hbroken.1 h).1; omega), if_neg (by simp), if_neg (by omega)] at hcfg
    have hkeeps : Moves 0x900140 (baSet s x 0 v) (checkRound (cfgStarted (baSet s x 0 v) x) x) :=
      (checkRound_moves ..).next (by decide) ((cfgStarted_moves ..).le (by decide))
    obtain ⟨l, g, hctx⟩ := (roundKept_checkRound (cfgStarted (baSet s x 0 v) x) x).own
    obtain ⟨hm', hce⟩ := ctxMode_of_moves hkeeps (by decide) x
    refine ⟨_, hrow 0 hcfg, ?_, ?_, ?_⟩
    · rw [hctx, getCtx_cfgStarted]
    · rw [hm', hmode, hm]
    · exact hce.trans (getF_baSet_cfg s x v (f := BA_CFG_CE) rfl (by decide))
  case idles =>
    rw [if_neg (fun h => by have := (hbroken.1 h).1; omega), if_neg (by simp), if_pos (by omega)] at hcfg
    exact ⟨_, hrow 0 hcfg, getCtx_setCtx_same ..⟩
  case maskErr =>
    obtain ⟨j, hj, hset, hne⟩ := hbit
    have hmode' : ctxMode (baSet s x (1 + i) v) x = 1 := (getF_baSet_mask s x i v (f := BA_CFG_MODE) rfl).trans hm
    have htile' := getF_baSet_mask s x i v (f := BA_CFG_TILE) rfl
    have hin : 32 * i.val + j ∈ members (baSet s x (1 + i) v) x := mem_members_baSet s x i.isLt v hj hset
    refine herr ⟨1 + i, by omega⟩ ((writeBaCfg_open hopen (1 + i) v).trans (if_pos ⟨hmode', List.any_eq_true.2 ⟨_, hin, ?_⟩⟩))
    simpa [htile'] using hne

end Sys2Proof.Proofs

/-! PROOFS. Barrier rounds (R256 to R258): the arrival of a member, the releases that let the waiting members go on, and the statement
about them. -/
namespace Sys2Proof.Proofs
open Sys2Proof Sys2Proof.Machine Sys2Proof.Laws

/-! The issue of sy.bar. -/

/-- R256: sy.bar waits at its context, its arrival on the way. -/
theorem beginBar_shows (s : State) (e : Eng) (q : QEntry) :
    let t := beginWait (traceEv s e (iT q.word) (iTag q.word) q.idx 2 0) e q .sybar (ifld q.word 74 6) 1
    (getEng t e).st = .waiting ∧ (getEng t e).wait = some ⟨.sybar, ifld q.word 74 6, 1, s.gsc, 0⟩
      ∧ (getEng t e).queue = (getEng s e).queue ∧ RegsBut (traceKeys e) s t ∧ EngsBut [e] s t ∧ Only [.regs, .engines, .tiles] s t := by
  intro t
  have htrace : Moves 0x88 s _ := traceEv_moves s e (iT q.word) (iTag q.word) q.idx 2 0
  have hgsc := htrace.same .gsc (by decide)
  obtain ⟨heng, hregs, hengs, honly⟩ :=
    beginWait_shows (traceEv s e (iT q.word) (iTag q.word) q.idx 2 0) e q .sybar (ifld q.word 74 6) 1
  rw [getEng_traceEv, ← show s.gsc = _ from hgsc] at heng
  refine ⟨congrArg Engine.st heng, (congrArg Engine.wait heng :), (congrArg Engine.queue heng :),
    regs_trans (traceEv_regs _ _ _ _ _ _ _) hregs, engsBut_trans (engsBut_of_moves htrace (by decide) _) hengs,
    only_trans (only_of _ htrace (by decide)) honly⟩

/-! The arrival. -/

/-- R256: an engine whose sy.bar waits with its arrival on the way, as member `m` of the context. -/
structure Arriving (s : State) (e : Eng) (w : Wait) (q : QEntry) (m : Nat) : Prop where
  st : (getEng s e).st = .waiting
  wait : (getEng s e).wait = some w
  kind : w.kind = .sybar
  sent : w.val = 1
  front : (getEng s e).queue.head? = some q
  awake : drainOn s 7 0 = false
  member : memberOf s e = some m

/-- R256: an arrival counts in the current round, not in the next. -/
def arrivesNow (s : State) (e : Eng) (x : Nat) : Bool := (bit (getEng s e).rbits x == (getCtx s x).round) && !(getCtx s x).leaving

/-- R256: the engine whose arrival has been counted. -/
def arrivalCounted (s : State) (e : Eng) (w : Wait) : State := modEng s e (fun g => { g with wait := some { w with val := 0 } })

section
variable {s : State} {e : Eng} {w : Wait} {q : QEntry} {m : Nat}

theorem barrierArrive_eq (h : Arriving s e w q m) : barrierArrive s e =
    let b := getCtx s w.ctr
    if b.cstate = 2 then faultQ s e q 0x0202 0 0 0
    else if (!inMask s w.ctr m || b.cstate != 1) = true then faultQ s e q 0x0208 0 0 0
    else if (bit b.a m && arrivesNow s e w.ctr || bit b.b m) = true then faultQ s e q 0x0205 0 0 0
    else if arrivesNow s e w.ctr = true then
      checkRound (setCtx (arrivalCounted s e w) w.ctr { b with cur := b.cur + 1, a := b.a + 2 ^ m }) w.ctr
    else setCtx (arrivalCounted s e w) w.ctr { b with next := b.next + 1, b := b.b + 2 ^ m } := by
  obtain ⟨r, hq⟩ := List.head?_eq_some_iff.1 h.front
  unfold barrierArrive
  simp only [h.wait, hq]
  rw [if_pos ⟨h.st, h.kind, h.sent, by simp [h.awake]⟩]
  simp only [h.member]
  rfl

theorem arrivalCounted_shows (s : State) (e : Eng) (w : Wait) (x : Nat) (b : BaCtx) :
    let t := setCtx (arrivalCounted s e w) x b
    getCtx t x = b ∧ (getEng t e).wait = some { w with val := 0 } ∧ EngsBut [e] s t ∧ Only [.engines, .ctxs] s t := by
  intro t
  obtain ⟨heng, hengs, honly⟩ := modEng_shows s e (fun g => { g with wait := some { w with val := 0 } })
  exact ⟨getCtx_setCtx_same .., congrArg Engine.wait heng, hengs,
    only_trans (only_mono honly (by simp)) (only_of _ (setCtx_moves ..) (by decide))⟩

/-- R257: a current arrival at a context that is not TORUS completes its round when it is the last. -/
theorem checkRound_counted {u : State} {x : Nat} {b : BaCtx} (hu : getCtx u x = b) (hst : b.cstate = 1) (hl : b.leaving = false)
    (hg : b.globalPend = false) (h0 : b.cur ≠ 0) (hmode : ctxMode u x ≠ 3) :
    getCtx (checkRound u x) x = { b with leaving := decide (b.cur = (members u x).length) } ∧ Moves 0x100 u (checkRound u x) := by
  subst hu
  by_cases hlen : (getCtx u x).cur = (members u x).length
  · rw [checkRound_complete hst hl hg hlen h0 hmode, getCtx_setCtx_same]
    exact ⟨by simp [hlen], setCtx_moves ..⟩
  · rw [checkRound_open (.inl hlen)]
    exact ⟨by simp [hlen, ← hl], Moves.refl _ _⟩

/-- R261: an arrival at an ORPHANED context. -/
theorem barrierArrive_orphaned (h : Arriving s e w q m) (hst : (getCtx s w.ctr).cstate = 2) :
    barrierArrive s e = faultQ s e q 0x0202 0 0 0 := (barrierArrive_eq h).trans (if_pos hst)

/-- R258: an arrival at a context that the engine is no member of. -/
theorem barrierArrive_notMember (h : Arriving s e w q m) (hst : (getCtx s w.ctr).cstate ≠ 2) (hin : inMask s w.ctr m = false) :
    barrierArrive s e = faultQ s e q 0x0208 0 0 0 := (barrierArrive_eq h).trans ((if_neg hst).trans (if_pos (by simp [hin])))

/-- R258: a second arrival in one round. -/
theorem barrierArrive_overrun (h : Arriving s e w q m) (hst : (getCtx s w.ctr).cstate = 1) (hin : inMask s w.ctr m = true)
    (hrep : bit (getCtx s w.ctr).a m = true ∧ arrivesNow s e w.ctr = true ∨ bit (getCtx s w.ctr).b m = true) :
    barrierArrive s e = faultQ s e q 0x0205 0 0 0 :=
  (barrierArrive_eq h).trans ((if_neg (by simp [hst])).trans ((if_neg (by simp [hin, hst])).trans (if_pos (by simpa using hrep))))

/-- R256, R257: an arrival that is counted in the current round. -/
theorem barrierArrive_now (h : Arriving s e w q m) (hst : (getCtx s w.ctr).cstate = 1) (hin : inMask s w.ctr m = true)
    (ha : bit (getCtx s w.ctr).a m = false) (hb : bit (getCtx s w.ctr).b m = false) (hnow : arrivesNow s e w.ctr = true)
    (hg : (getCtx s w.ctr).globalPend = false) (hmode : ctxMode s w.ctr ≠ 3) :
    let b := getCtx s w.ctr
    let t := barrierArrive s e
    getCtx t w.ctr = { b with cur := b.cur + 1, a := b.a + 2 ^ m, leaving := decide (b.cur + 1 = (members s w.ctr).length) }
      ∧ (getEng t e).wait = some { w with val := 0 } ∧ EngsBut [e] s t ∧ Only [.engines, .ctxs] s t := by
  intro b t
  have hl : b.leaving = false := by
    simp only [arrivesNow, Bool.and_eq_true, Bool.not_eq_true'] at hnow
    exact hnow.2
  obtain ⟨hctx, hwait, hengs, honly⟩ := arrivalCounted_shows s e w w.ctr { b with cur := b.cur + 1, a := b.a + 2 ^ m }
  obtain ⟨hround, hmoves⟩ := checkRound_counted hctx hst hl hg (Nat.succ_ne_zero _) hmode
  have ht : t = _ := (barrierArrive_eq h).trans ((if_neg (by simp [hst])).trans ((if_neg (by simp [hin, hst])).trans
    ((if_neg (by simp [ha, hb])).trans (if_pos hnow))))
  rw [ht]
  exact ⟨hround, (congrArg Engine.wait (getEng_of_moves hmoves (by decide) e)).trans hwait,
    engsBut_trans hengs (engsBut_of_moves hmoves (by decide) _), only_trans honly (only_of _ hmoves (by decide))⟩

/-- R256: an arrival that is counted in the next round. -/
theorem barrierArrive_next (h : Arriving s e w q m) (hst : (getCtx s w.ctr).cstate = 1) (hin : inMask s w.ctr m = true)
    (hb : bit (getCtx s w.ctr).b m = false) (hnow : arrivesNow s e w.ctr = false) :
    let b := getCtx s w.ctr
    barrierArrive s e = setCtx (arrivalCounted s e w) w.ctr { b with next := b.next + 1, b := b.b + 2 ^ m } :=
  (barrierArrive_eq h).trans ((if_neg (by simp [hst])).trans ((if_neg (by simp [hin, hst])).trans
    ((if_neg (by simp [hb, hnow])).trans (if_neg (by simp [hnow])))))

end

/-! The releases. -/

/-- R257: an engine whose sy.bar at context `x` is all it waits for. -/
def HeldAtBar (x : Nat) (g : Engine) : Prop :=
  g.st = .waiting ∧ g.queue ≠ [] ∧ g.fwait = none ∧ ∃ w, g.wait = some w ∧ w.kind = .sybar ∧ w.ctr = x

/-- R257: an engine that a release has let go on. -/
def PastBar (g : Engine) : Prop := g.st = .running ∧ g.wait = none

theorem engOfMember_of_moves {n : Nat} {s t : State} (h : Moves n s t) (hn : n.testBit (partBit .tmap) = false) (m : Nat) :
    engOfMember t m = engOfMember s m := by
  have hmap : s.tmap = t.tmap := h.same .tmap hn
  unfold engOfMember physOf
  rw [hmap]

/-- R257: engines that differ in round bits and S signals owed alone. -/
def BarKept (g g' : Engine) : Prop := ∃ n l, g' = { g with rbits := n, lateSigs := l }

theorem BarKept.refl (g : Engine) : BarKept g g := ⟨_, _, rfl⟩

theorem BarKept.trans {g g' g'' : Engine} (h : BarKept g g') (k : BarKept g' g'') : BarKept g g'' := by
  obtain ⟨_, _, rfl⟩ := h
  obtain ⟨n, l, rfl⟩ := k
  exact ⟨n, l, rfl⟩

theorem BarKept.held {g g' : Engine} {x : Nat} (h : BarKept g g') (hg : HeldAtBar x g) : HeldAtBar x g' := by
  obtain ⟨_, _, rfl⟩ := h
  exact hg

theorem BarKept.past {g g' : Engine} (h : BarKept g g') (hg : PastBar g) : PastBar g' := by
  obtain ⟨_, _, rfl⟩ := h
  exact hg

theorem waitsAt_of_held {s : State} {e : Eng} {x : Nat} (h : HeldAtBar x (getEng s e)) : waitsAt s e x = true := by
  obtain ⟨-, -, -, w, hw, hk, hc⟩ := h
  simp [waitsAt, hw, hk, hc]

theorem waitsAt_of_past {s : State} {e : Eng} (x : Nat) (h : PastBar (getEng s e)) : waitsAt s e x = false := by
  rw [waitsAt, h.2]

theorem passWait_held_past {s : State} {e : Eng} {x : Nat} (h : HeldAtBar x (getEng s e)) : PastBar (getEng (passWait s e).1 e) := by
  obtain ⟨hst, hq, hf, -⟩ := h
  obtain ⟨q, r, hqr⟩ := List.exists_cons_of_ne_nil hq
  simp only [passWait, hst, hqr, hf, getEng_traceEv, popFront, modEng, getEng_setEng_same]
  exact ⟨rfl, rfl⟩

/-- R229, R262: of the engines a late S signal moves its engine's list of them alone. -/
theorem barKept_lateSig (s : State) (e : Eng) (d : Done) (e' : Eng) : BarKept (getEng s e') (getEng (lateSig s e d) e') := by
  unfold lateSig
  dsimp only
  split
  · exact ⟨_, _, getEng_traceEv ..⟩
  · split
    · by_cases he : e' = e
      · rw [he, modEng, getEng_setEng_same, getEng_traceEv]
        exact ⟨_, _, rfl⟩
      · rw [modEng, getEng_setEng_other _ _ he, getEng_traceEv]
        exact .refl _
    · rw [getEng_of_moves (signalDone_moves ..) (by decide), getEng_traceEv]
      exact .refl _

/-- R257: the member's round bit flips. -/
def flipped (x : Nat) (s : State) (e : Eng) : State :=
  modEng s e (fun g => { g with rbits := if bit g.rbits x then g.rbits - 2 ^ x else g.rbits + 2 ^ x })

theorem barKept_flipped (x : Nat) (s : State) (e e' : Eng) : BarKept (getEng s e') (getEng (flipped x s e) e') := by
  by_cases he : e' = e
  · rw [he, flipped, modEng, getEng_setEng_same]
    exact ⟨_, _, rfl⟩
  · rw [flipped, modEng, getEng_setEng_other _ _ he]
    exact .refl _

/-- R257: a waiting member goes on, and its S signal falls. -/
def letPast (s : State) (e : Eng) : State :=
  match passWait s e with
  | (s, some d) => lateSig s e d
  | (s, none) => s

theorem barKept_letPast (s : State) (e e' : Eng) : BarKept (getEng (passWait s e).1 e') (getEng (letPast s e) e') := by
  unfold letPast
  split
  · rename_i u d hp
    rw [hp]
    exact barKept_lateSig u e d e'
  · rename_i u hp
    rw [hp]
    exact .refl _

section
variable {s : State} {e : Eng} {x a m : Nat}

theorem releaseMember_none (h : engOfMember s m = none) : releaseMember x a s m = s := by
  simp only [releaseMember, h]

theorem releaseMember_some (h : engOfMember s m = some e) : releaseMember x a s m =
    if (bit a m && waitsAt (flipped x s e) e x) = true then letPast (flipped x s e) e else flipped x s e := by
  simp only [releaseMember, h]
  rfl

/-- R257: a release leaves every engine but its member's. -/
theorem releaseMember_other (h : engOfMember s m ≠ some e) : BarKept (getEng s e) (getEng (releaseMember x a s m) e) := by
  cases hm : engOfMember s m with
  | none => exact (releaseMember_none hm).symm ▸ .refl _
  | some e' =>
    have hne : e ≠ e' := fun he => h (he ▸ hm)
    have hflip := barKept_flipped x s e' e
    rw [releaseMember_some hm]
    split
    · exact hflip.trans (passWait_other (flipped x s e') hne ▸ barKept_letPast ..)
    · exact hflip

theorem releaseMember_past (h : PastBar (getEng s e)) : PastBar (getEng (releaseMember x a s m) e) := by
  by_cases hm : engOfMember s m = some e
  · have hflip := (barKept_flipped x s e e).past h
    rw [releaseMember_some hm, waitsAt_of_past x hflip]
    simpa using hflip
  · exact (releaseMember_other hm).past h

/-- R257: a member whose arrival was counted and that waits for nothing else goes on. -/
theorem releaseMember_held (h : HeldAtBar x (getEng s e)) : PastBar (getEng (releaseMember x a s m) e)
    ∨ HeldAtBar x (getEng (releaseMember x a s m) e) ∧ ¬ (engOfMember s m = some e ∧ bit a m = true) := by
  by_cases hm : engOfMember s m = some e
  · have hflip := (barKept_flipped x s e e).held h
    rw [releaseMember_some hm, waitsAt_of_held hflip, Bool.and_true]
    split
    · exact .inl ((barKept_letPast ..).past (passWait_held_past hflip))
    · exact .inr ⟨hflip, fun hb => ‹¬ bit a m = true› hb.2⟩
  · exact .inr ⟨(releaseMember_other hm).held h, fun hb => hm hb.1⟩

end

theorem releaseMembers_past {e : Eng} {x a : Nat} : ∀ (ms : List Nat) {s : State}, PastBar (getEng s e) →
    PastBar (getEng (ms.foldl (releaseMember x a) s) e)
  | [], _, h => h
  | _ :: ms, _, h => releaseMembers_past ms (releaseMember_past h)

/-- R257: once every member has been released, one whose arrival was counted runs. -/
theorem releaseMembers_held {e : Eng} {x a : Nat} (ms : List Nat) {s : State} (h : HeldAtBar x (getEng s e))
    (hmem : ∃ m ∈ ms, engOfMember s m = some e ∧ bit a m = true) : PastBar (getEng (ms.foldl (releaseMember x a) s) e) := by
  induction ms generalizing s with
  | nil => simp at hmem
  | cons m' ms ih =>
    have hmap : ∀ m, engOfMember (releaseMember x a s m') m = engOfMember s m := fun m =>
      engOfMember_of_moves (releaseMember_moves ..) (by decide) m
    rcases releaseMember_held (a := a) (m := m') h with hpast | ⟨hheld, hnot⟩
    · exact releaseMembers_past ms hpast
    · refine ih hheld ?_
      obtain ⟨m, hm, he, hb⟩ := hmem
      rcases List.mem_cons.1 hm with rfl | hm
      · exact absurd ⟨he, hb⟩ hnot
      · exact ⟨m, hm, (hmap m).trans he, hb⟩

/-! The delivery of the releases. -/

/-- R407: the counts of a context at an axis go over to the next round. -/
def carryBar (x : Nat) (s : State) (a : Nat) : State := setBar s a x ⟨(getBar s a x).next, 0, (getBar s a x).b, 0, false⟩

/-- R257: the context of the next round, its arrivals those that came early. -/
def carriedCtx (b : BaCtx) : BaCtx := { b with round := !b.round, cur := b.next, a := b.b, next := 0, b := 0, leaving := false }

/-- R257: the releases have been delivered to the members. -/
def released (s : State) (x : Nat) : State := traceCaps s ((members s x).foldl (releaseMember x (getCtx s x).a) s)

theorem barrierDelivered_eq {s : State} {x : Nat} (h : (getCtx s x).leaving = true) : barrierDelivered s x =
    checkRound ((List.range 4).foldl (carryBar x) (setCtx (released s x) x (carriedCtx (getCtx s x)))) x := if_pos h

theorem released_moves (s : State) (x : Nat) : Moves 0xc8 s (released s x) :=
  (traceCaps_moves ..).next (by decide) (Moves.foldl _ (fun _ _ => releaseMember_moves ..) s (Moves.refl _ s))

theorem carryBars_moves (s : State) (x : Nat) : Moves 0x800000 s ((List.range 4).foldl (carryBar x) s) :=
  Moves.foldl _ (fun _ _ => setBar_moves ..) s (Moves.refl _ s)

/-- R257: the delivery moves of the contexts its own alone. -/
theorem getCtx_barrierDelivered {s : State} {x : Nat} (h : (getCtx s x).leaving = true) :
    (∃ l g, getCtx (barrierDelivered s x) x = { carriedCtx (getCtx s x) with leaving := l, globalPend := g })
      ∧ ∀ x', x' ≠ x → getCtx (barrierDelivered s x) x' = getCtx s x' := by
  rw [barrierDelivered_eq h]
  have hround := (roundKept_of_moves x (carryBars_moves (setCtx (released s x) x (carriedCtx (getCtx s x))) x) (by decide)).trans
    (roundKept_checkRound _ x)
  obtain ⟨l, g, hown⟩ := hround.own
  refine ⟨⟨l, g, ?_⟩, fun x' hx => ?_⟩
  · rw [hown, getCtx_setCtx_same]
  · rw [hround.others x' hx, getCtx_setCtx_other _ _ hx, getCtx_of_moves (released_moves s x) (by decide)]

/-- R257: what follows the releases leaves every engine. -/
theorem getEng_barrierDelivered {s : State} {x : Nat} (h : (getCtx s x).leaving = true) (e : Eng) :
    getEng (barrierDelivered s x) e = getEng ((members s x).foldl (releaseMember x (getCtx s x).a) s) e := by
  rw [barrierDelivered_eq h, getEng_of_moves (checkRound_moves ..) (by decide), getEng_of_moves (carryBars_moves ..) (by decide)]
  exact getEng_of_moves (traceCaps_moves ..) (by decide) e

/-- Settles O17: an arrival is one of `barrierArrive`'s cases; the releases of a round reach its members one by one, and what follows them
moves no engine. -/
theorem barriers : Obligations.Barriers := by
  unfold Obligations.Barriers
  refine ⟨fun e s q _ h => does_of_ready h rfl (beginBar_shows s e q), fun e s q w m _ => ?arrival, fun x s _ => ?delivered⟩
  case arrival =>
    intro g x b cur hst hw hk hv hfront hdrain hmem
    have harr : Arriving s e w q m := ⟨hst, hw, hk, hv, hfront, hdrain, hmem⟩
    have hfaults : ∀ code, FaultsWith s (faultQ s e q code 0 0 0) e code (iTag q.word) q.idx := fun code =>
      faultEngine_faultsWith (.inr (.inl hst)) ..
    exact ⟨fun hact hin ha hb =>
        ⟨fun hcur => ⟨_, rfl, barrierArrive_next harr hact hin hb hcur ▸ arrivalCounted_shows ..⟩,
          fun hcur hg hmode => ⟨_, rfl, barrierArrive_now harr hact hin (ha hcur) hb hcur hg hmode⟩⟩,
      fun hact hin hrep => ⟨_, rfl, barrierArrive_overrun harr hact hin hrep ▸ hfaults _⟩,
      fun horph => ⟨_, rfl, barrierArrive_orphaned harr horph ▸ hfaults _⟩,
      fun hno hout => ⟨_, rfl, barrierArrive_notMember harr hno hout ▸ hfaults _⟩⟩
  case delivered =>
    intro b hl
    obtain ⟨⟨l, g, hown⟩, hothers⟩ := getCtx_barrierDelivered hl
    refine ⟨_, rfl, ?_, ?_, ?_, ?_, ?_, hothers, fun m hm e w q qs he ha hst hfw hw hk hc hq => ?_⟩
    case refine_6 =>
      rw [getEng_barrierDelivered hl]
      exact releaseMembers_held _ ⟨hst, by simp [hq], hfw, w, hw, hk, hc⟩ ⟨m, hm, he, ha⟩
    all_goals rw [hown]; rfl

end Sys2Proof.Proofs

/-! PROOFS. Wait timeouts and the wait-graph snapshot (R253, R264, R265): engines that fault one after another, and the statement about
waits that run too long. -/
namespace Sys2Proof.Proofs
open Sys2Proof Sys2Proof.Machine Sys2Proof.Laws

/-! Engines that fault one after another. -/

/-- The queue of events grows by at most `n` while it has room for them. -/
def EventsGrow (n : Nat) (s t : State) : Prop :=
  s.eb.events.length + n ≤ 3840 → ∃ l, t.eb.events = s.eb.events ++ l ∧ l.length ≤ n

theorem EventsGrow.trans {m n : Nat} {s t u : State} (h : EventsGrow m s t) (k : EventsGrow n t u) : EventsGrow (m + n) s u := fun hroom => by
  obtain ⟨l, ht, hl⟩ := h (by omega)
  obtain ⟨l', hu, hl'⟩ := k (by rw [ht, List.length_append]; omega)
  exact ⟨l ++ l', by rw [hu, ht, List.append_assoc], by rw [List.length_append]; omega⟩

theorem EventsGrow.length {n : Nat} {s t : State} (h : EventsGrow n s t) (hroom : s.eb.events.length + n ≤ 3840) :
    t.eb.events.length ≤ s.eb.events.length + n := by
  obtain ⟨l, ht, hl⟩ := h hroom
  rw [ht, List.length_append]
  omega

/-- R581: a record stays in the queue of events. -/
theorem EventsGrow.queued {n : Nat} {s t : State} (h : EventsGrow n s t) (hroom : s.eb.events.length + n ≤ 3840) {e : Eng}
    {code tag pc det : Nat} (hq : FaultQueued s e code tag pc det) : FaultQueued t e code tag pc det := by
  obtain ⟨l, ht, -⟩ := h hroom
  obtain ⟨k, r, hmem, hr⟩ := hq
  exact ⟨k, r, ht ▸ List.mem_append_left _ hmem, hr⟩

/-- R228: the record that a fault adds. -/
theorem faultQueued_faultEngine {s : State} (h : s.eb.events.length < 3840) (e : Eng) (code tag pc : Nat) (t : Bool) (addr space det : Nat) :
    FaultQueued (faultEngine s e code tag pc t addr space det) e code tag pc det := by
  refine ⟨s.eb.evSeq, faultRec s e code tag pc addr space det, ?_, rfl, rfl, rfl, rfl, rfl, rfl⟩
  rw [events_faultEngine _ _ _ _ _ _ _ h]
  exact List.mem_append_right _ (List.mem_singleton_self _)

/-- R265: a step that may fault the engine that its argument names, leaves every other, and adds one record at most. -/
structure FaultStep {α : Type} (key : α → Eng) (step : State → α → State) : Prop where
  stops : ∀ u x, Faultable u (key x) → (getEng (step u x) (key x)).st = .faulted
  others : ∀ u x e, e ≠ key x ∨ ¬ Faultable u e → getEng (step u x) e = getEng u e
  grows : ∀ u x, EventsGrow 1 u (step u x)
  busy : ∀ u x, getF (step u x) BA_STATUS_SNAP_BUSY 0 = getF u BA_STATUS_SNAP_BUSY 0

theorem faultEngine_grows {s : State} {e : Eng} (code tag pc : Nat) (t : Bool) (addr space det : Nat) :
    EventsGrow 1 s (faultEngine s e code tag pc t addr space det) := fun hroom =>
  ⟨_, events_faultEngine _ _ _ _ _ _ _ hroom, Nat.le_refl _⟩

theorem faultEngine_busy {s : State} {e : Eng} (code tag pc : Nat) (t : Bool) (addr space det : Nat) :
    getF (faultEngine s e code tag pc t addr space det) BA_STATUS_SNAP_BUSY 0 = getF s BA_STATUS_SNAP_BUSY 0 :=
  getF_of_regsBut (regsBut_faultEngine _ _ _ _ _ _ _) (regKey_not_fault e (.inr rfl) (by decide) (by decide) (by decide))

theorem waitFault_eq (code det : Nat) (u : State) (i : Nat) : ∃ tag pc t,
    waitFault code det u i = faultEngine u (engOf i) code tag pc t 0 0 det := by
  unfold waitFault
  exact ⟨_, _, _, rfl⟩

theorem faultStep_waitFault (code det : Nat) : FaultStep engOf (waitFault code det) where
  stops u i h := by
    obtain ⟨_, _, _, heq⟩ := waitFault_eq code det u i
    exact heq ▸ congrArg Engine.st (getEng_faultEngine _ _ _ _ _ _ _ h)
  others u i _ h := by
    obtain ⟨_, _, _, heq⟩ := waitFault_eq code det u i
    exact heq ▸ getEng_faultEngine_other _ _ _ _ _ _ _ h
  grows u i := by
    obtain ⟨_, _, _, heq⟩ := waitFault_eq code det u i
    exact heq ▸ faultEngine_grows _ _ _ _ _ _ _
  busy u i := by
    obtain ⟨_, _, _, heq⟩ := waitFault_eq code det u i
    exact heq ▸ faultEngine_busy ..

/-- R265: the engine of a timed-out wait. -/
def lateEng (y : Nat × Nat × Nat) : Eng := engOf y.1

theorem lateFault_faultable {u : State} {y : Nat × Nat × Nat} (h : Faultable u (lateEng y)) (det : Nat) : lateFault det u y =
    faultEngine u (lateEng y) 0x0203 y.2.1 y.2.2 (waitTraced u (lateEng y) y.2.2) 0 0 det := if_pos h

theorem lateFault_idle {u : State} {y : Nat × Nat × Nat} (h : ¬ Faultable u (lateEng y)) (det : Nat) : lateFault det u y = u := if_neg h

theorem faultStep_lateFault (det : Nat) : FaultStep lateEng (lateFault det) where
  stops u y h := by
    rw [lateFault_faultable h]
    exact congrArg Engine.st (getEng_faultEngine _ _ _ _ _ _ _ h)
  others u y e h := by
    by_cases hf : Faultable u (lateEng y)
    · rw [lateFault_faultable hf]
      exact getEng_faultEngine_other _ _ _ _ _ _ _ h
    · rw [lateFault_idle hf]
  grows u y := by
    by_cases hf : Faultable u (lateEng y)
    · rw [lateFault_faultable hf]
      exact faultEngine_grows _ _ _ _ _ _ _
    · rw [lateFault_idle hf]
      exact fun _ => ⟨[], by simp, by simp⟩
  busy u y := by
    by_cases hf : Faultable u (lateEng y)
    · rw [lateFault_faultable hf]
      exact faultEngine_busy ..
    · rw [lateFault_idle hf]

section
variable {α : Type} {key : α → Eng} {step : State → α → State}

/-- R265: an engine that is not named, or whose program cannot fault, stays as it is. -/
theorem FaultStep.foldl_others (h : FaultStep key step) {e : Eng} : ∀ (xs : List α) {u : State}, (∀ x ∈ xs, key x ≠ e) ∨ ¬ Faultable u e →
    getEng (xs.foldl step u) e = getEng u e
  | [], _, _ => rfl
  | x :: xs, u, hno => by
    have hstep : getEng (step u x) e = getEng u e := h.others u x e (hno.imp_left fun hk => (hk x List.mem_cons_self).symm)
    exact (h.foldl_others xs (hno.imp (fun hk y hy => hk y (List.mem_cons_of_mem _ hy)) (by simpa only [Faultable, hstep] using id))).trans hstep

/-- R213: a program that has faulted stays so. -/
theorem FaultStep.foldl_faulted (h : FaultStep key step) {e : Eng} (xs : List α) {u : State} (hst : (getEng u e).st = .faulted) :
    (getEng (xs.foldl step u) e).st = .faulted := by
  rw [h.foldl_others xs (.inr (by simp [Faultable, hst])), hst]

/-- R265: an engine that is named faults, if its program can. -/
theorem FaultStep.foldl_stops (h : FaultStep key step) {e : Eng} (xs : List α) {u : State} (hmem : ∃ x ∈ xs, key x = e) (hf : Faultable u e) :
    (getEng (xs.foldl step u) e).st = .faulted := by
  induction xs generalizing u with
  | nil => simp at hmem
  | cons x xs ih =>
    by_cases hx : key x = e
    · exact h.foldl_faulted xs (hx ▸ h.stops u x (hx ▸ hf))
    · have hrest : ∃ y ∈ xs, key y = e := by simpa [hx] using hmem
      refine ih hrest ?_
      rwa [Faultable, h.others u x e (.inl (Ne.symm hx))]

theorem FaultStep.foldl_grows (h : FaultStep key step) : ∀ (xs : List α) (u : State), EventsGrow xs.length u (xs.foldl step u)
  | [], _ => fun _ => ⟨[], by simp, by simp⟩
  | x :: xs, u => by
    have := (h.grows u x).trans (h.foldl_grows xs (step u x))
    rwa [Nat.add_comm] at this

theorem FaultStep.foldl_busy (h : FaultStep key step) : ∀ (xs : List α) (u : State),
    getF (xs.foldl step u) BA_STATUS_SNAP_BUSY 0 = getF u BA_STATUS_SNAP_BUSY 0
  | [], _ => rfl
  | x :: xs, u => (h.foldl_busy xs (step u x)).trans (h.busy u x)

/-- R265: the record of an argument's step stands at the end, where there is room for all. -/
theorem FaultStep.foldl_queued (h : FaultStep key step) {l r : List α} {x : α} {u : State}
    (hroom : u.eb.events.length + (l ++ x :: r).length ≤ 3840) {e : Eng} {code tag pc det : Nat}
    (hq : (l.foldl step u).eb.events.length < 3840 → FaultQueued (step (l.foldl step u) x) e code tag pc det) :
    FaultQueued ((l ++ x :: r).foldl step u) e code tag pc det := by
  rw [List.length_append, List.length_cons] at hroom
  have hbefore := (h.foldl_grows l u).length (by omega)
  have hown := (h.grows (l.foldl step u) x).length (by omega)
  rw [List.foldl_append, List.foldl_cons]
  exact (h.foldl_grows r _).queued (by omega) (hq (by omega))

end

/-! The snapshot. -/

/-- R265: the engines on a cycle of the wait graph. -/
def snapCycle (s : State) : List Nat := onCycle ((waiters s).map (fun i => (i, (openWaits s i).flatMap (waitEdges s i))))

/-- R265: the engines that timed out and lie on no cycle. -/
def snapLate (s : State) : List (Nat × Nat × Nat) := s.snapWaits.filter (fun y => !(snapCycle s).contains y.1)

/-- R265: the DETAIL of a snapshot's faults. -/
def snapDetail (s : State) : Nat := (s.snapNum + 1) % 2 ^ 32 + (snapCycle s).length * 2 ^ 32

/-- R265, R266: the snapshot has been written and numbered, and no engine has faulted. -/
def snapNumbered (s : State) : State :=
  setF (setF { ashSnapshot s (s.snapNum + 1) (snapCycle s) (waiters s) with snapNum := s.snapNum + 1, snapWaits := [] } BA_STATUS_SNAP_BUSY 0 0)
    BA_SNAP_NUMBER 0 (s.snapNum + 1)

/-- R265: the engines on cycles have faulted. -/
def snapCycled (s : State) : State := (snapCycle s).foldl (waitFault 0x0204 (snapDetail s)) (snapNumbered s)

theorem snapshot_eq {s : State} (h : flagF s BA_STATUS_SNAP_BUSY 0 = true) :
    snapshot s = (snapLate s).foldl (lateFault (snapDetail s)) (snapCycled s) := if_pos h

theorem snapNumbered_shows (s : State) : let u := snapNumbered s
    u.snapNum = s.snapNum + 1 ∧ u.snapWaits = [] ∧ getF u BA_STATUS_SNAP_BUSY 0 = 0 ∧ u.eb = s.eb ∧ ∀ e, getEng u e = getEng s e := by
  obtain ⟨v, hv⟩ : ∃ v, ashSnapshot s (s.snapNum + 1) (snapCycle s) (waiters s) = v := ⟨_, rfl⟩
  have hash : Moves 0x30 s v := hv ▸ ashSnapshot_moves ..
  have heb : s.eb = v.eb := hash.same .eb (by decide)
  have heng : ∀ e, getEng v e = getEng s e := getEng_of_moves hash (by decide)
  simp only [snapNumbered, hv]
  refine ⟨rfl, rfl, ?_, heb.symm, heng⟩
  exact (getF_of_regsBut (regsBut_wrF _ _ _ _ _ _) (by decide)).trans (getF_setF_same _ _ 0 0 (by decide))

theorem snapshot_moves_numbered {s : State} (h : flagF s BA_STATUS_SNAP_BUSY 0 = true) : Moves 0x8000000009003f8 (snapNumbered s) (snapshot s) := by
  rw [snapshot_eq h]
  exact Moves.foldl _ (fun _ _ => lateFault_moves ..) _ (Moves.foldl _ (fun _ _ => waitFault_moves ..) _ (Moves.refl _ _))

/-- R264, R265: an engine on a cycle waits. -/
theorem snapCycle_waiting {s : State} {i : Nat} (h : i ∈ snapCycle s) : i < 292 ∧ (getEng s (engOf i)).st = .waiting := by
  obtain ⟨x, hx, rfl⟩ := List.mem_map.1 h
  obtain ⟨i, hi, rfl⟩ := List.mem_map.1 (List.mem_of_mem_filter hx)
  obtain ⟨hlt, hopen⟩ := List.mem_filter.1 hi
  refine ⟨List.mem_range.1 hlt, ?_⟩
  by_contra hst
  simp [openWaits, hst] at hopen

section
variable {s : State}

theorem faultable_snapNumbered (e : Eng) : Faultable (snapNumbered s) e ↔ Faultable s e := by
  simp only [Faultable, (snapNumbered_shows s).2.2.2.2]

theorem getEng_snapCycled {e : Eng} (h : ∀ i ∈ snapCycle s, engOf i ≠ e) : getEng (snapCycled s) e = getEng s e :=
  ((faultStep_waitFault ..).foldl_others _ (.inl h)).trans ((snapNumbered_shows s).2.2.2.2 e)

theorem snapCycled_faulted {i : Nat} (h : i ∈ snapCycle s) : (getEng (snapCycled s) (engOf i)).st = .faulted :=
  (faultStep_waitFault ..).foldl_stops _ ⟨i, h, rfl⟩ ((faultable_snapNumbered _).2 (.inr (.inl (snapCycle_waiting h).2)))

/-- R265: every engine on a cycle faults. -/
theorem snapshot_cycle (hbusy : flagF s BA_STATUS_SNAP_BUSY 0 = true) {i : Nat} (h : i ∈ snapCycle s) :
    (getEng (snapshot s) (engOf i)).st = .faulted := by
  rw [snapshot_eq hbusy]
  exact (faultStep_lateFault _).foldl_faulted _ (snapCycled_faulted h)

/-- R265: every other engine that timed out faults. -/
theorem snapshot_late (hbusy : flagF s BA_STATUS_SNAP_BUSY 0 = true) {y : Nat × Nat × Nat} (h : y ∈ snapLate s)
    (hlive : Faultable s (engOf y.1)) : (getEng (snapshot s) (engOf y.1)).st = .faulted := by
  rw [snapshot_eq hbusy]
  by_cases hcyc : ∀ i ∈ snapCycle s, engOf i ≠ engOf y.1
  · exact (faultStep_lateFault _).foldl_stops _ ⟨y, h, rfl⟩ (by rwa [Faultable, getEng_snapCycled hcyc])
  · push Not at hcyc
    obtain ⟨i, hi, he⟩ := hcyc
    exact (faultStep_lateFault _).foldl_faulted _ (he ▸ snapCycled_faulted hi)

/-- R265: no other engine changes. -/
theorem snapshot_others (hbusy : flagF s BA_STATUS_SNAP_BUSY 0 = true) {e : Eng} (hcyc : engIdx e ∉ snapCycle s)
    (hlate : ∀ y ∈ snapLate s, engOf y.1 ≠ e ∨ ¬ Faultable s e) : getEng (snapshot s) e = getEng s e := by
  have hkeys : ∀ i ∈ snapCycle s, engOf i ≠ e := fun i hi he => hcyc (by rwa [← he, engIdx_engOf (snapCycle_waiting hi).1])
  have hsame := getEng_snapCycled hkeys
  have hidle : (∀ y ∈ snapLate s, lateEng y ≠ e) ∨ ¬ Faultable (snapCycled s) e := by
    rw [Faultable, hsame]
    by_cases hf : Faultable s e
    · exact .inl fun y hy => (hlate y hy).resolve_right (not_not.2 hf)
    · exact .inr hf
  rw [snapshot_eq hbusy]
  exact ((faultStep_lateFault _).foldl_others _ hidle).trans hsame

/-- R581, R265: the faults of the engines on cycles leave room for those of the others. -/
theorem snapCycled_room (hroom : s.eb.events.length + (snapCycle s).length + (snapLate s).length ≤ 3840) :
    (snapCycled s).eb.events.length + (snapLate s).length ≤ 3840 := by
  have heb := (snapNumbered_shows s).2.2.2.1
  have hgrown := ((faultStep_waitFault 0x0204 (snapDetail s)).foldl_grows (snapCycle s) (snapNumbered s)).length (by rw [heb]; omega)
  rw [heb] at hgrown
  exact Nat.le_trans (Nat.add_le_add_right hgrown _) hroom

theorem snapCycled_queued (hroom : s.eb.events.length + (snapCycle s).length ≤ 3840) {i : Nat} (h : i ∈ snapCycle s) :
    ∃ tag pc, FaultQueued (snapCycled s) (engOf i) 0x0204 tag pc (snapDetail s) := by
  obtain ⟨l, r, hsplit⟩ := List.append_of_mem h
  obtain ⟨u, hu⟩ : ∃ u, l.foldl (waitFault 0x0204 (snapDetail s)) (snapNumbered s) = u := ⟨_, rfl⟩
  obtain ⟨tag, pc, t, heq⟩ := waitFault_eq 0x0204 (snapDetail s) u i
  refine ⟨tag, pc, ?_⟩
  rw [snapCycled, hsplit]
  refine (faultStep_waitFault ..).foldl_queued (by rw [(snapNumbered_shows s).2.2.2.1, ← hsplit]; exact hroom) fun hlt => ?_
  rw [hu] at hlt ⊢
  exact heq ▸ faultQueued_faultEngine hlt ..

/-- R265: a record of every engine on a cycle. -/
theorem snapshot_cycle_queued (hbusy : flagF s BA_STATUS_SNAP_BUSY 0 = true)
    (hroom : s.eb.events.length + (snapCycle s).length + (snapLate s).length ≤ 3840) {i : Nat} (h : i ∈ snapCycle s) :
    ∃ tag pc, FaultQueued (snapshot s) (engOf i) 0x0204 tag pc (snapDetail s) := by
  obtain ⟨tag, pc, hq⟩ := snapCycled_queued (Nat.le_trans (Nat.le_add_right _ _) hroom) h
  rw [snapshot_eq hbusy]
  exact ⟨tag, pc, ((faultStep_lateFault _).foldl_grows _ _).queued (snapCycled_room hroom) hq⟩

/-- R265: a record of every other engine that timed out once. -/
theorem snapshot_late_queued (hbusy : flagF s BA_STATUS_SNAP_BUSY 0 = true)
    (hroom : s.eb.events.length + (snapCycle s).length + (snapLate s).length ≤ 3840) {y : Nat × Nat × Nat} (h : y ∈ snapLate s)
    (hcyc : engOf y.1 ∉ (snapCycle s).map engOf) (honce : ((snapLate s).filter (fun z => engOf z.1 == engOf y.1)).length = 1)
    (hlive : Faultable s (engOf y.1)) : FaultQueued (snapshot s) (engOf y.1) 0x0203 y.2.1 y.2.2 (snapDetail s) := by
  obtain ⟨l, r, hsplit⟩ := List.append_of_mem h
  have hfirst : ∀ z ∈ l, lateEng z ≠ engOf y.1 := fun z hz he => by
    have hpos : 0 < (l.filter (fun z => engOf z.1 == engOf y.1)).length := List.length_pos_of_mem (List.mem_filter.2 ⟨hz, beq_iff_eq.2 he⟩)
    simp only [hsplit, List.filter_append, List.filter_cons, BEq.rfl, if_true, List.length_append, List.length_cons] at honce
    omega
  have hsame : getEng (l.foldl (lateFault (snapDetail s)) (snapCycled s)) (engOf y.1) = getEng s (engOf y.1) :=
    ((faultStep_lateFault _).foldl_others l (.inl hfirst)).trans (getEng_snapCycled fun i hi he => hcyc (List.mem_map.2 ⟨i, hi, he⟩))
  rw [snapshot_eq hbusy, hsplit]
  refine (faultStep_lateFault _).foldl_queued (hsplit ▸ snapCycled_room hroom) fun hlt => ?_
  rw [lateFault_faultable (by rwa [Faultable, lateEng, hsame])]
  exact faultQueued_faultEngine hlt ..

end

/-! The timeout. -/

/-- R253: the counts that an engine's wait may run for. -/
def waitLimit (s : State) (e : Eng) : Nat := (if getP s e P_WAIT_TMO_US = 0 then 1000000 else getP s e P_WAIT_TMO_US) * 1000

/-- R264: an engine's timed-out wait is among those of the snapshot that starts or runs. -/
def joinSnapshot (s : State) (e : Eng) (lim : Nat) : State :=
  if s.snapWaits.any (fun x => x.1 = engIdx e) then s
  else { s with snapWaits := s.snapWaits ++ [(engIdx e, lateTag s e lim)] }

theorem joinSnapshot_shows (s : State) (e : Eng) (lim : Nat) : let t := joinSnapshot s e lim
    (∃ y ∈ t.snapWaits, y.1 = engIdx e) ∧ (∀ y ∈ s.snapWaits, y ∈ t.snapWaits) ∧ t.regs = s.regs ∧ t.engines = s.engines
      ∧ Only [.snapWaits] s t := by
  intro t
  by_cases h : s.snapWaits.any (fun x => x.1 = engIdx e) = true
  · rw [show t = s from if_pos h]
    obtain ⟨y, hy, he⟩ := List.any_eq_true.1 h
    exact ⟨⟨y, hy, of_decide_eq_true he⟩, fun _ => id, rfl, rfl, only_refl _ s⟩
  · rw [show t = _ from if_neg h]
    refine ⟨⟨_, List.mem_append_right _ (List.mem_singleton_self _), rfl⟩, fun y => List.mem_append_left _, rfl, rfl, fun p hp => ?_⟩
    cases p
    case snapWaits => exact absurd hp (by decide)
    all_goals rfl

/-- R264: an engine whose wait ran out marks the snapshot as running and joins it. -/
theorem waitTimeout_joins {u : State} {e : Eng} (h : ∃ w ∈ openWaits u (engIdx e), waitLimit u e ≤ waitElapsed u e w) :
    waitTimeout u e = joinSnapshot (setF u BA_STATUS_SNAP_BUSY 0 1) e (waitLimit u e) := by
  obtain ⟨w, hw, hle⟩ := h
  exact if_pos (List.any_eq_true.2 ⟨w, hw, decide_eq_true hle⟩)

theorem waitTimeout_early {u : State} {e : Eng} (h : ∀ w ∈ openWaits u (engIdx e), waitElapsed u e w < waitLimit u e) : waitTimeout u e = u :=
  if_neg (by simpa [waitLimit] using h)

/-- Settles O19: a timeout joins the snapshot; the snapshot faults the engines on cycles one after another, then the others that timed
out. -/
theorem waitTimeouts : Obligations.WaitTimeouts := by
  unfold Obligations.WaitTimeouts
  refine ⟨fun e dt s _ => ⟨fun h => ⟨_, rfl, ?joins⟩, fun h => congrArg Host.Outcome.next (waitTimeout_early h)⟩,
    fun s _ hbusy => ⟨_, rfl, ?snapshot⟩, fun s hidle => congrArg Host.Outcome.next (if_neg (by simp [hidle]))⟩
  case joins =>
    obtain ⟨u, hu⟩ : ∃ u, setF (advance s dt) BA_STATUS_SNAP_BUSY 0 1 = u := ⟨_, rfl⟩
    have hmarked : Moves 0xa s u := hu ▸ (setF_moves ..).next (by decide) ((advance_moves s dt).le (by decide))
    have hregs : RegsBut [fldKey 7 BA_STATUS_SNAP_BUSY 0 0] s u := hu ▸ regsBut_wrF (advance s dt) 7 BA_STATUS_SNAP_BUSY 0 0 1
    have hset : getF u BA_STATUS_SNAP_BUSY 0 = 1 := hu ▸ getF_setF_same _ BA_STATUS_SNAP_BUSY 0 1 (by decide)
    have hwaits : s.snapWaits = u.snapWaits := hmarked.same .snapWaits (by decide)
    obtain ⟨hjoined, hkept, hjregs, hjengs, honly⟩ := joinSnapshot_shows u e (waitLimit (advance s dt) e)
    rw [waitTimeout_joins h, hu]
    refine ⟨?_, hjoined, hwaits ▸ hkept, fun e' _ => ?_, regs_trans hregs (regsBut_of_regs _ hjregs),
      only_trans (only_of _ hmarked (by decide)) (only_mono honly (by simp))⟩
    · exact (getF_of_regsBut (regsBut_of_regs [] hjregs) (by simp)).trans hset
    · rw [getEng, hjengs]
      exact getEng_of_moves hmarked (by decide) e'
  case snapshot =>
    obtain ⟨hnum, hwaits, hclear, -, -⟩ := snapNumbered_shows s
    have hmoves := snapshot_moves_numbered hbusy
    refine ⟨?_, ?_, ?_, fun i hi => snapshot_cycle hbusy hi, fun y hy hl => snapshot_late hbusy hy hl,
      fun e hcyc hlate => snapshot_others hbusy hcyc hlate, fun hroom => ⟨fun i hi => snapshot_cycle_queued hbusy hroom hi,
        fun y hy hcyc honce hl => snapshot_late_queued hbusy hroom hy hcyc honce hl⟩⟩
    · exact (hmoves.same .snapNum (by decide)).symm.trans hnum
    · exact (hmoves.same .snapWaits (by decide)).symm.trans hwaits
    · show getF (snapshot s) BA_STATUS_SNAP_BUSY 0 = 0
      rw [snapshot_eq hbusy, (faultStep_lateFault _).foldl_busy, snapCycled, (faultStep_waitFault ..).foldl_busy, hclear]

end Sys2Proof.Proofs

/-! PROOFS. Increments that reach a counter (R242, R243, R245): how an increment is applied or refused, the wait that it satisfies, and the
statement about them. -/
namespace Sys2Proof.Proofs
open Sys2Proof Sys2Proof.Machine Sys2Proof.Laws

/-! The waits on a counter. -/

/-- A fold in which one element alone acts, and only once. -/
theorem foldl_once {α β : Type} {f : β → α → β} {u v : β} {x : α} (hx : f u x = v) (hno : ∀ y, y ≠ x → f u y = u) (hend : ∀ y, f v y = v) :
    ∀ {l : List α}, x ∈ l → l.foldl f u = v
  | y :: l, hmem => by
    rw [List.foldl_cons]
    by_cases hy : y = x
    · rw [hy, hx, List.foldl_fixed' hend]
    · rw [hno y hy]
      exact foldl_once hx hno hend ((List.mem_cons.1 hmem).resolve_left (Ne.symm hy))

section
variable {s : State} {p c : Nat} {e : Eng}

theorem satisfyIssue_unwaited (h : ∀ w, homeOf s e = some p → (getEng s e).wait = some w → w.ctr ≠ c) : satisfyIssue s p c e = s := by
  unfold satisfyIssue
  dsimp only
  split
  · next w hw => exact if_neg fun ⟨_, hc, _, hhome, _⟩ => h w hhome hw hc
  · rfl

theorem satisfyFill_unwaited (h : ∀ w, homeOf s e = some p → (getEng s e).fwait = some w → w.ctr ≠ c) : satisfyFill s p c e = s := by
  unfold satisfyFill
  dsimp only
  split
  · next w hw => exact if_neg fun ⟨_, hc, hhome, _⟩ => h w hhome hw hc
  · rfl

theorem satisfyCv_unwaited {u : Nat} (h : (if u = 0 then (getTile s p).cv0 else (getTile s p).cv1) ≠ 1 ∨ getFi s TL_CV_TRIG_CTR p u ≠ c) :
    satisfyCv s p c u = s := if_neg fun ⟨hcv, hc, _⟩ => h.elim (fun hn => hn hcv) fun hn => hn hc

/-- R245, R252: the issue wait of an engine, then that of its fill stage. -/
def testEng (p c : Nat) (s : State) (e : Eng) : State := satisfyFill (satisfyIssue s p c e) p c e

theorem testEng_unwaited (h : ∀ w, homeOf s e = some p → (getEng s e).wait = some w ∨ (getEng s e).fwait = some w → w.ctr ≠ c) :
    testEng p c s e = s := by
  rw [testEng, satisfyIssue_unwaited fun w hh hw => h w hh (.inl hw), satisfyFill_unwaited fun w hh hw => h w hh (.inr hw)]

/-- R246: the engines of the tile are tested in turn; the collective engines and the check-value units, tested next, take nothing. -/
theorem testWaits_acts {v : State} (hengs : (waitOrder (getTile s p) c).foldl (fun s k => testEng p c s (.tile (Fin.ofNat 72 p) k)) s = v)
    (hces : ∀ d, satisfyIssue v p c (.ce d) = v) (hcv : satisfyCv v p c 0 = v ∧ satisfyCv v p c 1 = v) : testWaits s p c = v := by
  have heq : testWaits s p c = satisfyCv (satisfyCv ((List.range 4).foldl (fun s i => satisfyIssue s p c (.ce (Fin.ofNat 4 i)))
    ((waitOrder (getTile s p) c).foldl (fun s k => testEng p c s (.tile (Fin.ofNat 72 p) k)) s)) p c 0) p c 1 := rfl
  rw [heq, hengs, List.foldl_fixed' fun i => hces _, hcv.1, hcv.2]

/-- R242: a counter that nobody waits on keeps what reached it. -/
theorem testWaits_unwaited (h : Unwaited s p c) : testWaits s p c = s := by
  obtain ⟨hengs, hcv0, hcv1⟩ := h
  have hfixed : ∀ k, testEng p c s (.tile (Fin.ofNat 72 p) k) = s := fun k => testEng_unwaited (hengs _)
  exact testWaits_acts (List.foldl_fixed' hfixed _) (fun d => satisfyIssue_unwaited fun w hh hw => hengs _ w hh (.inl hw))
    ⟨satisfyCv_unwaited (by simpa using hcv0), satisfyCv_unwaited (by simpa using hcv1)⟩

/-- R246: every engine of a tile is tested. -/
theorem mem_waitOrder (t : Tile) (c : Nat) (k : EngKind) : k ∈ waitOrder t c := by
  unfold waitOrder
  split <;> cases k <;> decide

end

/-! The trace records of a command. -/

/-- R231: a command that wrote no record of a tile drops none. -/
theorem traceCap_same {b s : State} {p : Nat} (h : getF s TL_TRACE_HEAD_NEXT p = getF b TL_TRACE_HEAD_NEXT p) : traceCap b s p = s := by
  refine if_pos ?_
  rw [h, Nat.add_sub_cancel_left]
  decide

/-- A counter is in no register of a tile's page. -/
theorem getCtr_setF_tile (s : State) {p : Nat} (hp : p < 72) {f : Fld} (hf : f.blk = 2 ∧ f.off < 4096) (v p' c : Nat) :
    getCtr (setF s f p v) p' c = getCtr s p' c := by
  refine getCtr_of_regsBut (regsBut_wrF s f.blk f p 0 v) ?_
  simp only [List.mem_singleton, ctrKey, fldKey, regKey, hf.1, SY_CTR]
  omega

/-- R231: the records that a command drops touch no counter. -/
theorem getCtr_traceCap (b s : State) {p : Nat} (hp : p < 72) (p' c : Nat) : getCtr (traceCap b s p) p' c = getCtr s p' c := by
  unfold traceCap
  dsimp only
  split
  · rfl
  · rw [addF, getCtr_setF_tile _ hp (by decide)]
    split
    · rw [getCtr_setF_tile _ hp (by decide), getCtr_setF_tile _ hp (by decide)]
      rfl
    · rw [getCtr_setF_tile _ hp (by decide)]
      rfl

/-! The increments of a cycle. -/

/-- R242: the registers that the increments of a counter write. -/
def incrKeys (p c : Nat) : List Nat := [ctrKey p c, fldKey 6 SY_SIGNALS p 0]

/-- R242, R243: increments have reached a counter, or have been refused by packets; no wait has been tested. -/
structure Counted (p c : Nat) (s u : State) : Prop where
  regs : RegsBut (incrKeys p c) s u
  tiles : ∀ r, ∃ l, getTile u r = { getTile s r with pend := l }
  frame : Only [.regs, .tiles, .router] s u

theorem Counted.getEng {p c : Nat} {s u : State} (h : Counted p c s u) (e : Eng) : getEng u e = getEng s e := by
  have heng : s.engines = u.engines := h.frame .engines (by decide)
  rw [Machine.getEng, Machine.getEng, heng]

section
variable {s u : State} {p c : Nat}

/-- R242: the registers that increments write lie in the counters' page. -/
theorem not_incrKeys (hp : p < 72) (hc : c < 256) {b i off : Nat} (hb : b ≠ 6) (hi : i < 256) (hoff : off < 4096) :
    regKey b i off ∉ incrKeys p c := by
  simp only [incrKeys, List.mem_cons, List.not_mem_nil, or_false, ctrKey, fldKey, regKey, SY_CTR, SY_SIGNALS]
  omega

theorem Counted.homeOf (h : Counted p c s u) (hp : p < 72) (hc : c < 256) (e : Eng) : homeOf u e = homeOf s e :=
  homeOf_same e (fun d => h.regs _ (not_incrKeys hp hc (by decide) (by omega) (by decide))) (h.frame .tmap (by decide)).symm

theorem Counted.trigger (h : Counted p c s u) (hp : p < 72) (hc : c < 256) {i : Nat} (hi : i < 2) :
    getFi u TL_CV_TRIG_CTR p i = getFi s TL_CV_TRIG_CTR p i :=
  congrArg (fun v : DWord => bits v.toNat 0 8)
    (h.regs _ (not_incrKeys hp hc (by decide) (by omega) (by simp only [TL_CV_TRIG_CTR]; omega)))

theorem Counted.unwaited (h : Counted p c s u) (hp : p < 72) (hc : c < 256) (hun : Unwaited s p c) : Unwaited u p c := by
  obtain ⟨hengs, hcv0, hcv1⟩ := hun
  obtain ⟨l, htile⟩ := h.tiles p
  refine ⟨fun e w hh hw => hengs e w (h.homeOf hp hc e ▸ hh) (h.getEng e ▸ hw), ?_, ?_⟩
  · rw [htile, h.trigger hp hc (by decide)]
    exact hcv0
  · rw [htile, h.trigger hp hc (by decide)]
    exact hcv1

/-- R242: where nobody waits on the counter, nothing follows. -/
theorem Counted.settles (h : Counted p c s u) (hp : p < 72) (hc : c < 256) (hun : Unwaited s p c) : traceCap s (testWaits u p c) p = u := by
  rw [testWaits_unwaited (h.unwaited hp hc hun)]
  exact traceCap_same (getF_of_regsBut h.regs (not_incrKeys hp hc (by decide) (by omega) (by decide)))

end

/-- R242: the increments that do not reach the counter stay on their way. -/
def incrTaken (s : State) (p : Nat) (l : List Incr) : State := modTile s p (fun t => { t with pend := l })

theorem incrementCtr_eq {s : State} {p c n : Nat} {now later : List Incr} (htake : takeIncr c n (getTile s p).pend = (now, later))
    (hne : now ≠ []) : incrementCtr s p c n = traceCap s (testWaits (applyIncrs (incrTaken s p later) p c now) p c) p := by
  simp only [incrementCtr, htake]
  exact if_neg (by simpa using hne)

/-- R242: the sum stands in the counter, and nothing has been acknowledged. -/
def incrSummed (s : State) (p c v n : Nat) : State := addStat (setCtr s p c v) SY_SIGNALS p n

/-- R242: the two registers of a tile's counters that a sum writes differ. -/
theorem signals_not_ctr (p c : Nat) : fldKey 6 SY_SIGNALS p 0 ∉ [ctrKey p c] ∧ ctrKey p c ∉ [fldKey 6 SY_SIGNALS p 0] := by
  simp only [List.mem_singleton, ctrKey, fldKey, regKey, SY_CTR, SY_SIGNALS]
  omega

theorem incrSummed_shows (s : State) (p c v n : Nat) : let u := incrSummed s p c v n
    getCtr u p c = v % 2 ^ 24 ∧ getF u SY_SIGNALS p = (getF s SY_SIGNALS p + n) % 2 ^ 64 ∧ RegsBut (incrKeys p c) s u ∧ Moves 0x8 s u := by
  intro u
  have hset : RegsBut [ctrKey p c] s (setCtr s p c v) := regsBut_wrF s 6 SY_CTR p c v
  have hstat : RegsBut [fldKey 6 SY_SIGNALS p 0] (setCtr s p c v) u :=
    regsBut_wrF (setCtr s p c v) 6 SY_SIGNALS p 0 ((getF (setCtr s p c v) SY_SIGNALS p + n) % 2 ^ 64)
  refine ⟨?_, ?_, regs_trans (regs_mono hset (by simp [incrKeys])) (regs_mono hstat (by simp [incrKeys])),
    (addStat_moves ..).next (by decide) ((setCtr_moves ..).le (by decide))⟩
  · rw [getCtr_of_regsBut hstat (signals_not_ctr p c).2]
    exact getFi_setFi_same _ _ _ _ _ (by decide)
  · have hsum := getF_setF_same (setCtr s p c v) SY_SIGNALS p ((getF (setCtr s p c v) SY_SIGNALS p + n) % 2 ^ 64) (by decide)
    rw [show SY_SIGNALS.len = 64 from rfl, Nat.mod_mod] at hsum
    exact hsum.trans (by rw [getF_of_regsBut hset (f := SY_SIGNALS) (signals_not_ctr p c).1])

/-- R242: what a cycle's increments leave of the tiles. -/
theorem counted_of_taken {s u : State} {p c : Nat} {l : List Incr} (hregs : RegsBut (incrKeys p c) (incrTaken s p l) u)
    (hmoves : Moves 0x100008 (incrTaken s p l) u) : Counted p c s u ∧ (getTile u p).pend = l ∧ TilesBut [p] s u := by
  have htile : ∀ r, getTile u r = getTile (incrTaken s p l) r := getTile_of_moves hmoves (by decide)
  have hown : getTile (incrTaken s p l) p = { getTile s p with pend := l } := getTile_setTile_same ..
  have hothers : ∀ r, r ≠ p → getTile (incrTaken s p l) r = getTile s r := fun r hr => getTile_setTile_other _ _ hr
  refine ⟨⟨hregs, fun r => ?_, only_trans (only_of _ (modTile_moves ..) (by decide)) (only_of _ hmoves (by decide))⟩, by rw [htile, hown],
    fun r hr => (htile r).trans (hothers r (by simpa using hr))⟩
  by_cases hr : r = p
  · exact ⟨l, by rw [hr, htile, hown]⟩
  · exact ⟨_, (htile r).trans (hothers r hr)⟩

/-- R242: a sum within the counter. -/
theorem applyIncrs_sum {s : State} {p c : Nat} (l : List Incr) {now : List Incr} (h : getCtr s p c + sumNat (now.map (·.val)) ≤ 16777215) :
    applyIncrs (incrTaken s p l) p c now =
      now.foldl ackIncr (incrSummed (incrTaken s p l) p c (getCtr s p c + sumNat (now.map (·.val))) now.length) := if_neg (Nat.not_lt.2 h)

/-- R243: a sum past the counter. -/
theorem applyIncrs_past {s : State} {p c : Nat} (l : List Incr) {now : List Incr} (h : 16777215 < getCtr s p c + sumNat (now.map (·.val))) :
    applyIncrs (incrTaken s p l) p c now = now.foldl (fun s i => refuseIncr s p i) (setCtr (incrTaken s p l) p c 16777215) := if_pos h

/-- R242, R249: a sum is counted, and its sy.sig increments are acknowledged. -/
theorem counted_sum (s : State) (p c : Nat) (l now : List Incr) (v : Nat) :
    let u := now.foldl ackIncr (incrSummed (incrTaken s p l) p c v now.length)
    (Counted p c s u ∧ (getTile u p).pend = l ∧ TilesBut [p] s u) ∧ getCtr u p c = v % 2 ^ 24
      ∧ getF u SY_SIGNALS p = (getF s SY_SIGNALS p + now.length) % 2 ^ 64 := by
  intro u
  obtain ⟨hctr, hstat, hregs, hmoves⟩ := incrSummed_shows (incrTaken s p l) p c v now.length
  have hack : Moves 0x100000 (incrSummed (incrTaken s p l) p c v now.length) u := Moves.foldl _ (fun _ _ => ackIncr_moves ..) _ (Moves.refl _ _)
  have hack_regs : ∀ ks, RegsBut ks (incrSummed (incrTaken s p l) p c v now.length) u := regsBut_of_moves hack (by decide)
  exact ⟨counted_of_taken (regs_trans hregs (hack_regs _)) (hack.next (by decide) (hmoves.le (by decide))),
    (getCtr_of_regsBut (hack_regs []) (by simp)).trans hctr, (getF_of_regsBut (hack_regs []) (by simp)).trans hstat⟩

/-- R243: each sy.sig increment past the counter is refused to its sender. -/
theorem refuseSignals {p : Nat} : ∀ (now : List Incr) (s : State), (∀ i ∈ now, ∃ k, i.src = .signal k) →
    let u := now.foldl (fun s i => refuseIncr s p i) s
    (∃ ks, u.router.inject = s.router.inject ++ ks ∧ ks.length = now.length ∧ ∀ k ∈ ks, k.typ = 9 ∧ k.payload = nackBytes 0x0206)
      ∧ Moves 0x100000 s u
  | [], s, _ => ⟨⟨[], by simp, rfl, by simp⟩, Moves.refl _ s⟩
  | i :: now, s, hsrc => by
    obtain ⟨pkt, hpkt⟩ := hsrc i List.mem_cons_self
    have hnack : refuseIncr s p i = sendNack s pkt 0x0206 := by rw [refuseIncr, hpkt]
    obtain ⟨⟨ks, hinj, hlen, hks⟩, hmoves⟩ := refuseSignals now (refuseIncr s p i) fun j hj => hsrc j (List.mem_cons_of_mem _ hj)
    refine ⟨⟨reply s pkt 9 (nackBytes 0x0206) :: ks, hinj.trans ?_, congrArg Nat.succ hlen, ?_⟩, hmoves.next (by decide) (hnack ▸ sendNack_moves ..)⟩
    · rw [hnack]
      exact List.append_assoc _ [_] ks
    · exact List.forall_mem_cons.2 ⟨⟨rfl, rfl⟩, hks⟩

/-! A waiting engine that goes on. -/

section
variable {s : State} {p : Nat} {k : EngKind} {q : QEntry} {w : Wait} {c : Nat}

/-- R245: an engine whose wait is satisfied, before its sy.wait leaves the queue. -/
def waitTaken (s : State) (p c : Nat) (e : Eng) (q : QEntry) (v : Nat) : State :=
  traceEv (setEng (takeCtr s p c v e) e { getEng s e with st := .running, wait := none }) e (iT q.word) (iTag q.word) q.idx 1 c

/-- R245: of all engines `e` alone waits, and in the sy.wait at its front. -/
structure LoneWait (s : State) (e : Eng) (w : Wait) (q : QEntry) (qs : List QEntry) : Prop where
  st : (getEng s e).st = .waiting
  wait : (getEng s e).wait = some w
  kind : w.kind = .sywait
  fill : (getEng s e).fwait = none
  queue : (getEng s e).queue = q :: qs
  plain : iV q.word = false
  alone : ∀ e', e' ≠ e → (getEng s e').wait = none ∧ (getEng s e').fwait = none

theorem LoneWait.of_getEng {t : State} {e : Eng} {qs : List QEntry} (h : LoneWait s e w q qs) (heng : ∀ e', getEng t e' = getEng s e') :
    LoneWait t e w q qs := by
  obtain ⟨hst, hw, hkind, hf, hq, hv, halone⟩ := h
  simp only [← heng] at hst hw hf hq halone
  exact ⟨hst, hw, hkind, hf, hq, hv, halone⟩

/-- R245: an engine that waits in sy.wait for what the counter holds goes on. -/
theorem satisfyIssue_takes {e : Eng} {qs : List QEntry} (h : LoneWait s e w q qs) (hhome : homeOf s e = some p)
    (hval : w.val ≤ getCtr s p w.ctr) : satisfyIssue s p w.ctr e = finishFront (waitTaken s p w.ctr e q w.val) e q := by
  unfold satisfyIssue
  simp only [h.wait]
  rw [if_pos ⟨h.st, trivial, .inr (.inl h.kind), hhome, hval⟩]
  simp only [h.kind, h.queue, h.fill, waitTaken, Option.isSome_none, Bool.false_eq_true, if_false]

/-- R245: the engine that goes on, and what else its wait's end moves. -/
theorem waitTaken_shows (hs : Canon s) (e : Eng) (hv : iV q.word = false) (v : Nat) :
    let t := finishFront (waitTaken s p c e q v) e q
    (∃ n, getEng t e = { getEng s e with st := .running, wait := none, queue := (getEng s e).queue.drop 1, since := n }) ∧ EngsBut [e] s t
      ∧ getCtr t p c = getCtr s p c - v ∧ (getTile t p).cv0 = (getTile s p).cv0 ∧ (getTile t p).cv1 = (getTile s p).cv1 := by
  intro t
  obtain ⟨a, ha⟩ : ∃ a, setEng (takeCtr s p c v e) e { getEng s e with st := .running, wait := none } = a := ⟨_, rfl⟩
  obtain ⟨b, hb⟩ : ∃ b, waitTaken s p c e q v = b := ⟨_, rfl⟩
  have ht : t = finishFront b e q := hb ▸ rfl
  have htrace : b = traceEv a e (iT q.word) (iTag q.word) q.idx 1 c := by rw [← hb, waitTaken, ha]
  have hca : Canon a := ha ▸ canon_setEng ((takeCtr_moves ..).canon hs) e _
  have hcb : Canon b := htrace ▸ canon_traceEv hca ..
  have hengb : ∀ e', getEng b e' = getEng a e' := fun e' => by rw [htrace, getEng_traceEv]
  have hown : getEng a e = { getEng s e with st := .running, wait := none } := ha ▸ getEng_setEng_same ..
  have hothers : EngsBut [e] s a := fun e' he => by
    rw [← ha, getEng_setEng_other _ _ (by simpa using he), getEng_of_moves (takeCtr_moves ..) (by decide)]
  have hret := finishFront_retires hcb e q hv
  obtain ⟨x, htake⟩ := getTile_takeCtr s p c v e p
  obtain ⟨y, htrc⟩ := getTile_traceEv hca e (iT q.word) (iTag q.word) q.idx 1 c p
  have htile : getTile b p = { getTile s p with rot := x, trace := y } := by
    rw [htrace, htrc, ← ha, getTile_setEng, htake]
  have hcore := hret.tiles p
  rw [ht]
  refine ⟨⟨b.gsc, ?_⟩, engsBut_trans (engsBut_trans hothers fun e' _ => hengb e') hret.others, ?_, ?_, ?_⟩
  · rw [finishFront, getEng_of_moves (completeDone_moves ..) (by decide), getEng_traceEv, popFront, modEng, getEng_setEng_same, hengb, hown]
  · have hregs : RegsBut (traceKeys e) (takeCtr s p c v e) (finishFront b e q) := by
      refine regs_trans (regs_trans (t := a) (regsBut_of_regs _ (by rw [← ha]; rfl)) ?_) hret.regs
      rw [htrace]
      exact traceEv_regs _ _ _ _ _ _ _
    have htaken : getCtr (takeCtr s p c v e) p c = getCtr s p c - v := by
      rw [← getCtr_setCtr_sub]
      cases e <;> rfl
    rw [getCtr_of_regsBut hregs (ctrKey_not_trace p c e), htaken]
  · have := congrArg Tile.cv0 hcore
    simpa only [htile] using this
  · have := congrArg Tile.cv1 hcore
    simpa only [htile] using this

/-- R245, R246: the one engine that waits for what the counter holds goes on. -/
theorem testWaits_takes (hs : Canon s) {p : Fin 72} {qs : List QEntry} (h : LoneWait s (.tile p k) w q qs)
    (hval : w.val ≤ getCtr s p w.ctr) (hcv : (getTile s p).cv0 ≠ 1 ∧ (getTile s p).cv1 ≠ 1) :
    testWaits s p w.ctr = finishFront (waitTaken s p w.ctr (.tile p k) q w.val) (.tile p k) q := by
  obtain ⟨v, hvt⟩ : ∃ v, finishFront (waitTaken s p w.ctr (.tile p k) q w.val) (.tile p k) q = v := ⟨_, rfl⟩
  obtain ⟨⟨n, hown⟩, hothers, -, hcv0, hcv1⟩ := waitTaken_shows (p := p.val) (c := w.ctr) hs (.tile p k) h.plain w.val
  rw [hvt] at hown hothers hcv0 hcv1 ⊢
  have hvidle : ∀ e', (getEng v e').wait = none ∧ (getEng v e').fwait = none := fun e' => by
    by_cases he : e' = .tile p k
    · rw [he, hown]
      exact ⟨rfl, h.fill⟩
    · rw [hothers e' (by simpa using he)]
      exact h.alone e' he
  have hissue : ∀ e', satisfyIssue v p w.ctr e' = v := fun e' => satisfyIssue_unwaited fun _ _ hw => by simp [(hvidle e').1] at hw
  have hfill : ∀ e', satisfyFill v p w.ctr e' = v := fun e' => satisfyFill_unwaited fun _ _ hw => by simp [(hvidle e').2] at hw
  refine testWaits_acts ?_ (fun d => hissue _) ⟨satisfyCv_unwaited (.inl (by simpa [hcv0] using hcv.1)),
    satisfyCv_unwaited (.inl (by simpa [hcv1] using hcv.2))⟩
  have hhome : (Fin.ofNat 72 p.val : Fin 72) = p := by simp
  simp only [hhome]
  refine foldl_once ?goesOn (fun j hj => ?idle) (fun j => by rw [testEng, hissue, hfill]) (mem_waitOrder _ _ k)
  case goesOn => rw [testEng, satisfyIssue_takes h rfl hval, hvt, hfill]
  case idle =>
    obtain ⟨hwait, hfwait⟩ := h.alone (.tile p j) (by simpa using hj)
    exact testEng_unwaited fun _ _ hw => by simp [hwait, hfwait] at hw

end

/-! The rows. -/

section
variable {s : State} {p : Fin 72} {c : Fin 256} {n : Nat} {now later : List Incr}

/-- R242: increments within the counter that nobody waits on. -/
theorem incrementCtr_sum (htake : takeIncr c n (getTile s p).pend = (now, later)) (hne : now ≠ []) (hun : Unwaited s p c)
    (hle : getCtr s p c + sumNat (now.map (·.val)) ≤ 16777215) :
    let t := incrementCtr s p c n
    getCtr t p c = getCtr s p c + sumNat (now.map (·.val)) ∧ getF t SY_SIGNALS p = (getF s SY_SIGNALS p + now.length) % 2 ^ 64
      ∧ (getTile t p).pend = later ∧ TilesBut [p.val] s t ∧ RegsBut (incrKeys p c) s t ∧ Only [.regs, .tiles, .router] s t := by
  intro t
  obtain ⟨⟨hcount, hpend, htiles⟩, hctr, hstat⟩ := counted_sum s p c later now (getCtr s p c + sumNat (now.map (·.val)))
  rw [show t = _ from incrementCtr_eq htake hne, applyIncrs_sum later hle, hcount.settles p.isLt c.isLt hun]
  exact ⟨hctr.trans (Nat.mod_eq_of_lt (Nat.lt_succ_of_le hle)), hstat, hpend, htiles, hcount.regs, hcount.frame⟩

/-- R243: sy.sig increments past the counter that nobody waits on. -/
theorem incrementCtr_past (htake : takeIncr c n (getTile s p).pend = (now, later)) (hne : now ≠ []) (hun : Unwaited s p c)
    (hgt : 16777215 < getCtr s p c + sumNat (now.map (·.val))) (hsrc : ∀ i ∈ now, ∃ k, i.src = .signal k) :
    let t := incrementCtr s p c n
    getCtr t p c = 16777215 ∧ (getTile t p).pend = later
      ∧ (∃ ks, t.router.inject = s.router.inject ++ ks ∧ ks.length = now.length ∧ ∀ k ∈ ks, k.typ = 9 ∧ k.payload = nackBytes 0x0206)
      ∧ RegsBut [ctrKey p c] s t ∧ Only [.regs, .tiles, .router] s t := by
  intro t
  obtain ⟨u, hu⟩ : ∃ u, setCtr (incrTaken s p later) p c 16777215 = u := ⟨_, rfl⟩
  have hset : Moves 0x8 (incrTaken s p later) u := hu ▸ setCtr_moves ..
  have hregs : RegsBut [ctrKey p c] (incrTaken s p later) u := hu ▸ regsBut_wrF _ 6 SY_CTR p c 16777215
  have hctr : getCtr u p c = 16777215 := hu ▸ getFi_setFi_same _ SY_CTR p c 16777215 (by decide)
  have hrouter : s.router = u.router := hu ▸ rfl
  obtain ⟨hinj, hsent⟩ := refuseSignals (p := p.val) now u hsrc
  have hall := regs_trans hregs (regsBut_of_moves hsent (by decide) _)
  obtain ⟨hcount, hpend, -⟩ := counted_of_taken (c := c) (regs_mono hall (by simp [incrKeys])) (hsent.next (by decide) (hset.le (by decide)))
  rw [show t = _ from incrementCtr_eq htake hne, applyIncrs_past later hgt, hu, hcount.settles p.isLt c.isLt hun]
  exact ⟨(getCtr_of_regsBut (regsBut_of_moves hsent (by decide) []) (by simp)).trans hctr, hpend, hrouter ▸ hinj, hall, hcount.frame⟩

/-- R245: one increment satisfies the sy.wait of the one engine that waits. -/
theorem incrementCtr_takes (hs : Canon s) {i : Incr} {k : EngKind} {q : QEntry} {qs : List QEntry} {w : Wait}
    (htake : takeIncr c n (getTile s p).pend = ([i], later)) (h : LoneWait s (.tile p k) w q qs) (hwc : w.ctr = c.val)
    (hval : w.val ≤ getCtr s p c + i.val) (hmax : getCtr s p c + i.val ≤ 16777215)
    (hcv : (getTile s p).cv0 ≠ 1 ∧ (getTile s p).cv1 ≠ 1) :
    let t := incrementCtr s p c n
    getCtr t p c = getCtr s p c + i.val - w.val ∧ (getEng t (.tile p k)).st = .running ∧ (getEng t (.tile p k)).wait = none
      ∧ (getEng t (.tile p k)).queue = qs ∧ EngsBut [.tile p k] s t := by
  intro t
  have hsum : getCtr s p c + sumNat ([i].map (·.val)) = getCtr s p c + i.val := by simp [sumNat]
  have hcanon : Canon (applyIncrs (incrTaken s p later) p c [i]) := (applyIncrs_moves ..).canon ((modTile_moves ..).canon hs)
  obtain ⟨⟨hcount, -, -⟩, hctr, -⟩ := counted_sum s p c later [i] (getCtr s p c + sumNat ([i].map (·.val)))
  have ht : t = _ := incrementCtr_eq htake (List.cons_ne_nil _ _)
  obtain ⟨u, hu⟩ : ∃ u, applyIncrs (incrTaken s p later) p c [i] = u := ⟨_, rfl⟩
  rw [← applyIncrs_sum later (hsum.trans_le hmax), hu] at hcount hctr
  rw [hsum, Nat.mod_eq_of_lt (by omega)] at hctr
  rw [hu] at hcanon ht
  obtain ⟨l, htile⟩ := hcount.tiles p
  have hacts := testWaits_takes hcanon (h.of_getEng hcount.getEng) (by rw [hwc, hctr]; exact hval) (by rw [htile]; exact hcv)
  obtain ⟨⟨g, hown⟩, hothers, hleft, -, -⟩ := waitTaken_shows (p := p.val) (c := c) hcanon (.tile p k) h.plain w.val
  rw [hwc] at hacts
  rw [← hacts] at hown hothers hleft
  have hcap : ∀ e', getEng t e' = getEng (testWaits u p c) e' := fun e' => by
    rw [ht]
    exact getEng_of_moves (traceCap_moves ..) (by decide) e'
  refine ⟨?_, ?_, ?_, ?_, fun e' he => (hcap e').trans ((hothers e' he).trans (hcount.getEng e'))⟩
  · rw [ht, getCtr_traceCap _ _ p.isLt, hleft, hctr]
  · rw [hcap, hown]
  · rw [hcap, hown]
  · rw [hcap, hown, hcount.getEng, h.queue]
    rfl

/-- R242, R259: a write of a counter that nobody waits on. -/
theorem writeCtr_sets (hstop : tileStopped s p = true) (hun : Unwaited s p c) (v : Nat) : writeCtr s p c v = setCtr s p c (v % 2 ^ 24) := by
  have hcount : Counted p c s (setCtr s p c (v % 2 ^ 24)) :=
    ⟨regs_mono (regsBut_wrF s 6 SY_CTR p c _) (by simp [incrKeys, ctrKey]), fun r => ⟨(getTile s r).pend, rfl⟩, only_of _ (setCtr_moves ..) (by decide)⟩
  exact (if_pos hstop).trans (hcount.settles p.isLt c.isLt hun)

end

/-- Settles O16: increments are summed or refused, then the counter's waits are tested; where nobody waits, nothing follows. -/
theorem incrementsReachCounters : Obligations.IncrementsReachCounters := by
  unfold Obligations.IncrementsReachCounters
  intro p c s hs
  refine ⟨fun n hne hun => ⟨fun hle => ⟨_, rfl, incrementCtr_sum rfl hne hun hle⟩,
      fun hgt hsrc => ⟨_, rfl, incrementCtr_past rfl hne hun hgt hsrc⟩⟩,
    fun i rest k q qs w hpend hi _ => ?waiting, fun v hup hstop hun => ?write, fun v hup hstop => ?refused⟩
  case waiting =>
    intro e hst hw hkind hwc hf hq hv hval hmax halone hcv0 hcv1
    have htake : takeIncr c 1 (getTile s p).pend = ([i], rest) := by
      rw [hpend, takeIncr, if_pos hi]
      cases rest <;> rfl
    exact ⟨_, rfl, incrementCtr_takes hs htake ⟨hst, hw, hkind, hf, hq, hv, halone⟩ hwc hval hmax ⟨hcv0, hcv1⟩⟩
  case write =>
    have hrow : exec (.syCtrWrite p c v) s = .next (setCtr s p c (v.toNat % 2 ^ 24)) :=
      congrArg Host.Outcome.next ((if_pos hup).trans (writeCtr_sets hstop hun v.toNat))
    refine ⟨_, hrow, ?_, regsBut_wrF s 6 SY_CTR p c _, only_of _ (setCtr_moves ..) (by decide)⟩
    exact (getFi_setFi_same _ _ _ _ _ (by decide)).trans (Nat.mod_mod ..)
  case refused =>
    have hrow : exec (.syCtrWrite p c v) s = .next (setF s SY_STATUS_WR_REJ p 1) :=
      congrArg Host.Outcome.next ((if_pos hup).trans (if_neg (by simp [hstop])))
    have hregs : RegsBut [fldKey 6 SY_STATUS_WR_REJ p 0] s (setF s SY_STATUS_WR_REJ p 1) := regsBut_wrF s 6 _ p 0 1
    refine ⟨_, hrow, getF_setF_same s _ p 1 (by decide), getCtr_of_regsBut hregs ?_, hregs, only_of _ (setF_moves ..) (by decide)⟩
    simp only [List.mem_singleton, ctrKey, fldKey, regKey, SY_CTR, SY_STATUS_WR_REJ]
    omega

end Sys2Proof.Proofs

/-! PROOFS. The hint cache (chapter 08): the counters of slices and controllers with the registers apart from them, and one access of a
line, by its hint (R285, R286). -/
namespace Sys2Proof.Proofs
open Sys2Proof Sys2Proof.Machine Sys2Proof.Laws

/-! Counters, and the registers apart from them. -/

theorem getF_addF_same (s : State) {f : Fld} (i n : Nat) (hw : f.lo + f.len ≤ 64) :
    getF (addF s f i n) f i = satAdd f.len (getF s f i) n := by
  have := Nat.two_pow_pos f.len
  rw [addF, getF_setF_same _ _ _ _ hw, Nat.mod_eq_of_lt (by unfold satAdd; omega)]

theorem getF_addStat_same (s : State) {f : Fld} (i n : Nat) (hf : f.lo = 0 ∧ f.len = 64) :
    getF (addStat s f i n) f i = (getF s f i + n) % 2 ^ 64 := by
  rw [addStat, getF_setF_same _ _ _ _ (by omega), hf.2, Nat.mod_mod]

/-- A counter of 64 bits to which nothing is added. -/
theorem getF_add_zero (s : State) {f : Fld} (i : Nat) (hf : f.len = 64) : (getF s f i + 0) % 2 ^ 64 = getF s f i :=
  Nat.mod_eq_of_lt (hf ▸ bits_lt ..)

theorem flagF_of_getF {s t : State} {f : Fld} {i : Nat} (h : getF t f i = getF s f i) : flagF t f i = flagF s f i := by rw [flagF, flagF, h]

/-- Registers of different pages, or at different places of their pages. -/
theorem fKey_not_mem {f : Fld} {gs : List Fld} {i j : Nat} (hi : i < 256) (hj : j < 256)
    (h : ∀ g ∈ gs, f.off < 4096 ∧ g.off < 4096 ∧ (f.blk ≠ g.blk ∨ f.off ≠ g.off)) : fKey f i ∉ gs.map (fKey · j) := by
  intro hmem
  obtain ⟨g, hg, hkey⟩ := List.mem_map.1 hmem
  have := h g hg
  simp only [fKey, fldKey, regKey] at hkey
  omega

/-- A field outside the registers that an operation writes. -/
theorem getF_apart {s t : State} {f : Fld} {gs : List Fld} {i j : Nat} (h : RegsBut (gs.map (fKey · j)) s t) (hi : i < 256) (hj : j < 256)
    (hf : ∀ g ∈ gs, f.off < 4096 ∧ g.off < 4096 ∧ (f.blk ≠ g.blk ∨ f.off ≠ g.off)) : getF t f i = getF s f i :=
  getF_of_regsBut h (fKey_not_mem hi hj hf)

theorem regsBut_setF (s : State) {f : Fld} {gs : List Fld} (hf : f ∈ gs) (i v : Nat) : RegsBut (gs.map (fKey · i)) s (setF s f i v) :=
  regs_mono (regsBut_wrF s f.blk f i 0 v) fun _ hk => List.mem_map.2 ⟨f, hf, (List.mem_singleton.1 hk).symm⟩

theorem getStack_of_moves {m : Nat} {s t : State} (h : Moves m s t) (hm : m.testBit 15 = false) (i : Nat) : getStack t i = getStack s i := by
  have hs : s.hbmStacks = t.hbmStacks := h.same .hbmStacks hm
  rw [getStack, getStack, hs]

/-! What an access writes back (R285, R287). -/

/-- The counters that the accesses of a slice move: its own and the bytes of its stack. -/
def lineCounters : List Fld := [HC_HITS, HC_MISSES, HC_WRITEBACKS, MC_BYTES]

section
variable (s : State) (st : Nat)

theorem regsBut_writeBack (l : HcLine) : RegsBut ([HC_WRITEBACKS, MC_BYTES].map (fKey · st)) s (writeBack s st l) := by
  unfold writeBack
  split
  · exact regs_trans (regsBut_setF s (f := HC_WRITEBACKS) (by simp) st _) (regsBut_setF _ (f := MC_BYTES) (by simp) st _)
  · exact regs_refl _ s

theorem writeBack_counts {st : Nat} (hst : st < 256) (l : HcLine) :
    getF (writeBack s st l) HC_WRITEBACKS st = (getF s HC_WRITEBACKS st + b2n l.dirty) % 2 ^ 64
      ∧ getF (writeBack s st l) MC_BYTES st = (getF s MC_BYTES st + 256 * b2n l.dirty) % 2 ^ 64 := by
  unfold writeBack
  cases l.dirty
  · exact ⟨(getF_add_zero s st rfl).symm, (getF_add_zero s st rfl).symm⟩
  · have hcount := getF_addStat_same s (f := HC_WRITEBACKS) st 1 ⟨rfl, rfl⟩
    have hbytes := getF_addStat_same (addStat s HC_WRITEBACKS st 1) (f := MC_BYTES) st 256 ⟨rfl, rfl⟩
    have hstat : ∀ u, RegsBut ([MC_BYTES].map (fKey · st)) u (stackBytes u st 256) := fun u => regsBut_setF u (by simp) st _
    have hwb : RegsBut ([HC_WRITEBACKS].map (fKey · st)) s (addStat s HC_WRITEBACKS st 1) := regsBut_setF s (by simp) st _
    rw [if_pos rfl]
    refine ⟨(getF_apart (hstat _) hst hst (by decide)).trans hcount, ?_⟩
    rw [stackBytes, hbytes, getF_apart hwb hst hst (by decide)]
    rfl

end

/-! A hit (R285). -/

section
variable (s : State) (st : Nat) (l : HcLine) (wr : Bool) (h : Nat)

/-- R285: the lines of a slice after a hit. -/
def hitLines (ls : List HcLine) (l : HcLine) (h : Nat) : List HcLine :=
  let rest := ls.filter (fun x => x.line != l.line)
  if h = 0 then rest ++ [l] else if h = 1 then l :: rest else if h = 2 then rest ++ [{ l with keep := true }] else rest

/-- What a hit does with its line, dirty when it was written: it is put back, or written back and dropped. -/
theorem hitLine_eq : hitLine s st l wr h =
    setStack (if 3 ≤ h then writeBack s st { l with dirty := l.dirty || wr } else s) st
      { getStack s st with lines := hitLines (getStack s st).lines { l with dirty := l.dirty || wr } h } := by
  match h with
  | 0 | 1 | 2 => rfl
  | n + 3 =>
    rw [if_pos (by omega)]
    simp [hitLine, hitLines]

/-- R285: a hit of the discard hint writes a dirty line back. -/
theorem hitLine_shows (hst : st < 256) : let t := hitLine s st l wr h
    (getStack t st).lines = hitLines (getStack s st).lines { l with dirty := l.dirty || wr } h
      ∧ (∀ k, k ≠ st → getStack t k = getStack s k)
      ∧ RegsBut ([HC_WRITEBACKS, MC_BYTES].map (fKey · st)) s t
      ∧ getF t HC_WRITEBACKS st = (getF s HC_WRITEBACKS st + b2n (decide (3 ≤ h) && (l.dirty || wr))) % 2 ^ 64 := by
  intro t
  have ht : t = _ := hitLine_eq s st l wr h
  rw [ht]
  refine ⟨congrArg Stack.lines (getStack_setStack_same ..), fun k hk => (getStack_setStack_other _ _ hk).trans ?_, ?_⟩
  · split
    · exact getStack_of_moves (writeBack_moves ..) (by decide) k
    · rfl
  · rw [getF_setStack]
    by_cases h3 : 3 ≤ h
    · rw [if_pos h3, decide_eq_true h3, Bool.true_and]
      exact ⟨regs_trans (regsBut_writeBack s st _) (regsBut_of_regs _ rfl), (writeBack_counts s hst _).1⟩
    · rw [if_neg h3, decide_eq_false h3]
      exact ⟨regsBut_of_regs _ rfl, (getF_add_zero s st rfl).symm⟩

end

/-! An allocation (R285, R286). -/

section
variable {s : State} {st line : Nat} {wr keep : Bool}

/-- R286: a slice with room takes the line, as long as a keep line stays within the share. -/
theorem allocLine_room (hroom : (getStack s st).lines.length < sliceLines) (hkeep : keep = true → keepCount (getStack s st).lines < keepMax s st) :
    allocLine s st line wr keep = setStack s st { getStack s st with lines := (getStack s st).lines ++ [⟨line, wr, keep⟩] } := by
  have hpast : (keep && decide (keepMax s st < keepCount (getStack s st).lines + 1)) = false := by
    cases keep
    · rfl
    · have := hkeep rfl
      simpa using this
  simp only [allocLine, hpast, Bool.false_and, Bool.not_false, Bool.and_true, Bool.false_eq_true, if_false, if_pos hroom]

/-- R286: a full slice gives way with the next line that is no keep line, while keep lines are within their share. -/
theorem allocLine_evicts {v : HcLine} (hfull : sliceLines ≤ (getStack s st).lines.length) (hmax : keepCount (getStack s st).lines ≤ keepMax s st)
    (hv : (getStack s st).lines.find? (fun l => !l.keep) = some v) :
    allocLine s st line wr false = setStack (writeBack s st v) st
      { getStack s st with lines := (getStack s st).lines.filter (fun l => l.line != v.line) ++ [⟨line, wr, false⟩] } := by
  have hvictim : victim (getStack s st).lines (keepMax s st) = some v := (if_pos hmax).trans hv
  simp only [allocLine, Bool.false_and, Bool.false_eq_true, if_false, if_neg (Nat.not_lt.2 hfull), hvictim]

theorem regsBut_allocLine (s : State) (st line : Nat) (wr keep : Bool) :
    RegsBut ([HC_WRITEBACKS, MC_BYTES].map (fKey · st)) s (allocLine s st line wr keep) := by
  unfold allocLine
  extract_lets old kmax past ls new
  split
  · exact regsBut_of_regs _ rfl
  · split
    · next v _ => exact regs_trans (regsBut_writeBack s st v) (regsBut_of_regs _ rfl)
    · exact regsBut_of_regs _ rfl

end

/-! One access of a line (R284, R285). -/

section
variable (s : State) (line : Nat) (wr : Bool) (hint : Nat)

/-- R285: a miss has been counted, and its line read from the stack or written to it. -/
def missed (s : State) (st : Nat) : State := stackBytes (addStat s HC_MISSES st 1) st 256

theorem lineAccess_hit {l : HcLine} (hl : (getStack s (line % 6)).lines.find? (fun l => l.line == line) = some l) :
    lineAccess s line wr hint = (hitLine (addStat s HC_HITS (line % 6) 1) (line % 6) l wr (effHint s (line % 6) hint), true) := by
  simp only [lineAccess, hl]

theorem lineAccess_miss (hl : (getStack s (line % 6)).lines.find? (fun l => l.line == line) = none) :
    (lineAccess s line wr hint).1 = if effHint s (line % 6) hint = 0 ∨ effHint s (line % 6) hint = 2
      then allocLine (missed s (line % 6)) (line % 6) line wr (effHint s (line % 6) hint == 2) else missed s (line % 6) := by
  simp only [lineAccess, hl, missed]

theorem regsBut_missed (st : Nat) : RegsBut (lineCounters.map (fKey · st)) s (missed s st) :=
  regs_trans (regsBut_setF s (f := HC_MISSES) (by decide) st _) (regsBut_setF _ (f := MC_BYTES) (by decide) st _)

theorem lineCounters_writeBack (st : Nat) : ∀ k ∈ [HC_WRITEBACKS, MC_BYTES].map (fKey · st), k ∈ lineCounters.map (fKey · st) := by
  simp [lineCounters]

/-- R285: an access moves the counters of its slice and the bytes of its stack. -/
theorem regsBut_lineAccess : RegsBut (lineCounters.map (fKey · (line % 6))) s (lineAccess s line wr hint).1 := by
  cases hl : (getStack s (line % 6)).lines.find? (fun l => l.line == line) with
  | some l =>
    rw [lineAccess_hit s line wr hint hl]
    obtain ⟨-, -, hregs, -⟩ := hitLine_shows (addStat s HC_HITS (line % 6) 1) (line % 6) l wr (effHint s (line % 6) hint) (by omega)
    exact regs_trans (regsBut_setF s (f := HC_HITS) (by decide) _ _) (regs_mono hregs (lineCounters_writeBack _))
  | none =>
    rw [lineAccess_miss s line wr hint hl]
    split
    · exact regs_trans (regsBut_missed s _) (regs_mono (regsBut_allocLine _ _ _ _ _) (lineCounters_writeBack _))
    · exact regsBut_missed s _

end

end Sys2Proof.Proofs

/-! PROOFS. What a slice does with the accesses that wait (R284 to R286, R603): HC_ACCESS takes the oldest of a line, and the state of its slice
afterwards. -/
namespace Sys2Proof.Proofs
open Sys2Proof Sys2Proof.Machine Sys2Proof.Laws

/-! The oldest waiting access of a line (R284). -/

section
variable (s : State)

/-- R284: the oldest access of a line no longer waits. -/
def lineTaken (line : Nat) : State := { s with lineQ := dropFirst (fun r => r.addr / 256 == line) s.lineQ }

/-- R284, R285: the access that waits as `q` has been served at its slice; no byte of a piece has moved. -/
def lineServed (q : LineReq) : State := (lineAccess (lineTaken s (q.addr / 256)) (q.addr / 256) q.wr q.hint).1

theorem lineTaken_moves (line : Nat) : Moves 0x10000 s (lineTaken s line) :=
  Moves.upd rfl (fun h => by cases h; constructor <;> assumption) (Moves.refl _ s)

theorem lineServed_moves (q : LineReq) : Moves 0x18008 s (lineServed s q) :=
  (lineAccess_moves ..).next (by decide) ((lineTaken_moves s _).le (by decide))

theorem regsBut_lineServed (q : LineReq) : RegsBut (lineCounters.map (fKey · (q.addr / 256 % 6))) s (lineServed s q) :=
  regs_trans (regsBut_of_moves (lineTaken_moves s _) (by decide) _) (regsBut_lineAccess _ _ _ _)

theorem lineQ_lineServed (q : LineReq) : (lineServed s q).lineQ = dropFirst (fun r => r.addr / 256 == q.addr / 256) s.lineQ := by
  have hq : (lineTaken s (q.addr / 256)).lineQ = (lineServed s q).lineQ := (lineAccess_moves ..).same .lineQ (by decide)
  exact hq.symm

/-- An access without errors that belongs to no piece does no more. -/
theorem serveLine_free {q : LineReq} (hq : q.own = none) : serveLine s q [] 0 = lineServed s q := by
  simp only [serveLine, hq, odeccReports, if_true, ite_self, List.foldl_nil]
  rfl

theorem serveLine_lost {q : LineReq} {p tid k : Nat} (hq : q.own = some (p, tid, k)) (hx : getPiece (lineServed s q) p tid k = none) :
    serveLine s q [] 0 = lineServed s q := by
  unfold lineServed lineTaken at hx
  simp only [serveLine, hq, odeccReports, if_true, ite_self, List.foldl_nil, hx]
  rfl

theorem serveLine_piece {q : LineReq} {p tid k : Nat} {x : PieceOut} (hq : q.own = some (p, tid, k))
    (hx : getPiece (lineServed s q) p tid k = some x) : serveLine s q [] 0 = pieceLine (lineServed s q) p x (q.addr / 256) := by
  unfold lineServed lineTaken at hx
  simp only [serveLine, hq, odeccReports, if_true, ite_self, List.foldl_nil, hx]
  rfl

theorem getPiece_of_moves {m : Nat} {s t : State} (h : Moves m s t) (hm : m.testBit 7 = false) (p tid k : Nat) :
    getPiece t p tid k = getPiece s p tid k := by
  rw [getPiece, getPiece, getDm, getDm, getTile_of_moves h hm]

theorem getPiece_lineServed (q : LineReq) (p tid k : Nat) : getPiece (lineServed s q) p tid k = getPiece s p tid k :=
  getPiece_of_moves (lineServed_moves s q) (by decide) p tid k

end

/-! What HC_ACCESS does with the access that waits (R284, R603). -/

section
variable {s : State} {addr : Nat} {wr : Bool} {hint : Nat}

theorem hcAccess_stays (h : memReset s [(256 * (addr / 256), 256)] = true ∨ lineWaits s (addr / 256) = true) :
    hcAccess s addr wr hint [] 0 none = s := by
  simp [hcAccess, h]

theorem hcAccess_none (hq : s.lineQ.find? (fun q => q.addr / 256 == addr / 256) = none) : hcAccess s addr wr hint [] 0 none = s := by
  simp [hcAccess, hq]

theorem hcAccess_other {q : LineReq} (hq : s.lineQ.find? (fun q => q.addr / 256 == addr / 256) = some q)
    (hne : q.wr ≠ wr ∨ q.hint ≠ hint ∨ pieceWaits s q = true) : hcAccess s addr wr hint [] 0 none = s := by
  have hcond : ¬ (q.wr = wr ∧ q.hint = hint ∧ (!pieceWaits s q) = true) := by
    rcases hne with h | h | h <;> simp [h]
  simp only [hcAccess, Option.toList_none, List.filter_nil, List.foldl_nil, hq]
  split
  · rfl
  · exact if_neg hcond

theorem hcAccess_serves {q : LineReq} (hup : ¬ (memReset s [(256 * (addr / 256), 256)] = true ∨ lineWaits s (addr / 256) = true))
    (hq : s.lineQ.find? (fun q => q.addr / 256 == addr / 256) = some q) (hw : q.wr = wr) (hh : q.hint = hint) (hp : pieceWaits s q = false) :
    hcAccess s addr wr hint [] 0 none = serveLine s q [] 0 := by
  simp only [not_or, Bool.not_eq_true] at hup
  simp [hcAccess, hup, hq, hw, hh, hp]

end

/-! The state of a slice after an access (R285, R286). -/

theorem effHint_le (s : State) (st : Nat) (hint : Fin 4) : effHint s st hint < 4 := by
  unfold effHint
  split <;> omega

section
variable {s t u : State} {st : Nat} {ls : List HcLine}

/-- R285: an access that hit: its slice counted the hit, and what followed wrote no count of hits or misses. -/
theorem sliceIs_hit (hst : st < 256) (hm : Moves 0x18008 s t) (hu : u.regs = s.regs)
    (hregs : RegsBut ([HC_WRITEBACKS, MC_BYTES].map (fKey · st)) (addStat u HC_HITS st 1) t)
    (hlines : (getStack t st).lines = ls) (hothers : ∀ k, k ≠ st → getStack t k = getStack s k) : SliceIs s t st ls true := by
  have hcount : RegsBut ([HC_HITS].map (fKey · st)) u (addStat u HC_HITS st 1) := regsBut_setF u (by decide) st _
  have hsame : ∀ f, getF u f st = getF s f st := fun f => getF_of_regsBut (regsBut_of_regs [] hu) (by simp)
  refine ⟨hlines, ?_, ?_, hothers, only_of _ hm (by decide)⟩
  · rw [getF_apart hregs hst hst (by decide), getF_addStat_same _ _ _ ⟨rfl, rfl⟩, hsame]
    rfl
  · rw [getF_apart hregs hst hst (by decide), getF_apart hcount hst hst (by decide), hsame]
    rfl

theorem sliceIs_miss (hst : st < 256) (hm : Moves 0x18008 s t) (hu : u.regs = s.regs)
    (hregs : RegsBut ([HC_WRITEBACKS, MC_BYTES].map (fKey · st)) (missed u st) t)
    (hlines : (getStack t st).lines = ls) (hothers : ∀ k, k ≠ st → getStack t k = getStack s k) : SliceIs s t st ls false := by
  have hcount : RegsBut ([HC_MISSES].map (fKey · st)) u (addStat u HC_MISSES st 1) := regsBut_setF u (by decide) st _
  have hbytes : ∀ v, RegsBut ([MC_BYTES].map (fKey · st)) v (stackBytes v st 256) := fun v => regsBut_setF v (by decide) st _
  have hsame : ∀ f, getF u f st = getF s f st := fun f => getF_of_regsBut (regsBut_of_regs [] hu) (by simp)
  refine ⟨hlines, ?_, ?_, hothers, only_of _ hm (by decide)⟩
  · rw [getF_apart hregs hst hst (by decide), missed, getF_apart (hbytes _) hst hst (by decide), getF_apart hcount hst hst (by decide), hsame]
    rfl
  · rw [getF_apart hregs hst hst (by decide), missed, getF_apart (hbytes _) hst hst (by decide), getF_addStat_same _ _ _ ⟨rfl, rfl⟩, hsame]
    rfl

end

section
variable {s : State} {q : LineReq} {line st : Nat}

/-- R285: the slice after a hit. -/
theorem lineServed_hit (hline : q.addr / 256 = line) (hst : line % 6 = st) {l : HcLine} (hh : effHint s st q.hint < 4)
    (hl : (getStack s st).lines.find? (fun l => l.line == line) = some l) : let t := lineServed s q
    SliceIs s t st (hitLines (getStack s st).lines ⟨line, l.dirty || q.wr, l.keep⟩ (effHint s st q.hint)) true
      ∧ getF t HC_WRITEBACKS st = (getF s HC_WRITEBACKS st + b2n (decide (effHint s st q.hint = 3) && (l.dirty || q.wr))) % 2 ^ 64 := by
  subst hline hst
  have hst : q.addr / 256 % 6 < 256 := by omega
  have hown : l.line = q.addr / 256 := by simpa using List.find?_some hl
  intro t
  have ht : t = hitLine (addStat (lineTaken s (q.addr / 256)) HC_HITS (q.addr / 256 % 6) 1) (q.addr / 256 % 6) l q.wr
      (effHint s (q.addr / 256 % 6) q.hint) := congrArg Prod.fst (lineAccess_hit (lineTaken s (q.addr / 256)) _ q.wr q.hint hl)
  obtain ⟨hlines, hothers, hregs, hback⟩ := hitLine_shows (addStat (lineTaken s (q.addr / 256)) HC_HITS (q.addr / 256 % 6) 1)
    (q.addr / 256 % 6) l q.wr (effHint s (q.addr / 256 % 6) q.hint) hst
  rw [← ht] at hlines hothers hregs hback
  have hcount : RegsBut ([HC_HITS].map (fKey · (q.addr / 256 % 6))) (lineTaken s (q.addr / 256)) (addStat (lineTaken s (q.addr / 256)) HC_HITS
    (q.addr / 256 % 6) 1) := regsBut_setF _ (by decide) _ _
  have hthree : (3 ≤ effHint s (q.addr / 256 % 6) q.hint) = (effHint s (q.addr / 256 % 6) q.hint = 3) := propext (by omega)
  refine ⟨sliceIs_hit hst (lineServed_moves s q) rfl hregs ?_ hothers, ?_⟩
  · rw [hlines, ← hown]
    rfl
  · rw [hback, getF_apart hcount hst hst (by decide)]
    simp only [hthree]
    rfl

/-- R285: a miss that allocates nothing. -/
theorem lineServed_through (hline : q.addr / 256 = line) (hst : line % 6 = st) (hh : effHint s st q.hint = 1 ∨ effHint s st q.hint = 3)
    (hl : (getStack s st).lines.find? (fun l => l.line == line) = none) : let t := lineServed s q
    SliceIs s t st (getStack s st).lines false ∧ getF t MC_BYTES st = (getF s MC_BYTES st + 256) % 2 ^ 64 := by
  subst hline hst
  have hst : q.addr / 256 % 6 < 256 := by omega
  intro t
  have ht : t = missed (lineTaken s (q.addr / 256)) (q.addr / 256 % 6) :=
    (lineAccess_miss (lineTaken s (q.addr / 256)) _ q.wr q.hint hl).trans (if_neg fun h => by
      change effHint s _ _ = 0 ∨ effHint s _ _ = 2 at h
      omega)
  have hregs : RegsBut ([HC_WRITEBACKS, MC_BYTES].map (fKey · (q.addr / 256 % 6))) (missed (lineTaken s (q.addr / 256)) (q.addr / 256 % 6)) t :=
    ht ▸ regs_refl _ _
  refine ⟨sliceIs_miss hst (lineServed_moves s q) rfl hregs (by rw [ht]; rfl) (fun k _ => by rw [ht]; rfl), ?_⟩
  have hcount : RegsBut ([HC_MISSES].map (fKey · (q.addr / 256 % 6))) (lineTaken s (q.addr / 256))
    (addStat (lineTaken s (q.addr / 256)) HC_MISSES (q.addr / 256 % 6) 1) := regsBut_setF _ (by decide) _ _
  rw [ht, missed, stackBytes, getF_addStat_same _ _ _ ⟨rfl, rfl⟩, getF_apart hcount hst hst (by decide)]
  rfl

/-- R285: a miss that allocates. -/
theorem lineServed_allocates (hline : q.addr / 256 = line) (hst : line % 6 = st) (hh : effHint s st q.hint = 0 ∨ effHint s st q.hint = 2)
    (hl : (getStack s st).lines.find? (fun l => l.line == line) = none) :
    lineServed s q = allocLine (missed (lineTaken s line) st) st line q.wr (effHint s st q.hint == 2) := by
  subst hline hst
  exact (lineAccess_miss (lineTaken s (q.addr / 256)) _ q.wr q.hint hl).trans (if_pos hh)

theorem keepMax_missed (hst : st < 256) : keepMax (missed (lineTaken s line) st) st = keepMax s st := by
  rw [keepMax, keepMax, getF_apart (regsBut_missed (lineTaken s line) st) hst hst (by decide)]
  rfl

/-- R285, R286: a miss that allocates in a slice with room. -/
theorem lineServed_room (hline : q.addr / 256 = line) (hst : line % 6 = st) (hh : effHint s st q.hint = 0 ∨ effHint s st q.hint = 2)
    (hl : (getStack s st).lines.find? (fun l => l.line == line) = none) (hroom : (getStack s st).lines.length < sliceLines)
    (hkeep : effHint s st q.hint = 2 → keepCount (getStack s st).lines < keepMax s st) :
    SliceIs s (lineServed s q) st ((getStack s st).lines ++ [⟨line, q.wr, effHint s st q.hint == 2⟩]) false := by
  have hlt : st < 256 := by omega
  have ht := lineServed_allocates hline hst hh hl
  have hregs := regsBut_allocLine (missed (lineTaken s line) st) st line q.wr (effHint s st q.hint == 2)
  rw [← ht] at hregs
  rw [allocLine_room (s := missed (lineTaken s line) st) hroom fun hk => by
    rw [keepMax_missed hlt]
    exact hkeep (by simpa using hk)] at ht
  refine sliceIs_miss hlt (lineServed_moves s q) rfl hregs ?_ fun k hk => ?_
  · rw [ht, getStack_setStack_same]
    rfl
  · rw [ht, getStack_setStack_other _ _ hk]
    rfl

/-- R285, R286: a miss that allocates in a full slice evicts the next line that is no keep line. -/
theorem lineServed_evicts (hline : q.addr / 256 = line) (hst : line % 6 = st) (hh : effHint s st q.hint = 0)
    (hl : (getStack s st).lines.find? (fun l => l.line == line) = none) (hfull : sliceLines ≤ (getStack s st).lines.length)
    (hmax : keepCount (getStack s st).lines ≤ keepMax s st) {v : HcLine} (hv : (getStack s st).lines.find? (fun l => !l.keep) = some v) :
    let t := lineServed s q
    SliceIs s t st ((getStack s st).lines.filter (fun l => l.line != v.line) ++ [⟨line, q.wr, false⟩]) false
      ∧ getF t HC_WRITEBACKS st = (getF s HC_WRITEBACKS st + b2n v.dirty) % 2 ^ 64 := by
  have hlt : st < 256 := by omega
  intro t
  have ht : t = allocLine (missed (lineTaken s line) st) st line q.wr false := by
    have := lineServed_allocates hline hst (.inl hh) hl
    rwa [hh] at this
  have hregs := regsBut_allocLine (missed (lineTaken s line) st) st line q.wr false
  rw [← ht] at hregs
  rw [allocLine_evicts (s := missed (lineTaken s line) st) hfull (by rw [keepMax_missed hlt]; exact hmax) hv] at ht
  refine ⟨sliceIs_miss hlt (lineServed_moves s q) rfl hregs ?_ fun k hk => ?_, ?_⟩
  · rw [ht, getStack_setStack_same]
    rfl
  · rw [ht, getStack_setStack_other _ _ hk, getStack_of_moves (writeBack_moves ..) (by decide)]
    rfl
  · have hmiss : RegsBut ([HC_MISSES, MC_BYTES].map (fKey · st)) (lineTaken s line) (missed (lineTaken s line) st) :=
      regs_trans (regsBut_setF _ (f := HC_MISSES) (by decide) st _) (regsBut_setF _ (f := MC_BYTES) (by decide) st _)
    rw [ht, getF_setStack, (writeBack_counts _ hlt v).1, getF_apart hmiss hlt hlt (by decide)]
    rfl

end

end Sys2Proof.Proofs

/-! PROOFS. The bytes of a data mover's piece that lie in a line, which move as the slice serves it (R284, R289), and what a write that lands in
HBM leaves alone (R308, R316, R321). -/
namespace Sys2Proof.Proofs
open Sys2Proof Sys2Proof.Machine Sys2Proof.Laws

/-! The queue of line accesses only grows while bytes move (R321: duplicates read their lines). -/

section
variable (s : State)

theorem lineQ_of_moves {m : Nat} {s t : State} (h : Moves m s t) (hm : m.testBit 16 = false) : s.lineQ <+: t.lineQ :=
  (show s.lineQ = t.lineQ from h.same .lineQ hm) ▸ List.prefix_rfl

theorem lineQ_foldl {α : Type} {f : State → α → State} (h : ∀ u x, u.lineQ <+: (f u x).lineQ) : ∀ (l : List α) (u : State),
    u.lineQ <+: (l.foldl f u).lineQ
  | [], _ => List.prefix_rfl
  | x :: l, u => (h u x).trans (lineQ_foldl h l (f u x))

theorem lineQ_sendDup (line target : Nat) : s.lineQ <+: (sendDup s line target).lineQ := List.prefix_append _ _

theorem lineQ_dupLine (line target : Nat) : s.lineQ <+: (dupLine s line target).lineQ := by
  unfold dupLine
  split
  · exact List.prefix_rfl
  · exact lineQ_sendDup _ line target

theorem lineQ_mirrorWrite (pa n : Nat) : s.lineQ <+: (mirrorWrite s pa n).lineQ := by
  unfold mirrorWrite
  split
  · exact lineQ_foldl (fun u _ => lineQ_dupLine u _ _) _ s
  · exact List.prefix_rfl

theorem lineQ_landWrite (pa : Nat) (bs : List PByte) : s.lineQ <+: (landWrite s pa bs).lineQ :=
  ((lineQ_of_moves (noteWrite_moves s pa) (by decide)).trans (lineQ_of_moves (writeBytes_moves ..) (by decide))).trans
    (lineQ_mirrorWrite _ pa bs.length)

theorem lineQ_pieceLine (p : Nat) (x : PieceOut) (line : Nat) : s.lineQ <+: (pieceLine s p x line).lineQ := by
  unfold pieceLine
  extract_lets y
  split
  · exact lineQ_of_moves (putPiece_moves ..) (by decide)
  · refine (lineQ_of_moves (putPiece_moves s p y) (by decide)).trans (lineQ_foldl (fun u g => ?_) _ _)
    split
    · next hs => exact lineQ_of_moves (staleWrite_moves hs) (by decide)
    · exact (lineQ_of_moves (landing_moves u x _) (by decide)).trans (lineQ_landWrite _ _ _)
  · exact lineQ_of_moves (putPiece_moves ..) (by decide)

/-- R284: serving an access takes it from the queue, and adds to its end at most. -/
theorem lineQ_serveLine (q : LineReq) :
    ∃ more, (serveLine s q [] 0).lineQ = dropFirst (fun r => r.addr / 256 == q.addr / 256) s.lineQ ++ more := by
  suffices h : (lineServed s q).lineQ <+: (serveLine s q [] 0).lineQ by
    obtain ⟨more, h⟩ := h
    exact ⟨more, by rw [← h, lineQ_lineServed]⟩
  rcases hq : q.own with _ | ⟨p, tid, k⟩
  · rw [serveLine_free s hq]
  · cases hx : getPiece (lineServed s q) p tid k with
    | none => rw [serveLine_lost s hq hx]
    | some x =>
      rw [serveLine_piece s hq hx]
      exact lineQ_pieceLine _ p x _

end

/-! Pieces that are out. -/

theorem getDm_modDm_same (s : State) (p : Nat) (f : DmState → DmState) : getDm (modDm s p f) p = f (getDm s p) :=
  congrArg Tile.dm (getTile_setTile_same s p _)

theorem getPiece_putPiece (s : State) (p : Nat) (x : PieceOut) : getPiece (putPiece s p x) p x.tid x.pseq = some x := by
  have hold : ((getDm s p).out.filter (fun z => !(z.tid == x.tid && z.pseq == x.pseq))).find?
      (fun z => z.tid == x.tid && z.pseq == x.pseq) = none := by
    simp only [List.find?_eq_none, List.mem_filter]
    rintro z ⟨-, hz⟩ h
    simp [h] at hz
  rw [getPiece, putPiece, getDm_modDm_same, List.find?_append, hold]
  simp

theorem getPiece_numbers {s : State} {p tid k : Nat} {x : PieceOut} (h : getPiece s p tid k = some x) : x.tid = tid ∧ x.pseq = k := by
  simpa using List.find?_some h

/-- The part of a piece in a line, for one run of bytes in that line. -/
theorem partsIn_one {line a n : Nat} (ha : a / 256 = line) (hend : a % 256 + n ≤ 256) (hn : 0 < n) : partsIn line 0 [(a, n)] = [(0, a, n)] := by
  have hlo : max a (256 * line) = a := by omega
  have hhi : min (a + n) (256 * line + 256) = a + n := by omega
  simp only [partsIn, hlo, hhi, Nat.lt_add_right_iff_pos, hn, if_true, Nat.sub_self, Nat.add_zero, Nat.add_sub_cancel_left]

theorem readBytes_of_moves {m : Nat} {s t : State} (h : Moves m s t) (h4 : m.testBit 4 = false) (h5 : m.testBit 5 = false) (a n : Nat) :
    readBytes t a n = readBytes s a n := by
  simp only [readBytes, memByte_of_moves h h4, isBad_of_moves h h5]

theorem splice_all {bs new : List PByte} (h : bs.length = new.length) : splice bs 0 new = new := by
  simp [splice, ← h]

/-! Writes within one line (R289, R316, R321). -/

section
variable {s : State} {gen line a n : Nat}

/-- R289: a write of another generation is counted once at the slice of its line. -/
theorem staleWrite_line (hg : gen ≠ getF s MC_JOB_GEN_GEN 0) (ha : a / 256 = line) (hend : a % 256 + n ≤ 256) (hn : 0 < n) :
    staleWrite s gen [(a, n)] = some (addF s MC_STALE_WRITES (line % 6) 1) := by
  have hone : (a + n + 255) / 256 - a / 256 = 1 := by omega
  rw [staleWrite, if_neg hg]
  simp only [List.foldl_cons, List.foldl_nil, hone, List.range_one, Nat.add_zero]
  rw [ha]

theorem staleWrite_current (hg : gen = getF s MC_JOB_GEN_GEN 0) (segs : List (Nat × Nat)) : staleWrite s gen segs = none := if_pos hg

theorem getFrame_of_moves {m : Nat} {s t : State} (h : Moves m s t) (hm : m.testBit 17 = false) (n : Nat) : getFrame t n = getFrame s n := by
  have hs : s.folio = t.folio := h.same .folio hm
  rw [getFrame, getFrame, hs]

/-- R321: whether a write is duplicated rests on the mirror's registers and on the frame. -/
theorem mirrored_of_same {s t : State} {pa : Nat}
    (hr : ∀ f ∈ [MC_MIRROR_CFG_EN, MC_MIRROR_CFG_DEGRADED, MC_MIRROR_CFG_RESYNCING], getF t f 6 = getF s f 6)
    (hf : (getFrame t (pa / 2 ^ 21)).cls = (getFrame s (pa / 2 ^ 21)).cls ∧ (getFrame t (pa / 2 ^ 21)).rstate = (getFrame s (pa / 2 ^ 21)).rstate) :
    mirrored t pa = mirrored s pa := by
  simp only [List.forall_mem_cons] at hr
  obtain ⟨hen, hdeg, hres, -⟩ := hr
  simp only [mirrored, mirrorOn, flagF_of_getF hen, flagF_of_getF hdeg, flagF_of_getF hres, hf]

/-- R308: a write keeps the class and the state of its frame. -/
theorem noteWrite_frame (s : State) (pa n : Nat) :
    (getFrame (noteWrite s pa) n).cls = (getFrame s n).cls ∧ (getFrame (noteWrite s pa) n).rstate = (getFrame s n).rstate := by
  unfold noteWrite
  extract_lets pfn g f u v
  have hu : getFrame u n = getFrame s n := by
    unfold u
    split <;> rfl
  have hv : (getFrame v n).cls = (getFrame s n).cls ∧ (getFrame v n).rstate = (getFrame s n).rstate := by
    unfold v
    split
    · by_cases hn : n = pfn
      · rw [hn, getFrame_setFrame_same]
        exact ⟨rfl, rfl⟩
      · rw [getFrame_setFrame_other _ _ hn, hu]
        exact ⟨rfl, rfl⟩
    · rw [hu]
      exact ⟨rfl, rfl⟩
  split
  · split
    · exact hv
    · exact hv
  · exact hv

/-- R308: only a first write into a granule of a zero-filled frame clears bytes. -/
theorem memByte_noteWrite {s : State} {pa : Nat}
    (h : (getFrame s (pa / 2 ^ 21)).rstate ≠ 4 ∨ bit (getFrame s (pa / 2 ^ 21)).d.toNat (pa % 2 ^ 21 / 65536) = true) (b : Nat) :
    memByte (noteWrite s pa) b = memByte s b := by
  unfold noteWrite
  extract_lets pfn g f u v
  have hu : u = s := if_neg fun hz => by
    obtain ⟨h4, hd⟩ := hz
    rcases h with h | h
    · exact h h4
    · simp only [Bool.not_eq_true'] at hd
      exact Bool.false_ne_true (hd.symm.trans h)
  have hv : memByte v b = memByte s b := by
    unfold v
    rw [hu]
    split <;> rfl
  split
  · split
    · exact hv
    · exact hv
  · exact hv

/-- R316: a write outside the mirror's frames changes its own bytes alone. -/
theorem landWrite_unmirrored {s : State} {pa : Nat} {bs : List PByte} (hm : mirrored s pa = false)
    (h : (getFrame s (pa / 2 ^ 21)).rstate ≠ 4 ∨ bit (getFrame s (pa / 2 ^ 21)).d.toNat (pa % 2 ^ 21 / 65536) = true) :
    BytesBut [(pa, bs.length)] s (landWrite s pa bs)
      ∧ ∀ i < bs.length, memByte (landWrite s pa bs) (pa + i) = ((bs[i]?).getD ⟨0, false⟩).b := by
  have hregs : RegsBut [] s (writeBytes (noteWrite s pa) pa bs) :=
    regsBut_of_moves ((writeBytes_moves ..).next (m := 0x20030) (by decide) (noteWrite_moves s pa)) (by decide) _
  have hframe := noteWrite_frame s pa (pa / 2 ^ 21)
  rw [← getFrame_of_moves (writeBytes_moves (noteWrite s pa) pa bs) (by decide)] at hframe
  have hland : landWrite s pa bs = writeBytes (noteWrite s pa) pa bs := if_neg (by
    rw [mirrored_of_same (s := s) (fun f _ => getF_of_regsBut hregs (by simp)) hframe, hm]
    exact Bool.false_ne_true)
  rw [hland]
  refine ⟨fun b hb => ?_, fun i hi => ?_⟩
  · rw [memByte_writeBytes_other _ _ _ _ (by simpa using hb), memByte_noteWrite h]
  · rw [memByte_writeBytes_same _ _ _ i hi, List.getElem?_eq_getElem hi, Option.getD_some]

end

/-! The bytes of a piece that lie in a line (R284, R289). -/

section
variable {s : State} {p a n line : Nat} {x : PieceOut}

/-- R284: a piece that reads takes its bytes as the slice serves their line. -/
theorem pieceLine_read (hk : x.kind = 0) (hsrc : x.src = [(a, n)]) (ha : a / 256 = line) (hend : a % 256 + n ≤ 256) (hlen : x.data.length = n)
    (hn : 0 < n) : pieceLine s p x line = putPiece s p { x with lines := x.lines - 1, data := readBytes s a n } := by
  have hread : x.data.length = (readBytes s a n).length := by simp [readBytes, hlen]
  simp only [pieceLine, hk, hsrc, partsIn_one ha hend hn, List.foldl_cons, List.foldl_nil, splice_all hread]

/-- The one part of a write in a line is discarded, or it lands. -/
theorem pieceLine_dst (hk : x.kind = 3) (hdst : x.dst = [(a, n)]) (ha : a / 256 = line) (hend : a % 256 + n ≤ 256) (hlen : x.data.length = n)
    (hn : 0 < n) (hu : x.unsup = false) {u : State} (hput : putPiece s p { x with lines := x.lines - 1 } = u) :
    pieceLine s p x line = (staleWrite u x.gen [(a, n)]).getD (landWrite u a x.data) := by
  have hall : (x.data.drop 0).take n = x.data := by rw [List.drop_zero, ← hlen, List.take_length]
  simp only [pieceLine, hput]
  simp only [hk, hdst, partsIn_one ha hend hn, List.foldl_cons, List.foldl_nil, landing, hu, Bool.false_eq_true, if_false, hall]
  cases staleWrite u x.gen [(a, n)] <;> rfl

/-- R289: a piece that writes with another generation leaves its bytes, and is counted. -/
theorem pieceLine_stale (hk : x.kind = 3) (hdst : x.dst = [(a, n)]) (ha : a / 256 = line) (hend : a % 256 + n ≤ 256) (hlen : x.data.length = n)
    (hn : 0 < n) (hu : x.unsup = false) (hg : x.gen ≠ getF s MC_JOB_GEN_GEN 0) :
    pieceLine s p x line = addF (putPiece s p { x with lines := x.lines - 1 }) MC_STALE_WRITES (line % 6) 1 := by
  rw [pieceLine_dst hk hdst ha hend hlen hn hu rfl, staleWrite_line (s := putPiece s p _) hg ha hend hn, Option.getD_some]

/-- R284: a piece that writes with the current generation stores its bytes. -/
theorem pieceLine_write (hk : x.kind = 3) (hdst : x.dst = [(a, n)]) (ha : a / 256 = line) (hend : a % 256 + n ≤ 256) (hlen : x.data.length = n)
    (hn : 0 < n) (hu : x.unsup = false) (hg : x.gen = getF s MC_JOB_GEN_GEN 0) :
    pieceLine s p x line = landWrite (putPiece s p { x with lines := x.lines - 1 }) a x.data := by
  rw [pieceLine_dst hk hdst ha hend hlen hn hu rfl, staleWrite_current (s := putPiece s p _) hg, Option.getD_none]

end

end Sys2Proof.Proofs

/-! PROOFS. Words of HBM and of the slices that cannot be corrected (R458, R459, R478): their poison, their records and the registers that these
write; and what the limits of R279 lead to. -/
namespace Sys2Proof.Proofs
open Sys2Proof Sys2Proof.Machine Sys2Proof.Laws

/-! Poison, and the ash record (R529). -/

/-- A write leaves the poison of the words that it does not touch. -/
theorem isBad_writeBytes_other (s : State) (a : Nat) (bs : List PByte) {x : Nat} (h : x / 16 ∉ wordsOf a bs.length) :
    isBad (writeBytes s a bs) x = isBad s x := by
  have hfold := mapGet_foldl_mapSet (fun _ => false) 0 (wordPoison s a bs) (x / 16) (wordsOf a bs.length) s.poison
  simp only [Nat.zero_add, Nat.zero_le, true_and, Nat.sub_zero, if_neg h] at hfold
  unfold writeBytes
  split
  · rfl
  · exact hfold

theorem not_mem_wordsOf {a n x : Nat} (h : x / 16 < a / 16) : x / 16 ∉ wordsOf a n := by
  simp only [wordsOf, List.mem_map, not_exists, not_and]
  omega

theorem isBad_poisonWord (s : State) (a : Nat) : isBad (poisonWord s a) a = true := mapGet_mapSet_same _ _ _ _

@[simp] theorem length_recBytes (r : FaultRec) : (recBytes r).length = 32 := by simp [recBytes]

/-- R529: the fault ring and its count lie in the first 16 MiB of the ash record. -/
theorem memByte_ashFault_apart (s : State) (r : FaultRec) {a : Nat} (ha : a < ashBase ∨ ashBase + 2 ^ 24 ≤ a) :
    memByte (ashFault s r) a = memByte s a := by
  unfold ashBase at ha
  simp only [ashFault, writeNat]
  rw [memByte_writeBytes_other, memByte_writeBytes_other]
  all_goals
    simp only [good, List.length_map, length_bytesOf, length_recBytes]
    omega

theorem isBad_ashFault (s : State) (r : FaultRec) {a : Nat} (ha : a < ashBase) : isBad (ashFault s r) a = isBad s a := by
  unfold ashBase at ha
  simp only [ashFault, writeNat]
  rw [isBad_writeBytes_other _ _ _ (not_mem_wordsOf (by omega)), isBad_writeBytes_other _ _ _ (not_mem_wordsOf (by omega))]

theorem isBad_raise (s : State) (b inst : Nat) (r : FaultRec) {a : Nat} (ha : a < ashBase) : isBad (raise s b inst r) a = isBad s a := by
  rw [raise, isBad_of_moves (logErr_moves ..) (by decide), isBad_ashFault _ _ ha, isBad_of_moves (pushEvent_moves ..) (by decide)]

theorem memByte_raise_apart (s : State) (b inst : Nat) (r : FaultRec) {a : Nat} (ha : a < ashBase ∨ ashBase + 2 ^ 24 ≤ a) :
    memByte (raise s b inst r) a = memByte s a := by
  rw [raise, memByte_of_moves (logErr_moves ..) (by decide), memByte_ashFault_apart _ _ ha, memByte_of_moves (pushEvent_moves ..) (by decide)]

/-! Records of line errors (R478, R601). -/

/-- R478, R581, R601: the registers that a record of a page writes: the counts of lost events and of dropped line records, the error log
and the interrupt status of the page. -/
def recordKeys (b inst : Nat) : List Nat :=
  [fldKey 14 EB_EV_LOST 0 0, fldKey 1 MG_LINE_DROPPED 0 0, fldKey b H_ERR_LOG_CODE inst 0, fldKey b H_IRQ_STATUS_FAULT inst 0]

theorem regsBut_raise (s : State) (b inst : Nat) (r : FaultRec) : RegsBut (recordKeys b inst) s (raise s b inst r) :=
  regs_trans (regs_trans (regs_mono (regsBut_pushEvent s _) (by simp [recordKeys])) (regsBut_of_moves (ashFault_moves _ r) (by decide) _))
    (regs_mono (regsBut_logErr _ b inst r.code) (by simp [recordKeys]))

/-- Registers at other places of their pages than those of a record. -/
theorem getF_recorded {s t : State} {b inst : Nat} (h : RegsBut (recordKeys b inst) s t) {f : Fld}
    (hf : f.off < 4096 ∧ f.off ∉ [80, 540, 32, 48]) (i : Nat) : getF t f i = getF s f i := by
  refine getF_of_regsBut h fun hmem => ?_
  simp only [recordKeys, List.mem_cons, List.not_mem_nil, or_false, fldKey, regKey, EB_EV_LOST, MG_LINE_DROPPED, H_ERR_LOG_CODE,
    H_IRQ_STATUS_FAULT, not_or] at hmem hf
  omega

section
variable (s : State) (pl : LinePlace) (code a detail : Nat)

theorem regsBut_lineRecord : RegsBut (recordKeys pl.blk pl.inst) s (lineRecord s pl code a detail) := by
  unfold lineRecord
  extract_lets last u
  split
  · exact regs_mono (regsBut_wrF s 1 MG_LINE_DROPPED 0 0 _) (by simp [recordKeys])
  · exact regs_trans (t := u) (regsBut_of_moves (setTimer_moves ..) (by decide) _) (regsBut_raise _ _ _ _)

theorem isBad_lineRecord {x : Nat} (hx : x < ashBase) : isBad (lineRecord s pl code a detail) x = isBad s x := by
  unfold lineRecord
  extract_lets last u
  split
  · rfl
  · exact (isBad_raise _ _ _ _ hx).trans rfl

theorem hbm_not_inBuf {a : Nat} (ha : a < hbmTop) : inBuf a = false := by
  unfold hbmTop at ha
  simp only [inBuf, Bool.and_eq_false_iff, decide_eq_false_iff_not]
  omega

/-- R458, R459: a word of HBM that cannot be corrected is poisoned, wherever it was read. -/
theorem lostWord_shows {a : Nat} (ha : a < hbmTop) :
    isBad (lostWord s pl code a detail) a = true ∧ RegsBut (recordKeys pl.blk pl.inst) s (lostWord s pl code a detail) := by
  have hash : a < ashBase := by unfold hbmTop at ha; unfold ashBase; omega
  have hpoison : poisonStored s a = poisonWord s a := if_neg (by simp [hbm_not_inBuf ha])
  unfold lostWord
  extract_lets u
  have hu : isBad u a = true := (isBad_of_moves (logLedger_moves ..) (by decide) a).trans (hpoison ▸ isBad_poisonWord s a)
  have hregs : RegsBut (recordKeys pl.blk pl.inst) s u := regsBut_of_moves
    ((logLedger_moves ..).next (m := 0x4000000000a0) (by decide) ((poisonStored_moves s a).le (by decide))) (by decide) _
  refine ⟨(isBad_lineRecord _ _ _ _ _ hash).trans ?_, regs_trans hregs (regs_trans ?_ (regsBut_lineRecord _ _ _ _ _))⟩
  · split
    · exact hu
    · exact hu
  · split
    · exact regsBut_of_regs _ rfl
    · exact regs_refl _ _

end

/-! Words that cannot be corrected (R458, R459). -/

section
variable {s : State} {e : LineErr} (h : (readLine s e).1 = .uncorrectable) (pl : LinePlace)
include h

theorem accessWord_lost : ∃ d, accessWord s pl e = (lostWord s pl 0x0503 (e.addr.toNat / 16 * 16) d, .uncorrectable) := by
  rcases hr : readLine s e with ⟨v, w, t⟩
  rw [hr] at h
  subst h
  exact ⟨lineDetail pl.struct t 0xFF, by simp [accessWord, hr]⟩

theorem sweepWord_lost (again : Option LineErr) :
    ∃ d, sweepWord s pl e again = (lostWord s pl 0x0503 (e.addr.toNat / 16 * 16) d, .uncorrectable) := by
  rcases hr : readLine s e with ⟨v, w, t⟩
  rw [hr] at h
  subst h
  exact ⟨lineDetail pl.struct t 0xFF, by simp [sweepWord, hr]⟩

end

/-! Retirement (R277, R279, R280). -/

/-- The registers of a stack that the limits of R279 move: its status, the pseudo-channels retired, and the counts of one of them. -/
def retireKeys (st pc : Nat) : List Nat := [fKey MC_STATUS_MIGRATING st, fKey MC_RETIRE_V1 st, fldKey 11 MC_PC_UE st pc]

theorem regsBut_startRetire (s : State) (st pc : Nat) : RegsBut (retireKeys st pc) s (startRetire s st pc) := by
  have hset : ∀ (f : Fld) (u : State) (v : Nat), fKey f st ∈ retireKeys st pc → RegsBut (retireKeys st pc) u (setF u f st v) :=
    fun f u v hf => regs_mono (regsBut_wrF u f.blk f st 0 v) (by simpa [fKey] using hf)
  unfold startRetire
  extract_lets n u v w
  have hu : RegsBut (retireKeys st pc) s u := by
    unfold u
    split
    · exact regs_trans (hset MC_RETIRE_PC1 s _ (by simp [retireKeys, fKey, fldKey, MC_RETIRE_PC1, MC_RETIRE_V1]))
        (hset MC_RETIRE_V1 _ _ (by simp [retireKeys]))
    · exact regs_trans (hset MC_RETIRE_PC2 s _ (by simp [retireKeys, fKey, fldKey, MC_RETIRE_PC2, MC_RETIRE_V1]))
        (hset MC_RETIRE_V2 _ _ (by simp [retireKeys, fKey, fldKey, MC_RETIRE_V1, MC_RETIRE_V2]))
  have hv : RegsBut (retireKeys st pc) u v := regs_trans
    (hset MC_STATUS_RETIRED u _ (by simp [retireKeys, fKey, fldKey, MC_STATUS_RETIRED, MC_STATUS_MIGRATING]))
    (hset MC_STATUS_MIGRATING _ _ (by simp [retireKeys]))
  have hw : RegsBut (retireKeys st pc) v w := regs_mono (regsBut_wrF v 11 MC_PC_UE st pc 0) (by simp [retireKeys])
  exact regs_trans (regs_trans (regs_trans hu hv) hw) (regsBut_of_regs _ rfl)

/-- R279, R280: what the limits lead to writes a stack's retirement registers, and a record. -/
theorem regsBut_checkLimits (s : State) (st pc : Nat) (was : Bool) :
    RegsBut (retireKeys st pc ++ recordKeys 11 st) s (checkLimits s st pc was) := by
  have hmono : ∀ {u : State}, RegsBut (retireKeys st pc) s u → RegsBut (retireKeys st pc ++ recordKeys 11 st) s u :=
    fun h => regs_mono h fun _ hk => List.mem_append_left _ hk
  unfold checkLimits
  extract_lets r
  split
  · exact regs_refl _ s
  · split
    · exact regs_refl _ s
    · split
      · split
        · exact regs_refl _ s
        · exact regs_trans (hmono (regs_mono (regsBut_wrF s 11 MC_STATUS_REPAIR_EXHAUSTED st 0 1)
            (by simp [retireKeys, fKey, fldKey, MC_STATUS_REPAIR_EXHAUSTED, MC_STATUS_MIGRATING])))
            (regs_mono (regsBut_raise _ _ _ _) fun _ hk => List.mem_append_right _ hk)
      · split
        · exact regs_refl _ s
        · exact hmono (regsBut_startRetire s st pc)

/-- R459: what the limits lead to leaves the poison of HBM. -/
theorem isBad_checkLimits (s : State) (st pc : Nat) (was : Bool) {a : Nat} (ha : a < ashBase) :
    isBad (checkLimits s st pc was) a = isBad s a := by
  unfold checkLimits
  extract_lets r
  split
  · rfl
  · split
    · rfl
    · split
      · split
        · rfl
        · exact (isBad_raise _ _ _ _ ha).trans rfl
      · split
        · rfl
        · exact isBad_of_moves (startRetire_moves s st pc) (by decide) a

/-- R295: a word of a stack that is lost is counted, for its stack and its pseudo-channel, and the limits are judged. -/
theorem countHbmErr_lost (s : State) (a : Nat) : ∃ pc n was, countHbmErr s a .uncorrectable =
    checkLimits (setFi (addF s MC_ECC_UNCORRECTED (ilStack a) 1) MC_PC_UE (ilStack a) pc n) (ilStack a) pc was := by
  simp only [countHbmErr, isCorrected, isLost, Bool.false_eq_true, if_false, if_true]
  exact ⟨_, _, _, rfl⟩

theorem countHbmErr_lost_shows (s : State) (a : Nat) : let t := countHbmErr s a .uncorrectable
    getF t MC_ECC_UNCORRECTED (ilStack a) = satAdd MC_ECC_UNCORRECTED.len (getF s MC_ECC_UNCORRECTED (ilStack a)) 1
      ∧ ∀ x < ashBase, isBad t x = isBad s x := by
  intro t
  obtain ⟨pc, n, was, ht⟩ := countHbmErr_lost s a
  obtain ⟨st, hst⟩ : ∃ st, ilStack a = st := ⟨_, rfl⟩
  rw [show t = _ from ht, hst]
  refine ⟨?_, fun x hx => (isBad_checkLimits _ _ _ _ hx).trans ((isBad_setFi ..).trans (isBad_addF ..))⟩
  have hkey : fldKey 11 MC_ECC_UNCORRECTED st 0 ∉ retireKeys st pc ++ recordKeys 11 st := by
    simp only [retireKeys, recordKeys, List.mem_append, List.mem_cons, List.not_mem_nil, or_false, fKey, fldKey, regKey, MC_ECC_UNCORRECTED,
      MC_STATUS_MIGRATING, MC_RETIRE_V1, MC_PC_UE, EB_EV_LOST, MG_LINE_DROPPED, H_ERR_LOG_CODE, H_IRQ_STATUS_FAULT]
    omega
  have hset : RegsBut [fldKey 11 MC_PC_UE st pc] (addF s MC_ECC_UNCORRECTED st 1) (setFi (addF s MC_ECC_UNCORRECTED st 1) MC_PC_UE st pc n) :=
    regsBut_wrF _ 11 MC_PC_UE st pc n
  have hpc : fldKey 11 MC_ECC_UNCORRECTED st 0 ∉ [fldKey 11 MC_PC_UE st pc] := by
    simp only [List.mem_singleton, fldKey, regKey, MC_ECC_UNCORRECTED, MC_PC_UE]
    omega
  rw [getF_of_regsBut (f := MC_ECC_UNCORRECTED) (regsBut_checkLimits _ st pc was) hkey, getF_of_regsBut (f := MC_ECC_UNCORRECTED) hset hpc,
    getF_addF_same _ _ _ (by decide)]

end Sys2Proof.Proofs

/-! PROOFS. Sweeps of a slice (R282), accesses that meet a bad word (R459), and flushes (R287). -/
namespace Sys2Proof.Proofs
open Sys2Proof Sys2Proof.Machine Sys2Proof.Laws

/-! Words that a sweep corrects (R458, R474). -/

theorem readNat_writeNat (s : State) (a n v : Nat) : readNat (writeNat s a n v) a n = v % 2 ^ (8 * n) := by
  have hbytes : (readBytes (writeNat s a n v) a n).map (·.b) = bytesOf n v := by
    refine List.ext_getElem (by simp [readBytes]) fun i hi _ => ?_
    have hlen : i < (good (bytesOf n v)).length := by simpa [readBytes, good] using hi
    have hbyte := memByte_writeBytes_same s a (good (bytesOf n v)) i hlen
    simpa [readBytes, writeNat, good] using hbyte
  rw [readNat, hbytes, ofBytes_bytesOf]

theorem readNat_of_memByte {s t : State} {a n : Nat} (h : ∀ i < n, memByte t (a + i) = memByte s (a + i)) : readNat t a n = readNat s a n := by
  have hbytes : (readBytes t a n).map (·.b) = (readBytes s a n).map (·.b) := by
    refine List.ext_getElem (by simp [readBytes]) fun i hi _ => ?_
    simpa [readBytes] using h i (by simpa [readBytes] using hi)
  rw [readNat, readNat, hbytes]

section
variable {s : State} {e : LineErr} {j v : Nat}

/-- R458, R474: a word that a sweep corrects is rewritten, logged and classified. -/
theorem sweepWord_corrected (h : (readLine s e).1 = .corrected j v) (pl : LinePlace) (again : Option LineErr) :
    ∃ u r, sweepWord s pl e again = (raise u 1 0 r, .corrected j v)
      ∧ Moves 0x18400000000000 (writeNat s (e.addr.toNat / 16 * 16) 16 (readLine s e).2.1) u := by
  rcases hr : readLine s e with ⟨x, w, t⟩
  rw [hr] at h
  subst h
  simp only [sweepWord, hr]
  exact ⟨_, _, rfl, (bumpLife_moves ..).next (by decide) ((logLedger_moves ..).next (by decide)
    (Moves.ite ((addWear_moves ..).next (by decide) ((logCorrected_moves ..).le (by decide))) ((logCorrected_moves ..).le (by decide))))⟩

end

/-! Sweeps of a slice (R282). -/

section
variable {s : State} {st : Nat} {e : LineErr}

theorem countHcErr_corrected (s : State) (a j v : Nat) : countHcErr s a (.corrected j v) = addF s HC_ECC_CORRECTED (ilStack a) 1 := rfl

theorem countHcErr_lost (s : State) (a : Nat) : countHcErr s a .uncorrectable = addF s HC_ECC_UNCORRECTED (ilStack a) 1 := rfl

theorem hcSweep_early (h : ¬ (getTimer s (tmHcSweep st) + 100000000 ≤ s.gsc ∧ isolated s 100 = false)) (errs : List LineErr) :
    hcSweep s st errs = s := if_pos (by
  rw [not_and_or, Nat.not_le, Bool.not_eq_false] at h
  exact h)

/-- R282: a sweep that is due begins its period anew. -/
theorem hcSweep_due (h : getTimer s (tmHcSweep st) + 100000000 ≤ s.gsc ∧ isolated s 100 = false) :
    hcSweep s st [] = setTimer s (tmHcSweep st) s.gsc := if_neg (by
  rw [not_or, Nat.not_lt, Bool.not_eq_true]
  exact h)

/-- R282: a sweep that is due judges the word of a line that its slice holds. -/
theorem hcSweep_word (h : getTimer s (tmHcSweep st) + 100000000 ≤ s.gsc ∧ isolated s 100 = false)
    (hline : (getStack s st).lines.any (fun l => l.line == e.addr.toNat / 256) = true) {t : State} {v : Verdict}
    (hword : sweepWord (setTimer s (tmHcSweep st) s.gsc) (hcPlace e.addr.toNat) e none = (t, v)) :
    hcSweep s st [e] = countHcErr t e.addr.toNat v := by
  have hnot : ¬ (s.gsc < getTimer s (tmHcSweep st) + 100000000 ∨ isolated s 100 = true) := by
    rw [not_or, Nat.not_lt, Bool.not_eq_true]
    exact h
  simp only [hcSweep, if_neg hnot, pairErrs, List.foldl_cons, List.foldl_nil, getStack_setTimer, hline, if_true, hword]

theorem hcSweep_corrected (h : getTimer s (tmHcSweep st) + 100000000 ≤ s.gsc ∧ isolated s 100 = false)
    (hline : (getStack s st).lines.any (fun l => l.line == e.addr.toNat / 256) = true) (htop : e.addr.toNat < hbmTop)
    (hst : e.addr.toNat / 256 % 6 = st) {j v : Nat} (hv : (readLine s e).1 = .corrected j v) :
    let t := hcSweep s st [e]
    let a := e.addr.toNat / 16 * 16
    readNat t a 16 = (readLine s e).2.1 % 2 ^ 128 ∧ BytesBut [(a, 16), (ashBase, 2 ^ 24)] s t
      ∧ getF t HC_ECC_CORRECTED st = satAdd HC_ECC_CORRECTED.len (getF s HC_ECC_CORRECTED st) 1 := by
  intro t a
  obtain ⟨u, r, hword, hm⟩ := sweepWord_corrected (s := setTimer s (tmHcSweep st) s.gsc) hv (hcPlace e.addr.toNat) none
  have ht : t = addF (raise u 1 0 r) HC_ECC_CORRECTED st 1 := by
    rw [← hst]
    subst hst
    exact (hcSweep_word h hline hword).trans (countHcErr_corrected ..)
  have hash : a + 16 ≤ ashBase := by
    unfold hbmTop at htop
    unfold ashBase
    omega
  have hmem : ∀ b, b < ashBase ∨ ashBase + 2 ^ 24 ≤ b → memByte t b = memByte (writeNat s a 16 (readLine s e).2.1) b := fun b hb => by
    rw [ht, memByte_addF, memByte_raise_apart _ _ _ _ hb, memByte_of_moves hm (by decide)]
    rfl
  refine ⟨?_, fun b hb => ?_, ?_⟩
  · rw [readNat_of_memByte (s := writeNat s a 16 (readLine s e).2.1) fun i hi => hmem (a + i) (.inl (by omega)), readNat_writeNat]
  · simp only [List.mem_cons, List.not_mem_nil, or_false, forall_eq_or_imp, forall_eq] at hb
    obtain ⟨hown, hrec⟩ := hb
    rw [hmem b hrec, writeNat, memByte_writeBytes_other _ _ _ _ (by simpa [good] using hown)]
  · have hregs : RegsBut [] s u := regs_trans (regs_trans (regsBut_of_moves (setTimer_moves s _ _) (by decide) _)
      (regsBut_of_moves (writeNat_moves ..) (by decide) _)) (regsBut_of_moves hm (by decide) _)
    rw [ht, getF_addF_same _ _ _ (by decide), getF_recorded (regsBut_raise u 1 0 r) (by decide), getF_of_regsBut hregs (by simp)]

theorem hcSweep_lost (h : getTimer s (tmHcSweep st) + 100000000 ≤ s.gsc ∧ isolated s 100 = false)
    (hline : (getStack s st).lines.any (fun l => l.line == e.addr.toNat / 256) = true) (htop : e.addr.toNat < hbmTop)
    (hst : e.addr.toNat / 256 % 6 = st) (hv : (readLine s e).1 = .uncorrectable) : let t := hcSweep s st [e]
    isBad t (e.addr.toNat / 16 * 16) = true
      ∧ getF t HC_ECC_UNCORRECTED st = satAdd HC_ECC_UNCORRECTED.len (getF s HC_ECC_UNCORRECTED st) 1 := by
  intro t
  obtain ⟨d, hword⟩ := sweepWord_lost (s := setTimer s (tmHcSweep st) s.gsc) hv (hcPlace e.addr.toNat) none
  obtain ⟨hbad, hregs⟩ := lostWord_shows (setTimer s (tmHcSweep st) s.gsc) (hcPlace e.addr.toNat) 0x0503 d
    (show e.addr.toNat / 16 * 16 < hbmTop by omega)
  have ht := (hcSweep_word h hline hword).trans (countHcErr_lost ..)
  rw [show ilStack e.addr.toNat = st from hst] at ht
  rw [show t = _ from ht, isBad_addF, getF_addF_same _ _ _ (by decide), getF_recorded hregs (by decide)]
  exact ⟨hbad, rfl⟩

end

/-! An access that meets a bad word (R459). -/

/-- R295, R459: an access whose bytes have moved meets a word of HBM that cannot be corrected. -/
theorem hcAccess_lost {s : State} {addr : Nat} {hint : Nat} {e : LineErr}
    (hup : memReset s [(256 * (addr / 256), 256)] = false ∧ lineWaits s (addr / 256) = false)
    (hq : s.lineQ.find? (fun q => q.addr / 256 == addr / 256) = none) (hline : e.addr.toNat / 256 = addr / 256) (htop : e.addr.toNat < hbmTop)
    (hmiss : (getStack s (addr / 256 % 6)).lines.any (fun l => l.line == addr / 256) = false) (hv : (readLine s e).1 = .uncorrectable) :
    let t := hcAccess s addr false hint [e] 0 none
    isBad t (e.addr.toNat / 16 * 16) = true ∧ getF t MC_ECC_UNCORRECTED (addr / 256 % 6)
      = satAdd MC_ECC_UNCORRECTED.len (getF s MC_ECC_UNCORRECTED (addr / 256 % 6)) 1 := by
  intro t
  have hash : e.addr.toNat < ashBase := by unfold hbmTop at htop; unfold ashBase; omega
  have hcat : inCatalogue e.addr.toNat = false := by
    unfold hbmTop at htop
    simp only [inCatalogue, Bool.and_eq_false_iff, decide_eq_false_iff_not]
    omega
  obtain ⟨d, hword⟩ := accessWord_lost hv (hbmPlace s e.addr.toNat)
  obtain ⟨hbad, hregs⟩ := lostWord_shows s (hbmPlace s e.addr.toNat) 0x0503 d (show e.addr.toNat / 16 * 16 < hbmTop by omega)
  have ht : t = countHbmErr (lostWord s (hbmPlace s e.addr.toNat) 0x0503 (e.addr.toNat / 16 * 16) d) e.addr.toNat .uncorrectable := by
    simp [t, hcAccess, hcat, hup, hq, hmiss, accessErr, hline, hword]
  obtain ⟨hcount, hpoison⟩ := countHbmErr_lost_shows (lostWord s (hbmPlace s e.addr.toNat) 0x0503 (e.addr.toNat / 16 * 16) d) e.addr.toNat
  rw [show ilStack e.addr.toNat = addr / 256 % 6 from congrArg (· % 6) hline] at hcount
  rw [ht, hpoison _ (by omega), hcount, getF_recorded hregs (by decide)]
  exact ⟨hbad, rfl⟩

/-! Flushes (R287). -/

/-- R287: what writing back the dirty ones of some lines counts. -/
theorem writeBacks_count {st : Nat} (hst : st < 256) : ∀ (ls : List HcLine) (s : State), let t := ls.foldl (fun s l => writeBack s st l) s
    getF t HC_WRITEBACKS st = (getF s HC_WRITEBACKS st + (ls.filter (·.dirty)).length) % 2 ^ 64
      ∧ getF t MC_BYTES st = (getF s MC_BYTES st + 256 * (ls.filter (·.dirty)).length) % 2 ^ 64
  | [], s => ⟨(getF_add_zero s st rfl).symm, (getF_add_zero s st rfl).symm⟩
  | l :: ls, s => by
    obtain ⟨hback, hbytes⟩ := writeBacks_count hst ls (writeBack s st l)
    obtain ⟨hown, hmoved⟩ := writeBack_counts s hst l
    have hcount : ((l :: ls).filter (·.dirty)).length = b2n l.dirty + (ls.filter (·.dirty)).length := by
      cases hd : l.dirty <;> simp [hd, b2n, Nat.add_comm]
    intro t
    rw [show t = ls.foldl (fun s l => writeBack s st l) (writeBack s st l) from rfl, hback, hbytes, hown, hmoved, hcount]
    omega

/-- R287: a flush runs, in a state `w` that followed the write-backs of a slice without another write of a register. -/
theorem flush_shows {s w : State} {st : Nat} (hst : st < 256) (hregs : w.regs = (flushWb s st).regs) (hm : Moves 0x8008 s w) :
    let t := setF w HC_STATUS_FLUSHING st 1
    let n := ((getStack s st).lines.filter (·.dirty)).length
    getF t HC_WRITEBACKS st = (getF s HC_WRITEBACKS st + n) % 2 ^ 64 ∧ getF t MC_BYTES st = (getF s MC_BYTES st + 256 * n) % 2 ^ 64
      ∧ getF t HC_STATUS_FLUSHING st = 1 ∧ Only [.regs, .hbmStacks] s t := by
  intro t n
  obtain ⟨hback, hbytes⟩ := writeBacks_count hst (getStack s st).lines s
  have hflush : RegsBut ([HC_STATUS_FLUSHING].map (fKey · st)) ((getStack s st).lines.foldl (fun s l => writeBack s st l) s) t :=
    regs_trans (regsBut_of_regs _ hregs) (regsBut_setF w (by decide) st 1)
  refine ⟨?_, ?_, getF_setF_same _ _ _ _ (by decide), only_of _ ((setF_moves ..).next (by decide) hm) (by decide)⟩
  · rw [getF_apart hflush hst hst (by decide), hback]
  · rw [getF_apart hflush hst hst (by decide), hbytes]

end Sys2Proof.Proofs

/-! PROOFS. The sweep of a stack (R272, R282, R295), the retirement of pseudo-channels (R277 to R280) and its migration (R278). -/
namespace Sys2Proof.Proofs
open Sys2Proof Sys2Proof.Machine Sys2Proof.Laws

/-! The counts of pseudo-channels (R295). -/

/-- The counts of a stack's pseudo-channels stand past its other registers. -/
theorem pcKey_not_mem {f : Fld} {gs : List Fld} {st c : Nat} (hf : f.blk = 11 ∧ f.off = 256)
    (h : ∀ g ∈ gs, g.blk = 11 ∧ g.off < 256) : fldKey f.blk f st c ∉ gs.map (fKey · st) := by
  intro hmem
  obtain ⟨g, hg, hkey⟩ := List.mem_map.1 hmem
  have := h g hg
  simp only [fKey, fldKey, regKey, hf] at hkey
  omega

theorem getFi_apart {s t : State} {f : Fld} {gs : List Fld} {st c : Nat} (h : RegsBut (gs.map (fKey · st)) s t)
    (hf : f.blk = 11 ∧ f.off = 256) (hgs : ∀ g ∈ gs, g.blk = 11 ∧ g.off < 256) : getFi t f st c = getFi s f st c := by
  rw [getFi, getFi, rdF, rdF, h _ (pcKey_not_mem hf hgs)]

theorem getF_setFi_pc (s : State) {f g : Fld} (hg : g.blk = 11 ∧ g.off < 256) (hf : f.blk = 11 ∧ f.off = 256) (st c v : Nat) :
    getF (setFi s f st c v) g st = getF s g st :=
  rdF_wrF_key _ _ _ _ _ _ _ _ _ _ (by simp only [fldKey, regKey, hf, hg]; omega)

/-- R295: the corrected counts of some pseudo-channels have been cleared. -/
theorem pcCleared_shows {st : Nat} : ∀ (l : List Nat) (s : State), let t := l.foldl (fun s c => setFi s MC_PC_CE st c 0) s
    (∀ c, getFi t MC_PC_CE st c = if c ∈ l then 0 else getFi s MC_PC_CE st c)
      ∧ (∀ g : Fld, g.blk = 11 ∧ g.off < 256 → getF t g st = getF s g st) ∧ Moves 0x8 s t
  | [], s => ⟨fun c => by simp, fun _ _ => rfl, Moves.refl _ s⟩
  | x :: l, s => by
    obtain ⟨hown, hothers, hm⟩ := pcCleared_shows l (setFi s MC_PC_CE st x 0)
    refine ⟨fun c => (hown c).trans ?_, fun g hg => (hothers g hg).trans (getF_setFi_pc s hg ⟨rfl, rfl⟩ st x 0), hm.trans (setFi_moves ..)⟩
    by_cases hx : c = x
    · rw [hx, getFi_setFi_same _ _ _ _ _ (by decide)]
      simp
    · have hkey : getFi (setFi s MC_PC_CE st x 0) MC_PC_CE st c = getFi s MC_PC_CE st c :=
        rdF_wrF_key _ _ _ _ _ _ _ _ _ _ (by simp only [fldKey, regKey, MC_PC_CE]; omega)
      simp only [hkey, List.mem_cons, hx, false_or]

/-! The sweep of a stack (R272, R282, R295). -/

section
variable {s : State} {st n : Nat}

/-- R282: a stack sweeps: it is enabled, up, and within a pass or due for one. -/
def Sweeps (s : State) (st : Nat) : Prop :=
  flagF s MC_SWEEP_EN st = true ∧ isolated s (72 + st) = false ∧ (getF s MC_SWEEP_POS_Q st ≠ 0 ∨ sweepDue s st = true)

/-- R272, R282, R295: the reports have been taken, a pass that begins has been timed, and the line has been read. -/
def lineSwept (s : State) (st n : Nat) : State :=
  let q := getF s MC_SWEEP_POS_Q st
  let u := odeccReports s st (pcOfQ q) n
  stackBytes (if q = 0 then setTimer u (tmMcSweep st) (u.gsc + 1) else u) st 256

/-- R282, R295: the place of the sweep after a line: the next one, or the first after the corrected counts have been cleared. -/
def sweepMoved (s : State) (st q : Nat) : State :=
  if q + 1 < stackQ then setF s MC_SWEEP_POS_Q st (q + 1)
  else (List.range 64).foldl (fun s c => setFi s MC_PC_CE st c 0) (setF s MC_SWEEP_POS_Q st 0)

theorem mcSweepLine_stays (h : ¬ Sweeps s st) (n : Nat) : mcSweepLine s st [] n = s := if_pos (by
  simp only [Sweeps, not_and_or, not_or, Decidable.not_not, Bool.not_eq_true, Bool.not_eq_false] at h
  simpa using h)

theorem mcSweepLine_goes (h : Sweeps s st) : mcSweepLine s st [] n = sweepMoved (lineSwept s st n) st (getF s MC_SWEEP_POS_Q st) := by
  obtain ⟨hen, hiso, hq⟩ := h
  have hgo : ¬ ((!flagF s MC_SWEEP_EN st) = true ∨ isolated s (72 + st) = true ∨ getF s MC_SWEEP_POS_Q st = 0 ∧ (!sweepDue s st) = true) := by
    rcases hq with hq | hq <;> simp [hen, hiso, hq]
  unfold mcSweepLine
  extract_lets q u v w
  rw [if_neg hgo]
  have hw : w = lineSwept s st n := by
    unfold w
    split <;> rfl
  rw [hw]
  rfl

theorem lineSwept_shows (hst : st < 256) : let t := lineSwept s st n
    getF t MC_BYTES st = (getF s MC_BYTES st + 256) % 2 ^ 64
      ∧ getF t MC_ODECC_REPORTS st = (if n = 0 then getF s MC_ODECC_REPORTS st else satAdd MC_ODECC_REPORTS.len (getF s MC_ODECC_REPORTS st) n)
      ∧ Moves 0x200400000000008 s t := by
  unfold lineSwept
  extract_lets q u t
  obtain ⟨v, hv⟩ : ∃ v, (if q = 0 then setTimer u (tmMcSweep st) (u.gsc + 1) else u) = v := ⟨_, rfl⟩
  have hreports : RegsBut ([MC_ODECC_REPORTS].map (fKey · st)) s u ∧ getF u MC_ODECC_REPORTS st
      = (if n = 0 then getF s MC_ODECC_REPORTS st else satAdd MC_ODECC_REPORTS.len (getF s MC_ODECC_REPORTS st) n) := by
    unfold u odeccReports
    split
    · exact ⟨regs_refl _ s, rfl⟩
    · exact ⟨regs_trans (regsBut_setF s (by decide) st _) (regsBut_of_regs _ rfl), getF_addF_same s st n (by decide)⟩
  have htimed : ∀ f, getF v f st = getF u f st := fun f => by
    rw [← hv]
    split <;> rfl
  have hmoves : Moves 0x200400000000008 s v := by
    rw [← hv]
    exact Moves.ite ((setTimer_moves ..).next (by decide) ((odeccReports_moves ..).le (by decide))) ((odeccReports_moves ..).le (by decide))
  have hbytes : RegsBut ([MC_BYTES].map (fKey · st)) v (stackBytes v st 256) := regsBut_setF v (by decide) st _
  rw [show t = stackBytes v st 256 from hv ▸ rfl]
  refine ⟨?_, ?_, (stackBytes_moves ..).next (by decide) hmoves⟩
  · rw [stackBytes, getF_addStat_same _ _ _ ⟨rfl, rfl⟩, htimed, getF_apart hreports.1 hst hst (by decide)]
  · rw [getF_apart hbytes hst hst (by decide), htimed, hreports.2]

theorem sweepMoved_shows (hst : st < 256) {q : Nat} : let t := sweepMoved s st q
    getF t MC_SWEEP_POS_Q st = (if q + 1 < stackQ then q + 1 else 0)
      ∧ (∀ g ∈ [MC_BYTES, MC_ODECC_REPORTS], getF t g st = getF s g st)
      ∧ (stackQ ≤ q + 1 → ∀ c < 64, getFi t MC_PC_CE st c = 0) ∧ Moves 0x8 s t := by
  have hplace : ∀ v, ∀ g ∈ [MC_BYTES, MC_ODECC_REPORTS], getF (setF s MC_SWEEP_POS_Q st v) g st = getF s g st := fun v g hg => by
    have hset : RegsBut ([MC_SWEEP_POS_Q].map (fKey · st)) s (setF s MC_SWEEP_POS_Q st v) := regsBut_setF s (by decide) st v
    refine getF_apart hset hst hst ?_
    revert g
    decide
  intro t
  by_cases hq : q + 1 < stackQ
  · have ht : t = setF s MC_SWEEP_POS_Q st (q + 1) := if_pos hq
    rw [ht, if_pos hq]
    exact ⟨(getF_setF_same s _ st _ (by decide)).trans (Nat.mod_eq_of_lt hq), hplace _, fun hend => absurd hq (Nat.not_lt.2 hend), setF_moves ..⟩
  · have ht : t = _ := if_neg hq
    obtain ⟨hown, hothers, hm⟩ := pcCleared_shows (st := st) (List.range 64) (setF s MC_SWEEP_POS_Q st 0)
    rw [ht, if_neg hq]
    refine ⟨(hothers _ (by decide)).trans (getF_setF_same s _ st _ (by decide)), fun g hg => (hothers g ?_).trans (hplace 0 g hg),
      fun _ c hc => (hown c).trans (if_pos (List.mem_range.2 hc)), hm.trans (setF_moves ..)⟩
    revert g
    decide

end

/-! Retired pseudo-channels (R277 to R280). -/

section
variable {s : State} {st pc : Nat}

theorem retiredPcs_same {s t : State} {st : Nat}
    (h : ∀ f ∈ [MC_RETIRE_V1, MC_RETIRE_PC1, MC_RETIRE_V2, MC_RETIRE_PC2], getF t f st = getF s f st) : retiredPcs t st = retiredPcs s st := by
  simp only [List.forall_mem_cons] at h
  obtain ⟨hv1, hp1, hv2, hp2, -⟩ := h
  rw [retiredPcs, retiredPcs, flagF_of_getF hv1, flagF_of_getF hv2, hp1, hp2]

/-- R277: a pseudo-channel takes the first place of those retired that is free. -/
def pcRetired (s : State) (st pc : Nat) : State :=
  if (retiredPcs s st).length = 0 then setF (setF s MC_RETIRE_PC1 st pc) MC_RETIRE_V1 st 1 else setF (setF s MC_RETIRE_PC2 st pc) MC_RETIRE_V2 st 1

theorem retiredPcs_pcRetired (hpc : pc < 64) (hlen : (retiredPcs s st).length ≠ 2)
    (hfirst : flagF s MC_RETIRE_V2 st = true → flagF s MC_RETIRE_V1 st = true) : retiredPcs (pcRetired s st pc) st = retiredPcs s st ++ [pc] := by
  have hflag : ∀ u f, f.lo + f.len ≤ 64 → f.len = 1 → flagF (setF u f st 1) f st = true := fun u f hw hl => by
    rw [flagF, getF_setF_same _ _ _ _ hw, hl]
    rfl
  have hapart : ∀ u (f g : Fld) v, f.lo + f.len ≤ 64 → g.lo + g.len ≤ f.lo ∨ f.lo + f.len ≤ g.lo →
      getF (setF u f st v) g st = getF u g st := fun u f g v hw h => getF_setF_apart u f st v g st hw h
  unfold pcRetired
  cases h1 : flagF s MC_RETIRE_V1 st <;> cases h2 : flagF s MC_RETIRE_V2 st
  · have hr : retiredPcs s st = [] := by simp [retiredPcs, h1, h2]
    have hv2 : flagF (setF (setF s MC_RETIRE_PC1 st pc) MC_RETIRE_V1 st 1) MC_RETIRE_V2 st = false := by
      rw [flagF, hapart _ _ _ _ (by decide) (by decide), hapart _ _ _ _ (by decide) (by decide)]
      exact h2
    rw [hr, if_pos List.length_nil, retiredPcs, hflag _ _ (by decide) rfl, hv2, hapart _ _ _ _ (by decide) (by decide),
      getF_setF_same _ _ _ _ (by decide), show pc % 2 ^ MC_RETIRE_PC1.len = pc from Nat.mod_eq_of_lt hpc]
    rfl
  · simp [h1, h2] at hfirst
  · have hr : retiredPcs s st = [getF s MC_RETIRE_PC1 st] := by simp [retiredPcs, h1, h2]
    have hv1 : flagF (setF (setF s MC_RETIRE_PC2 st pc) MC_RETIRE_V2 st 1) MC_RETIRE_V1 st = true := by
      rw [flagF, hapart _ _ _ _ (by decide) (by decide), hapart _ _ _ _ (by decide) (by decide)]
      exact h1
    rw [hr, if_neg (by simp), retiredPcs, hflag _ _ (by decide) rfl, hv1, hapart _ MC_RETIRE_V2 MC_RETIRE_PC1 _ (by decide) (by decide),
      hapart _ MC_RETIRE_PC2 MC_RETIRE_PC1 _ (by decide) (by decide), hapart _ MC_RETIRE_V2 MC_RETIRE_PC2 _ (by decide) (by decide),
      getF_setF_same _ _ _ _ (by decide), show pc % 2 ^ MC_RETIRE_PC2.len = pc from Nat.mod_eq_of_lt hpc]
    rfl
  · simp [retiredPcs, h1, h2] at hlen

/-- R277, R279: a retirement shows in its stack's registers, and its migration begins. -/
theorem startRetire_shows (hst : st < 256) (hpc : pc < 64) (hlen : (retiredPcs s st).length ≠ 2)
    (hfirst : flagF s MC_RETIRE_V2 st = true → flagF s MC_RETIRE_V1 st = true) : let t := startRetire s st pc
    retiredPcs t st = retiredPcs s st ++ [pc] ∧ getF t MC_STATUS_MIGRATING st = 1
      ∧ getF t MC_STATUS_RETIRED st = (retiredPcs s st).length + 1 ∧ getStack t st = { getStack s st with migrating := some 0 } := by
  intro t
  obtain ⟨u, hu⟩ : ∃ u, pcRetired s st pc = u := ⟨_, rfl⟩
  obtain ⟨v, hv⟩ : ∃ v, setF (setF u MC_STATUS_RETIRED st ((retiredPcs s st).length + 1)) MC_STATUS_MIGRATING st 1 = v := ⟨_, rfl⟩
  have hstack : getStack v st = getStack s st := by
    rw [← hv, ← hu, pcRetired]
    split <;> rfl
  have ht : t = logLedger (bumpLife (setStack (setFi v MC_PC_UE st pc 0) st { getStack v st with migrating := some 0 }) 5) 4
      (0x100 + 64 * st + pc) [st, pc] := by
    rw [← hv, ← hu]
    rfl
  have hfields : ∀ g : Fld, g.blk = 11 ∧ g.off < 256 → getF t g st = getF v g st := fun g hg => by
    rw [ht]
    exact getF_setFi_pc v hg ⟨rfl, rfl⟩ st pc 0
  have hstatus : RegsBut ([MC_STATUS_MIGRATING].map (fKey · st)) u v := by
    rw [← hv]
    exact regs_trans (regs_mono (regsBut_wrF u 11 MC_STATUS_RETIRED st 0 _) (by simp [fKey, fldKey, MC_STATUS_RETIRED, MC_STATUS_MIGRATING]))
      (regsBut_setF _ (by decide) st 1)
  refine ⟨?_, ?_, ?_, ?_⟩
  · rw [← retiredPcs_pcRetired hpc hlen hfirst, hu]
    refine retiredPcs_same fun f hf => (hfields f ?_).trans (getF_apart hstatus hst hst ?_)
    all_goals
      revert f
      decide
  · rw [hfields _ (by decide), ← hv]
    exact getF_setF_same _ _ _ _ (by decide)
  · have hle : (retiredPcs s st).length ≤ 2 := by
      unfold retiredPcs
      split <;> split <;> simp
    rw [hfields _ (by decide), ← hv, getF_setF_apart _ _ _ _ _ _ (by decide) (by decide), getF_setF_same _ _ _ _ (by decide)]
    exact Nat.mod_eq_of_lt (show _ < 4 by omega)
  · rw [← hstack, ht]
    exact getStack_setStack_same ..

/-- R279: the last that a retirement does is to enter the ledger. -/
theorem startRetire_logs (s : State) (st pc : Nat) :
    ∃ u, startRetire s st pc = logLedger u 4 (0x100 + 64 * st + pc) [st, pc] ∧ Moves 0x8000000008008 s u :=
  ⟨_, rfl, (bumpLife_moves ..).next (by decide) ((setStack_moves ..).next (by decide) ((setFi_moves ..).next (by decide)
    ((setF_moves ..).next (by decide) ((setF_moves ..).next (by decide) (Moves.ite
      ((setF_moves ..).next (by decide) ((setF_moves ..).le (by decide))) ((setF_moves ..).next (by decide) ((setF_moves ..).le (by decide))))))))⟩

theorem startRetire_ledger (s : State) (st pc : Nat) :
    (startRetire s st pc).ledger = s.ledger ++ [⟨4, 0x100 + 64 * st + pc, s.gsc, [st, pc]⟩] := by
  obtain ⟨u, hu, hm⟩ := startRetire_logs s st pc
  have hledger : s.ledger = u.ledger := hm.same .ledger (by decide)
  have hgsc : s.gsc = u.gsc := hm.same .gsc (by decide)
  rw [hu, hledger, hgsc]
  rfl

theorem retireCmd_refused (h : flagF s MC_STATUS_MIGRATING st = true ∨ pc ∈ retiredPcs s st ∨ (retiredPcs s st).length = 2) :
    retireCmd s st pc = setF s MC_STATUS_CMD_ERR st 1 := if_pos (by simpa using h)

theorem retireCmd_starts (h : ¬ (flagF s MC_STATUS_MIGRATING st = true ∨ pc ∈ retiredPcs s st ∨ (retiredPcs s st).length = 2)) :
    retireCmd s st pc = startRetire s st pc := if_neg (by simpa using h)

end

/-! The migration of a retirement (R278). -/

section
variable {s : State} {st upto j : Nat}

theorem migrationDone_none (h : (getStack s st).migrating = none) (upto : Nat) : migrationDone s st upto [] = s := by
  simp [migrationDone, h]

theorem migrationDone_stays (h : (getStack s st).migrating = some j)
    (hk : min upto (migrationLines s st) ≤ j ∨ isolated s (72 + st) = true) : migrationDone s st upto [] = s := by
  simp only [migrationDone, h, if_pos hk]

/-- R278: the copy of a migration has come to line `k` of those that it moves. -/
def linesCopied (s : State) (st j k : Nat) : State :=
  let u := stackBytes s st (512 * (k - j))
  if k < migrationLines s st then setStack u st { getStack u st with migrating := some k }
  else setF (setStack u st { getStack u st with migrating := none }) MC_STATUS_MIGRATING st 0

theorem foldl_fixed_mem {α β : Type} {f : β → α → β} {b : β} : ∀ (l : List α), (∀ a ∈ l, f b a = b) → l.foldl f b = b
  | [], _ => rfl
  | a :: l, h => by
    rw [List.foldl_cons, h a List.mem_cons_self]
    exact foldl_fixed_mem l fun x hx => h x (List.mem_cons_of_mem a hx)

theorem checkLimits_within {pc : Nat} (h : overLimit s st (getFi s MC_PC_CE st pc) (getFi s MC_PC_UE st pc) = false) (was : Bool) :
    checkLimits s st pc was = s := if_pos (by rw [h]; rfl)

theorem regsBut_linesCopied (s : State) (st j k : Nat) : RegsBut ([MC_BYTES, MC_STATUS_MIGRATING].map (fKey · st)) s (linesCopied s st j k) := by
  have hbytes : RegsBut ([MC_BYTES, MC_STATUS_MIGRATING].map (fKey · st)) s (stackBytes s st (512 * (k - j))) :=
    regsBut_setF s (f := MC_BYTES) (by decide) st _
  unfold linesCopied
  extract_lets u
  split
  · exact regs_trans hbytes (regsBut_of_regs _ rfl)
  · exact regs_trans hbytes (regs_trans (regsBut_of_regs _ rfl)
      (regsBut_setF (setStack u st { getStack u st with migrating := none }) (f := MC_STATUS_MIGRATING) (by decide) st 0))

/-- R278, R279: a migration goes on, or ends; pseudo-channels within their limits ask for no other one. -/
theorem migrationDone_copies (hst : st < 256) (h : (getStack s st).migrating = some j) (hk : j < min upto (migrationLines s st))
    (hiso : isolated s (72 + st) = false) (hlim : ∀ x < 64, overLimit s st (getFi s MC_PC_CE st x) (getFi s MC_PC_UE st x) = false) :
    migrationDone s st upto [] = linesCopied s st j (min upto (migrationLines s st)) := by
  obtain ⟨k, hkeq⟩ : ∃ k, min upto (migrationLines s st) = k := ⟨_, rfl⟩
  rw [hkeq] at hk ⊢
  have hregs := regsBut_linesCopied s st j k
  have hwithin : ∀ c ∈ List.range 64, checkLimits (linesCopied s st j k) st c false = linesCopied s st j k := fun c hc => by
    refine checkLimits_within ?_ false
    rw [getFi_apart hregs (by decide) (by decide), getFi_apart hregs (by decide) (by decide), overLimit,
      getF_apart hregs hst hst (by decide), getF_apart hregs hst hst (by decide)]
    exact hlim c (List.mem_range.1 hc)
  have hlines : migrationLines (stackBytes s st (512 * (k - j))) st = migrationLines s st := by
    have hbytes : RegsBut ([MC_BYTES].map (fKey · st)) s (stackBytes s st (512 * (k - j))) := regsBut_setF s (by decide) st _
    rw [migrationLines, migrationLines, retiredPcs_same fun f hf => getF_apart hbytes hst hst (by revert f; decide)]
  have hgo : ¬ (k ≤ j ∨ isolated s (72 + st) = true) := by
    rw [hiso]
    simpa using hk
  simp only [migrationDone, h, hkeq, if_neg hgo, List.foldl_nil, hlines]
  by_cases hend : k < migrationLines s st
  · rw [if_pos hend, linesCopied, if_pos hend]
  · have hcopied : linesCopied s st j k = setF (setStack (stackBytes s st (512 * (k - j))) st
        { getStack (stackBytes s st (512 * (k - j))) st with migrating := none }) MC_STATUS_MIGRATING st 0 := if_neg hend
    rw [if_neg hend, ← hcopied, foldl_fixed_mem _ hwithin, ite_self]

theorem linesCopied_shows (hst : st < 256) {k : Nat} : let t := linesCopied s st j k
    (getStack t st).migrating = (if k < migrationLines s st then some k else none) ∧ (getStack t st).lines = (getStack s st).lines
      ∧ (k = migrationLines s st → getF t MC_STATUS_MIGRATING st = 0) ∧ getF t MC_BYTES st = (getF s MC_BYTES st + 512 * (k - j)) % 2 ^ 64
      ∧ Moves 0x8008 s t := by
  have hbytes : getF (stackBytes s st (512 * (k - j))) MC_BYTES st = (getF s MC_BYTES st + 512 * (k - j)) % 2 ^ 64 :=
    getF_addStat_same s st _ ⟨rfl, rfl⟩
  have hm : ∀ x, Moves 0x8008 s (setStack (stackBytes s st (512 * (k - j))) st x) := fun x =>
    (setStack_moves ..).next (by decide) ((stackBytes_moves ..).le (by decide))
  intro t
  obtain ⟨u, hu⟩ : ∃ u, stackBytes s st (512 * (k - j)) = u := ⟨_, rfl⟩
  have hstack : getStack u st = getStack s st := hu ▸ rfl
  rw [hu] at hbytes hm
  by_cases hk : k < migrationLines s st
  · have ht : t = setStack u st { getStack u st with migrating := some k } := hu ▸ if_pos hk
    rw [ht, getStack_setStack_same, if_pos hk, hstack]
    exact ⟨rfl, rfl, fun he => absurd hk (by omega), hbytes, hm _⟩
  · have ht : t = setF (setStack u st { getStack u st with migrating := none }) MC_STATUS_MIGRATING st 0 := hu ▸ if_neg hk
    have hend : RegsBut ([MC_STATUS_MIGRATING].map (fKey · st)) (setStack u st { getStack u st with migrating := none }) t :=
      ht ▸ regsBut_setF _ (by decide) st 0
    refine ⟨?_, ?_, fun _ => ?_, ?_, ?_⟩
    · rw [ht, getStack_setF, getStack_setStack_same, if_neg hk]
    · rw [ht, getStack_setF, getStack_setStack_same, hstack]
    · rw [ht]
      exact getF_setF_same _ _ _ _ (by decide)
    · rw [getF_apart (f := MC_BYTES) hend hst hst (by decide)]
      exact hbytes
    · rw [ht]
      exact (setF_moves ..).next (by decide) (hm _)

end

end Sys2Proof.Proofs

/-! PROOFS. Pieces whose line HC_ACCESS serves (R284, R289), and the statement about line accesses, sweeps and retirements. -/
namespace Sys2Proof.Proofs
open Sys2Proof Sys2Proof.Machine Sys2Proof.Laws

/-! A piece whose line is served (R284, R289). -/

section
variable {s : State} {q : LineReq} {line p tid k a n : Nat} {x : PieceOut}

/-- R284: the piece takes the bytes that it reads, and one line less is open. -/
theorem serveLine_reads (hline : q.addr / 256 = line) (hown : q.own = some (p, tid, k)) (hx : getPiece s p tid k = some x) (hk : x.kind = 0)
    (hsrc : x.src = [(a, n)]) (ha : a / 256 = line) (hend : a % 256 + n ≤ 256) (hlen : x.data.length = n) (hn : 0 < n) :
    let t := serveLine s q [] 0
    getPiece t p tid k = some { x with lines := x.lines - 1, data := readBytes s a n } ∧ t.mem = s.mem := by
  subst hline
  obtain ⟨htid, hpseq⟩ := getPiece_numbers hx
  intro t
  have ht : t = putPiece (lineServed s q) p { x with lines := x.lines - 1, data := readBytes (lineServed s q) a n } :=
    (serveLine_piece s hown ((getPiece_lineServed s q p tid k).trans hx)).trans (pieceLine_read hk hsrc ha hend hlen hn)
  rw [readBytes_of_moves (lineServed_moves s q) (by decide) (by decide)] at ht
  have hmem : s.mem = t.mem := by
    rw [ht]
    exact ((putPiece_moves ..).next (m := 0x18088) (by decide) ((lineServed_moves s q).le (by decide))).same .mem (by decide)
  refine ⟨?_, hmem.symm⟩
  rw [ht, ← htid, ← hpseq]
  exact getPiece_putPiece (lineServed s q) p { x with lines := x.lines - 1, data := readBytes s a n }

theorem getF_lineServed (q : LineReq) {f : Fld} (hf : ∀ g ∈ lineCounters, f.off < 4096 ∧ g.off < 4096 ∧ (f.blk ≠ g.blk ∨ f.off ≠ g.off))
    {i : Nat} (hi : i < 256) : getF (lineServed s q) f i = getF s f i :=
  getF_apart (regsBut_lineServed s q) hi (show q.addr / 256 % 6 < 256 by omega) hf

/-- R289: a write of another generation changes no byte, and its slice counts it. -/
theorem serveLine_stale (hline : q.addr / 256 = line) (hown : q.own = some (p, tid, k)) (hx : getPiece s p tid k = some x) (hk : x.kind = 3)
    (hdst : x.dst = [(a, n)]) (ha : a / 256 = line) (hend : a % 256 + n ≤ 256) (hlen : x.data.length = n) (hn : 0 < n) (hu : x.unsup = false)
    (hg : x.gen ≠ getF s MC_JOB_GEN_GEN 0) : let t := serveLine s q [] 0
    t.mem = s.mem ∧ getF t MC_STALE_WRITES (line % 6) = satAdd MC_STALE_WRITES.len (getF s MC_STALE_WRITES (line % 6)) 1 := by
  subst hline
  intro t
  have hg' : x.gen ≠ getF (lineServed s q) MC_JOB_GEN_GEN 0 := by rwa [getF_lineServed q (by decide) (by decide)]
  have ht : t = addF (putPiece (lineServed s q) p { x with lines := x.lines - 1 }) MC_STALE_WRITES (q.addr / 256 % 6) 1 :=
    (serveLine_piece s hown ((getPiece_lineServed s q p tid k).trans hx)).trans (pieceLine_stale hk hdst ha hend hlen hn hu hg')
  have hmem : s.mem = t.mem := by
    rw [ht]
    exact ((addF_moves ..).next (m := 0x18088) (by decide) ((putPiece_moves ..).next (by decide) ((lineServed_moves s q).le (by decide)))).same
      .mem (by decide)
  refine ⟨hmem.symm, ?_⟩
  have hput : ∀ y, getF (putPiece (lineServed s q) p y) MC_STALE_WRITES (q.addr / 256 % 6) = getF s MC_STALE_WRITES (q.addr / 256 % 6) :=
    fun _ => getF_lineServed q (by decide) (by omega)
  rw [ht, getF_addF_same _ _ _ (by decide), hput]

/-- R284: a write of the current generation outside the mirror's frames stores its bytes and leaves every other one. -/
theorem serveLine_writes (hline : q.addr / 256 = line) (hown : q.own = some (p, tid, k)) (hx : getPiece s p tid k = some x) (hk : x.kind = 3)
    (hdst : x.dst = [(a, n)]) (ha : a / 256 = line) (hend : a % 256 + n ≤ 256) (hlen : x.data.length = n) (hn : 0 < n) (hu : x.unsup = false)
    (hg : x.gen = getF s MC_JOB_GEN_GEN 0) (hmir : mirrored s a = false)
    (hzero : (getFrame s (a / 2 ^ 21)).rstate ≠ 4 ∨ bit (getFrame s (a / 2 ^ 21)).d.toNat (a % 2 ^ 21 / 65536) = true) :
    let t := serveLine s q [] 0
    BytesBut [(a, n)] s t ∧ ∀ i < n, memByte t (a + i) = ((x.data[i]?).getD ⟨0, false⟩).b := by
  subst hline hlen
  intro t
  obtain ⟨u, hput⟩ : ∃ u, putPiece (lineServed s q) p { x with lines := x.lines - 1 } = u := ⟨_, rfl⟩
  have hm : Moves 0x18088 s u := hput ▸ (putPiece_moves ..).next (by decide) ((lineServed_moves s q).le (by decide))
  have hregs : ∀ f i, getF u f i = getF (lineServed s q) f i := fun f i => by
    rw [← hput]
    rfl
  have hg' : x.gen = getF (lineServed s q) MC_JOB_GEN_GEN 0 := by rwa [getF_lineServed q (by decide) (by decide)]
  have ht : t = landWrite u a x.data := by
    rw [← hput]
    exact (serveLine_piece s hown ((getPiece_lineServed s q p tid k).trans hx)).trans (pieceLine_write hk hdst ha hend rfl hn hu hg')
  have hframe : getFrame u (a / 2 ^ 21) = getFrame s (a / 2 ^ 21) := getFrame_of_moves hm (by decide) _
  have hmir' : mirrored u a = false := by
    refine (mirrored_of_same (fun f hf => (hregs f 6).trans (getF_lineServed q ?_ (by decide))) ?_).trans hmir
    · revert f
      decide
    · rw [hframe]
      exact ⟨rfl, rfl⟩
  obtain ⟨hothers, hbytes⟩ := landWrite_unmirrored (bs := x.data) hmir' (by rwa [hframe])
  rw [ht]
  exact ⟨fun b hb => (hothers b hb).trans (memByte_of_moves hm (by decide) b), hbytes⟩

end

/-- Settles O50: an access is served by its slice and moves the bytes of its piece; a bad word is poisoned and counted; flushes, sweeps,
retirements and migrations are each one of the cases of their function. -/
theorem linesSweepsRetirements : Obligations.LinesSweepsRetirements := by
  unfold Obligations.LinesSweepsRetirements
  have hinst : ∀ i : Fin 6, i.val < 256 := fun i => by omega
  refine ⟨fun addr wr hint s => ?access, fun addr hint e s => ?lost, fun i s => ?flush, fun i s => ?hcSweep, fun i dt n s => ?mcSweep,
    fun i pc s => ?retire, fun i upto s => ?migrate⟩
  case access =>
    intro line st ls h c stays _
    have row : ∀ {u : State}, hcAccess s addr.toNat wr hint.val [] 0 none = u → exec c s = .next u := fun hu => congrArg Host.Outcome.next hu
    refine ⟨fun hstay => row (hcAccess_stays hstay), fun _ hq => row (hcAccess_none hq), fun q hup hq =>
      ⟨fun hne => row (hcAccess_other hq hne), fun hw hh hp => ?served⟩⟩
    have hrow := row (hcAccess_serves hup hq hw hh hp)
    have hline : q.addr / 256 = line := by simpa using List.find?_some hq
    refine ⟨⟨_, hrow, hline ▸ lineQ_serveLine s q⟩, fun hown => ?slice, fun p tid k x hown hx => ⟨?reads, ?writes⟩⟩
    case slice =>
      rw [serveLine_free s hown] at hrow
      have heff : effHint s st q.hint = h := by rw [hh]
      subst hw
      refine ⟨fun l hl => ⟨_, hrow, ?hit⟩, fun hl hthrough => ⟨_, hrow, ?through⟩, fun hl hnormal hroom => ⟨_, hrow, ?room⟩,
        fun v hl hnormal hfull hmax hv => ⟨_, hrow, ?evicts⟩, fun hl hkeep hroom hmax => ⟨_, hrow, ?keep⟩⟩
      case hit =>
        rw [← heff]
        exact lineServed_hit hline rfl (heff ▸ effHint_le s st hint) hl
      case through => exact lineServed_through hline rfl (by rwa [heff]) hl
      case room =>
        have := lineServed_room hline rfl (.inl (heff.trans hnormal)) hl hroom
          fun h2 => absurd (h2.symm.trans (heff.trans hnormal)) (by decide)
        rwa [heff, hnormal] at this
      case evicts => exact lineServed_evicts hline rfl (heff.trans hnormal) hl hfull hmax hv
      case keep =>
        have := lineServed_room hline rfl (.inr (heff.trans hkeep)) hl hroom fun _ => hmax
        rwa [heff, hkeep] at this
    case reads =>
      intro a n hk hsrc ha hend hlen hn
      exact ⟨_, hrow, serveLine_reads hline hown hx hk hsrc ha hend hlen hn⟩
    case writes =>
      intro a n hk hdst ha hend hlen hn _ hu
      exact ⟨fun hg => ⟨_, hrow, serveLine_stale hline hown hx hk hdst ha hend hlen hn hu hg⟩,
        fun hg hmir hzero => ⟨_, hrow, serveLine_writes hline hown hx hk hdst ha hend hlen hn hu hg hmir hzero⟩⟩
  case lost =>
    intro line a st _ hup hwait hq hline htop hmiss hv
    exact ⟨_, rfl, hcAccess_lost ⟨hup, hwait⟩ hq hline htop hmiss hv⟩
  case flush =>
    intro ls n back _
    refine ⟨fun hdown => ⟨congrArg Host.Outcome.next (if_neg (by simp [hdown])), congrArg Host.Outcome.next (if_neg (by simp [hdown]))⟩,
      fun hup => ?wb, fun hup => ?inv, ⟨_, rfl, getF_setF_same _ _ _ _ (by decide), regsBut_wrF s 12 HC_STATUS_FLUSHING i 0 0,
        only_of _ (setF_moves ..) (by decide)⟩⟩
    case wb =>
      have hrow : exec (.hcFlushWb i) s = .next (hcFlushWb s i) := congrArg Host.Outcome.next (if_pos hup)
      exact ⟨_, hrow, flush_shows (hinst i) rfl (flushWb_moves s i), congrArg Stack.lines (getStack_setStack_same ..)⟩
    case inv =>
      have hrow : exec (.hcFlushInv i) s = .next (hcFlushInv s i) := congrArg Host.Outcome.next (if_pos hup)
      exact ⟨_, hrow, flush_shows (hinst i) rfl ((setStack_moves ..).next (by decide) (flushWb_moves s i)),
        congrArg Stack.lines (getStack_setStack_same ..)⟩
  case hcSweep =>
    intro due _
    refine ⟨fun errs hdue => congrArg Host.Outcome.next (hcSweep_early hdue errs), fun hdue => congrArg Host.Outcome.next (hcSweep_due hdue),
      fun e => ?word⟩
    intro a hdue hline htop hst
    exact ⟨fun j v hv => ⟨_, rfl, hcSweep_corrected hdue hline htop hst hv⟩, fun hv => ⟨_, rfl, hcSweep_lost hdue hline htop hst hv⟩⟩
  case mcSweep =>
    intro u q goes _
    refine ⟨fun hgo => congrArg Host.Outcome.next (mcSweepLine_stays (s := u) hgo n), fun hgo => ?goes⟩
    obtain ⟨hbytes, hreports, hswept⟩ := lineSwept_shows (s := u) (n := n) (hinst i)
    obtain ⟨hplace, hothers, hcleared, hmoved⟩ := sweepMoved_shows (s := lineSwept u i n) (q := q) (hinst i)
    refine ⟨_, congrArg Host.Outcome.next (mcSweepLine_goes (s := u) hgo), (hothers _ (by simp)).trans hbytes, hplace, hcleared,
      (hothers _ (by simp)).trans hreports, ?_⟩
    exact only_of _ (hmoved.next (m := 0x20040000000000a) (by decide) (hswept.next (by decide) ((advance_moves s dt).le (by decide)))) (by decide)
  case retire =>
    intro r refused _
    refine ⟨fun hdown => congrArg Host.Outcome.next (if_neg (by simp [hdown])), fun hup href =>
      congrArg Host.Outcome.next ((if_pos hup).trans (retireCmd_refused href)), fun hup hgo hfirst => ?starts⟩
    have hrow : exec (.mcRetireCmd i pc) s = .next (startRetire s i pc) :=
      congrArg Host.Outcome.next ((if_pos hup).trans (retireCmd_starts hgo))
    obtain ⟨hpcs, hmig, hcount, hstack⟩ := startRetire_shows (hinst i) pc.isLt (fun h2 => hgo (.inr (.inr h2))) hfirst
    have hm := startRetire_moves s i pc
    exact ⟨_, hrow, hpcs, hmig, hcount, hstack, startRetire_ledger s i pc, (hm.same .mem (by decide)).symm, (hm.same .poison (by decide)).symm⟩
  case migrate =>
    intro c k _
    refine ⟨fun hnone => congrArg Host.Outcome.next (migrationDone_none hnone upto), fun j hj =>
      ⟨fun hk => congrArg Host.Outcome.next (migrationDone_stays hj hk), fun hk hiso hlim => ?copies⟩⟩
    have hrow : exec c s = .next (linesCopied s i j k) := congrArg Host.Outcome.next (migrationDone_copies (hinst i) hj hk hiso hlim)
    obtain ⟨hmig, hlines, hend, hbytes, hm⟩ := linesCopied_shows (s := s) (j := j) (k := k) (hinst i)
    exact ⟨_, hrow, hmig, hlines, hend, hbytes, only_of _ hm (by decide)⟩

end Sys2Proof.Proofs
